-- ==== Sys2Proof/Word.lean ====
section
/-! DEFINITION. Words, bytes and the small containers of the model: the types every other file is written over. -/

namespace Sys2Proof

/-- A 64-bit register value (spec/01 R18). -/
abbrev Word := BitVec 64

/-- One byte of memory. -/
abbrev Byte := BitVec 8

/-- A message as a network interface carries it (R279, R280, R311): the sending rank, the target's gang and rank, the
kind code of R243 (0 DATA, 1 SPAWN, 2 WAKE, 3 REGW), the origin bit of R281 and the 64-byte payload. -/
structure Msg where
  kind    : BitVec 2
  org     : Bool
  srank   : Nat
  gang    : Nat
  trank   : Nat
  payload : BitVec 512
deriving DecidableEq, Repr

/-- A finite map from numbers, as plain data: the first entry for a key counts. -/
abbrev Tbl (α : Type) := List (Nat × α)

/-- The entry of a key, if one is listed. -/
def Tbl.find? {α : Type} : Tbl α → Nat → Option α
  | [], _ => none
  | (k, v) :: t, n => if k = n then some v else Tbl.find? t n

/-- The entry of a key, or a default. -/
def Tbl.getD {α : Type} (t : Tbl α) (n : Nat) (d : α) : α :=
  match Tbl.find? t n with
  | some v => v
  | none => d

/-- Write the entry of a key: the listed one is replaced in place, a new one goes to the end. -/
def Tbl.set {α : Type} : Tbl α → Nat → α → Tbl α
  | [], n, v => [(n, v)]
  | (k, w) :: t, n, v => if k = n then (k, v) :: t else (k, w) :: Tbl.set t n v

/-- Remove the entry of a key. -/
def Tbl.erase {α : Type} : Tbl α → Nat → Tbl α
  | [], _ => []
  | (k, w) :: t, n => if k = n then Tbl.erase t n else (k, w) :: Tbl.erase t n

/-- An image of the controllers in a slot of the flash (R488): MAGIC, SVN, LEN, the public keys EDPK and MLPK, whether EDSIG and
MLSIG verify with them over the bytes 0 to LEN - 1, and of BODY the encodings that its Gale and its Breeze expansion table omit
(R90). -/
structure BootImage where
  magic  : BitVec 32
  svn    : Nat
  len    : Nat
  edpk   : BitVec 256
  mlpk   : BitVec 15616
  edOk   : Bool
  mlOk   : Bool
  gale   : List Nat
  breeze : List Nat
deriving DecidableEq, Repr, Inhabited

/-- What a boot step finds (R489): the unit that fails in it, if one does; whether the controller of port die 12 is back (R492);
the L2 banks (die x 2,048 + core x 32 + bank) and the routers (die x 64 + core) that fail their tests (R507); the package number,
the other joined packages, the Etesian ports whose links are up and the routes to each package (R476); the IEEE 1588 time
(R491). -/
structure BootFound where
  fail    : Option Nat
  back    : Bool
  banks   : List Nat
  routers : List Nat
  number  : Nat
  joined  : List Nat
  ports   : List Nat
  routes  : Tbl (List (List Nat))
  ptp     : Nat
deriving DecidableEq, Repr, Inhabited

end Sys2Proof
end

