-- ==== Sys2Proof/Machine/Bits.lean ====
section
/-! DEFINITION. Bits and bytes: little-endian byte strings (R7), fields, counts of bits, integers of a width. -/

namespace Sys2Proof.Machine

/-- Byte k of a number, little-endian (R7). -/
def byteAt (v : Nat) (k : Nat) : Byte := BitVec.ofNat 8 (v >>> (8 * k))

/-- The n low bytes of a number, the least significant first (R7). -/
def bytesOf (v : Nat) : Nat → List Byte
  | 0 => []
  | n + 1 => BitVec.ofNat 8 v :: bytesOf (v >>> 8) n

/-- The number of a byte string, the least significant byte first (R7). -/
def natOf : List Byte → Nat
  | [] => 0
  | b :: t => b.toNat + 256 * natOf t

/-- The 64-bit value of up to eight bytes (R7). -/
def wordOf (bs : List Byte) : Word := BitVec.ofNat 64 (natOf bs)

/-- The number `v` as a signed number of `w` bits. -/
def toSigned (w v : Nat) : Int :=
  let r := v % 2 ^ w
  if 2 * r < 2 ^ w then (r : Int) else (r : Int) - (2 ^ w : Nat)

/-- An integer modulo 2^w, as the number of its w low bits (R14). -/
def wrap (w : Nat) (i : Int) : Nat := (i % (2 ^ w : Nat)).toNat

/-- The value of a w-bit number, zero-extended to 64 bits. -/
def zext64 (v : Nat) : Word := BitVec.ofNat 64 v

/-- The value of a w-bit number, sign-extended to 64 bits. -/
def sext64 (w v : Nat) : Word := BitVec.ofInt 64 (toSigned w v)

/-- Bits [hi:lo] of a word as a number. -/
def bits (v : Word) (hi lo : Nat) : Nat := (v.toNat >>> lo) % 2 ^ (hi + 1 - lo)

/-- Bit k of a word. -/
def bit (v : Word) (k : Nat) : Bool := v.getLsbD k

/-- One bit as a number. -/
def b2n (b : Bool) : Nat := if b then 1 else 0

/-- Is the number's field [hi:lo] zero. -/
def zeroBits (v : Word) (hi lo : Nat) : Bool := bits v hi lo == 0

/-- The number of one bits among the n low bits. -/
def popcount (v : Nat) : Nat → Nat
  | 0 => 0
  | n + 1 => v % 2 + popcount (v / 2) n

/-- The number of zero bits above the highest one bit of a w-bit number; w for zero. -/
def clz (w v : Nat) : Nat := if v = 0 then w else w - 1 - Nat.log2 v

/-- The number of zero bits below the lowest one bit, looking at n bits; n for zero. -/
def ctz (v : Nat) : Nat → Nat
  | 0 => 0
  | n + 1 => if v % 2 = 1 then 0 else 1 + ctz (v / 2) n

/-- A number with `n` bits at `lo` replaced by the low bits of `x`. -/
def putBits (v lo n x : Nat) : Nat :=
  (v / 2 ^ (lo + n)) * 2 ^ (lo + n) + (x % 2 ^ n) * 2 ^ lo + v % 2 ^ lo

/-- Bits `lo` to `lo + n - 1` of a bit vector, as a number. -/
def sliceNat {w : Nat} (v : BitVec w) (lo n : Nat) : Nat := (v.toNat >>> lo) % 2 ^ n

/-- A bit vector with `n` bits at `lo` replaced by the low bits of `x`. -/
def putSlice {w : Nat} (v : BitVec w) (lo n x : Nat) : BitVec w :=
  let keep := v &&& ~~~ (BitVec.ofNat w ((2 ^ n - 1) <<< lo))
  keep ||| BitVec.ofNat w ((x % 2 ^ n) <<< lo)

/-- The numbers from `a` to `a + n - 1`. -/
def upFrom (a : Nat) : Nat → List Nat
  | 0 => []
  | n + 1 => a :: upFrom (a + 1) n

/-- The canonical virtual addresses of U, S and H: bits [63:48] equal bit 47 (R414). -/
def canonical48 (v : Word) : Bool := v >>> 47 == 0 || v >>> 47 == 0x1FFFF

/-- Round up to a multiple of `k`. -/
def roundUp (n k : Nat) : Nat := (n + k - 1) / k * k

end Sys2Proof.Machine
end

