-- ==== Sys2Proof/Machine/Flags.lean ====
section
/-! DEFINITION. Number formats, exact values, rounding and the exception flags (R42-R55, R61, R62), by exact integer
arithmetic. -/

namespace Sys2Proof.Machine

/-- The exception flags as they lie in FSTAT (R55). -/
def flNV : BitVec 5 := 16#5
def flDZ : BitVec 5 := 8#5
def flOF : BitVec 5 := 4#5
def flUF : BitVec 5 := 2#5
def flNX : BitVec 5 := 1#5

/-- NV when a condition holds. -/
def nvIf (b : Bool) : BitVec 5 := if b then flNV else 0

/-- What the special exponent of a format stands for (R43): IEEE infinities and NaNs, the single NaN of E4M3, or nothing. -/
inductive Special where
  | ieee | nanOnly | none
deriving DecidableEq, Repr

/-- A floating-point format (R43): exponent and significand bits, bias, special exponent, the significand field of the
largest finite value and its biased exponent, whether signalling NaNs exist (R44). -/
structure Fmt where
  eb   : Nat
  mb   : Nat
  bias : Nat
  sp   : Special
  maxM : Nat
  maxE : Nat
  sig  : Bool
deriving DecidableEq, Repr

/-- The formats by NF code (R43); codes above 8 are no floating-point format and read as E2M1. -/
def fmtOf : Nat → Fmt
  | 0 => { eb := 11, mb := 52, bias := 1023, sp := .ieee, maxM := 2 ^ 52 - 1, maxE := 2046, sig := true }
  | 1 => { eb := 8, mb := 23, bias := 127, sp := .ieee, maxM := 2 ^ 23 - 1, maxE := 254, sig := true }
  | 2 => { eb := 8, mb := 7, bias := 127, sp := .ieee, maxM := 127, maxE := 254, sig := true }
  | 3 => { eb := 5, mb := 10, bias := 15, sp := .ieee, maxM := 1023, maxE := 30, sig := true }
  | 4 => { eb := 4, mb := 3, bias := 7, sp := .nanOnly, maxM := 6, maxE := 15, sig := false }
  | 5 => { eb := 5, mb := 2, bias := 15, sp := .ieee, maxM := 3, maxE := 30, sig := false }
  | 6 => { eb := 3, mb := 2, bias := 3, sp := .none, maxM := 3, maxE := 7, sig := false }
  | 7 => { eb := 2, mb := 3, bias := 1, sp := .none, maxM := 7, maxE := 3, sig := false }
  | _ => { eb := 2, mb := 1, bias := 1, sp := .none, maxM := 1, maxE := 3, sig := false }

/-- Bits of a format. -/
def Fmt.width (f : Fmt) : Nat := 1 + f.eb + f.mb

/-- The value of an encoding: a NaN (signalling or quiet), an infinity, or (-1)^s m 2^e. -/
inductive FVal where
  | nan (sig : Bool)
  | inf (s : Bool)
  | fin (s : Bool) (m : Nat) (e : Int)
deriving DecidableEq, Repr

/-- The value of the low bits of `v` in a format (R42-R44). -/
def Fmt.value (f : Fmt) (v : Nat) : FVal :=
  let m := v % 2 ^ f.mb
  let e := v / 2 ^ f.mb % 2 ^ f.eb
  let s := v / 2 ^ (f.mb + f.eb) % 2 = 1
  let top := e = 2 ^ f.eb - 1
  if f.sp = .ieee ∧ top then
    if m = 0 then .inf s else .nan (f.sig && decide (m / 2 ^ (f.mb - 1) = 0))
  else if f.sp = .nanOnly ∧ top ∧ m = 2 ^ f.mb - 1 then .nan false
  else if e = 0 then .fin s m (1 - (f.bias : Int) - f.mb)
  else .fin s (2 ^ f.mb + m) ((e : Int) - f.bias - f.mb)

/-- The sign bit of an encoding of a format. -/
def Fmt.sign (f : Fmt) (s : Bool) : Nat := if s then 2 ^ (f.mb + f.eb) else 0

/-- The encoding of an infinity (formats that have one). -/
def Fmt.infBits (f : Fmt) (s : Bool) : Nat := f.sign s + (2 ^ f.eb - 1) * 2 ^ f.mb

/-- The largest finite value of a sign. -/
def Fmt.maxBits (f : Fmt) (s : Bool) : Nat := f.sign s + f.maxE * 2 ^ f.mb + f.maxM

/-- The canonical NaN (R43); the formats without one use +0 (R50). -/
def Fmt.nanBits (f : Fmt) : Nat :=
  match f.sp with
  | .ieee => (2 ^ f.eb - 1) * 2 ^ f.mb + 2 ^ (f.mb - 1)
  | .nanOnly => 2 ^ (f.eb + f.mb) - 1
  | .none => 0

/-- An infinity stored in a format (R49, R177): its bits and the flags it raises. -/
def Fmt.storeInf (f : Fmt) (sat s : Bool) : Nat × BitVec 5 :=
  if f.sp = .none ∨ (f.sig = false ∧ sat = true) then (f.maxBits s, flOF ||| flNX)
  else if f.sp = .nanOnly then (f.nanBits, flNV)
  else (f.infBits s, 0)

/-- A NaN stored in a format (R50, R52). -/
def Fmt.storeNan (f : Fmt) : Nat × BitVec 5 := (f.nanBits, if f.sp = .none then flNV else 0)

/-- Does a rounding away from zero happen, for a significand `k`, its remainder `rem` of 2^`sh`, in mode `rm` (R47)?  The codes
5-7 are reserved, and no instruction rounds by one (R6). -/
def roundsUp (rm : Nat) (s : Bool) (k rem sh : Nat) : Bool :=
  if rem = 0 then false
  else match rm with
    | 0 => decide (2 ^ sh < 2 * rem) || (decide (2 ^ sh = 2 * rem) && decide (k % 2 = 1))
    | 1 => false
    | 2 => s
    | 3 => !s
    | _ => decide (2 ^ sh ≤ 2 * rem)

/-- The result of an overflow (R48): E4M3 and E5M2 saturate under SAT; E4M3 has its canonical NaN for an infinity. -/
def Fmt.overflow (f : Fmt) (sat : Bool) (rm : Nat) (s : Bool) : Nat × BitVec 5 :=
  let toMax := f.sp = .none ∨ (f.sig = false ∧ sat = true) ∨ rm = 1 ∨ (rm = 2 ∧ s = false) ∨ (rm = 3 ∧ s = true)
  (if toMax then f.maxBits s else if f.sp = .nanOnly then f.nanBits else f.infBits s, flOF ||| flNX)

/-- round_to of a finite exact value (R48), with the flags of R54. -/
def Fmt.roundFin (f : Fmt) (sat : Bool) (rm : Nat) (s : Bool) (m : Nat) (e : Int) : Nat × BitVec 5 :=
  if m = 0 then (f.sign s, 0)
  else
    let lead : Int := (Nat.log2 m : Int) + e
    let q : Int := max (lead - f.mb) (1 - (f.bias : Int) - f.mb)
    let sh := (q - e).toNat
    let k0 := if e ≥ q then m * 2 ^ (e - q).toNat else m / 2 ^ sh
    let rem := if e ≥ q then 0 else m % 2 ^ sh
    let k1 := if roundsUp rm s k0 rem sh then k0 + 1 else k0
    let k := if k1 = 2 ^ (f.mb + 1) then 2 ^ f.mb else k1
    let q1 := if k1 = 2 ^ (f.mb + 1) then q + 1 else q
    let be := (q1 + f.mb + f.bias).toNat
    if k < 2 ^ f.mb then (f.sign s + k, if rem = 0 then 0 else flUF ||| flNX)
    else if f.maxE < be ∨ (f.maxE = be ∧ 2 ^ f.mb + f.maxM < k) then f.overflow sat rm s
    else (f.sign s + be * 2 ^ f.mb + (k - 2 ^ f.mb), if rem = 0 then 0 else flNX)

/-- A value stored in a format (R48-R50): bits and flags.  A signalling NaN has raised NV before. -/
def Fmt.store (f : Fmt) (sat : Bool) (rm : Nat) : FVal → Nat × BitVec 5
  | .nan _ => f.storeNan
  | .inf s => f.storeInf sat s
  | .fin s m e => f.roundFin sat rm s m e

/-! Arithmetic: an exact value and the flags of the operation; a value that is not a dyadic number carries one more bit,
set, below every bit that a format can hold. -/

/-- Is it a NaN? -/
def FVal.isNan : FVal → Bool
  | .nan _ => true
  | .inf _ => false
  | .fin _ _ _ => false

/-- Is it a signalling NaN? -/
def FVal.isSig : FVal → Bool
  | .nan g => g
  | .inf _ => false
  | .fin _ _ _ => false

/-- The sign, for numbers. -/
def FVal.sgn : FVal → Bool
  | .nan _ => false
  | .inf s => s
  | .fin s _ _ => s

/-- Is it a zero? -/
def FVal.isZero : FVal → Bool
  | .nan _ => false
  | .inf _ => false
  | .fin _ m _ => decide (m = 0)

/-- The negated value. -/
def FVal.neg : FVal → FVal
  | .nan g => .nan g
  | .inf s => .inf !s
  | .fin s m e => .fin (!s) m e

/-- The magnitude. -/
def FVal.abs : FVal → FVal
  | .nan g => .nan g
  | .inf _ => .inf false
  | .fin _ m e => .fin false m e

/-- An integer as a value; zero is +0. -/
def FVal.ofInt (i : Int) : FVal := .fin (decide (i < 0)) i.natAbs 0

/-- A finite value as a signed integer times 2^e. -/
def signedM (s : Bool) (m : Nat) : Int := if s then -(m : Int) else m

/-- A sum of two dyadic numbers n 2^e. -/
def dyAdd (a b : Int × Int) : Int × Int :=
  if a.1 = 0 then b
  else if b.1 = 0 then a
  else if a.2 ≤ b.2 then (a.1 + b.1 * 2 ^ (b.2 - a.2).toNat, a.2)
  else (a.1 * 2 ^ (a.2 - b.2).toNat + b.1, b.2)

/-- The exact sum of terms that are not NaN (R53, R54): infinities of both signs are invalid, a zero sum is -0 if every
term is -0 or in RDN. -/
def exactSum (rm : Nat) (ts : List FVal) : FVal × BitVec 5 :=
  let posInf := ts.any fun t => decide (t = .inf false)
  let negInf := ts.any fun t => decide (t = .inf true)
  if posInf && negInf then (.nan false, flNV)
  else if posInf then (.inf false, 0)
  else if negInf then (.inf true, 0)
  else
    let sum : Int × Int := ts.foldl (fun acc t => match t with
      | .fin s m e => dyAdd acc (signedM s m, e)
      | .nan _ => acc
      | .inf _ => acc) (0, 0)
    if sum.1 = 0 then (.fin (decide (rm = 2) || ts.all fun t => t.sgn && t.isZero) 0 0, 0)
    else (.fin (decide (sum.1 < 0)) sum.1.natAbs sum.2, 0)

/-- The exact product of numbers that are not NaN: 0 x inf is invalid. -/
def exactMul (a b : FVal) : FVal × BitVec 5 :=
  if (a.isZero && (match b with | .inf _ => true | _ => false)) || (b.isZero && (match a with | .inf _ => true | _ => false)) then
    (.nan false, flNV)
  else match a, b with
    | .fin s m e, .fin t n g => (.fin (s != t) (m * n) (e + g), 0)
    | .inf s, .fin t _ _ => (.inf (s != t), 0)
    | .fin s _ _, .inf t => (.inf (s != t), 0)
    | .inf s, .inf t => (.inf (s != t), 0)
    | .nan _, _ => (.nan false, 0)
    | _, .nan _ => (.nan false, 0)

/-- a + b (R103). -/
def fAdd (rm : Nat) (a b : FVal) : FVal × BitVec 5 :=
  if a.isNan || b.isNan then (.nan false, nvIf (a.isSig || b.isSig)) else exactSum rm [a, b]

/-- a - b (R103). -/
def fSub (rm : Nat) (a b : FVal) : FVal × BitVec 5 := fAdd rm a b.neg

/-- a x b (R103). -/
def fMul (a b : FVal) : FVal × BitVec 5 :=
  if a.isNan || b.isNan then (.nan false, nvIf (a.isSig || b.isSig)) else exactMul a b

/-- A quotient of integers with one more bit that says whether a remainder is left. -/
def quotJam (m n k : Nat) : Nat := 2 * (m * 2 ^ k / n) + (if m * 2 ^ k % n = 0 then 0 else 1)

/-- a / b (R103). -/
def fDiv (a b : FVal) : FVal × BitVec 5 :=
  match a, b with
  | .nan g, .nan h => (.nan false, nvIf (g || h))
  | .nan g, .inf _ => (.nan false, nvIf g)
  | .nan g, .fin _ _ _ => (.nan false, nvIf g)
  | .inf _, .nan h => (.nan false, nvIf h)
  | .fin _ _ _, .nan h => (.nan false, nvIf h)
  | .inf _, .inf _ => (.nan false, flNV)
  | .inf s, .fin t _ _ => (.inf (s != t), 0)
  | .fin s _ _, .inf t => (.fin (s != t) 0 0, 0)
  | .fin s m e, .fin t n g =>
    if n = 0 then (if m = 0 then (.nan false, flNV) else (.inf (s != t), flDZ))
    else if m = 0 then (.fin (s != t) 0 0, 0)
    else
      let k := 68 + Nat.log2 n
      (.fin (s != t) (quotJam m n k) (e - g - k - 1), 0)

/-- The integer square root, bit by bit from bit `n - 1`. -/
def isqrtFrom (v : Nat) : Nat → Nat → Nat
  | 0, r => r
  | n + 1, r => if (r + 2 ^ n) * (r + 2 ^ n) ≤ v then isqrtFrom v n (r + 2 ^ n) else isqrtFrom v n r

/-- The integer square root. -/
def isqrt (v : Nat) : Nat := isqrtFrom v (Nat.log2 v / 2 + 1) 0

/-- The square root of a number (R103). -/
def fSqrt (a : FVal) : FVal × BitVec 5 :=
  match a with
  | .nan g => (.nan false, nvIf g)
  | .inf s => if s then (.nan false, flNV) else (.inf false, 0)
  | .fin s m e =>
    if m = 0 then (.fin s 0 0, 0)
    else if s then (.nan false, flNV)
    else
      let m1 := if e % 2 = 0 then m else 2 * m
      let e1 := if e % 2 = 0 then e else e - 1
      let v := m1 * 2 ^ 136
      let r := isqrt v
      (.fin false (2 * r + (if r * r = v then 0 else 1)) (e1 / 2 - 68 - 1), 0)

/-- The fused multiply-add of R112 with the signs of its two terms: a 0 x inf product raises NV even beside a quiet NaN. -/
def fFma (rm : Nat) (negP negC : Bool) (a b c : FVal) : FVal × BitVec 5 :=
  if a.isNan || b.isNan then (.nan false, nvIf (a.isSig || b.isSig || c.isSig))
  else
    let (p, fl) := exactMul a b
    if p.isNan || c.isNan then (.nan false, fl ||| nvIf c.isSig)
    else exactSum rm [if negP then p.neg else p, if negC then c.neg else c]

/-- a < b of numbers, with -0 equal to +0. -/
def fLtNum (a b : FVal) : Bool :=
  match a, b with
  | .inf s, .inf t => s && !t
  | .inf s, .fin _ _ _ => s
  | .fin _ _ _, .inf t => !t
  | .fin s m e, .fin t n g =>
    decide (0 < (dyAdd (signedM t n, g) (-(signedM s m), e)).1)
  | .nan _, _ => false
  | _, .nan _ => false

/-- a = b of numbers, with -0 equal to +0. -/
def fEqNum (a b : FVal) : Bool := !a.isNan && !b.isNan && !fLtNum a b && !fLtNum b a

/-- Is a below b where -0 counts as smaller than +0 (R104)? -/
def fLess (a b : FVal) : Bool := fLtNum a b || (fEqNum a b && a.sgn && !b.sgn)

/-- FMIN and FMAX on encodings (R104): bits and flags. -/
def Fmt.minMax (f : Fmt) (isMax : Bool) (a b : Nat) : Nat × BitVec 5 :=
  let va := f.value a
  let vb := f.value b
  let fl := nvIf (va.isSig || vb.isSig)
  if va.isNan && vb.isNan then (f.nanBits, fl)
  else if va.isNan then (b % 2 ^ f.width, fl)
  else if vb.isNan then (a % 2 ^ f.width, fl)
  else if (if isMax then fLess va vb else fLess vb va) then (b % 2 ^ f.width, fl)
  else (a % 2 ^ f.width, fl)

/-- The class code of R106, with the sign bit below it. -/
def Fmt.classify (f : Fmt) (v : Nat) : Nat :=
  let s := v / 2 ^ (f.mb + f.eb) % 2
  s + 2 * (match f.value v with
    | .nan g => if g then 5 else 4
    | .inf _ => 3
    | .fin _ m _ => if m = 0 then 0 else if v / 2 ^ f.mb % 2 ^ f.eb = 0 then 1 else 2)

/-- A value rounded to an integer, and whether it was exact. -/
def roundInt (rm : Nat) (s : Bool) (m : Nat) (e : Int) : Int × Bool :=
  if 0 ≤ e then (signedM s (m * 2 ^ e.toNat), true)
  else
    let sh := (-e).toNat
    let k := m / 2 ^ sh
    let rem := m % 2 ^ sh
    (signedM s (if roundsUp rm s k rem sh then k + 1 else k), decide (rem = 0))

/-- A conversion to an integer between `lo` and `hi` (R51). -/
def toInteger (rm : Nat) (lo hi : Int) : FVal → Int × BitVec 5
  | .nan _ => (0, flNV)
  | .inf s => (if s then lo else hi, flNV)
  | .fin s m e =>
    let (i, exact) := roundInt rm s m e
    if i < lo then (lo, flNV) else if hi < i then (hi, flNV) else (i, if exact then 0 else flNX)

/-! The special functions (R61, R62). -/

/-- Roots 2^(2^-i) in fixed point with P fraction bits, multiplied for the one bits of a fraction of `n` bits, the highest
first. -/
def exp2Bits (P : Nat) : Nat → Nat → Nat → Nat → Nat
  | 0, _, _, acc => acc
  | n + 1, frac, root, acc =>
    let r := isqrt (root * 2 ^ P)
    exp2Bits P n (frac % 2 ^ n) r (if frac / 2 ^ n = 1 then acc * r / 2 ^ P else acc)

/-- FEXP2 (R61, R62). -/
def fExp2 : FVal → FVal × BitVec 5
  | .nan g => (.nan false, nvIf g)
  | .inf s => (if s then .fin false 0 0 else .inf false, 0)
  | .fin s m e =>
    if m = 0 then (.fin false 1 0, 0)
    else if 11 < (Nat.log2 m : Int) + e then (.fin false 1 (if s then -4096 else 4096), 0)
    else
      let p := (-e).toNat
      let i : Int := signedM s (if 0 ≤ e then m * 2 ^ e.toNat else m)
      let n := i / (2 ^ p : Nat)
      let frac := (i % (2 ^ p : Nat)).toNat
      if frac = 0 then (.fin false 1 n, 0)
      else (.fin false (2 * exp2Bits 256 p frac (2 * 2 ^ 256) (2 ^ 256) + 1) (n - 257), 0)

/-- The binary digits of log2 of y / 2^P in [1, 2), by repeated squaring. -/
def log2Bits (P : Nat) : Nat → Nat → Nat → Nat
  | 0, _, acc => acc
  | n + 1, y, acc =>
    let z := y * y / 2 ^ P
    if 2 * 2 ^ P ≤ z then log2Bits P n (z / 2) (2 * acc + 1) else log2Bits P n z (2 * acc)

/-- FLOG2 (R61, R62). -/
def fLog2 : FVal → FVal × BitVec 5
  | .nan g => (.nan false, nvIf g)
  | .inf s => if s then (.nan false, flNV) else (.inf false, 0)
  | .fin s m e =>
    if m = 0 then (.inf true, flDZ)
    else if s then (.nan false, flNV)
    else
      let l := Nat.log2 m
      let n : Int := (l : Int) + e
      if m = 2 ^ l then (FVal.ofInt n, 0)
      else
        let fixed : Int := 2 * (n * 2 ^ 160 + log2Bits 400 160 (m * 2 ^ (400 - l)) 0) + 1
        (.fin (decide (fixed < 0)) fixed.natAbs (-161), 0)

/-- FRCP (R61, R62). -/
def fRcp (a : FVal) : FVal × BitVec 5 := fDiv (.fin false 1 0) a

/-- FRSQ (R61, R62). -/
def fRsq : FVal → FVal × BitVec 5
  | .nan g => (.nan false, nvIf g)
  | .inf s => if s then (.nan false, flNV) else (.fin false 0 0, 0)
  | .fin s m e =>
    if m = 0 then (.inf s, flDZ)
    else if s then (.nan false, flNV)
    else
      let m1 := if e % 2 = 0 then m else 2 * m
      let e1 := if e % 2 = 0 then e else e - 1
      let k := 100 + Nat.log2 m1
      let r := isqrt (2 ^ (2 * k) / m1)
      (.fin false (2 * r + (if r * r * m1 = 2 ^ (2 * k) then 0 else 1)) (-(e1 / 2) - k - 1), 0)

/-- The value of an E8M0 scale: its exponent, or none for the scale NaN (R45). -/
def e8m0 (v : Nat) : Option Int := if v % 256 = 255 then none else some ((v % 256 : Nat) - 127)

end Sys2Proof.Machine
end

