-- ==== Sys2Proof/Syntax.lean ====
section
/-! DEFINITION. The instruction set of the TM12: one constructor for every row of spec/opcode_table.json.
The first 101 are the device's own steps and the outside world's requests (spec/95_what_each_step_holds.md); they have
no word and carry their data.  The other 346 are the words of spec/03_encoding_and_opcode_map.md, with their fields as the
encoding gives them (a field is a bit string of the width of the row; which values are reserved is WellFormed.lean).
Identifiers in their arguments: `c` a context (die x 512 + core x 8 + slot), `core` a core (die x 64 + core), `line` a
physical line number (address / 64), `port` 0 or 1 for port die 12 or 13, `fn` a function of the port. -/

namespace Sys2Proof

inductive Instr where
  /-- ASYNC_TRAP_TAKEN (R395): Takes a pending unmasked asynchronous trap (machine_check, gang_stop, lane_reclaim_notify) at an instruction boundary. -/
  | asyncTrapTaken
  /-- SLOTCTL_START (R41): A write with START = 1 puts an out-of-rotation slot into rotation at SLOTPC. -/
  | slotctlStart (v : Word)
  /-- SHAPE_WRITE (R401): A MOVSW to SHAPE writes VL, VROWS and TR after checks. -/
  | shapeWrite (v : Word)
  /-- FSTAT_WRITE (R32): A MOVSW to FSTAT waits for earlier vector and matrix flags, then writes. -/
  | fstatWrite (v : Word)
  /-- MSTAT_CLEAR (R237): A W1C write of MSTAT waits for earlier matrix entries and MRDs, then clears flags. -/
  | mstatClear (v : Word)
  /-- MOWN_SAVE (R407): SV saves the matrix state to the old owner's TSAVE area after the queue drains. -/
  | mownSave (slot : BitVec 3)
  /-- MOWN_LOAD (R407): LD loads the new owner's matrix state from its TSAVE area, converting row counts. -/
  | mownLoad (slot : BitVec 3)
  /-- MOWN_ZERO (R407): ZR zeroes the tiles and planes and sets MSTAT to 0 after the slot changes. -/
  | mownZero (slot : BitVec 3)
  /-- DPBANK_WRITE (R332): A DPBANK write resizes the scratchpad with write-back and zeroing, or changes bank owners with zeroing. -/
  | dpbankWrite (v : Word)
  /-- LEASE_LENGTH_WRITE (R335): A write of LEASE_D or LEASE_P sets the length for later grants. -/
  | leaseLengthWrite (pkgWide : Bool) (v : Word)
  /-- DETMODE_WRITE (R319): Setting DETMODE.0 waits for full-width links and fixes leases and borrowing. -/
  | detmodeWrite (v : Word)
  /-- RANK_ENTRY_WRITE (R306): An RTDATA write updates a rank entry in every member core; clearing IT releases held messages. -/
  | rankEntryWrite (v : Word)
  /-- INBOX_REGISTER_WRITE (R310): Slot 7 writes the inbox ring registers or clears DEFER bits. -/
  | inboxRegisterWrite (v : Word)
  /-- WORLD_TABLE_WRITE (R423): A WTDATA write updates a world-table entry; a partition record is written to every die. -/
  | worldTableWrite (v : Word)
  /-- FCTL_WRITE (R468): A write of FCTL changes doorbell delivery and evaluates the doorbell. -/
  | fctlWrite (port fn : Nat) (v : Word)
  /-- DBTGT_WRITE (R468): A write of DBTGT changes the doorbell target and evaluates the doorbell. -/
  | dbtgtWrite (port fn : Nat) (v : Word)
  /-- LQHEAD_WRITE (R468): A write of LQHEAD acknowledges a doorbell, clears OUT and evaluates. -/
  | lqheadWrite (port fn : Nat) (v : Word)
  /-- HINT_WRITE (R470): A write of HINT sends an MSI-X vector of the function. -/
  | hintWrite (port fn : Nat) (v : Word)
  /-- CODE_RANGE_ENABLE (R474): Writing CRCTL.V := 1 copies the chunk table and sets every chunk absent. -/
  | codeRangeEnable (port fn k : Nat) (v : Word)
  /-- CODE_RANGE_DISABLE (R474): Writing CRCTL.V := 0 makes the range not valid. -/
  | codeRangeDisable (port fn k : Nat) (v : Word)
  /-- FCB_REGISTER_WRITE (R463): A store to an FCB register without behaviour of its own, checked under R464 and R465. -/
  | fcbRegisterWrite (port fn off : Nat) (v : Word)
  /-- MEMORY_REPLY (R122): The reply of an ordinary access, atomic, LDL or STC returns and the context re-enters rotation. -/
  | memoryReply (c : Nat) (err : BitVec 2) (line : Nat)
  /-- POSTED_STORE_DRAIN (R124): A posted relaxed store leaves the store path into the die's caches. -/
  | postedStoreDrain (c : Nat)
  /-- ICACHE_FILL (R117): An instruction-cache line fill completes, decrypting code lines. -/
  | icacheFill (core pa : Nat) (err : BitVec 2)
  /-- PAGE_WALK (R421): A translation walk completes and fills the caches or faults. -/
  | pageWalk (c : Nat) (va : Word) (write exec : Bool)
  /-- VECTOR_CHECK_PHASE_END (R185): The check phase of a vector memory instruction ends and the instruction enters the queue or traps. -/
  | vectorCheckPhaseEnd (c : Nat)
  /-- VECTOR_SWEEP_START (R179): A queued vector instruction starts once issue, predecessor and arrival conditions hold. -/
  | vectorSweepStart (c : Nat)
  /-- VECTOR_ROW_ARRIVAL (R153): A row's groups are written and their arrival bits set, releasing waiting consumers. -/
  | vectorRowArrival (c row : Nat)
  /-- VECTOR_SWEEP_COMPLETE (R56): A vector instruction completes and ORs its flags into FSTAT. -/
  | vectorSweepComplete (c : Nat)
  /-- MATRIX_ENTRY_START (R236): A matrix-queue entry starts once the array or plane loader and its operands are ready. -/
  | matrixEntryStart (core : Nat)
  /-- MATRIX_ENTRY_COMPLETE (R237): A matrix instruction completes and ORs its flags into MSTAT. -/
  | matrixEntryComplete (core : Nat) (residue vreg : Bool)
  /-- GUST_PREFETCH (R255): The Gust engine fetches stream elements ahead, without faults. -/
  | gustPrefetch (c stream : Nat)
  /-- JOB_SCHEDULE (R441): At a block boundary or when idle, the Levanter engine chooses a waiting or suspended job. -/
  | jobSchedule (die cluster : Nat)
  /-- JOB_BLOCK_END (R260): A running job reaches a 4 KiB block boundary; a spent budget suspends it. -/
  | jobBlockEnd (die cluster : Nat)
  /-- JOB_FAULT_END (R260): A job index fails a check and the job ends with STAT and PROG. -/
  | jobFaultEnd (die cluster : Nat)
  /-- JOB_COMPLETE (R260): The last index of a job is done and the job ends with STAT 0. -/
  | jobComplete (die cluster : Nat)
  /-- LEVANTER_ROUND (R441): A 4,096-clk round ends and the per-domain block counts restart. -/
  | levanterRound (die cluster : Nat)
  /-- GCAST_COPY_LANDED (R278): A GCAST copy lands and its destination pane becomes ready. -/
  | gcastCopyLanded (core pane : Nat)
  /-- SEAL_COUNT_DRAINED (R266): The count of a draining buffer reaches 0 and the seal entry is freed. -/
  | sealCountDrained (die idx : Nat)
  /-- SPAWN_REQUEST_ARRIVAL (R268): An RSPAWN request reaches the target core, which starts a free slot or answers none. -/
  | spawnRequestArrival (c core : Nat) (pc : Word)
  /-- STEAL_REQUEST (R314): A victim serves a steal request on the Eddy network, giving its oldest record. -/
  | stealRequest (c victim : Nat)
  /-- GBAR_ARRIVAL_SIGNAL (R277): A member's barrier arrival reaches the gang over the Eddy network. -/
  | gbarArrivalSignal (gang rank : Nat)
  /-- GBAR_GENERATION_COMPLETE (R277): The last arrival advances the gang generation and releases the waiting members. -/
  | gbarGenerationComplete (gang : Nat)
  /-- GANG_STOP_COMPLETE (R276): Every member has taken gang_stop and the gang becomes stopped. -/
  | gangStopComplete (gang : Nat)
  /-- MSEND_ACCEPT (R279): The target's interface or the in-transit hold accepts a message and the sender continues. -/
  | msendAccept (core : Nat) (msg : Msg)
  /-- DATA_DELIVERY (R280): A DATA message is enqueued in the mailbox, resuming a parked target. -/
  | dataDelivery (c : Nat) (msg : Msg)
  /-- SPAWN_DELIVERY (R280): A SPAWN message resumes a parked target or is held for its next WAITM. -/
  | spawnDelivery (c : Nat) (msg : Msg)
  /-- WAKE_DELIVERY (R280): A WAKE resumes a parked target or sets its pending wake. -/
  | wakeDelivery (c : Nat) (msg : Msg)
  /-- REGW_DELIVERY (R280): A REGW message writes x28 of the target at a boundary. -/
  | regwDelivery (c : Nat) (msg : Msg)
  /-- INBOX_RECORD_WRITE (R311): A message to an absent or deferred target is written to the inbox ring, with a WAKE to slot 7. -/
  | inboxRecordWrite (core slot : Nat) (msg : Msg)
  /-- WAITT_EXPIRY (R283): TIME reaches t and a parked WAITT retires. -/
  | waittExpiry (c : Nat)
  /-- WFI_WAKE (R454): A parked WFI retires when a trap, message, SPAWN or wake becomes pending. -/
  | wfiWake (c : Nat)
  /-- WAIT_RESUMPTION (R301): A wait on a unit, queue place, pane, drain or fence ends and the instruction proceeds. -/
  | waitResumption (c : Nat)
  /-- HOME_MISS (R336): The home serves a far miss, granting a lease and updating the expiry. -/
  | homeMiss (die line : Nat)
  /-- HOME_WRITE_PERFORM (R337): A write waiting at the home is performed at max(now, E), then held misses are served. -/
  | homeWritePerform (id : Nat)
  /-- LEASE_EXPIRY (R336): A far line's lease ends and every copy on the die becomes invalid. -/
  | leaseExpiry (die line : Nat)
  /-- WRITE_COMBINE_FLUSH (R338): A held write-combining far line is written home at eviction or release. -/
  | writeCombineFlush (die line : Nat)
  /-- TOKEN_BUCKET_REFILL (R342): Each clk the domain token buckets refill and waiting accesses may proceed. -/
  | tokenBucketRefill (core : Nat)
  /-- PTP_TIMESTAMP_EXCHANGE (R315): An IEEE 1588 delay request-response exchange disciplines the TIME rate. -/
  | ptpTimestampExchange (ppm : Int)
  /-- HOST_DOORBELL_WRITE (R468): The host writes DOORBELL, setting LQTAIL and evaluating. -/
  | hostDoorbellWrite (port fn : Nat) (v : BitVec 32) (ide : Bool)
  /-- DOORBELL_MESSAGE_SEND (R469): A prepared doorbell message leaves once earlier requests are performed at SYS. -/
  | doorbellMessageSend (port fn : Nat)
  /-- INBOUND_READ (R467): A host read through BAR2 is translated, checked and completed or aborted. -/
  | inboundRead (port fn off len : Nat) (bar0 ide : Bool)
  /-- INBOUND_WRITE (R467): A host write through BAR2 is translated, checked and performed or discarded. -/
  | inboundWrite (port fn off : Nat) (data : List Byte) (bar0 ide : Bool)
  /-- OUTBOUND_COMPLETION (R340): A PCIe completion for an outbound read arrives and returns the data. -/
  | outboundCompletion (c : Nat) (data : Word) (ok : Bool)
  /-- PEER_READ_TIMEOUT (R471): A peer read without completion after 50 µs ends in a machine check and sets FERR.PCE. -/
  | peerReadTimeout (c : Nat)
  /-- HOST_MSIX_UNMASK (R470): The host unmasks a vector and a pending MSI-X write is sent. -/
  | hostMsixUnmask (port fn vec : Nat) (v : BitVec 32) (ide : Bool)
  /-- TDISP_REQUEST (R472): A host TDISP request moves a virtual function between TDISP states. -/
  | tdispRequest (port fn state : Nat)
  /-- SPDM_MESSAGE (R459): An SPDM request over DOE is answered by the responder. -/
  | spdmMessage (port fn kind : Nat)
  /-- KEY_INSTALL (R473): An SPDM secured message installs a key slot for the function. -/
  | keyInstall (port fn slot : Nat) (key : BitVec 768)
  /-- KEY_ERASE (R473): ERROR, unlock, session end or FLR erases the function's keys and fails its chunks. -/
  | keyErase (port fn : Nat)
  /-- FUNCTION_LEVEL_RESET (R473): A function-level reset of a function. -/
  | functionLevelReset (port fn : Nat)
  /-- ETESIAN_FLIT_REPLAY (R475): A flit failing its CRC is replayed from the sender's buffer. -/
  | etesianFlitReplay (port : Nat)
  /-- LINK_DOWN (R476): A link goes down and its ports retrain while flits wait. -/
  | linkDown (port : Nat)
  /-- LINK_RETRAIN_TIMEOUT (R476): Retraining fails after 1 ms and traffic moves to the next route, or machine-checks. -/
  | linkRetrainTimeout (port : Nat)
  /-- LINK_WIDTH_WINDOW (R478): A 64 µs load window ends and the link may narrow by half. -/
  | linkWidthWindow (link loadPct : Nat)
  /-- LINK_WIDEN (R478): High load or 1 µs of unsent flits returns the link to full width. -/
  | linkWiden (link : Nat)
  /-- LINK_WIDTH_HANDSHAKE_DONE (R478): The 1,000-clk width handshake completes and traffic resumes. -/
  | linkWidthHandshakeDone (link : Nat)
  /-- PACKAGE_RESET (R40): Package reset sets every element to its reset value and starts the boot. -/
  | packageReset (update : Option BootImage)
  /-- PACKAGE_BOOT (R489): The controller runs boot steps 1–12, with alternates and skips from the journal. -/
  | packageBoot (f : BootFound)
  /-- CONTROLLER_HEARTBEAT (R492): The active controller writes a heartbeat record every 10 ms. -/
  | controllerHeartbeat
  /-- CONTROLLER_FAILOVER (R492): After 100 ms without heartbeat, port die 13's controller takes over and restarts the package. -/
  | controllerFailover
  /-- STATE_SUMMARY (R495): Answers the DOE command 0x01 with the 1,392-byte state summary. -/
  | stateSummary (ends : Bool)
  /-- JOURNAL_CLEAR (R497): DOE command 0x02 appends a cleared record for a step. -/
  | journalClear (bootStep : Nat)
  /-- DOE_UNKNOWN_COMMAND (R495): A management command with another code is answered with status 0xFF. -/
  | doeUnknownCommand (code : Byte)
  /-- EXPANSION_TABLE_REPLACE (R494): Firmware replaces a die's expansion table on one clk, if signed and complete. -/
  | expansionTableReplace (die svn : Nat) (omitted : List Nat) (signed : Bool)
  /-- THERMAL_SENSOR_READ (R518): The controller reads every junction sensor each 1 ms. -/
  | thermalSensorRead (celsius : List Int)
  /-- PATROL_SCRUB (R501): Patrol scrubbing reads an HBM line, correcting or logging errors. -/
  | patrolScrub (die : Nat) (err : BitVec 2)
  /-- FOEHN_TEST (R503): After 4,096 idle clk, the Foehn engine runs the next structural test in a pipe. -/
  | foehnTest (die cls idx : Nat) (pass : Bool)
  /-- REDUNDANT_ON (R508): Firmware service 0x100 pairs a primary and a shadow gang. -/
  | redundantOn (c : Nat)
  /-- REDUNDANT_OFF (R508): Firmware service 0x101 ends redundant mode. -/
  | redundantOff (c : Nat)
  /-- RECORD_ON (R508): Firmware service 0x110 starts recording a gang. -/
  | recordOn (c : Nat)
  /-- REPLAY_ON (R508): Firmware service 0x111 starts replaying a gang. -/
  | replayOn (c : Nat)
  /-- RECORD_REPLAY_OFF (R508): Firmware service 0x112 ends record or replay. -/
  | recordReplayOff (c : Nat)
  /-- INTERVAL_CLOSE (R510): A redundant pair compares hashes at a close and commits the primary's stores. -/
  | intervalClose (c : Nat)
  /-- REDUNDANT_TIMEOUT (R511): The partner fails to reach the close within 2 ms and both gangs stop. -/
  | redundantTimeout (c : Nat)
  /-- ILLEGAL_ENCODING (R87): A word that no encoding table assigns, or that uses a reserved code, issues and gives trap(illegal_instruction). -/
  | illegalEncoding (w : BitVec 32)
  /-- INSTRUCTION_FETCH_FAULT (R391): A fetch fails on a non-canonical or non-executable target or on a failed code chunk, and the trap is taken with the fetch address as trapping PC. -/
  | instructionFetchFault (cause : Nat) (addr : Word)
  /-- LINK_RETRAINED (R476): A link that went down finishes retraining within 1 ms, and its waiting flits resume on the same route. -/
  | linkRetrained (port : Nat)
  /-- FUNCTION_ENABLE (R463): The host enables or disables a virtual function under SR-IOV, which changes FID.VFE. -/
  | functionEnable (port fn : Nat) (enable : Bool)
  /-- POWER_REMOVED (R514): Power is removed from the package, so all volatile state is lost and any running boot step is left without a journal record. -/
  | powerRemoved
  /-- DPTOKEN_WRITE (R433): A MOVSW to DPTOKEN sets bucket rates, depths and Levanter budgets and fills every bucket whose fields it changes. -/
  | dptokenWrite (v : Word)
  /-- ADD (R96): Writes x[a] + x[b] to x[d], modulo 2^64. -/
  | add (d a b : BitVec 5)
  /-- SUB (R96): Writes x[a] - x[b] to x[d]. -/
  | sub (d a b : BitVec 5)
  /-- AND (R96): Writes the bitwise AND of x[a] and x[b] to x[d]. -/
  | and (d a b : BitVec 5)
  /-- OR (R96): Writes the bitwise OR of x[a] and x[b] to x[d]. -/
  | or (d a b : BitVec 5)
  /-- XOR (R96): Writes the bitwise XOR of x[a] and x[b] to x[d]. -/
  | xor (d a b : BitVec 5)
  /-- SLL (R96): Shifts x[a] left by x[b][5:0]. -/
  | sll (d a b : BitVec 5)
  /-- SRL (R96): Shifts x[a] right logically by x[b][5:0]. -/
  | srl (d a b : BitVec 5)
  /-- SRA (R96): Shifts x[a] right arithmetically by x[b][5:0]. -/
  | sra (d a b : BitVec 5)
  /-- SLT (R96): Writes 1 to x[d] if x[a] < x[b] signed, else 0. -/
  | slt (d a b : BitVec 5)
  /-- SLTU (R96): Writes 1 to x[d] if x[a] < x[b] unsigned, else 0. -/
  | sltu (d a b : BitVec 5)
  /-- MIN (R96): Writes the signed minimum of x[a] and x[b]. -/
  | min (d a b : BitVec 5)
  /-- MAX (R96): Writes the signed maximum of x[a] and x[b]. -/
  | max (d a b : BitVec 5)
  /-- MINU (R96): Writes the unsigned minimum of x[a] and x[b]. -/
  | minu (d a b : BitVec 5)
  /-- MAXU (R96): Writes the unsigned maximum of x[a] and x[b]. -/
  | maxu (d a b : BitVec 5)
  /-- FSHL (R96): Funnel-shifts x[a]:x[b] left by sh and keeps the upper 64 bits. -/
  | fshl (d a b : BitVec 5) (s : BitVec 6)
  /-- FSHR (R96): Funnel-shifts x[a]:x[b] right by sh and keeps the lower 64 bits. -/
  | fshr (d a b : BitVec 5) (s : BitVec 6)
  /-- CLZ (R96): Counts the leading zero bits of x[a]. -/
  | clz (d a : BitVec 5)
  /-- CTZ (R96): Counts the trailing zero bits of x[a]. -/
  | ctz (d a : BitVec 5)
  /-- POPC (R96): Counts the one bits of x[a]. -/
  | popc (d a : BitVec 5)
  /-- SEL (R96): Writes x[a] if the old x[d] is non-zero, else x[b]. -/
  | sel (d a b : BitVec 5)
  /-- EXT (R96): Extracts a zero-extended bit field of x[a]. -/
  | ext (d a l : BitVec 5) (p : BitVec 6)
  /-- INS (R96): Inserts the low bits of x[a] into a field of x[d]. -/
  | ins (d a l : BitVec 5) (p : BitVec 6)
  /-- ADDI (R97): Adds the sign-extended immediate to x[a]. -/
  | addi (d a : BitVec 5) (i : BitVec 16)
  /-- ANDI (R97): ANDs x[a] with the zero-extended immediate. -/
  | andi (d a : BitVec 5) (i : BitVec 16)
  /-- ORI (R97): ORs x[a] with the zero-extended immediate. -/
  | ori (d a : BitVec 5) (i : BitVec 16)
  /-- XORI (R97): XORs x[a] with the zero-extended immediate. -/
  | xori (d a : BitVec 5) (i : BitVec 16)
  /-- SLLI (R97): Shifts x[a] left by an immediate amount. -/
  | slli (d a : BitVec 5) (s : BitVec 6)
  /-- SRLI (R97): Shifts x[a] right logically by an immediate amount. -/
  | srli (d a : BitVec 5) (s : BitVec 6)
  /-- SRAI (R97): Shifts x[a] right arithmetically by an immediate amount. -/
  | srai (d a : BitVec 5) (s : BitVec 6)
  /-- SLTI (R97): Compares x[a] with the immediate, signed. -/
  | slti (d a : BitVec 5) (i : BitVec 16)
  /-- SLTIU (R97): Compares x[a] with the sign-extended immediate, unsigned. -/
  | sltiu (d a : BitVec 5) (i : BitVec 16)
  /-- LUI (R97): Writes sext(imm21 × 2^11, 32) to x[d]. -/
  | lui (d : BitVec 5) (i : BitVec 21)
  /-- ADDPC (R97): Writes the PC plus sext(imm21 × 2^11, 32) to x[d]. -/
  | addpc (d : BitVec 5) (i : BitVec 21)
  /-- MUL (R98): Writes the low 64 bits of the product. -/
  | mul (d a b : BitVec 5)
  /-- MULH (R98): Writes the high 64 bits of the signed product. -/
  | mulh (d a b : BitVec 5)
  /-- MULHU (R98): Writes the high 64 bits of the unsigned product. -/
  | mulhu (d a b : BitVec 5)
  /-- DIV (R99): Signed division, rounded toward zero, with saturating special cases. -/
  | div (d a b : BitVec 5)
  /-- DIVU (R99): Unsigned division, with saturating special cases. -/
  | divu (d a b : BitVec 5)
  /-- REM (R99): Signed remainder. -/
  | rem (d a b : BitVec 5)
  /-- REMU (R99): Unsigned remainder. -/
  | remu (d a b : BitVec 5)
  /-- LUT3 (R101): Computes each bit of x[d] from a three-input lookup table. -/
  | lut3 (d a b : BitVec 5) (t : BitVec 8)
  /-- FADD (R103): Scalar FP addition with a single rounding. -/
  | fadd (d a b : BitVec 5) (r : BitVec 3) (f : BitVec 4)
  /-- FSUB (R103): Scalar FP subtraction. -/
  | fsub (d a b : BitVec 5) (r : BitVec 3) (f : BitVec 4)
  /-- FMUL (R103): Scalar FP multiplication. -/
  | fmul (d a b : BitVec 5) (r : BitVec 3) (f : BitVec 4)
  /-- FDIV (R103): Scalar FP division. -/
  | fdiv (d a b : BitVec 5) (r : BitVec 3) (f : BitVec 4)
  /-- FSQRT (R103): Scalar FP square root. -/
  | fsqrt (d a : BitVec 5) (r : BitVec 3) (f : BitVec 4)
  /-- FMIN (R104): Selects the smaller FP operand without rounding. -/
  | fmin (d a b : BitVec 5) (f : BitVec 4)
  /-- FMAX (R104): Selects the larger FP operand without rounding. -/
  | fmax (d a b : BitVec 5) (f : BitVec 4)
  /-- FEQ (R105): Writes 1 to x[d] if the FP operands are equal. -/
  | feq (d a b : BitVec 5) (f : BitVec 4)
  /-- FLT (R105): Writes 1 to x[d] if a < b. -/
  | flt (d a b : BitVec 5) (f : BitVec 4)
  /-- FLE (R105): Writes 1 to x[d] if a ≤ b. -/
  | fle (d a b : BitVec 5) (f : BitVec 4)
  /-- FCLASS (R106): Writes the sign and class code of f[a] to x[d]. -/
  | fclass (d a : BitVec 5) (f : BitVec 4)
  /-- FCVT (R107): Converts between FP64, FP32, BF16 and FP16. -/
  | fcvt (d a : BitVec 5) (s : BitVec 4) (r : BitVec 3) (f : BitVec 4)
  /-- FCVTI (R108): Converts an FP value to a clipped integer in x[d]. -/
  | fcvti (d a : BitVec 5) (k : BitVec 2) (r : BitVec 3) (f : BitVec 4)
  /-- ICVTF (R109): Converts an integer in x[a] to an FP value. -/
  | icvtf (d a : BitVec 5) (k : BitVec 2) (r : BitVec 3) (f : BitVec 4)
  /-- FMVX (R110): Moves the raw bits of f[a] to x[d]. -/
  | fmvx (d a : BitVec 5) (f : BitVec 4)
  /-- FMVF (R110): Moves the raw bits of x[a] to f[d]. -/
  | fmvf (d a : BitVec 5) (f : BitVec 4)
  /-- FMA (R112): Fused multiply-add a × b + c with one rounding. -/
  | fma (d a b c : BitVec 5) (r : BitVec 3) (p : BitVec 1)
  /-- FMS (R112): Fused multiply-subtract a × b - c. -/
  | fms (d a b c : BitVec 5) (r : BitVec 3) (p : BitVec 1)
  /-- FNMA (R112): Fused -(a × b) + c. -/
  | fnma (d a b c : BitVec 5) (r : BitVec 3) (p : BitVec 1)
  /-- FNMS (R112): Fused -(a × b) - c. -/
  | fnms (d a b c : BitVec 5) (r : BitVec 3) (p : BitVec 1)
  /-- JAL (R113): Jumps by a word displacement and links to x1. -/
  | jal (o : BitVec 26)
  /-- JALR (R114): Jumps to x[a] + imm and links to x[d]. -/
  | jalr (d a : BitVec 5) (i : BitVec 16)
  /-- LB (R118): Loads a sign-extended byte. -/
  | lb (d a : BitVec 5) (i : BitVec 16)
  /-- LBU (R118): Loads a zero-extended byte. -/
  | lbu (d a : BitVec 5) (i : BitVec 16)
  /-- LH (R118): Loads a sign-extended halfword. -/
  | lh (d a : BitVec 5) (i : BitVec 16)
  /-- LHU (R118): Loads a zero-extended halfword. -/
  | lhu (d a : BitVec 5) (i : BitVec 16)
  /-- LW (R118): Loads a sign-extended word. -/
  | lw (d a : BitVec 5) (i : BitVec 16)
  /-- LWU (R118): Loads a zero-extended word. -/
  | lwu (d a : BitVec 5) (i : BitVec 16)
  /-- LD (R118): Loads a doubleword. -/
  | ld (d a : BitVec 5) (i : BitVec 16)
  /-- FLW (R118): Loads 4 bytes into an f register, zeroing bits 63:32. -/
  | flw (d a : BitVec 5) (i : BitVec 16)
  /-- FLD (R118): Loads 8 bytes into an f register. -/
  | fld (d a : BitVec 5) (i : BitVec 16)
  /-- SB (R118): Stores a byte. -/
  | sb (s a : BitVec 5) (i : BitVec 16)
  /-- SH (R118): Stores a halfword. -/
  | sh (s a : BitVec 5) (i : BitVec 16)
  /-- SW (R118): Stores a word. -/
  | sw (s a : BitVec 5) (i : BitVec 16)
  /-- SD (R118): Stores a doubleword. -/
  | sd (s a : BitVec 5) (i : BitVec 16)
  /-- FSW (R118): Stores the low 4 bytes of an f register. -/
  | fsw (s a : BitVec 5) (i : BitVec 16)
  /-- FSD (R118): Stores an f register. -/
  | fsd (s a : BitVec 5) (i : BitVec 16)
  /-- ECALL (R444): Traps with the ecall cause of the current mode. -/
  | ecall
  /-- EBREAK (R444): Traps with breakpoint. -/
  | ebreak
  /-- ERET (R445): Checks and returns through the current mode's trap bank, waiting while its gang is stopped. -/
  | eret
  /-- MOVS (R446): Reads a system register into x[d]. -/
  | movs (d : BitVec 5) (n : BitVec 12)
  /-- MOVSW (R446): Writes x[a] to a system register that has no row of its own. -/
  | movsw (a : BitVec 5) (n : BitVec 12)
  /-- FENCE (R447): A release and an acquire at the scope; the context is unready until earlier accesses and jobs are performed. -/
  | fence (s : BitVec 3)
  /-- FENCEI (R448): Waits for earlier stores at DIE, then empties the core's L1 instruction cache. -/
  | fencei
  /-- TLBINV (R450): Releases at PKG and removes the matching translations package-wide. -/
  | tlbinv (a b : BitVec 5) (t : BitVec 2)
  /-- DGATE (R451): Checks a call gate, saves a frame and enters the callee domain. -/
  | dgate (a : BitVec 5)
  /-- DRET (R453): Restores the gate frame and returns to the caller. -/
  | dret
  /-- WFI (R454): Parks the context until a trap, a message, a SPAWN or a wake is pending. -/
  | wfi
  /-- CHKPT (R455): Waits as FENCE SYS and closes the redundant interval. -/
  | chkpt
  /-- VADD_V (R163): Vector integer addition, vector operand. -/
  | vaddV (d a b : BitVec 5) (m : BitVec 3) (l : BitVec 1)
  /-- VADD_X (R163): Vector integer addition, scalar operand. -/
  | vaddX (d a b : BitVec 5) (m : BitVec 3)
  /-- VADD_I (R163): Vector integer addition, immediate operand. -/
  | vaddI (d a i : BitVec 5) (m : BitVec 3)
  /-- VSUB_V (R163): Vector subtraction a - b, vector operand. -/
  | vsubV (d a b : BitVec 5) (m : BitVec 3) (l : BitVec 1)
  /-- VSUB_X (R163): Vector subtraction a - b, scalar operand. -/
  | vsubX (d a b : BitVec 5) (m : BitVec 3)
  /-- VSUB_I (R163): Vector subtraction a - b, immediate operand. -/
  | vsubI (d a i : BitVec 5) (m : BitVec 3)
  /-- VRSUB_V (R163): Vector reverse subtraction b - a, vector operand. -/
  | vrsubV (d a b : BitVec 5) (m : BitVec 3) (l : BitVec 1)
  /-- VRSUB_X (R163): Vector reverse subtraction b - a, scalar operand. -/
  | vrsubX (d a b : BitVec 5) (m : BitVec 3)
  /-- VRSUB_I (R163): Vector reverse subtraction b - a, immediate operand. -/
  | vrsubI (d a i : BitVec 5) (m : BitVec 3)
  /-- VMUL_V (R163): Vector low multiply, vector operand. -/
  | vmulV (d a b : BitVec 5) (m : BitVec 3) (l : BitVec 1)
  /-- VMUL_X (R163): Vector low multiply, scalar operand. -/
  | vmulX (d a b : BitVec 5) (m : BitVec 3)
  /-- VMULH_V (R163): Vector signed high multiply, vector operand. -/
  | vmulhV (d a b : BitVec 5) (m : BitVec 3) (l : BitVec 1)
  /-- VMULH_X (R163): Vector signed high multiply, scalar operand. -/
  | vmulhX (d a b : BitVec 5) (m : BitVec 3)
  /-- VMULHU_V (R163): Vector unsigned high multiply, vector operand. -/
  | vmulhuV (d a b : BitVec 5) (m : BitVec 3) (l : BitVec 1)
  /-- VMULHU_X (R163): Vector unsigned high multiply, scalar operand. -/
  | vmulhuX (d a b : BitVec 5) (m : BitVec 3)
  /-- VDIV_V (R163): Vector signed division, vector operand. -/
  | vdivV (d a b : BitVec 5) (m : BitVec 3) (l : BitVec 1)
  /-- VDIV_X (R163): Vector signed division, scalar operand. -/
  | vdivX (d a b : BitVec 5) (m : BitVec 3)
  /-- VDIVU_V (R163): Vector unsigned division, vector operand. -/
  | vdivuV (d a b : BitVec 5) (m : BitVec 3) (l : BitVec 1)
  /-- VDIVU_X (R163): Vector unsigned division, scalar operand. -/
  | vdivuX (d a b : BitVec 5) (m : BitVec 3)
  /-- VREM_V (R163): Vector signed remainder, vector operand. -/
  | vremV (d a b : BitVec 5) (m : BitVec 3) (l : BitVec 1)
  /-- VREM_X (R163): Vector signed remainder, scalar operand. -/
  | vremX (d a b : BitVec 5) (m : BitVec 3)
  /-- VREMU_V (R163): Vector unsigned remainder, vector operand. -/
  | vremuV (d a b : BitVec 5) (m : BitVec 3) (l : BitVec 1)
  /-- VREMU_X (R163): Vector unsigned remainder, scalar operand. -/
  | vremuX (d a b : BitVec 5) (m : BitVec 3)
  /-- VMIN_V (R163): Vector signed minimum, vector operand. -/
  | vminV (d a b : BitVec 5) (m : BitVec 3) (l : BitVec 1)
  /-- VMIN_X (R163): Vector signed minimum, scalar operand. -/
  | vminX (d a b : BitVec 5) (m : BitVec 3)
  /-- VMIN_I (R163): Vector signed minimum, immediate operand. -/
  | vminI (d a i : BitVec 5) (m : BitVec 3)
  /-- VMAX_V (R163): Vector signed maximum, vector operand. -/
  | vmaxV (d a b : BitVec 5) (m : BitVec 3) (l : BitVec 1)
  /-- VMAX_X (R163): Vector signed maximum, scalar operand. -/
  | vmaxX (d a b : BitVec 5) (m : BitVec 3)
  /-- VMAX_I (R163): Vector signed maximum, immediate operand. -/
  | vmaxI (d a i : BitVec 5) (m : BitVec 3)
  /-- VMINU_V (R163): Vector unsigned minimum, vector operand. -/
  | vminuV (d a b : BitVec 5) (m : BitVec 3) (l : BitVec 1)
  /-- VMINU_X (R163): Vector unsigned minimum, scalar operand. -/
  | vminuX (d a b : BitVec 5) (m : BitVec 3)
  /-- VMINU_I (R163): Vector unsigned minimum, immediate operand. -/
  | vminuI (d a i : BitVec 5) (m : BitVec 3)
  /-- VMAXU_V (R163): Vector unsigned maximum, vector operand. -/
  | vmaxuV (d a b : BitVec 5) (m : BitVec 3) (l : BitVec 1)
  /-- VMAXU_X (R163): Vector unsigned maximum, scalar operand. -/
  | vmaxuX (d a b : BitVec 5) (m : BitVec 3)
  /-- VMAXU_I (R163): Vector unsigned maximum, immediate operand. -/
  | vmaxuI (d a i : BitVec 5) (m : BitVec 3)
  /-- VAND_V (R163): Vector bitwise AND, vector operand. -/
  | vandV (d a b : BitVec 5) (m : BitVec 3) (l : BitVec 1)
  /-- VAND_X (R163): Vector bitwise AND, scalar operand. -/
  | vandX (d a b : BitVec 5) (m : BitVec 3)
  /-- VAND_I (R163): Vector bitwise AND, immediate operand. -/
  | vandI (d a i : BitVec 5) (m : BitVec 3)
  /-- VOR_V (R163): Vector bitwise OR, vector operand. -/
  | vorV (d a b : BitVec 5) (m : BitVec 3) (l : BitVec 1)
  /-- VOR_X (R163): Vector bitwise OR, scalar operand. -/
  | vorX (d a b : BitVec 5) (m : BitVec 3)
  /-- VOR_I (R163): Vector bitwise OR, immediate operand. -/
  | vorI (d a i : BitVec 5) (m : BitVec 3)
  /-- VXOR_V (R163): Vector bitwise XOR, vector operand. -/
  | vxorV (d a b : BitVec 5) (m : BitVec 3) (l : BitVec 1)
  /-- VXOR_X (R163): Vector bitwise XOR, scalar operand. -/
  | vxorX (d a b : BitVec 5) (m : BitVec 3)
  /-- VXOR_I (R163): Vector bitwise XOR, immediate operand. -/
  | vxorI (d a i : BitVec 5) (m : BitVec 3)
  /-- VSLL_V (R163): Vector shift left, vector amount. -/
  | vsllV (d a b : BitVec 5) (m : BitVec 3) (l : BitVec 1)
  /-- VSLL_X (R163): Vector shift left, scalar amount. -/
  | vsllX (d a b : BitVec 5) (m : BitVec 3)
  /-- VSLL_I (R163): Vector shift left, unsigned immediate amount. -/
  | vsllI (d a i : BitVec 5) (m : BitVec 3)
  /-- VSRL_V (R163): Vector logical shift right, vector amount. -/
  | vsrlV (d a b : BitVec 5) (m : BitVec 3) (l : BitVec 1)
  /-- VSRL_X (R163): Vector logical shift right, scalar amount. -/
  | vsrlX (d a b : BitVec 5) (m : BitVec 3)
  /-- VSRL_I (R163): Vector logical shift right, immediate amount. -/
  | vsrlI (d a i : BitVec 5) (m : BitVec 3)
  /-- VSRA_V (R163): Vector arithmetic shift right, vector amount. -/
  | vsraV (d a b : BitVec 5) (m : BitVec 3) (l : BitVec 1)
  /-- VSRA_X (R163): Vector arithmetic shift right, scalar amount. -/
  | vsraX (d a b : BitVec 5) (m : BitVec 3)
  /-- VSRA_I (R163): Vector arithmetic shift right, immediate amount. -/
  | vsraI (d a i : BitVec 5) (m : BitVec 3)
  /-- VSADD_V (R163): Vector saturating signed addition, vector operand. -/
  | vsaddV (d a b : BitVec 5) (m : BitVec 3) (l : BitVec 1)
  /-- VSADD_X (R163): Vector saturating signed addition, scalar operand. -/
  | vsaddX (d a b : BitVec 5) (m : BitVec 3)
  /-- VSADD_I (R163): Vector saturating signed addition, immediate operand. -/
  | vsaddI (d a i : BitVec 5) (m : BitVec 3)
  /-- VSSUB_V (R163): Vector saturating signed subtraction, vector operand. -/
  | vssubV (d a b : BitVec 5) (m : BitVec 3) (l : BitVec 1)
  /-- VSSUB_X (R163): Vector saturating signed subtraction, scalar operand. -/
  | vssubX (d a b : BitVec 5) (m : BitVec 3)
  /-- VSSUB_I (R163): Vector saturating signed subtraction, immediate operand. -/
  | vssubI (d a i : BitVec 5) (m : BitVec 3)
  /-- VWMUL_V (R167): Widening signed multiply, vector operand. -/
  | vwmulV (d a b : BitVec 5) (m : BitVec 3) (l : BitVec 1)
  /-- VWMUL_X (R167): Widening signed multiply, scalar operand. -/
  | vwmulX (d a b : BitVec 5) (m : BitVec 3)
  /-- VWMACC_V (R167): Widening signed multiply-accumulate, vector operand. -/
  | vwmaccV (d a b : BitVec 5) (m : BitVec 3) (l : BitVec 1)
  /-- VWMACC_X (R167): Widening signed multiply-accumulate, scalar operand. -/
  | vwmaccX (d a b : BitVec 5) (m : BitVec 3)
  /-- VWMACCU_V (R167): Widening unsigned multiply-accumulate, vector operand. -/
  | vwmaccuV (d a b : BitVec 5) (m : BitVec 3) (l : BitVec 1)
  /-- VWMACCU_X (R167): Widening unsigned multiply-accumulate, scalar operand. -/
  | vwmaccuX (d a b : BitVec 5) (m : BitVec 3)
  /-- VWMACCSU_V (R167): Widening signed-by-unsigned multiply-accumulate, vector operand. -/
  | vwmaccsuV (d a b : BitVec 5) (m : BitVec 3) (l : BitVec 1)
  /-- VWMACCSU_X (R167): Widening signed-by-unsigned multiply-accumulate, scalar operand. -/
  | vwmaccsuX (d a b : BitVec 5) (m : BitVec 3)
  /-- VNCLIP_V (R168): Narrowing shift with rounding and clipping, vector shift. -/
  | vnclipV (d a b : BitVec 5) (m : BitVec 3) (l : BitVec 1)
  /-- VNCLIP_X (R168): Narrowing clip, scalar shift. -/
  | vnclipX (d a b : BitVec 5) (m : BitVec 3)
  /-- VNCLIP_I (R168): Narrowing clip, immediate shift. -/
  | vnclipI (d a i : BitVec 5) (m : BitVec 3)
  /-- VFSHL_V (R165): Vector funnel shift left with the old vd, vector amount. -/
  | vfshlV (d a b : BitVec 5) (m : BitVec 3) (l : BitVec 1)
  /-- VFSHL_X (R165): Vector funnel shift left, scalar amount. -/
  | vfshlX (d a b : BitVec 5) (m : BitVec 3)
  /-- VFSHL_I (R165): Vector funnel shift left, immediate amount. -/
  | vfshlI (d a i : BitVec 5) (m : BitVec 3)
  /-- VFSHR_V (R165): Vector funnel shift right with the old vd, vector amount. -/
  | vfshrV (d a b : BitVec 5) (m : BitVec 3) (l : BitVec 1)
  /-- VFSHR_X (R165): Vector funnel shift right, scalar amount. -/
  | vfshrX (d a b : BitVec 5) (m : BitVec 3)
  /-- VFSHR_I (R165): Vector funnel shift right, immediate amount. -/
  | vfshrI (d a i : BitVec 5) (m : BitVec 3)
  /-- VMERGE_V (R164): Selects b or va per mask bit, vector operand. -/
  | vmergeV (d a b : BitVec 5) (m : BitVec 3) (l : BitVec 1)
  /-- VMERGE_X (R164): Selects x[b] or va per mask bit. -/
  | vmergeX (d a b : BitVec 5) (m : BitVec 3)
  /-- VMERGE_I (R164): Selects the immediate or va per mask bit. -/
  | vmergeI (d a i : BitVec 5) (m : BitVec 3)
  /-- VMOV_V (R163): Copies a vector operand to vd. -/
  | vmovV (d b : BitVec 5) (m : BitVec 3) (l : BitVec 1)
  /-- VMOV_X (R163): Broadcasts x[b] to vd. -/
  | vmovX (d b : BitVec 5) (m : BitVec 3)
  /-- VMOV_I (R163): Broadcasts an immediate to vd. -/
  | vmovI (d i : BitVec 5) (m : BitVec 3)
  /-- VSEQ_V (R170): Mask of a = b, vector operand. -/
  | vseqV (d a b : BitVec 5) (m : BitVec 3) (l : BitVec 1)
  /-- VSEQ_X (R170): Mask of a = b, scalar operand. -/
  | vseqX (d a b : BitVec 5) (m : BitVec 3)
  /-- VSEQ_I (R170): Mask of a = b, immediate operand. -/
  | vseqI (d a i : BitVec 5) (m : BitVec 3)
  /-- VSNE_V (R170): Mask of a ≠ b, vector operand. -/
  | vsneV (d a b : BitVec 5) (m : BitVec 3) (l : BitVec 1)
  /-- VSNE_X (R170): Mask of a ≠ b, scalar operand. -/
  | vsneX (d a b : BitVec 5) (m : BitVec 3)
  /-- VSNE_I (R170): Mask of a ≠ b, immediate operand. -/
  | vsneI (d a i : BitVec 5) (m : BitVec 3)
  /-- VSLT_V (R170): Mask of signed a < b, vector operand. -/
  | vsltV (d a b : BitVec 5) (m : BitVec 3) (l : BitVec 1)
  /-- VSLT_X (R170): Mask of signed a < b, scalar operand. -/
  | vsltX (d a b : BitVec 5) (m : BitVec 3)
  /-- VSLT_I (R170): Mask of signed a < b, immediate operand. -/
  | vsltI (d a i : BitVec 5) (m : BitVec 3)
  /-- VSLTU_V (R170): Mask of unsigned a < b, vector operand. -/
  | vsltuV (d a b : BitVec 5) (m : BitVec 3) (l : BitVec 1)
  /-- VSLTU_X (R170): Mask of unsigned a < b, scalar operand. -/
  | vsltuX (d a b : BitVec 5) (m : BitVec 3)
  /-- VSLTU_I (R170): Mask of unsigned a < b, immediate operand. -/
  | vsltuI (d a i : BitVec 5) (m : BitVec 3)
  /-- VSLE_V (R170): Mask of signed a ≤ b, vector operand. -/
  | vsleV (d a b : BitVec 5) (m : BitVec 3) (l : BitVec 1)
  /-- VSLE_X (R170): Mask of signed a ≤ b, scalar operand. -/
  | vsleX (d a b : BitVec 5) (m : BitVec 3)
  /-- VSLE_I (R170): Mask of signed a ≤ b, immediate operand. -/
  | vsleI (d a i : BitVec 5) (m : BitVec 3)
  /-- VSLEU_V (R170): Mask of unsigned a ≤ b, vector operand. -/
  | vsleuV (d a b : BitVec 5) (m : BitVec 3) (l : BitVec 1)
  /-- VSLEU_X (R170): Mask of unsigned a ≤ b, scalar operand. -/
  | vsleuX (d a b : BitVec 5) (m : BitVec 3)
  /-- VSLEU_I (R170): Mask of unsigned a ≤ b, immediate operand. -/
  | vsleuI (d a i : BitVec 5) (m : BitVec 3)
  /-- VSGT_V (R170): Mask of signed a > b, vector operand. -/
  | vsgtV (d a b : BitVec 5) (m : BitVec 3) (l : BitVec 1)
  /-- VSGT_X (R170): Mask of signed a > b, scalar operand. -/
  | vsgtX (d a b : BitVec 5) (m : BitVec 3)
  /-- VSGT_I (R170): Mask of signed a > b, immediate operand. -/
  | vsgtI (d a i : BitVec 5) (m : BitVec 3)
  /-- VSGTU_V (R170): Mask of unsigned a > b, vector operand. -/
  | vsgtuV (d a b : BitVec 5) (m : BitVec 3) (l : BitVec 1)
  /-- VSGTU_X (R170): Mask of unsigned a > b, scalar operand. -/
  | vsgtuX (d a b : BitVec 5) (m : BitVec 3)
  /-- VSGTU_I (R170): Mask of unsigned a > b, immediate operand. -/
  | vsgtuI (d a i : BitVec 5) (m : BitVec 3)
  /-- VPOPC (R163): Per-element population count. -/
  | vpopc (d a : BitVec 5) (m : BitVec 3)
  /-- VCLZ (R163): Per-element leading-zero count. -/
  | vclz (d a : BitVec 5) (m : BitVec 3)
  /-- VCONF (R171): Marks the later duplicates of each row in a mask. -/
  | vconf (d a : BitVec 5)
  /-- VREDSUM (R172): Integer row sum by the fixed tree. -/
  | vredsum (d a : BitVec 5) (m : BitVec 3)
  /-- VREDMAX (R172): Signed row maximum. -/
  | vredmax (d a : BitVec 5) (m : BitVec 3)
  /-- VREDMIN (R172): Signed row minimum. -/
  | vredmin (d a : BitVec 5) (m : BitVec 3)
  /-- VREDMAXU (R172): Unsigned row maximum. -/
  | vredmaxu (d a : BitVec 5) (m : BitVec 3)
  /-- VREDMINU (R172): Unsigned row minimum. -/
  | vredminu (d a : BitVec 5) (m : BitVec 3)
  /-- VREDAND (R172): Row bitwise AND reduction. -/
  | vredand (d a : BitVec 5) (m : BitVec 3)
  /-- VREDOR (R172): Row bitwise OR reduction. -/
  | vredor (d a : BitVec 5) (m : BitVec 3)
  /-- VREDXOR (R172): Row bitwise XOR reduction. -/
  | vredxor (d a : BitVec 5) (m : BitVec 3)
  /-- VLUT3 (R166): Per-bit three-input lookup over va, vb and the old vd. -/
  | vlut3 (d a b : BitVec 5) (t : BitVec 3) (l : BitVec 1) (u : BitVec 5)
  /-- VFADD_V (R174): Vector FP addition, vector operand. -/
  | vfaddV (d a b : BitVec 5) (m : BitVec 3) (l : BitVec 1)
  /-- VFADD_F (R174): Vector FP addition, scalar FP operand. -/
  | vfaddF (d a b : BitVec 5) (m : BitVec 3)
  /-- VFSUB_V (R174): Vector FP subtraction, vector operand. -/
  | vfsubV (d a b : BitVec 5) (m : BitVec 3) (l : BitVec 1)
  /-- VFSUB_F (R174): Vector FP subtraction, scalar FP operand. -/
  | vfsubF (d a b : BitVec 5) (m : BitVec 3)
  /-- VFMUL_V (R174): Vector FP multiplication, vector operand. -/
  | vfmulV (d a b : BitVec 5) (m : BitVec 3) (l : BitVec 1)
  /-- VFMUL_F (R174): Vector FP multiplication, scalar FP operand. -/
  | vfmulF (d a b : BitVec 5) (m : BitVec 3)
  /-- VFDIV_V (R174): Vector FP division, vector operand. -/
  | vfdivV (d a b : BitVec 5) (m : BitVec 3) (l : BitVec 1)
  /-- VFDIV_F (R174): Vector FP division, scalar FP operand. -/
  | vfdivF (d a b : BitVec 5) (m : BitVec 3)
  /-- VFSQRT (R174): Vector FP square root. -/
  | vfsqrt (d a : BitVec 5) (m : BitVec 3)
  /-- VFMA_V (R174): Vector fused a × b + old vd, vector operand. -/
  | vfmaV (d a b : BitVec 5) (m : BitVec 3) (l : BitVec 1)
  /-- VFMA_F (R174): Vector fused a × b + old vd, scalar FP operand. -/
  | vfmaF (d a b : BitVec 5) (m : BitVec 3)
  /-- VFNMA_V (R174): Vector fused -(a × b) + old vd, vector operand. -/
  | vfnmaV (d a b : BitVec 5) (m : BitVec 3) (l : BitVec 1)
  /-- VFNMA_F (R174): Vector fused -(a × b) + old vd, scalar FP operand. -/
  | vfnmaF (d a b : BitVec 5) (m : BitVec 3)
  /-- VFMIN_V (R174): Vector FP minimum, vector operand. -/
  | vfminV (d a b : BitVec 5) (m : BitVec 3) (l : BitVec 1)
  /-- VFMIN_F (R174): Vector FP minimum, scalar FP operand. -/
  | vfminF (d a b : BitVec 5) (m : BitVec 3)
  /-- VFMAX_V (R174): Vector FP maximum, vector operand. -/
  | vfmaxV (d a b : BitVec 5) (m : BitVec 3) (l : BitVec 1)
  /-- VFMAX_F (R174): Vector FP maximum, scalar FP operand. -/
  | vfmaxF (d a b : BitVec 5) (m : BitVec 3)
  /-- VFEQ_V (R174): Mask of FP a = b, vector operand. -/
  | vfeqV (d a b : BitVec 5) (m : BitVec 3) (l : BitVec 1)
  /-- VFEQ_F (R174): Mask of FP a = b, scalar FP operand. -/
  | vfeqF (d a b : BitVec 5) (m : BitVec 3)
  /-- VFLT_V (R174): Mask of FP a < b, vector operand. -/
  | vfltV (d a b : BitVec 5) (m : BitVec 3) (l : BitVec 1)
  /-- VFLT_F (R174): Mask of FP a < b, scalar FP operand. -/
  | vfltF (d a b : BitVec 5) (m : BitVec 3)
  /-- VFLE_V (R174): Mask of FP a ≤ b, vector operand. -/
  | vfleV (d a b : BitVec 5) (m : BitVec 3) (l : BitVec 1)
  /-- VFLE_F (R174): Mask of FP a ≤ b, scalar FP operand. -/
  | vfleF (d a b : BitVec 5) (m : BitVec 3)
  /-- VFGT_V (R174): Mask of FP a > b, vector operand. -/
  | vfgtV (d a b : BitVec 5) (m : BitVec 3) (l : BitVec 1)
  /-- VFGT_F (R174): Mask of FP a > b, scalar FP operand. -/
  | vfgtF (d a b : BitVec 5) (m : BitVec 3)
  /-- VFGE_V (R174): Mask of FP a ≥ b, vector operand. -/
  | vfgeV (d a b : BitVec 5) (m : BitVec 3) (l : BitVec 1)
  /-- VFGE_F (R174): Mask of FP a ≥ b, scalar FP operand. -/
  | vfgeF (d a b : BitVec 5) (m : BitVec 3)
  /-- VFCVT (R177): Converts elements to FP format codes 0–5. -/
  | vfcvt (d a c : BitVec 5) (m : BitVec 3)
  /-- VFPACK (R177): Converts and packs elements to E3M2, E2M3 or E2M1, with saturation. -/
  | vfpack (d a c : BitVec 5) (m : BitVec 3)
  /-- VFUNPACK (R177): Unpacks 6- or 4-bit elements to FORM.NF. -/
  | vfunpack (d a c : BitVec 5) (m : BitVec 3)
  /-- VFCVTI (R177): Converts FP elements to clipped integers. -/
  | vfcvti (d a c : BitVec 5) (m : BitVec 3)
  /-- VICVTF (R177): Converts integer elements to FORM.NF. -/
  | vicvtf (d a c : BitVec 5) (m : BitVec 3)
  /-- VFREDSUM (R174): FP row sum by the fixed pairwise tree. -/
  | vfredsum (d a : BitVec 5) (m : BitVec 3)
  /-- VFREDMAX (R174): FP row maximum by the fixed tree. -/
  | vfredmax (d a : BitVec 5) (m : BitVec 3)
  /-- VFEXP2 (R61): Correctly rounded 2^x per element. -/
  | vfexp2 (d a : BitVec 5) (m : BitVec 3)
  /-- VFLOG2 (R61): Correctly rounded log2 per element. -/
  | vflog2 (d a : BitVec 5) (m : BitVec 3)
  /-- VFRCP (R61): Correctly rounded reciprocal per element. -/
  | vfrcp (d a : BitVec 5) (m : BitVec 3)
  /-- VFRSQ (R61): Correctly rounded reciprocal square root per element. -/
  | vfrsq (d a : BitVec 5) (m : BitVec 3)
  /-- MAND (R202): Mask AND. -/
  | mand (d a b : BitVec 5)
  /-- MOR (R202): Mask OR. -/
  | mor (d a b : BitVec 5)
  /-- MXOR (R202): Mask XOR. -/
  | mxor (d a b : BitVec 5)
  /-- MNOT (R202): Mask NOT. -/
  | mnot (d a : BitVec 5)
  /-- MPOPC (R203): Counts the active 1 bits of a mask into x[d]. -/
  | mpopc (d a : BitVec 5)
  /-- MFIRST (R203): Writes the index of the first active 1 bit of a mask to x[d]. -/
  | mfirst (d a : BitVec 5)
  /-- IOTA (R204): Writes the prefix counts of mask bits. -/
  | iota (d a : BitVec 5)
  /-- VID (R204): Writes the element index j. -/
  | vid (d : BitVec 5)
  /-- SLIDEUP_X (R205): Slides a row up by x[b]. -/
  | slideupX (d a b : BitVec 5) (m : BitVec 3)
  /-- SLIDEDN_X (R205): Slides a row down by x[b]. -/
  | slidednX (d a b : BitVec 5) (m : BitVec 3)
  /-- SLIDEUP_I (R205): Slides a row up by an immediate. -/
  | slideupI (d a i : BitVec 5) (m : BitVec 3)
  /-- SLIDEDN_I (R205): Slides a row down by an immediate. -/
  | slidednI (d a i : BitVec 5) (m : BitVec 3)
  /-- VGATHER (R206): Gathers within each row by an index vector. -/
  | vgather (d a b : BitVec 5) (m : BitVec 3) (l : BitVec 1)
  /-- COMPRESS (R207): Packs the selected elements of each row to the front. -/
  | compress (d a : BitVec 5) (m : BitVec 3)
  /-- EXPAND (R207): Spreads consecutive elements to the selected positions. -/
  | expand (d a : BitVec 5) (m : BitVec 3)
  /-- ROWBC_X (R208): Broadcasts row x[b] mod 8 to every row. -/
  | rowbcX (d a b : BitVec 5) (m : BitVec 3)
  /-- ROWROT_X (R208): Rotates rows by x[b] mod 8. -/
  | rowrotX (d a b : BitVec 5) (m : BitVec 3)
  /-- ROWBC_I (R208): Broadcasts an immediate-selected row. -/
  | rowbcI (d a : BitVec 5) (i m : BitVec 3)
  /-- ROWROT_I (R208): Rotates rows by an immediate. -/
  | rowrotI (d a : BitVec 5) (i m : BitVec 3)
  /-- VMVX (R209): Moves one vector element to x[d]. -/
  | vmvx (d a b : BitVec 5)
  /-- VMVS (R209): Writes x[a] into one vector element. -/
  | vmvs (d a b : BitVec 5)
  /-- VLD (R186): Unit-stride vector load with check phase and first-fault truncation. -/
  | vld (d a : BitVec 5) (m : BitVec 3)
  /-- VLDS (R186): Strided vector load. -/
  | vlds (d a b : BitVec 5) (m : BitVec 3)
  /-- VLD2 (R186): Two-dimensional strided vector load. -/
  | vld2 (d a b : BitVec 5) (m : BitVec 3)
  /-- VLDX (R186): Indexed vector load. -/
  | vldx (d a b : BitVec 5) (m : BitVec 3)
  /-- VLDL (R192): Lane-local scratchpad load from a pane. -/
  | vldl (d a b : BitVec 5) (m : BitVec 3)
  /-- VLDR (R194): Remote scratchpad load on the same die, writing a fault mask. -/
  | vldr (d b : BitVec 5) (m f : BitVec 3)
  /-- VREST (R199): Restores the vector state from a save image. -/
  | vrest (a : BitVec 5)
  /-- VST (R186): Unit-stride vector store. -/
  | vst (d a : BitVec 5) (m : BitVec 3)
  /-- VSTS (R186): Strided vector store. -/
  | vsts (d a b : BitVec 5) (m : BitVec 3)
  /-- VST2 (R186): Two-dimensional strided vector store. -/
  | vst2 (d a b : BitVec 5) (m : BitVec 3)
  /-- VSTX (R186): Indexed vector store; the last duplicate wins. -/
  | vstx (d a b : BitVec 5) (m : BitVec 3)
  /-- VSTL (R192): Lane-local scratchpad store to a pane. -/
  | vstl (d a b : BitVec 5) (m : BitVec 3)
  /-- VSTR (R194): Remote scratchpad store on the same die, writing a fault mask. -/
  | vstr (d b : BitVec 5) (m f : BitVec 3)
  /-- VSAADD (R195): Lane-local indivisible scratchpad add. -/
  | vsaadd (d a b : BitVec 5) (m : BitVec 3)
  /-- VSAMAX (R195): Lane-local indivisible scratchpad signed maximum. -/
  | vsamax (d a b : BitVec 5) (m : BitVec 3)
  /-- VSAVE (R198): Saves the dirty quarters and the masks to an image. -/
  | vsave (a : BitVec 5)
  /-- VSHAPE (R141): Grants VL and VROWS, moving lanes if the grant changes. -/
  | vshape (d a b : BitVec 5)
  /-- VFORM (R144): Exchanges FORM with a checked x[a] value. -/
  | vform (d a : BitVec 5)
  /-- VSPLIT (R149): Splits the core's lanes into 2 or 4 lane groups. -/
  | vsplit (n : BitVec 2)
  /-- VJOIN (R150): Waits for the partners to be vector-idle, then takes all lanes. -/
  | vjoin
  /-- VRDSHAPE (R147): Waits for the queues, then reads SHAPE into x[d]. -/
  | vrdshape (d : BitVec 5)
  /-- MSHAPE (R222): Sets MRM, clears HR with row zeroing and returns the array shape. -/
  | mshape (p : BitVec 5) (r : BitVec 3)
  /-- MZERO (R223): Zeroes a tile and opens its tag. -/
  | mzero (n : BitVec 2)
  /-- MLDS (R225): Loads the shadow plane from a register string. -/
  | mlds (p q : BitVec 5) (f : BitVec 4)
  /-- MSWAP (R224): Exchanges the stationary and shadow planes. -/
  | mswap
  /-- MOP (R227): Outer-product accumulation into a tile from a register string. -/
  | mop (p q : BitVec 5) (n : BitVec 2) (f : BitVec 4)
  /-- MOPS (R227): Outer-product accumulation from a consumed stream chunk. -/
  | mops (p q : BitVec 5) (n : BitVec 2) (f : BitVec 4)
  /-- MRD (R230): Reads tile rows into a register string through the vector queue. -/
  | mrd (p q : BitVec 5) (n : BitVec 2)
  /-- MWR (R231): Writes raw tile rows from a register string. -/
  | mwr (p q : BitVec 5) (n : BitVec 2)
  /-- MCVT (R229): Converts a tile in place and retags it. -/
  | mcvt (r : BitVec 3) (n : BitVec 2) (f : BitVec 4)
  /-- MOPX (R227): Microscaled outer product with E8M0 scales. -/
  | mopx (p q s : BitVec 5) (n : BitVec 2) (f : BitVec 4)
  /-- MOPSX (R227): Microscaled outer product from a stream chunk. -/
  | mopsx (p q s : BitVec 5) (n : BitVec 2) (f : BitVec 4)
  /-- SDECL (R250): Reads a stream descriptor and declares the stream. -/
  | sdecl (s a : BitVec 5)
  /-- SBIND (R251): Binds a declared stream to v24–v31. -/
  | sbind (d s : BitVec 5)
  /-- SUNBIND (R251): Unbinds a stream, draining output and zeroing the staging pane. -/
  | sunbind (d : BitVec 5)
  /-- SSTAT (R256): Reports the stream's remaining count and flags. -/
  | sstat (d s : BitVec 5)
  /-- PALLOC (R248): Allocates a pane in the core's pane table. -/
  | palloc (d a b : BitVec 5)
  /-- PSTATE (R249): Reads a pane entry and optionally requests a state. -/
  | pstate (d a : BitVec 5)
  /-- PFREE (R249): Empties a ready, unheld pane. -/
  | pfree (a : BitVec 5)
  /-- LXCOPY (R258): Queues a Levanter byte-copy job. -/
  | lxcopy (d a : BitVec 5) (s : BitVec 3) (c e : BitVec 1)
  /-- LXGATH (R258): Queues a Levanter gather job with duplicate marking. -/
  | lxgath (d a : BitVec 5) (s : BitVec 3) (c e : BitVec 1)
  /-- LXSCAT (R258): Queues a Levanter scatter job. -/
  | lxscat (d a : BitVec 5) (s : BitVec 3) (c e : BitVec 1)
  /-- LXPOLL (R263): Returns the state of a job id. -/
  | lxpoll (d a : BitVec 5)
  /-- SEAL (R264): Releases at SYS, writes the range home and enters it in the seal table. -/
  | seal (a : BitVec 5)
  /-- UNSEAL (R266): Moves a sealed buffer to draining and waits for its count to reach 0. -/
  | unseal (a : BitVec 5)
  /-- RELB (R266): Drops the buffer's lines from the executing die. -/
  | relb (a : BitVec 5)
  /-- RSPAWN (R268): Spawns a child on a free slot of a target core, or inline. -/
  | rspawn (a b : BitVec 5)
  /-- DQPUSH (R270): Pushes a task record onto the core's deque, spilling to pane 63. -/
  | dqpush (a b : BitVec 5)
  /-- DQPOP (R271): Pops a task record, or steals one from the steal domain. -/
  | dqpop (d : BitVec 5)
  /-- JOINDEC (R273): Atomically decrements a join counter, ACQREL at SYS. -/
  | joindec (d a : BitVec 5)
  /-- GNEW (R274): Opens a gang table entry in state forming. -/
  | gnew (d a : BitVec 5)
  /-- GADD (R275): Adds a context to a forming gang. -/
  | gadd (a b : BitVec 5)
  /-- GSTOP (R276): Stops a gang, waiting until every member has taken gang_stop. -/
  | gstop (a : BitVec 5)
  /-- GRESUME (R276): Reactivates or frees a stopped gang. -/
  | gresume (a : BitVec 5)
  /-- GBAR (R277): Gang barrier with release and acquire at W. -/
  | gbar
  /-- GCAST (R278): Copies a pane or sealed buffer into a pane of every member. -/
  | gcast (a b : BitVec 5)
  /-- MSEND (R279): Sends a DATA, SPAWN, WAKE or REGW message to a gang rank. -/
  | msend (a b : BitVec 5) (k : BitVec 2)
  /-- MRECV (R281): Dequeues the oldest mailbox message and acquires at SYS. -/
  | mrecv (d a : BitVec 5)
  /-- WAITM (R282): Parks until a message, SPAWN or wake arrives. -/
  | waitm
  /-- WAITT (R283): Parks until TIME ≥ t, or sets the missed flag. -/
  | waitt (a : BitVec 5)
  /-- TIMEQ (R284): Reads TIME with the missed flag and clears the flag. -/
  | timeq (d : BitVec 5)
  /-- AMOSWAP (R126): Atomic swap. -/
  | amoswap (d a b : BitVec 5) (s o : BitVec 3) (w : BitVec 1)
  /-- AMOADD (R126): Atomic add. -/
  | amoadd (d a b : BitVec 5) (s o : BitVec 3) (w : BitVec 1)
  /-- AMOAND (R126): Atomic AND. -/
  | amoand (d a b : BitVec 5) (s o : BitVec 3) (w : BitVec 1)
  /-- AMOOR (R126): Atomic OR. -/
  | amoor (d a b : BitVec 5) (s o : BitVec 3) (w : BitVec 1)
  /-- AMOXOR (R126): Atomic XOR. -/
  | amoxor (d a b : BitVec 5) (s o : BitVec 3) (w : BitVec 1)
  /-- AMOMIN (R126): Atomic signed minimum. -/
  | amomin (d a b : BitVec 5) (s o : BitVec 3) (w : BitVec 1)
  /-- AMOMAX (R126): Atomic signed maximum. -/
  | amomax (d a b : BitVec 5) (s o : BitVec 3) (w : BitVec 1)
  /-- AMOCAS (R126): Atomic compare and swap against the old x[d]. -/
  | amocas (d a b : BitVec 5) (s o : BitVec 3) (w : BitVec 1)
  /-- LDL (R129): Loads and sets the context's reservation. -/
  | ldl (d a : BitVec 5) (s o : BitVec 3) (w : BitVec 1)
  /-- STC (R130): Stores if the reservation holds; writes 0 or 1 to x[d]. -/
  | stc (d a b : BitVec 5) (s o : BitVec 3) (w : BitVec 1)
  /-- VFORMI (R145): Sets FORM[13:0] from an immediate, returning the old FORM. -/
  | vformi (d : BitVec 5) (v : BitVec 14)
  /-- BEQ (R115): Branches if x[a] = x[b]. -/
  | beq (a b : BitVec 5) (o : BitVec 16)
  /-- BNE (R115): Branches if x[a] ≠ x[b]. -/
  | bne (a b : BitVec 5) (o : BitVec 16)
  /-- BLT (R115): Branches if x[a] < x[b], signed. -/
  | blt (a b : BitVec 5) (o : BitVec 16)
  /-- BGE (R115): Branches if x[a] ≥ x[b], signed. -/
  | bge (a b : BitVec 5) (o : BitVec 16)
  /-- BLTU (R115): Branches if x[a] < x[b], unsigned. -/
  | bltu (a b : BitVec 5) (o : BitVec 16)
  /-- BGEU (R115): Branches if x[a] ≥ x[b], unsigned. -/
  | bgeu (a b : BitVec 5) (o : BitVec 16)
  /-- PFX (R457): Lends a predicate, a destination copy and an ordering to the next word. -/
  | pfx (k : BitVec 2) (r : BitVec 5) (n : BitVec 1) (c : BitVec 5) (v : BitVec 1) (o s : BitVec 3)
deriving DecidableEq, Repr

end Sys2Proof
end

