-- ==== Sys2Proof/WellFormed.lean ====
section
/-! DEFINITION. Which instructions are well formed: the values that the encoding tables of spec/03 leave reserved (R6,
R67) are refused, field by field.  A well-formed event names units that exist. -/

namespace Sys2Proof

/-- The numbers of the table of R38: a number missing from it names no system register (R36). -/
def sysregNumbers : List Nat :=
  [0x000, 0x001, 0x002, 0x003, 0x008, 0x009, 0x00A, 0x00B,
   0x400, 0x401, 0x402, 0x403, 0x404, 0x405, 0x406, 0x410, 0x411, 0x412, 0x413,
   0x420, 0x421, 0x430, 0x431, 0x432, 0x433, 0x434, 0x440, 0x441,
   0x800, 0x801, 0x802, 0x803, 0x804, 0x805, 0x806, 0x810, 0x811,
   0xC00, 0xC01, 0xC02, 0xC03, 0xC04, 0xC05, 0xC06, 0xC10, 0xC11, 0xC12, 0xC13, 0xC14, 0xC18, 0xC19]

/-- A system register number that R38 lists. -/
def sysregKnown (n : Nat) : Bool := sysregNumbers.elem n

/-- The check of R28 on a value for FORM: GF is not 3, NF is 0-12, RM is 0-4, and bits [63:14] are zero. -/
def formLegal (v : Word) : Bool :=
  v.extractLsb' 2 2 != 3 && decide ((v.extractLsb' 6 4).toNat ≤ 12) && decide ((v.extractLsb' 10 3).toNat ≤ 4)
    && v >>> 14 == 0

/-- The field values that the tables of spec/03 allow (R66-R85). -/
def Instr.wf : Instr → Bool
  | .asyncTrapTaken => true
  | .slotctlStart _ => true
  | .shapeWrite _ => true
  | .fstatWrite _ => true
  | .mstatClear _ => true
  | .mownSave _ => true
  | .mownLoad _ => true
  | .mownZero _ => true
  | .dpbankWrite _ => true
  | .leaseLengthWrite _ _ => true
  | .detmodeWrite _ => true
  | .rankEntryWrite _ => true
  | .inboxRegisterWrite _ => true
  | .worldTableWrite _ => true
  | .fctlWrite port fn _ => decide (port < 2 ∧ fn ≤ 48)
  | .dbtgtWrite port fn _ => decide (port < 2 ∧ fn ≤ 48)
  | .lqheadWrite port fn _ => decide (port < 2 ∧ fn ≤ 48)
  | .hintWrite port fn _ => decide (port < 2 ∧ fn ≤ 48)
  | .codeRangeEnable port fn k _ => decide (port < 2 ∧ fn ≤ 48 ∧ k < 8)
  | .codeRangeDisable port fn k _ => decide (port < 2 ∧ fn ≤ 48 ∧ k < 8)
  | .fcbRegisterWrite port fn _ _ => decide (port < 2 ∧ fn ≤ 48)
  | .memoryReply c _ _ => decide (c < 6144)
  | .postedStoreDrain c => decide (c < 6144)
  | .icacheFill core _ _ => decide (core < 768)
  | .pageWalk c _ _ _ => decide (c < 6144)
  | .vectorCheckPhaseEnd c => decide (c < 6144)
  | .vectorSweepStart c => decide (c < 6144)
  | .vectorRowArrival c row => decide (c < 6144 ∧ row < 8)
  | .vectorSweepComplete c => decide (c < 6144)
  | .matrixEntryStart core => decide (core < 768)
  | .matrixEntryComplete core _ _ => decide (core < 768)
  | .gustPrefetch c stream => decide (c < 6144 ∧ stream < 8)
  | .jobSchedule die cluster => decide (die < 12 ∧ cluster < 8)
  | .jobBlockEnd die cluster => decide (die < 12 ∧ cluster < 8)
  | .jobFaultEnd die cluster => decide (die < 12 ∧ cluster < 8)
  | .jobComplete die cluster => decide (die < 12 ∧ cluster < 8)
  | .levanterRound die cluster => decide (die < 12 ∧ cluster < 8)
  | .gcastCopyLanded core pane => decide (core < 768 ∧ pane < 64)
  | .sealCountDrained die idx => decide (die < 12 ∧ idx < 256)
  | .spawnRequestArrival c core _ => decide (c < 6144 ∧ core < 768)
  | .stealRequest c victim => decide (c < 6144 ∧ victim < 768)
  | .gbarArrivalSignal gang rank => decide (gang < 4096 ∧ rank < 8192)
  | .gbarGenerationComplete gang => decide (gang < 4096)
  | .gangStopComplete gang => decide (gang < 4096)
  | .msendAccept core _ => decide (core < 768)
  | .dataDelivery c _ => decide (c < 6144)
  | .spawnDelivery c _ => decide (c < 6144)
  | .wakeDelivery c _ => decide (c < 6144)
  | .regwDelivery c _ => decide (c < 6144)
  | .inboxRecordWrite core slot _ => decide (core < 768 ∧ slot < 8)
  | .waittExpiry c => decide (c < 6144)
  | .wfiWake c => decide (c < 6144)
  | .waitResumption c => decide (c < 6144)
  | .homeMiss die _ => decide (die < 12)
  | .homeWritePerform _ => true
  | .leaseExpiry die _ => decide (die < 12)
  | .writeCombineFlush die _ => decide (die < 12)
  | .tokenBucketRefill core => decide (core < 768)
  | .ptpTimestampExchange _ => true
  | .hostDoorbellWrite port fn _ _ => decide (port < 2 ∧ fn ≤ 48)
  | .doorbellMessageSend port fn => decide (port < 2 ∧ fn ≤ 48)
  | .inboundRead port fn _ len _ _ => decide (port < 2 ∧ fn ≤ 48 ∧ len ≤ 4096)
  | .inboundWrite port fn _ data _ _ => decide (port < 2 ∧ fn ≤ 48 ∧ data.length ≤ 512)
  | .outboundCompletion c _ _ => decide (c < 6144)
  | .peerReadTimeout c => decide (c < 6144)
  | .hostMsixUnmask port fn vec _ _ => decide (port < 2 ∧ fn ≤ 48 ∧ vec < 16)
  | .tdispRequest port fn state => decide (port < 2 ∧ fn ≤ 48 ∧ state < 4)
  | .spdmMessage port fn kind => decide (port < 2 ∧ fn ≤ 48 ∧ kind < 5)
  | .keyInstall port fn slot _ => decide (port < 2 ∧ fn ≤ 48 ∧ slot < 8)
  | .keyErase port fn => decide (port < 2 ∧ fn ≤ 48)
  | .functionLevelReset port fn => decide (port < 2 ∧ fn ≤ 48)
  | .etesianFlitReplay port => decide (port < 18)
  | .linkDown port => decide (port < 18)
  | .linkRetrainTimeout port => decide (port < 18)
  | .linkWidthWindow link _ => decide (link < 66)
  | .linkWiden link => decide (link < 66)
  | .linkWidthHandshakeDone link => decide (link < 66)
  | .packageReset _ => true
  | .packageBoot f => decide (f.number < 64) && f.joined.all (fun p => decide (p < 64)) && f.ports.all fun p => decide (p < 18)
  | .controllerHeartbeat => true
  | .controllerFailover => true
  | .stateSummary _ => true
  | .journalClear bootStep => decide (1 ≤ bootStep ∧ bootStep ≤ 12)
  | .doeUnknownCommand _ => true
  | .expansionTableReplace die _ _ _ => decide (die < 12)
  | .thermalSensorRead _ => true
  | .patrolScrub die _ => decide (die < 12)
  | .foehnTest die cls _ _ => decide (die < 12 ∧ cls < 6)
  | .redundantOn c => decide (c < 6144)
  | .redundantOff c => decide (c < 6144)
  | .recordOn c => decide (c < 6144)
  | .replayOn c => decide (c < 6144)
  | .recordReplayOff c => decide (c < 6144)
  | .intervalClose c => decide (c < 6144)
  | .redundantTimeout c => decide (c < 6144)
  | .illegalEncoding _ => true
  | .instructionFetchFault cause _ => decide (cause < 23)
  | .linkRetrained port => decide (port < 18)
  | .functionEnable port fn _ => decide (port < 2 ∧ fn ≤ 48)
  | .powerRemoved => true
  | .dptokenWrite _ => true
  | .add _ _ _ => true
  | .sub _ _ _ => true
  | .and _ _ _ => true
  | .or _ _ _ => true
  | .xor _ _ _ => true
  | .sll _ _ _ => true
  | .srl _ _ _ => true
  | .sra _ _ _ => true
  | .slt _ _ _ => true
  | .sltu _ _ _ => true
  | .min _ _ _ => true
  | .max _ _ _ => true
  | .minu _ _ _ => true
  | .maxu _ _ _ => true
  | .fshl _ _ _ _ => true
  | .fshr _ _ _ _ => true
  | .clz _ _ => true
  | .ctz _ _ => true
  | .popc _ _ => true
  | .sel _ _ _ => true
  | .ext _ _ l p => decide (p.toNat + l.toNat + 1 ≤ 64)
  | .ins _ _ l p => decide (p.toNat + l.toNat + 1 ≤ 64)
  | .addi _ _ _ => true
  | .andi _ _ _ => true
  | .ori _ _ _ => true
  | .xori _ _ _ => true
  | .slli _ _ _ => true
  | .srli _ _ _ => true
  | .srai _ _ _ => true
  | .slti _ _ _ => true
  | .sltiu _ _ _ => true
  | .lui _ _ => true
  | .addpc _ _ => true
  | .mul _ _ _ => true
  | .mulh _ _ _ => true
  | .mulhu _ _ _ => true
  | .div _ _ _ => true
  | .divu _ _ _ => true
  | .rem _ _ _ => true
  | .remu _ _ _ => true
  | .lut3 _ _ _ _ => true
  | .fadd _ _ _ r f => decide (r.toNat ≤ 4 ∧ f.toNat ≤ 1)
  | .fsub _ _ _ r f => decide (r.toNat ≤ 4 ∧ f.toNat ≤ 1)
  | .fmul _ _ _ r f => decide (r.toNat ≤ 4 ∧ f.toNat ≤ 1)
  | .fdiv _ _ _ r f => decide (r.toNat ≤ 4 ∧ f.toNat ≤ 1)
  | .fsqrt _ _ r f => decide (r.toNat ≤ 4 ∧ f.toNat ≤ 1)
  | .fmin _ _ _ f => decide (f.toNat ≤ 1)
  | .fmax _ _ _ f => decide (f.toNat ≤ 1)
  | .feq _ _ _ f => decide (f.toNat ≤ 1)
  | .flt _ _ _ f => decide (f.toNat ≤ 1)
  | .fle _ _ _ f => decide (f.toNat ≤ 1)
  | .fclass _ _ f => decide (f.toNat ≤ 1)
  | .fcvt _ _ s r f => decide (s.toNat ≤ 3 ∧ f.toNat ≤ 3 ∧ s ≠ f ∧ r.toNat ≤ 4)
  | .fcvti _ _ _ r f => decide (f.toNat ≤ 3 ∧ r.toNat ≤ 4)
  | .icvtf _ _ _ r f => decide (f.toNat ≤ 3 ∧ r.toNat ≤ 4)
  | .fmvx _ _ f => decide (f.toNat ≤ 3)
  | .fmvf _ _ f => decide (f.toNat ≤ 3)
  | .fma _ _ _ _ r _ => decide (r.toNat ≤ 4)
  | .fms _ _ _ _ r _ => decide (r.toNat ≤ 4)
  | .fnma _ _ _ _ r _ => decide (r.toNat ≤ 4)
  | .fnms _ _ _ _ r _ => decide (r.toNat ≤ 4)
  | .jal _ => true
  | .jalr _ _ _ => true
  | .lb _ _ _ => true
  | .lbu _ _ _ => true
  | .lh _ _ _ => true
  | .lhu _ _ _ => true
  | .lw _ _ _ => true
  | .lwu _ _ _ => true
  | .ld _ _ _ => true
  | .flw _ _ _ => true
  | .fld _ _ _ => true
  | .sb _ _ _ => true
  | .sh _ _ _ => true
  | .sw _ _ _ => true
  | .sd _ _ _ => true
  | .fsw _ _ _ => true
  | .fsd _ _ _ => true
  | .ecall => true
  | .ebreak => true
  | .eret => true
  | .movs _ n => decide (sysregKnown n.toNat = true)
  | .movsw _ n => decide (sysregKnown n.toNat = true)
  | .fence s => decide (s.toNat ≤ 4)
  | .fencei => true
  | .tlbinv _ _ t => decide (t.toNat ≤ 2)
  | .dgate _ => true
  | .dret => true
  | .wfi => true
  | .chkpt => true
  | .vaddV _ _ b _ l => decide ((l = 1 → b = 31))
  | .vaddX _ _ _ _ => true
  | .vaddI _ _ _ _ => true
  | .vsubV _ _ b _ l => decide ((l = 1 → b = 31))
  | .vsubX _ _ _ _ => true
  | .vsubI _ _ _ _ => true
  | .vrsubV _ _ b _ l => decide ((l = 1 → b = 31))
  | .vrsubX _ _ _ _ => true
  | .vrsubI _ _ _ _ => true
  | .vmulV _ _ b _ l => decide ((l = 1 → b = 31))
  | .vmulX _ _ _ _ => true
  | .vmulhV _ _ b _ l => decide ((l = 1 → b = 31))
  | .vmulhX _ _ _ _ => true
  | .vmulhuV _ _ b _ l => decide ((l = 1 → b = 31))
  | .vmulhuX _ _ _ _ => true
  | .vdivV _ _ b _ l => decide ((l = 1 → b = 31))
  | .vdivX _ _ _ _ => true
  | .vdivuV _ _ b _ l => decide ((l = 1 → b = 31))
  | .vdivuX _ _ _ _ => true
  | .vremV _ _ b _ l => decide ((l = 1 → b = 31))
  | .vremX _ _ _ _ => true
  | .vremuV _ _ b _ l => decide ((l = 1 → b = 31))
  | .vremuX _ _ _ _ => true
  | .vminV _ _ b _ l => decide ((l = 1 → b = 31))
  | .vminX _ _ _ _ => true
  | .vminI _ _ _ _ => true
  | .vmaxV _ _ b _ l => decide ((l = 1 → b = 31))
  | .vmaxX _ _ _ _ => true
  | .vmaxI _ _ _ _ => true
  | .vminuV _ _ b _ l => decide ((l = 1 → b = 31))
  | .vminuX _ _ _ _ => true
  | .vminuI _ _ _ _ => true
  | .vmaxuV _ _ b _ l => decide ((l = 1 → b = 31))
  | .vmaxuX _ _ _ _ => true
  | .vmaxuI _ _ _ _ => true
  | .vandV _ _ b _ l => decide ((l = 1 → b = 31))
  | .vandX _ _ _ _ => true
  | .vandI _ _ _ _ => true
  | .vorV _ _ b _ l => decide ((l = 1 → b = 31))
  | .vorX _ _ _ _ => true
  | .vorI _ _ _ _ => true
  | .vxorV _ _ b _ l => decide ((l = 1 → b = 31))
  | .vxorX _ _ _ _ => true
  | .vxorI _ _ _ _ => true
  | .vsllV _ _ b _ l => decide ((l = 1 → b = 31))
  | .vsllX _ _ _ _ => true
  | .vsllI _ _ _ _ => true
  | .vsrlV _ _ b _ l => decide ((l = 1 → b = 31))
  | .vsrlX _ _ _ _ => true
  | .vsrlI _ _ _ _ => true
  | .vsraV _ _ b _ l => decide ((l = 1 → b = 31))
  | .vsraX _ _ _ _ => true
  | .vsraI _ _ _ _ => true
  | .vsaddV _ _ b _ l => decide ((l = 1 → b = 31))
  | .vsaddX _ _ _ _ => true
  | .vsaddI _ _ _ _ => true
  | .vssubV _ _ b _ l => decide ((l = 1 → b = 31))
  | .vssubX _ _ _ _ => true
  | .vssubI _ _ _ _ => true
  | .vwmulV _ _ b _ l => decide ((l = 1 → b = 31))
  | .vwmulX _ _ _ _ => true
  | .vwmaccV _ _ b _ l => decide ((l = 1 → b = 31))
  | .vwmaccX _ _ _ _ => true
  | .vwmaccuV _ _ b _ l => decide ((l = 1 → b = 31))
  | .vwmaccuX _ _ _ _ => true
  | .vwmaccsuV _ _ b _ l => decide ((l = 1 → b = 31))
  | .vwmaccsuX _ _ _ _ => true
  | .vnclipV _ _ b _ l => decide ((l = 1 → b = 31))
  | .vnclipX _ _ _ _ => true
  | .vnclipI _ _ _ _ => true
  | .vfshlV _ _ b _ l => decide ((l = 1 → b = 31))
  | .vfshlX _ _ _ _ => true
  | .vfshlI _ _ _ _ => true
  | .vfshrV _ _ b _ l => decide ((l = 1 → b = 31))
  | .vfshrX _ _ _ _ => true
  | .vfshrI _ _ _ _ => true
  | .vmergeV _ _ b m l => decide (m ≠ 0 ∧ (l = 1 → b = 31))
  | .vmergeX _ _ _ m => decide (m ≠ 0)
  | .vmergeI _ _ _ m => decide (m ≠ 0)
  | .vmovV _ b _ l => decide ((l = 1 → b = 31))
  | .vmovX _ _ _ => true
  | .vmovI _ _ _ => true
  | .vseqV d _ b _ l => decide (d.toNat ≤ 7 ∧ (l = 1 → b = 31))
  | .vseqX d _ _ _ => decide (d.toNat ≤ 7)
  | .vseqI d _ _ _ => decide (d.toNat ≤ 7)
  | .vsneV d _ b _ l => decide (d.toNat ≤ 7 ∧ (l = 1 → b = 31))
  | .vsneX d _ _ _ => decide (d.toNat ≤ 7)
  | .vsneI d _ _ _ => decide (d.toNat ≤ 7)
  | .vsltV d _ b _ l => decide (d.toNat ≤ 7 ∧ (l = 1 → b = 31))
  | .vsltX d _ _ _ => decide (d.toNat ≤ 7)
  | .vsltI d _ _ _ => decide (d.toNat ≤ 7)
  | .vsltuV d _ b _ l => decide (d.toNat ≤ 7 ∧ (l = 1 → b = 31))
  | .vsltuX d _ _ _ => decide (d.toNat ≤ 7)
  | .vsltuI d _ _ _ => decide (d.toNat ≤ 7)
  | .vsleV d _ b _ l => decide (d.toNat ≤ 7 ∧ (l = 1 → b = 31))
  | .vsleX d _ _ _ => decide (d.toNat ≤ 7)
  | .vsleI d _ _ _ => decide (d.toNat ≤ 7)
  | .vsleuV d _ b _ l => decide (d.toNat ≤ 7 ∧ (l = 1 → b = 31))
  | .vsleuX d _ _ _ => decide (d.toNat ≤ 7)
  | .vsleuI d _ _ _ => decide (d.toNat ≤ 7)
  | .vsgtV d _ b _ l => decide (d.toNat ≤ 7 ∧ (l = 1 → b = 31))
  | .vsgtX d _ _ _ => decide (d.toNat ≤ 7)
  | .vsgtI d _ _ _ => decide (d.toNat ≤ 7)
  | .vsgtuV d _ b _ l => decide (d.toNat ≤ 7 ∧ (l = 1 → b = 31))
  | .vsgtuX d _ _ _ => decide (d.toNat ≤ 7)
  | .vsgtuI d _ _ _ => decide (d.toNat ≤ 7)
  | .vpopc _ _ _ => true
  | .vclz _ _ _ => true
  | .vconf d _ => decide (d.toNat ≤ 7)
  | .vredsum _ _ _ => true
  | .vredmax _ _ _ => true
  | .vredmin _ _ _ => true
  | .vredmaxu _ _ _ => true
  | .vredminu _ _ _ => true
  | .vredand _ _ _ => true
  | .vredor _ _ _ => true
  | .vredxor _ _ _ => true
  | .vlut3 _ _ b _ l _ => decide ((l = 1 → b = 31))
  | .vfaddV _ _ b _ l => decide ((l = 1 → b = 31))
  | .vfaddF _ _ _ _ => true
  | .vfsubV _ _ b _ l => decide ((l = 1 → b = 31))
  | .vfsubF _ _ _ _ => true
  | .vfmulV _ _ b _ l => decide ((l = 1 → b = 31))
  | .vfmulF _ _ _ _ => true
  | .vfdivV _ _ b _ l => decide ((l = 1 → b = 31))
  | .vfdivF _ _ _ _ => true
  | .vfsqrt _ _ _ => true
  | .vfmaV _ _ b _ l => decide ((l = 1 → b = 31))
  | .vfmaF _ _ _ _ => true
  | .vfnmaV _ _ b _ l => decide ((l = 1 → b = 31))
  | .vfnmaF _ _ _ _ => true
  | .vfminV _ _ b _ l => decide ((l = 1 → b = 31))
  | .vfminF _ _ _ _ => true
  | .vfmaxV _ _ b _ l => decide ((l = 1 → b = 31))
  | .vfmaxF _ _ _ _ => true
  | .vfeqV d _ b _ l => decide (d.toNat ≤ 7 ∧ (l = 1 → b = 31))
  | .vfeqF d _ _ _ => decide (d.toNat ≤ 7)
  | .vfltV d _ b _ l => decide (d.toNat ≤ 7 ∧ (l = 1 → b = 31))
  | .vfltF d _ _ _ => decide (d.toNat ≤ 7)
  | .vfleV d _ b _ l => decide (d.toNat ≤ 7 ∧ (l = 1 → b = 31))
  | .vfleF d _ _ _ => decide (d.toNat ≤ 7)
  | .vfgtV d _ b _ l => decide (d.toNat ≤ 7 ∧ (l = 1 → b = 31))
  | .vfgtF d _ _ _ => decide (d.toNat ≤ 7)
  | .vfgeV d _ b _ l => decide (d.toNat ≤ 7 ∧ (l = 1 → b = 31))
  | .vfgeF d _ _ _ => decide (d.toNat ≤ 7)
  | .vfcvt _ _ c _ => decide (c.toNat ≤ 5)
  | .vfpack _ _ c _ => decide (6 ≤ c.toNat ∧ c.toNat ≤ 8)
  | .vfunpack _ _ c _ => decide (6 ≤ c.toNat ∧ c.toNat ≤ 8)
  | .vfcvti _ _ c _ => decide (9 ≤ c.toNat ∧ c.toNat ≤ 12)
  | .vicvtf _ _ c _ => decide (9 ≤ c.toNat ∧ c.toNat ≤ 12)
  | .vfredsum _ _ _ => true
  | .vfredmax _ _ _ => true
  | .vfexp2 _ _ _ => true
  | .vflog2 _ _ _ => true
  | .vfrcp _ _ _ => true
  | .vfrsq _ _ _ => true
  | .mand d a b => decide (d.toNat ≤ 7 ∧ a.toNat ≤ 7 ∧ b.toNat ≤ 7)
  | .mor d a b => decide (d.toNat ≤ 7 ∧ a.toNat ≤ 7 ∧ b.toNat ≤ 7)
  | .mxor d a b => decide (d.toNat ≤ 7 ∧ a.toNat ≤ 7 ∧ b.toNat ≤ 7)
  | .mnot d a => decide (d.toNat ≤ 7 ∧ a.toNat ≤ 7)
  | .mpopc _ a => decide (a.toNat ≤ 7)
  | .mfirst _ a => decide (a.toNat ≤ 7)
  | .iota _ a => decide (a.toNat ≤ 7)
  | .vid _ => true
  | .slideupX _ _ _ _ => true
  | .slidednX _ _ _ _ => true
  | .slideupI _ _ _ _ => true
  | .slidednI _ _ _ _ => true
  | .vgather _ _ b _ l => decide ((l = 1 → b = 31))
  | .compress _ _ m => decide (m ≠ 0)
  | .expand _ _ m => decide (m ≠ 0)
  | .rowbcX _ _ _ _ => true
  | .rowrotX _ _ _ _ => true
  | .rowbcI _ _ _ _ => true
  | .rowrotI _ _ _ _ => true
  | .vmvx _ _ _ => true
  | .vmvs _ _ _ => true
  | .vld _ _ _ => true
  | .vlds _ _ _ _ => true
  | .vld2 _ _ b _ => decide (b ≠ 0 ∧ b ≠ 31)
  | .vldx _ _ _ _ => true
  | .vldl _ _ _ _ => true
  | .vldr _ _ _ _ => true
  | .vrest _ => true
  | .vst _ _ _ => true
  | .vsts _ _ _ _ => true
  | .vst2 _ _ b _ => decide (b ≠ 0 ∧ b ≠ 31)
  | .vstx _ _ _ _ => true
  | .vstl _ _ _ _ => true
  | .vstr _ _ _ _ => true
  | .vsaadd _ _ _ _ => true
  | .vsamax _ _ _ _ => true
  | .vsave _ => true
  | .vshape _ _ _ => true
  | .vform _ _ => true
  | .vsplit n => decide (n = 1 ∨ n = 2)
  | .vjoin => true
  | .vrdshape _ => true
  | .mshape _ r => decide (r.toNat ≤ 4)
  | .mzero _ => true
  | .mlds _ _ f => decide (f.toNat ≤ 10)
  | .mswap => true
  | .mop _ _ _ f => decide (f.toNat ≤ 5 ∨ f = 9 ∨ f = 10)
  | .mops p _ _ f => decide (24 ≤ p.toNat ∧ (f.toNat ≤ 5 ∨ f = 9 ∨ f = 10))
  | .mrd _ _ _ => true
  | .mwr _ _ _ => true
  | .mcvt r _ f => decide (1 ≤ f.toNat ∧ f.toNat ≤ 5 ∧ r.toNat ≤ 4)
  | .mopx _ _ _ _ f => decide (4 ≤ f.toNat ∧ f.toNat ≤ 8)
  | .mopsx p _ _ _ f => decide (24 ≤ p.toNat ∧ 4 ≤ f.toNat ∧ f.toNat ≤ 8)
  | .sdecl s _ => decide (s.toNat ≤ 7)
  | .sbind d s => decide (24 ≤ d.toNat ∧ s.toNat ≤ 7)
  | .sunbind d => decide (24 ≤ d.toNat)
  | .sstat _ s => decide (s.toNat ≤ 7)
  | .palloc _ _ _ => true
  | .pstate _ _ => true
  | .pfree _ => true
  | .lxcopy _ _ s c e => decide (s.toNat ≤ 4 ∧ (c = 0 ∧ e = 0 → s = 0))
  | .lxgath _ _ s c e => decide (s.toNat ≤ 4 ∧ (c = 0 ∧ e = 0 → s = 0))
  | .lxscat _ _ s c e => decide (s.toNat ≤ 4 ∧ (c = 0 ∧ e = 0 → s = 0))
  | .lxpoll _ _ => true
  | .seal _ => true
  | .unseal _ => true
  | .relb _ => true
  | .rspawn _ _ => true
  | .dqpush _ _ => true
  | .dqpop d => decide (d.toNat < 10 ∨ 14 < d.toNat)
  | .joindec _ _ => true
  | .gnew _ _ => true
  | .gadd _ _ => true
  | .gstop _ => true
  | .gresume _ => true
  | .gbar => true
  | .gcast _ _ => true
  | .msend _ b k => decide ((k = 2 → b = 0))
  | .mrecv _ _ => true
  | .waitm => true
  | .waitt _ => true
  | .timeq _ => true
  | .amoswap _ _ _ s o _ => decide (o.toNat ≤ 4 ∧ s.toNat ≤ 4 ∧ (o = 0 → s = 0))
  | .amoadd _ _ _ s o _ => decide (o.toNat ≤ 4 ∧ s.toNat ≤ 4 ∧ (o = 0 → s = 0))
  | .amoand _ _ _ s o _ => decide (o.toNat ≤ 4 ∧ s.toNat ≤ 4 ∧ (o = 0 → s = 0))
  | .amoor _ _ _ s o _ => decide (o.toNat ≤ 4 ∧ s.toNat ≤ 4 ∧ (o = 0 → s = 0))
  | .amoxor _ _ _ s o _ => decide (o.toNat ≤ 4 ∧ s.toNat ≤ 4 ∧ (o = 0 → s = 0))
  | .amomin _ _ _ s o _ => decide (o.toNat ≤ 4 ∧ s.toNat ≤ 4 ∧ (o = 0 → s = 0))
  | .amomax _ _ _ s o _ => decide (o.toNat ≤ 4 ∧ s.toNat ≤ 4 ∧ (o = 0 → s = 0))
  | .amocas _ _ _ s o _ => decide (o.toNat ≤ 4 ∧ s.toNat ≤ 4 ∧ (o = 0 → s = 0))
  | .ldl _ _ s o _ => decide (o.toNat ≤ 2 ∧ s.toNat ≤ 4 ∧ (o = 0 → s = 0))
  | .stc _ _ _ s o _ => decide (o ≠ 2 ∧ o.toNat ≤ 3 ∧ s.toNat ≤ 4 ∧ (o = 0 → s = 0))
  | .vformi _ v => decide (formLegal (v.setWidth 64) = true)
  | .beq _ _ _ => true
  | .bne _ _ _ => true
  | .blt _ _ _ => true
  | .bge _ _ _ => true
  | .bltu _ _ _ => true
  | .bgeu _ _ _ => true
  | .pfx k r n c v o s => decide ((k = 0 → r = 0 ∧ n = 0) ∧ (k = 3 → r.toNat ≤ 7) ∧ (v = 0 → c = 0) ∧ o.toNat ≤ 4 ∧ s.toNat ≤ 4 ∧ (o = 0 → s = 0))

/-- The well-formed instructions, as a proposition. -/
abbrev Instr.WellFormed (i : Instr) : Prop := i.wf = true

end Sys2Proof
end

