-- ==== Sys2Proof/Decode.lean ====
section
/-! DEFINITION. Decoding and encoding: the words of spec/03 (R63-R86).  `decodeRaw` finds the row of a word and takes its
fields out; `decode` refuses, by name, a word of no row and a word with a reserved field value (R6, R87 step 1); `encode`
is written from the same tables.  Instructions are one 32-bit word, little-endian (R63). -/

namespace Sys2Proof

/-! The definitions that build instructions are marked noncomputable: the compiled code of this Lean holds at most 244
constructors with fields, and Instr has 447.  The kernel evaluates them. -/

noncomputable section

/-- The rows of major 0x00. -/
def decodeMajor00Op (op : BitVec 5) (w : BitVec 32) : Option Instr :=
  if op == 0x1#5 then (if w.extractLsb' 5 6 == 0x0#6 then some (.add (w.extractLsb' 21 5) (w.extractLsb' 16 5) (w.extractLsb' 11 5)) else none)
  else if op == 0x2#5 then (if w.extractLsb' 5 6 == 0x0#6 then some (.sub (w.extractLsb' 21 5) (w.extractLsb' 16 5) (w.extractLsb' 11 5)) else none)
  else if op == 0x3#5 then (if w.extractLsb' 5 6 == 0x0#6 then some (.and (w.extractLsb' 21 5) (w.extractLsb' 16 5) (w.extractLsb' 11 5)) else none)
  else if op == 0x4#5 then (if w.extractLsb' 5 6 == 0x0#6 then some (.or (w.extractLsb' 21 5) (w.extractLsb' 16 5) (w.extractLsb' 11 5)) else none)
  else if op == 0x5#5 then (if w.extractLsb' 5 6 == 0x0#6 then some (.xor (w.extractLsb' 21 5) (w.extractLsb' 16 5) (w.extractLsb' 11 5)) else none)
  else if op == 0x6#5 then (if w.extractLsb' 5 6 == 0x0#6 then some (.sll (w.extractLsb' 21 5) (w.extractLsb' 16 5) (w.extractLsb' 11 5)) else none)
  else if op == 0x7#5 then (if w.extractLsb' 5 6 == 0x0#6 then some (.srl (w.extractLsb' 21 5) (w.extractLsb' 16 5) (w.extractLsb' 11 5)) else none)
  else if op == 0x8#5 then (if w.extractLsb' 5 6 == 0x0#6 then some (.sra (w.extractLsb' 21 5) (w.extractLsb' 16 5) (w.extractLsb' 11 5)) else none)
  else if op == 0x9#5 then (if w.extractLsb' 5 6 == 0x0#6 then some (.slt (w.extractLsb' 21 5) (w.extractLsb' 16 5) (w.extractLsb' 11 5)) else none)
  else if op == 0xa#5 then (if w.extractLsb' 5 6 == 0x0#6 then some (.sltu (w.extractLsb' 21 5) (w.extractLsb' 16 5) (w.extractLsb' 11 5)) else none)
  else if op == 0xb#5 then (if w.extractLsb' 5 6 == 0x0#6 then some (.min (w.extractLsb' 21 5) (w.extractLsb' 16 5) (w.extractLsb' 11 5)) else none)
  else if op == 0xc#5 then (if w.extractLsb' 5 6 == 0x0#6 then some (.max (w.extractLsb' 21 5) (w.extractLsb' 16 5) (w.extractLsb' 11 5)) else none)
  else if op == 0xd#5 then (if w.extractLsb' 5 6 == 0x0#6 then some (.minu (w.extractLsb' 21 5) (w.extractLsb' 16 5) (w.extractLsb' 11 5)) else none)
  else if op == 0xe#5 then (if w.extractLsb' 5 6 == 0x0#6 then some (.maxu (w.extractLsb' 21 5) (w.extractLsb' 16 5) (w.extractLsb' 11 5)) else none)
  else if op == 0xf#5 then some (.fshl (w.extractLsb' 21 5) (w.extractLsb' 16 5) (w.extractLsb' 11 5) (w.extractLsb' 5 6))
  else if op == 0x10#5 then some (.fshr (w.extractLsb' 21 5) (w.extractLsb' 16 5) (w.extractLsb' 11 5) (w.extractLsb' 5 6))
  else if op == 0x11#5 then (if w.extractLsb' 5 11 == 0x0#11 then some (.clz (w.extractLsb' 21 5) (w.extractLsb' 16 5)) else none)
  else if op == 0x12#5 then (if w.extractLsb' 5 11 == 0x0#11 then some (.ctz (w.extractLsb' 21 5) (w.extractLsb' 16 5)) else none)
  else if op == 0x13#5 then (if w.extractLsb' 5 11 == 0x0#11 then some (.popc (w.extractLsb' 21 5) (w.extractLsb' 16 5)) else none)
  else if op == 0x14#5 then (if w.extractLsb' 5 6 == 0x0#6 then some (.sel (w.extractLsb' 21 5) (w.extractLsb' 16 5) (w.extractLsb' 11 5)) else none)
  else if op == 0x15#5 then some (.ext (w.extractLsb' 21 5) (w.extractLsb' 16 5) (w.extractLsb' 11 5) (w.extractLsb' 5 6))
  else if op == 0x16#5 then some (.ins (w.extractLsb' 21 5) (w.extractLsb' 16 5) (w.extractLsb' 11 5) (w.extractLsb' 5 6))
  else none

/-- Major 0x00, by its operation bits. -/
def decodeMajor00 (w : BitVec 32) : Option Instr := decodeMajor00Op (w.extractLsb' 0 5) w

/-- The rows of major 0x01. -/
def decodeMajor01 (w : BitVec 32) : Option Instr :=
  some (.addi (w.extractLsb' 21 5) (w.extractLsb' 16 5) (w.extractLsb' 0 16))

/-- The rows of major 0x02. -/
def decodeMajor02 (w : BitVec 32) : Option Instr :=
  some (.andi (w.extractLsb' 21 5) (w.extractLsb' 16 5) (w.extractLsb' 0 16))

/-- The rows of major 0x03. -/
def decodeMajor03 (w : BitVec 32) : Option Instr :=
  some (.ori (w.extractLsb' 21 5) (w.extractLsb' 16 5) (w.extractLsb' 0 16))

/-- The rows of major 0x04. -/
def decodeMajor04 (w : BitVec 32) : Option Instr :=
  some (.xori (w.extractLsb' 21 5) (w.extractLsb' 16 5) (w.extractLsb' 0 16))

/-- The rows of major 0x05. -/
def decodeMajor05Op (op : BitVec 2) (w : BitVec 32) : Option Instr :=
  if op == 0x0#2 then (if w.extractLsb' 6 8 == 0x0#8 then some (.slli (w.extractLsb' 21 5) (w.extractLsb' 16 5) (w.extractLsb' 0 6)) else none)
  else if op == 0x1#2 then (if w.extractLsb' 6 8 == 0x0#8 then some (.srli (w.extractLsb' 21 5) (w.extractLsb' 16 5) (w.extractLsb' 0 6)) else none)
  else if op == 0x2#2 then (if w.extractLsb' 6 8 == 0x0#8 then some (.srai (w.extractLsb' 21 5) (w.extractLsb' 16 5) (w.extractLsb' 0 6)) else none)
  else none

/-- Major 0x05, by its operation bits. -/
def decodeMajor05 (w : BitVec 32) : Option Instr := decodeMajor05Op (w.extractLsb' 14 2) w

/-- The rows of major 0x06. -/
def decodeMajor06 (w : BitVec 32) : Option Instr :=
  some (.slti (w.extractLsb' 21 5) (w.extractLsb' 16 5) (w.extractLsb' 0 16))

/-- The rows of major 0x07. -/
def decodeMajor07 (w : BitVec 32) : Option Instr :=
  some (.sltiu (w.extractLsb' 21 5) (w.extractLsb' 16 5) (w.extractLsb' 0 16))

/-- The rows of major 0x08. -/
def decodeMajor08 (w : BitVec 32) : Option Instr :=
  some (.lui (w.extractLsb' 21 5) (w.extractLsb' 0 21))

/-- The rows of major 0x09. -/
def decodeMajor09 (w : BitVec 32) : Option Instr :=
  some (.addpc (w.extractLsb' 21 5) (w.extractLsb' 0 21))

/-- The rows of major 0x0a. -/
def decodeMajor0AOp (op : BitVec 11) (w : BitVec 32) : Option Instr :=
  if op == 0x0#11 then some (.mul (w.extractLsb' 21 5) (w.extractLsb' 16 5) (w.extractLsb' 11 5))
  else if op == 0x1#11 then some (.mulh (w.extractLsb' 21 5) (w.extractLsb' 16 5) (w.extractLsb' 11 5))
  else if op == 0x2#11 then some (.mulhu (w.extractLsb' 21 5) (w.extractLsb' 16 5) (w.extractLsb' 11 5))
  else if op == 0x3#11 then some (.div (w.extractLsb' 21 5) (w.extractLsb' 16 5) (w.extractLsb' 11 5))
  else if op == 0x4#11 then some (.divu (w.extractLsb' 21 5) (w.extractLsb' 16 5) (w.extractLsb' 11 5))
  else if op == 0x5#11 then some (.rem (w.extractLsb' 21 5) (w.extractLsb' 16 5) (w.extractLsb' 11 5))
  else if op == 0x6#11 then some (.remu (w.extractLsb' 21 5) (w.extractLsb' 16 5) (w.extractLsb' 11 5))
  else none

/-- Major 0x0a, by its operation bits. -/
def decodeMajor0A (w : BitVec 32) : Option Instr := decodeMajor0AOp (w.extractLsb' 0 11) w

/-- The rows of major 0x0b. -/
def decodeMajor0B (w : BitVec 32) : Option Instr :=
  if w.extractLsb' 8 3 == 0x0#3 then some (.lut3 (w.extractLsb' 21 5) (w.extractLsb' 16 5) (w.extractLsb' 11 5) (w.extractLsb' 0 8)) else none

/-- The rows of major 0x0c. -/
def decodeMajor0COp (op : BitVec 4) (w : BitVec 32) : Option Instr :=
  if op == 0x0#4 then some (.fadd (w.extractLsb' 21 5) (w.extractLsb' 16 5) (w.extractLsb' 11 5) (w.extractLsb' 8 3) (w.extractLsb' 4 4))
  else if op == 0x1#4 then some (.fsub (w.extractLsb' 21 5) (w.extractLsb' 16 5) (w.extractLsb' 11 5) (w.extractLsb' 8 3) (w.extractLsb' 4 4))
  else if op == 0x2#4 then some (.fmul (w.extractLsb' 21 5) (w.extractLsb' 16 5) (w.extractLsb' 11 5) (w.extractLsb' 8 3) (w.extractLsb' 4 4))
  else if op == 0x3#4 then some (.fdiv (w.extractLsb' 21 5) (w.extractLsb' 16 5) (w.extractLsb' 11 5) (w.extractLsb' 8 3) (w.extractLsb' 4 4))
  else if op == 0x4#4 then (if w.extractLsb' 11 5 == 0x0#5 then some (.fsqrt (w.extractLsb' 21 5) (w.extractLsb' 16 5) (w.extractLsb' 8 3) (w.extractLsb' 4 4)) else none)
  else if op == 0x5#4 then (if w.extractLsb' 8 3 == 0x0#3 then some (.fmin (w.extractLsb' 21 5) (w.extractLsb' 16 5) (w.extractLsb' 11 5) (w.extractLsb' 4 4)) else none)
  else if op == 0x6#4 then (if w.extractLsb' 8 3 == 0x0#3 then some (.fmax (w.extractLsb' 21 5) (w.extractLsb' 16 5) (w.extractLsb' 11 5) (w.extractLsb' 4 4)) else none)
  else if op == 0x7#4 then (if w.extractLsb' 8 3 == 0x0#3 then some (.feq (w.extractLsb' 21 5) (w.extractLsb' 16 5) (w.extractLsb' 11 5) (w.extractLsb' 4 4)) else none)
  else if op == 0x8#4 then (if w.extractLsb' 8 3 == 0x0#3 then some (.flt (w.extractLsb' 21 5) (w.extractLsb' 16 5) (w.extractLsb' 11 5) (w.extractLsb' 4 4)) else none)
  else if op == 0x9#4 then (if w.extractLsb' 8 3 == 0x0#3 then some (.fle (w.extractLsb' 21 5) (w.extractLsb' 16 5) (w.extractLsb' 11 5) (w.extractLsb' 4 4)) else none)
  else if op == 0xa#4 then (if w.extractLsb' 8 8 == 0x0#8 then some (.fclass (w.extractLsb' 21 5) (w.extractLsb' 16 5) (w.extractLsb' 4 4)) else none)
  else if op == 0xb#4 then (if w.extractLsb' 15 1 == 0x0#1 then some (.fcvt (w.extractLsb' 21 5) (w.extractLsb' 16 5) (w.extractLsb' 11 4) (w.extractLsb' 8 3) (w.extractLsb' 4 4)) else none)
  else if op == 0xc#4 then (if w.extractLsb' 13 3 == 0x0#3 then some (.fcvti (w.extractLsb' 21 5) (w.extractLsb' 16 5) (w.extractLsb' 11 2) (w.extractLsb' 8 3) (w.extractLsb' 4 4)) else none)
  else if op == 0xd#4 then (if w.extractLsb' 13 3 == 0x0#3 then some (.icvtf (w.extractLsb' 21 5) (w.extractLsb' 16 5) (w.extractLsb' 11 2) (w.extractLsb' 8 3) (w.extractLsb' 4 4)) else none)
  else if op == 0xe#4 then (if w.extractLsb' 8 8 == 0x0#8 then some (.fmvx (w.extractLsb' 21 5) (w.extractLsb' 16 5) (w.extractLsb' 4 4)) else none)
  else if op == 0xf#4 then (if w.extractLsb' 8 8 == 0x0#8 then some (.fmvf (w.extractLsb' 21 5) (w.extractLsb' 16 5) (w.extractLsb' 4 4)) else none)
  else none

/-- Major 0x0c, by its operation bits. -/
def decodeMajor0C (w : BitVec 32) : Option Instr := decodeMajor0COp (w.extractLsb' 0 4) w

/-- The rows of major 0x0d. -/
def decodeMajor0DOp (op : BitVec 2) (w : BitVec 32) : Option Instr :=
  if op == 0x0#2 then some (.fma (w.extractLsb' 21 5) (w.extractLsb' 16 5) (w.extractLsb' 11 5) (w.extractLsb' 6 5) (w.extractLsb' 3 3) (w.extractLsb' 0 1))
  else if op == 0x1#2 then some (.fms (w.extractLsb' 21 5) (w.extractLsb' 16 5) (w.extractLsb' 11 5) (w.extractLsb' 6 5) (w.extractLsb' 3 3) (w.extractLsb' 0 1))
  else if op == 0x2#2 then some (.fnma (w.extractLsb' 21 5) (w.extractLsb' 16 5) (w.extractLsb' 11 5) (w.extractLsb' 6 5) (w.extractLsb' 3 3) (w.extractLsb' 0 1))
  else if op == 0x3#2 then some (.fnms (w.extractLsb' 21 5) (w.extractLsb' 16 5) (w.extractLsb' 11 5) (w.extractLsb' 6 5) (w.extractLsb' 3 3) (w.extractLsb' 0 1))
  else none

/-- Major 0x0d, by its operation bits. -/
def decodeMajor0D (w : BitVec 32) : Option Instr := decodeMajor0DOp (w.extractLsb' 1 2) w

/-- The rows of major 0x0e. -/
def decodeMajor0E (w : BitVec 32) : Option Instr :=
  some (.jal (w.extractLsb' 0 26))

/-- The rows of major 0x0f. -/
def decodeMajor0F (w : BitVec 32) : Option Instr :=
  some (.jalr (w.extractLsb' 21 5) (w.extractLsb' 16 5) (w.extractLsb' 0 16))

/-- The rows of major 0x10. -/
def decodeMajor10 (w : BitVec 32) : Option Instr :=
  some (.lb (w.extractLsb' 21 5) (w.extractLsb' 16 5) (w.extractLsb' 0 16))

/-- The rows of major 0x11. -/
def decodeMajor11 (w : BitVec 32) : Option Instr :=
  some (.lbu (w.extractLsb' 21 5) (w.extractLsb' 16 5) (w.extractLsb' 0 16))

/-- The rows of major 0x12. -/
def decodeMajor12 (w : BitVec 32) : Option Instr :=
  some (.lh (w.extractLsb' 21 5) (w.extractLsb' 16 5) (w.extractLsb' 0 16))

/-- The rows of major 0x13. -/
def decodeMajor13 (w : BitVec 32) : Option Instr :=
  some (.lhu (w.extractLsb' 21 5) (w.extractLsb' 16 5) (w.extractLsb' 0 16))

/-- The rows of major 0x14. -/
def decodeMajor14 (w : BitVec 32) : Option Instr :=
  some (.lw (w.extractLsb' 21 5) (w.extractLsb' 16 5) (w.extractLsb' 0 16))

/-- The rows of major 0x15. -/
def decodeMajor15 (w : BitVec 32) : Option Instr :=
  some (.lwu (w.extractLsb' 21 5) (w.extractLsb' 16 5) (w.extractLsb' 0 16))

/-- The rows of major 0x16. -/
def decodeMajor16 (w : BitVec 32) : Option Instr :=
  some (.ld (w.extractLsb' 21 5) (w.extractLsb' 16 5) (w.extractLsb' 0 16))

/-- The rows of major 0x17. -/
def decodeMajor17 (w : BitVec 32) : Option Instr :=
  some (.flw (w.extractLsb' 21 5) (w.extractLsb' 16 5) (w.extractLsb' 0 16))

/-- The rows of major 0x18. -/
def decodeMajor18 (w : BitVec 32) : Option Instr :=
  some (.fld (w.extractLsb' 21 5) (w.extractLsb' 16 5) (w.extractLsb' 0 16))

/-- The rows of major 0x19. -/
def decodeMajor19 (w : BitVec 32) : Option Instr :=
  some (.sb (w.extractLsb' 21 5) (w.extractLsb' 16 5) (w.extractLsb' 0 16))

/-- The rows of major 0x1a. -/
def decodeMajor1A (w : BitVec 32) : Option Instr :=
  some (.sh (w.extractLsb' 21 5) (w.extractLsb' 16 5) (w.extractLsb' 0 16))

/-- The rows of major 0x1b. -/
def decodeMajor1B (w : BitVec 32) : Option Instr :=
  some (.sw (w.extractLsb' 21 5) (w.extractLsb' 16 5) (w.extractLsb' 0 16))

/-- The rows of major 0x1c. -/
def decodeMajor1C (w : BitVec 32) : Option Instr :=
  some (.sd (w.extractLsb' 21 5) (w.extractLsb' 16 5) (w.extractLsb' 0 16))

/-- The rows of major 0x1d. -/
def decodeMajor1D (w : BitVec 32) : Option Instr :=
  some (.fsw (w.extractLsb' 21 5) (w.extractLsb' 16 5) (w.extractLsb' 0 16))

/-- The rows of major 0x1e. -/
def decodeMajor1E (w : BitVec 32) : Option Instr :=
  some (.fsd (w.extractLsb' 21 5) (w.extractLsb' 16 5) (w.extractLsb' 0 16))

/-- The rows of major 0x1f. -/
def decodeMajor1FOp (op : BitVec 4) (w : BitVec 32) : Option Instr :=
  if op == 0x0#4 then (if w.extractLsb' 4 22 == 0x0#22 then some .ecall else none)
  else if op == 0x1#4 then (if w.extractLsb' 4 22 == 0x0#22 then some .ebreak else none)
  else if op == 0x2#4 then (if w.extractLsb' 4 22 == 0x0#22 then some .eret else none)
  else if op == 0x3#4 then (if w.extractLsb' 16 5 == 0x0#5 then some (.movs (w.extractLsb' 21 5) (w.extractLsb' 4 12)) else none)
  else if op == 0x4#4 then (if w.extractLsb' 21 5 == 0x0#5 then some (.movsw (w.extractLsb' 16 5) (w.extractLsb' 4 12)) else none)
  else if op == 0x5#4 then (if w.extractLsb' 7 19 == 0x0#19 then some (.fence (w.extractLsb' 4 3)) else none)
  else if op == 0x6#4 then (if w.extractLsb' 4 22 == 0x0#22 then some .fencei else none)
  else if op == 0x7#4 then (if w.extractLsb' 6 5 == 0x0#5 && w.extractLsb' 21 5 == 0x0#5 then some (.tlbinv (w.extractLsb' 16 5) (w.extractLsb' 11 5) (w.extractLsb' 4 2)) else none)
  else if op == 0x8#4 then (if w.extractLsb' 4 12 == 0x0#12 && w.extractLsb' 21 5 == 0x0#5 then some (.dgate (w.extractLsb' 16 5)) else none)
  else if op == 0x9#4 then (if w.extractLsb' 4 22 == 0x0#22 then some .dret else none)
  else if op == 0xa#4 then (if w.extractLsb' 4 22 == 0x0#22 then some .wfi else none)
  else if op == 0xb#4 then (if w.extractLsb' 4 22 == 0x0#22 then some .chkpt else none)
  else none

/-- Major 0x1f, by its operation bits. -/
def decodeMajor1F (w : BitVec 32) : Option Instr := decodeMajor1FOp (w.extractLsb' 0 4) w

/-- The rows of major 0x20. -/
def decodeMajor20Op (op : BitVec 7) (w : BitVec 32) : Option Instr :=
  if op == 0x0#7 then some (.vaddV (w.extractLsb' 21 5) (w.extractLsb' 16 5) (w.extractLsb' 11 5) (w.extractLsb' 8 3) (w.extractLsb' 7 1))
  else if op == 0x1#7 then some (.vsubV (w.extractLsb' 21 5) (w.extractLsb' 16 5) (w.extractLsb' 11 5) (w.extractLsb' 8 3) (w.extractLsb' 7 1))
  else if op == 0x2#7 then some (.vrsubV (w.extractLsb' 21 5) (w.extractLsb' 16 5) (w.extractLsb' 11 5) (w.extractLsb' 8 3) (w.extractLsb' 7 1))
  else if op == 0x3#7 then some (.vmulV (w.extractLsb' 21 5) (w.extractLsb' 16 5) (w.extractLsb' 11 5) (w.extractLsb' 8 3) (w.extractLsb' 7 1))
  else if op == 0x4#7 then some (.vmulhV (w.extractLsb' 21 5) (w.extractLsb' 16 5) (w.extractLsb' 11 5) (w.extractLsb' 8 3) (w.extractLsb' 7 1))
  else if op == 0x5#7 then some (.vmulhuV (w.extractLsb' 21 5) (w.extractLsb' 16 5) (w.extractLsb' 11 5) (w.extractLsb' 8 3) (w.extractLsb' 7 1))
  else if op == 0x6#7 then some (.vdivV (w.extractLsb' 21 5) (w.extractLsb' 16 5) (w.extractLsb' 11 5) (w.extractLsb' 8 3) (w.extractLsb' 7 1))
  else if op == 0x7#7 then some (.vdivuV (w.extractLsb' 21 5) (w.extractLsb' 16 5) (w.extractLsb' 11 5) (w.extractLsb' 8 3) (w.extractLsb' 7 1))
  else if op == 0x8#7 then some (.vremV (w.extractLsb' 21 5) (w.extractLsb' 16 5) (w.extractLsb' 11 5) (w.extractLsb' 8 3) (w.extractLsb' 7 1))
  else if op == 0x9#7 then some (.vremuV (w.extractLsb' 21 5) (w.extractLsb' 16 5) (w.extractLsb' 11 5) (w.extractLsb' 8 3) (w.extractLsb' 7 1))
  else if op == 0xa#7 then some (.vminV (w.extractLsb' 21 5) (w.extractLsb' 16 5) (w.extractLsb' 11 5) (w.extractLsb' 8 3) (w.extractLsb' 7 1))
  else if op == 0xb#7 then some (.vmaxV (w.extractLsb' 21 5) (w.extractLsb' 16 5) (w.extractLsb' 11 5) (w.extractLsb' 8 3) (w.extractLsb' 7 1))
  else if op == 0xc#7 then some (.vminuV (w.extractLsb' 21 5) (w.extractLsb' 16 5) (w.extractLsb' 11 5) (w.extractLsb' 8 3) (w.extractLsb' 7 1))
  else if op == 0xd#7 then some (.vmaxuV (w.extractLsb' 21 5) (w.extractLsb' 16 5) (w.extractLsb' 11 5) (w.extractLsb' 8 3) (w.extractLsb' 7 1))
  else if op == 0xe#7 then some (.vandV (w.extractLsb' 21 5) (w.extractLsb' 16 5) (w.extractLsb' 11 5) (w.extractLsb' 8 3) (w.extractLsb' 7 1))
  else if op == 0xf#7 then some (.vorV (w.extractLsb' 21 5) (w.extractLsb' 16 5) (w.extractLsb' 11 5) (w.extractLsb' 8 3) (w.extractLsb' 7 1))
  else if op == 0x10#7 then some (.vxorV (w.extractLsb' 21 5) (w.extractLsb' 16 5) (w.extractLsb' 11 5) (w.extractLsb' 8 3) (w.extractLsb' 7 1))
  else if op == 0x11#7 then some (.vsllV (w.extractLsb' 21 5) (w.extractLsb' 16 5) (w.extractLsb' 11 5) (w.extractLsb' 8 3) (w.extractLsb' 7 1))
  else if op == 0x12#7 then some (.vsrlV (w.extractLsb' 21 5) (w.extractLsb' 16 5) (w.extractLsb' 11 5) (w.extractLsb' 8 3) (w.extractLsb' 7 1))
  else if op == 0x13#7 then some (.vsraV (w.extractLsb' 21 5) (w.extractLsb' 16 5) (w.extractLsb' 11 5) (w.extractLsb' 8 3) (w.extractLsb' 7 1))
  else if op == 0x14#7 then some (.vsaddV (w.extractLsb' 21 5) (w.extractLsb' 16 5) (w.extractLsb' 11 5) (w.extractLsb' 8 3) (w.extractLsb' 7 1))
  else if op == 0x15#7 then some (.vssubV (w.extractLsb' 21 5) (w.extractLsb' 16 5) (w.extractLsb' 11 5) (w.extractLsb' 8 3) (w.extractLsb' 7 1))
  else if op == 0x16#7 then some (.vwmulV (w.extractLsb' 21 5) (w.extractLsb' 16 5) (w.extractLsb' 11 5) (w.extractLsb' 8 3) (w.extractLsb' 7 1))
  else if op == 0x17#7 then some (.vwmaccV (w.extractLsb' 21 5) (w.extractLsb' 16 5) (w.extractLsb' 11 5) (w.extractLsb' 8 3) (w.extractLsb' 7 1))
  else if op == 0x18#7 then some (.vwmaccuV (w.extractLsb' 21 5) (w.extractLsb' 16 5) (w.extractLsb' 11 5) (w.extractLsb' 8 3) (w.extractLsb' 7 1))
  else if op == 0x19#7 then some (.vwmaccsuV (w.extractLsb' 21 5) (w.extractLsb' 16 5) (w.extractLsb' 11 5) (w.extractLsb' 8 3) (w.extractLsb' 7 1))
  else if op == 0x1a#7 then some (.vnclipV (w.extractLsb' 21 5) (w.extractLsb' 16 5) (w.extractLsb' 11 5) (w.extractLsb' 8 3) (w.extractLsb' 7 1))
  else if op == 0x1b#7 then some (.vfshlV (w.extractLsb' 21 5) (w.extractLsb' 16 5) (w.extractLsb' 11 5) (w.extractLsb' 8 3) (w.extractLsb' 7 1))
  else if op == 0x1c#7 then some (.vfshrV (w.extractLsb' 21 5) (w.extractLsb' 16 5) (w.extractLsb' 11 5) (w.extractLsb' 8 3) (w.extractLsb' 7 1))
  else if op == 0x1d#7 then some (.vmergeV (w.extractLsb' 21 5) (w.extractLsb' 16 5) (w.extractLsb' 11 5) (w.extractLsb' 8 3) (w.extractLsb' 7 1))
  else if op == 0x1e#7 then (if w.extractLsb' 16 5 == 0x0#5 then some (.vmovV (w.extractLsb' 21 5) (w.extractLsb' 11 5) (w.extractLsb' 8 3) (w.extractLsb' 7 1)) else none)
  else if op == 0x20#7 then some (.vseqV (w.extractLsb' 21 5) (w.extractLsb' 16 5) (w.extractLsb' 11 5) (w.extractLsb' 8 3) (w.extractLsb' 7 1))
  else if op == 0x21#7 then some (.vsneV (w.extractLsb' 21 5) (w.extractLsb' 16 5) (w.extractLsb' 11 5) (w.extractLsb' 8 3) (w.extractLsb' 7 1))
  else if op == 0x22#7 then some (.vsltV (w.extractLsb' 21 5) (w.extractLsb' 16 5) (w.extractLsb' 11 5) (w.extractLsb' 8 3) (w.extractLsb' 7 1))
  else if op == 0x23#7 then some (.vsltuV (w.extractLsb' 21 5) (w.extractLsb' 16 5) (w.extractLsb' 11 5) (w.extractLsb' 8 3) (w.extractLsb' 7 1))
  else if op == 0x24#7 then some (.vsleV (w.extractLsb' 21 5) (w.extractLsb' 16 5) (w.extractLsb' 11 5) (w.extractLsb' 8 3) (w.extractLsb' 7 1))
  else if op == 0x25#7 then some (.vsleuV (w.extractLsb' 21 5) (w.extractLsb' 16 5) (w.extractLsb' 11 5) (w.extractLsb' 8 3) (w.extractLsb' 7 1))
  else if op == 0x26#7 then some (.vsgtV (w.extractLsb' 21 5) (w.extractLsb' 16 5) (w.extractLsb' 11 5) (w.extractLsb' 8 3) (w.extractLsb' 7 1))
  else if op == 0x27#7 then some (.vsgtuV (w.extractLsb' 21 5) (w.extractLsb' 16 5) (w.extractLsb' 11 5) (w.extractLsb' 8 3) (w.extractLsb' 7 1))
  else if op == 0x28#7 then (if w.extractLsb' 7 1 == 0x0#1 && w.extractLsb' 11 5 == 0x0#5 then some (.vpopc (w.extractLsb' 21 5) (w.extractLsb' 16 5) (w.extractLsb' 8 3)) else none)
  else if op == 0x29#7 then (if w.extractLsb' 7 1 == 0x0#1 && w.extractLsb' 11 5 == 0x0#5 then some (.vclz (w.extractLsb' 21 5) (w.extractLsb' 16 5) (w.extractLsb' 8 3)) else none)
  else if op == 0x2a#7 then (if w.extractLsb' 7 9 == 0x0#9 then some (.vconf (w.extractLsb' 21 5) (w.extractLsb' 16 5)) else none)
  else if op == 0x30#7 then (if w.extractLsb' 7 1 == 0x0#1 && w.extractLsb' 11 5 == 0x0#5 then some (.vredsum (w.extractLsb' 21 5) (w.extractLsb' 16 5) (w.extractLsb' 8 3)) else none)
  else if op == 0x31#7 then (if w.extractLsb' 7 1 == 0x0#1 && w.extractLsb' 11 5 == 0x0#5 then some (.vredmax (w.extractLsb' 21 5) (w.extractLsb' 16 5) (w.extractLsb' 8 3)) else none)
  else if op == 0x32#7 then (if w.extractLsb' 7 1 == 0x0#1 && w.extractLsb' 11 5 == 0x0#5 then some (.vredmin (w.extractLsb' 21 5) (w.extractLsb' 16 5) (w.extractLsb' 8 3)) else none)
  else if op == 0x33#7 then (if w.extractLsb' 7 1 == 0x0#1 && w.extractLsb' 11 5 == 0x0#5 then some (.vredmaxu (w.extractLsb' 21 5) (w.extractLsb' 16 5) (w.extractLsb' 8 3)) else none)
  else if op == 0x34#7 then (if w.extractLsb' 7 1 == 0x0#1 && w.extractLsb' 11 5 == 0x0#5 then some (.vredminu (w.extractLsb' 21 5) (w.extractLsb' 16 5) (w.extractLsb' 8 3)) else none)
  else if op == 0x35#7 then (if w.extractLsb' 7 1 == 0x0#1 && w.extractLsb' 11 5 == 0x0#5 then some (.vredand (w.extractLsb' 21 5) (w.extractLsb' 16 5) (w.extractLsb' 8 3)) else none)
  else if op == 0x36#7 then (if w.extractLsb' 7 1 == 0x0#1 && w.extractLsb' 11 5 == 0x0#5 then some (.vredor (w.extractLsb' 21 5) (w.extractLsb' 16 5) (w.extractLsb' 8 3)) else none)
  else if op == 0x37#7 then (if w.extractLsb' 7 1 == 0x0#1 && w.extractLsb' 11 5 == 0x0#5 then some (.vredxor (w.extractLsb' 21 5) (w.extractLsb' 16 5) (w.extractLsb' 8 3)) else none)
  else none

/-- Major 0x20: VLUT3 by bits [6:5], the others by their operation bits. -/
def decodeMajor20 (w : BitVec 32) : Option Instr :=
  if w.extractLsb' 5 2 == 0x3#2 then some (.vlut3 (w.extractLsb' 21 5) (w.extractLsb' 16 5) (w.extractLsb' 11 5) (w.extractLsb' 8 3) (w.extractLsb' 7 1) (w.extractLsb' 0 5))
  else decodeMajor20Op (w.extractLsb' 0 7) w

/-- The rows of major 0x21. -/
def decodeMajor21Op (op : BitVec 7) (w : BitVec 32) : Option Instr :=
  if op == 0x0#7 then (if w.extractLsb' 7 1 == 0x0#1 then some (.vaddX (w.extractLsb' 21 5) (w.extractLsb' 16 5) (w.extractLsb' 11 5) (w.extractLsb' 8 3)) else none)
  else if op == 0x1#7 then (if w.extractLsb' 7 1 == 0x0#1 then some (.vsubX (w.extractLsb' 21 5) (w.extractLsb' 16 5) (w.extractLsb' 11 5) (w.extractLsb' 8 3)) else none)
  else if op == 0x2#7 then (if w.extractLsb' 7 1 == 0x0#1 then some (.vrsubX (w.extractLsb' 21 5) (w.extractLsb' 16 5) (w.extractLsb' 11 5) (w.extractLsb' 8 3)) else none)
  else if op == 0x3#7 then (if w.extractLsb' 7 1 == 0x0#1 then some (.vmulX (w.extractLsb' 21 5) (w.extractLsb' 16 5) (w.extractLsb' 11 5) (w.extractLsb' 8 3)) else none)
  else if op == 0x4#7 then (if w.extractLsb' 7 1 == 0x0#1 then some (.vmulhX (w.extractLsb' 21 5) (w.extractLsb' 16 5) (w.extractLsb' 11 5) (w.extractLsb' 8 3)) else none)
  else if op == 0x5#7 then (if w.extractLsb' 7 1 == 0x0#1 then some (.vmulhuX (w.extractLsb' 21 5) (w.extractLsb' 16 5) (w.extractLsb' 11 5) (w.extractLsb' 8 3)) else none)
  else if op == 0x6#7 then (if w.extractLsb' 7 1 == 0x0#1 then some (.vdivX (w.extractLsb' 21 5) (w.extractLsb' 16 5) (w.extractLsb' 11 5) (w.extractLsb' 8 3)) else none)
  else if op == 0x7#7 then (if w.extractLsb' 7 1 == 0x0#1 then some (.vdivuX (w.extractLsb' 21 5) (w.extractLsb' 16 5) (w.extractLsb' 11 5) (w.extractLsb' 8 3)) else none)
  else if op == 0x8#7 then (if w.extractLsb' 7 1 == 0x0#1 then some (.vremX (w.extractLsb' 21 5) (w.extractLsb' 16 5) (w.extractLsb' 11 5) (w.extractLsb' 8 3)) else none)
  else if op == 0x9#7 then (if w.extractLsb' 7 1 == 0x0#1 then some (.vremuX (w.extractLsb' 21 5) (w.extractLsb' 16 5) (w.extractLsb' 11 5) (w.extractLsb' 8 3)) else none)
  else if op == 0xa#7 then (if w.extractLsb' 7 1 == 0x0#1 then some (.vminX (w.extractLsb' 21 5) (w.extractLsb' 16 5) (w.extractLsb' 11 5) (w.extractLsb' 8 3)) else none)
  else if op == 0xb#7 then (if w.extractLsb' 7 1 == 0x0#1 then some (.vmaxX (w.extractLsb' 21 5) (w.extractLsb' 16 5) (w.extractLsb' 11 5) (w.extractLsb' 8 3)) else none)
  else if op == 0xc#7 then (if w.extractLsb' 7 1 == 0x0#1 then some (.vminuX (w.extractLsb' 21 5) (w.extractLsb' 16 5) (w.extractLsb' 11 5) (w.extractLsb' 8 3)) else none)
  else if op == 0xd#7 then (if w.extractLsb' 7 1 == 0x0#1 then some (.vmaxuX (w.extractLsb' 21 5) (w.extractLsb' 16 5) (w.extractLsb' 11 5) (w.extractLsb' 8 3)) else none)
  else if op == 0xe#7 then (if w.extractLsb' 7 1 == 0x0#1 then some (.vandX (w.extractLsb' 21 5) (w.extractLsb' 16 5) (w.extractLsb' 11 5) (w.extractLsb' 8 3)) else none)
  else if op == 0xf#7 then (if w.extractLsb' 7 1 == 0x0#1 then some (.vorX (w.extractLsb' 21 5) (w.extractLsb' 16 5) (w.extractLsb' 11 5) (w.extractLsb' 8 3)) else none)
  else if op == 0x10#7 then (if w.extractLsb' 7 1 == 0x0#1 then some (.vxorX (w.extractLsb' 21 5) (w.extractLsb' 16 5) (w.extractLsb' 11 5) (w.extractLsb' 8 3)) else none)
  else if op == 0x11#7 then (if w.extractLsb' 7 1 == 0x0#1 then some (.vsllX (w.extractLsb' 21 5) (w.extractLsb' 16 5) (w.extractLsb' 11 5) (w.extractLsb' 8 3)) else none)
  else if op == 0x12#7 then (if w.extractLsb' 7 1 == 0x0#1 then some (.vsrlX (w.extractLsb' 21 5) (w.extractLsb' 16 5) (w.extractLsb' 11 5) (w.extractLsb' 8 3)) else none)
  else if op == 0x13#7 then (if w.extractLsb' 7 1 == 0x0#1 then some (.vsraX (w.extractLsb' 21 5) (w.extractLsb' 16 5) (w.extractLsb' 11 5) (w.extractLsb' 8 3)) else none)
  else if op == 0x14#7 then (if w.extractLsb' 7 1 == 0x0#1 then some (.vsaddX (w.extractLsb' 21 5) (w.extractLsb' 16 5) (w.extractLsb' 11 5) (w.extractLsb' 8 3)) else none)
  else if op == 0x15#7 then (if w.extractLsb' 7 1 == 0x0#1 then some (.vssubX (w.extractLsb' 21 5) (w.extractLsb' 16 5) (w.extractLsb' 11 5) (w.extractLsb' 8 3)) else none)
  else if op == 0x16#7 then (if w.extractLsb' 7 1 == 0x0#1 then some (.vwmulX (w.extractLsb' 21 5) (w.extractLsb' 16 5) (w.extractLsb' 11 5) (w.extractLsb' 8 3)) else none)
  else if op == 0x17#7 then (if w.extractLsb' 7 1 == 0x0#1 then some (.vwmaccX (w.extractLsb' 21 5) (w.extractLsb' 16 5) (w.extractLsb' 11 5) (w.extractLsb' 8 3)) else none)
  else if op == 0x18#7 then (if w.extractLsb' 7 1 == 0x0#1 then some (.vwmaccuX (w.extractLsb' 21 5) (w.extractLsb' 16 5) (w.extractLsb' 11 5) (w.extractLsb' 8 3)) else none)
  else if op == 0x19#7 then (if w.extractLsb' 7 1 == 0x0#1 then some (.vwmaccsuX (w.extractLsb' 21 5) (w.extractLsb' 16 5) (w.extractLsb' 11 5) (w.extractLsb' 8 3)) else none)
  else if op == 0x1a#7 then (if w.extractLsb' 7 1 == 0x0#1 then some (.vnclipX (w.extractLsb' 21 5) (w.extractLsb' 16 5) (w.extractLsb' 11 5) (w.extractLsb' 8 3)) else none)
  else if op == 0x1b#7 then (if w.extractLsb' 7 1 == 0x0#1 then some (.vfshlX (w.extractLsb' 21 5) (w.extractLsb' 16 5) (w.extractLsb' 11 5) (w.extractLsb' 8 3)) else none)
  else if op == 0x1c#7 then (if w.extractLsb' 7 1 == 0x0#1 then some (.vfshrX (w.extractLsb' 21 5) (w.extractLsb' 16 5) (w.extractLsb' 11 5) (w.extractLsb' 8 3)) else none)
  else if op == 0x1d#7 then (if w.extractLsb' 7 1 == 0x0#1 then some (.vmergeX (w.extractLsb' 21 5) (w.extractLsb' 16 5) (w.extractLsb' 11 5) (w.extractLsb' 8 3)) else none)
  else if op == 0x1e#7 then (if w.extractLsb' 7 1 == 0x0#1 && w.extractLsb' 16 5 == 0x0#5 then some (.vmovX (w.extractLsb' 21 5) (w.extractLsb' 11 5) (w.extractLsb' 8 3)) else none)
  else if op == 0x20#7 then (if w.extractLsb' 7 1 == 0x0#1 then some (.vseqX (w.extractLsb' 21 5) (w.extractLsb' 16 5) (w.extractLsb' 11 5) (w.extractLsb' 8 3)) else none)
  else if op == 0x21#7 then (if w.extractLsb' 7 1 == 0x0#1 then some (.vsneX (w.extractLsb' 21 5) (w.extractLsb' 16 5) (w.extractLsb' 11 5) (w.extractLsb' 8 3)) else none)
  else if op == 0x22#7 then (if w.extractLsb' 7 1 == 0x0#1 then some (.vsltX (w.extractLsb' 21 5) (w.extractLsb' 16 5) (w.extractLsb' 11 5) (w.extractLsb' 8 3)) else none)
  else if op == 0x23#7 then (if w.extractLsb' 7 1 == 0x0#1 then some (.vsltuX (w.extractLsb' 21 5) (w.extractLsb' 16 5) (w.extractLsb' 11 5) (w.extractLsb' 8 3)) else none)
  else if op == 0x24#7 then (if w.extractLsb' 7 1 == 0x0#1 then some (.vsleX (w.extractLsb' 21 5) (w.extractLsb' 16 5) (w.extractLsb' 11 5) (w.extractLsb' 8 3)) else none)
  else if op == 0x25#7 then (if w.extractLsb' 7 1 == 0x0#1 then some (.vsleuX (w.extractLsb' 21 5) (w.extractLsb' 16 5) (w.extractLsb' 11 5) (w.extractLsb' 8 3)) else none)
  else if op == 0x26#7 then (if w.extractLsb' 7 1 == 0x0#1 then some (.vsgtX (w.extractLsb' 21 5) (w.extractLsb' 16 5) (w.extractLsb' 11 5) (w.extractLsb' 8 3)) else none)
  else if op == 0x27#7 then (if w.extractLsb' 7 1 == 0x0#1 then some (.vsgtuX (w.extractLsb' 21 5) (w.extractLsb' 16 5) (w.extractLsb' 11 5) (w.extractLsb' 8 3)) else none)
  else none

/-- Major 0x21, by its operation bits. -/
def decodeMajor21 (w : BitVec 32) : Option Instr := decodeMajor21Op (w.extractLsb' 0 7) w

/-- The rows of major 0x22. -/
def decodeMajor22Op (op : BitVec 7) (w : BitVec 32) : Option Instr :=
  if op == 0x0#7 then (if w.extractLsb' 7 1 == 0x0#1 then some (.vaddI (w.extractLsb' 21 5) (w.extractLsb' 16 5) (w.extractLsb' 11 5) (w.extractLsb' 8 3)) else none)
  else if op == 0x1#7 then (if w.extractLsb' 7 1 == 0x0#1 then some (.vsubI (w.extractLsb' 21 5) (w.extractLsb' 16 5) (w.extractLsb' 11 5) (w.extractLsb' 8 3)) else none)
  else if op == 0x2#7 then (if w.extractLsb' 7 1 == 0x0#1 then some (.vrsubI (w.extractLsb' 21 5) (w.extractLsb' 16 5) (w.extractLsb' 11 5) (w.extractLsb' 8 3)) else none)
  else if op == 0xa#7 then (if w.extractLsb' 7 1 == 0x0#1 then some (.vminI (w.extractLsb' 21 5) (w.extractLsb' 16 5) (w.extractLsb' 11 5) (w.extractLsb' 8 3)) else none)
  else if op == 0xb#7 then (if w.extractLsb' 7 1 == 0x0#1 then some (.vmaxI (w.extractLsb' 21 5) (w.extractLsb' 16 5) (w.extractLsb' 11 5) (w.extractLsb' 8 3)) else none)
  else if op == 0xc#7 then (if w.extractLsb' 7 1 == 0x0#1 then some (.vminuI (w.extractLsb' 21 5) (w.extractLsb' 16 5) (w.extractLsb' 11 5) (w.extractLsb' 8 3)) else none)
  else if op == 0xd#7 then (if w.extractLsb' 7 1 == 0x0#1 then some (.vmaxuI (w.extractLsb' 21 5) (w.extractLsb' 16 5) (w.extractLsb' 11 5) (w.extractLsb' 8 3)) else none)
  else if op == 0xe#7 then (if w.extractLsb' 7 1 == 0x0#1 then some (.vandI (w.extractLsb' 21 5) (w.extractLsb' 16 5) (w.extractLsb' 11 5) (w.extractLsb' 8 3)) else none)
  else if op == 0xf#7 then (if w.extractLsb' 7 1 == 0x0#1 then some (.vorI (w.extractLsb' 21 5) (w.extractLsb' 16 5) (w.extractLsb' 11 5) (w.extractLsb' 8 3)) else none)
  else if op == 0x10#7 then (if w.extractLsb' 7 1 == 0x0#1 then some (.vxorI (w.extractLsb' 21 5) (w.extractLsb' 16 5) (w.extractLsb' 11 5) (w.extractLsb' 8 3)) else none)
  else if op == 0x11#7 then (if w.extractLsb' 7 1 == 0x0#1 then some (.vsllI (w.extractLsb' 21 5) (w.extractLsb' 16 5) (w.extractLsb' 11 5) (w.extractLsb' 8 3)) else none)
  else if op == 0x12#7 then (if w.extractLsb' 7 1 == 0x0#1 then some (.vsrlI (w.extractLsb' 21 5) (w.extractLsb' 16 5) (w.extractLsb' 11 5) (w.extractLsb' 8 3)) else none)
  else if op == 0x13#7 then (if w.extractLsb' 7 1 == 0x0#1 then some (.vsraI (w.extractLsb' 21 5) (w.extractLsb' 16 5) (w.extractLsb' 11 5) (w.extractLsb' 8 3)) else none)
  else if op == 0x14#7 then (if w.extractLsb' 7 1 == 0x0#1 then some (.vsaddI (w.extractLsb' 21 5) (w.extractLsb' 16 5) (w.extractLsb' 11 5) (w.extractLsb' 8 3)) else none)
  else if op == 0x15#7 then (if w.extractLsb' 7 1 == 0x0#1 then some (.vssubI (w.extractLsb' 21 5) (w.extractLsb' 16 5) (w.extractLsb' 11 5) (w.extractLsb' 8 3)) else none)
  else if op == 0x1a#7 then (if w.extractLsb' 7 1 == 0x0#1 then some (.vnclipI (w.extractLsb' 21 5) (w.extractLsb' 16 5) (w.extractLsb' 11 5) (w.extractLsb' 8 3)) else none)
  else if op == 0x1b#7 then (if w.extractLsb' 7 1 == 0x0#1 then some (.vfshlI (w.extractLsb' 21 5) (w.extractLsb' 16 5) (w.extractLsb' 11 5) (w.extractLsb' 8 3)) else none)
  else if op == 0x1c#7 then (if w.extractLsb' 7 1 == 0x0#1 then some (.vfshrI (w.extractLsb' 21 5) (w.extractLsb' 16 5) (w.extractLsb' 11 5) (w.extractLsb' 8 3)) else none)
  else if op == 0x1d#7 then (if w.extractLsb' 7 1 == 0x0#1 then some (.vmergeI (w.extractLsb' 21 5) (w.extractLsb' 16 5) (w.extractLsb' 11 5) (w.extractLsb' 8 3)) else none)
  else if op == 0x1e#7 then (if w.extractLsb' 7 1 == 0x0#1 && w.extractLsb' 16 5 == 0x0#5 then some (.vmovI (w.extractLsb' 21 5) (w.extractLsb' 11 5) (w.extractLsb' 8 3)) else none)
  else if op == 0x20#7 then (if w.extractLsb' 7 1 == 0x0#1 then some (.vseqI (w.extractLsb' 21 5) (w.extractLsb' 16 5) (w.extractLsb' 11 5) (w.extractLsb' 8 3)) else none)
  else if op == 0x21#7 then (if w.extractLsb' 7 1 == 0x0#1 then some (.vsneI (w.extractLsb' 21 5) (w.extractLsb' 16 5) (w.extractLsb' 11 5) (w.extractLsb' 8 3)) else none)
  else if op == 0x22#7 then (if w.extractLsb' 7 1 == 0x0#1 then some (.vsltI (w.extractLsb' 21 5) (w.extractLsb' 16 5) (w.extractLsb' 11 5) (w.extractLsb' 8 3)) else none)
  else if op == 0x23#7 then (if w.extractLsb' 7 1 == 0x0#1 then some (.vsltuI (w.extractLsb' 21 5) (w.extractLsb' 16 5) (w.extractLsb' 11 5) (w.extractLsb' 8 3)) else none)
  else if op == 0x24#7 then (if w.extractLsb' 7 1 == 0x0#1 then some (.vsleI (w.extractLsb' 21 5) (w.extractLsb' 16 5) (w.extractLsb' 11 5) (w.extractLsb' 8 3)) else none)
  else if op == 0x25#7 then (if w.extractLsb' 7 1 == 0x0#1 then some (.vsleuI (w.extractLsb' 21 5) (w.extractLsb' 16 5) (w.extractLsb' 11 5) (w.extractLsb' 8 3)) else none)
  else if op == 0x26#7 then (if w.extractLsb' 7 1 == 0x0#1 then some (.vsgtI (w.extractLsb' 21 5) (w.extractLsb' 16 5) (w.extractLsb' 11 5) (w.extractLsb' 8 3)) else none)
  else if op == 0x27#7 then (if w.extractLsb' 7 1 == 0x0#1 then some (.vsgtuI (w.extractLsb' 21 5) (w.extractLsb' 16 5) (w.extractLsb' 11 5) (w.extractLsb' 8 3)) else none)
  else none

/-- Major 0x22, by its operation bits. -/
def decodeMajor22 (w : BitVec 32) : Option Instr := decodeMajor22Op (w.extractLsb' 0 7) w

/-- The rows of major 0x23. -/
def decodeMajor23Op (op : BitVec 7) (w : BitVec 32) : Option Instr :=
  if op == 0x0#7 then some (.vfaddV (w.extractLsb' 21 5) (w.extractLsb' 16 5) (w.extractLsb' 11 5) (w.extractLsb' 8 3) (w.extractLsb' 7 1))
  else if op == 0x1#7 then some (.vfsubV (w.extractLsb' 21 5) (w.extractLsb' 16 5) (w.extractLsb' 11 5) (w.extractLsb' 8 3) (w.extractLsb' 7 1))
  else if op == 0x2#7 then some (.vfmulV (w.extractLsb' 21 5) (w.extractLsb' 16 5) (w.extractLsb' 11 5) (w.extractLsb' 8 3) (w.extractLsb' 7 1))
  else if op == 0x3#7 then some (.vfdivV (w.extractLsb' 21 5) (w.extractLsb' 16 5) (w.extractLsb' 11 5) (w.extractLsb' 8 3) (w.extractLsb' 7 1))
  else if op == 0x4#7 then (if w.extractLsb' 7 1 == 0x0#1 && w.extractLsb' 11 5 == 0x0#5 then some (.vfsqrt (w.extractLsb' 21 5) (w.extractLsb' 16 5) (w.extractLsb' 8 3)) else none)
  else if op == 0x5#7 then some (.vfmaV (w.extractLsb' 21 5) (w.extractLsb' 16 5) (w.extractLsb' 11 5) (w.extractLsb' 8 3) (w.extractLsb' 7 1))
  else if op == 0x6#7 then some (.vfnmaV (w.extractLsb' 21 5) (w.extractLsb' 16 5) (w.extractLsb' 11 5) (w.extractLsb' 8 3) (w.extractLsb' 7 1))
  else if op == 0x7#7 then some (.vfminV (w.extractLsb' 21 5) (w.extractLsb' 16 5) (w.extractLsb' 11 5) (w.extractLsb' 8 3) (w.extractLsb' 7 1))
  else if op == 0x8#7 then some (.vfmaxV (w.extractLsb' 21 5) (w.extractLsb' 16 5) (w.extractLsb' 11 5) (w.extractLsb' 8 3) (w.extractLsb' 7 1))
  else if op == 0x10#7 then some (.vfeqV (w.extractLsb' 21 5) (w.extractLsb' 16 5) (w.extractLsb' 11 5) (w.extractLsb' 8 3) (w.extractLsb' 7 1))
  else if op == 0x11#7 then some (.vfltV (w.extractLsb' 21 5) (w.extractLsb' 16 5) (w.extractLsb' 11 5) (w.extractLsb' 8 3) (w.extractLsb' 7 1))
  else if op == 0x12#7 then some (.vfleV (w.extractLsb' 21 5) (w.extractLsb' 16 5) (w.extractLsb' 11 5) (w.extractLsb' 8 3) (w.extractLsb' 7 1))
  else if op == 0x13#7 then some (.vfgtV (w.extractLsb' 21 5) (w.extractLsb' 16 5) (w.extractLsb' 11 5) (w.extractLsb' 8 3) (w.extractLsb' 7 1))
  else if op == 0x14#7 then some (.vfgeV (w.extractLsb' 21 5) (w.extractLsb' 16 5) (w.extractLsb' 11 5) (w.extractLsb' 8 3) (w.extractLsb' 7 1))
  else if op == 0x18#7 then (if w.extractLsb' 7 1 == 0x0#1 then some (.vfcvt (w.extractLsb' 21 5) (w.extractLsb' 16 5) (w.extractLsb' 11 5) (w.extractLsb' 8 3)) else none)
  else if op == 0x19#7 then (if w.extractLsb' 7 1 == 0x0#1 then some (.vfpack (w.extractLsb' 21 5) (w.extractLsb' 16 5) (w.extractLsb' 11 5) (w.extractLsb' 8 3)) else none)
  else if op == 0x1a#7 then (if w.extractLsb' 7 1 == 0x0#1 then some (.vfunpack (w.extractLsb' 21 5) (w.extractLsb' 16 5) (w.extractLsb' 11 5) (w.extractLsb' 8 3)) else none)
  else if op == 0x1b#7 then (if w.extractLsb' 7 1 == 0x0#1 then some (.vfcvti (w.extractLsb' 21 5) (w.extractLsb' 16 5) (w.extractLsb' 11 5) (w.extractLsb' 8 3)) else none)
  else if op == 0x1c#7 then (if w.extractLsb' 7 1 == 0x0#1 then some (.vicvtf (w.extractLsb' 21 5) (w.extractLsb' 16 5) (w.extractLsb' 11 5) (w.extractLsb' 8 3)) else none)
  else if op == 0x20#7 then (if w.extractLsb' 7 1 == 0x0#1 && w.extractLsb' 11 5 == 0x0#5 then some (.vfredsum (w.extractLsb' 21 5) (w.extractLsb' 16 5) (w.extractLsb' 8 3)) else none)
  else if op == 0x21#7 then (if w.extractLsb' 7 1 == 0x0#1 && w.extractLsb' 11 5 == 0x0#5 then some (.vfredmax (w.extractLsb' 21 5) (w.extractLsb' 16 5) (w.extractLsb' 8 3)) else none)
  else if op == 0x28#7 then (if w.extractLsb' 7 1 == 0x0#1 && w.extractLsb' 11 5 == 0x0#5 then some (.vfexp2 (w.extractLsb' 21 5) (w.extractLsb' 16 5) (w.extractLsb' 8 3)) else none)
  else if op == 0x29#7 then (if w.extractLsb' 7 1 == 0x0#1 && w.extractLsb' 11 5 == 0x0#5 then some (.vflog2 (w.extractLsb' 21 5) (w.extractLsb' 16 5) (w.extractLsb' 8 3)) else none)
  else if op == 0x2a#7 then (if w.extractLsb' 7 1 == 0x0#1 && w.extractLsb' 11 5 == 0x0#5 then some (.vfrcp (w.extractLsb' 21 5) (w.extractLsb' 16 5) (w.extractLsb' 8 3)) else none)
  else if op == 0x2b#7 then (if w.extractLsb' 7 1 == 0x0#1 && w.extractLsb' 11 5 == 0x0#5 then some (.vfrsq (w.extractLsb' 21 5) (w.extractLsb' 16 5) (w.extractLsb' 8 3)) else none)
  else none

/-- Major 0x23, by its operation bits. -/
def decodeMajor23 (w : BitVec 32) : Option Instr := decodeMajor23Op (w.extractLsb' 0 7) w

/-- The rows of major 0x24. -/
def decodeMajor24Op (op : BitVec 7) (w : BitVec 32) : Option Instr :=
  if op == 0x0#7 then (if w.extractLsb' 7 1 == 0x0#1 then some (.vfaddF (w.extractLsb' 21 5) (w.extractLsb' 16 5) (w.extractLsb' 11 5) (w.extractLsb' 8 3)) else none)
  else if op == 0x1#7 then (if w.extractLsb' 7 1 == 0x0#1 then some (.vfsubF (w.extractLsb' 21 5) (w.extractLsb' 16 5) (w.extractLsb' 11 5) (w.extractLsb' 8 3)) else none)
  else if op == 0x2#7 then (if w.extractLsb' 7 1 == 0x0#1 then some (.vfmulF (w.extractLsb' 21 5) (w.extractLsb' 16 5) (w.extractLsb' 11 5) (w.extractLsb' 8 3)) else none)
  else if op == 0x3#7 then (if w.extractLsb' 7 1 == 0x0#1 then some (.vfdivF (w.extractLsb' 21 5) (w.extractLsb' 16 5) (w.extractLsb' 11 5) (w.extractLsb' 8 3)) else none)
  else if op == 0x5#7 then (if w.extractLsb' 7 1 == 0x0#1 then some (.vfmaF (w.extractLsb' 21 5) (w.extractLsb' 16 5) (w.extractLsb' 11 5) (w.extractLsb' 8 3)) else none)
  else if op == 0x6#7 then (if w.extractLsb' 7 1 == 0x0#1 then some (.vfnmaF (w.extractLsb' 21 5) (w.extractLsb' 16 5) (w.extractLsb' 11 5) (w.extractLsb' 8 3)) else none)
  else if op == 0x7#7 then (if w.extractLsb' 7 1 == 0x0#1 then some (.vfminF (w.extractLsb' 21 5) (w.extractLsb' 16 5) (w.extractLsb' 11 5) (w.extractLsb' 8 3)) else none)
  else if op == 0x8#7 then (if w.extractLsb' 7 1 == 0x0#1 then some (.vfmaxF (w.extractLsb' 21 5) (w.extractLsb' 16 5) (w.extractLsb' 11 5) (w.extractLsb' 8 3)) else none)
  else if op == 0x10#7 then (if w.extractLsb' 7 1 == 0x0#1 then some (.vfeqF (w.extractLsb' 21 5) (w.extractLsb' 16 5) (w.extractLsb' 11 5) (w.extractLsb' 8 3)) else none)
  else if op == 0x11#7 then (if w.extractLsb' 7 1 == 0x0#1 then some (.vfltF (w.extractLsb' 21 5) (w.extractLsb' 16 5) (w.extractLsb' 11 5) (w.extractLsb' 8 3)) else none)
  else if op == 0x12#7 then (if w.extractLsb' 7 1 == 0x0#1 then some (.vfleF (w.extractLsb' 21 5) (w.extractLsb' 16 5) (w.extractLsb' 11 5) (w.extractLsb' 8 3)) else none)
  else if op == 0x13#7 then (if w.extractLsb' 7 1 == 0x0#1 then some (.vfgtF (w.extractLsb' 21 5) (w.extractLsb' 16 5) (w.extractLsb' 11 5) (w.extractLsb' 8 3)) else none)
  else if op == 0x14#7 then (if w.extractLsb' 7 1 == 0x0#1 then some (.vfgeF (w.extractLsb' 21 5) (w.extractLsb' 16 5) (w.extractLsb' 11 5) (w.extractLsb' 8 3)) else none)
  else none

/-- Major 0x24, by its operation bits. -/
def decodeMajor24 (w : BitVec 32) : Option Instr := decodeMajor24Op (w.extractLsb' 0 7) w

/-- The rows of major 0x25. -/
def decodeMajor25Op (op : BitVec 7) (w : BitVec 32) : Option Instr :=
  if op == 0x0#7 then (if w.extractLsb' 7 4 == 0x0#4 then some (.mand (w.extractLsb' 21 5) (w.extractLsb' 16 5) (w.extractLsb' 11 5)) else none)
  else if op == 0x1#7 then (if w.extractLsb' 7 4 == 0x0#4 then some (.mor (w.extractLsb' 21 5) (w.extractLsb' 16 5) (w.extractLsb' 11 5)) else none)
  else if op == 0x2#7 then (if w.extractLsb' 7 4 == 0x0#4 then some (.mxor (w.extractLsb' 21 5) (w.extractLsb' 16 5) (w.extractLsb' 11 5)) else none)
  else if op == 0x3#7 then (if w.extractLsb' 7 9 == 0x0#9 then some (.mnot (w.extractLsb' 21 5) (w.extractLsb' 16 5)) else none)
  else if op == 0x4#7 then (if w.extractLsb' 7 9 == 0x0#9 then some (.mpopc (w.extractLsb' 21 5) (w.extractLsb' 16 5)) else none)
  else if op == 0x5#7 then (if w.extractLsb' 7 9 == 0x0#9 then some (.mfirst (w.extractLsb' 21 5) (w.extractLsb' 16 5)) else none)
  else if op == 0x6#7 then (if w.extractLsb' 7 9 == 0x0#9 then some (.iota (w.extractLsb' 21 5) (w.extractLsb' 16 5)) else none)
  else if op == 0x7#7 then (if w.extractLsb' 7 14 == 0x0#14 then some (.vid (w.extractLsb' 21 5)) else none)
  else if op == 0x8#7 then (if w.extractLsb' 7 1 == 0x0#1 then some (.slideupX (w.extractLsb' 21 5) (w.extractLsb' 16 5) (w.extractLsb' 11 5) (w.extractLsb' 8 3)) else none)
  else if op == 0x9#7 then (if w.extractLsb' 7 1 == 0x0#1 then some (.slidednX (w.extractLsb' 21 5) (w.extractLsb' 16 5) (w.extractLsb' 11 5) (w.extractLsb' 8 3)) else none)
  else if op == 0xa#7 then (if w.extractLsb' 7 1 == 0x0#1 then some (.slideupI (w.extractLsb' 21 5) (w.extractLsb' 16 5) (w.extractLsb' 11 5) (w.extractLsb' 8 3)) else none)
  else if op == 0xb#7 then (if w.extractLsb' 7 1 == 0x0#1 then some (.slidednI (w.extractLsb' 21 5) (w.extractLsb' 16 5) (w.extractLsb' 11 5) (w.extractLsb' 8 3)) else none)
  else if op == 0xc#7 then some (.vgather (w.extractLsb' 21 5) (w.extractLsb' 16 5) (w.extractLsb' 11 5) (w.extractLsb' 8 3) (w.extractLsb' 7 1))
  else if op == 0xd#7 then (if w.extractLsb' 7 1 == 0x0#1 && w.extractLsb' 11 5 == 0x0#5 then some (.compress (w.extractLsb' 21 5) (w.extractLsb' 16 5) (w.extractLsb' 8 3)) else none)
  else if op == 0xe#7 then (if w.extractLsb' 7 1 == 0x0#1 && w.extractLsb' 11 5 == 0x0#5 then some (.expand (w.extractLsb' 21 5) (w.extractLsb' 16 5) (w.extractLsb' 8 3)) else none)
  else if op == 0xf#7 then (if w.extractLsb' 7 1 == 0x0#1 then some (.rowbcX (w.extractLsb' 21 5) (w.extractLsb' 16 5) (w.extractLsb' 11 5) (w.extractLsb' 8 3)) else none)
  else if op == 0x10#7 then (if w.extractLsb' 7 1 == 0x0#1 then some (.rowrotX (w.extractLsb' 21 5) (w.extractLsb' 16 5) (w.extractLsb' 11 5) (w.extractLsb' 8 3)) else none)
  else if op == 0x11#7 then (if w.extractLsb' 7 1 == 0x0#1 && w.extractLsb' 14 2 == 0x0#2 then some (.rowbcI (w.extractLsb' 21 5) (w.extractLsb' 16 5) (w.extractLsb' 11 3) (w.extractLsb' 8 3)) else none)
  else if op == 0x12#7 then (if w.extractLsb' 7 1 == 0x0#1 && w.extractLsb' 14 2 == 0x0#2 then some (.rowrotI (w.extractLsb' 21 5) (w.extractLsb' 16 5) (w.extractLsb' 11 3) (w.extractLsb' 8 3)) else none)
  else if op == 0x13#7 then (if w.extractLsb' 7 4 == 0x0#4 then some (.vmvx (w.extractLsb' 21 5) (w.extractLsb' 16 5) (w.extractLsb' 11 5)) else none)
  else if op == 0x14#7 then (if w.extractLsb' 7 4 == 0x0#4 then some (.vmvs (w.extractLsb' 21 5) (w.extractLsb' 16 5) (w.extractLsb' 11 5)) else none)
  else none

/-- Major 0x25, by its operation bits. -/
def decodeMajor25 (w : BitVec 32) : Option Instr := decodeMajor25Op (w.extractLsb' 0 7) w

/-- The rows of major 0x26. -/
def decodeMajor26Op (op : BitVec 4) (w : BitVec 32) : Option Instr :=
  if op == 0x0#4 then (if w.extractLsb' 4 4 == 0x0#4 && w.extractLsb' 11 5 == 0x0#5 then some (.vld (w.extractLsb' 21 5) (w.extractLsb' 16 5) (w.extractLsb' 8 3)) else none)
  else if op == 0x1#4 then (if w.extractLsb' 4 4 == 0x0#4 then some (.vlds (w.extractLsb' 21 5) (w.extractLsb' 16 5) (w.extractLsb' 11 5) (w.extractLsb' 8 3)) else none)
  else if op == 0x2#4 then (if w.extractLsb' 4 4 == 0x0#4 then some (.vld2 (w.extractLsb' 21 5) (w.extractLsb' 16 5) (w.extractLsb' 11 5) (w.extractLsb' 8 3)) else none)
  else if op == 0x3#4 then (if w.extractLsb' 4 4 == 0x0#4 then some (.vldx (w.extractLsb' 21 5) (w.extractLsb' 16 5) (w.extractLsb' 11 5) (w.extractLsb' 8 3)) else none)
  else if op == 0x4#4 then (if w.extractLsb' 4 4 == 0x0#4 then some (.vldl (w.extractLsb' 21 5) (w.extractLsb' 16 5) (w.extractLsb' 11 5) (w.extractLsb' 8 3)) else none)
  else if op == 0x5#4 then (if w.extractLsb' 7 1 == 0x0#1 && w.extractLsb' 16 5 == 0x0#5 then some (.vldr (w.extractLsb' 21 5) (w.extractLsb' 11 5) (w.extractLsb' 8 3) (w.extractLsb' 4 3)) else none)
  else if op == 0x8#4 then (if w.extractLsb' 4 12 == 0x0#12 && w.extractLsb' 21 5 == 0x0#5 then some (.vrest (w.extractLsb' 16 5)) else none)
  else none

/-- Major 0x26, by its operation bits. -/
def decodeMajor26 (w : BitVec 32) : Option Instr := decodeMajor26Op (w.extractLsb' 0 4) w

/-- The rows of major 0x27. -/
def decodeMajor27Op (op : BitVec 4) (w : BitVec 32) : Option Instr :=
  if op == 0x0#4 then (if w.extractLsb' 4 4 == 0x0#4 && w.extractLsb' 11 5 == 0x0#5 then some (.vst (w.extractLsb' 21 5) (w.extractLsb' 16 5) (w.extractLsb' 8 3)) else none)
  else if op == 0x1#4 then (if w.extractLsb' 4 4 == 0x0#4 then some (.vsts (w.extractLsb' 21 5) (w.extractLsb' 16 5) (w.extractLsb' 11 5) (w.extractLsb' 8 3)) else none)
  else if op == 0x2#4 then (if w.extractLsb' 4 4 == 0x0#4 then some (.vst2 (w.extractLsb' 21 5) (w.extractLsb' 16 5) (w.extractLsb' 11 5) (w.extractLsb' 8 3)) else none)
  else if op == 0x3#4 then (if w.extractLsb' 4 4 == 0x0#4 then some (.vstx (w.extractLsb' 21 5) (w.extractLsb' 16 5) (w.extractLsb' 11 5) (w.extractLsb' 8 3)) else none)
  else if op == 0x4#4 then (if w.extractLsb' 4 4 == 0x0#4 then some (.vstl (w.extractLsb' 21 5) (w.extractLsb' 16 5) (w.extractLsb' 11 5) (w.extractLsb' 8 3)) else none)
  else if op == 0x5#4 then (if w.extractLsb' 7 1 == 0x0#1 && w.extractLsb' 16 5 == 0x0#5 then some (.vstr (w.extractLsb' 21 5) (w.extractLsb' 11 5) (w.extractLsb' 8 3) (w.extractLsb' 4 3)) else none)
  else if op == 0x6#4 then (if w.extractLsb' 4 4 == 0x0#4 then some (.vsaadd (w.extractLsb' 21 5) (w.extractLsb' 16 5) (w.extractLsb' 11 5) (w.extractLsb' 8 3)) else none)
  else if op == 0x7#4 then (if w.extractLsb' 4 4 == 0x0#4 then some (.vsamax (w.extractLsb' 21 5) (w.extractLsb' 16 5) (w.extractLsb' 11 5) (w.extractLsb' 8 3)) else none)
  else if op == 0x8#4 then (if w.extractLsb' 4 12 == 0x0#12 && w.extractLsb' 21 5 == 0x0#5 then some (.vsave (w.extractLsb' 16 5)) else none)
  else none

/-- Major 0x27, by its operation bits. -/
def decodeMajor27 (w : BitVec 32) : Option Instr := decodeMajor27Op (w.extractLsb' 0 4) w

/-- The rows of major 0x28. -/
def decodeMajor28Op (op : BitVec 4) (w : BitVec 32) : Option Instr :=
  if op == 0x0#4 then (if w.extractLsb' 4 7 == 0x0#7 then some (.vshape (w.extractLsb' 21 5) (w.extractLsb' 16 5) (w.extractLsb' 11 5)) else none)
  else if op == 0x1#4 then (if w.extractLsb' 4 12 == 0x0#12 then some (.vform (w.extractLsb' 21 5) (w.extractLsb' 16 5)) else none)
  else if op == 0x2#4 then (if w.extractLsb' 6 20 == 0x0#20 then some (.vsplit (w.extractLsb' 4 2)) else none)
  else if op == 0x3#4 then (if w.extractLsb' 4 22 == 0x0#22 then some .vjoin else none)
  else if op == 0x4#4 then (if w.extractLsb' 4 17 == 0x0#17 then some (.vrdshape (w.extractLsb' 21 5)) else none)
  else none

/-- Major 0x28, by its operation bits. -/
def decodeMajor28 (w : BitVec 32) : Option Instr := decodeMajor28Op (w.extractLsb' 0 4) w

/-- The rows of major 0x29. -/
def decodeMajor29Op (op : BitVec 5) (w : BitVec 32) : Option Instr :=
  if op == 0x0#5 then (if w.extractLsb' 5 6 == 0x0#6 && w.extractLsb' 14 7 == 0x0#7 then some (.mshape (w.extractLsb' 21 5) (w.extractLsb' 11 3)) else none)
  else if op == 0x1#5 then (if w.extractLsb' 5 4 == 0x0#4 && w.extractLsb' 11 15 == 0x0#15 then some (.mzero (w.extractLsb' 9 2)) else none)
  else if op == 0x2#5 then (if w.extractLsb' 9 7 == 0x0#7 then some (.mlds (w.extractLsb' 21 5) (w.extractLsb' 16 5) (w.extractLsb' 5 4)) else none)
  else if op == 0x3#5 then (if w.extractLsb' 5 21 == 0x0#21 then some .mswap else none)
  else if op == 0x4#5 then (if w.extractLsb' 11 5 == 0x0#5 then some (.mop (w.extractLsb' 21 5) (w.extractLsb' 16 5) (w.extractLsb' 9 2) (w.extractLsb' 5 4)) else none)
  else if op == 0x5#5 then (if w.extractLsb' 11 5 == 0x0#5 then some (.mops (w.extractLsb' 21 5) (w.extractLsb' 16 5) (w.extractLsb' 9 2) (w.extractLsb' 5 4)) else none)
  else if op == 0x6#5 then (if w.extractLsb' 5 4 == 0x0#4 && w.extractLsb' 11 5 == 0x0#5 then some (.mrd (w.extractLsb' 21 5) (w.extractLsb' 16 5) (w.extractLsb' 9 2)) else none)
  else if op == 0x7#5 then (if w.extractLsb' 5 4 == 0x0#4 && w.extractLsb' 11 5 == 0x0#5 then some (.mwr (w.extractLsb' 21 5) (w.extractLsb' 16 5) (w.extractLsb' 9 2)) else none)
  else if op == 0x8#5 then (if w.extractLsb' 14 12 == 0x0#12 then some (.mcvt (w.extractLsb' 11 3) (w.extractLsb' 9 2) (w.extractLsb' 5 4)) else none)
  else if op == 0x9#5 then some (.mopx (w.extractLsb' 21 5) (w.extractLsb' 16 5) (w.extractLsb' 11 5) (w.extractLsb' 9 2) (w.extractLsb' 5 4))
  else if op == 0xa#5 then some (.mopsx (w.extractLsb' 21 5) (w.extractLsb' 16 5) (w.extractLsb' 11 5) (w.extractLsb' 9 2) (w.extractLsb' 5 4))
  else none

/-- Major 0x29, by its operation bits. -/
def decodeMajor29 (w : BitVec 32) : Option Instr := decodeMajor29Op (w.extractLsb' 0 5) w

/-- The rows of major 0x2a. -/
def decodeMajor2AOp (op : BitVec 5) (w : BitVec 32) : Option Instr :=
  if op == 0x0#5 then (if w.extractLsb' 5 11 == 0x0#11 then some (.sdecl (w.extractLsb' 21 5) (w.extractLsb' 16 5)) else none)
  else if op == 0x1#5 then (if w.extractLsb' 5 6 == 0x0#6 && w.extractLsb' 16 5 == 0x0#5 then some (.sbind (w.extractLsb' 21 5) (w.extractLsb' 11 5)) else none)
  else if op == 0x2#5 then (if w.extractLsb' 5 16 == 0x0#16 then some (.sunbind (w.extractLsb' 21 5)) else none)
  else if op == 0x3#5 then (if w.extractLsb' 5 6 == 0x0#6 && w.extractLsb' 16 5 == 0x0#5 then some (.sstat (w.extractLsb' 21 5) (w.extractLsb' 11 5)) else none)
  else if op == 0x4#5 then (if w.extractLsb' 5 6 == 0x0#6 then some (.palloc (w.extractLsb' 21 5) (w.extractLsb' 16 5) (w.extractLsb' 11 5)) else none)
  else if op == 0x5#5 then (if w.extractLsb' 5 11 == 0x0#11 then some (.pstate (w.extractLsb' 21 5) (w.extractLsb' 16 5)) else none)
  else if op == 0x6#5 then (if w.extractLsb' 5 11 == 0x0#11 && w.extractLsb' 21 5 == 0x0#5 then some (.pfree (w.extractLsb' 16 5)) else none)
  else if op == 0x7#5 then (if w.extractLsb' 5 1 == 0x0#1 && w.extractLsb' 11 5 == 0x0#5 then some (.lxcopy (w.extractLsb' 21 5) (w.extractLsb' 16 5) (w.extractLsb' 8 3) (w.extractLsb' 7 1) (w.extractLsb' 6 1)) else none)
  else if op == 0x8#5 then (if w.extractLsb' 5 1 == 0x0#1 && w.extractLsb' 11 5 == 0x0#5 then some (.lxgath (w.extractLsb' 21 5) (w.extractLsb' 16 5) (w.extractLsb' 8 3) (w.extractLsb' 7 1) (w.extractLsb' 6 1)) else none)
  else if op == 0x9#5 then (if w.extractLsb' 5 1 == 0x0#1 && w.extractLsb' 11 5 == 0x0#5 then some (.lxscat (w.extractLsb' 21 5) (w.extractLsb' 16 5) (w.extractLsb' 8 3) (w.extractLsb' 7 1) (w.extractLsb' 6 1)) else none)
  else if op == 0xa#5 then (if w.extractLsb' 5 11 == 0x0#11 then some (.lxpoll (w.extractLsb' 21 5) (w.extractLsb' 16 5)) else none)
  else if op == 0xb#5 then (if w.extractLsb' 5 11 == 0x0#11 && w.extractLsb' 21 5 == 0x0#5 then some (.seal (w.extractLsb' 16 5)) else none)
  else if op == 0xc#5 then (if w.extractLsb' 5 11 == 0x0#11 && w.extractLsb' 21 5 == 0x0#5 then some (.unseal (w.extractLsb' 16 5)) else none)
  else if op == 0xd#5 then (if w.extractLsb' 5 11 == 0x0#11 && w.extractLsb' 21 5 == 0x0#5 then some (.relb (w.extractLsb' 16 5)) else none)
  else none

/-- Major 0x2a, by its operation bits. -/
def decodeMajor2A (w : BitVec 32) : Option Instr := decodeMajor2AOp (w.extractLsb' 0 5) w

/-- The rows of major 0x2b. -/
def decodeMajor2BOp (op : BitVec 4) (w : BitVec 32) : Option Instr :=
  if op == 0x0#4 then (if w.extractLsb' 4 7 == 0x0#7 && w.extractLsb' 21 5 == 0x0#5 then some (.rspawn (w.extractLsb' 16 5) (w.extractLsb' 11 5)) else none)
  else if op == 0x1#4 then (if w.extractLsb' 4 7 == 0x0#7 && w.extractLsb' 21 5 == 0x0#5 then some (.dqpush (w.extractLsb' 16 5) (w.extractLsb' 11 5)) else none)
  else if op == 0x2#4 then (if w.extractLsb' 4 17 == 0x0#17 then some (.dqpop (w.extractLsb' 21 5)) else none)
  else if op == 0x3#4 then (if w.extractLsb' 4 12 == 0x0#12 then some (.joindec (w.extractLsb' 21 5) (w.extractLsb' 16 5)) else none)
  else if op == 0x4#4 then (if w.extractLsb' 4 12 == 0x0#12 then some (.gnew (w.extractLsb' 21 5) (w.extractLsb' 16 5)) else none)
  else if op == 0x5#4 then (if w.extractLsb' 4 7 == 0x0#7 && w.extractLsb' 21 5 == 0x0#5 then some (.gadd (w.extractLsb' 16 5) (w.extractLsb' 11 5)) else none)
  else if op == 0x6#4 then (if w.extractLsb' 4 12 == 0x0#12 && w.extractLsb' 21 5 == 0x0#5 then some (.gstop (w.extractLsb' 16 5)) else none)
  else if op == 0x7#4 then (if w.extractLsb' 4 12 == 0x0#12 && w.extractLsb' 21 5 == 0x0#5 then some (.gresume (w.extractLsb' 16 5)) else none)
  else if op == 0x8#4 then (if w.extractLsb' 4 22 == 0x0#22 then some .gbar else none)
  else if op == 0x9#4 then (if w.extractLsb' 4 7 == 0x0#7 && w.extractLsb' 21 5 == 0x0#5 then some (.gcast (w.extractLsb' 16 5) (w.extractLsb' 11 5)) else none)
  else if op == 0xa#4 then (if w.extractLsb' 6 5 == 0x0#5 && w.extractLsb' 21 5 == 0x0#5 then some (.msend (w.extractLsb' 16 5) (w.extractLsb' 11 5) (w.extractLsb' 4 2)) else none)
  else if op == 0xb#4 then (if w.extractLsb' 4 12 == 0x0#12 then some (.mrecv (w.extractLsb' 21 5) (w.extractLsb' 16 5)) else none)
  else if op == 0xc#4 then (if w.extractLsb' 4 22 == 0x0#22 then some .waitm else none)
  else if op == 0xd#4 then (if w.extractLsb' 4 12 == 0x0#12 && w.extractLsb' 21 5 == 0x0#5 then some (.waitt (w.extractLsb' 16 5)) else none)
  else if op == 0xe#4 then (if w.extractLsb' 4 17 == 0x0#17 then some (.timeq (w.extractLsb' 21 5)) else none)
  else none

/-- Major 0x2b, by its operation bits. -/
def decodeMajor2B (w : BitVec 32) : Option Instr := decodeMajor2BOp (w.extractLsb' 0 4) w

/-- The rows of major 0x2c. -/
def decodeMajor2COp (op : BitVec 4) (w : BitVec 32) : Option Instr :=
  if op == 0x0#4 then some (.amoswap (w.extractLsb' 21 5) (w.extractLsb' 16 5) (w.extractLsb' 11 5) (w.extractLsb' 8 3) (w.extractLsb' 5 3) (w.extractLsb' 0 1))
  else if op == 0x1#4 then some (.amoadd (w.extractLsb' 21 5) (w.extractLsb' 16 5) (w.extractLsb' 11 5) (w.extractLsb' 8 3) (w.extractLsb' 5 3) (w.extractLsb' 0 1))
  else if op == 0x2#4 then some (.amoand (w.extractLsb' 21 5) (w.extractLsb' 16 5) (w.extractLsb' 11 5) (w.extractLsb' 8 3) (w.extractLsb' 5 3) (w.extractLsb' 0 1))
  else if op == 0x3#4 then some (.amoor (w.extractLsb' 21 5) (w.extractLsb' 16 5) (w.extractLsb' 11 5) (w.extractLsb' 8 3) (w.extractLsb' 5 3) (w.extractLsb' 0 1))
  else if op == 0x4#4 then some (.amoxor (w.extractLsb' 21 5) (w.extractLsb' 16 5) (w.extractLsb' 11 5) (w.extractLsb' 8 3) (w.extractLsb' 5 3) (w.extractLsb' 0 1))
  else if op == 0x5#4 then some (.amomin (w.extractLsb' 21 5) (w.extractLsb' 16 5) (w.extractLsb' 11 5) (w.extractLsb' 8 3) (w.extractLsb' 5 3) (w.extractLsb' 0 1))
  else if op == 0x6#4 then some (.amomax (w.extractLsb' 21 5) (w.extractLsb' 16 5) (w.extractLsb' 11 5) (w.extractLsb' 8 3) (w.extractLsb' 5 3) (w.extractLsb' 0 1))
  else if op == 0x7#4 then some (.amocas (w.extractLsb' 21 5) (w.extractLsb' 16 5) (w.extractLsb' 11 5) (w.extractLsb' 8 3) (w.extractLsb' 5 3) (w.extractLsb' 0 1))
  else if op == 0x8#4 then (if w.extractLsb' 11 5 == 0x0#5 then some (.ldl (w.extractLsb' 21 5) (w.extractLsb' 16 5) (w.extractLsb' 8 3) (w.extractLsb' 5 3) (w.extractLsb' 0 1)) else none)
  else if op == 0x9#4 then some (.stc (w.extractLsb' 21 5) (w.extractLsb' 16 5) (w.extractLsb' 11 5) (w.extractLsb' 8 3) (w.extractLsb' 5 3) (w.extractLsb' 0 1))
  else none

/-- Major 0x2c, by its operation bits. -/
def decodeMajor2C (w : BitVec 32) : Option Instr := decodeMajor2COp (w.extractLsb' 1 4) w

/-- The rows of major 0x2d. -/
def decodeMajor2D (w : BitVec 32) : Option Instr :=
  if w.extractLsb' 14 7 == 0x0#7 then some (.vformi (w.extractLsb' 21 5) (w.extractLsb' 0 14)) else none

/-- The rows of major 0x30. -/
def decodeMajor30 (w : BitVec 32) : Option Instr :=
  some (.beq (w.extractLsb' 21 5) (w.extractLsb' 16 5) (w.extractLsb' 0 16))

/-- The rows of major 0x31. -/
def decodeMajor31 (w : BitVec 32) : Option Instr :=
  some (.bne (w.extractLsb' 21 5) (w.extractLsb' 16 5) (w.extractLsb' 0 16))

/-- The rows of major 0x32. -/
def decodeMajor32 (w : BitVec 32) : Option Instr :=
  some (.blt (w.extractLsb' 21 5) (w.extractLsb' 16 5) (w.extractLsb' 0 16))

/-- The rows of major 0x33. -/
def decodeMajor33 (w : BitVec 32) : Option Instr :=
  some (.bge (w.extractLsb' 21 5) (w.extractLsb' 16 5) (w.extractLsb' 0 16))

/-- The rows of major 0x34. -/
def decodeMajor34 (w : BitVec 32) : Option Instr :=
  some (.bltu (w.extractLsb' 21 5) (w.extractLsb' 16 5) (w.extractLsb' 0 16))

/-- The rows of major 0x35. -/
def decodeMajor35 (w : BitVec 32) : Option Instr :=
  some (.bgeu (w.extractLsb' 21 5) (w.extractLsb' 16 5) (w.extractLsb' 0 16))

/-- The rows of major 0x3f. -/
def decodeMajor3F (w : BitVec 32) : Option Instr :=
  if w.extractLsb' 0 6 == 0x0#6 then some (.pfx (w.extractLsb' 24 2) (w.extractLsb' 19 5) (w.extractLsb' 18 1) (w.extractLsb' 13 5) (w.extractLsb' 12 1) (w.extractLsb' 9 3) (w.extractLsb' 6 3)) else none

/-- The instruction of a word, by the major opcode of R65 and the tables of R66-R85; none where no row has the word. -/
def decodeByMajor (major : BitVec 6) (w : BitVec 32) : Option Instr :=
  if major == 0x00#6 then decodeMajor00 w
  else if major == 0x01#6 then decodeMajor01 w
  else if major == 0x02#6 then decodeMajor02 w
  else if major == 0x03#6 then decodeMajor03 w
  else if major == 0x04#6 then decodeMajor04 w
  else if major == 0x05#6 then decodeMajor05 w
  else if major == 0x06#6 then decodeMajor06 w
  else if major == 0x07#6 then decodeMajor07 w
  else if major == 0x08#6 then decodeMajor08 w
  else if major == 0x09#6 then decodeMajor09 w
  else if major == 0x0a#6 then decodeMajor0A w
  else if major == 0x0b#6 then decodeMajor0B w
  else if major == 0x0c#6 then decodeMajor0C w
  else if major == 0x0d#6 then decodeMajor0D w
  else if major == 0x0e#6 then decodeMajor0E w
  else if major == 0x0f#6 then decodeMajor0F w
  else if major == 0x10#6 then decodeMajor10 w
  else if major == 0x11#6 then decodeMajor11 w
  else if major == 0x12#6 then decodeMajor12 w
  else if major == 0x13#6 then decodeMajor13 w
  else if major == 0x14#6 then decodeMajor14 w
  else if major == 0x15#6 then decodeMajor15 w
  else if major == 0x16#6 then decodeMajor16 w
  else if major == 0x17#6 then decodeMajor17 w
  else if major == 0x18#6 then decodeMajor18 w
  else if major == 0x19#6 then decodeMajor19 w
  else if major == 0x1a#6 then decodeMajor1A w
  else if major == 0x1b#6 then decodeMajor1B w
  else if major == 0x1c#6 then decodeMajor1C w
  else if major == 0x1d#6 then decodeMajor1D w
  else if major == 0x1e#6 then decodeMajor1E w
  else if major == 0x1f#6 then decodeMajor1F w
  else if major == 0x20#6 then decodeMajor20 w
  else if major == 0x21#6 then decodeMajor21 w
  else if major == 0x22#6 then decodeMajor22 w
  else if major == 0x23#6 then decodeMajor23 w
  else if major == 0x24#6 then decodeMajor24 w
  else if major == 0x25#6 then decodeMajor25 w
  else if major == 0x26#6 then decodeMajor26 w
  else if major == 0x27#6 then decodeMajor27 w
  else if major == 0x28#6 then decodeMajor28 w
  else if major == 0x29#6 then decodeMajor29 w
  else if major == 0x2a#6 then decodeMajor2A w
  else if major == 0x2b#6 then decodeMajor2B w
  else if major == 0x2c#6 then decodeMajor2C w
  else if major == 0x2d#6 then decodeMajor2D w
  else if major == 0x30#6 then decodeMajor30 w
  else if major == 0x31#6 then decodeMajor31 w
  else if major == 0x32#6 then decodeMajor32 w
  else if major == 0x33#6 then decodeMajor33 w
  else if major == 0x34#6 then decodeMajor34 w
  else if major == 0x35#6 then decodeMajor35 w
  else if major == 0x3f#6 then decodeMajor3F w
  else none

/-- The instruction of a word, by its major opcode in bits [31:26] (R64). -/
def decodeRaw (w : BitVec 32) : Option Instr := decodeByMajor (w.extractLsb' 26 6) w

/-- Why a word is refused: no table assigns it, or a field holds a reserved value (R6, R67). -/
inductive DecodeError where
  | unassigned
  | reserved (i : Instr)
deriving DecidableEq, Repr

/-- Decoding of one word (R87 step 1): total, and refusing by name. -/
def decode (w : BitVec 32) : Except DecodeError Instr :=
  match decodeRaw w with
  | none => .error .unassigned
  | some i => if i.wf then .ok i else .error (.reserved i)

/-- The word of four bytes, the first at the lowest address (R7, R63). -/
def wordOfBytes (b0 b1 b2 b3 : Byte) : BitVec 32 := b3 ++ b2 ++ b1 ++ b0

/-- The four bytes of a word, the first at the lowest address (R7, R63). -/
def bytesOfWord (w : BitVec 32) : List Byte :=
  [w.extractLsb' 0 8, w.extractLsb' 8 8, w.extractLsb' 16 8, w.extractLsb' 24 8]

/-- Decoding of bytes: the instruction and the bytes after it; none for fewer than four bytes. -/
def decodeBytes : List Byte → Option (Except DecodeError Instr × List Byte)
  | b0 :: b1 :: b2 :: b3 :: rest => some (decode (wordOfBytes b0 b1 b2 b3), rest)
  | _ => none

/-- An instruction that has a word: the first 346 rows of the table (a device event has none). -/
def Instr.isWord : Instr → Bool
  | .asyncTrapTaken => false
  | .slotctlStart _ => false
  | .shapeWrite _ => false
  | .fstatWrite _ => false
  | .mstatClear _ => false
  | .mownSave _ => false
  | .mownLoad _ => false
  | .mownZero _ => false
  | .dpbankWrite _ => false
  | .leaseLengthWrite _ _ => false
  | .detmodeWrite _ => false
  | .rankEntryWrite _ => false
  | .inboxRegisterWrite _ => false
  | .worldTableWrite _ => false
  | .fctlWrite _ _ _ => false
  | .dbtgtWrite _ _ _ => false
  | .lqheadWrite _ _ _ => false
  | .hintWrite _ _ _ => false
  | .codeRangeEnable _ _ _ _ => false
  | .codeRangeDisable _ _ _ _ => false
  | .fcbRegisterWrite _ _ _ _ => false
  | .memoryReply _ _ _ => false
  | .postedStoreDrain _ => false
  | .icacheFill _ _ _ => false
  | .pageWalk _ _ _ _ => false
  | .vectorCheckPhaseEnd _ => false
  | .vectorSweepStart _ => false
  | .vectorRowArrival _ _ => false
  | .vectorSweepComplete _ => false
  | .matrixEntryStart _ => false
  | .matrixEntryComplete _ _ _ => false
  | .gustPrefetch _ _ => false
  | .jobSchedule _ _ => false
  | .jobBlockEnd _ _ => false
  | .jobFaultEnd _ _ => false
  | .jobComplete _ _ => false
  | .levanterRound _ _ => false
  | .gcastCopyLanded _ _ => false
  | .sealCountDrained _ _ => false
  | .spawnRequestArrival _ _ _ => false
  | .stealRequest _ _ => false
  | .gbarArrivalSignal _ _ => false
  | .gbarGenerationComplete _ => false
  | .gangStopComplete _ => false
  | .msendAccept _ _ => false
  | .dataDelivery _ _ => false
  | .spawnDelivery _ _ => false
  | .wakeDelivery _ _ => false
  | .regwDelivery _ _ => false
  | .inboxRecordWrite _ _ _ => false
  | .waittExpiry _ => false
  | .wfiWake _ => false
  | .waitResumption _ => false
  | .homeMiss _ _ => false
  | .homeWritePerform _ => false
  | .leaseExpiry _ _ => false
  | .writeCombineFlush _ _ => false
  | .tokenBucketRefill _ => false
  | .ptpTimestampExchange _ => false
  | .hostDoorbellWrite _ _ _ _ => false
  | .doorbellMessageSend _ _ => false
  | .inboundRead _ _ _ _ _ _ => false
  | .inboundWrite _ _ _ _ _ _ => false
  | .outboundCompletion _ _ _ => false
  | .peerReadTimeout _ => false
  | .hostMsixUnmask _ _ _ _ _ => false
  | .tdispRequest _ _ _ => false
  | .spdmMessage _ _ _ => false
  | .keyInstall _ _ _ _ => false
  | .keyErase _ _ => false
  | .functionLevelReset _ _ => false
  | .etesianFlitReplay _ => false
  | .linkDown _ => false
  | .linkRetrainTimeout _ => false
  | .linkWidthWindow _ _ => false
  | .linkWiden _ => false
  | .linkWidthHandshakeDone _ => false
  | .packageReset _ => false
  | .packageBoot _ => false
  | .controllerHeartbeat => false
  | .controllerFailover => false
  | .stateSummary _ => false
  | .journalClear _ => false
  | .doeUnknownCommand _ => false
  | .expansionTableReplace _ _ _ _ => false
  | .thermalSensorRead _ => false
  | .patrolScrub _ _ => false
  | .foehnTest _ _ _ _ => false
  | .redundantOn _ => false
  | .redundantOff _ => false
  | .recordOn _ => false
  | .replayOn _ => false
  | .recordReplayOff _ => false
  | .intervalClose _ => false
  | .redundantTimeout _ => false
  | .illegalEncoding _ => false
  | .instructionFetchFault _ _ => false
  | .linkRetrained _ => false
  | .functionEnable _ _ _ => false
  | .powerRemoved => false
  | .dptokenWrite _ => false
  | .add _ _ _ => true
  | .sub _ _ _ => true
  | .and _ _ _ => true
  | .or _ _ _ => true
  | .xor _ _ _ => true
  | .sll _ _ _ => true
  | .srl _ _ _ => true
  | .sra _ _ _ => true
  | .slt _ _ _ => true
  | .sltu _ _ _ => true
  | .min _ _ _ => true
  | .max _ _ _ => true
  | .minu _ _ _ => true
  | .maxu _ _ _ => true
  | .fshl _ _ _ _ => true
  | .fshr _ _ _ _ => true
  | .clz _ _ => true
  | .ctz _ _ => true
  | .popc _ _ => true
  | .sel _ _ _ => true
  | .ext _ _ _ _ => true
  | .ins _ _ _ _ => true
  | .addi _ _ _ => true
  | .andi _ _ _ => true
  | .ori _ _ _ => true
  | .xori _ _ _ => true
  | .slli _ _ _ => true
  | .srli _ _ _ => true
  | .srai _ _ _ => true
  | .slti _ _ _ => true
  | .sltiu _ _ _ => true
  | .lui _ _ => true
  | .addpc _ _ => true
  | .mul _ _ _ => true
  | .mulh _ _ _ => true
  | .mulhu _ _ _ => true
  | .div _ _ _ => true
  | .divu _ _ _ => true
  | .rem _ _ _ => true
  | .remu _ _ _ => true
  | .lut3 _ _ _ _ => true
  | .fadd _ _ _ _ _ => true
  | .fsub _ _ _ _ _ => true
  | .fmul _ _ _ _ _ => true
  | .fdiv _ _ _ _ _ => true
  | .fsqrt _ _ _ _ => true
  | .fmin _ _ _ _ => true
  | .fmax _ _ _ _ => true
  | .feq _ _ _ _ => true
  | .flt _ _ _ _ => true
  | .fle _ _ _ _ => true
  | .fclass _ _ _ => true
  | .fcvt _ _ _ _ _ => true
  | .fcvti _ _ _ _ _ => true
  | .icvtf _ _ _ _ _ => true
  | .fmvx _ _ _ => true
  | .fmvf _ _ _ => true
  | .fma _ _ _ _ _ _ => true
  | .fms _ _ _ _ _ _ => true
  | .fnma _ _ _ _ _ _ => true
  | .fnms _ _ _ _ _ _ => true
  | .jal _ => true
  | .jalr _ _ _ => true
  | .lb _ _ _ => true
  | .lbu _ _ _ => true
  | .lh _ _ _ => true
  | .lhu _ _ _ => true
  | .lw _ _ _ => true
  | .lwu _ _ _ => true
  | .ld _ _ _ => true
  | .flw _ _ _ => true
  | .fld _ _ _ => true
  | .sb _ _ _ => true
  | .sh _ _ _ => true
  | .sw _ _ _ => true
  | .sd _ _ _ => true
  | .fsw _ _ _ => true
  | .fsd _ _ _ => true
  | .ecall => true
  | .ebreak => true
  | .eret => true
  | .movs _ _ => true
  | .movsw _ _ => true
  | .fence _ => true
  | .fencei => true
  | .tlbinv _ _ _ => true
  | .dgate _ => true
  | .dret => true
  | .wfi => true
  | .chkpt => true
  | .vaddV _ _ _ _ _ => true
  | .vaddX _ _ _ _ => true
  | .vaddI _ _ _ _ => true
  | .vsubV _ _ _ _ _ => true
  | .vsubX _ _ _ _ => true
  | .vsubI _ _ _ _ => true
  | .vrsubV _ _ _ _ _ => true
  | .vrsubX _ _ _ _ => true
  | .vrsubI _ _ _ _ => true
  | .vmulV _ _ _ _ _ => true
  | .vmulX _ _ _ _ => true
  | .vmulhV _ _ _ _ _ => true
  | .vmulhX _ _ _ _ => true
  | .vmulhuV _ _ _ _ _ => true
  | .vmulhuX _ _ _ _ => true
  | .vdivV _ _ _ _ _ => true
  | .vdivX _ _ _ _ => true
  | .vdivuV _ _ _ _ _ => true
  | .vdivuX _ _ _ _ => true
  | .vremV _ _ _ _ _ => true
  | .vremX _ _ _ _ => true
  | .vremuV _ _ _ _ _ => true
  | .vremuX _ _ _ _ => true
  | .vminV _ _ _ _ _ => true
  | .vminX _ _ _ _ => true
  | .vminI _ _ _ _ => true
  | .vmaxV _ _ _ _ _ => true
  | .vmaxX _ _ _ _ => true
  | .vmaxI _ _ _ _ => true
  | .vminuV _ _ _ _ _ => true
  | .vminuX _ _ _ _ => true
  | .vminuI _ _ _ _ => true
  | .vmaxuV _ _ _ _ _ => true
  | .vmaxuX _ _ _ _ => true
  | .vmaxuI _ _ _ _ => true
  | .vandV _ _ _ _ _ => true
  | .vandX _ _ _ _ => true
  | .vandI _ _ _ _ => true
  | .vorV _ _ _ _ _ => true
  | .vorX _ _ _ _ => true
  | .vorI _ _ _ _ => true
  | .vxorV _ _ _ _ _ => true
  | .vxorX _ _ _ _ => true
  | .vxorI _ _ _ _ => true
  | .vsllV _ _ _ _ _ => true
  | .vsllX _ _ _ _ => true
  | .vsllI _ _ _ _ => true
  | .vsrlV _ _ _ _ _ => true
  | .vsrlX _ _ _ _ => true
  | .vsrlI _ _ _ _ => true
  | .vsraV _ _ _ _ _ => true
  | .vsraX _ _ _ _ => true
  | .vsraI _ _ _ _ => true
  | .vsaddV _ _ _ _ _ => true
  | .vsaddX _ _ _ _ => true
  | .vsaddI _ _ _ _ => true
  | .vssubV _ _ _ _ _ => true
  | .vssubX _ _ _ _ => true
  | .vssubI _ _ _ _ => true
  | .vwmulV _ _ _ _ _ => true
  | .vwmulX _ _ _ _ => true
  | .vwmaccV _ _ _ _ _ => true
  | .vwmaccX _ _ _ _ => true
  | .vwmaccuV _ _ _ _ _ => true
  | .vwmaccuX _ _ _ _ => true
  | .vwmaccsuV _ _ _ _ _ => true
  | .vwmaccsuX _ _ _ _ => true
  | .vnclipV _ _ _ _ _ => true
  | .vnclipX _ _ _ _ => true
  | .vnclipI _ _ _ _ => true
  | .vfshlV _ _ _ _ _ => true
  | .vfshlX _ _ _ _ => true
  | .vfshlI _ _ _ _ => true
  | .vfshrV _ _ _ _ _ => true
  | .vfshrX _ _ _ _ => true
  | .vfshrI _ _ _ _ => true
  | .vmergeV _ _ _ _ _ => true
  | .vmergeX _ _ _ _ => true
  | .vmergeI _ _ _ _ => true
  | .vmovV _ _ _ _ => true
  | .vmovX _ _ _ => true
  | .vmovI _ _ _ => true
  | .vseqV _ _ _ _ _ => true
  | .vseqX _ _ _ _ => true
  | .vseqI _ _ _ _ => true
  | .vsneV _ _ _ _ _ => true
  | .vsneX _ _ _ _ => true
  | .vsneI _ _ _ _ => true
  | .vsltV _ _ _ _ _ => true
  | .vsltX _ _ _ _ => true
  | .vsltI _ _ _ _ => true
  | .vsltuV _ _ _ _ _ => true
  | .vsltuX _ _ _ _ => true
  | .vsltuI _ _ _ _ => true
  | .vsleV _ _ _ _ _ => true
  | .vsleX _ _ _ _ => true
  | .vsleI _ _ _ _ => true
  | .vsleuV _ _ _ _ _ => true
  | .vsleuX _ _ _ _ => true
  | .vsleuI _ _ _ _ => true
  | .vsgtV _ _ _ _ _ => true
  | .vsgtX _ _ _ _ => true
  | .vsgtI _ _ _ _ => true
  | .vsgtuV _ _ _ _ _ => true
  | .vsgtuX _ _ _ _ => true
  | .vsgtuI _ _ _ _ => true
  | .vpopc _ _ _ => true
  | .vclz _ _ _ => true
  | .vconf _ _ => true
  | .vredsum _ _ _ => true
  | .vredmax _ _ _ => true
  | .vredmin _ _ _ => true
  | .vredmaxu _ _ _ => true
  | .vredminu _ _ _ => true
  | .vredand _ _ _ => true
  | .vredor _ _ _ => true
  | .vredxor _ _ _ => true
  | .vlut3 _ _ _ _ _ _ => true
  | .vfaddV _ _ _ _ _ => true
  | .vfaddF _ _ _ _ => true
  | .vfsubV _ _ _ _ _ => true
  | .vfsubF _ _ _ _ => true
  | .vfmulV _ _ _ _ _ => true
  | .vfmulF _ _ _ _ => true
  | .vfdivV _ _ _ _ _ => true
  | .vfdivF _ _ _ _ => true
  | .vfsqrt _ _ _ => true
  | .vfmaV _ _ _ _ _ => true
  | .vfmaF _ _ _ _ => true
  | .vfnmaV _ _ _ _ _ => true
  | .vfnmaF _ _ _ _ => true
  | .vfminV _ _ _ _ _ => true
  | .vfminF _ _ _ _ => true
  | .vfmaxV _ _ _ _ _ => true
  | .vfmaxF _ _ _ _ => true
  | .vfeqV _ _ _ _ _ => true
  | .vfeqF _ _ _ _ => true
  | .vfltV _ _ _ _ _ => true
  | .vfltF _ _ _ _ => true
  | .vfleV _ _ _ _ _ => true
  | .vfleF _ _ _ _ => true
  | .vfgtV _ _ _ _ _ => true
  | .vfgtF _ _ _ _ => true
  | .vfgeV _ _ _ _ _ => true
  | .vfgeF _ _ _ _ => true
  | .vfcvt _ _ _ _ => true
  | .vfpack _ _ _ _ => true
  | .vfunpack _ _ _ _ => true
  | .vfcvti _ _ _ _ => true
  | .vicvtf _ _ _ _ => true
  | .vfredsum _ _ _ => true
  | .vfredmax _ _ _ => true
  | .vfexp2 _ _ _ => true
  | .vflog2 _ _ _ => true
  | .vfrcp _ _ _ => true
  | .vfrsq _ _ _ => true
  | .mand _ _ _ => true
  | .mor _ _ _ => true
  | .mxor _ _ _ => true
  | .mnot _ _ => true
  | .mpopc _ _ => true
  | .mfirst _ _ => true
  | .iota _ _ => true
  | .vid _ => true
  | .slideupX _ _ _ _ => true
  | .slidednX _ _ _ _ => true
  | .slideupI _ _ _ _ => true
  | .slidednI _ _ _ _ => true
  | .vgather _ _ _ _ _ => true
  | .compress _ _ _ => true
  | .expand _ _ _ => true
  | .rowbcX _ _ _ _ => true
  | .rowrotX _ _ _ _ => true
  | .rowbcI _ _ _ _ => true
  | .rowrotI _ _ _ _ => true
  | .vmvx _ _ _ => true
  | .vmvs _ _ _ => true
  | .vld _ _ _ => true
  | .vlds _ _ _ _ => true
  | .vld2 _ _ _ _ => true
  | .vldx _ _ _ _ => true
  | .vldl _ _ _ _ => true
  | .vldr _ _ _ _ => true
  | .vrest _ => true
  | .vst _ _ _ => true
  | .vsts _ _ _ _ => true
  | .vst2 _ _ _ _ => true
  | .vstx _ _ _ _ => true
  | .vstl _ _ _ _ => true
  | .vstr _ _ _ _ => true
  | .vsaadd _ _ _ _ => true
  | .vsamax _ _ _ _ => true
  | .vsave _ => true
  | .vshape _ _ _ => true
  | .vform _ _ => true
  | .vsplit _ => true
  | .vjoin => true
  | .vrdshape _ => true
  | .mshape _ _ => true
  | .mzero _ => true
  | .mlds _ _ _ => true
  | .mswap => true
  | .mop _ _ _ _ => true
  | .mops _ _ _ _ => true
  | .mrd _ _ _ => true
  | .mwr _ _ _ => true
  | .mcvt _ _ _ => true
  | .mopx _ _ _ _ _ => true
  | .mopsx _ _ _ _ _ => true
  | .sdecl _ _ => true
  | .sbind _ _ => true
  | .sunbind _ => true
  | .sstat _ _ => true
  | .palloc _ _ _ => true
  | .pstate _ _ => true
  | .pfree _ => true
  | .lxcopy _ _ _ _ _ => true
  | .lxgath _ _ _ _ _ => true
  | .lxscat _ _ _ _ _ => true
  | .lxpoll _ _ => true
  | .seal _ => true
  | .unseal _ => true
  | .relb _ => true
  | .rspawn _ _ => true
  | .dqpush _ _ => true
  | .dqpop _ => true
  | .joindec _ _ => true
  | .gnew _ _ => true
  | .gadd _ _ => true
  | .gstop _ => true
  | .gresume _ => true
  | .gbar => true
  | .gcast _ _ => true
  | .msend _ _ _ => true
  | .mrecv _ _ => true
  | .waitm => true
  | .waitt _ => true
  | .timeq _ => true
  | .amoswap _ _ _ _ _ _ => true
  | .amoadd _ _ _ _ _ _ => true
  | .amoand _ _ _ _ _ _ => true
  | .amoor _ _ _ _ _ _ => true
  | .amoxor _ _ _ _ _ _ => true
  | .amomin _ _ _ _ _ _ => true
  | .amomax _ _ _ _ _ _ => true
  | .amocas _ _ _ _ _ _ => true
  | .ldl _ _ _ _ _ => true
  | .stc _ _ _ _ _ _ => true
  | .vformi _ _ => true
  | .beq _ _ _ => true
  | .bne _ _ _ => true
  | .blt _ _ _ => true
  | .bge _ _ _ => true
  | .bltu _ _ _ => true
  | .bgeu _ _ _ => true
  | .pfx _ _ _ _ _ _ _ => true

/-! The words of spec/03, one definition for each row: the fields of the encoding table put together. -/

/-- ADD (R96). -/
def encAdd (d a b : BitVec 5) : BitVec 32 := 0x0#6 ++ d ++ a ++ b ++ 0x1#11
/-- SUB (R96). -/
def encSub (d a b : BitVec 5) : BitVec 32 := 0x0#6 ++ d ++ a ++ b ++ 0x2#11
/-- AND (R96). -/
def encAnd (d a b : BitVec 5) : BitVec 32 := 0x0#6 ++ d ++ a ++ b ++ 0x3#11
/-- OR (R96). -/
def encOr (d a b : BitVec 5) : BitVec 32 := 0x0#6 ++ d ++ a ++ b ++ 0x4#11
/-- XOR (R96). -/
def encXor (d a b : BitVec 5) : BitVec 32 := 0x0#6 ++ d ++ a ++ b ++ 0x5#11
/-- SLL (R96). -/
def encSll (d a b : BitVec 5) : BitVec 32 := 0x0#6 ++ d ++ a ++ b ++ 0x6#11
/-- SRL (R96). -/
def encSrl (d a b : BitVec 5) : BitVec 32 := 0x0#6 ++ d ++ a ++ b ++ 0x7#11
/-- SRA (R96). -/
def encSra (d a b : BitVec 5) : BitVec 32 := 0x0#6 ++ d ++ a ++ b ++ 0x8#11
/-- SLT (R96). -/
def encSlt (d a b : BitVec 5) : BitVec 32 := 0x0#6 ++ d ++ a ++ b ++ 0x9#11
/-- SLTU (R96). -/
def encSltu (d a b : BitVec 5) : BitVec 32 := 0x0#6 ++ d ++ a ++ b ++ 0xa#11
/-- MIN (R96). -/
def encMin (d a b : BitVec 5) : BitVec 32 := 0x0#6 ++ d ++ a ++ b ++ 0xb#11
/-- MAX (R96). -/
def encMax (d a b : BitVec 5) : BitVec 32 := 0x0#6 ++ d ++ a ++ b ++ 0xc#11
/-- MINU (R96). -/
def encMinu (d a b : BitVec 5) : BitVec 32 := 0x0#6 ++ d ++ a ++ b ++ 0xd#11
/-- MAXU (R96). -/
def encMaxu (d a b : BitVec 5) : BitVec 32 := 0x0#6 ++ d ++ a ++ b ++ 0xe#11
/-- FSHL (R96). -/
def encFshl (d a b : BitVec 5) (s : BitVec 6) : BitVec 32 := 0x0#6 ++ d ++ a ++ b ++ s ++ 0xf#5
/-- FSHR (R96). -/
def encFshr (d a b : BitVec 5) (s : BitVec 6) : BitVec 32 := 0x0#6 ++ d ++ a ++ b ++ s ++ 0x10#5
/-- CLZ (R96). -/
def encClz (d a : BitVec 5) : BitVec 32 := 0x0#6 ++ d ++ a ++ 0x11#16
/-- CTZ (R96). -/
def encCtz (d a : BitVec 5) : BitVec 32 := 0x0#6 ++ d ++ a ++ 0x12#16
/-- POPC (R96). -/
def encPopc (d a : BitVec 5) : BitVec 32 := 0x0#6 ++ d ++ a ++ 0x13#16
/-- SEL (R96). -/
def encSel (d a b : BitVec 5) : BitVec 32 := 0x0#6 ++ d ++ a ++ b ++ 0x14#11
/-- EXT (R96). -/
def encExt (d a l : BitVec 5) (p : BitVec 6) : BitVec 32 := 0x0#6 ++ d ++ a ++ l ++ p ++ 0x15#5
/-- INS (R96). -/
def encIns (d a l : BitVec 5) (p : BitVec 6) : BitVec 32 := 0x0#6 ++ d ++ a ++ l ++ p ++ 0x16#5
/-- ADDI (R97). -/
def encAddi (d a : BitVec 5) (i : BitVec 16) : BitVec 32 := 0x1#6 ++ d ++ a ++ i
/-- ANDI (R97). -/
def encAndi (d a : BitVec 5) (i : BitVec 16) : BitVec 32 := 0x2#6 ++ d ++ a ++ i
/-- ORI (R97). -/
def encOri (d a : BitVec 5) (i : BitVec 16) : BitVec 32 := 0x3#6 ++ d ++ a ++ i
/-- XORI (R97). -/
def encXori (d a : BitVec 5) (i : BitVec 16) : BitVec 32 := 0x4#6 ++ d ++ a ++ i
/-- SLLI (R97). -/
def encSlli (d a : BitVec 5) (s : BitVec 6) : BitVec 32 := 0x5#6 ++ d ++ a ++ 0x0#10 ++ s
/-- SRLI (R97). -/
def encSrli (d a : BitVec 5) (s : BitVec 6) : BitVec 32 := 0x5#6 ++ d ++ a ++ 0x100#10 ++ s
/-- SRAI (R97). -/
def encSrai (d a : BitVec 5) (s : BitVec 6) : BitVec 32 := 0x5#6 ++ d ++ a ++ 0x200#10 ++ s
/-- SLTI (R97). -/
def encSlti (d a : BitVec 5) (i : BitVec 16) : BitVec 32 := 0x6#6 ++ d ++ a ++ i
/-- SLTIU (R97). -/
def encSltiu (d a : BitVec 5) (i : BitVec 16) : BitVec 32 := 0x7#6 ++ d ++ a ++ i
/-- LUI (R97). -/
def encLui (d : BitVec 5) (i : BitVec 21) : BitVec 32 := 0x8#6 ++ d ++ i
/-- ADDPC (R97). -/
def encAddpc (d : BitVec 5) (i : BitVec 21) : BitVec 32 := 0x9#6 ++ d ++ i
/-- MUL (R98). -/
def encMul (d a b : BitVec 5) : BitVec 32 := 0xa#6 ++ d ++ a ++ b ++ 0x0#11
/-- MULH (R98). -/
def encMulh (d a b : BitVec 5) : BitVec 32 := 0xa#6 ++ d ++ a ++ b ++ 0x1#11
/-- MULHU (R98). -/
def encMulhu (d a b : BitVec 5) : BitVec 32 := 0xa#6 ++ d ++ a ++ b ++ 0x2#11
/-- DIV (R99). -/
def encDiv (d a b : BitVec 5) : BitVec 32 := 0xa#6 ++ d ++ a ++ b ++ 0x3#11
/-- DIVU (R99). -/
def encDivu (d a b : BitVec 5) : BitVec 32 := 0xa#6 ++ d ++ a ++ b ++ 0x4#11
/-- REM (R99). -/
def encRem (d a b : BitVec 5) : BitVec 32 := 0xa#6 ++ d ++ a ++ b ++ 0x5#11
/-- REMU (R99). -/
def encRemu (d a b : BitVec 5) : BitVec 32 := 0xa#6 ++ d ++ a ++ b ++ 0x6#11
/-- LUT3 (R101). -/
def encLut3 (d a b : BitVec 5) (t : BitVec 8) : BitVec 32 := 0xb#6 ++ d ++ a ++ b ++ 0x0#3 ++ t
/-- FADD (R103). -/
def encFadd (d a b : BitVec 5) (r : BitVec 3) (f : BitVec 4) : BitVec 32 := 0xc#6 ++ d ++ a ++ b ++ r ++ f ++ 0x0#4
/-- FSUB (R103). -/
def encFsub (d a b : BitVec 5) (r : BitVec 3) (f : BitVec 4) : BitVec 32 := 0xc#6 ++ d ++ a ++ b ++ r ++ f ++ 0x1#4
/-- FMUL (R103). -/
def encFmul (d a b : BitVec 5) (r : BitVec 3) (f : BitVec 4) : BitVec 32 := 0xc#6 ++ d ++ a ++ b ++ r ++ f ++ 0x2#4
/-- FDIV (R103). -/
def encFdiv (d a b : BitVec 5) (r : BitVec 3) (f : BitVec 4) : BitVec 32 := 0xc#6 ++ d ++ a ++ b ++ r ++ f ++ 0x3#4
/-- FSQRT (R103). -/
def encFsqrt (d a : BitVec 5) (r : BitVec 3) (f : BitVec 4) : BitVec 32 := 0xc#6 ++ d ++ a ++ 0x0#5 ++ r ++ f ++ 0x4#4
/-- FMIN (R104). -/
def encFmin (d a b : BitVec 5) (f : BitVec 4) : BitVec 32 := 0xc#6 ++ d ++ a ++ b ++ 0x0#3 ++ f ++ 0x5#4
/-- FMAX (R104). -/
def encFmax (d a b : BitVec 5) (f : BitVec 4) : BitVec 32 := 0xc#6 ++ d ++ a ++ b ++ 0x0#3 ++ f ++ 0x6#4
/-- FEQ (R105). -/
def encFeq (d a b : BitVec 5) (f : BitVec 4) : BitVec 32 := 0xc#6 ++ d ++ a ++ b ++ 0x0#3 ++ f ++ 0x7#4
/-- FLT (R105). -/
def encFlt (d a b : BitVec 5) (f : BitVec 4) : BitVec 32 := 0xc#6 ++ d ++ a ++ b ++ 0x0#3 ++ f ++ 0x8#4
/-- FLE (R105). -/
def encFle (d a b : BitVec 5) (f : BitVec 4) : BitVec 32 := 0xc#6 ++ d ++ a ++ b ++ 0x0#3 ++ f ++ 0x9#4
/-- FCLASS (R106). -/
def encFclass (d a : BitVec 5) (f : BitVec 4) : BitVec 32 := 0xc#6 ++ d ++ a ++ 0x0#8 ++ f ++ 0xa#4
/-- FCVT (R107). -/
def encFcvt (d a : BitVec 5) (s : BitVec 4) (r : BitVec 3) (f : BitVec 4) : BitVec 32 := 0xc#6 ++ d ++ a ++ 0x0#1 ++ s ++ r ++ f ++ 0xb#4
/-- FCVTI (R108). -/
def encFcvti (d a : BitVec 5) (k : BitVec 2) (r : BitVec 3) (f : BitVec 4) : BitVec 32 := 0xc#6 ++ d ++ a ++ 0x0#3 ++ k ++ r ++ f ++ 0xc#4
/-- ICVTF (R109). -/
def encIcvtf (d a : BitVec 5) (k : BitVec 2) (r : BitVec 3) (f : BitVec 4) : BitVec 32 := 0xc#6 ++ d ++ a ++ 0x0#3 ++ k ++ r ++ f ++ 0xd#4
/-- FMVX (R110). -/
def encFmvx (d a : BitVec 5) (f : BitVec 4) : BitVec 32 := 0xc#6 ++ d ++ a ++ 0x0#8 ++ f ++ 0xe#4
/-- FMVF (R110). -/
def encFmvf (d a : BitVec 5) (f : BitVec 4) : BitVec 32 := 0xc#6 ++ d ++ a ++ 0x0#8 ++ f ++ 0xf#4
/-- FMA (R112). -/
def encFma (d a b c : BitVec 5) (r : BitVec 3) (p : BitVec 1) : BitVec 32 := 0xd#6 ++ d ++ a ++ b ++ c ++ r ++ 0x0#2 ++ p
/-- FMS (R112). -/
def encFms (d a b c : BitVec 5) (r : BitVec 3) (p : BitVec 1) : BitVec 32 := 0xd#6 ++ d ++ a ++ b ++ c ++ r ++ 0x1#2 ++ p
/-- FNMA (R112). -/
def encFnma (d a b c : BitVec 5) (r : BitVec 3) (p : BitVec 1) : BitVec 32 := 0xd#6 ++ d ++ a ++ b ++ c ++ r ++ 0x2#2 ++ p
/-- FNMS (R112). -/
def encFnms (d a b c : BitVec 5) (r : BitVec 3) (p : BitVec 1) : BitVec 32 := 0xd#6 ++ d ++ a ++ b ++ c ++ r ++ 0x3#2 ++ p
/-- JAL (R113). -/
def encJal (o : BitVec 26) : BitVec 32 := 0xe#6 ++ o
/-- JALR (R114). -/
def encJalr (d a : BitVec 5) (i : BitVec 16) : BitVec 32 := 0xf#6 ++ d ++ a ++ i
/-- LB (R118). -/
def encLb (d a : BitVec 5) (i : BitVec 16) : BitVec 32 := 0x10#6 ++ d ++ a ++ i
/-- LBU (R118). -/
def encLbu (d a : BitVec 5) (i : BitVec 16) : BitVec 32 := 0x11#6 ++ d ++ a ++ i
/-- LH (R118). -/
def encLh (d a : BitVec 5) (i : BitVec 16) : BitVec 32 := 0x12#6 ++ d ++ a ++ i
/-- LHU (R118). -/
def encLhu (d a : BitVec 5) (i : BitVec 16) : BitVec 32 := 0x13#6 ++ d ++ a ++ i
/-- LW (R118). -/
def encLw (d a : BitVec 5) (i : BitVec 16) : BitVec 32 := 0x14#6 ++ d ++ a ++ i
/-- LWU (R118). -/
def encLwu (d a : BitVec 5) (i : BitVec 16) : BitVec 32 := 0x15#6 ++ d ++ a ++ i
/-- LD (R118). -/
def encLd (d a : BitVec 5) (i : BitVec 16) : BitVec 32 := 0x16#6 ++ d ++ a ++ i
/-- FLW (R118). -/
def encFlw (d a : BitVec 5) (i : BitVec 16) : BitVec 32 := 0x17#6 ++ d ++ a ++ i
/-- FLD (R118). -/
def encFld (d a : BitVec 5) (i : BitVec 16) : BitVec 32 := 0x18#6 ++ d ++ a ++ i
/-- SB (R118). -/
def encSb (s a : BitVec 5) (i : BitVec 16) : BitVec 32 := 0x19#6 ++ s ++ a ++ i
/-- SH (R118). -/
def encSh (s a : BitVec 5) (i : BitVec 16) : BitVec 32 := 0x1a#6 ++ s ++ a ++ i
/-- SW (R118). -/
def encSw (s a : BitVec 5) (i : BitVec 16) : BitVec 32 := 0x1b#6 ++ s ++ a ++ i
/-- SD (R118). -/
def encSd (s a : BitVec 5) (i : BitVec 16) : BitVec 32 := 0x1c#6 ++ s ++ a ++ i
/-- FSW (R118). -/
def encFsw (s a : BitVec 5) (i : BitVec 16) : BitVec 32 := 0x1d#6 ++ s ++ a ++ i
/-- FSD (R118). -/
def encFsd (s a : BitVec 5) (i : BitVec 16) : BitVec 32 := 0x1e#6 ++ s ++ a ++ i
/-- ECALL (R444). -/
def encEcall : BitVec 32 := 0x1f#6 ++ 0x0#26
/-- EBREAK (R444). -/
def encEbreak : BitVec 32 := 0x1f#6 ++ 0x1#26
/-- ERET (R445). -/
def encEret : BitVec 32 := 0x1f#6 ++ 0x2#26
/-- MOVS (R446). -/
def encMovs (d : BitVec 5) (n : BitVec 12) : BitVec 32 := 0x1f#6 ++ d ++ 0x0#5 ++ n ++ 0x3#4
/-- MOVSW (R446). -/
def encMovsw (a : BitVec 5) (n : BitVec 12) : BitVec 32 := 0x1f#6 ++ 0x0#5 ++ a ++ n ++ 0x4#4
/-- FENCE (R447). -/
def encFence (s : BitVec 3) : BitVec 32 := 0x1f#6 ++ 0x0#19 ++ s ++ 0x5#4
/-- FENCEI (R448). -/
def encFencei : BitVec 32 := 0x1f#6 ++ 0x6#26
/-- TLBINV (R450). -/
def encTlbinv (a b : BitVec 5) (t : BitVec 2) : BitVec 32 := 0x1f#6 ++ 0x0#5 ++ a ++ b ++ 0x0#5 ++ t ++ 0x7#4
/-- DGATE (R451). -/
def encDgate (a : BitVec 5) : BitVec 32 := 0x1f#6 ++ 0x0#5 ++ a ++ 0x8#16
/-- DRET (R453). -/
def encDret : BitVec 32 := 0x1f#6 ++ 0x9#26
/-- WFI (R454). -/
def encWfi : BitVec 32 := 0x1f#6 ++ 0xa#26
/-- CHKPT (R455). -/
def encChkpt : BitVec 32 := 0x1f#6 ++ 0xb#26
/-- VADD_V (R163). -/
def encVaddV (d a b : BitVec 5) (m : BitVec 3) (l : BitVec 1) : BitVec 32 := 0x20#6 ++ d ++ a ++ b ++ m ++ l ++ 0x0#7
/-- VADD_X (R163). -/
def encVaddX (d a b : BitVec 5) (m : BitVec 3) : BitVec 32 := 0x21#6 ++ d ++ a ++ b ++ m ++ 0x0#8
/-- VADD_I (R163). -/
def encVaddI (d a i : BitVec 5) (m : BitVec 3) : BitVec 32 := 0x22#6 ++ d ++ a ++ i ++ m ++ 0x0#8
/-- VSUB_V (R163). -/
def encVsubV (d a b : BitVec 5) (m : BitVec 3) (l : BitVec 1) : BitVec 32 := 0x20#6 ++ d ++ a ++ b ++ m ++ l ++ 0x1#7
/-- VSUB_X (R163). -/
def encVsubX (d a b : BitVec 5) (m : BitVec 3) : BitVec 32 := 0x21#6 ++ d ++ a ++ b ++ m ++ 0x1#8
/-- VSUB_I (R163). -/
def encVsubI (d a i : BitVec 5) (m : BitVec 3) : BitVec 32 := 0x22#6 ++ d ++ a ++ i ++ m ++ 0x1#8
/-- VRSUB_V (R163). -/
def encVrsubV (d a b : BitVec 5) (m : BitVec 3) (l : BitVec 1) : BitVec 32 := 0x20#6 ++ d ++ a ++ b ++ m ++ l ++ 0x2#7
/-- VRSUB_X (R163). -/
def encVrsubX (d a b : BitVec 5) (m : BitVec 3) : BitVec 32 := 0x21#6 ++ d ++ a ++ b ++ m ++ 0x2#8
/-- VRSUB_I (R163). -/
def encVrsubI (d a i : BitVec 5) (m : BitVec 3) : BitVec 32 := 0x22#6 ++ d ++ a ++ i ++ m ++ 0x2#8
/-- VMUL_V (R163). -/
def encVmulV (d a b : BitVec 5) (m : BitVec 3) (l : BitVec 1) : BitVec 32 := 0x20#6 ++ d ++ a ++ b ++ m ++ l ++ 0x3#7
/-- VMUL_X (R163). -/
def encVmulX (d a b : BitVec 5) (m : BitVec 3) : BitVec 32 := 0x21#6 ++ d ++ a ++ b ++ m ++ 0x3#8
/-- VMULH_V (R163). -/
def encVmulhV (d a b : BitVec 5) (m : BitVec 3) (l : BitVec 1) : BitVec 32 := 0x20#6 ++ d ++ a ++ b ++ m ++ l ++ 0x4#7
/-- VMULH_X (R163). -/
def encVmulhX (d a b : BitVec 5) (m : BitVec 3) : BitVec 32 := 0x21#6 ++ d ++ a ++ b ++ m ++ 0x4#8
/-- VMULHU_V (R163). -/
def encVmulhuV (d a b : BitVec 5) (m : BitVec 3) (l : BitVec 1) : BitVec 32 := 0x20#6 ++ d ++ a ++ b ++ m ++ l ++ 0x5#7
/-- VMULHU_X (R163). -/
def encVmulhuX (d a b : BitVec 5) (m : BitVec 3) : BitVec 32 := 0x21#6 ++ d ++ a ++ b ++ m ++ 0x5#8
/-- VDIV_V (R163). -/
def encVdivV (d a b : BitVec 5) (m : BitVec 3) (l : BitVec 1) : BitVec 32 := 0x20#6 ++ d ++ a ++ b ++ m ++ l ++ 0x6#7
/-- VDIV_X (R163). -/
def encVdivX (d a b : BitVec 5) (m : BitVec 3) : BitVec 32 := 0x21#6 ++ d ++ a ++ b ++ m ++ 0x6#8
/-- VDIVU_V (R163). -/
def encVdivuV (d a b : BitVec 5) (m : BitVec 3) (l : BitVec 1) : BitVec 32 := 0x20#6 ++ d ++ a ++ b ++ m ++ l ++ 0x7#7
/-- VDIVU_X (R163). -/
def encVdivuX (d a b : BitVec 5) (m : BitVec 3) : BitVec 32 := 0x21#6 ++ d ++ a ++ b ++ m ++ 0x7#8
/-- VREM_V (R163). -/
def encVremV (d a b : BitVec 5) (m : BitVec 3) (l : BitVec 1) : BitVec 32 := 0x20#6 ++ d ++ a ++ b ++ m ++ l ++ 0x8#7
/-- VREM_X (R163). -/
def encVremX (d a b : BitVec 5) (m : BitVec 3) : BitVec 32 := 0x21#6 ++ d ++ a ++ b ++ m ++ 0x8#8
/-- VREMU_V (R163). -/
def encVremuV (d a b : BitVec 5) (m : BitVec 3) (l : BitVec 1) : BitVec 32 := 0x20#6 ++ d ++ a ++ b ++ m ++ l ++ 0x9#7
/-- VREMU_X (R163). -/
def encVremuX (d a b : BitVec 5) (m : BitVec 3) : BitVec 32 := 0x21#6 ++ d ++ a ++ b ++ m ++ 0x9#8
/-- VMIN_V (R163). -/
def encVminV (d a b : BitVec 5) (m : BitVec 3) (l : BitVec 1) : BitVec 32 := 0x20#6 ++ d ++ a ++ b ++ m ++ l ++ 0xa#7
/-- VMIN_X (R163). -/
def encVminX (d a b : BitVec 5) (m : BitVec 3) : BitVec 32 := 0x21#6 ++ d ++ a ++ b ++ m ++ 0xa#8
/-- VMIN_I (R163). -/
def encVminI (d a i : BitVec 5) (m : BitVec 3) : BitVec 32 := 0x22#6 ++ d ++ a ++ i ++ m ++ 0xa#8
/-- VMAX_V (R163). -/
def encVmaxV (d a b : BitVec 5) (m : BitVec 3) (l : BitVec 1) : BitVec 32 := 0x20#6 ++ d ++ a ++ b ++ m ++ l ++ 0xb#7
/-- VMAX_X (R163). -/
def encVmaxX (d a b : BitVec 5) (m : BitVec 3) : BitVec 32 := 0x21#6 ++ d ++ a ++ b ++ m ++ 0xb#8
/-- VMAX_I (R163). -/
def encVmaxI (d a i : BitVec 5) (m : BitVec 3) : BitVec 32 := 0x22#6 ++ d ++ a ++ i ++ m ++ 0xb#8
/-- VMINU_V (R163). -/
def encVminuV (d a b : BitVec 5) (m : BitVec 3) (l : BitVec 1) : BitVec 32 := 0x20#6 ++ d ++ a ++ b ++ m ++ l ++ 0xc#7
/-- VMINU_X (R163). -/
def encVminuX (d a b : BitVec 5) (m : BitVec 3) : BitVec 32 := 0x21#6 ++ d ++ a ++ b ++ m ++ 0xc#8
/-- VMINU_I (R163). -/
def encVminuI (d a i : BitVec 5) (m : BitVec 3) : BitVec 32 := 0x22#6 ++ d ++ a ++ i ++ m ++ 0xc#8
/-- VMAXU_V (R163). -/
def encVmaxuV (d a b : BitVec 5) (m : BitVec 3) (l : BitVec 1) : BitVec 32 := 0x20#6 ++ d ++ a ++ b ++ m ++ l ++ 0xd#7
/-- VMAXU_X (R163). -/
def encVmaxuX (d a b : BitVec 5) (m : BitVec 3) : BitVec 32 := 0x21#6 ++ d ++ a ++ b ++ m ++ 0xd#8
/-- VMAXU_I (R163). -/
def encVmaxuI (d a i : BitVec 5) (m : BitVec 3) : BitVec 32 := 0x22#6 ++ d ++ a ++ i ++ m ++ 0xd#8
/-- VAND_V (R163). -/
def encVandV (d a b : BitVec 5) (m : BitVec 3) (l : BitVec 1) : BitVec 32 := 0x20#6 ++ d ++ a ++ b ++ m ++ l ++ 0xe#7
/-- VAND_X (R163). -/
def encVandX (d a b : BitVec 5) (m : BitVec 3) : BitVec 32 := 0x21#6 ++ d ++ a ++ b ++ m ++ 0xe#8
/-- VAND_I (R163). -/
def encVandI (d a i : BitVec 5) (m : BitVec 3) : BitVec 32 := 0x22#6 ++ d ++ a ++ i ++ m ++ 0xe#8
/-- VOR_V (R163). -/
def encVorV (d a b : BitVec 5) (m : BitVec 3) (l : BitVec 1) : BitVec 32 := 0x20#6 ++ d ++ a ++ b ++ m ++ l ++ 0xf#7
/-- VOR_X (R163). -/
def encVorX (d a b : BitVec 5) (m : BitVec 3) : BitVec 32 := 0x21#6 ++ d ++ a ++ b ++ m ++ 0xf#8
/-- VOR_I (R163). -/
def encVorI (d a i : BitVec 5) (m : BitVec 3) : BitVec 32 := 0x22#6 ++ d ++ a ++ i ++ m ++ 0xf#8
/-- VXOR_V (R163). -/
def encVxorV (d a b : BitVec 5) (m : BitVec 3) (l : BitVec 1) : BitVec 32 := 0x20#6 ++ d ++ a ++ b ++ m ++ l ++ 0x10#7
/-- VXOR_X (R163). -/
def encVxorX (d a b : BitVec 5) (m : BitVec 3) : BitVec 32 := 0x21#6 ++ d ++ a ++ b ++ m ++ 0x10#8
/-- VXOR_I (R163). -/
def encVxorI (d a i : BitVec 5) (m : BitVec 3) : BitVec 32 := 0x22#6 ++ d ++ a ++ i ++ m ++ 0x10#8
/-- VSLL_V (R163). -/
def encVsllV (d a b : BitVec 5) (m : BitVec 3) (l : BitVec 1) : BitVec 32 := 0x20#6 ++ d ++ a ++ b ++ m ++ l ++ 0x11#7
/-- VSLL_X (R163). -/
def encVsllX (d a b : BitVec 5) (m : BitVec 3) : BitVec 32 := 0x21#6 ++ d ++ a ++ b ++ m ++ 0x11#8
/-- VSLL_I (R163). -/
def encVsllI (d a i : BitVec 5) (m : BitVec 3) : BitVec 32 := 0x22#6 ++ d ++ a ++ i ++ m ++ 0x11#8
/-- VSRL_V (R163). -/
def encVsrlV (d a b : BitVec 5) (m : BitVec 3) (l : BitVec 1) : BitVec 32 := 0x20#6 ++ d ++ a ++ b ++ m ++ l ++ 0x12#7
/-- VSRL_X (R163). -/
def encVsrlX (d a b : BitVec 5) (m : BitVec 3) : BitVec 32 := 0x21#6 ++ d ++ a ++ b ++ m ++ 0x12#8
/-- VSRL_I (R163). -/
def encVsrlI (d a i : BitVec 5) (m : BitVec 3) : BitVec 32 := 0x22#6 ++ d ++ a ++ i ++ m ++ 0x12#8
/-- VSRA_V (R163). -/
def encVsraV (d a b : BitVec 5) (m : BitVec 3) (l : BitVec 1) : BitVec 32 := 0x20#6 ++ d ++ a ++ b ++ m ++ l ++ 0x13#7
/-- VSRA_X (R163). -/
def encVsraX (d a b : BitVec 5) (m : BitVec 3) : BitVec 32 := 0x21#6 ++ d ++ a ++ b ++ m ++ 0x13#8
/-- VSRA_I (R163). -/
def encVsraI (d a i : BitVec 5) (m : BitVec 3) : BitVec 32 := 0x22#6 ++ d ++ a ++ i ++ m ++ 0x13#8
/-- VSADD_V (R163). -/
def encVsaddV (d a b : BitVec 5) (m : BitVec 3) (l : BitVec 1) : BitVec 32 := 0x20#6 ++ d ++ a ++ b ++ m ++ l ++ 0x14#7
/-- VSADD_X (R163). -/
def encVsaddX (d a b : BitVec 5) (m : BitVec 3) : BitVec 32 := 0x21#6 ++ d ++ a ++ b ++ m ++ 0x14#8
/-- VSADD_I (R163). -/
def encVsaddI (d a i : BitVec 5) (m : BitVec 3) : BitVec 32 := 0x22#6 ++ d ++ a ++ i ++ m ++ 0x14#8
/-- VSSUB_V (R163). -/
def encVssubV (d a b : BitVec 5) (m : BitVec 3) (l : BitVec 1) : BitVec 32 := 0x20#6 ++ d ++ a ++ b ++ m ++ l ++ 0x15#7
/-- VSSUB_X (R163). -/
def encVssubX (d a b : BitVec 5) (m : BitVec 3) : BitVec 32 := 0x21#6 ++ d ++ a ++ b ++ m ++ 0x15#8
/-- VSSUB_I (R163). -/
def encVssubI (d a i : BitVec 5) (m : BitVec 3) : BitVec 32 := 0x22#6 ++ d ++ a ++ i ++ m ++ 0x15#8
/-- VWMUL_V (R167). -/
def encVwmulV (d a b : BitVec 5) (m : BitVec 3) (l : BitVec 1) : BitVec 32 := 0x20#6 ++ d ++ a ++ b ++ m ++ l ++ 0x16#7
/-- VWMUL_X (R167). -/
def encVwmulX (d a b : BitVec 5) (m : BitVec 3) : BitVec 32 := 0x21#6 ++ d ++ a ++ b ++ m ++ 0x16#8
/-- VWMACC_V (R167). -/
def encVwmaccV (d a b : BitVec 5) (m : BitVec 3) (l : BitVec 1) : BitVec 32 := 0x20#6 ++ d ++ a ++ b ++ m ++ l ++ 0x17#7
/-- VWMACC_X (R167). -/
def encVwmaccX (d a b : BitVec 5) (m : BitVec 3) : BitVec 32 := 0x21#6 ++ d ++ a ++ b ++ m ++ 0x17#8
/-- VWMACCU_V (R167). -/
def encVwmaccuV (d a b : BitVec 5) (m : BitVec 3) (l : BitVec 1) : BitVec 32 := 0x20#6 ++ d ++ a ++ b ++ m ++ l ++ 0x18#7
/-- VWMACCU_X (R167). -/
def encVwmaccuX (d a b : BitVec 5) (m : BitVec 3) : BitVec 32 := 0x21#6 ++ d ++ a ++ b ++ m ++ 0x18#8
/-- VWMACCSU_V (R167). -/
def encVwmaccsuV (d a b : BitVec 5) (m : BitVec 3) (l : BitVec 1) : BitVec 32 := 0x20#6 ++ d ++ a ++ b ++ m ++ l ++ 0x19#7
/-- VWMACCSU_X (R167). -/
def encVwmaccsuX (d a b : BitVec 5) (m : BitVec 3) : BitVec 32 := 0x21#6 ++ d ++ a ++ b ++ m ++ 0x19#8
/-- VNCLIP_V (R168). -/
def encVnclipV (d a b : BitVec 5) (m : BitVec 3) (l : BitVec 1) : BitVec 32 := 0x20#6 ++ d ++ a ++ b ++ m ++ l ++ 0x1a#7
/-- VNCLIP_X (R168). -/
def encVnclipX (d a b : BitVec 5) (m : BitVec 3) : BitVec 32 := 0x21#6 ++ d ++ a ++ b ++ m ++ 0x1a#8
/-- VNCLIP_I (R168). -/
def encVnclipI (d a i : BitVec 5) (m : BitVec 3) : BitVec 32 := 0x22#6 ++ d ++ a ++ i ++ m ++ 0x1a#8
/-- VFSHL_V (R165). -/
def encVfshlV (d a b : BitVec 5) (m : BitVec 3) (l : BitVec 1) : BitVec 32 := 0x20#6 ++ d ++ a ++ b ++ m ++ l ++ 0x1b#7
/-- VFSHL_X (R165). -/
def encVfshlX (d a b : BitVec 5) (m : BitVec 3) : BitVec 32 := 0x21#6 ++ d ++ a ++ b ++ m ++ 0x1b#8
/-- VFSHL_I (R165). -/
def encVfshlI (d a i : BitVec 5) (m : BitVec 3) : BitVec 32 := 0x22#6 ++ d ++ a ++ i ++ m ++ 0x1b#8
/-- VFSHR_V (R165). -/
def encVfshrV (d a b : BitVec 5) (m : BitVec 3) (l : BitVec 1) : BitVec 32 := 0x20#6 ++ d ++ a ++ b ++ m ++ l ++ 0x1c#7
/-- VFSHR_X (R165). -/
def encVfshrX (d a b : BitVec 5) (m : BitVec 3) : BitVec 32 := 0x21#6 ++ d ++ a ++ b ++ m ++ 0x1c#8
/-- VFSHR_I (R165). -/
def encVfshrI (d a i : BitVec 5) (m : BitVec 3) : BitVec 32 := 0x22#6 ++ d ++ a ++ i ++ m ++ 0x1c#8
/-- VMERGE_V (R164). -/
def encVmergeV (d a b : BitVec 5) (m : BitVec 3) (l : BitVec 1) : BitVec 32 := 0x20#6 ++ d ++ a ++ b ++ m ++ l ++ 0x1d#7
/-- VMERGE_X (R164). -/
def encVmergeX (d a b : BitVec 5) (m : BitVec 3) : BitVec 32 := 0x21#6 ++ d ++ a ++ b ++ m ++ 0x1d#8
/-- VMERGE_I (R164). -/
def encVmergeI (d a i : BitVec 5) (m : BitVec 3) : BitVec 32 := 0x22#6 ++ d ++ a ++ i ++ m ++ 0x1d#8
/-- VMOV_V (R163). -/
def encVmovV (d b : BitVec 5) (m : BitVec 3) (l : BitVec 1) : BitVec 32 := 0x20#6 ++ d ++ 0x0#5 ++ b ++ m ++ l ++ 0x1e#7
/-- VMOV_X (R163). -/
def encVmovX (d b : BitVec 5) (m : BitVec 3) : BitVec 32 := 0x21#6 ++ d ++ 0x0#5 ++ b ++ m ++ 0x1e#8
/-- VMOV_I (R163). -/
def encVmovI (d i : BitVec 5) (m : BitVec 3) : BitVec 32 := 0x22#6 ++ d ++ 0x0#5 ++ i ++ m ++ 0x1e#8
/-- VSEQ_V (R170). -/
def encVseqV (d a b : BitVec 5) (m : BitVec 3) (l : BitVec 1) : BitVec 32 := 0x20#6 ++ d ++ a ++ b ++ m ++ l ++ 0x20#7
/-- VSEQ_X (R170). -/
def encVseqX (d a b : BitVec 5) (m : BitVec 3) : BitVec 32 := 0x21#6 ++ d ++ a ++ b ++ m ++ 0x20#8
/-- VSEQ_I (R170). -/
def encVseqI (d a i : BitVec 5) (m : BitVec 3) : BitVec 32 := 0x22#6 ++ d ++ a ++ i ++ m ++ 0x20#8
/-- VSNE_V (R170). -/
def encVsneV (d a b : BitVec 5) (m : BitVec 3) (l : BitVec 1) : BitVec 32 := 0x20#6 ++ d ++ a ++ b ++ m ++ l ++ 0x21#7
/-- VSNE_X (R170). -/
def encVsneX (d a b : BitVec 5) (m : BitVec 3) : BitVec 32 := 0x21#6 ++ d ++ a ++ b ++ m ++ 0x21#8
/-- VSNE_I (R170). -/
def encVsneI (d a i : BitVec 5) (m : BitVec 3) : BitVec 32 := 0x22#6 ++ d ++ a ++ i ++ m ++ 0x21#8
/-- VSLT_V (R170). -/
def encVsltV (d a b : BitVec 5) (m : BitVec 3) (l : BitVec 1) : BitVec 32 := 0x20#6 ++ d ++ a ++ b ++ m ++ l ++ 0x22#7
/-- VSLT_X (R170). -/
def encVsltX (d a b : BitVec 5) (m : BitVec 3) : BitVec 32 := 0x21#6 ++ d ++ a ++ b ++ m ++ 0x22#8
/-- VSLT_I (R170). -/
def encVsltI (d a i : BitVec 5) (m : BitVec 3) : BitVec 32 := 0x22#6 ++ d ++ a ++ i ++ m ++ 0x22#8
/-- VSLTU_V (R170). -/
def encVsltuV (d a b : BitVec 5) (m : BitVec 3) (l : BitVec 1) : BitVec 32 := 0x20#6 ++ d ++ a ++ b ++ m ++ l ++ 0x23#7
/-- VSLTU_X (R170). -/
def encVsltuX (d a b : BitVec 5) (m : BitVec 3) : BitVec 32 := 0x21#6 ++ d ++ a ++ b ++ m ++ 0x23#8
/-- VSLTU_I (R170). -/
def encVsltuI (d a i : BitVec 5) (m : BitVec 3) : BitVec 32 := 0x22#6 ++ d ++ a ++ i ++ m ++ 0x23#8
/-- VSLE_V (R170). -/
def encVsleV (d a b : BitVec 5) (m : BitVec 3) (l : BitVec 1) : BitVec 32 := 0x20#6 ++ d ++ a ++ b ++ m ++ l ++ 0x24#7
/-- VSLE_X (R170). -/
def encVsleX (d a b : BitVec 5) (m : BitVec 3) : BitVec 32 := 0x21#6 ++ d ++ a ++ b ++ m ++ 0x24#8
/-- VSLE_I (R170). -/
def encVsleI (d a i : BitVec 5) (m : BitVec 3) : BitVec 32 := 0x22#6 ++ d ++ a ++ i ++ m ++ 0x24#8
/-- VSLEU_V (R170). -/
def encVsleuV (d a b : BitVec 5) (m : BitVec 3) (l : BitVec 1) : BitVec 32 := 0x20#6 ++ d ++ a ++ b ++ m ++ l ++ 0x25#7
/-- VSLEU_X (R170). -/
def encVsleuX (d a b : BitVec 5) (m : BitVec 3) : BitVec 32 := 0x21#6 ++ d ++ a ++ b ++ m ++ 0x25#8
/-- VSLEU_I (R170). -/
def encVsleuI (d a i : BitVec 5) (m : BitVec 3) : BitVec 32 := 0x22#6 ++ d ++ a ++ i ++ m ++ 0x25#8
/-- VSGT_V (R170). -/
def encVsgtV (d a b : BitVec 5) (m : BitVec 3) (l : BitVec 1) : BitVec 32 := 0x20#6 ++ d ++ a ++ b ++ m ++ l ++ 0x26#7
/-- VSGT_X (R170). -/
def encVsgtX (d a b : BitVec 5) (m : BitVec 3) : BitVec 32 := 0x21#6 ++ d ++ a ++ b ++ m ++ 0x26#8
/-- VSGT_I (R170). -/
def encVsgtI (d a i : BitVec 5) (m : BitVec 3) : BitVec 32 := 0x22#6 ++ d ++ a ++ i ++ m ++ 0x26#8
/-- VSGTU_V (R170). -/
def encVsgtuV (d a b : BitVec 5) (m : BitVec 3) (l : BitVec 1) : BitVec 32 := 0x20#6 ++ d ++ a ++ b ++ m ++ l ++ 0x27#7
/-- VSGTU_X (R170). -/
def encVsgtuX (d a b : BitVec 5) (m : BitVec 3) : BitVec 32 := 0x21#6 ++ d ++ a ++ b ++ m ++ 0x27#8
/-- VSGTU_I (R170). -/
def encVsgtuI (d a i : BitVec 5) (m : BitVec 3) : BitVec 32 := 0x22#6 ++ d ++ a ++ i ++ m ++ 0x27#8
/-- VPOPC (R163). -/
def encVpopc (d a : BitVec 5) (m : BitVec 3) : BitVec 32 := 0x20#6 ++ d ++ a ++ 0x0#5 ++ m ++ 0x28#8
/-- VCLZ (R163). -/
def encVclz (d a : BitVec 5) (m : BitVec 3) : BitVec 32 := 0x20#6 ++ d ++ a ++ 0x0#5 ++ m ++ 0x29#8
/-- VCONF (R171). -/
def encVconf (d a : BitVec 5) : BitVec 32 := 0x20#6 ++ d ++ a ++ 0x2a#16
/-- VREDSUM (R172). -/
def encVredsum (d a : BitVec 5) (m : BitVec 3) : BitVec 32 := 0x20#6 ++ d ++ a ++ 0x0#5 ++ m ++ 0x30#8
/-- VREDMAX (R172). -/
def encVredmax (d a : BitVec 5) (m : BitVec 3) : BitVec 32 := 0x20#6 ++ d ++ a ++ 0x0#5 ++ m ++ 0x31#8
/-- VREDMIN (R172). -/
def encVredmin (d a : BitVec 5) (m : BitVec 3) : BitVec 32 := 0x20#6 ++ d ++ a ++ 0x0#5 ++ m ++ 0x32#8
/-- VREDMAXU (R172). -/
def encVredmaxu (d a : BitVec 5) (m : BitVec 3) : BitVec 32 := 0x20#6 ++ d ++ a ++ 0x0#5 ++ m ++ 0x33#8
/-- VREDMINU (R172). -/
def encVredminu (d a : BitVec 5) (m : BitVec 3) : BitVec 32 := 0x20#6 ++ d ++ a ++ 0x0#5 ++ m ++ 0x34#8
/-- VREDAND (R172). -/
def encVredand (d a : BitVec 5) (m : BitVec 3) : BitVec 32 := 0x20#6 ++ d ++ a ++ 0x0#5 ++ m ++ 0x35#8
/-- VREDOR (R172). -/
def encVredor (d a : BitVec 5) (m : BitVec 3) : BitVec 32 := 0x20#6 ++ d ++ a ++ 0x0#5 ++ m ++ 0x36#8
/-- VREDXOR (R172). -/
def encVredxor (d a : BitVec 5) (m : BitVec 3) : BitVec 32 := 0x20#6 ++ d ++ a ++ 0x0#5 ++ m ++ 0x37#8
/-- VLUT3 (R166). -/
def encVlut3 (d a b : BitVec 5) (t : BitVec 3) (l : BitVec 1) (u : BitVec 5) : BitVec 32 := 0x20#6 ++ d ++ a ++ b ++ t ++ l ++ 0x3#2 ++ u
/-- VFADD_V (R174). -/
def encVfaddV (d a b : BitVec 5) (m : BitVec 3) (l : BitVec 1) : BitVec 32 := 0x23#6 ++ d ++ a ++ b ++ m ++ l ++ 0x0#7
/-- VFADD_F (R174). -/
def encVfaddF (d a b : BitVec 5) (m : BitVec 3) : BitVec 32 := 0x24#6 ++ d ++ a ++ b ++ m ++ 0x0#8
/-- VFSUB_V (R174). -/
def encVfsubV (d a b : BitVec 5) (m : BitVec 3) (l : BitVec 1) : BitVec 32 := 0x23#6 ++ d ++ a ++ b ++ m ++ l ++ 0x1#7
/-- VFSUB_F (R174). -/
def encVfsubF (d a b : BitVec 5) (m : BitVec 3) : BitVec 32 := 0x24#6 ++ d ++ a ++ b ++ m ++ 0x1#8
/-- VFMUL_V (R174). -/
def encVfmulV (d a b : BitVec 5) (m : BitVec 3) (l : BitVec 1) : BitVec 32 := 0x23#6 ++ d ++ a ++ b ++ m ++ l ++ 0x2#7
/-- VFMUL_F (R174). -/
def encVfmulF (d a b : BitVec 5) (m : BitVec 3) : BitVec 32 := 0x24#6 ++ d ++ a ++ b ++ m ++ 0x2#8
/-- VFDIV_V (R174). -/
def encVfdivV (d a b : BitVec 5) (m : BitVec 3) (l : BitVec 1) : BitVec 32 := 0x23#6 ++ d ++ a ++ b ++ m ++ l ++ 0x3#7
/-- VFDIV_F (R174). -/
def encVfdivF (d a b : BitVec 5) (m : BitVec 3) : BitVec 32 := 0x24#6 ++ d ++ a ++ b ++ m ++ 0x3#8
/-- VFSQRT (R174). -/
def encVfsqrt (d a : BitVec 5) (m : BitVec 3) : BitVec 32 := 0x23#6 ++ d ++ a ++ 0x0#5 ++ m ++ 0x4#8
/-- VFMA_V (R174). -/
def encVfmaV (d a b : BitVec 5) (m : BitVec 3) (l : BitVec 1) : BitVec 32 := 0x23#6 ++ d ++ a ++ b ++ m ++ l ++ 0x5#7
/-- VFMA_F (R174). -/
def encVfmaF (d a b : BitVec 5) (m : BitVec 3) : BitVec 32 := 0x24#6 ++ d ++ a ++ b ++ m ++ 0x5#8
/-- VFNMA_V (R174). -/
def encVfnmaV (d a b : BitVec 5) (m : BitVec 3) (l : BitVec 1) : BitVec 32 := 0x23#6 ++ d ++ a ++ b ++ m ++ l ++ 0x6#7
/-- VFNMA_F (R174). -/
def encVfnmaF (d a b : BitVec 5) (m : BitVec 3) : BitVec 32 := 0x24#6 ++ d ++ a ++ b ++ m ++ 0x6#8
/-- VFMIN_V (R174). -/
def encVfminV (d a b : BitVec 5) (m : BitVec 3) (l : BitVec 1) : BitVec 32 := 0x23#6 ++ d ++ a ++ b ++ m ++ l ++ 0x7#7
/-- VFMIN_F (R174). -/
def encVfminF (d a b : BitVec 5) (m : BitVec 3) : BitVec 32 := 0x24#6 ++ d ++ a ++ b ++ m ++ 0x7#8
/-- VFMAX_V (R174). -/
def encVfmaxV (d a b : BitVec 5) (m : BitVec 3) (l : BitVec 1) : BitVec 32 := 0x23#6 ++ d ++ a ++ b ++ m ++ l ++ 0x8#7
/-- VFMAX_F (R174). -/
def encVfmaxF (d a b : BitVec 5) (m : BitVec 3) : BitVec 32 := 0x24#6 ++ d ++ a ++ b ++ m ++ 0x8#8
/-- VFEQ_V (R174). -/
def encVfeqV (d a b : BitVec 5) (m : BitVec 3) (l : BitVec 1) : BitVec 32 := 0x23#6 ++ d ++ a ++ b ++ m ++ l ++ 0x10#7
/-- VFEQ_F (R174). -/
def encVfeqF (d a b : BitVec 5) (m : BitVec 3) : BitVec 32 := 0x24#6 ++ d ++ a ++ b ++ m ++ 0x10#8
/-- VFLT_V (R174). -/
def encVfltV (d a b : BitVec 5) (m : BitVec 3) (l : BitVec 1) : BitVec 32 := 0x23#6 ++ d ++ a ++ b ++ m ++ l ++ 0x11#7
/-- VFLT_F (R174). -/
def encVfltF (d a b : BitVec 5) (m : BitVec 3) : BitVec 32 := 0x24#6 ++ d ++ a ++ b ++ m ++ 0x11#8
/-- VFLE_V (R174). -/
def encVfleV (d a b : BitVec 5) (m : BitVec 3) (l : BitVec 1) : BitVec 32 := 0x23#6 ++ d ++ a ++ b ++ m ++ l ++ 0x12#7
/-- VFLE_F (R174). -/
def encVfleF (d a b : BitVec 5) (m : BitVec 3) : BitVec 32 := 0x24#6 ++ d ++ a ++ b ++ m ++ 0x12#8
/-- VFGT_V (R174). -/
def encVfgtV (d a b : BitVec 5) (m : BitVec 3) (l : BitVec 1) : BitVec 32 := 0x23#6 ++ d ++ a ++ b ++ m ++ l ++ 0x13#7
/-- VFGT_F (R174). -/
def encVfgtF (d a b : BitVec 5) (m : BitVec 3) : BitVec 32 := 0x24#6 ++ d ++ a ++ b ++ m ++ 0x13#8
/-- VFGE_V (R174). -/
def encVfgeV (d a b : BitVec 5) (m : BitVec 3) (l : BitVec 1) : BitVec 32 := 0x23#6 ++ d ++ a ++ b ++ m ++ l ++ 0x14#7
/-- VFGE_F (R174). -/
def encVfgeF (d a b : BitVec 5) (m : BitVec 3) : BitVec 32 := 0x24#6 ++ d ++ a ++ b ++ m ++ 0x14#8
/-- VFCVT (R177). -/
def encVfcvt (d a c : BitVec 5) (m : BitVec 3) : BitVec 32 := 0x23#6 ++ d ++ a ++ c ++ m ++ 0x18#8
/-- VFPACK (R177). -/
def encVfpack (d a c : BitVec 5) (m : BitVec 3) : BitVec 32 := 0x23#6 ++ d ++ a ++ c ++ m ++ 0x19#8
/-- VFUNPACK (R177). -/
def encVfunpack (d a c : BitVec 5) (m : BitVec 3) : BitVec 32 := 0x23#6 ++ d ++ a ++ c ++ m ++ 0x1a#8
/-- VFCVTI (R177). -/
def encVfcvti (d a c : BitVec 5) (m : BitVec 3) : BitVec 32 := 0x23#6 ++ d ++ a ++ c ++ m ++ 0x1b#8
/-- VICVTF (R177). -/
def encVicvtf (d a c : BitVec 5) (m : BitVec 3) : BitVec 32 := 0x23#6 ++ d ++ a ++ c ++ m ++ 0x1c#8
/-- VFREDSUM (R174). -/
def encVfredsum (d a : BitVec 5) (m : BitVec 3) : BitVec 32 := 0x23#6 ++ d ++ a ++ 0x0#5 ++ m ++ 0x20#8
/-- VFREDMAX (R174). -/
def encVfredmax (d a : BitVec 5) (m : BitVec 3) : BitVec 32 := 0x23#6 ++ d ++ a ++ 0x0#5 ++ m ++ 0x21#8
/-- VFEXP2 (R61). -/
def encVfexp2 (d a : BitVec 5) (m : BitVec 3) : BitVec 32 := 0x23#6 ++ d ++ a ++ 0x0#5 ++ m ++ 0x28#8
/-- VFLOG2 (R61). -/
def encVflog2 (d a : BitVec 5) (m : BitVec 3) : BitVec 32 := 0x23#6 ++ d ++ a ++ 0x0#5 ++ m ++ 0x29#8
/-- VFRCP (R61). -/
def encVfrcp (d a : BitVec 5) (m : BitVec 3) : BitVec 32 := 0x23#6 ++ d ++ a ++ 0x0#5 ++ m ++ 0x2a#8
/-- VFRSQ (R61). -/
def encVfrsq (d a : BitVec 5) (m : BitVec 3) : BitVec 32 := 0x23#6 ++ d ++ a ++ 0x0#5 ++ m ++ 0x2b#8
/-- MAND (R202). -/
def encMand (d a b : BitVec 5) : BitVec 32 := 0x25#6 ++ d ++ a ++ b ++ 0x0#11
/-- MOR (R202). -/
def encMor (d a b : BitVec 5) : BitVec 32 := 0x25#6 ++ d ++ a ++ b ++ 0x1#11
/-- MXOR (R202). -/
def encMxor (d a b : BitVec 5) : BitVec 32 := 0x25#6 ++ d ++ a ++ b ++ 0x2#11
/-- MNOT (R202). -/
def encMnot (d a : BitVec 5) : BitVec 32 := 0x25#6 ++ d ++ a ++ 0x3#16
/-- MPOPC (R203). -/
def encMpopc (d a : BitVec 5) : BitVec 32 := 0x25#6 ++ d ++ a ++ 0x4#16
/-- MFIRST (R203). -/
def encMfirst (d a : BitVec 5) : BitVec 32 := 0x25#6 ++ d ++ a ++ 0x5#16
/-- IOTA (R204). -/
def encIota (d a : BitVec 5) : BitVec 32 := 0x25#6 ++ d ++ a ++ 0x6#16
/-- VID (R204). -/
def encVid (d : BitVec 5) : BitVec 32 := 0x25#6 ++ d ++ 0x7#21
/-- SLIDEUP_X (R205). -/
def encSlideupX (d a b : BitVec 5) (m : BitVec 3) : BitVec 32 := 0x25#6 ++ d ++ a ++ b ++ m ++ 0x8#8
/-- SLIDEDN_X (R205). -/
def encSlidednX (d a b : BitVec 5) (m : BitVec 3) : BitVec 32 := 0x25#6 ++ d ++ a ++ b ++ m ++ 0x9#8
/-- SLIDEUP_I (R205). -/
def encSlideupI (d a i : BitVec 5) (m : BitVec 3) : BitVec 32 := 0x25#6 ++ d ++ a ++ i ++ m ++ 0xa#8
/-- SLIDEDN_I (R205). -/
def encSlidednI (d a i : BitVec 5) (m : BitVec 3) : BitVec 32 := 0x25#6 ++ d ++ a ++ i ++ m ++ 0xb#8
/-- VGATHER (R206). -/
def encVgather (d a b : BitVec 5) (m : BitVec 3) (l : BitVec 1) : BitVec 32 := 0x25#6 ++ d ++ a ++ b ++ m ++ l ++ 0xc#7
/-- COMPRESS (R207). -/
def encCompress (d a : BitVec 5) (m : BitVec 3) : BitVec 32 := 0x25#6 ++ d ++ a ++ 0x0#5 ++ m ++ 0xd#8
/-- EXPAND (R207). -/
def encExpand (d a : BitVec 5) (m : BitVec 3) : BitVec 32 := 0x25#6 ++ d ++ a ++ 0x0#5 ++ m ++ 0xe#8
/-- ROWBC_X (R208). -/
def encRowbcX (d a b : BitVec 5) (m : BitVec 3) : BitVec 32 := 0x25#6 ++ d ++ a ++ b ++ m ++ 0xf#8
/-- ROWROT_X (R208). -/
def encRowrotX (d a b : BitVec 5) (m : BitVec 3) : BitVec 32 := 0x25#6 ++ d ++ a ++ b ++ m ++ 0x10#8
/-- ROWBC_I (R208). -/
def encRowbcI (d a : BitVec 5) (i m : BitVec 3) : BitVec 32 := 0x25#6 ++ d ++ a ++ 0x0#2 ++ i ++ m ++ 0x11#8
/-- ROWROT_I (R208). -/
def encRowrotI (d a : BitVec 5) (i m : BitVec 3) : BitVec 32 := 0x25#6 ++ d ++ a ++ 0x0#2 ++ i ++ m ++ 0x12#8
/-- VMVX (R209). -/
def encVmvx (d a b : BitVec 5) : BitVec 32 := 0x25#6 ++ d ++ a ++ b ++ 0x13#11
/-- VMVS (R209). -/
def encVmvs (d a b : BitVec 5) : BitVec 32 := 0x25#6 ++ d ++ a ++ b ++ 0x14#11
/-- VLD (R186). -/
def encVld (d a : BitVec 5) (m : BitVec 3) : BitVec 32 := 0x26#6 ++ d ++ a ++ 0x0#5 ++ m ++ 0x0#8
/-- VLDS (R186). -/
def encVlds (d a b : BitVec 5) (m : BitVec 3) : BitVec 32 := 0x26#6 ++ d ++ a ++ b ++ m ++ 0x1#8
/-- VLD2 (R186). -/
def encVld2 (d a b : BitVec 5) (m : BitVec 3) : BitVec 32 := 0x26#6 ++ d ++ a ++ b ++ m ++ 0x2#8
/-- VLDX (R186). -/
def encVldx (d a b : BitVec 5) (m : BitVec 3) : BitVec 32 := 0x26#6 ++ d ++ a ++ b ++ m ++ 0x3#8
/-- VLDL (R192). -/
def encVldl (d a b : BitVec 5) (m : BitVec 3) : BitVec 32 := 0x26#6 ++ d ++ a ++ b ++ m ++ 0x4#8
/-- VLDR (R194). -/
def encVldr (d b : BitVec 5) (m f : BitVec 3) : BitVec 32 := 0x26#6 ++ d ++ 0x0#5 ++ b ++ m ++ 0x0#1 ++ f ++ 0x5#4
/-- VREST (R199). -/
def encVrest (a : BitVec 5) : BitVec 32 := 0x26#6 ++ 0x0#5 ++ a ++ 0x8#16
/-- VST (R186). -/
def encVst (d a : BitVec 5) (m : BitVec 3) : BitVec 32 := 0x27#6 ++ d ++ a ++ 0x0#5 ++ m ++ 0x0#8
/-- VSTS (R186). -/
def encVsts (d a b : BitVec 5) (m : BitVec 3) : BitVec 32 := 0x27#6 ++ d ++ a ++ b ++ m ++ 0x1#8
/-- VST2 (R186). -/
def encVst2 (d a b : BitVec 5) (m : BitVec 3) : BitVec 32 := 0x27#6 ++ d ++ a ++ b ++ m ++ 0x2#8
/-- VSTX (R186). -/
def encVstx (d a b : BitVec 5) (m : BitVec 3) : BitVec 32 := 0x27#6 ++ d ++ a ++ b ++ m ++ 0x3#8
/-- VSTL (R192). -/
def encVstl (d a b : BitVec 5) (m : BitVec 3) : BitVec 32 := 0x27#6 ++ d ++ a ++ b ++ m ++ 0x4#8
/-- VSTR (R194). -/
def encVstr (d b : BitVec 5) (m f : BitVec 3) : BitVec 32 := 0x27#6 ++ d ++ 0x0#5 ++ b ++ m ++ 0x0#1 ++ f ++ 0x5#4
/-- VSAADD (R195). -/
def encVsaadd (d a b : BitVec 5) (m : BitVec 3) : BitVec 32 := 0x27#6 ++ d ++ a ++ b ++ m ++ 0x6#8
/-- VSAMAX (R195). -/
def encVsamax (d a b : BitVec 5) (m : BitVec 3) : BitVec 32 := 0x27#6 ++ d ++ a ++ b ++ m ++ 0x7#8
/-- VSAVE (R198). -/
def encVsave (a : BitVec 5) : BitVec 32 := 0x27#6 ++ 0x0#5 ++ a ++ 0x8#16
/-- VSHAPE (R141). -/
def encVshape (d a b : BitVec 5) : BitVec 32 := 0x28#6 ++ d ++ a ++ b ++ 0x0#11
/-- VFORM (R144). -/
def encVform (d a : BitVec 5) : BitVec 32 := 0x28#6 ++ d ++ a ++ 0x1#16
/-- VSPLIT (R149). -/
def encVsplit (n : BitVec 2) : BitVec 32 := 0x28#6 ++ 0x0#20 ++ n ++ 0x2#4
/-- VJOIN (R150). -/
def encVjoin : BitVec 32 := 0x28#6 ++ 0x3#26
/-- VRDSHAPE (R147). -/
def encVrdshape (d : BitVec 5) : BitVec 32 := 0x28#6 ++ d ++ 0x4#21
/-- MSHAPE (R222). -/
def encMshape (p : BitVec 5) (r : BitVec 3) : BitVec 32 := 0x29#6 ++ p ++ 0x0#7 ++ r ++ 0x0#11
/-- MZERO (R223). -/
def encMzero (n : BitVec 2) : BitVec 32 := 0x29#6 ++ 0x0#15 ++ n ++ 0x1#9
/-- MLDS (R225). -/
def encMlds (p q : BitVec 5) (f : BitVec 4) : BitVec 32 := 0x29#6 ++ p ++ q ++ 0x0#7 ++ f ++ 0x2#5
/-- MSWAP (R224). -/
def encMswap : BitVec 32 := 0x29#6 ++ 0x3#26
/-- MOP (R227). -/
def encMop (p q : BitVec 5) (n : BitVec 2) (f : BitVec 4) : BitVec 32 := 0x29#6 ++ p ++ q ++ 0x0#5 ++ n ++ f ++ 0x4#5
/-- MOPS (R227). -/
def encMops (p q : BitVec 5) (n : BitVec 2) (f : BitVec 4) : BitVec 32 := 0x29#6 ++ p ++ q ++ 0x0#5 ++ n ++ f ++ 0x5#5
/-- MRD (R230). -/
def encMrd (p q : BitVec 5) (n : BitVec 2) : BitVec 32 := 0x29#6 ++ p ++ q ++ 0x0#5 ++ n ++ 0x6#9
/-- MWR (R231). -/
def encMwr (p q : BitVec 5) (n : BitVec 2) : BitVec 32 := 0x29#6 ++ p ++ q ++ 0x0#5 ++ n ++ 0x7#9
/-- MCVT (R229). -/
def encMcvt (r : BitVec 3) (n : BitVec 2) (f : BitVec 4) : BitVec 32 := 0x29#6 ++ 0x0#12 ++ r ++ n ++ f ++ 0x8#5
/-- MOPX (R227). -/
def encMopx (p q s : BitVec 5) (n : BitVec 2) (f : BitVec 4) : BitVec 32 := 0x29#6 ++ p ++ q ++ s ++ n ++ f ++ 0x9#5
/-- MOPSX (R227). -/
def encMopsx (p q s : BitVec 5) (n : BitVec 2) (f : BitVec 4) : BitVec 32 := 0x29#6 ++ p ++ q ++ s ++ n ++ f ++ 0xa#5
/-- SDECL (R250). -/
def encSdecl (s a : BitVec 5) : BitVec 32 := 0x2a#6 ++ s ++ a ++ 0x0#16
/-- SBIND (R251). -/
def encSbind (d s : BitVec 5) : BitVec 32 := 0x2a#6 ++ d ++ 0x0#5 ++ s ++ 0x1#11
/-- SUNBIND (R251). -/
def encSunbind (d : BitVec 5) : BitVec 32 := 0x2a#6 ++ d ++ 0x2#21
/-- SSTAT (R256). -/
def encSstat (d s : BitVec 5) : BitVec 32 := 0x2a#6 ++ d ++ 0x0#5 ++ s ++ 0x3#11
/-- PALLOC (R248). -/
def encPalloc (d a b : BitVec 5) : BitVec 32 := 0x2a#6 ++ d ++ a ++ b ++ 0x4#11
/-- PSTATE (R249). -/
def encPstate (d a : BitVec 5) : BitVec 32 := 0x2a#6 ++ d ++ a ++ 0x5#16
/-- PFREE (R249). -/
def encPfree (a : BitVec 5) : BitVec 32 := 0x2a#6 ++ 0x0#5 ++ a ++ 0x6#16
/-- LXCOPY (R258). -/
def encLxcopy (d a : BitVec 5) (s : BitVec 3) (c e : BitVec 1) : BitVec 32 := 0x2a#6 ++ d ++ a ++ 0x0#5 ++ s ++ c ++ e ++ 0x7#6
/-- LXGATH (R258). -/
def encLxgath (d a : BitVec 5) (s : BitVec 3) (c e : BitVec 1) : BitVec 32 := 0x2a#6 ++ d ++ a ++ 0x0#5 ++ s ++ c ++ e ++ 0x8#6
/-- LXSCAT (R258). -/
def encLxscat (d a : BitVec 5) (s : BitVec 3) (c e : BitVec 1) : BitVec 32 := 0x2a#6 ++ d ++ a ++ 0x0#5 ++ s ++ c ++ e ++ 0x9#6
/-- LXPOLL (R263). -/
def encLxpoll (d a : BitVec 5) : BitVec 32 := 0x2a#6 ++ d ++ a ++ 0xa#16
/-- SEAL (R264). -/
def encSeal (a : BitVec 5) : BitVec 32 := 0x2a#6 ++ 0x0#5 ++ a ++ 0xb#16
/-- UNSEAL (R266). -/
def encUnseal (a : BitVec 5) : BitVec 32 := 0x2a#6 ++ 0x0#5 ++ a ++ 0xc#16
/-- RELB (R266). -/
def encRelb (a : BitVec 5) : BitVec 32 := 0x2a#6 ++ 0x0#5 ++ a ++ 0xd#16
/-- RSPAWN (R268). -/
def encRspawn (a b : BitVec 5) : BitVec 32 := 0x2b#6 ++ 0x0#5 ++ a ++ b ++ 0x0#11
/-- DQPUSH (R270). -/
def encDqpush (a b : BitVec 5) : BitVec 32 := 0x2b#6 ++ 0x0#5 ++ a ++ b ++ 0x1#11
/-- DQPOP (R271). -/
def encDqpop (d : BitVec 5) : BitVec 32 := 0x2b#6 ++ d ++ 0x2#21
/-- JOINDEC (R273). -/
def encJoindec (d a : BitVec 5) : BitVec 32 := 0x2b#6 ++ d ++ a ++ 0x3#16
/-- GNEW (R274). -/
def encGnew (d a : BitVec 5) : BitVec 32 := 0x2b#6 ++ d ++ a ++ 0x4#16
/-- GADD (R275). -/
def encGadd (a b : BitVec 5) : BitVec 32 := 0x2b#6 ++ 0x0#5 ++ a ++ b ++ 0x5#11
/-- GSTOP (R276). -/
def encGstop (a : BitVec 5) : BitVec 32 := 0x2b#6 ++ 0x0#5 ++ a ++ 0x6#16
/-- GRESUME (R276). -/
def encGresume (a : BitVec 5) : BitVec 32 := 0x2b#6 ++ 0x0#5 ++ a ++ 0x7#16
/-- GBAR (R277). -/
def encGbar : BitVec 32 := 0x2b#6 ++ 0x8#26
/-- GCAST (R278). -/
def encGcast (a b : BitVec 5) : BitVec 32 := 0x2b#6 ++ 0x0#5 ++ a ++ b ++ 0x9#11
/-- MSEND (R279). -/
def encMsend (a b : BitVec 5) (k : BitVec 2) : BitVec 32 := 0x2b#6 ++ 0x0#5 ++ a ++ b ++ 0x0#5 ++ k ++ 0xa#4
/-- MRECV (R281). -/
def encMrecv (d a : BitVec 5) : BitVec 32 := 0x2b#6 ++ d ++ a ++ 0xb#16
/-- WAITM (R282). -/
def encWaitm : BitVec 32 := 0x2b#6 ++ 0xc#26
/-- WAITT (R283). -/
def encWaitt (a : BitVec 5) : BitVec 32 := 0x2b#6 ++ 0x0#5 ++ a ++ 0xd#16
/-- TIMEQ (R284). -/
def encTimeq (d : BitVec 5) : BitVec 32 := 0x2b#6 ++ d ++ 0xe#21
/-- AMOSWAP (R126). -/
def encAmoswap (d a b : BitVec 5) (s o : BitVec 3) (w : BitVec 1) : BitVec 32 := 0x2c#6 ++ d ++ a ++ b ++ s ++ o ++ 0x0#4 ++ w
/-- AMOADD (R126). -/
def encAmoadd (d a b : BitVec 5) (s o : BitVec 3) (w : BitVec 1) : BitVec 32 := 0x2c#6 ++ d ++ a ++ b ++ s ++ o ++ 0x1#4 ++ w
/-- AMOAND (R126). -/
def encAmoand (d a b : BitVec 5) (s o : BitVec 3) (w : BitVec 1) : BitVec 32 := 0x2c#6 ++ d ++ a ++ b ++ s ++ o ++ 0x2#4 ++ w
/-- AMOOR (R126). -/
def encAmoor (d a b : BitVec 5) (s o : BitVec 3) (w : BitVec 1) : BitVec 32 := 0x2c#6 ++ d ++ a ++ b ++ s ++ o ++ 0x3#4 ++ w
/-- AMOXOR (R126). -/
def encAmoxor (d a b : BitVec 5) (s o : BitVec 3) (w : BitVec 1) : BitVec 32 := 0x2c#6 ++ d ++ a ++ b ++ s ++ o ++ 0x4#4 ++ w
/-- AMOMIN (R126). -/
def encAmomin (d a b : BitVec 5) (s o : BitVec 3) (w : BitVec 1) : BitVec 32 := 0x2c#6 ++ d ++ a ++ b ++ s ++ o ++ 0x5#4 ++ w
/-- AMOMAX (R126). -/
def encAmomax (d a b : BitVec 5) (s o : BitVec 3) (w : BitVec 1) : BitVec 32 := 0x2c#6 ++ d ++ a ++ b ++ s ++ o ++ 0x6#4 ++ w
/-- AMOCAS (R126). -/
def encAmocas (d a b : BitVec 5) (s o : BitVec 3) (w : BitVec 1) : BitVec 32 := 0x2c#6 ++ d ++ a ++ b ++ s ++ o ++ 0x7#4 ++ w
/-- LDL (R129). -/
def encLdl (d a : BitVec 5) (s o : BitVec 3) (w : BitVec 1) : BitVec 32 := 0x2c#6 ++ d ++ a ++ 0x0#5 ++ s ++ o ++ 0x8#4 ++ w
/-- STC (R130). -/
def encStc (d a b : BitVec 5) (s o : BitVec 3) (w : BitVec 1) : BitVec 32 := 0x2c#6 ++ d ++ a ++ b ++ s ++ o ++ 0x9#4 ++ w
/-- VFORMI (R145). -/
def encVformi (d : BitVec 5) (v : BitVec 14) : BitVec 32 := 0x2d#6 ++ d ++ 0x0#7 ++ v
/-- BEQ (R115). -/
def encBeq (a b : BitVec 5) (o : BitVec 16) : BitVec 32 := 0x30#6 ++ a ++ b ++ o
/-- BNE (R115). -/
def encBne (a b : BitVec 5) (o : BitVec 16) : BitVec 32 := 0x31#6 ++ a ++ b ++ o
/-- BLT (R115). -/
def encBlt (a b : BitVec 5) (o : BitVec 16) : BitVec 32 := 0x32#6 ++ a ++ b ++ o
/-- BGE (R115). -/
def encBge (a b : BitVec 5) (o : BitVec 16) : BitVec 32 := 0x33#6 ++ a ++ b ++ o
/-- BLTU (R115). -/
def encBltu (a b : BitVec 5) (o : BitVec 16) : BitVec 32 := 0x34#6 ++ a ++ b ++ o
/-- BGEU (R115). -/
def encBgeu (a b : BitVec 5) (o : BitVec 16) : BitVec 32 := 0x35#6 ++ a ++ b ++ o
/-- PFX (R457). -/
def encPfx (k : BitVec 2) (r : BitVec 5) (n : BitVec 1) (c : BitVec 5) (v : BitVec 1) (o s : BitVec 3) : BitVec 32 := 0x3f#6 ++ k ++ r ++ n ++ c ++ v ++ o ++ s ++ 0x0#6

/-- The word of an instruction, from the encoding tables of spec/03; an event has no word and gives the all-zero word,
which is no instruction (R68). -/
def encode : Instr → BitVec 32
  | .asyncTrapTaken => 0#32
  | .slotctlStart _ => 0#32
  | .shapeWrite _ => 0#32
  | .fstatWrite _ => 0#32
  | .mstatClear _ => 0#32
  | .mownSave _ => 0#32
  | .mownLoad _ => 0#32
  | .mownZero _ => 0#32
  | .dpbankWrite _ => 0#32
  | .leaseLengthWrite _ _ => 0#32
  | .detmodeWrite _ => 0#32
  | .rankEntryWrite _ => 0#32
  | .inboxRegisterWrite _ => 0#32
  | .worldTableWrite _ => 0#32
  | .fctlWrite _ _ _ => 0#32
  | .dbtgtWrite _ _ _ => 0#32
  | .lqheadWrite _ _ _ => 0#32
  | .hintWrite _ _ _ => 0#32
  | .codeRangeEnable _ _ _ _ => 0#32
  | .codeRangeDisable _ _ _ _ => 0#32
  | .fcbRegisterWrite _ _ _ _ => 0#32
  | .memoryReply _ _ _ => 0#32
  | .postedStoreDrain _ => 0#32
  | .icacheFill _ _ _ => 0#32
  | .pageWalk _ _ _ _ => 0#32
  | .vectorCheckPhaseEnd _ => 0#32
  | .vectorSweepStart _ => 0#32
  | .vectorRowArrival _ _ => 0#32
  | .vectorSweepComplete _ => 0#32
  | .matrixEntryStart _ => 0#32
  | .matrixEntryComplete _ _ _ => 0#32
  | .gustPrefetch _ _ => 0#32
  | .jobSchedule _ _ => 0#32
  | .jobBlockEnd _ _ => 0#32
  | .jobFaultEnd _ _ => 0#32
  | .jobComplete _ _ => 0#32
  | .levanterRound _ _ => 0#32
  | .gcastCopyLanded _ _ => 0#32
  | .sealCountDrained _ _ => 0#32
  | .spawnRequestArrival _ _ _ => 0#32
  | .stealRequest _ _ => 0#32
  | .gbarArrivalSignal _ _ => 0#32
  | .gbarGenerationComplete _ => 0#32
  | .gangStopComplete _ => 0#32
  | .msendAccept _ _ => 0#32
  | .dataDelivery _ _ => 0#32
  | .spawnDelivery _ _ => 0#32
  | .wakeDelivery _ _ => 0#32
  | .regwDelivery _ _ => 0#32
  | .inboxRecordWrite _ _ _ => 0#32
  | .waittExpiry _ => 0#32
  | .wfiWake _ => 0#32
  | .waitResumption _ => 0#32
  | .homeMiss _ _ => 0#32
  | .homeWritePerform _ => 0#32
  | .leaseExpiry _ _ => 0#32
  | .writeCombineFlush _ _ => 0#32
  | .tokenBucketRefill _ => 0#32
  | .ptpTimestampExchange _ => 0#32
  | .hostDoorbellWrite _ _ _ _ => 0#32
  | .doorbellMessageSend _ _ => 0#32
  | .inboundRead _ _ _ _ _ _ => 0#32
  | .inboundWrite _ _ _ _ _ _ => 0#32
  | .outboundCompletion _ _ _ => 0#32
  | .peerReadTimeout _ => 0#32
  | .hostMsixUnmask _ _ _ _ _ => 0#32
  | .tdispRequest _ _ _ => 0#32
  | .spdmMessage _ _ _ => 0#32
  | .keyInstall _ _ _ _ => 0#32
  | .keyErase _ _ => 0#32
  | .functionLevelReset _ _ => 0#32
  | .etesianFlitReplay _ => 0#32
  | .linkDown _ => 0#32
  | .linkRetrainTimeout _ => 0#32
  | .linkWidthWindow _ _ => 0#32
  | .linkWiden _ => 0#32
  | .linkWidthHandshakeDone _ => 0#32
  | .packageReset _ => 0#32
  | .packageBoot _ => 0#32
  | .controllerHeartbeat => 0#32
  | .controllerFailover => 0#32
  | .stateSummary _ => 0#32
  | .journalClear _ => 0#32
  | .doeUnknownCommand _ => 0#32
  | .expansionTableReplace _ _ _ _ => 0#32
  | .thermalSensorRead _ => 0#32
  | .patrolScrub _ _ => 0#32
  | .foehnTest _ _ _ _ => 0#32
  | .redundantOn _ => 0#32
  | .redundantOff _ => 0#32
  | .recordOn _ => 0#32
  | .replayOn _ => 0#32
  | .recordReplayOff _ => 0#32
  | .intervalClose _ => 0#32
  | .redundantTimeout _ => 0#32
  | .illegalEncoding _ => 0#32
  | .instructionFetchFault _ _ => 0#32
  | .linkRetrained _ => 0#32
  | .functionEnable _ _ _ => 0#32
  | .powerRemoved => 0#32
  | .dptokenWrite _ => 0#32
  | .add d a b => encAdd d a b
  | .sub d a b => encSub d a b
  | .and d a b => encAnd d a b
  | .or d a b => encOr d a b
  | .xor d a b => encXor d a b
  | .sll d a b => encSll d a b
  | .srl d a b => encSrl d a b
  | .sra d a b => encSra d a b
  | .slt d a b => encSlt d a b
  | .sltu d a b => encSltu d a b
  | .min d a b => encMin d a b
  | .max d a b => encMax d a b
  | .minu d a b => encMinu d a b
  | .maxu d a b => encMaxu d a b
  | .fshl d a b s => encFshl d a b s
  | .fshr d a b s => encFshr d a b s
  | .clz d a => encClz d a
  | .ctz d a => encCtz d a
  | .popc d a => encPopc d a
  | .sel d a b => encSel d a b
  | .ext d a l p => encExt d a l p
  | .ins d a l p => encIns d a l p
  | .addi d a i => encAddi d a i
  | .andi d a i => encAndi d a i
  | .ori d a i => encOri d a i
  | .xori d a i => encXori d a i
  | .slli d a s => encSlli d a s
  | .srli d a s => encSrli d a s
  | .srai d a s => encSrai d a s
  | .slti d a i => encSlti d a i
  | .sltiu d a i => encSltiu d a i
  | .lui d i => encLui d i
  | .addpc d i => encAddpc d i
  | .mul d a b => encMul d a b
  | .mulh d a b => encMulh d a b
  | .mulhu d a b => encMulhu d a b
  | .div d a b => encDiv d a b
  | .divu d a b => encDivu d a b
  | .rem d a b => encRem d a b
  | .remu d a b => encRemu d a b
  | .lut3 d a b t => encLut3 d a b t
  | .fadd d a b r f => encFadd d a b r f
  | .fsub d a b r f => encFsub d a b r f
  | .fmul d a b r f => encFmul d a b r f
  | .fdiv d a b r f => encFdiv d a b r f
  | .fsqrt d a r f => encFsqrt d a r f
  | .fmin d a b f => encFmin d a b f
  | .fmax d a b f => encFmax d a b f
  | .feq d a b f => encFeq d a b f
  | .flt d a b f => encFlt d a b f
  | .fle d a b f => encFle d a b f
  | .fclass d a f => encFclass d a f
  | .fcvt d a s r f => encFcvt d a s r f
  | .fcvti d a k r f => encFcvti d a k r f
  | .icvtf d a k r f => encIcvtf d a k r f
  | .fmvx d a f => encFmvx d a f
  | .fmvf d a f => encFmvf d a f
  | .fma d a b c r p => encFma d a b c r p
  | .fms d a b c r p => encFms d a b c r p
  | .fnma d a b c r p => encFnma d a b c r p
  | .fnms d a b c r p => encFnms d a b c r p
  | .jal o => encJal o
  | .jalr d a i => encJalr d a i
  | .lb d a i => encLb d a i
  | .lbu d a i => encLbu d a i
  | .lh d a i => encLh d a i
  | .lhu d a i => encLhu d a i
  | .lw d a i => encLw d a i
  | .lwu d a i => encLwu d a i
  | .ld d a i => encLd d a i
  | .flw d a i => encFlw d a i
  | .fld d a i => encFld d a i
  | .sb s a i => encSb s a i
  | .sh s a i => encSh s a i
  | .sw s a i => encSw s a i
  | .sd s a i => encSd s a i
  | .fsw s a i => encFsw s a i
  | .fsd s a i => encFsd s a i
  | .ecall => encEcall
  | .ebreak => encEbreak
  | .eret => encEret
  | .movs d n => encMovs d n
  | .movsw a n => encMovsw a n
  | .fence s => encFence s
  | .fencei => encFencei
  | .tlbinv a b t => encTlbinv a b t
  | .dgate a => encDgate a
  | .dret => encDret
  | .wfi => encWfi
  | .chkpt => encChkpt
  | .vaddV d a b m l => encVaddV d a b m l
  | .vaddX d a b m => encVaddX d a b m
  | .vaddI d a i m => encVaddI d a i m
  | .vsubV d a b m l => encVsubV d a b m l
  | .vsubX d a b m => encVsubX d a b m
  | .vsubI d a i m => encVsubI d a i m
  | .vrsubV d a b m l => encVrsubV d a b m l
  | .vrsubX d a b m => encVrsubX d a b m
  | .vrsubI d a i m => encVrsubI d a i m
  | .vmulV d a b m l => encVmulV d a b m l
  | .vmulX d a b m => encVmulX d a b m
  | .vmulhV d a b m l => encVmulhV d a b m l
  | .vmulhX d a b m => encVmulhX d a b m
  | .vmulhuV d a b m l => encVmulhuV d a b m l
  | .vmulhuX d a b m => encVmulhuX d a b m
  | .vdivV d a b m l => encVdivV d a b m l
  | .vdivX d a b m => encVdivX d a b m
  | .vdivuV d a b m l => encVdivuV d a b m l
  | .vdivuX d a b m => encVdivuX d a b m
  | .vremV d a b m l => encVremV d a b m l
  | .vremX d a b m => encVremX d a b m
  | .vremuV d a b m l => encVremuV d a b m l
  | .vremuX d a b m => encVremuX d a b m
  | .vminV d a b m l => encVminV d a b m l
  | .vminX d a b m => encVminX d a b m
  | .vminI d a i m => encVminI d a i m
  | .vmaxV d a b m l => encVmaxV d a b m l
  | .vmaxX d a b m => encVmaxX d a b m
  | .vmaxI d a i m => encVmaxI d a i m
  | .vminuV d a b m l => encVminuV d a b m l
  | .vminuX d a b m => encVminuX d a b m
  | .vminuI d a i m => encVminuI d a i m
  | .vmaxuV d a b m l => encVmaxuV d a b m l
  | .vmaxuX d a b m => encVmaxuX d a b m
  | .vmaxuI d a i m => encVmaxuI d a i m
  | .vandV d a b m l => encVandV d a b m l
  | .vandX d a b m => encVandX d a b m
  | .vandI d a i m => encVandI d a i m
  | .vorV d a b m l => encVorV d a b m l
  | .vorX d a b m => encVorX d a b m
  | .vorI d a i m => encVorI d a i m
  | .vxorV d a b m l => encVxorV d a b m l
  | .vxorX d a b m => encVxorX d a b m
  | .vxorI d a i m => encVxorI d a i m
  | .vsllV d a b m l => encVsllV d a b m l
  | .vsllX d a b m => encVsllX d a b m
  | .vsllI d a i m => encVsllI d a i m
  | .vsrlV d a b m l => encVsrlV d a b m l
  | .vsrlX d a b m => encVsrlX d a b m
  | .vsrlI d a i m => encVsrlI d a i m
  | .vsraV d a b m l => encVsraV d a b m l
  | .vsraX d a b m => encVsraX d a b m
  | .vsraI d a i m => encVsraI d a i m
  | .vsaddV d a b m l => encVsaddV d a b m l
  | .vsaddX d a b m => encVsaddX d a b m
  | .vsaddI d a i m => encVsaddI d a i m
  | .vssubV d a b m l => encVssubV d a b m l
  | .vssubX d a b m => encVssubX d a b m
  | .vssubI d a i m => encVssubI d a i m
  | .vwmulV d a b m l => encVwmulV d a b m l
  | .vwmulX d a b m => encVwmulX d a b m
  | .vwmaccV d a b m l => encVwmaccV d a b m l
  | .vwmaccX d a b m => encVwmaccX d a b m
  | .vwmaccuV d a b m l => encVwmaccuV d a b m l
  | .vwmaccuX d a b m => encVwmaccuX d a b m
  | .vwmaccsuV d a b m l => encVwmaccsuV d a b m l
  | .vwmaccsuX d a b m => encVwmaccsuX d a b m
  | .vnclipV d a b m l => encVnclipV d a b m l
  | .vnclipX d a b m => encVnclipX d a b m
  | .vnclipI d a i m => encVnclipI d a i m
  | .vfshlV d a b m l => encVfshlV d a b m l
  | .vfshlX d a b m => encVfshlX d a b m
  | .vfshlI d a i m => encVfshlI d a i m
  | .vfshrV d a b m l => encVfshrV d a b m l
  | .vfshrX d a b m => encVfshrX d a b m
  | .vfshrI d a i m => encVfshrI d a i m
  | .vmergeV d a b m l => encVmergeV d a b m l
  | .vmergeX d a b m => encVmergeX d a b m
  | .vmergeI d a i m => encVmergeI d a i m
  | .vmovV d b m l => encVmovV d b m l
  | .vmovX d b m => encVmovX d b m
  | .vmovI d i m => encVmovI d i m
  | .vseqV d a b m l => encVseqV d a b m l
  | .vseqX d a b m => encVseqX d a b m
  | .vseqI d a i m => encVseqI d a i m
  | .vsneV d a b m l => encVsneV d a b m l
  | .vsneX d a b m => encVsneX d a b m
  | .vsneI d a i m => encVsneI d a i m
  | .vsltV d a b m l => encVsltV d a b m l
  | .vsltX d a b m => encVsltX d a b m
  | .vsltI d a i m => encVsltI d a i m
  | .vsltuV d a b m l => encVsltuV d a b m l
  | .vsltuX d a b m => encVsltuX d a b m
  | .vsltuI d a i m => encVsltuI d a i m
  | .vsleV d a b m l => encVsleV d a b m l
  | .vsleX d a b m => encVsleX d a b m
  | .vsleI d a i m => encVsleI d a i m
  | .vsleuV d a b m l => encVsleuV d a b m l
  | .vsleuX d a b m => encVsleuX d a b m
  | .vsleuI d a i m => encVsleuI d a i m
  | .vsgtV d a b m l => encVsgtV d a b m l
  | .vsgtX d a b m => encVsgtX d a b m
  | .vsgtI d a i m => encVsgtI d a i m
  | .vsgtuV d a b m l => encVsgtuV d a b m l
  | .vsgtuX d a b m => encVsgtuX d a b m
  | .vsgtuI d a i m => encVsgtuI d a i m
  | .vpopc d a m => encVpopc d a m
  | .vclz d a m => encVclz d a m
  | .vconf d a => encVconf d a
  | .vredsum d a m => encVredsum d a m
  | .vredmax d a m => encVredmax d a m
  | .vredmin d a m => encVredmin d a m
  | .vredmaxu d a m => encVredmaxu d a m
  | .vredminu d a m => encVredminu d a m
  | .vredand d a m => encVredand d a m
  | .vredor d a m => encVredor d a m
  | .vredxor d a m => encVredxor d a m
  | .vlut3 d a b t l u => encVlut3 d a b t l u
  | .vfaddV d a b m l => encVfaddV d a b m l
  | .vfaddF d a b m => encVfaddF d a b m
  | .vfsubV d a b m l => encVfsubV d a b m l
  | .vfsubF d a b m => encVfsubF d a b m
  | .vfmulV d a b m l => encVfmulV d a b m l
  | .vfmulF d a b m => encVfmulF d a b m
  | .vfdivV d a b m l => encVfdivV d a b m l
  | .vfdivF d a b m => encVfdivF d a b m
  | .vfsqrt d a m => encVfsqrt d a m
  | .vfmaV d a b m l => encVfmaV d a b m l
  | .vfmaF d a b m => encVfmaF d a b m
  | .vfnmaV d a b m l => encVfnmaV d a b m l
  | .vfnmaF d a b m => encVfnmaF d a b m
  | .vfminV d a b m l => encVfminV d a b m l
  | .vfminF d a b m => encVfminF d a b m
  | .vfmaxV d a b m l => encVfmaxV d a b m l
  | .vfmaxF d a b m => encVfmaxF d a b m
  | .vfeqV d a b m l => encVfeqV d a b m l
  | .vfeqF d a b m => encVfeqF d a b m
  | .vfltV d a b m l => encVfltV d a b m l
  | .vfltF d a b m => encVfltF d a b m
  | .vfleV d a b m l => encVfleV d a b m l
  | .vfleF d a b m => encVfleF d a b m
  | .vfgtV d a b m l => encVfgtV d a b m l
  | .vfgtF d a b m => encVfgtF d a b m
  | .vfgeV d a b m l => encVfgeV d a b m l
  | .vfgeF d a b m => encVfgeF d a b m
  | .vfcvt d a c m => encVfcvt d a c m
  | .vfpack d a c m => encVfpack d a c m
  | .vfunpack d a c m => encVfunpack d a c m
  | .vfcvti d a c m => encVfcvti d a c m
  | .vicvtf d a c m => encVicvtf d a c m
  | .vfredsum d a m => encVfredsum d a m
  | .vfredmax d a m => encVfredmax d a m
  | .vfexp2 d a m => encVfexp2 d a m
  | .vflog2 d a m => encVflog2 d a m
  | .vfrcp d a m => encVfrcp d a m
  | .vfrsq d a m => encVfrsq d a m
  | .mand d a b => encMand d a b
  | .mor d a b => encMor d a b
  | .mxor d a b => encMxor d a b
  | .mnot d a => encMnot d a
  | .mpopc d a => encMpopc d a
  | .mfirst d a => encMfirst d a
  | .iota d a => encIota d a
  | .vid d => encVid d
  | .slideupX d a b m => encSlideupX d a b m
  | .slidednX d a b m => encSlidednX d a b m
  | .slideupI d a i m => encSlideupI d a i m
  | .slidednI d a i m => encSlidednI d a i m
  | .vgather d a b m l => encVgather d a b m l
  | .compress d a m => encCompress d a m
  | .expand d a m => encExpand d a m
  | .rowbcX d a b m => encRowbcX d a b m
  | .rowrotX d a b m => encRowrotX d a b m
  | .rowbcI d a i m => encRowbcI d a i m
  | .rowrotI d a i m => encRowrotI d a i m
  | .vmvx d a b => encVmvx d a b
  | .vmvs d a b => encVmvs d a b
  | .vld d a m => encVld d a m
  | .vlds d a b m => encVlds d a b m
  | .vld2 d a b m => encVld2 d a b m
  | .vldx d a b m => encVldx d a b m
  | .vldl d a b m => encVldl d a b m
  | .vldr d b m f => encVldr d b m f
  | .vrest a => encVrest a
  | .vst d a m => encVst d a m
  | .vsts d a b m => encVsts d a b m
  | .vst2 d a b m => encVst2 d a b m
  | .vstx d a b m => encVstx d a b m
  | .vstl d a b m => encVstl d a b m
  | .vstr d b m f => encVstr d b m f
  | .vsaadd d a b m => encVsaadd d a b m
  | .vsamax d a b m => encVsamax d a b m
  | .vsave a => encVsave a
  | .vshape d a b => encVshape d a b
  | .vform d a => encVform d a
  | .vsplit n => encVsplit n
  | .vjoin => encVjoin
  | .vrdshape d => encVrdshape d
  | .mshape p r => encMshape p r
  | .mzero n => encMzero n
  | .mlds p q f => encMlds p q f
  | .mswap => encMswap
  | .mop p q n f => encMop p q n f
  | .mops p q n f => encMops p q n f
  | .mrd p q n => encMrd p q n
  | .mwr p q n => encMwr p q n
  | .mcvt r n f => encMcvt r n f
  | .mopx p q s n f => encMopx p q s n f
  | .mopsx p q s n f => encMopsx p q s n f
  | .sdecl s a => encSdecl s a
  | .sbind d s => encSbind d s
  | .sunbind d => encSunbind d
  | .sstat d s => encSstat d s
  | .palloc d a b => encPalloc d a b
  | .pstate d a => encPstate d a
  | .pfree a => encPfree a
  | .lxcopy d a s c e => encLxcopy d a s c e
  | .lxgath d a s c e => encLxgath d a s c e
  | .lxscat d a s c e => encLxscat d a s c e
  | .lxpoll d a => encLxpoll d a
  | .seal a => encSeal a
  | .unseal a => encUnseal a
  | .relb a => encRelb a
  | .rspawn a b => encRspawn a b
  | .dqpush a b => encDqpush a b
  | .dqpop d => encDqpop d
  | .joindec d a => encJoindec d a
  | .gnew d a => encGnew d a
  | .gadd a b => encGadd a b
  | .gstop a => encGstop a
  | .gresume a => encGresume a
  | .gbar => encGbar
  | .gcast a b => encGcast a b
  | .msend a b k => encMsend a b k
  | .mrecv d a => encMrecv d a
  | .waitm => encWaitm
  | .waitt a => encWaitt a
  | .timeq d => encTimeq d
  | .amoswap d a b s o w => encAmoswap d a b s o w
  | .amoadd d a b s o w => encAmoadd d a b s o w
  | .amoand d a b s o w => encAmoand d a b s o w
  | .amoor d a b s o w => encAmoor d a b s o w
  | .amoxor d a b s o w => encAmoxor d a b s o w
  | .amomin d a b s o w => encAmomin d a b s o w
  | .amomax d a b s o w => encAmomax d a b s o w
  | .amocas d a b s o w => encAmocas d a b s o w
  | .ldl d a s o w => encLdl d a s o w
  | .stc d a b s o w => encStc d a b s o w
  | .vformi d v => encVformi d v
  | .beq a b o => encBeq a b o
  | .bne a b o => encBne a b o
  | .blt a b o => encBlt a b o
  | .bge a b o => encBge a b o
  | .bltu a b o => encBltu a b o
  | .bgeu a b o => encBgeu a b o
  | .pfx k r n c v o s => encPfx k r n c v o s

/-- The instruction that the decoder reads from the bits of an opcode-table row, given as a number: the bytes are laid out
as memory holds them and the word above the given bits is zero. -/
def decodeTableWord (nbits w : Nat) : Option Instr :=
  match decodeBytes (bytesOfWord (BitVec.ofNat 32 (w % 2 ^ nbits))) with
  | some (.ok i, _) => some i
  | _ => none

/-- The row of spec/opcode_table.json that an instruction is of, counted from 0. -/
def Instr.row : Instr → Nat
  | .asyncTrapTaken => 346
  | .slotctlStart _ => 347
  | .shapeWrite _ => 348
  | .fstatWrite _ => 349
  | .mstatClear _ => 350
  | .mownSave _ => 351
  | .mownLoad _ => 352
  | .mownZero _ => 353
  | .dpbankWrite _ => 354
  | .leaseLengthWrite _ _ => 355
  | .detmodeWrite _ => 356
  | .rankEntryWrite _ => 357
  | .inboxRegisterWrite _ => 358
  | .worldTableWrite _ => 359
  | .fctlWrite _ _ _ => 360
  | .dbtgtWrite _ _ _ => 361
  | .lqheadWrite _ _ _ => 362
  | .hintWrite _ _ _ => 363
  | .codeRangeEnable _ _ _ _ => 364
  | .codeRangeDisable _ _ _ _ => 365
  | .fcbRegisterWrite _ _ _ _ => 366
  | .memoryReply _ _ _ => 367
  | .postedStoreDrain _ => 368
  | .icacheFill _ _ _ => 369
  | .pageWalk _ _ _ _ => 370
  | .vectorCheckPhaseEnd _ => 371
  | .vectorSweepStart _ => 372
  | .vectorRowArrival _ _ => 373
  | .vectorSweepComplete _ => 374
  | .matrixEntryStart _ => 375
  | .matrixEntryComplete _ _ _ => 376
  | .gustPrefetch _ _ => 377
  | .jobSchedule _ _ => 378
  | .jobBlockEnd _ _ => 379
  | .jobFaultEnd _ _ => 380
  | .jobComplete _ _ => 381
  | .levanterRound _ _ => 382
  | .gcastCopyLanded _ _ => 383
  | .sealCountDrained _ _ => 384
  | .spawnRequestArrival _ _ _ => 385
  | .stealRequest _ _ => 386
  | .gbarArrivalSignal _ _ => 387
  | .gbarGenerationComplete _ => 388
  | .gangStopComplete _ => 389
  | .msendAccept _ _ => 390
  | .dataDelivery _ _ => 391
  | .spawnDelivery _ _ => 392
  | .wakeDelivery _ _ => 393
  | .regwDelivery _ _ => 394
  | .inboxRecordWrite _ _ _ => 395
  | .waittExpiry _ => 396
  | .wfiWake _ => 397
  | .waitResumption _ => 398
  | .homeMiss _ _ => 399
  | .homeWritePerform _ => 400
  | .leaseExpiry _ _ => 401
  | .writeCombineFlush _ _ => 402
  | .tokenBucketRefill _ => 403
  | .ptpTimestampExchange _ => 404
  | .hostDoorbellWrite _ _ _ _ => 405
  | .doorbellMessageSend _ _ => 406
  | .inboundRead _ _ _ _ _ _ => 407
  | .inboundWrite _ _ _ _ _ _ => 408
  | .outboundCompletion _ _ _ => 409
  | .peerReadTimeout _ => 410
  | .hostMsixUnmask _ _ _ _ _ => 411
  | .tdispRequest _ _ _ => 412
  | .spdmMessage _ _ _ => 413
  | .keyInstall _ _ _ _ => 414
  | .keyErase _ _ => 415
  | .functionLevelReset _ _ => 416
  | .etesianFlitReplay _ => 417
  | .linkDown _ => 418
  | .linkRetrainTimeout _ => 419
  | .linkWidthWindow _ _ => 420
  | .linkWiden _ => 421
  | .linkWidthHandshakeDone _ => 422
  | .packageReset _ => 423
  | .packageBoot _ => 424
  | .controllerHeartbeat => 425
  | .controllerFailover => 426
  | .stateSummary _ => 427
  | .journalClear _ => 428
  | .doeUnknownCommand _ => 429
  | .expansionTableReplace _ _ _ _ => 430
  | .thermalSensorRead _ => 431
  | .patrolScrub _ _ => 432
  | .foehnTest _ _ _ _ => 433
  | .redundantOn _ => 434
  | .redundantOff _ => 435
  | .recordOn _ => 436
  | .replayOn _ => 437
  | .recordReplayOff _ => 438
  | .intervalClose _ => 439
  | .redundantTimeout _ => 440
  | .illegalEncoding _ => 441
  | .instructionFetchFault _ _ => 442
  | .linkRetrained _ => 443
  | .functionEnable _ _ _ => 444
  | .powerRemoved => 445
  | .dptokenWrite _ => 446
  | .add _ _ _ => 0
  | .sub _ _ _ => 1
  | .and _ _ _ => 2
  | .or _ _ _ => 3
  | .xor _ _ _ => 4
  | .sll _ _ _ => 5
  | .srl _ _ _ => 6
  | .sra _ _ _ => 7
  | .slt _ _ _ => 8
  | .sltu _ _ _ => 9
  | .min _ _ _ => 10
  | .max _ _ _ => 11
  | .minu _ _ _ => 12
  | .maxu _ _ _ => 13
  | .fshl _ _ _ _ => 14
  | .fshr _ _ _ _ => 15
  | .clz _ _ => 16
  | .ctz _ _ => 17
  | .popc _ _ => 18
  | .sel _ _ _ => 19
  | .ext _ _ _ _ => 20
  | .ins _ _ _ _ => 21
  | .addi _ _ _ => 22
  | .andi _ _ _ => 23
  | .ori _ _ _ => 24
  | .xori _ _ _ => 25
  | .slli _ _ _ => 26
  | .srli _ _ _ => 27
  | .srai _ _ _ => 28
  | .slti _ _ _ => 29
  | .sltiu _ _ _ => 30
  | .lui _ _ => 31
  | .addpc _ _ => 32
  | .mul _ _ _ => 33
  | .mulh _ _ _ => 34
  | .mulhu _ _ _ => 35
  | .div _ _ _ => 36
  | .divu _ _ _ => 37
  | .rem _ _ _ => 38
  | .remu _ _ _ => 39
  | .lut3 _ _ _ _ => 40
  | .fadd _ _ _ _ _ => 41
  | .fsub _ _ _ _ _ => 42
  | .fmul _ _ _ _ _ => 43
  | .fdiv _ _ _ _ _ => 44
  | .fsqrt _ _ _ _ => 45
  | .fmin _ _ _ _ => 46
  | .fmax _ _ _ _ => 47
  | .feq _ _ _ _ => 48
  | .flt _ _ _ _ => 49
  | .fle _ _ _ _ => 50
  | .fclass _ _ _ => 51
  | .fcvt _ _ _ _ _ => 52
  | .fcvti _ _ _ _ _ => 53
  | .icvtf _ _ _ _ _ => 54
  | .fmvx _ _ _ => 55
  | .fmvf _ _ _ => 56
  | .fma _ _ _ _ _ _ => 57
  | .fms _ _ _ _ _ _ => 58
  | .fnma _ _ _ _ _ _ => 59
  | .fnms _ _ _ _ _ _ => 60
  | .jal _ => 61
  | .jalr _ _ _ => 62
  | .lb _ _ _ => 63
  | .lbu _ _ _ => 64
  | .lh _ _ _ => 65
  | .lhu _ _ _ => 66
  | .lw _ _ _ => 67
  | .lwu _ _ _ => 68
  | .ld _ _ _ => 69
  | .flw _ _ _ => 70
  | .fld _ _ _ => 71
  | .sb _ _ _ => 72
  | .sh _ _ _ => 73
  | .sw _ _ _ => 74
  | .sd _ _ _ => 75
  | .fsw _ _ _ => 76
  | .fsd _ _ _ => 77
  | .ecall => 78
  | .ebreak => 79
  | .eret => 80
  | .movs _ _ => 81
  | .movsw _ _ => 82
  | .fence _ => 83
  | .fencei => 84
  | .tlbinv _ _ _ => 85
  | .dgate _ => 86
  | .dret => 87
  | .wfi => 88
  | .chkpt => 89
  | .vaddV _ _ _ _ _ => 90
  | .vaddX _ _ _ _ => 91
  | .vaddI _ _ _ _ => 92
  | .vsubV _ _ _ _ _ => 93
  | .vsubX _ _ _ _ => 94
  | .vsubI _ _ _ _ => 95
  | .vrsubV _ _ _ _ _ => 96
  | .vrsubX _ _ _ _ => 97
  | .vrsubI _ _ _ _ => 98
  | .vmulV _ _ _ _ _ => 99
  | .vmulX _ _ _ _ => 100
  | .vmulhV _ _ _ _ _ => 101
  | .vmulhX _ _ _ _ => 102
  | .vmulhuV _ _ _ _ _ => 103
  | .vmulhuX _ _ _ _ => 104
  | .vdivV _ _ _ _ _ => 105
  | .vdivX _ _ _ _ => 106
  | .vdivuV _ _ _ _ _ => 107
  | .vdivuX _ _ _ _ => 108
  | .vremV _ _ _ _ _ => 109
  | .vremX _ _ _ _ => 110
  | .vremuV _ _ _ _ _ => 111
  | .vremuX _ _ _ _ => 112
  | .vminV _ _ _ _ _ => 113
  | .vminX _ _ _ _ => 114
  | .vminI _ _ _ _ => 115
  | .vmaxV _ _ _ _ _ => 116
  | .vmaxX _ _ _ _ => 117
  | .vmaxI _ _ _ _ => 118
  | .vminuV _ _ _ _ _ => 119
  | .vminuX _ _ _ _ => 120
  | .vminuI _ _ _ _ => 121
  | .vmaxuV _ _ _ _ _ => 122
  | .vmaxuX _ _ _ _ => 123
  | .vmaxuI _ _ _ _ => 124
  | .vandV _ _ _ _ _ => 125
  | .vandX _ _ _ _ => 126
  | .vandI _ _ _ _ => 127
  | .vorV _ _ _ _ _ => 128
  | .vorX _ _ _ _ => 129
  | .vorI _ _ _ _ => 130
  | .vxorV _ _ _ _ _ => 131
  | .vxorX _ _ _ _ => 132
  | .vxorI _ _ _ _ => 133
  | .vsllV _ _ _ _ _ => 134
  | .vsllX _ _ _ _ => 135
  | .vsllI _ _ _ _ => 136
  | .vsrlV _ _ _ _ _ => 137
  | .vsrlX _ _ _ _ => 138
  | .vsrlI _ _ _ _ => 139
  | .vsraV _ _ _ _ _ => 140
  | .vsraX _ _ _ _ => 141
  | .vsraI _ _ _ _ => 142
  | .vsaddV _ _ _ _ _ => 143
  | .vsaddX _ _ _ _ => 144
  | .vsaddI _ _ _ _ => 145
  | .vssubV _ _ _ _ _ => 146
  | .vssubX _ _ _ _ => 147
  | .vssubI _ _ _ _ => 148
  | .vwmulV _ _ _ _ _ => 149
  | .vwmulX _ _ _ _ => 150
  | .vwmaccV _ _ _ _ _ => 151
  | .vwmaccX _ _ _ _ => 152
  | .vwmaccuV _ _ _ _ _ => 153
  | .vwmaccuX _ _ _ _ => 154
  | .vwmaccsuV _ _ _ _ _ => 155
  | .vwmaccsuX _ _ _ _ => 156
  | .vnclipV _ _ _ _ _ => 157
  | .vnclipX _ _ _ _ => 158
  | .vnclipI _ _ _ _ => 159
  | .vfshlV _ _ _ _ _ => 160
  | .vfshlX _ _ _ _ => 161
  | .vfshlI _ _ _ _ => 162
  | .vfshrV _ _ _ _ _ => 163
  | .vfshrX _ _ _ _ => 164
  | .vfshrI _ _ _ _ => 165
  | .vmergeV _ _ _ _ _ => 166
  | .vmergeX _ _ _ _ => 167
  | .vmergeI _ _ _ _ => 168
  | .vmovV _ _ _ _ => 169
  | .vmovX _ _ _ => 170
  | .vmovI _ _ _ => 171
  | .vseqV _ _ _ _ _ => 172
  | .vseqX _ _ _ _ => 173
  | .vseqI _ _ _ _ => 174
  | .vsneV _ _ _ _ _ => 175
  | .vsneX _ _ _ _ => 176
  | .vsneI _ _ _ _ => 177
  | .vsltV _ _ _ _ _ => 178
  | .vsltX _ _ _ _ => 179
  | .vsltI _ _ _ _ => 180
  | .vsltuV _ _ _ _ _ => 181
  | .vsltuX _ _ _ _ => 182
  | .vsltuI _ _ _ _ => 183
  | .vsleV _ _ _ _ _ => 184
  | .vsleX _ _ _ _ => 185
  | .vsleI _ _ _ _ => 186
  | .vsleuV _ _ _ _ _ => 187
  | .vsleuX _ _ _ _ => 188
  | .vsleuI _ _ _ _ => 189
  | .vsgtV _ _ _ _ _ => 190
  | .vsgtX _ _ _ _ => 191
  | .vsgtI _ _ _ _ => 192
  | .vsgtuV _ _ _ _ _ => 193
  | .vsgtuX _ _ _ _ => 194
  | .vsgtuI _ _ _ _ => 195
  | .vpopc _ _ _ => 196
  | .vclz _ _ _ => 197
  | .vconf _ _ => 198
  | .vredsum _ _ _ => 199
  | .vredmax _ _ _ => 200
  | .vredmin _ _ _ => 201
  | .vredmaxu _ _ _ => 202
  | .vredminu _ _ _ => 203
  | .vredand _ _ _ => 204
  | .vredor _ _ _ => 205
  | .vredxor _ _ _ => 206
  | .vlut3 _ _ _ _ _ _ => 207
  | .vfaddV _ _ _ _ _ => 208
  | .vfaddF _ _ _ _ => 209
  | .vfsubV _ _ _ _ _ => 210
  | .vfsubF _ _ _ _ => 211
  | .vfmulV _ _ _ _ _ => 212
  | .vfmulF _ _ _ _ => 213
  | .vfdivV _ _ _ _ _ => 214
  | .vfdivF _ _ _ _ => 215
  | .vfsqrt _ _ _ => 216
  | .vfmaV _ _ _ _ _ => 217
  | .vfmaF _ _ _ _ => 218
  | .vfnmaV _ _ _ _ _ => 219
  | .vfnmaF _ _ _ _ => 220
  | .vfminV _ _ _ _ _ => 221
  | .vfminF _ _ _ _ => 222
  | .vfmaxV _ _ _ _ _ => 223
  | .vfmaxF _ _ _ _ => 224
  | .vfeqV _ _ _ _ _ => 225
  | .vfeqF _ _ _ _ => 226
  | .vfltV _ _ _ _ _ => 227
  | .vfltF _ _ _ _ => 228
  | .vfleV _ _ _ _ _ => 229
  | .vfleF _ _ _ _ => 230
  | .vfgtV _ _ _ _ _ => 231
  | .vfgtF _ _ _ _ => 232
  | .vfgeV _ _ _ _ _ => 233
  | .vfgeF _ _ _ _ => 234
  | .vfcvt _ _ _ _ => 235
  | .vfpack _ _ _ _ => 236
  | .vfunpack _ _ _ _ => 237
  | .vfcvti _ _ _ _ => 238
  | .vicvtf _ _ _ _ => 239
  | .vfredsum _ _ _ => 240
  | .vfredmax _ _ _ => 241
  | .vfexp2 _ _ _ => 242
  | .vflog2 _ _ _ => 243
  | .vfrcp _ _ _ => 244
  | .vfrsq _ _ _ => 245
  | .mand _ _ _ => 246
  | .mor _ _ _ => 247
  | .mxor _ _ _ => 248
  | .mnot _ _ => 249
  | .mpopc _ _ => 250
  | .mfirst _ _ => 251
  | .iota _ _ => 252
  | .vid _ => 253
  | .slideupX _ _ _ _ => 254
  | .slidednX _ _ _ _ => 255
  | .slideupI _ _ _ _ => 256
  | .slidednI _ _ _ _ => 257
  | .vgather _ _ _ _ _ => 258
  | .compress _ _ _ => 259
  | .expand _ _ _ => 260
  | .rowbcX _ _ _ _ => 261
  | .rowrotX _ _ _ _ => 262
  | .rowbcI _ _ _ _ => 263
  | .rowrotI _ _ _ _ => 264
  | .vmvx _ _ _ => 265
  | .vmvs _ _ _ => 266
  | .vld _ _ _ => 267
  | .vlds _ _ _ _ => 268
  | .vld2 _ _ _ _ => 269
  | .vldx _ _ _ _ => 270
  | .vldl _ _ _ _ => 271
  | .vldr _ _ _ _ => 272
  | .vrest _ => 273
  | .vst _ _ _ => 274
  | .vsts _ _ _ _ => 275
  | .vst2 _ _ _ _ => 276
  | .vstx _ _ _ _ => 277
  | .vstl _ _ _ _ => 278
  | .vstr _ _ _ _ => 279
  | .vsaadd _ _ _ _ => 280
  | .vsamax _ _ _ _ => 281
  | .vsave _ => 282
  | .vshape _ _ _ => 283
  | .vform _ _ => 284
  | .vsplit _ => 285
  | .vjoin => 286
  | .vrdshape _ => 287
  | .mshape _ _ => 288
  | .mzero _ => 289
  | .mlds _ _ _ => 290
  | .mswap => 291
  | .mop _ _ _ _ => 292
  | .mops _ _ _ _ => 293
  | .mrd _ _ _ => 294
  | .mwr _ _ _ => 295
  | .mcvt _ _ _ => 296
  | .mopx _ _ _ _ _ => 297
  | .mopsx _ _ _ _ _ => 298
  | .sdecl _ _ => 299
  | .sbind _ _ => 300
  | .sunbind _ => 301
  | .sstat _ _ => 302
  | .palloc _ _ _ => 303
  | .pstate _ _ => 304
  | .pfree _ => 305
  | .lxcopy _ _ _ _ _ => 306
  | .lxgath _ _ _ _ _ => 307
  | .lxscat _ _ _ _ _ => 308
  | .lxpoll _ _ => 309
  | .seal _ => 310
  | .unseal _ => 311
  | .relb _ => 312
  | .rspawn _ _ => 313
  | .dqpush _ _ => 314
  | .dqpop _ => 315
  | .joindec _ _ => 316
  | .gnew _ _ => 317
  | .gadd _ _ => 318
  | .gstop _ => 319
  | .gresume _ => 320
  | .gbar => 321
  | .gcast _ _ => 322
  | .msend _ _ _ => 323
  | .mrecv _ _ => 324
  | .waitm => 325
  | .waitt _ => 326
  | .timeq _ => 327
  | .amoswap _ _ _ _ _ _ => 328
  | .amoadd _ _ _ _ _ _ => 329
  | .amoand _ _ _ _ _ _ => 330
  | .amoor _ _ _ _ _ _ => 331
  | .amoxor _ _ _ _ _ _ => 332
  | .amomin _ _ _ _ _ _ => 333
  | .amomax _ _ _ _ _ _ => 334
  | .amocas _ _ _ _ _ _ => 335
  | .ldl _ _ _ _ _ => 336
  | .stc _ _ _ _ _ _ => 337
  | .vformi _ _ => 338
  | .beq _ _ _ => 339
  | .bne _ _ _ => 340
  | .blt _ _ _ => 341
  | .bge _ _ _ => 342
  | .bltu _ _ _ => 343
  | .bgeu _ _ _ => 344
  | .pfx _ _ _ _ _ _ _ => 345

end

end Sys2Proof
end

