-- ==== Sys2Proof/Config.lean ====
section
/-! DEFINITION. What is fixed for the machine, and the free values: opaque constants, so that nothing can be proved of a
value the spec leaves to relative timing (R4) or to a function it only names. -/

namespace Sys2Proof.Config

/-- The clk that the n-th wait on the memory system, an engine or a queue takes beyond its issue: R4 leaves it to relative
timing (DESIGN CHOICE: log entry 2). -/
opaque latency : Nat → Nat

/-- The choice, at the n-th step, between two outcomes that a rule names, for the page or line given: a cached
translation or a new walk (R420), the code bytes as they were filled or as they are now (R117) (DESIGN CHOICE: log
entry 2). -/
opaque choice : Nat → Nat → Bool

/-- The data that a peer device answers to the n-th read: its behaviour is the device's own (R471) (log entry 2). -/
opaque peerData : Nat → BitVec 64

/-- The trap value of the n-th trap for which no rule names one: R389 gives domain_fault and pane_fault the failing address
or the operand that the instruction's rule names, and some rules name none (log entry 18). -/
opaque openValue : Nat → BitVec 64

/-- By how much TIME on a die is ahead of the slowest die, before it is bounded to 2 ns (R316) (log entry 2). -/
opaque skew : Nat → Nat

/-- AES-256-XTS decryption of one 64-byte line: key pair, tweak, line (R299). The spec names the cipher and does not
define it (log entry 7). -/
opaque xtsDecrypt : BitVec 512 → BitVec 128 → BitVec 512 → BitVec 512

/-- The GMAC of a chunk: key, chunk number, ciphertext bytes (R299) (log entry 7). -/
opaque gmac : BitVec 256 → Nat → List Byte → BitVec 128

/-- The ECC syndrome of the n-th logged error (R498): the spec defines no syndrome code (log entry 7). -/
opaque syndrome : Nat → Word

/-- The failure code of a boot step (R493): the spec lists no codes (log entry 7). -/
opaque bootCode : Nat → BitVec 32

/-- What the n-th boot step finds: the state of the package's parts and of what is connected to it (log entry 40). -/
opaque bootFound : Nat → BootFound

/-- ANY and W of granule n of a joined package, die key x 32,768 + granule: its own firmware sets them (R424, R476; log entry
59). -/
opaque farGranule : Nat → Bool × Bool

/-- The readings of the junction sensors at the n-th sampling, in degrees Celsius (R518; log entry 40). -/
opaque celsius : Nat → List Int

/-- The largest finite number of compute dies, cores of a die and slots of a core (R1, R5, R519). -/
def dies : Nat := 12
def coresPerDie : Nat := 64
def slots : Nat := 8

/-- Dies 0, 3, 8 and 11 are Breeze dies; all others are Gale dies (R1). -/
def isBreeze (die : Nat) : Bool := die == 0 || die == 3 || die == 8 || die == 11

/-- Vector lanes of a core: 16 on Gale, 8 on Breeze (R191, R519). -/
def lanesOf (die : Nat) : Nat := if isBreeze die then 8 else 16

/-- Rows of the matrix array: 128 on Gale, 64 on Breeze (R212). -/
def arrayRows (die : Nat) : Nat := if isBreeze die then 64 else 128

/-- Depth of a vector instruction queue and of a matrix queue (R21, R233). -/
def vectorQueueDepth : Nat := 16
def matrixQueueDepth : Nat := 32

/-- Places of a mailbox (R280), of an in-transit hold (R307), of a cluster's job queue (R259), of a deque (R269), of a
home die's seal table (R264), and posted stores a context may hold (R124). -/
def mailboxDepth : Nat := 16
def holdDepth : Nat := 4
def jobQueueDepth : Nat := 64
def dequeDepth : Nat := 32
def sealTableSize : Nat := 256
def postedDepth : Nat := 4

end Sys2Proof.Config
end

