-- ==== Sys2Proof/Machine/State.lean ====
section
/-! DEFINITION. The state of one TM12 package, as plain data: every piece of state that the spec gives the machine
(INVENTORY.md, State), the faults and refusals, and the state right after package reset. -/

namespace Sys2Proof.Machine

/-- The privilege modes, U = 0, S = 1, H = 2, M = 3 (R18, R33). -/
inductive Mode where
  | u | s | h | m
deriving DecidableEq, Repr

/-- One trap bank (R393, R394): the fields of STATUS, EPC, CAUSE, TVAL, TVEC, SCRATCH and PFXS. -/
structure TrapBank where
  pm      : Mode
  ae      : Bool
  pae     : Bool
  pdid    : BitVec 7
  platch  : BitVec 5
  epc     : BitVec 62
  code    : BitVec 5
  isAsync : Bool
  tval    : Word
  base    : BitVec 62
  scratch : Word
  pfxWord : BitVec 32
  pfxV    : Bool
deriving DecidableEq, Repr

/-- A trap bank at reset (R40): every field zero. -/
def TrapBank.reset : TrapBank :=
  { pm := .u, ae := false, pae := false, pdid := 0, platch := 0, epc := 0, code := 0, isAsync := false, tval := 0,
    base := 0, scratch := 0, pfxWord := 0, pfxV := false }

/-- A prefix that is pending for the next word (R457), and whether ERET restored it (R398). -/
structure Prefix where
  word     : BitVec 32
  restored : Bool
deriving DecidableEq, Repr

/-- The reservation of LDL (R129): address, width in bytes, physical line. -/
structure Resv where
  ea   : Word
  w    : Nat
  line : Nat
deriving DecidableEq, Repr

/-- What a parked context waits for (R282, R283, R454, R277). -/
inductive Park where
  | waitm
  | waitt (t : Word)
  | wfi
  | gbar
deriving DecidableEq, Repr

/-- Whether a context is in rotation (R40, R41, R301). -/
inductive Run where
  | out
  | running
  | parked (p : Park)
deriving DecidableEq, Repr

/-- The bounded waits of R301 that a unit ends: the reply of an access, an instruction-cache fill, a check phase, the
answer of a target core (with the register that takes a record), and the completion of a read through a port die (with the
instruction word that takes it and the physical address, or the physical address and length of the block that it reads; the
address, and the port and function of the request), which for a walk are the tables that lie in host memory, and for a fetch its
word (R340, R416). -/
inductive Wait where
  | none
  | reply
  | fill
  | check
  | answer (d : BitVec 5)
  | outbound (w : BitVec 32) (va : Word) (pa : Nat) (fn : Option (Nat × Nat))
  | block (va : Word) (pa n : Nat) (fn : Option (Nat × Nat))
  | tables (va : Word) (fn : Option (Nat × Nat))
  | fetch (va : Word) (pa : Nat) (fn : Option (Nat × Nat))
deriving DecidableEq, Repr

/-- The declaration states of a stream (R251). -/
inductive StreamState where
  | free | declared | bound
deriving DecidableEq, Repr

/-- A stream (R250-R254): descriptor, state, position and flags. -/
structure Stream where
  st    : StreamState
  base  : Word
  count : Nat
  str0  : Word
  n0    : Word
  str1  : Word
  ew    : BitVec 2
  dir   : Bool
  pane  : BitVec 6
  vd    : BitVec 5
  pos   : Nat
  atEnd : Bool
  flt   : Bool
deriving DecidableEq, Repr

/-- A free stream (R251). -/
def Stream.reset : Stream :=
  { st := .free, base := 0, count := 0, str0 := 0, n0 := 0, str1 := 0, ew := 0, dir := false, pane := 0, vd := 0,
    pos := 0, atEnd := false, flt := false }

/-- A place at the port of an L2 slice (R342): the local domain of the access, and its number among the accesses that the
domain has made there. -/
structure Ticket where
  dom : Nat
  no  : Nat
deriving DecidableEq, Repr

/-- A vector load from HBM whose value is not fixed yet (R352): destination and mask register, FORM and SHAPE at its issue, the
column below which positions load, and the bytes that each active position reads. -/
structure VLoad where
  d     : Nat
  mask  : Nat
  form  : BitVec 14
  vl    : Nat
  vrows : Nat
  n     : Nat
  from_ : List ((Nat × Nat) × Nat)
deriving DecidableEq, Repr

/-- An entry of a vector instruction queue (R21, R303): the element groups that it writes, by register, row and group as
the arrival bits lie (R153), its rows, whether it has started, the FSTAT flags it will OR in (R56), the machine check it will
leave pending (R187, R500), the writes that it performs, the physical ranges that it reads (R188), its last place at the
ports of its slice (R342), the clk by which its host reads have completed (R340), and the load whose value may still change
until it starts (R352). -/
structure VEntry where
  cover   : BitVec 4096
  rows    : Nat
  started : Bool
  flags   : BitVec 5
  mc      : Option Word
  writes  : List Nat
  reads   : List (Nat × Nat)
  ticket  : Ticket
  due     : Nat
  load    : Option VLoad
deriving DecidableEq, Repr

/-- The redundant role of a context (R509-R511): its pair partner, the stores of its interval in program order, the
checkpoint number, the values forwarded to a shadow by channel (R512), the close it has reached with the operands of the
closing operation and the TIME of that, whether the pair has matched there, whether a mismatch has ended the interval and the
member has yet to take gang_stop (R511), how many stores of the instruction under way are in the buffer or performed (R510), and
for a shadow what the last read of its primary through a port die has brought: whether it succeeded, and its bytes (R4, R510). -/
structure Redundant where
  primary : Bool
  partner : Nat
  stores  : List (Nat × List Byte × Bool × BitVec 7)
  ckpt    : Nat
  fwd     : List (Nat × Word)
  close   : Option (List Word)
  since   : Nat
  matched : Bool
  failed  : Bool
  stored  : Nat
  far     : Option (Bool × List Host.Cell)
deriving DecidableEq, Repr

/-- Record or replay of a context (R512): the physical address of its log descriptor, and whether it has found its log full and
has yet to take gang_stop. -/
structure Logging where
  replay : Bool
  desc   : Nat
  full   : Bool
deriving DecidableEq, Repr

/-- A hardware context (R18, R21, R38, R251, R280, R393, R394, R439).  Of what the spec only implies: `sealWait` is the seal
entry (die, index) whose count an UNSEAL waits for (R266), `casts` the panes (core, pane) whose copies a GCAST waits for
and `castSrc` the pane of its own core that it reads (R278), `seen` the pending writes of others that happen before what it does next (R353, R356), `acq` those that a release has
published to it and that its next acquire, at the least scope given, makes happen before (R356), `spawnq` the SPAWN messages that
a migration has brought while the holder was full (R312, R381), `pub` the pending writes
that its fences have published, `sent` those that its messages have and `rel` those that the release of the instruction under way
has, each with the scope of the release (R356), `passed` the address of a word that has passed check 3 and waits (R494), `walked` whether the tables in host memory that its access walks have been read, `wrote` the element groups that the instruction under way has written (R153), `ticket`
the last place at its slice's ports that its accesses took (R342), `reply` the least clk that the reply of the access under way
takes (R132, R345), `migPc` the address of the word whose migrate trap the firmware is serving and `migSaved` whether a MOWN write has saved its matrix state since (R409), `block` the bytes that an outbound read of a block has brought and `fetched` the word that a fetch from host memory has, each with
its address (R340), `stopped` whether it has taken
gang_stop and not resumed since (R361). -/
structure Ctx where
  pc       : Word
  x        : Vector Word 32
  f        : Vector Word 32
  mode     : Mode
  did      : BitVec 7
  form     : BitVec 14
  vl       : Nat
  vrows    : Nat
  tr       : Bool
  lanes    : Nat
  lg       : Nat
  fstat    : BitVec 5
  cycleOff : Nat
  swOut    : Option Nat
  gang     : Nat
  rank     : Nat
  sb       : TrapBank
  hb       : TrapBank
  mb       : TrapBank
  stealdom : Word
  tsave    : Word
  vsavea   : Word
  sptb     : Word
  hptb     : Word
  v        : Vector (BitVec 8192) 256
  m        : Vector (BitVec 4096) 64
  missing  : BitVec 4096
  dirty    : BitVec 128
  latch    : BitVec 5
  vq       : List VEntry
  vchk     : Option VEntry
  streams  : Vector Stream 8
  mailbox  : List Msg
  spawn    : Option Msg
  spawnq   : List Msg
  wake     : Bool
  regw     : List Word
  missed   : Bool
  resv     : Option Resv
  pfx      : Option Prefix
  pendMc   : Option Word
  pendStop : Option Word
  pendLane : Option Word
  run      : Run
  wait     : Wait
  bounded  : Bool
  seen     : List Nat
  acq      : List (Nat × Nat)
  pub      : List (Nat × Nat)
  sent     : List (Nat × Nat)
  rel      : List (Nat × Nat)
  walked   : Bool
  passed   : Option Word
  wrote    : BitVec 4096
  ticket   : Ticket
  reply    : Nat
  block    : Option (Word × List Byte)
  fetched  : Option (Word × BitVec 32)
  stopped  : Bool
  notBefore : Nat
  traps    : Nat
  jobs     : BitVec 16
  depth    : Nat
  gbarGen  : Nat
  arrived  : Bool
  sealWait   : Option (Nat × Nat)
  casts    : List (Nat × Nat)
  castSrc  : Option Nat
  migDest  : Option Nat
  migPc    : Option Word
  migSaved : Bool
  red      : Option Redundant
  log      : Option Logging
deriving DecidableEq, Repr

/-- A context identifier: die x 512 + core x 8 + slot, the low 13 bits of CTXID (R38). -/
abbrev CtxId := Nat

/-- A core identifier: die x 64 + core. -/
abbrev CoreId := Nat

/-- A context right after package reset (R40): slot 7 runs at the reset vector, the others are out of rotation, slot 0
holds the lanes. -/
def Ctx.reset (c : CtxId) : Ctx :=
  { pc := 0, x := Vector.replicate 32 0, f := Vector.replicate 32 0, mode := .m, did := 7, form := 3,
    vl := 0, vrows := 0, tr := false, lanes := if c % 8 = 0 then Config.lanesOf (c / 512) else 0, lg := 0, fstat := 0,
    cycleOff := 0, swOut := none, gang := 0, rank := 0, sb := TrapBank.reset, hb := TrapBank.reset, mb := TrapBank.reset,
    stealdom := 0, tsave := 0, vsavea := 0, sptb := 0, hptb := 0, v := Vector.replicate 256 0, m := Vector.replicate 64 0,
    missing := 0, dirty := 0, latch := 0, vq := [], vchk := none, streams := Vector.replicate 8 Stream.reset,
    mailbox := [], spawn := none, spawnq := [], wake := false, regw := [], missed := false, resv := none, pfx := none,
    pendMc := none, pendStop := none, pendLane := none, run := if c % 8 = 7 then .running else .out, wait := .none,
    bounded := false, seen := [], acq := [], pub := [], sent := [], rel := [], walked := false, passed := none, wrote := 0, ticket := { dom := 0, no := 0 }, reply := 0, block := none, fetched := none, stopped := false,
    notBefore := 0, traps := 0, jobs := 0, depth := 0, gbarGen := 0, arrived := false,
    sealWait := none, casts := [], castSrc := none, migDest := none, migPc := none, migSaved := false,
    red := none, log := none }

/-- Memory: bytes by physical address, in the canonical form that Memory.wf (Machine/Ops.lean) states; an unlisted byte
reads as zero (log entry 3). -/
abbrev Memory := List Host.Cell

/-- An entry of a pane table (R245). -/
structure Pane where
  state : BitVec 2
  held  : Bool
  owner : BitVec 7
  base  : Nat
  size  : Nat
deriving DecidableEq, Repr

/-- An empty pane (R245, R249). -/
def Pane.empty : Pane := { state := 0, held := false, owner := 0, base := 0, size := 0 }

/-- A task record of a deque (R269). -/
structure Task where
  pc   : Word
  a0   : Word
  a1   : Word
  a2   : Word
  a3   : Word
  join : Word
deriving DecidableEq, Repr

/-- What a queued matrix instruction does when it completes (R222-R231), with the operands that it read at issue: strings
as little-endian numbers, the rows in use, the rounding mode, the formats. -/
inductive MOp where
  | zero (tile : Nat)
  | load (fmt n : Nat) (str : Nat)
  | swap
  | outer (tile fmt planeFmt k p0 rows rm : Nat) (str : Nat) (scales : Option (Nat × Nat))
  | convert (tile fmt rm rows tag : Nat) (sat : Bool)
  | write (tile i0 n : Nat) (str : Nat)
  | shape (clear : Bool)
deriving DecidableEq, Repr

/-- An entry of a matrix queue (R233): the context that issued it, the address of the instruction, whether it has started,
the rows in use, and its operation. -/
structure MEntry where
  owner   : CtxId
  pc      : Word
  started : Bool
  rows    : Nat
  op      : MOp
deriving DecidableEq, Repr

/-- A line that an L2 slice holds (R325): the DID that filled it (R339, R341), and whether the slice holds data of it that
are not at its home. -/
structure CLine where
  line  : Nat
  did   : BitVec 7
  dirty : Bool
deriving DecidableEq, Repr

/-- One core: matrix state (R24), pane table, scratchpad, domain partition registers (R429-R433), network interface
(R304-R311), deque (R269), core entry of the world table (R424), the caches (R325), each with its most recent line first, and
for each local domain how many line accesses have come to the ports of its slice and how many the ports have served (R342). -/
structure Core where
  mown     : BitVec 3
  mstat    : BitVec 64
  acc      : Vector (BitVec 2048) 512
  plane    : BitVec 65536
  shadow   : BitVec 65536
  mq       : List MEntry
  panes    : Vector Pane 64
  spad     : Memory
  dpslot   : Word
  dplane   : Word
  dpbank   : Word
  dpquota  : Word
  dptoken  : Word
  buckets  : Vector Nat 8
  asked    : Vector Nat 8
  served   : Vector Nat 8
  rtwin    : Word
  inSz     : BitVec 4
  inBase   : BitVec 40
  inEn     : Bool
  defer    : BitVec 8
  wp       : BitVec 12
  holds    : Tbl (List Msg)
  deque    : List Task
  dqOwner  : BitVec 7
  ringCnt  : Nat
  ringOld  : Nat
  slotpc   : Word
  part     : BitVec 4
  ssec     : BitVec 8
  gw       : Bool
  harv     : Bool
  gfV      : Bool
  gfFb     : BitVec 40
  icache   : Tbl (BitVec 512)
  l1       : List Nat
  l2       : List CLine
deriving DecidableEq, Repr

/-- A core at reset (R40). -/
def Core.reset : Core :=
  { mown := 0, mstat := 0, acc := Vector.replicate 512 0, plane := 0, shadow := 0, mq := [],
    panes := Vector.replicate 64 Pane.empty, spad := [], dpslot := 0, dplane := 0, dpbank := 0, dpquota := 0, dptoken := 0,
    buckets := Vector.replicate 8 0, asked := Vector.replicate 8 0, served := Vector.replicate 8 0, rtwin := 0, inSz := 0, inBase := 0, inEn := false, defer := 0, wp := 0, holds := [],
    deque := [], dqOwner := 0, ringCnt := 0, ringOld := 0, slotpc := 0, part := 0, ssec := 0, gw := false, harv := false,
    gfV := false, gfFb := 0, icache := [], l1 := [], l2 := [] }

/-- The job states of R260. -/
inductive JobState where
  | waiting | running | suspended
deriving DecidableEq, Repr

/-- The job kinds of R257. -/
inductive JobKind where
  | copy | gather | scatter
deriving DecidableEq, Repr

/-- A Levanter job in a cluster's queue (R257-R260): its record by physical address, the indices below PROG that a gather
has read for its duplicate mask, the bytes of each distinct index that it has read, STAT and PROG once it has ended, whether
these are on their way to the record and whether they are in it, its last place at the ports of the slice (R342), the pending
writes of its context that come before it, the pending writes of others that happen before its end (R353), and the clk by which
the host memory that it is about to read has arrived, once the reads have been sent (R340). -/
structure Job where
  id    : Word
  ctx   : CtxId
  did   : BitVec 7
  mode  : Mode
  sptb  : Word
  hptb  : Word
  kind  : JobKind
  recPa : Nat
  recSh : Bool
  acq   : Bool
  rel   : Bool
  scope : BitVec 3
  st    : JobState
  ctl   : Word
  src   : Word
  dst   : Word
  n     : Word
  idx   : Word
  dup   : Word
  prog  : Nat
  before : List Nat
  got    : List (Nat × List Byte)
  ended : Option (Nat × Nat)
  recorded : Bool
  written : Bool
  ticket : Ticket
  waitFor : List Nat
  seen   : List Nat
  due    : Option Nat
deriving DecidableEq, Repr

/-- An entry of a home die's seal table (R264-R266): the dies other than the home that hold a line of it are its count. -/
structure Seal where
  base     : Nat
  len      : Nat
  did      : BitVec 7
  draining : Bool
  holders  : List Nat
deriving DecidableEq, Repr

/-- A granule entry (R424). -/
structure Granule where
  w    : Bool
  part : BitVec 4
  any  : Bool
  gf   : Bool
deriving DecidableEq, Repr

/-- A granule at reset (R424). -/
def Granule.reset : Granule := { w := false, part := 0, any := false, gf := false }

/-- One compute die: registers of die scope (R38), world tables (R424), expansion table (R90, R494), Levanter engines
(R259), seal table (R264), leases (R336), repair, fences and the clk of the last use of each unit (R503,
R506), the L2 banks that a boot has found to fail (core x 32 + bank) and the routers in bypass (R507). -/
structure Die where
  mrvec    : Word
  wtwin    : Word
  granules : Tbl Granule
  levW     : BitVec 8
  omitted  : List Nat
  tableSvn : Nat
  decoded  : List Nat
  jobq     : Vector (List Job) 8
  blocks   : Tbl Nat
  seals    : Tbl Seal
  expiry   : Tbl Nat
  copies   : Tbl Nat
  sliceMap : List Nat
  fenced   : List (Nat × Nat)
  lastUse  : Tbl Nat
  bypass   : BitVec 64
  banks    : List Nat
  levHarv  : BitVec 8
  stack    : BitVec 2
  scrub    : Nat
deriving DecidableEq, Repr

/-- The extended subset of R90 by expansion code (Machine/Issue.lean: major opcode x 2,048 + operation): LUT3, VLUT3,
VCONF, MOPX, MOPSX, and MLDS with fmt 6-8. -/
def extendedCodes : List Nat :=
  [0x0B * 2048, 0x20 * 2048 + 0x60, 0x20 * 2048 + 0x2A, 0x29 * 2048 + 9, 0x29 * 2048 + 10, 0x29 * 2048 + 2 + 1024]

/-- The image of a new package: accepted, with tables that hold every encoding of the core subset on Breeze and every encoding
on Gale (R90, R488; log entry 40). -/
def BootImage.reset : BootImage :=
  { magic := 0x4D494648, svn := 0, len := 0x800, edpk := 0, mlpk := 0, edOk := true, mlOk := true, gale := [], breeze := extendedCodes }

/-- A die at reset (R40, R90): a Breeze table omits the extended subset; granule 32,767 is secure after boot (R498). -/
def Die.reset (d : Nat) : Die :=
  { mrvec := 0, wtwin := 0, granules := [(32767, { w := true, part := 0, any := false, gf := false })], levW := 0,
    omitted := if Config.isBreeze d then extendedCodes else [], tableSvn := 0, decoded := [],
    jobq := Vector.replicate 8 [], blocks := [], seals := [], expiry := [], copies := [], sliceMap := List.range 64, fenced := [], lastUse := [], bypass := 0,
    banks := [], levHarv := 0, stack := 0, scrub := 0 }

/-- The states of a gang (R276): forming while members are added, stopping while members have yet to take gang_stop. -/
inductive GangState where
  | forming | active | stopping | stopped
deriving DecidableEq, Repr

/-- A rank entry (R306), without the HC field that the holds of a core give. -/
structure RankEntry where
  coord : BitVec 19
  it    : Bool
  v     : Bool
deriving DecidableEq, Repr

/-- A gang table entry (R274-R277). -/
structure Gang where
  st      : GangState
  size    : Nat
  members : List CtxId
  entries : List RankEntry
  gen     : Nat
deriving DecidableEq, Repr

/-- The states of a code chunk (R474). -/
inductive ChunkState where
  | absent | arrived | failed
deriving DecidableEq, Repr

/-- A code range of a function (R463, R474): registers, the copied chunk table (each entry's flags and tag), the chunk
states that differ from absent, and the bytes of each line (chunk x 64 + line) that the function's requests have written since
V became 1. -/
structure CodeRange where
  v      : Bool
  base   : BitVec 40
  nch    : BitVec 12
  key    : BitVec 3
  tab    : BitVec 40
  copied : List (Word × BitVec 128)
  states : Tbl ChunkState
  lines  : Tbl (BitVec 64)
deriving DecidableEq, Repr

/-- A code range at reset (R463). -/
def CodeRange.reset : CodeRange :=
  { v := false, base := 0, nch := 0, key := 0, tab := 0, copied := [], states := [], lines := [] }

/-- A function of a host port (R460-R474): FCB registers, doorbell state, MSI-X table (each entry's address, data and control
dwords; bit 96 masks the vector) and pending bits, TDISP state, keys, SPDM session, the world of its TSEL 4 entry, the
prepared doorbell messages in order, each with its NOTE and the writes that it waits for, and in `queue` the host's requests that
wait for links of their route, or behind such a one, in order of arrival (R467, R476). -/
structure Fn where
  vfe    : Bool
  tds    : BitVec 2
  en     : Bool
  iatEn  : Bool
  iatb   : BitVec 40
  dbV    : Bool
  dbCtx  : BitVec 19
  lqtail : BitVec 32
  lqhead : BitVec 32
  note   : BitVec 32
  out    : Bool
  ferr   : BitVec 4
  crq    : BitVec 15
  pfpart : BitVec 4
  w      : Bool
  ranges : Vector CodeRange 8
  keys   : Vector (Option (BitVec 768)) 8
  sess   : Bool
  msix   : Vector (BitVec 128) 16
  pend   : BitVec 16
  reqs   : List Nat
  dbWait : List (BitVec 32 × List Nat)
  queue  : List Instr
deriving DecidableEq, Repr

/-- A function at reset (R463, R468); every MSI-X vector is masked, as PCIe resets them (R470; log entry 41). -/
def Fn.reset : Fn :=
  { vfe := false, tds := 0, en := false, iatEn := false, iatb := 0, dbV := false, dbCtx := 0, lqtail := 0, lqhead := 0,
    note := 0, out := false, ferr := 0, crq := 0, pfpart := 0, w := false, ranges := Vector.replicate 8 CodeRange.reset,
    keys := Vector.replicate 8 none, sess := false, msix := Vector.replicate 16 (BitVec.twoPow 128 96),
    pend := 0, reqs := [], dbWait := [], queue := [] }

/-- A peer window of a port die (R463, R471). -/
structure PeerWin where
  base : BitVec 52
  v    : Bool
  lsz  : BitVec 6
  part : BitVec 4
  ldm  : BitVec 7
deriving DecidableEq, Repr

/-- A peer window at reset (R463). -/
def PeerWin.reset : PeerWin := { base := 0, v := false, lsz := 0, part := 0, ldm := 0 }

/-- A partition record (R424). -/
structure PartRec where
  ng  : BitVec 12
  gt  : BitVec 40
  vcw : BitVec 8
deriving DecidableEq, Repr

/-- The tag of an HBM line (R435). -/
structure LineTag where
  shared : Bool
  ldid   : BitVec 7
deriving DecidableEq, Repr

/-- Where a translation is cached (R420): the L1 TLB of a context, the TLB of a core, the cache of a cluster (die x 8 +
cluster). -/
inductive TlbHome where
  | context (c : Nat)
  | core (n : Nat)
  | cluster (n : Nat)
deriving DecidableEq, Repr

/-- A cached combined translation (R420): where it is cached, the page of the virtual address and of the physical address, the
smaller page size, the tag, which stages apply, the permissions of both stages, SH. -/
structure TlbEntry where
  home   : TlbHome
  did    : BitVec 7
  asid   : BitVec 12
  vmid   : BitVec 12
  vpage  : Nat
  ppage  : Nat
  size   : Nat
  st1    : Bool
  st2    : Bool
  g      : Bool
  r1     : Bool
  w1     : Bool
  x1     : Bool
  u1     : Bool
  r2     : Bool
  w2     : Bool
  x2     : Bool
  sh     : Bool
deriving DecidableEq, Repr

/-- The kinds of write that are performed at their home later than at their die (R124, R190, R261, R278, R350, R467). -/
inductive WriteKind where
  | posted | vector | stream | job | gcast | host
deriving DecidableEq, Repr

/-- A write that is not yet performed at its home: who wrote it, from which die, whether its line is near to that die, the
clk from which a posted store may leave the store path (R124), its place at the ports of the slice (R342), whether it has
reached the die's caches (R350), whether it waits at the home for a lease (R337), its physical address, its bytes, the line
tag it leaves, and the mode of the writer. -/
structure PWrite where
  id     : Nat
  owner  : CtxId
  die    : Nat
  kind   : WriteKind
  near   : Bool
  leave  : Nat
  ticket : Ticket
  atDie  : Bool
  waits  : Bool
  addr   : Nat
  bytes  : List Byte
  shared : Bool
  did    : BitVec 7
  mode   : Mode
deriving DecidableEq, Repr

/-- The state of an Etesian port (R475, R478, R495): 0 down, 1 training, 2 up, 3 fenced. -/
structure Port where
  state : BitVec 2
deriving DecidableEq, Repr

/-- A record of the boot journal (R493). -/
structure JournalRec where
  start : Nat
  step  : Nat
  out   : Nat
  unit  : Nat
  time  : Word
  code  : BitVec 32
deriving DecidableEq, Repr

/-- The boot and the controllers (R488-R497).  `slotB` says that the image of slot B runs, `firstB` that slot B is tried first;
`edges` are the die-to-die edges that step 3 has left out; `beat` is the clk of the last heartbeat (R492); `fuseEd` and `fuseMl` are
the public keys whose SHA-384 hashes the fuses hold (R488); `summary` holds the fields of a STATE-SUMMARY under way as they were
when its collection began (R496), and `waiting` the commands that have come since, in order (R495). -/
structure Boot where
  start    : Nat
  lastStep : Nat
  halted   : Bool
  active   : Nat
  svn      : Nat
  minSvn   : Nat
  fuseEd   : BitVec 256
  fuseMl   : BitVec 15616
  slotB    : Bool
  firstB   : Bool
  imageA   : BootImage
  imageB   : BootImage
  edges    : List Nat
  journal  : List JournalRec
  beat     : Nat
  summary  : Option (List (List Byte))
  waiting  : List Instr
deriving DecidableEq, Repr

/-- What the package has sent to the host (R466-R470, R495, R459): the outcome of each request, MSI-X writes, the requests of
its contexts with the function, the IDE stream and the PCIe address (R461), and the answers to DOE and SPDM requests. -/
inductive HostOut where
  | data (port fn : Nat) (bytes : List Byte)
  | abort (port fn : Nat)
  | msix (port fn vec : Nat) (addr : BitVec 64) (data : BitVec 32)
  | request (port fn : Nat) (ide write : Bool) (addr n : Nat) (bytes : List Byte)
  | doe (port : Nat) (bytes : List Byte)
  | spdm (port fn kind : Nat) (ok : Bool)
deriving DecidableEq, Repr

/-- The machine. `ctxs`, `cores`, `dies`, `fns` and the other tables list what differs from reset; an unlisted entry is at
its reset value.  `errLines` lists the lines of HBM with an uncorrectable error, `sramErrs` those whose copy in the SRAM of a core
has one (R500), `held` lists the lines at whose home a store of a context waits for a lease, `misses` the misses, by line and
die, that a home holds until the write that waits there is performed, in order of arrival (R337); `pubs` by aligned 8-byte unit
the pending writes that a release has published to whoever reads the unit: the releasing context, the scope and the write
(R356). -/
structure State where
  clk      : Nat
  cursor   : Nat
  free     : Nat
  agenda   : List (Nat × Instr)
  powered  : Bool
  pkgNum   : Nat
  joined   : List Nat
  ctxs     : Tbl Ctx
  cores    : Tbl Core
  dies     : Tbl Die
  mem      : Memory
  tags     : Tbl LineTag
  errLines : List Nat
  sramErrs : Tbl CoreId
  pubs     : Tbl (List (CtxId × Nat × Nat))
  pend     : List PWrite
  nextId   : Nat
  held     : List (Nat × CtxId)
  misses   : List (Nat × Nat)
  tlb      : List TlbEntry
  timeBase : Nat
  timeFrac : Nat
  clkBase  : Nat
  ppm      : Int
  leaseD   : Nat
  leaseP   : Nat
  detmode  : Bool
  featmask : Vector Word 16
  parts    : Vector PartRec 16
  gangs    : Tbl Gang
  fns      : Tbl Fn
  peers    : Tbl PeerWin
  ports    : Vector Port 18
  widths   : Tbl Nat
  shaking  : List Nat
  routes   : Tbl (List (List Nat))
  boot     : Boot
  hostOut  : List HostOut
deriving DecidableEq, Repr

/-- Why a step can stop. -/
inductive Fault where
  /-- Raised by the step when its turn names a core that the package does not have; no reachable state does (safe). -/
  | noSuchTurn
deriving DecidableEq, Repr

/-- Why an instruction has no meaning. -/
inductive Refusal where
  /-- Raised by the dispatch for an instruction that is not modelled yet, by its mnemonic (safe). -/
  | notModelled (mnemonic : String)
deriving DecidableEq, Repr

/-- What the package does by itself from reset on: the heartbeat of the active controller each 10 ms and the watch of the other
over 100 ms (R492), the readings of the sensors each 1 ms (R518), the scrubbing of each stack, a line each 160,000 clk, which
reads every line within 24 hours (R501), and the tests of the Foehn engine of each die (R503). -/
def regularEvents : List (Nat × Instr) :=
  [(2000000, .thermalSensorRead (Config.celsius 0)), (20000000, .controllerHeartbeat), (200000000, .controllerFailover)] ++
    ((List.range 12).map fun d => (160000, .patrolScrub d 0)) ++ (List.range 12).map fun d => (4096, .foehnTest d 0 0 true)

/-- The machine right after package reset and boot (R40, R489 step 12): slot 7 of every core is about to issue at the
reset vector. -/
def State.reset : State :=
  { clk := 0, cursor := 0, free := 0, agenda := regularEvents, powered := true, pkgNum := 0, joined := [0], ctxs := [], cores := [],
    dies := [], mem := [], tags := [], errLines := [], sramErrs := [], pubs := [], pend := [], nextId := 0, held := [], misses := [], tlb := [], timeBase := 0, timeFrac := 0, clkBase := 0,
    ppm := 0, leaseD := 1024, leaseP := 8192, detmode := false,
    featmask := Vector.replicate 16 (BitVec.allOnes 64), parts := Vector.replicate 16 { ng := 0, gt := 0, vcw := 0 },
    gangs := [], fns := [], peers := [], ports := Vector.replicate 18 { state := 0 }, widths := [], shaking := [],
    routes := [],
    boot := { start := 0, lastStep := 12, halted := false, active := 12, svn := 0, minSvn := 0, fuseEd := 0, fuseMl := 0, slotB := false, firstB := false,
              imageA := BootImage.reset, imageB := BootImage.reset, edges := [],
              journal := (List.range 12).map fun n =>
                { start := 0, step := n + 1, out := 0, unit := 0xFFFF, time := 0, code := 0 },
              beat := 0, summary := none, waiting := [] },
    hostOut := [] }

end Sys2Proof.Machine
end

