-- ==== Sys2Proof/Machine/Ops.lean ====
section
/-! DEFINITION. The named operations over the state: tables, registers, memory in its canonical form, the agenda, time,
the error log, taking a trap (R395-R397) and returning from one (R398). -/

namespace Sys2Proof.Machine

/-! Tables. -/

/-- The context `c` (R18). -/
def State.ctx (s : State) (c : CtxId) : Ctx := s.ctxs.getD c (Ctx.reset c)

/-- Replace context `c`. -/
def State.setCtx (s : State) (c : CtxId) (k : Ctx) : State := { s with ctxs := s.ctxs.set c k }

/-- Change context `c`. -/
def State.modCtx (s : State) (c : CtxId) (g : Ctx → Ctx) : State := s.setCtx c (g (s.ctx c))

/-- The core `n`. -/
def State.core (s : State) (n : CoreId) : Core := s.cores.getD n Core.reset

/-- Replace core `n`. -/
def State.setCore (s : State) (n : CoreId) (k : Core) : State := { s with cores := s.cores.set n k }

/-- Change core `n`. -/
def State.modCore (s : State) (n : CoreId) (g : Core → Core) : State := s.setCore n (g (s.core n))

/-- The die with table key `d`: 0-11 are the dies of this package, 16 x (package + 1) + die those of a joined one. -/
def State.die (s : State) (d : Nat) : Die := s.dies.getD d (Die.reset d)

/-- Replace die `d`. -/
def State.setDie (s : State) (d : Nat) (k : Die) : State := { s with dies := s.dies.set d k }

/-- Change die `d`. -/
def State.modDie (s : State) (d : Nat) (g : Die → Die) : State := s.setDie d (g (s.die d))

/-- Function `f` of host port `p` (R460). -/
def State.fn (s : State) (p f : Nat) : Fn := s.fns.getD (p * 64 + f) Fn.reset

/-- Replace a function of a port. -/
def State.setFn (s : State) (p f : Nat) (k : Fn) : State := { s with fns := s.fns.set (p * 64 + f) k }

/-- Change a function of a port. -/
def State.modFn (s : State) (p f : Nat) (g : Fn → Fn) : State := s.setFn p f (g (s.fn p f))

/-- Peer window `w` of port `p` (R471). -/
def State.peer (s : State) (p w : Nat) : PeerWin := s.peers.getD (p * 32 + w) PeerWin.reset

/-- The core of a context. -/
def coreOf (c : CtxId) : CoreId := c / 8

/-- The slot of a context (R34). -/
def slotOf (c : CtxId) : Nat := c % 8

/-- The die of a context. -/
def dieOf (c : CtxId) : Nat := c / 512

/-- The cluster of a core within its die (R344). -/
def clusterOf (core : CoreId) : Nat := core % 64 / 8

/-- Physical lanes of a core (R191). -/
def physLanes (core : CoreId) : Nat := Config.lanesOf (core / 64)

/-- Rows of a core's array, AR (R212). -/
def arrayRowsOf (core : CoreId) : Nat := Config.arrayRows (core / 64)

/-- The context whose turn it is: core `cursor`, slot clk mod 8 (R34). -/
def State.cur (s : State) : CtxId := s.cursor * 8 + s.clk % 8

/-- A context number that no context has: it owns no write. -/
def noCtx : CtxId := 8192

/-- The mode as its number (R18). -/
def Mode.toNat : Mode → Nat
  | .u => 0
  | .s => 1
  | .h => 2
  | .m => 3

/-- The mode of a number (R18). -/
def Mode.ofCode (n : Nat) : Mode :=
  if n % 4 = 0 then .u else if n % 4 = 1 then .s else if n % 4 = 2 then .h else .m

/-- The DID of a context: in M the partition is the PART of its core, read afresh (R428). -/
def State.did (s : State) (c : CtxId) : BitVec 7 :=
  let k := s.ctx c
  if k.mode = .m then (s.core (coreOf c)).part ++ 7#3 else k.did

/-- The partition part of a DID (R18). -/
def partOf (d : BitVec 7) : Nat := d.toNat / 8

/-- The local domain of a DID (R18). -/
def localOf (d : BitVec 7) : Nat := d.toNat % 8

/-- The partition of a context. -/
def State.part (s : State) (c : CtxId) : Nat := partOf (s.did c)

/-- A context that holds lanes is a vector context (R21, R29). -/
def Ctx.isVector (k : Ctx) : Bool := decide (k.lanes ≠ 0)

/-! Scalar registers. -/

/-- x[r]: x0 reads as zero (R18). -/
def Ctx.rx (k : Ctx) (r : BitVec 5) : Word := if r = 0 then 0 else k.x[r.toNat]'r.isLt

/-- f[r]. -/
def Ctx.rf (k : Ctx) (r : BitVec 5) : Word := k.f[r.toNat]'r.isLt

/-- x[r] := v: a write of x0 is discarded (R18). -/
def Ctx.wx (k : Ctx) (r : BitVec 5) (v : Word) : Ctx :=
  if r = 0 then k else { k with x := k.x.set r.toNat v r.isLt }

/-- f[r] := v. -/
def Ctx.wf (k : Ctx) (r : BitVec 5) (v : Word) : Ctx := { k with f := k.f.set r.toNat v r.isLt }

/-- The copy register of the pending prefix, if it has one (R457). -/
def Ctx.copyReg (k : Ctx) : Option (BitVec 5) :=
  match k.pfx with
  | some p => if p.word.extractLsb' 12 1 = 1 then some (p.word.extractLsb' 13 5) else none
  | none => none

/-- The match of a redundant interval has been used (R510). -/
def Redundant.used (r : Redundant) : Redundant := { r with matched := false, stored := 0 }

/-- A member that takes a trap: gang_stop ends what a mismatch has left it in (R511). -/
def Redundant.trapped (r : Redundant) (cause : Nat) : Redundant := { r.used with failed := r.failed && decide (cause ≠ 21) }

/-- A recording member that takes gang_stop tries its log anew when it goes on (R512). -/
def Logging.trapped (l : Logging) (cause : Nat) : Logging := { l with full := l.full && decide (cause ≠ 21) }

/-- Does the context wait at a close that a mismatch has ended (R511)? -/
def Ctx.closeFailed (k : Ctx) : Bool :=
  match k.red with
  | some r => r.failed
  | none => false

/-- The instruction is over: the PC moves to the next word, a pending prefix and the match of a redundant interval are used
up, a bounded wait has ended, a block that it read is no longer needed. -/
def Ctx.retired (k : Ctx) : Ctx :=
  { k with pc := k.pc + 4, pfx := none, bounded := false, block := none, fetched := none, rel := [], walked := false,
           passed := none, red := k.red.map Redundant.used }

/-- x[d] := v and, under a copying prefix, the copy register too (R457). -/
def Ctx.wxCopy (k : Ctx) (d : BitVec 5) (v : Word) : Ctx :=
  match k.copyReg with
  | some r => (k.wx d v).wx r v
  | none => k.wx d v

/-- f[d] := v and, under a copying prefix, the copy register too (R457). -/
def Ctx.wfCopy (k : Ctx) (d : BitVec 5) (v : Word) : Ctx :=
  match k.copyReg with
  | some r => (k.wf d v).wf r v
  | none => k.wf d v

/-- Retire without a register result. -/
def State.retire (s : State) (c : CtxId) : State := s.modCtx c Ctx.retired

/-- Write x[d] and retire. -/
def State.retireX (s : State) (c : CtxId) (d : BitVec 5) (v : Word) : State :=
  s.modCtx c fun k => (k.wxCopy d v).retired

/-- Write f[d] and retire. -/
def State.retireF (s : State) (c : CtxId) (d : BitVec 5) (v : Word) : State :=
  s.modCtx c fun k => (k.wfCopy d v).retired

/-- OR flags into FSTAT (R55): bit 4 NV, 3 DZ, 2 OF, 1 UF, 0 NX. -/
def Ctx.orFlags (k : Ctx) (fl : BitVec 5) : Ctx := { k with fstat := k.fstat ||| fl }

/-- The instruction waits without a bound: its turn is used and it issues again, and an asynchronous trap may come between,
also after a bounded wait of the same instruction (R301, R321, R322). -/
def State.stall (s : State) (c : CtxId) : State := s.modCtx c fun k => { k with bounded := false, passed := some k.pc }

/-- The instruction is in a bounded wait: asynchronous traps are held until it completes (R322); at a close that a mismatch has
ended the member takes its gang_stop (R511).  The word has passed the checks of decode (R494). -/
def State.stallBounded (s : State) (c : CtxId) : State :=
  s.modCtx c fun k => { k with bounded := !k.closeFailed, passed := some k.pc }

/-- The fetch of an instruction is in a bounded wait (R322). -/
def State.stallFetch (s : State) (c : CtxId) : State := s.modCtx c fun k => { k with bounded := true }

/-- The context waits out of its turns, without a bound (R282, R283, R322). -/
def Ctx.park (k : Ctx) (p : Park) : Ctx := { k with run := .parked p, bounded := false, passed := some k.pc }

/-! Memory. -/

/-- What a byte that nothing has written reads as: WP in the error log of every die is 1 (R498), every other byte is zero (log
entry 3). -/
def blankByte (a : Nat) : Byte := if a % 2 ^ 42 = 32767 * 2097152 ∧ a / 2 ^ 42 % 16 < 12 then 1 else 0

/-- The byte at an address. -/
def Memory.read : Memory → Nat → Byte
  | [], a => blankByte a
  | (k, v) :: t, a => if a < k then blankByte a else if a = k then v else Memory.read t a

/-- Write one byte, keeping the list sorted and free of bytes that read so unlisted. -/
def Memory.write : Memory → Nat → Byte → Memory
  | [], a, b => if b = blankByte a then [] else [(a, b)]
  | (k, v) :: t, a, b =>
    if a < k then (if b = blankByte a then (k, v) :: t else (a, b) :: (k, v) :: t)
    else if a = k then (if b = blankByte a then t else (k, b) :: t)
    else (k, v) :: Memory.write t a b

/-- Every address of the list is above `a`. -/
def Memory.above (a : Nat) : Memory → Bool
  | [] => true
  | (k, _) :: _ => decide (a < k)

/-- The canonical form: addresses strictly rising, no byte that an unlisted address reads as. -/
def Memory.wf : Memory → Bool
  | [] => true
  | (k, v) :: t => decide (v ≠ blankByte k) && Memory.above k t && Memory.wf t

/-- n bytes from an address, upward. -/
def Memory.readN (m : Memory) (a : Nat) : Nat → List Byte
  | 0 => []
  | n + 1 => m.read a :: Memory.readN m (a + 1) n

/-- Write bytes from an address, upward. -/
def Memory.writeL (m : Memory) (a : Nat) : List Byte → Memory
  | [] => m
  | b :: t => Memory.writeL (m.write a b) (a + 1) t

/-- Does a unit report of a die's error log lie at the address (R498, R504): classes 0 to 10, from offset 0x10_0000 of granule
32,767? -/
def isReport (a : Nat) : Bool :=
  let off := a % 2 ^ 42
  decide (a / 2 ^ 42 % 16 < 12) && decide (32767 * 2097152 + 0x100000 ≤ off) && decide (off < 32767 * 2097152 + 0x1B0000)

/-- Write bytes from an address, upward, as an agent does: none reaches a unit report (R504). -/
def Memory.writeA (m : Memory) (a : Nat) : List Byte → Memory
  | [] => m
  | b :: t => Memory.writeA (if isReport a then m else m.write a b) (a + 1) t

/-- The physical line of an address (R325). -/
def lineOf (pa : Nat) : Nat := pa / 64

/-- The lines that bytes a to a + n - 1 meet. -/
def linesOf (a n : Nat) : List Nat := if n = 0 then [] else upFrom (a / 64) ((a + n - 1) / 64 - a / 64 + 1)

/-! The agenda. -/

/-- The event `i` may happen from `d` clk on. -/
def State.after (s : State) (d : Nat) (i : Instr) : State := { s with agenda := s.agenda ++ [(s.clk + d, i)] }

/-- The event `i` may happen from `d` clk on, unless it is due already. -/
def State.afterOnce (s : State) (d : Nat) (i : Instr) : State :=
  if s.agenda.any fun e => decide (e.2 = i) then s else s.after d i

/-- The event `i` happens after a time that is left to relative timing (R4; log entry 2). -/
def State.soon (s : State) (i : Instr) : State :=
  { s.after (1 + Config.latency s.free) i with free := s.free + 1 }

/-! Time. -/

/-- Two-millionths of a nanosecond since the base of TIME, at 2 GHz and the disciplined rate (R315, R515). -/
def State.timeParts (s : State) : Nat := s.timeFrac + ((s.clk - s.clkBase : Nat) * (1000000 + s.ppm)).toNat

/-- TIME without the difference between dies: the base and the nanoseconds since (R315, R491). -/
def State.timeBaseNow (s : State) : Nat := s.timeBase + s.timeParts / 2000000

/-- TIME as a die reads it (R35, R316): dies differ by at most 2 ns (log entry 2). -/
def State.time (s : State) (die : Nat) : Word := BitVec.ofNat 64 (s.timeBaseNow + Nat.min (Config.skew die) 2)

/-- CYCLE (R35): the clk during which the context has held its slot. -/
def State.cycle (s : State) (c : CtxId) : Word :=
  let k := s.ctx c
  match k.swOut with
  | none => BitVec.ofNat 64 (s.clk - k.cycleOff)
  | some t => BitVec.ofNat 64 (t - k.cycleOff)

/-- CTXID without the DID: slot, core, die, package (R38). -/
def State.coord (s : State) (c : CtxId) : BitVec 19 := BitVec.ofNat 19 (c + s.pkgNum * 8192)

/-- CTXID (R38). -/
def State.ctxid (s : State) (c : CtxId) : Word :=
  BitVec.ofNat 64 (c + s.pkgNum * 8192 + (s.did c).toNat * 1048576)

/-! The error log (R498, R499). -/

/-- The physical address of granule 32,767 of a die of this package. -/
def State.logBase (s : State) (die : Nat) : Nat := s.pkgNum * 2 ^ 46 + die * 2 ^ 42 + 32767 * 2097152

/-- Write a record at WP and advance WP (R498): time, kind, class, index, context, address, syndrome.  The hardware
writes it below translation and worlds. -/
def State.logError (s : State) (die kind cls idx : Nat) (ctx : Nat) (addr synd : Nat) : State :=
  let b := s.logBase die
  let wp0 := natOf (s.mem.readN b 8)
  let wp := if 1 ≤ wp0 ∧ wp0 ≤ 16383 then wp0 else 1
  let rec1 := bytesOf (s.time die).toNat 8 ++ bytesOf kind 1 ++ bytesOf cls 1 ++ bytesOf idx 2 ++ bytesOf ctx 4 ++
    bytesOf addr 8 ++ bytesOf synd 8 ++ List.replicate 32 0
  let m1 := s.mem.writeL (b + 64 * wp) rec1
  let m2 := if wp = 16383 then
      (m1.writeL b (bytesOf 1 8)).writeL (b + 8) (bytesOf (natOf (m1.readN (b + 8) 8) + 1) 8)
    else m1.writeL b (bytesOf (wp + 1) 8)
  { s with mem := m2 }

/-- Do the caches of a core hold a line (R325)? -/
def Core.keeps (k : Core) (line : Nat) : Bool :=
  (k.l2.any fun e => decide (e.line = line)) || decide (line ∈ k.l1) || k.icache.any fun e => decide (e.1 = line)

/-- The core whose copy of a line has an uncorrectable error, while it holds the line (R500). -/
def State.sramBad (s : State) (line : Nat) : Option CoreId :=
  match s.sramErrs.find? line with
  | some n => if (s.core n).keeps line then some n else none
  | none => none

/-- Does an agent of a die that reads a line meet an uncorrectable error: in HBM, or in the SRAM of a core of the die (R500)? -/
def State.badLine (s : State) (die line : Nat) : Bool :=
  decide (line ∈ s.errLines) || (match s.sramBad line with
    | some n => decide (n / 64 = die)
    | none => false)

/-- The unit index of the bank of a core's slice that holds a line (R329, R505). -/
def bankIndex (core : CoreId) (line : Nat) : Nat := core % 64 * 32 + line % 31

/-- An uncorrectable error (KIND 2) in a line (R498, R505): CLASS 8 is the HBM stack, CLASS 6 the bank of the slice whose copy has
it. -/
def State.logLineError (s : State) (die : Nat) (ctx : Nat) (line : Nat) : State :=
  let syn := (Config.syndrome s.free).toNat
  match (if line ∈ s.errLines then none else s.sramBad line) with
  | some n => s.logError (n / 64) 2 6 (bankIndex n line) ctx (line * 64) syn
  | none => s.logError die 2 8 0 ctx (line * 64) syn

/-- An uncorrectable error arises in a line (R500): in the SRAM of a core that holds it, else in its HBM stack. -/
def State.lineFails (s : State) (core : CoreId) (line : Nat) : State :=
  if (s.core core).keeps line then { s with sramErrs := s.sramErrs.set line core }
  else { s with errLines := (s.errLines ++ [line]).eraseDups }

/-- A corrected single-bit error in the data that a core read from a line (R500): 1 in the bank of its slice that holds the line
(KIND 0, CLASS 6; R329, R505), any other code but 0 in the line's HBM stack (KIND 1, CLASS 8). -/
def State.logCorrected (s : State) (core : CoreId) (ctx line : Nat) (err : BitVec 2) : State :=
  if err = 0 then s
  else if err = 1 then
    s.logError (core / 64) 0 6 (bankIndex core line) ctx (line * 64) (Config.syndrome s.free).toNat
  else s.logError (line / 2 ^ 36 % 16) 1 8 0 ctx (line * 64) (Config.syndrome s.free).toNat

/-! Traps. -/

/-- A trap: cause code, trap value, and whether a failing walk was at stage 2 (R389). -/
structure Trap where
  cause  : Nat
  val    : Word
  stage2 : Bool
deriving DecidableEq, Repr

/-- A trap whose cause is not a page fault of stage 2. -/
def mkTrap (cause : Nat) (val : Word) : Trap := { cause := cause, val := val, stage2 := false }

/-- The table mode of a cause (R389). -/
def tableMode (t : Trap) : Mode :=
  if t.cause = 1 ∨ t.cause = 15 then .h
  else if t.cause = 2 ∨ t.cause = 16 ∨ t.cause = 18 ∨ t.cause = 20 then .m
  else if (t.cause = 6 ∨ t.cause = 7 ∨ t.cause = 8) ∧ t.stage2 = true then .h
  else .s

/-- The higher of two modes. -/
def maxMode (a b : Mode) : Mode := if a.toNat ≤ b.toNat then b else a

/-- The mode that takes a trap (R390): the higher of the current mode and the table mode, and M for H in slot 7. -/
def takingMode (c : CtxId) (k : Ctx) (t : Trap) : Mode :=
  let r := maxMode k.mode (tableMode t)
  if slotOf c = 7 ∧ r = .h then .m else r

/-- The bank of a mode: U has none and reads the S bank, which no rule uses. -/
def Ctx.bank (k : Ctx) : Mode → TrapBank
  | .m => k.mb
  | .h => k.hb
  | .s => k.sb
  | .u => k.sb

/-- Replace the bank of a mode. -/
def Ctx.setBank (k : Ctx) (t : Mode) (b : TrapBank) : Ctx :=
  match t with
  | .m => { k with mb := b }
  | .h => { k with hb := b }
  | .s => { k with sb := b }
  | .u => { k with sb := b }

/-- PDID as it reads (R393): in SSTATUS and HSTATUS the partition is the context's own. -/
def State.pdid (s : State) (c : CtxId) (t : Mode) : BitVec 7 :=
  let b := (s.ctx c).bank t
  if t = .m then b.pdid else BitVec.ofNat 4 (s.part c) ++ b.pdid.extractLsb' 0 3

/-- The address in a 62-bit register field. -/
def addr62 (a : BitVec 62) : Word := a ++ 0#2

/-- The 62-bit field of an address. -/
def field62 (w : Word) : BitVec 62 := w.extractLsb' 2 62

/-- Trap entry (R395): cause, value, asynchronous flag, EPC, PFXS, taken at mode T. -/
def State.enterTrap (s : State) (c : CtxId) (cause : Nat) (val : Word) (async : Bool) (epc : Word)
    (pfxs : Option (BitVec 32)) (t : Mode) : State :=
  let k := s.ctx c
  let d := s.did c
  let b := k.bank t
  let b' : TrapBank :=
    { b with epc := field62 epc, code := BitVec.ofNat 5 cause, isAsync := async, tval := val, pm := k.mode, pdid := d,
             pae := b.ae, ae := false, platch := k.latch, pfxWord := pfxs.getD 0, pfxV := pfxs.isSome }
  let k' : Ctx :=
    { k.setBank t b' with mode := t, did := (d.extractLsb' 3 4) ++ (if t = .m then 7#3 else 0#3), pc := addr62 b.base,
                          resv := none, pfx := none, run := .running, wait := .none, bounded := false,
                          sealWait := none, block := none, fetched := none, reply := 0, rel := [], walked := false, passed := none,
                          red := k.red.map fun r => r.trapped cause, log := k.log.map fun l => l.trapped cause, traps := k.traps + 1,
                          migPc := if cause = 2 ∧ t = .m then some epc else k.migPc,
                          migSaved := k.migSaved && decide (cause ≠ 2) }
  { s.setCtx c k' with held := s.held.filter fun h => h.2 ≠ c }

/-- The PC that a synchronous trap records: the PFX word of a pair (R86, R396). -/
def Ctx.trapPc (k : Ctx) : Word := if k.pfx.isSome then k.pc - 4 else k.pc

/-- A synchronous trap of the instruction at PC (R395, R396). -/
def State.trap (s : State) (c : CtxId) (t : Trap) : State :=
  let k := s.ctx c
  s.enterTrap c t.cause t.val false k.trapPc none (takingMode c k t)

/-- A synchronous trap whose value no rule names: a free value for the cause and the PC, alike in every copy of a run (R4; log
entry 18). -/
def State.openTrap (s : State) (c : CtxId) (cause : Nat) : State :=
  s.trap c (mkTrap cause (Config.openValue (2 ^ 90 + cause * 2 ^ 64 + (s.ctx c).trapPc.toNat)))

/-- An asynchronous trap at the boundary before PC: a pending prefix is saved in PFXS (R396). -/
def State.asyncTrap (s : State) (c : CtxId) (cause : Nat) (val : Word) (t : Mode) : State :=
  let k := s.ctx c
  s.enterTrap c cause val true k.pc (k.pfx.map Prefix.word) t

/-- The mode at which a pending asynchronous cause of a context would be taken (R389, R390): machine_check M, gang_stop S,
which a member at H or M takes when it leaves that mode (R399), lane_reclaim_notify the mode of slot 7. -/
def asyncMode (c : CtxId) (k : Ctx) (cause : Nat) : Mode :=
  if cause = 22 then k.mode else if cause = 21 then .s else takingMode c k (mkTrap cause 0)

/-- May a trap taken at T interrupt the context now (R397)? -/
def asyncAllowed (k : Ctx) (t : Mode) : Bool :=
  decide (k.mode.toNat < t.toNat) || (decide (k.mode = t) && (k.bank t).ae)

/-- The pending asynchronous trap that is taken first at a boundary: cause, value, mode (R391, R397). -/
def Ctx.pendingAsync (c : CtxId) (k : Ctx) : Option (Nat × Word × Mode) :=
  let try1 (cause : Nat) (p : Option Word) : Option (Nat × Word × Mode) :=
    match p with
    | some v => if asyncAllowed k (asyncMode c k cause) then some (cause, v, asyncMode c k cause) else none
    | none => none
  match try1 20 k.pendMc with
  | some r => some r
  | none => match try1 21 k.pendStop with
    | some r => some r
    | none => try1 22 k.pendLane

/-- A machine check is pending for a context, with its trap value (R187, R241, R500). -/
def State.raiseMc (s : State) (c : CtxId) (v : Word) : State := s.modCtx c fun k => { k with pendMc := some v }

/-- The effect of ERET through bank B of mode `t` on a context (R398): it clears the reservation and restores PC, mode,
DID, AE, the latch and a saved prefix. -/
def Ctx.returned (k : Ctx) (t : Mode) : Ctx :=
  let b := k.bank t
  let k1 := k.setBank t { b with ae := b.pae, pfxWord := if b.pfxV then 0 else b.pfxWord, pfxV := false }
  { k1 with pc := addr62 b.epc, mode := b.pm, did := b.pdid, latch := b.platch, resv := none, bounded := false, passed := none, fetched := none,
            traps := k.traps - 1, migPc := if t = .m ∧ b.pm ≠ .m then none else k.migPc, pfx := if b.pfxV then some { word := b.pfxWord, restored := true } else none }

/-! Gangs (R274-R277). -/

/-- The gang that a context is in, as it reads it: none while it runs behind a call gate (R452). -/
def Ctx.gangSeen (k : Ctx) : Nat := if k.depth = 0 then k.gang else 0

/-- The gang of an index, if the entry is not free. -/
def State.gang? (s : State) (g : Nat) : Option Gang := s.gangs.find? g

/-- Is the context a member of a stopped gang, or of a stopping one whose gang_stop it has taken (R276, R399, R400)? -/
def State.inStopped (s : State) (c : CtxId) : Bool :=
  match s.gang? (s.ctx c).gang with
  | some g =>
    (decide (g.st = .stopped) || (decide (g.st = .stopping) && (s.ctx c).pendStop.isNone)) &&
      decide ((s.ctx c).gang ≠ 0)
  | none => false

/-- Every member of a gang has a pending gang_stop, and the gang is stopping (R276, R399). -/
def State.stopGang (s : State) (g : Nat) : State :=
  match s.gang? g with
  | none => s
  | some e =>
    if e.st = .active then
      let s1 := { s with gangs := s.gangs.set g { e with st := .stopping } }
      e.members.foldl (fun t c => t.modCtx c fun k => { k with pendStop := some (BitVec.ofNat 64 g) }) s1
    else s

/-- The narrowest scope that holds two contexts of this package (R347). -/
def narrowScope (a b : CtxId) : Nat :=
  if coreOf a = coreOf b then 0
  else if dieOf a ≠ dieOf b then 3
  else if clusterOf (coreOf a) = clusterOf (coreOf b) then 1 else 2

/-- A context is ready on its turn (R301): in rotation, not switched out, and no unit makes it wait. -/
def State.ready (s : State) (c : CtxId) : Bool :=
  let k := s.ctx c
  decide (k.run = .running) && decide (k.wait = .none) && k.swOut.isNone && decide (k.notBefore ≤ s.clk)

end Sys2Proof.Machine
end

