-- ==== Sys2Proof/Machine/Array.lean ====
section
/-! DEFINITION. The matrix array: tiles and planes (R212-R215), what a queued matrix instruction does when it completes
(R57, R58, R223-R231), its flags in MSTAT (R55, R237), residue failures (R241). -/

namespace Sys2Proof.Machine

/-- Row i of tile n: 64 cells of 32 bits (R24). -/
def Core.tileRow (k : Core) (n i : Nat) : BitVec 2048 :=
  if h : n * 128 + i < 512 then k.acc[n * 128 + i]'h else 0

/-- Write row i of tile n. -/
def Core.setTileRow (k : Core) (n i : Nat) (v : BitVec 2048) : Core := { k with acc := k.acc.setIfInBounds (n * 128 + i) v }

/-- Write rows `lo` to `lo + n - 1` of a tile. -/
def Core.mapTile (k : Core) (tile lo n : Nat) (f : Nat → BitVec 2048) : Core :=
  (upFrom lo n).foldl (fun t i => t.setTileRow tile i (f i)) k

/-- Bits of an element of a matrix operand (R220): formats 0-8, INT8 and UINT8. -/
def matWidth (fmt : Nat) : Nat := if fmt ≤ 8 then (fmtOf fmt).width else 8

/-- Columns of a plane (R215). -/
def planeCols (fmt : Nat) : Nat := if fmt = 0 then 32 else 64

/-- Bytes of a plane row (R215). -/
def planeRowBytes (fmt : Nat) : Nat := planeCols fmt * matWidth fmt / 8

/-- K-rows that a plane holds (R215). -/
def planeCapacity (fmt : Nat) : Nat := if fmt = 0 then 4 else if fmt = 1 then 16 else 64

/-- The tag of an accumulator format by operand format (R214, R57): FP64, INT32, FP32. -/
def accTag (fmt : Nat) : Nat := if fmt = 0 then 2 else if 9 ≤ fmt then 3 else 1

/-- Group size (R57). -/
def groupSize (fmt : Nat) : Nat := if fmt ≤ 1 then 1 else if fmt ≤ 3 then 16 else 32

/-- Element (k, j) of a plane in a format (R215). -/
def planeEl (plane : BitVec 65536) (fmt k j : Nat) : Nat :=
  sliceNat plane (8 * planeRowBytes fmt * k + matWidth fmt * j) (matWidth fmt)

/-- Element (i, k) of an A operand of `rows` rows (R220). -/
def aEl (str fmt rows i k : Nat) : Nat := (str >>> ((k * rows + i) * matWidth fmt)) % 2 ^ matWidth fmt

/-- The integer of an INT8 or UINT8 element. -/
def matInt (fmt x : Nat) : Int := if fmt = 10 then (x : Int) else toSigned 8 x

/-- The E8M0 scale of a byte of a scale row (R45, R220). -/
def scaleAt (row b : Nat) : Option Int := e8m0 ((row >>> (8 * b)) % 256)

/-- Multiply a value by 2^x. -/
def FVal.scale (x : Int) : FVal → FVal
  | .fin s m e => .fin s m (e + x)
  | .inf s => .inf s
  | .nan g => .nan g

/-- One group of R57 for one cell: the accumulator value, the element pairs, the scale (none: scale NaN), the rounding. -/
def groupFp (acc : Fmt) (rm : Nat) (c : Nat) (ps : List (FVal × FVal)) (scale : Option Int) : Nat × BitVec 5 :=
  let cv := acc.value c
  let prods := ps.map fun p => (exactMul p.1 p.2).1
  match scale with
  | none => (acc.nanBits, flNV)
  | some x =>
    if cv.isNan || (ps.any fun p => p.1.isNan || p.2.isNan) || prods.any FVal.isNan then (acc.nanBits, flNV)
    else
      let r := exactSum rm (cv :: prods.map (FVal.scale x))
      let z := acc.store false rm r.1
      (z.1, r.2 ||| z.2)

/-- The groups of R57 over K steps for one cell, with a bound on their count. -/
def cellFp (acc : Fmt) (rm g k : Nat) (pair : Nat → FVal × FVal) (scale : Nat → Option Int) :
    Nat → Nat → Nat × BitVec 5 → Nat × BitVec 5
  | 0, _, st => st
  | n + 1, k0, st =>
    if k ≤ k0 then st
    else
      let r := groupFp acc rm st.1 ((upFrom k0 (min g (k - k0))).map pair) (scale k0)
      cellFp acc rm g k pair scale n (k0 + g) (r.1, st.2 ||| r.2)

/-- The groups of R58 over K steps for one integer cell: the value modulo 2^32, and whether a group overflowed. -/
def cellInt (g k : Nat) (prod : Nat → Int) : Nat → Nat → Nat × Bool → Nat × Bool
  | 0, _, st => st
  | n + 1, k0, st =>
    if k ≤ k0 then st
    else
      let sum := toSigned 32 st.1 + ((upFrom k0 (min g (k - k0))).map prod).foldl (· + ·) 0
      cellInt g k prod n (k0 + g) (wrap 32 sum, st.2 || decide (sum < -(2 ^ 31) ∨ 2 ^ 31 - 1 < sum))

/-- The flags of R54 as MSTAT holds them (R55): NV bit 1, NX bit 2, UF bit 3, OF bit 4. -/
def mstatFlags (fl : BitVec 5) : BitVec 6 :=
  (if fl &&& flNV ≠ 0 then 2#6 else 0) ||| (if fl &&& flNX ≠ 0 then 4#6 else 0) |||
    (if fl &&& flUF ≠ 0 then 8#6 else 0) ||| (if fl &&& flOF ≠ 0 then 16#6 else 0)

/-- Row i of a tile after an outer product (R227), and its flags. -/
def outerRow (plane : BitVec 65536) (old : BitVec 2048) (fmt pf k p0 rows rm str : Nat) (scales : Option (Nat × Nat)) (i : Nat) :
    BitVec 2048 × BitVec 6 :=
  let g := groupSize fmt
  let cw := if fmt = 0 then 64 else 32
  (upFrom 0 (if fmt = 0 then 32 else 64)).foldl (fun acc j =>
    let c := sliceNat acc.1 (cw * j) cw
    if 9 ≤ fmt then
      let r := cellInt g k (fun t => matInt fmt (aEl str fmt rows i t) * matInt pf (planeEl plane pf (p0 + t) j)) 64 0 (c, false)
      (putSlice acc.1 (cw * j) cw r.1, acc.2 ||| (if r.2 then 1#6 else 0))
    else
      let sc (k0 : Nat) : Option Int := match scales with
        | none => some 0
        | some s =>
          let row := if k0 < 32 then s.1 else s.2
          match scaleAt row i, scaleAt row (rows + j) with
          | some x, some y => some (x + y)
          | some _, none => none
          | none, _ => none
      let r := cellFp (fmtOf (if fmt = 0 then 0 else 1)) rm g k
        (fun t => ((fmtOf fmt).value (aEl str fmt rows i t), (fmtOf pf).value (planeEl plane pf (p0 + t) j))) sc 64 0 (c, 0)
      (putSlice acc.1 (cw * j) cw r.1, acc.2 ||| mstatFlags r.2)) (old, 0)

/-- The value of logical column j of a tile row under its tag (R214, R229), and whether it is a signalling NaN. -/
def columnValue (row : BitVec 2048) (tag j : Nat) : FVal :=
  if tag = 2 then (fmtOf 0).value (sliceNat row (64 * j) 64)
  else
    let c := sliceNat row (32 * j) 32
    if tag = 3 then FVal.ofInt (toSigned 32 c)
    else if tag ≤ 1 then (fmtOf 1).value c
    else (fmtOf (tag - 2)).value c

/-- Row of a tile after MCVT (R229), and its flags. -/
def convertRow (old : BitVec 2048) (fmt rm tag : Nat) (sat : Bool) : BitVec 2048 × BitVec 6 :=
  (upFrom 0 (if tag = 2 then 32 else 64)).foldl (fun acc j =>
    let v := columnValue old tag j
    let z := (fmtOf fmt).store sat rm v
    (putSlice acc.1 (32 * j) 32 z.1, acc.2 ||| mstatFlags (z.2 ||| nvIf v.isSig))) (if tag = 2 then 0 else old, 0)

/-- Rows computed one by one, with their flags. -/
def Core.rowsWith (k : Core) (tile rows : Nat) (f : Nat → BitVec 2048 × BitVec 6) : Core × BitVec 6 :=
  (upFrom 0 rows).foldl (fun acc i =>
    let r := f i
    (acc.1.setTileRow tile i r.1, acc.2 ||| r.2)) (k, 0)

/-- What a queued matrix instruction does to the array, and the MSTAT bits it raises. -/
def Core.applyMOp (k : Core) (o : MOp) : Core × BitVec 6 :=
  match o with
  | .zero n => (k.mapTile n 0 128 fun _ => 0, 0)
  | .load fmt n str => ({ k with shadow := BitVec.ofNat 65536 (str % 2 ^ (8 * planeRowBytes fmt * n)) }, 0)
  | .swap => ({ k with plane := k.shadow, shadow := k.plane }, 0)
  | .outer n fmt pf kk p0 rows rm str sc =>
    k.rowsWith n rows fun i => outerRow k.plane (k.tileRow n i) fmt pf kk p0 rows rm str sc i
  | .convert n fmt rm rows tag sat => k.rowsWith n rows fun i => convertRow (k.tileRow n i) fmt rm tag sat
  | .write n i0 cnt str => (k.mapTile n i0 cnt fun i => BitVec.ofNat 2048 (str >>> (2048 * (i - i0))), 0)
  | .shape clear => (if clear then (upFrom 0 4).foldl (fun t n => t.mapTile n 64 64 fun _ => 0) k else k, 0)

/-- The tile that a queued instruction writes. -/
def MOp.tile : MOp → Option Nat
  | .zero n => some n
  | .load _ _ _ => none
  | .swap => none
  | .outer n _ _ _ _ _ _ _ _ => some n
  | .convert n _ _ _ _ _ => some n
  | .write n _ _ _ => some n
  | .shape _ => none

/-- Does a queued instruction read vector registers (R223, R227, R231)? -/
def MOp.readsVector : MOp → Bool
  | .zero _ => false
  | .load _ _ _ => true
  | .swap => false
  | .outer _ _ _ _ _ _ _ _ _ => true
  | .convert _ _ _ _ _ _ => false
  | .write _ _ _ _ => true
  | .shape _ => false

/-- A queued instruction completes (R237).  A failed residue or parity check (`residue`) and an uncorrectable error in a vector
register that it read (`vreg`) write all ones to its tile; the first sets RES too (R241). -/
def Core.completeEntry (k : Core) (e : MEntry) (residue vreg : Bool) : Core :=
  let r := k.applyMOp e.op
  let fl := if residue && e.op.tile.isSome then r.2 ||| 32#6 else r.2
  let k1 := match e.op.tile with
    | some n => if residue || vreg then r.1.mapTile n 0 e.rows fun _ => BitVec.allOnes 2048 else r.1
    | none => r.1
  { k1 with mstat := k1.mstat ||| fl.zeroExtend 64 }

/-- Every queued instruction of a core completes, in order. -/
def Core.drainArray (k : Core) : Core :=
  { k.mq.foldl (fun t e => t.completeEntry e false false) k with mq := [] }

end Sys2Proof.Machine
end

