-- ==== Sys2Proof/Machine/Translate.lean ====
section
/-! DEFINITION. Physical addresses (R327), two-stage translation (R414-R420), worlds and granules (R423-R425), line DIDs
(R435, R436) and sealed ranges (R265): the checks of an access to generic memory, in the order of R119. -/

namespace Sys2Proof.Machine

/-- The kinds of access that the permission rules tell apart (R419). -/
inductive AccKind where
  | load | store | amo | fetch
deriving DecidableEq, Repr

/-- Who makes an access: its mode, DID, stage roots, context number, and the die it acts from. -/
structure Agent where
  mode   : Mode
  did    : BitVec 7
  sptb   : Word
  hptb   : Word
  ctx    : CtxId
  die    : Nat
  secure : Bool
deriving DecidableEq, Repr

/-- The agent that a context is: secure only in M (R426). -/
def State.agent (s : State) (c : CtxId) : Agent :=
  let k := s.ctx c
  { mode := k.mode, did := s.did c, sptb := k.sptb, hptb := k.hptb, ctx := c, die := dieOf c,
    secure := decide (k.mode = .m) }

/-- Why a translation or a physical check fails: a page fault and its stage, an access or world fault, an uncorrectable
error in a table line. -/
inductive Fail where
  | page (s2 : Bool)
  | access
  | mc
deriving DecidableEq, Repr

/-- The cause of a page fault (R119, R389): an atomic is checked as a store (R126). -/
def pageCause : AccKind → Nat
  | .load => 6
  | .store => 7
  | .amo => 7
  | .fetch => 8

/-- The trap of a failed check, with the virtual address as trap value (R119, R418). -/
def Fail.trap (f : Fail) (kind : AccKind) (va : Word) : Trap :=
  match f with
  | .page s2 => { cause := pageCause kind, val := va, stage2 := s2 }
  | .access => mkTrap 9 va
  | .mc => mkTrap 20 va

/-! Physical addresses. -/

/-- What lies at a physical address (R327, R462). -/
inductive Place where
  | hbm
  | host (port : Nat)
  | fcb (port fn off : Nat)
  | peer (port win off : Nat)
  | nothing
deriving DecidableEq, Repr

/-- The package field of a physical address. -/
def pkgOf (pa : Nat) : Nat := pa / 2 ^ 46

/-- The die field of a physical address. -/
def dieField (pa : Nat) : Nat := pa / 2 ^ 42 % 16

/-- The table key of the home die of a physical address (R328). -/
def State.homeKey (s : State) (pa : Nat) : Nat :=
  if pkgOf pa = s.pkgNum then dieField pa else 16 * (pkgOf pa + 1) + dieField pa

/-- What lies at a physical address (R327, R462): a stack that boot skipped holds nothing (R489). The ports 0 and 1 are those
of this package; 2 x (package + 1) and the next are those of a joined one. -/
def State.place (s : State) (pa : Nat) : Place :=
  let off := pa % 2 ^ 42
  if ¬ (pkgOf pa = s.pkgNum ∨ pkgOf pa ∈ s.joined) then .nothing
  else if dieField pa < 12 then
    if off < 2 ^ 36 ∧ (s.die (s.homeKey pa)).stack = 0 then .hbm else .nothing
  else if dieField pa < 14 then
    let port := (if pkgOf pa = s.pkgNum then 0 else 2 * (pkgOf pa + 1)) + (dieField pa - 12)
    if off < 2 ^ 41 then .host port
    else
      let o := off - 2 ^ 41
      if o < 2 ^ 36 then (if o / 4096 ≤ 48 then .fcb port (o / 4096) (o % 4096) else .nothing)
      else if o / 2 ^ 36 - 1 < 31 then .peer port (o / 2 ^ 36 - 1) (o % 2 ^ 36) else .nothing
  else .nothing

/-- The granule entry of a physical address (R424); that of a joined package is its own firmware's (log entry 59). -/
def State.granule (s : State) (pa : Nat) : Granule :=
  let n := pa % 2 ^ 42 / 2 ^ 21
  if pkgOf pa = s.pkgNum then (s.die (s.homeKey pa)).granules.getD n Granule.reset
  else
    let f := Config.farGranule (s.homeKey pa * 32768 + n)
    { w := f.2, part := 0, any := f.1, gf := false }

/-- The granule check (R425): may the agent reach these bytes of HBM? -/
def State.granuleOk (s : State) (ag : Agent) (pa : Nat) : Bool :=
  let g := s.granule pa
  !g.gf && (ag.secure || !g.w) &&
    (g.any || (decide (g.part.toNat = partOf ag.did) || decide (ag.mode = .m)) && decide (pkgOf pa = s.pkgNum))

/-- The tag of a line: boot leaves S = 1 (R435). -/
def State.tag (s : State) (line : Nat) : LineTag := s.tags.getD line { shared := true, ldid := 0 }

/-- The sealed or draining entry that holds a physical address (R264), by its index in the home die's table. -/
def State.sealAt (s : State) (pa : Nat) : Option (Nat × Seal) :=
  List.find? (fun e : Nat × Seal => decide (e.2.base ≤ pa ∧ pa < e.2.base + e.2.len)) (s.die (s.homeKey pa)).seals

/-! What an agent reads. -/

/-- Does a write that is not yet performed at its home reach a reader: its own context, or for a far line its die once it is
in the die's caches (R350)? -/
def PWrite.visible (p : PWrite) (c : CtxId) (die : Nat) : Bool :=
  decide (p.owner = c) || (p.atDie && !p.near && decide (p.die = die))

/-- Pending writes in the order in which a reader sees them: those in its die's caches as they came there, then its own that
are still on their way there (R188, R348). -/
def inOrder (ps : List PWrite) : List PWrite := (ps.filter fun p => p.atDie) ++ ps.filter fun p => !p.atDie

/-- The byte that a list of pending writes leaves, the latest last. -/
def overlay (c : CtxId) (die a : Nat) : List PWrite → Byte → Byte
  | [], b => b
  | p :: t, b =>
    overlay c die a t (if p.visible c die ∧ p.addr ≤ a ∧ a < p.addr + p.bytes.length then p.bytes.getD (a - p.addr) 0 else b)

/-- The byte that the commit buffer of a redundant context leaves, the latest last (R509). -/
def overlayStores (a : Nat) : List (Nat × List Byte × Bool × BitVec 7) → Byte → Byte
  | [], b => b
  | (p, bs, _, _) :: t, b => overlayStores a t (if p ≤ a ∧ a < p + bs.length then bs.getD (a - p) 0 else b)

/-- The byte that context `c` on a die reads at a physical address: the latest write it may see (R348, R350), and its own
commit buffer (R509). -/
def State.viewByte (s : State) (c : CtxId) (die a : Nat) : Byte :=
  let b := overlay c die a (inOrder s.pend) (s.mem.read a)
  match (s.ctx c).red with
  | some r => overlayStores a r.stores b
  | none => b

/-- n bytes that a context reads from a physical address. -/
def State.view (s : State) (c : CtxId) (die a : Nat) : Nat → List Byte
  | 0 => []
  | n + 1 => s.viewByte c die a :: State.view s c die (a + 1) n

/-! Functions that serve a DID (R460, R461). -/

/-- The function of a port that serves a DID: the PF of the partition's own port (R460: port 0 for partitions 0 to 7, port 1
for 8 to 15) for local domains 0 and 7, if PFPART names the partition. -/
def State.servingFn (s : State) (port : Nat) (did : BitVec 7) : Option Nat :=
  let l := localOf did
  if l = 0 ∨ l = 7 then
    if partOf did / 8 = port % 2 ∧ (s.fn port 0).pfpart.toNat = partOf did then some 0 else none
  else
    let v := 6 * partOf did + l
    if (v - 1) / 48 = port % 2 then some ((v - 1) % 48 + 1) else none

/-- The DID that a function serves (R460). -/
def State.fnDid (s : State) (port fn : Nat) : BitVec 7 :=
  if fn = 0 then BitVec.ofNat 7 (8 * (s.fn port 0).pfpart.toNat)
  else
    let v := 48 * port + fn
    BitVec.ofNat 7 (8 * ((v - 1) / 6) + (v - 1) % 6 + 1)

/-! Page tables. -/

/-- A leaf of a walk: output address, page size, permissions, U, G, SH. -/
structure Leaf where
  pa   : Nat
  size : Nat
  r    : Bool
  w    : Bool
  x    : Bool
  u    : Bool
  g    : Bool
  sh   : Bool
deriving DecidableEq, Repr

/-- The address field [51:12] of a table entry (R417). -/
def entryAddr (e : Word) : Nat := bits e 51 12 * 4096

/-- The conditions of R418 that hold of every entry at every level. -/
def entryValid (s2 : Bool) (e : Word) : Bool :=
  bit e 0 && zeroBits e 11 9 && zeroBits e 63 52 && !(s2 && (bit e 5 || bit e 6)) && !(bit e 3 && !bit e 2)

/-- A leaf entry with a page of `size` bytes: a page fault if its address is not aligned to the page (R418). -/
def leafOf (s2 : Bool) (e : Word) (size a : Nat) : Except Fail Leaf :=
  if entryValid s2 e && !bit e 1 && decide (entryAddr e % size = 0) then
    .ok { pa := entryAddr e + a % size, size := size, r := bit e 2, w := bit e 3, x := bit e 4, u := bit e 5, g := bit e 6,
          sh := bit e 7 }
  else .error (.page s2)

/-- A walk from a table, with the levels still below it (R416, R418): level 3 reads the first entry of its group of
sixteen first, which decides if it is a 64 KiB page. -/
def walkFrom (rd : Nat → Except Fail Word) (s2 : Bool) (a : Nat) : Nat → Nat → Except Fail Leaf
  | 0, t =>
    let i := a / 2 ^ 12 % 512
    let g := i / 16 * 16
    match rd (t + 8 * g) with
    | .error f => .error f
    | .ok e0 =>
      if bit e0 0 && bit e0 8 then leafOf s2 e0 65536 a
      else if i = g then (if bit e0 8 then .error (.page s2) else leafOf s2 e0 4096 a)
      else match rd (t + 8 * i) with
        | .error f => .error f
        | .ok e => if bit e 8 then .error (.page s2) else leafOf s2 e 4096 a
  | n + 1, t =>
    match rd (t + 8 * (a / 2 ^ (12 + 9 * (n + 1)) % 512)) with
    | .error f => .error f
    | .ok e =>
      if !entryValid s2 e || bit e 8 then .error (.page s2)
      else if bit e 1 then walkFrom rd s2 a n (entryAddr e)
      else if n = 2 then .error (.page s2)
      else leafOf s2 e (2 ^ (12 + 9 * (n + 1))) a

/-- The state of a port (R478). -/
def State.portState (s : State) (p : Nat) : BitVec 2 := (s.ports.toList.getD p { state := 0 }).state

/-- The state of a link of a route, package x 32 + port (R476): the ports of other packages are taken to be up (log entry 40). -/
def State.linkState (s : State) (l : Nat) : BitVec 2 := if l / 32 = s.pkgNum then s.portState (l % 32) else 2

/-- Does a route to the package still stand, all its links up (R476)? -/
def State.routeUp (s : State) (pkg : Nat) : Bool :=
  decide (pkg = s.pkgNum) || (s.routes.getD pkg []).any fun r => r.all fun l => decide (s.linkState l = 2)

/-- Do the flits to a package wait for links that retrain (R476): no route is up, but one has only links that are up or
retrain? -/
def State.routeWaits (s : State) (pkg : Nat) : Bool :=
  !s.routeUp pkg &&
    (s.routes.getD pkg []).any fun r => r.all fun l => decide (s.linkState l = 2) || decide (s.linkState l = 1)

/-- Read a table entry at a physical address as an access of the agent (R416): checked against its granule, in host memory
against the function that serves it (R461), never under R436; without a route to its package the walk ends in machine_check
(R476). -/
def State.readTable (s : State) (ag : Agent) (pa : Nat) : Except Fail Word :=
  if s.place pa = .hbm then
    if !s.granuleOk ag pa then .error .access
    else if !s.routeUp (pkgOf pa) then .error .mc
    else if s.badLine ag.die (lineOf pa) = true then .error .mc
    else .ok (wordOf (s.view ag.ctx ag.die pa 8))
  else if (match s.place pa with
      | .host p => (s.servingFn p ag.did).isSome
      | _ => false) then
    if !s.routeUp (pkgOf pa) then .error .mc else .ok (wordOf (s.view ag.ctx ag.die pa 8))
  else .error .access

/-- Is stage 1 on for the agent (R414)? -/
def Agent.stage1 (ag : Agent) : Bool := (decide (ag.mode = .u) || decide (ag.mode = .s)) && bit ag.sptb 0

/-- Is stage 2 on for the agent (R414)? -/
def Agent.stage2 (ag : Agent) : Bool := decide (ag.mode ≠ .m) && bit ag.hptb 0

/-- Stage 2 of an intermediate address (R414, R416): an IPA above 48 bits is a stage-2 page fault. -/
def State.walk2 (s : State) (ag : Agent) (ipa : Nat) : Except Fail Leaf :=
  if ag.stage2 then
    if 2 ^ 48 ≤ ipa then .error (.page true)
    else walkFrom (s.readTable ag) true ipa 3 (entryAddr ag.hptb)
  else .ok { pa := ipa, size := 2 ^ 52, r := true, w := true, x := true, u := false, g := false, sh := false }

/-- Read a stage-1 table entry: its address is an IPA, whose stage 2 must grant R (R416). -/
def State.readTable1 (s : State) (ag : Agent) (ipa : Nat) : Except Fail Word :=
  match s.walk2 ag ipa with
  | .error f => .error f
  | .ok l => if l.r then s.readTable ag l.pa else .error (.page true)

/-- A combined translation: physical address, the smaller page size, the permissions of both stages, SH (R419, R420). -/
structure Xlat where
  pa   : Nat
  size : Nat
  st1  : Bool
  st2  : Bool
  g    : Bool
  r1   : Bool
  w1   : Bool
  x1   : Bool
  u1   : Bool
  r2   : Bool
  w2   : Bool
  x2   : Bool
  sh   : Bool
deriving DecidableEq, Repr

/-- Both walks of a virtual address that is canonical (R414-R418). -/
def State.walk (s : State) (ag : Agent) (va : Word) : Except Fail Xlat :=
  if ag.mode = .m then
    .ok { pa := bits va 51 0, size := 2 ^ 52, st1 := false, st2 := false, g := false, r1 := true, w1 := true, x1 := true,
          u1 := true, r2 := true, w2 := true, x2 := true, sh := false }
  else
    let a := bits va 47 0
    if ag.stage1 then
      match walkFrom (s.readTable1 ag) false a 3 (entryAddr ag.sptb) with
      | .error f => .error f
      | .ok l1 =>
        match s.walk2 ag l1.pa with
        | .error f => .error f
        | .ok l2 =>
          .ok { pa := l2.pa, size := Nat.min l1.size l2.size, st1 := true, st2 := ag.stage2, g := l1.g, r1 := l1.r,
                w1 := l1.w, x1 := l1.x, u1 := l1.u, r2 := l2.r, w2 := l2.w, x2 := l2.x, sh := l1.sh || l2.sh }
    else
      match s.walk2 ag a with
      | .error f => .error f
      | .ok l2 =>
        .ok { pa := l2.pa, size := l2.size, st1 := false, st2 := ag.stage2, g := false, r1 := true, w1 := true,
              x1 := true, u1 := true, r2 := l2.r, w2 := l2.w, x2 := l2.x, sh := l2.sh }

/-- The cluster whose translation cache and walkers serve an agent (R344): die x 8 + cluster, that of its context. -/
def Agent.cluster (ag : Agent) : Nat := ag.ctx / 64

/-- Where the translations of an agent are cached (R420): nearest first. -/
def Agent.tlbHomes (ag : Agent) : List TlbHome := [.context ag.ctx, .core (coreOf ag.ctx), .cluster ag.cluster]

/-- Entries that a home of translations holds at most (R420). -/
def TlbHome.capacity : TlbHome → Nat
  | .context _ => 64
  | .core _ => 512
  | .cluster _ => 8192

/-- Does a cached entry serve the agent's access to this address (R420)? -/
def TlbEntry.covers (e : TlbEntry) (ag : Agent) (va : Word) : Bool :=
  decide (e.home ∈ ag.tlbHomes) && decide (e.did = ag.did) && decide (e.st1 = ag.stage1) && decide (e.st2 = ag.stage2) &&
    (e.g || decide (e.asid = BitVec.ofNat 12 (bits ag.sptb 63 52))) &&
    decide (e.vmid = BitVec.ofNat 12 (bits ag.hptb 63 52)) &&
    decide (bits va 47 0 / e.size = e.vpage)

/-- The translation that a cached entry gives. -/
def TlbEntry.xlat (e : TlbEntry) (va : Word) : Xlat :=
  { pa := e.ppage * e.size + bits va 47 0 % e.size, size := e.size, st1 := e.st1, st2 := e.st2, g := e.g, r1 := e.r1,
    w1 := e.w1, x1 := e.x1, u1 := e.u1, r2 := e.r2, w2 := e.w2, x2 := e.x2, sh := e.sh }

/-- The cached translation that serves an access (R420), of the nearest home that has one: one that agrees with the tables, or one that does not where timing
has it so, alike for every address of its page within one step (R421; log entry 2). -/
def State.cachedXlat (s : State) (ag : Agent) (va : Word) : Option Xlat :=
  match ag.tlbHomes.findSome? (fun h => s.tlb.find? fun e => decide (e.home = h) && e.covers ag va) with
  | none => none
  | some e =>
    if (match s.walk ag va with
        | .ok y => decide (y = e.xlat va)
        | .error _ => false) || Config.choice s.free (e.vpage * e.size) then some (e.xlat va)
    else none

/-- The translation of an access (R420): a cached one or a new walk. -/
def State.xlat (s : State) (ag : Agent) (va : Word) : Except Fail Xlat :=
  match s.cachedXlat ag va with
  | some x => .ok x
  | none => s.walk ag va

/-- The addresses of the table entries that a walk reads (R416). -/
def walkReads (rd : Nat → Except Fail Word) (s2 : Bool) (a : Nat) : Nat → Nat → List Nat
  | 0, t =>
    let i := a / 2 ^ 12 % 512
    let g := i / 16 * 16
    match rd (t + 8 * g) with
    | .error _ => [t + 8 * g]
    | .ok e0 => if bit e0 0 && bit e0 8 || decide (i = g) then [t + 8 * g] else [t + 8 * g, t + 8 * i]
  | n + 1, t =>
    let p := t + 8 * (a / 2 ^ (12 + 9 * (n + 1)) % 512)
    match rd p with
    | .error _ => [p]
    | .ok e => if entryValid s2 e && !bit e 8 && bit e 1 then p :: walkReads rd s2 a n (entryAddr e) else [p]

/-- The table entries that stage 2 of an intermediate address reads. -/
def State.walk2Reads (s : State) (ag : Agent) (ipa : Nat) : List Nat :=
  if ag.stage2 && decide (ipa < 2 ^ 48) then walkReads (s.readTable ag) true ipa 3 (entryAddr ag.hptb) else []

/-- The addresses of the table entries that both walks of a virtual address read. -/
def State.walkAddrs (s : State) (ag : Agent) (va : Word) : List Nat :=
  let a := bits va 47 0
  if ag.mode = .m then []
  else if ag.stage1 then
    ((walkReads (s.readTable1 ag) false a 3 (entryAddr ag.sptb)).flatMap fun p =>
      s.walk2Reads ag p ++ (match s.walk2 ag p with
        | .ok l => [l.pa]
        | .error _ => [])) ++
    (match walkFrom (s.readTable1 ag) false a 3 (entryAddr ag.sptb) with
      | .ok l => s.walk2Reads ag l.pa
      | .error _ => [])
  else s.walk2Reads ag a

/-- The lines of the table entries that both walks of a virtual address read. -/
def State.walkLines (s : State) (ag : Agent) (va : Word) : List Nat := ((s.walkAddrs ag va).map lineOf).eraseDups

/-- Is an address canonical for a mode (R414)? -/
def canonical (md : Mode) (va : Word) : Bool := if md = .m then zeroBits va 63 52 else canonical48 va

/-- The table entries that the translation of an aligned access reads: those of a walk, where no cached translation serves
(R336, R416, R420). -/
def State.walkNeeds (s : State) (ag : Agent) (va : Word) (n : Nat) : List Nat :=
  if va.toNat % n ≠ 0 ∨ canonical ag.mode va = false ∨ (s.cachedXlat ag va).isSome then [] else s.walkAddrs ag va

/-- Does stage 2 grant the access (R419)? -/
def Xlat.grants2 (x : Xlat) : AccKind → Bool
  | .load => x.r2
  | .store => x.w2
  | .amo => x.r2 && x.w2
  | .fetch => x.x2

/-- Does stage 1 grant the access, U pages included (R419)? -/
def Xlat.grants1 (x : Xlat) (md : Mode) (kind : AccKind) : Bool :=
  !x.st1 ||
    ((match kind with
      | .load => x.r1
      | .store => x.w1
      | .amo => x.r1 && x.w1
      | .fetch => x.x1) &&
     (decide (md ≠ .u) || x.u1) && !(decide (md = .s) && decide (kind = .fetch) && x.u1))

/-- Steps 2 and 3 of R119 as far as translation goes: canonical, walk, stage-2 permission, then stage-1 permission. -/
def State.translate (s : State) (ag : Agent) (kind : AccKind) (va : Word) : Except Fail Xlat :=
  if !canonical ag.mode va then .error (.page false)
  else match s.xlat ag va with
    | .error f => .error f
    | .ok x =>
      if !x.grants2 kind then .error (.page true)
      else if !x.grants1 ag.mode kind then .error .access
      else .ok x

/-- May a scalar access go through a peer window (R471)? -/
def State.peerOk (s : State) (ag : Agent) (port win off : Nat) : Bool :=
  let p := s.peer port win
  p.v && decide (off < 2 ^ p.lsz.toNat) &&
    (decide (ag.mode = .h) || decide (ag.mode = .m) ||
      (decide (p.part.toNat = partOf ag.did) && p.ldm.getLsbD (localOf ag.did))) &&
    (match s.servingFn port ag.did with
     | some f => (s.fn port f).vfe
     | none => false)

/-- An access that has passed checks 1 to 3 of R119. -/
structure Access where
  pa    : Nat
  place : Place
  xl    : Xlat
deriving DecidableEq, Repr

/-- Checks 1 to 3 of R119 for an aligned access of w bytes: alignment, translation, permission, world, and an address
outside generic memory; then a package to which no route remains (R476).  FCBs take 8-byte scalar loads and stores only (R463). -/
def State.check3 (s : State) (ag : Agent) (kind : AccKind) (va : Word) (w : Nat) : Except Trap Access :=
  if va.toNat % w ≠ 0 then .error (mkTrap 5 va)
  else match s.translate ag kind va with
    | .error f => .error (f.trap kind va)
    | .ok x =>
      let fail : Except Trap Access := .error (mkTrap 9 va)
      match s.place x.pa with
      | .hbm =>
        if !s.granuleOk ag x.pa then fail
        else if !s.routeUp (pkgOf x.pa) then .error (mkTrap 20 va)
        else .ok { pa := x.pa, place := .hbm, xl := x }
      | .host p =>
        if (s.servingFn p ag.did).isNone then fail
        else if !s.routeUp (pkgOf x.pa) then .error (mkTrap 20 va)
        else .ok { pa := x.pa, place := .host p, xl := x }
      | .peer p n o =>
        if !s.peerOk ag p n o then fail
        else if !s.routeUp (pkgOf x.pa) then .error (mkTrap 20 va)
        else .ok { pa := x.pa, place := .peer p n o, xl := x }
      | .fcb p f o =>
        if ¬ (w = 8 ∧ (kind = .load ∨ kind = .store)) then fail
        else if !s.routeUp (pkgOf x.pa) then .error (mkTrap 20 va)
        else .ok { pa := x.pa, place := .fcb p f o, xl := x }
      | .nothing => fail

/-- Check 4 of R119 (R436): a line that another DID owns, reached through a translation that is not shared. -/
def State.lineDidOk (s : State) (ag : Agent) (a : Access) : Bool :=
  decide (a.place ≠ .hbm) || decide (ag.mode = .m) || a.xl.sh || (s.tag (lineOf a.pa)).shared ||
    decide ((s.tag (lineOf a.pa)).ldid = ag.did)

/-- Every check of R119 for a scalar access of w bytes: step 5 for writes, and the uncorrectable error of a load. -/
def State.checkAccess (s : State) (ag : Agent) (kind : AccKind) (va : Word) (w : Nat) : Except Trap Access :=
  match s.check3 ag kind va w with
  | .error t => .error t
  | .ok a =>
    if !s.lineDidOk ag a then .error (mkTrap 10 va)
    else if (kind = .store ∨ kind = .amo) ∧ (s.sealAt a.pa).isSome then .error (mkTrap 12 va)
    else if kind ≠ .store ∧ a.place = .hbm ∧ s.badLine ag.die (lineOf a.pa) = true then .error (mkTrap 20 va)
    else .ok a

/-- Does a physical range lie wholly in memory of a partition and world (R403)? -/
def State.areaOk (s : State) (part : Nat) (secure : Bool) (pa len : Nat) : Bool :=
  (upFrom (pa / 2097152) ((pa + len - 1) / 2097152 - pa / 2097152 + 1)).all fun g =>
    let a := g * 2097152
    decide (s.place a = .hbm) && decide (pkgOf a = s.pkgNum) &&
      (let e := s.granule a; !e.gf && (secure || !e.w) && (e.any || decide (e.part.toNat = part)))

end Sys2Proof.Machine
end

