-- ==== Sys2Proof/Machine/Cache.lean ====
section
/-! DEFINITION. The caches of a core and the port of its L2 slice: the lines that they hold (R325, R326), quotas (R341), token
buckets (R342, R343); leases, held misses and evictions (R336-R339). -/

namespace Sys2Proof.Machine

/-! Capacities (R325, R331, R432). -/

/-- Scratchpad size of a core in MiB (R331). -/
def Core.spsz (k : Core) : Nat := bits k.dpbank 3 0

/-- Lines that an L2 slice can hold (R325, R331). -/
def Core.l2Lines (k : Core) : Nat := (16864 - 1024 * k.spsz) * 16

/-- Lines that an L1 data cache can hold: 2 MiB (R325). -/
def l1Lines : Nat := 32768

/-- Lines that an L1 instruction cache can hold: 256 KiB (R325). -/
def icacheLines : Nat := 4096

/-- The lines that a DID may hold in the slice (R432): none where QL gives no limit. -/
def Core.quota (k : Core) (did : BitVec 7) : Option Nat :=
  let q := bits k.dpquota (8 * localOf did + 4) (8 * localOf did)
  if q = 0 then none else some ((q * k.l2Lines + 31) / 32)

/-! What a core's caches hold. -/

/-- Does the core's slice hold the line? -/
def Core.holdsLine (k : Core) (line : Nat) : Bool := k.l2.any fun e => decide (e.line = line)

/-- The line that a fill for a DID pushes out (R341): the DID's own oldest at its quota, else the oldest of a full slice. -/
def Core.victim (k : Core) (did : BitVec 7) : Option CLine :=
  let own := k.l2.filter fun e => decide (e.did = did)
  if (match k.quota did with
      | some n => decide (n ≤ own.length)
      | none => false) then own.getLast?
  else if k.l2Lines ≤ k.l2.length then k.l2.getLast? else none

/-- A line leaves the core's L1 data cache. -/
def Core.dropL1 (k : Core) (line : Nat) : Core := { k with l1 := k.l1.filter fun l => l ≠ line }

/-- A line leaves both data caches of the core. -/
def Core.dropLine (k : Core) (line : Nat) : Core :=
  { k.dropL1 line with l2 := k.l2.filter fun e => e.line ≠ line }

/-- A line that its lease no longer covers leaves the caches of the core; what a slice holds write-combining stays (R336,
R338). -/
def Core.expireLine (k : Core) (line : Nat) : Core :=
  { k.dropL1 line with l2 := k.l2.filter fun e => e.line ≠ line || e.dirty }

/-- A line is used in the L1 data cache: it is the most recent one (log entry 48). -/
def Core.touchL1 (k : Core) (line : Nat) : Core :=
  { k with l1 := (line :: k.l1.filter fun l => l ≠ line).take l1Lines }

/-- A line is used in the L2 slice by a DID: a line that the slice does not hold is filled, after the victim has left
(R325, R341). -/
def Core.touchL2 (k : Core) (did : BitVec 7) (dirty : Bool) (line : Nat) : Core :=
  match List.find? (fun e : CLine => decide (e.line = line)) k.l2 with
  | some e => { k with l2 := { e with dirty := e.dirty || dirty } :: k.l2.filter fun e => e.line ≠ line }
  | none =>
    let k1 := match k.victim did with
      | some v => k.dropLine v.line
      | none => k
    { k1 with l2 := { line := line, did := did, dirty := dirty } :: k1.l2 }

/-- The line that using a line in the slice pushes out. -/
def Core.pushedOut (k : Core) (did : BitVec 7) (line : Nat) : Option CLine :=
  if k.holdsLine line then none else k.victim did

/-- A line is filled into the L1 instruction cache, whose oldest leaves when it is full (R325; log entry 48). -/
def Core.fillIcache (k : Core) (line : Nat) (v : BitVec 512) : Core :=
  { k with icache := ((line, v) :: k.icache.erase line).take icacheLines }

/-! Token buckets (R342, R343, R433). -/

/-- RATE of a local domain: sixteenths of a token a clk (R433). -/
def Core.rate (k : Core) (l : Nat) : Nat := bits k.dptoken (8 * l + 3) (8 * l)

/-- Tokens that a full bucket holds, by the DEPTH of a DPTOKEN value (R433). -/
def bucketDepth (v : Word) (l : Nat) : Nat := 16 * 4 ^ bits v (8 * l + 5) (8 * l + 4)

/-- The bucket of a local domain, in sixteenths of a token. -/
def Core.bucket (k : Core) (l : Nat) : Nat := k.buckets.toList.getD l 0

/-- Accesses of a local domain that wait at the port. -/
def Core.waiting (k : Core) (l : Nat) : Nat := k.asked.toList.getD l 0 - k.served.toList.getD l 0

/-- The port serves the first n waiting accesses of a local domain, which spend tokens of the bucket m. -/
def Core.spend (k : Core) (l m n : Nat) : Core :=
  { k with served := k.served.setIfInBounds l (k.served.toList.getD l 0 + n),
           buckets := k.buckets.setIfInBounds m (k.bucket m - 16 * n) }

/-- The waiting accesses of a local domain are served, in order, as far as its own tokens go; without a bucket none waits
(R342, R433). -/
def Core.serve (k : Core) (l : Nat) : Core :=
  if k.rate l = 0 then { k with served := k.served.setIfInBounds l (k.asked.toList.getD l 0) }
  else k.spend l l (Nat.min (k.waiting l) (k.bucket l / 16))

/-- A line access of a local domain comes to the port (R342). -/
def Core.ask (k : Core) (l : Nat) : Core :=
  Core.serve { k with asked := k.asked.setIfInBounds l (k.asked.toList.getD l 0 + 1) } l

/-- The bucket that a domain without a token borrows from: the full one of the lowest other local domain (R343). -/
def Core.lender (k : Core) (l : Nat) : Option Nat :=
  (upFrom 0 8).find? fun m => decide (m ≠ l) && decide (k.rate m ≠ 0) && decide (k.bucket m = 16 * bucketDepth k.dptoken m)

/-- The waiting accesses of a local domain borrow a token each while a bucket is full; a lender is no longer full after one
loan (R343). -/
def Core.borrow (k : Core) (l : Nat) : Nat → Core
  | 0 => k
  | n + 1 =>
    if k.waiting l = 0 then k
    else match k.lender l with
      | some m => Core.borrow (k.spend l m 1) l n
      | none => k

/-- Buckets after one clk (R342, R433), in sixteenths of a token. -/
def Core.refilled (k : Core) : Core :=
  { k with buckets := (upFrom 0 8).foldl (fun b l =>
      if k.rate l = 0 then b
      else b.setIfInBounds l (min (16 * bucketDepth k.dptoken l) (b.toList.getD l 0 + k.rate l))) k.buckets }

/-- The port at the start of a clk (R342, R343): the buckets refill, then every domain spends its own tokens, then those
that still wait borrow, in ascending local domain number (log entry 62); deterministic mode turns borrowing off (R319). -/
def Core.portClk (k : Core) (detmode : Bool) : Core :=
  let k1 := (upFrom 0 8).foldl Core.serve k.refilled
  if detmode then k1 else (upFrom 0 8).foldl (fun q l => q.borrow l 8) k1

/-- Has the port of a core served an access (R342)? -/
def State.portServed (s : State) (core : CoreId) (t : Ticket) : Bool :=
  decide (t.no ≤ (s.core core).served.toList.getD t.dom 0)

/-- The place of the last access that a local domain has made at the port of a core. -/
def State.lastTicket (s : State) (core : CoreId) (did : BitVec 7) : Ticket :=
  { dom := localOf did, no := (s.core core).asked.toList.getD (localOf did) 0 }

/-! Leases (R336). -/

/-- The recorded expiry E of a line at its home (R336). -/
def State.expiry (s : State) (line : Nat) : Nat := (s.die (s.homeKey (line * 64))).expiry.getD line 0

/-- Is the line homed on the die (R336)? -/
def State.near (s : State) (die line : Nat) : Bool := decide (s.homeKey (line * 64) = die)

/-- May a write to these bytes be performed now: no lease is still running on their lines (R337)? -/
def State.leaseFree (s : State) (addr n : Nat) : Bool := (linesOf addr n).all fun l => decide (s.expiry l ≤ s.clk)

/-- Does a write to the line wait at its home (R337)? -/
def State.writeWaits (s : State) (line : Nat) : Bool :=
  s.held.any (fun h => decide (h.1 = line)) ||
    s.pend.any (fun p => p.waits && decide (line ∈ linesOf p.addr p.bytes.length))

/-- The router of the home die that keeps the directory entry of a line (R328). -/
def State.directory (s : State) (pa : Nat) : Nat :=
  (s.die (s.homeKey pa)).sliceMap.getD (pa % 2 ^ 42 / 64 % 64) 0

/-- Change the cores of a die. -/
def State.modDieCores (s : State) (die : Nat) (g : Core → Core) : State :=
  { s with cores := s.cores.map fun e => if e.1 / 64 = die then (e.1, g e.2) else e }

/-- The grant of a lease to a die (R336): E := max(E, now + LEN); the copy is valid until its own expiry, when every copy on
the die becomes invalid. -/
def State.grant (s : State) (die line : Nat) : State :=
  let pkgFar := decide (pkgOf (line * 64) ≠ s.pkgNum)
  let len := if pkgFar then s.leaseP else s.leaseD
  let held := if pkgFar then len - (len + 1023) / 1024 else len
  let s1 := s.modDie (s.homeKey (line * 64)) fun d =>
    { d with expiry := d.expiry.set line (Nat.max (d.expiry.getD line 0) (s.clk + len)) }
  (s1.modDie die fun d => { d with copies := d.copies.set line (s.clk + held) }).after held (.leaseExpiry die line)

/-- A read of a line by an agent of a die: a near line or a valid copy hits; a sealed line is held without a lease (R265,
R339); otherwise the miss is served with a lease, unless a write waits at the home, and then the miss is
held (none). -/
def State.readLine (s : State) (die line : Nat) : Option State :=
  if s.place (line * 64) ≠ .hbm ∨ s.near die line then some s
  else if (s.sealAt (line * 64)).isSome then some s
  else if s.clk < (s.die die).copies.getD line 0 then some s
  else if s.writeWaits line then none
  else some (s.grant die line)

/-- The reads of several lines; none if one of them is held. -/
def State.readLines (s : State) (die : Nat) : List Nat → Option State
  | [] => some s
  | l :: t => match s.readLine die l with
    | some s' => State.readLines s' die t
    | none => none

/-- The home holds the misses of a die on these lines, behind those that it holds already (R337). -/
def State.holdMisses (s : State) (die : Nat) (ls : List Nat) : State :=
  { s with misses := s.misses ++ ((ls.filter fun l => (s.readLine die l).isNone && !decide ((l, die) ∈ s.misses)).map
      fun l => (l, die)) }

/-- The misses that a home holds on a line are served, in order of arrival, once no write waits there (R337). -/
def State.serveMisses (s : State) (line : Nat) : State :=
  if s.writeWaits line then s
  else (s.misses.filter fun m => decide (m.1 = line)).foldl (fun t m => t.grant m.2 line)
    { s with misses := s.misses.filter fun m => m.1 ≠ line }

/-! Lines leave a die. -/

/-- Does a slice of the die hold a line that `sel` picks? -/
def State.dieHolds (s : State) (die : Nat) (sel : Nat → Bool) : Bool :=
  s.cores.any fun e => decide (e.1 / 64 = die) && e.2.l2.any fun l => sel l.line

/-- A die holds no line of a sealed buffer any more (R265): its count falls, and a buffer that drains is freed at 0. -/
def State.leaveSeal (s : State) (die home i : Nat) (e : Seal) : State :=
  let e' : Seal := { e with holders := e.holders.filter (· ≠ die) }
  let s1 := s.modDie home fun d => { d with seals := d.seals.set i e' }
  if e'.draining && e'.holders.isEmpty then s1.after 0 (.sealCountDrained home i) else s1

/-- A line has left a die: with the last line of a sealed buffer the die leaves the buffer's count (R265). -/
def State.lineGone (s : State) (die line : Nat) : State :=
  match s.sealAt (line * 64) with
  | some (i, e) =>
    if die ∈ e.holders ∧ s.dieHolds die (fun l => decide (e.base ≤ l * 64 ∧ l * 64 < e.base + e.len)) = false then
      s.leaveSeal die (s.homeKey (line * 64)) i e
    else s
  | none => s

/-- A line has been pushed out of a slice (R338, R339, R341): dirty data go home, and where no other slice of the die holds
the line its copy ends there, and its place in a sealed buffer (R265). -/
def State.evicted (s : State) (core : CoreId) (v : CLine) : State :=
  let die := core / 64
  let s1 := if v.dirty then s.after 0 (.writeCombineFlush die v.line) else s
  if s1.dieHolds die fun l => decide (l = v.line) then s1
  else (s1.modDie die fun d => { d with copies := d.copies.erase v.line }).lineGone die v.line

/-- A write has been performed: MESI leaves no copy of its lines on another core (R326, R337). -/
def State.dropCopies (s : State) (keep : Option CoreId) (line : Nat) : State :=
  { s with cores := s.cores.map fun e => if some e.1 = keep then e else (e.1, e.2.dropLine line) }

/-! Accesses at the port. -/

/-- Does a line that a die reads leave no copy there: it belongs to a buffer that drains, at another home (R266, R339)? -/
def State.passes (s : State) (die line : Nat) : Bool :=
  !s.near die line && (match s.sealAt (line * 64) with
    | some (_, e) => e.draining
    | none => false)

/-- Does a scalar access hit the L1 data cache of a core (R132, R345): the line is there and may be used, and for a write no
other core of the die holds it? -/
def State.l1Hit (s : State) (core : CoreId) (line : Nat) (write : Bool) : Bool :=
  let die := core / 64
  decide (line ∈ (s.core core).l1) &&
    (if write then s.near die line && !(s.cores.any fun e => decide (e.1 / 64 = die) && decide (e.1 ≠ core) && e.2.holdsLine line)
    else s.near die line || decide (s.clk < (s.die die).copies.getD line 0) || (s.sealAt (line * 64)).isSome)

/-- A slice of a die takes a line: the die counts in the sealed buffer that the line belongs to (R265). -/
def State.joinSeal (s : State) (die line : Nat) : State :=
  match s.sealAt (line * 64) with
  | some (i, e) =>
    if s.near die line ∨ die ∈ e.holders then s
    else s.modDie (s.homeKey (line * 64)) fun d => { d with seals := d.seals.set i { e with holders := e.holders ++ [die] } }
  | none => s

/-- An access to a line of HBM by a core's slice (R326, R341, R342): a scalar access that hits the L1 data cache ends there;
every other one comes to the port, and where the line stays it is used in the slice, in L1 as well for a scalar access; a line that the core has not held comes without the error that an older copy had (R500). -/
def State.portLine (s : State) (core : CoreId) (did : BitVec 7) (scalar write stays : Bool) (line : Nat) : State :=
  if s.place (line * 64) ≠ .hbm then s
  else if scalar && s.l1Hit core line write then s.modCore core fun k => k.touchL1 line
  else if !stays || s.passes (core / 64) line then s.modCore core fun k => k.ask (localOf did)
  else
    let s0 : State := if (s.core core).keeps line then s else { s with sramErrs := s.sramErrs.filter fun e => e ≠ (line, core) }
    let s1 := (s0.joinSeal (core / 64) line).modCore core fun k =>
      let k1 := (k.touchL2 did write line).ask (localOf did)
      if scalar then k1.touchL1 line else if write then k1.dropL1 line else k1
    match (s.core core).pushedOut did line with
    | some v => s1.evicted core v
    | none => s1

/-- The accesses of a context to these lines: its place at the port, and for a scalar access the least time of its reply,
24 clk where it does not hit L1 (R132, R345). -/
def State.portUse (s : State) (c : CtxId) (scalar write stays : Bool) (ls : List Nat) : State :=
  let core := coreOf c
  let did := s.did c
  let s1 := ls.foldl (fun t l => t.portLine core did scalar write stays l) s
  if s1.lastTicket core did = s.lastTicket core did then s1
  else s1.modCtx c fun k =>
    { k with ticket := s1.lastTicket core did, reply := if scalar then s1.clk + 24 else k.reply }

end Sys2Proof.Machine
end

