-- ==== Sys2Proof/Machine/Perform.lean ====
section
/-! DEFINITION. When writes are performed: at their home (R337, R350), write-combining (R338), releases (R353, R356), the closes of a redundant interval (R510), and the values of the logged channels (R509, R512). -/

namespace Sys2Proof.Machine

/-! Writes at the home. -/

/-- Who performs a write: a context (or none), and the host function whose inbound request it is. -/
structure Writer where
  ctx : Option CtxId
  fn  : Option (Nat × Nat)
deriving DecidableEq, Repr

/-- The chunk of a code range that holds a physical address, if the range is valid and covers it (R474). -/
def CodeRange.chunkAt (r : CodeRange) (pa : Nat) : Option Nat :=
  if r.v = true ∧ r.base.toNat ≤ pa / 4096 ∧ pa / 4096 - r.base.toNat ≤ r.nch.toNat then some (pa / 4096 - r.base.toNat)
  else none

/-- Does chunk n hold code (FLAGS[0] of the copied table, R297, R474)? -/
def CodeRange.isCode (r : CodeRange) (n : Nat) : Bool :=
  match r.copied[n]? with
  | some e => bit e.1 0
  | none => false

/-- The state of a code chunk. -/
def CodeRange.chunk (r : CodeRange) (n : Nat) : ChunkState := r.states.getD n .absent

/-- A write to the page of a chunk by a context, an engine or another function: an absent or arrived code chunk becomes
failed (R474). -/
def CodeRange.foreignWrite (r : CodeRange) (pa : Nat) : CodeRange :=
  match r.chunkAt pa with
  | some n => if r.isCode n then { r with states := r.states.set n .failed } else r
  | none => r

/-- The effect of a write on every code range but those of the writing function (R474). -/
def State.touchCode (s : State) (by_ : Writer) (pa : Nat) : State :=
  { s with fns := s.fns.map fun e =>
      if by_.fn = some (e.1 / 64, e.1 % 64) then e
      else (e.1, { e.2 with ranges := e.2.ranges.map fun r => r.foreignWrite pa }) }

/-- A context without a reservation on a line (R131). -/
def Ctx.offLine (k : Ctx) (line : Nat) : Ctx :=
  match k.resv with
  | some r => if r.line = line then { k with resv := none } else k
  | none => k

/-- Clear every reservation on a line (R131). -/
def State.clearResv (s : State) (line : Nat) : State := { s with ctxs := s.ctxs.map fun e => (e.1, e.2.offLine line) }

/-- No copy of a line has an uncorrectable error any more (R500). -/
def State.freshLine (s : State) (line : Nat) : State :=
  { s with errLines := s.errLines.filter (· ≠ line), sramErrs := s.sramErrs.erase line }

/-- A line with an uncorrectable error into which a write merges: every other byte becomes zero, the error is logged, and
the issuing context has a machine check pending (R500). -/
def State.mergeError (s : State) (w : Writer) (line : Nat) : State :=
  if line ∈ s.errLines ∨ (s.sramBad line).isSome = true then
    let s1 : State := { s with mem := s.mem.writeA (line * 64) (List.replicate 64 0) }
    let s2 := State.freshLine (s1.logLineError (dieField (line * 64)) (match w.ctx with
      | some c => (s.ctxid c).toNat % 2 ^ 27
      | none => 0xFFFFFFFF) line) line
    match w.ctx with
    | some c => s2.raiseMc c (BitVec.ofNat 64 (line * 64))
    | none => s2
  else s

/-- What a write does to one line beside its bytes: reservations, tag (R435), code chunks. -/
def State.touchLine (s : State) (w : Writer) (shared : Bool) (did : BitVec 7) (line : Nat) : State :=
  let s1 := (s.clearResv line).touchCode w (line * 64)
  { s1 with tags := s1.tags.set line { shared := shared, ldid := did } }

/-- The core that may keep a line which a context has written: the writer's own, where the line is near (R337). -/
def State.keeper (s : State) (w : Writer) (line : Nat) : Option CoreId :=
  match w.ctx with
  | some c => if s.near (dieOf c) line then some (coreOf c) else none
  | none => none

/-- Perform a write at its home (R337): bytes, of which none reaches a unit report (R504), error merges, tags, reservations, code chunks, the copies of other cores. -/
def State.performHome (s : State) (w : Writer) (addr : Nat) (bytes : List Byte) (shared : Bool) (did : BitVec 7) : State :=
  let ls := linesOf addr bytes.length
  let s1 := ls.foldl (fun t l => t.mergeError w l) s
  let s2 := { s1 with mem := s1.mem.writeA addr bytes }
  ls.foldl (fun t l => (t.touchLine w shared did l).dropCopies (t.keeper w l) l) s2

/-- Is the context a shadow of a redundant pair, which performs no operation of its own (R510)? -/
def Ctx.isShadow (k : Ctx) : Bool :=
  match k.red with
  | some r => !r.primary
  | none => false

/-! Requests to the host ports (R340, R461). -/

/-- An access to a host port goes out as a PCIe request (R340, R461, R471): under the function that serves the DID, on its
IDE stream when it is in RUN. -/
def State.portRequest (s : State) (did : BitVec 7) (pl : Place) (pa : Nat) (write : Bool) (n : Nat) (bytes : List Byte) : State :=
  let out (p addr : Nat) : State :=
    match s.servingFn p did with
    | some f => { s with hostOut := s.hostOut ++ [.request p f (decide ((s.fn p f).tds = 2)) write addr n bytes] }
    | none => s
  match pl with
  | .host p => out p (pa % 2 ^ 41)
  | .peer p w o => out p ((s.peer p w).base.toNat * 4096 + o)
  | _ => s

/-- The port and function that an access to a host port uses (R461). -/
def State.requester (s : State) (did : BitVec 7) : Place → Option (Nat × Nat)
  | .host p => (s.servingFn p did).map fun f => (p, f)
  | .peer p _ _ => (s.servingFn p did).map fun f => (p, f)
  | _ => none

/-! Translations. -/

/-- The entry that caches a translation at a home (R420). -/
def TlbEntry.of (h : TlbHome) (ag : Agent) (va : Word) (x : Xlat) : TlbEntry :=
  { home := h, did := ag.did, asid := BitVec.ofNat 12 (bits ag.sptb 63 52), vmid := BitVec.ofNat 12 (bits ag.hptb 63 52),
    vpage := bits va 47 0 / x.size, ppage := x.pa / x.size, size := x.size, st1 := x.st1, st2 := x.st2, g := x.g, r1 := x.r1,
    w1 := x.w1, x1 := x.x1, u1 := x.u1, r2 := x.r2, w2 := x.w2, x2 := x.x2, sh := x.sh }

/-- A home takes a translation, in place of an older one for the address; when it is full its oldest entry leaves (R420; log entry
48). -/
def cacheAt (ag : Agent) (va : Word) (x : Xlat) (tlb : List TlbEntry) (h : TlbHome) : List TlbEntry :=
  let rest := tlb.filter fun e => !(decide (e.home = h) && e.covers ag va)
  let own := rest.filter fun e => decide (e.home = h)
  TlbEntry.of h ag va x ::
    (if own.length < h.capacity then rest else match own.getLast? with
      | some o => rest.filter fun e => decide (e ≠ o)
      | none => rest)

/-- The homes of an agent's translations that do not hold this one. -/
def State.tlbMisses (s : State) (ag : Agent) (va : Word) (x : Xlat) : List TlbHome :=
  ag.tlbHomes.filter fun h => !(s.tlb.any fun e => decide (e.home = h) && e.covers ag va && decide (e.xlat va = x))

/-- Cache a translation in every home of the agent that does not hold it (R420): M and bare stages cache nothing. -/
def State.fillTlb (s : State) (ag : Agent) (va : Word) (x : Xlat) : State :=
  if x.st1 || x.st2 then { s with tlb := (s.tlbMisses ag va x).foldl (cacheAt ag va x) s.tlb } else s

/-- A walk that succeeds caches its translation (R420). -/
def State.cacheWalk (s : State) (ag : Agent) (va : Word) : State :=
  if canonical ag.mode va then
    match s.xlat ag va with
    | .ok x => s.fillTlb ag va x
    | .error _ => s
  else s

/-- The table entries that the walks of these addresses read, each once (R416). -/
def State.tablesOf (s : State) (ag : Agent) (vas : List Word) (n : Nat) : List Nat :=
  (vas.flatMap fun va => s.walkNeeds ag va n).eraseDups

/-- The table entries among these that an agent reads from host memory: through a function that serves it (R461), over a route that
is up (R476). -/
def State.hostTables (s : State) (ag : Agent) (ps : List Nat) : List Nat :=
  ps.filter fun p => match s.place p with
    | .host q => (s.servingFn q ag.did).isSome && s.routeUp (pkgOf p)
    | _ => false

/-- The walks of these addresses read their table lines with leases, spend their tokens, and cache what they find (R336, R342,
R416, R420); none if one of the lines is held, or while tables in host memory have not been read (R340). -/
def State.walkReady (s : State) (ag : Agent) (vas : List Word) (n : Nat) : Option State :=
  let ps := s.tablesOf ag vas n
  if ps.isEmpty then some s
  else if !(s.hostTables ag ps).isEmpty && !(s.ctx ag.ctx).walked then none
  else match s.readLines ag.die (ps.map lineOf).eraseDups with
    | some t => some ((vas.foldl (fun u va => u.cacheWalk ag va) t).portUse ag.ctx false false true (ps.map lineOf).eraseDups)
    | none => none

/-- The reads of these tables in host memory go out (R340, R461); a shadow sends none (R510).  The context waits until their
completions have arrived. -/
def State.readHostTables (s : State) (ag : Agent) (va : Word) (ps : List Nat) : State :=
  let s1 := if (s.ctx ag.ctx).isShadow then s
    else ps.foldl (fun t p => t.portRequest ag.did (t.place p) p false 8 []) s
  (s1.modCtx ag.ctx fun k => { k with wait := .tables va ((ps.head?.bind fun p => s.requester ag.did (s.place p))) }).soon
    (.outboundCompletion ag.ctx 0 true)

/-- The walks of these addresses wait: for table lines that are held at their home (R337), or for tables in host memory. -/
def State.holdWalks (s : State) (ag : Agent) (vas : List Word) (n : Nat) : State :=
  let ps := s.tablesOf ag vas n
  if !(s.hostTables ag ps).isEmpty && !(s.ctx ag.ctx).walked then s.readHostTables ag (vas.headD 0) (s.hostTables ag ps)
  else s.holdMisses ag.die (ps.map lineOf).eraseDups

/-- The line with an uncorrectable error that an access to an address meets: in a table that its walk reads, or the line
itself (R500). -/
def State.errorLine (s : State) (ag : Agent) (kind : AccKind) (va : Word) : Option Nat :=
  match s.translate ag kind va with
  | .error _ => (s.walkLines ag va).find? fun l => s.badLine ag.die l
  | .ok x => if s.badLine ag.die (lineOf x.pa) then some (lineOf x.pa) else none

/-- Does an access wait for links that retrain (R476)? -/
def State.linkWaits (s : State) (ag : Agent) (kind : AccKind) (va : Word) : Bool :=
  match s.translate ag kind va with
  | .ok x => s.routeWaits (pkgOf x.pa)
  | .error _ => (s.walkAddrs ag va).any fun p => s.routeWaits (pkgOf p)

/-- The trap of an access that has failed a check: an uncorrectable error is in the log before its handler starts (R499,
R500); while the links of its route retrain the access waits (R476). -/
def State.accessTrap (s : State) (c : CtxId) (kind : AccKind) (t : Trap) : State :=
  if decide (t.cause = 20) && s.linkWaits (s.agent c) kind t.val then s.stallBounded c
  else match (if t.cause = 20 then s.errorLine (s.agent c) kind t.val else none) with
  | some l => (s.logLineError (dieField (l * 64)) ((s.ctxid c).toNat % 2 ^ 27) l).trap c t
  | none => s.trap c t

/-! What a read brings with it (R353, R356). -/

/-- The ids among these that still belong to a pending write. -/
def State.stillPending (s : State) (ids : List Nat) : List Nat := ids.filter fun i => s.pend.any fun p => decide (p.id = i)

/-- The pending writes of others that a context reads from these bytes (R353). -/
def State.seenWrites (s : State) (c : CtxId) (addr n : Nat) : List PWrite :=
  s.pend.filter fun p => decide (p.owner ≠ c) && p.visible c (dieOf c) && decide (p.addr < addr + n ∧ addr < p.addr + p.bytes.length)

/-- The aligned 8-byte units that some bytes meet (R348). -/
def unitsMet (addr n : Nat) : List Nat := if n = 0 then [] else upFrom (addr / 8) ((addr + n - 1) / 8 - addr / 8 + 1)

/-- The pending writes that a release has published to a context which reads these bytes, where the scope of the release holds the
context: each with the least scope at which the context must acquire (R356, R357). -/
def State.published (s : State) (c : CtxId) (addr n : Nat) : List (Nat × Nat) :=
  (unitsMet addr n).flatMap fun u => (s.pubs.getD u []).filterMap fun e =>
    if e.1 ≠ c ∧ narrowScope e.1 c ≤ e.2.1 then some (narrowScope e.1 c, e.2.2) else none

/-- The context's next release at PKG or wider makes these pending writes performed (R353, R356). -/
def State.addSeen (s : State) (c : CtxId) (ids : List Nat) : State :=
  if ids.isEmpty then s else s.modCtx c fun k => { k with seen := (k.seen ++ ids).eraseDups }

/-- These pending writes happen before what the context does after its next acquire at their scope (R356). -/
def State.addAcq (s : State) (c : CtxId) (es : List (Nat × Nat)) : State :=
  if es.isEmpty then s else s.modCtx c fun k => { k with acq := (k.acq ++ es).eraseDups }

/-- The context has read these bytes (R353, R356): the writes that it read, and those that were published with them, at once where
the read is an acquire at SYS (R351), else at its next acquire. -/
def State.noteRead (s : State) (c : CtxId) (acquire : Bool) (addr n : Nat) : State :=
  let ps := s.published c addr n
  let s1 := s.addSeen c ((s.seenWrites c addr n).map PWrite.id ++ if acquire then ps.map fun e => e.2 else [])
  if acquire then s1 else s1.addAcq c ps

/-- What the fences and messages of context `p` have published to `q` happens before what `q` does next (R356). -/
def State.synced (s : State) (p q : CtxId) : State :=
  let k := s.ctx p
  s.addSeen q (s.stillPending (((k.pub ++ k.sent).filter fun e => decide (narrowScope p q ≤ e.2)).map fun e => e.1))

/-- A write of a context to these bytes can be read from now on: what its fences and the release of the instruction under way have
published comes with it (R356). -/
def State.publish (s : State) (c : CtxId) (addr n : Nat) : State :=
  let k := s.ctx c
  let ps := ((k.pub ++ k.rel).filter fun e => s.pend.any fun p => decide (p.id = e.1)).map fun e => (c, e.2, e.1)
  if ps.isEmpty then s
  else { s with pubs := (unitsMet addr n).foldl (fun t u => t.set u (t.getD u [] ++ ps).eraseDups) s.pubs }

/-- A scalar access or a block of a context reads these bytes: what it brings with it, and the line accesses that it makes
(R326, R342). -/
def State.takeRead (s : State) (c : CtxId) (scalar acquire : Bool) (addr n : Nat) : State :=
  (s.noteRead c acquire addr n).portUse c scalar false true (linesOf addr n)

/-! Writes that are performed at their home later. -/

/-- Put a write on its way to its home, with the next id. -/
def State.putPend (s : State) (p : PWrite) : State :=
  { s with nextId := s.nextId + 1, pend := s.pend ++ [{ p with id := s.nextId }] }

/-- Put a write of a context on its way to its home; its lines stay in the issuing core's slice until then (R338, R350). -/
def State.addPend (s : State) (c : CtxId) (kind : WriteKind) (atDie : Bool) (leave addr : Nat) (bytes : List Byte)
    (shared : Bool) (did : BitVec 7) : State :=
  let s1 := s.portUse c false true true (linesOf addr bytes.length)
  let s2 := if atDie then s1.publish c addr bytes.length else s1
  s2.putPend { id := 0, owner := c, die := dieOf c, kind := kind, near := s.near (dieOf c) (lineOf addr), leave := leave,
               ticket := (s1.ctx c).ticket, atDie := atDie, waits := false, addr := addr, bytes := bytes, shared := shared,
               did := did, mode := (s.ctx c).mode }

/-- Who is reported to for a pending write. -/
def PWrite.writer (p : PWrite) : Writer :=
  { ctx := if p.kind = .host then none else some p.owner, fn := none }

/-- A pending write is over: the misses that its home has held are served (R337). -/
def State.endPend (s : State) (p : PWrite) : State :=
  (linesOf p.addr p.bytes.length).foldl State.serveMisses
    { s with pend := s.pend.filter fun q => q.id ≠ p.id,
             pubs := (s.pubs.map fun e => (e.1, e.2.filter fun x => x.2.2 ≠ p.id)).filter fun e => !e.2.isEmpty }

/-- Perform a pending write at its home and forget it. -/
def State.performPend (s : State) (p : PWrite) : State :=
  (s.performHome p.writer p.addr p.bytes p.shared p.did).endPend p

/-- The last expiry recorded for the lines of some bytes (R336). -/
def State.lastExpiry (s : State) (addr n : Nat) : Nat := (linesOf addr n).foldl (fun e l => Nat.max e (s.expiry l)) 0

/-- A write to far lines is sent to its home: it leaves no copy on the writer's own die (R337). -/
def State.sendFrom (s : State) (die : Nat) (ls : List Nat) : State :=
  ls.foldl (fun t l =>
    if t.near die l then t
    else (t.modDie die fun d => { d with copies := d.copies.erase l }).modDieCores die fun k => k.dropLine l) s

/-- A write waits at its home for the leases of its lines; it is performed when they have ended (R337). -/
def State.waitHome (s : State) (p : PWrite) : State :=
  if s.pend.any fun q => decide (q.id = p.id) && q.waits then s
  else
    let s1 := if p.kind = .host then s else s.sendFrom p.die (linesOf p.addr p.bytes.length)
    { s1 with pend := s1.pend.map fun q => if q.id = p.id then { q with waits := true } else q,
              agenda := s1.agenda ++ [(s1.lastExpiry p.addr p.bytes.length, .homeWritePerform p.id)] }

/-- The write waits at the home of its line for the lease (R337): misses that come meanwhile are held. -/
def State.holdAtHome (s : State) (c : CtxId) (addr : Nat) : State :=
  let s1 := (s.sendFrom (dieOf c) [lineOf addr]).stallBounded c
  if s1.held.any (fun h => decide (h = (lineOf addr, c))) then s1 else { s1 with held := s1.held ++ [(lineOf addr, c)] }

/-- Do two pending writes meet in a line? -/
def PWrite.meets (p q : PWrite) : Bool :=
  decide (p.addr / 64 ≤ (q.addr + q.bytes.length - 1) / 64) && decide (q.addr / 64 ≤ (p.addr + p.bytes.length - 1) / 64)

/-- A pending write that must be performed no later than one that `sel` picks: it is picked itself, or it is another write to
the same line that the caches of the same die hold, which leave with the line (R338), or an earlier one of the same context
(R188, R348). -/
def State.picked (s : State) (sel : PWrite → Bool) (p : PWrite) : Bool :=
  sel p || s.pend.any fun q => sel q && p.meets q &&
    ((p.atDie && decide (p.die = q.die)) || (decide (p.owner = q.owner) && decide (p.id < q.id)))

/-- Perform, in order, the pending writes that `sel` picks, with those that must go before them, as far as their lines
carry no running lease; the others wait at their home (R337). -/
def State.flush (s : State) (sel : PWrite → Bool) : State :=
  (inOrder s.pend).foldl (fun t p =>
    if s.picked sel p then
      if t.leaseFree p.addr p.bytes.length then t.performPend p else t.waitHome p
    else t) s

/-- Does a write come into its die's caches now? -/
def PWrite.arrives (p : PWrite) (sel : PWrite → Bool) : Bool := sel p && !p.atDie

/-- Move the writes that `sel` picks into their die's caches, behind what is there (R124, R348, R350): one to a near line is
performed at its home. -/
def State.reachDie (s : State) (sel : PWrite → Bool) : State :=
  let new := s.pend.filter fun p => p.arrives sel
  let old := s.pend.filter fun p => !p.arrives sel
  let s1 : State := { s with pend := old ++ new.map fun p => { p with atDie := true } }
  (new.foldl (fun t p => t.publish p.owner p.addr p.bytes.length) s1).flush fun p => sel p && p.near

/-- The posted store of a context that leaves its store path next (R124). -/
def State.nextPosted (s : State) (c : CtxId) : Option PWrite :=
  List.find? (fun p : PWrite => decide (p.owner = c) && decide (p.kind = .posted) && !p.atDie) s.pend

/-- A pending write is performed at DIE (R350): it is in its die's caches, and its line is far. -/
def PWrite.atDieDone (p : PWrite) : Bool := p.atDie && !p.near

/-- Every posted store of the context is performed at DIE (R351). -/
def State.postedDone (s : State) (c : CtxId) : Bool :=
  s.pend.all fun p => !(decide (p.owner = c) && decide (p.kind = .posted)) || p.atDieDone

/-- Is a pending write one that the context issued (not the host's)? -/
def PWrite.isOf (p : PWrite) (c : CtxId) : Bool := decide (p.owner = c) && decide (p.kind ≠ .host)

/-- A write that a slice holds write-combining until a release at DIE (R190, R338, R447). -/
def PWrite.combining (p : PWrite) : Bool := decide (p.kind = .vector) || decide (p.kind = .stream)

/-- What makes a release (R355): an access under its prefix or order field, a FENCE, or an operation that sends something to
another context. -/
inductive RelKind where
  | access | fence | message
deriving DecidableEq, Repr

/-- Must a pending write be performed before a release of a context at a scope is (R353): at PKG and wider every write of
the context and every one that happens before the release (R356), at home; below, its own writes at DIE; and before a FENCE at
DIE its write-combining lines at home (R447)? -/
def PWrite.holdsRelease (p : PWrite) (c : CtxId) (seen : List Nat) (scope : Nat) (kind : RelKind) : Bool :=
  if 3 ≤ scope then p.isOf c || decide (p.id ∈ seen)
  else p.isOf c && (!p.atDieDone || (decide (kind = .fence) && decide (scope = 2) && p.combining))

/-- The pending writes that a release of a context at a scope publishes (R356). -/
def State.releases (s : State) (c : CtxId) (scope : Nat) : List (Nat × Nat) :=
  ((s.pend.filter fun p => p.isOf c).map PWrite.id ++ s.stillPending (s.ctx c).seen).map fun i => (i, scope)

/-- A context after a release: what the release published belongs to the access itself, to every later write where it is a FENCE,
which acquires as well, and to a message (R356). -/
def Ctx.released (k : Ctx) (kind : RelKind) (scope : Nat) (new : List (Nat × Nat)) : Ctx :=
  match kind with
  | .access => { k with rel := new }
  | .message => { k with sent := (new ++ k.sent).eraseDups }
  | .fence =>
    { k with pub := (new ++ k.pub).eraseDups,
             seen := (k.seen ++ (k.acq.filter fun e => decide (e.1 ≤ scope)).map fun e => e.2).eraseDups,
             acq := k.acq.filter fun e => decide (scope < e.1) }

/-- What the context knows of the writes that are no longer pending is forgotten. -/
def State.forget (s : State) (k : Ctx) : Ctx :=
  let live (l : List (Nat × Nat)) : List (Nat × Nat) := l.filter fun e => s.pend.any fun p => decide (p.id = e.1)
  { k with seen := s.stillPending k.seen, acq := k.acq.filter fun e => s.pend.any fun p => decide (p.id = e.2), pub := live k.pub,
           sent := live k.sent }

/-- The write-combining lines that a context's die holds for it leave for their homes (R338). -/
def State.sendCombining (s : State) (c : CtxId) : State :=
  (s.pend.filter fun p => p.isOf c && p.combining && p.atDieDone).foldl (fun t p => t.soon (.homeWritePerform p.id)) s

/-- A release of a context at a scope (R353): it pushes what it must, waits for what is left, and publishes the writes that
are then still on their way (R356).  At DIE its write-combining lines are written home, which only a FENCE waits for (R338, R447). -/
def State.release (s : State) (c : CtxId) (scope : Nat) (kind : RelKind) : State × Bool :=
  let k := s.ctx c
  let idle := k.vq.isEmpty && k.vchk.isNone
  let s1 := if 2 ≤ scope then s.flush fun p => p.atDie && p.holdsRelease c k.seen scope kind else s
  if idle && !(s1.pend.any fun p => p.holdsRelease c k.seen scope kind) then
    let s2 := if scope = 2 then s1.sendCombining c else s1
    (s2.modCtx c fun k => (s2.forget k).released kind scope (s2.releases c scope), true)
  else (s1, false)

/-- Every engine job that the context issued has ended (R447). -/
def State.jobsDone (s : State) (c : CtxId) : Bool :=
  (upFrom 0 8).all fun cl => ((s.die (dieOf c)).jobq.toList.getD cl []).all fun j => decide (j.ctx ≠ c) || j.written

/-- Redundant mode makes CORE and CLUSTER act at DIE (R351). -/
def Ctx.effScope (k : Ctx) (scope : Nat) : Nat := if k.red.isSome ∧ scope < 2 then 2 else scope

/-! Redundant execution: closes (R510). -/

/-- Bytes that the commit buffer of a core can hold (R509). -/
def commitBytes : Nat := 65536

/-- Bytes that the members of a core hold in its commit buffer (R509). -/
def State.commitUsed (s : State) (core : CoreId) : Nat :=
  (upFrom (core * 8) 8).foldl (fun n c => n + (match (s.ctx c).red with
    | some r => (r.stores.map fun e => e.2.1.length).sum
    | none => 0)) 0

/-- May the stores of an interval be performed now (R337)? -/
def State.storesFree (s : State) (ss : List (Nat × List Byte × Bool × BitVec 7)) : Bool :=
  ss.all fun e => s.leaseFree e.1 e.2.1.length

/-- The instruction closes the interval of a redundant member (R510): it marks the close and asks for the comparison; it
may go on once the pair has matched.  After a mismatch it waits there until the member has taken gang_stop (R511; log entry 42). -/
def State.closeInterval (s : State) (c : CtxId) (ops : List Word) : State × Bool :=
  let k := s.ctx c
  match k.red with
  | none => (s, true)
  | some r =>
    if r.matched then (s, true)
    else if r.close.isSome || r.failed then (s, false)
    else
      let s1 := s.modCtx c fun k => { k with red := some { r with close := some ops, since := s.timeBaseNow } }
      (((s1.soon (.intervalClose c)).after 4000000 (.redundantTimeout c)), false)

/-- A redundant member is about to store n bytes: an interval that holds 4,096 stores closes first, and so does
one whose commit buffer cannot hold the bytes; where the other members of the core fill the buffer the store waits (R509, R510). -/
def State.commitRoom (s : State) (c : CtxId) (n : Nat) : State × Bool :=
  match (s.ctx c).red with
  | none => (s, true)
  | some r =>
    if 4096 ≤ r.stores.length ∨ commitBytes < s.commitUsed (coreOf c) + n then
      if r.stores.isEmpty then (s, false) else s.closeInterval c []
    else (s, true)

/-! The logged channels (R509, R512, R513). -/

/-- The outcome of reading logged channels: the state after them and their values; the value has not arrived yet; the log
of a recording member is full; the log of a replaying member has another channel code; the log is not in memory that the member may reach, or
in a sealed range; a lease runs on a line of it (R337), or a write waits at the home of the entry (R336). -/
inductive Logged where
  | values (s : State) (vs : List Word)
  | wait
  | full
  | diverged
  | denied (t : Trap)
  | leased (addr : Nat)
  | miss (lines : List Nat)
deriving DecidableEq, Repr

/-- The descriptor fields of a log: BASE, SIZE, POS (R512). -/
def State.logDesc (s : State) (d : Nat) : Nat × Nat × Nat :=
  (natOf (s.mem.readN d 8), natOf (s.mem.readN (d + 8) 8), natOf (s.mem.readN (d + 16) 8))

/-- A WAITM ends: the context is in rotation again at the word after it (R280, R282). -/
def Ctx.resumed (k : Ctx) : Ctx := { k.retired with run := .running }

/-- Is the context parked in WAITM? -/
def Ctx.inWaitm (k : Ctx) : Bool := decide (k.run = .parked .waitm)

/-- A shadow takes a value that its primary forwards (R509). -/
def Ctx.given (k : Ctx) (ch : Nat) (v : Word) : Ctx :=
  { k with red := k.red.map fun q => { q with fwd := q.fwd ++ [(ch, v)] } }

/-- Hand a value to the shadow of a primary (R509). -/
def State.forward (s : State) (c : CtxId) (ch : Nat) (v : Word) : State :=
  match (s.ctx c).red with
  | some r => if r.primary then s.modCtx r.partner fun p => p.given ch v else s
  | none => s

/-- A write that the device makes for a context at a physical address, below translation: the log of a member, a save area (R403,
R407, R512).  It acts on the lines as any write of the context does (R131, R337, R435). -/
def State.hardwareWrite (s : State) (c : CtxId) (addr : Nat) (bytes : List Byte) : State :=
  s.performHome { ctx := some c, fn := none } addr bytes false (s.did c)

/-- Is SSEC set for the slot of a context (R424)? -/
def State.slotSecure (s : State) (c : CtxId) : Bool := (s.core (coreOf c)).ssec.getLsbD (slotOf c)

/-- What bars a write of the device for a context to n bytes: another world or partition (R425), a sealed range (R265, R363). -/
def State.writeBarred (s : State) (c : CtxId) (addr n : Nat) : Option Trap :=
  if !s.areaOk (s.part c) (s.slotSecure c) addr n then some (mkTrap 9 (BitVec.ofNat 64 addr))
  else if (linesOf addr n).any fun l => (s.sealAt (l * 64)).isSome then some (mkTrap 12 (BitVec.ofNat 64 addr))
  else none

/-- The writes of a log step, performed together once no lease runs on their lines (R337, R512). -/
def State.logWrites (s : State) (c : CtxId) (ws : List (Nat × List Byte)) (v : Word) : Logged :=
  match ws.findSome? fun w => s.writeBarred c w.1 w.2.length with
  | some t => .denied t
  | none => match List.find? (fun w : Nat × List Byte => !s.leaseFree w.1 w.2.length) ws with
    | some w => .leased w.1
    | none => .values (ws.foldl (fun t w => t.hardwareWrite c w.1 w.2) s) [v]

/-- One value of a logged channel (R509, R512, R513): a shadow takes the forwarded value and waits for it; a replay takes
the next entry of the log, and another channel code is a divergence; a record appends an entry; otherwise the value is the
machine's own. -/
def State.logged1 (s : State) (c : CtxId) (ch : Nat) (own : Word) : Logged :=
  let k := s.ctx c
  match k.red with
  | some r =>
    if r.primary then .values (s.forward c ch own) [own]
    else match r.fwd with
      | (h, v) :: t =>
        if h = ch then .values (s.modCtx c fun k => { k with red := some { r with fwd := t } }) [v] else .wait
      | [] => .wait
  | none =>
    match k.log with
    | none => .values s [own]
    | some l =>
      let (base, size, pos) := s.logDesc l.desc
      let next := (l.desc + 16, bytesOf (pos + 16) 8)
      if l.replay then
        if !s.areaOk (s.part c) (s.slotSecure c) (base + pos) 16 then .denied (mkTrap 9 (BitVec.ofNat 64 (base + pos)))
        else match s.readLines (dieOf c) (linesOf (base + pos) 16) with
          | none => .miss (linesOf (base + pos) 16)
          | some s1 =>
            if pos < size ∧ natOf (s1.mem.readN (base + pos) 1) = ch then
              s1.logWrites c [next] (wordOf (s1.mem.readN (base + pos + 8) 8))
            else .diverged
      else if pos + 16 ≤ size then
        s.logWrites c [(base + pos, bytesOf ch 8 ++ bytesOf own.toNat 8), next] own
      else .full

/-- Several values of logged channels, in order. -/
def State.loggedAll (s : State) (c : CtxId) : List (Nat × Word) → List Word → Logged
  | [], acc => .values s acc
  | (ch, v) :: t, acc =>
    match s.logged1 c ch v with
    | .values s' vs => State.loggedAll s' c t (acc ++ vs)
    | stop => stop

/-- A record of KIND 7 or 8 about a context's log (R498, R512, R513). -/
def State.logEvent (s : State) (c : CtxId) (kind : Nat) : State :=
  let k := s.ctx c
  let pos := match k.log with
    | some l => (s.logDesc l.desc).2.2
    | none => 0
  s.logError (dieOf c) kind 0xFF 0 ((s.ctxid c).toNat % 2 ^ 27) k.pc.toNat pos

/-- A member has found its log full. -/
def Ctx.foundFull (k : Ctx) : Ctx := { k with log := k.log.map fun l => { l with full := true } }

/-- A member's log is full: its gang stops and a KIND 8 record is written, once for each member (R512). -/
def State.logFull (s : State) (c : CtxId) : State :=
  let k := s.ctx c
  if (match k.log with
      | some l => l.full
      | none => true) then s
  else ((s.logEvent c 8).modCtx c Ctx.foundFull).stopGang k.gang

/-- An instruction that reads logged channels (R509, R512, R513): with the values it goes on; without a forwarded value it
waits; a full log stops its gang and the instruction waits; a divergence is a precise machine check with the PC as trap
value (log entry 16). -/
def State.withLogged (s : State) (c : CtxId) (items : List (Nat × Word)) (go : State → List Word → State) : State :=
  match s.loggedAll c items [] with
  | .values s' vs => go s' vs
  | .wait => s.stallBounded c
  | .full => (s.logFull c).stall c
  | .diverged => (s.logEvent c 7).trap c (mkTrap 20 (s.ctx c).pc)
  | .denied t => s.trap c t
  | .leased a => s.holdAtHome c a
  | .miss ls => (s.holdMisses (dieOf c) ls).stallBounded c

/-- Is the context recording or replaying (R512)? -/
def Ctx.isLogging (k : Ctx) : Bool := k.log.isSome

end Sys2Proof.Machine
end

