-- ==== Sys2Proof/Machine/Fcb.lean ====
section
/-! DEFINITION. Function control blocks (R462-R465): which agents may read and write each register, the checks of a store,
and its effect: doorbells (R468), hints (R470), code ranges (R474), peer windows (R471), locks (R472, R473). -/

namespace Sys2Proof.Machine

/-- The partition that a function serves. -/
def State.fnPart (s : State) (port fn : Nat) : Nat := partOf (s.fnDid port fn)

/-- The agent that a function is for an inbound request (R467). -/
def State.fnAgent (s : State) (port fn : Nat) : Agent :=
  { mode := .u, did := s.fnDid port fn, sptb := 0, hptb := 0, ctx := noCtx, die := 12 + port, secure := (s.fn port fn).w }

/-- Evaluate a doorbell (R468): with OUT = 0, EN = 1, a valid target and a tail not yet notified, a message is prepared, behind
those that have not left yet; it leaves once the requests received so far are performed (R469). -/
def State.evalDoorbell (s : State) (port fn : Nat) : State :=
  let f := s.fn port fn
  if f.out = false ∧ f.en = true ∧ f.dbV = true ∧ f.lqtail ≠ f.note then
    (s.setFn port fn { f with note := f.lqtail, out := true, dbWait := f.dbWait ++ [(f.lqtail, f.reqs)] }).soon (.doorbellMessageSend port fn)
  else s

/-- The MSI-X table entry of a vector (R466). -/
def Fn.vector (f : Fn) (vec : Nat) : BitVec 128 := f.msix.toList.getD vec 0

/-- Is a vector masked (R470)? -/
def Fn.vecMasked (f : Fn) (vec : Nat) : Bool := (f.vector vec).getLsbD 96

/-- The MSI-X write of a vector leaves, with the address and data of its table entry (R466, R470). -/
def State.emitMsix (s : State) (port fn vec : Nat) : State :=
  let e := (s.fn port fn).vector vec
  { s with hostOut := s.hostOut ++ [.msix port fn vec (e.extractLsb' 0 64) (e.extractLsb' 64 32)] }

/-- Send an MSI-X vector (R470): discarded without VFE, kept pending while masked. -/
def State.sendMsix (s : State) (port fn vec : Nat) : State :=
  let f := s.fn port fn
  if !f.vfe then s
  else if f.vecMasked vec then s.setFn port fn { f with pend := f.pend ||| BitVec.twoPow 16 vec }
  else s.emitMsix port fn vec

/-- Every chunk of a valid range becomes failed (R473). -/
def CodeRange.failAll (r : CodeRange) : CodeRange :=
  if r.v then
    { r with states := ((upFrom 0 (r.nch.toNat + 1)).filter fun n => r.isCode n).map fun n => (n, ChunkState.failed) }
  else r

/-- Erase the key slots of a function and fail the chunks of its ranges (R473). -/
def Fn.eraseKeys (f : Fn) : Fn := { f with keys := Vector.replicate 8 none, ranges := f.ranges.map CodeRange.failAll }

/-- A function enters the TDISP state ERROR (R472, R473). -/
def State.fnError (s : State) (port fn : Nat) : State := s.modFn port fn fun f => { f.eraseKeys with tds := 3 }

/-- Local domain 0 of a partition in S or H, or M (R464). -/
def kernelOf (ag : Agent) (part : Nat) : Bool :=
  decide (ag.mode = .m) ||
    ((decide (ag.mode = .s) || decide (ag.mode = .h)) && decide (localOf ag.did = 0) && decide (partOf ag.did = part))

/-- The state field of CRQ (R463, R474). -/
def Fn.chunkQuery (f : Fn) : Nat :=
  let r := f.ranges.toList.getD (f.crq.toNat / 4096 % 8) CodeRange.reset
  let n := f.crq.toNat % 4096
  if !r.v then 3
  else if !r.isCode n then 0
  else match r.chunk n with
    | .absent => 0
    | .arrived => 1
    | .failed => 2

/-- Read an FCB register (R463, R464); none fails check 3 of R119, as every access to LQTAIL does, which no row of R464 lists
(log entry 15). -/
def State.fcbRead (s : State) (ag : Agent) (port fn off : Nat) : Option Word :=
  let f := s.fn port fn
  let k := kernelOf ag (s.fnPart port fn)
  let hm := decide (ag.mode = .h) || decide (ag.mode = .m)
  let ret (ok : Bool) (v : Nat) : Option Word := if ok then some (BitVec.ofNat 64 v) else none
  if f.w && decide (ag.mode ≠ .m) then none
  else if off = 0x000 then
    ret (decide (partOf ag.did = s.fnPart port fn))
      (fn + 64 * port + 128 * (s.fnDid port fn).toNat + 2 ^ 14 * b2n f.vfe + 2 ^ 15 * f.tds.toNat)
  else if off = 0x008 then ret k (b2n f.en)
  else if off = 0x010 then ret hm (b2n f.iatEn + 4096 * f.iatb.toNat)
  else if off = 0x018 then ret k (f.dbCtx.toNat + 2 ^ 63 * b2n f.dbV)
  else if off = 0x028 then ret k f.lqhead.toNat
  else if off = 0x030 then ret k 0
  else if off = 0x038 then ret k f.ferr.toNat
  else if off = 0x040 then ret k (f.crq.toNat + 65536 * f.chunkQuery)
  else if off = 0x080 then (if fn = 0 then ret hm f.pfpart.toNat else none)
  else if 0x100 ≤ off ∧ off < 0x100 + 0x18 * 8 then
    let r := f.ranges.toList.getD ((off - 0x100) / 0x18) CodeRange.reset
    if (off - 0x100) % 0x18 = 0 then ret k (4096 * r.base.toNat)
    else if (off - 0x100) % 0x18 = 8 then ret k (b2n r.v + 2 * r.nch.toNat + 8192 * r.key.toNat)
    else if (off - 0x100) % 0x18 = 16 then ret k (4096 * r.tab.toNat)
    else none
  else if fn = 0 ∧ 0x200 ≤ off ∧ off < 0x200 + 0x10 * 31 then
    let p := s.peer port ((off - 0x200) / 0x10)
    if (off - 0x200) % 0x10 = 0 then ret hm (4096 * p.base.toNat)
    else if (off - 0x200) % 0x10 = 8 then ret hm (b2n p.v + 2 * p.lsz.toNat + 128 * p.part.toNat + 2048 * p.ldm.toNat)
    else none
  else none

/-- The functions of a partition that lock its registers: those not in CONFIG_UNLOCKED (R472). -/
def State.lockers (s : State) (part : Nat) : List (Nat × Nat) :=
  ((s.fns.filter fun e => decide (e.2.tds ≠ 0) && decide (s.fnPart (e.1 / 64) (e.1 % 64) = part)).map
    fun e => (e.1 / 64, e.1 % 64))

/-- The effect of a locked-register write on the functions that lock it: each moves to ERROR (R472). -/
def State.lockedWrite (s : State) (ls : List (Nat × Nat)) : State :=
  ls.foldl (fun t l => t.fnError l.1 l.2) s

/-- The copied chunk table of a range: FLAGS and TAG of NCH + 1 entries at CRTAB (R297, R474). -/
def State.copyTable (s : State) (tab : Nat) : Nat → List (Word × BitVec 128)
  | 0 => []
  | n + 1 =>
    (wordOf (s.mem.readN (tab + 8) 4), BitVec.ofNat 128 (natOf (s.mem.readN (tab + 16) 16))) ::
      State.copyTable s (tab + 32) n

/-- May the port die read the chunk table of a range for its function: every line of it in HBM, in memory of the function's
partition and world (R425; log entry 68)? -/
def State.tableOk (s : State) (port fn : Nat) (r : CodeRange) (nch : Nat) : Bool :=
  (linesOf (r.tab.toNat * 4096) (32 * (nch + 1))).all fun l =>
    decide (s.place (l * 64) = .hbm) && s.granuleOk (s.fnAgent port fn) (l * 64)

/-- Writing CRCTL with V = 1 (R474): the table is copied and every chunk is absent. -/
def State.rangeEnable (s : State) (port fn k : Nat) (nch : BitVec 12) (key : BitVec 3) : State :=
  s.modFn port fn fun f =>
    let r := f.ranges.toList.getD k CodeRange.reset
    let r' : CodeRange := { r with v := true, nch := nch, key := key, states := [], lines := [],
                                   copied := s.copyTable (r.tab.toNat * 4096) (nch.toNat + 1) }
    { f with ranges := f.ranges.setIfInBounds k r' }

/-- Writing CRCTL with V = 0 (R474): the range is not valid. -/
def State.rangeDisable (s : State) (port fn k : Nat) (nch : BitVec 12) (key : BitVec 3) : State :=
  s.modFn port fn fun f =>
    let r := f.ranges.toList.getD k CodeRange.reset
    let r' : CodeRange := { r with v := false, nch := nch, key := key, states := [], lines := [], copied := [] }
    { f with ranges := f.ranges.setIfInBounds k r' }

/-- Does DBTGT.CTX name a core of the function's partition in this package (R465)? -/
def State.dbTargetOk (s : State) (part : Nat) (v : Word) : Bool :=
  decide (bits v 18 13 = s.pkgNum) && decide (bits v 12 9 < 12) &&
    decide ((s.core (bits v 12 3)).part.toNat = part)

/-- Write an FCB register (R463-R465, R468, R470, R472, R474): the state after it, and whether the store is accepted; a
refused one ends in trap(access_or_world_fault). -/
def State.fcbWrite (s : State) (ag : Agent) (port fn off : Nat) (v : Word) : State × Bool :=
  let f := s.fn port fn
  let part := s.fnPart port fn
  let k := kernelOf ag part
  let hm := decide (ag.mode = .h) || decide (ag.mode = .m)
  let no : State × Bool := (s, false)
  if f.w && decide (ag.mode ≠ .m) then no
  else if off = 0x008 then
    if k && zeroBits v 63 1 then ((s.setFn port fn { f with en := bit v 0 }).evalDoorbell port fn, true) else no
  else if off = 0x010 then
    if !hm || !zeroBits v 11 1 || !zeroBits v 63 52 then no
    else
      let apply (t : State) : State :=
        t.modFn port fn fun g => { g with iatEn := bit v 0, iatb := BitVec.ofNat 40 (bits v 51 12) }
      if f.tds ≠ 0 then
        if ag.mode = .m then (apply (s.fnError port fn), true) else (s.fnError port fn, false)
      else (apply s, true)
  else if off = 0x018 then
    if k && zeroBits v 62 19 && s.dbTargetOk part v then
      ((s.setFn port fn { f with dbV := bit v 63, dbCtx := BitVec.ofNat 19 (bits v 18 0) }).evalDoorbell port fn, true)
    else no
  else if off = 0x028 then
    if k && zeroBits v 63 32 then
      ((s.setFn port fn { f with lqhead := BitVec.ofNat 32 v.toNat, out := false }).evalDoorbell port fn, true)
    else no
  else if off = 0x030 then (if k && zeroBits v 63 4 then (s.sendMsix port fn (bits v 3 0), true) else no)
  else if off = 0x038 then
    if k && zeroBits v 63 4 then (s.setFn port fn { f with ferr := f.ferr &&& ~~~ BitVec.ofNat 4 v.toNat }, true) else no
  else if off = 0x040 then
    if k && !bit v 15 && zeroBits v 63 18 then (s.setFn port fn { f with crq := BitVec.ofNat 15 v.toNat }, true) else no
  else if off = 0x080 then
    if fn = 0 ∧ ag.mode = .m ∧ zeroBits v 63 4 = true then
      (s.setFn port fn { f with pfpart := BitVec.ofNat 4 v.toNat }, true)
    else no
  else if 0x100 ≤ off ∧ off < 0x100 + 0x18 * 8 then
    let i := (off - 0x100) / 0x18
    let r := f.ranges.toList.getD i CodeRange.reset
    if !k then no
    else if (off - 0x100) % 0x18 = 0 then
      if r.v || !zeroBits v 11 0 || !zeroBits v 63 52 then no
      else (s.setFn port fn { f with ranges := f.ranges.setIfInBounds i { r with base := BitVec.ofNat 40 (bits v 51 12) } }, true)
    else if (off - 0x100) % 0x18 = 8 then
      let nch := BitVec.ofNat 12 (bits v 12 1)
      let key := BitVec.ofNat 3 (bits v 15 13)
      if !zeroBits v 63 16 || (r.v && (decide (nch ≠ r.nch) || decide (key ≠ r.key))) then no
      else if bit v 0 && !s.tableOk port fn r nch.toNat then no
      else if bit v 0 then (s.rangeEnable port fn i nch key, true)
      else (s.rangeDisable port fn i nch key, true)
    else if (off - 0x100) % 0x18 = 16 then
      if r.v || !zeroBits v 11 0 || !zeroBits v 63 52 then no
      else (s.setFn port fn { f with ranges := f.ranges.setIfInBounds i { r with tab := BitVec.ofNat 40 (bits v 51 12) } }, true)
    else no
  else if fn = 0 ∧ 0x200 ≤ off ∧ off < 0x200 + 0x10 * 31 then
    let w := (off - 0x200) / 0x10
    let p := s.peer port w
    let ls := s.lockers p.part.toNat
    if !hm then no
    else
      let bad := if (off - 0x200) % 0x10 = 0 then !zeroBits v 11 0 || decide (v.toNat % 2 ^ p.lsz.toNat ≠ 0)
        else if (off - 0x200) % 0x10 = 8 then
          !zeroBits v 63 18 || decide (bits v 6 1 < 12) || decide (36 < bits v 6 1) ||
            decide (p.base.toNat * 4096 % 2 ^ bits v 6 1 ≠ 0)
        else true
      let apply (t : State) : State :=
        if (off - 0x200) % 0x10 = 0 then
          { t with peers := t.peers.set (port * 32 + w) { p with base := BitVec.ofNat 52 (bits v 63 12) } }
        else
          let p' : PeerWin := { p with v := bit v 0, lsz := BitVec.ofNat 6 (bits v 6 1),
                                       part := BitVec.ofNat 4 (bits v 10 7), ldm := BitVec.ofNat 7 (bits v 17 11) }
          { t with peers := t.peers.set (port * 32 + w) p' }
      if bad then no
      else if ls.isEmpty then (apply s, true)
      else if ag.mode = .m then (apply (s.lockedWrite ls), true)
      else (s.lockedWrite ls, false)
  else no

end Sys2Proof.Machine
end

