-- ==== Sys2Proof/Machine/Issue.lean ====
section
/-! DEFINITION. Issuing a word: the prefix pair (R85, R86), the order of checks of R87 (illegal, feature-masked, migrate),
fenced units (R506), the predicate of a prefix (R457), and the settling of the queues before a precise trap (R88). -/

namespace Sys2Proof.Machine

/-- A field of a word. -/
def fieldOf (w : BitVec 32) (lo n : Nat) : Nat := (w.extractLsb' lo n).toNat

/-- The major opcode of a word (R64). -/
def majorOf (w : BitVec 32) : Nat := fieldOf w 26 6

/-- The operation of a word within its major (R65-R84): the select bits of its group. -/
def opOf (w : BitVec 32) : Nat :=
  let mj := majorOf w
  if mj = 0x00 ∨ mj = 0x29 ∨ mj = 0x2A then fieldOf w 0 5
  else if mj = 0x05 then fieldOf w 14 2
  else if mj = 0x0A then fieldOf w 0 11
  else if mj = 0x0C ∨ mj = 0x1F ∨ mj = 0x26 ∨ mj = 0x27 ∨ mj = 0x28 ∨ mj = 0x2B then fieldOf w 0 4
  else if mj = 0x0D then fieldOf w 1 2
  else if 0x20 ≤ mj ∧ mj ≤ 0x25 then
    if mj = 0x20 ∧ fieldOf w 5 2 = 3 then 0x60 else fieldOf w 0 7
  else if mj = 0x2C then fieldOf w 1 4
  else 0

/-- The encoding of a word as the expansion tables list it (R90): MLDS with fmt 6-8 stands apart from the other MLDS.  The spec
does not say what counts as one encoding; here it is a major opcode and an operation, whatever its width, format and registers
(log entry 55). -/
def expansionCode (w : BitVec 32) : Nat :=
  majorOf w * 2048 + opOf w +
    (if majorOf w = 0x29 ∧ opOf w = 2 ∧ 6 ≤ fieldOf w 5 4 ∧ fieldOf w 5 4 ≤ 8 then 1024 else 0)

/-- A word of a major opcode whose operation is in a list. -/
def isOneOf (w : BitVec 32) (major : Nat) (ops : List Nat) : Bool := decide (majorOf w = major) && decide (opOf w ∈ ops)

/-- Vector instructions under R21: the vector majors, VSHAPE, VSPLIT and VJOIN (R140), MLDS, MOP, MOPS, MOPX, MOPSX, MRD
and MWR (R87), SDECL, SBIND, SUNBIND and SSTAT (R244). -/
def isVectorWord (w : BitVec 32) : Bool :=
  (decide (0x20 ≤ majorOf w) && decide (majorOf w ≤ 0x27)) || isOneOf w 0x28 [0, 2, 3] ||
    isOneOf w 0x29 [2, 4, 5, 6, 7, 9, 10] || isOneOf w 0x2A [0, 1, 2, 3]

/-- The FEATMASK bit that covers a word, if one does (R89). -/
def featBit (w : BitVec 32) : Option Nat :=
  let mj := majorOf w
  let op := opOf w
  if mj = 0x0A then some 0
  else if mj = 0x0C ∨ mj = 0x0D ∨ mj = 0x17 ∨ mj = 0x18 ∨ mj = 0x1D ∨ mj = 0x1E then some 1
  else if mj = 0x2C then some 2
  else if mj = 0x0B then some 3
  else if mj = 0x20 ∧ (op = 0x2A ∨ op = 0x60) then some 9
  else if mj = 0x28 ∨ mj = 0x2D ∨ mj = 0x20 ∨ mj = 0x21 ∨ mj = 0x22 then some 4
  else if mj = 0x23 ∨ mj = 0x24 then some 5
  else if mj = 0x25 then some 6
  else if mj = 0x26 ∨ mj = 0x27 then (if 4 ≤ op ∧ op ≤ 7 then some 8 else some 7)
  else if mj = 0x29 then
    (if op = 9 ∨ op = 10 ∨ (op = 2 ∧ 6 ≤ fieldOf w 5 4 ∧ fieldOf w 5 4 ≤ 8) then some 11 else some 10)
  else if mj = 0x2A then (if op ≤ 6 then some 12 else if op ≤ 10 then some 13 else some 14)
  else if mj = 0x2B then
    (if op ≤ 3 then some 15 else if op ≤ 9 then some 16 else if op ≤ 12 then some 17 else some 18)
  else if mj = 0x1F then (if op = 8 ∨ op = 9 then some 19 else if op = 11 then some 20 else none)
  else none

/-- Words that write an x or f register through their d field (R86): bits [25:21] name the destination. -/
def writesD (w : BitVec 32) : Bool :=
  let mj := majorOf w
  decide (mj ≤ 0x0D) || (decide (0x10 ≤ mj) && decide (mj ≤ 0x18)) || decide (mj = 0x2C) || decide (mj = 0x2D) ||
    isOneOf w 0x25 [4, 5, 0x13] || isOneOf w 0x28 [0, 1, 4] || isOneOf w 0x29 [0] || isOneOf w 0x2A [3, 4, 5, 7, 8, 9, 10] ||
    isOneOf w 0x2B [2, 3, 4, 11, 14]

/-- The word may not follow a prefix at all (R86): PFX, JAL, JALR, branches, SYS. -/
def neverPrefixed (w : BitVec 32) : Bool :=
  let mj := majorOf w
  decide (mj = 0x3F) || decide (mj = 0x0E) || decide (mj = 0x0F) || decide (mj = 0x1F) ||
    (decide (0x30 ≤ mj) && decide (mj ≤ 0x35))

/-- A PFX word with legal fields (R67, R85). -/
def pfxLegal (p : BitVec 32) : Bool :=
  decide (majorOf p = 0x3F) && decide (fieldOf p 0 6 = 0) &&
    (decide (fieldOf p 24 2 ≠ 0) || decide (fieldOf p 18 6 = 0)) &&
    (decide (fieldOf p 24 2 ≠ 3) || decide (fieldOf p 19 5 ≤ 7)) &&
    (decide (fieldOf p 12 1 = 1) || decide (fieldOf p 13 5 = 0)) &&
    decide (fieldOf p 9 3 ≤ 4) && decide (fieldOf p 6 3 ≤ 4) &&
    (decide (fieldOf p 9 3 ≠ 0) || decide (fieldOf p 6 3 = 0))

/-- Is the pair of a prefix and a word legal in a context (R86)? -/
def pairLegal (k : Ctx) (p w : BitVec 32) : Bool :=
  !neverPrefixed w &&
    (decide (fieldOf p 9 3 = 0) || (decide (0x10 ≤ majorOf w) && decide (majorOf w ≤ 0x1E))) &&
    (decide (fieldOf p 12 1 = 0) || writesD w) &&
    (decide (fieldOf p 24 2 ≠ 3) || k.isVector)

/-- The order of the pending prefix: 0 none, 1 RLX, 2 ACQ, 3 REL, 4 ACQREL (R67, R123). -/
def Ctx.pfxOrder (k : Ctx) : Nat :=
  match k.pfx with
  | some p => fieldOf p.word 9 3
  | none => 0

/-- The scope of the pending prefix. -/
def Ctx.pfxScope (k : Ctx) : Nat :=
  match k.pfx with
  | some p => fieldOf p.word 6 3
  | none => 0

/-- Some bit of m[r] at r < VROWS, j < VL is 1 (R457). -/
def Ctx.anyMask (k : Ctx) (r : Nat) : Bool :=
  (upFrom 0 k.vrows).any fun row => decide (sliceNat (k.m.toList.getD (r * 8 + row) 0) 0 k.vl ≠ 0)

/-- The condition of a prefix (R457). -/
def Ctx.pfxCond (k : Ctx) (p : BitVec 32) : Bool :=
  let kind := fieldOf p 24 2
  let reg := BitVec.ofNat 5 (fieldOf p 19 5)
  let c := if kind = 0 then true
    else if kind = 1 then decide (k.rx reg ≠ 0)
    else if kind = 2 then decide (k.rx reg = 0)
    else k.anyMask (fieldOf p 19 5)
  if fieldOf p 18 1 = 1 then !c else c

/-- A queued vector instruction completes (R56, R137, R153, R187): its flags reach FSTAT, its groups have arrived, its
writes are in the die's caches, a machine check it met is pending. -/
def State.completeVector (s : State) (c : CtxId) (e : VEntry) : State :=
  let s1 := s.modCtx c fun k =>
    { k with fstat := k.fstat ||| e.flags, missing := k.missing &&& ~~~e.cover,
             pendMc := match e.mc with
               | some v => some v
               | none => k.pendMc }
  s1.reachDie fun p => decide (p.id ∈ e.writes)

/-- Every queued vector instruction of a context completes. -/
def State.settleVector (s : State) (c : CtxId) : State :=
  let k := s.ctx c
  (k.vq ++ k.vchk.toList).foldl (fun t e => t.completeVector c e)
    (s.modCtx c fun k => { k with vq := [], vchk := none })

/-- Every entry of a context in its core's matrix queue completes, with the entries before it (R233, R237). -/
def State.settleMatrix (s : State) (c : CtxId) : State :=
  if ((s.core (coreOf c)).mq.any fun e => decide (e.owner = c)) then s.modCore (coreOf c) Core.drainArray else s

/-- Every earlier instruction completes in its queue (R88). -/
def State.settle (s : State) (c : CtxId) : State := (s.settleVector c).settleMatrix c

/-- trap(illegal_instruction) with the instruction word (R389): every earlier instruction completes before it (R88). -/
def State.illegal (s : State) (c : CtxId) (w : BitVec 32) : State := (s.settle c).trap c (mkTrap 0 (w.zeroExtend 64))

/-- The vector lane quarters of a context (R505): those that its lanes meet. -/
def vectorUnits (c : CtxId) (k : Ctx) : List (Nat × Nat) :=
  (upFrom 0 4).filterMap fun q =>
    let quarter := physLanes (coreOf c) / 4
    if k.lg * k.lanes ≤ q * quarter ∧ q * quarter < k.lg * k.lanes + k.lanes then some (2, coreOf c % 64 * 4 + q) else none

/-- The units a word uses or posts to, by class and index (R505, R506). -/
def unitsOf (c : CtxId) (k : Ctx) (w : BitVec 32) : List (Nat × Nat) :=
  let core := coreOf c % 64
  let mj := majorOf w
  let op := opOf w
  [(0, core * 8 + slotOf c)] ++
    (if mj = 0x0C ∨ mj = 0x0D ∨ (mj = 0x0A ∧ 3 ≤ op) then [(1, core)] else []) ++
    (if isVectorWord w ∧ mj ≠ 0x29 ∧ mj ≠ 0x2A then vectorUnits c k else []) ++
    (if mj = 0x29 then [(3, core)] else []) ++
    (if mj = 0x2A ∧ op ≤ 3 then [(4, core)] else []) ++
    (if mj = 0x2A ∧ 7 ≤ op ∧ op ≤ 9 then [(5, core / 8)] else [])

/-- The trap value for a fenced unit (R506). -/
def fencedValue (u : Nat × Nat) : Word := BitVec.ofNat 64 (2 ^ 63 + u.1 * 2 ^ 16 + u.2)

/-- The trap value for a fenced unit that a word would use (R506). -/
def State.fencedUse (s : State) (c : CtxId) (w : BitVec 32) : Option Word :=
  match (unitsOf c (s.ctx c) w).find? fun u => decide (u ∈ (s.die (dieOf c)).fenced) with
  | some u => some (fencedValue u)
  | none => none

/-- Checks 1 to 3 of R87 for a word, with `forbidden` saying that the context state forbids it; then fenced units.  The
trap of the first check that fails.  A word that waits has passed check 3 once and for all (R494).  R87 and R391 give the check of R506 no place: it stands here after step 3 and before step 4,
whatever the condition of a prefix (log entry 58). -/
def State.issueCheck (s : State) (w : BitVec 32) (forbidden : Bool) : Option Trap :=
  let c := s.cur
  let k := s.ctx c
  let restoredBad := match k.pfx with
    | some p => p.restored && !(pfxLegal p.word && pairLegal k p.word w)
    | none => false
  let pairBad := match k.pfx with
    | some p => !pairLegal k p.word w
    | none => false
  if restoredBad then some (mkTrap 0 ((k.pfx.map Prefix.word).getD 0 |>.zeroExtend 64))
  else if pairBad || (isVectorWord w && !k.isVector) || forbidden then some (mkTrap 0 (w.zeroExtend 64))
  else if (decide (k.mode = .u) || decide (k.mode = .s)) && (match featBit w with
      | some b => !bit (s.featmask.toList.getD (s.part c) 0) b
      | none => false) then some (mkTrap 1 (w.zeroExtend 64))
  else if decide (expansionCode w ∈ (s.die (dieOf c)).omitted) && decide (k.passed ≠ some k.pc) then
    if (decide (k.mode = .h) || decide (k.mode = .m)) || decide (slotOf c = 7) then some (mkTrap 0 (w.zeroExtend 64))
    else some (mkTrap 2 (w.zeroExtend 64))
  else match s.fencedUse c w with
    | some v => some (mkTrap 20 v)
    | none => none

/-- A die remembers the encodings that its contexts have decoded (R494). -/
def State.noteDecoded (s : State) (die code : Nat) : State :=
  if code ∈ (s.die die).decoded then s else s.modDie die fun d => { d with decoded := d.decoded ++ [code] }

/-- The key of a unit in a die's table of last uses. -/
def unitKey (u : Nat × Nat) : Nat := u.1 * 65536 + u.2

/-- These units of a die are in use on this clk (R503). -/
def State.useUnits (s : State) (die : Nat) (us : List (Nat × Nat)) : State :=
  s.modDie die fun d => { d with lastUse := us.foldl (fun t u => t.set (unitKey u) s.clk) d.lastUse }

/-- The units that a word uses are in use on this clk (R503). -/
def State.noteUse (s : State) (c : CtxId) (w : BitVec 32) : State := s.useUnits (dieOf c) (unitsOf c (s.ctx c) w)

/-- A word has passed checks 1 to 3 of R87 and issues: its die notes the encoding, which it has noted for a word that waits (R494),
and the units that it uses (R503). -/
def State.noteIssue (s : State) (c : CtxId) (w : BitVec 32) : State :=
  (if (s.ctx c).passed = some (s.ctx c).pc then s else s.noteDecoded (dieOf c) (expansionCode w)).noteUse c w

/-- A word that the local table holds has been decoded, although a check after that stops it (R494): a FEATMASK bit masks it, or
a unit that it would use is fenced. -/
def State.noteStopped (s : State) (c : CtxId) (w : BitVec 32) (t : Trap) : State :=
  if (t.cause = 1 ∨ t.cause = 20) ∧ expansionCode w ∉ (s.die (dieOf c)).omitted then
    s.noteDecoded (dieOf c) (expansionCode w)
  else s

/-- The condition of a prefix of kind 3 waits for the vector instructions before it, as MPOPC does (R203, R457). -/
def Ctx.maskWaits (k : Ctx) : Bool :=
  match k.pfx with
  | some p => decide (fieldOf p.word 24 2 = 3) && (!k.vq.isEmpty || k.vchk.isSome)
  | none => false

/-- Has a context taken, between two states, a trap of the checks at issue: register_overlap, form_mismatch or
matrix_ownership (R391)? -/
def State.issueTrapped (s t : State) (c : CtxId) : Bool :=
  let k := t.ctx c
  decide ((s.ctx c).traps < k.traps) && decide ((k.bank k.mode).code.toNat ∈ [3, 4, 18])

/-- Could the form_mismatch of a word come from the comparison of VREST alone, which is no check at issue (R199, R391): its VL
does not exceed vlmax (R136)? -/
def Ctx.compares (k : Ctx) (w : BitVec 32) : Bool :=
  let f := k.form.toNat
  decide (majorOf w = 0x26) && decide (opOf w = 8) && decide (k.vl ≤ 64 * k.lanes * 2 ^ (f / 4 % 4) / 2 ^ (f % 4))

/-- What a word whose condition is false does (R86, R457): the checks at issue still trap, and nothing else of its effect
happens. -/
def State.skipped (s : State) (c : CtxId) (w : BitVec 32) (go : CtxId → Ctx → State → State) : State :=
  let t := go c (s.ctx c) s
  if s.issueTrapped t c && !(s.ctx c).compares w then t else s.retire c

/-- Issue a word in the context whose turn it is: the checks, the predicate of a prefix, and then its own effect.  A
member of a redundant gang that holds 4,096 stores closes its interval first (R510). -/
def State.issueIf (s : State) (w : BitVec 32) (forbidden : Bool) (go : CtxId → Ctx → State → State) : State :=
  let c := s.cur
  match s.issueCheck w forbidden with
  | some t => ((s.noteStopped c w t).settle c).trap c t
  | none =>
    let s1 := s.noteIssue c w
    let k := s.ctx c
    let full := match k.red with
      | some r => decide (4096 ≤ r.stores.length)
      | none => false
    let (s2, ok) := if full then s1.closeInterval c [] else (s1, true)
    if !ok || k.maskWaits then s2.stallBounded c
    else match k.pfx with
      | some p => if k.pfxCond p.word then go c (s2.ctx c) s2 else s2.skipped c w go
      | none => go c (s2.ctx c) s2

/-- Issue a word that no context state forbids beyond R21. -/
def State.issue (s : State) (w : BitVec 32) (go : CtxId → Ctx → State → State) : State := s.issueIf w false go

/-- The outcome of every meaning: a next state (R4: no rule leaves an instruction without an effect). -/
abbrev Res := Host.Outcome State Fault Refusal

end Sys2Proof.Machine
end

