-- ==== Sys2Proof/Machine/Access.lean ====
section
/-! DEFINITION. Scalar accesses to generic memory: ordering before an access (R122-R124, R128, R351), loads, stores,
posted stores, atomics and reserved pairs, at HBM, host memory, peer windows and FCBs (R118-R131, R340, R471). -/

namespace Sys2Proof.Machine

/-- The line tag that a context's write leaves (R435): shared through an SH translation or in M, else the writer's DID. -/
def writeShared (ag : Agent) (a : Access) : Bool := decide (ag.mode = .m) || a.xl.sh

/-- The context waits for the reply of its access (R122): an access that hits the L1 data cache has replied before the next
turn of the slot (R132); any other waits at least its nominal time (R345; log entry 8). -/
def State.awaitReply (s : State) (c : CtxId) : State :=
  let t := (s.ctx c).reply
  if t = 0 then s
  else
    let s1 := s.modCtx c fun k => { k with wait := .reply, reply := 0 }
    { s1.after (t - s.clk + Config.latency s.free) (.memoryReply c 0 0) with free := s.free + 1 }

/-- The context waits for the reply of an access that no cache serves. -/
def State.awaitFar (s : State) (c : CtxId) : State := (s.modCtx c fun k => { k with reply := s.clk + 24 }).awaitReply c

/-- What must be performed before an access of the given order and scope (R123, R124, R351): an access that is not relaxed,
and any atomic, waits for the context's posted stores at DIE; an acquire or a release closes the interval of a redundant
member; a release waits for everything earlier at its scope. -/
def State.orderReady (s : State) (c : CtxId) (atomic : Bool) (order scope : Nat) (ops : List Word) : State × Bool :=
  if order = 1 ∧ atomic = false then (s, true)
  else if !s.postedDone c then (s, false)
  else if 2 ≤ order then
    let (s1, ok) := s.closeInterval c ops
    if !ok then (s1, false) else if order = 2 then (s1, true) else s1.release c ((s1.ctx c).effScope scope) .access
  else (s, true)

/-- Does an entry of the vector queue access bytes of a range (R188)? -/
def State.entryMeets (s : State) (e : VEntry) (addr n : Nat) : Bool :=
  (e.reads.any fun r => decide (r.1 < addr + n) && decide (addr < r.1 + r.2)) ||
    s.pend.any fun p => decide (p.id ∈ e.writes) && decide (p.addr < addr + n) && decide (addr < p.addr + p.bytes.length)

/-- Does a vector load or store of the context that has not completed access bytes of a range (R188)? -/
def State.vectorMeets (s : State) (c : CtxId) (addr n : Nat) : Bool :=
  let k := s.ctx c
  (k.vq ++ k.vchk.toList).any fun e => s.entryMeets e addr n

/-- Does an access that has failed for want of a route lie outside HBM, where an atomic, LDL or STC fails before any request
(R127, R476)? -/
def State.offHbm (s : State) (ag : Agent) (kind : AccKind) (va : Word) (t : Trap) : Bool :=
  decide (t.cause = 20) && (match s.translate ag kind va with
    | .ok x => decide (s.place x.pa ≠ .hbm)
    | .error _ => false)

/-- The front of a scalar access of n bytes (R119, R123, R124, R127, R188, R336): its walk reads its tables, its checks, HBM
alone for an atomic, LDL or STC, the vector instructions that it must follow, what must be performed before it; then `go` with
its translation cached. -/
def State.scalarFront (s : State) (c : CtxId) (kind : AccKind) (va : Word) (n : Nat) (atomic : Bool) (order scope : Nat)
    (ops : List Word) (go : State → Agent → Access → State) : State :=
  let ag := s.agent c
  match s.walkReady ag [va] n with
  | none => (s.holdWalks ag [va] n).stallBounded c
  | some s0 =>
    match s.checkAccess ag kind va n with
    | .error t => if atomic && s.offHbm ag kind va t then s0.trap c (mkTrap 9 va) else s0.accessTrap c kind t
    | .ok a =>
      if atomic && decide (a.place ≠ .hbm) then s0.trap c (mkTrap 9 va)
      else if s.vectorMeets c a.pa n then s0.stallBounded c
      else
        let (s1, ok) := s0.orderReady c atomic order scope ops
        if !ok then s1.stallBounded c else go (s1.fillTlb ag va a.xl) ag a

/-- Before a write at the home, the pending writes to its lines that the writer may have seen are performed, so that each
byte keeps one order (R188, R348). -/
def State.flushSeen (s : State) (c : CtxId) (addr n : Nat) : State :=
  s.flush fun p => p.visible c (dieOf c) && decide (p.addr / 64 ≤ (addr + n - 1) / 64 ∧ addr / 64 ≤ (p.addr + p.bytes.length - 1) / 64)

/-- An access of a context that is performed at the home of its lines, at the ports that it passes (R337, R342): near lines
stay in its caches, far ones do not. -/
def State.homeUse (s : State) (c : CtxId) (write : Bool) (addr n : Nat) : State :=
  s.portUse c true write (s.near (dieOf c) (lineOf addr)) (linesOf addr n)

/-- A context's access at the home of its line is over: it waits there no longer, and the misses that the home has held are
served (R337). -/
def State.leaveHome (s : State) (c : CtxId) (addr n : Nat) : State :=
  (linesOf addr n).foldl State.serveMisses { s with held := s.held.filter fun h => h.2 ≠ c }

/-- A write of a context performed at its home now (R337). -/
def State.writeHome (s : State) (c : CtxId) (addr : Nat) (bytes : List Byte) (shared : Bool) (did : BitVec 7) : State :=
  let s1 := (s.flushSeen c addr bytes.length).homeUse c true addr bytes.length
  let s2 := ((s1.sendFrom (dieOf c) (linesOf addr bytes.length)).publish c addr bytes.length).performHome { ctx := some c, fn := none } addr bytes shared did
  s2.leaveHome c addr bytes.length

/-- The value that a load instruction writes for the bytes it read (R118), by its major opcode. -/
def loadValue (mj : Nat) (raw : Nat) : Word :=
  if mj = 0x10 then sext64 8 raw
  else if mj = 0x12 then sext64 16 raw
  else if mj = 0x14 then sext64 32 raw
  else BitVec.ofNat 64 raw

/-- A load instruction takes its value (R118): FLW and FLD write f[d], the others x[d]. -/
def State.finishLoad (s : State) (c : CtxId) (w : BitVec 32) (raw : Nat) : State :=
  let d := w.extractLsb' 21 5
  let v := loadValue (majorOf w) raw
  if majorOf w = 0x17 ∨ majorOf w = 0x18 then s.retireF c d v else s.retireX c d v

/-- A read through a port die (R340, R471): a non-posted request whose completion event returns the data; a peer read also has its
50 µs limit. -/
def State.outboundRead (s : State) (c : CtxId) (w : BitVec 32) (va : Word) (a : Access) (n : Nat) (data : Word) : State :=
  let s0 := s.portRequest (s.did c) a.place a.pa false n []
  let s1 := (s0.modCtx c fun k => { k with wait := .outbound w va a.pa (s.requester (s.did c) a.place) }).soon
    (.outboundCompletion c data true)
  match a.place with
  | .peer _ _ _ => s1.after 100000 (.peerReadTimeout c)
  | _ => s1

/-- The bytes that a read of host memory or of a peer device brings (R340, R471). -/
def State.outboundData (s : State) (a : Access) (n : Nat) : Word :=
  match a.place with
  | .host _ => wordOf (s.mem.readN a.pa n)
  | _ => BitVec.ofNat 64 ((Config.peerData s.free).toNat % 2 ^ (8 * n))

/-- The bytes at an address as memory cells. -/
def cellsOf (pa : Nat) (bs : List Byte) : List Host.Cell := (upFrom pa bs.length).zip bs

/-- A primary hands its shadow the outcome and the bytes of a read through a port die (R4, R510; log entry 49). -/
def State.lend (s : State) (c : CtxId) (ok : Bool) (cells : List Host.Cell) : State :=
  match (s.ctx c).red with
  | some r => if r.primary then s.modCtx r.partner fun p => { p with red := p.red.map fun q => { q with far := some (ok, cells) } } else s
  | none => s

/-- The shadow has used what its primary has read. -/
def Ctx.tookFar (k : Ctx) : Ctx := { k with red := k.red.map fun q => { q with far := none } }

/-- What a shadow takes of its primary's read through a port die, once it is there. -/
def Ctx.farRead (k : Ctx) : Option (Bool × List Host.Cell) := k.red.bind Redundant.far

/-- The bytes from an address among those that a primary has read. -/
def farBytes (cells : List Host.Cell) (pa n : Nat) : List Byte := Memory.readN cells pa n

/-- A shadow's load through a port die (R510): it takes what its primary's load brings, or the trap of it. -/
def State.shadowLoad (s : State) (c : CtxId) (w : BitVec 32) (va : Word) (a : Access) (n : Nat) : State :=
  match (s.ctx c).farRead with
  | none => s.stallBounded c
  | some (true, cells) => (s.modCtx c Ctx.tookFar).finishLoad c w (natOf (farBytes cells a.pa n))
  | some (false, _) => (s.modCtx c Ctx.tookFar).trap c (mkTrap 20 va)

/-- A write through a port die (R340): it is performed when it is sent, as a posted write; a shadow sends none (R510). -/
def State.outboundWrite (s : State) (c : CtxId) (a : Access) (bytes : List Byte) : State :=
  if (s.ctx c).isShadow then s
  else
    let s1 := s.portRequest (s.did c) a.place a.pa true bytes.length bytes
    match a.place with
    | .host _ => { s1 with mem := s1.mem.writeL a.pa bytes }
    | _ => s1

/-- A scalar load of `n` bytes at `va` by the instruction word `w`, with the order and scope of its prefix (R118-R123). -/
def State.scalarLoad (s : State) (c : CtxId) (w : BitVec 32) (va : Word) (n : Nat) : State :=
  let k := s.ctx c
  s.scalarFront c .load va n false k.pfxOrder k.pfxScope [va] fun s2 ag a =>
    match a.place with
    | .hbm =>
      match s2.readLine (dieOf c) (lineOf a.pa) with
      | none => (s2.holdMisses (dieOf c) [lineOf a.pa]).stallBounded c
      | some s3 =>
        ((s3.takeRead c true (decide (k.pfxOrder ≠ 1)) a.pa n).finishLoad c w (natOf (s3.view c (dieOf c) a.pa n))).awaitReply c
    | .fcb p f o =>
      match s2.fcbRead ag p f o with
      | some v => (s2.finishLoad c w v.toNat).awaitFar c
      | none => s2.trap c (mkTrap 9 va)
    | _ =>
      let (s3, done) := s2.closeInterval c [va]
      if !done || !s3.postedDone c then s3.stallBounded c
      else if (s3.ctx c).isShadow then s3.shadowLoad c w va a n
      else s3.outboundRead c w va a n (s3.outboundData a n)

/-- The posted stores that a context's store path holds (R124). -/
def State.postedCount (s : State) (c : CtxId) : Nat :=
  (s.pend.filter fun p => decide (p.owner = c) && decide (p.kind = .posted) && !p.atDieDone).length

/-- The clk from which a context's next posted store may leave: 24 clk from its issue, and 1 clk after the one before it
(R124). -/
def State.postedLeave (s : State) (c : CtxId) : Nat :=
  (s.pend.filter fun p => decide (p.owner = c) && decide (p.kind = .posted) && !p.atDie).foldl (fun t p => Nat.max t (p.leave + 1))
    (s.clk + 24)

/-- A relaxed store to HBM enters the store path, leaves it for the die's caches at issue + 24 or after the one before it, and goes on
to its home (R124). -/
def State.postStore (s : State) (c : CtxId) (pa : Nat) (bytes : List Byte) (sh : Bool) (did : BitVec 7) : State :=
  let t := s.postedLeave c
  let s1 := s.addPend c .posted false t pa bytes sh did
  let s2 := if (s.nextPosted c).isSome then s1 else s1.after (t - s.clk) (.postedStoreDrain c)
  { s2.after (t - s.clk + 1 + Config.latency s.free) (.homeWritePerform s.nextId) with free := s.free + 1 }

/-- A relaxed store to host memory, a peer window or a function control block enters the store path (R124): it is performed when it
leaves it (R340). -/
def State.postFar (s : State) (c : CtxId) (pa : Nat) (bytes : List Byte) (did : BitVec 7) : State :=
  let t := s.postedLeave c
  let s1 := s.addPend c .posted false t pa bytes false did
  if (s.nextPosted c).isSome then s1 else s1.after (t - s.clk) (.postedStoreDrain c)

/-- A posted store that does not go to HBM leaves the store path: it is sent (R340), or it acts on a control block (R463). -/
def State.sendPosted (s : State) (p : PWrite) : State :=
  let s1 := match s.place p.addr with
    | .fcb q f o => (s.fcbWrite { s.agent p.owner with mode := p.mode, did := p.did, secure := decide (p.mode = Mode.m) } q f o
        (wordOf p.bytes)).1
    | .host q => { s.portRequest p.did (.host q) p.addr true p.bytes.length p.bytes with mem := s.mem.writeL p.addr p.bytes }
    | pl => s.portRequest p.did pl p.addr true p.bytes.length p.bytes
  s1.endPend p

/-- The next posted store of a context leaves its store path, once its time has come and the port has served it; the one after
it follows 1 clk later at the earliest (R124). -/
def State.drainPosted (s : State) (c : CtxId) : State :=
  match s.nextPosted c with
  | none => s
  | some p =>
    if s.clk < p.leave then s.after (p.leave - s.clk) (.postedStoreDrain c)
    else if !s.portServed (coreOf c) p.ticket then s.after 1 (.postedStoreDrain c)
    else
      let s1 := if s.place p.addr = .hbm then s.reachDie fun q => decide (q.id = p.id) else s.sendPosted p
      match s1.nextPosted c with
      | none => s1
      | some q =>
        let t := Nat.max q.leave (s1.clk + 1)
        ({ s1 with pend := s1.pend.map fun r => if r.id = q.id then { r with leave := t } else r } : State).after
          (t - s1.clk) (.postedStoreDrain c)

/-- A store enters the commit buffer of a redundant member (R351, R509). -/
def Ctx.buffered (k : Ctx) (e : Nat × List Byte × Bool × BitVec 7) : Ctx :=
  { k with red := k.red.map fun r => { r with stores := r.stores ++ [e] } }

/-- A scalar store of `bytes` at `va`, with the order and scope of its prefix (R118-R124): relaxed stores are posted, the
stores of a redundant member go to its commit buffer, every other store waits until it is performed at its home. -/
def State.scalarStore (s : State) (c : CtxId) (va : Word) (bytes : List Byte) : State :=
  let k := s.ctx c
  let n := bytes.length
  s.scalarFront c .store va n false k.pfxOrder k.pfxScope [va, wordOf bytes] fun s2 ag a =>
    let sh := writeShared ag a
    match a.place with
    | .hbm =>
      if (s2.ctx c).red.isSome then
        let (s3, room) := s2.commitRoom c n
        if !room then s3.stallBounded c else (s3.modCtx c fun k => k.buffered (a.pa, bytes, sh, ag.did)).retire c
      else if k.pfxOrder = 1 then
        if Config.postedDepth ≤ s2.postedCount c then s2.stallBounded c else (s2.postStore c a.pa bytes sh ag.did).retire c
      else if s2.leaseFree a.pa n then ((s2.writeHome c a.pa bytes sh ag.did).retire c).awaitReply c
      else s2.holdAtHome c a.pa
    | .fcb p f o =>
      let (s3, done) := s2.fcbWrite ag p f o (wordOf bytes)
      if !done then s3.trap c (mkTrap 9 va)
      else if k.pfxOrder = 1 then
        if Config.postedDepth ≤ s2.postedCount c then s2.stallBounded c else (s2.postFar c a.pa bytes ag.did).retire c
      else (s3.retire c).awaitFar c
    | _ =>
      let (s3, done) := s2.closeInterval c [va, wordOf bytes]
      if !done then s3.stallBounded c
      else if k.pfxOrder = 1 then
        if (s3.ctx c).isShadow then s3.retire c
        else if Config.postedDepth ≤ s3.postedCount c then s3.stallBounded c
        else (s3.postFar c a.pa bytes ag.did).retire c
      else ((s3.outboundWrite c a bytes).retire c).awaitFar c

/-! Atomics and reserved pairs. -/

/-- The new value of an atomic of 8w bits (R126), from the old value, the operand and the old x[d]. -/
def amoNew (op w old v d : Nat) : Nat :=
  if op = 0 then v
  else if op = 1 then (old + v) % 2 ^ (8 * w)
  else if op = 2 then old &&& v
  else if op = 3 then old ||| v
  else if op = 4 then old ^^^ v
  else if op = 5 then (if toSigned (8 * w) v < toSigned (8 * w) old then v else old)
  else if op = 6 then (if toSigned (8 * w) old < toSigned (8 * w) v then v else old)
  else (if old = d then v else old)

/-- What an atomic, LDL or STC does before it acts: the front of its access, with its order (R128), and the close of a
redundant interval (R510). -/
def State.atomicReady (s : State) (c : CtxId) (kind : AccKind) (va : Word) (n order scope : Nat) (ops : List Word)
    (go : State → Agent → Access → State) : State :=
  s.scalarFront c kind va n true order scope ops fun s1 ag a =>
    let (s2, closed) := s1.closeInterval c ops
    if !closed then s2.stallBounded c else go s2 ag a

/-- AMO of ops 0-7 (R126): x[d] := the old value sign-extended, less `less` (1 for JOINDEC, R273), which is the result that the
channels carry.  The write is performed at the home (R337); a shadow writes nothing (R509); a replay writes what the logged result
implies (R513). -/
def State.atomic (s : State) (c : CtxId) (op n : Nat) (d : BitVec 5) (va v : Word) (order scope : Nat)
    (less : Word) : State :=
  s.atomicReady c .amo va n order scope (if op = 7 then [va, v, (s.ctx c).rx d] else [va, v]) fun s1 ag a =>
    if !s1.leaseFree a.pa n then s1.holdAtHome c a.pa
    else
      let s2 := s1.flushSeen c a.pa n
      let own := sext64 (8 * n) (natOf (s2.mem.readN a.pa n))
      (s2.noteRead c (decide (order ≠ 1)) a.pa n).withLogged c [(4, own - less)] fun s3 vs =>
        let r := vs.getD 0 0
        let old := (r + less).toNat % 2 ^ (8 * n)
        let new := amoNew op n old (v.toNat % 2 ^ (8 * n)) ((s3.ctx c).rx d |>.toNat |> (· % 2 ^ (8 * n)))
        let s4 := if (s3.ctx c).isShadow then s3.leaveHome c a.pa n
          else if op = 7 ∧ new = old then (s3.homeUse c false a.pa n).leaveHome c a.pa n
          else s3.writeHome c a.pa (bytesOf new n) (writeShared ag a) ag.did
        (s4.retireX c d r).awaitReply c

/-- LDL (R129): an ordinary load that sets the reservation; on a far line it is performed at the home (R337).  A shadow performs none
and takes its primary's value (R510). -/
def State.loadLinked (s : State) (c : CtxId) (n : Nat) (d : BitVec 5) (va : Word) (order scope : Nat) : State :=
  s.atomicReady c .load va n order scope [va] fun s1 _ a =>
    if !s1.near (dieOf c) (lineOf a.pa) && !s1.leaseFree a.pa n then s1.holdAtHome c a.pa
    else
      let s2 := s1.flushSeen c a.pa n
      let own := sext64 (8 * n) (natOf (s2.view c (dieOf c) a.pa n))
      (s2.noteRead c (decide (order ≠ 1)) a.pa n).withLogged c [(4, own)] fun s3 vs =>
        let s4 := (if (s3.ctx c).isShadow then s3 else s3.homeUse c false a.pa n).leaveHome c a.pa n
        let s5 := (s4.retireX c d (vs.getD 0 0)).modCtx c fun k =>
          { k with resv := some { ea := va, w := n, line := lineOf a.pa } }
        s5.awaitReply c

/-- Does the reservation of a context hold an address and width (R130)? -/
def Ctx.reserves (k : Ctx) (va : Word) (n : Nat) : Bool :=
  match k.resv with
  | some r => decide (r.ea = va) && decide (r.w = n)
  | none => false

/-- STC (R130): the reservation decides, and is cleared either way; what comes before the STC's own write to the line is
performed first and may have cleared it (R131). -/
def State.storeConditional (s : State) (c : CtxId) (n : Nat) (d : BitVec 5) (va v : Word) (order scope : Nat) : State :=
  s.atomicReady c .store va n order scope [va, v] fun s1 ag a =>
    if ((s1.ctx c).reserves va n || !s1.near (dieOf c) (lineOf a.pa)) && !s1.leaseFree a.pa n then s1.holdAtHome c a.pa
    else
      let s2 := s1.flushSeen c a.pa n
      s2.withLogged c [(4, if (s2.ctx c).reserves va n then 0 else 1)] fun s3 vs =>
        let r := vs.getD 0 1
        let s4 := s3.modCtx c fun k => { k with resv := none }
        let s5 := if (s4.ctx c).isShadow then s4.leaveHome c a.pa n
          else if r = 0 then s4.writeHome c a.pa (bytesOf v.toNat n) (writeShared ag a) ag.did
          else (s4.homeUse c false a.pa n).leaveHome c a.pa n
        (s5.retireX c d r).awaitReply c

/-! Blocks of bytes that instructions read beside their operands. -/

/-- Every relaxed store of a context to a port die has been sent: what it reads or writes there next is sent after them (R340). -/
def State.portsQuiet (s : State) (c : CtxId) : Bool :=
  !s.pend.any fun p => decide (p.owner = c) && decide (p.kind = .posted) && decide (s.place p.addr ≠ .hbm)

/-- A block of n bytes at a virtual address that an instruction reads, checked as a load (R119): through its caches from HBM,
as one PCIe read from host memory, after whose completion the instruction goes on (R340); a peer window and a function
control block fail check 3. -/
def State.withBlock (s : State) (c : CtxId) (va : Word) (n : Nat) (go : List Byte → State → State) : State :=
  let ag := s.agent c
  match s.walkReady ag [va] n with
  | none => (s.holdWalks ag [va] n).stallBounded c
  | some s0 =>
    match s.checkAccess ag .load va n with
    | .error t => s0.accessTrap c .load t
    | .ok a =>
      let s1 := s0.fillTlb ag va a.xl
      match a.place with
      | .hbm =>
        match s1.readLines (dieOf c) (linesOf a.pa n) with
        | none => (s1.holdMisses (dieOf c) (linesOf a.pa n)).stallBounded c
        | some s2 => go (s2.view c (dieOf c) a.pa n) (s2.takeRead c false false a.pa n)
      | .host _ =>
        match (s1.ctx c).block with
        | some (v, bs) =>
          if v = va then go bs s1 else (s1.modCtx c fun k => { k with block := none }).stallBounded c
        | none =>
          let (s2, done) := s1.closeInterval c [va]
          if !done || !s2.portsQuiet c then s2.stallBounded c
          else if (s2.ctx c).isShadow then
            match (s2.ctx c).farRead with
            | none => s2.stallBounded c
            | some (true, cells) => go (farBytes cells a.pa n) (s2.modCtx c Ctx.tookFar)
            | some (false, _) => (s2.modCtx c Ctx.tookFar).trap c (mkTrap 20 va)
          else
            ((((s2.portRequest (s2.did c) a.place a.pa false n []).stallBounded c).modCtx c
              fun k => { k with wait := .block va a.pa n (s2.requester (s2.did c) a.place) }).soon
                (.outboundCompletion c 0 true))
      | _ => s1.trap c (mkTrap 9 va)

end Sys2Proof.Machine
end

