-- ==== Sys2Proof/Machine/Scalar.lean ====
section
/-! DEFINITION. The ALU group, the immediate forms, multiply and divide, and LUT3 (R91-R101). -/

namespace Sys2Proof.Machine

/-- SLT and SLTU results: 1 or 0. -/
def ofBool (b : Bool) : Word := if b then 1 else 0

/-- The bit field of EXT: bits [pos + len - 1 : pos], zero-extended (R96). -/
def extField (x : Word) (pos len : Nat) : Word := BitVec.ofNat 64 (sliceNat x pos len)

/-- Signed division rounded toward zero, with the saturating cases of R99. -/
def divSigned (a b : Word) : Word :=
  if b = 0 then
    (if a = 0 then 0 else if a.toInt < 0 then 0x8000000000000000#64 else 0x7FFFFFFFFFFFFFFF#64)
  else if a = 0x8000000000000000#64 ∧ b = BitVec.allOnes 64 then 0x7FFFFFFFFFFFFFFF#64
  else BitVec.ofInt 64 (a.toInt.tdiv b.toInt)

/-- Unsigned division, with the saturating cases of R99. -/
def divUnsigned (a b : Word) : Word :=
  if b = 0 then (if a = 0 then 0 else BitVec.allOnes 64) else BitVec.ofNat 64 (a.toNat / b.toNat)

/-- Signed remainder, with the cases of R99: the sign is that of the dividend. -/
def remSigned (a b : Word) : Word :=
  if b = 0 then a
  else if a = 0x8000000000000000#64 ∧ b = BitVec.allOnes 64 then 0
  else BitVec.ofInt 64 (a.toInt.tmod b.toInt)

/-- Unsigned remainder, with the cases of R99. -/
def remUnsigned (a b : Word) : Word := if b = 0 then a else BitVec.ofNat 64 (a.toNat % b.toNat)

/-- The three-input lookup (R101): bit i of the result is table[4 a_i + 2 b_i + c_i]. -/
def lut3 (table : BitVec 8) (a b c : Word) : Word :=
  (upFrom 0 8).foldl (fun acc n =>
    if table.getLsbD n then
      acc ||| ((if n / 4 % 2 = 1 then a else ~~~a) &&& (if n / 2 % 2 = 1 then b else ~~~b) &&&
        (if n % 2 = 1 then c else ~~~c))
    else acc) 0

/-- A divide keeps its context from issuing for 32 clk (R132). -/
def State.busy (s : State) (c : CtxId) (n : Nat) : State := s.modCtx c fun k => { k with notBefore := s.clk + n }

/-- ADD (R96): Writes x[a] + x[b] to x[d], modulo 2^64. -/
def execAdd (d a b : BitVec 5) (s : State) : Res :=
  .next (s.issue (encAdd d a b) fun c k s => s.retireX c d (k.rx a + k.rx b))

/-- SUB (R96): Writes x[a] - x[b] to x[d]. -/
def execSub (d a b : BitVec 5) (s : State) : Res :=
  .next (s.issue (encSub d a b) fun c k s => s.retireX c d (k.rx a - k.rx b))

/-- AND (R96): Writes the bitwise AND of x[a] and x[b] to x[d]. -/
def execAnd (d a b : BitVec 5) (s : State) : Res :=
  .next (s.issue (encAnd d a b) fun c k s => s.retireX c d (k.rx a &&& k.rx b))

/-- OR (R96): Writes the bitwise OR of x[a] and x[b] to x[d]. -/
def execOr (d a b : BitVec 5) (s : State) : Res :=
  .next (s.issue (encOr d a b) fun c k s => s.retireX c d (k.rx a ||| k.rx b))

/-- XOR (R96): Writes the bitwise XOR of x[a] and x[b] to x[d]. -/
def execXor (d a b : BitVec 5) (s : State) : Res :=
  .next (s.issue (encXor d a b) fun c k s => s.retireX c d (k.rx a ^^^ k.rx b))

/-- SLL (R96): Shifts x[a] left by x[b][5:0]. -/
def execSll (d a b : BitVec 5) (s : State) : Res :=
  .next (s.issue (encSll d a b) fun c k s => s.retireX c d (k.rx a <<< bits (k.rx b) 5 0))

/-- SRL (R96): Shifts x[a] right logically by x[b][5:0]. -/
def execSrl (d a b : BitVec 5) (s : State) : Res :=
  .next (s.issue (encSrl d a b) fun c k s => s.retireX c d (k.rx a >>> bits (k.rx b) 5 0))

/-- SRA (R96): Shifts x[a] right arithmetically by x[b][5:0]. -/
def execSra (d a b : BitVec 5) (s : State) : Res :=
  .next (s.issue (encSra d a b) fun c k s => s.retireX c d ((k.rx a).sshiftRight (bits (k.rx b) 5 0)))

/-- SLT (R96): Writes 1 to x[d] if x[a] < x[b] signed, else 0. -/
def execSlt (d a b : BitVec 5) (s : State) : Res :=
  .next (s.issue (encSlt d a b) fun c k s => s.retireX c d (ofBool ((k.rx a).slt (k.rx b))))

/-- SLTU (R96): Writes 1 to x[d] if x[a] < x[b] unsigned, else 0. -/
def execSltu (d a b : BitVec 5) (s : State) : Res :=
  .next (s.issue (encSltu d a b) fun c k s => s.retireX c d (ofBool ((k.rx a).ult (k.rx b))))

/-- MIN (R96): Writes the signed minimum of x[a] and x[b]. -/
def execMin (d a b : BitVec 5) (s : State) : Res :=
  .next (s.issue (encMin d a b) fun c k s => s.retireX c d (if (k.rx b).slt (k.rx a) then k.rx b else k.rx a))

/-- MAX (R96): Writes the signed maximum of x[a] and x[b]. -/
def execMax (d a b : BitVec 5) (s : State) : Res :=
  .next (s.issue (encMax d a b) fun c k s => s.retireX c d (if (k.rx a).slt (k.rx b) then k.rx b else k.rx a))

/-- MINU (R96): Writes the unsigned minimum of x[a] and x[b]. -/
def execMinu (d a b : BitVec 5) (s : State) : Res :=
  .next (s.issue (encMinu d a b) fun c k s => s.retireX c d (if (k.rx b).ult (k.rx a) then k.rx b else k.rx a))

/-- MAXU (R96): Writes the unsigned maximum of x[a] and x[b]. -/
def execMaxu (d a b : BitVec 5) (s : State) : Res :=
  .next (s.issue (encMaxu d a b) fun c k s => s.retireX c d (if (k.rx a).ult (k.rx b) then k.rx b else k.rx a))

/-- FSHL (R96): Funnel-shifts x[a]:x[b] left by sh and keeps the upper 64 bits. -/
def execFshl (d a b : BitVec 5) (sh : BitVec 6) (s : State) : Res :=
  .next (s.issue (encFshl d a b sh) fun c k s => s.retireX c d (((k.rx a ++ k.rx b) <<< sh.toNat).extractLsb' 64 64))

/-- FSHR (R96): Funnel-shifts x[a]:x[b] right by sh and keeps the lower 64 bits. -/
def execFshr (d a b : BitVec 5) (sh : BitVec 6) (s : State) : Res :=
  .next (s.issue (encFshr d a b sh) fun c k s => s.retireX c d (((k.rx a ++ k.rx b) >>> sh.toNat).extractLsb' 0 64))

/-- CLZ (R96): Counts the leading zero bits of x[a]. -/
def execClz (d a : BitVec 5) (s : State) : Res :=
  .next (s.issue (encClz d a) fun c k s => s.retireX c d (BitVec.ofNat 64 (clz 64 (k.rx a).toNat)))

/-- CTZ (R96): Counts the trailing zero bits of x[a]. -/
def execCtz (d a : BitVec 5) (s : State) : Res :=
  .next (s.issue (encCtz d a) fun c k s => s.retireX c d (BitVec.ofNat 64 (ctz (k.rx a).toNat 64)))

/-- POPC (R96): Counts the one bits of x[a]. -/
def execPopc (d a : BitVec 5) (s : State) : Res :=
  .next (s.issue (encPopc d a) fun c k s => s.retireX c d (BitVec.ofNat 64 (popcount (k.rx a).toNat 64)))

/-- SEL (R96): Writes x[a] if the old x[d] is non-zero, else x[b]. -/
def execSel (d a b : BitVec 5) (s : State) : Res :=
  .next (s.issue (encSel d a b) fun c k s => s.retireX c d (if k.rx d ≠ 0 then k.rx a else k.rx b))

/-- EXT (R96): Extracts a zero-extended bit field of x[a]. -/
def execExt (d a l : BitVec 5) (p : BitVec 6) (s : State) : Res :=
  .next (s.issue (encExt d a l p) fun c k s => s.retireX c d (extField (k.rx a) p.toNat (l.toNat + 1)))

/-- INS (R96): Inserts the low bits of x[a] into a field of x[d]. -/
def execIns (d a l : BitVec 5) (p : BitVec 6) (s : State) : Res :=
  .next (s.issue (encIns d a l p) fun c k s => s.retireX c d (putSlice (k.rx d) p.toNat (l.toNat + 1) (k.rx a).toNat))

/-- ADDI (R97): Adds the sign-extended immediate to x[a]. -/
def execAddi (d a : BitVec 5) (i : BitVec 16) (s : State) : Res :=
  .next (s.issue (encAddi d a i) fun c k s => s.retireX c d (k.rx a + i.signExtend 64))

/-- ANDI (R97): ANDs x[a] with the zero-extended immediate. -/
def execAndi (d a : BitVec 5) (i : BitVec 16) (s : State) : Res :=
  .next (s.issue (encAndi d a i) fun c k s => s.retireX c d (k.rx a &&& i.zeroExtend 64))

/-- ORI (R97): ORs x[a] with the zero-extended immediate. -/
def execOri (d a : BitVec 5) (i : BitVec 16) (s : State) : Res :=
  .next (s.issue (encOri d a i) fun c k s => s.retireX c d (k.rx a ||| i.zeroExtend 64))

/-- XORI (R97): XORs x[a] with the zero-extended immediate. -/
def execXori (d a : BitVec 5) (i : BitVec 16) (s : State) : Res :=
  .next (s.issue (encXori d a i) fun c k s => s.retireX c d (k.rx a ^^^ i.zeroExtend 64))

/-- SLLI (R97): Shifts x[a] left by an immediate amount. -/
def execSlli (d a : BitVec 5) (sh : BitVec 6) (s : State) : Res :=
  .next (s.issue (encSlli d a sh) fun c k s => s.retireX c d (k.rx a <<< sh.toNat))

/-- SRLI (R97): Shifts x[a] right logically by an immediate amount. -/
def execSrli (d a : BitVec 5) (sh : BitVec 6) (s : State) : Res :=
  .next (s.issue (encSrli d a sh) fun c k s => s.retireX c d (k.rx a >>> sh.toNat))

/-- SRAI (R97): Shifts x[a] right arithmetically by an immediate amount. -/
def execSrai (d a : BitVec 5) (sh : BitVec 6) (s : State) : Res :=
  .next (s.issue (encSrai d a sh) fun c k s => s.retireX c d ((k.rx a).sshiftRight sh.toNat))

/-- SLTI (R97): Compares x[a] with the immediate, signed. -/
def execSlti (d a : BitVec 5) (i : BitVec 16) (s : State) : Res :=
  .next (s.issue (encSlti d a i) fun c k s => s.retireX c d (ofBool ((k.rx a).slt (i.signExtend 64))))

/-- SLTIU (R97): Compares x[a] with the sign-extended immediate, unsigned. -/
def execSltiu (d a : BitVec 5) (i : BitVec 16) (s : State) : Res :=
  .next (s.issue (encSltiu d a i) fun c k s => s.retireX c d (ofBool ((k.rx a).ult (i.signExtend 64))))

/-- LUI (R97): Writes sext(imm21 × 2^11, 32) to x[d]. -/
def execLui (d : BitVec 5) (i : BitVec 21) (s : State) : Res :=
  .next (s.issue (encLui d i) fun c _ s => s.retireX c d ((i ++ 0#11).signExtend 64))

/-- ADDPC (R97): Writes the PC plus sext(imm21 × 2^11, 32) to x[d]. -/
def execAddpc (d : BitVec 5) (i : BitVec 21) (s : State) : Res :=
  .next (s.issue (encAddpc d i) fun c k s => s.retireX c d (k.pc + (i ++ 0#11).signExtend 64))

/-- MUL (R98): Writes the low 64 bits of the product. -/
def execMul (d a b : BitVec 5) (s : State) : Res :=
  .next (s.issue (encMul d a b) fun c k s => s.retireX c d (k.rx a * k.rx b))

/-- MULH (R98): Writes the high 64 bits of the signed product. -/
def execMulh (d a b : BitVec 5) (s : State) : Res :=
  .next (s.issue (encMulh d a b) fun c k s =>
    s.retireX c d (BitVec.ofInt 64 ((k.rx a).toInt * (k.rx b).toInt / 2 ^ 64)))

/-- MULHU (R98): Writes the high 64 bits of the unsigned product. -/
def execMulhu (d a b : BitVec 5) (s : State) : Res :=
  .next (s.issue (encMulhu d a b) fun c k s =>
    s.retireX c d (BitVec.ofNat 64 ((k.rx a).toNat * (k.rx b).toNat / 2 ^ 64)))

/-- DIV (R99): Signed division, rounded toward zero, with saturating special cases. -/
def execDiv (d a b : BitVec 5) (s : State) : Res :=
  .next (s.issue (encDiv d a b) fun c k s => (s.retireX c d (divSigned (k.rx a) (k.rx b))).busy c 32)

/-- DIVU (R99): Unsigned division, with saturating special cases. -/
def execDivu (d a b : BitVec 5) (s : State) : Res :=
  .next (s.issue (encDivu d a b) fun c k s => (s.retireX c d (divUnsigned (k.rx a) (k.rx b))).busy c 32)

/-- REM (R99): Signed remainder. -/
def execRem (d a b : BitVec 5) (s : State) : Res :=
  .next (s.issue (encRem d a b) fun c k s => (s.retireX c d (remSigned (k.rx a) (k.rx b))).busy c 32)

/-- REMU (R99): Unsigned remainder. -/
def execRemu (d a b : BitVec 5) (s : State) : Res :=
  .next (s.issue (encRemu d a b) fun c k s => (s.retireX c d (remUnsigned (k.rx a) (k.rx b))).busy c 32)

/-- LUT3 (R101): Computes each bit of x[d] from a three-input lookup table. -/
def execLut3 (d a b : BitVec 5) (t : BitVec 8) (s : State) : Res :=
  .next (s.issue (encLut3 d a b t) fun c k s => s.retireX c d (lut3 t (k.rx a) (k.rx b) (k.rx d)))

end Sys2Proof.Machine
end

