-- ==== Sys2Proof/Machine/Float.lean ====
section
/-! DEFINITION. The scalar floating-point group and the fused multiply-add group (R102-R112). -/

namespace Sys2Proof.Machine

/-- The value of an f register in a format (R20, R103): its low bits. -/
def fval (f : Nat) (v : Word) : FVal := (fmtOf f).value v.toNat

/-- Write a rounded result to f[d], zero above the width of the format, and OR the flags into FSTAT (R55, R103). -/
def State.retireFp (s : State) (c : CtxId) (d : BitVec 5) (f rm : Nat) (r : FVal × BitVec 5) : State :=
  let q := (fmtOf f).store false rm r.1
  (s.modCtx c fun k => k.orFlags (r.2 ||| q.2)).retireF c d (BitVec.ofNat 64 q.1)

/-- Write encoded bits to f[d] and OR flags. -/
def State.retireFbits (s : State) (c : CtxId) (d : BitVec 5) (r : Nat × BitVec 5) : State :=
  (s.modCtx c fun k => k.orFlags r.2).retireF c d (BitVec.ofNat 64 r.1)

/-- Write an x register and OR flags. -/
def State.retireXfl (s : State) (c : CtxId) (d : BitVec 5) (v : Word) (fl : BitVec 5) : State :=
  (s.modCtx c fun k => k.orFlags fl).retireX c d v

/-- The clk of a divide or square root (R132). -/
def divClk (f : Nat) : Nat := if f = 0 then 32 else 16

/-- FEQ, FLT and FLE (R105): the result and NV, which a quiet NaN raises unless `quiet`. -/
def fCompare (quiet : Bool) (rel : FVal → FVal → Bool) (a b : FVal) : Word × BitVec 5 :=
  if a.isNan || b.isNan then (0, nvIf (!quiet || a.isSig || b.isSig)) else (ofBool (rel a b), 0)

/-- The result of FCVTI for an ikind (R108), clipped to its range. -/
def convertToX (kind rm : Nat) (v : FVal) : Word × BitVec 5 :=
  let r := if kind = 0 then toInteger rm (-(2 ^ 31)) (2 ^ 31 - 1) v
    else if kind = 1 then toInteger rm 0 (2 ^ 32 - 1) v
    else if kind = 2 then toInteger rm (-(2 ^ 63)) (2 ^ 63 - 1) v
    else toInteger rm 0 (2 ^ 64 - 1) v
  (BitVec.ofInt 64 r.1, r.2)

/-- The integer that ICVTF reads for an ikind (R109). -/
def intOperand (kind : Nat) (x : Word) : Int :=
  if kind = 0 then toSigned 32 x.toNat
  else if kind = 1 then (x.toNat % 2 ^ 32 : Nat)
  else if kind = 2 then x.toInt
  else x.toNat

/-- FADD (R103): Scalar FP addition with a single rounding. -/
def execFadd (d a b : BitVec 5) (r : BitVec 3) (f : BitVec 4) (s : State) : Res :=
  .next (s.issue (encFadd d a b r f) fun c k s =>
    s.retireFp c d f.toNat r.toNat (fAdd r.toNat (fval f.toNat (k.rf a)) (fval f.toNat (k.rf b))))

/-- FSUB (R103): Scalar FP subtraction. -/
def execFsub (d a b : BitVec 5) (r : BitVec 3) (f : BitVec 4) (s : State) : Res :=
  .next (s.issue (encFsub d a b r f) fun c k s =>
    s.retireFp c d f.toNat r.toNat (fSub r.toNat (fval f.toNat (k.rf a)) (fval f.toNat (k.rf b))))

/-- FMUL (R103): Scalar FP multiplication. -/
def execFmul (d a b : BitVec 5) (r : BitVec 3) (f : BitVec 4) (s : State) : Res :=
  .next (s.issue (encFmul d a b r f) fun c k s =>
    s.retireFp c d f.toNat r.toNat (fMul (fval f.toNat (k.rf a)) (fval f.toNat (k.rf b))))

/-- FDIV (R103): Scalar FP division. -/
def execFdiv (d a b : BitVec 5) (r : BitVec 3) (f : BitVec 4) (s : State) : Res :=
  .next (s.issue (encFdiv d a b r f) fun c k s =>
    (s.retireFp c d f.toNat r.toNat (fDiv (fval f.toNat (k.rf a)) (fval f.toNat (k.rf b)))).busy c (divClk f.toNat))

/-- FSQRT (R103): Scalar FP square root. -/
def execFsqrt (d a : BitVec 5) (r : BitVec 3) (f : BitVec 4) (s : State) : Res :=
  .next (s.issue (encFsqrt d a r f) fun c k s =>
    (s.retireFp c d f.toNat r.toNat (fSqrt (fval f.toNat (k.rf a)))).busy c (divClk f.toNat))

/-- FMIN (R104): Selects the smaller FP operand without rounding. -/
def execFmin (d a b : BitVec 5) (f : BitVec 4) (s : State) : Res :=
  .next (s.issue (encFmin d a b f) fun c k s =>
    s.retireFbits c d ((fmtOf f.toNat).minMax false (k.rf a).toNat (k.rf b).toNat))

/-- FMAX (R104): Selects the larger FP operand without rounding. -/
def execFmax (d a b : BitVec 5) (f : BitVec 4) (s : State) : Res :=
  .next (s.issue (encFmax d a b f) fun c k s =>
    s.retireFbits c d ((fmtOf f.toNat).minMax true (k.rf a).toNat (k.rf b).toNat))

/-- FEQ (R105): Writes 1 to x[d] if the FP operands are equal. -/
def execFeq (d a b : BitVec 5) (f : BitVec 4) (s : State) : Res :=
  .next (s.issue (encFeq d a b f) fun c k s =>
    (let r := fCompare true fEqNum (fval f.toNat (k.rf a)) (fval f.toNat (k.rf b)); s.retireXfl c d r.1 r.2))

/-- FLT (R105): Writes 1 to x[d] if a < b. -/
def execFlt (d a b : BitVec 5) (f : BitVec 4) (s : State) : Res :=
  .next (s.issue (encFlt d a b f) fun c k s =>
    (let r := fCompare false fLtNum (fval f.toNat (k.rf a)) (fval f.toNat (k.rf b)); s.retireXfl c d r.1 r.2))

/-- FLE (R105): Writes 1 to x[d] if a ≤ b. -/
def execFle (d a b : BitVec 5) (f : BitVec 4) (s : State) : Res :=
  .next (s.issue (encFle d a b f) fun c k s =>
    (let r := fCompare false (fun x y => !fLtNum y x) (fval f.toNat (k.rf a)) (fval f.toNat (k.rf b)); s.retireXfl c d r.1 r.2))

/-- FCLASS (R106): Writes the sign and class code of f[a] to x[d]. -/
def execFclass (d a : BitVec 5) (f : BitVec 4) (s : State) : Res :=
  .next (s.issue (encFclass d a f) fun c k s =>
    s.retireX c d (BitVec.ofNat 64 ((fmtOf f.toNat).classify (k.rf a).toNat)))

/-- FCVT (R107): Converts between FP64, FP32, BF16 and FP16. -/
def execFcvt (d a : BitVec 5) (sh : BitVec 4) (r : BitVec 3) (f : BitVec 4) (s : State) : Res :=
  .next (s.issue (encFcvt d a sh r f) fun c k s =>
    (let v := fval sh.toNat (k.rf a); s.retireFp c d f.toNat r.toNat (v, nvIf v.isSig)))

/-- FCVTI (R108): Converts an FP value to a clipped integer in x[d]. -/
def execFcvti (d a : BitVec 5) (k : BitVec 2) (r : BitVec 3) (f : BitVec 4) (s : State) : Res :=
  .next (s.issue (encFcvti d a k r f) fun c K s =>
    (let q := convertToX k.toNat r.toNat (fval f.toNat (K.rf a)); s.retireXfl c d q.1 q.2))

/-- ICVTF (R109): Converts an integer in x[a] to an FP value. -/
def execIcvtf (d a : BitVec 5) (k : BitVec 2) (r : BitVec 3) (f : BitVec 4) (s : State) : Res :=
  .next (s.issue (encIcvtf d a k r f) fun c K s =>
    s.retireFp c d f.toNat r.toNat (FVal.ofInt (intOperand k.toNat (K.rx a)), 0))

/-- FMVX (R110): Moves the raw bits of f[a] to x[d]. -/
def execFmvx (d a : BitVec 5) (f : BitVec 4) (s : State) : Res :=
  .next (s.issue (encFmvx d a f) fun c k s =>
    s.retireX c d (BitVec.ofNat 64 ((k.rf a).toNat % 2 ^ (fmtOf f.toNat).width)))

/-- FMVF (R110): Moves the raw bits of x[a] to f[d]. -/
def execFmvf (d a : BitVec 5) (f : BitVec 4) (s : State) : Res :=
  .next (s.issue (encFmvf d a f) fun c k s =>
    s.retireF c d (BitVec.ofNat 64 ((k.rx a).toNat % 2 ^ (fmtOf f.toNat).width)))

/-- One fused multiply-add of the precision p (R112), with the signs of its terms. -/
def State.retireFma (s : State) (c : CtxId) (d : BitVec 5) (p rm : Nat) (negP negC : Bool) (x y z : Word) : State :=
  s.retireFp c d p rm (fFma rm negP negC (fval p x) (fval p y) (fval p z))

/-- FMA (R112): Fused multiply-add a × b + c with one rounding. -/
def execFma (d a b c : BitVec 5) (r : BitVec 3) (p : BitVec 1) (s : State) : Res :=
  .next (s.issue (encFma d a b c r p) fun n k s =>
    s.retireFma n d p.toNat r.toNat false false (k.rf a) (k.rf b) (k.rf c))

/-- FMS (R112): Fused multiply-subtract a × b - c. -/
def execFms (d a b c : BitVec 5) (r : BitVec 3) (p : BitVec 1) (s : State) : Res :=
  .next (s.issue (encFms d a b c r p) fun n k s =>
    s.retireFma n d p.toNat r.toNat false true (k.rf a) (k.rf b) (k.rf c))

/-- FNMA (R112): Fused -(a × b) + c. -/
def execFnma (d a b c : BitVec 5) (r : BitVec 3) (p : BitVec 1) (s : State) : Res :=
  .next (s.issue (encFnma d a b c r p) fun n k s =>
    s.retireFma n d p.toNat r.toNat true false (k.rf a) (k.rf b) (k.rf c))

/-- FNMS (R112): Fused -(a × b) - c. -/
def execFnms (d a b c : BitVec 5) (r : BitVec 3) (p : BitVec 1) (s : State) : Res :=
  .next (s.issue (encFnms d a b c r p) fun n k s =>
    s.retireFma n d p.toNat r.toNat true true (k.rf a) (k.rf b) (k.rf c))

end Sys2Proof.Machine
end

