-- ==== Sys2Proof/Machine/Operands.lean ====
section
/-! DEFINITION. Vector operands: FORM and SHAPE as an instruction uses them (R31), groups and elements (R133-R135), the
classes of a sweep (R137, R159), masks, dirty bits (R151), streams as operands (R162, R252-R254), the checks and the
queueing of a vector instruction (R160). -/

namespace Sys2Proof.Machine

/-- FORM and SHAPE as a vector instruction uses them (R27, R29, R133): `ew` is the width code, `e` its bytes, `g` the group
factor, `qb` the bytes of a quarter of the core's lanes. -/
structure VCfg where
  ew : Nat
  e  : Nat
  g  : Nat
  tz : Bool
  mz : Bool
  nf : Nat
  rm : Nat
  sat : Bool
  vl : Nat
  rows : Nat
  rb : Nat
  qb : Nat
  vlmax : Nat
deriving DecidableEq, Repr

/-- The configuration of a context on a core with `pl` physical lanes (R133). -/
def Ctx.vcfg (k : Ctx) (pl : Nat) : VCfg :=
  let f := k.form.toNat
  let e := 2 ^ (f % 4)
  let g := 2 ^ (f / 4 % 4)
  let rb := 64 * k.lanes
  { ew := f % 4, e := e, g := g, tz := f / 16 % 2 = 1, mz := f / 32 % 2 = 1, nf := f / 64 % 16, rm := f / 1024 % 8,
    sat := f / 8192 % 2 = 1, vl := k.vl, rows := k.vrows, rb := rb, qb := 16 * pl, vlmax := rb * g / e }

/-- Bits of an element. -/
def VCfg.w (q : VCfg) : Nat := 8 * q.e

/-- Row r of vector register n (R22). -/
def Ctx.vreg (k : Ctx) (n r : Nat) : BitVec 8192 :=
  if h : n * 8 + r < 256 then k.v[n * 8 + r]'h else 0

/-- Write row r of vector register n. -/
def Ctx.setVreg (k : Ctx) (n r : Nat) (v : BitVec 8192) : Ctx := { k with v := k.v.setIfInBounds (n * 8 + r) v }

/-- Row r of mask register n (R23). -/
def Ctx.mrow (k : Ctx) (n r : Nat) : BitVec 4096 :=
  if h : n * 8 + r < 64 then k.m[n * 8 + r]'h else 0

/-- Write row r of mask register n. -/
def Ctx.setMrow (k : Ctx) (n r : Nat) (v : BitVec 4096) : Ctx := { k with m := k.m.setIfInBounds (n * 8 + r) v }

/-- Row r of the group of `g` registers from `n`, as one little-endian number (R134). -/
def Ctx.groupRow (k : Ctx) (rb n g r : Nat) : Nat :=
  (upFrom 0 g).foldl (fun acc i => acc + (sliceNat (k.vreg (n + i) r) 0 (8 * rb)) <<< (8 * rb * i)) 0

/-- Element j of a group row at a width in bits (R134). -/
def elem (row w j : Nat) : Nat := (row >>> (w * j)) % 2 ^ w

/-- Is a position active under mask register mk (R137)? -/
def Ctx.maskBit (k : Ctx) (mk r j : Nat) : Bool := decide (mk = 0) || (k.mrow mk r).getLsbD j

/-- What a sweep has done to a row: the row, the bits written, the flags raised. -/
structure RowAcc where
  val  : Nat
  bits : Nat
  fl   : BitVec 5

/-- One position of a sweep. -/
def rowStep (w : Nat) (f : Nat → Option (Nat × BitVec 5)) (acc : RowAcc) (j : Nat) : RowAcc :=
  match f j with
  | some (x, fl) =>
    { val := putBits acc.val (w * j) w x, bits := putBits acc.bits (w * j) w (2 ^ w - 1), fl := acc.fl ||| fl }
  | none => acc

/-- A row after a sweep of n positions of w bits: a position is written, or left as it is (none). -/
def sweepRow (w n old : Nat) (f : Nat → Option (Nat × BitVec 5)) : RowAcc :=
  (upFrom 0 n).foldl (rowStep w f) { val := old, bits := 0, fl := 0 }

/-- The element groups of a register row whose bits are among `touched` (R153): a group is the 64 bytes of a lane. -/
def touchedGroups (rb touched : Nat) : Nat :=
  (upFrom 0 (rb / 64)).foldl (fun b z => if touched / 2 ^ (512 * z) % 2 ^ 512 = 0 then b else b + 2 ^ z) 0

/-- The place of a register row in the arrival bits (R153). -/
def groupPos (n r : Nat) : Nat := n * 128 + r * 16

/-- Store a group row of which `touched` bits were written: rows, dirty bits of the registers and the element groups that the
instruction has written (R138, R151, R153). -/
def Ctx.putGroupRow (k : Ctx) (q : VCfg) (n g r : Nat) (val touched : Nat) : Ctx :=
  (upFrom 0 g).foldl (fun k i =>
    let t := (touched >>> (8 * q.rb * i)) % 2 ^ (8 * q.rb)
    if t = 0 then k
    else
      let k1 := k.setVreg (n + i) r (BitVec.ofNat 8192 ((val >>> (8 * q.rb * i)) % 2 ^ (8 * q.rb)))
      let d := (upFrom 0 4).foldl (fun d z =>
        if (t >>> (8 * q.qb * z)) % 2 ^ (8 * q.qb) = 0 then d else d ||| BitVec.twoPow 128 ((n + i) * 4 + z)) k1.dirty
      { k1 with dirty := d, wrote := k1.wrote ||| BitVec.ofNat 4096 (touchedGroups q.rb t * 2 ^ groupPos (n + i) r) }) k

/-- A sweep over rows of a group: `f r j` is what position (r, j) becomes. -/
def Ctx.sweepGroup (k : Ctx) (q : VCfg) (n g w cols rows : Nat) (f : Nat → Nat → Option (Nat × BitVec 5)) :
    Ctx × BitVec 5 :=
  (upFrom 0 rows).foldl (fun acc r =>
    let a := sweepRow w cols (acc.1.groupRow q.rb n g r) (f r)
    (acc.1.putGroupRow q n g r a.val a.bits, acc.2 ||| a.fl)) (k, 0)

/-- A sweep over rows of a mask register. -/
def Ctx.sweepMask (k : Ctx) (n cols rows : Nat) (f : Nat → Nat → Option (Nat × BitVec 5)) : Ctx × BitVec 5 :=
  (upFrom 0 rows).foldl (fun acc r =>
    let a := sweepRow 1 cols (acc.1.mrow n r).toNat (f r)
    (acc.1.setMrow n r (BitVec.ofNat 4096 a.val), acc.2 ||| a.fl)) (k, 0)

/-- The fate of every position of a sweep (R137, R159): active positions take `op`; with VL = 0 no position is touched
(R30). -/
def Ctx.fate (k : Ctx) (q : VCfg) (mk : Nat) (op : Nat → Nat → Nat × BitVec 5) (r j : Nat) : Option (Nat × BitVec 5) :=
  if j < q.vl then
    if k.maskBit mk r j then some (op r j) else if q.mz then some (0, 0) else none
  else if q.tz ∧ q.vl ≠ 0 then some (0, 0) else none

/-! Streams as operands. -/

/-- The stream that a register is bound to (R251). -/
def Ctx.boundTo (k : Ctx) (n : Nat) : Option Nat :=
  (upFrom 0 8).find? fun i =>
    let t := k.streams.toList.getD i Stream.reset
    decide (t.st = .bound) && decide (t.vd.toNat = n)

/-- Is a register of a group bound to a stream? -/
def Ctx.groupBound (k : Ctx) (n g : Nat) : Bool := (upFrom n g).any fun i => (k.boundTo i).isSome

/-- The stream i of a context. -/
def Ctx.stream (k : Ctx) (i : Nat) : Stream := k.streams.toList.getD i Stream.reset

/-- Replace a stream. -/
def Ctx.setStream (k : Ctx) (i : Nat) (t : Stream) : Ctx := { k with streams := k.streams.setIfInBounds i t }

/-- The address of element t (R250). -/
def Stream.addr (d : Stream) (t : Nat) : Word :=
  if d.n0 = 0 then d.base + BitVec.ofNat 64 t * d.str0
  else d.base + BitVec.ofNat 64 (t / d.n0.toNat) * d.str1 + BitVec.ofNat 64 (t % d.n0.toNat) * d.str0

/-- Checks 1 to 5 of R119 for a vector access: generic memory but no peer window (R184). -/
def State.checkVec (s : State) (ag : Agent) (kind : AccKind) (va : Word) (w : Nat) : Except Trap Access :=
  match s.check3 ag kind va w with
  | .error t => .error t
  | .ok a =>
    match a.place with
    | .hbm =>
      if !s.lineDidOk ag a then .error (mkTrap 10 va)
      else if kind ≠ .load ∧ (s.sealAt a.pa).isSome then .error (mkTrap 12 va)
      else .ok a
    | .host _ => .ok a
    | _ => .error (mkTrap 9 va)

/-- The trap of a vector access that waits for links that retrain does not count yet (R476). -/
def State.vecWaits (s : State) (ag : Agent) (kind : AccKind) (ts : List Trap) : Bool :=
  ts.any fun t => decide (t.cause = 20) && s.linkWaits ag kind t.val

/-- The checked elements of a chunk, up to its first failing element. -/
def State.chunkScan (s : State) (ag : Agent) (kind : AccKind) (d : Stream) (t : Nat) :
    Nat → List Access × Option Trap
  | 0 => ([], none)
  | n + 1 =>
    match s.checkVec ag kind (d.addr t) (2 ^ d.ew.toNat) with
    | .error e => ([], some e)
    | .ok a =>
      let r := State.chunkScan s ag kind d (t + 1) n
      (a :: r.1, r.2)

/-- A chunk that is about to be consumed or emitted (R252, R253): its stream, its accesses, whether it ends the stream or
meets a fault. -/
structure Chunk where
  idx  : Nat
  accs : List Access
  last : Bool
  flt  : Bool

/-- The elements that a chunk may take at most (R252, R253). -/
def Stream.wants (d : Stream) (q : VCfg) : Nat := Nat.min (q.rows * q.vl) (d.count - d.pos)

/-- Plan the chunk of a bound register; the trap of R252 when its first element fails. -/
def State.planChunk (s : State) (c : CtxId) (i : Nat) (q : VCfg) (kind : AccKind) : Except Trap Chunk :=
  let d := (s.ctx c).stream i
  let r := s.chunkScan (s.agent c) kind d d.pos (d.wants q)
  match r.2 with
  | some t => if r.1.isEmpty then .error t else .ok { idx := i, accs := r.1, last := false, flt := true }
  | none => .ok { idx := i, accs := r.1, last := decide (d.wants q < q.rows * q.vl), flt := false }

/-- The stream after a chunk. -/
def Stream.advance (d : Stream) (p : Chunk) : Stream :=
  { d with pos := d.pos + p.accs.length, atEnd := d.atEnd || p.last, flt := if p.flt then true else d.flt }

/-- A fault at element c clears FLT when its trap is taken (R255). -/
def Ctx.clearFlt (k : Ctx) (i : Nat) : Ctx := k.setStream i { k.stream i with flt := false }

/-- The bytes that a checked access reads; a shadow takes those of host memory that its primary has read (R510; log entry 49). -/
def State.viewAcc (s : State) (c : CtxId) (a : Access) (n : Nat) : Nat :=
  match a.place with
  | .hbm => natOf (s.view c (dieOf c) a.pa n)
  | _ => match (s.ctx c).farRead with
    | some (_, cells) => natOf (farBytes cells a.pa n)
    | none => natOf (s.mem.readN a.pa n)

/-- The lines of HBM that these accesses touch, each once. -/
def accLines (as : List Access) : List Nat := ((as.filter fun a => decide (a.place = .hbm)).map fun a => lineOf a.pa).eraseDups

/-- The accesses to host memory among these: each is one PCIe transaction (R340). -/
def hostAccs (as : List Access) : List Access := as.filter fun a => decide (a.place ≠ .hbm)

/-- What a close compares of an instruction's accesses to host memory (R510): their addresses. -/
def hostOperands (as : List Access) : List Word := (hostAccs as).map fun a => BitVec.ofNat 64 a.pa

/-- Does a shadow wait for what its primary reads from host memory (R510)? -/
def Ctx.farWaits (k : Ctx) (as : List Access) : Bool := k.isShadow && !(hostAccs as).isEmpty && k.farRead.isNone

/-- Vector accesses are about to be made: those of a redundant member to host memory close its interval with their operands, a
shadow waits for what its primary reads there, and the n bytes that it stores need room in its commit buffer (R509, R510).  Those to
host memory follow the posted stores to it (R340). -/
def State.accsReady (s : State) (c : CtxId) (loads stores : List Access) (ops : List Word) (n : Nat) : State × Bool :=
  let as := loads ++ stores
  let (s1, ok) := if (hostAccs as).isEmpty then (s, true) else s.closeInterval c (hostOperands as ++ ops)
  if !ok || !((hostAccs as).isEmpty || s1.portsQuiet c) || (s1.ctx c).farWaits loads then (s1, false) else if n = 0 then (s1, true) else s1.commitRoom c n

/-- The reads of host memory among these accesses of n bytes go out (R340), and the shadow of a primary gets what they bring (R510);
with the clk by which the last completion has arrived. -/
def State.hostReads (s : State) (c : CtxId) (as : List Access) (n : Nat) : State × Nat :=
  let hs := hostAccs as
  if hs.isEmpty then (s, 0)
  else
    let s1 := if (s.ctx c).isShadow then s
      else (hs.foldl (fun t a => t.portRequest (s.did c) a.place a.pa false n []) s).lend c true
        (hs.foldl (fun m a => Memory.writeL m a.pa (s.mem.readN a.pa n)) [])
    ({ s1 with free := s1.free + 1 }, s.clk + 1 + Config.latency s.free)

/-- A shadow has used what its primary has read from host memory. -/
def State.farTaken (s : State) (c : CtxId) (as : List Access) : State :=
  if (s.ctx c).isShadow && !(hostAccs as).isEmpty then s.modCtx c Ctx.tookFar else s

/-- What these vector reads of n bytes bring with them (R353, R356), and the line accesses that they make (R342). -/
def State.takeReads (s : State) (c : CtxId) (as : List Access) (n : Nat) : State :=
  ((as.filter fun a => decide (a.place = .hbm)).foldl (fun t a => t.noteRead c false a.pa n) s).portUse c false false true (accLines as)

/-- Every quarter of a register is dirty. -/
def Ctx.dirtyAll (k : Ctx) (q : VCfg) (n : Nat) : Ctx :=
  (upFrom 0 8).foldl (fun k r => k.putGroupRow q n 1 r (k.groupRow q.rb n 1 r) (2 ^ (8 * q.rb) - 1)) k

/-- Consume a chunk into its register (R252): the elements of the chunk at the stream's width, and zero at every other
position; nothing with VL = 0 or VROWS = 0 (R30).  The elements are read when the chunk is consumed, so that a store of the
context after the SDECL is seen (R255 leaves it open; log entry 50). -/
def State.consume (s : State) (c : CtxId) (q : VCfg) (p : Chunk) : State :=
  let d := (s.ctx c).stream p.idx
  let e := 2 ^ d.ew.toNat
  let vals := p.accs.map fun a => s.viewAcc c a e
  (s.takeReads c p.accs e).modCtx c fun k =>
    let k1 := (upFrom 0 (if q.rows * q.vl = 0 then 0 else 8)).foldl (fun k r =>
      let a := sweepRow (8 * e) (q.rb / e) 0 fun j =>
        some (if r < q.rows ∧ j < q.vl then vals.getD (r * q.vl + j) 0 else 0, 0)
      k.putGroupRow q d.vd.toNat 1 r a.val (2 ^ (8 * q.rb) - 1)) k
    k1.setStream p.idx (d.advance p)

/-! Writes of vector instructions and streams. -/

/-- Join writes that follow each other within one line. -/
def coalesce : List (Nat × List Byte × Bool) → List (Nat × List Byte × Bool)
  | [] => []
  | (a, bs, sh) :: t =>
    match coalesce t with
    | (b, cs, sh2) :: u =>
      if b = a + bs.length ∧ a / 64 = (b + cs.length - 1) / 64 ∧ sh = sh2 then (a, bs ++ cs, sh) :: u
      else (a, bs, sh) :: (b, cs, sh2) :: u
    | [] => [(a, bs, sh)]

/-- The writes of an instruction to host memory are sent, in order, as posted writes (R340); a shadow sends none (R510). -/
def State.hostWrites (s : State) (c : CtxId) (ws : List (Access × List Byte)) : State :=
  (ws.filter fun p => decide (p.1.place ≠ .hbm)).foldl (fun t p => t.outboundWrite c p.1 p.2) s

/-- Put the writes of an instruction on their way (R190): those to host memory leave, those of a redundant member enter its
commit buffer (R509), the others are pending writes; the numbers of these. -/
def State.vecWrites (s : State) (c : CtxId) (kind : WriteKind) (ws : List (Access × List Byte)) : State × List Nat :=
  let ag := s.agent c
  let hbm := (ws.filter fun p => decide (p.1.place = .hbm)).map fun p => (p.1.pa, p.2, writeShared ag p.1)
  let s1 := s.hostWrites c ws
  let parts := coalesce hbm
  if (s1.ctx c).red.isSome then
    (s1.modCtx c fun k => parts.foldl (fun k p => k.buffered (p.1, p.2.1, p.2.2, ag.did)) k, [])
  else (parts.foldl (fun t p => t.addPend c kind false 0 p.1 p.2.1 p.2.2 ag.did) s1, upFrom s1.nextId parts.length)

/-- The stores of an instruction that are not in the commit buffer of a redundant member yet (R510). -/
def State.leftStores (s : State) (c : CtxId) (ws : List (Access × List Byte)) : List (Access × List Byte) :=
  match (s.ctx c).red with
  | some r => ws.drop r.stored
  | none => ws

/-- How many of these stores the commit buffer of a core takes: up to 4,096 in the interval, and up to its bytes (R509, R510). -/
def fitting (places room : Nat) : List (Access × List Byte) → Nat
  | [] => 0
  | w :: t => if places = 0 ∨ room < w.2.length then 0 else fitting (places - 1) (room - w.2.length) t + 1

/-- The stores of a vector instruction are about to be made.  Those to host memory close the interval of a redundant member with
their operands.  The commit buffer takes the stores in order; where it has no place for the next, the interval closes, and
the rest follow once the pair has matched (R510). -/
def State.storesReady (s : State) (c : CtxId) (ws : List (Access × List Byte)) : State × Bool :=
  let as := ws.map fun w => w.1
  match (s.ctx c).red with
  | none => (s, (hostAccs as).isEmpty || s.portsQuiet c)
  | some _ =>
    let (s1, ok) := s.accsReady c [] as (if (hostAccs as).isEmpty then [] else ws.map fun w => wordOf (w.2.take 8)) 0
    match ok, (s1.ctx c).red with
    | true, some r =>
      if r.close.isSome then (s1, false)
      else
        let left := ws.drop r.stored
        let n := fitting (4096 - r.stores.length) (commitBytes - s1.commitUsed (coreOf c)) left
        if left.length ≤ n then (s1, true)
        else
          let s2 := (s1.vecWrites c .vector (left.take n)).1.modCtx c fun k =>
            { k with red := k.red.map fun r => { r with stored := r.stored + n, matched := false } }
          if n = 0 ∧ r.stores.isEmpty then (s1, false) else s2.closeInterval c []
    | _, _ => (s1, false)

/-- Emit a chunk from its register (R253), at the stream's width (log entry 51). -/
def State.emit (s : State) (c : CtxId) (q : VCfg) (p : Chunk) : State × List Nat :=
  let k := s.ctx c
  let d := k.stream p.idx
  let e := 2 ^ d.ew.toNat
  let ws := (p.accs.zip (upFrom 0 p.accs.length)).map fun a =>
    (a.1, bytesOf (elem (k.groupRow q.rb d.vd.toNat 1 (a.2 / q.vl)) (8 * e) (a.2 % q.vl)) e)
  let (s1, ids) := s.vecWrites c .stream ws
  (s1.modCtx c fun k => k.setStream p.idx (d.advance p), ids)

/-- Far lines of these reads are read with leases (R336); none if one is held. -/
def State.readAccs (s : State) (c : CtxId) (as : List Access) : Option State := s.readLines (dieOf c) (accLines as)

/-- These reads wait for lines that are held at their home (R337). -/
def State.holdAccs (s : State) (c : CtxId) (as : List Access) : State := s.holdMisses (dieOf c) (accLines as)

/-- Cache the translations of checked accesses (R420), by address. -/
def State.fillTlbs (s : State) (ag : Agent) (es : List (Word × Access)) : State :=
  es.foldl (fun t e => t.fillTlb ag e.1 e.2.xl) s

/-! Issuing a vector instruction. -/

/-- What the checks of a vector instruction look at (R136, R160-R162): the source groups and the destination group with
their factors, those that must lie at a multiple of the factor by R136, whether the old destination is read, and further
conditions of the instruction for form_mismatch and register_overlap. -/
structure VOp where
  word : BitVec 32
  srcs : List (Nat × Nat)
  dst  : Option (Nat × Nat)
  form : List (Nat × Nat)
  old  : Bool
  formBad : Bool
  overlap : Bool

/-- Do two groups of registers meet? -/
def groupsMeet (a ga b gb : Nat) : Bool := decide (a < b + gb) && decide (b < a + ga)

/-- Staging bytes of a pane over all slices (R246, R254). -/
def State.paneLinear (s : State) (core : CoreId) (n : Nat) : Nat :=
  ((s.core core).panes.toList.getD n Pane.empty).size * physLanes core

/-- Is the word a vector arithmetic or memory instruction, not a mask or permute instruction (R254)? -/
def VOp.arith (o : VOp) : Bool := decide (majorOf o.word ≠ 0x25)

/-- A stream that an operand names does not fit the instruction (R254). -/
def State.streamMisfit (s : State) (c : CtxId) (q : VCfg) (arith : Bool) (n : Nat) : Bool :=
  match (s.ctx c).boundTo n with
  | some i =>
    let d := (s.ctx c).stream i
    (arith && decide (d.ew.toNat ≠ q.ew)) || decide (s.paneLinear (coreOf c) d.pane.toNat < q.rows * q.vl * q.e)
  | none => false

/-- The form-mismatch conditions (R136, R254, and the instruction's own).  An operand that is a group of more than one register
meets the condition of R136 on streams by its own factor, so also where FORM.GF is 0 (log entry 51). -/
def State.formMismatch (s : State) (c : CtxId) (q : VCfg) (o : VOp) : Bool :=
  let k := s.ctx c
  let all := o.srcs ++ o.dst.toList
  o.formBad || decide (q.vlmax < q.vl) || (o.form.any fun p => decide (p.1 % p.2 ≠ 0)) ||
    (all.any fun p => decide (1 < p.2) && k.groupBound p.1 p.2) ||
    (all.any fun p => decide (p.2 = 1) && s.streamMisfit c q o.arith p.1)

/-- The register-overlap conditions (R162, and the instruction's own). -/
def State.registerOverlap (s : State) (c : CtxId) (o : VOp) : Bool :=
  let k := s.ctx c
  let out (n : Nat) : Option Bool := (k.boundTo n).map fun i => (k.stream i).dir
  o.overlap || (o.srcs.any fun p => decide (out p.1 = some true)) ||
    (match o.dst with
     | some p => decide (out p.1 = some false) || (o.old && (out p.1).isSome)
     | none => false)

/-- The streams of the source operands, each once. -/
def Ctx.inputStreams (k : Ctx) (o : VOp) : List Nat := (o.srcs.filterMap fun p => k.boundTo p.1).eraseDups

/-- The plans of several streams, in order; the first failing one with its trap. -/
def State.planAll (s : State) (c : CtxId) (q : VCfg) (kind : AccKind) : List Nat → Except (Trap × Nat) (List Chunk)
  | [] => .ok []
  | i :: t =>
    match s.planChunk c i q kind with
    | .error e => .error (e, i)
    | .ok p => match State.planAll s c q kind t with
      | .error e => .error e
      | .ok ps => .ok (p :: ps)

/-- The walks of the addresses that a chunk of each stream may take read their tables (R336, R416); none if one is held. -/
def State.chunkWalks (s : State) (c : CtxId) (q : VCfg) : List Nat → Option State
  | [] => some s
  | i :: t =>
    let d := (s.ctx c).stream i
    match s.walkReady (s.agent c) ((upFrom d.pos (d.wants q)).map d.addr) (2 ^ d.ew.toNat) with
    | none => none
    | some s1 => State.chunkWalks s1 c q t

/-- The chunks' walks wait for table lines that are held at their home (R337). -/
def State.holdChunks (s : State) (c : CtxId) (q : VCfg) (is : List Nat) : State :=
  is.foldl (fun t i =>
    let d := (s.ctx c).stream i
    t.holdWalks (s.agent c) ((upFrom d.pos (d.wants q)).map d.addr) (2 ^ d.ew.toNat)) s

/-- The entry of a vector instruction that has acted on its context: the element groups that it wrote, and its last place at
the ports. -/
def Ctx.entry (k : Ctx) (rows : Nat) (flags : BitVec 5) (mc : Option Word) (writes : List Nat) (reads : List (Nat × Nat))
    (due : Nat) : VEntry :=
  { cover := k.wrote, rows := rows, started := false, flags := flags, mc := mc, writes := writes, reads := reads,
    ticket := k.ticket, due := due, load := none }

/-- The entry that a vector instruction puts into its queue, and the start of the queue (R179, R303). -/
def State.enqueue (s : State) (c : CtxId) (e : VEntry) : State :=
  let k := s.ctx c
  let s1 := s.modCtx c fun k => { k with vq := k.vq ++ [e] }
  if k.vq.isEmpty then s1.soon (.vectorSweepStart c) else s1

/-- The value of a queued load is fixed: an instruction that could read it acts (R352). -/
def VEntry.fixed (e : VEntry) : VEntry := { e with load := none }

/-- The values of the context's queued loads are fixed. -/
def Ctx.loadsFixed (k : Ctx) : Ctx := { k with vq := k.vq.map VEntry.fixed, vchk := k.vchk.map VEntry.fixed }

/-- A vector instruction begins to act: it has written no element group yet (R153), and the loads before it have their values. -/
def State.vecStart (s : State) (c : CtxId) : State := s.modCtx c fun k => { k.loadsFixed with wrote := 0 }

/-- The groups that an instruction without an entry of its own has brought from a stream arrive as those of a vector instruction do,
behind what the queue holds (R153); without a place there they arrive at once. -/
def State.arrive (s : State) (c : CtxId) (due : Nat) : State :=
  let k := s.ctx c
  if k.wrote = 0 ∨ Config.vectorQueueDepth ≤ k.vq.length then s else s.enqueue c (k.entry 8 0 none [] [] due)

/-- The trap where an operand that is bound to a stream needs a Gust engine that is fenced (R506). -/
def State.gustTrap (s : State) (c : CtxId) (bound : Bool) : Option Trap :=
  let u := (4, coreOf c % 64)
  if bound && decide (u ∈ (s.die (dieOf c)).fenced) then some (mkTrap 20 (fencedValue u)) else none

/-- Is an operand of the instruction bound to a stream? -/
def Ctx.opBound (k : Ctx) (o : VOp) : Bool := (o.srcs ++ o.dst.toList).any fun p => (k.boundTo p.1).isSome

/-- The Gust engine of a core is in use where an operand is bound to a stream (R503). -/
def State.useGust (s : State) (c : CtxId) (bound : Bool) : State :=
  if bound then s.useUnits (dieOf c) [(4, coreOf c % 64)] else s

/-- A chunk that cannot begin takes the trap of its first element, and clears FLT (R252, R255). -/
def State.chunkTrap (s : State) (c : CtxId) (kind : AccKind) (t : Trap) (i : Nat) : State :=
  (s.accessTrap c kind t).modCtx c fun k => k.clearFlt i

/-- The front of a vector instruction without a memory operand: its checks (R160; a Gust engine that a bound operand needs and
that is fenced, R506, after them: log entry 58), its place in the queue, or an idle
queue where it gives a scalar result (R203), the plans of its chunks and the consumption of those it reads; then `go` with the
chunks it emits and the clk by which its host reads complete. -/
def State.vecFront (s : State) (c : CtxId) (o : VOp) (idle : Bool) (go : State → VCfg → List Chunk → Nat → State) : State :=
  let k := s.ctx c
  let q := k.vcfg (physLanes (coreOf c))
  let wv : Word := o.word.zeroExtend 64
  let outs := o.dst.toList.filterMap fun p => k.boundTo p.1
  if s.formMismatch c q o then s.trap c (mkTrap 4 wv)
  else if s.registerOverlap c o then s.trap c (mkTrap 3 wv)
  else match s.gustTrap c (k.opBound o) with
  | some t => s.trap c t
  | none =>
    if Config.vectorQueueDepth ≤ k.vq.length then s.stall c
    else if idle ∧ k.vq ≠ [] then s.stallBounded c
    else match s.chunkWalks c q (k.inputStreams o ++ outs) with
    | none => (s.holdChunks c q (k.inputStreams o ++ outs)).stallBounded c
    | some s0 =>
      match s0.planAll c q .load (k.inputStreams o) with
      | .error (t, i) => s0.chunkTrap c .load t i
      | .ok ins =>
        match s0.planAll c q .store outs with
        | .error (t, i) => s0.chunkTrap c .store t i
        | .ok es =>
          let as := ins.flatMap Chunk.accs
          match s0.readAccs c as with
          | none => (s0.holdAccs c as).stallBounded c
          | some s1 =>
            let (s2, ok) := s1.accsReady c as (es.flatMap Chunk.accs) [] ((es.flatMap Chunk.accs).length * q.e)
            if !ok then s2.stallBounded c
            else
              let (s3, due) := s2.hostReads c as q.e
              go ((ins.foldl (fun t p => t.consume c q p) ((s3.useGust c (k.opBound o)).vecStart c)).farTaken c as) q es due

/-- The destination registers of an instruction that are not bound to a stream. -/
def Ctx.plainDst (k : Ctx) (o : VOp) : List Nat :=
  match o.dst with
  | some p => if (k.boundTo p.1).isSome then [] else upFrom p.1 p.2
  | none => []

/-- Has the instruction written one of these registers (R154)? -/
def Ctx.wroteAny (k : Ctx) (dst : List Nat) : Bool := dst.any fun n => decide (sliceNat k.wrote (groupPos n 0) 128 ≠ 0)

/-- The latch after an instruction whose destination is these registers, if it wrote one of them (R154). -/
def Ctx.latched (k : Ctx) (dst : List Nat) : Ctx :=
  match dst with
  | n :: _ => if k.wroteAny dst then { k with latch := BitVec.ofNat 5 n } else k
  | [] => k

/-- Emit several chunks, in order; the numbers of their writes. -/
def State.emitAll (s : State) (c : CtxId) (q : VCfg) (es : List Chunk) : State × List Nat :=
  es.foldl (fun t p =>
    let e := t.1.emit c q p
    (e.1, t.2 ++ e.2)) (s, [])

/-- What is left of a vector instruction that has acted on its context (R56, R154): the chunks that it emits, the latch, its
entry in the queue, where its flags wait, and the PC. -/
def State.vecFinish (s : State) (c : CtxId) (q : VCfg) (dst : List Nat) (es : List Chunk) (due : Nat) (flags : BitVec 5) : State :=
  let (s1, ids) := s.emitAll c q es
  let s2 := s1.modCtx c fun k => k.latched dst
  (s2.enqueue c ((s2.ctx c).entry q.rows flags none ids [] due)).retire c

/-- Issue a vector instruction that has no memory operand: its effect `eff` on the context, and what is left of it. -/
def State.vecIssue (s : State) (c : CtxId) (o : VOp) (eff : VCfg → Ctx → Ctx × BitVec 5) : State :=
  s.vecFront c o false fun s2 q es due =>
    let r := eff q (s2.ctx c)
    (s2.setCtx c r.1).vecFinish c q ((s.ctx c).plainDst o) es due r.2

/-- Issue a vector instruction that gives a scalar result: it waits for the vector instructions before it, and the context
until the result is written (R203).  A chunk that it consumes arrives through the queue (R153). -/
def State.vecScalar (s : State) (c : CtxId) (o : VOp) (d : BitVec 5) (res : VCfg → Ctx → Word) : State :=
  s.vecFront c o true fun s2 q _ due => (s2.arrive c due).retireX c d (res q (s2.ctx c))

/-- The second operand of an element operation (R158): a group (b, or the latch), or one value for every position. -/
inductive BSrc where
  | v (n : Nat)
  | k (x : Nat)

/-- The number of the register that the b field names: the latch when L = 1 (R154). -/
def Ctx.bNum (k : Ctx) (b : BitVec 5) (l : BitVec 1) : Nat := if l = 1 then k.latch.toNat else b.toNat

/-- The register that the b field names, as an operand. -/
def Ctx.bReg (k : Ctx) (b : BitVec 5) (l : BitVec 1) : BSrc := .v (k.bNum b l)

/-- An x register as the b operand. -/
def Ctx.bX (k : Ctx) (b : BitVec 5) : BSrc := .k (k.rx b).toNat

/-- An f register as the b operand. -/
def Ctx.bF (k : Ctx) (b : BitVec 5) : BSrc := .k (k.rf b).toNat

/-- A signed immediate as the b operand, taken modulo the element width where it is used. -/
def bImm (i : BitVec 5) : BSrc := .k (i.signExtend 64).toNat

/-- An unsigned immediate as the b operand. -/
def bUimm (i : BitVec 5) : BSrc := .k i.toNat

/-- The source groups of a b operand. -/
def BSrc.groups (b : BSrc) (g : Nat) : List (Nat × Nat) :=
  match b with
  | .v n => [(n, g)]
  | .k _ => []

/-- The row of a b operand, for `BSrc.el`. -/
def BSrc.row (b : BSrc) (k : Ctx) (q : VCfg) (r : Nat) : Nat :=
  match b with
  | .v n => k.groupRow q.rb n q.g r
  | .k x => x

/-- Element j of a b operand's row (R158). -/
def BSrc.el (b : BSrc) (row w j : Nat) : Nat :=
  match b with
  | .v _ => elem row w j
  | .k x => x % 2 ^ w

/-- The checks of an element operation over a group destination (R136, R159): `g` is the group factor. -/
def mapOp (word : BitVec 32) (g d a : Nat) (b : BSrc) (old bad : Bool) : VOp :=
  { word := word, srcs := (a, g) :: b.groups g, dst := some (d, g), form := (d, g) :: (a, g) :: b.groups g, old := old,
    formBad := bad, overlap := false }

/-- The effect of an element operation over a group destination (R159): `op w a b old` with the flags it raises. -/
def mapEff (d a : Nat) (b : BSrc) (mk : Nat) (op : VCfg → Nat → Nat → Nat → Nat × BitVec 5) (q : VCfg) (k : Ctx) :
    Ctx × BitVec 5 :=
  k.sweepGroup q d q.g q.w q.vlmax q.rows fun r =>
    let ra := k.groupRow q.rb a q.g r
    let rb := b.row k q r
    let rd := k.groupRow q.rb d q.g r
    k.fate q mk (fun _ j => op q (elem ra q.w j) (b.el rb q.w j) (elem rd q.w j)) r

/-- An element operation over a group destination (R159). -/
def State.vecMap (s : State) (c : CtxId) (word : BitVec 32) (d a : Nat) (b : BSrc) (mk : Nat) (old : Bool)
    (bad : VCfg → Bool) (op : VCfg → Nat → Nat → Nat → Nat × BitVec 5) : State :=
  let q := (s.ctx c).vcfg (physLanes (coreOf c))
  s.vecIssue c (mapOp word q.g d a b old (bad q)) (mapEff d a b mk op)

/-- The checks of a comparison into a mask register (R136, R170). -/
def compareOp (word : BitVec 32) (g a : Nat) (b : BSrc) (bad : Bool) : VOp :=
  { word := word, srcs := (a, g) :: b.groups g, dst := none, form := (a, g) :: b.groups g, old := false, formBad := bad,
    overlap := false }

/-- The effect of a comparison into mask register d (R159, R170). -/
def compareEff (d a : Nat) (b : BSrc) (mk : Nat) (op : VCfg → Nat → Nat → Nat × BitVec 5) (q : VCfg) (k : Ctx) :
    Ctx × BitVec 5 :=
  k.sweepMask d q.vlmax q.rows fun r =>
    let ra := k.groupRow q.rb a q.g r
    let rb := b.row k q r
    k.fate q mk (fun _ j => op q (elem ra q.w j) (b.el rb q.w j)) r

/-- A comparison into a mask register (R159, R170). -/
def State.vecCompare (s : State) (c : CtxId) (word : BitVec 32) (d a : Nat) (b : BSrc) (mk : Nat) (bad : VCfg → Bool)
    (op : VCfg → Nat → Nat → Nat × BitVec 5) : State :=
  let q := (s.ctx c).vcfg (physLanes (coreOf c))
  s.vecIssue c (compareOp word q.g a b (bad q)) (compareEff d a b mk op)

/-- A pairwise tree over a list (R60): one level. -/
def treeLevel (node : Nat → Nat → Nat × BitVec 5) : List Nat → List Nat × BitVec 5
  | a :: b :: t =>
    let r := treeLevel node t
    let x := node a b
    (x.1 :: r.1, x.2 ||| r.2)
  | l => (l, 0)

/-- The pairwise tree of R60, with a bound on its levels. -/
def treeFold (node : Nat → Nat → Nat × BitVec 5) : Nat → List Nat → Nat × BitVec 5
  | 0, l => (l.headD 0, 0)
  | n + 1, l =>
    if l.length ≤ 1 then (l.headD 0, 0)
    else
      let x := treeLevel node l
      let y := treeFold node n x.1
      (y.1, x.2 ||| y.2)

/-- The smallest power of two that is not below n (R60), for n up to 2^k. -/
def pow2Above (n : Nat) : Nat → Nat
  | 0 => 1
  | k + 1 => if n ≤ pow2Above n k then pow2Above n k else 2 ^ (k + 1)

/-- The checks of a row reduction (R136). -/
def reduceOp (word : BitVec 32) (g d a : Nat) (bad : Bool) : VOp :=
  { word := word, srcs := [(a, g)], dst := some (d, g), form := [(d, g), (a, g)], old := false, formBad := bad,
    overlap := false }

/-- The effect of a row reduction (R60, R172): the tree over the active elements and pads, into element 0.  Where the tree has
one leaf and so no node (VL = 1), `leaf` makes the result of it, as R52 and R173 make a NaN result canonical (log entry 52). -/
def reduceEff (d a mk : Nat) (pad : VCfg → Nat) (leaf : VCfg → Nat → Nat × BitVec 5)
    (node : VCfg → Nat → Nat → Nat × BitVec 5) (q : VCfg) (k : Ctx) :
    Ctx × BitVec 5 :=
  if q.vl = 0 then (k, 0)
  else k.sweepGroup q d q.g q.w q.vlmax q.rows fun r =>
    let ra := k.groupRow q.rb a q.g r
    let leaves := (upFrom 0 (pow2Above q.vl 13)).map fun j => if j < q.vl ∧ k.maskBit mk r j then elem ra q.w j else pad q
    let res := if q.vl = 1 then leaf q (leaves.headD 0) else treeFold (node q) 13 leaves
    fun j => if j = 0 then some res else if q.tz then some (0, 0) else none

/-- A row reduction (R60, R172). -/
def State.vecReduce (s : State) (c : CtxId) (word : BitVec 32) (d a mk : Nat) (bad : VCfg → Bool) (pad : VCfg → Nat)
    (leaf : VCfg → Nat → Nat × BitVec 5) (node : VCfg → Nat → Nat → Nat × BitVec 5) : State :=
  let q := (s.ctx c).vcfg (physLanes (coreOf c))
  s.vecIssue c (reduceOp word q.g d a (bad q)) (reduceEff d a mk pad leaf node)

/-- A position that no flag is raised at. -/
def noFl (x : Nat) : Nat × BitVec 5 := (x, 0)

end Sys2Proof.Machine
end

