-- ==== Sys2Proof/Machine/VecInt.lean ====
section
/-! DEFINITION. Vector integer arithmetic (R163-R172). -/

namespace Sys2Proof.Machine

/-- Signed value of a w-bit element. -/
abbrev sw (w x : Nat) : Int := toSigned w x

/-- Clip an integer to a signed width (R163, R168). -/
def clipS (w : Nat) (i : Int) : Nat :=
  if i < -(2 ^ (w - 1) : Nat) then wrap w (-(2 ^ (w - 1) : Nat))
  else if (2 ^ (w - 1) : Nat) - 1 < i then 2 ^ (w - 1) - 1 else wrap w i

/-- VDIV at width w (R163). -/
def vDiv (w a b : Nat) : Nat :=
  if b = 0 then (if a = 0 then 0 else if sw w a < 0 then 2 ^ (w - 1) else 2 ^ (w - 1) - 1)
  else if a = 2 ^ (w - 1) ∧ sw w b = -1 then 2 ^ (w - 1) - 1
  else wrap w ((sw w a).tdiv (sw w b))

/-- VREM at width w (R163). -/
def vRem (w a b : Nat) : Nat :=
  if b = 0 then a
  else if a = 2 ^ (w - 1) ∧ sw w b = -1 then 0
  else wrap w ((sw w a).tmod (sw w b))

/-- VDIVU at width w (R163). -/
def vDivu (w a b : Nat) : Nat := if b = 0 then (if a = 0 then 0 else 2 ^ w - 1) else a / b

/-- VREMU at width w (R163). -/
def vRemu (a b : Nat) : Nat := if b = 0 then a else a % b

/-- VFSHL at width w (R165): the upper half is the old destination. -/
def vFshl (w a b d : Nat) : Nat := ((d * 2 ^ w + a) * 2 ^ (b % w)) / 2 ^ w % 2 ^ w

/-- VFSHR at width w (R165). -/
def vFshr (w a b d : Nat) : Nat := (d * 2 ^ w + a) / 2 ^ (b % w) % 2 ^ w

/-- VNCLIP (R168): a 2w-bit source shifted right, rounded and clipped to w bits. -/
def vNclip (w rm s b : Nat) : Nat :=
  let v := sw (2 * w) s
  clipS w (roundInt rm (decide (v < 0)) v.natAbs (-(b % (2 * w) : Nat))).1

/-- No condition of the instruction's own. -/
def never (_ : VCfg) : Bool := false

/-- An integer element operation (R163). -/
def State.vecInt (s : State) (c : CtxId) (word : BitVec 32) (d a : BitVec 5) (b : BSrc) (mk : BitVec 3) (old : Bool)
    (op : VCfg → Nat → Nat → Nat → Nat) : State :=
  s.vecMap c word d.toNat a.toNat b mk.toNat old never fun q x y z => noFl (op q x y z)

/-- An integer comparison (R170). -/
def State.vecCmp (s : State) (c : CtxId) (word : BitVec 32) (d a : BitVec 5) (b : BSrc) (mk : BitVec 3)
    (rel : Nat → Nat → Nat → Bool) : State :=
  s.vecCompare c word d.toNat a.toNat b mk.toNat never fun q x y => noFl (b2n (rel q.w x y))

/-- An integer row reduction (R172). -/
def State.vecRed (s : State) (c : CtxId) (word : BitVec 32) (d a : BitVec 5) (mk : BitVec 3) (pad : Nat → Nat)
    (node : Nat → Nat → Nat → Nat) : State :=
  s.vecReduce c word d.toNat a.toNat mk.toNat never (fun q => pad q.w) (fun _ => noFl) fun q x y => noFl (node q.w x y)

/-- The checks of a widening operation (R167, R169): a destination group of twice the factor that meets no source. -/
def wideOp (word : BitVec 32) (q : VCfg) (d a : Nat) (b : BSrc) (old : Bool) : VOp :=
  { word := word, srcs := (a, q.g) :: b.groups q.g, dst := some (d, 2 * q.g), form := (a, q.g) :: b.groups q.g, old := old,
    formBad := decide (q.ew = 3),
    overlap := decide (q.g = 4) || decide (d % (2 * q.g) ≠ 0) ||
      (((a, q.g) :: b.groups q.g).any fun p => groupsMeet d (2 * q.g) p.1 p.2) }

/-- The effect of a widening operation (R167, R169), accumulating into the old element if `old`. -/
def wideEff (d a : Nat) (b : BSrc) (mk : Nat) (old : Bool) (op : Nat → Nat → Nat → Int) (q : VCfg) (k : Ctx) :
    Ctx × BitVec 5 :=
  k.sweepGroup q d (2 * q.g) (2 * q.w) q.vlmax q.rows fun r =>
    let ra := k.groupRow q.rb a q.g r
    let rb := b.row k q r
    let rd := k.groupRow q.rb d (2 * q.g) r
    k.fate q mk (fun _ j => noFl (wrap (2 * q.w) ((if old then (elem rd (2 * q.w) j : Int) else 0) +
      op q.w (elem ra q.w j) (b.el rb q.w j)))) r

/-- A widening operation (R167, R169). -/
def State.vecWide (s : State) (c : CtxId) (word : BitVec 32) (d a : BitVec 5) (b : BSrc) (mk : BitVec 3) (old : Bool)
    (op : Nat → Nat → Nat → Int) : State :=
  let q := (s.ctx c).vcfg (physLanes (coreOf c))
  s.vecIssue c (wideOp word q d.toNat a.toNat b old) (wideEff d.toNat a.toNat b mk.toNat old op)

/-- The checks of a narrowing operation, VNCLIP (R168, R169): a source group of twice the factor. -/
def narrowOp (word : BitVec 32) (q : VCfg) (d a : Nat) (b : BSrc) : VOp :=
  { word := word, srcs := (a, 2 * q.g) :: b.groups q.g, dst := some (d, q.g), form := (d, q.g) :: b.groups q.g,
    old := false, formBad := decide (q.ew = 3),
    overlap := decide (q.g = 4) || decide (a % (2 * q.g) ≠ 0) || (decide (d ≠ a) && groupsMeet d q.g a (2 * q.g)) }

/-- The effect of a narrowing operation, VNCLIP (R168, R169). -/
def narrowEff (d a : Nat) (b : BSrc) (mk : Nat) (q : VCfg) (k : Ctx) : Ctx × BitVec 5 :=
  k.sweepGroup q d q.g q.w q.vlmax q.rows fun r =>
    let ra := k.groupRow q.rb a (2 * q.g) r
    let rb := b.row k q r
    k.fate q mk (fun _ j => noFl (vNclip q.w q.rm (elem ra (2 * q.w) j) (b.el rb q.w j))) r

/-- A narrowing operation, VNCLIP (R168, R169). -/
def State.vecNarrow (s : State) (c : CtxId) (word : BitVec 32) (d a : BitVec 5) (b : BSrc) (mk : BitVec 3) : State :=
  let q := (s.ctx c).vcfg (physLanes (coreOf c))
  s.vecIssue c (narrowOp word q d.toNat a.toNat b) (narrowEff d.toNat a.toNat b mk.toNat)

/-- The effect of VMERGE (R164): element of b where the mask is 1, else of a. -/
def mergeEff (d a : Nat) (b : BSrc) (mk : Nat) (q : VCfg) (k : Ctx) : Ctx × BitVec 5 :=
  k.sweepGroup q d q.g q.w q.vlmax q.rows fun r =>
    let ra := k.groupRow q.rb a q.g r
    let rb := b.row k q r
    k.fate q 0 (fun r j => noFl (if (k.mrow mk r).getLsbD j then b.el rb q.w j else elem ra q.w j)) r

/-- VMERGE (R164). -/
def State.vecMerge (s : State) (c : CtxId) (word : BitVec 32) (d a : BitVec 5) (b : BSrc) (mk : BitVec 3) : State :=
  let q := (s.ctx c).vcfg (physLanes (coreOf c))
  s.vecIssue c (mapOp word q.g d.toNat a.toNat b false false) (mergeEff d.toNat a.toNat b mk.toNat)

/-- The checks of VMOV (R136, R163). -/
def moveOp (word : BitVec 32) (g d : Nat) (b : BSrc) : VOp :=
  { word := word, srcs := b.groups g, dst := some (d, g), form := (d, g) :: b.groups g, old := false, formBad := false,
    overlap := false }

/-- The effect of VMOV (R163). -/
def moveEff (d : Nat) (b : BSrc) (mk : Nat) (q : VCfg) (k : Ctx) : Ctx × BitVec 5 :=
  k.sweepGroup q d q.g q.w q.vlmax q.rows fun r =>
    let rb := b.row k q r
    k.fate q mk (fun _ j => noFl (b.el rb q.w j)) r

/-- VMOV (R163). -/
def State.vecMove (s : State) (c : CtxId) (word : BitVec 32) (d : BitVec 5) (b : BSrc) (mk : BitVec 3) : State :=
  let q := (s.ctx c).vcfg (physLanes (coreOf c))
  s.vecIssue c (moveOp word q.g d.toNat b) (moveEff d.toNat b mk.toNat)

/-- The checks of VCONF (R136, R171). -/
def confOp (word : BitVec 32) (g a : Nat) : VOp :=
  { word := word, srcs := [(a, g)], dst := none, form := [(a, g)], old := false, formBad := false, overlap := false }

/-- The effect of VCONF (R171): does an earlier element of the row have the same value. -/
def confEff (d a : Nat) (q : VCfg) (k : Ctx) : Ctx × BitVec 5 :=
  k.sweepMask d q.vlmax q.rows fun r =>
    let ra := k.groupRow q.rb a q.g r
    k.fate { q with mz := false } 0 (fun _ j => noFl (b2n ((upFrom 0 j).any fun i => decide (elem ra q.w i = elem ra q.w j)))) r

/-- VCONF (R171). -/
def State.vecConf (s : State) (c : CtxId) (word : BitVec 32) (d a : BitVec 5) : State :=
  let q := (s.ctx c).vcfg (physLanes (coreOf c))
  s.vecIssue c (confOp word q.g a.toNat) (confEff d.toNat a.toNat)

/-- VLUT3 (R166): the table bit by bit. -/
def vLut3 (table : Nat) (a b d : Nat) : Nat → Nat
  | 0 => 0
  | n + 1 => table / 2 ^ (4 * (a % 2) + 2 * (b % 2) + d % 2) % 2 + 2 * vLut3 table (a / 2) (b / 2) (d / 2) n

/-- VADD_V (R163): Vector integer addition, vector operand. -/
def execVaddV (d a b : BitVec 5) (m : BitVec 3) (l : BitVec 1) (s : State) : Res :=
  .next (s.issue (encVaddV d a b m l) fun c k s =>
    s.vecInt c (encVaddV d a b m l) d a (k.bReg b l) m false fun _ x y _ => x + y)

/-- VADD_X (R163): Vector integer addition, scalar operand. -/
def execVaddX (d a b : BitVec 5) (m : BitVec 3) (s : State) : Res :=
  .next (s.issue (encVaddX d a b m) fun c k s =>
    s.vecInt c (encVaddX d a b m) d a (k.bX b) m false fun _ x y _ => x + y)

/-- VADD_I (R163): Vector integer addition, immediate operand. -/
def execVaddI (d a i : BitVec 5) (m : BitVec 3) (s : State) : Res :=
  .next (s.issue (encVaddI d a i m) fun c _ s =>
    s.vecInt c (encVaddI d a i m) d a (bImm i) m false fun _ x y _ => x + y)

/-- VSUB_V (R163): Vector subtraction a - b, vector operand. -/
def execVsubV (d a b : BitVec 5) (m : BitVec 3) (l : BitVec 1) (s : State) : Res :=
  .next (s.issue (encVsubV d a b m l) fun c k s =>
    s.vecInt c (encVsubV d a b m l) d a (k.bReg b l) m false fun q x y _ => x + 2 ^ q.w - y)

/-- VSUB_X (R163): Vector subtraction a - b, scalar operand. -/
def execVsubX (d a b : BitVec 5) (m : BitVec 3) (s : State) : Res :=
  .next (s.issue (encVsubX d a b m) fun c k s =>
    s.vecInt c (encVsubX d a b m) d a (k.bX b) m false fun q x y _ => x + 2 ^ q.w - y)

/-- VSUB_I (R163): Vector subtraction a - b, immediate operand. -/
def execVsubI (d a i : BitVec 5) (m : BitVec 3) (s : State) : Res :=
  .next (s.issue (encVsubI d a i m) fun c _ s =>
    s.vecInt c (encVsubI d a i m) d a (bImm i) m false fun q x y _ => x + 2 ^ q.w - y)

/-- VRSUB_V (R163): Vector reverse subtraction b - a, vector operand. -/
def execVrsubV (d a b : BitVec 5) (m : BitVec 3) (l : BitVec 1) (s : State) : Res :=
  .next (s.issue (encVrsubV d a b m l) fun c k s =>
    s.vecInt c (encVrsubV d a b m l) d a (k.bReg b l) m false fun q x y _ => y + 2 ^ q.w - x)

/-- VRSUB_X (R163): Vector reverse subtraction b - a, scalar operand. -/
def execVrsubX (d a b : BitVec 5) (m : BitVec 3) (s : State) : Res :=
  .next (s.issue (encVrsubX d a b m) fun c k s =>
    s.vecInt c (encVrsubX d a b m) d a (k.bX b) m false fun q x y _ => y + 2 ^ q.w - x)

/-- VRSUB_I (R163): Vector reverse subtraction b - a, immediate operand. -/
def execVrsubI (d a i : BitVec 5) (m : BitVec 3) (s : State) : Res :=
  .next (s.issue (encVrsubI d a i m) fun c _ s =>
    s.vecInt c (encVrsubI d a i m) d a (bImm i) m false fun q x y _ => y + 2 ^ q.w - x)

/-- VMUL_V (R163): Vector low multiply, vector operand. -/
def execVmulV (d a b : BitVec 5) (m : BitVec 3) (l : BitVec 1) (s : State) : Res :=
  .next (s.issue (encVmulV d a b m l) fun c k s =>
    s.vecInt c (encVmulV d a b m l) d a (k.bReg b l) m false fun _ x y _ => x * y)

/-- VMUL_X (R163): Vector low multiply, scalar operand. -/
def execVmulX (d a b : BitVec 5) (m : BitVec 3) (s : State) : Res :=
  .next (s.issue (encVmulX d a b m) fun c k s =>
    s.vecInt c (encVmulX d a b m) d a (k.bX b) m false fun _ x y _ => x * y)

/-- VMULH_V (R163): Vector signed high multiply, vector operand. -/
def execVmulhV (d a b : BitVec 5) (m : BitVec 3) (l : BitVec 1) (s : State) : Res :=
  .next (s.issue (encVmulhV d a b m l) fun c k s =>
    s.vecInt c (encVmulhV d a b m l) d a (k.bReg b l) m false fun q x y _ => wrap q.w (sw q.w x * sw q.w y / (2 ^ q.w : Nat)))

/-- VMULH_X (R163): Vector signed high multiply, scalar operand. -/
def execVmulhX (d a b : BitVec 5) (m : BitVec 3) (s : State) : Res :=
  .next (s.issue (encVmulhX d a b m) fun c k s =>
    s.vecInt c (encVmulhX d a b m) d a (k.bX b) m false fun q x y _ => wrap q.w (sw q.w x * sw q.w y / (2 ^ q.w : Nat)))

/-- VMULHU_V (R163): Vector unsigned high multiply, vector operand. -/
def execVmulhuV (d a b : BitVec 5) (m : BitVec 3) (l : BitVec 1) (s : State) : Res :=
  .next (s.issue (encVmulhuV d a b m l) fun c k s =>
    s.vecInt c (encVmulhuV d a b m l) d a (k.bReg b l) m false fun q x y _ => x * y / 2 ^ q.w)

/-- VMULHU_X (R163): Vector unsigned high multiply, scalar operand. -/
def execVmulhuX (d a b : BitVec 5) (m : BitVec 3) (s : State) : Res :=
  .next (s.issue (encVmulhuX d a b m) fun c k s =>
    s.vecInt c (encVmulhuX d a b m) d a (k.bX b) m false fun q x y _ => x * y / 2 ^ q.w)

/-- VDIV_V (R163): Vector signed division, vector operand. -/
def execVdivV (d a b : BitVec 5) (m : BitVec 3) (l : BitVec 1) (s : State) : Res :=
  .next (s.issue (encVdivV d a b m l) fun c k s =>
    s.vecInt c (encVdivV d a b m l) d a (k.bReg b l) m false fun q x y _ => vDiv q.w x y)

/-- VDIV_X (R163): Vector signed division, scalar operand. -/
def execVdivX (d a b : BitVec 5) (m : BitVec 3) (s : State) : Res :=
  .next (s.issue (encVdivX d a b m) fun c k s =>
    s.vecInt c (encVdivX d a b m) d a (k.bX b) m false fun q x y _ => vDiv q.w x y)

/-- VDIVU_V (R163): Vector unsigned division, vector operand. -/
def execVdivuV (d a b : BitVec 5) (m : BitVec 3) (l : BitVec 1) (s : State) : Res :=
  .next (s.issue (encVdivuV d a b m l) fun c k s =>
    s.vecInt c (encVdivuV d a b m l) d a (k.bReg b l) m false fun q x y _ => vDivu q.w x y)

/-- VDIVU_X (R163): Vector unsigned division, scalar operand. -/
def execVdivuX (d a b : BitVec 5) (m : BitVec 3) (s : State) : Res :=
  .next (s.issue (encVdivuX d a b m) fun c k s =>
    s.vecInt c (encVdivuX d a b m) d a (k.bX b) m false fun q x y _ => vDivu q.w x y)

/-- VREM_V (R163): Vector signed remainder, vector operand. -/
def execVremV (d a b : BitVec 5) (m : BitVec 3) (l : BitVec 1) (s : State) : Res :=
  .next (s.issue (encVremV d a b m l) fun c k s =>
    s.vecInt c (encVremV d a b m l) d a (k.bReg b l) m false fun q x y _ => vRem q.w x y)

/-- VREM_X (R163): Vector signed remainder, scalar operand. -/
def execVremX (d a b : BitVec 5) (m : BitVec 3) (s : State) : Res :=
  .next (s.issue (encVremX d a b m) fun c k s =>
    s.vecInt c (encVremX d a b m) d a (k.bX b) m false fun q x y _ => vRem q.w x y)

/-- VREMU_V (R163): Vector unsigned remainder, vector operand. -/
def execVremuV (d a b : BitVec 5) (m : BitVec 3) (l : BitVec 1) (s : State) : Res :=
  .next (s.issue (encVremuV d a b m l) fun c k s =>
    s.vecInt c (encVremuV d a b m l) d a (k.bReg b l) m false fun _ x y _ => vRemu x y)

/-- VREMU_X (R163): Vector unsigned remainder, scalar operand. -/
def execVremuX (d a b : BitVec 5) (m : BitVec 3) (s : State) : Res :=
  .next (s.issue (encVremuX d a b m) fun c k s =>
    s.vecInt c (encVremuX d a b m) d a (k.bX b) m false fun _ x y _ => vRemu x y)

/-- VMIN_V (R163): Vector signed minimum, vector operand. -/
def execVminV (d a b : BitVec 5) (m : BitVec 3) (l : BitVec 1) (s : State) : Res :=
  .next (s.issue (encVminV d a b m l) fun c k s =>
    s.vecInt c (encVminV d a b m l) d a (k.bReg b l) m false fun q x y _ => if sw q.w y < sw q.w x then y else x)

/-- VMIN_X (R163): Vector signed minimum, scalar operand. -/
def execVminX (d a b : BitVec 5) (m : BitVec 3) (s : State) : Res :=
  .next (s.issue (encVminX d a b m) fun c k s =>
    s.vecInt c (encVminX d a b m) d a (k.bX b) m false fun q x y _ => if sw q.w y < sw q.w x then y else x)

/-- VMIN_I (R163): Vector signed minimum, immediate operand. -/
def execVminI (d a i : BitVec 5) (m : BitVec 3) (s : State) : Res :=
  .next (s.issue (encVminI d a i m) fun c _ s =>
    s.vecInt c (encVminI d a i m) d a (bImm i) m false fun q x y _ => if sw q.w y < sw q.w x then y else x)

/-- VMAX_V (R163): Vector signed maximum, vector operand. -/
def execVmaxV (d a b : BitVec 5) (m : BitVec 3) (l : BitVec 1) (s : State) : Res :=
  .next (s.issue (encVmaxV d a b m l) fun c k s =>
    s.vecInt c (encVmaxV d a b m l) d a (k.bReg b l) m false fun q x y _ => if sw q.w x < sw q.w y then y else x)

/-- VMAX_X (R163): Vector signed maximum, scalar operand. -/
def execVmaxX (d a b : BitVec 5) (m : BitVec 3) (s : State) : Res :=
  .next (s.issue (encVmaxX d a b m) fun c k s =>
    s.vecInt c (encVmaxX d a b m) d a (k.bX b) m false fun q x y _ => if sw q.w x < sw q.w y then y else x)

/-- VMAX_I (R163): Vector signed maximum, immediate operand. -/
def execVmaxI (d a i : BitVec 5) (m : BitVec 3) (s : State) : Res :=
  .next (s.issue (encVmaxI d a i m) fun c _ s =>
    s.vecInt c (encVmaxI d a i m) d a (bImm i) m false fun q x y _ => if sw q.w x < sw q.w y then y else x)

/-- VMINU_V (R163): Vector unsigned minimum, vector operand. -/
def execVminuV (d a b : BitVec 5) (m : BitVec 3) (l : BitVec 1) (s : State) : Res :=
  .next (s.issue (encVminuV d a b m l) fun c k s =>
    s.vecInt c (encVminuV d a b m l) d a (k.bReg b l) m false fun _ x y _ => min x y)

/-- VMINU_X (R163): Vector unsigned minimum, scalar operand. -/
def execVminuX (d a b : BitVec 5) (m : BitVec 3) (s : State) : Res :=
  .next (s.issue (encVminuX d a b m) fun c k s =>
    s.vecInt c (encVminuX d a b m) d a (k.bX b) m false fun _ x y _ => min x y)

/-- VMINU_I (R163): Vector unsigned minimum, immediate operand. -/
def execVminuI (d a i : BitVec 5) (m : BitVec 3) (s : State) : Res :=
  .next (s.issue (encVminuI d a i m) fun c _ s =>
    s.vecInt c (encVminuI d a i m) d a (bImm i) m false fun _ x y _ => min x y)

/-- VMAXU_V (R163): Vector unsigned maximum, vector operand. -/
def execVmaxuV (d a b : BitVec 5) (m : BitVec 3) (l : BitVec 1) (s : State) : Res :=
  .next (s.issue (encVmaxuV d a b m l) fun c k s =>
    s.vecInt c (encVmaxuV d a b m l) d a (k.bReg b l) m false fun _ x y _ => max x y)

/-- VMAXU_X (R163): Vector unsigned maximum, scalar operand. -/
def execVmaxuX (d a b : BitVec 5) (m : BitVec 3) (s : State) : Res :=
  .next (s.issue (encVmaxuX d a b m) fun c k s =>
    s.vecInt c (encVmaxuX d a b m) d a (k.bX b) m false fun _ x y _ => max x y)

/-- VMAXU_I (R163): Vector unsigned maximum, immediate operand. -/
def execVmaxuI (d a i : BitVec 5) (m : BitVec 3) (s : State) : Res :=
  .next (s.issue (encVmaxuI d a i m) fun c _ s =>
    s.vecInt c (encVmaxuI d a i m) d a (bImm i) m false fun _ x y _ => max x y)

/-- VAND_V (R163): Vector bitwise AND, vector operand. -/
def execVandV (d a b : BitVec 5) (m : BitVec 3) (l : BitVec 1) (s : State) : Res :=
  .next (s.issue (encVandV d a b m l) fun c k s =>
    s.vecInt c (encVandV d a b m l) d a (k.bReg b l) m false fun _ x y _ => x &&& y)

/-- VAND_X (R163): Vector bitwise AND, scalar operand. -/
def execVandX (d a b : BitVec 5) (m : BitVec 3) (s : State) : Res :=
  .next (s.issue (encVandX d a b m) fun c k s =>
    s.vecInt c (encVandX d a b m) d a (k.bX b) m false fun _ x y _ => x &&& y)

/-- VAND_I (R163): Vector bitwise AND, immediate operand. -/
def execVandI (d a i : BitVec 5) (m : BitVec 3) (s : State) : Res :=
  .next (s.issue (encVandI d a i m) fun c _ s =>
    s.vecInt c (encVandI d a i m) d a (bImm i) m false fun _ x y _ => x &&& y)

/-- VOR_V (R163): Vector bitwise OR, vector operand. -/
def execVorV (d a b : BitVec 5) (m : BitVec 3) (l : BitVec 1) (s : State) : Res :=
  .next (s.issue (encVorV d a b m l) fun c k s =>
    s.vecInt c (encVorV d a b m l) d a (k.bReg b l) m false fun _ x y _ => x ||| y)

/-- VOR_X (R163): Vector bitwise OR, scalar operand. -/
def execVorX (d a b : BitVec 5) (m : BitVec 3) (s : State) : Res :=
  .next (s.issue (encVorX d a b m) fun c k s =>
    s.vecInt c (encVorX d a b m) d a (k.bX b) m false fun _ x y _ => x ||| y)

/-- VOR_I (R163): Vector bitwise OR, immediate operand. -/
def execVorI (d a i : BitVec 5) (m : BitVec 3) (s : State) : Res :=
  .next (s.issue (encVorI d a i m) fun c _ s =>
    s.vecInt c (encVorI d a i m) d a (bImm i) m false fun _ x y _ => x ||| y)

/-- VXOR_V (R163): Vector bitwise XOR, vector operand. -/
def execVxorV (d a b : BitVec 5) (m : BitVec 3) (l : BitVec 1) (s : State) : Res :=
  .next (s.issue (encVxorV d a b m l) fun c k s =>
    s.vecInt c (encVxorV d a b m l) d a (k.bReg b l) m false fun _ x y _ => x ^^^ y)

/-- VXOR_X (R163): Vector bitwise XOR, scalar operand. -/
def execVxorX (d a b : BitVec 5) (m : BitVec 3) (s : State) : Res :=
  .next (s.issue (encVxorX d a b m) fun c k s =>
    s.vecInt c (encVxorX d a b m) d a (k.bX b) m false fun _ x y _ => x ^^^ y)

/-- VXOR_I (R163): Vector bitwise XOR, immediate operand. -/
def execVxorI (d a i : BitVec 5) (m : BitVec 3) (s : State) : Res :=
  .next (s.issue (encVxorI d a i m) fun c _ s =>
    s.vecInt c (encVxorI d a i m) d a (bImm i) m false fun _ x y _ => x ^^^ y)

/-- VSLL_V (R163): Vector shift left, vector amount. -/
def execVsllV (d a b : BitVec 5) (m : BitVec 3) (l : BitVec 1) (s : State) : Res :=
  .next (s.issue (encVsllV d a b m l) fun c k s =>
    s.vecInt c (encVsllV d a b m l) d a (k.bReg b l) m false fun q x y _ => x * 2 ^ (y % q.w))

/-- VSLL_X (R163): Vector shift left, scalar amount. -/
def execVsllX (d a b : BitVec 5) (m : BitVec 3) (s : State) : Res :=
  .next (s.issue (encVsllX d a b m) fun c k s =>
    s.vecInt c (encVsllX d a b m) d a (k.bX b) m false fun q x y _ => x * 2 ^ (y % q.w))

/-- VSLL_I (R163): Vector shift left, unsigned immediate amount. -/
def execVsllI (d a i : BitVec 5) (m : BitVec 3) (s : State) : Res :=
  .next (s.issue (encVsllI d a i m) fun c _ s =>
    s.vecInt c (encVsllI d a i m) d a (bUimm i) m false fun q x y _ => x * 2 ^ (y % q.w))

/-- VSRL_V (R163): Vector logical shift right, vector amount. -/
def execVsrlV (d a b : BitVec 5) (m : BitVec 3) (l : BitVec 1) (s : State) : Res :=
  .next (s.issue (encVsrlV d a b m l) fun c k s =>
    s.vecInt c (encVsrlV d a b m l) d a (k.bReg b l) m false fun q x y _ => x / 2 ^ (y % q.w))

/-- VSRL_X (R163): Vector logical shift right, scalar amount. -/
def execVsrlX (d a b : BitVec 5) (m : BitVec 3) (s : State) : Res :=
  .next (s.issue (encVsrlX d a b m) fun c k s =>
    s.vecInt c (encVsrlX d a b m) d a (k.bX b) m false fun q x y _ => x / 2 ^ (y % q.w))

/-- VSRL_I (R163): Vector logical shift right, immediate amount. -/
def execVsrlI (d a i : BitVec 5) (m : BitVec 3) (s : State) : Res :=
  .next (s.issue (encVsrlI d a i m) fun c _ s =>
    s.vecInt c (encVsrlI d a i m) d a (bUimm i) m false fun q x y _ => x / 2 ^ (y % q.w))

/-- VSRA_V (R163): Vector arithmetic shift right, vector amount. -/
def execVsraV (d a b : BitVec 5) (m : BitVec 3) (l : BitVec 1) (s : State) : Res :=
  .next (s.issue (encVsraV d a b m l) fun c k s =>
    s.vecInt c (encVsraV d a b m l) d a (k.bReg b l) m false fun q x y _ => wrap q.w (sw q.w x / (2 ^ (y % q.w) : Nat)))

/-- VSRA_X (R163): Vector arithmetic shift right, scalar amount. -/
def execVsraX (d a b : BitVec 5) (m : BitVec 3) (s : State) : Res :=
  .next (s.issue (encVsraX d a b m) fun c k s =>
    s.vecInt c (encVsraX d a b m) d a (k.bX b) m false fun q x y _ => wrap q.w (sw q.w x / (2 ^ (y % q.w) : Nat)))

/-- VSRA_I (R163): Vector arithmetic shift right, immediate amount. -/
def execVsraI (d a i : BitVec 5) (m : BitVec 3) (s : State) : Res :=
  .next (s.issue (encVsraI d a i m) fun c _ s =>
    s.vecInt c (encVsraI d a i m) d a (bUimm i) m false fun q x y _ => wrap q.w (sw q.w x / (2 ^ (y % q.w) : Nat)))

/-- VSADD_V (R163): Vector saturating signed addition, vector operand. -/
def execVsaddV (d a b : BitVec 5) (m : BitVec 3) (l : BitVec 1) (s : State) : Res :=
  .next (s.issue (encVsaddV d a b m l) fun c k s =>
    s.vecInt c (encVsaddV d a b m l) d a (k.bReg b l) m false fun q x y _ => clipS q.w (sw q.w x + sw q.w y))

/-- VSADD_X (R163): Vector saturating signed addition, scalar operand. -/
def execVsaddX (d a b : BitVec 5) (m : BitVec 3) (s : State) : Res :=
  .next (s.issue (encVsaddX d a b m) fun c k s =>
    s.vecInt c (encVsaddX d a b m) d a (k.bX b) m false fun q x y _ => clipS q.w (sw q.w x + sw q.w y))

/-- VSADD_I (R163): Vector saturating signed addition, immediate operand. -/
def execVsaddI (d a i : BitVec 5) (m : BitVec 3) (s : State) : Res :=
  .next (s.issue (encVsaddI d a i m) fun c _ s =>
    s.vecInt c (encVsaddI d a i m) d a (bImm i) m false fun q x y _ => clipS q.w (sw q.w x + sw q.w y))

/-- VSSUB_V (R163): Vector saturating signed subtraction, vector operand. -/
def execVssubV (d a b : BitVec 5) (m : BitVec 3) (l : BitVec 1) (s : State) : Res :=
  .next (s.issue (encVssubV d a b m l) fun c k s =>
    s.vecInt c (encVssubV d a b m l) d a (k.bReg b l) m false fun q x y _ => clipS q.w (sw q.w x - sw q.w y))

/-- VSSUB_X (R163): Vector saturating signed subtraction, scalar operand. -/
def execVssubX (d a b : BitVec 5) (m : BitVec 3) (s : State) : Res :=
  .next (s.issue (encVssubX d a b m) fun c k s =>
    s.vecInt c (encVssubX d a b m) d a (k.bX b) m false fun q x y _ => clipS q.w (sw q.w x - sw q.w y))

/-- VSSUB_I (R163): Vector saturating signed subtraction, immediate operand. -/
def execVssubI (d a i : BitVec 5) (m : BitVec 3) (s : State) : Res :=
  .next (s.issue (encVssubI d a i m) fun c _ s =>
    s.vecInt c (encVssubI d a i m) d a (bImm i) m false fun q x y _ => clipS q.w (sw q.w x - sw q.w y))

/-- VWMUL_V (R167): Widening signed multiply, vector operand. -/
def execVwmulV (d a b : BitVec 5) (m : BitVec 3) (l : BitVec 1) (s : State) : Res :=
  .next (s.issue (encVwmulV d a b m l) fun c k s =>
    s.vecWide c (encVwmulV d a b m l) d a (k.bReg b l) m false fun w x y => sw w x * sw w y)

/-- VWMUL_X (R167): Widening signed multiply, scalar operand. -/
def execVwmulX (d a b : BitVec 5) (m : BitVec 3) (s : State) : Res :=
  .next (s.issue (encVwmulX d a b m) fun c k s =>
    s.vecWide c (encVwmulX d a b m) d a (k.bX b) m false fun w x y => sw w x * sw w y)

/-- VWMACC_V (R167): Widening signed multiply-accumulate, vector operand. -/
def execVwmaccV (d a b : BitVec 5) (m : BitVec 3) (l : BitVec 1) (s : State) : Res :=
  .next (s.issue (encVwmaccV d a b m l) fun c k s =>
    s.vecWide c (encVwmaccV d a b m l) d a (k.bReg b l) m true fun w x y => sw w x * sw w y)

/-- VWMACC_X (R167): Widening signed multiply-accumulate, scalar operand. -/
def execVwmaccX (d a b : BitVec 5) (m : BitVec 3) (s : State) : Res :=
  .next (s.issue (encVwmaccX d a b m) fun c k s =>
    s.vecWide c (encVwmaccX d a b m) d a (k.bX b) m true fun w x y => sw w x * sw w y)

/-- VWMACCU_V (R167): Widening unsigned multiply-accumulate, vector operand. -/
def execVwmaccuV (d a b : BitVec 5) (m : BitVec 3) (l : BitVec 1) (s : State) : Res :=
  .next (s.issue (encVwmaccuV d a b m l) fun c k s =>
    s.vecWide c (encVwmaccuV d a b m l) d a (k.bReg b l) m true fun _ x y => (x * y : Nat))

/-- VWMACCU_X (R167): Widening unsigned multiply-accumulate, scalar operand. -/
def execVwmaccuX (d a b : BitVec 5) (m : BitVec 3) (s : State) : Res :=
  .next (s.issue (encVwmaccuX d a b m) fun c k s =>
    s.vecWide c (encVwmaccuX d a b m) d a (k.bX b) m true fun _ x y => (x * y : Nat))

/-- VWMACCSU_V (R167): Widening signed-by-unsigned multiply-accumulate, vector operand. -/
def execVwmaccsuV (d a b : BitVec 5) (m : BitVec 3) (l : BitVec 1) (s : State) : Res :=
  .next (s.issue (encVwmaccsuV d a b m l) fun c k s =>
    s.vecWide c (encVwmaccsuV d a b m l) d a (k.bReg b l) m true fun w x y => sw w x * (y : Int))

/-- VWMACCSU_X (R167): Widening signed-by-unsigned multiply-accumulate, scalar operand. -/
def execVwmaccsuX (d a b : BitVec 5) (m : BitVec 3) (s : State) : Res :=
  .next (s.issue (encVwmaccsuX d a b m) fun c k s =>
    s.vecWide c (encVwmaccsuX d a b m) d a (k.bX b) m true fun w x y => sw w x * (y : Int))

/-- VNCLIP_V (R168): Narrowing shift with rounding and clipping, vector shift. -/
def execVnclipV (d a b : BitVec 5) (m : BitVec 3) (l : BitVec 1) (s : State) : Res :=
  .next (s.issue (encVnclipV d a b m l) fun c k s => s.vecNarrow c (encVnclipV d a b m l) d a (k.bReg b l) m)

/-- VNCLIP_X (R168): Narrowing clip, scalar shift. -/
def execVnclipX (d a b : BitVec 5) (m : BitVec 3) (s : State) : Res :=
  .next (s.issue (encVnclipX d a b m) fun c k s => s.vecNarrow c (encVnclipX d a b m) d a (k.bX b) m)

/-- VNCLIP_I (R168): Narrowing clip, immediate shift. -/
def execVnclipI (d a i : BitVec 5) (m : BitVec 3) (s : State) : Res :=
  .next (s.issue (encVnclipI d a i m) fun c _ s => s.vecNarrow c (encVnclipI d a i m) d a (bUimm i) m)

/-- VFSHL_V (R165): Vector funnel shift left with the old vd, vector amount. -/
def execVfshlV (d a b : BitVec 5) (m : BitVec 3) (l : BitVec 1) (s : State) : Res :=
  .next (s.issue (encVfshlV d a b m l) fun c k s =>
    s.vecInt c (encVfshlV d a b m l) d a (k.bReg b l) m true fun q x y z => vFshl q.w x y z)

/-- VFSHL_X (R165): Vector funnel shift left, scalar amount. -/
def execVfshlX (d a b : BitVec 5) (m : BitVec 3) (s : State) : Res :=
  .next (s.issue (encVfshlX d a b m) fun c k s =>
    s.vecInt c (encVfshlX d a b m) d a (k.bX b) m true fun q x y z => vFshl q.w x y z)

/-- VFSHL_I (R165): Vector funnel shift left, immediate amount. -/
def execVfshlI (d a i : BitVec 5) (m : BitVec 3) (s : State) : Res :=
  .next (s.issue (encVfshlI d a i m) fun c _ s =>
    s.vecInt c (encVfshlI d a i m) d a (bUimm i) m true fun q x y z => vFshl q.w x y z)

/-- VFSHR_V (R165): Vector funnel shift right with the old vd, vector amount. -/
def execVfshrV (d a b : BitVec 5) (m : BitVec 3) (l : BitVec 1) (s : State) : Res :=
  .next (s.issue (encVfshrV d a b m l) fun c k s =>
    s.vecInt c (encVfshrV d a b m l) d a (k.bReg b l) m true fun q x y z => vFshr q.w x y z)

/-- VFSHR_X (R165): Vector funnel shift right, scalar amount. -/
def execVfshrX (d a b : BitVec 5) (m : BitVec 3) (s : State) : Res :=
  .next (s.issue (encVfshrX d a b m) fun c k s =>
    s.vecInt c (encVfshrX d a b m) d a (k.bX b) m true fun q x y z => vFshr q.w x y z)

/-- VFSHR_I (R165): Vector funnel shift right, immediate amount. -/
def execVfshrI (d a i : BitVec 5) (m : BitVec 3) (s : State) : Res :=
  .next (s.issue (encVfshrI d a i m) fun c _ s =>
    s.vecInt c (encVfshrI d a i m) d a (bUimm i) m true fun q x y z => vFshr q.w x y z)

/-- VMERGE_V (R164): Selects b or va per mask bit, vector operand. -/
def execVmergeV (d a b : BitVec 5) (m : BitVec 3) (l : BitVec 1) (s : State) : Res :=
  .next (s.issue (encVmergeV d a b m l) fun c k s => s.vecMerge c (encVmergeV d a b m l) d a (k.bReg b l) m)

/-- VMERGE_X (R164): Selects x[b] or va per mask bit. -/
def execVmergeX (d a b : BitVec 5) (m : BitVec 3) (s : State) : Res :=
  .next (s.issue (encVmergeX d a b m) fun c k s => s.vecMerge c (encVmergeX d a b m) d a (k.bX b) m)

/-- VMERGE_I (R164): Selects the immediate or va per mask bit. -/
def execVmergeI (d a i : BitVec 5) (m : BitVec 3) (s : State) : Res :=
  .next (s.issue (encVmergeI d a i m) fun c _ s => s.vecMerge c (encVmergeI d a i m) d a (bImm i) m)

/-- VMOV_V (R163): Copies a vector operand to vd. -/
def execVmovV (d b : BitVec 5) (m : BitVec 3) (l : BitVec 1) (s : State) : Res :=
  .next (s.issue (encVmovV d b m l) fun c k s => s.vecMove c (encVmovV d b m l) d (k.bReg b l) m)

/-- VMOV_X (R163): Broadcasts x[b] to vd. -/
def execVmovX (d b : BitVec 5) (m : BitVec 3) (s : State) : Res :=
  .next (s.issue (encVmovX d b m) fun c k s => s.vecMove c (encVmovX d b m) d (k.bX b) m)

/-- VMOV_I (R163): Broadcasts an immediate to vd. -/
def execVmovI (d i : BitVec 5) (m : BitVec 3) (s : State) : Res :=
  .next (s.issue (encVmovI d i m) fun c _ s => s.vecMove c (encVmovI d i m) d (bImm i) m)

/-- VSEQ_V (R170): Mask of a = b, vector operand. -/
def execVseqV (d a b : BitVec 5) (m : BitVec 3) (l : BitVec 1) (s : State) : Res :=
  .next (s.issue (encVseqV d a b m l) fun c k s =>
    s.vecCmp c (encVseqV d a b m l) d a (k.bReg b l) m fun _ x y => decide (x = y))

/-- VSEQ_X (R170): Mask of a = b, scalar operand. -/
def execVseqX (d a b : BitVec 5) (m : BitVec 3) (s : State) : Res :=
  .next (s.issue (encVseqX d a b m) fun c k s =>
    s.vecCmp c (encVseqX d a b m) d a (k.bX b) m fun _ x y => decide (x = y))

/-- VSEQ_I (R170): Mask of a = b, immediate operand. -/
def execVseqI (d a i : BitVec 5) (m : BitVec 3) (s : State) : Res :=
  .next (s.issue (encVseqI d a i m) fun c _ s =>
    s.vecCmp c (encVseqI d a i m) d a (bImm i) m fun _ x y => decide (x = y))

/-- VSNE_V (R170): Mask of a ≠ b, vector operand. -/
def execVsneV (d a b : BitVec 5) (m : BitVec 3) (l : BitVec 1) (s : State) : Res :=
  .next (s.issue (encVsneV d a b m l) fun c k s =>
    s.vecCmp c (encVsneV d a b m l) d a (k.bReg b l) m fun _ x y => decide (x ≠ y))

/-- VSNE_X (R170): Mask of a ≠ b, scalar operand. -/
def execVsneX (d a b : BitVec 5) (m : BitVec 3) (s : State) : Res :=
  .next (s.issue (encVsneX d a b m) fun c k s =>
    s.vecCmp c (encVsneX d a b m) d a (k.bX b) m fun _ x y => decide (x ≠ y))

/-- VSNE_I (R170): Mask of a ≠ b, immediate operand. -/
def execVsneI (d a i : BitVec 5) (m : BitVec 3) (s : State) : Res :=
  .next (s.issue (encVsneI d a i m) fun c _ s =>
    s.vecCmp c (encVsneI d a i m) d a (bImm i) m fun _ x y => decide (x ≠ y))

/-- VSLT_V (R170): Mask of signed a < b, vector operand. -/
def execVsltV (d a b : BitVec 5) (m : BitVec 3) (l : BitVec 1) (s : State) : Res :=
  .next (s.issue (encVsltV d a b m l) fun c k s =>
    s.vecCmp c (encVsltV d a b m l) d a (k.bReg b l) m fun w x y => decide (sw w x < sw w y))

/-- VSLT_X (R170): Mask of signed a < b, scalar operand. -/
def execVsltX (d a b : BitVec 5) (m : BitVec 3) (s : State) : Res :=
  .next (s.issue (encVsltX d a b m) fun c k s =>
    s.vecCmp c (encVsltX d a b m) d a (k.bX b) m fun w x y => decide (sw w x < sw w y))

/-- VSLT_I (R170): Mask of signed a < b, immediate operand. -/
def execVsltI (d a i : BitVec 5) (m : BitVec 3) (s : State) : Res :=
  .next (s.issue (encVsltI d a i m) fun c _ s =>
    s.vecCmp c (encVsltI d a i m) d a (bImm i) m fun w x y => decide (sw w x < sw w y))

/-- VSLTU_V (R170): Mask of unsigned a < b, vector operand. -/
def execVsltuV (d a b : BitVec 5) (m : BitVec 3) (l : BitVec 1) (s : State) : Res :=
  .next (s.issue (encVsltuV d a b m l) fun c k s =>
    s.vecCmp c (encVsltuV d a b m l) d a (k.bReg b l) m fun _ x y => decide (x < y))

/-- VSLTU_X (R170): Mask of unsigned a < b, scalar operand. -/
def execVsltuX (d a b : BitVec 5) (m : BitVec 3) (s : State) : Res :=
  .next (s.issue (encVsltuX d a b m) fun c k s =>
    s.vecCmp c (encVsltuX d a b m) d a (k.bX b) m fun _ x y => decide (x < y))

/-- VSLTU_I (R170): Mask of unsigned a < b, immediate operand. -/
def execVsltuI (d a i : BitVec 5) (m : BitVec 3) (s : State) : Res :=
  .next (s.issue (encVsltuI d a i m) fun c _ s =>
    s.vecCmp c (encVsltuI d a i m) d a (bImm i) m fun _ x y => decide (x < y))

/-- VSLE_V (R170): Mask of signed a ≤ b, vector operand. -/
def execVsleV (d a b : BitVec 5) (m : BitVec 3) (l : BitVec 1) (s : State) : Res :=
  .next (s.issue (encVsleV d a b m l) fun c k s =>
    s.vecCmp c (encVsleV d a b m l) d a (k.bReg b l) m fun w x y => decide (sw w x ≤ sw w y))

/-- VSLE_X (R170): Mask of signed a ≤ b, scalar operand. -/
def execVsleX (d a b : BitVec 5) (m : BitVec 3) (s : State) : Res :=
  .next (s.issue (encVsleX d a b m) fun c k s =>
    s.vecCmp c (encVsleX d a b m) d a (k.bX b) m fun w x y => decide (sw w x ≤ sw w y))

/-- VSLE_I (R170): Mask of signed a ≤ b, immediate operand. -/
def execVsleI (d a i : BitVec 5) (m : BitVec 3) (s : State) : Res :=
  .next (s.issue (encVsleI d a i m) fun c _ s =>
    s.vecCmp c (encVsleI d a i m) d a (bImm i) m fun w x y => decide (sw w x ≤ sw w y))

/-- VSLEU_V (R170): Mask of unsigned a ≤ b, vector operand. -/
def execVsleuV (d a b : BitVec 5) (m : BitVec 3) (l : BitVec 1) (s : State) : Res :=
  .next (s.issue (encVsleuV d a b m l) fun c k s =>
    s.vecCmp c (encVsleuV d a b m l) d a (k.bReg b l) m fun _ x y => decide (x ≤ y))

/-- VSLEU_X (R170): Mask of unsigned a ≤ b, scalar operand. -/
def execVsleuX (d a b : BitVec 5) (m : BitVec 3) (s : State) : Res :=
  .next (s.issue (encVsleuX d a b m) fun c k s =>
    s.vecCmp c (encVsleuX d a b m) d a (k.bX b) m fun _ x y => decide (x ≤ y))

/-- VSLEU_I (R170): Mask of unsigned a ≤ b, immediate operand. -/
def execVsleuI (d a i : BitVec 5) (m : BitVec 3) (s : State) : Res :=
  .next (s.issue (encVsleuI d a i m) fun c _ s =>
    s.vecCmp c (encVsleuI d a i m) d a (bImm i) m fun _ x y => decide (x ≤ y))

/-- VSGT_V (R170): Mask of signed a > b, vector operand. -/
def execVsgtV (d a b : BitVec 5) (m : BitVec 3) (l : BitVec 1) (s : State) : Res :=
  .next (s.issue (encVsgtV d a b m l) fun c k s =>
    s.vecCmp c (encVsgtV d a b m l) d a (k.bReg b l) m fun w x y => decide (sw w y < sw w x))

/-- VSGT_X (R170): Mask of signed a > b, scalar operand. -/
def execVsgtX (d a b : BitVec 5) (m : BitVec 3) (s : State) : Res :=
  .next (s.issue (encVsgtX d a b m) fun c k s =>
    s.vecCmp c (encVsgtX d a b m) d a (k.bX b) m fun w x y => decide (sw w y < sw w x))

/-- VSGT_I (R170): Mask of signed a > b, immediate operand. -/
def execVsgtI (d a i : BitVec 5) (m : BitVec 3) (s : State) : Res :=
  .next (s.issue (encVsgtI d a i m) fun c _ s =>
    s.vecCmp c (encVsgtI d a i m) d a (bImm i) m fun w x y => decide (sw w y < sw w x))

/-- VSGTU_V (R170): Mask of unsigned a > b, vector operand. -/
def execVsgtuV (d a b : BitVec 5) (m : BitVec 3) (l : BitVec 1) (s : State) : Res :=
  .next (s.issue (encVsgtuV d a b m l) fun c k s =>
    s.vecCmp c (encVsgtuV d a b m l) d a (k.bReg b l) m fun _ x y => decide (y < x))

/-- VSGTU_X (R170): Mask of unsigned a > b, scalar operand. -/
def execVsgtuX (d a b : BitVec 5) (m : BitVec 3) (s : State) : Res :=
  .next (s.issue (encVsgtuX d a b m) fun c k s =>
    s.vecCmp c (encVsgtuX d a b m) d a (k.bX b) m fun _ x y => decide (y < x))

/-- VSGTU_I (R170): Mask of unsigned a > b, immediate operand. -/
def execVsgtuI (d a i : BitVec 5) (m : BitVec 3) (s : State) : Res :=
  .next (s.issue (encVsgtuI d a i m) fun c _ s =>
    s.vecCmp c (encVsgtuI d a i m) d a (bImm i) m fun _ x y => decide (y < x))

/-- VPOPC (R163): Per-element population count. -/
def execVpopc (d a : BitVec 5) (m : BitVec 3) (s : State) : Res :=
  .next (s.issue (encVpopc d a m) fun c _ s =>
    s.vecInt c (encVpopc d a m) d a (.k 0) m false fun q x _ _ => popcount x q.w)

/-- VCLZ (R163): Per-element leading-zero count. -/
def execVclz (d a : BitVec 5) (m : BitVec 3) (s : State) : Res :=
  .next (s.issue (encVclz d a m) fun c _ s => s.vecInt c (encVclz d a m) d a (.k 0) m false fun q x _ _ => clz q.w x)

/-- VCONF (R171): Marks the later duplicates of each row in a mask. -/
def execVconf (d a : BitVec 5) (s : State) : Res :=
  .next (s.issue (encVconf d a) fun c _ s => s.vecConf c (encVconf d a) d a)

/-- VREDSUM (R172): Integer row sum by the fixed tree. -/
def execVredsum (d a : BitVec 5) (m : BitVec 3) (s : State) : Res :=
  .next (s.issue (encVredsum d a m) fun c _ s =>
    s.vecRed c (encVredsum d a m) d a m (fun _ => 0) fun w x y => (x + y) % 2 ^ w)

/-- VREDMAX (R172): Signed row maximum. -/
def execVredmax (d a : BitVec 5) (m : BitVec 3) (s : State) : Res :=
  .next (s.issue (encVredmax d a m) fun c _ s =>
    s.vecRed c (encVredmax d a m) d a m (fun w => 2 ^ (w - 1)) fun w x y => if sw w x < sw w y then y else x)

/-- VREDMIN (R172): Signed row minimum. -/
def execVredmin (d a : BitVec 5) (m : BitVec 3) (s : State) : Res :=
  .next (s.issue (encVredmin d a m) fun c _ s =>
    s.vecRed c (encVredmin d a m) d a m (fun w => 2 ^ (w - 1) - 1) fun w x y => if sw w y < sw w x then y else x)

/-- VREDMAXU (R172): Unsigned row maximum. -/
def execVredmaxu (d a : BitVec 5) (m : BitVec 3) (s : State) : Res :=
  .next (s.issue (encVredmaxu d a m) fun c _ s =>
    s.vecRed c (encVredmaxu d a m) d a m (fun _ => 0) fun _ x y => max x y)

/-- VREDMINU (R172): Unsigned row minimum. -/
def execVredminu (d a : BitVec 5) (m : BitVec 3) (s : State) : Res :=
  .next (s.issue (encVredminu d a m) fun c _ s =>
    s.vecRed c (encVredminu d a m) d a m (fun w => 2 ^ w - 1) fun _ x y => min x y)

/-- VREDAND (R172): Row bitwise AND reduction. -/
def execVredand (d a : BitVec 5) (m : BitVec 3) (s : State) : Res :=
  .next (s.issue (encVredand d a m) fun c _ s =>
    s.vecRed c (encVredand d a m) d a m (fun w => 2 ^ w - 1) fun _ x y => x &&& y)

/-- VREDOR (R172): Row bitwise OR reduction. -/
def execVredor (d a : BitVec 5) (m : BitVec 3) (s : State) : Res :=
  .next (s.issue (encVredor d a m) fun c _ s => s.vecRed c (encVredor d a m) d a m (fun _ => 0) fun _ x y => x ||| y)

/-- VREDXOR (R172): Row bitwise XOR reduction. -/
def execVredxor (d a : BitVec 5) (m : BitVec 3) (s : State) : Res :=
  .next (s.issue (encVredxor d a m) fun c _ s =>
    s.vecRed c (encVredxor d a m) d a m (fun _ => 0) fun _ x y => x ^^^ y)

/-- VLUT3 (R166): Per-bit three-input lookup over va, vb and the old vd. -/
def execVlut3 (d a b : BitVec 5) (t : BitVec 3) (l : BitVec 1) (u : BitVec 5) (s : State) : Res :=
  .next (s.issue (encVlut3 d a b t l u) fun c k s =>
    s.vecInt c (encVlut3 d a b t l u) d a (k.bReg b l) 0 true fun q x y z => vLut3 (t ++ u).toNat x y z q.w)

end Sys2Proof.Machine
end

