-- ==== Sys2Proof/Machine/VecMem.lean ====
section
/-! DEFINITION. Vector memory instructions (R181-R200): addresses, the check phase and truncation, the scratchpad, save images. -/

namespace Sys2Proof.Machine

/-! The scratchpad (R191, R331). -/

/-- Bytes of a lane slice (R331). -/
def State.sliceSize (s : State) (core : CoreId) : Nat := (s.core core).spsz * 2 ^ 20 / physLanes core

/-- Bytes of one bank in a lane slice (R331). -/
def bankBytes (core : CoreId) : Nat := 2 ^ 20 / physLanes core

/-- The DID that owns the bank of a slice offset (R431). -/
def State.bankDid (s : State) (core : CoreId) (off : Nat) : BitVec 7 :=
  let b := off / bankBytes core
  (s.core core).part ++ BitVec.ofNat 3 (bits (s.core core).dpbank (3 * b + 6) (3 * b + 4))

/-- The key of a scratchpad byte: slice and offset. -/
def spadKey (lane off : Nat) : Nat := lane * 2 ^ 20 + off

/-- Read n bytes of a slice. -/
def State.spadRead (s : State) (core : CoreId) (lane off n : Nat) : List Byte :=
  (s.core core).spad.readN (spadKey lane off) n

/-- Write bytes of a slice. -/
def State.spadWrite (s : State) (core : CoreId) (lane off : Nat) (bs : List Byte) : State :=
  s.modCore core fun k => { k with spad := k.spad.writeL (spadKey lane off) bs }

/-- The physical lane of position (r, j) of a vector context (R191). -/
def Ctx.physLane (k : Ctx) (q : VCfg) (j : Nat) : Nat := k.lg * k.lanes + (j * q.e % q.rb) / 64

/-! Positions and the check phase (R185, R186). -/

/-- The active positions of an instruction in (r, j) order. -/
def Ctx.activePos (k : Ctx) (q : VCfg) (mk : Nat) : List (Nat × Nat) :=
  (upFrom 0 q.rows).flatMap fun r => ((upFrom 0 q.vl).filter fun j => k.maskBit mk r j).map fun j => (r, j)

/-- The column where a first fault truncates (R186): the least failing column, or none. -/
def firstBad : List ((Nat × Nat) × Option Trap) → Option Nat
  | [] => none
  | (p, some _) :: t => some (match firstBad t with
    | some j => min p.2 j
    | none => p.2)
  | (_, none) :: t => firstBad t

/-- The trap of the first failing position of column 0. -/
def trapAt0 : List ((Nat × Nat) × Option Trap) → Option Trap
  | [] => none
  | (p, some e) :: t => if p.2 = 0 then some e else trapAt0 t
  | (_, none) :: t => trapAt0 t

/-- Shorten SHAPE.VL (R186). -/
def Ctx.truncated (k : Ctx) (n : Nat) : Ctx := if n < k.vl then { k with vl := n, tr := true } else k

/-- The context waits for its check phase, which ends by an event (R185); the entry then enters the queue. -/
def State.checkPhase (s : State) (c : CtxId) (e : VEntry) : State :=
  ((s.retire c).modCtx c fun k => { k with vchk := some e, wait := .check }).soon (.vectorCheckPhaseEnd c)

/-- The front of a vector memory instruction (R182, R391): form_mismatch, register_overlap, a place in the queue. -/
def State.memFront (s : State) (c : CtxId) (o : VOp) (go : State → VCfg → State) : State :=
  let k := s.ctx c
  let q := k.vcfg (physLanes (coreOf c))
  let wv : Word := o.word.zeroExtend 64
  if s.formMismatch c q o then s.trap c (mkTrap 4 wv)
  else if k.opBound o || s.registerOverlap c o then s.trap c (mkTrap 3 wv)
  else if Config.vectorQueueDepth ≤ k.vq.length then s.stall c
  else go (s.vecStart c) q

/-- What the check phase of an access to generic memory finds (R185, R186): the checks of each active position. -/
structure Scan where
  res  : List ((Nat × Nat) × Except Trap Access)

/-- The failing checks. -/
def Scan.traps (z : Scan) : List ((Nat × Nat) × Option Trap) :=
  z.res.map fun e => (e.1, match e.2 with
    | .error t => some t
    | .ok _ => none)

/-- The positions in the columns below `n` that pass, with their accesses. -/
def Scan.oks (z : Scan) (n : Nat) : List ((Nat × Nat) × Access) :=
  z.res.filterMap fun e => match e.2 with
    | .ok a => if e.1.2 < n then some (e.1, a) else none
    | .error _ => none

/-- The check phase of a vector access to generic memory (R184-R186): the walks of its active positions, the checks, the wait
for links that retrain, the trap of column 0; then `go` with the column where a first fault truncates and the accesses of the
columns below it, their translations cached. -/
def State.genericScan (s : State) (c : CtxId) (q : VCfg) (kind : AccKind) (mk : Nat) (addr : Nat → Nat → Word)
    (go : State → Nat → List ((Nat × Nat) × Access) → State) : State :=
  let ag := s.agent c
  let ps := (s.ctx c).activePos q mk
  let vas := ps.map fun p => addr p.1 p.2
  match s.walkReady ag vas q.e with
  | none => (s.holdWalks ag vas q.e).stallBounded c
  | some s0 =>
    let z : Scan := { res := ps.map fun p => (p, s0.checkVec ag kind (addr p.1 p.2) q.e) }
    if s0.vecWaits ag kind (z.traps.filterMap fun e => e.2) then s0.stallBounded c
    else
      let n := (firstBad z.traps).getD q.vl
      match (if n = 0 then trapAt0 z.traps else none) with
      | some t => s0.accessTrap c kind t
      | none => go (s0.fillTlbs ag ((z.oks n).map fun e => (addr e.1.1 e.1.2, e.2))) n (z.oks n)

/-- The accesses whose line carries an uncorrectable error (R187). -/
def State.badAccs (s : State) (die : Nat) (as : List ((Nat × Nat) × Access)) : List ((Nat × Nat) × Access) :=
  as.filter fun e => decide (e.2.place = .hbm) && s.badLine die (lineOf e.2.pa)

/-- The uncorrectable errors that a vector load has met are logged (R500). -/
def State.logBad (s : State) (c : CtxId) (lines : List Nat) : State :=
  lines.foldl (fun t l => t.logLineError (dieField (l * 64)) ((s.ctxid c).toNat % 2 ^ 27) l) s

/-- The loads of an instruction: `val r j` is the element of an active position below the truncation `n`, and positions of
`bad` groups become zero (R186, R187). -/
def Ctx.loadSweep (k : Ctx) (q : VCfg) (d mk n : Nat) (val : Nat → Nat → Nat) (bad : Nat → Nat → Bool) : Ctx :=
  (k.sweepGroup q d q.g q.w q.vlmax q.rows fun r j =>
    if bad r j then some (0, 0)
    else if q.vl ≤ j then (if q.tz ∧ q.vl ≠ 0 then some (0, 0) else none)
    else if n ≤ j then none
    else if k.maskBit mk r j then some (val r j, 0)
    else if q.mz then some (0, 0) else none).1

/-- The value of a position among those that a load has read. -/
def loadedAt (vs : List ((Nat × Nat) × Nat)) (r j : Nat) : Nat :=
  match List.find? (fun e : (Nat × Nat) × Nat => decide (e.1 = (r, j))) vs with
  | some e => e.2
  | none => 0

/-- A load from HBM alone, without an error, may still take what is written until it starts (R352). -/
def Ctx.laterLoad (k : Ctx) (d mk n : Nat) (oks : List ((Nat × Nat) × Access)) (clean : Bool) : Option VLoad :=
  if clean && (hostAccs (oks.map fun e => e.2)).isEmpty then
    some { d := d, mask := mk, form := k.form, vl := k.vl, vrows := k.vrows, n := n, from_ := oks.map fun e => (e.1, e.2.pa) }
  else none

/-- The configuration of a load at its issue. -/
def VLoad.cfg (l : VLoad) (k : Ctx) (pl : Nat) : VCfg := Ctx.vcfg { k with form := l.form, vl := l.vl, vrows := l.vrows } pl

/-- The value of a queued load is fixed as it starts (R352): its positions take what memory holds now.  One whose far lines are
held keeps what it has read. -/
def State.fixLoad (s : State) (c : CtxId) (l : VLoad) : State :=
  let q := l.cfg (s.ctx c) (physLanes (coreOf c))
  match s.readLines (dieOf c) (l.from_.map fun e => lineOf e.2).eraseDups with
  | none => s
  | some s1 =>
    let vs := l.from_.map fun e => (e.1, natOf (s1.view c (dieOf c) e.2 q.e))
    (l.from_.foldl (fun t e => t.noteRead c false e.2 q.e) s1).modCtx c fun k =>
      k.loadSweep q l.d l.mask l.n (loadedAt vs) fun _ _ => false

/-- A vector load from generic memory (R183-R188), with the address of each position. -/
def State.vecLoad (s : State) (c : CtxId) (word : BitVec 32) (d mk : Nat) (index : List Nat) (addr : VCfg → Nat → Nat → Word) :
    State :=
  let g0 := ((s.ctx c).vcfg (physLanes (coreOf c))).g
  let ix := index.map fun n => (n, g0)
  s.memFront c { word := word, srcs := ix, dst := some (d, g0), form := (d, g0) :: ix, old := false, formBad := false,
                 overlap := ix.any fun p => groupsMeet d g0 p.1 p.2 } fun s q =>
    s.genericScan c q .load mk (addr q) fun s0 n oks =>
      let as := oks.map fun e => e.2
      match s0.readAccs c as with
      | none => (s0.holdAccs c as).stallBounded c
      | some s1 =>
        let (s2, ok) := s1.accsReady c as [] [] 0
        if !ok then s2.stallBounded c
        else
          let (s3, due) := s2.hostReads c as q.e
          let vs := oks.map fun e => (e.1, s3.viewAcc c e.2 q.e)
          let errs := s3.badAccs (dieOf c) oks
          let bad (r j : Nat) : Bool := errs.any fun e => decide (e.1.1 = r) && decide (e.1.2 * q.e / 64 = j * q.e / 64)
          let s4 := (((s3.takeReads c as q.e).farTaken c as).logBad c (accLines (errs.map fun e => e.2))).modCtx c fun k =>
            ((k.loadSweep q d mk n (loadedAt vs) bad).truncated n).latched (upFrom d q.g)
          let e := (s4.ctx c).entry q.rows 0 (errs.head?.map fun e => addr q e.1.1 e.1.2) [] (as.map fun a => (a.pa, q.e)) due
          s4.checkPhase c { e with load := (s3.ctx c).laterLoad d mk n oks errs.isEmpty }

/-- A vector store to generic memory (R183-R190). -/
def State.vecStore (s : State) (c : CtxId) (word : BitVec 32) (d mk : Nat) (index : List Nat) (addr : VCfg → Nat → Nat → Word) :
    State :=
  let g0 := ((s.ctx c).vcfg (physLanes (coreOf c))).g
  let ix := index.map fun n => (n, g0)
  s.memFront c { word := word, srcs := (d, g0) :: ix, dst := none, form := (d, g0) :: ix, old := false, formBad := false,
                 overlap := false } fun s q =>
    s.genericScan c q .store mk (addr q) fun s0 n oks =>
      let ws := oks.map fun e => (e.2, bytesOf (elem ((s0.ctx c).groupRow q.rb d q.g e.1.1) q.w e.1.2) q.e)
      let (s1, ok) := s0.storesReady c ws
      if !ok then s1.stallBounded c
      else
        let (s2, ids) := s1.vecWrites c .vector (s1.leftStores c ws)
        let s3 := s2.modCtx c fun k => k.truncated n
        s3.checkPhase c ((s3.ctx c).entry q.rows 0 none ids [] 0)

/-- The pane operand of modes 4, 6 and 7 (R192): its traps, the wait while it fills or drains, or the ready pane. -/
def State.withPane (s : State) (c : CtxId) (xa : Word) (go : Pane → State) : State :=
  let p := (s.core (coreOf c)).panes.toList.getD (bits xa 5 0) Pane.empty
  if !zeroBits xa 63 6 || decide (p.state = 0) then s.trap c (mkTrap 13 xa)
  else if p.owner ≠ s.did c then s.trap c (mkTrap 10 xa)
  else if p.state ≠ 2 then s.stall c
  else go p

/-- The check of a position of a lane-local access (R193): its trap.  R389 gives the failing address, and such a position has none:
the trap value is the offset in the pane that its index gives, without the pane's BASE (log entry 17). -/
def State.paneCheck (s : State) (c : CtxId) (p : Pane) (off e : Nat) : Option Trap :=
  let v := BitVec.ofNat 64 off
  if off % e ≠ 0 then some (mkTrap 5 v)
  else if p.size < off + e then some (mkTrap 13 v)
  else if s.bankDid (coreOf c) (p.base + off) ≠ s.did c ∨ s.bankDid (coreOf c) (p.base + off + e - 1) ≠ s.did c then
    some (mkTrap 10 v)
  else none

/-- A lane-local load, VLDL (R191-R193). -/
def State.laneLoad (s : State) (c : CtxId) (word : BitVec 32) (d a b : BitVec 5) (mk : Nat) : State :=
  let g0 := ((s.ctx c).vcfg (physLanes (coreOf c))).g
  s.memFront c { word := word, srcs := [(b.toNat, g0)], dst := some (d.toNat, g0), form := [(d.toNat, g0), (b.toNat, g0)],
                 old := false, formBad := false, overlap := groupsMeet d.toNat g0 b.toNat g0 } fun s q =>
    let k := s.ctx c
    s.withPane c (k.rx a) fun p =>
      let off (r j : Nat) : Nat := elem (k.groupRow q.rb b.toNat q.g r) q.w j
      let res := (k.activePos q mk).map fun z => (z, s.paneCheck c p (off z.1 z.2) q.e)
      let n := (firstBad res).getD q.vl
      match (if n = 0 then trapAt0 res else none) with
      | some t => s.trap c t
      | none =>
        let val (r j : Nat) : Nat := natOf (s.spadRead (coreOf c) (k.physLane q j) (p.base + off r j) q.e)
        let s1 := s.modCtx c fun k =>
          ((k.loadSweep q d.toNat mk n val fun _ _ => false).truncated n).latched (upFrom d.toNat q.g)
        s1.checkPhase c ((s1.ctx c).entry q.rows 0 none [] [] 0)

/-- A lane-local store or atomic, VSTL, VSAADD and VSAMAX (R192, R193, R195): `new` gives the bytes from the old ones and the
data, in ascending (r, j) order. -/
def State.laneStore (s : State) (c : CtxId) (word : BitVec 32) (d a b : BitVec 5) (mk : Nat) (atomic : Bool)
    (new : Nat → Nat → Nat → Nat) : State :=
  let q0 := (s.ctx c).vcfg (physLanes (coreOf c))
  s.memFront c { word := word, srcs := [(d.toNat, q0.g), (b.toNat, q0.g)], dst := none,
                 form := [(d.toNat, q0.g), (b.toNat, q0.g)], old := false, formBad := atomic && decide (q0.ew = 3),
                 overlap := false } fun s q =>
    let k := s.ctx c
    s.withPane c (k.rx a) fun p =>
      let off (r j : Nat) : Nat := elem (k.groupRow q.rb b.toNat q.g r) q.w j
      let ps := k.activePos q mk
      let res := ps.map fun z => (z, s.paneCheck c p (off z.1 z.2) q.e)
      let n := (firstBad res).getD q.vl
      match (if n = 0 then trapAt0 res else none) with
      | some t => s.trap c t
      | none =>
        let s1 := ps.foldl (fun t z =>
          if z.2 < n then
            let o := p.base + off z.1 z.2
            let lane := k.physLane q z.2
            let x := elem (k.groupRow q.rb d.toNat q.g z.1) q.w z.2
            t.spadWrite (coreOf c) lane o (bytesOf (new q.w (natOf (t.spadRead (coreOf c) lane o q.e)) x) q.e)
          else t) s
        let s2 := s1.modCtx c fun k => k.truncated n
        s2.checkPhase c ((s2.ctx c).entry q.rows 0 none [] [] 0)

/-- The core that an index of a remote access names (R194). -/
def remoteCore (c : CtxId) (idx : Nat) : CoreId := dieOf c * 64 + idx / 2 ^ 26 % 64

/-- May a remote position be accessed (R194)? -/
def State.remoteOk (s : State) (c : CtxId) (idx : Nat) : Bool :=
  let core := remoteCore c idx
  let off := idx % 2 ^ 26
  !(s.core core).harv && decide ((s.core core).spsz ≠ 0) && decide (off % 4 = 0) &&
    decide (off + 4 ≤ s.sliceSize core) && decide (s.bankDid core off = s.did c)

/-- The fault mask of a remote access (R194): every bit of rows below VROWS and j < vlmax, also with VL = 0 (log entry 20). -/
def Ctx.faultMask (k : Ctx) (q : VCfg) (fm : Nat) (fails : Nat → Nat → Bool) : Ctx :=
  (k.sweepMask fm q.vlmax q.rows fun r j => some (b2n (fails r j), 0)).1

/-- VLDR (R194): a failing position is not accessed, and is marked in m[fm]. -/
def State.remoteLoad (s : State) (c : CtxId) (word : BitVec 32) (d b : BitVec 5) (mk fm : Nat) : State :=
  let q0 := (s.ctx c).vcfg (physLanes (coreOf c))
  s.memFront c { word := word, srcs := [(b.toNat, q0.g)], dst := some (d.toNat, q0.g),
                 form := [(d.toNat, q0.g), (b.toNat, q0.g)], old := false, formBad := decide (q0.ew ≠ 2),
                 overlap := groupsMeet d.toNat q0.g b.toNat q0.g } fun s q =>
    let k := s.ctx c
    let idx (r j : Nat) : Nat := elem (k.groupRow q.rb b.toNat q.g r) q.w j
    let act (r j : Nat) : Bool := decide (j < q.vl) && k.maskBit mk r j
    let fails (r j : Nat) : Bool := act r j && !s.remoteOk c (idx r j)
    let k1 := (k.sweepGroup q d.toNat q.g q.w q.vlmax q.rows fun r j =>
      if fails r j then none
      else k.fate q mk (fun r j => noFl (natOf (s.spadRead (remoteCore c (idx r j)) (k.physLane q j) (idx r j % 2 ^ 26) 4))) r j).1
    let s1 := s.setCtx c ((k1.faultMask q fm fails).latched (upFrom d.toNat q.g))
    s1.checkPhase c ((s1.ctx c).entry q.rows 0 none [] [] 0)

/-- VSTR (R194). -/
def State.remoteStore (s : State) (c : CtxId) (word : BitVec 32) (d b : BitVec 5) (mk fm : Nat) : State :=
  let q0 := (s.ctx c).vcfg (physLanes (coreOf c))
  s.memFront c { word := word, srcs := [(d.toNat, q0.g), (b.toNat, q0.g)], dst := none,
                 form := [(d.toNat, q0.g), (b.toNat, q0.g)], old := false, formBad := decide (q0.ew ≠ 2),
                 overlap := false } fun s q =>
    let k := s.ctx c
    let idx (r j : Nat) : Nat := elem (k.groupRow q.rb b.toNat q.g r) q.w j
    let fails (r j : Nat) : Bool := decide (j < q.vl) && k.maskBit mk r j && !s.remoteOk c (idx r j)
    let s1 := (k.activePos q mk).foldl (fun t z =>
      if fails z.1 z.2 then t
      else t.spadWrite (remoteCore c (idx z.1 z.2)) (k.physLane q z.2) (idx z.1 z.2 % 2 ^ 26)
        (bytesOf (elem (k.groupRow q.rb d.toNat q.g z.1) q.w z.2) 4)) s
    let s2 := s1.modCtx c fun k => k.faultMask q fm fails
    s2.checkPhase c ((s2.ctx c).entry q.rows 0 none [] [] 0)

/-! Save images (R197). -/

/-- Bytes of a save image (R197). -/
def imageSize : Nat := 299008

/-- The image offset of lane l of row r of v[n]. -/
def imageV (n r l : Nat) : Nat := 0x1000 + 0x2000 * n + 0x400 * r + 64 * l

/-- The image offset of 64-byte block b of row r of m[i]. -/
def imageM (i r b : Nat) : Nat := 0x41000 + 0x1000 * i + 0x200 * r + 64 * b

/-- The 64 bytes of lane l of row r of v[n]. -/
def Ctx.laneBytes (k : Ctx) (n r l : Nat) : List Byte := bytesOf (sliceNat (k.vreg n r) (512 * l) 512) 64

/-- Write the 64 bytes of lane l of row r of v[n]. -/
def Ctx.setLane (k : Ctx) (n r l : Nat) (bs : List Byte) : Ctx :=
  k.setVreg n r (putSlice (k.vreg n r) (512 * l) 512 (natOf bs))

/-- The 64 bytes of block b of row r of m[i]. -/
def Ctx.maskBytes (k : Ctx) (i r b : Nat) : List Byte := bytesOf (sliceNat (k.mrow i r) (512 * b) 512) 64

/-- Write block b of row r of m[i]. -/
def Ctx.setMask (k : Ctx) (i r b : Nat) (bs : List Byte) : Ctx :=
  k.setMrow i r (putSlice (k.mrow i r) (512 * b) 512 (natOf bs))

/-- The header of an image (R197): LANES, VROWS, E, the quarters written, zeros. -/
def imageHeader (lanes rows e : Nat) (marks : BitVec 128) : List Byte :=
  bytesOf lanes 8 ++ bytesOf rows 8 ++ bytesOf e 8 ++ bytesOf marks.toNat 16 ++ List.replicate 4056 0

/-- Cut a byte string into 64-byte blocks at rising offsets. -/
def blocks64 (off : Nat) : Nat → List Byte → List (Nat × List Byte)
  | 0, _ => []
  | n + 1, bs => (off, bs.take 64) :: blocks64 (off + 64) n (bs.drop 64)

/-- All triples (register, row, lane) of the lanes that `sel` picks, lanes `lo` to `hi - 1`, in image order. -/
def lanePlaces (lo hi : Nat) : List (Nat × Nat × Nat) :=
  (upFrom 0 32).flatMap fun n => (upFrom 0 8).flatMap fun r => (upFrom lo (hi - lo)).map fun l => (n, r, l)

/-- The mask blocks of an image, blocks `lo` to `hi - 1` of each row. -/
def maskPlaces (lo hi : Nat) : List (Nat × Nat × Nat) :=
  (upFrom 0 8).flatMap fun i => (upFrom 0 8).flatMap fun r => (upFrom lo (hi - lo)).map fun b => (i, r, b)

/-- Is the quarter of lane l of v[n] dirty? -/
def Ctx.laneDirty (k : Ctx) (q : VCfg) (n l : Nat) : Bool := k.dirty.getLsbD (n * 4 + 64 * l / q.qb)

/-- The extent E of VSAVE (R198). -/
def VCfg.extent (q : VCfg) : Nat := min q.rb (roundUp (q.vl * q.e) 64)

/-- Zero the 64 bytes of lane l of row r of v[n]: an element group that the instruction writes (R153). -/
def Ctx.zeroLane (k : Ctx) (n r l : Nat) : Ctx :=
  { k.setLane n r l (List.replicate 64 0) with wrote := k.wrote ||| BitVec.twoPow 4096 (groupPos n r + l) }

/-- VSAVE zeroes what it saves as zero (R198). -/
def Ctx.afterSave (k : Ctx) (q : VCfg) : Ctx :=
  let k1 := (lanePlaces 0 k.lanes).foldl (fun t p =>
    if k.laneDirty q p.1 p.2.2 && (decide (q.rows ≤ p.2.1) || decide (q.extent ≤ 64 * p.2.2)) then
      t.zeroLane p.1 p.2.1 p.2.2
    else t) k
  { k1 with dirty := 0 }

/-- The blocks that VSAVE writes (R198): dirty quarters, masks in full, the header. -/
def Ctx.saveBlocks (k : Ctx) (q : VCfg) : List (Nat × List Byte) :=
  let k1 := k.afterSave q
  (((lanePlaces 0 k.lanes).filter fun p => k.laneDirty q p.1 p.2.2).map fun p =>
      (imageV p.1 p.2.1 p.2.2, k1.laneBytes p.1 p.2.1 p.2.2)) ++
    ((maskPlaces 0 (k.lanes / 2)).map fun p => (imageM p.1 p.2.1 p.2.2, k.maskBytes p.1 p.2.1 p.2.2)) ++
    blocks64 0 64 (imageHeader k.lanes q.rows q.extent k.dirty)

/-- The accesses of an image's lines in order, or the trap of the first line that fails (R200). -/
def State.imageCheck (s : State) (ag : Agent) (kind : AccKind) (va : Word) : Nat → Except Trap (List Access)
  | 0 => .ok []
  | n + 1 =>
    match s.checkVec ag kind va 64 with
    | .error t => .error t
    | .ok a => match State.imageCheck s ag kind (va + 64) n with
      | .error t => .error t
      | .ok as => .ok (a :: as)

/-- An access that stands for no line of an image; never used. -/
def Access.none : Access :=
  { pa := 0, place := .nothing,
    xl := { pa := 0, size := 1, st1 := false, st2 := false, g := false, r1 := false, w1 := false, x1 := false, u1 := false,
            r2 := false, w2 := false, x2 := false, sh := false } }

/-- The front of VSAVE and VREST (R136, R200): form_mismatch where VL exceeds vlmax (log entry 51), a place in the queue, the
alignment, the walks and checks of every line of the image; then `go` with the accesses of the lines. -/
def State.imageFront (s : State) (c : CtxId) (word : BitVec 32) (kind : AccKind) (va : Word)
    (go : State → VCfg → List Access → State) : State :=
  let q := (s.ctx c).vcfg (physLanes (coreOf c))
  let ag := s.agent c
  let vas := (upFrom 0 (imageSize / 64)).map fun i => va + BitVec.ofNat 64 (64 * i)
  if q.vlmax < q.vl then s.trap c (mkTrap 4 (word.zeroExtend 64))
  else if Config.vectorQueueDepth ≤ (s.ctx c).vq.length then s.stall c
  else if va.toNat % 4096 ≠ 0 then s.trap c (mkTrap 5 va)
  else match s.walkReady ag vas 64 with
    | none => (s.holdWalks ag vas 64).stallBounded c
    | some s0 =>
      match s0.imageCheck ag kind va (imageSize / 64) with
      | .error t => if s0.vecWaits ag kind [t] then s0.stallBounded c else s0.accessTrap c kind t
      | .ok as => go ((s0.fillTlbs ag (vas.zip as)).vecStart c) q as

/-- The access of the image line that holds an offset. -/
def imageAcc (as : List Access) (off : Nat) : Access := as.getD (off / 64) Access.none

/-- VSAVE (R197, R198, R200). -/
def State.vecSave (s : State) (c : CtxId) (word : BitVec 32) (va : Word) : State :=
  s.imageFront c word .store va fun s0 q as =>
    let bs := ((s0.ctx c).saveBlocks q).map fun b => (imageAcc as b.1, b.2)
    let (s1, ok) := s0.storesReady c bs
    if !ok then s1.stallBounded c
    else
      let (s2, ids) := s1.vecWrites c .vector (s1.leftStores c bs)
      let s3 := s2.modCtx c fun k => k.afterSave q
      s3.checkPhase c ((s3.ctx c).entry 8 0 none ids [] 0)

/-- The registers after the bytes of an image have been loaded, by image offset (R199). -/
def Ctx.loadImage (k : Ctx) (rd : Nat → List Byte) (lo hi : Nat) : Ctx :=
  let k1 := (lanePlaces lo hi).foldl (fun t p => t.setLane p.1 p.2.1 p.2.2 (rd (imageV p.1 p.2.1 p.2.2))) k
  (maskPlaces (lo / 2) (hi / 2)).foldl (fun t p => t.setMask p.1 p.2.1 p.2.2 (rd (imageM p.1 p.2.1 p.2.2))) k1

/-- The offsets of the image blocks that a context with `lanes` lanes reads (R197): those within its rowbytes. -/
def imageReads (lanes : Nat) : List Nat :=
  (lanePlaces 0 lanes).map (fun p => imageV p.1 p.2.1 p.2.2) ++ (maskPlaces 0 (lanes / 2)).map fun p => imageM p.1 p.2.1 p.2.2

/-- The arrival bits of every element group of a context with `lanes` lanes (R199). -/
def allGroups (lanes : Nat) : BitVec 4096 := (upFrom 0 256).foldl (fun b i => putSlice b (16 * i) 16 (2 ^ lanes - 1)) 0

/-- VREST (R199, R200): an image line with an uncorrectable error loads as zero and leaves a machine check (R187).  The comparison of
LANES takes the bytes of the header line as they stand, also with such an error, and logs none: R187 speaks of active positions
alone (log entry 61). -/
def State.vecRestore (s : State) (c : CtxId) (word : BitVec 32) (va : Word) : State :=
  s.imageFront c word .load va fun s0 _ as =>
    let k := s0.ctx c
    if s0.viewAcc c (imageAcc as 0) 8 ≠ k.lanes then s0.trap c (mkTrap 4 (word.zeroExtend 64))
    else
      let offs := imageReads k.lanes
      let used := imageAcc as 0 :: offs.map (imageAcc as)
      match s0.readAccs c used with
      | none => (s0.holdAccs c used).stallBounded c
      | some s1 =>
        let (s2, ok) := s1.accsReady c used [] [] 0
        if !ok then s2.stallBounded c
        else
          let (s3, due) := s2.hostReads c used 64
          let bad (a : Access) : Bool := decide (a.place = .hbm) && s.badLine (dieOf c) (lineOf a.pa)
          let rd (off : Nat) : List Byte :=
            if bad (imageAcc as off) then List.replicate 64 0 else bytesOf (s3.viewAcc c (imageAcc as off) 64) 64
          let errs := offs.filter fun o => bad (imageAcc as o)
          let s4 := (((s3.takeReads c used 64).farTaken c used).logBad c (accLines (errs.map (imageAcc as)))).modCtx c fun k =>
            { k.loadImage rd 0 k.lanes with dirty := 0, wrote := allGroups k.lanes }
          s4.checkPhase c ((s4.ctx c).entry 8 0 ((errs.foldl (fun m o => match m with
            | none => some o
            | some x => some (Nat.min x o)) none).map fun o => va + BitVec.ofNat 64 o) []
            (used.map fun a => (a.pa, 64)) due)

/-! The address of a position in modes 0 to 3 (R183). -/

/-- Mode 0. -/
def addrUnit (base : Word) (q : VCfg) (r j : Nat) : Word := base + BitVec.ofNat 64 ((r * q.vl + j) * q.e)

/-- Mode 1. -/
def addrStride (base st : Word) (q : VCfg) (r j : Nat) : Word := base + BitVec.ofNat 64 (r * q.vl + j) * st

/-- Mode 2. -/
def addrTwo (base st0 st1 : Word) (_ : VCfg) (r j : Nat) : Word := base + BitVec.ofNat 64 r * st0 + BitVec.ofNat 64 j * st1

/-- Mode 3. -/
def addrIndex (k : Ctx) (base : Word) (n : Nat) (q : VCfg) (r j : Nat) : Word :=
  base + BitVec.ofNat 64 (elem (k.groupRow q.rb n q.g r) q.w j)

/-- VLD (R186): Unit-stride vector load with check phase and first-fault truncation. -/
def execVld (d a : BitVec 5) (m : BitVec 3) (s : State) : Res :=
  .next (s.issue (encVld d a m) fun c k s => s.vecLoad c (encVld d a m) d.toNat m.toNat [] (addrUnit (k.rx a)))

/-- VLDS (R186): Strided vector load. -/
def execVlds (d a b : BitVec 5) (m : BitVec 3) (s : State) : Res :=
  .next (s.issue (encVlds d a b m) fun c k s =>
    s.vecLoad c (encVlds d a b m) d.toNat m.toNat [] (addrStride (k.rx a) (k.rx b)))

/-- VLD2 (R186): Two-dimensional strided vector load. -/
def execVld2 (d a b : BitVec 5) (m : BitVec 3) (s : State) : Res :=
  .next (s.issue (encVld2 d a b m) fun c k s =>
    s.vecLoad c (encVld2 d a b m) d.toNat m.toNat [] (addrTwo (k.rx a) (k.rx b) (k.rx (b + 1))))

/-- VLDX (R186): Indexed vector load. -/
def execVldx (d a b : BitVec 5) (m : BitVec 3) (s : State) : Res :=
  .next (s.issue (encVldx d a b m) fun c k s =>
    s.vecLoad c (encVldx d a b m) d.toNat m.toNat [b.toNat] (addrIndex k (k.rx a) b.toNat))

/-- VLDL (R192): Lane-local scratchpad load from a pane. -/
def execVldl (d a b : BitVec 5) (m : BitVec 3) (s : State) : Res :=
  .next (s.issue (encVldl d a b m) fun c _ s => s.laneLoad c (encVldl d a b m) d a b m.toNat)

/-- VLDR (R194): Remote scratchpad load on the same die, writing a fault mask. -/
def execVldr (d b : BitVec 5) (m f : BitVec 3) (s : State) : Res :=
  .next (s.issue (encVldr d b m f) fun c _ s => s.remoteLoad c (encVldr d b m f) d b m.toNat f.toNat)

/-- VREST (R199): Restores the vector state from a save image. -/
def execVrest (a : BitVec 5) (s : State) : Res :=
  .next (s.issue (encVrest a) fun c k s => s.vecRestore c (encVrest a) (k.rx a))

/-- VST (R186): Unit-stride vector store. -/
def execVst (d a : BitVec 5) (m : BitVec 3) (s : State) : Res :=
  .next (s.issue (encVst d a m) fun c k s => s.vecStore c (encVst d a m) d.toNat m.toNat [] (addrUnit (k.rx a)))

/-- VSTS (R186): Strided vector store. -/
def execVsts (d a b : BitVec 5) (m : BitVec 3) (s : State) : Res :=
  .next (s.issue (encVsts d a b m) fun c k s =>
    s.vecStore c (encVsts d a b m) d.toNat m.toNat [] (addrStride (k.rx a) (k.rx b)))

/-- VST2 (R186): Two-dimensional strided vector store. -/
def execVst2 (d a b : BitVec 5) (m : BitVec 3) (s : State) : Res :=
  .next (s.issue (encVst2 d a b m) fun c k s =>
    s.vecStore c (encVst2 d a b m) d.toNat m.toNat [] (addrTwo (k.rx a) (k.rx b) (k.rx (b + 1))))

/-- VSTX (R186): Indexed vector store; the last duplicate wins. -/
def execVstx (d a b : BitVec 5) (m : BitVec 3) (s : State) : Res :=
  .next (s.issue (encVstx d a b m) fun c k s =>
    s.vecStore c (encVstx d a b m) d.toNat m.toNat [b.toNat] (addrIndex k (k.rx a) b.toNat))

/-- VSTL (R192): Lane-local scratchpad store to a pane. -/
def execVstl (d a b : BitVec 5) (m : BitVec 3) (s : State) : Res :=
  .next (s.issue (encVstl d a b m) fun c _ s => s.laneStore c (encVstl d a b m) d a b m.toNat false fun _ _ x => x)

/-- VSTR (R194): Remote scratchpad store on the same die, writing a fault mask. -/
def execVstr (d b : BitVec 5) (m f : BitVec 3) (s : State) : Res :=
  .next (s.issue (encVstr d b m f) fun c _ s => s.remoteStore c (encVstr d b m f) d b m.toNat f.toNat)

/-- VSAADD (R195): Lane-local indivisible scratchpad add. -/
def execVsaadd (d a b : BitVec 5) (m : BitVec 3) (s : State) : Res :=
  .next (s.issue (encVsaadd d a b m) fun c _ s =>
    s.laneStore c (encVsaadd d a b m) d a b m.toNat true fun w old x => (old + x) % 2 ^ w)

/-- VSAMAX (R195): Lane-local indivisible scratchpad signed maximum. -/
def execVsamax (d a b : BitVec 5) (m : BitVec 3) (s : State) : Res :=
  .next (s.issue (encVsamax d a b m) fun c _ s =>
    s.laneStore c (encVsamax d a b m) d a b m.toNat true fun w old x => if sw w old < sw w x then x else old)

/-- VSAVE (R198): Saves the dirty quarters and the masks to an image. -/
def execVsave (a : BitVec 5) (s : State) : Res := .next (s.issue (encVsave a) fun c k s => s.vecSave c (encVsave a) (k.rx a))

end Sys2Proof.Machine
end

