-- ==== Sys2Proof/Machine/VecPerm.lean ====
section
/-! DEFINITION. Mask and permute instructions (R201-R209). -/

namespace Sys2Proof.Machine

/-- The operation descriptor of an instruction on masks only. -/
def maskOp (word : BitVec 32) : VOp :=
  { word := word, srcs := [], dst := none, form := [], old := false, formBad := false, overlap := false }

/-- The effect of a mask operation (R202): bit by bit over the active positions. -/
def maskEff (d a b : Nat) (op : Bool → Bool → Bool) (q : VCfg) (k : Ctx) : Ctx × BitVec 5 :=
  k.sweepMask d q.vlmax q.rows
    (k.fate q 0 fun r j => noFl (b2n (op ((k.mrow a r).getLsbD j) ((k.mrow b r).getLsbD j))))

/-- A mask operation (R202). -/
def State.vecMask (s : State) (c : CtxId) (word : BitVec 32) (d a b : Nat) (op : Bool → Bool → Bool) : State :=
  s.vecIssue c (maskOp word) (maskEff d a b op)

/-- The one bits of m[a] at r < VROWS and j < VL, in ascending order, as r x VL + j (R203). -/
def Ctx.maskOnes (k : Ctx) (q : VCfg) (a : Nat) : List Nat :=
  (upFrom 0 q.rows).flatMap fun r => ((upFrom 0 q.vl).filter fun j => (k.mrow a r).getLsbD j).map fun j => r * q.vl + j

/-- The one bits of a mask row below position j. -/
def Ctx.onesBelow (k : Ctx) (a r j : Nat) : Nat := popcount ((k.mrow a r).toNat % 2 ^ j) j

/-- The checks of a permutation (R136, R204-R208): where `apart`, the destination may not meet a source. -/
def permOp (word : BitVec 32) (g d : Nat) (srcs : List Nat) (apart : Bool) : VOp :=
  let ss := srcs.map fun n => (n, g)
  { word := word, srcs := ss, dst := some (d, g), form := (d, g) :: ss, old := false, formBad := false,
    overlap := apart && ss.any fun p => groupsMeet d g p.1 p.2 }

/-- The effect of a permutation: what each position becomes. -/
def permEff (d : Nat) (f : VCfg → Ctx → Nat → Nat → Option (Nat × BitVec 5)) (q : VCfg) (k : Ctx) : Ctx × BitVec 5 :=
  k.sweepGroup q d q.g q.w q.vlmax q.rows (f q k)

/-- A permutation (R204-R208). -/
def State.vecPerm (s : State) (c : CtxId) (word : BitVec 32) (d : BitVec 5) (srcs : List Nat) (apart : Bool)
    (f : VCfg → Ctx → Nat → Nat → Option (Nat × BitVec 5)) : State :=
  s.vecIssue c (permOp word ((s.ctx c).vcfg (physLanes (coreOf c))).g d.toNat srcs apart) (permEff d.toNat f)

/-- Element (r, j) of a group of the context (R134). -/
def Ctx.at (k : Ctx) (q : VCfg) (n r j : Nat) : Nat := elem (k.groupRow q.rb n q.g r) q.w j

/-- SLIDEUP (R205). -/
def slideUp (off a mk : Nat) (q : VCfg) (k : Ctx) (r j : Nat) : Option (Nat × BitVec 5) :=
  if j < q.vl ∧ k.maskBit mk r j = true ∧ j < off then none
  else k.fate q mk (fun r j => noFl (k.at q a r (j - off))) r j

/-- SLIDEDN (R205). -/
def slideDown (off a mk : Nat) (q : VCfg) (k : Ctx) (r j : Nat) : Option (Nat × BitVec 5) :=
  k.fate q mk (fun r j => noFl (if j + off < q.vl then k.at q a r (j + off) else 0)) r j

/-- VGATHER (R206). -/
def gatherEl (a b mk : Nat) (q : VCfg) (k : Ctx) (r j : Nat) : Option (Nat × BitVec 5) :=
  k.fate q mk (fun r j => noFl (let i := k.at q b r j; if i < q.vl then k.at q a r i else 0)) r j

/-- The position of the n-th one bit of a mask row below VL, counted from zero. -/
def Ctx.nthOne (k : Ctx) (q : VCfg) (mk r n : Nat) : Option Nat :=
  ((upFrom 0 q.vl).filter fun j => (k.mrow mk r).getLsbD j)[n]?

/-- COMPRESS (R207). -/
def compressEl (a mk : Nat) (q : VCfg) (k : Ctx) (r j : Nat) : Option (Nat × BitVec 5) :=
  match k.nthOne q mk r j with
  | some i => some (noFl (k.at q a r i))
  | none => if q.tz ∧ q.vl ≠ 0 then some (0, 0) else none

/-- EXPAND (R207). -/
def expandEl (a mk : Nat) (q : VCfg) (k : Ctx) (r j : Nat) : Option (Nat × BitVec 5) :=
  k.fate q mk (fun r j => noFl (k.at q a r (k.onesBelow mk r j))) r j

/-- ROWBC (R208). -/
def rowBcast (row a mk : Nat) (q : VCfg) (k : Ctx) (r j : Nat) : Option (Nat × BitVec 5) :=
  k.fate q mk (fun _ j => noFl (k.at q a row j)) r j

/-- ROWROT (R208). -/
def rowRotate (n a mk : Nat) (q : VCfg) (k : Ctx) (r j : Nat) : Option (Nat × BitVec 5) :=
  k.fate q mk (fun r j => noFl (k.at q a ((r + n) % q.rows) j)) r j

/-- IOTA (R204). -/
def iotaEl (a : Nat) (q : VCfg) (k : Ctx) (r j : Nat) : Option (Nat × BitVec 5) :=
  k.fate q 0 (fun r j => noFl (k.onesBelow a r j)) r j

/-- VID (R204). -/
def vidEl (q : VCfg) (k : Ctx) (r j : Nat) : Option (Nat × BitVec 5) := k.fate q 0 (fun _ j => noFl j) r j

/-- The position (r, j) that an x register names (R209). -/
def posOf (x : Word) : Nat × Nat := (bits x 18 16, bits x 12 0)

/-- The effect of VMVS (R209): one position of any row becomes the value. -/
def insertEff (d : Nat) (v x : Word) (q : VCfg) (k : Ctx) : Ctx × BitVec 5 :=
  k.sweepGroup q d q.g q.w q.vlmax 8 fun r j => if (r, j) = posOf x then some (noFl v.toNat) else none

/-- VMVS (R209). -/
def State.vecInsert (s : State) (c : CtxId) (word : BitVec 32) (d : BitVec 5) (v x : Word) : State :=
  s.vecIssue c (permOp word ((s.ctx c).vcfg (physLanes (coreOf c))).g d.toNat [] false) (insertEff d.toNat v x)

/-- VMVX (R209): one element, sign-extended.  VMVX and VMVS take form_mismatch where VL exceeds vlmax, although they ignore VL
(R136; log entry 51). -/
def State.vecExtract (s : State) (c : CtxId) (word : BitVec 32) (d a : BitVec 5) (x : Word) : State :=
  let g0 := ((s.ctx c).vcfg (physLanes (coreOf c))).g
  s.vecScalar c { word := word, srcs := [(a.toNat, g0)], dst := none, form := [(a.toNat, g0)], old := false,
                  formBad := false, overlap := false } d
    fun q k => if (posOf x).2 < q.vlmax then sext64 q.w (k.at q a.toNat (posOf x).1 (posOf x).2) else 0

/-- MAND (R202): Mask AND. -/
def execMand (d a b : BitVec 5) (s : State) : Res :=
  .next (s.issue (encMand d a b) fun c _ s => s.vecMask c (encMand d a b) d.toNat a.toNat b.toNat (· && ·))

/-- MOR (R202): Mask OR. -/
def execMor (d a b : BitVec 5) (s : State) : Res :=
  .next (s.issue (encMor d a b) fun c _ s => s.vecMask c (encMor d a b) d.toNat a.toNat b.toNat (· || ·))

/-- MXOR (R202): Mask XOR. -/
def execMxor (d a b : BitVec 5) (s : State) : Res :=
  .next (s.issue (encMxor d a b) fun c _ s => s.vecMask c (encMxor d a b) d.toNat a.toNat b.toNat xor)

/-- MNOT (R202): Mask NOT. -/
def execMnot (d a : BitVec 5) (s : State) : Res :=
  .next (s.issue (encMnot d a) fun c _ s => s.vecMask c (encMnot d a) d.toNat a.toNat 0 fun x _ => !x)

/-- MPOPC (R203): Counts the active 1 bits of a mask into x[d]. -/
def execMpopc (d a : BitVec 5) (s : State) : Res :=
  .next (s.issue (encMpopc d a) fun c _ s =>
    s.vecScalar c (maskOp (encMpopc d a)) d fun q t => BitVec.ofNat 64 (t.maskOnes q a.toNat).length)

/-- MFIRST (R203): Writes the index of the first active 1 bit of a mask to x[d]. -/
def execMfirst (d a : BitVec 5) (s : State) : Res :=
  .next (s.issue (encMfirst d a) fun c _ s =>
    s.vecScalar c (maskOp (encMfirst d a)) d fun q t => match (t.maskOnes q a.toNat) with
      | p :: _ => BitVec.ofNat 64 p
      | [] => BitVec.allOnes 64)

/-- IOTA (R204): Writes the prefix counts of mask bits. -/
def execIota (d a : BitVec 5) (s : State) : Res :=
  .next (s.issue (encIota d a) fun c _ s => s.vecPerm c (encIota d a) d [] false (iotaEl a.toNat))

/-- VID (R204): Writes the element index j. -/
def execVid (d : BitVec 5) (s : State) : Res :=
  .next (s.issue (encVid d) fun c _ s => s.vecPerm c (encVid d) d [] false vidEl)

/-- SLIDEUP_X (R205): Slides a row up by x[b]. -/
def execSlideupX (d a b : BitVec 5) (m : BitVec 3) (s : State) : Res :=
  .next (s.issue (encSlideupX d a b m) fun c k s =>
    s.vecPerm c (encSlideupX d a b m) d [a.toNat] true (slideUp (k.rx b).toNat a.toNat m.toNat))

/-- SLIDEDN_X (R205): Slides a row down by x[b]. -/
def execSlidednX (d a b : BitVec 5) (m : BitVec 3) (s : State) : Res :=
  .next (s.issue (encSlidednX d a b m) fun c k s =>
    s.vecPerm c (encSlidednX d a b m) d [a.toNat] true (slideDown (k.rx b).toNat a.toNat m.toNat))

/-- SLIDEUP_I (R205): Slides a row up by an immediate. -/
def execSlideupI (d a i : BitVec 5) (m : BitVec 3) (s : State) : Res :=
  .next (s.issue (encSlideupI d a i m) fun c _ s =>
    s.vecPerm c (encSlideupI d a i m) d [a.toNat] true (slideUp i.toNat a.toNat m.toNat))

/-- SLIDEDN_I (R205): Slides a row down by an immediate. -/
def execSlidednI (d a i : BitVec 5) (m : BitVec 3) (s : State) : Res :=
  .next (s.issue (encSlidednI d a i m) fun c _ s =>
    s.vecPerm c (encSlidednI d a i m) d [a.toNat] true (slideDown i.toNat a.toNat m.toNat))

/-- VGATHER (R206): Gathers within each row by an index vector. -/
def execVgather (d a b : BitVec 5) (m : BitVec 3) (l : BitVec 1) (s : State) : Res :=
  .next (s.issue (encVgather d a b m l) fun c k s =>
    (let n := k.bNum b l; s.vecPerm c (encVgather d a b m l) d [a.toNat, n] true (gatherEl a.toNat n m.toNat)))

/-- COMPRESS (R207): Packs the selected elements of each row to the front. -/
def execCompress (d a : BitVec 5) (m : BitVec 3) (s : State) : Res :=
  .next (s.issue (encCompress d a m) fun c _ s =>
    s.vecPerm c (encCompress d a m) d [a.toNat] true (compressEl a.toNat m.toNat))

/-- EXPAND (R207): Spreads consecutive elements to the selected positions. -/
def execExpand (d a : BitVec 5) (m : BitVec 3) (s : State) : Res :=
  .next (s.issue (encExpand d a m) fun c _ s =>
    s.vecPerm c (encExpand d a m) d [a.toNat] true (expandEl a.toNat m.toNat))

/-- ROWBC_X (R208): Broadcasts row x[b] mod 8 to every row. -/
def execRowbcX (d a b : BitVec 5) (m : BitVec 3) (s : State) : Res :=
  .next (s.issue (encRowbcX d a b m) fun c k s =>
    s.vecPerm c (encRowbcX d a b m) d [a.toNat] true (rowBcast (bits (k.rx b) 2 0) a.toNat m.toNat))

/-- ROWROT_X (R208): Rotates rows by x[b] mod 8. -/
def execRowrotX (d a b : BitVec 5) (m : BitVec 3) (s : State) : Res :=
  .next (s.issue (encRowrotX d a b m) fun c k s =>
    s.vecPerm c (encRowrotX d a b m) d [a.toNat] true (rowRotate (bits (k.rx b) 2 0) a.toNat m.toNat))

/-- ROWBC_I (R208): Broadcasts an immediate-selected row. -/
def execRowbcI (d a : BitVec 5) (i m : BitVec 3) (s : State) : Res :=
  .next (s.issue (encRowbcI d a i m) fun c _ s =>
    s.vecPerm c (encRowbcI d a i m) d [a.toNat] true (rowBcast i.toNat a.toNat m.toNat))

/-- ROWROT_I (R208): Rotates rows by an immediate. -/
def execRowrotI (d a : BitVec 5) (i m : BitVec 3) (s : State) : Res :=
  .next (s.issue (encRowrotI d a i m) fun c _ s =>
    s.vecPerm c (encRowrotI d a i m) d [a.toNat] true (rowRotate i.toNat a.toNat m.toNat))

/-- VMVX (R209): Moves one vector element to x[d]. -/
def execVmvx (d a b : BitVec 5) (s : State) : Res :=
  .next (s.issue (encVmvx d a b) fun c k s => s.vecExtract c (encVmvx d a b) d a (k.rx b))

/-- VMVS (R209): Writes x[a] into one vector element. -/
def execVmvs (d a b : BitVec 5) (s : State) : Res :=
  .next (s.issue (encVmvs d a b) fun c k s => s.vecInsert c (encVmvs d a b) d (k.rx a) (k.rx b))

end Sys2Proof.Machine
end

