-- ==== Sys2Proof/Machine/VecCfg.lean ====
section
/-! DEFINITION. VSHAPE, VFORM, VFORMI, VSPLIT, VJOIN, VRDSHAPE and lane moves (R141-R156, R402-R404). -/

namespace Sys2Proof.Machine

/-- SHAPE as a register value (R29). -/
def Ctx.shapeValue (k : Ctx) : Word :=
  BitVec.ofNat 64 (k.vl % 2 ^ 13 + k.vrows % 16 * 2 ^ 16 + b2n k.tr * 2 ^ 20 + k.lanes % 32 * 2 ^ 24 + k.lg % 4 * 2 ^ 29)

/-- Neither the vector queue nor the matrix queue holds an instruction of the context (R32, R147). -/
def State.queuesEmpty (s : State) (c : CtxId) : Bool :=
  (s.ctx c).vq.isEmpty && (s.ctx c).vchk.isNone && !((s.core (coreOf c)).mq.any fun e => decide (e.owner = c))

/-- Vector-idle (R153). -/
def State.vectorIdle (s : State) (c : CtxId) : Bool := s.queuesEmpty c && decide ((s.ctx c).missing = 0)

/-- The local domain that DPSLOT gives a slot (R429). -/
def Core.slotDomain (k : Core) (slot : Nat) : Nat := if slot = 7 then 0 else bits k.dpslot (3 * slot + 2) (3 * slot)

/-- The DID that DPSLOT gives a slot of a core (R149, R428). -/
def State.slotDid (s : State) (core : CoreId) (slot : Nat) : BitVec 7 :=
  (s.core core).part ++ BitVec.ofNat 3 ((s.core core).slotDomain slot)

/-- The physical quarters that a context holds. -/
def State.holdsQuarter (s : State) (c : CtxId) (q : Nat) : Bool :=
  let k := s.ctx c
  let w := physLanes (coreOf c) / 4
  decide (k.lg * k.lanes ≤ q * w) && decide (q * w < k.lg * k.lanes + k.lanes)

/-- Is a quarter of a core free (R155)? -/
def State.quarterFree (s : State) (core : CoreId) (q : Nat) : Bool :=
  (upFrom 0 8).all fun i => !s.holdsQuarter (core * 8 + i) q

/-- May the context hold `n` lanes from its lowest lane on (R155, R430)? -/
def State.laneOk (s : State) (c : CtxId) (n : Nat) : Bool :=
  let k := s.ctx c
  let core := coreOf c
  let pl := physLanes core
  let low := k.lg * k.lanes
  let ceil := bits (s.core core).dplane (3 * slotOf c + 2) (3 * slotOf c)
  decide (low % n = 0) && decide (low + n ≤ pl) && (decide (ceil = 0) || decide (n ≤ ceil * (pl / 4))) &&
    (upFrom 0 4).all fun q =>
      !(decide (low ≤ q * (pl / 4)) && decide (q * (pl / 4) < low + n)) || s.holdsQuarter c q ||
        (s.quarterFree core q && decide (bits (s.core core).dplane (3 * q + 26) (3 * q + 24) = localOf (s.did c)))

/-- The lanes that VSHAPE gets (R155): those that the context holds, behind a call gate (R452). -/
def State.laneGrant (s : State) (c : CtxId) : Nat :=
  let pl := physLanes (coreOf c)
  if (s.ctx c).depth ≠ 0 then (s.ctx c).lanes
  else if s.laneOk c pl then pl
  else if s.laneOk c (pl / 2) then pl / 2
  else if s.laneOk c (pl / 4) then pl / 4
  else (s.ctx c).lanes

/-- Write blocks of a save area at its physical address, below translation (R403, R407): they reach the die's caches.  A shadow
writes no memory (R509). -/
def State.areaWrite (s : State) (c : CtxId) (pa : Nat) (bs : List (Nat × List Byte)) : State :=
  if (s.ctx c).isShadow then s
  else
  let first := s.nextId
  let s1 := bs.foldl (fun t b => t.addPend c .vector true 0 (pa + b.1) b.2 (decide ((s.ctx c).mode = .m)) (s.did c)) s
  s1.flush fun p => decide (first ≤ p.id) && s1.near p.die (lineOf p.addr)

/-- The lines of a save area that blocks of 64 bytes at these offsets lie in. -/
def areaLines (pa : Nat) (offs : List Nat) : List Nat := offs.map fun o => lineOf (pa + o)

/-- Does a save area meet a sealed range, in which no write is performed (R265, R363)? -/
def State.areaSealed (s : State) (pa n : Nat) : Bool := (linesOf pa n).any fun l => (s.sealAt (l * 64)).isSome

/-- Read bytes of a save area at its physical address. -/
def State.areaRead (s : State) (c : CtxId) (pa n : Nat) : List Byte := s.view c (dieOf c) pa n

/-- The device reads these lines for a context, below translation, with leases (R336): `go` with the state that has, or the wait for a
line that is held at its home (R337). -/
def State.withLines (s : State) (c : CtxId) (ls : List Nat) (go : State → State) : State :=
  match s.readLines (dieOf c) ls with
  | none => (s.holdMisses (dieOf c) ls).stallBounded c
  | some t => go t

/-- The physical address in VSAVEA or TSAVE (R403, R406). -/
def areaPa (v : Word) : Nat := bits v 51 12 * 4096

/-- The bits of a row that `n` lanes hold. -/
def keepRow (v : BitVec 8192) (n : Nat) : BitVec 8192 := BitVec.ofNat 8192 (sliceNat v 0 (512 * n))

/-- The mask bits of a row that `n` lanes govern. -/
def keepMask (v : BitVec 4096) (n : Nat) : BitVec 4096 := BitVec.ofNat 4096 (sliceNat v 0 (256 * n))

/-- The registers cut to `n` lanes, with the dirty bits of the quarters kept. -/
def Ctx.cutLanes (k : Ctx) (pl n : Nat) : Ctx :=
  { k with v := k.v.map fun r => keepRow r n, m := k.m.map fun r => keepMask r n,
           dirty := (upFrom 0 32).foldl (fun b i => putSlice b (i * 4) 4 (sliceNat k.dirty (i * 4) (n * 4 / pl))) 0 }

/-- The blocks that a lane move saves (R155, R402): dirty quarters vacated, mask bits above 4 x 64c. -/
def Ctx.vacatedBlocks (k : Ctx) (q : VCfg) (n : Nat) : List (Nat × List Byte) :=
  (((lanePlaces n k.lanes).filter fun p => k.laneDirty q p.1 p.2.2).map fun p =>
      (imageV p.1 p.2.1 p.2.2, k.laneBytes p.1 p.2.1 p.2.2)) ++
    (maskPlaces (n / 2) (k.lanes / 2)).map fun p => (imageM p.1 p.2.1 p.2.2, k.maskBytes p.1 p.2.1 p.2.2)

/-- The value of lane_reclaim_notify (R389): victim slot, quarters vacated, new SHAPE.LANES. -/
def reclaimValue (c : CtxId) (low n old pl : Nat) : Word :=
  let qs := (upFrom 0 4).foldl (fun b q => if low + n ≤ q * (pl / 4) ∧ q * (pl / 4) < low + old then b + 2 ^ q else b) 0
  BitVec.ofNat 64 (slotOf c + 16 * qs + 256 * n)

/-- A lane move to `n` lanes (R155, R403, R404), once the context is vector-idle. -/
def State.moveLanes (s : State) (c : CtxId) (n : Nat) : State :=
  let k := s.ctx c
  let pl := physLanes (coreOf c)
  let q := k.vcfg pl
  let pa := areaPa k.vsavea
  let low := k.lg * k.lanes
  if n < k.lanes then
    let s1 := (s.areaWrite c pa (k.vacatedBlocks q n)).modCtx c fun z =>
      { z.cutLanes pl n with lanes := n, lg := low / n, latch := 0 }
    s1.modCtx (coreOf c * 8 + 7) fun z => { z with pendLane := some (reclaimValue c low n k.lanes pl) }
  else
    let rd (off : Nat) : List Byte := s.areaRead c (pa + off) 64
    s.setCtx c { k.loadImage rd k.lanes n with lanes := n, lg := low / n, latch := 0 }

/-- VSHAPE after any lane move (R141). -/
def State.shapeSet (s : State) (c : CtxId) (d : BitVec 5) (a b : Word) : State :=
  let k := s.ctx c
  let q := k.vcfg (physLanes (coreOf c))
  let vl := min a.toNat q.vlmax
  (s.modCtx c fun k => { k with vl := vl, vrows := min b.toNat 8, tr := false }).retireX c d (BitVec.ofNat 64 vl)

/-- The offsets of the image blocks that lanes `lo` to `hi - 1` are loaded from (R155). -/
def laneOffsets (lo hi : Nat) : List Nat :=
  ((lanePlaces lo hi).map fun p => imageV p.1 p.2.1 p.2.2) ++ (maskPlaces (lo / 2) (hi / 2)).map fun p => imageM p.1 p.2.1 p.2.2

/-- VSHAPE (R141): the area of a lane move is checked (R363, R403), and its far lines are read with leases (R336). -/
def State.vshape (s : State) (c : CtxId) (d : BitVec 5) (a b : Word) : State :=
  let k := s.ctx c
  let n := s.laneGrant c
  if n = k.lanes then s.shapeSet c d a b
  else if !s.vectorIdle c then s.stallBounded c
  else if !s.areaOk (s.part c) (s.slotSecure c) (areaPa k.vsavea) imageSize then
    s.trap c (mkTrap 9 (BitVec.ofNat 64 (areaPa k.vsavea)))
  else if n < k.lanes ∧ s.areaSealed (areaPa k.vsavea) imageSize = true then
    s.trap c (mkTrap 12 (BitVec.ofNat 64 (areaPa k.vsavea)))
  else s.withLines c (areaLines (areaPa k.vsavea) (laneOffsets k.lanes n)) fun s1 => (s1.moveLanes c n).shapeSet c d a b

/-- VFORM and VFORMI (R144, R145): the old FORM goes to x[d]. -/
def State.setForm (s : State) (c : CtxId) (d : BitVec 5) (v : BitVec 14) : State :=
  let old := (s.ctx c).form
  (s.modCtx c fun k => { k with form := v }).retireX c d (old.zeroExtend 64)

/-- Is VSPLIT n legal in the context (R148)? -/
def splitLegal (c : CtxId) (k : Ctx) (n : Nat) : Bool :=
  let i := slotOf c
  decide (k.lanes = physLanes (coreOf c)) && decide (k.lg = 0) &&
    (if n = 2 then decide (i ≠ 3) && decide (i ≠ 7) else decide (i % 2 = 0))

/-- The slot of lane group g after VSPLIT n (R148). -/
def splitSlot (c : CtxId) (n g : Nat) : CtxId := coreOf c * 8 + (slotOf c + 8 * g / n) % 8

/-- A slot that gets a lane group (R149). -/
def Ctx.newGroup (k : Ctx) (lanes g : Nat) : Ctx :=
  { k with lanes := lanes, lg := g, vl := 0, vrows := 0, tr := false, v := Vector.replicate 256 0,
           m := Vector.replicate 64 0, missing := 0, dirty := 0, vq := [], vchk := none, latch := 0 }

/-- VSPLIT (R148, R149). -/
def State.vsplit (s : State) (c : CtxId) (word : BitVec 32) (n : Nat) : State :=
  let k := s.ctx c
  if k.mode ≠ .m ∧ ((upFrom 0 n).any fun g => decide (s.slotDid (coreOf c) (slotOf (splitSlot c n g)) ≠ s.did c)) = true then
    s.openTrap c 10
  else if k.groupBound 24 8 then s.illegal c word
  else if !s.vectorIdle c then s.stallBounded c
  else
    let pl := physLanes (coreOf c)
    let s1 := s.setCtx c { k.cutLanes pl (pl / n) with lanes := pl / n, lg := 0, vl := 0, vrows := 0, tr := false,
                                                       missing := 0, latch := 0 }
    ((upFrom 1 (n - 1)).foldl (fun t g => t.modCtx (splitSlot c n g) fun z => z.newGroup (pl / n) g) s1).retire c

/-- Is VJOIN legal in the context (R150)? -/
def joinLegal (c : CtxId) (k : Ctx) : Bool := decide (k.lg = 0) && decide (k.lanes < physLanes (coreOf c))

/-- The other vector contexts of the core. -/
def State.joinPartners (s : State) (c : CtxId) : List CtxId :=
  ((upFrom 0 8).map fun i => coreOf c * 8 + i).filter fun z => decide (z ≠ c) && (s.ctx z).isVector

/-- A context that ceases to be a vector context (R150). -/
def Ctx.unlaned (k : Ctx) : Ctx := { k with lanes := 0, lg := 0, vl := 0, vrows := 0 }

/-- VJOIN (R150, R153): the quarters that it zero-fills keep their dirty bits clear (log entry 51). -/
def State.vjoin (s : State) (c : CtxId) (word : BitVec 32) : State :=
  let k := s.ctx c
  let ps := s.joinPartners c
  if k.mode ≠ .m ∧ (ps.any fun z => decide (s.did z ≠ s.did c)) = true then s.openTrap c 10
  else if !(s.vectorIdle c && ps.all fun z => s.vectorIdle z) then s.stall c
  else if ps.any fun z => decide ((s.ctx z).dirty ≠ 0) || (s.ctx z).groupBound 24 8 then s.illegal c word
  else
    let s1 := ps.foldl (fun t z => t.modCtx z Ctx.unlaned) s
    let pl := physLanes (coreOf c)
    (s1.setCtx c { k.cutLanes pl k.lanes with lanes := pl, lg := 0, vl := 0, vrows := 0, latch := 0 }).retire c

/-- VRDSHAPE (R147). -/
def State.readShape (s : State) (c : CtxId) (d : BitVec 5) : State :=
  if s.queuesEmpty c then s.retireX c d (s.ctx c).shapeValue else s.stallBounded c

/-- VSHAPE (R141): Grants VL and VROWS, moving lanes if the grant changes. -/
def execVshape (d a b : BitVec 5) (s : State) : Res :=
  .next (s.issue (encVshape d a b) fun c k s => s.vshape c d (k.rx a) (k.rx b))

/-- VFORM (R144): Exchanges FORM with a checked x[a] value. -/
def execVform (d a : BitVec 5) (s : State) : Res :=
  .next (s.issue (encVform d a) fun c k s =>
    if formLegal (k.rx a) then s.setForm c d (BitVec.ofNat 14 (k.rx a).toNat) else s.illegal c (encVform d a))

/-- VFORMI (R145): Sets FORM[13:0] from an immediate, returning the old FORM. -/
def execVformi (d : BitVec 5) (v : BitVec 14) (s : State) : Res :=
  .next (s.issue (encVformi d v) fun c _ s => s.setForm c d v)

/-- The number of lane groups of VSPLIT's field (R139). -/
def splitCount (n : BitVec 2) : Nat := if n = 1 then 2 else 4

/-- VSPLIT (R149): Splits the core's lanes into 2 or 4 lane groups. -/
def execVsplit (n : BitVec 2) (s : State) : Res :=
  .next (s.issueIf (encVsplit n) (!splitLegal s.cur (s.ctx s.cur) (splitCount n)) fun c _ s =>
    s.vsplit c (encVsplit n) (splitCount n))

/-- VJOIN (R150): Waits for the partners to be vector-idle, then takes all lanes. -/
def execVjoin (s : State) : Res :=
  .next (s.issueIf encVjoin (!joinLegal s.cur (s.ctx s.cur)) fun c _ s => s.vjoin c encVjoin)

/-- VRDSHAPE (R147): Waits for the queues, then reads SHAPE into x[d]. -/
def execVrdshape (d : BitVec 5) (s : State) : Res := .next (s.issue (encVrdshape d) fun c _ s => s.readShape c d)

end Sys2Proof.Machine
end

