-- ==== Sys2Proof/Machine/Matrix.lean ====
section
/-! DEFINITION. Matrix instructions at issue (R216-R240): ownership, checks, operand strings, the matrix queue. -/

namespace Sys2Proof.Machine

/-- A field of MSTAT (R213). -/
def mfield (v : Word) (lo n : Nat) : Nat := sliceNat v lo n

/-- MSTAT with a field replaced. -/
def setMfield (v : Word) (lo n x : Nat) : Word := putSlice v lo n x

/-- Where TAG(n) lies in MSTAT (R213). -/
def tagPos (n : Nat) : Nat := 16 + 3 * n

/-- The rows of the array in use (R212). -/
def State.mrows (s : State) (core : CoreId) : Nat :=
  if bit (s.core core).mstat 11 then 64 else arrayRowsOf core

/-- The owner check of every matrix instruction (R26, R239), with the trap value of R389. -/
def State.owned (s : State) (c : CtxId) (go : State) : State :=
  let m := (s.core (coreOf c)).mown.toNat
  if m = slotOf c then go
  else s.trap c (mkTrap 18 (BitVec.ofNat 64 (m + 8 * (s.did (coreOf c * 8 + m)).toNat)))

/-- form_mismatch with the instruction word. -/
def State.misform (s : State) (c : CtxId) (w : BitVec 32) : State := s.trap c (mkTrap 4 (w.zeroExtend 64))

/-- register_overlap with the instruction word. -/
def State.overlapTrap (s : State) (c : CtxId) (w : BitVec 32) : State := s.trap c (mkTrap 3 (w.zeroExtend 64))

/-- Post an entry to the matrix queue (R233), then retire as `fin` does: an instruction that finds no place waits. -/
def State.postThen (s : State) (c : CtxId) (o : MOp) (front : Word → Word) (fin : State → State) : State :=
  let k := s.core (coreOf c)
  if Config.matrixQueueDepth ≤ k.mq.length then s.stall c
  else
    let s := s.modCtx c Ctx.loadsFixed
    let e : MEntry := { owner := c, pc := (s.ctx c).pc, started := false, rows := s.mrows (coreOf c), op := o }
    let s1 := s.setCore (coreOf c) { k with mq := k.mq ++ [e], mstat := front k.mstat }
    fin (if k.mq.isEmpty then s1.soon (.matrixEntryStart (coreOf c)) else s1)

/-- Post an entry that has no scalar result. -/
def State.post (s : State) (c : CtxId) (o : MOp) (front : Word → Word) : State :=
  s.postThen c o front fun t => t.retire c

/-- Bits from v[p] to the end of v31 (R218). -/
def stringRoom (rb p : Nat) : Nat := (32 - p) * 8 * rb * 8

/-- The string from v[p], as one little-endian number of `nbits` bits (R218). -/
def Ctx.string (k : Ctx) (p nbits : Nat) : Nat :=
  let rb := 64 * k.lanes
  (upFrom 0 ((nbits + 8 * rb - 1) / (8 * rb))).foldl (fun acc t =>
    acc + (sliceNat (k.vreg (p + t / 8) (t % 8)) 0 (8 * rb)) <<< (8 * rb * t)) 0 % 2 ^ nbits

/-- The number of registers that a string of `nbits` bits meets. -/
def stringRegs (rb nbits : Nat) : Nat := (nbits + 64 * rb - 1) / (64 * rb)

/-- Does the context state forbid an outer product of floating-point values (R6, R47, R87): MSTAT.MRM of the matrix state that
the context owns holds a reserved rounding mode, as an LD can leave it (R407)? -/
def State.mrmReserved (s : State) (fmt : Nat) : Bool :=
  let k := s.core (coreOf s.cur)
  decide (fmt < 9) && decide (k.mown.toNat = slotOf s.cur) && decide (4 < mfield k.mstat 8 3)

/-- MSHAPE (R222, R233): MRM and HR hold for the matrix instructions after it; its entry zeroes the rows that HR = 1 has kept
out of use, after the array instructions before it. -/
def State.mshape (s : State) (c : CtxId) (p : BitVec 5) (r : Nat) : State :=
  s.owned c <|
    let core := coreOf c
    let ext := if Config.isBreeze (dieOf c) then 0 else 1
    s.postThen c (.shape (bit (s.core core).mstat 11)) (fun m => setMfield (setMfield m 11 1 0) 8 3 r) fun t =>
      t.retireX c p (BitVec.ofNat 64 (arrayRowsOf core + 64 * 256 + ext * 65536))

/-- MZERO (R223). -/
def State.mzero (s : State) (c : CtxId) (n : Nat) : State :=
  s.owned c (s.post c (.zero n) fun m => setMfield m (tagPos n) 3 0)

/-- MSWAP (R224). -/
def State.mswap (s : State) (c : CtxId) : State :=
  s.owned c (s.post c .swap fun m =>
    let a := setMfield (setMfield m 32 4 (mfield m 44 4)) 36 7 (mfield m 48 7)
    setMfield (setMfield a 44 4 (mfield m 32 4)) 48 7 (mfield m 36 7))

/-- MLDS (R225). -/
def State.mlds (s : State) (c : CtxId) (w : BitVec 32) (p : Nat) (xq : Word) (fmt : Nat) : State :=
  s.owned c <|
    let k := s.ctx c
    let n := bits xq 6 0
    let nb := 8 * planeRowBytes fmt * n
    if !zeroBits xq 63 7 || decide (planeCapacity fmt < n) || decide (stringRoom (64 * k.lanes) p < nb) then s.misform c w
    else if k.groupBound p (stringRegs (64 * k.lanes) nb) then s.overlapTrap c w
    else s.post c (.load fmt n (k.string p nb)) fun m => setMfield (setMfield m 44 4 fmt) 48 7 n

/-- Does the stationary plane's format go with fmt (R226)? -/
def planeAccepts (scaled : Bool) (fmt pf : Nat) : Bool :=
  if scaled then decide (4 ≤ pf ∧ pf ≤ 8)
  else if fmt = 0 then decide (pf = 0)
  else if fmt = 1 then decide (pf = 1)
  else if fmt ≤ 3 then decide (pf = 2 ∨ pf = 3)
  else if fmt ≤ 5 then decide (pf = 4 ∨ pf = 5)
  else decide (pf = 9 ∨ pf = 10)

/-- The checks that all outer products share (R228): x[q], the plane, the tag, P0 of a microscaled one. -/
def State.outerMisfit (s : State) (c : CtxId) (n fmt : Nat) (xq : Word) (scaled : Bool) : Bool :=
  let m := (s.core (coreOf c)).mstat
  let k := bits xq 6 0
  let p0 := bits xq 13 8
  let tag := mfield m (tagPos n) 3
  bit xq 7 || !zeroBits xq 63 14 || decide (64 < k) || decide (mfield m 36 7 < p0 + k) ||
    !planeAccepts scaled fmt (mfield m 32 4) || (decide (tag ≠ 0) && decide (tag ≠ accTag fmt)) ||
    (scaled && decide (p0 % 32 ≠ 0))

/-- Post an outer product of K steps (R227). -/
def State.postOuter (s : State) (c : CtxId) (n fmt k p0 str : Nat) (scales : Option (Nat × Nat)) : State :=
  let core := coreOf c
  let m := (s.core core).mstat
  s.post c (.outer n fmt (mfield m 32 4) k p0 (s.mrows core) (mfield m 8 3) str scales) fun m =>
    if 0 < k then setMfield m (tagPos n) 3 (accTag fmt) else m

/-- The scale rows of vs (R220). -/
def Ctx.scaleRows (k : Ctx) (vs : Nat) : Nat × Nat := ((k.vreg vs 0).toNat, (k.vreg vs 1).toNat)

/-- MOP and MOPX (R226-R228): A from the string at vp. -/
def State.mop (s : State) (c : CtxId) (w : BitVec 32) (p : Nat) (xq : Word) (n fmt : Nat) (vs : Option Nat) : State :=
  s.owned c <|
    let k := s.ctx c
    let rows := s.mrows (coreOf c)
    let kk := bits xq 6 0
    let nb := kk * rows * matWidth fmt
    if s.outerMisfit c n fmt xq vs.isSome || decide (stringRoom (64 * k.lanes) p < nb) then s.misform c w
    else if k.groupBound p (stringRegs (64 * k.lanes) nb) || (vs.any fun v => k.groupBound v 1) then s.overlapTrap c w
    else s.postOuter c n fmt kk (bits xq 13 8) (k.string p nb) (vs.map k.scaleRows)

/-- The configuration under which a matrix instruction reads a chunk: the stream's element width (R254).  Where SHAPE.VL exceeds the
elements that a register row holds at that width, the register keeps those that fit and the chunk string keeps all (R219; no rule
names an outcome: log entry 60). -/
def Stream.cfg (d : Stream) (q : VCfg) : VCfg :=
  { q with ew := d.ew.toNat, e := 2 ^ d.ew.toNat, g := 1, vlmax := q.rb / 2 ^ d.ew.toNat }

/-- The chunk string (R219): the elements of the chunk in order. -/
def State.chunkString (s : State) (c : CtxId) (e : Nat) (as : List Access) : Nat :=
  as.foldr (fun a acc => s.viewAcc c a e + 2 ^ (8 * e) * acc) 0

/-- MOPS and MOPSX (R226-R228): A from a chunk of the stream that vp is bound to. -/
def State.mops (s : State) (c : CtxId) (w : BitVec 32) (p : Nat) (xq : Word) (n fmt : Nat) (vs : Option Nat) : State :=
  s.owned c <|
    let k := s.ctx c
    match k.boundTo p with
    | none => s.misform c w
    | some i =>
      let d := k.stream i
      let q := d.cfg (k.vcfg (physLanes (coreOf c)))
      if d.dir || s.outerMisfit c n fmt xq vs.isSome ||
          decide (s.paneLinear (coreOf c) d.pane.toNat < q.rows * q.vl * q.e) then s.misform c w
      else if vs.any fun v => k.groupBound v 1 then s.overlapTrap c w
      else if (s.gustTrap c true).isSome then s.trap c (mkTrap 20 (fencedValue (4, coreOf c % 64)))
      else if Config.matrixQueueDepth ≤ (s.core (coreOf c)).mq.length then s.stall c
      else match s.chunkWalks c q [i] with
        | none => (s.holdChunks c q [i]).stallBounded c
        | some s0 => match s0.planChunk c i q .load with
          | .error t => s0.chunkTrap c .load t i
          | .ok ch => match s0.readAccs c ch.accs with
            | none => (s0.holdAccs c ch.accs).stallBounded c
            | some s1 =>
              let (s2, ok) := s1.accsReady c ch.accs [] [] 0
              if !ok then s2.stallBounded c
              else
                let (s3, due) := s2.hostReads c ch.accs q.e
                let str := s3.chunkString c q.e ch.accs
                let kk := min (bits xq 6 0) (8 * q.e * ch.accs.length / (s.mrows (coreOf c) * matWidth fmt))
                let s4 := ((((s3.useGust c true).vecStart c).consume c q ch).farTaken c ch.accs).arrive c due
                s4.postOuter c n fmt kk (bits xq 13 8) str (vs.map k.scaleRows)

/-- The tag of a format that MCVT converts to (R214, R229). -/
def cvtTag (fmt : Nat) : Nat := if fmt = 1 then 1 else fmt + 2

/-- MCVT (R229). -/
def State.mcvt (s : State) (c : CtxId) (n fmt r : Nat) : State :=
  s.owned c <|
    let m := (s.core (coreOf c)).mstat
    s.post c (.convert n fmt r (s.mrows (coreOf c)) (mfield m (tagPos n) 3) ((s.ctx c).form.getLsbD 13)) fun m =>
      setMfield m (tagPos n) 3 (cvtTag fmt)

/-- Bytes of a tile row for MRD (R214). -/
def tagRowBytes (tag : Nat) : Nat := if tag ≤ 3 then 256 else if tag ≤ 5 then 128 else 64

/-- The bytes of a tile row as MRD writes them (R230). -/
def rowString (row : BitVec 2048) (tag : Nat) : Nat :=
  if tag ≤ 3 then row.toNat
  else
    let w := if tag ≤ 5 then 16 else 8
    (upFrom 0 64).foldl (fun acc j => acc + (sliceNat row (32 * j) w) <<< (w * j)) 0

/-- Write a string of `nbits` bits at v[p], leaving every other byte as it is (R230). -/
def Ctx.putString (k : Ctx) (q : VCfg) (p nbits str : Nat) : Ctx :=
  (upFrom 0 ((nbits + 8 * q.rb - 1) / (8 * q.rb))).foldl (fun k t =>
    let lo := 8 * q.rb * t
    let n := min (8 * q.rb) (nbits - lo)
    let old := k.groupRow q.rb (p + t / 8) 1 (t % 8)
    k.putGroupRow q (p + t / 8) 1 (t % 8) (putBits old 0 n (str >>> lo)) (2 ^ n - 1)) k

/-- The x[q] layout of MRD and MWR (R221), and their row limit (R232). -/
def State.rowsMisfit (s : State) (c : CtxId) (xq : Word) : Bool :=
  bit xq 7 || !zeroBits xq 63 16 || decide (128 < bits xq 15 8) ||
    decide (s.mrows (coreOf c) < bits xq 6 0 + bits xq 15 8)

/-- MRD (R230, R232): it enters the vector queue once the earlier matrix instructions have completed (R235). -/
def State.mrd (s : State) (c : CtxId) (w : BitVec 32) (p : Nat) (xq : Word) (n : Nat) : State :=
  s.owned c <|
    let k := s.ctx c
    let core := s.core (coreOf c)
    let q := k.vcfg (physLanes (coreOf c))
    let tag := mfield core.mstat (tagPos n) 3
    let i0 := bits xq 6 0
    let cnt := bits xq 15 8
    let rw := tagRowBytes tag
    let nb := 8 * cnt * rw
    if s.rowsMisfit c xq || decide (stringRoom q.rb p < nb) then s.misform c w
    else if k.groupBound p (stringRegs q.rb nb) then s.overlapTrap c w
    else if Config.vectorQueueDepth ≤ k.vq.length then s.stall c
    else if !core.mq.isEmpty then s.stallBounded c
    else
      let str := (upFrom 0 cnt).foldl (fun acc t => acc + rowString (core.tileRow n (i0 + t)) tag <<< (8 * rw * t)) 0
      let dst := upFrom p (stringRegs q.rb nb)
      let s1 := (s.vecStart c).modCtx c fun k => (k.putString q p nb str).latched dst
      (s1.enqueue c ((s1.ctx c).entry 8 0 none [] [] 0)).retire c

/-- MWR (R231, R232). -/
def State.mwr (s : State) (c : CtxId) (w : BitVec 32) (p : Nat) (xq : Word) (n : Nat) : State :=
  s.owned c <|
    let k := s.ctx c
    let cnt := bits xq 15 8
    let nb := 2048 * cnt
    if s.rowsMisfit c xq || decide (stringRoom (64 * k.lanes) p < nb) then s.misform c w
    else if k.groupBound p (stringRegs (64 * k.lanes) nb) then s.overlapTrap c w
    else s.post c (.write n (bits xq 6 0) cnt (k.string p nb)) id

/-- MSHAPE (R222): Sets MRM, clears HR with row zeroing and returns the array shape. -/
def execMshape (p : BitVec 5) (r : BitVec 3) (s : State) : Res :=
  .next (s.issue (encMshape p r) fun c _ s => s.mshape c p r.toNat)

/-- MZERO (R223): Zeroes a tile and opens its tag. -/
def execMzero (n : BitVec 2) (s : State) : Res := .next (s.issue (encMzero n) fun c _ s => s.mzero c n.toNat)

/-- MLDS (R225): Loads the shadow plane from a register string. -/
def execMlds (p q : BitVec 5) (f : BitVec 4) (s : State) : Res :=
  .next (s.issue (encMlds p q f) fun c k s => s.mlds c (encMlds p q f) p.toNat (k.rx q) f.toNat)

/-- MSWAP (R224): Exchanges the stationary and shadow planes. -/
def execMswap (s : State) : Res := .next (s.issue encMswap fun c _ s => s.mswap c)

/-- MOP (R227): Outer-product accumulation into a tile from a register string. -/
def execMop (p q : BitVec 5) (n : BitVec 2) (f : BitVec 4) (s : State) : Res :=
  .next (s.issueIf (encMop p q n f) (s.mrmReserved f.toNat) fun c k s => s.mop c (encMop p q n f) p.toNat (k.rx q) n.toNat f.toNat none)

/-- MOPS (R227): Outer-product accumulation from a consumed stream chunk. -/
def execMops (p q : BitVec 5) (n : BitVec 2) (f : BitVec 4) (s : State) : Res :=
  .next (s.issueIf (encMops p q n f) (s.mrmReserved f.toNat) fun c k s => s.mops c (encMops p q n f) p.toNat (k.rx q) n.toNat f.toNat none)

/-- MRD (R230): Reads tile rows into a register string through the vector queue. -/
def execMrd (p q : BitVec 5) (n : BitVec 2) (s : State) : Res :=
  .next (s.issue (encMrd p q n) fun c k s => s.mrd c (encMrd p q n) p.toNat (k.rx q) n.toNat)

/-- MWR (R231): Writes raw tile rows from a register string. -/
def execMwr (p q : BitVec 5) (n : BitVec 2) (s : State) : Res :=
  .next (s.issue (encMwr p q n) fun c k s => s.mwr c (encMwr p q n) p.toNat (k.rx q) n.toNat)

/-- MCVT (R229): Converts a tile in place and retags it. -/
def execMcvt (r : BitVec 3) (n : BitVec 2) (f : BitVec 4) (s : State) : Res :=
  .next (s.issue (encMcvt r n f) fun c _ s => s.mcvt c n.toNat f.toNat r.toNat)

/-- MOPX (R227): Microscaled outer product with E8M0 scales. -/
def execMopx (p q sh : BitVec 5) (n : BitVec 2) (f : BitVec 4) (s : State) : Res :=
  .next (s.issueIf (encMopx p q sh n f) (s.mrmReserved f.toNat) fun c k s =>
    s.mop c (encMopx p q sh n f) p.toNat (k.rx q) n.toNat f.toNat (some sh.toNat))

/-- MOPSX (R227): Microscaled outer product from a stream chunk. -/
def execMopsx (p q sh : BitVec 5) (n : BitVec 2) (f : BitVec 4) (s : State) : Res :=
  .next (s.issueIf (encMopsx p q sh n f) (s.mrmReserved f.toNat) fun c k s =>
    s.mops c (encMopsx p q sh n f) p.toNat (k.rx q) n.toNat f.toNat (some sh.toNat))

end Sys2Proof.Machine
end

