-- ==== Sys2Proof/Machine/Streams.lean ====
section
/-! DEFINITION. Panes (R245-R249), streams (R250-R256) and sealed buffers (R264-R266). -/

namespace Sys2Proof.Machine

/-- Entry n of the pane table (R245). -/
def Core.pane (k : Core) (n : Nat) : Pane := k.panes.toList.getD n Pane.empty

/-- Replace entry n of the pane table. -/
def Core.setPane (k : Core) (n : Nat) (p : Pane) : Core := { k with panes := k.panes.setIfInBounds n p }

/-- Change entry n of the pane table. -/
def Core.modPane (k : Core) (n : Nat) (g : Pane → Pane) : Core := k.setPane n (g (k.pane n))

/-- The holder takes a pane (R247): filling for a writer, draining for a reader. -/
def Pane.hold (p : Pane) (writes : Bool) : Pane := { p with state := if writes then 1 else 3, held := true }

/-- The holder of a pane finishes (R247). -/
def Pane.free (p : Pane) : Pane := { p with state := 2, held := false }

/-- The scratchpad key of linear byte b of a pane, on a core of nl lanes (R246). -/
def Pane.key (p : Pane) (nl b : Nat) : Nat := spadKey (b / 64 % nl) (p.base + 64 * (b / (64 * nl)) + b % 64)

/-- Read linear bytes of a pane (R246). -/
def Core.paneRead (k : Core) (p : Pane) (nl b n : Nat) : List Byte := (upFrom b n).map fun i => k.spad.read (p.key nl i)

/-- Write linear bytes of a pane (R246). -/
def Core.paneWrite (k : Core) (p : Pane) (nl b : Nat) (bs : List Byte) : Core :=
  { k with spad := (bs.zip (upFrom b bs.length)).foldl (fun m e => m.write (p.key nl e.2) e.1) k.spad }

/-- Zero every linear byte of a pane: the bytes of its range in every lane slice. -/
def Core.paneZero (k : Core) (p : Pane) : Core :=
  { k with spad := k.spad.filter fun e => decide (e.1 % 2 ^ 20 < p.base) || decide (p.base + p.size ≤ e.1 % 2 ^ 20) }

/-- A pane table entry as PSTATE returns it (R245). -/
def Pane.value (p : Pane) : Word :=
  BitVec.ofNat 64 (p.state.toNat + 4 * b2n p.held + 8 * p.owner.toNat + 2 ^ 16 * p.base + 2 ^ 37 * p.size)

/-- May a pane of `size` bytes stand at `base` (R248)? -/
def State.paneFits (s : State) (core : CoreId) (did : BitVec 7) (size base : Nat) : Bool :=
  decide (base + size ≤ s.sliceSize core) &&
    ((upFrom (base / bankBytes core) ((base + size - 1) / bankBytes core - base / bankBytes core + 1)).all fun b =>
      decide (s.bankDid core (b * bankBytes core) = did)) &&
    !((s.core core).panes.toList.any fun p => decide (p.state ≠ 0) && decide (p.base < base + size) && decide (base < p.base + p.size))

/-- The lowest BASE of R248. -/
def State.paneBase (s : State) (core : CoreId) (did : BitVec 7) (size : Nat) : Option Nat :=
  ((upFrom 0 (s.sliceSize core / 64)).map fun i => 64 * i).find? fun b => s.paneFits core did size b

/-- The pane number that PALLOC takes (R248). -/
def Core.paneNumber (k : Core) (want : Nat) : Option Nat :=
  if want < 64 then (if (k.pane want).state = 0 then some want else none)
  else (upFrom 0 64).find? fun n => decide ((k.pane n).state = 0)

/-- PALLOC (R248). -/
def State.palloc (s : State) (c : CtxId) (d : BitVec 5) (size want : Nat) : State :=
  let core := coreOf c
  let no := s.retireX c d (BitVec.allOnes 64)
  if size = 0 ∨ size % 64 ≠ 0 ∨ s.sliceSize core < size then no
  else match (s.core core).paneNumber want with
    | none => no
    | some n => match s.paneBase core (s.did c) size with
      | none => no
      | some b =>
        (s.modCore core fun k => k.setPane n { state := 2, held := false, owner := s.did c, base := b, size := size }).retireX
          c d (BitVec.ofNat 64 n)

/-- The state requested of a pane, if R247 lists the request. -/
def Pane.request (p : Pane) (r : Nat) : Pane :=
  if p.held then p
  else if p.state = 2 ∧ (r = 1 ∨ r = 3) then { p with state := BitVec.ofNat 2 r }
  else if (p.state = 1 ∨ p.state = 3) ∧ r = 2 then { p with state := 2 }
  else p

/-- PSTATE (R249). -/
def State.pstate (s : State) (c : CtxId) (d : BitVec 5) (xa : Word) : State :=
  let p := (s.core (coreOf c)).pane (bits xa 5 0)
  if !zeroBits xa 63 11 || !zeroBits xa 7 6 then s.trap c (mkTrap 13 xa)
  else if p.state ≠ 0 ∧ p.owner ≠ s.did c then s.trap c (mkTrap 10 xa)
  else
    let s1 := if bit xa 8 then s.modCore (coreOf c) fun k => k.setPane (bits xa 5 0) (p.request (bits xa 10 9)) else s
    s1.retireX c d p.value

/-- PFREE (R249). -/
def State.pfree (s : State) (c : CtxId) (xa : Word) : State :=
  s.withPane c xa fun p =>
    (if p.held then s else s.modCore (coreOf c) fun k => k.setPane (bits xa 5 0) Pane.empty).retire c

/-! Streams. -/

/-- Doubleword i of a block of bytes. -/
def blockWord (bs : List Byte) (i : Nat) : Word := wordOf ((bs.drop (8 * i)).take 8)

/-- Is a stream descriptor legal (R250)? -/
def streamLegal (bs : List Byte) : Bool :=
  decide ((blockWord bs 1).toNat ≤ 2 ^ 40) && zeroBits (blockWord bs 5) 7 3 && zeroBits (blockWord bs 5) 63 14 &&
    decide (blockWord bs 6 = 0) && decide (blockWord bs 7 = 0)

/-- The stream that a descriptor declares (R250, R251). -/
def streamOf (bs : List Byte) : Stream :=
  let ctl := blockWord bs 5
  { st := .declared, base := blockWord bs 0, count := (blockWord bs 1).toNat, str0 := blockWord bs 2, n0 := blockWord bs 3,
    str1 := blockWord bs 4, ew := BitVec.ofNat 2 (bits ctl 1 0), dir := bit ctl 2, pane := BitVec.ofNat 6 (bits ctl 13 8),
    vd := 0, pos := 0, atEnd := false, flt := false }

/-- Every emitted element of an output stream is performed in memory (R251): what can be performed is, and whether all is. -/
def State.streamDrained (s : State) (c : CtxId) (d : Stream) : State × Bool :=
  if d.dir then
    if (s.ctx c).vq.isEmpty && (s.ctx c).vchk.isNone then
      let s1 := s.flush fun p => p.isOf c && decide (p.kind = .stream)
      (s1, !(s1.pend.any fun p => p.isOf c && decide (p.kind = .stream)))
    else (s, false)
  else (s, true)

/-- A declaration ends (R251): its pane is zeroed and released, and the stream is free. -/
def State.endStream (s : State) (c : CtxId) (i : Nat) : State :=
  let n := ((s.ctx c).stream i).pane.toNat
  let s1 := s.modCore (coreOf c) fun k => (k.paneZero (k.pane n)).modPane n Pane.free
  s1.modCtx c fun k => k.setStream i Stream.reset

/-- A declaration begins: the pane is held (R247, R251). -/
def State.beginStream (s : State) (c : CtxId) (i : Nat) (d : Stream) : State :=
  let s1 := s.modCore (coreOf c) fun k => k.modPane d.pane.toNat fun p => p.hold (!d.dir)
  s1.modCtx c fun k => k.setStream i d

/-- A stream command of a context acts in the world of its core's Gust engine, or traps (R426). -/
def State.inGustWorld (s : State) (c : CtxId) (go : State) : State :=
  if decide ((s.ctx c).mode = .m) != (s.core (coreOf c)).gw then s.openTrap c 9 else go

/-- SDECL (R250, R251): every check comes before any change. -/
def State.sdecl (s : State) (c : CtxId) (word : BitVec 32) (i : Nat) (xa : Word) : State :=
  let old := (s.ctx c).stream i
  if old.st = .bound then s.illegal c word
  else s.inGustWorld c <| s.withBlock c xa 64 fun bs s1 =>
    let d := streamOf bs
    let p := (s1.core (coreOf c)).pane d.pane.toNat
    let own := decide (old.st = .declared) && decide (old.pane = d.pane)
    if !streamLegal bs then s1.illegal c word
    else if !own && (decide (p.state ≠ 2) || p.held) then s1.openTrap c 13
    else if p.owner ≠ s.did c then s1.openTrap c 10
    else if old.st = .declared then
      let (s2, ok) := s1.streamDrained c old
      if !ok then s2.stallBounded c else (((s2.endStream c i).beginStream c i d).retire c)
    else (s1.beginStream c i d).retire c

/-- SBIND (R251). -/
def State.sbind (s : State) (c : CtxId) (word : BitVec 32) (vd : BitVec 5) (i : Nat) : State :=
  let k := s.ctx c
  if (k.stream i).st ≠ .declared ∨ (k.boundTo vd.toNat).isSome then s.illegal c word
  else s.inGustWorld c ((s.modCtx c fun k => k.setStream i { k.stream i with st := .bound, vd := vd }).retire c)

/-- SUNBIND (R251). -/
def State.sunbind (s : State) (c : CtxId) (word : BitVec 32) (vd : BitVec 5) : State :=
  match (s.ctx c).boundTo vd.toNat with
  | none => s.illegal c word
  | some i => s.inGustWorld c <|
    let (s1, ok) := s.streamDrained c ((s.ctx c).stream i)
    if !ok then s1.stallBounded c else (s1.endStream c i).retire c

/-- A stream as SSTAT returns it (R256). -/
def Stream.status (d : Stream) : Word :=
  if d.st = .free then 0
  else BitVec.ofNat 64 ((d.count - d.pos) % 2 ^ 41 + 2 ^ 60 + 2 ^ 61 * b2n d.flt + 2 ^ 62 * b2n d.atEnd +
    2 ^ 63 * b2n (decide (d.st = .bound)))

/-- SSTAT (R256). -/
def State.sstat (s : State) (c : CtxId) (d : BitVec 5) (i : Nat) : State :=
  s.inGustWorld c (if s.queuesEmpty c then s.retireX c d ((s.ctx c).stream i).status else s.stallBounded c)

/-! Sealed buffers. -/

/-- Does a range meet a sealed or draining entry of a die (R264)? -/
def Die.sealMeets (d : Die) (a n : Nat) : Bool :=
  List.any d.seals fun e : Nat × Seal => decide (e.2.base < a + n) && decide (a < e.2.base + e.2.len)

/-- The lowest free entry of a seal table (R264). -/
def Die.sealSlot (d : Die) : Option Nat :=
  (upFrom 0 Config.sealTableSize).find? fun i => (d.seals.find? i).isNone

/-- Does a range lie in one page of a translation, or in one die's HBM where no stage applies, and on one die (R264)? -/
def State.sealRange (s : State) (base : Word) (a : Access) (n : Nat) : Bool :=
  decide (a.place = .hbm) && decide (s.place (a.pa + n - 1) = .hbm) && decide (a.pa / 2 ^ 42 = (a.pa + n - 1) / 2 ^ 42) &&
    (!(a.xl.st1 || a.xl.st2) || decide (bits base 47 0 / a.xl.size = (bits base 47 0 + n - 1) / a.xl.size))

/-- Is a write to a range still to come from an engine's job record (R260) or from the commit buffer of a primary (R510)? -/
def State.rangeBusy (s : State) (a n : Nat) : Bool :=
  let meets (b m : Nat) : Bool := decide (b < a + n) && decide (a < b + m)
  (s.dies.any fun e => e.2.jobq.toList.any fun q => q.any fun j => !j.written && meets j.recPa 64) ||
    s.ctxs.any fun e => match e.2.red with
      | some r => r.primary && r.stores.any fun p => meets p.1 p.2.1.length
      | none => false

/-- Every write to a range that comes before a SEAL is performed at home (R264, R363): what can be is, and whether all is.  The
writes of the host come there in their own order (R467). -/
def State.rangeHome (s : State) (a n : Nat) : State × Bool :=
  let meets (p : PWrite) : Bool := decide (p.addr < a + n) && decide (a < p.addr + p.bytes.length)
  let s1 := s.flush fun p => meets p && decide (p.kind ≠ .host)
  (s1, !s1.pend.any meets && !s1.rangeBusy a n)

/-- The conditions of SEAL on its range (R264): the trap of the first that fails, or its home and the entry that it takes. -/
def State.sealPlan (s : State) (base : Word) (a : Access) (n : Nat) : Except Trap (Nat × Nat) :=
  let home := s.homeKey a.pa
  if !s.sealRange base a n then .error (mkTrap 9 base)
  else if (s.die home).sealMeets a.pa n then .error (mkTrap 12 base)
  else match (s.die home).sealSlot with
    | none => .error (mkTrap 9 base)
    | some i => .ok (home, i)

/-- SEAL (R264). -/
def State.sealBuffer (s : State) (c : CtxId) (xa : Word) : State :=
  s.withBlock c xa 16 fun bs s1 =>
    let ag := s1.agent c
    let base := blockWord bs 0
    let n := (blockWord bs 1).toNat
    if base.toNat % 64 ≠ 0 ∨ n % 64 ≠ 0 ∨ n = 0 then s1.trap c (mkTrap 9 base)
    else match s1.walkReady ag [base] 1 with
    | none => (s1.holdWalks ag [base] 1).stallBounded c
    | some s2 =>
      match s2.checkAccess ag .store base 1 with
      | .error t => s2.accessTrap c .store t
      | .ok a =>
        match s2.sealPlan base a n with
        | .error t => s2.trap c t
        | .ok (home, i) =>
          let (s3, closed) := (s2.fillTlb ag base a.xl).closeInterval c [base, blockWord bs 1]
          if !closed then s3.stallBounded c
          else if (s3.ctx c).isShadow then s3.retire c
          else
            let (s4, ok) := s3.release c 4 .access
            if !ok then s4.stallBounded c
            else
              let (s5, done) := s4.rangeHome a.pa n
              if !done then s5.stallBounded c
              else (s5.modDie home fun d =>
                { d with seals := d.seals.set i { base := a.pa, len := n, did := ag.did, draining := false, holders := [] } }).retire c

/-- The entry that holds x[a] for RELB and UNSEAL (R266): the trap of its check, or the entry with its home and index. -/
def State.sealNamed (s : State) (c : CtxId) (xa : Word) : Except Trap (Option (Nat × Nat × Seal)) :=
  match s.check3 (s.agent c) .load xa 1 with
  | .error t => .error t
  | .ok a => match s.sealAt a.pa with
    | none => .ok none
    | some (i, e) => if e.did ≠ s.did c then .error (mkTrap 10 xa) else .ok (some (s.homeKey a.pa, i, e))

/-- RELB and UNSEAL find the entry that holds x[a] (R266); then `go` with it. -/
def State.withSeal (s : State) (c : CtxId) (xa : Word) (go : State → Option (Nat × Nat × Seal) → State) : State :=
  let ag := s.agent c
  match s.walkReady ag [xa] 1 with
  | none => (s.holdWalks ag [xa] 1).stallBounded c
  | some s1 => match s1.sealNamed c xa with
    | .error t => s1.accessTrap c .load t
    | .ok e => go s1 e

/-- The lines of a sealed buffer leave the caches of a core, the instruction cache among its L1s (R266, R325). -/
def Core.dropSealed (k : Core) (e : Seal) : Core :=
  let out (l : Nat) : Bool := decide (l * 64 < e.base) || decide (e.base + e.len ≤ l * 64)
  { k with l1 := k.l1.filter out, l2 := k.l2.filter fun l => out l.line, icache := k.icache.filter fun e => out e.1 }

/-- The lines of a sealed buffer leave a die (R265, R266). -/
def State.dropSealed (s : State) (die home i : Nat) (e : Seal) : State :=
  let s1 := s.modDie die fun d =>
    { d with copies := d.copies.filter fun l => decide (l.1 * 64 < e.base) || decide (e.base + e.len ≤ l.1 * 64) }
  (s1.modDieCores die fun k => k.dropSealed e).leaveSeal die home i e

/-- RELB (R266). -/
def State.relb (s : State) (c : CtxId) (xa : Word) : State :=
  s.withSeal c xa fun s1 r => match r with
    | none => s1.retire c
    | some (home, i, e) => (s1.dropSealed (dieOf c) home i e).retire c

/-- The count of a draining entry is 0 (R266): the entry is freed, and every UNSEAL that waits for it retires. -/
def State.freeSeal (s : State) (home i : Nat) : State :=
  let s1 := s.modDie home fun d => { d with seals := d.seals.erase i }
  { s1 with ctxs := s1.ctxs.map fun e =>
      if e.2.sealWait = some (home, i) then (e.1, { e.2.retired with sealWait := none }) else e }

/-- UNSEAL (R266): the wait is interruptible and the buffer stays draining (R322). -/
def State.unsealBuffer (s : State) (c : CtxId) (xa : Word) : State :=
  s.withSeal c xa fun s0 r => match r with
    | none => s0.trap c (mkTrap 9 xa)
    | some (home, i, e) =>
      let (s1, closed) := s0.closeInterval c [xa]
      if !closed then s1.stallBounded c
      else if (s1.ctx c).isShadow then s1.retire c
      else if e.holders.isEmpty then ((s1.modCtx c fun k => { k with sealWait := none }).freeSeal home i).retire c
      else
        ((s1.modDie home fun d => { d with seals := d.seals.set i { e with draining := true } }).modCtx c fun k =>
          { k with sealWait := some (home, i) }).stall c

/-- SEAL_COUNT_DRAINED (R266): The count of a draining buffer reaches 0 and the seal entry is freed. -/
def execSealCountDrained (die idx : Nat) (s : State) : Res :=
  .next (match (s.die die).seals.find? idx with
    | some e => if e.draining && e.holders.isEmpty then s.freeSeal die idx else s
    | none => s)

/-- GUST_PREFETCH (R255, R324): The Gust engine fetches ahead; as a chunk is read when it is consumed (log entry 50), this
only uses the engine (R503). -/
def execGustPrefetch (c stream : Nat) (s : State) : Res :=
  .next (s.useGust c (decide (((s.ctx c).stream stream).st ≠ .free)))

/-- PALLOC (R248): Allocates a pane in the core's pane table. -/
def execPalloc (d a b : BitVec 5) (s : State) : Res :=
  .next (s.issue (encPalloc d a b) fun c k s => s.palloc c d (k.rx a).toNat (k.rx b).toNat)

/-- PSTATE (R249): Reads a pane entry and optionally requests a state. -/
def execPstate (d a : BitVec 5) (s : State) : Res :=
  .next (s.issue (encPstate d a) fun c k s => s.pstate c d (k.rx a))

/-- PFREE (R249): Empties a ready, unheld pane. -/
def execPfree (a : BitVec 5) (s : State) : Res := .next (s.issue (encPfree a) fun c k s => s.pfree c (k.rx a))

/-- SDECL (R250): Reads a stream descriptor and declares the stream. -/
def execSdecl (sh a : BitVec 5) (s : State) : Res :=
  .next (s.issue (encSdecl sh a) fun c k s => s.sdecl c (encSdecl sh a) sh.toNat (k.rx a))

/-- SBIND (R251): Binds a declared stream to v24–v31. -/
def execSbind (d sh : BitVec 5) (s : State) : Res :=
  .next (s.issue (encSbind d sh) fun c _ s => s.sbind c (encSbind d sh) d sh.toNat)

/-- SUNBIND (R251): Unbinds a stream, draining output and zeroing the staging pane. -/
def execSunbind (d : BitVec 5) (s : State) : Res :=
  .next (s.issue (encSunbind d) fun c _ s => s.sunbind c (encSunbind d) d)

/-- SSTAT (R256): Reports the stream's remaining count and flags. -/
def execSstat (d sh : BitVec 5) (s : State) : Res := .next (s.issue (encSstat d sh) fun c _ s => s.sstat c d sh.toNat)

/-- SEAL (R264): Releases at SYS, writes the range home and enters it in the seal table. -/
def execSeal (a : BitVec 5) (s : State) : Res := .next (s.issue (encSeal a) fun c k s => s.sealBuffer c (k.rx a))

/-- UNSEAL (R266): Moves a sealed buffer to draining and waits for its count to reach 0. -/
def execUnseal (a : BitVec 5) (s : State) : Res :=
  .next (s.issue (encUnseal a) fun c k s => s.unsealBuffer c (k.rx a))

/-- RELB (R266): Drops the buffer's lines from the executing die. -/
def execRelb (a : BitVec 5) (s : State) : Res := .next (s.issue (encRelb a) fun c k s => s.relb c (k.rx a))

end Sys2Proof.Machine
end

