-- ==== Sys2Proof/Machine/Messages.lean ====
section
/-! DEFINITION. Messages and time: MSEND, MRECV, WAITM, WAITT, TIMEQ, delivery, in-transit holds and inbox rings (R279-R284,
R304-R312). -/

namespace Sys2Proof.Machine

/-- Word i of a payload (R279). -/
def msgWord (m : Msg) (i : Nat) : Word := m.payload.extractLsb' (64 * i) 64

/-- The header that MRECV returns (R281). -/
def msgHeader (m : Msg) : Word := BitVec.ofNat 64 (1 + 2 * b2n m.org + 4 * (m.srank % 2 ^ 13))

/-- A SPAWN or a child of RSPAWN starts a context parked or standing at its WAITM (R268, R280): the PC holds a multiple of 4
(R18). -/
def Ctx.startAt (k : Ctx) (pc a0 a1 a2 a3 : Word) : Ctx :=
  { (((((k.wx 1 k.pc).wx 10 a0).wx 11 a1).wx 12 a2).wx 13 a3).retired with pc := addr62 (field62 pc), run := .running }

/-- A SPAWN message takes effect (R280). -/
def Ctx.startMsg (k : Ctx) (m : Msg) : Ctx := k.startAt (msgWord m 0) (msgWord m 1) (msgWord m 2) (msgWord m 3) (msgWord m 4)

/-- Does the context replay a log (R512)? -/
def Ctx.replays (k : Ctx) : Bool :=
  match k.log with
  | some l => l.replay
  | none => false

/-- The log entries of a delivery (R512): the kind code, then the words that the delivery uses. -/
def msgItems (m : Msg) : List (Nat × Word) :=
  (7, m.kind.zeroExtend 64) ::
    (upFrom 0 (if m.kind = 1 then 5 else if m.kind = 3 then 1 else 0)).map fun i => (3, msgWord m i)

/-- A recording member logs a delivery that takes effect while it is parked (R512); a full log stops its gang and the message
is not delivered. -/
def State.recordDelivery (s : State) (t : CtxId) (m : Msg) : State × Bool :=
  let k := s.ctx t
  if k.log.isSome && !k.replays then
    match s.loggedAll t (msgItems m) [] with
    | .values s1 _ => (s1, true)
    | _ => (s.logFull t, false)
  else (s, true)

/-- A DATA message for a present target (R280). -/
def State.deliverData (s : State) (t : CtxId) (m : Msg) : State × Bool :=
  let k := s.ctx t
  if Config.mailboxDepth ≤ k.mailbox.length then (s, false)
  else
    let k1 : Ctx := { k with mailbox := k.mailbox ++ [m] }
    (s.setCtx t (if k.inWaitm then k1.resumed else k1), true)

/-- A SPAWN message for a present target (R280). -/
def State.deliverSpawn (s : State) (t : CtxId) (m : Msg) : State × Bool :=
  let k := s.ctx t
  if k.inWaitm then
    let (s1, ok) := s.recordDelivery t m
    if ok then (s1.modCtx t fun k => k.startMsg m, true) else (s1, false)
  else if k.spawn.isNone && k.spawnq.isEmpty then (s.setCtx t { k with spawn := some m }, true)
  else (s, false)

/-- A WAKE for a present target (R280). -/
def State.deliverWake (s : State) (t : CtxId) (m : Msg) : State × Bool :=
  let k := s.ctx t
  if k.inWaitm then
    let (s1, ok) := s.recordDelivery t m
    if ok then (s1.modCtx t Ctx.resumed, true) else (s1, false)
  else (s.setCtx t { k with wake := true }, true)

/-- A REGW for a present target (R280): a running one takes it at its next boundary, several in their order. -/
def State.deliverRegw (s : State) (t : CtxId) (m : Msg) : State × Bool :=
  let k := s.ctx t
  if k.inWaitm then
    let (s1, ok) := s.recordDelivery t m
    if ok then (s1.modCtx t fun k => k.wx 28 (msgWord m 0), true) else (s1, false)
  else if k.run = .out then (s.setCtx t (k.wx 28 (msgWord m 0)), true)
  else (s.setCtx t { k with regw := k.regw ++ [msgWord m 0] }, true)

/-- A message reaches a present target (R280), by its kind.  A member that replays takes what its log holds, so that a
message is accepted and has no effect of its own (R513). -/
def State.applyMsg (s : State) (t : CtxId) (m : Msg) : State × Bool :=
  if (s.ctx t).replays && !(s.ctx t).inWaitm then (s, true)
  else if m.kind = 0 then s.deliverData t m
  else if m.kind = 1 then s.deliverSpawn t m
  else if m.kind = 2 then s.deliverWake t m
  else s.deliverRegw t m

/-- Is a message's target absent (R309)? -/
def Ctx.absentFor (k : Ctx) (m : Msg) : Bool :=
  decide (k.gang ≠ m.gang) || decide (k.rank ≠ m.trank) || decide (k.traps ≠ 0)

/-- The header of an inbox record (R311). -/
def msgRecord (m : Msg) (slot : Nat) : Nat :=
  1 + 2 * m.kind.toNat + 8 * b2n m.org + 16 * (m.srank % 2 ^ 13) + 2 ^ 17 * (slot % 8) + 2 ^ 20 * (m.gang % 2 ^ 12) +
    2 ^ 32 * (m.trank % 2 ^ 13)

/-- Where the next inbox record of a core goes (R310, R311). -/
def Core.inboxAddr (k : Core) : Nat := k.inBase.toNat * 4096 + 128 * k.wp.toNat

/-- Records of an inbox ring (R310). -/
def Core.inboxSize (k : Core) : Nat := 2 ^ Nat.min k.inSz.toNat 12

/-- The agent that writes the inbox ring of a core: its partition, in the world of its slot 7 (R425; log entry 53). -/
def State.inboxAgent (s : State) (core : CoreId) : Agent :=
  { mode := .s, did := (s.core core).part ++ 0#3, sptb := 0, hptb := 0, ctx := core * 8 + 7, die := core / 64,
    secure := (s.core core).ssec.getLsbD 7 }

/-- Has the network interface a record to write next (R311): the ring is in use, in HBM, and its record is not taken?  A ring
elsewhere, or one whose granule refuses the interface, takes no message (log entry 53). -/
def State.inboxOpen (s : State) (core : CoreId) : Bool :=
  let k := s.core core
  let a := k.inboxAddr
  k.inEn && decide ((natOf (s.mem.readN a 8)) % 2 = 0) && decide (s.place a = .hbm) && s.granuleOk (s.inboxAgent core) a &&
    (linesOf a 128).all fun l => (s.sealAt (l * 64)).isNone

/-- Who waits at the home of a line for the network interface of a core. -/
def inboxHolder (core : CoreId) : CtxId := noCtx + 1 + core

/-- The lines that wait at their home for the network interface of a core are given up. -/
def State.leaveInbox (s : State) (core : CoreId) : State :=
  let ls := (s.held.filter fun h => decide (h.2 = inboxHolder core)).map fun h => h.1
  ls.foldl State.serveMisses { s with held := s.held.filter fun h => h.2 ≠ inboxHolder core }

/-- The record of an inbox ring waits at its home for the leases of its lines (R337): misses that come meanwhile are held until it
is written, or until the ring has had time for it. -/
def State.holdInbox (s : State) (core : CoreId) (a : Nat) : State :=
  let ls := linesOf a 128
  let s1 := s.leaveInbox core
  let s2 : State := { s1 with held := s1.held ++ ls.map fun l => (l, inboxHolder core) }
  ls.foldl (fun t l => t.afterOnce (t.expiry l - t.clk + 64) (.leaseExpiry (core / 64) l)) s2

/-- A message goes to the inbox ring of a core (R311): payload and zeros, then the header, then WP, DEFER and the WAKE for
slot 7; it waits while the ring is off or its record is taken, and for the leases of its lines.  The interface writes as the agent of
its partition (R435; log entry 53). -/
def State.inboxWrite (s : State) (core : CoreId) (slot : Nat) (m : Msg) : State × Bool :=
  let a := (s.core core).inboxAddr
  if !s.inboxOpen core then (s, false)
  else if !s.leaseFree a 128 then (s.holdInbox core a, false)
  else
    let w : Writer := { ctx := none, fn := none }
    let did := (s.inboxAgent core).did
    let s1 := s.performHome w (a + 8) (List.replicate 56 0 ++ bytesOf m.payload.toNat 64) false did
    let s2 := (s1.performHome w a (bytesOf (msgRecord m slot) 8) false did).leaveInbox core
    let s3 := s2.modCore core fun q =>
      { q with wp := BitVec.ofNat 12 ((q.wp.toNat + 1) % q.inboxSize), defer := q.defer ||| BitVec.twoPow 8 slot }
    (s3.modCtx (core * 8 + 7) fun z => if z.inWaitm then z.resumed else { z with wake := true }, true)

/-- A member of the message's gang is about to return into the context (R409 steps 6 and 7). -/
def State.migratingTo (s : State) (m : Msg) (t : CtxId) : Bool :=
  match s.gang? m.gang with
  | some g => g.members.any fun c => decide ((s.ctx c).migDest = some t)
  | none => false

/-- The rank entry of a rank (R304). -/
def Gang.entry (g : Gang) (rank : Nat) : RankEntry := g.entries.getD rank { coord := 0, it := false, v := false }

/-- The context that a rank entry names, in its package (R306). -/
def RankEntry.target (e : RankEntry) : CtxId := e.coord.toNat % 8192

/-- The package that a rank entry names (R306). -/
def RankEntry.pkg (e : RankEntry) : Nat := e.coord.toNat / 8192

/-- What the sender of a message has published happens before what the context does next (R356): a member's release before
its MSEND (R279). -/
def State.msgSync (s : State) (m : Msg) (t : CtxId) : State :=
  match (if m.org then none else s.gang? m.gang) with
  | some g => s.synced (g.entry m.srank).target t
  | none => s

/-- A message reaches the core of its target (R280, R309): the inbox ring if the target is absent or deferred.  It waits for
a thread that is about to resume there (R381). -/
def State.deliverTo (s : State) (t : CtxId) (m : Msg) : State × Bool :=
  if s.migratingTo m t then (s, false)
  else if (s.ctx t).absentFor m || (s.core (coreOf t)).defer.getLsbD (slotOf t) then
    ((s.msgSync m t).msgSync m (coreOf t * 8 + 7)).inboxWrite (coreOf t) (slotOf t) m
  else (s.msgSync m t).applyMsg t m

/-- The key of a rank in the holds of a core (R306). -/
def holdKey (gang rank : Nat) : Nat := gang * 8192 + rank

/-- A core's network interface takes a message (R279, R307): into the hold while the rank is in transit or earlier messages
are still held, and to the target otherwise.  A rank entry that names another package has no target that answers (R275; log
entry 10). -/
def State.acceptMsg (s : State) (core : CoreId) (m : Msg) : State × Bool :=
  match s.gang? m.gang with
  | none => (s, false)
  | some g =>
    let e := g.entry m.trank
    let held := (s.core core).holds.getD (holdKey m.gang m.trank) []
    if e.it || !held.isEmpty then
      if held.length < Config.holdDepth then
        (s.modCore core fun k => { k with holds := k.holds.set (holdKey m.gang m.trank) (held ++ [m]) }, true)
      else (s, false)
    else if e.pkg ≠ s.pkgNum then (s, false)
    else s.deliverTo e.target m

/-- The oldest held message of a rank leaves, if its target takes it (R307). -/
def State.releaseHold (s : State) (core : CoreId) (m : Msg) (rest : List Msg) : State :=
  let key := holdKey m.gang m.trank
  match s.gang? m.gang with
  | none => s
  | some g =>
    if (g.entry m.trank).it then s
    else
      let (s1, ok) := if (g.entry m.trank).pkg = s.pkgNum then s.deliverTo (g.entry m.trank).target m else (s, false)
      if !ok then s1.after 8 (.msendAccept core m)
      else match rest with
        | [] => s1.modCore core fun k => { k with holds := k.holds.erase key }
        | n :: _ => (s1.modCore core fun k => { k with holds := k.holds.set key rest }).after 0 (.msendAccept core n)

/-- A gang is freed while messages for one of its ranks are held (R276, R307): they go on to the context that the rank entry
names, in their order, where they find it absent (R309); in another package nothing answers them (R275; log entry 10). -/
def State.freeHold (s : State) (core : CoreId) (e : RankEntry) (key : Nat) (ms : List Msg) : State :=
  let s1 := s.modCore core fun k => { k with holds := k.holds.erase key }
  if e.pkg ≠ s.pkgNum then s1
  else ms.foldl (fun t m => t.after 0 (.inboxRecordWrite (coreOf e.target) (slotOf e.target) m)) s1

/-- The messages that a freed gang leaves in the holds of all cores go on (R307). -/
def State.freeHolds (s : State) (gang : Nat) (g : Gang) : State :=
  let s1 : State := { s with agenda := s.agenda.filter fun e => match e.2 with
    | .msendAccept _ m => decide (m.gang ≠ gang)
    | _ => true }
  s.cores.foldl (fun t e => e.2.holds.foldl (fun t h =>
    if h.1 / 8192 = gang then t.freeHold e.1 (g.entry (h.1 % 8192)) h.1 h.2 else t) t) s1

/-- The message of an MSEND with its checks passed (R279): the close of a redundant interval, the release at the narrowest scope
of both parties, the acceptance by the network interface. -/
def State.sendMsg (s : State) (c : CtxId) (m : Msg) (target : CtxId) (ops : List Word) : State :=
  let (s1, closed) := s.closeInterval c ops
  if !closed then s1.stallBounded c
  else if (s1.ctx c).isShadow then s1.retire c
  else
    let (s2, ok) := s1.release c ((s1.ctx c).effScope (narrowScope c target)) .message
    if !ok then s2.stallBounded c
    else
      let (s3, taken) := s2.acceptMsg (coreOf c) m
      if taken then s3.retire c else s3.stall c

/-- MSEND (R279). -/
def State.msend (s : State) (c : CtxId) (word : BitVec 32) (kind : BitVec 2) (xa xb : Word) : State :=
  let k := s.ctx c
  match (if k.gangSeen = 0 then none else s.gang? k.gangSeen) with
  | none => s.illegal c word
  | some g =>
    if !zeroBits xa 63 13 || decide (g.size ≤ xa.toNat) then s.trap c (mkTrap 9 xa)
    else
      let send (bs : List Byte) (t : State) : State :=
        let m : Msg := { kind := kind, org := false, srank := k.rank, gang := k.gangSeen, trank := xa.toNat,
                         payload := BitVec.ofNat 512 (natOf bs) }
        t.sendMsg c m (g.entry xa.toNat).target (xa :: (upFrom 0 8).map (msgWord m))
      if kind = 2 then send [] s else s.withBlock c xb 64 send

/-- The mailbox without its oldest message, which MRECV has taken (R281). -/
def Ctx.dropMsg (k : Ctx) : Ctx := { k with mailbox := k.mailbox.drop 1 }

/-- The store of 64 bytes that MRECV makes, with its result (R281): to HBM once its lines are free, into the commit buffer of a
redundant member, or to a port (R340). -/
def State.storePayload (s : State) (c : CtxId) (d : BitVec 5) (h : Word) (ag : Agent) (a : Access) (bs : List Byte)
    (own : Bool) : State :=
  let fin (t : State) : State := (if own then t.modCtx c Ctx.dropMsg else t).retireX c d h
  match a.place with
  | .hbm =>
    if (s.ctx c).red.isSome then fin (s.modCtx c fun k => k.buffered (a.pa, bs, writeShared ag a, ag.did))
    else (fin (s.writeHome c a.pa bs (writeShared ag a) ag.did)).awaitReply c
  | _ => (fin (s.outboundWrite c a bs)).awaitFar c

/-- May the store of MRECV be made (R281, R337, R510)?  The wait where it may not. -/
def State.payloadReady (s : State) (c : CtxId) (xa : Word) (a : Access) (go : State → State) : State :=
  match a.place with
  | .hbm =>
    let (s1, room) := s.commitRoom c 64
    if !room then s1.stallBounded c
    else if (s1.ctx c).red.isNone && !s1.leaseFree a.pa 64 then s1.holdAtHome c a.pa
    else go s1
  | _ =>
    let (s1, done) := s.closeInterval c [xa]
    if !done then s1.stallBounded c else go s1

/-- The words of a context's oldest message, as values of channel 3 (R512). -/
def Ctx.msgItems (k : Ctx) : List (Nat × Word) :=
  (upFrom 0 8).map fun i => match k.mailbox with
    | m :: _ => (3, msgWord m i)
    | [] => (3, (0 : Word))

/-- MRECV (R281): behind a call gate it writes 0 (R452); its header and words are logged channels (R509, R512). -/
def State.mrecv (s : State) (c : CtxId) (d : BitVec 5) (xa : Word) : State :=
  let k := s.ctx c
  let own : Word := match k.mailbox with
    | m :: _ => msgHeader m
    | [] => 0
  if k.depth ≠ 0 then s.retireX c d 0
  else match s.logged1 c 2 own with
    | .values s1 vs =>
      if !bit (vs.getD 0 0) 0 then s1.retireX c d 0
      else s.scalarFront c .store xa 64 false 0 0 [] fun s2 ag a =>
        match a.place with
        | .fcb _ _ _ => s2.trap c (mkTrap 9 xa)
        | _ => s2.payloadReady c xa a fun s3 =>
          s3.withLogged c ((2, own) :: k.msgItems) fun s4 vs =>
            s4.storePayload c d (vs.getD 0 0) ag a ((vs.drop 1).flatMap fun v => bytesOf v.toNat 8) (!k.isShadow && !k.replays)
    | _ => s.withLogged c [(2, own)] fun s1 _ => s1

/-- A delivery that takes effect at a WAITM: a recording member logs it (R512). -/
def State.withDelivery (s : State) (c : CtxId) (m : Msg) (go : State → State) : State :=
  if (s.ctx c).isLogging then s.withLogged c (msgItems m) fun s1 _ => go s1 else go s

/-- A REGW message with its word, for the log. -/
def regwMsg (v : Word) : Msg := { kind := 3, org := false, srank := 0, gang := 0, trank := 0, payload := v.zeroExtend 512 }

/-- A WAKE, for the log. -/
def wakeMsg : Msg := { kind := 2, org := false, srank := 0, gang := 0, trank := 0, payload := 0 }

/-- The held SPAWN starts the context (R280); the next one that a migration has brought takes its place (R312). -/
def Ctx.takeSpawn (k : Ctx) (m : Msg) : Ctx := { k.startMsg m with spawn := k.spawnq.head?, spawnq := k.spawnq.drop 1 }

/-- WAITM of a member that neither replays nor shadows (R282, R512). -/
def State.waitmOwn (s : State) (c : CtxId) : State :=
  let k := s.ctx c
  match (if k.isLogging then k.regw.head? else none) with
  | some v => s.withDelivery c (regwMsg v) fun t => t.modCtx c fun q => { q.wx 28 v with regw := q.regw.drop 1 }
  | none =>
    if !k.mailbox.isEmpty then s.retire c
    else match k.spawn with
      | some m => s.withDelivery c m fun t => t.modCtx c fun q => q.takeSpawn m
      | none =>
        if k.wake then s.withDelivery c wakeMsg fun t => (t.modCtx c fun q => { q with wake := false }).retire c
        else s.modCtx c fun q => q.park .waitm

/-- WAITM of a member that replays (R513): a channel-7 entry is the delivery, another entry shows that the recorded WAITM
retired, and at the end of the log the member goes on by itself. -/
def State.waitmReplay (s : State) (c : CtxId) (desc : Nat) : State :=
  let (base, size, pos) := s.logDesc desc
  if size ≤ pos then s.waitmOwn c
  else if natOf (s.mem.readN (base + pos) 1) ≠ 7 then s.retire c
  else
    let kind := natOf (s.mem.readN (base + pos + 8) 8)
    if kind = 1 then
      s.withLogged c ((7, 1) :: List.replicate 5 (3, 0)) fun t vs =>
        t.modCtx c fun q => q.startAt (vs.getD 1 0) (vs.getD 2 0) (vs.getD 3 0) (vs.getD 4 0) (vs.getD 5 0)
    else if kind = 3 then
      s.withLogged c [(7, 3), (3, 0)] fun t vs => t.modCtx c fun q => q.wx 28 (vs.getD 1 0)
    else s.withLogged c [(7, 2)] fun t _ => t.retire c

/-- WAITM (R282): illegal behind a call gate (R452).  A shadow waits for its own messages, as R509 forwards none. -/
def State.waitm (s : State) (c : CtxId) (word : BitVec 32) : State :=
  let k := s.ctx c
  if k.depth ≠ 0 then s.illegal c word
  else match k.log with
    | some l => if l.replay then s.waitmReplay c l.desc else s.waitmOwn c
    | none => s.waitmOwn c

/-- WAITT (R283). -/
def State.waitt (s : State) (c : CtxId) (t : Word) : State :=
  if t.toNat < (s.time (dieOf c)).toNat then (s.modCtx c fun k => { k with missed := true }).retire c
  else s.modCtx c fun k => k.park (.waitt t)

/-- TIMEQ (R284). -/
def State.timeq (s : State) (c : CtxId) (d : BitVec 5) : State :=
  let v := BitVec.ofNat 64 ((s.time (dieOf c)).toNat % 2 ^ 63 + 2 ^ 63 * b2n (s.ctx c).missed)
  s.withLogged c [(0, v)] fun s1 vs => (s1.modCtx c fun k => { k with missed := false }).retireX c d (vs.getD 0 0)

/-- A message that could not be delivered is tried again 8 clk later, one slot turn. -/
def State.retry (r : State × Bool) (i : Instr) : State := if r.2 then r.1 else r.1.after 8 i

/-- MSEND_ACCEPT (R279, R307): The target's interface or the in-transit hold accepts a message; the oldest held message of
the rank leaves the hold. -/
def execMsendAccept (core : Nat) (msg : Msg) (s : State) : Res :=
  .next (match (s.core core).holds.getD (holdKey msg.gang msg.trank) [] with
    | m :: rest => if m = msg then s.releaseHold core m rest else State.retry (s.acceptMsg core msg) (.msendAccept core msg)
    | [] => State.retry (s.acceptMsg core msg) (.msendAccept core msg))

/-- DATA_DELIVERY (R280): A DATA message is enqueued in the mailbox, resuming a parked target. -/
def execDataDelivery (c : Nat) (msg : Msg) (s : State) : Res :=
  .next (State.retry (s.deliverTo c { msg with kind := 0 }) (.dataDelivery c msg))

/-- SPAWN_DELIVERY (R280): A SPAWN message resumes a parked target or is held for its next WAITM. -/
def execSpawnDelivery (c : Nat) (msg : Msg) (s : State) : Res :=
  .next (State.retry (s.deliverTo c { msg with kind := 1 }) (.spawnDelivery c msg))

/-- WAKE_DELIVERY (R280): A WAKE resumes a parked target or sets its pending wake. -/
def execWakeDelivery (c : Nat) (msg : Msg) (s : State) : Res :=
  .next (State.retry (s.deliverTo c { msg with kind := 2 }) (.wakeDelivery c msg))

/-- REGW_DELIVERY (R280): A REGW message writes x28 of the target at a boundary. -/
def execRegwDelivery (c : Nat) (msg : Msg) (s : State) : Res :=
  .next (State.retry (s.deliverTo c { msg with kind := 3 }) (.regwDelivery c msg))

/-- INBOX_RECORD_WRITE (R311): A message to an absent or deferred target is written to the inbox ring, with a WAKE to slot 7. -/
def execInboxRecordWrite (core slot : Nat) (msg : Msg) (s : State) : Res :=
  .next (State.retry (s.inboxWrite core slot msg) (.inboxRecordWrite core slot msg))

/-- WAITT_EXPIRY (R283): TIME reaches t and a parked WAITT retires. -/
def execWaittExpiry (c : Nat) (s : State) : Res :=
  .next (match (s.ctx c).run with
    | .parked (.waitt t) => if t.toNat ≤ (s.time (dieOf c)).toNat then s.modCtx c Ctx.resumed else s
    | _ => s)

/-- MSEND (R279): Sends a DATA, SPAWN, WAKE or REGW message to a gang rank. -/
def execMsend (a b : BitVec 5) (k : BitVec 2) (s : State) : Res :=
  .next (s.issue (encMsend a b k) fun c q s => s.msend c (encMsend a b k) k (q.rx a) (q.rx b))

/-- MRECV (R281): Dequeues the oldest mailbox message and acquires at SYS. -/
def execMrecv (d a : BitVec 5) (s : State) : Res := .next (s.issue (encMrecv d a) fun c k s => s.mrecv c d (k.rx a))

/-- WAITM (R282): Parks until a message, SPAWN or wake arrives. -/
def execWaitm (s : State) : Res := .next (s.issue encWaitm fun c _ s => s.waitm c encWaitm)

/-- WAITT (R283): Parks until TIME ≥ t, or sets the missed flag. -/
def execWaitt (a : BitVec 5) (s : State) : Res := .next (s.issue (encWaitt a) fun c k s => s.waitt c (k.rx a))

/-- TIMEQ (R284): Reads TIME with the missed flag and clears the flag. -/
def execTimeq (d : BitVec 5) (s : State) : Res := .next (s.issue (encTimeq d) fun c _ s => s.timeq c d)

end Sys2Proof.Machine
end

