-- ==== Sys2Proof/Machine/Engine.lean ====
section
/-! DEFINITION. Levanter jobs (R257-R263), their schedule (R441) and their end (R260-R262). -/

namespace Sys2Proof.Machine

/-- The queue of a cluster (R259). -/
def Die.queue (d : Die) (cl : Nat) : List Job := d.jobq.toList.getD cl []

/-- Replace the queue of a cluster. -/
def State.setQueue (s : State) (die cl : Nat) (q : List Job) : State :=
  s.modDie die fun d => { d with jobq := d.jobq.setIfInBounds cl q }

/-- Replace a job in its queue, by its id. -/
def State.setJob (s : State) (die cl : Nat) (j : Job) : State :=
  s.setQueue die cl (((s.die die).queue cl).map fun q => if q.id = j.id then j else q)

/-- The agent that a job's accesses are made as: the issuing context's mode, DID and tables, on the engine's die. -/
def Job.agent (j : Job) (die : Nat) : Agent :=
  { mode := j.mode, did := j.did, sptb := j.sptb, hptb := j.hptb, ctx := j.ctx, die := die, secure := decide (j.mode = .m) }

/-- The checks of R119 for an engine's element in generic memory. -/
def State.checkEngine (s : State) (ag : Agent) (kind : AccKind) (va : Word) (w : Nat) : Except Trap Access :=
  match s.checkVec ag kind va w with
  | .error t => .error t
  | .ok a =>
    if kind = .load ∧ a.place = .hbm ∧ s.badLine ag.die (lineOf a.pa) = true then .error (mkTrap 20 va) else .ok a

/-- Element bytes of gather and scatter (R257). -/
def Job.elemBytes (j : Job) : Nat := if j.kind = .copy then 1 else 2 ^ bits j.ctl 1 0

/-- The core, number and entry of the pane that a pane address names (R257). -/
def State.jobPane (s : State) (die cl : Nat) (addr : Word) : CoreId × Nat × Pane :=
  let core := die * 64 + cl * 8 + bits addr 58 56
  (core, bits addr 55 50, (s.core core).pane (bits addr 55 50))

/-- The bytes that a block of a job writes, newest first, the state with what it wrote to panes, and its accesses to generic
memory, newest first: kind, address and width. -/
structure JobAcc where
  st : State
  ws : List (Nat × Byte × Bool)
  as : List (AccKind × Word × Nat) := []

/-- The byte that a job reads at a physical address: its own block's writes, then what its die may see (R261). -/
def JobAcc.byte (z : JobAcc) (ag : Agent) (p : Nat) : Byte :=
  match z.ws.find? fun e => decide (e.1 = p) with
  | some e => e.2.1
  | none => overlay ag.ctx ag.die p (inOrder z.st.pend) (z.st.mem.read p)

/-- What stops a job at an access that waits for links that retrain (R476): no cause of a trap. -/
def linkWait : Nat := 64

/-- The cause that stops a job at a failing access, or `linkWait`. -/
def JobAcc.stop (z : JobAcc) (ag : Agent) (kind : AccKind) (va : Word) (t : Trap) : Nat :=
  if decide (t.cause = 20) && z.st.linkWaits ag kind va then linkWait else t.cause

/-- Read n bytes of generic memory, or the cause that stops the job. -/
def JobAcc.readMem (z : JobAcc) (ag : Agent) (va : Word) (n : Nat) : Except Nat (List Byte) :=
  match z.st.checkEngine ag .load va n with
  | .error t => .error (z.stop ag .load va t)
  | .ok a => .ok ((upFrom a.pa n).map fun p => z.byte ag p)

/-- Read n bytes at an offset from a source or destination, which is generic or a pane (R257). -/
def JobAcc.read (z : JobAcc) (ag : Agent) (cl : Nat) (isPane : Bool) (addr : Word) (off n : Nat) : Except Nat (List Byte) :=
  if isPane then
    let (core, _, p) := z.st.jobPane ag.die cl addr
    let b := bits addr 31 0 + off
    if b % n ≠ 0 then .error 5
    else if p.size * physLanes core < b + n then .error 13
    else .ok ((z.st.core core).paneRead p (physLanes core) b n)
  else z.readMem ag (addr + BitVec.ofNat 64 off) n

/-- Write bytes to generic memory, or the cause that stops the job. -/
def JobAcc.writeMem (z : JobAcc) (ag : Agent) (va : Word) (bs : List Byte) : Except Nat JobAcc :=
  match z.st.checkEngine ag .store va bs.length with
  | .error t => .error (z.stop ag .store va t)
  | .ok a =>
    .ok { z with ws := ((bs.zip (upFrom a.pa bs.length)).map fun e => (e.2, e.1, writeShared ag a)).reverse ++ z.ws }

/-- Write bytes at an offset from the destination. -/
def JobAcc.write (z : JobAcc) (ag : Agent) (cl : Nat) (isPane : Bool) (addr : Word) (off : Nat) (bs : List Byte) :
    Except Nat JobAcc :=
  if isPane then
    let (core, _, p) := z.st.jobPane ag.die cl addr
    let b := bits addr 31 0 + off
    if b % bs.length ≠ 0 then .error 5
    else if p.size * physLanes core < b + bs.length then .error 13
    else .ok { z with st := z.st.modCore core fun k => k.paneWrite p (physLanes core) b bs }
  else z.writeMem ag (addr + BitVec.ofNat 64 off) bs

/-- The index idx(i) of a gather or scatter (R257). -/
def JobAcc.index (z : JobAcc) (ag : Agent) (j : Job) (i : Nat) : Except Nat Nat :=
  (z.readMem ag (j.idx + BitVec.ofNat 64 (4 * i)) 4).map natOf

/-- Write bit i of the duplicate mask (R258). -/
def JobAcc.markDup (z : JobAcc) (ag : Agent) (j : Job) (i : Nat) (dup : Bool) : Except Nat JobAcc :=
  if j.dup = 0 then .ok z
  else
    let va := j.dup + BitVec.ofNat 64 (i / 8)
    match z.readMem ag va 1 with
    | .error e => .error e
    | .ok bs => z.writeMem ag va [BitVec.ofNat 8 (putBits (natOf bs) (i % 8) 1 (b2n dup))]

/-- The bytes of a gathered element (R258): each distinct index is read once. -/
def JobAcc.gathered (z : JobAcc) (ag : Agent) (cl : Nat) (j : Job) (n : Nat) : Except Nat (List Byte) :=
  match List.find? (fun e : Nat × List Byte => decide (e.1 = n)) j.got with
  | some e => .ok e.2
  | none => z.read ag cl (bit j.ctl 8) j.src (j.elemBytes * n) j.elemBytes

/-- The job after a gather of index n, whose element holds these bytes. -/
def Job.noteIndex (j : Job) (n : Nat) (bs : List Byte) : Job :=
  { j with before := j.before ++ [n],
           got := if (j.got.any fun e => decide (e.1 = n)) then j.got else j.got ++ [(n, bs)] }

/-- The effect of a job at index i (R258): the bytes after it, and the job. -/
def JobAcc.step (z : JobAcc) (ag : Agent) (cl : Nat) (j : Job) (i : Nat) : Except Nat (JobAcc × Job) :=
  let sp := bit j.ctl 8
  let dp := bit j.ctl 9
  let e := j.elemBytes
  match j.kind with
  | .copy =>
    match z.read ag cl sp j.src i 1 with
    | .error x => .error x
    | .ok bs => (z.write ag cl dp j.dst i bs).map fun z' => (z', j)
  | .gather =>
    match z.index ag j i with
    | .error x => .error x
    | .ok n =>
      match z.gathered ag cl j n with
      | .error x => .error x
      | .ok bs =>
        match z.write ag cl dp j.dst (e * i) bs with
        | .error x => .error x
        | .ok z' => (z'.markDup ag j i (decide (n ∈ j.before))).map fun w => (w, j.noteIndex n bs)
  | .scatter =>
    match z.index ag j i with
    | .error x => .error x
    | .ok n =>
      match z.read ag cl sp j.src (e * i) e with
      | .error x => .error x
      | .ok bs => (z.write ag cl dp j.dst (e * n) bs).map fun z' => (z', j)

/-- The accesses of a job to generic memory at index i, in order (R257, R258): the index, the source of a distinct index, the
duplicate mask, the destination. -/
def JobAcc.accsAt (z : JobAcc) (ag : Agent) (j : Job) (i : Nat) : List (AccKind × Word × Nat) :=
  let e := j.elemBytes
  let idx : List (AccKind × Word × Nat) := if j.kind = .copy then [] else [(.load, j.idx + BitVec.ofNat 64 (4 * i), 4)]
  match (if j.kind = .copy then .ok i else z.index ag j i : Except Nat Nat) with
  | .error _ => idx
  | .ok n =>
    let src : List (AccKind × Word × Nat) :=
      if bit j.ctl 8 || j.got.any fun x => decide (x.1 = n) then []
      else [(.load, j.src + BitVec.ofNat 64 (e * (if j.kind = .scatter then i else n)), e)]
    let dup : List (AccKind × Word × Nat) :=
      if j.kind = .gather ∧ j.dup ≠ 0 then [(.load, j.dup + BitVec.ofNat 64 (i / 8), 1)] else []
    let dst : List (AccKind × Word × Nat) :=
      if bit j.ctl 9 then [] else [(.store, j.dst + BitVec.ofNat 64 (e * (if j.kind = .scatter then n else i)), e)]
    idx ++ src ++ dup ++ dst

/-- Up to n indices of a job from its PROG on: what it wrote, the job with its new PROG, and the cause that stopped it. -/
def JobAcc.run (z : JobAcc) (ag : Agent) (cl : Nat) (j : Job) : Nat → JobAcc × Job × Option Nat
  | 0 => (z, j, none)
  | n + 1 =>
    let as := (z.accsAt ag j j.prog).reverse ++ z.as
    match z.step ag cl j j.prog with
    | .error x => ({ z with as := as }, j, some x)
    | .ok (z', j') => JobAcc.run { z' with as := as } ag cl { j' with prog := j.prog + 1 } n

/-! What a job reads (R336, R340, R342, R416). -/

/-- The physical ranges that an access of an engine reads: the tables of its walk, and the data of a load. -/
def State.engineReads (s : State) (ag : Agent) (a : AccKind × Word × Nat) : List (Nat × Nat) :=
  ((s.walkNeeds ag a.2.1 a.2.2).map fun p => (p, 8)) ++
    (if a.1 = .load then (match s.checkEngine ag .load a.2.1 a.2.2 with
      | .ok x => [(x.pa, a.2.2)]
      | .error _ => [])
    else [])

/-- The physical ranges that these accesses of an engine read, each once. -/
def State.engineRanges (s : State) (ag : Agent) (as : List (AccKind × Word × Nat)) : List (Nat × Nat) :=
  (as.flatMap fun a => s.engineReads ag a).eraseDups

/-- The lines of HBM among some ranges. -/
def State.hbmLines (s : State) (rs : List (Nat × Nat)) : List Nat :=
  ((rs.filter fun r => decide (s.place r.1 = .hbm)).flatMap fun r => linesOf r.1 r.2).eraseDups

/-- The ranges in host memory. -/
def State.hostRanges (s : State) (rs : List (Nat × Nat)) : List (Nat × Nat) := rs.filter fun r => decide (s.place r.1 ≠ .hbm)

/-- Has the host memory among some ranges arrived for a job (R340)? -/
def State.jobArrived (s : State) (j : Job) (rs : List (Nat × Nat)) : Bool :=
  (s.hostRanges rs).isEmpty || (match j.due with
    | some t => decide (t ≤ s.clk)
    | none => false)

/-- A job sends its reads of host memory, each one PCIe transaction under the function of its DID, and waits for their
completions (R340, R461); `again` is due then. -/
def State.fetchHost (s : State) (die cl : Nat) (j : Job) (rs : List (Nat × Nat)) (again : Instr) : State :=
  match j.due with
  | some t => s.after (t - s.clk) again
  | none =>
    let t := s.clk + 1 + Config.latency s.free
    let s1 := (s.hostRanges rs).foldl (fun u r => u.portRequest j.did (u.place r.1) r.1 false r.2 []) s
    (({ s1 with free := s1.free + 1 } : State).setJob die cl { j with due := some t }).after (t - s.clk) again

/-- What a job reads is there (R336, R337, R340): `go` with the state that has read it, or `again` later. -/
def State.withRanges (s : State) (die cl : Nat) (j : Job) (rs : List (Nat × Nat)) (again : Instr) (go : State → State) : State :=
  if !s.jobArrived j rs then s.fetchHost die cl j rs again
  else match s.readLines die (s.hbmLines rs) with
    | none => (s.holdMisses die (s.hbmLines rs)).after 8 again
    | some s1 => go s1

/-- The translations of an engine are cached in its cluster (R420). -/
def State.cacheEngine (s : State) (ag : Agent) (va : Word) : State :=
  match s.xlat ag va with
  | .ok x =>
    if (x.st1 || x.st2) && canonical ag.mode va && decide (TlbHome.cluster ag.cluster ∈ s.tlbMisses ag va x) then
      { s with tlb := cacheAt ag va x s.tlb (.cluster ag.cluster) }
    else s
  | .error _ => s

/-- A write of an engine to HBM goes on its way (R350): it is in the caches of the engine's die, and goes home from there. -/
def State.engineWrite (s : State) (ctx : CtxId) (die addr : Nat) (bytes : List Byte) (sh : Bool) (did : BitVec 7) : State :=
  let id := s.nextId
  let s1 := s.putPend { id := id, owner := ctx, die := die, kind := .job, near := s.near die (lineOf addr), leave := 0,
                        ticket := { dom := 0, no := 0 }, atDie := true, waits := false, addr := addr, bytes := bytes,
                        shared := sh, did := did, mode := (s.ctx ctx).mode }
  (s1.flush fun p => decide (p.id = id) && p.near).soon (.homeWritePerform id)

/-- A write of an engine to host memory leaves as a posted write (R340). -/
def State.engineHostWrite (s : State) (did : BitVec 7) (addr : Nat) (bytes : List Byte) : State :=
  let s1 := s.portRequest did (s.place addr) addr true bytes.length bytes
  { s1 with mem := s1.mem.writeL addr bytes }

/-- The writes of a block go on their way: host memory at once, HBM into the caches of the engine's die (R350). -/
def JobAcc.commit (z : JobAcc) (ag : Agent) : State :=
  (coalesce (z.ws.reverse.map fun e => (e.1, [e.2.1], e.2.2))).foldl (fun t p =>
    if t.place p.1 = .hbm then t.engineWrite ag.ctx ag.die p.1 p.2.1 p.2.2 ag.did else t.engineHostWrite ag.did p.1 p.2.1) z.st

/-- A line that a job reads brings what its issuing context's reads bring (R353, R356); with ACQ it acquires at the job's scope
(R355). -/
def State.jobRead (s : State) (j : Job) (l : Nat) : State :=
  let s1 := s.noteRead j.ctx false (l * 64) 64
  if j.acq then
    s1.addSeen j.ctx (((s.published j.ctx (l * 64) 64).filter fun e => decide (e.1 ≤ j.scope.toNat)).map fun e => e.2)
  else s1

/-- The line accesses of a job at the port of the issuing core's slice (R342), and what its reads bring. -/
def State.enginePorts (s : State) (j : Job) (reads writes : List Nat) : State × Ticket :=
  let core := coreOf j.ctx
  let s1 := reads.foldl (fun t l => (t.jobRead j l).portLine core j.did false false true l) s
  let s2 := writes.foldl (fun t l => t.portLine core j.did false true true l) s1
  (s2, s2.lastTicket core j.did)

/-- A job after its block has read these lines: their place at the port, and the writes of others that it has read (R353). -/
def Job.tookLines (j : Job) (s : State) (t : Ticket) (reads : List Nat) : Job :=
  { j with ticket := t, due := none,
           seen := (j.seen ++ reads.flatMap fun l => (s.seenWrites j.ctx (l * 64) 64).map PWrite.id).eraseDups }

/-! Validity, panes, budgets. -/

/-- The failing check of a pane that a job names (R260). -/
def paneBad (p : Pane) (did : BitVec 7) : Option Nat :=
  if p.state = 0 then some 13 else if p.owner ≠ did then some 10 else if p.state ≠ 2 ∨ p.held = true then some 13 else none

/-- A pane address with a bit outside its fields (R257). -/
def paneAddrBad (a : Word) : Bool := !zeroBits a 63 59 || !zeroBits a 49 32

/-- The first failing condition of a job that the scheduler chooses (R260); one whose SRC and DST name the same pane ends with
pane_fault (log entry 63). -/
def State.jobInvalid (s : State) (die cl : Nat) (j : Job) : Option Nat :=
  let sp := bit j.ctl 8
  let dp := bit j.ctl 9
  if !zeroBits j.ctl 7 2 || !zeroBits j.ctl 63 10 || decide (2 ^ 40 ≤ j.n.toNat) || (sp && paneAddrBad j.src) ||
      (dp && paneAddrBad j.dst) then some 0
  else
    match (if sp then paneBad (s.jobPane die cl j.src).2.2 j.did else none) with
    | some x => some x
    | none =>
      if !dp then none
      else if sp && decide ((s.jobPane die cl j.src).1 = (s.jobPane die cl j.dst).1) &&
          decide ((s.jobPane die cl j.src).2.1 = (s.jobPane die cl j.dst).2.1) then some 13
      else paneBad (s.jobPane die cl j.dst).2.2 j.did

/-- A job takes its panes (R247). -/
def State.takePanes (s : State) (die cl : Nat) (j : Job) : State :=
  let s1 := if bit j.ctl 8 then
      s.modCore (s.jobPane die cl j.src).1 fun k => k.modPane (s.jobPane die cl j.src).2.1 fun p => p.hold false
    else s
  if bit j.ctl 9 then
    s1.modCore (s.jobPane die cl j.dst).1 fun k => k.modPane (s.jobPane die cl j.dst).2.1 fun p => p.hold true
  else s1

/-- A job releases its panes (R247). -/
def State.freePanes (s : State) (die cl : Nat) (j : Job) : State :=
  let s1 := if bit j.ctl 8 then
      s.modCore (s.jobPane die cl j.src).1 fun k => k.modPane (s.jobPane die cl j.src).2.1 Pane.free
    else s
  if bit j.ctl 9 then
    s1.modCore (s.jobPane die cl j.dst).1 fun k => k.modPane (s.jobPane die cl j.dst).2.1 Pane.free
  else s1

/-- The key of a (core, DID) in the block counts of a round (R441). -/
def blockKey (j : Job) : Nat := coreOf j.ctx * 128 + j.did.toNat

/-- Has a job's domain spent its budget of the round (R433, R441)? -/
def State.budgetSpent (s : State) (die : Nat) (j : Job) : Bool :=
  let l := localOf j.did
  let lxb := bits (s.core (coreOf j.ctx)).dptoken (8 * l + 7) (8 * l + 6)
  decide (lxb ≠ 0) && decide (16 * lxb ≤ (s.die die).blocks.getD (blockKey j) 0)

/-- May the scheduler choose the job (R441)? -/
def Job.eligible (j : Job) : Bool := decide (j.st ≠ .running) && j.ended.isNone

/-- Does the job run? -/
def Job.runs (j : Job) : Bool := decide (j.st = .running) && j.ended.isNone

/-- The job that the scheduler chooses (R441): the earliest whose budget is not spent, or the earliest. -/
def State.choose (s : State) (die cl : Nat) : Option Job :=
  let q := ((s.die die).queue cl).filter Job.eligible
  match q.find? fun j => !s.budgetSpent die j with
  | some j => some j
  | none => q.head?

/-- The indices below PROG, which a gather that starts or resumes reads again for its duplicate mask (R258). -/
def JobAcc.earlier (z : JobAcc) (ag : Agent) (j : Job) : Nat → Except Nat (List Nat)
  | 0 => .ok []
  | n + 1 =>
    match JobAcc.earlier z ag j n with
    | .error x => .error x
    | .ok l => (z.index ag j n).map fun i => l ++ [i]

/-- The reads of a gather's earlier indices for its duplicate mask (R258). -/
def Job.earlierAccs (j : Job) : List (AccKind × Word × Nat) :=
  if j.kind = .gather ∧ j.dup ≠ 0 then (upFrom 0 j.prog).map fun i => (.load, j.idx + BitVec.ofNat 64 (4 * i), 4) else []

/-- A waiting job that runs takes its panes (R247, R260). -/
def State.jobPanes (s : State) (die cl : Nat) (j : Job) : State := if j.st = .waiting then s.takePanes die cl j else s

/-- A chosen job starts running from PROG, or ends at once (R258, R260). -/
def State.startRun (s : State) (die cl : Nat) (j : Job) : State :=
  let z : JobAcc := { st := s, ws := [] }
  match (if j.kind = .gather ∧ j.dup ≠ 0 then z.earlier (j.agent die) j j.prog else .ok [] : Except Nat (List Nat)) with
  | .error x =>
    if x = linkWait then s.after 8 (.jobSchedule die cl)
    else (((s.jobPanes die cl j).setJob die cl { j with st := .running, due := none, ended := some (x + 1, j.prog) }).after 0
      (.jobFaultEnd die cl)).after 0 (.jobSchedule die cl)
  | .ok l =>
    ((s.jobPanes die cl j).setJob die cl { j with st := .running, due := none, before := l }).after 32 (.jobBlockEnd die cl)

/-- A chosen job reads again what it needs of its indices and starts (R258); while a line is held at its home (R337) or host memory has
not arrived (R340) it waits in its state. -/
def State.startJob (s : State) (die cl : Nat) (j : Job) : State :=
  let rs := s.engineRanges (j.agent die) j.earlierAccs
  s.withRanges die cl j rs (.jobSchedule die cl) fun s1 =>
    let (s2, t) := s1.enginePorts j (s1.hbmLines rs) []
    s2.startRun die cl (j.tookLines s1 t (s1.hbmLines rs))

/-- JOB_SCHEDULE (R441): At a block boundary or when idle, the Levanter engine chooses a waiting or suspended job. -/
def execJobSchedule (die cluster : Nat) (s : State) : Res :=
  .next (
    if ((s.die die).queue cluster).any Job.runs || (s.die die).levHarv.getLsbD cluster then s
    else match s.choose die cluster with
      | none => s
      | some j =>
        if j.st = .suspended then s.startJob die cluster j
        else match s.jobInvalid die cluster j with
          | some x =>
            ((s.setJob die cluster { j with ended := some (x + 1, j.prog) }).after 0 (.jobFaultEnd die cluster)).after 0
              (.jobSchedule die cluster)
          | none => s.startJob die cluster j)

/-- Indices to the next block boundary, 4,096 / e elements apart, or to N (R260). -/
def Job.blockLeft (j : Job) : Nat :=
  let b := 4096 / j.elemBytes
  Nat.min (b - j.prog % b) (j.n.toNat - j.prog)

/-- A block uses the engine (R503) and is counted in the round (R441); the round's end is due at the next multiple of 4,096 clk. -/
def State.countBlock (s : State) (die cl : Nat) (j : Job) : State :=
  let n := (s.die die).blocks.getD (blockKey j) 0
  let s0 := s.useUnits die [(5, cl)]
  let s1 := if n = 0 then s0.after (4096 - s.clk % 4096) (.levanterRound die cl) else s0
  s1.modDie die fun d => { d with blocks := d.blocks.set (blockKey j) (n + 1) }

/-- Write to a job record as the issuing context's engine does: HBM that its granule now denies it (R425) takes nothing (log entry
64). -/
def State.writeRecord (s : State) (die : Nat) (j : Job) (off : Nat) (bs : List Byte) : State :=
  if s.place j.recPa = .hbm then
    if s.granuleOk (j.agent die) j.recPa then
      (s.portLine (coreOf j.ctx) j.did false true true (lineOf j.recPa)).engineWrite j.ctx die (j.recPa + off) bs j.recSh j.did
    else s
  else s.engineHostWrite j.did (j.recPa + off) bs

/-- A block of a job has been done, and counts (R260, R441): the job ends, is suspended, or goes on; one that waits for links that
retrain is not done. -/
def State.blockDone (s0 : State) (die cl : Nat) (j : Job) (stop : Option Nat) : State :=
  let s := if stop = some linkWait then s0 else s0.countBlock die cl j
  match stop with
  | some x =>
    if x = linkWait then (s.setJob die cl j).after 8 (.jobBlockEnd die cl)
    else ((s.setJob die cl { j with ended := some (x + 1, j.prog) }).after 0 (.jobFaultEnd die cl)).after 0 (.jobSchedule die cl)
  | none =>
    if j.n.toNat ≤ j.prog then
      ((s.setJob die cl { j with ended := some (0, j.n.toNat), prog := j.n.toNat }).after 0 (.jobComplete die cl)).after 0
        (.jobSchedule die cl)
    else if s.budgetSpent die j then
      ((s.writeRecord die j 0x30 (bytesOf j.prog 8)).setJob die cl { j with st := .suspended }).after 0 (.jobSchedule die cl)
    else (s.setJob die cl j).after 32 (.jobBlockEnd die cl)

/-- JOB_BLOCK_END (R260): A running job reaches a 4 KiB block boundary; a spent budget suspends it.  The block waits while its
accesses wait at the port (R342), for host memory (R340), or for a line that is held at its home (R337). -/
def execJobBlockEnd (die cluster : Nat) (s : State) : Res :=
  .next (match ((s.die die).queue cluster).find? Job.runs with
    | none => s
    | some j =>
      let ag := j.agent die
      let rs := s.engineRanges ag (JobAcc.run { st := s, ws := [] } ag cluster j j.blockLeft).1.as.reverse
      if !s.portServed (coreOf j.ctx) j.ticket then s.after 1 (.jobBlockEnd die cluster)
      else s.withRanges die cluster j rs (.jobBlockEnd die cluster) fun s0 =>
        let (z, j1, stop) := JobAcc.run { st := s0, ws := [] } ag cluster j j.blockLeft
        let s1 := z.as.reverse.foldl (fun t a => t.cacheEngine ag a.2.1) (z.commit ag)
        let (s2, t) := s1.enginePorts j (s0.hbmLines rs) (z.ws.map fun e => lineOf e.1).eraseDups
        s2.blockDone die cluster (j1.tookLines s0 t (s0.hbmLines rs)) stop)

/-- Must a pending write be performed before a job's end, a release at its scope with REL and at CLUSTER without (R261, R353,
R355): the job's own, the earlier ones of its context, and beyond the die those of others that happen before? -/
def Job.holdsEnd (j : Job) (p : PWrite) : Bool :=
  let wide := j.rel && decide (3 ≤ j.scope.toNat)
  (decide (p.owner = j.ctx) && (decide (p.kind = .job) || decide (p.id ∈ j.waitFor)) && (!p.atDieDone || wide)) ||
    (wide && decide (p.id ∈ j.seen))

/-- The end of a job pushes what it waits for: what is left is on its way, and whether anything is. -/
def State.jobWritesDone (s : State) (j : Job) : State × Bool :=
  let s1 := s.flush fun p => p.atDie && j.holdsEnd p
  (s1, !s1.pend.any j.holdsEnd)

/-- PROG and STAT are written, after every write of the job, and the panes are released (R260, R261): whether this is done.  What the
job has read and written must have passed the port (R342). -/
def State.recordEnd (s : State) (die cl : Nat) (j : Job) (stat prog : Nat) : State × Bool :=
  if j.written then (s, true)
  else if !s.portServed (coreOf j.ctx) j.ticket then (s, false)
  else
    let (s1, ok) := s.jobWritesDone j
    if !ok then (s1, false)
    else if !j.recorded then
      let s2 := s1.writeRecord die j 0x30 (bytesOf prog 8 ++ bytesOf stat 8)
      (s2.setJob die cl { j with recorded := true, ticket := s2.lastTicket (coreOf j.ctx) j.did }, false)
    else ((if j.st = .waiting then s1 else s1.freePanes die cl j).setJob die cl { j with written := true }, true)

/-- The completion message of a job (R262). -/
def jobMsg (k : Ctx) (j : Job) (stat prog : Nat) : Msg :=
  { kind := 0, org := true, srank := 0, gang := k.gang, trank := k.rank,
    payload := BitVec.ofNat 512 (j.id.toNat + stat * 2 ^ 64 + prog * 2 ^ 128) }

/-- An ended job leaves its place once its message is delivered (R262). -/
def State.endJob (s : State) (die cl : Nat) (j : Job) (stat prog : Nat) : State :=
  let (s1, done) := s.recordEnd die cl j stat prog
  if !done then s1
  else
    let (s2, ok) := s1.deliverTo j.ctx (jobMsg (s1.ctx j.ctx) j stat prog)
    if !ok then s2
    else (s2.setQueue die cl (((s2.die die).queue cl).filter fun q => decide (q.id ≠ j.id))).after 0 (.jobSchedule die cl)

/-- The jobs of a cluster that have ended, in order, with STAT and PROG, as far as `sel` picks their STAT. -/
def State.endedJobs (s : State) (die cl : Nat) (sel : Nat → Bool) : List (Job × Nat × Nat) :=
  ((s.die die).queue cl).filterMap fun j => match j.ended with
    | some (stat, prog) => if sel stat then some (j, stat, prog) else none
    | none => none

/-- Every ended job of a cluster goes on with its end, whether or not one before it waits (R260, R262); what waits is tried
again. -/
def State.endJobs (s : State) (die cl : Nat) (sel : Nat → Bool) (again : Instr) : State :=
  let s1 := (s.endedJobs die cl sel).foldl (fun t e => t.endJob die cl e.1 e.2.1 e.2.2) s
  if (s1.endedJobs die cl sel).isEmpty then s1 else s1.afterOnce 8 again

/-- JOB_FAULT_END (R260): A job index fails a check and the job ends with STAT and PROG. -/
def execJobFaultEnd (die cluster : Nat) (s : State) : Res :=
  .next (s.endJobs die cluster (fun n => decide (n ≠ 0)) (.jobFaultEnd die cluster))

/-- JOB_COMPLETE (R260): The last index of a job is done and the job ends with STAT 0. -/
def execJobComplete (die cluster : Nat) (s : State) : Res :=
  .next (s.endJobs die cluster (fun n => decide (n = 0)) (.jobComplete die cluster))

/-- LEVANTER_ROUND (R441): A 4,096-clk round ends and the per-domain block counts of the cluster's cores restart. -/
def execLevanterRound (die cluster : Nat) (s : State) : Res :=
  .next (s.modDie die fun d =>
    { d with blocks := d.blocks.filter fun e => decide (e.1 / 128 / 8 ≠ die * 8 + cluster) })

/-- The job id of the next job of a context (R259). -/
def jobId (c : CtxId) (k : Ctx) : Word :=
  BitVec.ofNat 64 (k.jobs.toNat + slotOf c * 2 ^ 16 + coreOf c % 64 * 2 ^ 19 + dieOf c * 2 ^ 25)

/-- Levanter places of a core in its cluster's queue (R427). -/
def corePlaces : Nat := 8

/-- Levanter places of a (core, DID) (R427, R432). -/
def State.levanterPlaces (s : State) (c : CtxId) : Nat :=
  let l := localOf (s.did c)
  let q := bits (s.core (coreOf c)).dpquota (8 * l + 7) (8 * l + 5)
  if q = 0 then 8 else q

/-- The check of a job record (R257): as a load and as a store of 64 bytes, in generic memory. -/
def State.recordCheck (s : State) (ag : Agent) (xa : Word) : Except Trap Access :=
  match s.checkEngine ag .load xa 64 with
  | .error t => .error t
  | .ok _ => s.checkEngine ag .store xa 64

/-- A Levanter command of a context acts in the world of its cluster's engine, or traps (R426). -/
def State.inLevanterWorld (s : State) (c : CtxId) (go : State) : State :=
  if decide ((s.ctx c).mode = .m) != (s.die (dieOf c)).levW.getLsbD (clusterOf (coreOf c)) then s.openTrap c 9 else go

/-- The job of a record at its issue (R257, R259, R353): what its context has written and read so far comes before its end. -/
def State.jobOf (s : State) (kind : JobKind) (id : Word) (ag : Agent) (a : Access) (acq rel : Bool) (scope : BitVec 3) (bs : List Byte) : Job :=
  { id := id, ctx := ag.ctx, did := ag.did, mode := ag.mode, sptb := ag.sptb, hptb := ag.hptb, kind := kind, recPa := a.pa,
    recSh := writeShared ag a, acq := acq, rel := rel, scope := scope, st := .waiting, ctl := blockWord bs 0,
    src := blockWord bs 1, dst := blockWord bs 2, n := blockWord bs 3, idx := blockWord bs 4, dup := blockWord bs 5,
    prog := (blockWord bs 6).toNat, before := [], got := [], ended := none, recorded := false, written := false,
    ticket := { dom := 0, no := 0 }, waitFor := (s.pend.filter fun p => p.isOf ag.ctx).map PWrite.id,
    seen := s.stillPending (s.ctx ag.ctx).seen, due := none }

/-- A context counts a job that it issues (R259). -/
def Ctx.countJob (k : Ctx) : Ctx := { k with jobs := k.jobs + 1 }

/-- A job takes a place in its cluster's queue (R259): its record is read as a block, and x[d] gets its id. -/
def State.queueJob (s : State) (c : CtxId) (kind : JobKind) (d : BitVec 5) (xa : Word) (a : Access) (scope : BitVec 3)
    (acq rel : Bool) : State :=
  let ag := s.agent c
  let die := dieOf c
  let cl := clusterOf (coreOf c)
  let id := jobId c (s.ctx c)
  let q := (s.die die).queue cl
  let core := q.filter fun j => decide (coreOf j.ctx = coreOf c)
  let mine := core.filter fun j => decide (j.did = ag.did)
  if Config.jobQueueDepth ≤ q.length ∨ corePlaces ≤ core.length ∨ s.levanterPlaces c ≤ mine.length then s.stall c
  else s.withBlock c xa 64 fun bs s1 =>
    let s2 := s1.setQueue die cl (q ++ [s1.jobOf kind id ag a acq rel scope bs])
    ((s2.soon (.jobSchedule die cl)).modCtx c Ctx.countJob).retireX c d id

/-- LXCOPY, LXGATH and LXSCAT (R257-R261, R426). -/
def State.levanter (s : State) (c : CtxId) (kind : JobKind) (d : BitVec 5) (xa : Word) (scope : BitVec 3) (acq rel : Bool) :
    State :=
  let ag := s.agent c
  s.inLevanterWorld c <| match s.walkReady ag [xa] 64 with
    | none => (s.holdWalks ag [xa] 64).stallBounded c
    | some s0 => match s0.recordCheck ag xa with
      | .error t => s0.accessTrap c .load t
      | .ok a =>
        let (s1, closed) := s0.closeInterval c [xa]
        if !closed then s1.stallBounded c
        else if (s1.ctx c).isShadow then (s1.modCtx c Ctx.countJob).retireX c d (jobId c (s1.ctx c))
        else
          let (s2, ok) := if acq then s1.release c ((s1.ctx c).effScope scope.toNat) .access else (s1, true)
          if !ok then s2.stallBounded c else s2.queueJob c kind d xa a scope acq rel

/-- The state of a job as LXPOLL reads it (R263). -/
def State.pollJob (s : State) (c : CtxId) (id : Word) : Word :=
  match ((s.die (bits id 28 25)).queue (bits id 24 22)).find? fun j =>
      decide (j.id = id) && decide (j.did = s.did c) && j.ended.isNone with
  | none => 0
  | some j => match j.st with
    | .waiting => 1
    | .running => 2
    | .suspended => 3

/-- LXPOLL (R263): its result is a logged channel (R512). -/
def State.lxpoll (s : State) (c : CtxId) (d : BitVec 5) (id : Word) : State :=
  s.inLevanterWorld c (s.withLogged c [(6, s.pollJob c id)] fun s1 vs => s1.retireX c d (vs.getD 0 0))

/-- LXCOPY (R258): Queues a Levanter byte-copy job. -/
def execLxcopy (d a : BitVec 5) (sh : BitVec 3) (q e : BitVec 1) (s : State) : Res :=
  .next (s.issue (encLxcopy d a sh q e) fun c k s =>
    s.levanter c .copy d (k.rx a) sh (decide (q = 1)) (decide (e = 1)))

/-- LXGATH (R258): Queues a Levanter gather job with duplicate marking. -/
def execLxgath (d a : BitVec 5) (sh : BitVec 3) (q e : BitVec 1) (s : State) : Res :=
  .next (s.issue (encLxgath d a sh q e) fun c k s =>
    s.levanter c .gather d (k.rx a) sh (decide (q = 1)) (decide (e = 1)))

/-- LXSCAT (R258): Queues a Levanter scatter job. -/
def execLxscat (d a : BitVec 5) (sh : BitVec 3) (q e : BitVec 1) (s : State) : Res :=
  .next (s.issue (encLxscat d a sh q e) fun c k s =>
    s.levanter c .scatter d (k.rx a) sh (decide (q = 1)) (decide (e = 1)))

/-- LXPOLL (R263): Returns the state of a job id. -/
def execLxpoll (d a : BitVec 5) (s : State) : Res :=
  .next (s.issue (encLxpoll d a) fun c k s => s.lxpoll c d (k.rx a))

end Sys2Proof.Machine
end

