-- ==== Sys2Proof/Machine/Tasks.lean ====
section
/-! DEFINITION. Tasks and deques (R267-R273, R313, R314), gangs and barriers (R274-R277), GCAST (R278). -/

namespace Sys2Proof.Machine

/-! Spawning. -/

/-- The lowest slot of a core that is free for a spawner (R267). -/
def State.freeSlot (s : State) (core : CoreId) (md : Mode) (did : BitVec 7) : Option CtxId :=
  ((upFrom 0 7).map fun i => core * 8 + i).find? fun t =>
    let k := s.ctx t
    k.inWaitm && decide (k.mode = md) && decide (s.did t = did) && k.mailbox.isEmpty && !k.wake && k.spawn.isNone &&
      k.spawnq.isEmpty && k.swOut.isNone

/-- The core that RSPAWN names (R268); for a die number of 12 to 15 one that the package does not have, with a core entry as after
reset (log entry 65). -/
def spawnCore (xa : Word) : CoreId := bits xa 9 6 * 64 + bits xa 5 0

/-- RSPAWN (R268): its checks, its release (R355), and the request on its way. -/
def State.rspawn (s : State) (c : CtxId) (xa xb : Word) : State :=
  let k := s.ctx c
  let core := spawnCore xa
  if !zeroBits xa 63 10 then s.trap c (mkTrap 9 xa)
  else if xb.extractLsb' 0 2 ≠ 0 then s.trap c (mkTrap 5 xb)
  else if !canonical k.mode xb then s.trap c (mkTrap 8 xb)
  else if (s.core core).part.toNat ≠ s.part c then s.trap c (mkTrap 10 xa)
  else
    let (s1, closed) := s.closeInterval c [xa, xb]
    if !closed then s1.stallBounded c
    else if (s1.ctx c).isShadow then s1.retire c
    else
      let (s2, ok) := s1.release c ((s1.ctx c).effScope (narrowScope c (core * 8))) .message
      if !ok then s2.stallBounded c
      else (s2.modCtx c fun k => { k with wait := .answer 0 }).soon (.spawnRequestArrival c core xb)

/-- SPAWN_REQUEST_ARRIVAL (R268): An RSPAWN request reaches the target core, which starts a free slot or answers none; the
spawner's release happens before what the child does (R356). -/
def execSpawnRequestArrival (c core : Nat) (pc : Word) (s : State) : Res :=
  let k := s.ctx c
  .next (
    if k.wait ≠ .answer 0 then s
    else match (if (s.core core).harv then none else s.freeSlot core k.mode (s.did c)) with
      | some t =>
        ((s.synced c t).modCtx t fun q => q.startAt pc (k.rx 10) (k.rx 11) (k.rx 12) (k.rx 13)).modCtx c fun q =>
          { q.retired with wait := .none }
      | none => s.modCtx c fun q => { (q.wx 1 (q.pc + 4)).retired with pc := pc, wait := .none })

/-! Deques. -/

/-- Both parts of a deque are empty (R269). -/
def Core.dqEmpty (k : Core) : Bool := k.deque.isEmpty && decide (k.ringCnt = 0)

/-- The records that the spill ring holds (R269). -/
def Core.ringSize (k : Core) (nl : Nat) : Nat := (k.pane 63).size * nl / 64

/-- The 64 bytes of a record in the ring (R269). -/
def Task.bytes (t : Task) : List Byte :=
  [t.pc, t.a0, t.a1, t.a2, t.a3, t.join].flatMap (fun w => bytesOf w.toNat 8) ++ List.replicate 16 0

/-- Record j of the ring. -/
def Core.ringRecord (k : Core) (nl j : Nat) : Task :=
  let bs := k.paneRead (k.pane 63) nl (64 * j) 48
  { pc := blockWord bs 0, a0 := blockWord bs 1, a1 := blockWord bs 2, a2 := blockWord bs 3, a3 := blockWord bs 4,
    join := blockWord bs 5 }

/-- Pane 63, while it is ready, is held exactly while the ring is not empty (R270); a GCAST that reads it holds it to its end (R247). -/
def Core.ringHeld (k : Core) : Core :=
  k.modPane 63 fun p => if p.state = 2 then { p with held := decide (k.ringCnt ≠ 0) } else p

/-- DQPUSH (R270). -/
def State.dqPush (s : State) (c : CtxId) (t : Task) : State :=
  let core := coreOf c
  let k := s.core core
  let did := s.did c
  let nl := physLanes core
  if !k.dqEmpty && decide (k.dqOwner ≠ did) then s.openTrap c 10
  else if k.deque.length < Config.dequeDepth then
    (s.setCore core { k with deque := t :: k.deque, dqOwner := did }).retire c
  else
    let p := k.pane 63
    if p.state ≠ 2 ∨ p.owner ≠ did ∨ (k.ringCnt = 0 ∧ p.held = true) ∨ k.ringSize nl ≤ k.ringCnt then s.openTrap c 13
    else
      let j := (k.ringOld + k.ringCnt) % k.ringSize nl
      let top := k.deque.getLastD t
      let k1 := k.paneWrite p nl (64 * j) top.bytes
      let k2 : Core := { k1 with deque := t :: k.deque.dropLast, ringCnt := k.ringCnt + 1 }
      (s.setCore core k2.ringHeld).retire c

/-- The bottom record of a deque, else the ring's newest, and the core without it (R271). -/
def Core.popBottom (k : Core) (nl : Nat) : Option (Task × Core) :=
  match k.deque with
  | t :: r => some (t, { k with deque := r })
  | [] =>
    if k.ringCnt = 0 then none
    else
      let k1 : Core := { k with ringCnt := k.ringCnt - 1 }
      some (k.ringRecord nl ((k.ringOld + k.ringCnt - 1) % k.ringSize nl), k1.ringHeld)

/-- The oldest record of a deque, and the core without it (R271). -/
def Core.popTop (k : Core) (nl : Nat) : Option (Task × Core) :=
  if k.ringCnt ≠ 0 then
    let k1 : Core := { k with ringCnt := k.ringCnt - 1, ringOld := (k.ringOld + 1) % k.ringSize nl }
    some (k.ringRecord nl (k.ringOld % k.ringSize nl), k1.ringHeld)
  else match k.deque.getLast? with
    | some t => some (t, { k with deque := k.deque.dropLast })
    | none => none

/-- A record as the six values of channel 5 (R512); no record is the single value 0. -/
def taskItems (t : Option Task) : List (Nat × Word) :=
  match t with
  | some t => [(5, t.pc), (5, t.a0), (5, t.a1), (5, t.a2), (5, t.a3), (5, t.join)]
  | none => [(5, 0)]

/-- The values of a record reach the registers (R271). -/
def State.retireTask (s : State) (c : CtxId) (d : BitVec 5) (vs : List Word) : State :=
  (s.modCtx c fun k =>
    ((((k.wx 10 (vs.getD 1 0)).wx 11 (vs.getD 2 0)).wx 12 (vs.getD 3 0)).wx 13 (vs.getD 4 0)).wx 14 (vs.getD 5 0)).retireX
      c d (vs.getD 0 0)

/-- DQPOP takes a record, given with the change that removes it, or none (R271). -/
def State.finishPop (s : State) (c : CtxId) (d : BitVec 5) (t : Option Task) (remove : State → State) : State :=
  s.withLogged c (taskItems t) fun s1 vs =>
    if t.isSome then (remove s1).retireTask c d vs else s1.retireX c d 0

/-- The cores of a thief's steal domain in the order it tries them (R271, R272, R313); a die number of 12 and above names none (log
entry 65). -/
def State.stealOrder (s : State) (c : CtxId) : List CoreId :=
  let w := (s.ctx c).stealdom
  if 12 ≤ bits w 16 13 then []
  else (upFrom (bits w 5 0) (Nat.min (bits w 12 6) 64)).map fun i => bits w 16 13 * 64 + i % 64

/-- Does a thief try a core (R271): not its own, not harvested, its deque not another DID's? -/
def State.stealable (s : State) (c : CtxId) (v : CoreId) : Bool :=
  let k := s.core v
  decide (v ≠ coreOf c) && !k.harv && (k.dqEmpty || decide (k.dqOwner = s.did c))

/-- The victims of a thief (R271). -/
def State.victims (s : State) (c : CtxId) : List CoreId := (s.stealOrder c).filter fun v => s.stealable c v

/-- A steal request goes to the next victim, or no record is found (R271). -/
def State.stealFrom (s : State) (c : CtxId) (d : BitVec 5) (vs : List CoreId) : State :=
  match vs with
  | [] => (s.modCtx c fun k => { k with wait := .none }).finishPop c d none id
  | v :: _ => (s.modCtx c fun k => { k with wait := .answer d }).soon (.stealRequest c v)

/-- DQPOP of a member whose record comes from its primary or its log (R509, R513). -/
def State.popForwarded (s : State) (c : CtxId) (d : BitVec 5) : State :=
  match s.logged1 c 5 0 with
  | .values s1 vs =>
    if vs.getD 0 0 = 0 then s1.retireX c d 0
    else s.withLogged c (List.replicate 6 (5, 0)) fun s2 vs => s2.retireTask c d vs
  | _ => s.withLogged c [(5, 0)] fun s1 _ => s1

/-- DQPOP (R271). -/
def State.dqPop (s : State) (c : CtxId) (d : BitVec 5) : State :=
  let core := coreOf c
  let k := s.core core
  if (s.ctx c).isShadow || (s.ctx c).replays then s.popForwarded c d
  else if !k.dqEmpty && decide (k.dqOwner ≠ s.did c) then s.openTrap c 10
  else match k.popBottom (physLanes core) with
    | some (t, k') => s.finishPop c d (some t) fun s1 => s1.setCore core k'
    | none => s.stealFrom c d (s.victims c)

/-- A victim serves a steal request (R271): it gives its oldest record, or the thief tries the next victim. -/
def State.serveSteal (s : State) (c : CtxId) (d : BitVec 5) (victim : CoreId) : State :=
  let k := s.core victim
  match (if k.dqOwner = s.did c then k.popTop (physLanes victim) else none) with
  | some (t, k') => (s.modCtx c fun q => { q with wait := .none }).finishPop c d (some t) fun s1 => s1.setCore victim k'
  | none =>
    s.stealFrom c d ((((s.stealOrder c).dropWhile fun v => decide (v ≠ victim)).drop 1).filter fun v => s.stealable c v)

/-- Has a steal request of a lower requester reached the victim on the same clk (R314)? -/
def State.stealBefore (s : State) (c : CtxId) (victim : CoreId) : Bool :=
  s.agenda.any fun e => decide (e.1 ≤ s.clk) && (match e.2 with
    | .stealRequest z v => decide (v = victim) && decide (z < c)
    | _ => false)

/-- STEAL_REQUEST (R314): A victim serves a steal request on the Eddy network, giving its oldest record; requests of one clk
in ascending order of the requester. -/
def execStealRequest (c victim : Nat) (s : State) : Res :=
  .next (match (s.ctx c).wait with
    | .answer d => if s.stealBefore c victim then s.after 0 (.stealRequest c victim) else s.serveSteal c d victim
    | _ => s)

/-! Gangs. -/

/-- GNEW (R274). -/
def State.gnew (s : State) (c : CtxId) (d : BitVec 5) (n : Nat) : State :=
  match (if n = 0 ∨ 8192 < n then none else (upFrom 1 4095).find? fun g => (s.gang? g).isNone) with
  | none => s.retireX c d (BitVec.allOnes 64)
  | some g =>
    let e : Gang := { st := .forming, size := n, members := [], entries := [], gen := 0 }
    ({ s with gangs := s.gangs.set g e } : State).retireX c d (BitVec.ofNat 64 g)

/-- Is the context a member of a gang already (R275)? -/
def State.isMember (s : State) (t : CtxId) : Bool :=
  decide ((s.ctx t).gang ≠ 0) || List.any s.gangs fun e : Nat × Gang => decide (t ∈ e.2.members)

/-- A gang becomes active (R275, R304): each member's GANG, its generation, its rank entries. -/
def State.activate (s : State) (g : Nat) (e : Gang) : State :=
  let e' : Gang := { e with st := .active, gen := 0,
                            entries := e.members.map fun t => { coord := s.coord t, it := false, v := true } }
  (e.members.zip (upFrom 0 e.members.length)).foldl (fun t p =>
    t.modCtx p.1 fun k => { k with gang := g, rank := p.2, gbarGen := 0, arrived := false })
    { s with gangs := s.gangs.set g e' }

/-- GADD (R275). -/
def State.gadd (s : State) (c : CtxId) (xa xb : Word) : State :=
  match s.gang? xa.toNat with
  | none => s.trap c (mkTrap 9 xa)
  | some e =>
    let t := bits xb 12 0
    if e.st ≠ .forming then s.trap c (mkTrap 9 xa)
    else if bits xb 18 13 ≠ s.pkgNum ∨ 12 ≤ bits xb 12 9 then s.trap c (mkTrap 9 xb)
    else if s.part t ≠ s.part c ∨ (e.members.head?.any fun m => decide (s.did m ≠ s.did t)) = true then s.trap c (mkTrap 10 xb)
    else if slotOf t = 7 ∨ (s.core (coreOf t)).harv = true ∨ s.isMember t = true then s.trap c (mkTrap 9 xb)
    else
      let e' : Gang := { e with members := e.members ++ [t] }
      (if e'.members.length = e.size then s.activate xa.toNat e' else { s with gangs := s.gangs.set xa.toNat e' }).retire c

/-- The gang that GSTOP or GRESUME names, if it is neither free nor forming (R276). -/
def State.namedGang (s : State) (xa : Word) : Option Gang :=
  if !zeroBits xa 62 12 then none
  else match s.gang? (bits xa 11 0) with
    | some e => if e.st = .forming then none else some e
    | none => none

/-- GSTOP (R276): the wait is interruptible (R322). -/
def State.gstop (s : State) (c : CtxId) (xa : Word) : State :=
  match s.namedGang xa with
  | none => s.trap c (mkTrap 9 xa)
  | some e => if e.st = .stopped then s.retire c else (s.stopGang (bits xa 11 0)).stall c

/-- The members of a gang leave it (R276), and the messages that are held for its ranks go on (R307). -/
def State.freeGang (s : State) (g : Nat) (e : Gang) : State :=
  let s1 := s.freeHolds g e
  e.members.foldl (fun t m => t.modCtx m fun k => { k with gang := 0, rank := 0 }) { s1 with gangs := s1.gangs.erase g }

/-- GRESUME (R276). -/
def State.gresume (s : State) (c : CtxId) (xa : Word) : State :=
  match s.namedGang xa with
  | none => s.trap c (mkTrap 9 xa)
  | some e =>
    if e.st = .stopped then
      if bit xa 63 then (s.freeGang (bits xa 11 0) e).retire c
      else ({ s with gangs := s.gangs.set (bits xa 11 0) { e with st := .active } } : State).retire c
    else if bit xa 63 then s.trap c (mkTrap 9 xa)
    else s.retire c

/-- GANG_STOP_COMPLETE (R276): Every member has taken gang_stop and the gang becomes stopped. -/
def execGangStopComplete (gang : Nat) (s : State) : Res :=
  .next (match s.gang? gang with
    | some e =>
      if e.st = .stopping ∧ (e.members.all fun m => (s.ctx m).pendStop.isNone) = true then
        { s with gangs := s.gangs.set gang { e with st := .stopped } }
      else s
    | none => s)

/-- W, the narrowest scope that holds every member (R277). -/
def Gang.scope (g : Gang) : Nat :=
  match g.members with
  | [] => 0
  | m :: t => t.foldl (fun w x => Nat.max w (narrowScope m x)) 0

/-- Has every member arrived for the gang's generation (R277)? -/
def State.allArrived (s : State) (g : Gang) : Bool :=
  g.members.all fun m => (s.ctx m).arrived && decide ((s.ctx m).gbarGen = g.gen)

/-- The barrier ends for a member (R277). -/
def Ctx.leftGbar (k : Ctx) : Ctx := { k.resumed with gbarGen := k.gbarGen + 1, arrived := false }

/-- The barrier ends for a member: what every member has released at its arrival happens before what the member does next
(R356). -/
def State.passGbar (s : State) (g : Gang) (m : CtxId) : State :=
  (g.members.foldl (fun t p => t.synced p m) s).modCtx m Ctx.leftGbar

/-- GBAR (R277): an interrupted barrier leaves the arrival standing. -/
def State.gbar (s : State) (c : CtxId) (word : BitVec 32) : State :=
  let k := s.ctx c
  match (if k.gangSeen = 0 then none else s.gang? k.gangSeen) with
  | none => s.illegal c word
  | some g =>
    if k.arrived then
      if k.gbarGen < g.gen then s.passGbar g c else s.modCtx c fun k => k.park .gbar
    else
      let (s1, closed) := s.closeInterval c []
      if !closed then s1.stallBounded c
      else if (s1.ctx c).isShadow then s1.retire c
      else
        let (s2, ok) := s1.release c ((s1.ctx c).effScope g.scope) .message
        if !ok then s2.stallBounded c
        else (s2.modCtx c fun k => { k.park .gbar with arrived := true }).soon
          (.gbarArrivalSignal k.gang k.rank)

/-- GBAR_ARRIVAL_SIGNAL (R277): A member's barrier arrival reaches the gang over the Eddy network. -/
def execGbarArrivalSignal (gang _rank : Nat) (s : State) : Res :=
  .next (match s.gang? gang with
    | some g => if s.allArrived g then s.after (if g.scope ≤ 2 then 32 else 64) (.gbarGenerationComplete gang) else s
    | none => s)

/-- GBAR_GENERATION_COMPLETE (R277): The last arrival advances the gang generation and releases the waiting members. -/
def execGbarGenerationComplete (gang : Nat) (s : State) : Res :=
  .next (match s.gang? gang with
    | some g =>
      if s.allArrived g then
        g.members.foldl (fun t m => if (t.ctx m).run = .parked .gbar then t.passGbar g m else t)
          { s with gangs := s.gangs.set gang { g with gen := g.gen + 1 } }
      else s
    | none => s)

/-! GCAST. -/

/-- The members whose panes a GCAST writes (R278): the issuer's own pane is excluded when it is the source. -/
def Gang.castMembers (g : Gang) (c : CtxId) (own : Bool) : List CtxId :=
  g.members.filter fun m => !own || decide (coreOf m ≠ coreOf c)

/-- Is the pane of a member unfit to take n bytes of a GCAST (R278)? -/
def State.castUnfit (s : State) (m : CtxId) (p n : Nat) : Bool :=
  let q := (s.core (coreOf m)).pane p
  decide (q.state ≠ 2) || q.held || decide (q.owner ≠ s.did m) || decide (q.size * physLanes (coreOf m) < n)

/-- The accesses to n lines of a GCAST's sealed source, each checked as a load (R425, R436), from line i on. -/
def State.castScan (s : State) (ag : Agent) (xa : Word) (i : Nat) : Nat → Except Trap (List Access)
  | 0 => .ok []
  | n + 1 =>
    match s.checkEngine ag .load (xa + BitVec.ofNat 64 (64 * i)) 64 with
    | .error t => .error t
    | .ok a => (State.castScan s ag xa (i + 1) n).map fun as => a :: as

/-- Do these lines lie inside one sealed entry (R278)? -/
def State.castSealed (s : State) (as : List Access) : Bool :=
  match as with
  | [] => true
  | a :: _ => match s.sealAt a.pa with
    | some (i, e) => !e.draining && as.all fun b =>
        decide (s.homeKey b.pa = s.homeKey a.pa) && decide ((s.sealAt b.pa).map Prod.fst = some i)
    | none => false

/-- The lines of the sealed source of a GCAST (R278), or the trap of the first check that fails: one of R119 with its own cause (log
entry 66). -/
def State.castLines (s : State) (c : CtxId) (xa : Word) (n : Nat) : Except Trap (List Access) :=
  if xa.toNat % 64 ≠ 0 then .error (mkTrap 9 xa)
  else match s.castScan (s.agent c) xa 0 (n / 64) with
    | .error t => .error t
    | .ok as => if s.castSealed as then .ok as else .error (mkTrap 9 xa)

/-- The source of a GCAST of n bytes passes its check, and its bytes reach `go` with the state in which they have been read
(R278, R336): `ready` stands between the check and the read. -/
def State.castSource (s : State) (c : CtxId) (xa xb : Word) (p n : Nat) (ready : State → (State → State) → State)
    (go : List Byte → State → State) : State :=
  let ag := s.agent c
  let core := coreOf c
  if xa = 0 then
    let q := (s.core core).pane p
    if q.state ≠ 2 ∨ q.size * physLanes core < n then s.trap c (mkTrap 13 xb)
    else ready s fun t => go ((t.core core).paneRead q (physLanes core) 0 n) t
  else
    let vas := (upFrom 0 (n / 64)).map fun i => xa + BitVec.ofNat 64 (64 * i)
    match s.walkReady ag vas 64 with
    | none => (s.holdWalks ag vas 64).stallBounded c
    | some s0 =>
      match s.castLines c xa n with
      | .error t => s0.accessTrap c .load t
      | .ok as => ready s0 fun s1 =>
        match s1.readLines (dieOf c) (accLines as) with
        | none => (s1.holdMisses (dieOf c) (accLines as)).stallBounded c
        | some s2 => go (as.flatMap fun a => s2.view c (dieOf c) a.pa 64) (s2.takeReads c as 64)

/-- A pane that a GCAST has read or written is ready again (R247); the spill ring holds pane 63 on (R270). -/
def Core.castFreed (k : Core) (p : Nat) : Core :=
  let k1 := k.modPane p Pane.free
  if p = 63 then k1.ringHeld else k1

/-- Every copy has landed (R278): the issuer's own pane is released if it is the source (R247), and the issuer goes on. -/
def State.castDone (s : State) (c : CtxId) : State :=
  let s1 := match (s.ctx c).castSrc with
    | some p => s.modCore (coreOf c) fun k => k.castFreed p
    | none => s
  s1.modCtx c fun k => { k.retired with wait := .none, casts := [], castSrc := none }

/-- What a GCAST does before it moves anything: the close of a redundant interval and the release at W (R278, R510). -/
def State.castReady (s : State) (c : CtxId) (scope : Nat) (ops : List Word) (go : State → State) : State :=
  let (s1, closed) := s.closeInterval c ops
  if !closed then s1.stallBounded c
  else if (s1.ctx c).isShadow then s1.retire c
  else
    let (s2, ok) := s1.release c ((s1.ctx c).effScope scope) .message
    if !ok then s2.stallBounded c else go s2

/-- The bytes of a GCAST go to pane p of these cores, which are filling until each copy lands; where the issuer's own pane is the
source it drains until then (R247, R278). -/
def State.castTo (s : State) (c : CtxId) (p : Nat) (own : Bool) (ds : List CoreId) (bs : List Byte) : State :=
  let s0 := if own then
      (s.modCore (coreOf c) fun q => q.modPane p fun z => z.hold false).modCtx c fun k => { k with castSrc := some p }
    else s
  let s1 := ds.foldl (fun t m =>
    (t.modCore m fun q => (q.paneWrite (q.pane p) (physLanes m) 0 bs).modPane p fun z => z.hold true).soon (.gcastCopyLanded m p)) s0
  if ds.isEmpty then s1.castDone c
  else s1.modCtx c fun k => { k with wait := .answer 0, casts := ds.map fun m => (m, p) }

/-- GCAST (R278). -/
def State.gcast (s : State) (c : CtxId) (word : BitVec 32) (xa xb : Word) : State :=
  let k := s.ctx c
  match (if k.gangSeen = 0 then none else s.gang? k.gangSeen) with
  | none => s.illegal c word
  | some g =>
    let p := bits xb 5 0
    let n := 64 * bits xb 31 6
    let ms := g.castMembers c (decide (xa = 0))
    if !zeroBits xb 63 32 || ms.any (fun m => s.castUnfit m p n) then s.trap c (mkTrap 13 xb)
    else s.castSource c xa xb p n (fun t => t.castReady c g.scope [xa, xb]) fun bs t =>
      t.castTo c p (decide (xa = 0)) (ms.map coreOf).eraseDups bs

/-- A copy of a context's GCAST has landed. -/
def State.castLanded (s : State) (core pane : Nat) (c : CtxId) : State :=
  let rest := (s.ctx c).casts.filter fun z => decide (z ≠ (core, pane))
  if rest.isEmpty then s.castDone c else s.modCtx c fun k => { k with casts := rest }

/-- GCAST_COPY_LANDED (R278): A GCAST copy lands and its destination pane becomes ready. -/
def execGcastCopyLanded (core pane : Nat) (s : State) : Res :=
  let cs := (s.ctxs.filter fun e => decide ((core, pane) ∈ e.2.casts)).map fun e => e.1
  .next (if cs.isEmpty then s
    else cs.foldl (fun t c => t.castLanded core pane c) (s.modCore core fun k => k.castFreed pane))

/-- RSPAWN (R268): Spawns a child on a free slot of a target core, or inline. -/
def execRspawn (a b : BitVec 5) (s : State) : Res :=
  .next (s.issue (encRspawn a b) fun c k s => s.rspawn c (k.rx a) (k.rx b))

/-- DQPUSH (R270): Pushes a task record onto the core's deque, spilling to pane 63. -/
def execDqpush (a b : BitVec 5) (s : State) : Res :=
  .next (s.issue (encDqpush a b) fun c k s => s.dqPush c
      { pc := k.rx a, a0 := k.rx 10, a1 := k.rx 11, a2 := k.rx 12, a3 := k.rx 13, join := k.rx b })

/-- DQPOP (R271): Pops a task record, or steals one from the steal domain. -/
def execDqpop (d : BitVec 5) (s : State) : Res := .next (s.issue (encDqpop d) fun c _ s => s.dqPop c d)

/-- JOINDEC (R273): Atomically decrements a join counter, ACQREL at SYS. -/
def execJoindec (d a : BitVec 5) (s : State) : Res :=
  .next (s.issue (encJoindec d a) fun c k s => s.atomic c 1 8 d (k.rx a) (BitVec.allOnes 64) 4 4 1)

/-- GNEW (R274): Opens a gang table entry in state forming. -/
def execGnew (d a : BitVec 5) (s : State) : Res :=
  .next (s.issueIf (encGnew d a) (decide ((s.ctx s.cur).mode = .u)) fun c k s => s.gnew c d (k.rx a).toNat)

/-- GADD (R275): Adds a context to a forming gang. -/
def execGadd (a b : BitVec 5) (s : State) : Res :=
  .next (s.issueIf (encGadd a b) (decide ((s.ctx s.cur).mode = .u)) fun c k s => s.gadd c (k.rx a) (k.rx b))

/-- GSTOP (R276): Stops a gang, waiting until every member has taken gang_stop. -/
def execGstop (a : BitVec 5) (s : State) : Res :=
  .next (s.issueIf (encGstop a) (decide ((s.ctx s.cur).mode = .u)) fun c k s => s.gstop c (k.rx a))

/-- GRESUME (R276): Reactivates or frees a stopped gang. -/
def execGresume (a : BitVec 5) (s : State) : Res :=
  .next (s.issueIf (encGresume a) (decide ((s.ctx s.cur).mode = .u)) fun c k s => s.gresume c (k.rx a))

/-- GBAR (R277): Gang barrier with release and acquire at W. -/
def execGbar (s : State) : Res := .next (s.issue encGbar fun c _ s => s.gbar c encGbar)

/-- GCAST (R278): Copies a pane or sealed buffer into a pane of every member. -/
def execGcast (a b : BitVec 5) (s : State) : Res :=
  .next (s.issue (encGcast a b) fun c k s => s.gcast c (encGcast a b) (k.rx a) (k.rx b))

end Sys2Proof.Machine
end

