-- ==== Sys2Proof/Machine/Migration.lean ====
section
/-! DEFINITION. Where the migration service may take a thread (R407, R409, R412): its matrix save area, its panes, the destination. -/

namespace Sys2Proof.Machine

/-! Matrix save areas. -/

/-- Bytes of a matrix save area (R406). -/
def matAreaSize : Nat := 151552

/-- Does a context's TSAVE area lie in its own partition and world (R403)? -/
def State.tsaveOk (s : State) (z : CtxId) : Bool :=
  s.areaOk (s.part z) (s.slotSecure z) (areaPa (s.ctx z).tsave) matAreaSize

/-- May a context's TSAVE area be written: it lies in its own partition and world (R403), and in no sealed range (R265, R363)? -/
def State.tsaveFree (s : State) (z : CtxId) : Bool := s.tsaveOk z && !s.areaSealed (areaPa (s.ctx z).tsave) matAreaSize

/-- What LD does with an area (R407): the rows that it loads and MSTAT; nothing for VALID = 0; none for the trap. -/
def loadPlan (ar as valid : Nat) (mst : Word) : Option (Option (Nat × Word)) :=
  let hr := bit mst 11
  if valid = 0 then some none
  else if valid ≠ 1 ∨ (as ≠ 64 ∧ as ≠ 128) ∨ (as = 64 ∧ hr = true) then none
  else if as = ar then some (some (if hr then 64 else ar, mst))
  else if as = 64 then some (some (64, setMfield mst 11 1 1))
  else if hr then some (some (64, setMfield mst 11 1 0))
  else none

/-- The bits of MSTAT that are fields (R213): the others are read-only and zero. -/
def mstatMask : Word := 0x007F_F7FF_0FFF_0F3F

/-- Does MOWN name the context (R24)? -/
def State.ownsArray (s : State) (c : CtxId) : Bool := decide ((s.core (coreOf c)).mown.toNat = slotOf c)

/-! Panes. -/

/-- Move one pane of a thread to the same number of the destination core (R410). -/
def State.movePane (s : State) (src dst : CoreId) (did : BitVec 7) (n : Nat) : State :=
  let p := (s.core src).pane n
  let nlS := physLanes src
  let nlD := physLanes dst
  let size := roundUp ((p.size * nlS + nlD - 1) / nlD) 64
  let bytes := (s.core src).paneRead p nlS 0 (p.size * nlS)
  let p' : Pane := { state := p.state, held := p.held, owner := did, base := (s.paneBase dst did size).getD 0, size := size }
  (s.modCore dst fun k => (k.setPane n p').paneWrite p' nlD 0 bytes).modCore src fun k => k.setPane n Pane.empty

/-- The panes of a context's declared streams, ascending (R409, R410). -/
def Ctx.streamPanes (k : Ctx) : List Nat :=
  (upFrom 0 64).filter fun n => k.streams.toList.any fun t => decide (t.st ≠ .free) && decide (t.pane.toNat = n)

/-- Has the destination core each pane number empty, and a place for each pane, of a thread's streams (R409 step 1)?  The
panes are placed in ascending order. -/
def State.panesPlace (s : State) (src dst : CoreId) (did : BitVec 7) : List Nat → Bool
  | [] => true
  | n :: t =>
    let p := (s.core src).pane n
    let nlD := physLanes dst
    decide (((s.core dst).pane n).state = 0) &&
      (s.paneBase dst did (roundUp ((p.size * physLanes src + nlD - 1) / nlD) 64)).isSome &&
      (s.movePane src dst did n).panesPlace src dst did t

/-! The destination. -/

/-- Will LD of the thread's matrix state succeed on another array (R407, R409 step 1): of the state that the array holds, or of the
area where a save has gone before (log entry 33)? -/
def State.areaFits (s : State) (c t : CtxId) : Bool :=
  let rd (o : Nat) : List Byte := s.areaRead c (areaPa (s.ctx c).tsave + o) 8
  (if (s.ctx c).migSaved then
    loadPlan (arrayRowsOf (coreOf t)) (natOf (rd 8)) (natOf (rd 16)) (wordOf (rd 0) &&& mstatMask)
  else loadPlan (arrayRowsOf (coreOf t)) (arrayRowsOf (coreOf c)) 1 (s.core (coreOf c)).mstat).isSome

/-- May context t take the thread that took the migrate trap in context c (R409 step 1)?  The trap bank of M holds the
thread's mode and DID and the trapping word. -/
def State.mayTake (s : State) (c t : CtxId) : Bool :=
  let k := s.ctx c
  let z := s.ctx t
  let q := s.core (coreOf t)
  let did := s.pdid c .m
  decide (t < 6144) && decide (slotOf t ≠ 7) && decide (q.part.toNat = partOf did) && !q.harv &&
    !(s.die (dieOf t)).omitted.elem (expansionCode (k.mb.tval.extractLsb' 0 32)) && decide (z.mode = k.mb.pm) &&
    decide (s.did t = did) && decide (z.gang = 0) && z.inWaitm && z.mailbox.isEmpty && !z.wake && z.spawn.isNone &&
    z.spawnq.isEmpty && z.swOut.isNone && z.vq.isEmpty && z.vchk.isNone && decide (z.lanes = k.lanes) &&
    s.panesPlace (coreOf c) (coreOf t) did k.streamPanes &&
    (!s.ownsArray c || (s.areaFits c t && s.tsaveFree (coreOf t * 8 + q.mown.toNat)))

/-- Does the service find no destination before it looks at the contexts: in a gate call (R452), or where the thread owns the
array and its own area fails R403 (R412)? -/
def State.migBarred (s : State) (c : CtxId) : Bool :=
  decide ((s.ctx c).depth ≠ 0) || (s.ownsArray c && !s.tsaveFree c)

/-- The destination of step 1 of R409: the lowest context that may take the thread. -/
def State.migChoice (s : State) (c : CtxId) : Option CtxId :=
  if s.migBarred c then none
  else ((s.ctxs.map fun e => e.1).filter fun t => s.mayTake c t).foldl
    (fun m t => some (match m with
      | some u => min u t
      | none => t)) none

end Sys2Proof.Machine
end

