-- ==== Sys2Proof/Machine/SysRegs.lean ====
section
/-! DEFINITION. System registers (R36-R41, R305-R310, R319, R332-R335, R393-R408, R415, R423, R424, R429-R434, R446). -/

namespace Sys2Proof.Machine

/-! Trap banks. -/

/-- The mode whose bank a register number names: bits [11:10] (R38). -/
def bankMode (n : Nat) : Mode := Mode.ofCode (n / 1024)

/-- Register i of the bank of mode t (R393, R394). -/
def State.bankRead (s : State) (c : CtxId) (t : Mode) (i : Nat) : Word :=
  let b := (s.ctx c).bank t
  match i with
  | 0 => BitVec.ofNat 64 (b.pm.toNat + 4 * b2n b.ae + 8 * b2n b.pae + 16 * (s.pdid c t).toNat + 2048 * b.platch.toNat)
  | 1 => addr62 b.epc
  | 2 => BitVec.ofNat 64 (b.code.toNat + 2 ^ 63 * b2n b.isAsync)
  | 3 => b.tval
  | 4 => addr62 b.base
  | 5 => b.scratch
  | _ => BitVec.ofNat 64 (b.pfxWord.toNat + 2 ^ 63 * b2n b.pfxV)

/-- A write of register i of the bank of mode t (R393, R394): RO fields are ignored (R36). -/
def TrapBank.write (b : TrapBank) (t : Mode) (i : Nat) (v : Word) : TrapBank :=
  match i with
  | 0 =>
    { b with pm := Mode.ofCode (if t = .s then bits v 0 0 else bits v 1 0), ae := bit v 2, pae := bit v 3,
             pdid := BitVec.ofNat 7 (if t = .m then bits v 10 4 else b.pdid.toNat / 8 * 8 + bits v 6 4),
             platch := BitVec.ofNat 5 (bits v 15 11) }
  | 1 => { b with epc := field62 v }
  | 2 => { b with code := BitVec.ofNat 5 (bits v 4 0), isAsync := bit v 63 }
  | 3 => { b with tval := v }
  | 4 => { b with base := field62 v }
  | 5 => { b with scratch := v }
  | _ => { b with pfxWord := BitVec.ofNat 32 (bits v 31 0), pfxV := bit v 63 }

/-! The rank table (R304-R310). -/

/-- The rank entry that RTWIN selects: its gang, that gang's entry and the rank (R305, R306). -/
def State.rankSelected (s : State) (core : CoreId) : Option (Nat × Gang × Nat) :=
  let w := (s.core core).rtwin
  let g := (s.ctx (core * 8 + bits w 15 13)).gang
  match (if g = 0 then none else s.gang? g) with
  | some e => if bits w 12 0 < e.size then some (g, e, bits w 12 0) else none
  | none => none

/-- RTDATA with SEL = 0 (R306). -/
def State.rankRead (s : State) (core : CoreId) : Word :=
  match s.rankSelected core with
  | none => 0
  | some (g, e, r) =>
    let z := e.entry r
    BitVec.ofNat 64 (z.coord.toNat + 2 ^ 20 * ((s.core core).holds.getD (holdKey g r) []).length + 2 ^ 62 * b2n z.it +
      2 ^ 63 * b2n z.v)

/-- The inbox registers (R310). -/
def Core.inboxRead (k : Core) (rank : Nat) : Word :=
  if rank = 0 then BitVec.ofNat 64 (k.inSz.toNat + 4096 * k.inBase.toNat + 2 ^ 63 * b2n k.inEn)
  else if rank = 1 then k.defer.zeroExtend 64
  else if rank = 2 then k.wp.zeroExtend 64
  else 0

/-- RTDATA (R305). -/
def State.rtRead (s : State) (core : CoreId) : Word :=
  if bit (s.core core).rtwin 16 then (s.core core).inboxRead (bits (s.core core).rtwin 12 0) else s.rankRead core

/-- Clearing IT lets the holds of a rank go, at every core, unless they are going already (R307). -/
def State.startRelease (s : State) (key : Nat) : State :=
  s.cores.foldl (fun t e => match e.2.holds.getD key [] with
    | m :: _ => t.afterOnce 0 (.msendAccept e.1 m)
    | [] => t) s

/-- A new COORD with IT cleared names the destination of a thread that migrates (R409 step 6), if it is the one of step 1: its ERET
at M will complete there. -/
def State.nameDestination (s : State) (old new : RankEntry) : State :=
  if old.it = true ∧ new.it = false ∧ old.coord ≠ new.coord ∧ new.pkg = s.pkgNum ∧ (s.ctx old.target).mode = .m ∧
      (s.ctx old.target).traps ≠ 0 ∧ s.migChoice old.target = some new.target then
    s.modCtx old.target fun k => { k with migDest := some new.target }
  else s

/-- A write of a rank entry (R306, R307). -/
def State.rankWrite (s : State) (c : CtxId) (v : Word) : State :=
  match s.rankSelected (coreOf c) with
  | none => s.retire c
  | some (g, e, r) =>
    if (e.members.head?.any fun m => decide (s.part m ≠ s.part c)) then s.openTrap c 10
    else
      let new : RankEntry := { coord := BitVec.ofNat 19 (bits v 18 0), it := bit v 62, v := bit v 63 }
      let s1 : State := { s with gangs := s.gangs.set g { e with entries := e.entries.set r new } }
      let s2 := s1.nameDestination (e.entry r) new
      (if (e.entry r).it && !new.it then s2.startRelease (holdKey g r) else s2).retire c

/-- A write of an inbox register (R310): only slot 7 may. -/
def State.inboxRegWrite (s : State) (c : CtxId) (w : BitVec 32) (v : Word) : State :=
  let core := coreOf c
  let rank := bits (s.core core).rtwin 12 0
  if slotOf c ≠ 7 then s.illegal c w
  else
    (if rank = 0 then (s.leaveInbox core).modCore core fun k =>
        { k with inSz := BitVec.ofNat 4 (bits v 3 0), inBase := BitVec.ofNat 40 (bits v 51 12), inEn := bit v 63 }
    else if rank = 1 then s.modCore core fun k => { k with defer := k.defer &&& ~~~ BitVec.ofNat 8 (bits v 7 0) }
    else s).retire c

/-- A write of RTDATA (R305). -/
def State.rtWrite (s : State) (c : CtxId) (w : BitVec 32) (v : Word) : State :=
  if bit (s.core (coreOf c)).rtwin 16 then s.inboxRegWrite c w v else s.rankWrite c v

/-! World tables (R423, R424). -/

/-- WTDATA (R423, R424). -/
def State.wtRead (s : State) (die : Nat) : Word :=
  let d := s.die die
  let i := bits d.wtwin 15 0
  match bits d.wtwin 18 16 with
  | 0 =>
    if 32768 ≤ i then 0
    else
      let g := d.granules.getD i Granule.reset
      BitVec.ofNat 64 (b2n g.w + 2 * g.part.toNat + 32 * b2n g.any + 64 * b2n g.gf)
  | 1 =>
    if 64 ≤ i then 0
    else
      let k := s.core (die * 64 + i)
      BitVec.ofNat 64 (k.part.toNat + 256 * k.ssec.toNat + 2 ^ 16 * b2n k.gw + 2 ^ 17 * b2n k.harv)
  | 2 => if 8 ≤ i then 0 else BitVec.ofNat 64 (b2n (d.levW.getLsbD i))
  | 3 =>
    let p := s.parts.toList.getD (i / 4) { ng := 0, gt := 0, vcw := 0 }
    if 64 ≤ i then 0
    else if i % 4 = 0 then BitVec.ofNat 64 (p.ng.toNat + 4096 * p.gt.toNat)
    else if i % 4 = 1 then p.vcw.zeroExtend 64
    else 0
  | 5 =>
    if 64 ≤ i then 0
    else BitVec.ofNat 64 (b2n (s.core (die * 64 + i)).gfV + 4096 * (s.core (die * 64 + i)).gfFb.toNat)
  | _ => 0

/-- The state after a write of WTDATA (R423, R424): RO bits are ignored, and a partition record is every die's. -/
def State.wtSet (s : State) (die : Nat) (v : Word) : State :=
  let d := s.die die
  let i := bits d.wtwin 15 0
  match bits d.wtwin 18 16 with
  | 0 =>
    if 32768 ≤ i then s
    else
      let g : Granule := { w := bit v 0, part := BitVec.ofNat 4 (bits v 4 1), any := bit v 5, gf := bit v 6 }
      s.setDie die { d with granules := d.granules.set i g }
  | 1 =>
    if 64 ≤ i then s
    else s.modCore (die * 64 + i) fun (k : Core) =>
      { k with part := BitVec.ofNat 4 (bits v 3 0), ssec := BitVec.ofNat 8 (bits v 15 8), gw := bit v 16 }
  | 2 =>
    if 8 ≤ i then s else s.setDie die { d with levW := putSlice d.levW i 1 (b2n (bit v 0)) }
  | 3 =>
    let p := s.parts.toList.getD (i / 4) { ng := 0, gt := 0, vcw := 0 }
    if 64 ≤ i then s
    else if i % 4 = 0 then
      { s with parts := s.parts.setIfInBounds (i / 4) { p with ng := BitVec.ofNat 12 (bits v 11 0), gt := BitVec.ofNat 40 (bits v 51 12) } }
    else if i % 4 = 1 then { s with parts := s.parts.setIfInBounds (i / 4) { p with vcw := BitVec.ofNat 8 (bits v 7 0) } }
    else s
  | 5 =>
    if 64 ≤ i then s
    else s.modCore (die * 64 + i) fun k => { k with gfV := bit v 0, gfFb := BitVec.ofNat 40 (bits v 51 12) }
  | _ => s

/-! The matrix state and MOWN (R240, R405-R408). -/

/-- The blocks that a save of a core's matrix state writes (R406). -/
def State.matBlocks (s : State) (core : CoreId) : List (Nat × List Byte) :=
  let k := s.core core
  (0, bytesOf k.mstat.toNat 8 ++ bytesOf (arrayRowsOf core) 8 ++ bytesOf 1 8) ::
    ((upFrom 0 4).flatMap fun n => (upFrom 0 (s.mrows core)).flatMap fun i =>
      blocks64 (0x1000 + 0x8000 * n + 256 * i) 4 (bytesOf (k.tileRow n i).toNat 256)) ++
    blocks64 0x21000 128 (bytesOf k.plane.toNat 8192) ++ blocks64 0x23000 128 (bytesOf k.shadow.toNat 8192)

/-- Tiles, planes and MSTAT zeroed (R407, R440). -/
def Core.matZero (k : Core) : Core := { k with acc := Vector.replicate 512 0, plane := 0, shadow := 0, mstat := 0 }

/-- Rows 0 to `rows` - 1 of every tile and both planes from an area; other rows zero; MSTAT. -/
def Core.matLoad (k : Core) (rd : Nat → Nat → List Byte) (rows : Nat) (mstat : Word) : Core :=
  let k1 := (upFrom 0 4).foldl (fun t n =>
    t.mapTile n 0 rows fun i => BitVec.ofNat 2048 (natOf (rd (0x1000 + 0x8000 * n + 256 * i) 256))) k.matZero
  { k1 with plane := BitVec.ofNat 65536 (natOf (rd 0x21000 8192)), shadow := BitVec.ofNat 65536 (natOf (rd 0x23000 8192)),
            mstat := mstat }

/-- What LD does with the area at `pa` (R407). -/
def State.areaPlan (s : State) (c : CtxId) (core : CoreId) (pa : Nat) : Option (Option (Nat × Word)) :=
  let rd (o : Nat) : List Byte := s.areaRead c (pa + o) 8
  loadPlan (arrayRowsOf core) (natOf (rd 8)) (natOf (rd 16)) (wordOf (rd 0) &&& mstatMask)

/-- The lines that LD reads of the area at `pa` (R406, R407). -/
def State.matLines (s : State) (c : CtxId) (core : CoreId) (pa : Nat) : List Nat :=
  linesOf pa 24 ++ (match s.areaPlan c core pa with
    | some (some (rows, _)) =>
      ((upFrom 0 4).flatMap fun n => linesOf (pa + 0x1000 + 0x8000 * n) (256 * rows)) ++ linesOf (pa + 0x21000) 16384
    | _ => [])

/-- LD from the area at `pa` (R407): the state after it, or none for trap(form_mismatch). -/
def State.matRestore (s : State) (c : CtxId) (core : CoreId) (pa : Nat) : Option State :=
  let rd (o n : Nat) : List Byte := s.areaRead c (pa + o) n
  match s.areaPlan c core pa with
  | none => none
  | some none => some (s.modCore core Core.matZero)
  | some (some (rows, mst)) => some (s.modCore core fun k => k.matLoad rd rows mst)

/-- SV (R405, R407): the matrix state of a core goes to the TSAVE area of its old owner. -/
def State.matSave (s : State) (c : CtxId) (core : CoreId) (old : CtxId) : State :=
  (s.areaWrite c (areaPa (s.ctx old).tsave) (s.matBlocks core)).modCtx old fun k => { k with migSaved := true }

/-- A write of MOWN (R240, R405, R407): no write is performed in a sealed range (R363; log entry 21), and LD reads with leases
(R336). -/
def State.mownWrite (s : State) (c : CtxId) (w : BitVec 32) (v : Word) : State :=
  let core := coreOf c
  let k := s.core core
  let old := core * 8 + k.mown.toNat
  let new := core * 8 + bits v 2 0
  let oldPa := areaPa (s.ctx old).tsave
  let newPa := areaPa (s.ctx new).tsave
  if bit v 5 && bit v 6 then s.illegal c w
  else if !k.mq.isEmpty || !(s.ctx old).vq.isEmpty then s.stallBounded c
  else if bit v 4 && !s.tsaveOk old then s.trap c (mkTrap 9 (BitVec.ofNat 64 oldPa))
  else if bit v 5 && !s.tsaveOk new then s.trap c (mkTrap 9 (BitVec.ofNat 64 newPa))
  else if bit v 4 && !s.tsaveFree old then s.trap c (mkTrap 12 (BitVec.ofNat 64 oldPa))
  else s.withLines c (if bit v 5 then ((if bit v 4 then s.matSave c core old else s) : State).matLines c core newPa else []) fun s0 =>
    let s1 := if bit v 4 then s0.matSave c core old else s0
    match (if bit v 5 then s1.matRestore c core newPa
      else if bit v 6 then some (s1.modCore core Core.matZero) else some s1) with
    | none => s1.trap c (mkTrap 4 (BitVec.ofNat 64 newPa))
    | some s2 => (s2.modCore core fun q => { q with mown := BitVec.ofNat 3 (bits v 2 0) }).retire c

/-! Domain partition registers (R39, R332, R429-R434). -/

/-- Is a value legal for a domain partition register (R434)? -/
def dpLegal (n : Nat) (v : Word) : Bool :=
  if n = 0x430 then ((upFrom 0 7).all fun i => decide (bits v (3 * i + 2) (3 * i) ≠ 7)) && zeroBits v 63 21
  else if n = 0x431 then
    ((upFrom 0 8).all fun i => decide (bits v (3 * i + 2) (3 * i) ≠ 3) && decide (bits v (3 * i + 2) (3 * i) < 5)) &&
      zeroBits v 63 36
  else if n = 0x432 then decide (bits v 3 0 ≤ 8) && zeroBits v 63 28
  else true

/-- Does a non-empty pane meet bank b (R434)? -/
def Core.bankPaned (k : Core) (core : CoreId) (b : Nat) : Bool :=
  k.panes.toList.any fun p => decide (p.state ≠ 0) && decide (p.base < (b + 1) * bankBytes core) &&
    decide (b * bankBytes core < p.base + p.size)

/-- The banks whose owner a DPBANK write changes (R431: banks from SPSZ on are ignored). -/
def Core.changedBanks (k : Core) (v : Word) : List Nat :=
  (upFrom 0 k.spsz).filter fun b => decide (bits v (3 * b + 6) (3 * b + 4) ≠ bits k.dpbank (3 * b + 6) (3 * b + 4))

/-- Bank b is zeroed (R434). -/
def Core.zeroBank (k : Core) (core : CoreId) (b : Nat) : Core :=
  { k with spad := k.spad.filter fun e =>
      decide (e.1 % 2 ^ 20 < b * bankBytes core) || decide ((b + 1) * bankBytes core ≤ e.1 % 2 ^ 20) }

/-- The dirty lines of a core's slice go home (R332): the state after those that could, and whether all have. -/
def State.sliceHome (s : State) (core : CoreId) : State × Bool :=
  let dirty (p : PWrite) : Bool := p.atDie && decide (p.die = core / 64) &&
    (s.core core).l2.any fun e => e.dirty && decide (e.line ∈ linesOf p.addr p.bytes.length)
  let s1 := s.flush dirty
  (s1, !s1.pend.any dirty)

/-- A core's slice drops its lines (R332; log entry 48). -/
def State.emptySlice (s : State) (core : CoreId) : State :=
  (s.core core).l2.foldl (fun t e => (t.modCore core fun k => k.dropLine e.line).evicted core { e with dirty := false }) s

/-- A write of DPBANK (R332, R434; log entry 31): a change of SPSZ waits until the slice's dirty lines are home. -/
def State.dpbankSet (s : State) (c : CtxId) (v : Word) : State :=
  let core := coreOf c
  let k := s.core core
  if bits v 3 0 ≠ k.spsz then
    if k.panes.toList.any fun p => decide (p.state ≠ 0) then s.openTrap c 13
    else
      let (s1, done) := s.sliceHome core
      if !done then s1.stallBounded c
      else ((s1.emptySlice core).modCore core fun q => { q with dpbank := v, spad := [] }).retire c
  else if (k.changedBanks v).any fun b => k.bankPaned core b then s.openTrap c 13
  else
    let k1 := (k.changedBanks v).foldl (fun t b => t.zeroBank core b) k
    (s.setCore core { k1 with dpbank := v }).retire c

/-- A write of DPTOKEN (R433): it fills every bucket whose fields it changes; buckets count sixteenths of a token.  A domain
that has no bucket any more waits no longer. -/
def Core.setTokens (k : Core) (v : Word) : Core :=
  let k1 : Core :=
    { k with dptoken := v,
             buckets := (upFrom 0 8).foldl (fun b l =>
               if bits v (8 * l + 7) (8 * l) ≠ bits k.dptoken (8 * l + 7) (8 * l) then b.setIfInBounds l (16 * bucketDepth v l) else b)
               k.buckets }
  (upFrom 0 8).foldl Core.serve k1

/-- Has a local domain a token bucket (R433)? -/
def Core.anyRate (k : Core) : Bool := (upFrom 0 8).any fun l => decide (k.rate l ≠ 0)

/-- The buckets of a core refill on every clk while a local domain has one (R342). -/
def State.startRefill (s : State) (core : CoreId) : State :=
  if (s.core core).anyRate && !(s.agenda.any fun e => decide (e.2 = .tokenBucketRefill core)) then
    s.after 1 (.tokenBucketRefill core)
  else s

/-- A write of a domain partition register (R39, R434). -/
def State.dpWrite (s : State) (c : CtxId) (w : BitVec 32) (n : Nat) (v : Word) : State :=
  let k := s.ctx c
  let core := coreOf c
  if k.mode ≠ .m ∧ localOf (s.did c) ≠ 0 then s.openTrap c 10
  else if !dpLegal n v then s.illegal c w
  else if n = 0x430 then (s.modCore core fun q => { q with dpslot := v }).retire c
  else if n = 0x431 then (s.modCore core fun q => { q with dplane := v }).retire c
  else if n = 0x432 then s.dpbankSet c v
  else if n = 0x433 then (s.modCore core fun q => { q with dpquota := v }).retire c
  else ((s.modCore core fun q => q.setTokens v).startRefill core).retire c

/-! Single registers. -/

/-- A write of SHAPE (R401): from U only TR is cleared.  VROWS of a context without lanes stays zero (R140). -/
def State.shapeWrite (s : State) (c : CtxId) (w : BitVec 32) (v : Word) : State :=
  let k := s.ctx c
  let q := k.vcfg (physLanes (coreOf c))
  if k.mode = .u then (s.modCtx c fun k => { k with tr := k.tr && !bit v 20 }).retire c
  else if decide (q.vlmax < bits v 12 0) || decide (8 < bits v 19 16) || !zeroBits v 15 13 || !zeroBits v 23 21 ||
      !zeroBits v 63 31 then s.illegal c w
  else
    let rows := if k.lanes = 0 then 0 else bits v 19 16
    (s.modCtx c fun k => { k with vl := bits v 12 0, vrows := rows, tr := bit v 20 }).retire c

/-- A write of FSTAT (R32). -/
def State.fstatWrite (s : State) (c : CtxId) (v : Word) : State :=
  if s.queuesEmpty c then (s.modCtx c fun k => { k with fstat := BitVec.ofNat 5 (bits v 4 0) }).retire c else s.stallBounded c

/-- Neither a queued entry nor an MRD of the context is outstanding (R237). -/
def State.matrixQuiet (s : State) (c : CtxId) : Bool :=
  !((s.core (coreOf c)).mq.any fun e => decide (e.owner = c)) && (s.ctx c).vq.isEmpty

/-- A write of MSTAT (R26, R237). -/
def State.mstatWrite (s : State) (c : CtxId) (v : Word) : State :=
  s.owned c <|
    if s.matrixQuiet c then
      (s.modCore (coreOf c) fun k => { k with mstat := k.mstat &&& ~~~ BitVec.ofNat 64 (bits v 5 0) }).retire c
    else s.stallBounded c

/-- A write of SLOTCTL (R41). -/
def State.slotctl (s : State) (c : CtxId) (w : BitVec 32) (v : Word) : State :=
  let core := coreOf c
  let t := core * 8 + bits v 2 0
  if slotOf c ≠ 7 then s.illegal c w
  else if !bit v 3 then s.retire c
  else if bits v 2 0 = 7 ∨ zeroBits v 63 4 = false ∨ (s.ctx t).run ≠ .out then s.illegal c w
  else
    (s.modCtx t fun k => { k with run := .running, pc := (s.core core).slotpc, mode := (s.ctx c).mode, did := s.did c }).retire c

/-- A write of LEASE_D or LEASE_P (R333-R335, R319). -/
def State.leaseWrite (s : State) (c : CtxId) (w : BitVec 32) (pkgWide : Bool) (v : Word) : State :=
  let n := v.toNat
  if s.detmode then s.illegal c w
  else if pkgWide then
    if n < 512 ∨ 1048576 < n then s.illegal c w else ({ s with leaseP := n } : State).retire c
  else if n < 64 ∨ 65536 < n then s.illegal c w
  else ({ s with leaseD := n } : State).retire c

/-- Every link is at full width (R319, R478). -/
def State.linksFull (s : State) : Bool := List.all s.widths (fun e : Nat × Nat => decide (e.2 = 0)) && s.shaking.isEmpty

/-- A write of DETMODE (R319): setting it waits until every link is at full width. -/
def State.detmodeSet (s : State) (c : CtxId) (v : Word) : State :=
  if bit v 0 && !s.linksFull then s.stallBounded c else ({ s with detmode := bit v 0 } : State).retire c

/-- The bits of SPTB and HPTB that hold fields (R415). -/
def ptbMask : Word := 0xFFFFFFFFFFFFF001#64

/-- The bits of TSAVE and VSAVEA that hold the address (R403, R406). -/
def areaMask : Word := 0x000FFFFFFFFFF000#64

/-! MOVS and MOVSW. -/

/-- The value of a system register that MOVS reads at issue (R38, R446). -/
def State.sysValue (s : State) (c : CtxId) (n : Nat) : Word :=
  let k := s.ctx c
  let core := coreOf c
  let q := s.core core
  if n = 0x000 then k.form.zeroExtend 64
  else if n = 0x001 then k.shapeValue
  else if n = 0x002 then k.fstat.zeroExtend 64
  else if n = 0x003 then q.mstat
  else if n = 0x008 then s.time (dieOf c)
  else if n = 0x009 then s.cycle c
  else if n = 0x00A then s.ctxid c
  else if n = 0x00B then (if k.depth = 0 then BitVec.ofNat 64 (k.rank + 65536 * k.gang) else 0)
  else if n = 0x410 then k.stealdom
  else if n = 0x411 then k.tsave
  else if n = 0x412 then k.vsavea
  else if n = 0x413 then k.sptb
  else if n = 0x420 then q.rtwin
  else if n = 0x421 then s.rtRead core
  else if n = 0x430 then BitVec.ofNat 64 (q.dpslot.toNat + 2 ^ 24 * q.part.toNat)
  else if n = 0x431 then q.dplane
  else if n = 0x432 then q.dpbank
  else if n = 0x433 then q.dpquota
  else if n = 0x434 then q.dptoken
  else if n = 0x440 then 0
  else if n = 0x441 then q.slotpc
  else if n = 0x810 then s.featmask.toList.getD (s.part c) 0
  else if n = 0x811 then k.hptb
  else if n = 0xC10 then (s.die (dieOf c)).mrvec
  else if n = 0xC11 then q.mown.zeroExtend 64
  else if n = 0xC12 then BitVec.ofNat 64 s.leaseD
  else if n = 0xC13 then BitVec.ofNat 64 s.leaseP
  else if n = 0xC14 then BitVec.ofNat 64 (b2n s.detmode)
  else if n = 0xC18 then (s.die (dieOf c)).wtwin
  else if n = 0xC19 then s.wtRead (dieOf c)
  else s.bankRead c (bankMode n) (n % 1024)

/-- An access to a system register that R36 or R41 forbids. -/
def State.sysForbidden (s : State) (c : CtxId) (n : Nat) : Bool :=
  decide ((s.ctx c).mode.toNat < n / 1024) || (decide (n = 0x440 ∨ n = 0x441) && decide (slotOf c ≠ 7))

/-- MOVS (R446): SHAPE and FSTAT wait (R32), MSTAT needs its owner and waits (R26, R237), TIME and CYCLE are logged channels
(R512). -/
def State.movs (s : State) (c : CtxId) (d : BitVec 5) (n : Nat) : State :=
  if n = 0x001 ∨ n = 0x002 then
    if s.queuesEmpty c then s.retireX c d (s.sysValue c n) else s.stallBounded c
  else if n = 0x003 then
    s.owned c (if s.matrixQuiet c then s.retireX c d (s.sysValue c n) else s.stallBounded c)
  else if n = 0x008 then s.withLogged c [(0, s.sysValue c n)] fun s1 vs => s1.retireX c d (vs.getD 0 0)
  else if n = 0x009 then s.withLogged c [(1, s.sysValue c n)] fun s1 vs => s1.retireX c d (vs.getD 0 0)
  else s.retireX c d (s.sysValue c n)

/-- A write of a register of the context that takes effect at issue. -/
def Ctx.sysSet (k : Ctx) (n : Nat) (v : Word) : Ctx :=
  if n = 0x410 then { k with stealdom := v &&& 0x1FFFF }
  else if n = 0x411 then { k with tsave := v &&& areaMask }
  else if n = 0x412 then { k with vsavea := v &&& areaMask }
  else if n = 0x413 then { k with sptb := v &&& ptbMask }
  else if n = 0x811 then { k with hptb := v &&& ptbMask }
  else if n % 1024 ≤ 6 ∧ 1024 ≤ n then k.setBank (bankMode n) ((k.bank (bankMode n)).write (bankMode n) (n % 1024) v)
  else k

/-- MOVSW of a value, where R36 lets the context write the register (R446). -/
def State.sysWrite (s : State) (c : CtxId) (w : BitVec 32) (n : Nat) (v : Word) : State :=
  let core := coreOf c
  if n = 0x000 then
    if formLegal v then (s.modCtx c fun k => { k with form := BitVec.ofNat 14 v.toNat }).retire c else s.illegal c w
  else if n = 0x001 then s.shapeWrite c w v
  else if n = 0x002 then s.fstatWrite c v
  else if n = 0x003 then s.mstatWrite c v
  else if n = 0x420 then (s.modCore core fun q => { q with rtwin := v &&& 0x1FFFF }).retire c
  else if n = 0x421 then s.rtWrite c w v
  else if 0x430 ≤ n ∧ n ≤ 0x434 then s.dpWrite c w n v
  else if n = 0x440 then s.slotctl c w v
  else if n = 0x441 then (s.modCore core fun q => { q with slotpc := v &&& ~~~ 3#64 }).retire c
  else if n = 0x810 then ({ s with featmask := s.featmask.setIfInBounds (s.part c) v } : State).retire c
  else if n = 0xC10 then (s.modDie (dieOf c) fun d => { d with mrvec := v }).retire c
  else if n = 0xC11 then s.mownWrite c w v
  else if n = 0xC12 then s.leaseWrite c w false v
  else if n = 0xC13 then s.leaseWrite c w true v
  else if n = 0xC14 then s.detmodeSet c v
  else if n = 0xC18 then (s.modDie (dieOf c) fun d => { d with wtwin := v &&& 0x7FFFF }).retire c
  else if n = 0xC19 then (s.wtSet (dieOf c) v).retire c
  else (s.modCtx c fun k => k.sysSet n v).retire c

/-- MOVS (R446): Reads a system register into x[d]. -/
def execMovs (d : BitVec 5) (n : BitVec 12) (s : State) : Res :=
  .next (s.issueIf (encMovs d n) (s.sysForbidden s.cur n.toNat) fun c _ s => s.movs c d n.toNat)

/-- MOVSW (R446): Writes x[a] to a system register under its own map. -/
def execMovsw (a : BitVec 5) (n : BitVec 12) (s : State) : Res :=
  .next (s.issueIf (encMovsw a n) (s.sysForbidden s.cur n.toNat) fun c k s => s.sysWrite c (encMovsw a n) n.toNat (k.rx a))

/-! The register writes that stand as steps of their own: the write of a value by the context whose turn it is, which R36 may forbid
before any of it happens (R87, R88). -/

/-- A write of system register n by the context whose turn it is, unless R36 forbids it. -/
def State.putReg (s : State) (n : BitVec 12) (go : State → State) : State :=
  if s.sysForbidden s.cur n.toNat then s.illegal s.cur (encMovsw 0 n) else go s

/-- A write of a value to system register n by the context whose turn it is. -/
def State.putSys (s : State) (n : BitVec 12) (v : Word) : State :=
  s.putReg n fun t => t.sysWrite t.cur (encMovsw 0 n) n.toNat v

/-- SLOTCTL_START (R41): A write with START = 1 puts an out-of-rotation slot into rotation at SLOTPC. -/
def execSlotctlStart (v : Word) (s : State) : Res :=
  .next (s.putSys 0x440 (v ||| 8))

/-- SHAPE_WRITE (R401): A MOVSW to SHAPE writes VL, VROWS and TR after checks. -/
def execShapeWrite (v : Word) (s : State) : Res :=
  .next (s.putSys 0x001 v)

/-- FSTAT_WRITE (R32): A MOVSW to FSTAT waits for earlier vector and matrix flags, then writes. -/
def execFstatWrite (v : Word) (s : State) : Res :=
  .next (s.putSys 0x002 v)

/-- MSTAT_CLEAR (R237): A W1C write of MSTAT waits for earlier matrix entries and MRDs, then clears flags. -/
def execMstatClear (v : Word) (s : State) : Res :=
  .next (s.putSys 0x003 v)

/-- MOWN_SAVE (R407): SV saves the matrix state to the old owner's TSAVE area after the queue drains. -/
def execMownSave (slot : BitVec 3) (s : State) : Res :=
  .next (s.putSys 0xC11 (slot.zeroExtend 64 ||| 0x10))

/-- MOWN_LOAD (R407): LD loads the new owner's matrix state from its TSAVE area, converting row counts. -/
def execMownLoad (slot : BitVec 3) (s : State) : Res :=
  .next (s.putSys 0xC11 (slot.zeroExtend 64 ||| 0x20))

/-- MOWN_ZERO (R407): ZR zeroes the tiles and planes and sets MSTAT to 0 after the slot changes. -/
def execMownZero (slot : BitVec 3) (s : State) : Res :=
  .next (s.putSys 0xC11 (slot.zeroExtend 64 ||| 0x40))

/-- DPBANK_WRITE (R332): A DPBANK write resizes the scratchpad with write-back and zeroing, or changes bank owners with zeroing. -/
def execDpbankWrite (v : Word) (s : State) : Res :=
  .next (s.putSys 0x432 v)

/-- DETMODE_WRITE (R319): Setting DETMODE.0 waits for full-width links and fixes leases and borrowing. -/
def execDetmodeWrite (v : Word) (s : State) : Res :=
  .next (s.putSys 0xC14 v)

/-- WORLD_TABLE_WRITE (R423): A WTDATA write updates a world-table entry; a partition record is written to every die. -/
def execWorldTableWrite (v : Word) (s : State) : Res :=
  .next (s.putSys 0xC19 v)

/-- DPTOKEN_WRITE (R433): A MOVSW to DPTOKEN sets bucket rates, depths and Levanter budgets and fills every bucket whose fields it changes. -/
def execDptokenWrite (v : Word) (s : State) : Res :=
  .next (s.putSys 0x434 v)

/-- LEASE_LENGTH_WRITE (R335): A write of LEASE_D or LEASE_P sets the length for later grants. -/
def execLeaseLengthWrite (pkgWide : Bool) (v : Word) (s : State) : Res :=
  .next (if pkgWide then s.putSys 0xC13 v else s.putSys 0xC12 v)

/-- RANK_ENTRY_WRITE (R306): An RTDATA write updates a rank entry in every member core; clearing IT releases held messages. -/
def execRankEntryWrite (v : Word) (s : State) : Res :=
  .next (s.putReg 0x421 fun t => t.rankWrite t.cur v)

/-- INBOX_REGISTER_WRITE (R310): Slot 7 writes the inbox ring registers or clears DEFER bits. -/
def execInboxRegisterWrite (v : Word) (s : State) : Res :=
  .next (s.putReg 0x421 fun t => t.inboxRegWrite t.cur (encMovsw 0 0x421) v)

end Sys2Proof.Machine
end

