-- ==== Sys2Proof/Machine/System.lean ====
section
/-! DEFINITION. System instructions (R443-R457): environment calls, ERET with the migration return (R380, R409-R411), fences,
TLBINV, call gates (R438-R440, R451-R453), WFI, CHKPT, PFX; and the asynchronous traps, illegal words and failed fetches that
a boundary or a fetch gives (R87, R391, R395). -/

namespace Sys2Proof.Machine

/-! Environment calls. -/

/-- The firmware service that an ECALL from H names in x10 (R508). -/
def serviceEvent (c : CtxId) (x10 : Word) : Option Instr :=
  if x10 = 0x100 then some (.redundantOn c)
  else if x10 = 0x101 then some (.redundantOff c)
  else if x10 = 0x110 then some (.recordOn c)
  else if x10 = 0x111 then some (.replayOn c)
  else if x10 = 0x112 then some (.recordReplayOff c)
  else none

/-- ECALL (R444); from H it may name a service, which the firmware runs at M (R508). -/
def State.ecall (s : State) (c : CtxId) (word : BitVec 32) : State :=
  match (s.ctx c).mode with
  | .u => s.trap c (mkTrap 14 0)
  | .s => s.trap c (mkTrap 15 0)
  | .h =>
    match serviceEvent c ((s.ctx c).rx 10) with
    | some i => (s.trap c (mkTrap 16 0)).after 0 i
    | none => s.trap c (mkTrap 16 0)
  | .m => s.illegal c word

/-- ECALL (R444): Traps with the ecall cause of the current mode. -/
def execEcall (s : State) : Res := .next (s.issue encEcall fun c _ s => s.ecall c encEcall)

/-- EBREAK (R444): Ends in trap(breakpoint) with its address. -/
def execEbreak (s : State) : Res := .next (s.issue encEbreak fun c k s => s.trap c (mkTrap 17 k.pc))

/-! Fences. -/

/-- Every earlier access of the context is performed at the scope and its engine jobs have ended, with their writes there
(R353, R447); a redundant member closes its interval first (R510). -/
def State.fenceReady (s : State) (c : CtxId) (scope : Nat) : State × Bool :=
  let (s1, closed) := s.closeInterval c []
  if !closed then (s1, false)
  else
    let (s2, ok) := s1.release c ((s1.ctx c).effScope scope) .fence
    (s2, ok && s2.jobsDone c)

/-- FENCE (R447). -/
def State.fence (s : State) (c : CtxId) (scope : Nat) : State :=
  let (s1, ok) := s.fenceReady c scope
  if ok then s1.retire c else s1.stallBounded c

/-- FENCE (R447): Release and acquire at a scope, waiting for accesses and engine jobs. -/
def execFence (sh : BitVec 3) (s : State) : Res :=
  .next (s.issueIf (encFence sh) (decide (4 < sh.toNat)) fun c _ s => s.fence c sh.toNat)

/-- Every earlier store of a context is performed at DIE (R350, R448). -/
def State.storesDone (s : State) (c : CtxId) : Bool :=
  s.pend.all fun p => !(p.isOf c && decide (p.kind ≠ .job)) || p.atDieDone

/-- FENCEI (R448). -/
def State.fencei (s : State) (c : CtxId) : State :=
  let (s1, closed) := s.closeInterval c []
  if !closed || !s1.storesDone c then s1.stallBounded c
  else (s1.modCore (coreOf c) fun k => { k with icache := [] }).retire c

/-- FENCEI (R448): Waits for stores at DIE, then empties the core's L1 instruction cache. -/
def execFencei (s : State) : Res := .next (s.issue encFencei fun c _ s => s.fencei c)

/-- CHKPT (R455): Waits as FENCE SYS and closes a redundant checkpoint interval. -/
def execChkpt (s : State) : Res := .next (s.issue encChkpt fun c _ s => s.fence c 4)

/-! TLBINV. -/

/-- Does TLBINV remove an entry (R450)? -/
def TlbEntry.dropped (e : TlbEntry) (part : Option Nat) (vmid : Nat) (stage : Nat) (xa xb : Word) : Bool :=
  (match part with
    | some p => decide (partOf e.did = p)
    | none => true) &&
  decide (e.vmid.toNat = vmid) &&
  (decide (stage ≠ 0) ||
    ((bit xb 12 || decide (bits xa 47 0 / e.size = e.vpage)) && (bit xb 13 || e.g || decide (e.asid.toNat = bits xb 11 0))))

/-- TLBINV (R449, R450): a release at PKG, with the context's earlier engine jobs (R353), then the removal; from S the VMID is
HPTB.TAG. -/
def State.tlbinv (s : State) (c : CtxId) (word : BitVec 32) (stage : Nat) (xa xb : Word) : State :=
  let k := s.ctx c
  if !zeroBits xb 15 14 || !zeroBits xb 63 28 || (decide (k.mode = .s) && !zeroBits xb 27 16) then s.illegal c word
  else
    let (s1, closed) := s.closeInterval c [xa, xb]
    if !closed then s1.stallBounded c
    else
      let (s2, ok) := s1.release c 3 .access
      if !(ok && s2.jobsDone c) then s2.stallBounded c
      else
        let part := if k.mode = .m then none else some (s.part c)
        let vmid := if k.mode = .s then bits k.hptb 63 52 else bits xb 27 16
        ({ s2 with tlb := s2.tlb.filter fun e => !e.dropped part vmid stage xa xb } : State).retire c

/-- TLBINV (R450): Invalidates combined translations across the package. -/
def execTlbinv (a b : BitVec 5) (t : BitVec 2) (s : State) : Res :=
  let md := (s.ctx s.cur).mode
  .next (s.issueIf (encTlbinv a b t) (decide (t = 3 ∨ md = .u ∨ (md = .s ∧ t ≠ 0))) fun c k s =>
    s.tlbinv c (encTlbinv a b t) t.toNat (k.rx a) (k.rx b))

/-! Call gates. -/

/-- A gate-table entry (R438): ENTRY, CTL, STACK, TSPTB. -/
structure Gate where
  entry : Word
  ctl   : Word
  stack : Word
  tsptb : Word
deriving DecidableEq, Repr

/-- Gates of a partition, NG (R424). -/
def State.gateCount (s : State) (part : Nat) : Nat := (s.parts.toList.getD part { ng := 0, gt := 0, vcw := 0 }).ng.toNat

/-- The address of entry n of a partition's gate table (R424, R438). -/
def State.gateAddr (s : State) (part n : Nat) : Nat :=
  (s.parts.toList.getD part { ng := 0, gt := 0, vcw := 0 }).gt.toNat * 4096 + 32 * n

/-- Entry n of a partition's gate table (R438), as the gate hardware reads it. -/
def State.gate (s : State) (c : CtxId) (part n : Nat) : Gate :=
  let a := s.gateAddr part n
  { entry := wordOf (s.areaRead c a 8), ctl := wordOf (s.areaRead c (a + 8) 8), stack := wordOf (s.areaRead c (a + 16) 8),
    tsptb := wordOf (s.areaRead c (a + 24) 8) }

/-- Check 2 of R451. -/
def Gate.legal (g : Gate) : Bool :=
  bit g.ctl 0 && zeroBits g.ctl 7 6 && zeroBits g.ctl 63 16 && decide (bits g.ctl 3 1 ≠ 0 ∧ bits g.ctl 3 1 ≠ 7) &&
    zeroBits g.ctl 5 4 && decide (g.entry.toNat % 4 = 0) && canonical48 g.entry

/-- Checks 1 to 6 of R451. -/
def State.gateOk (s : State) (c : CtxId) (xa : Word) : Bool :=
  let k := s.ctx c
  let part := s.part c
  let g := s.gate c part xa.toNat
  decide (xa.toNat < s.gateCount part) && g.legal &&
    bit g.ctl (8 + localOf (s.did c)) && decide (k.depth < 2) && (s.core (coreOf c)).gfV &&
    k.streams.toList.all fun t => decide (t.st = .free)

/-- Bytes of a gate frame (R439). -/
def frameSize : Nat := 0x6F000

/-- The frame of a context at a depth (R439). -/
def State.frameAddr (s : State) (c : CtxId) (depth : Nat) : Nat :=
  (s.core (coreOf c)).gfFb.toNat * 4096 + (2 * slotOf c + depth) * frameSize

/-- The granules of the bytes that the gate hardware accesses for a context all pass `ok`, and they lie in HBM of this package that
the context's partition and world may access (R425). -/
def State.gateMem (s : State) (c : CtxId) (a n : Nat) (ok : Granule → Bool) : Bool :=
  (upFrom (a / 2097152) ((a + n - 1) / 2097152 - a / 2097152 + 1)).all fun i =>
    let g := s.granule (i * 2097152)
    decide (s.place (i * 2097152) = .hbm) && decide (pkgOf (i * 2097152) = s.pkgNum) && (s.slotSecure c || !g.w) &&
      (g.any || decide (g.part.toNat = s.part c)) && ok g

/-- May the gate hardware use a frame: it lies in granules with GF = 1 (R439)? -/
def State.frameOk (s : State) (c : CtxId) (a : Nat) : Bool := s.gateMem c a frameSize Granule.gf

/-- Does a gate-table entry that exists lie in memory that the gate hardware may not read for the context (R425; log entry 34)? -/
def State.gateBarred (s : State) (c : CtxId) (n : Nat) : Bool :=
  decide (n < s.gateCount (s.part c)) && !s.gateMem c (s.gateAddr (s.part c) n) 32 fun _ => true

/-- The first line of a frame that has an uncorrectable error (R451). -/
def State.frameError (s : State) (c : CtxId) (a : Nat) : Option Nat :=
  (s.errLines ++ s.sramErrs.map Prod.fst).find? fun l => decide (a / 64 ≤ l ∧ l < (a + frameSize) / 64) && s.badLine (dieOf c) l

/-- The scalar part of a frame (R439). -/
def State.frameHead (s : State) (c : CtxId) (idx : Nat) : List Byte :=
  let k := s.ctx c
  let w (v : Word) : List Byte := bytesOf v.toNat 8
  w (k.pc + 4) ++ bytesOf ((s.did c).toNat + 2 ^ 8 * k.mode.toNat + 2 ^ 16 * (idx % 2 ^ 12)) 8 ++ bytesOf k.form.toNat 8 ++
    w k.shapeValue ++ bytesOf k.fstat.toNat 8 ++ bytesOf (b2n (s.ownsArray c)) 8 ++ bytesOf k.latch.toNat 8 ++ w k.sptb ++
    (upFrom 0 32).flatMap (fun i => w (if (1 ≤ i ∧ i ≤ 9) ∨ 18 ≤ i then k.x.toList.getD i 0 else 0)) ++
    (upFrom 0 32).flatMap (fun i => w (k.f.toList.getD i 0)) ++ List.replicate 3520 0

/-- The blocks of a frame (R439): every quarter and mask of the vector image, the matrix area when MOWN names the context. -/
def State.frameBlocks (s : State) (c : CtxId) (idx : Nat) : List (Nat × List Byte) :=
  let k := s.ctx c
  let q := k.vcfg (physLanes (coreOf c))
  let image := blocks64 0 64 (imageHeader k.lanes q.rows q.rb (BitVec.allOnes 128)) ++
    (lanePlaces 0 k.lanes).map (fun p => (imageV p.1 p.2.1 p.2.2, k.laneBytes p.1 p.2.1 p.2.2)) ++
    (maskPlaces 0 (k.lanes / 2)).map fun p => (imageM p.1 p.2.1 p.2.2, k.maskBytes p.1 p.2.1 p.2.2)
  blocks64 0 64 (s.frameHead c idx) ++ image.map (fun b => (0x1000 + b.1, b.2)) ++
    (if s.ownsArray c then (s.matBlocks (coreOf c)).map fun b => (0x4A000 + b.1, b.2) else [])

/-- The state of a context at callee entry (R440). -/
def Ctx.callee (k : Ctx) (part : Nat) (g : Gate) : Ctx :=
  { k with x := Vector.ofFn fun i : Fin 32 =>
             if i.val = 2 then g.stack else if 10 ≤ i.val ∧ i.val ≤ 17 then k.x[i] else 0,
           f := Vector.replicate 32 0, form := 3, fstat := 0, vl := 0, vrows := 0, tr := false,
           v := Vector.replicate 256 0, m := Vector.replicate 64 0, missing := 0, dirty := 0, latch := 0,
           did := BitVec.ofNat 7 (part * 8 + bits g.ctl 3 1), mode := .u, sptb := g.tsptb, pc := g.entry, resv := none,
           depth := k.depth + 1, pfx := none, bounded := false, rel := [], walked := false, passed := none, fetched := none,
           red := k.red.map Redundant.used }

/-- DGATE (R451): its entry is read with a lease (R336), and a shadow writes no frame (R509). -/
def State.dgate (s : State) (c : CtxId) (xa : Word) : State :=
  let k := s.ctx c
  let core := coreOf c
  let g := s.gate c (s.part c) xa.toNat
  let a := s.frameAddr c k.depth
  if s.gateBarred c xa.toNat then s.trap c (mkTrap 9 (BitVec.ofNat 64 (s.gateAddr (s.part c) xa.toNat)))
  else s.withLines c (if xa.toNat < s.gateCount (s.part c) then linesOf (s.gateAddr (s.part c) xa.toNat) 32 else []) fun s0 =>
    if !s0.gateOk c xa then s0.trap c (mkTrap 11 xa)
    else if !s0.frameOk c a then s0.trap c (mkTrap 9 (BitVec.ofNat 64 a))
    else
      let (s1, ok) := s0.fenceReady c 4
      if !(ok && s1.vectorIdle c) then s1.stallBounded c
      else match s1.frameError c a with
        | some l => s1.trap c (mkTrap 20 (BitVec.ofNat 64 (64 * l)))
        | none =>
          let s2 := if k.isShadow then s1 else s1.areaWrite c a (s1.frameBlocks c xa.toNat)
          let s3 := if s1.ownsArray c then s2.modCore core Core.matZero else s2
          (s3.modCore core fun q => { q with defer := q.defer ||| BitVec.twoPow 8 (slotOf c) }).modCtx c fun z =>
            z.callee (s1.part c) g

/-- DGATE (R451): Enters a call gate, saving the frame and setting the callee state; slot 7 never runs in U, where every gate
leads (R34, R87). -/
def execDgate (a : BitVec 5) (s : State) : Res :=
  let md := (s.ctx s.cur).mode
  .next (s.issueIf (encDgate a) (decide (md = .h ∨ md = .m ∨ slotOf s.cur = 7)) fun c k s => s.dgate c (k.rx a))

/-- The dirty bits of every quarter that `lanes` lanes hold (R453). -/
def allDirty (pl lanes : Nat) : BitVec 128 :=
  (upFrom 0 32).foldl (fun b i => putSlice b (i * 4) 4 (2 ^ (lanes * 4 / pl) - 1)) 0

/-- The context whose frame a DRET restores: a shadow has written none and takes that of its primary (R509; log entry 34). -/
def State.framer (s : State) (c : CtxId) : CtxId :=
  match (s.ctx c).red with
  | some r => if r.primary then c else r.partner
  | none => c

/-- The context that a frame holds (R439, R453); x10-x17 pass back unchanged, and a shadow keeps its lane group. -/
def Ctx.fromFrame (k : Ctx) (pl : Nat) (rd : Nat → Nat → List Byte) : Ctx :=
  let w (o : Nat) : Word := wordOf (rd o 8)
  let sh := w 0x18
  let lanes := bits sh 28 24
  let k1 := k.loadImage (fun o => rd (0x1000 + o) 64) 0 lanes
  { k1 with pc := w 0, did := BitVec.ofNat 7 (bits (w 8) 6 0), mode := Mode.ofCode (bits (w 8) 9 8),
            form := BitVec.ofNat 14 (w 0x10).toNat, vl := bits sh 12 0, vrows := bits sh 19 16, tr := bit sh 20,
            lanes := lanes, lg := if k.isShadow then k.lg else bits sh 30 29, fstat := BitVec.ofNat 5 (w 0x20).toNat,
            latch := BitVec.ofNat 5 (w 0x30).toNat, sptb := w 0x38,
            x := Vector.ofFn fun i : Fin 32 =>
              if (1 ≤ i.val ∧ i.val ≤ 9) ∨ 18 ≤ i.val then w (0x40 + 8 * i.val) else k.x[i],
            f := Vector.ofFn fun i : Fin 32 => w (0x140 + 8 * i.val),
            missing := 0, dirty := allDirty pl lanes, resv := none, depth := k.depth - 1, pfx := none, bounded := false,
            rel := [], walked := false, passed := none, fetched := none, red := k.red.map Redundant.used }

/-- The lines that the restoring of a frame reads (R439, R453): its scalar part, the image of every quarter, and the matrix area. -/
def State.frameLines (s : State) (c : CtxId) (a : Nat) (mat : Bool) : List Nat :=
  linesOf a 0x240 ++ areaLines (a + 0x1000) (laneOffsets 0 (bits (wordOf (s.areaRead c (a + 0x18) 8)) 28 24)) ++
    (if mat then s.matLines c (coreOf c) (a + 0x4A000) else [])

/-- DRET (R453): a frame with matrix state takes the array back after waiting as R240 states; the frame is read with leases (R336). -/
def State.dret (s : State) (c : CtxId) : State :=
  let k := s.ctx c
  let core := coreOf c
  let a := s.frameAddr (s.framer c) (k.depth - 1)
  if k.depth = 0 then s.trap c (mkTrap 11 (BitVec.allOnes 64))
  else if !s.frameOk c a then s.trap c (mkTrap 9 (BitVec.ofNat 64 a))
  else
    let (s1, ok) := s.fenceReady c 4
    let mat := decide (natOf (s1.areaRead c (a + 0x28) 8) = 1)
    let arrayBusy := !(s1.core core).mq.isEmpty || !(s1.ctx (core * 8 + (s1.core core).mown.toNat)).vq.isEmpty
    if !(ok && s1.vectorIdle c) || (mat && arrayBusy) then s1.stallBounded c
    else match s1.frameError c a with
      | some l => s1.trap c (mkTrap 20 (BitVec.ofNat 64 (64 * l)))
      | none => s1.withLines c (s1.frameLines c a mat) fun s2 =>
        let s3 := if mat then
            ((s2.matRestore c core (a + 0x4A000)).getD s2).modCore core fun q => { q with mown := BitVec.ofNat 3 (slotOf c) }
          else s2
        s3.modCtx c fun z => z.fromFrame (physLanes core) fun o n => s2.areaRead c (a + o) n

/-- DRET (R453): Returns from a call gate, restoring the frame except x10-x17. -/
def execDret (s : State) : Res :=
  .next (s.issueIf encDret (decide ((s.ctx s.cur).mode ≠ .u)) fun c _ s => s.dret c)

/-! WFI and PFX. -/

/-- One of the conditions that end WFI holds (R454). -/
def Ctx.wfiReady (k : Ctx) : Bool :=
  k.pendMc.isSome || k.pendStop.isSome || k.pendLane.isSome || !k.mailbox.isEmpty || k.spawn.isSome || k.wake

/-- WFI (R454): Parks until a trap, message, SPAWN or wake is pending. -/
def execWfi (s : State) : Res :=
  .next (s.issue encWfi fun c k s => if k.wfiReady then s.retire c else s.modCtx c fun k => k.park .wfi)

/-- WFI_WAKE (R454): A parked WFI retires when a trap, message, SPAWN or wake becomes pending. -/
def execWfiWake (c : Nat) (s : State) : Res :=
  .next (if (s.ctx c).run = .parked .wfi ∧ (s.ctx c).wfiReady = true then s.modCtx c Ctx.resumed else s)

/-- A PFX word retires: it is pending for the next word (R457). -/
def Ctx.prefixed (k : Ctx) (w : BitVec 32) : Ctx := { k.retired with pfx := some { word := w, restored := false } }

/-- PFX (R457): Predicates, copies the destination of and orders the next word. -/
def execPfx (k : BitVec 2) (r : BitVec 5) (n : BitVec 1) (c : BitVec 5) (v : BitVec 1) (o sh : BitVec 3) (s : State) : Res :=
  .next (s.issueIf (encPfx k r n c v o sh) (!pfxLegal (encPfx k r n c v o sh)) fun z _ s =>
    s.modCtx z fun q => q.prefixed (encPfx k r n c v o sh))

/-! ERET. -/

/-- The context after its own ERET (R398): PDID as the bank reads it (R393). -/
def State.returnedCtx (s : State) (c : CtxId) : Ctx :=
  let k := s.ctx c
  { k.returned k.mode with did := s.pdid c k.mode, red := k.red.map Redundant.used }

/-- The dirty bits of a thread on its destination (R380): a quarter is dirty if a source quarter that it covers was. -/
def mapDirty (old : BitVec 128) (plSrc plDst lanes : Nat) : BitVec 128 :=
  (upFrom 0 128).foldl (fun b i =>
    let q := i % 4
    let lo := q * (plDst / 4)
    let hit := (upFrom 0 4).any fun z =>
      old.getLsbD (i / 4 * 4 + z) && decide (z * (plSrc / 4) < lo + plDst / 4 ∧ lo < (z + 1) * (plSrc / 4)) &&
        decide (z * (plSrc / 4) < lanes)
    if hit then putSlice b i 1 1 else b) 0

/-- A record of the inbox ring as the message it holds (R311). -/
def recordMsg (h : Word) (payload : Nat) : Msg :=
  { kind := BitVec.ofNat 2 (bits h 2 1), org := bit h 3, srank := bits h 16 4, gang := bits h 31 20, trank := bits h 44 32,
    payload := BitVec.ofNat 512 payload }

/-- A record carried with a migrating thread (R308, R381): none is lost, and they take effect in ring order (R312); DATA records all
enter the mailbox, beyond its 16 entries too, and SPAWN records queue (log entry 24). -/
def Ctx.carried (k : Ctx) (m : Msg) : Ctx :=
  if m.kind = 0 then { k with mailbox := k.mailbox ++ [m] }
  else if m.kind = 1 then (if k.spawn.isNone then { k with spawn := some m } else { k with spawnq := k.spawnq ++ [m] })
  else if m.kind = 2 then { k with wake := true }
  else { k with regw := k.regw ++ [msgWord m 0] }

/-- The inbox records of a core for a slot and rank, oldest first, with their addresses (R311, R312). -/
def State.ringRecords (s : State) (core : CoreId) (slot gang rank : Nat) : List (Nat × Msg) :=
  let k := s.core core
  if !k.inEn then []
  else ((upFrom 0 k.inboxSize).map fun i => k.inBase.toNat * 4096 + 128 * ((k.wp.toNat + i) % k.inboxSize)).filterMap fun a =>
    let h := wordOf (s.mem.readN a 8)
    let m := recordMsg h (natOf (s.mem.readN (a + 64) 64))
    if bit h 0 && decide (bits h 19 17 = slot ∧ m.gang = gang ∧ m.trank = rank) then some (a, m) else none

/-- May both cores' arrays change hands for a thread that owns the source's (R240, R407, R409): their matrix queues are empty,
and every MRD of their owners has completed? -/
def State.arraysIdle (s : State) (src dst : CtxId) : Bool :=
  !s.ownsArray src || [coreOf src, coreOf dst].all fun core =>
    (s.core core).mq.isEmpty && (s.ctx (core * 8 + (s.core core).mown.toNat)).vq.isEmpty

/-- The matrix state of a thread that owns its array is in its TSAVE area, and the array is zeroed (R409 step 4), unless a MOWN write
has done so (log entry 33). -/
def State.saveThread (s : State) (c : CtxId) : State :=
  if (s.ctx c).migSaved then s else (s.matSave c (coreOf c) c).modCore (coreOf c) Core.matZero

/-- The destination takes the array for a thread that owned the source's (R380, R407, R409): SV saves its previous owner,
LD loads the thread's area. -/
def State.moveArray (s : State) (src dst : CtxId) : State :=
  let core := coreOf dst
  let old := core * 8 + (s.core core).mown.toNat
  let s1 := s.areaWrite old (areaPa (s.ctx old).tsave) (s.matBlocks core)
  let s2 := (s1.matRestore src core (areaPa (s.ctx src).tsave)).getD s1
  s2.modCore core fun q => { q with mown := BitVec.ofNat 3 (slotOf dst) }

/-- A switched-out context is switched in (R35, R400). -/
def Ctx.switchedIn (k : Ctx) (clk : Nat) : Ctx :=
  match k.swOut with
  | some t => { k with swOut := none, cycleOff := k.cycleOff + (clk - t) }
  | none => k

/-- A context that a thread has left (R411). -/
def Ctx.vacated (k t z : Ctx) : Ctx :=
  { k with gang := 0, rank := 0, did := t.did, mode := t.mode, pc := z.pc, sptb := z.sptb, hptb := z.hptb,
           stealdom := z.stealdom, tsave := z.tsave, vsavea := z.vsavea, sb := z.sb, hb := z.hb, mb := t.mb,
           x := Vector.replicate 32 0, f := Vector.replicate 32 0, v := Vector.replicate 256 0, m := Vector.replicate 64 0,
           missing := 0, dirty := 0, streams := Vector.replicate 8 Stream.reset, mailbox := [], spawn := none, spawnq := [],
           wake := false, regw := [], missed := false, resv := none, pfx := none, pendMc := none, pendStop := none, traps := 0,
           depth := 0, arrived := false, gbarGen := 0, red := none, log := none, migDest := none, bounded := false,
           seen := [], acq := [], pub := [], sent := [], rel := [], walked := false, passed := none, block := none, fetched := none,
           stopped := false, migPc := none, migSaved := false, swOut := none, run := .parked .waitm }

/-- A thread as it resumes in its destination (R380), whose count of jobs goes on (R259). -/
def Ctx.arrivedAt (t z : Ctx) (plSrc plDst clk : Nat) : Ctx :=
  { t.switchedIn clk with
      lg := z.lg, dirty := mapDirty t.dirty plSrc plDst t.lanes, missing := 0, resv := none, run := .running, wait := .none,
      migDest := none, migSaved := false, notBefore := 0, jobs := z.jobs, stopped := false, ticket := z.ticket }

/-- Redundant partners follow a thread. -/
def State.repartner (s : State) (c d : CtxId) : State :=
  match (s.ctx c).red with
  | some r => s.modCtx r.partner fun k => { k with red := k.red.map fun q => { q with partner := d } }
  | none => s

/-- The migration return (R380, R381, R409-R411): the thread resumes in context d, with the inbox records for it, which
the service consumes as R312 states. -/
def State.migrate (s : State) (c d : CtxId) : State :=
  let k := s.ctx c
  let z := s.ctx d
  let t0 := s.returnedCtx c
  let recs := s.ringRecords (coreOf c) (slotOf c) k.gang k.rank
  let t := recs.foldl (fun q r => q.carried r.2) t0
  let s1 := (recs.foldl (fun q r => q.performHome { ctx := none, fn := none } r.1 (List.replicate 8 0) true 0) s).modCore
    (coreOf c) fun q => { q with defer := putSlice q.defer (slotOf c) 1 0 }
  let s2 := k.streamPanes.foldl (fun q n => q.movePane (coreOf c) (coreOf d) t0.did n) s1
  let s3 := if s.ownsArray c then (s2.saveThread c).moveArray c d else s2
  let s4 : State := { s3.repartner c d with gangs := s3.gangs.map fun e =>
    if e.1 = k.gang then (e.1, { e.2 with members := e.2.members.map fun m => if m = c then d else m }) else e }
  (s4.setCtx c (k.vacated t0 z)).setCtx d (t.arrivedAt z (physLanes (coreOf c)) (physLanes (coreOf d)) s4.clk)

/-- Is an ERET one that ends the service of a migrate trap (R409; log entry 33): it leaves M for the trapping word? -/
def Ctx.migServed (k : Ctx) : Bool :=
  decide (k.mode = .m) && decide (k.mb.pm ≠ .m) && decide (k.migPc = some (addr62 k.mb.epc))

/-- May the return be a migration return: a destination is named, and it meets step 1 of R409?  A thread outside every gang has
no rank entry to name it by: its destination is that of step 1 as it stands (log entry 33). -/
def State.migTarget (s : State) (c : CtxId) : Option CtxId :=
  let k := s.ctx c
  if k.mode ≠ .m then none
  else match k.migDest with
    | some d => if s.migBarred c = false ∧ s.mayTake c d = true then some d else none
    | none => if k.migServed && decide (k.gang = 0) then s.migChoice c else none

/-- Does the service take the thread back to S, because step 1 of R409 finds no destination (R412)? -/
def State.migReflects (s : State) (c : CtxId) : Bool :=
  (s.ctx c).migServed && (s.migTarget c).isNone && (s.migChoice c).isNone

/-- The thread is back in S, with an illegal_instruction trap of its own at the trapping word, or with the access fault of its
TSAVE area (R412). -/
def State.reflect (s : State) (c : CtxId) : State :=
  let k := s.ctx c
  let badArea := s.ownsArray c && !s.tsaveFree c
  let s1 := s.setCtx c (s.returnedCtx c)
  if badArea then s1.enterTrap c 9 (BitVec.ofNat 64 (areaPa k.tsave)) false (addr62 k.mb.epc) none .s
  else s1.enterTrap c 0 k.mb.tval false (addr62 k.mb.epc) none .s

/-- The trap that a check of R445 gives: of causes 9 and 10 the value is EPC. -/
def State.eretTrap (s : State) (c : CtxId) : Option Nat :=
  let k := s.ctx c
  let b := k.bank k.mode
  if k.mode = .u ∨ k.mode.toNat < b.pm.toNat ∨ (slotOf c = 7 ∧ (b.pm = .u ∨ b.pm = .h)) then some 0
  else if k.mode = .m ∧ b.pm ≠ .m ∧ (s.core (coreOf c)).ssec.getLsbD (slotOf c) = true then some 9
  else if b.pm = .u ∧ s.pdid c k.mode ≠ s.slotDid (coreOf c) (slotOf c) then some 10
  else none

/-- Every job of the context has ended, and its message has been delivered (R381, R409 step 3). -/
def State.jobsGone (s : State) (c : CtxId) : Bool :=
  (upFrom 0 8).all fun cl => ((s.die (dieOf c)).jobq.toList.getD cl []).all fun j => decide (j.ctx ≠ c)

/-- No lease runs on an inbox record that a migrating thread takes with it (R312, R337). -/
def State.recordsFree (s : State) (c : CtxId) : Bool :=
  let k := s.ctx c
  (s.ringRecords (coreOf c) (slotOf c) k.gang k.rank).all fun r => s.leaseFree r.1 8

/-- A thread may leave context c for d (R381, R409 steps 3 to 6). -/
def State.mayLeave (s : State) (c d : CtxId) : Bool :=
  s.queuesEmpty c && s.jobsGone c && s.recordsFree c && s.arraysIdle c d

/-- ERET with its checks passed (R361, R398, R400, R409, R412): a context that was switched out or stopped, or that migrates,
first has every access performed at SYS; what a redundant member's commit buffer holds stays there (log entry 67). -/
def State.eretGo (s : State) (c : CtxId) : State :=
  let k := s.ctx c
  let (s1, ok) := if k.swOut.isSome || k.stopped || (s.migTarget c).isSome then s.release c 4 .message else (s, true)
  if !ok then s1.stallBounded c
  else match s1.migTarget c with
    | some d => if s1.mayLeave c d then s1.migrate c d else s1.stallBounded c
    | none =>
      if s1.migReflects c then s1.reflect c
      else s1.setCtx c { (s1.returnedCtx c).switchedIn s1.clk with stopped := false }

/-- ERET (R398, R400, R445). -/
def State.eret (s : State) (c : CtxId) (word : BitVec 32) : State :=
  let k := s.ctx c
  match s.eretTrap c with
  | some 0 => s.illegal c word
  | some n => s.trap c (mkTrap n (addr62 (k.bank k.mode).epc))
  | none =>
    if s.inStopped c then (s.modCtx c fun k => { k with swOut := some (k.swOut.getD s.clk) }).stall c else s.eretGo c

/-- ERET (R445): Checks and returns through the current mode's trap bank, waiting while its gang is stopped; what R34 and the
mode forbid is found before any other check (R87). -/
def execEret (s : State) : Res :=
  .next (s.issueIf encEret (decide (s.eretTrap s.cur = some 0)) fun c _ s => s.eret c encEret)

/-! Traps that no instruction gives. -/

/-- Forget the cause of an asynchronous trap that is taken. -/
def Ctx.clearAsync (k : Ctx) (cause : Nat) : Ctx :=
  if cause = 20 then { k with pendMc := none } else if cause = 21 then { k with pendStop := none } else { k with pendLane := none }

/-- The gang of a context that has taken gang_stop becomes stopped once every member has (R276, R399). -/
def State.stopTaken (s : State) (g : Nat) : State :=
  match s.gang? g with
  | some e =>
    if e.st = .stopping ∧ (e.members.all fun m => (s.ctx m).pendStop.isNone) = true then s.after 0 (.gangStopComplete g) else s
  | none => s

/-- Take the pending asynchronous trap of a context (R391, R395-R397). -/
def State.takeAsync (s : State) (c : CtxId) : State :=
  match Ctx.pendingAsync c (s.ctx c) with
  | none => s
  | some (cause, v, t) =>
    let s1 := s.modCtx c fun k => { (k.clearAsync cause).switchedIn s.clk with stopped := k.stopped || decide (cause = 21) }
    let s2 := s1.asyncTrap c cause v t
    if cause = 21 then s2.stopTaken (s2.ctx c).gang else s2

/-- ASYNC_TRAP_TAKEN (R395): Takes a pending unmasked asynchronous trap (machine_check, gang_stop, lane_reclaim_notify) at an
instruction boundary. -/
def execAsyncTrapTaken (s : State) : Res := .next (s.takeAsync s.cur)

/-- ILLEGAL_ENCODING (R87): A word that no encoding table assigns, or that uses a reserved code, issues and gives
trap(illegal_instruction). -/
def execIllegalEncoding (w : BitVec 32) (s : State) : Res := .next (s.issueIf w true fun c _ s => s.illegal c w)

/-- INSTRUCTION_FETCH_FAULT (R391): A fetch fails on a non-canonical or non-executable target or on a failed code chunk, and
the trap is taken with the fetch address as trapping PC; an uncorrectable error is in the log before it (R499, R500). -/
def execInstructionFetchFault (cause : Nat) (addr : Word) (s : State) : Res :=
  let c := s.cur
  let s2 := match s.translate (s.agent c) .fetch addr with
    | .error (.page b) => b
    | _ => false
  .next (s.accessTrap c .fetch { cause := cause, val := addr, stage2 := s2 })

end Sys2Proof.Machine
end

