-- ==== Sys2Proof/Machine/Fetch.lean ====
section
/-! DEFINITION. Fetching an instruction (R117, R299, R300, R391): translation, code chunks, the instruction cache and its
fills. -/

namespace Sys2Proof.Machine

/-- What a fetch gives: the word and the state with its translation cached, the state in which the context waits, or the cause
of the trap. -/
inductive Fetched where
  | word (w : BitVec 32) (s : State)
  | wait (s : State)
  | fault (cause : Nat)

/-- The code chunk that holds a physical address (R474): the function's entry, its range and the chunk. -/
structure CodeAt where
  fn    : Fn
  range : CodeRange
  chunk : Nat

/-- The code chunk that holds a physical address, of the first function and range that cover it (R474). -/
def State.codeAt (s : State) (pa : Nat) : Option CodeAt :=
  s.fns.findSome? fun e => e.2.ranges.toList.findSome? fun r =>
    match r.chunkAt pa with
    | some n => if r.isCode n then some { fn := e.2, range := r, chunk := n } else none
    | none => none

/-- The tweak of a line of a chunk: its object offset (R297, R299, R474). -/
def CodeAt.tweak (x : CodeAt) (pa : Nat) : BitVec 128 :=
  BitVec.ofNat 128 (4096 * ((x.range.nch.toNat + 1 + 127) / 128 + 1 + x.chunk) + pa % 4096 / 64 * 64)

/-- The AES-256-XTS key pair of a key slot: its low 512 bits (R473). -/
def xtsKey (k : BitVec 768) : BitVec 512 := k.extractLsb' 0 512

/-- The GMAC key of a key slot: its high 256 bits (R473). -/
def gmacKey (k : BitVec 768) : BitVec 256 := k.extractLsb' 512 256

/-- The 64 bytes of a line as a die's instruction caches fill them (R299, R448): a code line is decrypted. -/
def State.codeLine (s : State) (die line : Nat) : BitVec 512 :=
  let raw := BitVec.ofNat 512 (natOf (s.view noCtx die (line * 64) 64))
  match s.codeAt (line * 64) with
  | none => raw
  | some x => match x.fn.keys.toList.getD x.range.key.toNat none with
    | some k => Config.xtsDecrypt (xtsKey k) (x.tweak (line * 64)) raw
    | none => raw

/-- The state of the code chunk that holds a physical address; none where no code chunk does (R300, R474). -/
def State.chunkState (s : State) (pa : Nat) : Option ChunkState := (s.codeAt pa).map fun x => x.range.chunk x.chunk

/-- The word at a byte of a line. -/
def lineWord (v : BitVec 512) (pa : Nat) : BitVec 32 := v.extractLsb' (8 * (pa % 64)) 32

/-- The context waits for the fill of the line that it misses, at the port of its core's slice (R117, R301, R342): a bounded
wait (R322). -/
def State.awaitFill (s : State) (c : CtxId) (pa : Nat) : State :=
  ((((s.portUse c false false true [lineOf pa]).stallFetch c).modCtx c fun k => { k with wait := .fill })).soon
    (.icacheFill (coreOf c) pa 0)

/-- A fetch from a package to which no route is up (R476): it waits while links retrain. -/
def State.fetchRoute (s : State) (c : CtxId) (pkg : Nat) : Fetched :=
  if s.routeWaits pkg then .wait (s.stallFetch c) else .fault 20

/-- A fetch from HBM (R117, R300, R476, R500): where the cached line and the line as it stands differ, either (log entry 2).
An absent chunk keeps the context waiting. -/
def State.fetchHbm (s : State) (c : CtxId) (va : Word) (x : Xlat) : Fetched :=
  let ag := s.agent c
  let line := lineOf x.pa
  if !s.granuleOk ag x.pa then .fault 9
  else match s.chunkState x.pa with
    | some .failed => .fault 19
    | some .absent => .wait (s.stallFetch c)
    | _ =>
      match (s.core (coreOf c)).icache.find? line with
      | some v =>
        if s.sramBad line = some (coreOf c) then .fault 20
        else
        let now := s.codeLine (dieOf c) line
        let take := if v = now ∨ line ∈ s.errLines ∨ Config.choice s.free line = true then v else now
        .word (lineWord take x.pa) (s.fillTlb ag va x)
      | none =>
        if s.badLine (dieOf c) line then .fault 20
        else if s.routeUp (pkgOf x.pa) then .wait (s.awaitFill c x.pa)
        else s.fetchRoute c (pkgOf x.pa)

/-- A fetch from host memory (R340, R461): the word is read uncached, by one transaction whose completion the context awaits; a
shadow sends none (R510). -/
def State.fetchFromHost (s : State) (c : CtxId) (va : Word) (x : Xlat) (p : Nat) : Fetched :=
  let ag := s.agent c
  let got := (s.ctx c).fetched.filter fun e => decide (e.1 = va)
  if (s.servingFn p ag.did).isNone then .fault 9
  else if !s.routeUp (pkgOf x.pa) then s.fetchRoute c (pkgOf x.pa)
  else match got with
    | some e => .word e.2 (s.fillTlb ag va x)
    | none =>
      let s1 := if (s.ctx c).isShadow then s else s.portRequest ag.did (.host p) x.pa false 4 []
      .wait (((s1.stallFetch c).modCtx c fun k => { k with wait := .fetch va x.pa (s.requester ag.did (.host p)) }).soon
        (.outboundCompletion c 0 true))

/-- The tables in host memory that a fetch has walked count as read for it alone (R340). -/
def State.endWalk (s : State) (c : CtxId) (ps : List Nat) : State :=
  if (s.hostTables (s.agent c) ps).isEmpty then s else s.modCtx c fun k => { k with walked := false }

/-- A fetch of the word at PC (R117, R391, R419): its walk reads its tables with leases (R336). -/
def State.fetch (s : State) (c : CtxId) : Fetched :=
  let va := (s.ctx c).pc
  let ag := s.agent c
  match s.walkReady ag [va] 4 with
  | none => .wait ((s.holdWalks ag [va] 4).stallFetch c)
  | some s0 =>
    let s1 := s0.endWalk c (s.tablesOf ag [va] 4)
    match s.translate ag .fetch va with
    | .error f =>
      if decide (f = .mc) && s.linkWaits ag .fetch va then .wait (s1.stallFetch c) else .fault (f.trap .fetch va).cause
    | .ok x =>
      match s1.place x.pa with
      | .hbm => s1.fetchHbm c va x
      | .host p => s1.fetchFromHost c va x p
      | _ => .fault 9

/-- The contexts of a core that wait for a fill fetch again. -/
def State.endFills (s : State) (core : CoreId) : State :=
  (upFrom (core * 8) 8).foldl (fun t c =>
    if (t.ctx c).wait = .fill then t.modCtx c fun k => { k with wait := .none } else t) s

/-- May the line of a physical address be filled (R300, R500)? -/
def State.fillable (s : State) (die pa : Nat) : Bool :=
  decide (s.place pa = .hbm) && !s.badLine die (lineOf pa) &&
    (match s.chunkState pa with
      | some .failed => false
      | some .absent => false
      | _ => true)

/-- Has the port served the misses of the contexts that wait for a fill on a core (R342)? -/
def State.fillsServed (s : State) (core : CoreId) : Bool :=
  (upFrom (core * 8) 8).all fun c => decide ((s.ctx c).wait ≠ .fill) || s.portServed core (s.ctx c).ticket

/-- ICACHE_FILL (R117): An instruction-cache line fill completes, decrypting code lines; it waits at the port (R342), and for a
miss that is held at the home of the line (R337).  `err` says that a single-bit error of the line was corrected, or with 3 that the line
has an uncorrectable one, which the fetch meets (R500). -/
def execIcacheFill (core pa : Nat) (err : BitVec 2) (s : State) : Res :=
  .next (if !s.fillable (core / 64) pa then s.endFills core
    else if !s.fillsServed core then s.after 1 (.icacheFill core pa err)
    else if err = 3 then (s.lineFails core (lineOf pa)).endFills core
    else match (s.logCorrected core 0xFFFFFFFF (lineOf pa) err).readLine (core / 64) (lineOf pa) with
      | none => (s.holdMisses (core / 64) [lineOf pa]).after 8 (.icacheFill core pa err)
      | some s1 => (s1.modCore core fun k => k.fillIcache (lineOf pa) (s1.codeLine (core / 64) (lineOf pa))).endFills core)

/-- PAGE_WALK (R421): A translation walk completes and fills the caches or faults; a walk that faults caches nothing
(R420).  One that needs tables in host memory, for which no context waits, is not made (log entry 8). -/
def execPageWalk (c : Nat) (va : Word) (write exec : Bool) (s : State) : Res :=
  let ag := s.agent c
  let kind : AccKind := if exec then .fetch else if write then .store else .load
  .next (if !(s.hostTables ag (s.tablesOf ag [va] 1)).isEmpty then s
    else match s.walkReady ag [va] 1 with
    | none => (s.holdWalks ag [va] 1).after 8 (.pageWalk c va write exec)
    | some s1 => match s.walk ag va with
      | .ok x => if canonical ag.mode va && x.grants2 kind then s1.fillTlb ag va x else s1
      | .error _ => s1)

end Sys2Proof.Machine
end

