-- ==== Sys2Proof/Machine/Events.lean ====
section
/-! DEFINITION. The events of the queues and of the memory hierarchy: replies (R122), posted stores (R124), check phases
(R185), vector sweeps (R153, R179, R210), matrix entries (R236, R237, R241), misses and leases (R336-R338), tokens (R342),
the discipline of TIME (R315). -/

namespace Sys2Proof.Machine

/-- MEMORY_REPLY (R122): The reply of an ordinary access, atomic, LDL or STC returns, once the port of the slice has served it
(R342), and the context re-enters rotation.  `err` says that a single-bit error in the line that it read was corrected (R500); a
context that does not wait has hit its L1 data cache, an SRAM that R505 gives no class.  With 3 the line has an uncorrectable error
from now on, which its next reader meets (log entry 7). -/
def execMemoryReply (c : Nat) (err : BitVec 2) (line : Nat) (s : State) : Res :=
  .next (if (s.ctx c).wait ≠ .reply then
      (if err = 0 then s
      else if err = 3 then s.lineFails (coreOf c) line
      else s.logError (dieOf c) 0 0xFF 0 ((s.ctxid c).toNat % 2 ^ 27) (line * 64) (Config.syndrome s.free).toNat)
    else if !s.portServed (coreOf c) (s.ctx c).ticket then s.after 1 (.memoryReply c err line)
    else
      let s1 := if err = 3 then s.lineFails (coreOf c) line
        else s.logCorrected (coreOf c) ((s.ctxid c).toNat % 2 ^ 27) line err
      s1.modCtx c fun k => { k with wait := .none })

/-- POSTED_STORE_DRAIN (R124): A posted relaxed store leaves the store path into the die's caches. -/
def execPostedStoreDrain (c : Nat) (s : State) : Res := .next (s.drainPosted c)

/-- The wait of a check phase ends. -/
def Ctx.checked (k : Ctx) : Ctx := { k with vchk := none, wait := if k.wait = .check then .none else k.wait }

/-- VECTOR_CHECK_PHASE_END (R185): The check phase of a vector memory instruction ends and the instruction enters the
queue. -/
def execVectorCheckPhaseEnd (c : Nat) (s : State) : Res :=
  .next (match (s.ctx c).vchk with
    | some e => (s.modCtx c Ctx.checked).enqueue c e
    | none => s.modCtx c Ctx.checked)

/-- The arrival bits of a row of every register (R153). -/
def rowMask (row : Nat) : BitVec 4096 := (upFrom 0 32).foldl (fun b r => putSlice b (r * 128 + row * 16) 16 0xFFFF) 0

/-- The groups of a row that an instruction writes have arrived (R153). -/
def Ctx.rowArrival (k : Ctx) (cover : BitVec 4096) (row : Nat) : Ctx :=
  { k with missing := k.missing &&& ~~~(cover &&& rowMask row) }

/-- The head of a vector queue starts (R153, R179): the groups that it writes are missing until they arrive. -/
def Ctx.startHead (k : Ctx) : Ctx :=
  match k.vq with
  | e :: t => { k with vq := { e with started := true } :: t, missing := k.missing ||| e.cover }
  | [] => k

/-- Does a vector store wait for an earlier posted store of its context that is still in the store path and meets its lines
(R188, R348)? -/
def State.storesBefore (s : State) (c : CtxId) (e : VEntry) : Bool :=
  s.pend.any fun p => decide (p.owner = c) && decide (p.kind = .posted) && !p.atDie &&
    s.pend.any fun q => decide (q.id ∈ e.writes) && decide (p.id < q.id) && p.meets q

/-- May the head of a vector queue start: the port has served its accesses (R342), its host reads have completed (R340), and no
earlier store is in its way? -/
def State.sweepReady (s : State) (c : CtxId) (e : VEntry) : Bool :=
  s.portServed (coreOf c) e.ticket && decide (e.due ≤ s.clk) && !s.storesBefore c e

/-- The vector lane quarters of a context are in use (R503). -/
def State.useLanes (s : State) (c : CtxId) : State := s.useUnits (dieOf c) (vectorUnits c (s.ctx c))

/-- VECTOR_SWEEP_START (R179): A queued vector instruction starts once issue, predecessor and arrival conditions hold; a load that
nothing has read yet takes its values now (R352). -/
def execVectorSweepStart (c : Nat) (s : State) : Res :=
  .next (match (s.ctx c).vq with
    | e :: _ =>
      if e.started then s
      else if !s.sweepReady c e then s.after 1 (.vectorSweepStart c)
      else
        let s0 := match e.load with
          | some l => s.fixLoad c l
          | none => s
        let s1 := ((s0.useLanes c).modCtx c Ctx.loadsFixed).modCtx c Ctx.startHead
        if e.rows = 0 then s1.soon (.vectorSweepComplete c) else s1.soon (.vectorRowArrival c 0)
    | [] => s)

/-- VECTOR_ROW_ARRIVAL (R153): A row's groups are written and their arrival bits set, releasing waiting consumers. -/
def execVectorRowArrival (c row : Nat) (s : State) : Res :=
  .next (match (s.ctx c).vq with
    | e :: _ =>
      if e.started then
        let s1 := (s.useLanes c).modCtx c fun k => k.rowArrival e.cover row
        if row + 1 < e.rows then s1.after 8 (.vectorRowArrival c (row + 1)) else s1.after 1 (.vectorSweepComplete c)
      else s
    | [] => s)

/-- VECTOR_SWEEP_COMPLETE (R56): A vector instruction completes and ORs its flags into FSTAT. -/
def execVectorSweepComplete (c : Nat) (s : State) : Res :=
  .next (match (s.ctx c).vq with
    | e :: t =>
      if e.started then
        let s1 := ((s.useLanes c).completeVector c e).modCtx c fun k => { k with vq := t }
        if t.isEmpty then s1 else s1.soon (.vectorSweepStart c)
      else s
    | [] => s)

/-- The matrix array of a core is in use (R503). -/
def State.useArray (s : State) (core : CoreId) : State := s.useUnits (core / 64) [(3, core % 64)]

/-- MATRIX_ENTRY_START (R236): A matrix-queue entry starts once the array or plane loader and its operands are ready. -/
def execMatrixEntryStart (core : Nat) (s : State) : Res :=
  .next (match (s.core core).mq with
    | e :: t =>
      if e.started then s
      else ((s.useArray core).modCore core fun k => { k with mq := { e with started := true } :: t }).soon
        (.matrixEntryComplete core false false)
    | [] => s)

/-- A failed check of the array reaches the issuing context and the log (R241, R502). -/
def State.residueFailed (s : State) (core : CoreId) (e : MEntry) : State :=
  (s.logError (core / 64) 3 3 (core % 64) ((s.ctxid e.owner).toNat % 2 ^ 27) e.pc.toNat 0).raiseMc e.owner e.pc

/-- An uncorrectable error in a vector register that a matrix instruction read reaches the issuing context and the log (R241,
R500); no class of R505 is a vector register. -/
def State.vregFailed (s : State) (core : CoreId) (e : MEntry) : State :=
  (s.logError (core / 64) 2 0xFF 0 ((s.ctxid e.owner).toNat % 2 ^ 27) e.pc.toNat (Config.syndrome s.free).toNat).raiseMc
    e.owner e.pc

/-- MATRIX_ENTRY_COMPLETE (R237): A matrix instruction completes and ORs its flags into MSTAT.  `residue` says that a check of
R241 failed, which only an instruction that writes a tile can meet; `vreg` that a vector register that it read had an
uncorrectable error. -/
def execMatrixEntryComplete (core : Nat) (residue vreg : Bool) (s : State) : Res :=
  .next (match (s.core core).mq with
    | e :: t =>
      if e.started then
        let bad := vreg && e.op.readsVector
        let s1 := (s.useArray core).modCore core fun k => { k.completeEntry e residue bad with mq := t }
        let s2 := if residue && e.op.tile.isSome then s1.residueFailed core e else s1
        let s3 := if bad then s2.vregFailed core e else s2
        if t.isEmpty then s3 else s3.soon (.matrixEntryStart core)
      else s
    | [] => s)

/-- WAIT_RESUMPTION (R301): A wait on a unit, queue place, pane, drain or fence ends and the instruction proceeds: the writes
that a bounded wait holds on are performed as far as no lease holds them, and the instruction issues again at its next own
turn. -/
def execWaitResumption (c : Nat) (s : State) : Res := .next (if (s.ctx c).bounded then (s.release c 4 .access).1 else s)

/-- HOME_MISS (R336): The home serves a far miss, granting a lease and updating the expiry; while a write waits at the home
the miss is held until that write is performed (R337). -/
def execHomeMiss (die line : Nat) (s : State) : Res := .next ((s.readLine die line).getD (s.holdMisses die [line]))

/-- The host function whose request a pending write is (R467). -/
def State.fnOfWrite (s : State) (id : Nat) : Option (Nat × Nat) :=
  (List.find? (fun e : Nat × Fn => decide (id ∈ e.2.reqs)) s.fns).map fun e => (e.1 / 64, e.1 % 64)

/-- The earlier pending requests of the same function (R467). -/
def State.earlierReqs (s : State) (port fn id : Nat) : Bool :=
  (s.fn port fn).reqs.any fun q => decide (q < id) && s.pend.any fun p => decide (p.id = q)

/-- The 4,096 ciphertext bytes of the page of a chunk verify against the copied tag (R299, R474). -/
def State.chunkVerified (s : State) (f : Fn) (r : CodeRange) (n : Nat) : Bool :=
  match f.keys.toList.getD r.key.toNat none with
  | some k => decide (Config.gmac (gmacKey k) n (s.mem.readN ((r.base.toNat + n) * 4096) 4096) = (r.copied.getD n (0, 0)).2)
  | none => false

/-- The bytes of a line that a write of n bytes covers. -/
def lineMask (addr n line : Nat) : BitVec 64 :=
  (upFrom 0 64).foldl (fun b i => if addr ≤ line * 64 + i ∧ line * 64 + i < addr + n then b ||| BitVec.twoPow 64 i else b) 0

/-- A range after its own function's inbound write to bytes of a line (R300, R474): once every byte of an absent code chunk has
been written, the chunk has arrived or failed. -/
def State.inboundLine (s : State) (f : Fn) (r : CodeRange) (addr n line : Nat) : CodeRange :=
  match r.chunkAt (line * 64) with
  | some k =>
    if r.isCode k ∧ r.chunk k = .absent then
      let key := k * 64 + line % 64
      let ls := r.lines.set key (r.lines.getD key 0 ||| lineMask addr n line)
      let r1 := { r with lines := ls }
      if (upFrom (k * 64) 64).all fun q => decide (ls.getD q 0 = BitVec.allOnes 64) then
        { r1 with states := r1.states.set k (if s.chunkVerified f r k then .arrived else .failed) }
      else r1
    else r
  | none => r

/-- The code ranges of a function after its inbound write (R474). -/
def State.inboundChunks (s : State) (port fn addr n : Nat) : State :=
  (linesOf addr n).foldl (fun t l =>
    t.modFn port fn fun f => { f with ranges := f.ranges.map fun r => t.inboundLine f r addr n l }) s

/-- A host write is performed at its home (R467). -/
def State.performHost (s : State) (p : PWrite) (port fn : Nat) : State :=
  let s1 := (s.performHome { ctx := none, fn := some (port, fn) } p.addr p.bytes true 0).endPend p
  (s1.modFn port fn fun f => { f with reqs := f.reqs.filter fun q => q ≠ p.id }).inboundChunks port fn p.addr p.bytes.length

/-- HOME_WRITE_PERFORM (R337): A write waiting at the home is performed at max(now, E), then held misses are served; the
writes of a host function keep their order (R467). -/
def execHomeWritePerform (id : Nat) (s : State) : Res :=
  .next (match s.pend.find? fun p => decide (p.id = id) with
    | none => s
    | some p =>
      match s.fnOfWrite id with
      | some (port, fn) =>
        if s.earlierReqs port fn id then s.after 8 (.homeWritePerform id)
        else if s.leaseFree p.addr p.bytes.length then s.performHost p port fn
        else if p.waits then s.after 8 (.homeWritePerform id)
        else s.waitHome p
      | none =>
        if !p.atDie then s.after 8 (.homeWritePerform id)
        else
          let s1 := s.flush fun q => decide (q.id = id)
          if p.waits && s1.pend.any fun q => decide (q.id = id) then s1.after 8 (.homeWritePerform id) else s1)

/-- An inbox record whose line its interface has not written long after the leases ended no longer holds the misses there (R337; log
entry 53). -/
def State.lateInbox (s : State) (line : Nat) : State :=
  if s.expiry line + 32 ≤ s.clk ∧ (s.held.any fun h => decide (h.1 = line ∧ noCtx < h.2)) = true then
    ({ s with held := s.held.filter fun h => !(decide (h.1 = line) && decide (noCtx < h.2)) } : State).serveMisses line
  else s

/-- LEASE_EXPIRY (R336): A far line's lease ends and every copy on the die becomes invalid, one of a buffer that has been sealed
since with it (R265). -/
def execLeaseExpiry (die line : Nat) (s : State) : Res :=
  .next (((if (s.die die).copies.getD line 0 ≤ s.clk ∧ s.near die line = false then
      ((s.modDie die fun d => { d with copies := d.copies.erase line }).modDieCores die fun k => k.expireLine line).lineGone die line
    else s) : State).lateInbox line)

/-- WRITE_COMBINE_FLUSH (R338): A held write-combining far line is written home at eviction or release. -/
def execWriteCombineFlush (die line : Nat) (s : State) : Res :=
  .next (s.flush fun p => decide (p.die = die) && p.atDie && decide (p.kind ≠ .host) &&
    decide (line ∈ linesOf p.addr p.bytes.length))

/-- TOKEN_BUCKET_REFILL (R342): Each clk the domain token buckets refill and waiting accesses may proceed: each domain on its own
tokens, then on those it borrows (R343). -/
def execTokenBucketRefill (core : Nat) (s : State) : Res :=
  .next ((s.modCore core fun k => k.portClk s.detmode).startRefill core)

/-- A rate of discipline within 200 parts per million (R315). -/
def clampPpm (p : Int) : Int := max (-200) (min 200 p)

/-- PTP_TIMESTAMP_EXCHANGE (R315): An IEEE 1588 delay request-response exchange disciplines the TIME rate, never its value. -/
def execPtpTimestampExchange (ppm : Int) (s : State) : Res :=
  .next { s with timeBase := s.timeBaseNow, timeFrac := s.timeParts % 2000000, clkBase := s.clk, ppm := clampPpm ppm }

end Sys2Proof.Machine
end

