-- ==== Sys2Proof/Machine/HostPort.lean ====
section
/-! DEFINITION. Host ports (R459-R474): register writes of the function control blocks, inbound requests, doorbells, MSI-X,
completions of outbound reads, TDISP, SPDM and keys. -/

namespace Sys2Proof.Machine

/-! The register writes that stand as steps of their own: a store of the context whose turn it is. -/

/-- The physical address of an FCB register (R462). -/
def State.fcbAddr (s : State) (port fn off : Nat) : Nat :=
  s.pkgNum * 2 ^ 46 + (12 + port) * 2 ^ 42 + 2 ^ 41 + 4096 * fn + off

/-- A store to an FCB register (R463-R465): what its register states, or trap(access_or_world_fault). -/
def State.fcbStore (s : State) (port fn off : Nat) (v : Word) : State :=
  let c := s.cur
  let bad := s.trap c (mkTrap 9 (BitVec.ofNat 64 (s.fcbAddr port fn off)))
  if 1 < port ∨ 48 < fn then bad
  else
    let (s1, ok) := s.fcbWrite (s.agent c) port fn off v
    if ok then (s1.retire c).awaitFar c else s1.trap c (mkTrap 9 (BitVec.ofNat 64 (s.fcbAddr port fn off)))

/-- FCTL_WRITE (R468): A write of FCTL changes doorbell delivery and evaluates the doorbell. -/
def execFctlWrite (port fn : Nat) (v : Word) (s : State) : Res := .next (s.fcbStore port fn 0x008 v)

/-- DBTGT_WRITE (R468): A write of DBTGT changes the doorbell target and evaluates the doorbell. -/
def execDbtgtWrite (port fn : Nat) (v : Word) (s : State) : Res := .next (s.fcbStore port fn 0x018 v)

/-- LQHEAD_WRITE (R468): A write of LQHEAD acknowledges a doorbell, clears OUT and evaluates. -/
def execLqheadWrite (port fn : Nat) (v : Word) (s : State) : Res := .next (s.fcbStore port fn 0x028 v)

/-- HINT_WRITE (R470): A write of HINT sends an MSI-X vector of the function. -/
def execHintWrite (port fn : Nat) (v : Word) (s : State) : Res := .next (s.fcbStore port fn 0x030 v)

/-- The offset of CRCTL of range k (R463). -/
def crctlOff (k : Nat) : Nat := 0x108 + 0x18 * (k % 8)

/-- CODE_RANGE_ENABLE (R474): Writing CRCTL.V := 1 copies the chunk table and sets every chunk absent. -/
def execCodeRangeEnable (port fn k : Nat) (v : Word) (s : State) : Res := .next (s.fcbStore port fn (crctlOff k) (v ||| 1))

/-- CODE_RANGE_DISABLE (R474): Writing CRCTL.V := 0 makes the range not valid. -/
def execCodeRangeDisable (port fn k : Nat) (v : Word) (s : State) : Res := .next (s.fcbStore port fn (crctlOff k) (v &&& ~~~1))

/-- FCB_REGISTER_WRITE (R463): A store to an FCB register without behaviour of its own, checked under R464 and R465. -/
def execFcbRegisterWrite (port fn off : Nat) (v : Word) (s : State) : Res := .next (s.fcbStore port fn off v)

/-! Inbound requests. -/

/-- The host ports and their identity are up: boot step 11 has ended, and the package is not halted (R489, R518; log entry 69). -/
def State.hostUp (s : State) : Bool := s.powered && !s.boot.halted && decide (11 ≤ s.boot.lastStep)

/-- What the host does at its ports has its effect once they are up. -/
def State.atPort (s : State) (go : State) : State := if s.hostUp then go else s

/-- Set a bit of FERR (R463). -/
def State.setFerr (s : State) (port fn b : Nat) : State :=
  s.modFn port fn fun f => { f with ferr := f.ferr ||| BitVec.twoPow 4 b }

/-- Does the TDISP state of a function accept a request (R472)? -/
def Fn.accepts (f : Fn) (ide : Bool) : Bool := decide (f.tds = 0) || (decide (f.tds = 2) && ide)

/-- The parts of a request within lines: offset and length. -/
def linePieces : Nat → Nat → Nat → List (Nat × Nat)
  | 0, _, _ => []
  | n + 1, off, len =>
    if len = 0 then []
    else
      let k := min len (64 - off % 64)
      (off, k) :: linePieces n (off + k) (len - k)

/-- Where a part of a request goes (R466, R467), or the FERR bit of its refusal: 0 IFLT, 1 SLW. -/
def State.inboundAt (s : State) (port fn : Nat) (write : Bool) (off : Nat) : Except Nat Nat :=
  let f := s.fn port fn
  let ag := s.fnAgent port fn
  if !f.iatEn || decide (2 ^ 36 ≤ off) then .error 0
  else match walkFrom (s.readTable ag) true off 3 (f.iatb.toNat * 4096) with
    | .error _ => .error 0
    | .ok l =>
      let x : Xlat := { pa := l.pa, size := l.size, st1 := false, st2 := true, g := false, r1 := true, w1 := true, x1 := true,
                        u1 := true, r2 := l.r, w2 := l.w, x2 := l.x, sh := l.sh }
      if s.place l.pa ≠ .hbm ∨ (if write then l.w else l.r) = false ∨ s.granuleOk ag l.pa = false ∨
          s.routeUp (pkgOf l.pa) = false ∨ s.lineDidOk ag { pa := l.pa, place := .hbm, xl := x } = false then .error 0
      else if write ∧ (s.sealAt l.pa).isSome = true then .error 1
      else .ok l.pa

/-- Where every part of a request goes, or the first refusal. -/
def State.inboundAll (s : State) (port fn : Nat) (write : Bool) : List (Nat × Nat) → Except Nat (List (Nat × Nat))
  | [] => .ok []
  | (o, n) :: t =>
    match s.inboundAt port fn write o with
    | .error e => .error e
    | .ok pa => match State.inboundAll s port fn write t with
      | .error e => .error e
      | .ok r => .ok ((pa, n) :: r)

/-- Does a part of a request wait for links of its route that retrain (R476): to the package of a table entry of its walk, or to
that of its line? -/
def State.partWaits (s : State) (port fn off : Nat) : Bool :=
  let ag := s.fnAgent port fn
  let root := (s.fn port fn).iatb.toNat * 4096
  (s.fn port fn).iatEn && decide (off < 2 ^ 36) &&
    ((walkReads (s.readTable ag) true off 3 root).any (fun p => s.routeWaits (pkgOf p)) ||
      (match walkFrom (s.readTable ag) true off 3 root with
        | .ok l => s.routeWaits (pkgOf l.pa)
        | .error _ => false))

/-- Does a request wait for links (R476)? -/
def State.requestWaits (s : State) (port fn off len : Nat) : Bool :=
  (linePieces (len / 64 + 2) off len).any fun p => s.partWaits port fn p.1

/-- Does a request wait behind others of its function: one that comes anew, while another is the next (R467)? -/
def State.behind (s : State) (port fn : Nat) (i : Instr) : Bool :=
  let q := (s.fn port fn).queue
  !q.isEmpty && (decide (q.head? ≠ some i) || s.agenda.any fun e => decide (e.2 = i) && decide (e.1 ≤ s.clk + 8))

/-- A request of a function is over, and the next one that waits is examined (R467). -/
def State.nextRequest (s : State) (port fn : Nat) : State :=
  match (s.fn port fn).queue with
  | _ :: t =>
    let s1 := s.modFn port fn fun f => { f with queue := t }
    match t with
    | i :: _ => s1.after 0 i
    | [] => s1
  | [] => s

/-- The requests of a function are examined in the order of their arrival, once the ports are up; the first waits while links of its
route retrain (R467, R476). -/
def State.inFnOrder (s : State) (port fn : Nat) (i : Instr) (waits : Bool) (go : State) : State :=
  if !s.hostUp then s
  else if s.behind port fn i then s.modFn port fn fun f => { f with queue := f.queue ++ [i] }
  else if waits then (s.modFn port fn fun f => { f with queue := if f.queue.isEmpty then [i] else f.queue }).after 8 i
  else go.nextRequest port fn

/-- A refused read completes with Completer Abort (R467). -/
def State.abortRead (s : State) (port fn b : Nat) : State :=
  let s1 := s.setFerr port fn b
  { s1 with hostOut := s1.hostOut ++ [.abort port fn] }

/-! BAR0 (R466, R468, R470). -/

/-- The 32-bit word at an offset of BAR0 (R466): HEAD, the MSI-X table, the pending-bit array; DOORBELL is write-only and every
other offset reads as zero. -/
def Fn.bar0Word (f : Fn) (off : Nat) : BitVec 32 :=
  if off = 0x008 then f.lqhead
  else if 0x1000 ≤ off ∧ off < 0x1100 then (f.vector ((off - 0x1000) / 16)).extractLsb' (8 * (off % 16)) 32
  else if off = 0x2000 then f.pend.zeroExtend 32
  else 0

/-- Bytes of BAR0 (R466). -/
def Fn.bar0Bytes (f : Fn) (off len : Nat) : List Byte :=
  (upFrom off len).map fun a => (f.bar0Word (a / 4 * 4)).extractLsb' (8 * (a % 4)) 8

/-- The host writes DOORBELL (R468). -/
def State.ringDoorbell (s : State) (port fn : Nat) (v : BitVec 32) : State :=
  (s.modFn port fn fun f => { f with lqtail := v }).evalDoorbell port fn

/-- The host writes a word of an MSI-X table entry (R466, R470): a pending vector that is unmasked is sent. -/
def State.writeMsix (s : State) (port fn vec word : Nat) (v : BitVec 32) : State :=
  let f := s.fn port fn
  let g : Fn := { f with msix := f.msix.setIfInBounds vec (putSlice (f.vector vec) (32 * word) 32 v.toNat) }
  if g.pend.getLsbD vec && !g.vecMasked vec then
    (s.setFn port fn { g with pend := g.pend &&& ~~~ BitVec.twoPow 16 vec }).emitMsix port fn vec
  else s.setFn port fn g

/-- The host writes an aligned word of BAR0 (R466): other offsets ignore it. -/
def State.bar0Write (s : State) (port fn off : Nat) (v : BitVec 32) : State :=
  if off = 0 then s.ringDoorbell port fn v
  else if 0x1000 ≤ off ∧ off < 0x1100 then s.writeMsix port fn ((off - 0x1000) / 16) (off % 16 / 4) v
  else s

/-- The host writes bytes to BAR0, by its aligned words; a part of a word is ignored. -/
def State.bar0Writes (s : State) (port fn off : Nat) : List Byte → State
  | b0 :: b1 :: b2 :: b3 :: t => State.bar0Writes (s.bar0Write port fn off (BitVec.ofNat 32 (natOf [b0, b1, b2, b3]))) port fn (off + 4) t
  | _ => s

/-- A request to BAR0 by a function's host (R472): the effect, or FERR.IDEF where its TDISP state refuses it. -/
def State.onBar0 (s : State) (port fn : Nat) (ide : Bool) (go : State → State) : State :=
  if (s.fn port fn).accepts ide then go s else s.setFerr port fn 2

/-- A completion with data leaves for the host (R467). -/
def State.completeRead (s : State) (port fn : Nat) (bytes : List Byte) : State :=
  { s with hostOut := s.hostOut ++ [.data port fn bytes] }

/-- INBOUND_READ (R467): A host read through BAR2 is translated, checked and completed or aborted; it returns what is
performed at SYS (R364).  A read of BAR0 returns its registers (R466).  A read longer than the port's maximum is aborted
(R459). -/
def execInboundRead (port fn off len : Nat) (bar0 ide : Bool) (s : State) : Res :=
  .next (s.inFnOrder port fn (.inboundRead port fn off len bar0 ide)
    ((s.fn port fn).accepts ide && decide (len ≤ 4096) && !bar0 && s.requestWaits port fn off len)
    (if !(s.fn port fn).accepts ide then s.abortRead port fn 2
    else if 4096 < len then s.abortRead port fn 0
    else if bar0 then s.completeRead port fn ((s.fn port fn).bar0Bytes off len)
    else match s.inboundAll port fn false (linePieces (len / 64 + 2) off len) with
      | .error b => s.abortRead port fn b
      | .ok ps => s.completeRead port fn (ps.flatMap fun p => s.mem.readN p.1 p.2)))

/-- A part of a posted write is on its way to its home (R467). -/
def State.hostWrite (s : State) (port fn pa : Nat) (bytes : List Byte) : State :=
  let id := s.nextId
  let s1 := s.putPend { id := id, owner := noCtx, die := 12 + port, kind := .host, near := false, leave := 0,
                        ticket := { dom := 0, no := 0 }, atDie := false, waits := false, addr := pa, bytes := bytes,
                        shared := true, did := 0, mode := .u }
  (s1.modFn port fn fun f => { f with reqs := f.reqs ++ [id] }).after 0 (.homeWritePerform id)

/-- The parts of a posted write, with their bytes. -/
def State.inboundParts (s : State) (port fn : Nat) : List (Nat × Nat) → List Byte → State
  | [], _ => s
  | (pa, n) :: t, bs => State.inboundParts (s.hostWrite port fn pa (bs.take n)) port fn t (bs.drop n)

/-- INBOUND_WRITE (R467): A host write through BAR2 is translated, checked and performed or discarded.  A write of BAR0
reaches its registers (R466).  A write longer than the port's maximum payload is discarded (R459). -/
def execInboundWrite (port fn off : Nat) (data : List Byte) (bar0 ide : Bool) (s : State) : Res :=
  .next (s.inFnOrder port fn (.inboundWrite port fn off data bar0 ide)
    ((s.fn port fn).accepts ide && decide (data.length ≤ 512) && !bar0 && s.requestWaits port fn off data.length)
    (if !(s.fn port fn).accepts ide then s.setFerr port fn 2
    else if 512 < data.length then s.setFerr port fn 0
    else if bar0 then (if off % 4 = 0 then s.bar0Writes port fn off data else s)
    else match s.inboundAll port fn true (linePieces (data.length / 64 + 2) off data.length) with
      | .error b => s.setFerr port fn b
      | .ok ps => s.inboundParts port fn ps data))

/-! Doorbells and MSI-X. -/

/-- HOST_DOORBELL_WRITE (R468): The host writes DOORBELL, setting LQTAIL and evaluating; the TDISP state decides whether the
request is accepted (R472). -/
def execHostDoorbellWrite (port fn : Nat) (v : BitVec 32) (ide : Bool) (s : State) : Res :=
  .next (s.inFnOrder port fn (.hostDoorbellWrite port fn v ide) false (s.onBar0 port fn ide fun t => t.ringDoorbell port fn v))

/-- The doorbell message of a function (R469). -/
def doorbellMsg (port fn : Nat) (note : BitVec 32) : Msg :=
  { kind := 0, org := true, srank := 0, gang := 0, trank := 0,
    payload := BitVec.ofNat 512 (2 ^ 63 + 64 * port + fn + 2 ^ 64 * note.toNat) }

/-- DOORBELL_MESSAGE_SEND (R469): The first prepared doorbell message leaves once earlier requests are performed at SYS. -/
def execDoorbellMessageSend (port fn : Nat) (s : State) : Res :=
  let f := s.fn port fn
  .next (match f.dbWait with
    | [] => s
    | (note, ids) :: t =>
      if ids.any fun i => decide (i ∈ f.reqs) then s.after 8 (.doorbellMessageSend port fn)
      else
        let (s1, ok) := s.deliverTo (f.dbCtx.toNat % 8192) (doorbellMsg port fn note)
        if ok then s1.modFn port fn fun f => { f with dbWait := t } else s1.after 8 (.doorbellMessageSend port fn))

/-- HOST_MSIX_UNMASK (R470): The host writes the control word of a vector's MSI-X table entry, whose bit 0 masks it; a pending
vector that it unmasks is sent. -/
def execHostMsixUnmask (port fn vec : Nat) (v : BitVec 32) (ide : Bool) (s : State) : Res :=
  .next (s.inFnOrder port fn (.hostMsixUnmask port fn vec v ide) false
    (s.onBar0 port fn ide fun t => t.writeMsix port fn vec 3 v))

/-! Completions of outbound reads. -/

/-- Forget the completion and the time limit of a context's outbound read. -/
def outboundOf (c : Nat) : Instr → Bool
  | .outboundCompletion c' _ _ => decide (c' = c)
  | .peerReadTimeout c' => decide (c' = c)
  | _ => false

/-- The outbound read of a context is over: its other event no longer happens. -/
def State.endOutbound (s : State) (c : CtxId) : State :=
  let s1 : State := { s with agenda := s.agenda.filter fun e => !outboundOf c e.2 }
  s1.modCtx c fun k => { k with wait := .none }

/-- An outbound read ends in a machine check with FERR.PCE of the function that sent it (R463, R471). -/
def State.outboundError (s : State) (c : CtxId) (va : Word) (fn : Option (Nat × Nat)) : State :=
  let s1 := s.endOutbound c
  let s2 := match fn with
    | some (p, f) => s1.setFerr p f 3
    | none => s1
  (s2.lend c false []).trap c (mkTrap 20 va)

/-- OUTBOUND_COMPLETION (R340): A PCIe completion for an outbound read arrives and returns the data: a load takes them, a
block or a fetched word waits for its instruction, a walk goes on with its tables. -/
def execOutboundCompletion (c : Nat) (data : Word) (ok : Bool) (s : State) : Res :=
  .next (match (s.ctx c).wait with
    | .outbound w va pa fn =>
      if ok then ((s.endOutbound c).lend c true (cellsOf pa (bytesOf data.toNat 8))).finishLoad c w data.toNat
      else s.outboundError c va fn
    | .block va pa n fn =>
      if ok then
        ((s.endOutbound c).lend c true (cellsOf pa (s.mem.readN pa n))).modCtx c fun k =>
          { k with block := some (va, s.mem.readN pa n) }
      else s.outboundError c va fn
    | .fetch va pa fn =>
      if ok then (s.endOutbound c).modCtx c fun k => { k with fetched := some (va, BitVec.ofNat 32 (natOf (s.mem.readN pa 4))) }
      else s.outboundError c va fn
    | .tables va fn =>
      if ok then (s.endOutbound c).modCtx c fun k => { k with walked := true } else s.outboundError c va fn
    | _ => s)

/-- PEER_READ_TIMEOUT (R471): A peer read without completion after 50 µs ends in a machine check and sets FERR.PCE. -/
def execPeerReadTimeout (c : Nat) (s : State) : Res :=
  .next (match (s.ctx c).wait with
    | .outbound _ va _ fn => s.outboundError c va fn
    | _ => s)

/-! TDISP, SPDM and keys. -/

/-- The moves that a host TDISP request makes (R472): lock, start, and stop; ERROR is entered by the device, and by a
request that names it. -/
def tdispMove (old : BitVec 2) (new : Nat) : Bool :=
  (decide (old = 0) && decide (new = 1)) || (decide (old = 1) && decide (new = 2)) || decide (new = 0) || decide (new = 3)

/-- TDISP_REQUEST (R472): A host TDISP request moves a virtual function between TDISP states; ERROR and CONFIG_UNLOCKED erase
its keys (R473). -/
def execTdispRequest (port fn state : Nat) (s : State) : Res :=
  .next (s.atPort (if 1 ≤ fn ∧ fn ≤ 48 ∧ tdispMove (s.fn port fn).tds state = true then
      s.modFn port fn fun f =>
        let g := if state = 0 ∨ state = 3 then f.eraseKeys else f
        { g with tds := BitVec.ofNat 2 state }
    else s))

/-- SPDM_MESSAGE (R459): An SPDM request over DOE is answered by the responder: 0 certificates, 1 measurements, 2 the key
exchange that opens a session, 3 a secured message in a session, 4 the end of the session, which erases the function's keys
(R473). -/
def execSpdmMessage (port fn kind : Nat) (s : State) : Res :=
  let ok := decide (kind ≤ 2) || (s.fn port fn).sess
  let s1 := if kind = 2 then s.modFn port fn fun f => { f with sess := true }
    else if kind = 4 ∧ ok = true then s.modFn port fn fun f => { f.eraseKeys with sess := false }
    else s
  .next (s.atPort { s1 with hostOut := s1.hostOut ++ [.spdm port fn kind ok] })

/-- KEY_INSTALL (R473): An SPDM secured message installs a key slot for the function, in CONFIG_LOCKED or RUN. -/
def execKeyInstall (port fn slot : Nat) (key : BitVec 768) (s : State) : Res :=
  let f := s.fn port fn
  let ok := f.sess && (decide (f.tds = 1) || decide (f.tds = 2)) && decide (slot < 8)
  let s1 := if ok then s.setFn port fn { f with keys := f.keys.setIfInBounds slot (some key) } else s
  .next (s.atPort { s1 with hostOut := s1.hostOut ++ [.spdm port fn 3 ok] })

/-- KEY_ERASE (R473): ERROR, unlock, session end or FLR erases the function's keys and fails its chunks. -/
def execKeyErase (port fn : Nat) (s : State) : Res := .next (s.atPort (s.modFn port fn Fn.eraseKeys))

/-- FUNCTION_LEVEL_RESET (R473): A function-level reset of a function. -/
def execFunctionLevelReset (port fn : Nat) (s : State) : Res := .next (s.atPort (s.modFn port fn Fn.eraseKeys))

/-- FUNCTION_ENABLE (R463): The host enables or disables a virtual function under SR-IOV, which changes FID.VFE. -/
def execFunctionEnable (port fn : Nat) (enable : Bool) (s : State) : Res := 
  .next (s.atPort (s.modFn port fn fun f => { f with vfe := enable }))

end Sys2Proof.Machine
end

