-- ==== Sys2Proof/Machine/Boot.lean ====
section
/-! DEFINITION. Etesian links and link widths (R475, R476, R478), reset, boot and its journal (R40, R488-R493), controllers
(R492), expansion tables (R494), management commands (R495-R497), thermal trips and power (R514, R518). -/

namespace Sys2Proof.Machine

/-! Links. -/

/-- Set the state of an Etesian port. -/
def State.setPort (s : State) (port : Nat) (st : BitVec 2) : State :=
  { s with ports := s.ports.setIfInBounds port { state := st } }

/-- Is an event the retraining limit of a port? -/
def retrainOf (port : Nat) : Instr → Bool
  | .linkRetrainTimeout p => decide (p = port)
  | _ => false

/-- ETESIAN_FLIT_REPLAY (R475): A flit failing its CRC is replayed from the sender's buffer, which changes times and nothing
else. -/
def execEtesianFlitReplay (_ : Nat) (s : State) : Res := .next s

/-- LINK_DOWN (R476): A link goes down and its ports retrain for up to 1 ms while flits wait. -/
def execLinkDown (port : Nat) (s : State) : Res :=
  .next (if s.portState port = 2 then (s.setPort port 1).after 2000000 (.linkRetrainTimeout port) else s)

/-- LINK_RETRAINED (R476): A link that went down finishes retraining within 1 ms, and its waiting flits resume on the same
route. -/
def execLinkRetrained (port : Nat) (s : State) : Res :=
  let s1 := s.setPort port 2
  .next (if s.portState port = 1 then { s1 with agenda := s1.agenda.filter fun e => !retrainOf port e.2 } else s)

/-- LINK_RETRAIN_TIMEOUT (R476): Retraining fails after 1 ms and traffic moves to the next route, or machine-checks; the
route loss is logged by the die that R498 names. -/
def execLinkRetrainTimeout (port : Nat) (s : State) : Res :=
  .next (if s.portState port = 1 then (s.setPort port 0).logError (if port < 9 then 4 else 7) 6 10 port 0xFFFFFFFF 0 0 else s)

/-- A width handshake begins (R478): the link is at `n` halvings after it. -/
def State.setWidth (s : State) (link n : Nat) : State :=
  ({ s with widths := s.widths.set link n, shaking := link :: s.shaking } : State).after 1000 (.linkWidthHandshakeDone link)

/-- LINK_WIDTH_WINDOW (R478): A 64 µs load window ends and the link may narrow by half, or return to full. -/
def execLinkWidthWindow (link loadPct : Nat) (s : State) : Res :=
  let n := s.widths.getD link 0
  .next (if link ∈ s.shaking then s
    else if 75 < loadPct ∧ n ≠ 0 then s.setWidth link 0
    else if loadPct < 25 ∧ n < 2 ∧ s.detmode = false then s.setWidth link (n + 1)
    else s)

/-- LINK_WIDEN (R478): High load or 1 µs of unsent flits returns the link to full width. -/
def execLinkWiden (link : Nat) (s : State) : Res :=
  .next (if link ∈ s.shaking ∨ s.widths.getD link 0 = 0 then s else s.setWidth link 0)

/-- LINK_WIDTH_HANDSHAKE_DONE (R478): The 1,000-clk width handshake completes and traffic resumes. -/
def execLinkWidthHandshakeDone (link : Nat) (s : State) : Res :=
  .next { s with shaking := s.shaking.filter fun l => decide (l ≠ link) }

/-! What a start keeps. -/

/-- Does a physical address lie outside the HBM of this package: in the host window of a port die, or in a joined package (R327)? -/
def State.outside (s : State) (pa : Nat) : Bool := decide (12 ≤ dieField pa) || decide (pkgOf pa ≠ s.pkgNum)

/-- A die at reset that keeps its fences, until step 6 (R506), and its repair, bypass and harvesting (R507). -/
def Die.kept (d : Nat) (old : Die) : Die :=
  { Die.reset d with fenced := old.fenced, bypass := old.bypass, banks := old.banks, levHarv := old.levHarv, sliceMap := old.sliceMap }

/-- The dies and cores of the package at reset, with what a start keeps of them. -/
def State.parts0 (s : State) : Tbl Die × Tbl Core :=
  (s.dies.filterMap fun e => if e.1 < 12 then some (e.1, Die.kept e.1 e.2) else none,
   s.cores.filterMap fun e => if e.2.harv then some (e.1, { Core.reset with harv := true }) else none)

/-- The events of the package by itself from a start on (R492, R501, R518): without those of port die 12's controller while it does
not run, and with the end of a STATE-SUMMARY under way (R496). -/
def Boot.agenda0 (b : Boot) : List (Nat × Instr) :=
  (regularEvents.filter fun e => decide (b.active = 12) || !decide (e.2 = .controllerHeartbeat ∨ e.2 = .controllerFailover)) ++
    (if b.summary.isSome then [(0, .stateSummary true)] else [])

/-- Everything that a reset of the package sets (R40): clk counts from it (R441), TIME reads 0 (R491), lines are shared
(R435); flash (R493), memory and what has been sent to the host stand. -/
def State.restarted (s : State) (m : Memory) (b : Boot) : State :=
  { State.reset with mem := m, errLines := s.errLines, pkgNum := s.pkgNum, joined := [s.pkgNum], free := s.free + 1, nextId := s.nextId,
                     hostOut := s.hostOut, boot := b, agenda := b.agenda0, dies := s.parts0.1, cores := s.parts0.2 }

/-- The boot at the beginning of a start. -/
def Boot.nextStart (b : Boot) : Boot := { b with start := b.start + 1, lastStep := 0, halted := false, edges := [] }

/-- A start begins with step 1 (R489): the unit reports count from it (R504). -/
def State.nextStart (s : State) : State :=
  ({ s with boot := s.boot.nextStart, mem := s.mem.filter (fun e => !isReport e.1),
            dies := s.dies.map fun e => (e.1, { e.2 with stack := 0 }) } : State).after 0 (.packageBoot (Config.bootFound s.free))

/-- A reset that begins a start: the boot follows (R489). -/
def State.resetPackage (s : State) (b : Boot) : State := (s.restarted s.mem b).nextStart

/-- POWER_REMOVED (R514): Power is removed from the package, so all volatile state is lost and any running boot step is left
without a journal record. -/
def execPowerRemoved (s : State) : Res :=
  let s1 := s.restarted (s.mem.filter fun e => s.outside e.1) { s.boot with summary := none, waiting := [] }
  .next { s1 with powered := false, errLines := [], agenda := [] }

/-! The boot journal. -/

/-- The bytes of a journal record (R493). -/
def JournalRec.bytes (r : JournalRec) : List Byte :=
  bytesOf r.start 4 ++ bytesOf r.step 1 ++ bytesOf r.out 1 ++ bytesOf r.unit 2 ++ bytesOf r.time.toNat 8 ++
    bytesOf r.code.toNat 4 ++ List.replicate 12 0

/-- TIME as the controllers read it: that of the die without skew. -/
def State.timeNow (s : State) : Word := BitVec.ofNat 64 s.timeBaseNow

/-- Append a record; the journal keeps the last 16 starts (R493). -/
def Boot.record (b : Boot) (r : JournalRec) : Boot :=
  { b with journal := (b.journal ++ [r]).filter fun q => decide (b.start < q.start + 16) }

/-- Has a step an alternate (R489)? -/
def stepAlternate (n : Nat) : Bool := decide (n = 1) || decide (n = 3) || decide (n = 7)

/-- May a step be skipped (R489)? -/
def stepSkip (n : Nat) : Bool := decide (n = 4) || decide (n = 9) || decide (n = 10)

/-- The records of an earlier start for a step. -/
def Boot.recs (b : Boot) (start step : Nat) : List JournalRec :=
  b.journal.filter fun r => decide (r.start = start) && decide (r.step = step)

/-- Was a start cut short in a step (R493): the step before it ended and it has no record? -/
def Boot.cutAt (b : Boot) (start n : Nat) : Bool :=
  (b.recs start n).isEmpty &&
    (if n = 1 then (upFrom 1 12).all fun m => (b.recs start m).all fun r => decide (r.out = 6)
     else (b.recs start (n - 1)).any fun r => decide (r.out = 0) || decide (r.out = 2) || decide (r.out = 4))

/-- The unit that the records of earlier starts name last for a step: what its alternate or its skip leaves out (R490). -/
def Boot.lastUnit (b : Boot) (n : Nat) : Nat :=
  match (b.journal.filter fun r => decide (r.step = n) && decide (r.start < b.start) && decide (r.unit ≠ 0xFFFF)).getLast? with
  | some r => r.unit
  | none => 0xFFFF

/-- The outcome of a step that decides how this start runs it (R490): the most recent record of an earlier start, or a
failure where a later start was cut short in it. -/
def Boot.lastOut (b : Boot) (n : Nat) : Option JournalRec :=
  let rs := b.journal.filter fun r => decide (r.step = n) && decide (r.start < b.start)
  let since := match rs.getLast? with
    | some r => r.start + 1
    | none => b.start - 16
  if (upFrom since (b.start - since)).any fun p => b.cutAt p n then
    some { start := b.start, step := n, out := 1, unit := b.lastUnit n, time := 0, code := 0 }
  else rs.getLast?

/-- How a step runs (R490). -/
inductive BootPath where
  | normal (haltIfFails : Bool)
  | alternate
  | skip
  | halt
deriving DecidableEq, Repr

/-- How a step runs, by the outcome of its last record (R490). -/
def bootPath (n : Nat) (last : Option Nat) : BootPath :=
  match last with
  | none => .normal false
  | some o =>
    if o = 0 ∨ o = 6 then .normal false
    else if o = 2 then .alternate
    else if o = 4 then .skip
    else if o = 1 then
      if stepAlternate n then .alternate else if stepSkip n then .skip else .normal true
    else if o = 3 then (if stepSkip n then .skip else .halt)
    else .normal true

/-- How a step of the start runs (R490). -/
def Boot.path (b : Boot) (n : Nat) : BootPath := bootPath n ((b.lastOut n).map JournalRec.out)

/-- An update goes into the slot that does not run, and the next start uses it (R488): it is tried first, or it is the alternate of
step 1 where that stands (R490). -/
def Boot.updated (b : Boot) (u : BootImage) : Boot :=
  let alt := decide (b.nextStart.path 1 = .alternate)
  if b.slotB then { b with imageA := u, firstB := alt } else { b with imageB := u, firstB := !alt }

/-- PACKAGE_RESET (R40): Package reset sets every element to its reset value and starts the boot; `update` is the image that has
been written as an update since the last start (R488). -/
def execPackageReset (update : Option BootImage) (s : State) : Res :=
  .next (s.resetPackage (match update with
    | some u => s.boot.updated u
    | none => s.boot))

/-! The steps of a start (R489). -/

/-- The image of a slot. -/
def Boot.image (b : Boot) (slotB : Bool) : BootImage := if slotB then b.imageB else b.imageA

/-- Bytes of an image before BODY (R488). -/
def BootImage.header (i : BootImage) : List Byte :=
  bytesOf i.magic.toNat 4 ++ bytesOf i.svn 4 ++ bytesOf i.len 8 ++ bytesOf i.edpk.toNat 32 ++ bytesOf i.mlpk.toNat 1952 ++
    List.replicate 48 0

/-- Is an image accepted (R488)?  A key's hash matches the fuses exactly when it is the key that they were made for (log entry 40). -/
def Boot.accepts (b : Boot) (i : BootImage) : Bool :=
  decide (i.magic = 0x4D494648) && decide (i.edpk = b.fuseEd) && decide (i.mlpk = b.fuseMl) && i.edOk && i.mlOk &&
    decide (b.minSvn ≤ i.svn)

/-- The slot that step 1 verifies: the one tried first, or the other as its alternate. -/
def Boot.slotOf (b : Boot) (path : BootPath) : Bool := if path = .alternate then !b.firstB else b.firstB

/-- The unit that fails in a step, if one does: an image that is not accepted names none. -/
def State.stepFails (s : State) (n : Nat) (path : BootPath) (f : BootFound) : Option Nat :=
  let b := s.boot
  if (n = 1 ∧ b.accepts (b.image (b.slotOf path)) = false) ∨
      (n = 7 ∧ path = .alternate ∧ b.accepts (b.image (!b.slotB)) = false) then some 0xFFFF
  else f.fail.map fun u => if n = 4 then u % 12 else u % 65536

/-- Step 1 has verified an image (R488): it runs, and a controller of port die 12 that is back takes over again, with its heartbeat
(R492). -/
def State.takeImage (s : State) (path : BootPath) (back : Bool) : State :=
  let b := s.boot
  let slot := b.slotOf path
  let s1 : State := { s with boot := { b with slotB := slot, svn := (b.image slot).svn } }
  if back ∧ b.active = 13 ∧ path ≠ .alternate then
    (({ s1 with boot := { s1.boot with active := 12, beat := s.clk } } : State).after 20000000 .controllerHeartbeat).after
      200000000 .controllerFailover
  else s1

/-- The address of a unit's report entry (R504). -/
def State.reportAddr (s : State) (die cls idx : Nat) : Nat := s.logBase die + 0x100000 + 0x10000 * cls + 8 * idx

/-- A report entry after a test (R504): saturating counts, and FEN as it is given. -/
def reportAfter (v : Word) (pass fence : Bool) : Word :=
  let p := bits v 31 0
  let f := bits v 47 32
  BitVec.ofNat 64 (if pass then min (p + 1) (2 ^ 32 - 1) + 2 ^ 32 * f + 2 ^ 48 * b2n (bit v 48)
    else p + 2 ^ 32 * min (f + 1) (2 ^ 16 - 1) + 2 ^ 48 * b2n (bit v 48 || fence))

/-- A test result reaches the report entry of its unit (R504). -/
def State.report (s : State) (die cls idx : Nat) (pass fence : Bool) : State :=
  let a := s.reportAddr die cls idx
  { s with mem := s.mem.writeL a (bytesOf (reportAfter (wordOf (s.mem.readN a 8)) pass fence).toNat 8) }

/-- The tests of a class of units at a start reach their reports (R504, R505): of each of the first `n` units of every die, those
of `bad` (die x n + unit) have failed. -/
def State.reportTests (s : State) (cls n : Nat) (bad : List Nat) : State :=
  (upFrom 0 (12 * n)).foldl (fun t u => t.report (u / n) cls (u % n) (!decide (u ∈ bad)) false) s

/-- Step 5 (R507): the L2 banks that fail join those of earlier starts, and the tests of all are reported (class 6 of R505). -/
def State.testBanks (s : State) (bs : List Nat) : State :=
  bs.foldl (fun t b => t.modDie (b / 2048 % 12) fun d => { d with banks := (d.banks ++ [b % 2048]).eraseDups })
    (s.reportTests 6 2048 bs)

/-- Does a second failing bank harvest the core (R507)? -/
def Die.bankHarvest (d : Die) (core : Nat) : Bool := decide (2 ≤ (d.banks.filter fun b => decide (b / 32 = core)).length)

/-- Cores with a fenced unit of classes 0 to 4 (R506). -/
def Die.harvestCore (d : Die) (core : Nat) : Bool :=
  d.fenced.any fun u =>
    (decide (u.1 = 0) && decide (u.2 / 8 = core)) || (decide (u.1 = 1) && decide (u.2 = core)) ||
      (decide (u.1 = 2) && decide (u.2 / 4 = core)) || ((decide (u.1 = 3) || decide (u.1 = 4)) && decide (u.2 = core))

/-- Step 6 for the units of a die (R506, R507): fences end, fenced Levanter engines are harvested, and the slice map leaves out the
routers in bypass (R328). -/
def Die.harvested (d : Die) : Die :=
  let live := (List.range 64).filter fun r => !d.bypass.getLsbD r
  { d with fenced := [],
           levHarv := (upFrom 0 8).foldl (fun b i => if decide ((5, i) ∈ d.fenced) then b ||| BitVec.twoPow 8 i else b) d.levHarv,
           sliceMap := if live.isEmpty then [] else (List.range 64).map fun i => live.getD (i % live.length) 0 }

/-- A router that fails its test goes into passive bypass; the tests of all are reported (class 7 of R505). -/
def State.testRouters (s : State) (rs : List Nat) : State :=
  rs.foldl (fun t r => t.modDie (r / 64 % 12) fun d => { d with bypass := d.bypass ||| BitVec.twoPow 64 (r % 64) })
    (s.reportTests 7 64 rs)

/-- Step 6 (R506, R507): routers, then harvesting and the slice map. -/
def State.harvest (s : State) (rs : List Nat) : State :=
  let s1 := s.testRouters rs
  s1.dies.foldl (fun t e =>
    if e.1 < 12 then
      let t1 := (upFrom 0 64).foldl (fun q i =>
        if e.2.harvestCore i || e.2.bankHarvest i || e.2.bypass.getLsbD i then q.modCore (e.1 * 64 + i) fun k => { k with harv := true }
        else q) t
      t1.setDie e.1 e.2.harvested
    else t) s1

/-- Step 7 (R90): every die takes its expansion table from an image. -/
def State.loadTables (s : State) (i : BootImage) : State :=
  (upFrom 0 12).foldl (fun t n =>
    let om := if Config.isBreeze n then i.breeze else i.gale
    if om = (t.die n).omitted ∧ i.svn = (t.die n).tableSvn ∧ (t.die n).decoded = [] then t
    else t.modDie n fun d => { d with omitted := om, tableSvn := i.svn, decoded := [] }) s

/-- Is a list of numbers lower than another, compared from the first? -/
def lexLt : List Nat → List Nat → Bool
  | _, [] => false
  | [], _ :: _ => true
  | a :: t, b :: u => decide (a < b) || (decide (a = b) && lexLt t u)

/-- Does a route come before another in its list (R476)?  A route is a list of links, package x 32 + port. -/
def routeBefore (a b : List Nat) : Bool :=
  decide (a.length < b.length) || (decide (a.length = b.length) &&
    (lexLt ((a.drop 1).map (· / 32)) ((b.drop 1).map (· / 32)) ||
      (decide ((a.drop 1).map (· / 32) = (b.drop 1).map (· / 32)) && lexLt (a.map (· % 32)) (b.map (· % 32)))))

/-- Put a route into an ordered list of routes. -/
def putRoute (r : List Nat) : List (List Nat) → List (List Nat)
  | [] => [r]
  | q :: t => if routeBefore r q then r :: q :: t else q :: putRoute r t

/-- Step 9 (R476): the links that train, the package number, the joined packages and the ordered routes. -/
def State.joinPackages (s : State) (f : BootFound) : State :=
  let num := f.number % 64
  { s with pkgNum := num, joined := (num :: f.joined).eraseDups, routes := f.routes.map fun e => (e.1, e.2.foldr putRoute []),
           ports := Vector.ofFn fun i : Fin 18 => { state := if decide (i.val ∈ f.ports) then 2 else 0 } }

/-- The effect of a step that ends in success, in its alternate or in a skip (R489).  Steps 2 and 11 leave no state; what step 8
resets a reset of the package has set before, and step 12 is what State.alive asks for.  `unit` is the unit of the step's last
record. -/
def State.bootEffect (s : State) (n unit : Nat) (f : BootFound) (path : BootPath) : State :=
  let b := s.boot
  if n = 1 then s.takeImage path f.back
  else if n = 3 then (if path = .alternate then { s with boot := { b with edges := if unit = 0xFFFF then [] else [unit] } } else s)
  else if n = 4 then (if path = .skip ∧ unit < 12 then s.modDie unit fun d => { d with stack := 1 } else s)
  else if n = 5 then s.testBanks f.banks
  else if n = 6 then s.harvest f.routers
  else if n = 7 then s.loadTables (b.image (if path = .alternate then !b.slotB else b.slotB))
  else if n = 9 then
    (if path = .skip then { s with joined := [s.pkgNum], routes := [], ports := State.reset.ports } else s.joinPackages f)
  else if n = 10 then (if path = .skip then s else { s with timeBase := f.ptp, timeFrac := 0, clkBase := s.clk, ppm := 0 })
  else s

/-- Write the record of a step (R493). -/
def State.stepRecord (s : State) (n out unit : Nat) (code : BitVec 32) : State :=
  { s with boot := { s.boot.record { start := s.boot.start, step := n, out := out, unit := unit, time := s.timeNow, code := code }
                     with lastStep := n } }

/-- A failed step ends the start (R489): the next one begins at once, unless the start halts (R490). -/
def State.bootFailed (s : State) (n out unit : Nat) (halt : Bool) : State :=
  let s1 := s.stepRecord n (if halt then 5 else out) unit (Config.bootCode s.free)
  let s2 := if n = 4 ∧ unit < 12 then s1.modDie unit fun d => { d with stack := 2 } else s1
  if halt then { s2 with boot := { s2.boot with halted := true } } else s2.nextStart

/-- The fused minimum SVN rises to that of the running image once every step has succeeded with it (R488). -/
def Boot.fuse (b : Boot) : Boot :=
  if (upFrom 1 12).all fun n => (b.recs b.start n).any fun r => decide (r.out = 0) then { b with minSvn := b.svn } else b

/-- A step has ended well, and the next one follows (R489). -/
def State.stepEnded (s : State) (n out unit : Nat) : State :=
  let s1 := s.stepRecord n out unit 0
  if n = 12 then { s1 with boot := s1.boot.fuse } else s1.soon (.packageBoot (Config.bootFound s.free))

/-- A step of a start (R489, R490). -/
def State.bootStep (s : State) (n : Nat) (f : BootFound) : State :=
  let path := s.boot.path n
  let unit := match s.boot.lastOut n with
    | some r => if r.unit = 0xFFFF then s.boot.lastUnit n else r.unit
    | none => 0xFFFF
  match path with
  | .normal h =>
    match s.stepFails n path f with
    | some u => s.bootFailed n 1 u h
    | none => (s.bootEffect n 0xFFFF f path).stepEnded n 0 0xFFFF
  | .alternate =>
    match s.stepFails n path f with
    | some u => s.bootFailed n 3 u false
    | none => (s.bootEffect n unit f path).stepEnded n 2 unit
  | .skip => (s.bootEffect n unit f path).stepEnded n 4 unit
  | .halt => s.bootFailed n 3 unit true

/-- Is a start under way? -/
def State.booting (s : State) : Bool := s.powered && !s.boot.halted && decide (s.boot.lastStep < 12)

/-- PACKAGE_BOOT (R489): The controller runs boot steps 1–12, with alternates and skips from the journal: each event is the next
step of the start, with what it finds. -/
def execPackageBoot (f : BootFound) (s : State) : Res :=
  .next (if s.booting then s.bootStep (s.boot.lastStep + 1) f else s)

/-! Thermal trips. -/

/-- Does an event belong to the controllers and the port dies, which a trip leaves their supplies? -/
def isControllerEvent : Instr → Bool
  | .thermalSensorRead _ => true
  | .controllerHeartbeat => true
  | .controllerFailover => true
  | .stateSummary _ => true
  | .linkRetrainTimeout _ => true
  | .linkWidthHandshakeDone _ => true
  | .journalClear _ => true
  | .doeUnknownCommand _ => true
  | _ => false

/-- The outcome of a step that a trip has made fail (R490): as of a failure on its path. -/
def BootPath.tripped : BootPath → Nat
  | .normal true => 5
  | .normal false => 1
  | .alternate => 3
  | .skip => 1
  | .halt => 5

/-- The boot after a trip (R518): halted; a step that was running has failed. -/
def State.tripBoot (s : State) : Boot :=
  let n := s.boot.lastStep + 1
  let s1 := if s.booting then s.stepRecord n (s.boot.path n).tripped 0xFFFF (Config.bootCode s.free) else s
  { s1.boot with halted := true }

/-- The dies after a trip: what a start keeps of them, and what has become of their stacks in this one (R495). -/
def State.trippedDies (s : State) : Tbl Die :=
  s.parts0.1.map fun e => (e.1, { e.2 with stack := (s.die e.1).stack })

/-- The supplies of every compute die are removed (R518): registers, caches, scratchpads and HBM are lost; the port dies, TIME, the
links, joined packages, and what a start keeps of the dies stand. -/
def State.tripped (s : State) : State :=
  { s with ctxs := [], cores := s.parts0.2, dies := s.trippedDies, mem := s.mem.filter fun e => s.outside e.1,
           tags := s.tags.filter fun e => s.outside (e.1 * 64), errLines := s.errLines.filter fun l => s.outside (l * 64), sramErrs := [],
           pubs := [], pend := [], held := [], misses := [], tlb := [], leaseD := State.reset.leaseD, leaseP := State.reset.leaseP, detmode := false,
           featmask := State.reset.featmask, parts := State.reset.parts, gangs := [], agenda := s.agenda.filter fun e => isControllerEvent e.2,
           boot := s.tripBoot }

/-- THERMAL_SENSOR_READ (R518): The controller reads every junction sensor each 1 ms; at 110 °C it removes the supplies of
every compute die and the package stays halted. -/
def execThermalSensorRead (celsius : List Int) (s : State) : Res :=
  .next ((if celsius.any fun t => decide (110 ≤ t) then s.tripped else s).after 2000000 (.thermalSensorRead (Config.celsius s.free)))

/-! Controllers and management commands. -/

/-- CONTROLLER_HEARTBEAT (R492): The active controller writes a heartbeat record every 10 ms, as long as it runs (log entry 40); the
other one watches for 100 ms from it. -/
def execControllerHeartbeat (s : State) : Res :=
  .next (if s.boot.active = 12 then
      let s1 := ({ s with boot := { s.boot with beat := s.clk } } : State).after 200000000 .controllerFailover
      if Config.choice s.free 12 then s1 else s1.after 20000000 .controllerHeartbeat
    else s)

/-- CONTROLLER_FAILOVER (R492): After 100 ms without heartbeat, port die 13's controller takes over and restarts the
package. -/
def execControllerFailover (s : State) : Res :=
  .next (if s.boot.active = 12 ∧ s.boot.beat + 200000000 ≤ s.clk then
      let r : JournalRec := { start := s.boot.start, step := 0xF0, out := 0, unit := 0xFFFF, time := s.timeNow, code := 0 }
      s.resetPackage { s.boot.record r with active := 13, beat := 0 }
    else s)

/-- EXPANSION_TABLE_REPLACE (R494): Firmware replaces a die's expansion table on one clk, if signed and complete. -/
def execExpansionTableReplace (die svn : Nat) (omitted : List Nat) (signed : Bool) (s : State) : Res :=
  let d := s.die die
  .next (if signed ∧ d.tableSvn ≤ svn ∧ (d.decoded.all fun c => !decide (c ∈ omitted)) = true then
      s.setDie die { d with omitted := omitted, tableSvn := svn, decoded := [] }
    else s)

/-- The fields of the die entry of STATE-SUMMARY (R495). -/
def State.dieSummary (s : State) (n : Nat) : List (List Byte) :=
  let d := s.die n
  let mask (w : Nat) (p : Nat → Bool) : Nat := (upFrom 0 w).foldl (fun b i => if p i then b + 2 ^ i else b) 0
  [bytesOf (b2n (Config.isBreeze n)) 1, bytesOf d.stack.toNat 1, bytesOf d.fenced.length 2, bytesOf d.tableSvn 4,
   bytesOf (mask 64 fun i => (s.core (n * 64 + i)).harv) 8, bytesOf d.bypass.toNat 8, bytesOf (mask 64 d.harvestCore) 8,
   bytesOf (mask 8 fun i => decide ((5, i) ∈ d.fenced)) 1,
   bytesOf (mask 4 fun i => decide ((9, i) ∈ d.fenced) || decide (4 * n + i ∈ s.boot.edges)) 1,
   bytesOf (d.banks.map (· / 32)).eraseDups.length 2, List.replicate 28 0]

/-- The partitions that own a core (R495). -/
def State.ownedParts (s : State) : Nat :=
  (upFrom 0 16).foldl (fun b p => if (upFrom 0 768).any fun c => decide ((s.core c).part.toNat = p) then b + 2 ^ p else b) 0

/-- The fields of STATE-SUMMARY after its two TIME values, as they are now (R495). -/
def State.summaryFields (s : State) : List (List Byte) :=
  let b := s.boot
  let recs := (b.journal.filter fun r => decide (r.start = b.start)).take 16
  [bytesOf b.start 4, bytesOf b.lastStep 1, bytesOf (b2n b.halted) 1, bytesOf b.active 1, [0], bytesOf b.svn 4, List.replicate 4 0] ++
    (upFrom 0 12).flatMap s.dieSummary ++
    [bytesOf s.leaseD 4, bytesOf s.leaseP 4, bytesOf (b2n s.detmode) 4, bytesOf s.ownedParts 2, List.replicate 18 0] ++
    ((upFrom 0 18).flatMap fun k => [bytesOf (s.portState k).toNat 1, bytesOf (s.widths.getD k 0) 1]) ++ [List.replicate 12 0] ++
    recs.map JournalRec.bytes ++ List.replicate (16 - recs.length) (List.replicate 32 0)

/-- Each field as it was when the collection began or as it is when it ends, as the timing of the collection has it (R496; log
entry 2). -/
def State.eitherField (s : State) : Nat → List (List Byte) → List (List Byte) → List (List Byte)
  | i, a :: t, b :: u => (if Config.choice s.free i then a else b) :: State.eitherField s (i + 1) t u
  | _, _, _ => []

/-- A response over DOE, at the port die whose controller is active (R495). -/
def State.answer (s : State) (bs : List Byte) : State := { s with hostOut := s.hostOut ++ [.doe (s.boot.active - 12) bs] }

/-- A management command waits for the one before it, behind those that wait (R495). -/
def State.inTurn (s : State) (i : Instr) (go : State) : State :=
  if s.boot.summary.isSome then { s with boot := { s.boot with waiting := s.boot.waiting ++ [i] } } else go

/-- A JOURNAL-CLEAR is carried out (R497). -/
def State.clearStep (s : State) (step : Nat) : State :=
  let r : JournalRec := { start := s.boot.start, step := step, out := 6, unit := 0xFFFF, time := s.timeNow, code := 0 }
  if 1 ≤ step ∧ step ≤ 12 then ({ s with boot := s.boot.record r } : State).answer (0 :: r.bytes) else s.answer [1]

/-- The collection of a STATE-SUMMARY begins (R496). -/
def State.beginSummary (s : State) : State :=
  ({ s with boot := { s.boot with summary := some (bytesOf s.timeNow.toNat 8 :: s.summaryFields) } } : State).soon (.stateSummary true)

/-- The commands that have waited for a STATE-SUMMARY are carried out in order, up to the next STATE-SUMMARY (R495). -/
def State.nextCommands : List Instr → State → State
  | [], s => { s with boot := { s.boot with waiting := [] } }
  | .journalClear n :: t, s => State.nextCommands t (s.clearStep n)
  | .doeUnknownCommand _ :: t, s => State.nextCommands t (s.answer [0xFF])
  | .stateSummary _ :: t, s => { s with boot := { s.boot with waiting := t } }.beginSummary
  | _ :: t, s => State.nextCommands t s

/-- STATE_SUMMARY (R495, R496): Answers the DOE command 0x01 with the 1,392-byte state summary: its collection begins, and ends
(`ends`) with the answer. -/
def execStateSummary (ends : Bool) (s : State) : Res :=
  .next (if ends then
      let s1 : State := { s with boot := { s.boot with summary := none } }
      let s2 := match s.boot.summary with
        | some (t :: fs) => s1.answer (t ++ bytesOf s.timeNow.toNat 8 ++ (s.eitherField 0 fs s.summaryFields).flatten)
        | _ => s1
      State.nextCommands s.boot.waiting s2
    else s.inTurn (.stateSummary false) s.beginSummary)

/-- JOURNAL_CLEAR (R497): DOE command 0x02 appends a cleared record for a step. -/
def execJournalClear (bootStep : Nat) (s : State) : Res :=
  .next (s.inTurn (.journalClear bootStep) (s.clearStep bootStep))

/-- DOE_UNKNOWN_COMMAND (R495): A management command with another code is answered with status 0xFF. -/
def execDoeUnknownCommand (code : Byte) (s : State) : Res :=
  .next (if code = 1 ∨ code = 2 then s else s.inTurn (.doeUnknownCommand code) (s.answer [0xFF]))

end Sys2Proof.Machine
end

