-- ==== Sys2Proof/Machine/Mem.lean ====
section
/-! DEFINITION. Jumps and branches (R113-R116), scalar loads and stores (R118-R124). -/

namespace Sys2Proof.Machine

/-- A control transfer to `t` (R114, R116): the alignment check, the canonical check, then the link and the new PC. -/
def State.jump (s : State) (c : CtxId) (t : Word) (link : Option (BitVec 5)) : State :=
  let k := s.ctx c
  if t.extractLsb' 0 2 ≠ 0 then s.trap c (mkTrap 5 t)
  else if !canonical k.mode t then s.trap c (mkTrap 8 t)
  else s.modCtx c fun q =>
    let q1 := match link with
      | some d => q.wx d (k.pc + 4)
      | none => q
    { q1.retired with pc := t }

/-- A conditional branch (R115). -/
def State.branch (s : State) (c : CtxId) (taken : Bool) (o : BitVec 16) : State :=
  if taken then s.jump c ((s.ctx c).pc + o.signExtend 64 * 4) none else s.retire c

/-- The effective address of a scalar access (R119). -/
def Ctx.ea (k : Ctx) (a : BitVec 5) (i : BitVec 16) : Word := k.rx a + i.signExtend 64

/-- JAL (R113): Jumps by a word displacement and links to x1. -/
def execJal (o : BitVec 26) (s : State) : Res :=
  .next (s.issue (encJal o) fun c k s => s.jump c (k.pc + o.signExtend 64 * 4) (some 1))

/-- JALR (R114): Jumps to x[a] + imm and links to x[d]. -/
def execJalr (d a : BitVec 5) (i : BitVec 16) (s : State) : Res :=
  .next (s.issue (encJalr d a i) fun c k s => s.jump c (k.ea a i) (some d))

/-- BEQ (R115): Branches if x[a] = x[b]. -/
def execBeq (a b : BitVec 5) (o : BitVec 16) (s : State) : Res :=
  .next (s.issue (encBeq a b o) fun c k s => s.branch c (decide (k.rx a = k.rx b)) o)

/-- BNE (R115): Branches if x[a] ≠ x[b]. -/
def execBne (a b : BitVec 5) (o : BitVec 16) (s : State) : Res :=
  .next (s.issue (encBne a b o) fun c k s => s.branch c (decide (k.rx a ≠ k.rx b)) o)

/-- BLT (R115): Branches if x[a] < x[b], signed. -/
def execBlt (a b : BitVec 5) (o : BitVec 16) (s : State) : Res :=
  .next (s.issue (encBlt a b o) fun c k s => s.branch c ((k.rx a).slt (k.rx b)) o)

/-- BGE (R115): Branches if x[a] ≥ x[b], signed. -/
def execBge (a b : BitVec 5) (o : BitVec 16) (s : State) : Res :=
  .next (s.issue (encBge a b o) fun c k s => s.branch c (!(k.rx a).slt (k.rx b)) o)

/-- BLTU (R115): Branches if x[a] < x[b], unsigned. -/
def execBltu (a b : BitVec 5) (o : BitVec 16) (s : State) : Res :=
  .next (s.issue (encBltu a b o) fun c k s => s.branch c ((k.rx a).ult (k.rx b)) o)

/-- BGEU (R115): Branches if x[a] ≥ x[b], unsigned. -/
def execBgeu (a b : BitVec 5) (o : BitVec 16) (s : State) : Res :=
  .next (s.issue (encBgeu a b o) fun c k s => s.branch c (!(k.rx a).ult (k.rx b)) o)

/-- LB (R118): Loads a sign-extended byte. -/
def execLb (d a : BitVec 5) (i : BitVec 16) (s : State) : Res :=
  .next (s.issue (encLb d a i) fun c k s => s.scalarLoad c (encLb d a i) (k.ea a i) 1)

/-- LBU (R118): Loads a zero-extended byte. -/
def execLbu (d a : BitVec 5) (i : BitVec 16) (s : State) : Res :=
  .next (s.issue (encLbu d a i) fun c k s => s.scalarLoad c (encLbu d a i) (k.ea a i) 1)

/-- LH (R118): Loads a sign-extended halfword. -/
def execLh (d a : BitVec 5) (i : BitVec 16) (s : State) : Res :=
  .next (s.issue (encLh d a i) fun c k s => s.scalarLoad c (encLh d a i) (k.ea a i) 2)

/-- LHU (R118): Loads a zero-extended halfword. -/
def execLhu (d a : BitVec 5) (i : BitVec 16) (s : State) : Res :=
  .next (s.issue (encLhu d a i) fun c k s => s.scalarLoad c (encLhu d a i) (k.ea a i) 2)

/-- LW (R118): Loads a sign-extended word. -/
def execLw (d a : BitVec 5) (i : BitVec 16) (s : State) : Res :=
  .next (s.issue (encLw d a i) fun c k s => s.scalarLoad c (encLw d a i) (k.ea a i) 4)

/-- LWU (R118): Loads a zero-extended word. -/
def execLwu (d a : BitVec 5) (i : BitVec 16) (s : State) : Res :=
  .next (s.issue (encLwu d a i) fun c k s => s.scalarLoad c (encLwu d a i) (k.ea a i) 4)

/-- LD (R118): Loads a doubleword. -/
def execLd (d a : BitVec 5) (i : BitVec 16) (s : State) : Res :=
  .next (s.issue (encLd d a i) fun c k s => s.scalarLoad c (encLd d a i) (k.ea a i) 8)

/-- FLW (R118): Loads 4 bytes into an f register, zeroing bits 63:32. -/
def execFlw (d a : BitVec 5) (i : BitVec 16) (s : State) : Res :=
  .next (s.issue (encFlw d a i) fun c k s => s.scalarLoad c (encFlw d a i) (k.ea a i) 4)

/-- FLD (R118): Loads 8 bytes into an f register. -/
def execFld (d a : BitVec 5) (i : BitVec 16) (s : State) : Res :=
  .next (s.issue (encFld d a i) fun c k s => s.scalarLoad c (encFld d a i) (k.ea a i) 8)

/-- SB (R118): Stores a byte. -/
def execSb (sh a : BitVec 5) (i : BitVec 16) (s : State) : Res :=
  .next (s.issue (encSb sh a i) fun c k s => s.scalarStore c (k.ea a i) (bytesOf (k.rx sh).toNat 1))

/-- SH (R118): Stores a halfword. -/
def execSh (sh a : BitVec 5) (i : BitVec 16) (s : State) : Res :=
  .next (s.issue (encSh sh a i) fun c k s => s.scalarStore c (k.ea a i) (bytesOf (k.rx sh).toNat 2))

/-- SW (R118): Stores a word. -/
def execSw (sh a : BitVec 5) (i : BitVec 16) (s : State) : Res :=
  .next (s.issue (encSw sh a i) fun c k s => s.scalarStore c (k.ea a i) (bytesOf (k.rx sh).toNat 4))

/-- SD (R118): Stores a doubleword. -/
def execSd (sh a : BitVec 5) (i : BitVec 16) (s : State) : Res :=
  .next (s.issue (encSd sh a i) fun c k s => s.scalarStore c (k.ea a i) (bytesOf (k.rx sh).toNat 8))

/-- FSW (R118): Stores the low 4 bytes of an f register. -/
def execFsw (sh a : BitVec 5) (i : BitVec 16) (s : State) : Res :=
  .next (s.issue (encFsw sh a i) fun c k s => s.scalarStore c (k.ea a i) (bytesOf (k.rf sh).toNat 4))

/-- FSD (R118): Stores an f register. -/
def execFsd (sh a : BitVec 5) (i : BitVec 16) (s : State) : Res :=
  .next (s.issue (encFsd sh a i) fun c k s => s.scalarStore c (k.ea a i) (bytesOf (k.rf sh).toNat 8))

/-- The bytes of an atomic's width bit (R73). -/
def amoBytes (w : BitVec 1) : Nat := if w = 1 then 8 else 4

/-- AMOSWAP (R126): Atomic swap. -/
def execAmoswap (d a b : BitVec 5) (sh o : BitVec 3) (w : BitVec 1) (s : State) : Res :=
  .next (s.issue (encAmoswap d a b sh o w) fun c k s =>
    s.atomic c 0 (amoBytes w) d (k.rx a) (k.rx b) o.toNat sh.toNat 0)

/-- AMOADD (R126): Atomic add. -/
def execAmoadd (d a b : BitVec 5) (sh o : BitVec 3) (w : BitVec 1) (s : State) : Res :=
  .next (s.issue (encAmoadd d a b sh o w) fun c k s =>
    s.atomic c 1 (amoBytes w) d (k.rx a) (k.rx b) o.toNat sh.toNat 0)

/-- AMOAND (R126): Atomic AND. -/
def execAmoand (d a b : BitVec 5) (sh o : BitVec 3) (w : BitVec 1) (s : State) : Res :=
  .next (s.issue (encAmoand d a b sh o w) fun c k s =>
    s.atomic c 2 (amoBytes w) d (k.rx a) (k.rx b) o.toNat sh.toNat 0)

/-- AMOOR (R126): Atomic OR. -/
def execAmoor (d a b : BitVec 5) (sh o : BitVec 3) (w : BitVec 1) (s : State) : Res :=
  .next (s.issue (encAmoor d a b sh o w) fun c k s =>
    s.atomic c 3 (amoBytes w) d (k.rx a) (k.rx b) o.toNat sh.toNat 0)

/-- AMOXOR (R126): Atomic XOR. -/
def execAmoxor (d a b : BitVec 5) (sh o : BitVec 3) (w : BitVec 1) (s : State) : Res :=
  .next (s.issue (encAmoxor d a b sh o w) fun c k s =>
    s.atomic c 4 (amoBytes w) d (k.rx a) (k.rx b) o.toNat sh.toNat 0)

/-- AMOMIN (R126): Atomic signed minimum. -/
def execAmomin (d a b : BitVec 5) (sh o : BitVec 3) (w : BitVec 1) (s : State) : Res :=
  .next (s.issue (encAmomin d a b sh o w) fun c k s =>
    s.atomic c 5 (amoBytes w) d (k.rx a) (k.rx b) o.toNat sh.toNat 0)

/-- AMOMAX (R126): Atomic signed maximum. -/
def execAmomax (d a b : BitVec 5) (sh o : BitVec 3) (w : BitVec 1) (s : State) : Res :=
  .next (s.issue (encAmomax d a b sh o w) fun c k s =>
    s.atomic c 6 (amoBytes w) d (k.rx a) (k.rx b) o.toNat sh.toNat 0)

/-- AMOCAS (R126): Atomic compare and swap against the old x[d]. -/
def execAmocas (d a b : BitVec 5) (sh o : BitVec 3) (w : BitVec 1) (s : State) : Res :=
  .next (s.issue (encAmocas d a b sh o w) fun c k s =>
    s.atomic c 7 (amoBytes w) d (k.rx a) (k.rx b) o.toNat sh.toNat 0)

/-- LDL (R129): Loads and sets the context's reservation. -/
def execLdl (d a : BitVec 5) (sh o : BitVec 3) (w : BitVec 1) (s : State) : Res :=
  .next (s.issue (encLdl d a sh o w) fun c k s => s.loadLinked c (amoBytes w) d (k.rx a) o.toNat sh.toNat)

/-- STC (R130): Stores if the reservation holds; writes 0 or 1 to x[d]. -/
def execStc (d a b : BitVec 5) (sh o : BitVec 3) (w : BitVec 1) (s : State) : Res :=
  .next (s.issue (encStc d a b sh o w) fun c k s =>
    s.storeConditional c (amoBytes w) d (k.rx a) (k.rx b) o.toNat sh.toNat)

end Sys2Proof.Machine
end

