-- ==== Sys2Proof/Machine/Reliability.lean ====
section
/-! DEFINITION. Patrol scrubbing (R501), Foehn tests and fences (R503-R506), redundant execution and record and replay
(R508-R513). -/

namespace Sys2Proof.Machine

/-! Scrubbing and tests. -/

/-- Lines of a die's HBM (R325). -/
def dieLines : Nat := 2 ^ 30

/-- PATROL_SCRUB (R501): Patrol scrubbing reads an HBM line, correcting or logging errors: `err` is 0 for none, 1 for a
single bit, anything else for an uncorrectable error, which stays for the next reader (R500).  The next line follows 160,000 clk
later, so that every line is read within 24 hours; which errors it finds is open (log entry 7). -/
def execPatrolScrub (die : Nat) (err : BitVec 2) (s : State) : Res :=
  let d := s.die die
  let line := (s.pkgNum * 2 ^ 46 + die * 2 ^ 42) / 64 + d.scrub % dieLines
  let s1 := (s.setDie die { d with scrub := (d.scrub + 1) % dieLines }).after 160000
    (.patrolScrub die ((Config.openValue s.free).extractLsb' 0 2))
  .next (if line ∈ s.errLines then s1.logLineError die 0xFFFFFFFF line
    else if err = 0 then s1
    else if err = 1 then s1.logError die 1 8 0 0xFFFFFFFF (line * 64) (Config.syndrome s.free).toNat
    else ({ s1 with errLines := s1.errLines ++ [line] } : State).logLineError die 0xFFFFFFFF line)

/-- A core whose contexts include a gang member (R503). -/
def State.gangCore (s : State) (core : CoreId) : Bool := (upFrom (core * 8) 8).any fun c => decide ((s.ctx c).gang ≠ 0)

/-- The cores that a pipe serves (R505). -/
def unitCores (die cls idx : Nat) : List CoreId :=
  if cls = 0 then [die * 64 + idx / 8]
  else if cls = 2 then [die * 64 + idx / 4]
  else if cls = 5 then upFrom (die * 64 + idx * 8) 8
  else [die * 64 + idx]

/-- The pipes of a class on a die (R505). -/
def unitCount (cls : Nat) : Nat :=
  if cls = 0 then 512 else if cls = 2 then 256 else if cls = 5 then 8 else if cls < 5 then 64 else 0

/-- Is a pipe at work for an instruction that has entered a queue, or for a job (R503)? -/
def State.unitBusy (s : State) (die cls idx : Nat) : Bool :=
  if cls = 2 then (unitCores die cls idx).any fun core => (upFrom (core * 8) 8).any fun c =>
    !(s.ctx c).vq.isEmpty && decide ((2, idx) ∈ vectorUnits c (s.ctx c))
  else if cls = 3 then (unitCores die cls idx).any fun core => !(s.core core).mq.isEmpty
  else if cls = 5 then ((s.die die).queue idx).any Job.runs
  else false

/-- May a pipe be tested (R503): it takes work, no context has used it for 4,096 clk, and DETMODE does not bar it? -/
def State.testable (s : State) (die cls idx : Nat) : Bool :=
  decide (idx < unitCount cls) && !decide ((cls, idx) ∈ (s.die die).fenced) &&
    decide ((s.die die).lastUse.getD (unitKey (cls, idx)) 0 + 4096 ≤ s.clk) && !s.unitBusy die cls idx &&
    !(s.detmode && (unitCores die cls idx).any s.gangCore)

/-- The pipe whose test follows: the pipes of a die in ascending class and index, over and over. -/
def nextPipe (cls idx : Nat) : Nat × Nat :=
  if idx + 1 < unitCount cls then (cls, idx + 1) else if cls < 5 then (cls + 1, 0) else (0, 0)

/-- The Foehn engine of a die goes on to the next pipe; whether that pipe will pass is open (log entry 7). -/
def State.nextTest (s : State) (die cls idx : Nat) : State :=
  let p := nextPipe cls idx
  s.after 64 (.foehnTest die p.1 p.2 (Config.choice s.free die))

/-- FOEHN_TEST (R503): After 4,096 idle clk, the Foehn engine runs the next structural test in a pipe; a failed test fences
the unit and is logged (R506).  The engine then goes on to the next pipe of its die. -/
def execFoehnTest (die cls idx : Nat) (pass : Bool) (s : State) : Res :=
  .next ((if !s.testable die cls idx then s
    else
      let s1 := s.report die cls idx pass true
      if pass then s1
      else (s1.logError die 5 cls idx 0xFFFFFFFF 0 0).modDie die fun d => { d with fenced := d.fenced ++ [(cls, idx)] }).nextTest
        die cls idx)

/-! Redundant execution. -/

/-- A service that the ECALL of a context in H has requested runs while it is at M (R508): `go` with the operands x11 and x12. -/
def State.service (s : State) (c : CtxId) (code : Nat) (go : Nat → Nat → State) : State :=
  let k := s.ctx c
  if k.mode = .m ∧ k.mb.code = 16 ∧ k.mb.isAsync = false ∧ (k.rx 10).toNat = code then go (k.rx 11).toNat (k.rx 12).toNat else s

/-- A service ends: x10 holds the result (R508). -/
def State.serviceResult (s : State) (c : CtxId) (r : Nat) : State := s.modCtx c fun k => k.wx 10 (BitVec.ofNat 64 r)

/-- A stopped gang of the partition of the caller (R508). -/
def State.serviceGang (s : State) (c : CtxId) (g : Nat) : Option Gang :=
  match s.gang? g with
  | some e =>
    if e.st = .stopped ∧ (e.members.all fun m => decide (s.part m = partOf (s.ctx c).mb.pdid)) = true then some e else none
  | none => none

/-- May two gangs form pairs (R508)? -/
def State.pairable (s : State) (p q : Gang) : Bool :=
  decide (p.members.length = q.members.length) &&
    (p.members.zip q.members).all fun z =>
      decide ((s.ctx z.1).lanes = (s.ctx z.2).lanes) && decide (dieOf z.1 ≠ dieOf z.2) && (s.ctx z.1).red.isNone &&
        (s.ctx z.2).red.isNone

/-- A pair member at pairing (R509, R510). -/
def pairMember (primary : Bool) (partner : CtxId) : Redundant :=
  { primary := primary, partner := partner, stores := [], ckpt := 0, fwd := [], close := none, since := 0, matched := false,
    failed := false, stored := 0, far := none }

/-- The ranks of two gangs form pairs, where the service allows it (R508). -/
def State.pairGangs (s : State) (c : CtxId) (primary shadow : Nat) : State :=
  match s.serviceGang c primary, s.serviceGang c shadow with
  | some p, some q =>
    if s.pairable p q ∧ primary ≠ shadow then
      ((p.members.zip q.members).foldl (fun t z =>
        (t.modCtx z.1 fun k => { k with red := some (pairMember true z.2) }).modCtx z.2 fun k =>
          { k with red := some (pairMember false z.1) }) s).serviceResult c 0
    else s.serviceResult c 2
  | _, _ => s.serviceResult c 1

/-- REDUNDANT_ON (R508): Firmware service 0x100 pairs a primary and a shadow gang. -/
def execRedundantOn (c : Nat) (s : State) : Res := .next (s.service c 0x100 fun p q => s.pairGangs c p q)

/-- The buffered stores of a primary are performed in program order (R510). -/
def State.commitStores (s : State) (c : CtxId) (ss : List (Nat × List Byte × Bool × BitVec 7)) : State :=
  ss.foldl (fun t e => t.writeHome c e.1 e.2.1 e.2.2.1 e.2.2.2) s

/-- Stores that wait for leases are held at their homes, where later misses wait for them (R337). -/
def State.holdStores (s : State) (c : CtxId) (ss : List (Nat × List Byte × Bool × BitVec 7)) : State :=
  let ls := (ss.flatMap fun e => linesOf e.1 e.2.1.length).eraseDups.filter fun l =>
    decide (s.clk < s.expiry l) && !decide ((l, c) ∈ s.held)
  { s with held := s.held ++ ls.map fun l => (l, c) }

/-- The pair of a primary ends: what its commit buffer holds is performed (log entry 42). -/
def State.unpair (s : State) (m : CtxId) : State :=
  match (s.ctx m).red with
  | some r => ((s.commitStores m r.stores).modCtx m fun k => { k with red := none }).modCtx r.partner fun k => { k with red := none }
  | none => s

/-- The primary's part of a pair, if the context is one. -/
def State.primaryRole (s : State) (m : CtxId) : Option Redundant := (s.ctx m).red.filter Redundant.primary

/-- The pairs of a primary gang end, once no lease holds what their buffers hold (R337). -/
def State.unpairGang (s : State) (c : CtxId) (g : Nat) : State :=
  match s.serviceGang c g with
  | none => s.serviceResult c 1
  | some p =>
    let rs := p.members.map s.primaryRole
    if rs.any Option.isNone then s.serviceResult c 1
    else if (rs.filterMap id).any fun r => !s.storesFree r.stores then s.after 8 (.redundantOff c)
    else (p.members.foldl State.unpair s).serviceResult c 0

/-- REDUNDANT_OFF (R508): Firmware service 0x101 ends redundant mode. -/
def execRedundantOff (c : Nat) (s : State) : Res := .next (s.service c 0x101 fun g _ => s.unpairGang c g)

/-- Do the log table of a gang and the logs that it names lie in the memory of their members (R403, R508)? -/
def State.logAreasOk (s : State) (e : Gang) (addr : Nat) : Bool :=
  (e.members.zip (upFrom 0 e.members.length)).all fun z =>
    let d := addr + 32 * z.2
    let (base, size, _) := s.logDesc d
    s.areaOk (s.part z.1) (s.slotSecure z.1) d 32 && decide (size % 16 = 0) &&
      (decide (size = 0) || s.areaOk (s.part z.1) (s.slotSecure z.1) base size)

/-- Record or replay begins for every member of a gang (R508, R512). -/
def State.startLog (s : State) (c : CtxId) (gang addr : Nat) (replay : Bool) : State :=
  match s.serviceGang c gang with
  | none => s.serviceResult c 1
  | some e =>
    if e.members.any fun m => (s.ctx m).red.isSome then s.serviceResult c 2
    else if !s.logAreasOk e addr then s.serviceResult c 3
    else ((e.members.zip (upFrom 0 e.members.length)).foldl (fun t z =>
      t.modCtx z.1 fun k => { k with log := some { replay := replay, desc := addr + 32 * z.2, full := false } }) s).serviceResult c 0

/-- Record or replay ends for every member of a gang (R508). -/
def State.endLog (s : State) (c : CtxId) (gang : Nat) : State :=
  match s.serviceGang c gang with
  | some e => (e.members.foldl (fun t m => t.modCtx m fun k => { k with log := none }) s).serviceResult c 0
  | none => s.serviceResult c 1

/-- RECORD_ON (R508): Firmware service 0x110 starts recording a gang. -/
def execRecordOn (c : Nat) (s : State) : Res := .next (s.service c 0x110 fun g a => s.startLog c g a false)

/-- REPLAY_ON (R508): Firmware service 0x111 starts replaying a gang. -/
def execReplayOn (c : Nat) (s : State) : Res := .next (s.service c 0x111 fun g a => s.startLog c g a true)

/-- RECORD_REPLAY_OFF (R508): Firmware service 0x112 ends record or replay. -/
def execRecordReplayOff (c : Nat) (s : State) : Res := .next (s.service c 0x112 fun g _ => s.endLog c g)

/-! Closes (R510, R511). -/

/-- A member after a matched close: its buffer is empty and its closing operation may go on. -/
def Redundant.afterMatch (r : Redundant) : Redundant :=
  { r with stores := [], ckpt := r.ckpt + 1, close := none, matched := true }

/-- A member after a mismatch: nothing of its interval is left, and it waits at the closing operation for the gang_stop of its gang
(R322, R511). -/
def Ctx.afterMismatch (k : Ctx) : Ctx :=
  { k with bounded := false, red := k.red.map fun r => { r with stores := [], stored := 0, close := none, failed := true } }

/-- A mismatch or a missed close (R511): nothing of the interval is performed, both gangs stop, a KIND 4 record names the
primary and the checkpoint number, once until the members have taken gang_stop. -/
def State.mismatch (s : State) (p q : CtxId) (ckpt : Nat) : State :=
  if (s.ctx p).closeFailed || (s.ctx q).closeFailed then s
  else
  let s1 := s.logError (dieOf p) 4 0xFF 0 ((s.ctxid p).toNat % 2 ^ 27) 0 ckpt
  let s2 := (s1.modCtx p Ctx.afterMismatch).modCtx q Ctx.afterMismatch
  (s2.stopGang (s2.ctx p).gang).stopGang (s2.ctx q).gang

/-- A pair of which both members have reached a close (R510): the primary, the shadow and what each holds. -/
def State.closePair (s : State) (c : CtxId) (r : Redundant) : Option (CtxId × CtxId × Redundant × Redundant) :=
  match (s.ctx r.partner).red with
  | some o =>
    if r.close.isSome ∧ o.close.isSome then some (if r.primary then (c, r.partner, r, o) else (r.partner, c, o, r)) else none
  | none => none

/-- INTERVAL_CLOSE (R510): A redundant pair compares hashes at a close and commits the primary's stores. -/
def execIntervalClose (c : Nat) (s : State) : Res :=
  .next (match (s.ctx c).red with
    | none => s
    | some r => match s.closePair c r with
      | none => s
      | some (p, q, rp, rq) =>
        if rp.stores = rq.stores ∧ rp.close = rq.close then
          if s.storesFree rp.stores then
            ((s.commitStores p rp.stores).modCtx p fun k => { k with red := some rp.afterMatch }).modCtx q fun k =>
              { k with red := some rq.afterMatch }
          else (s.holdStores p rp.stores).after 8 (.intervalClose c)
        else s.mismatch p q (rp.ckpt + 1))

/-- REDUNDANT_TIMEOUT (R511): The partner fails to reach the close within 2 ms and both gangs stop. -/
def execRedundantTimeout (c : Nat) (s : State) : Res :=
  .next (match (s.ctx c).red with
    | none => s
    | some r =>
      if r.close.isNone then s
      else if (s.closePair c r).isSome then s
      else if s.timeBaseNow < r.since + 2000000 then s.after 8 (.redundantTimeout c)
      else if r.primary then s.mismatch c r.partner (r.ckpt + 1)
      else s.mismatch r.partner c (r.ckpt + 1))

end Sys2Proof.Machine
end

