-- ==== Sys2Proof/Machine/VecFloat.lean ====
section
/-! DEFINITION. Vector floating-point arithmetic and conversions (R173-R178, R60-R62). -/

namespace Sys2Proof.Machine

/-- FORM.NF must be a format of FORM.EW (R173). -/
def nfMisfit (q : VCfg) : Bool :=
  !((decide (q.nf = 0) && decide (q.ew = 3)) || (decide (q.nf = 1) && decide (q.ew = 2)) ||
    ((decide (q.nf = 2) || decide (q.nf = 3)) && decide (q.ew = 1)) ||
    ((decide (q.nf = 4) || decide (q.nf = 5)) && decide (q.ew = 0)))

/-- The special functions do not exist for FP64 (R61). -/
def specialMisfit (q : VCfg) : Bool := nfMisfit q || decide (q.nf = 0)

/-- A value of FORM.NF. -/
def VCfg.fv (q : VCfg) (x : Nat) : FVal := (fmtOf q.nf).value x

/-- A result rounded to FORM.NF (R173), with the flags of the operation and of the rounding. -/
def VCfg.out (q : VCfg) (r : FVal × BitVec 5) : Nat × BitVec 5 :=
  let z := (fmtOf q.nf).store q.sat q.rm r.1
  (z.1, r.2 ||| z.2)

/-- The result of a reduction over one element (R52, R54, R173): a NaN becomes the canonical one, and a signalling one raises NV;
any other element is the result as it is. -/
def VCfg.leaf (q : VCfg) (x : Nat) : Nat × BitVec 5 :=
  if (q.fv x).isNan then q.out (q.fv x, nvIf (q.fv x).isSig) else noFl x

/-- An FP element operation (R174). -/
def State.vecFp (s : State) (c : CtxId) (word : BitVec 32) (d a : BitVec 5) (b : BSrc) (mk : BitVec 3) (old : Bool)
    (op : VCfg → FVal → FVal → FVal → FVal × BitVec 5) : State :=
  s.vecMap c word d.toNat a.toNat b mk.toNat old nfMisfit fun q x y z => q.out (op q (q.fv x) (q.fv y) (q.fv z))

/-- A special function (R61, R62). -/
def State.vecSpecial (s : State) (c : CtxId) (word : BitVec 32) (d a : BitVec 5) (mk : BitVec 3)
    (op : FVal → FVal × BitVec 5) : State :=
  s.vecMap c word d.toNat a.toNat (.k 0) mk.toNat false specialMisfit fun q x _ _ => q.out (op (q.fv x))

/-- An FP comparison (R174). -/
def State.vecFcmp (s : State) (c : CtxId) (word : BitVec 32) (d a : BitVec 5) (b : BSrc) (mk : BitVec 3) (quiet : Bool)
    (rel : FVal → FVal → Bool) : State :=
  s.vecCompare c word d.toNat a.toNat b mk.toNat nfMisfit fun q x y =>
    let r := fCompare quiet rel (q.fv x) (q.fv y)
    (r.1.toNat, r.2)

/-- The node of FREDMAX (R60): the larger operand, +0 above -0; a NaN gives the canonical NaN. -/
def redMax (q : VCfg) (x y : Nat) : Nat × BitVec 5 :=
  let a := q.fv x
  let b := q.fv y
  if a.isNan || b.isNan then ((fmtOf q.nf).nanBits, nvIf (a.isSig || b.isSig))
  else if fLess a b then (y, 0) else (x, 0)

/-- The pad of FREDMAX (R60): minus infinity, or -448 in E4M3. -/
def redMaxPad (q : VCfg) : Nat := if q.nf = 4 then 0xFE else (fmtOf q.nf).infBits true

/-- Bits of a coded format (R46, R175). -/
def codedWidth (code : Nat) : Nat :=
  if code ≤ 8 then (fmtOf code).width else if code ≤ 10 then 8 else if code = 11 then 16 else 32

/-- The group factor of the coded side (R175): the packed codes 6-8 use the least count of registers that holds their
string. -/
def codedFactor (code g wf : Nat) : Nat :=
  if 6 ≤ code ∧ code ≤ 8 then (g * codedWidth code + wf - 1) / wf else max 1 (g * codedWidth code / wf)

/-- The checks of a conversion between FORM's format and the coded one (R175-R177): `fr` is the operand in FORM's format,
`cr` the coded one, which takes `codedFactor` registers. -/
def convertOp (word : BitVec 32) (q : VCfg) (d a code : Nat) (toCoded : Bool) : VOp :=
  let gc := codedFactor code q.g q.w
  let (fr, cr) := if toCoded then (a, d) else (d, a)
  let align := if gc ≤ 1 then 1 else if gc = 2 then 2 else 4
  let wc := codedWidth code
  let wider := if toCoded then decide (q.w < wc) else decide (wc < q.w)
  let (sg, dg) := if toCoded then (q.g, gc) else (gc, q.g)
  { word := word, srcs := [(a, sg)], dst := some (d, dg), form := [(fr, q.g)], old := false, formBad := nfMisfit q,
    overlap := decide (4 < gc) || decide (cr % align ≠ 0) || (if fr = cr then wider else groupsMeet fr q.g cr gc) }

/-- The effect of a conversion between FORM's format and the coded one (R175-R177). -/
def convertEff (d a code mk : Nat) (toCoded : Bool) (op : VCfg → Nat → Nat → Nat × BitVec 5) (q : VCfg) (k : Ctx) :
    Ctx × BitVec 5 :=
  let gc := codedFactor code q.g q.w
  let wc := codedWidth code
  k.sweepGroup q d (if toCoded then gc else q.g) (if toCoded then wc else q.w) q.vlmax q.rows fun r =>
    let ra := k.groupRow q.rb a (if toCoded then q.g else gc) r
    k.fate q mk (fun _ j => op q code (elem ra (if toCoded then q.w else wc) j)) r

/-- A conversion between FORM's format and the coded one (R175-R177). -/
def State.vecConvert (s : State) (c : CtxId) (word : BitVec 32) (d a code : BitVec 5) (mk : BitVec 3) (toCoded : Bool)
    (op : VCfg → Nat → Nat → Nat × BitVec 5) : State :=
  let q := (s.ctx c).vcfg (physLanes (coreOf c))
  s.vecIssue c (convertOp word q d.toNat a.toNat code.toNat toCoded)
    (convertEff d.toNat a.toNat code.toNat mk.toNat toCoded op)

/-- VFCVT and VFPACK of one element (R177). -/
def cvtTo (q : VCfg) (code x : Nat) : Nat × BitVec 5 :=
  let v := q.fv x
  let z := (fmtOf code).store q.sat q.rm v
  (z.1, z.2 ||| nvIf v.isSig)

/-- VFUNPACK of one element (R177). -/
def cvtFrom (q : VCfg) (code x : Nat) : Nat × BitVec 5 := q.out ((fmtOf code).value x, 0)

/-- VFCVTI of one element (R177): INT8, UINT8, INT16, INT32. -/
def cvtToInt (q : VCfg) (code x : Nat) : Nat × BitVec 5 :=
  let w := codedWidth code
  let r := if code = 10 then toInteger q.rm 0 255 (q.fv x)
    else toInteger q.rm (-(2 ^ (w - 1) : Nat)) ((2 ^ (w - 1) : Nat) - 1) (q.fv x)
  (wrap w r.1, r.2)

/-- VICVTF of one element (R177). -/
def cvtFromInt (q : VCfg) (code x : Nat) : Nat × BitVec 5 :=
  q.out (FVal.ofInt (if code = 10 then (x : Int) else sw (codedWidth code) x), 0)

/-- VFADD_V (R174): Vector FP addition, vector operand. -/
def execVfaddV (d a b : BitVec 5) (m : BitVec 3) (l : BitVec 1) (s : State) : Res :=
  .next (s.issue (encVfaddV d a b m l) fun c k s =>
    s.vecFp c (encVfaddV d a b m l) d a (k.bReg b l) m false fun q x y _ => fAdd q.rm x y)

/-- VFADD_F (R174): Vector FP addition, scalar FP operand. -/
def execVfaddF (d a b : BitVec 5) (m : BitVec 3) (s : State) : Res :=
  .next (s.issue (encVfaddF d a b m) fun c k s =>
    s.vecFp c (encVfaddF d a b m) d a (k.bF b) m false fun q x y _ => fAdd q.rm x y)

/-- VFSUB_V (R174): Vector FP subtraction, vector operand. -/
def execVfsubV (d a b : BitVec 5) (m : BitVec 3) (l : BitVec 1) (s : State) : Res :=
  .next (s.issue (encVfsubV d a b m l) fun c k s =>
    s.vecFp c (encVfsubV d a b m l) d a (k.bReg b l) m false fun q x y _ => fSub q.rm x y)

/-- VFSUB_F (R174): Vector FP subtraction, scalar FP operand. -/
def execVfsubF (d a b : BitVec 5) (m : BitVec 3) (s : State) : Res :=
  .next (s.issue (encVfsubF d a b m) fun c k s =>
    s.vecFp c (encVfsubF d a b m) d a (k.bF b) m false fun q x y _ => fSub q.rm x y)

/-- VFMUL_V (R174): Vector FP multiplication, vector operand. -/
def execVfmulV (d a b : BitVec 5) (m : BitVec 3) (l : BitVec 1) (s : State) : Res :=
  .next (s.issue (encVfmulV d a b m l) fun c k s =>
    s.vecFp c (encVfmulV d a b m l) d a (k.bReg b l) m false fun _ x y _ => fMul x y)

/-- VFMUL_F (R174): Vector FP multiplication, scalar FP operand. -/
def execVfmulF (d a b : BitVec 5) (m : BitVec 3) (s : State) : Res :=
  .next (s.issue (encVfmulF d a b m) fun c k s =>
    s.vecFp c (encVfmulF d a b m) d a (k.bF b) m false fun _ x y _ => fMul x y)

/-- VFDIV_V (R174): Vector FP division, vector operand. -/
def execVfdivV (d a b : BitVec 5) (m : BitVec 3) (l : BitVec 1) (s : State) : Res :=
  .next (s.issue (encVfdivV d a b m l) fun c k s =>
    s.vecFp c (encVfdivV d a b m l) d a (k.bReg b l) m false fun _ x y _ => fDiv x y)

/-- VFDIV_F (R174): Vector FP division, scalar FP operand. -/
def execVfdivF (d a b : BitVec 5) (m : BitVec 3) (s : State) : Res :=
  .next (s.issue (encVfdivF d a b m) fun c k s =>
    s.vecFp c (encVfdivF d a b m) d a (k.bF b) m false fun _ x y _ => fDiv x y)

/-- VFSQRT (R174): Vector FP square root. -/
def execVfsqrt (d a : BitVec 5) (m : BitVec 3) (s : State) : Res :=
  .next (s.issue (encVfsqrt d a m) fun c _ s => s.vecFp c (encVfsqrt d a m) d a (.k 0) m false fun _ x _ _ => fSqrt x)

/-- VFMA_V (R174): Vector fused a × b + old vd, vector operand. -/
def execVfmaV (d a b : BitVec 5) (m : BitVec 3) (l : BitVec 1) (s : State) : Res :=
  .next (s.issue (encVfmaV d a b m l) fun c k s =>
    s.vecFp c (encVfmaV d a b m l) d a (k.bReg b l) m true fun q x y z => fFma q.rm false false x y z)

/-- VFMA_F (R174): Vector fused a × b + old vd, scalar FP operand. -/
def execVfmaF (d a b : BitVec 5) (m : BitVec 3) (s : State) : Res :=
  .next (s.issue (encVfmaF d a b m) fun c k s =>
    s.vecFp c (encVfmaF d a b m) d a (k.bF b) m true fun q x y z => fFma q.rm false false x y z)

/-- VFNMA_V (R174): Vector fused -(a × b) + old vd, vector operand. -/
def execVfnmaV (d a b : BitVec 5) (m : BitVec 3) (l : BitVec 1) (s : State) : Res :=
  .next (s.issue (encVfnmaV d a b m l) fun c k s =>
    s.vecFp c (encVfnmaV d a b m l) d a (k.bReg b l) m true fun q x y z => fFma q.rm true false x y z)

/-- VFNMA_F (R174): Vector fused -(a × b) + old vd, scalar FP operand. -/
def execVfnmaF (d a b : BitVec 5) (m : BitVec 3) (s : State) : Res :=
  .next (s.issue (encVfnmaF d a b m) fun c k s =>
    s.vecFp c (encVfnmaF d a b m) d a (k.bF b) m true fun q x y z => fFma q.rm true false x y z)

/-- VFMIN_V (R174): Vector FP minimum, vector operand. -/
def execVfminV (d a b : BitVec 5) (m : BitVec 3) (l : BitVec 1) (s : State) : Res :=
  .next (s.issue (encVfminV d a b m l) fun c k s =>
    s.vecMap c (encVfminV d a b m l) d.toNat a.toNat (k.bReg b l) m.toNat false nfMisfit fun q x y _ => (fmtOf q.nf).minMax false x y)

/-- VFMIN_F (R174): Vector FP minimum, scalar FP operand. -/
def execVfminF (d a b : BitVec 5) (m : BitVec 3) (s : State) : Res :=
  .next (s.issue (encVfminF d a b m) fun c k s =>
    s.vecMap c (encVfminF d a b m) d.toNat a.toNat (k.bF b) m.toNat false nfMisfit fun q x y _ => (fmtOf q.nf).minMax false x y)

/-- VFMAX_V (R174): Vector FP maximum, vector operand. -/
def execVfmaxV (d a b : BitVec 5) (m : BitVec 3) (l : BitVec 1) (s : State) : Res :=
  .next (s.issue (encVfmaxV d a b m l) fun c k s =>
    s.vecMap c (encVfmaxV d a b m l) d.toNat a.toNat (k.bReg b l) m.toNat false nfMisfit fun q x y _ => (fmtOf q.nf).minMax true x y)

/-- VFMAX_F (R174): Vector FP maximum, scalar FP operand. -/
def execVfmaxF (d a b : BitVec 5) (m : BitVec 3) (s : State) : Res :=
  .next (s.issue (encVfmaxF d a b m) fun c k s =>
    s.vecMap c (encVfmaxF d a b m) d.toNat a.toNat (k.bF b) m.toNat false nfMisfit fun q x y _ => (fmtOf q.nf).minMax true x y)

/-- VFEQ_V (R174): Mask of FP a = b, vector operand. -/
def execVfeqV (d a b : BitVec 5) (m : BitVec 3) (l : BitVec 1) (s : State) : Res :=
  .next (s.issue (encVfeqV d a b m l) fun c k s => s.vecFcmp c (encVfeqV d a b m l) d a (k.bReg b l) m true fEqNum)

/-- VFEQ_F (R174): Mask of FP a = b, scalar FP operand. -/
def execVfeqF (d a b : BitVec 5) (m : BitVec 3) (s : State) : Res :=
  .next (s.issue (encVfeqF d a b m) fun c k s => s.vecFcmp c (encVfeqF d a b m) d a (k.bF b) m true fEqNum)

/-- VFLT_V (R174): Mask of FP a < b, vector operand. -/
def execVfltV (d a b : BitVec 5) (m : BitVec 3) (l : BitVec 1) (s : State) : Res :=
  .next (s.issue (encVfltV d a b m l) fun c k s => s.vecFcmp c (encVfltV d a b m l) d a (k.bReg b l) m false fLtNum)

/-- VFLT_F (R174): Mask of FP a < b, scalar FP operand. -/
def execVfltF (d a b : BitVec 5) (m : BitVec 3) (s : State) : Res :=
  .next (s.issue (encVfltF d a b m) fun c k s => s.vecFcmp c (encVfltF d a b m) d a (k.bF b) m false fLtNum)

/-- VFLE_V (R174): Mask of FP a ≤ b, vector operand. -/
def execVfleV (d a b : BitVec 5) (m : BitVec 3) (l : BitVec 1) (s : State) : Res :=
  .next (s.issue (encVfleV d a b m l) fun c k s =>
    s.vecFcmp c (encVfleV d a b m l) d a (k.bReg b l) m false (fun x y => !fLtNum y x))

/-- VFLE_F (R174): Mask of FP a ≤ b, scalar FP operand. -/
def execVfleF (d a b : BitVec 5) (m : BitVec 3) (s : State) : Res :=
  .next (s.issue (encVfleF d a b m) fun c k s =>
    s.vecFcmp c (encVfleF d a b m) d a (k.bF b) m false (fun x y => !fLtNum y x))

/-- VFGT_V (R174): Mask of FP a > b, vector operand. -/
def execVfgtV (d a b : BitVec 5) (m : BitVec 3) (l : BitVec 1) (s : State) : Res :=
  .next (s.issue (encVfgtV d a b m l) fun c k s =>
    s.vecFcmp c (encVfgtV d a b m l) d a (k.bReg b l) m false (fun x y => fLtNum y x))

/-- VFGT_F (R174): Mask of FP a > b, scalar FP operand. -/
def execVfgtF (d a b : BitVec 5) (m : BitVec 3) (s : State) : Res :=
  .next (s.issue (encVfgtF d a b m) fun c k s =>
    s.vecFcmp c (encVfgtF d a b m) d a (k.bF b) m false (fun x y => fLtNum y x))

/-- VFGE_V (R174): Mask of FP a ≥ b, vector operand. -/
def execVfgeV (d a b : BitVec 5) (m : BitVec 3) (l : BitVec 1) (s : State) : Res :=
  .next (s.issue (encVfgeV d a b m l) fun c k s =>
    s.vecFcmp c (encVfgeV d a b m l) d a (k.bReg b l) m false (fun x y => !fLtNum x y))

/-- VFGE_F (R174): Mask of FP a ≥ b, scalar FP operand. -/
def execVfgeF (d a b : BitVec 5) (m : BitVec 3) (s : State) : Res :=
  .next (s.issue (encVfgeF d a b m) fun c k s =>
    s.vecFcmp c (encVfgeF d a b m) d a (k.bF b) m false (fun x y => !fLtNum x y))

/-- VFCVT (R177): Converts elements to FP format codes 0–5. -/
def execVfcvt (d a c : BitVec 5) (m : BitVec 3) (s : State) : Res :=
  .next (s.issue (encVfcvt d a c m) fun n _ s => s.vecConvert n (encVfcvt d a c m) d a c m true cvtTo)

/-- VFPACK (R177): Converts and packs elements to E3M2, E2M3 or E2M1, with saturation. -/
def execVfpack (d a c : BitVec 5) (m : BitVec 3) (s : State) : Res :=
  .next (s.issue (encVfpack d a c m) fun n _ s => s.vecConvert n (encVfpack d a c m) d a c m true cvtTo)

/-- VFUNPACK (R177): Unpacks 6- or 4-bit elements to FORM.NF. -/
def execVfunpack (d a c : BitVec 5) (m : BitVec 3) (s : State) : Res :=
  .next (s.issue (encVfunpack d a c m) fun n _ s => s.vecConvert n (encVfunpack d a c m) d a c m false cvtFrom)

/-- VFCVTI (R177): Converts FP elements to clipped integers. -/
def execVfcvti (d a c : BitVec 5) (m : BitVec 3) (s : State) : Res :=
  .next (s.issue (encVfcvti d a c m) fun n _ s => s.vecConvert n (encVfcvti d a c m) d a c m true cvtToInt)

/-- VICVTF (R177): Converts integer elements to FORM.NF. -/
def execVicvtf (d a c : BitVec 5) (m : BitVec 3) (s : State) : Res :=
  .next (s.issue (encVicvtf d a c m) fun n _ s => s.vecConvert n (encVicvtf d a c m) d a c m false cvtFromInt)

/-- VFREDSUM (R174): FP row sum by the fixed pairwise tree. -/
def execVfredsum (d a : BitVec 5) (m : BitVec 3) (s : State) : Res :=
  .next (s.issue (encVfredsum d a m) fun c _ s =>
    s.vecReduce c (encVfredsum d a m) d.toNat a.toNat m.toNat nfMisfit (fun _ => 0) VCfg.leaf fun q x y =>
      q.out (fAdd q.rm (q.fv x) (q.fv y)))

/-- VFREDMAX (R174): FP row maximum by the fixed tree. -/
def execVfredmax (d a : BitVec 5) (m : BitVec 3) (s : State) : Res :=
  .next (s.issue (encVfredmax d a m) fun c _ s =>
    s.vecReduce c (encVfredmax d a m) d.toNat a.toNat m.toNat nfMisfit redMaxPad VCfg.leaf redMax)

/-- VFEXP2 (R61): Correctly rounded 2^x per element. -/
def execVfexp2 (d a : BitVec 5) (m : BitVec 3) (s : State) : Res :=
  .next (s.issue (encVfexp2 d a m) fun c _ s => s.vecSpecial c (encVfexp2 d a m) d a m fExp2)

/-- VFLOG2 (R61): Correctly rounded log2 per element. -/
def execVflog2 (d a : BitVec 5) (m : BitVec 3) (s : State) : Res :=
  .next (s.issue (encVflog2 d a m) fun c _ s => s.vecSpecial c (encVflog2 d a m) d a m fLog2)

/-- VFRCP (R61): Correctly rounded reciprocal per element. -/
def execVfrcp (d a : BitVec 5) (m : BitVec 3) (s : State) : Res :=
  .next (s.issue (encVfrcp d a m) fun c _ s => s.vecSpecial c (encVfrcp d a m) d a m fRcp)

/-- VFRSQ (R61): Correctly rounded reciprocal square root per element. -/
def execVfrsq (d a : BitVec 5) (m : BitVec 3) (s : State) : Res :=
  .next (s.issue (encVfrsq d a m) fun c _ s => s.vecSpecial c (encVfrsq d a m) d a m fRsq)

end Sys2Proof.Machine
end

