-- ==== Sys2Proof/Machine/Dispatch.lean ====
section
/-! DEFINITION. The dispatch: one arm per constructor of Instr, each a direct call of the instruction's meaning. -/

namespace Sys2Proof.Machine

/-- The meaning of an instruction, or the effect of an event, by its constructor (the meanings' files). -/
def exec (i : Instr) (s : State) : Host.Outcome State Fault Refusal :=
  match i with
  | .asyncTrapTaken => Sys2Proof.Machine.execAsyncTrapTaken s
  | .slotctlStart v => Sys2Proof.Machine.execSlotctlStart v s
  | .shapeWrite v => Sys2Proof.Machine.execShapeWrite v s
  | .fstatWrite v => Sys2Proof.Machine.execFstatWrite v s
  | .mstatClear v => Sys2Proof.Machine.execMstatClear v s
  | .mownSave slot => Sys2Proof.Machine.execMownSave slot s
  | .mownLoad slot => Sys2Proof.Machine.execMownLoad slot s
  | .mownZero slot => Sys2Proof.Machine.execMownZero slot s
  | .dpbankWrite v => Sys2Proof.Machine.execDpbankWrite v s
  | .leaseLengthWrite pkgWide v => Sys2Proof.Machine.execLeaseLengthWrite pkgWide v s
  | .detmodeWrite v => Sys2Proof.Machine.execDetmodeWrite v s
  | .rankEntryWrite v => Sys2Proof.Machine.execRankEntryWrite v s
  | .inboxRegisterWrite v => Sys2Proof.Machine.execInboxRegisterWrite v s
  | .worldTableWrite v => Sys2Proof.Machine.execWorldTableWrite v s
  | .fctlWrite port fn v => Sys2Proof.Machine.execFctlWrite port fn v s
  | .dbtgtWrite port fn v => Sys2Proof.Machine.execDbtgtWrite port fn v s
  | .lqheadWrite port fn v => Sys2Proof.Machine.execLqheadWrite port fn v s
  | .hintWrite port fn v => Sys2Proof.Machine.execHintWrite port fn v s
  | .codeRangeEnable port fn k v => Sys2Proof.Machine.execCodeRangeEnable port fn k v s
  | .codeRangeDisable port fn k v => Sys2Proof.Machine.execCodeRangeDisable port fn k v s
  | .fcbRegisterWrite port fn off v => Sys2Proof.Machine.execFcbRegisterWrite port fn off v s
  | .memoryReply c err line => Sys2Proof.Machine.execMemoryReply c err line s
  | .postedStoreDrain c => Sys2Proof.Machine.execPostedStoreDrain c s
  | .icacheFill core pa err => Sys2Proof.Machine.execIcacheFill core pa err s
  | .pageWalk c va write exec => Sys2Proof.Machine.execPageWalk c va write exec s
  | .vectorCheckPhaseEnd c => Sys2Proof.Machine.execVectorCheckPhaseEnd c s
  | .vectorSweepStart c => Sys2Proof.Machine.execVectorSweepStart c s
  | .vectorRowArrival c row => Sys2Proof.Machine.execVectorRowArrival c row s
  | .vectorSweepComplete c => Sys2Proof.Machine.execVectorSweepComplete c s
  | .matrixEntryStart core => Sys2Proof.Machine.execMatrixEntryStart core s
  | .matrixEntryComplete core residue vreg => Sys2Proof.Machine.execMatrixEntryComplete core residue vreg s
  | .gustPrefetch c stream => Sys2Proof.Machine.execGustPrefetch c stream s
  | .jobSchedule die cluster => Sys2Proof.Machine.execJobSchedule die cluster s
  | .jobBlockEnd die cluster => Sys2Proof.Machine.execJobBlockEnd die cluster s
  | .jobFaultEnd die cluster => Sys2Proof.Machine.execJobFaultEnd die cluster s
  | .jobComplete die cluster => Sys2Proof.Machine.execJobComplete die cluster s
  | .levanterRound die cluster => Sys2Proof.Machine.execLevanterRound die cluster s
  | .gcastCopyLanded core pane => Sys2Proof.Machine.execGcastCopyLanded core pane s
  | .sealCountDrained die idx => Sys2Proof.Machine.execSealCountDrained die idx s
  | .spawnRequestArrival c core pc => Sys2Proof.Machine.execSpawnRequestArrival c core pc s
  | .stealRequest c victim => Sys2Proof.Machine.execStealRequest c victim s
  | .gbarArrivalSignal gang rank => Sys2Proof.Machine.execGbarArrivalSignal gang rank s
  | .gbarGenerationComplete gang => Sys2Proof.Machine.execGbarGenerationComplete gang s
  | .gangStopComplete gang => Sys2Proof.Machine.execGangStopComplete gang s
  | .msendAccept core msg => Sys2Proof.Machine.execMsendAccept core msg s
  | .dataDelivery c msg => Sys2Proof.Machine.execDataDelivery c msg s
  | .spawnDelivery c msg => Sys2Proof.Machine.execSpawnDelivery c msg s
  | .wakeDelivery c msg => Sys2Proof.Machine.execWakeDelivery c msg s
  | .regwDelivery c msg => Sys2Proof.Machine.execRegwDelivery c msg s
  | .inboxRecordWrite core slot msg => Sys2Proof.Machine.execInboxRecordWrite core slot msg s
  | .waittExpiry c => Sys2Proof.Machine.execWaittExpiry c s
  | .wfiWake c => Sys2Proof.Machine.execWfiWake c s
  | .waitResumption c => Sys2Proof.Machine.execWaitResumption c s
  | .homeMiss die line => Sys2Proof.Machine.execHomeMiss die line s
  | .homeWritePerform id => Sys2Proof.Machine.execHomeWritePerform id s
  | .leaseExpiry die line => Sys2Proof.Machine.execLeaseExpiry die line s
  | .writeCombineFlush die line => Sys2Proof.Machine.execWriteCombineFlush die line s
  | .tokenBucketRefill core => Sys2Proof.Machine.execTokenBucketRefill core s
  | .ptpTimestampExchange ppm => Sys2Proof.Machine.execPtpTimestampExchange ppm s
  | .hostDoorbellWrite port fn v ide => Sys2Proof.Machine.execHostDoorbellWrite port fn v ide s
  | .doorbellMessageSend port fn => Sys2Proof.Machine.execDoorbellMessageSend port fn s
  | .inboundRead port fn off len bar0 ide => Sys2Proof.Machine.execInboundRead port fn off len bar0 ide s
  | .inboundWrite port fn off data bar0 ide => Sys2Proof.Machine.execInboundWrite port fn off data bar0 ide s
  | .outboundCompletion c data ok => Sys2Proof.Machine.execOutboundCompletion c data ok s
  | .peerReadTimeout c => Sys2Proof.Machine.execPeerReadTimeout c s
  | .hostMsixUnmask port fn vec v ide => Sys2Proof.Machine.execHostMsixUnmask port fn vec v ide s
  | .tdispRequest port fn state => Sys2Proof.Machine.execTdispRequest port fn state s
  | .spdmMessage port fn kind => Sys2Proof.Machine.execSpdmMessage port fn kind s
  | .keyInstall port fn slot key => Sys2Proof.Machine.execKeyInstall port fn slot key s
  | .keyErase port fn => Sys2Proof.Machine.execKeyErase port fn s
  | .functionLevelReset port fn => Sys2Proof.Machine.execFunctionLevelReset port fn s
  | .etesianFlitReplay port => Sys2Proof.Machine.execEtesianFlitReplay port s
  | .linkDown port => Sys2Proof.Machine.execLinkDown port s
  | .linkRetrainTimeout port => Sys2Proof.Machine.execLinkRetrainTimeout port s
  | .linkWidthWindow link loadPct => Sys2Proof.Machine.execLinkWidthWindow link loadPct s
  | .linkWiden link => Sys2Proof.Machine.execLinkWiden link s
  | .linkWidthHandshakeDone link => Sys2Proof.Machine.execLinkWidthHandshakeDone link s
  | .packageReset update => Sys2Proof.Machine.execPackageReset update s
  | .packageBoot f => Sys2Proof.Machine.execPackageBoot f s
  | .controllerHeartbeat => Sys2Proof.Machine.execControllerHeartbeat s
  | .controllerFailover => Sys2Proof.Machine.execControllerFailover s
  | .stateSummary ends => Sys2Proof.Machine.execStateSummary ends s
  | .journalClear bootStep => Sys2Proof.Machine.execJournalClear bootStep s
  | .doeUnknownCommand code => Sys2Proof.Machine.execDoeUnknownCommand code s
  | .expansionTableReplace die svn omitted signed => Sys2Proof.Machine.execExpansionTableReplace die svn omitted signed s
  | .thermalSensorRead celsius => Sys2Proof.Machine.execThermalSensorRead celsius s
  | .patrolScrub die err => Sys2Proof.Machine.execPatrolScrub die err s
  | .foehnTest die cls idx pass => Sys2Proof.Machine.execFoehnTest die cls idx pass s
  | .redundantOn c => Sys2Proof.Machine.execRedundantOn c s
  | .redundantOff c => Sys2Proof.Machine.execRedundantOff c s
  | .recordOn c => Sys2Proof.Machine.execRecordOn c s
  | .replayOn c => Sys2Proof.Machine.execReplayOn c s
  | .recordReplayOff c => Sys2Proof.Machine.execRecordReplayOff c s
  | .intervalClose c => Sys2Proof.Machine.execIntervalClose c s
  | .redundantTimeout c => Sys2Proof.Machine.execRedundantTimeout c s
  | .illegalEncoding w => Sys2Proof.Machine.execIllegalEncoding w s
  | .instructionFetchFault cause addr => Sys2Proof.Machine.execInstructionFetchFault cause addr s
  | .linkRetrained port => Sys2Proof.Machine.execLinkRetrained port s
  | .functionEnable port fn enable => Sys2Proof.Machine.execFunctionEnable port fn enable s
  | .powerRemoved => Sys2Proof.Machine.execPowerRemoved s
  | .dptokenWrite v => Sys2Proof.Machine.execDptokenWrite v s
  | .add d a b => Sys2Proof.Machine.execAdd d a b s
  | .sub d a b => Sys2Proof.Machine.execSub d a b s
  | .and d a b => Sys2Proof.Machine.execAnd d a b s
  | .or d a b => Sys2Proof.Machine.execOr d a b s
  | .xor d a b => Sys2Proof.Machine.execXor d a b s
  | .sll d a b => Sys2Proof.Machine.execSll d a b s
  | .srl d a b => Sys2Proof.Machine.execSrl d a b s
  | .sra d a b => Sys2Proof.Machine.execSra d a b s
  | .slt d a b => Sys2Proof.Machine.execSlt d a b s
  | .sltu d a b => Sys2Proof.Machine.execSltu d a b s
  | .min d a b => Sys2Proof.Machine.execMin d a b s
  | .max d a b => Sys2Proof.Machine.execMax d a b s
  | .minu d a b => Sys2Proof.Machine.execMinu d a b s
  | .maxu d a b => Sys2Proof.Machine.execMaxu d a b s
  | .fshl d a b sh => Sys2Proof.Machine.execFshl d a b sh s
  | .fshr d a b sh => Sys2Proof.Machine.execFshr d a b sh s
  | .clz d a => Sys2Proof.Machine.execClz d a s
  | .ctz d a => Sys2Proof.Machine.execCtz d a s
  | .popc d a => Sys2Proof.Machine.execPopc d a s
  | .sel d a b => Sys2Proof.Machine.execSel d a b s
  | .ext d a l p => Sys2Proof.Machine.execExt d a l p s
  | .ins d a l p => Sys2Proof.Machine.execIns d a l p s
  | .addi d a zi => Sys2Proof.Machine.execAddi d a zi s
  | .andi d a zi => Sys2Proof.Machine.execAndi d a zi s
  | .ori d a zi => Sys2Proof.Machine.execOri d a zi s
  | .xori d a zi => Sys2Proof.Machine.execXori d a zi s
  | .slli d a sh => Sys2Proof.Machine.execSlli d a sh s
  | .srli d a sh => Sys2Proof.Machine.execSrli d a sh s
  | .srai d a sh => Sys2Proof.Machine.execSrai d a sh s
  | .slti d a zi => Sys2Proof.Machine.execSlti d a zi s
  | .sltiu d a zi => Sys2Proof.Machine.execSltiu d a zi s
  | .lui d zi => Sys2Proof.Machine.execLui d zi s
  | .addpc d zi => Sys2Proof.Machine.execAddpc d zi s
  | .mul d a b => Sys2Proof.Machine.execMul d a b s
  | .mulh d a b => Sys2Proof.Machine.execMulh d a b s
  | .mulhu d a b => Sys2Proof.Machine.execMulhu d a b s
  | .div d a b => Sys2Proof.Machine.execDiv d a b s
  | .divu d a b => Sys2Proof.Machine.execDivu d a b s
  | .rem d a b => Sys2Proof.Machine.execRem d a b s
  | .remu d a b => Sys2Proof.Machine.execRemu d a b s
  | .lut3 d a b t => Sys2Proof.Machine.execLut3 d a b t s
  | .fadd d a b r f => Sys2Proof.Machine.execFadd d a b r f s
  | .fsub d a b r f => Sys2Proof.Machine.execFsub d a b r f s
  | .fmul d a b r f => Sys2Proof.Machine.execFmul d a b r f s
  | .fdiv d a b r f => Sys2Proof.Machine.execFdiv d a b r f s
  | .fsqrt d a r f => Sys2Proof.Machine.execFsqrt d a r f s
  | .fmin d a b f => Sys2Proof.Machine.execFmin d a b f s
  | .fmax d a b f => Sys2Proof.Machine.execFmax d a b f s
  | .feq d a b f => Sys2Proof.Machine.execFeq d a b f s
  | .flt d a b f => Sys2Proof.Machine.execFlt d a b f s
  | .fle d a b f => Sys2Proof.Machine.execFle d a b f s
  | .fclass d a f => Sys2Proof.Machine.execFclass d a f s
  | .fcvt d a sh r f => Sys2Proof.Machine.execFcvt d a sh r f s
  | .fcvti d a k r f => Sys2Proof.Machine.execFcvti d a k r f s
  | .icvtf d a k r f => Sys2Proof.Machine.execIcvtf d a k r f s
  | .fmvx d a f => Sys2Proof.Machine.execFmvx d a f s
  | .fmvf d a f => Sys2Proof.Machine.execFmvf d a f s
  | .fma d a b c r p => Sys2Proof.Machine.execFma d a b c r p s
  | .fms d a b c r p => Sys2Proof.Machine.execFms d a b c r p s
  | .fnma d a b c r p => Sys2Proof.Machine.execFnma d a b c r p s
  | .fnms d a b c r p => Sys2Proof.Machine.execFnms d a b c r p s
  | .jal o => Sys2Proof.Machine.execJal o s
  | .jalr d a zi => Sys2Proof.Machine.execJalr d a zi s
  | .lb d a zi => Sys2Proof.Machine.execLb d a zi s
  | .lbu d a zi => Sys2Proof.Machine.execLbu d a zi s
  | .lh d a zi => Sys2Proof.Machine.execLh d a zi s
  | .lhu d a zi => Sys2Proof.Machine.execLhu d a zi s
  | .lw d a zi => Sys2Proof.Machine.execLw d a zi s
  | .lwu d a zi => Sys2Proof.Machine.execLwu d a zi s
  | .ld d a zi => Sys2Proof.Machine.execLd d a zi s
  | .flw d a zi => Sys2Proof.Machine.execFlw d a zi s
  | .fld d a zi => Sys2Proof.Machine.execFld d a zi s
  | .sb sh a zi => Sys2Proof.Machine.execSb sh a zi s
  | .sh sh a zi => Sys2Proof.Machine.execSh sh a zi s
  | .sw sh a zi => Sys2Proof.Machine.execSw sh a zi s
  | .sd sh a zi => Sys2Proof.Machine.execSd sh a zi s
  | .fsw sh a zi => Sys2Proof.Machine.execFsw sh a zi s
  | .fsd sh a zi => Sys2Proof.Machine.execFsd sh a zi s
  | .ecall => Sys2Proof.Machine.execEcall s
  | .ebreak => Sys2Proof.Machine.execEbreak s
  | .eret => Sys2Proof.Machine.execEret s
  | .movs d n => Sys2Proof.Machine.execMovs d n s
  | .movsw a n => Sys2Proof.Machine.execMovsw a n s
  | .fence sh => Sys2Proof.Machine.execFence sh s
  | .fencei => Sys2Proof.Machine.execFencei s
  | .tlbinv a b t => Sys2Proof.Machine.execTlbinv a b t s
  | .dgate a => Sys2Proof.Machine.execDgate a s
  | .dret => Sys2Proof.Machine.execDret s
  | .wfi => Sys2Proof.Machine.execWfi s
  | .chkpt => Sys2Proof.Machine.execChkpt s
  | .vaddV d a b m l => Sys2Proof.Machine.execVaddV d a b m l s
  | .vaddX d a b m => Sys2Proof.Machine.execVaddX d a b m s
  | .vaddI d a zi m => Sys2Proof.Machine.execVaddI d a zi m s
  | .vsubV d a b m l => Sys2Proof.Machine.execVsubV d a b m l s
  | .vsubX d a b m => Sys2Proof.Machine.execVsubX d a b m s
  | .vsubI d a zi m => Sys2Proof.Machine.execVsubI d a zi m s
  | .vrsubV d a b m l => Sys2Proof.Machine.execVrsubV d a b m l s
  | .vrsubX d a b m => Sys2Proof.Machine.execVrsubX d a b m s
  | .vrsubI d a zi m => Sys2Proof.Machine.execVrsubI d a zi m s
  | .vmulV d a b m l => Sys2Proof.Machine.execVmulV d a b m l s
  | .vmulX d a b m => Sys2Proof.Machine.execVmulX d a b m s
  | .vmulhV d a b m l => Sys2Proof.Machine.execVmulhV d a b m l s
  | .vmulhX d a b m => Sys2Proof.Machine.execVmulhX d a b m s
  | .vmulhuV d a b m l => Sys2Proof.Machine.execVmulhuV d a b m l s
  | .vmulhuX d a b m => Sys2Proof.Machine.execVmulhuX d a b m s
  | .vdivV d a b m l => Sys2Proof.Machine.execVdivV d a b m l s
  | .vdivX d a b m => Sys2Proof.Machine.execVdivX d a b m s
  | .vdivuV d a b m l => Sys2Proof.Machine.execVdivuV d a b m l s
  | .vdivuX d a b m => Sys2Proof.Machine.execVdivuX d a b m s
  | .vremV d a b m l => Sys2Proof.Machine.execVremV d a b m l s
  | .vremX d a b m => Sys2Proof.Machine.execVremX d a b m s
  | .vremuV d a b m l => Sys2Proof.Machine.execVremuV d a b m l s
  | .vremuX d a b m => Sys2Proof.Machine.execVremuX d a b m s
  | .vminV d a b m l => Sys2Proof.Machine.execVminV d a b m l s
  | .vminX d a b m => Sys2Proof.Machine.execVminX d a b m s
  | .vminI d a zi m => Sys2Proof.Machine.execVminI d a zi m s
  | .vmaxV d a b m l => Sys2Proof.Machine.execVmaxV d a b m l s
  | .vmaxX d a b m => Sys2Proof.Machine.execVmaxX d a b m s
  | .vmaxI d a zi m => Sys2Proof.Machine.execVmaxI d a zi m s
  | .vminuV d a b m l => Sys2Proof.Machine.execVminuV d a b m l s
  | .vminuX d a b m => Sys2Proof.Machine.execVminuX d a b m s
  | .vminuI d a zi m => Sys2Proof.Machine.execVminuI d a zi m s
  | .vmaxuV d a b m l => Sys2Proof.Machine.execVmaxuV d a b m l s
  | .vmaxuX d a b m => Sys2Proof.Machine.execVmaxuX d a b m s
  | .vmaxuI d a zi m => Sys2Proof.Machine.execVmaxuI d a zi m s
  | .vandV d a b m l => Sys2Proof.Machine.execVandV d a b m l s
  | .vandX d a b m => Sys2Proof.Machine.execVandX d a b m s
  | .vandI d a zi m => Sys2Proof.Machine.execVandI d a zi m s
  | .vorV d a b m l => Sys2Proof.Machine.execVorV d a b m l s
  | .vorX d a b m => Sys2Proof.Machine.execVorX d a b m s
  | .vorI d a zi m => Sys2Proof.Machine.execVorI d a zi m s
  | .vxorV d a b m l => Sys2Proof.Machine.execVxorV d a b m l s
  | .vxorX d a b m => Sys2Proof.Machine.execVxorX d a b m s
  | .vxorI d a zi m => Sys2Proof.Machine.execVxorI d a zi m s
  | .vsllV d a b m l => Sys2Proof.Machine.execVsllV d a b m l s
  | .vsllX d a b m => Sys2Proof.Machine.execVsllX d a b m s
  | .vsllI d a zi m => Sys2Proof.Machine.execVsllI d a zi m s
  | .vsrlV d a b m l => Sys2Proof.Machine.execVsrlV d a b m l s
  | .vsrlX d a b m => Sys2Proof.Machine.execVsrlX d a b m s
  | .vsrlI d a zi m => Sys2Proof.Machine.execVsrlI d a zi m s
  | .vsraV d a b m l => Sys2Proof.Machine.execVsraV d a b m l s
  | .vsraX d a b m => Sys2Proof.Machine.execVsraX d a b m s
  | .vsraI d a zi m => Sys2Proof.Machine.execVsraI d a zi m s
  | .vsaddV d a b m l => Sys2Proof.Machine.execVsaddV d a b m l s
  | .vsaddX d a b m => Sys2Proof.Machine.execVsaddX d a b m s
  | .vsaddI d a zi m => Sys2Proof.Machine.execVsaddI d a zi m s
  | .vssubV d a b m l => Sys2Proof.Machine.execVssubV d a b m l s
  | .vssubX d a b m => Sys2Proof.Machine.execVssubX d a b m s
  | .vssubI d a zi m => Sys2Proof.Machine.execVssubI d a zi m s
  | .vwmulV d a b m l => Sys2Proof.Machine.execVwmulV d a b m l s
  | .vwmulX d a b m => Sys2Proof.Machine.execVwmulX d a b m s
  | .vwmaccV d a b m l => Sys2Proof.Machine.execVwmaccV d a b m l s
  | .vwmaccX d a b m => Sys2Proof.Machine.execVwmaccX d a b m s
  | .vwmaccuV d a b m l => Sys2Proof.Machine.execVwmaccuV d a b m l s
  | .vwmaccuX d a b m => Sys2Proof.Machine.execVwmaccuX d a b m s
  | .vwmaccsuV d a b m l => Sys2Proof.Machine.execVwmaccsuV d a b m l s
  | .vwmaccsuX d a b m => Sys2Proof.Machine.execVwmaccsuX d a b m s
  | .vnclipV d a b m l => Sys2Proof.Machine.execVnclipV d a b m l s
  | .vnclipX d a b m => Sys2Proof.Machine.execVnclipX d a b m s
  | .vnclipI d a zi m => Sys2Proof.Machine.execVnclipI d a zi m s
  | .vfshlV d a b m l => Sys2Proof.Machine.execVfshlV d a b m l s
  | .vfshlX d a b m => Sys2Proof.Machine.execVfshlX d a b m s
  | .vfshlI d a zi m => Sys2Proof.Machine.execVfshlI d a zi m s
  | .vfshrV d a b m l => Sys2Proof.Machine.execVfshrV d a b m l s
  | .vfshrX d a b m => Sys2Proof.Machine.execVfshrX d a b m s
  | .vfshrI d a zi m => Sys2Proof.Machine.execVfshrI d a zi m s
  | .vmergeV d a b m l => Sys2Proof.Machine.execVmergeV d a b m l s
  | .vmergeX d a b m => Sys2Proof.Machine.execVmergeX d a b m s
  | .vmergeI d a zi m => Sys2Proof.Machine.execVmergeI d a zi m s
  | .vmovV d b m l => Sys2Proof.Machine.execVmovV d b m l s
  | .vmovX d b m => Sys2Proof.Machine.execVmovX d b m s
  | .vmovI d zi m => Sys2Proof.Machine.execVmovI d zi m s
  | .vseqV d a b m l => Sys2Proof.Machine.execVseqV d a b m l s
  | .vseqX d a b m => Sys2Proof.Machine.execVseqX d a b m s
  | .vseqI d a zi m => Sys2Proof.Machine.execVseqI d a zi m s
  | .vsneV d a b m l => Sys2Proof.Machine.execVsneV d a b m l s
  | .vsneX d a b m => Sys2Proof.Machine.execVsneX d a b m s
  | .vsneI d a zi m => Sys2Proof.Machine.execVsneI d a zi m s
  | .vsltV d a b m l => Sys2Proof.Machine.execVsltV d a b m l s
  | .vsltX d a b m => Sys2Proof.Machine.execVsltX d a b m s
  | .vsltI d a zi m => Sys2Proof.Machine.execVsltI d a zi m s
  | .vsltuV d a b m l => Sys2Proof.Machine.execVsltuV d a b m l s
  | .vsltuX d a b m => Sys2Proof.Machine.execVsltuX d a b m s
  | .vsltuI d a zi m => Sys2Proof.Machine.execVsltuI d a zi m s
  | .vsleV d a b m l => Sys2Proof.Machine.execVsleV d a b m l s
  | .vsleX d a b m => Sys2Proof.Machine.execVsleX d a b m s
  | .vsleI d a zi m => Sys2Proof.Machine.execVsleI d a zi m s
  | .vsleuV d a b m l => Sys2Proof.Machine.execVsleuV d a b m l s
  | .vsleuX d a b m => Sys2Proof.Machine.execVsleuX d a b m s
  | .vsleuI d a zi m => Sys2Proof.Machine.execVsleuI d a zi m s
  | .vsgtV d a b m l => Sys2Proof.Machine.execVsgtV d a b m l s
  | .vsgtX d a b m => Sys2Proof.Machine.execVsgtX d a b m s
  | .vsgtI d a zi m => Sys2Proof.Machine.execVsgtI d a zi m s
  | .vsgtuV d a b m l => Sys2Proof.Machine.execVsgtuV d a b m l s
  | .vsgtuX d a b m => Sys2Proof.Machine.execVsgtuX d a b m s
  | .vsgtuI d a zi m => Sys2Proof.Machine.execVsgtuI d a zi m s
  | .vpopc d a m => Sys2Proof.Machine.execVpopc d a m s
  | .vclz d a m => Sys2Proof.Machine.execVclz d a m s
  | .vconf d a => Sys2Proof.Machine.execVconf d a s
  | .vredsum d a m => Sys2Proof.Machine.execVredsum d a m s
  | .vredmax d a m => Sys2Proof.Machine.execVredmax d a m s
  | .vredmin d a m => Sys2Proof.Machine.execVredmin d a m s
  | .vredmaxu d a m => Sys2Proof.Machine.execVredmaxu d a m s
  | .vredminu d a m => Sys2Proof.Machine.execVredminu d a m s
  | .vredand d a m => Sys2Proof.Machine.execVredand d a m s
  | .vredor d a m => Sys2Proof.Machine.execVredor d a m s
  | .vredxor d a m => Sys2Proof.Machine.execVredxor d a m s
  | .vlut3 d a b t l u => Sys2Proof.Machine.execVlut3 d a b t l u s
  | .vfaddV d a b m l => Sys2Proof.Machine.execVfaddV d a b m l s
  | .vfaddF d a b m => Sys2Proof.Machine.execVfaddF d a b m s
  | .vfsubV d a b m l => Sys2Proof.Machine.execVfsubV d a b m l s
  | .vfsubF d a b m => Sys2Proof.Machine.execVfsubF d a b m s
  | .vfmulV d a b m l => Sys2Proof.Machine.execVfmulV d a b m l s
  | .vfmulF d a b m => Sys2Proof.Machine.execVfmulF d a b m s
  | .vfdivV d a b m l => Sys2Proof.Machine.execVfdivV d a b m l s
  | .vfdivF d a b m => Sys2Proof.Machine.execVfdivF d a b m s
  | .vfsqrt d a m => Sys2Proof.Machine.execVfsqrt d a m s
  | .vfmaV d a b m l => Sys2Proof.Machine.execVfmaV d a b m l s
  | .vfmaF d a b m => Sys2Proof.Machine.execVfmaF d a b m s
  | .vfnmaV d a b m l => Sys2Proof.Machine.execVfnmaV d a b m l s
  | .vfnmaF d a b m => Sys2Proof.Machine.execVfnmaF d a b m s
  | .vfminV d a b m l => Sys2Proof.Machine.execVfminV d a b m l s
  | .vfminF d a b m => Sys2Proof.Machine.execVfminF d a b m s
  | .vfmaxV d a b m l => Sys2Proof.Machine.execVfmaxV d a b m l s
  | .vfmaxF d a b m => Sys2Proof.Machine.execVfmaxF d a b m s
  | .vfeqV d a b m l => Sys2Proof.Machine.execVfeqV d a b m l s
  | .vfeqF d a b m => Sys2Proof.Machine.execVfeqF d a b m s
  | .vfltV d a b m l => Sys2Proof.Machine.execVfltV d a b m l s
  | .vfltF d a b m => Sys2Proof.Machine.execVfltF d a b m s
  | .vfleV d a b m l => Sys2Proof.Machine.execVfleV d a b m l s
  | .vfleF d a b m => Sys2Proof.Machine.execVfleF d a b m s
  | .vfgtV d a b m l => Sys2Proof.Machine.execVfgtV d a b m l s
  | .vfgtF d a b m => Sys2Proof.Machine.execVfgtF d a b m s
  | .vfgeV d a b m l => Sys2Proof.Machine.execVfgeV d a b m l s
  | .vfgeF d a b m => Sys2Proof.Machine.execVfgeF d a b m s
  | .vfcvt d a c m => Sys2Proof.Machine.execVfcvt d a c m s
  | .vfpack d a c m => Sys2Proof.Machine.execVfpack d a c m s
  | .vfunpack d a c m => Sys2Proof.Machine.execVfunpack d a c m s
  | .vfcvti d a c m => Sys2Proof.Machine.execVfcvti d a c m s
  | .vicvtf d a c m => Sys2Proof.Machine.execVicvtf d a c m s
  | .vfredsum d a m => Sys2Proof.Machine.execVfredsum d a m s
  | .vfredmax d a m => Sys2Proof.Machine.execVfredmax d a m s
  | .vfexp2 d a m => Sys2Proof.Machine.execVfexp2 d a m s
  | .vflog2 d a m => Sys2Proof.Machine.execVflog2 d a m s
  | .vfrcp d a m => Sys2Proof.Machine.execVfrcp d a m s
  | .vfrsq d a m => Sys2Proof.Machine.execVfrsq d a m s
  | .mand d a b => Sys2Proof.Machine.execMand d a b s
  | .mor d a b => Sys2Proof.Machine.execMor d a b s
  | .mxor d a b => Sys2Proof.Machine.execMxor d a b s
  | .mnot d a => Sys2Proof.Machine.execMnot d a s
  | .mpopc d a => Sys2Proof.Machine.execMpopc d a s
  | .mfirst d a => Sys2Proof.Machine.execMfirst d a s
  | .iota d a => Sys2Proof.Machine.execIota d a s
  | .vid d => Sys2Proof.Machine.execVid d s
  | .slideupX d a b m => Sys2Proof.Machine.execSlideupX d a b m s
  | .slidednX d a b m => Sys2Proof.Machine.execSlidednX d a b m s
  | .slideupI d a zi m => Sys2Proof.Machine.execSlideupI d a zi m s
  | .slidednI d a zi m => Sys2Proof.Machine.execSlidednI d a zi m s
  | .vgather d a b m l => Sys2Proof.Machine.execVgather d a b m l s
  | .compress d a m => Sys2Proof.Machine.execCompress d a m s
  | .expand d a m => Sys2Proof.Machine.execExpand d a m s
  | .rowbcX d a b m => Sys2Proof.Machine.execRowbcX d a b m s
  | .rowrotX d a b m => Sys2Proof.Machine.execRowrotX d a b m s
  | .rowbcI d a zi m => Sys2Proof.Machine.execRowbcI d a zi m s
  | .rowrotI d a zi m => Sys2Proof.Machine.execRowrotI d a zi m s
  | .vmvx d a b => Sys2Proof.Machine.execVmvx d a b s
  | .vmvs d a b => Sys2Proof.Machine.execVmvs d a b s
  | .vld d a m => Sys2Proof.Machine.execVld d a m s
  | .vlds d a b m => Sys2Proof.Machine.execVlds d a b m s
  | .vld2 d a b m => Sys2Proof.Machine.execVld2 d a b m s
  | .vldx d a b m => Sys2Proof.Machine.execVldx d a b m s
  | .vldl d a b m => Sys2Proof.Machine.execVldl d a b m s
  | .vldr d b m f => Sys2Proof.Machine.execVldr d b m f s
  | .vrest a => Sys2Proof.Machine.execVrest a s
  | .vst d a m => Sys2Proof.Machine.execVst d a m s
  | .vsts d a b m => Sys2Proof.Machine.execVsts d a b m s
  | .vst2 d a b m => Sys2Proof.Machine.execVst2 d a b m s
  | .vstx d a b m => Sys2Proof.Machine.execVstx d a b m s
  | .vstl d a b m => Sys2Proof.Machine.execVstl d a b m s
  | .vstr d b m f => Sys2Proof.Machine.execVstr d b m f s
  | .vsaadd d a b m => Sys2Proof.Machine.execVsaadd d a b m s
  | .vsamax d a b m => Sys2Proof.Machine.execVsamax d a b m s
  | .vsave a => Sys2Proof.Machine.execVsave a s
  | .vshape d a b => Sys2Proof.Machine.execVshape d a b s
  | .vform d a => Sys2Proof.Machine.execVform d a s
  | .vsplit n => Sys2Proof.Machine.execVsplit n s
  | .vjoin => Sys2Proof.Machine.execVjoin s
  | .vrdshape d => Sys2Proof.Machine.execVrdshape d s
  | .mshape p r => Sys2Proof.Machine.execMshape p r s
  | .mzero n => Sys2Proof.Machine.execMzero n s
  | .mlds p q f => Sys2Proof.Machine.execMlds p q f s
  | .mswap => Sys2Proof.Machine.execMswap s
  | .mop p q n f => Sys2Proof.Machine.execMop p q n f s
  | .mops p q n f => Sys2Proof.Machine.execMops p q n f s
  | .mrd p q n => Sys2Proof.Machine.execMrd p q n s
  | .mwr p q n => Sys2Proof.Machine.execMwr p q n s
  | .mcvt r n f => Sys2Proof.Machine.execMcvt r n f s
  | .mopx p q sh n f => Sys2Proof.Machine.execMopx p q sh n f s
  | .mopsx p q sh n f => Sys2Proof.Machine.execMopsx p q sh n f s
  | .sdecl sh a => Sys2Proof.Machine.execSdecl sh a s
  | .sbind d sh => Sys2Proof.Machine.execSbind d sh s
  | .sunbind d => Sys2Proof.Machine.execSunbind d s
  | .sstat d sh => Sys2Proof.Machine.execSstat d sh s
  | .palloc d a b => Sys2Proof.Machine.execPalloc d a b s
  | .pstate d a => Sys2Proof.Machine.execPstate d a s
  | .pfree a => Sys2Proof.Machine.execPfree a s
  | .lxcopy d a sh c e => Sys2Proof.Machine.execLxcopy d a sh c e s
  | .lxgath d a sh c e => Sys2Proof.Machine.execLxgath d a sh c e s
  | .lxscat d a sh c e => Sys2Proof.Machine.execLxscat d a sh c e s
  | .lxpoll d a => Sys2Proof.Machine.execLxpoll d a s
  | .seal a => Sys2Proof.Machine.execSeal a s
  | .unseal a => Sys2Proof.Machine.execUnseal a s
  | .relb a => Sys2Proof.Machine.execRelb a s
  | .rspawn a b => Sys2Proof.Machine.execRspawn a b s
  | .dqpush a b => Sys2Proof.Machine.execDqpush a b s
  | .dqpop d => Sys2Proof.Machine.execDqpop d s
  | .joindec d a => Sys2Proof.Machine.execJoindec d a s
  | .gnew d a => Sys2Proof.Machine.execGnew d a s
  | .gadd a b => Sys2Proof.Machine.execGadd a b s
  | .gstop a => Sys2Proof.Machine.execGstop a s
  | .gresume a => Sys2Proof.Machine.execGresume a s
  | .gbar => Sys2Proof.Machine.execGbar s
  | .gcast a b => Sys2Proof.Machine.execGcast a b s
  | .msend a b k => Sys2Proof.Machine.execMsend a b k s
  | .mrecv d a => Sys2Proof.Machine.execMrecv d a s
  | .waitm => Sys2Proof.Machine.execWaitm s
  | .waitt a => Sys2Proof.Machine.execWaitt a s
  | .timeq d => Sys2Proof.Machine.execTimeq d s
  | .amoswap d a b sh o w => Sys2Proof.Machine.execAmoswap d a b sh o w s
  | .amoadd d a b sh o w => Sys2Proof.Machine.execAmoadd d a b sh o w s
  | .amoand d a b sh o w => Sys2Proof.Machine.execAmoand d a b sh o w s
  | .amoor d a b sh o w => Sys2Proof.Machine.execAmoor d a b sh o w s
  | .amoxor d a b sh o w => Sys2Proof.Machine.execAmoxor d a b sh o w s
  | .amomin d a b sh o w => Sys2Proof.Machine.execAmomin d a b sh o w s
  | .amomax d a b sh o w => Sys2Proof.Machine.execAmomax d a b sh o w s
  | .amocas d a b sh o w => Sys2Proof.Machine.execAmocas d a b sh o w s
  | .ldl d a sh o w => Sys2Proof.Machine.execLdl d a sh o w s
  | .stc d a b sh o w => Sys2Proof.Machine.execStc d a b sh o w s
  | .vformi d v => Sys2Proof.Machine.execVformi d v s
  | .beq a b o => Sys2Proof.Machine.execBeq a b o s
  | .bne a b o => Sys2Proof.Machine.execBne a b o s
  | .blt a b o => Sys2Proof.Machine.execBlt a b o s
  | .bge a b o => Sys2Proof.Machine.execBge a b o s
  | .bltu a b o => Sys2Proof.Machine.execBltu a b o s
  | .bgeu a b o => Sys2Proof.Machine.execBgeu a b o s
  | .pfx k r n c v o sh => Sys2Proof.Machine.execPfx k r n c v o sh s

end Sys2Proof.Machine
end

