-- ==== Sys2Proof/Machine/Turn.lean ====
section
/-! DEFINITION. One turn (R34, R301): what the context whose turn it is does, and the order of turns and events. -/

namespace Sys2Proof.Machine

/-- The package runs: it has power, its last start has ended with step 12, and it is not halted (R489, R490, R518). -/
def State.alive (s : State) : Bool := s.powered && !s.boot.halted && decide (s.boot.lastStep = 12)

/-- An outcome with its next state changed. -/
def mapNext (f : State → State) : Res → Res
  | .next s => .next (f s)
  | .fault r => .fault r
  | .refused r => .refused r

/-- The turn is over: the next core has it, and after the last core of the package the next clk (R34). -/
def State.advance (old s : State) : State :=
  if old.cursor + 1 < 768 then { s with cursor := old.cursor + 1, clk := old.clk, free := s.free + 1 }
  else { s with cursor := 0, clk := old.clk + 1, free := s.free + 1 }

/-- Take the first event that is due out of a list of events. -/
def takeDue (clk : Nat) : List (Nat × Instr) → Option (Instr × List (Nat × Instr))
  | [] => none
  | (d, i) :: t =>
    if d ≤ clk then some (i, t)
    else match takeDue clk t with
      | some (j, r) => some (j, (d, i) :: r)
      | none => none

/-- No instruction of the context is under way: a boundary (R391). -/
def State.atBoundary (s : State) (c : CtxId) : Bool :=
  let k := s.ctx c
  decide (k.wait = .none) && !k.bounded && decide (k.notBefore ≤ s.clk) && decide (k.run ≠ .out)

/-- The REGWs that wait for a running context take effect at a boundary, in their order (R280); a member that records or replays
takes them at its next WAITM (R512). -/
def State.takeRegw (s : State) (c : CtxId) : State :=
  let k := s.ctx c
  if !k.regw.isEmpty && s.atBoundary c && decide (k.run = .running) && !k.isLogging then
    s.setCtx c { k.regw.foldl (fun q v => q.wx 28 v) k with regw := [] }
  else s

/-- Is an asynchronous trap taken now (R322, R391, R397)?  A parked WFI retires first (R454). -/
def State.asyncNow (s : State) (c : CtxId) : Bool :=
  s.atBoundary c && decide ((s.ctx c).run ≠ .parked .wfi) && (Ctx.pendingAsync c (s.ctx c)).isSome

/-- The fetched word runs: its instruction, or trap(illegal_instruction) for a word that decodes to none (R87). -/
noncomputable def State.runWord (s : State) (w : BitVec 32) : Res :=
  match decode w with
  | .ok i => exec i s
  | .error _ => exec (.illegalEncoding w) s

/-- Fetch and run at PC (R391). -/
noncomputable def State.fetchRun (s : State) (c : CtxId) : Res :=
  match s.fetch c with
  | .word w s1 => s1.runWord w
  | .wait s1 => .next s1
  | .fault n => exec (.instructionFetchFault n (s.ctx c).pc) s

/-- What the context does on its turn (R301): nothing while it is out of rotation or not ready. -/
noncomputable def State.ownTurn (s : State) (c : CtxId) : Res :=
  if s.asyncNow c then exec .asyncTrapTaken s
  else match (s.ctx c).run with
    | .out => .next s
    | .parked .waitm => .next s
    | .parked .gbar => .next s
    | .parked (.waitt _) => exec (.waittExpiry c) s
    | .parked .wfi => exec (.wfiWake c) s
    | .running => if (s.ctx c).wait = .none ∧ (s.ctx c).notBefore ≤ s.clk then s.fetchRun c else .next s

/-- The turn of a core: its context acts, and the turn passes on. -/
noncomputable def State.turn (s : State) : Res :=
  if s.alive then mapNext s.advance ((s.takeRegw s.cur).ownTurn s.cur) else .next (s.advance s)

/-- Write the word of an opcode-table row where the next turn fetches (see State.withFetchWord). -/
def State.placeWord (s : State) (w : BitVec 32) : State :=
  let c := s.cursor * 8 + 7
  let t := s.clk + 7 - s.clk % 8
  let s1 : State := { s with clk := t, agenda := s.agenda.filter fun e => decide (t < e.1), powered := true,
                             boot := { s.boot with halted := false, lastStep := 12 } }
  let s2 := s1.modCtx c fun k =>
    { k with run := .running, wait := .none, bounded := false, notBefore := 0, swOut := none, regw := [], pendMc := none,
             pendStop := none, pendLane := none }
  let pa := match s2.translate (s2.agent c) .fetch (s2.ctx c).pc with
    | .ok x => x.pa
    | .error _ => bits (s2.ctx c).pc 51 0
  let s3 : State := { s2 with mem := s2.mem.writeL pa (bytesOf w.toNat 4) }
  s3.modCore s.cursor fun k => k.fillIcache (lineOf pa) (s3.codeLine (s.cursor / 64) (lineOf pa))

end Sys2Proof.Machine
end

