-- ==== Sys2Proof/Machine/Step.lean ====
section
/-! DEFINITION. The step: one due event, or one turn of one core (R34, R301; log entry 1). -/

namespace Sys2Proof.Machine

/-- One step of the package: the first event that is due happens; when none is, the core whose turn it is has its turn. -/
noncomputable def step (s : State) : Host.Outcome State Fault Refusal :=
  if 768 ≤ s.cursor then .fault .noSuchTurn
  else match takeDue s.clk s.agenda with
    | some (i, rest) => exec i { s with agenda := rest }
    | none => s.turn

/-- The state with an instruction of the opcode table, given by its bits, at the PC of slot 7 of the core whose turn it is,
and with that turn now (log entry 1). -/
def State.withFetchWord (s : State) (nbits w : Nat) : State := s.placeWord (BitVec.ofNat 32 (w % 2 ^ nbits))

end Sys2Proof.Machine
end

