-- ==== Sys2Proof/Safety.lean ====
section
/-! DEFINITION. The terms that claims are stated in: when a word issues, what a step runs, the canonical states, and when a
vector instruction passes its checks. -/

namespace Sys2Proof.Machine

/-! Issuing. -/

/-- The context whose turn it is. -/
def State.here (s : State) : Ctx := s.ctx s.cur

/-- A redundant member whose commit buffer is full waits for its pair before it issues (R510). -/
def Ctx.bufferWaits (k : Ctx) : Bool :=
  match k.red with
  | some r => decide (4096 ≤ r.stores.length) && !r.matched
  | none => false

/-- The condition of the pending prefix, if there is one, lets its word run (R457). -/
def Ctx.pfxHolds (k : Ctx) : Bool :=
  match k.pfx with
  | some p => k.pfxCond p.word
  | none => true

/-- A word issues in the context whose turn it is: checks 1 to 3 of R87 pass, no unit it uses is fenced (R506), no commit
buffer is in the way (R510), the condition of its prefix waits for no vector instruction, and it holds (R457). -/
def State.issuesIf (s : State) (w : BitVec 32) (forbidden : Bool) : Bool :=
  (s.issueCheck w forbidden).isNone && !s.here.bufferWaits && !s.here.maskWaits && s.here.pfxHolds

/-- A word issues that no context state forbids beyond R21. -/
def State.issues (s : State) (w : BitVec 32) : Bool := s.issuesIf w false

/-- The state in which an issued word acts: its die has noted the encoding (R494) and the use of its units (R503). -/
def State.issued (s : State) (w : BitVec 32) : State := s.noteIssue s.cur w

/-! The states that claims start from. -/

/-- The turn names a core of the package, and memory is in its canonical form. -/
def State.canonical (s : State) : Bool := decide (s.cursor < 768) && Memory.wf s.mem

/-- A run of `n` steps answers a next state. -/
def runsTo : Nat → State → State → Prop
  | 0, s, t => s = t
  | n + 1, s, t => ∃ u, step s = .next u ∧ runsTo n u t

/-- A safe run: no step of it stops. -/
def safeRun (n : Nat) (s : State) : Prop := ∃ t, runsTo n s t

/-- The instruction `i` is what the next turn runs: no event is due, the package runs, no REGW and no asynchronous trap is
taken at this boundary, the context is ready, and the fetch gives a word that decodes to `i`; `t` is the state after the
fetch. -/
structure State.Runs (s : State) (i : Instr) (t : State) : Prop where
  turn    : s.cursor < 768
  noEvent : takeDue s.clk s.agenda = none
  alive   : s.alive = true
  regw    : (s.ctx s.cur).regw = []
  noTrap  : s.asyncNow s.cur = false
  running : (s.ctx s.cur).run = .running
  free    : (s.ctx s.cur).wait = .none
  ready   : (s.ctx s.cur).notBefore ≤ s.clk
  word    : ∃ w, s.fetch s.cur = .word w t ∧ decode w = .ok i

/-! Scalar accesses. -/

/-- A scalar access of `n` bytes by a context goes ahead: its walk reads its tables, every check of R119 passes with `x`, an
atomic is at HBM (R127), no vector access that it must follow is under way (R188), and everything that must be performed before
it is (R123, R124, R128); `u` is the state then, with its translation cached. -/
def State.Reaches (s : State) (c : CtxId) (kind : AccKind) (va : Word) (n : Nat) (atomic : Bool) (order scope : Nat)
    (ops : List Word) (x : Access) (u : State) : Prop :=
  ∃ s0 v, s.walkReady (s.agent c) [va] n = some s0 ∧ s.checkAccess (s.agent c) kind va n = .ok x ∧
    (atomic = true → x.place = .hbm) ∧ s.vectorMeets c x.pa n = false ∧
    s0.orderReady c atomic order scope ops = (v, true) ∧ u = v.fillTlb (s.agent c) va x.xl

/-- A block of `n` bytes that an instruction reads at a virtual address is in HBM and readable (R119): its walk reads its
tables, the lines of `bs`, its bytes, are read, and `u` is the state then. -/
def State.ReadsBlock (s : State) (c : CtxId) (va : Word) (n : Nat) (bs : List Byte) (u : State) : Prop :=
  ∃ s0 x s1, s.walkReady (s.agent c) [va] n = some s0 ∧ s.checkAccess (s.agent c) .load va n = .ok x ∧ x.place = .hbm ∧
    (s0.fillTlb (s.agent c) va x.xl).readLines (dieOf c) (linesOf x.pa n) = some s1 ∧
    bs = s1.view c (dieOf c) x.pa n ∧ u = s1.takeRead c false false x.pa n

/-! Vector instructions. -/

/-- The streams that a bound destination of an instruction feeds (R253). -/
def Ctx.outputStreams (k : Ctx) (o : VOp) : List Nat := o.dst.toList.filterMap fun p => k.boundTo p.1

/-- A vector instruction passes its checks (R160, R506) with the input chunks `ins`, the output chunks `es`; in `u` the leases
of its walks and reads are taken and its host reads have gone out, whose completions have arrived by `due`. -/
structure State.VecPasses (s : State) (c : CtxId) (o : VOp) (idle : Bool) (ins es : List Chunk) (u : State) (due : Nat) :
    Prop where
  unit    : s.gustTrap c ((s.ctx c).opBound o) = none
  form    : s.formMismatch c ((s.ctx c).vcfg (physLanes (coreOf c))) o = false
  overlap : s.registerOverlap c o = false
  room    : (s.ctx c).vq.length < Config.vectorQueueDepth
  empty   : idle = true → (s.ctx c).vq = []
  reads   : ∃ s0 s1 s2,
    s.chunkWalks c ((s.ctx c).vcfg (physLanes (coreOf c))) ((s.ctx c).inputStreams o ++ (s.ctx c).outputStreams o) = some s0 ∧
    s0.planAll c ((s.ctx c).vcfg (physLanes (coreOf c))) .load ((s.ctx c).inputStreams o) = .ok ins ∧
    s0.planAll c ((s.ctx c).vcfg (physLanes (coreOf c))) .store ((s.ctx c).outputStreams o) = .ok es ∧
    s0.readAccs c (ins.flatMap Chunk.accs) = some s1 ∧
    s1.accsReady c (ins.flatMap Chunk.accs) (es.flatMap Chunk.accs) []
      ((es.flatMap Chunk.accs).length * ((s.ctx c).vcfg (physLanes (coreOf c))).e) = (s2, true) ∧
    s2.hostReads c (ins.flatMap Chunk.accs) ((s.ctx c).vcfg (physLanes (coreOf c))).e = (u, due)

/-- The state with the input chunks consumed, in which no element group is written yet; `bound` says whether an operand is
bound to a stream. -/
def State.consumed (s : State) (c : CtxId) (q : VCfg) (bound : Bool) (ins : List Chunk) : State :=
  (ins.foldl (fun t p => t.consume c q p) ((s.useGust c bound).vecStart c)).farTaken c (ins.flatMap Chunk.accs)

/-- The state after a vector instruction with effect `r` on its context. -/
def State.vecDone (s : State) (c : CtxId) (q : VCfg) (dst : List Nat) (es : List Chunk) (due : Nat) (r : Ctx × BitVec 5) :
    State :=
  (s.setCtx c r.1).vecFinish c q dst es due r.2

/-! What an instruction does when it runs. -/

/-- `i` acts: whenever its word issues and `pre` holds of the state it issues in, `exec` answers `act` of that state. -/
def Acts (i : Instr) (pre : State → Prop) (act : State → State) : Prop :=
  ∀ s, s.issues (encode i) = true → pre (s.issued (encode i)) → exec i s = .next (act (s.issued (encode i)))

/-- `i` acts, where the context state `bad` makes its word illegal (R87). -/
def ActsUnless (i : Instr) (bad : State → Bool) (pre : State → Prop) (act : State → State) : Prop :=
  ∀ s, bad s = false → s.issuesIf (encode i) false = true → pre (s.issued (encode i)) →
    exec i s = .next (act (s.issued (encode i)))

/-- `i` writes `v` to x[d] (and to the copy register of its prefix, R457) and retires: nothing else changes. -/
def WritesX (i : Instr) (d : BitVec 5) (v : Ctx → Word) : Prop :=
  Acts i (fun _ => True) fun s => s.retireX s.cur d (v s.here)

/-- `i` writes a value to x[d], ORs flags into FSTAT (R55) and retires. -/
def WritesXF (i : Instr) (d : BitVec 5) (v : Ctx → Word × BitVec 5) : Prop :=
  Acts i (fun _ => True) fun s => (s.modCtx s.cur fun k => k.orFlags (v s.here).2).retireX s.cur d (v s.here).1

/-- `i` writes the low 64 bits of a number to f[d], ORs flags into FSTAT (R55) and retires. -/
def WritesF (i : Instr) (d : BitVec 5) (v : Ctx → Nat × BitVec 5) : Prop :=
  Acts i (fun _ => True) fun s =>
    (s.modCtx s.cur fun k => k.orFlags (v s.here).2).retireF s.cur d (BitVec.ofNat 64 (v s.here).1)

/-- The configuration of the context whose turn it is (R31). -/
def State.cfgHere (s : State) : VCfg := s.here.vcfg (physLanes (coreOf s.cur))

/-- The vector instruction `i`, whose operands are `o`, does `eff` to its context: whenever its word issues and its checks
pass, `exec` answers the state in which its input chunks are consumed, `eff` has been applied, and its output chunks, the
latch, its queue entry and the PC are as every vector instruction leaves them. -/
def VecActs (i : Instr) (o : BitVec 32 → VCfg → Ctx → VOp) (eff : Ctx → VCfg → Ctx → Ctx × BitVec 5) : Prop :=
  ∀ (s : State) (ins es : List Chunk) (u : State) (due : Nat), s.issues (encode i) = true →
    let p := o (encode i) s.cfgHere s.here
    let v := u.consumed s.cur s.cfgHere (s.here.opBound p) ins
    (s.issued (encode i)).VecPasses s.cur p false ins es u due →
    exec i s = .next (v.vecDone s.cur s.cfgHere (s.here.plainDst p) es due (eff s.here s.cfgHere (v.ctx s.cur)))

/-- The vector instruction `i`, whose operands are `o`, writes a scalar result to x[d] (R203); what it has brought from a stream
arrives (R153). -/
def VecWritesX (i : Instr) (d : BitVec 5) (o : BitVec 32 → VCfg → Ctx → VOp) (res : Ctx → VCfg → Ctx → Word) : Prop :=
  ∀ (s : State) (ins es : List Chunk) (u : State) (due : Nat), s.issues (encode i) = true →
    let p := o (encode i) s.cfgHere s.here
    let v := u.consumed s.cur s.cfgHere (s.here.opBound p) ins
    (s.issued (encode i)).VecPasses s.cur p true ins es u due →
    exec i s = .next ((v.arrive s.cur due).retireX s.cur d (res s.here s.cfgHere (v.ctx s.cur)))

end Sys2Proof.Machine
end

