-- ==== Sys2Proof/Certificates/Slice0/Obligations.lean ====
section
/-! DEFINITION. The statements about the model, for the provers: each cites the rules of spec/ that it formalises. -/

namespace Sys2Proof.Machine

/-! Scalar integer instructions. -/

/-- R96 The three-register group: each instruction writes its result to x[d]. -/
def AluClaims : Prop :=
  ∀ (d a b l : BitVec 5) (sh p : BitVec 6),
    WritesX (.add d a b) d (fun k => k.rx a + k.rx b) ∧
    WritesX (.sub d a b) d (fun k => k.rx a - k.rx b) ∧
    WritesX (.and d a b) d (fun k => k.rx a &&& k.rx b) ∧
    WritesX (.or d a b) d (fun k => k.rx a ||| k.rx b) ∧
    WritesX (.xor d a b) d (fun k => k.rx a ^^^ k.rx b) ∧
    WritesX (.sll d a b) d (fun k => k.rx a <<< ((k.rx b).toNat % 64)) ∧
    WritesX (.srl d a b) d (fun k => k.rx a >>> ((k.rx b).toNat % 64)) ∧
    WritesX (.sra d a b) d (fun k => (k.rx a).sshiftRight ((k.rx b).toNat % 64)) ∧
    WritesX (.slt d a b) d (fun k => if (k.rx a).toInt < (k.rx b).toInt then 1 else 0) ∧
    WritesX (.sltu d a b) d (fun k => if (k.rx a).toNat < (k.rx b).toNat then 1 else 0) ∧
    WritesX (.min d a b) d (fun k => BitVec.ofInt 64 (min (k.rx a).toInt (k.rx b).toInt)) ∧
    WritesX (.max d a b) d (fun k => BitVec.ofInt 64 (max (k.rx a).toInt (k.rx b).toInt)) ∧
    WritesX (.minu d a b) d (fun k => BitVec.ofNat 64 (min (k.rx a).toNat (k.rx b).toNat)) ∧
    WritesX (.maxu d a b) d (fun k => BitVec.ofNat 64 (max (k.rx a).toNat (k.rx b).toNat)) ∧
    WritesX (.fshl d a b sh) d
      (fun k => BitVec.ofNat 64 (((k.rx a).toNat * 2 ^ 64 + (k.rx b).toNat) * 2 ^ sh.toNat / 2 ^ 64)) ∧
    WritesX (.fshr d a b sh) d (fun k => BitVec.ofNat 64 (((k.rx a).toNat * 2 ^ 64 + (k.rx b).toNat) / 2 ^ sh.toNat)) ∧
    WritesX (.clz d a) d (fun k => BitVec.ofNat 64 (clz 64 (k.rx a).toNat)) ∧
    WritesX (.ctz d a) d (fun k => BitVec.ofNat 64 (ctz (k.rx a).toNat 64)) ∧
    WritesX (.popc d a) d (fun k => BitVec.ofNat 64 (popcount (k.rx a).toNat 64)) ∧
    WritesX (.sel d a b) d (fun k => if k.rx d ≠ 0 then k.rx a else k.rx b) ∧
    WritesX (.ext d a l p) d (fun k => BitVec.ofNat 64 ((k.rx a).toNat / 2 ^ p.toNat % 2 ^ (l.toNat + 1))) ∧
    WritesX (.ins d a l p) d (fun k => putSlice (k.rx d) p.toNat (l.toNat + 1) (k.rx a).toNat)

/-- R97: the immediate forms write their result to x[d]. -/
def ImmediateClaims : Prop :=
  ∀ (d a : BitVec 5) (i : BitVec 16) (sh : BitVec 6) (u : BitVec 21),
    WritesX (.addi d a i) d (fun k => k.rx a + i.signExtend 64) ∧
    WritesX (.andi d a i) d (fun k => k.rx a &&& i.zeroExtend 64) ∧
    WritesX (.ori d a i) d (fun k => k.rx a ||| i.zeroExtend 64) ∧
    WritesX (.xori d a i) d (fun k => k.rx a ^^^ i.zeroExtend 64) ∧
    WritesX (.slli d a sh) d (fun k => BitVec.ofNat 64 ((k.rx a).toNat * 2 ^ sh.toNat)) ∧
    WritesX (.srli d a sh) d (fun k => BitVec.ofNat 64 ((k.rx a).toNat / 2 ^ sh.toNat)) ∧
    WritesX (.srai d a sh) d (fun k => BitVec.ofInt 64 ((k.rx a).toInt / 2 ^ sh.toNat)) ∧
    WritesX (.slti d a i) d (fun k => if (k.rx a).toInt < i.toInt then 1 else 0) ∧
    WritesX (.sltiu d a i) d (fun k => if (k.rx a).toNat < (i.signExtend 64).toNat then 1 else 0) ∧
    WritesX (.lui d u) d (fun _ => (u ++ 0#11).signExtend 64) ∧
    WritesX (.addpc d u) d (fun k => k.pc + (u ++ 0#11).signExtend 64)

/-- A division keeps its context from issuing for n clk (R132). -/
def State.heldFor (s : State) (c : CtxId) (n : Nat) (t : State) : State := t.modCtx c fun k => { k with notBefore := s.clk + n }

/-- R98, R99: the quotient and the remainder of signed operands. -/
def quotient (x y : Int) : Int := if y = 0 then (if x = 0 then 0 else if x < 0 then -(2 ^ 63) else 2 ^ 63 - 1)
  else min (x.tdiv y) (2 ^ 63 - 1)

/-- R98, R99, R101, R132: multiply, divide and the three-input lookup. -/
def MulDivClaims : Prop :=
  ∀ (d a b : BitVec 5) (t : BitVec 8),
    WritesX (.mul d a b) d (fun k => BitVec.ofInt 64 ((k.rx a).toInt * (k.rx b).toInt)) ∧
    WritesX (.mulh d a b) d (fun k => BitVec.ofInt 64 ((k.rx a).toInt * (k.rx b).toInt / 2 ^ 64)) ∧
    WritesX (.mulhu d a b) d (fun k => BitVec.ofNat 64 ((k.rx a).toNat * (k.rx b).toNat / 2 ^ 64)) ∧
    Acts (.div d a b) (fun _ => True) (fun s => s.heldFor s.cur 32 (s.retireX s.cur d
      (BitVec.ofInt 64 (quotient (s.here.rx a).toInt (s.here.rx b).toInt)))) ∧
    Acts (.divu d a b) (fun _ => True) (fun s => s.heldFor s.cur 32 (s.retireX s.cur d
      (if s.here.rx b = 0 then (if s.here.rx a = 0 then 0 else BitVec.allOnes 64)
       else BitVec.ofNat 64 ((s.here.rx a).toNat / (s.here.rx b).toNat)))) ∧
    Acts (.rem d a b) (fun _ => True) (fun s => s.heldFor s.cur 32 (s.retireX s.cur d
      (BitVec.ofInt 64 ((s.here.rx a).toInt.tmod (s.here.rx b).toInt)))) ∧
    Acts (.remu d a b) (fun _ => True) (fun s => s.heldFor s.cur 32 (s.retireX s.cur d
      (BitVec.ofNat 64 ((s.here.rx a).toNat % (s.here.rx b).toNat)))) ∧
    ∃ r : Ctx → Word, WritesX (.lut3 d a b t) d r ∧
      ∀ k i, i < 64 → (r k).getLsbD i = t.getLsbD (4 * ((k.rx a).getLsbD i).toNat + 2 * ((k.rx b).getLsbD i).toNat +
        ((k.rx d).getLsbD i).toNat)

/-! Scalar floating point. -/

/-- A result rounded to the format f (R48), with all flags of the operation. -/
def fpOut (f rm : Nat) (r : FVal × BitVec 5) : Nat × BitVec 5 :=
  (((fmtOf f).store false rm r.1).1, r.2 ||| ((fmtOf f).store false rm r.1).2)

/-- The operand in f[r] as a value of format f (R103). -/
def Ctx.fv (k : Ctx) (f : Nat) (r : BitVec 5) : FVal := (fmtOf f).value (k.rf r).toNat

/-- FDIV and FSQRT: the result, and 32 clk for FP64 or 16 clk for the others before the context issues again (R132). -/
def DividesF (i : Instr) (d : BitVec 5) (f : Nat) (v : Ctx → Nat × BitVec 5) : Prop :=
  Acts i (fun _ => True) fun s => s.heldFor s.cur (if f = 0 then 32 else 16)
    ((s.modCtx s.cur fun k => k.orFlags (v s.here).2).retireF s.cur d (BitVec.ofNat 64 (v s.here).1))

/-- R103, R107, R109, R112: the instructions that round once into f[d]. -/
def FloatClaims : Prop :=
  ∀ (d a b c : BitVec 5) (r : BitVec 3) (f g : BitVec 4) (n : BitVec 2) (p : BitVec 1),
    WritesF (.fadd d a b r f) d (fun k => fpOut f.toNat r.toNat (fAdd r.toNat (k.fv f.toNat a) (k.fv f.toNat b))) ∧
    WritesF (.fsub d a b r f) d (fun k => fpOut f.toNat r.toNat (fAdd r.toNat (k.fv f.toNat a) (k.fv f.toNat b).neg)) ∧
    WritesF (.fmul d a b r f) d (fun k => fpOut f.toNat r.toNat (fMul (k.fv f.toNat a) (k.fv f.toNat b))) ∧
    DividesF (.fdiv d a b r f) d f.toNat (fun k => fpOut f.toNat r.toNat (fDiv (k.fv f.toNat a) (k.fv f.toNat b))) ∧
    DividesF (.fsqrt d a r f) d f.toNat (fun k => fpOut f.toNat r.toNat (fSqrt (k.fv f.toNat a))) ∧
    WritesF (.fcvt d a g r f) d (fun k => fpOut f.toNat r.toNat (k.fv g.toNat a, nvIf (k.fv g.toNat a).isSig)) ∧
    WritesF (.icvtf d a n r f) d (fun k => fpOut f.toNat r.toNat (FVal.ofInt (intOperand n.toNat (k.rx a)), 0)) ∧
    WritesF (.fma d a b c r p) d (fun k => fpOut p.toNat r.toNat
      (fFma r.toNat false false (k.fv p.toNat a) (k.fv p.toNat b) (k.fv p.toNat c))) ∧
    WritesF (.fms d a b c r p) d (fun k => fpOut p.toNat r.toNat
      (fFma r.toNat false true (k.fv p.toNat a) (k.fv p.toNat b) (k.fv p.toNat c))) ∧
    WritesF (.fnma d a b c r p) d (fun k => fpOut p.toNat r.toNat
      (fFma r.toNat true false (k.fv p.toNat a) (k.fv p.toNat b) (k.fv p.toNat c))) ∧
    WritesF (.fnms d a b c r p) d (fun k => fpOut p.toNat r.toNat
      (fFma r.toNat true true (k.fv p.toNat a) (k.fv p.toNat b) (k.fv p.toNat c)))

/-- R104-R106, R108, R110: selection, comparison, classification, conversion to integers and moves. -/
def FloatMoveClaims : Prop :=
  ∀ (d a b : BitVec 5) (r : BitVec 3) (f : BitVec 4) (n : BitVec 2),
    WritesF (.fmin d a b f) d (fun k => (fmtOf f.toNat).minMax false (k.rf a).toNat (k.rf b).toNat) ∧
    WritesF (.fmax d a b f) d (fun k => (fmtOf f.toNat).minMax true (k.rf a).toNat (k.rf b).toNat) ∧
    WritesXF (.feq d a b f) d (fun k => fCompare true fEqNum (k.fv f.toNat a) (k.fv f.toNat b)) ∧
    WritesXF (.flt d a b f) d (fun k => fCompare false fLtNum (k.fv f.toNat a) (k.fv f.toNat b)) ∧
    WritesXF (.fle d a b f) d (fun k => fCompare false (fun x y => !fLtNum y x) (k.fv f.toNat a) (k.fv f.toNat b)) ∧
    WritesX (.fclass d a f) d (fun k => BitVec.ofNat 64 ((fmtOf f.toNat).classify (k.rf a).toNat)) ∧
    WritesXF (.fcvti d a n r f) d (fun k => convertToX n.toNat r.toNat (k.fv f.toNat a)) ∧
    WritesX (.fmvx d a f) d (fun k => BitVec.ofNat 64 ((k.rf a).toNat % 2 ^ (fmtOf f.toNat).width)) ∧
    Acts (.fmvf d a f) (fun _ => True) (fun s => s.retireF s.cur d
      (BitVec.ofNat 64 ((s.here.rx a).toNat % 2 ^ (fmtOf f.toNat).width)))

/-! Control transfers. -/

/-- A jump to a target that is a multiple of 4 and canonical (R114, R116): the link, then the PC. -/
def JumpsTo (i : Instr) (target : Ctx → Word) (link : Option (BitVec 5)) (taken : Ctx → Bool) : Prop :=
  Acts i (fun s => taken s.here = true ∧ (target s.here).toNat % 4 = 0 ∧ canonical s.here.mode (target s.here) = true)
    fun s => s.modCtx s.cur fun k =>
      { (match link with
         | some d => k.wx d (k.pc + 4)
         | none => k).retired with pc := target k }

/-- A conditional branch to PC + 4 × offset (R115), which retires when its condition is false. -/
def BranchesOn (i : Instr) (o : BitVec 16) (taken : Ctx → Bool) : Prop :=
  JumpsTo i (fun k => k.pc + o.signExtend 64 * 4) none taken ∧
    Acts i (fun s => taken s.here = false) fun s => s.retire s.cur

/-- R113-R116: jumps and branches. -/
def JumpClaims : Prop :=
  ∀ (d a b : BitVec 5) (i o : BitVec 16) (w : BitVec 26),
    JumpsTo (.jal w) (fun k => k.pc + w.signExtend 64 * 4) (some 1) (fun _ => true) ∧
    JumpsTo (.jalr d a i) (fun k => k.rx a + i.signExtend 64) (some d) (fun _ => true) ∧
    BranchesOn (.beq a b o) o (fun k => decide (k.rx a = k.rx b)) ∧
    BranchesOn (.bne a b o) o (fun k => decide (k.rx a ≠ k.rx b)) ∧
    BranchesOn (.blt a b o) o (fun k => decide ((k.rx a).toInt < (k.rx b).toInt)) ∧
    BranchesOn (.bge a b o) o (fun k => decide ((k.rx b).toInt ≤ (k.rx a).toInt)) ∧
    BranchesOn (.bltu a b o) o (fun k => decide ((k.rx a).toNat < (k.rx b).toNat)) ∧
    BranchesOn (.bgeu a b o) o (fun k => decide ((k.rx b).toNat ≤ (k.rx a).toNat))

/-- A taken jump whose target is aligned but not canonical (R116) traps with the target, and writes no link. -/
def JumpFaults (i : Instr) (target : Ctx → Word) (taken : Ctx → Bool) : Prop :=
  Acts i (fun s => taken s.here = true ∧ (target s.here).toNat % 4 = 0 ∧ canonical s.here.mode (target s.here) = false)
    fun s => s.trap s.cur (mkTrap 8 (target s.here))

/-- R114, R116: a jump to a target that is no multiple of 4, or not canonical, traps with the target, and writes no link. -/
def JumpTrapClaims : Prop :=
  ∀ (d a b : BitVec 5) (i o : BitVec 16) (w : BitVec 26),
    JumpFaults (.jal w) (fun k => k.pc + w.signExtend 64 * 4) (fun _ => true) ∧
    (let dest (k : Ctx) : Word := k.pc + o.signExtend 64 * 4
     JumpFaults (.beq a b o) dest (fun k => decide (k.rx a = k.rx b)) ∧
     JumpFaults (.bne a b o) dest (fun k => decide (k.rx a ≠ k.rx b)) ∧
     JumpFaults (.blt a b o) dest (fun k => decide ((k.rx a).toInt < (k.rx b).toInt)) ∧
     JumpFaults (.bge a b o) dest (fun k => decide ((k.rx b).toInt ≤ (k.rx a).toInt)) ∧
     JumpFaults (.bltu a b o) dest (fun k => decide ((k.rx a).toNat < (k.rx b).toNat)) ∧
     JumpFaults (.bgeu a b o) dest (fun k => decide ((k.rx b).toNat ≤ (k.rx a).toNat))) ∧
    Acts (.jalr d a i) (fun s => (s.here.rx a + i.signExtend 64).toNat % 4 ≠ 0)
      (fun s => s.trap s.cur (mkTrap 5 (s.here.rx a + i.signExtend 64))) ∧
    Acts (.jalr d a i) (fun s => (s.here.rx a + i.signExtend 64).toNat % 4 = 0 ∧
        canonical s.here.mode (s.here.rx a + i.signExtend 64) = false)
      (fun s => s.trap s.cur (mkTrap 8 (s.here.rx a + i.signExtend 64)))

/-! Loads, stores and atomics. -/

/-- The effective address of a scalar access (R119). -/
def State.eaHere (s : State) (a : BitVec 5) (i : BitVec 16) : Word := s.here.rx a + i.signExtend 64

/-- The load `i` of `n` bytes at x[a] + o, which does `fin` with the number that the bytes make: with every check passed it
takes the bytes that its context sees in HBM (with a lease on a far line) or the register of a function control block. -/
def Loads (i : Instr) (a : BitVec 5) (o : BitVec 16) (n : Nat) (fin : CtxId → Nat → State → State) : Prop :=
  ∀ (s u : State) (x : Access), s.issues (encode i) = true →
    (s.issued (encode i)).Reaches s.cur .load (s.eaHere a o) n false s.here.pfxOrder s.here.pfxScope [s.eaHere a o] x u →
    (∀ v, x.place = .hbm → u.readLine (dieOf s.cur) (lineOf x.pa) = some v →
      exec i s = .next ((fin s.cur (natOf (v.view s.cur (dieOf s.cur) x.pa n)) (v.takeRead s.cur true (decide (s.here.pfxOrder ≠ 1)) x.pa n)).awaitReply
        s.cur)) ∧
    (∀ p f off v, x.place = .fcb p f off → u.fcbRead (s.agent s.cur) p f off = some v →
      exec i s = .next ((fin s.cur v.toNat u).awaitFar s.cur))

/-- The same load at host memory or through a peer window (R340, R471), once every posted store of the context has left: it sends
its request, and the context waits for the completion that brings the data, with the instruction word that will take it; a peer
read also gets its 50 µs limit.  Host memory gives the bytes that it holds.  A shadow sends no request (R510): it takes what its
primary's load brings, or the trap of it, and waits until that is there (log entry 49). -/
def LoadsOutbound (i : Instr) (a : BitVec 5) (o : BitVec 16) (n : Nat) : Prop :=
  ∀ (s u v : State) (x : Access), s.issues (encode i) = true →
    (s.issued (encode i)).Reaches s.cur .load (s.eaHere a o) n false s.here.pfxOrder s.here.pfxScope [s.eaHere a o] x u →
    (∃ p, x.place = .host p) ∨ (∃ p w off, x.place = .peer p w off) →
    u.closeInterval s.cur [s.eaHere a o] = (v, true) → v.postedDone s.cur = true →
    (∀ p, x.place = .host p → (v.ctx s.cur).isShadow = false →
      exec i s = .next (v.outboundRead s.cur (encode i) (s.eaHere a o) x n (wordOf (v.mem.readN x.pa n)))) ∧
    ((v.ctx s.cur).isShadow = false →
      ∃ data, exec i s = .next (v.outboundRead s.cur (encode i) (s.eaHere a o) x n data)) ∧
    (∀ cells, (v.ctx s.cur).isShadow = true → (v.ctx s.cur).farRead = some (true, cells) →
      exec i s = .next ((v.modCtx s.cur Ctx.tookFar).finishLoad s.cur (encode i) (natOf (farBytes cells x.pa n)))) ∧
    (∀ cells, (v.ctx s.cur).isShadow = true → (v.ctx s.cur).farRead = some (false, cells) →
      exec i s = .next ((v.modCtx s.cur Ctx.tookFar).trap s.cur (mkTrap 20 (s.eaHere a o)))) ∧
    ((v.ctx s.cur).isShadow = true → (v.ctx s.cur).farRead = none → exec i s = .next (v.stallBounded s.cur))

/-- R118-R123: the loads, each with its width and the value that its register takes. -/
def LoadClaims : Prop :=
  ∀ (d a : BitVec 5) (o : BitVec 16),
    Loads (.lb d a o) a o 1 (fun c n s => s.retireX c d (BitVec.ofInt 64 (toSigned 8 n))) ∧
    Loads (.lbu d a o) a o 1 (fun c n s => s.retireX c d (BitVec.ofNat 64 n)) ∧
    Loads (.lh d a o) a o 2 (fun c n s => s.retireX c d (BitVec.ofInt 64 (toSigned 16 n))) ∧
    Loads (.lhu d a o) a o 2 (fun c n s => s.retireX c d (BitVec.ofNat 64 n)) ∧
    Loads (.lw d a o) a o 4 (fun c n s => s.retireX c d (BitVec.ofInt 64 (toSigned 32 n))) ∧
    Loads (.lwu d a o) a o 4 (fun c n s => s.retireX c d (BitVec.ofNat 64 n)) ∧
    Loads (.ld d a o) a o 8 (fun c n s => s.retireX c d (BitVec.ofNat 64 n)) ∧
    Loads (.flw d a o) a o 4 (fun c n s => s.retireF c d (BitVec.ofNat 64 n)) ∧
    Loads (.fld d a o) a o 8 (fun c n s => s.retireF c d (BitVec.ofNat 64 n))

/-- R340, R471: every load at host memory or through a peer window. -/
def OutboundLoadClaims : Prop :=
  ∀ (d a : BitVec 5) (o : BitVec 16),
    LoadsOutbound (.lb d a o) a o 1 ∧ LoadsOutbound (.lbu d a o) a o 1 ∧ LoadsOutbound (.lh d a o) a o 2 ∧
    LoadsOutbound (.lhu d a o) a o 2 ∧ LoadsOutbound (.lw d a o) a o 4 ∧ LoadsOutbound (.lwu d a o) a o 4 ∧
    LoadsOutbound (.ld d a o) a o 8 ∧ LoadsOutbound (.flw d a o) a o 4 ∧ LoadsOutbound (.fld d a o) a o 8

/-- The store `i` of the bytes `val` at x[a] + o (R118-R124, R337, R509): with every check passed it is performed at its home
when no lease runs on its line, is posted when its prefix says relaxed, enters the commit buffer of a redundant member that
has room for it, or writes a register of a function control block, at once or, under a relaxed prefix, from the store path. -/
def Stores (i : Instr) (a : BitVec 5) (o : BitVec 16) (val : Ctx → List Byte) : Prop :=
  ∀ (s u : State) (x : Access) (bs : List Byte), bs = val s.here → s.issues (encode i) = true →
    (s.issued (encode i)).Reaches s.cur .store (s.eaHere a o) bs.length false s.here.pfxOrder s.here.pfxScope
      [s.eaHere a o, wordOf bs] x u →
    (x.place = .hbm → (u.ctx s.cur).red = none → s.here.pfxOrder ≠ 1 → u.leaseFree x.pa bs.length = true →
      exec i s = .next (((u.writeHome s.cur x.pa bs (writeShared (s.agent s.cur) x) (s.did s.cur)).retire s.cur).awaitReply
        s.cur)) ∧
    (x.place = .hbm → (u.ctx s.cur).red = none → s.here.pfxOrder = 1 → u.postedCount s.cur < 4 →
      exec i s = .next ((u.postStore s.cur x.pa bs (writeShared (s.agent s.cur) x) (s.did s.cur)).retire s.cur)) ∧
    (∀ r v, x.place = .hbm → (u.ctx s.cur).red = some r → u.commitRoom s.cur bs.length = (v, true) →
      exec i s = .next ((v.modCtx s.cur fun k =>
        k.buffered (x.pa, bs, writeShared (s.agent s.cur) x, s.did s.cur)).retire s.cur)) ∧
    (∀ p f off v, x.place = .fcb p f off → u.fcbWrite (s.agent s.cur) p f off (wordOf bs) = (v, true) →
      (s.here.pfxOrder ≠ 1 → exec i s = .next ((v.retire s.cur).awaitFar s.cur)) ∧
      (s.here.pfxOrder = 1 → u.postedCount s.cur < 4 →
        exec i s = .next ((u.postFar s.cur x.pa bs (s.did s.cur)).retire s.cur)))

/-- The same store at host memory, whose bytes it writes, or through a peer window: it leaves as a posted write under the
function that serves the DID (R340, R461, R471), from the store path where its prefix says relaxed (R124); both close the
interval of a redundant member first, and a shadow performs neither (R510). -/
def StoresOutbound (i : Instr) (a : BitVec 5) (o : BitVec 16) (val : Ctx → List Byte) : Prop :=
  ∀ (s u v : State) (x : Access) (bs : List Byte), bs = val s.here → s.issues (encode i) = true →
    (s.issued (encode i)).Reaches s.cur .store (s.eaHere a o) bs.length false s.here.pfxOrder s.here.pfxScope
      [s.eaHere a o, wordOf bs] x u →
    (∃ p, x.place = .host p) ∨ (∃ p w off, x.place = .peer p w off) →
    u.closeInterval s.cur [s.eaHere a o, wordOf bs] = (v, true) →
    let sent := v.portRequest (v.did s.cur) x.place x.pa true bs.length bs
    (∀ p, x.place = .host p → (v.ctx s.cur).isShadow = false → s.here.pfxOrder ≠ 1 →
      exec i s = .next ((({ sent with mem := sent.mem.writeL x.pa bs } : State).retire s.cur).awaitFar s.cur)) ∧
    (∀ p w off, x.place = .peer p w off → (v.ctx s.cur).isShadow = false → s.here.pfxOrder ≠ 1 →
      exec i s = .next ((sent.retire s.cur).awaitFar s.cur)) ∧
    ((v.ctx s.cur).isShadow = false → s.here.pfxOrder = 1 → v.postedCount s.cur < 4 →
      exec i s = .next ((v.postFar s.cur x.pa bs (s.did s.cur)).retire s.cur)) ∧
    ((v.ctx s.cur).isShadow = true → s.here.pfxOrder ≠ 1 → exec i s = .next ((v.retire s.cur).awaitFar s.cur)) ∧
    ((v.ctx s.cur).isShadow = true → s.here.pfxOrder = 1 → exec i s = .next (v.retire s.cur)) ∧
    (∀ p f w off, x.place = .peer p w off → v.servingFn p (v.did s.cur) = some f →
      sent.hostOut = v.hostOut ++
        [.request p f (decide ((v.fn p f).tds = 2)) true ((v.peer p w).base.toNat * 4096 + off) bs.length bs])

/-- R118-R124: the stores, each with the bytes of its register. -/
def StoreClaims : Prop :=
  ∀ (r a : BitVec 5) (o : BitVec 16),
    Stores (.sb r a o) a o (fun k => bytesOf (k.rx r).toNat 1) ∧ Stores (.sh r a o) a o (fun k => bytesOf (k.rx r).toNat 2) ∧
    Stores (.sw r a o) a o (fun k => bytesOf (k.rx r).toNat 4) ∧ Stores (.sd r a o) a o (fun k => bytesOf (k.rx r).toNat 8) ∧
    Stores (.fsw r a o) a o (fun k => bytesOf (k.rf r).toNat 4) ∧ Stores (.fsd r a o) a o (fun k => bytesOf (k.rf r).toNat 8)

/-- R340, R471: every store at host memory or through a peer window. -/
def OutboundStoreClaims : Prop :=
  ∀ (r a : BitVec 5) (o : BitVec 16),
    StoresOutbound (.sb r a o) a o (fun k => bytesOf (k.rx r).toNat 1) ∧
    StoresOutbound (.sh r a o) a o (fun k => bytesOf (k.rx r).toNat 2) ∧
    StoresOutbound (.sw r a o) a o (fun k => bytesOf (k.rx r).toNat 4) ∧
    StoresOutbound (.sd r a o) a o (fun k => bytesOf (k.rx r).toNat 8) ∧
    StoresOutbound (.fsw r a o) a o (fun k => bytesOf (k.rf r).toNat 4) ∧
    StoresOutbound (.fsd r a o) a o (fun k => bytesOf (k.rf r).toNat 8)

/-- A scalar access of `n` bytes at x[a] + o traps with its address when that is no multiple of n (R119). -/
def TrapsMisaligned (i : Instr) (a : BitVec 5) (o : BitVec 16) (n : Nat) : Prop :=
  Acts i (fun s => (s.eaHere a o).toNat % n ≠ 0) fun s => s.trap s.cur (mkTrap 5 (s.eaHere a o))

/-- R119: misaligned loads and stores trap. -/
def MisalignedClaims : Prop :=
  ∀ (d a : BitVec 5) (o : BitVec 16),
    TrapsMisaligned (.lh d a o) a o 2 ∧ TrapsMisaligned (.lhu d a o) a o 2 ∧ TrapsMisaligned (.lw d a o) a o 4 ∧
    TrapsMisaligned (.lwu d a o) a o 4 ∧ TrapsMisaligned (.ld d a o) a o 8 ∧ TrapsMisaligned (.flw d a o) a o 4 ∧
    TrapsMisaligned (.fld d a o) a o 8 ∧ TrapsMisaligned (.sh d a o) a o 2 ∧ TrapsMisaligned (.sw d a o) a o 4 ∧
    TrapsMisaligned (.sd d a o) a o 8 ∧ TrapsMisaligned (.fsw d a o) a o 4 ∧ TrapsMisaligned (.fsd d a o) a o 8

/-- The scalar access `i` of `n` bytes at `ea` takes the trap of the first check of R119 that fails after its alignment, with
its address as trap value: no valid translation, no permission, a place where nothing may be reached, a line of another domain, a
store to a sealed buffer, and for a load an uncorrectable error.  `u` is the state after its walk has read its tables. -/
def FailsChecks (i : Instr) (kind : AccKind) (n : Nat) (ea : State → Word) : Prop :=
  ∀ (s u : State) (va : Word), va = ea s → s.issues (encode i) = true → va.toNat % n = 0 →
    let t := s.issued (encode i)
    let ag := t.agent s.cur
    t.walkReady ag [va] n = some u →
    (canonical ag.mode va = false →
      exec i s = .next (u.trap s.cur (mkTrap (if kind = .load then 6 else 7) va))) ∧
    (∀ st2, t.translate ag kind va = .error (.page st2) →
      exec i s = .next (u.trap s.cur { cause := if kind = .load then 6 else 7, val := va, stage2 := st2 })) ∧
    (t.translate ag kind va = .error .access → exec i s = .next (u.trap s.cur (mkTrap 9 va))) ∧
    (∀ x, t.translate ag kind va = .ok x →
      (t.place x.pa = .nothing ∨ (t.place x.pa = .hbm ∧ t.granuleOk ag x.pa = false) ∨
        (∃ p, t.place x.pa = .host p ∧ t.servingFn p ag.did = none) ∨
        (∃ p w off, t.place x.pa = .peer p w off ∧ t.peerOk ag p w off = false) ∨
        (∃ p f off, t.place x.pa = .fcb p f off ∧ (n ≠ 8 ∨ kind = .amo))) →
      exec i s = .next (u.trap s.cur (mkTrap 9 va))) ∧
    (∀ x, t.check3 ag kind va n = .ok x →
      (t.lineDidOk ag x = false → exec i s = .next (u.trap s.cur (mkTrap 10 va))) ∧
      (t.lineDidOk ag x = true → kind ≠ .load → (t.sealAt x.pa).isSome = true →
        exec i s = .next (u.trap s.cur (mkTrap 12 va))) ∧
      (t.lineDidOk ag x = true → kind = .load → x.place = .hbm → t.badLine (dieOf s.cur) (lineOf x.pa) = true →
        exec i s = .next (u.accessTrap s.cur .load (mkTrap 20 va))))

/-- R119, R126, R419: the checks of every scalar access after its alignment; an atomic is checked as a store; an uncorrectable
error is in the log before the trap (R499), and an access whose route retrains waits (R476). -/
def AccessCheckClaims : Prop :=
  (∀ (d a b : BitVec 5) (o : BitVec 16) (r q : BitVec 3) (w : BitVec 1),
    let ea (s : State) := s.eaHere a o
    let at_ (s : State) := s.here.rx a
    FailsChecks (.lb d a o) .load 1 ea ∧ FailsChecks (.lbu d a o) .load 1 ea ∧ FailsChecks (.lh d a o) .load 2 ea ∧
    FailsChecks (.lhu d a o) .load 2 ea ∧ FailsChecks (.lw d a o) .load 4 ea ∧ FailsChecks (.lwu d a o) .load 4 ea ∧
    FailsChecks (.ld d a o) .load 8 ea ∧ FailsChecks (.flw d a o) .load 4 ea ∧ FailsChecks (.fld d a o) .load 8 ea ∧
    FailsChecks (.sb d a o) .store 1 ea ∧ FailsChecks (.sh d a o) .store 2 ea ∧ FailsChecks (.sw d a o) .store 4 ea ∧
    FailsChecks (.sd d a o) .store 8 ea ∧ FailsChecks (.fsw d a o) .store 4 ea ∧ FailsChecks (.fsd d a o) .store 8 ea ∧
    FailsChecks (.amoswap d a b q r w) .amo (amoBytes w) at_ ∧ FailsChecks (.amoadd d a b q r w) .amo (amoBytes w) at_ ∧
    FailsChecks (.amoand d a b q r w) .amo (amoBytes w) at_ ∧ FailsChecks (.amoor d a b q r w) .amo (amoBytes w) at_ ∧
    FailsChecks (.amoxor d a b q r w) .amo (amoBytes w) at_ ∧ FailsChecks (.amomin d a b q r w) .amo (amoBytes w) at_ ∧
    FailsChecks (.amomax d a b q r w) .amo (amoBytes w) at_ ∧ FailsChecks (.amocas d a b q r w) .amo (amoBytes w) at_ ∧
    FailsChecks (.ldl d a q r w) .load (amoBytes w) at_ ∧ FailsChecks (.stc d a b q r w) .store (amoBytes w) at_) ∧
  ∀ (s : State) (c : CtxId) (kind : AccKind) (va : Word),
    (s.linkWaits (s.agent c) kind va = true → s.accessTrap c kind (mkTrap 20 va) = s.stallBounded c) ∧
    (∀ l, s.linkWaits (s.agent c) kind va = false → s.errorLine (s.agent c) kind va = some l →
      s.accessTrap c kind (mkTrap 20 va) =
        (s.logLineError (dieField (l * 64)) ((s.ctxid c).toNat % 2 ^ 27) l).trap c (mkTrap 20 va))

/-- R118, R504: the bytes of a performed store are what memory holds afterwards, but for those of the unit reports, which no
agent writes, and every byte outside them is unchanged (in a state with no write on its way and no line in error, whose own
arrival and merging would change other bytes). -/
def StoreFrameClaims : Prop :=
  ∀ (s : State) (c : CtxId) (addr : Nat) (bs : List Byte) (sh : Bool) (did : BitVec 7),
    Memory.wf s.mem = true → s.pend = [] → s.errLines = [] → s.sramErrs = [] →
    (∀ n, ∀ h : n < bs.length, isReport (addr + n) = false →
      (s.writeHome c addr bs sh did).mem.read (addr + n) = bs[n]) ∧
    (∀ a, isReport a = true → (s.writeHome c addr bs sh did).mem.read a = s.mem.read a) ∧
    (∀ a, a < addr ∨ addr + bs.length ≤ a → (s.writeHome c addr bs sh did).mem.read a = s.mem.read a) ∧
    (∀ q, ((s.writeHome c addr bs sh did).ctx q).x = (s.ctx q).x ∧ ((s.writeHome c addr bs sh did).ctx q).f = (s.ctx q).f ∧
      ((s.writeHome c addr bs sh did).ctx q).pc = (s.ctx q).pc ∧
      ((s.writeHome c addr bs sh did).ctx q).fstat = (s.ctx q).fstat ∧
      ((s.writeHome c addr bs sh did).ctx q).v = (s.ctx q).v)

/-- An atomic, LDL or STC reaches its line in HBM (R127, R128, R337): every check passes, what its order asks for is performed,
the interval of a redundant member is closed, and no lease is left on the line; `u` is the state then, `x` the access. -/
def State.AtomicReaches (s : State) (kind : AccKind) (va : Word) (n order scope : Nat) (ops : List Word) (x : Access)
    (u : State) : Prop :=
  ∃ v, s.Reaches s.cur kind va n true order scope ops x v ∧ v.closeInterval s.cur ops = (u, true) ∧
    u.leaseFree x.pa n = true

/-- The atomic `i` on x[a] of width bit `w`, with the new value `new` of old value, operand x[b] and old x[d] (R126): it
writes the old value to x[d], sign-extended, and performs the new value at its home; an AMOCAS that does not change the value
writes nothing.  For a context that is in no redundant pair and no log. -/
def Atomically (i : Instr) (cas : Bool) (d a b : BitVec 5) (w : BitVec 1) (o sc : BitVec 3)
    (new : Nat → Nat → Nat → Nat → Nat) : Prop :=
  ∀ (s u : State) (x : Access), s.issues (encode i) = true → s.here.red = none → s.here.log = none →
    (s.issued (encode i)).AtomicReaches .amo (s.here.rx a) (amoBytes w) o.toNat sc.toNat
      (if cas = true then [s.here.rx a, s.here.rx b, s.here.rx d] else [s.here.rx a, s.here.rx b]) x u →
    let n := amoBytes w
    let v := u.flushSeen s.cur x.pa n
    let old := natOf (v.mem.readN x.pa n)
    let y := new (8 * n) old ((s.here.rx b).toNat % 2 ^ (8 * n)) ((s.here.rx d).toNat % 2 ^ (8 * n))
    let seen := v.noteRead s.cur (decide (o.toNat ≠ 1)) x.pa n
    exec i s = .next (((if cas = true ∧ y = old then (seen.homeUse s.cur false x.pa n).leaveHome s.cur x.pa n
      else seen.writeHome s.cur x.pa (bytesOf y n) (writeShared (s.agent s.cur) x) (s.did s.cur)).retireX s.cur d
        (BitVec.ofInt 64 (toSigned (8 * n) old))).awaitReply s.cur)

/-- R126: the atomics, each with its new value. -/
def AtomicClaims : Prop :=
  ∀ (d a b : BitVec 5) (sc o : BitVec 3) (w : BitVec 1),
    Atomically (.amoswap d a b sc o w) false d a b w o sc (fun _ _ v _ => v) ∧
    Atomically (.amoadd d a b sc o w) false d a b w o sc (fun n old v _ => (old + v) % 2 ^ n) ∧
    Atomically (.amoand d a b sc o w) false d a b w o sc (fun _ old v _ => old &&& v) ∧
    Atomically (.amoor d a b sc o w) false d a b w o sc (fun _ old v _ => old ||| v) ∧
    Atomically (.amoxor d a b sc o w) false d a b w o sc (fun _ old v _ => old ^^^ v) ∧
    Atomically (.amomin d a b sc o w) false d a b w o sc (fun n old v _ => if toSigned n v < toSigned n old then v else old) ∧
    Atomically (.amomax d a b sc o w) false d a b w o sc (fun n old v _ => if toSigned n old < toSigned n v then v else old) ∧
    Atomically (.amocas d a b sc o w) true d a b w o sc (fun _ old v x => if old = x then v else old)

/-- R129-R131: LDL loads, sign-extended, and sets the reservation; STC writes 0 to x[d] and stores if the reservation still
names the same address and width when what comes before it has been performed, else writes 1 and stores nothing; STC clears
the reservation either way. -/
def ReservedClaims : Prop :=
  ∀ (d a b : BitVec 5) (sc o : BitVec 3) (w : BitVec 1) (s u : State) (x : Access),
    s.here.red = none → s.here.log = none →
    (s.issues (encode (.ldl d a sc o w)) = true →
      (s.issued (encode (.ldl d a sc o w))).AtomicReaches .load (s.here.rx a) (amoBytes w) o.toNat sc.toNat [s.here.rx a] x u →
      let v := u.flushSeen s.cur x.pa (amoBytes w)
      let r := ((v.noteRead s.cur (decide (o.toNat ≠ 1)) x.pa (amoBytes w)).homeUse s.cur false x.pa (amoBytes w)).leaveHome s.cur x.pa (amoBytes w)
      exec (.ldl d a sc o w) s = .next (((r.retireX s.cur d
        (BitVec.ofInt 64 (toSigned (8 * amoBytes w) (natOf (v.view s.cur (dieOf s.cur) x.pa (amoBytes w)))))).modCtx s.cur
          fun k => { k with resv := some { ea := s.here.rx a, w := amoBytes w, line := lineOf x.pa } }).awaitReply s.cur)) ∧
    (s.issues (encode (.stc d a b sc o w)) = true →
      (s.issued (encode (.stc d a b sc o w))).AtomicReaches .store (s.here.rx a) (amoBytes w) o.toNat sc.toNat
        [s.here.rx a, s.here.rx b] x u →
      let v := u.flushSeen s.cur x.pa (amoBytes w)
      let holds := match (v.ctx s.cur).resv with
        | some r => decide (r.ea = s.here.rx a) && decide (r.w = amoBytes w)
        | none => false
      let r := v.modCtx s.cur fun k => { k with resv := none }
      exec (.stc d a b sc o w) s = .next (((if holds = true then
          r.writeHome s.cur x.pa (bytesOf (s.here.rx b).toNat (amoBytes w)) (writeShared (s.agent s.cur) x) (s.did s.cur)
        else (r.homeUse s.cur false x.pa (amoBytes w)).leaveHome s.cur x.pa (amoBytes w)).retireX s.cur d
          (if holds = true then 0 else 1)).awaitReply s.cur))

/-! Vector arithmetic. -/

/-- The vector instruction `i` takes each active element (r, j) of group d to `op` of the elements of group a, of operand b and
of group d (R158, R159), with the flags that `op` raises. -/
def MapsElements (i : Instr) (d a : Nat) (b : Ctx → BSrc) (m : Nat) (old : Bool) (bad : VCfg → Bool)
    (op : VCfg → Nat → Nat → Nat → Nat × BitVec 5) : Prop :=
  VecActs i (fun w q k => mapOp w q.g d a (b k) old (bad q)) (fun k => mapEff d a (b k) m op)

/-- An integer element operation without flags, whose result is taken modulo 2^w. -/
def MapsInt (i : Instr) (d a : BitVec 5) (b : Ctx → BSrc) (m : BitVec 3) (op : Nat → Nat → Nat → Nat) : Prop :=
  MapsElements i d.toNat a.toNat b m.toNat false (fun _ => false) fun q x y _ => (op q.w x y, 0)

/-- The b operand of the V, X and I forms (R154, R158). -/
def srcV (b : BitVec 5) (l : BitVec 1) (k : Ctx) : BSrc := .v (if l = 1 then k.latch.toNat else b.toNat)
/-- The X form reads x[b]. -/
def srcX (b : BitVec 5) (k : Ctx) : BSrc := .k (k.rx b).toNat
/-- The F form reads f[b]. -/
def srcF (b : BitVec 5) (k : Ctx) : BSrc := .k (k.rf b).toNat
/-- The I form sign-extends its immediate. -/
def srcI (i : BitVec 5) (_ : Ctx) : BSrc := .k (i.signExtend 64).toNat
/-- The shifts zero-extend theirs. -/
def srcU (i : BitVec 5) (_ : Ctx) : BSrc := .k i.toNat

/-- R163: addition, subtraction, multiplication and division of elements. -/
def VectorArithmeticClaims : Prop :=
  ∀ (d a b : BitVec 5) (m : BitVec 3) (l : BitVec 1),
    (MapsInt (.vaddV d a b m l) d a (srcV b l) m (fun _ x y => x + y) ∧
     MapsInt (.vaddX d a b m) d a (srcX b) m (fun _ x y => x + y) ∧
     MapsInt (.vaddI d a b m) d a (srcI b) m (fun _ x y => x + y)) ∧
    (MapsInt (.vsubV d a b m l) d a (srcV b l) m (fun w x y => x + 2 ^ w - y) ∧
     MapsInt (.vsubX d a b m) d a (srcX b) m (fun w x y => x + 2 ^ w - y) ∧
     MapsInt (.vsubI d a b m) d a (srcI b) m (fun w x y => x + 2 ^ w - y)) ∧
    (MapsInt (.vrsubV d a b m l) d a (srcV b l) m (fun w x y => y + 2 ^ w - x) ∧
     MapsInt (.vrsubX d a b m) d a (srcX b) m (fun w x y => y + 2 ^ w - x) ∧
     MapsInt (.vrsubI d a b m) d a (srcI b) m (fun w x y => y + 2 ^ w - x)) ∧
    (MapsInt (.vmulV d a b m l) d a (srcV b l) m (fun _ x y => x * y) ∧
     MapsInt (.vmulX d a b m) d a (srcX b) m (fun _ x y => x * y)) ∧
    (MapsInt (.vmulhV d a b m l) d a (srcV b l) m (fun w x y => wrap w (toSigned w x * toSigned w y / (2 ^ w : Nat))) ∧
     MapsInt (.vmulhX d a b m) d a (srcX b) m (fun w x y => wrap w (toSigned w x * toSigned w y / (2 ^ w : Nat)))) ∧
    (MapsInt (.vmulhuV d a b m l) d a (srcV b l) m (fun w x y => x * y / 2 ^ w) ∧
     MapsInt (.vmulhuX d a b m) d a (srcX b) m (fun w x y => x * y / 2 ^ w)) ∧
    (MapsInt (.vdivV d a b m l) d a (srcV b l) m vDiv ∧ MapsInt (.vdivX d a b m) d a (srcX b) m vDiv) ∧
    (MapsInt (.vdivuV d a b m l) d a (srcV b l) m vDivu ∧ MapsInt (.vdivuX d a b m) d a (srcX b) m vDivu) ∧
    (MapsInt (.vremV d a b m l) d a (srcV b l) m vRem ∧ MapsInt (.vremX d a b m) d a (srcX b) m vRem) ∧
    (MapsInt (.vremuV d a b m l) d a (srcV b l) m (fun _ x y => if y = 0 then x else x % y) ∧
     MapsInt (.vremuX d a b m) d a (srcX b) m (fun _ x y => if y = 0 then x else x % y)) ∧
    (MapsInt (.vpopc d a m) d a (fun _ => .k 0) m (fun w x _ => popcount x w) ∧
     MapsInt (.vclz d a m) d a (fun _ => .k 0) m (fun w x _ => clz w x))

/-- R163-R165: minima and maxima, bitwise operations, shifts and saturating sums of elements. -/
def VectorLogicClaims : Prop :=
  ∀ (d a b : BitVec 5) (m : BitVec 3) (l : BitVec 1),
    (MapsInt (.vminV d a b m l) d a (srcV b l) m (fun w x y => if toSigned w y < toSigned w x then y else x) ∧
     MapsInt (.vminX d a b m) d a (srcX b) m (fun w x y => if toSigned w y < toSigned w x then y else x) ∧
     MapsInt (.vminI d a b m) d a (srcI b) m (fun w x y => if toSigned w y < toSigned w x then y else x)) ∧
    (MapsInt (.vmaxV d a b m l) d a (srcV b l) m (fun w x y => if toSigned w x < toSigned w y then y else x) ∧
     MapsInt (.vmaxX d a b m) d a (srcX b) m (fun w x y => if toSigned w x < toSigned w y then y else x) ∧
     MapsInt (.vmaxI d a b m) d a (srcI b) m (fun w x y => if toSigned w x < toSigned w y then y else x)) ∧
    (MapsInt (.vminuV d a b m l) d a (srcV b l) m (fun _ x y => min x y) ∧
     MapsInt (.vminuX d a b m) d a (srcX b) m (fun _ x y => min x y) ∧
     MapsInt (.vminuI d a b m) d a (srcI b) m (fun _ x y => min x y)) ∧
    (MapsInt (.vmaxuV d a b m l) d a (srcV b l) m (fun _ x y => max x y) ∧
     MapsInt (.vmaxuX d a b m) d a (srcX b) m (fun _ x y => max x y) ∧
     MapsInt (.vmaxuI d a b m) d a (srcI b) m (fun _ x y => max x y)) ∧
    (MapsInt (.vandV d a b m l) d a (srcV b l) m (fun _ x y => x &&& y) ∧
     MapsInt (.vandX d a b m) d a (srcX b) m (fun _ x y => x &&& y) ∧
     MapsInt (.vandI d a b m) d a (srcI b) m (fun _ x y => x &&& y)) ∧
    (MapsInt (.vorV d a b m l) d a (srcV b l) m (fun _ x y => x ||| y) ∧
     MapsInt (.vorX d a b m) d a (srcX b) m (fun _ x y => x ||| y) ∧
     MapsInt (.vorI d a b m) d a (srcI b) m (fun _ x y => x ||| y)) ∧
    (MapsInt (.vxorV d a b m l) d a (srcV b l) m (fun _ x y => x ^^^ y) ∧
     MapsInt (.vxorX d a b m) d a (srcX b) m (fun _ x y => x ^^^ y) ∧
     MapsInt (.vxorI d a b m) d a (srcI b) m (fun _ x y => x ^^^ y)) ∧
    (MapsInt (.vsllV d a b m l) d a (srcV b l) m (fun w x y => x * 2 ^ (y % w)) ∧
     MapsInt (.vsllX d a b m) d a (srcX b) m (fun w x y => x * 2 ^ (y % w)) ∧
     MapsInt (.vsllI d a b m) d a (srcU b) m (fun w x y => x * 2 ^ (y % w))) ∧
    (MapsInt (.vsrlV d a b m l) d a (srcV b l) m (fun w x y => x / 2 ^ (y % w)) ∧
     MapsInt (.vsrlX d a b m) d a (srcX b) m (fun w x y => x / 2 ^ (y % w)) ∧
     MapsInt (.vsrlI d a b m) d a (srcU b) m (fun w x y => x / 2 ^ (y % w))) ∧
    (MapsInt (.vsraV d a b m l) d a (srcV b l) m (fun w x y => wrap w (toSigned w x / (2 ^ (y % w) : Nat))) ∧
     MapsInt (.vsraX d a b m) d a (srcX b) m (fun w x y => wrap w (toSigned w x / (2 ^ (y % w) : Nat))) ∧
     MapsInt (.vsraI d a b m) d a (srcU b) m (fun w x y => wrap w (toSigned w x / (2 ^ (y % w) : Nat)))) ∧
    (MapsInt (.vsaddV d a b m l) d a (srcV b l) m (fun w x y => clipS w (toSigned w x + toSigned w y)) ∧
     MapsInt (.vsaddX d a b m) d a (srcX b) m (fun w x y => clipS w (toSigned w x + toSigned w y)) ∧
     MapsInt (.vsaddI d a b m) d a (srcI b) m (fun w x y => clipS w (toSigned w x + toSigned w y))) ∧
    (MapsInt (.vssubV d a b m l) d a (srcV b l) m (fun w x y => clipS w (toSigned w x - toSigned w y)) ∧
     MapsInt (.vssubX d a b m) d a (srcX b) m (fun w x y => clipS w (toSigned w x - toSigned w y)) ∧
     MapsInt (.vssubI d a b m) d a (srcI b) m (fun w x y => clipS w (toSigned w x - toSigned w y)))

/-- A comparison of elements into mask register d (R159, R170). -/
def ComparesElements (i : Instr) (d a : Nat) (b : Ctx → BSrc) (m : Nat) (bad : VCfg → Bool)
    (op : VCfg → Nat → Nat → Nat × BitVec 5) : Prop :=
  VecActs i (fun w q k => compareOp w q.g a (b k) (bad q)) (fun k => compareEff d a (b k) m op)

/-- A comparison of integers: 1 where `rel` holds of the elements of w bits. -/
def ComparesInt (i : Instr) (d a : BitVec 5) (b : Ctx → BSrc) (m : BitVec 3) (rel : Nat → Nat → Nat → Bool) : Prop :=
  ComparesElements i d.toNat a.toNat b m.toNat (fun _ => false) fun q x y => (if rel q.w x y then 1 else 0, 0)

/-- R170: comparisons of integer elements. -/
def VectorCompareClaims : Prop :=
  ∀ (d a b : BitVec 5) (m : BitVec 3) (l : BitVec 1),
    (ComparesInt (.vseqV d a b m l) d a (srcV b l) m (fun _ x y => decide (x = y)) ∧
     ComparesInt (.vseqX d a b m) d a (srcX b) m (fun _ x y => decide (x = y)) ∧
     ComparesInt (.vseqI d a b m) d a (srcI b) m (fun _ x y => decide (x = y))) ∧
    (ComparesInt (.vsneV d a b m l) d a (srcV b l) m (fun _ x y => decide (x ≠ y)) ∧
     ComparesInt (.vsneX d a b m) d a (srcX b) m (fun _ x y => decide (x ≠ y)) ∧
     ComparesInt (.vsneI d a b m) d a (srcI b) m (fun _ x y => decide (x ≠ y))) ∧
    (ComparesInt (.vsltV d a b m l) d a (srcV b l) m (fun w x y => decide (toSigned w x < toSigned w y)) ∧
     ComparesInt (.vsltX d a b m) d a (srcX b) m (fun w x y => decide (toSigned w x < toSigned w y)) ∧
     ComparesInt (.vsltI d a b m) d a (srcI b) m (fun w x y => decide (toSigned w x < toSigned w y))) ∧
    (ComparesInt (.vsltuV d a b m l) d a (srcV b l) m (fun _ x y => decide (x < y)) ∧
     ComparesInt (.vsltuX d a b m) d a (srcX b) m (fun _ x y => decide (x < y)) ∧
     ComparesInt (.vsltuI d a b m) d a (srcI b) m (fun _ x y => decide (x < y))) ∧
    (ComparesInt (.vsleV d a b m l) d a (srcV b l) m (fun w x y => decide (toSigned w x ≤ toSigned w y)) ∧
     ComparesInt (.vsleX d a b m) d a (srcX b) m (fun w x y => decide (toSigned w x ≤ toSigned w y)) ∧
     ComparesInt (.vsleI d a b m) d a (srcI b) m (fun w x y => decide (toSigned w x ≤ toSigned w y))) ∧
    (ComparesInt (.vsleuV d a b m l) d a (srcV b l) m (fun _ x y => decide (x ≤ y)) ∧
     ComparesInt (.vsleuX d a b m) d a (srcX b) m (fun _ x y => decide (x ≤ y)) ∧
     ComparesInt (.vsleuI d a b m) d a (srcI b) m (fun _ x y => decide (x ≤ y))) ∧
    (ComparesInt (.vsgtV d a b m l) d a (srcV b l) m (fun w x y => decide (toSigned w y < toSigned w x)) ∧
     ComparesInt (.vsgtX d a b m) d a (srcX b) m (fun w x y => decide (toSigned w y < toSigned w x)) ∧
     ComparesInt (.vsgtI d a b m) d a (srcI b) m (fun w x y => decide (toSigned w y < toSigned w x))) ∧
    (ComparesInt (.vsgtuV d a b m l) d a (srcV b l) m (fun _ x y => decide (y < x)) ∧
     ComparesInt (.vsgtuX d a b m) d a (srcX b) m (fun _ x y => decide (y < x)) ∧
     ComparesInt (.vsgtuI d a b m) d a (srcI b) m (fun _ x y => decide (y < x)))

/-- A widening operation (R167): positions of 2w bits in a group of twice the factor, accumulated if `acc`. -/
def Widens (i : Instr) (d a : BitVec 5) (b : Ctx → BSrc) (m : BitVec 3) (acc : Bool) (op : Nat → Nat → Nat → Int) : Prop :=
  VecActs i (fun w q k => wideOp w q d.toNat a.toNat (b k) acc) (fun k => wideEff d.toNat a.toNat (b k) m.toNat acc op)

/-- A narrowing clip (R168). -/
def Narrows (i : Instr) (d a : BitVec 5) (b : Ctx → BSrc) (m : BitVec 3) : Prop :=
  VecActs i (fun w q k => narrowOp w q d.toNat a.toNat (b k)) (fun k => narrowEff d.toNat a.toNat (b k) m.toNat)

/-- A merge under a mask (R164). -/
def Merges (i : Instr) (d a : BitVec 5) (b : Ctx → BSrc) (m : BitVec 3) : Prop :=
  VecActs i (fun w q k => mapOp w q.g d.toNat a.toNat (b k) false false) (fun k => mergeEff d.toNat a.toNat (b k) m.toNat)

/-- A move of the b operand (R163). -/
def MovesElements (i : Instr) (d : BitVec 5) (b : Ctx → BSrc) (m : BitVec 3) : Prop :=
  VecActs i (fun w q k => moveOp w q.g d.toNat (b k)) (fun k => moveEff d.toNat (b k) m.toNat)

/-- R163-R171: widening and narrowing, funnel shifts, merges, moves, conflicts and three-input lookups. -/
def VectorWideClaims : Prop :=
  ∀ (d a b : BitVec 5) (m t : BitVec 3) (l : BitVec 1) (u : BitVec 5),
    (Widens (.vwmulV d a b m l) d a (srcV b l) m false (fun w x y => toSigned w x * toSigned w y) ∧
     Widens (.vwmulX d a b m) d a (srcX b) m false (fun w x y => toSigned w x * toSigned w y)) ∧
    (Widens (.vwmaccV d a b m l) d a (srcV b l) m true (fun w x y => toSigned w x * toSigned w y) ∧
     Widens (.vwmaccX d a b m) d a (srcX b) m true (fun w x y => toSigned w x * toSigned w y)) ∧
    (Widens (.vwmaccuV d a b m l) d a (srcV b l) m true (fun _ x y => (x : Int) * y) ∧
     Widens (.vwmaccuX d a b m) d a (srcX b) m true (fun _ x y => (x : Int) * y)) ∧
    (Widens (.vwmaccsuV d a b m l) d a (srcV b l) m true (fun w x y => toSigned w x * y) ∧
     Widens (.vwmaccsuX d a b m) d a (srcX b) m true (fun w x y => toSigned w x * y)) ∧
    (Narrows (.vnclipV d a b m l) d a (srcV b l) m ∧ Narrows (.vnclipX d a b m) d a (srcX b) m ∧
     Narrows (.vnclipI d a b m) d a (srcU b) m) ∧
    (MapsElements (.vfshlV d a b m l) d.toNat a.toNat (srcV b l) m.toNat true (fun _ => false)
      (fun q x y z => (vFshl q.w x y z, 0)) ∧
     MapsElements (.vfshlX d a b m) d.toNat a.toNat (srcX b) m.toNat true (fun _ => false)
      (fun q x y z => (vFshl q.w x y z, 0)) ∧
     MapsElements (.vfshlI d a b m) d.toNat a.toNat (srcU b) m.toNat true (fun _ => false)
      (fun q x y z => (vFshl q.w x y z, 0)) ∧
     MapsElements (.vfshrV d a b m l) d.toNat a.toNat (srcV b l) m.toNat true (fun _ => false)
      (fun q x y z => (vFshr q.w x y z, 0)) ∧
     MapsElements (.vfshrX d a b m) d.toNat a.toNat (srcX b) m.toNat true (fun _ => false)
      (fun q x y z => (vFshr q.w x y z, 0)) ∧
     MapsElements (.vfshrI d a b m) d.toNat a.toNat (srcU b) m.toNat true (fun _ => false)
      (fun q x y z => (vFshr q.w x y z, 0))) ∧
    (Merges (.vmergeV d a b m l) d a (srcV b l) m ∧ Merges (.vmergeX d a b m) d a (srcX b) m ∧
     Merges (.vmergeI d a b m) d a (srcI b) m) ∧
    (MovesElements (.vmovV d b m l) d (srcV b l) m ∧ MovesElements (.vmovX d b m) d (srcX b) m ∧
     MovesElements (.vmovI d b m) d (srcI b) m) ∧
    VecActs (.vconf d a) (fun w q _ => confOp w q.g a.toNat) (fun _ => confEff d.toNat a.toNat) ∧
    MapsElements (.vlut3 d a b t l u) d.toNat a.toNat (srcV b l) 0 true (fun _ => false)
      (fun q x y z => (vLut3 (t ++ u).toNat x y z q.w, 0))

/-- A row reduction into element 0 (R60, R172); `leaf` is what a row with one element gives, which is made
canonical as the result of a node is: the model's reading (log entry 52). -/
def Reduces (i : Instr) (d a : BitVec 5) (m : BitVec 3) (bad : VCfg → Bool) (pad : VCfg → Nat)
    (leaf : VCfg → Nat → Nat × BitVec 5) (node : VCfg → Nat → Nat → Nat × BitVec 5) : Prop :=
  VecActs i (fun w q _ => reduceOp w q.g d.toNat a.toNat (bad q)) (fun _ => reduceEff d.toNat a.toNat m.toNat pad leaf node)

/-- An integer reduction (R172), which raises no flag. -/
def ReducesInt (i : Instr) (d a : BitVec 5) (m : BitVec 3) (pad : Nat → Nat) (node : Nat → Nat → Nat → Nat) : Prop :=
  Reduces i d a m (fun _ => false) (fun q => pad q.w) (fun _ x => (x, 0)) fun q x y => (node q.w x y, 0)

/-- R60, R172, R178: row reductions with their pads. -/
def VectorReductionClaims : Prop :=
  ∀ (d a : BitVec 5) (m : BitVec 3),
    ReducesInt (.vredsum d a m) d a m (fun _ => 0) (fun w x y => (x + y) % 2 ^ w) ∧
    ReducesInt (.vredmax d a m) d a m (fun w => 2 ^ (w - 1)) (fun w x y => if toSigned w x < toSigned w y then y else x) ∧
    ReducesInt (.vredmin d a m) d a m (fun w => 2 ^ (w - 1) - 1) (fun w x y => if toSigned w y < toSigned w x then y else x) ∧
    ReducesInt (.vredmaxu d a m) d a m (fun _ => 0) (fun _ x y => max x y) ∧
    ReducesInt (.vredminu d a m) d a m (fun w => 2 ^ w - 1) (fun _ x y => min x y) ∧
    ReducesInt (.vredand d a m) d a m (fun w => 2 ^ w - 1) (fun _ x y => x &&& y) ∧
    ReducesInt (.vredor d a m) d a m (fun _ => 0) (fun _ x y => x ||| y) ∧
    ReducesInt (.vredxor d a m) d a m (fun _ => 0) (fun _ x y => x ^^^ y) ∧
    Reduces (.vfredsum d a m) d a m nfMisfit (fun _ => 0) VCfg.leaf (fun q x y => q.out (fAdd q.rm (q.fv x) (q.fv y))) ∧
    Reduces (.vfredmax d a m) d a m nfMisfit redMaxPad VCfg.leaf redMax

/-- A floating-point element operation in the format of FORM (R173): it rounds once and raises its flags. -/
def MapsFloat (i : Instr) (d a : BitVec 5) (b : Ctx → BSrc) (m : BitVec 3) (old : Bool)
    (op : VCfg → FVal → FVal → FVal → FVal × BitVec 5) : Prop :=
  MapsElements i d.toNat a.toNat b m.toNat old nfMisfit fun q x y z => q.out (op q (q.fv x) (q.fv y) (q.fv z))

/-- A floating-point comparison (R170, R173): a NaN gives 0. -/
def ComparesFloat (i : Instr) (d a : BitVec 5) (b : Ctx → BSrc) (m : BitVec 3) (quiet : Bool)
    (rel : FVal → FVal → Bool) : Prop :=
  ComparesElements i d.toNat a.toNat b m.toNat nfMisfit fun q x y =>
    ((fCompare quiet rel (q.fv x) (q.fv y)).1.toNat, (fCompare quiet rel (q.fv x) (q.fv y)).2)

/-- R173, R174, R61, R62: vector floating point. -/
def VectorFloatClaims : Prop :=
  ∀ (d a b : BitVec 5) (m : BitVec 3) (l : BitVec 1),
    (MapsFloat (.vfaddV d a b m l) d a (srcV b l) m false (fun q x y _ => fAdd q.rm x y) ∧
     MapsFloat (.vfaddF d a b m) d a (srcF b) m false (fun q x y _ => fAdd q.rm x y)) ∧
    (MapsFloat (.vfsubV d a b m l) d a (srcV b l) m false (fun q x y _ => fAdd q.rm x y.neg) ∧
     MapsFloat (.vfsubF d a b m) d a (srcF b) m false (fun q x y _ => fAdd q.rm x y.neg)) ∧
    (MapsFloat (.vfmulV d a b m l) d a (srcV b l) m false (fun _ x y _ => fMul x y) ∧
     MapsFloat (.vfmulF d a b m) d a (srcF b) m false (fun _ x y _ => fMul x y)) ∧
    (MapsFloat (.vfdivV d a b m l) d a (srcV b l) m false (fun _ x y _ => fDiv x y) ∧
     MapsFloat (.vfdivF d a b m) d a (srcF b) m false (fun _ x y _ => fDiv x y)) ∧
    MapsFloat (.vfsqrt d a m) d a (fun _ => .k 0) m false (fun _ x _ _ => fSqrt x) ∧
    (MapsFloat (.vfmaV d a b m l) d a (srcV b l) m true (fun q x y z => fFma q.rm false false x y z) ∧
     MapsFloat (.vfmaF d a b m) d a (srcF b) m true (fun q x y z => fFma q.rm false false x y z)) ∧
    (MapsFloat (.vfnmaV d a b m l) d a (srcV b l) m true (fun q x y z => fFma q.rm true false x y z) ∧
     MapsFloat (.vfnmaF d a b m) d a (srcF b) m true (fun q x y z => fFma q.rm true false x y z)) ∧
    (MapsElements (.vfminV d a b m l) d.toNat a.toNat (srcV b l) m.toNat false nfMisfit
      (fun q x y _ => (fmtOf q.nf).minMax false x y) ∧
     MapsElements (.vfminF d a b m) d.toNat a.toNat (srcF b) m.toNat false nfMisfit
      (fun q x y _ => (fmtOf q.nf).minMax false x y)) ∧
    (MapsElements (.vfmaxV d a b m l) d.toNat a.toNat (srcV b l) m.toNat false nfMisfit
      (fun q x y _ => (fmtOf q.nf).minMax true x y) ∧
     MapsElements (.vfmaxF d a b m) d.toNat a.toNat (srcF b) m.toNat false nfMisfit
      (fun q x y _ => (fmtOf q.nf).minMax true x y)) ∧
    (MapsElements (.vfexp2 d a m) d.toNat a.toNat (fun _ => .k 0) m.toNat false specialMisfit
      (fun q x _ _ => q.out (fExp2 (q.fv x))) ∧
     MapsElements (.vflog2 d a m) d.toNat a.toNat (fun _ => .k 0) m.toNat false specialMisfit
      (fun q x _ _ => q.out (fLog2 (q.fv x))) ∧
     MapsElements (.vfrcp d a m) d.toNat a.toNat (fun _ => .k 0) m.toNat false specialMisfit
      (fun q x _ _ => q.out (fRcp (q.fv x))) ∧
     MapsElements (.vfrsq d a m) d.toNat a.toNat (fun _ => .k 0) m.toNat false specialMisfit
      (fun q x _ _ => q.out (fRsq (q.fv x)))) ∧
    (ComparesFloat (.vfeqV d a b m l) d a (srcV b l) m true fEqNum ∧
     ComparesFloat (.vfeqF d a b m) d a (srcF b) m true fEqNum) ∧
    (ComparesFloat (.vfltV d a b m l) d a (srcV b l) m false fLtNum ∧
     ComparesFloat (.vfltF d a b m) d a (srcF b) m false fLtNum) ∧
    (ComparesFloat (.vfleV d a b m l) d a (srcV b l) m false (fun x y => !fLtNum y x) ∧
     ComparesFloat (.vfleF d a b m) d a (srcF b) m false (fun x y => !fLtNum y x)) ∧
    (ComparesFloat (.vfgtV d a b m l) d a (srcV b l) m false (fun x y => fLtNum y x) ∧
     ComparesFloat (.vfgtF d a b m) d a (srcF b) m false (fun x y => fLtNum y x)) ∧
    (ComparesFloat (.vfgeV d a b m l) d a (srcV b l) m false (fun x y => !fLtNum x y) ∧
     ComparesFloat (.vfgeF d a b m) d a (srcF b) m false (fun x y => !fLtNum x y))

/-- A conversion between FORM's format and the coded one (R175-R177). -/
def Converts (i : Instr) (d a c : BitVec 5) (m : BitVec 3) (toCoded : Bool)
    (op : VCfg → Nat → Nat → Nat × BitVec 5) : Prop :=
  VecActs i (fun w q _ => convertOp w q d.toNat a.toNat c.toNat toCoded)
    (fun _ => convertEff d.toNat a.toNat c.toNat m.toNat toCoded op)

/-- R175-R177: vector conversions. -/
def VectorConvertClaims : Prop :=
  ∀ (d a c : BitVec 5) (m : BitVec 3),
    Converts (.vfcvt d a c m) d a c m true cvtTo ∧ Converts (.vfpack d a c m) d a c m true cvtTo ∧
    Converts (.vfunpack d a c m) d a c m false cvtFrom ∧ Converts (.vfcvti d a c m) d a c m true cvtToInt ∧
    Converts (.vicvtf d a c m) d a c m false cvtFromInt

/-! Vector masks and permutations. -/

/-- A permutation of group d from the groups of `srcs` (R204-R208). -/
def Permutes (i : Instr) (d : BitVec 5) (srcs : Ctx → List Nat) (apart : Bool)
    (f : Ctx → VCfg → Ctx → Nat → Nat → Option (Nat × BitVec 5)) : Prop :=
  VecActs i (fun w q k => permOp w q.g d.toNat (srcs k) apart) (fun k => permEff d.toNat (f k))

/-- What an element becomes without a flag. -/
def el (x : Nat) : Nat × BitVec 5 := (x, 0)

/-- R202-R209: masks and permutations. -/
def VectorPermuteClaims : Prop :=
  ∀ (d a b : BitVec 5) (m n : BitVec 3) (l : BitVec 1),
    VecActs (.mand d a b) (fun w _ _ => maskOp w) (fun _ => maskEff d.toNat a.toNat b.toNat fun x y => x && y) ∧
    VecActs (.mor d a b) (fun w _ _ => maskOp w) (fun _ => maskEff d.toNat a.toNat b.toNat fun x y => x || y) ∧
    VecActs (.mxor d a b) (fun w _ _ => maskOp w) (fun _ => maskEff d.toNat a.toNat b.toNat fun x y => xor x y) ∧
    VecActs (.mnot d a) (fun w _ _ => maskOp w) (fun _ => maskEff d.toNat a.toNat 0 fun x _ => !x) ∧
    Permutes (.iota d a) d (fun _ => []) false (fun _ q k r j => k.fate q 0 (fun r j =>
      el (popcount ((k.mrow a.toNat r).toNat % 2 ^ j) j)) r j) ∧
    Permutes (.vid d) d (fun _ => []) false (fun _ q k r j => k.fate q 0 (fun _ j => el j) r j) ∧
    (∀ off : Ctx → Nat, ∀ i : Instr, (i = .slideupX d a b m ∧ off = fun k => (k.rx b).toNat) ∨
        (i = .slideupI d a b m ∧ off = fun _ => b.toNat) →
      Permutes i d (fun _ => [a.toNat]) true (fun k0 q k r j =>
        if j < q.vl ∧ k.maskBit m.toNat r j = true ∧ j < off k0 then none
        else k.fate q m.toNat (fun r j => el (k.at q a.toNat r (j - off k0))) r j)) ∧
    (∀ off : Ctx → Nat, ∀ i : Instr, (i = .slidednX d a b m ∧ off = fun k => (k.rx b).toNat) ∨
        (i = .slidednI d a b m ∧ off = fun _ => b.toNat) →
      Permutes i d (fun _ => [a.toNat]) true (fun k0 q k r j =>
        k.fate q m.toNat (fun r j => el (if j + off k0 < q.vl then k.at q a.toNat r (j + off k0) else 0)) r j)) ∧
    Permutes (.vgather d a b m l) d (fun k => [a.toNat, if l = 1 then k.latch.toNat else b.toNat]) true
      (fun k0 q k r j => k.fate q m.toNat (fun r j =>
        el (let x := k.at q (if l = 1 then k0.latch.toNat else b.toNat) r j
            if x < q.vl then k.at q a.toNat r x else 0)) r j) ∧
    Permutes (.compress d a m) d (fun _ => [a.toNat]) true (fun _ q k r j =>
      match ((upFrom 0 q.vl).filter fun j => (k.mrow m.toNat r).getLsbD j)[j]? with
      | some x => some (el (k.at q a.toNat r x))
      | none => if q.tz ∧ q.vl ≠ 0 then some (0, 0) else none) ∧
    Permutes (.expand d a m) d (fun _ => [a.toNat]) true (fun _ q k r j => k.fate q m.toNat (fun r j =>
      el (k.at q a.toNat r (popcount ((k.mrow m.toNat r).toNat % 2 ^ j) j))) r j) ∧
    Permutes (.rowbcX d a b m) d (fun _ => [a.toNat]) true (fun k0 q k r j =>
      k.fate q m.toNat (fun _ j => el (k.at q a.toNat ((k0.rx b).toNat % 8) j)) r j) ∧
    Permutes (.rowbcI d a n m) d (fun _ => [a.toNat]) true (fun _ q k r j =>
      k.fate q m.toNat (fun _ j => el (k.at q a.toNat n.toNat j)) r j) ∧
    Permutes (.rowrotX d a b m) d (fun _ => [a.toNat]) true (fun k0 q k r j =>
      k.fate q m.toNat (fun r j => el (k.at q a.toNat ((r + (k0.rx b).toNat % 8) % q.rows) j)) r j) ∧
    Permutes (.rowrotI d a n m) d (fun _ => [a.toNat]) true (fun _ q k r j =>
      k.fate q m.toNat (fun r j => el (k.at q a.toNat ((r + n.toNat) % q.rows) j)) r j) ∧
    VecActs (.vmvs d a b) (fun w q _ => permOp w q.g d.toNat [] false) (fun k0 q k =>
      k.sweepGroup q d.toNat q.g q.w q.vlmax 8 fun r j =>
        if r = bits (k0.rx b) 18 16 ∧ j = bits (k0.rx b) 12 0 then some (el (k0.rx a).toNat) else none)

/-- R203, R209: the vector instructions with a scalar result. -/
def VectorScalarClaims : Prop :=
  ∀ (d a b : BitVec 5),
    VecWritesX (.mpopc d a) d (fun w _ _ => maskOp w) (fun _ q k => BitVec.ofNat 64 (k.maskOnes q a.toNat).length) ∧
    VecWritesX (.mfirst d a) d (fun w _ _ => maskOp w) (fun _ q k =>
      match (k.maskOnes q a.toNat).head? with
      | some p => BitVec.ofNat 64 p
      | none => BitVec.allOnes 64) ∧
    VecWritesX (.vmvx d a b) d
      (fun w q _ => { word := w, srcs := [(a.toNat, q.g)], dst := none, form := [(a.toNat, q.g)], old := false,
                      formBad := false, overlap := false })
      (fun k0 q k => if bits (k0.rx b) 12 0 < q.vlmax then
        BitVec.ofInt 64 (toSigned q.w (k.at q a.toNat (bits (k0.rx b) 18 16) (bits (k0.rx b) 12 0))) else 0)

/-- Element j of row r of the group of `g` registers from n, at w bits (R134). -/
def Ctx.element (k : Ctx) (q : VCfg) (n g w r j : Nat) : Nat := elem (k.groupRow q.rb n g r) w j

/-- R134, R138, R159: a sweep over a group leaves at every position below `cols` of a row below `rows` what `f` says, or the
old element where `f` says nothing, and no element of another row or of another register. -/
def SweepClaims : Prop :=
  ∀ (k : Ctx) (q : VCfg) (n g w cols rows : Nat) (f : Nat → Nat → Option (Nat × BitVec 5)),
    rows ≤ 8 → n + g ≤ 32 → 8 * q.rb ≤ 8192 → 0 < w → 8 * q.rb % w = 0 → w * cols ≤ 8 * q.rb * g →
    let t := (k.sweepGroup q n g w cols rows f).1
    (∀ r j, r < rows → j < cols → t.element q n g w r j = match f r j with
      | some x => x.1 % 2 ^ w
      | none => k.element q n g w r j) ∧
    (∀ r i, rows ≤ r → r < 8 → i < 32 → t.vreg i r = k.vreg i r) ∧
    (∀ r i, r < 8 → i < n ∨ n + g ≤ i → i < 32 → t.vreg i r = k.vreg i r) ∧
    t.x = k.x ∧ t.f = k.f ∧ t.m = k.m ∧ t.pc = k.pc ∧ t.fstat = k.fstat ∧ t.vl = k.vl ∧ t.vrows = k.vrows

/-- R137, R159, R30: the fate of a position: active, masked off, or beyond VL; with VL = 0 nothing is written. -/
def FateClaims : Prop :=
  ∀ (k : Ctx) (q : VCfg) (mk : Nat) (op : Nat → Nat → Nat × BitVec 5) (r j : Nat),
    (j < q.vl → (mk = 0 ∨ (k.mrow mk r).getLsbD j = true) → k.fate q mk op r j = some (op r j)) ∧
    (j < q.vl → mk ≠ 0 → (k.mrow mk r).getLsbD j = false →
      k.fate q mk op r j = if q.mz then some (0, 0) else none) ∧
    (q.vl ≤ j → q.vl ≠ 0 → k.fate q mk op r j = if q.tz then some (0, 0) else none) ∧
    (q.vl = 0 → k.fate q mk op r j = none)

/-! Vector memory. -/

/-- A vector memory instruction passes its checks at issue (R160, R184): operands that fit, none bound to a stream, room in
the queue. -/
def State.memPasses (s : State) (c : CtxId) (o : VOp) : Bool :=
  !s.formMismatch c ((s.ctx c).vcfg (physLanes (coreOf c))) o &&
    !((o.srcs ++ o.dst.toList).any fun p => ((s.ctx c).boundTo p.1).isSome) && !s.registerOverlap c o &&
    decide ((s.ctx c).vq.length < Config.vectorQueueDepth)

/-- The check of each active position, in row order (R185). -/
def State.positionChecks (s : State) (c : CtxId) (q : VCfg) (mk : Nat) (chk : Nat → Nat → Option Trap) :
    List ((Nat × Nat) × Option Trap) := ((s.ctx c).activePos q mk).map fun p => (p, chk p.1 p.2)

/-- The check of a position of a vector access (R119, R185). -/
def State.checkAt (s : State) (c : CtxId) (q : VCfg) (kind : AccKind) (addr : Nat → Nat → Word) (r j : Nat) : Option Trap :=
  match s.checkVec (s.agent c) kind (addr r j) q.e with
  | .error t => some t
  | .ok _ => none

/-- The index from which first-fault truncation cuts the access (R186): VL where no position fails. -/
def cutIndex (res : List ((Nat × Nat) × Option Trap)) (vl : Nat) : Nat := (firstBad res).getD vl

/-- The address rule of a vector access in modes 0-3 (R183), by context and configuration. -/
abbrev AddrRule := Ctx → VCfg → Nat → Nat → Word

/-- The positions below the cut `n` that pass their check, with their accesses. -/
def State.positionAccs (s : State) (c : CtxId) (q : VCfg) (kind : AccKind) (mk : Nat) (addr : Nat → Nat → Word) (n : Nat) :
    List ((Nat × Nat) × Access) :=
  ((s.ctx c).activePos q mk).filterMap fun p => if p.2 < n then
    (match s.checkVec (s.agent c) kind (addr p.1 p.2) q.e with
     | .ok a => some (p, a)
     | .error _ => none) else none

/-- The vector access with operands `o` reaches memory (R119, R160, R184-R186): its checks at issue pass, the walks of its
active positions have read their tables, index 0 does not fail, and no link of a failing position retrains; then `oks` are the
accesses below the cut `n`, and `u` is the state with their translations cached. -/
def State.vecReaches (s : State) (c : CtxId) (o : VOp) (kind : AccKind) (mk : Nat) (addr : Nat → Nat → Word) (n : Nat)
    (oks : List ((Nat × Nat) × Access)) (u : State) : Prop :=
  let q := (s.ctx c).vcfg (physLanes (coreOf c))
  let vas := ((s.ctx c).activePos q mk).map fun p => addr p.1 p.2
  s.memPasses c o = true ∧ ∃ s0, (s.vecStart c).walkReady (s.agent c) vas q.e = some s0 ∧
    let res := s0.positionChecks c q mk (s0.checkAt c q kind addr)
    s0.vecWaits (s.agent c) kind (res.filterMap fun e => e.2) = false ∧ firstBad res ≠ some 0 ∧ n = cutIndex res q.vl ∧
    oks = s0.positionAccs c q kind mk addr n ∧ u = s0.fillTlbs (s.agent c) (oks.map fun e => (addr e.1.1 e.1.2, e.2))

/-- The load `i` (R181-R189): with its checks passed and index 0 not failing, every active position below the cut takes the
bytes that its context sees there, the others follow MZ and TZ, SHAPE is truncated at the cut, the latch names the group, and
the entry, which knows the bytes that it reads, is in its check phase. -/
def VecLoads (i : Instr) (d : BitVec 5) (m : BitVec 3) (ix : List Nat) (addr : AddrRule) : Prop :=
  ∀ (s u v w z : State) (n due : Nat) (oks : List ((Nat × Nat) × Access)), s.issues (encode i) = true →
    let c := s.cur
    let q := s.cfgHere
    let as := oks.map fun e => e.2
    let val (r j : Nat) : Nat := loadedAt (oks.map fun e => (e.1, z.viewAcc c e.2 q.e)) r j
    (s.issued (encode i)).vecReaches c
      { word := encode i, srcs := ix.map fun n => (n, q.g), dst := some (d.toNat, q.g),
        form := (d.toNat, q.g) :: ix.map fun n => (n, q.g), old := false, formBad := false,
        overlap := (ix.map fun n => (n, q.g)).any fun p => groupsMeet d.toNat q.g p.1 p.2 }
      .load m.toNat (addr s.here q) n oks u →
    u.readAccs c as = some v → v.accsReady c as [] [] 0 = (w, true) → w.hostReads c as q.e = (z, due) →
    s.errLines = [] → s.sramErrs = [] →
    (let r := ((z.takeReads c as q.e).farTaken c as).modCtx c fun k =>
       ((k.loadSweep q d.toNat m.toNat n val fun _ _ => false).truncated n).latched (upFrom d.toNat q.g)
     exec i s = .next (r.checkPhase c { (r.ctx c).entry q.rows 0 none [] (as.map fun a => (a.pa, q.e)) due with
       load := (z.ctx c).laterLoad d.toNat m.toNat n oks true }) ∧
     r.mem = s.mem ∧ r.pend = s.pend ∧ (r.ctx c).x = s.here.x ∧ (r.ctx c).f = s.here.f ∧ (r.ctx c).m = s.here.m ∧
     (r.ctx c).vl = min n s.here.vl ∧ (r.ctx c).tr = (s.here.tr || decide (n < s.here.vl))) ∧
    (∀ p a, (p, a) ∈ oks → val p.1 p.2 = z.viewAcc c a q.e)

/-- The store `i` (R181-R190): with its checks passed and index 0 not failing, the bytes of every active position below the
cut are on their way to memory, SHAPE is truncated at the cut, and the entry is in its check phase. -/
def VecStores (i : Instr) (d : BitVec 5) (m : BitVec 3) (ix : List Nat) (addr : AddrRule) : Prop :=
  ∀ (s u v : State) (n : Nat) (oks : List ((Nat × Nat) × Access)), s.issues (encode i) = true →
    let c := s.cur
    let q := s.cfgHere
    (s.issued (encode i)).vecReaches c
      { word := encode i, srcs := (d.toNat, q.g) :: ix.map fun n => (n, q.g), dst := none,
        form := (d.toNat, q.g) :: ix.map fun n => (n, q.g), old := false, formBad := false, overlap := false }
      .store m.toNat (addr s.here q) n oks u →
    let ws := oks.map fun e => (e.2, bytesOf (s.here.element q d.toNat q.g q.w e.1.1 e.1.2) q.e)
    u.storesReady c ws = (v, true) →
    let sent := v.vecWrites c .vector (v.leftStores c ws)
    let r := sent.1.modCtx c fun k => k.truncated n
    exec i s = .next (r.checkPhase c ((r.ctx c).entry q.rows 0 none sent.2 [] 0)) ∧
      ((∀ e ∈ oks, e.2.place = .hbm) → r.mem = s.mem) ∧ (r.ctx c).x = s.here.x ∧ (r.ctx c).f = s.here.f ∧
      (r.ctx c).v = s.here.v ∧ (r.ctx c).m = s.here.m ∧ (r.ctx c).vl = min n s.here.vl

/-- R181-R190: vector loads and stores in their four address modes. -/
def VectorMemoryClaims : Prop :=
  ∀ (d a b : BitVec 5) (m : BitVec 3),
    VecLoads (.vld d a m) d m [] (fun k q r j => k.rx a + BitVec.ofNat 64 ((r * q.vl + j) * q.e)) ∧
    VecLoads (.vlds d a b m) d m [] (fun k q r j => k.rx a + BitVec.ofNat 64 (r * q.vl + j) * k.rx b) ∧
    VecLoads (.vld2 d a b m) d m []
      (fun k _ r j => k.rx a + BitVec.ofNat 64 r * k.rx b + BitVec.ofNat 64 j * k.rx (b + 1)) ∧
    VecLoads (.vldx d a b m) d m [b.toNat]
      (fun k q r j => k.rx a + BitVec.ofNat 64 (k.element q b.toNat q.g q.w r j)) ∧
    VecStores (.vst d a m) d m [] (fun k q r j => k.rx a + BitVec.ofNat 64 ((r * q.vl + j) * q.e)) ∧
    VecStores (.vsts d a b m) d m [] (fun k q r j => k.rx a + BitVec.ofNat 64 (r * q.vl + j) * k.rx b) ∧
    VecStores (.vst2 d a b m) d m []
      (fun k _ r j => k.rx a + BitVec.ofNat 64 r * k.rx b + BitVec.ofNat 64 j * k.rx (b + 1)) ∧
    VecStores (.vstx d a b m) d m [b.toNat]
      (fun k q r j => k.rx a + BitVec.ofNat 64 (k.element q b.toNat q.g q.w r j))

/-- The pane that x[a] names (R192): a pane of this context in the free state. -/
def State.paneReady (s : State) (c : CtxId) (xa : Word) (p : Pane) : Prop :=
  p = (s.core (coreOf c)).pane (bits xa 5 0) ∧ xa.toNat < 64 ∧ p.state = 2 ∧ p.owner = s.did c

/-- A lane instruction on the scratchpad (R191-R195): `n` is the cut.  A failing position is checked, and its trap value given, by its
offset in the pane, the model's choice (log entry 17). -/
def State.lanePasses (s : State) (c : CtxId) (o : VOp) (xa : Word) (p : Pane) (b mk n : Nat) : Prop :=
  s.memPasses c o = true ∧ s.paneReady c xa p ∧
    let q := (s.ctx c).vcfg (physLanes (coreOf c))
    let res := s.positionChecks c q mk fun r j => s.paneCheck c p ((s.ctx c).element q b q.g q.w r j) q.e
    firstBad res ≠ some 0 ∧ n = cutIndex res q.vl

/-- R191-R195: VLDL loads each active position from its own lane's slice at the offset that vb gives; VSTL, VSAADD and VSAMAX
write there, in position order. -/
def LaneMemoryClaims : Prop :=
  ∀ (d a b : BitVec 5) (m : BitVec 3),
    (∀ (s : State) (p : Pane) (n : Nat), s.issues (encode (.vldl d a b m)) = true →
      let s1 := s.issued (encode (.vldl d a b m))
      let c := s.cur
      let q := s.cfgHere
      s1.lanePasses c { word := encode (.vldl d a b m), srcs := [(b.toNat, q.g)], dst := some (d.toNat, q.g),
                        form := [(d.toNat, q.g), (b.toNat, q.g)], old := false, formBad := false,
                        overlap := groupsMeet d.toNat q.g b.toNat q.g } (s.here.rx a) p b.toNat m.toNat n →
      let r := (s1.vecStart c).modCtx c fun k =>
        ((k.loadSweep q d.toNat m.toNat n (fun r j => natOf (s1.spadRead (coreOf c) (s.here.physLane q j)
          (p.base + s.here.element q b.toNat q.g q.w r j) q.e)) fun _ _ => false).truncated n).latched (upFrom d.toNat q.g)
      exec (.vldl d a b m) s = .next (r.checkPhase c ((r.ctx c).entry q.rows 0 none [] [] 0))) ∧
    (∀ (i : Instr) (new : Nat → Nat → Nat → Nat) (atomic : Bool),
      (i = .vstl d a b m ∧ (new = fun _ _ x => x) ∧ atomic = false) ∨
      (i = .vsaadd d a b m ∧ (new = fun w old x => (old + x) % 2 ^ w) ∧ atomic = true) ∨
      (i = .vsamax d a b m ∧ (new = fun w old x => if toSigned w old < toSigned w x then x else old) ∧ atomic = true) →
      ∀ (s : State) (p : Pane) (n : Nat), s.issues (encode i) = true →
      let s1 := s.issued (encode i)
      let c := s.cur
      let q := s.cfgHere
      s1.lanePasses c { word := encode i, srcs := [(d.toNat, q.g), (b.toNat, q.g)], dst := none,
                        form := [(d.toNat, q.g), (b.toNat, q.g)], old := false,
                        formBad := atomic && decide (q.ew = 3), overlap := false } (s.here.rx a) p b.toNat m.toNat n →
      let r := (((s.here.activePos q m.toNat).filter fun z => decide (z.2 < n)).foldl (fun t z =>
        let o := p.base + s.here.element q b.toNat q.g q.w z.1 z.2
        let lane := s.here.physLane q z.2
        t.spadWrite (coreOf c) lane o (bytesOf (new q.w (natOf (t.spadRead (coreOf c) lane o q.e))
          (s.here.element q d.toNat q.g q.w z.1 z.2)) q.e)) (s1.vecStart c)).modCtx c fun k => k.truncated n
      exec i s = .next (r.checkPhase c ((r.ctx c).entry q.rows 0 none [] [] 0)))

/-- R196: VLDR and VSTR name a core and an offset in each element; the positions that fail set their bit of the fault mask,
and nothing traps.  The fault mask is written with VL = 0 too: the model's reading (log entry 20). -/
def RemoteMemoryClaims : Prop :=
  ∀ (d b : BitVec 5) (m f : BitVec 3) (s : State),
    let c := s.cur
    let q := s.cfgHere
    let k := s.here
    let idx (r j : Nat) : Nat := k.element q b.toNat q.g q.w r j
    (s.issues (encode (.vldr d b m f)) = true →
      let s1 := s.issued (encode (.vldr d b m f))
      let fails (r j : Nat) : Bool := (decide (j < q.vl) && k.maskBit m.toNat r j) && !s1.remoteOk c (idx r j)
      s1.memPasses c { word := encode (.vldr d b m f), srcs := [(b.toNat, q.g)], dst := some (d.toNat, q.g),
                       form := [(d.toNat, q.g), (b.toNat, q.g)], old := false, formBad := decide (q.ew ≠ 2),
                       overlap := groupsMeet d.toNat q.g b.toNat q.g } = true →
      let swept := (({ k.loadsFixed with wrote := 0 } : Ctx).sweepGroup q d.toNat q.g q.w q.vlmax q.rows fun r j =>
        if fails r j then none
        else k.fate q m.toNat (fun r j => (natOf (s1.spadRead (remoteCore c (idx r j)) (k.physLane q j)
          (idx r j % 2 ^ 26) 4), 0)) r j).1
      let r := (s1.vecStart c).setCtx c ((swept.faultMask q f.toNat fails).latched (upFrom d.toNat q.g))
      exec (.vldr d b m f) s = .next (r.checkPhase c ((r.ctx c).entry q.rows 0 none [] [] 0)) ∧
        (r.ctx c).m = (k.faultMask q f.toNat fails).m ∧ r.mem = s.mem ∧ r.pend = s.pend ∧ (r.ctx c).x = k.x ∧
        (r.ctx c).f = k.f) ∧
    (s.issues (encode (.vstr d b m f)) = true →
      let s1 := s.issued (encode (.vstr d b m f))
      let fails (r j : Nat) : Bool := decide (j < q.vl) && k.maskBit m.toNat r j && !s1.remoteOk c (idx r j)
      s1.memPasses c { word := encode (.vstr d b m f), srcs := [(d.toNat, q.g), (b.toNat, q.g)], dst := none,
                       form := [(d.toNat, q.g), (b.toNat, q.g)], old := false, formBad := decide (q.ew ≠ 2),
                       overlap := false } = true →
      let r := ((k.activePos q m.toNat).foldl (fun t z =>
          if fails z.1 z.2 then t
          else t.spadWrite (remoteCore c (idx z.1 z.2)) (k.physLane q z.2) (idx z.1 z.2 % 2 ^ 26)
            (bytesOf (k.element q d.toNat q.g q.w z.1 z.2) 4)) (s1.vecStart c)).modCtx c fun k => k.faultMask q f.toNat fails
      exec (.vstr d b m f) s = .next (r.checkPhase c ((r.ctx c).entry q.rows 0 none [] [] 0)))

/-- An image instruction reaches memory (R136, R197, R200): VL fits, the queue has room, the address is aligned, the walks of
all lines have read their tables, and every line passes its checks with `as`; `u` is the state with their translations
cached. -/
def State.imageReaches (s : State) (c : CtxId) (kind : AccKind) (va : Word) (as : List Access) (u : State) : Prop :=
  let vas := (upFrom 0 (imageSize / 64)).map fun i => va + BitVec.ofNat 64 (64 * i)
  let q := (s.ctx c).vcfg (physLanes (coreOf c))
  q.vl ≤ q.vlmax ∧ (s.ctx c).vq.length < Config.vectorQueueDepth ∧ va.toNat % 4096 = 0 ∧
    ∃ s0, s.walkReady (s.agent c) vas 64 = some s0 ∧ s0.imageCheck (s.agent c) kind va (imageSize / 64) = .ok as ∧
      u = (s0.fillTlbs (s.agent c) (vas.zip as)).vecStart c

/-- R197-R200: VSAVE writes the dirty lanes, the masks and the header of the save image and clears the dirty bits; VREST reads
the lines of the image that its context's lanes use, and those alone, into the lanes of the context. -/
def SaveImageClaims : Prop :=
  ∀ (a : BitVec 5) (s u v w z : State) (as : List Access) (due : Nat),
    let c := s.cur
    let q := s.cfgHere
    let va := s.here.rx a
    (s.issues (encode (.vsave a)) = true →
      (s.issued (encode (.vsave a))).imageReaches c .store va as u →
      let bs := (s.here.saveBlocks q).map fun b => (as.getD (b.1 / 64) Access.none, b.2)
      u.storesReady c bs = (v, true) →
      let sent := v.vecWrites c .vector (v.leftStores c bs)
      let r := sent.1.modCtx c fun k => k.afterSave q
      exec (.vsave a) s = .next (r.checkPhase c ((r.ctx c).entry 8 0 none sent.2 [] 0)) ∧
        (r.ctx c).dirty = 0 ∧ (r.ctx c).x = s.here.x ∧ (r.ctx c).m = s.here.m) ∧
    (s.issues (encode (.vrest a)) = true →
      (s.issued (encode (.vrest a))).imageReaches c .load va as u →
      let acc (off : Nat) : Access := as.getD (off / 64) Access.none
      let used := acc 0 :: (imageReads s.here.lanes).map acc
      u.viewAcc c (acc 0) 8 = s.here.lanes → s.errLines = [] → s.sramErrs = [] →
      u.readAccs c used = some v → v.accsReady c used [] [] 0 = (w, true) → w.hostReads c used 64 = (z, due) →
      let r := ((z.takeReads c used 64).farTaken c used).modCtx c fun k =>
        { k.loadImage (fun off => bytesOf (z.viewAcc c (acc off) 64) 64) 0 k.lanes with
          dirty := 0, wrote := allGroups k.lanes }
      exec (.vrest a) s = .next (r.checkPhase c ((r.ctx c).entry 8 0 none [] (used.map fun a => (a.pa, 64)) due)) ∧
        r.mem = s.mem ∧ (r.ctx c).x = s.here.x ∧ (r.ctx c).f = s.here.f)

/-! Vector configuration. -/

/-- `i` completes with `post`: whenever its word issues and `pre` holds of the state it issues in, `exec` answers a next state
that `post` relates to that one. -/
def ActsTo (i : Instr) (pre : State → Prop) (post : State → State → Prop) : Prop :=
  ∀ s, s.issues (encode i) = true → pre (s.issued (encode i)) → ∃ t, exec i s = .next t ∧ post (s.issued (encode i)) t

/-- The instruction waits with a bound: the PC stays, its word has passed the checks of decode (R494), and no asynchronous trap
is taken before it is done (R322), but for the gang_stop of a member whose redundant interval has failed (R511). -/
def WaitsWhile (i : Instr) (pre : State → Prop) : Prop :=
  Acts i pre fun s => s.modCtx s.cur fun k => { k with bounded := !k.closeFailed, passed := some k.pc }

/-- The instruction waits without a bound: its turn passes, the PC stays, its word has passed the checks of decode (R494), and
asynchronous traps may be taken (R322). -/
def StallsWhile (i : Instr) (pre : State → Prop) : Prop :=
  Acts i pre fun s => s.modCtx s.cur fun k => { k with bounded := false, passed := some k.pc }

/-- The illegal-instruction trap with the instruction word (R87, R389), before which every earlier instruction completes in
its queue (R88). -/
def IllegalWhen (i : Instr) (pre : State → Prop) : Prop :=
  Acts i pre fun s => (s.settle s.cur).trap s.cur (mkTrap 0 ((encode i).zeroExtend 64))

/-- The rest of a context that an instruction of the vector configuration leaves: f, m, FSTAT, mode, DID and trap banks. -/
def Ctx.sameBelow (k k' : Ctx) : Prop :=
  k'.f = k.f ∧ k'.fstat = k.fstat ∧ k'.mode = k.mode ∧ k'.did = k.did ∧ k'.mb = k.mb ∧ k'.hb = k.hb ∧ k'.sb = k.sb

/-- R141-R143: VSHAPE without a lane move grants min(x[a], vlmax) elements and min(x[b], 8) rows, clears TR and returns the
granted row length; with a lane move it first waits until the context is vector-idle. -/
def ShapeClaims : Prop :=
  ∀ (d a b : BitVec 5),
    ActsTo (.vshape d a b) (fun s => s.laneGrant s.cur = s.here.lanes) (fun s t =>
      (t.ctx s.cur).vl = min (s.here.rx a).toNat s.cfgHere.vlmax ∧ (t.ctx s.cur).vrows = min (s.here.rx b).toNat 8 ∧
      (t.ctx s.cur).tr = false ∧ (t.ctx s.cur).pc = s.here.pc + 4 ∧ (t.ctx s.cur).lanes = s.here.lanes ∧
      (s.here.copyReg = none → (t.ctx s.cur).x = (s.here.wx d (BitVec.ofNat 64 (t.ctx s.cur).vl)).x) ∧
      (t.ctx s.cur).v = s.here.v ∧ (t.ctx s.cur).m = s.here.m ∧ (t.ctx s.cur).form = s.here.form ∧
      s.here.sameBelow (t.ctx s.cur) ∧ t.mem = s.mem ∧ t.pend = s.pend) ∧
    WaitsWhile (.vshape d a b) (fun s => s.laneGrant s.cur ≠ s.here.lanes ∧ s.vectorIdle s.cur = false) ∧
    Acts (.vshape d a b) (fun s => s.laneGrant s.cur ≠ s.here.lanes ∧ s.vectorIdle s.cur = true ∧
        s.areaOk (s.part s.cur) (s.slotSecure s.cur) (areaPa s.here.vsavea) imageSize = false)
      (fun s => s.trap s.cur (mkTrap 9 (BitVec.ofNat 64 (areaPa s.here.vsavea))))

/-- R155, R403, R404: a lane move to n lanes, from the same lowest lane: a lowering cuts every row to the lanes that stay and
tells slot 7 of the core (trap 22); a raising keeps the bytes of the old lanes and loads the others from the save area; the latch
becomes v0; VL is granted under the new lanes.  A lowering whose save area meets a sealed range traps, the model's choice (log
entry 21). -/
def LaneMoveClaims : Prop :=
  ∀ (d a b : BitVec 5),
    let moves (s : State) : Prop := s.laneGrant s.cur ≠ s.here.lanes ∧ s.vectorIdle s.cur = true ∧
      s.areaOk (s.part s.cur) (s.slotSecure s.cur) (areaPa s.here.vsavea) imageSize = true
    let barred (s : State) : Prop := s.laneGrant s.cur < s.here.lanes ∧ s.areaSealed (areaPa s.here.vsavea) imageSize = true
    let lines (s : State) : List Nat := areaLines (areaPa s.here.vsavea) (laneOffsets s.here.lanes (s.laneGrant s.cur))
    ActsTo (.vshape d a b) (fun s => moves s ∧ ¬ barred s ∧ (s.readLines (dieOf s.cur) (lines s)).isSome = true)
      (fun s t =>
        let n := s.laneGrant s.cur
        (t.ctx s.cur).lanes = n ∧ (t.ctx s.cur).lg = s.here.lg * s.here.lanes / n ∧ (t.ctx s.cur).latch = 0 ∧
        (t.ctx s.cur).vl = min (s.here.rx a).toNat (t.cfgHere).vlmax ∧ (t.ctx s.cur).pc = s.here.pc + 4 ∧
        (n < s.here.lanes → (t.ctx s.cur).v = s.here.v.map (fun r => keepRow r n) ∧
          (t.ctx s.cur).m = s.here.m.map (fun r => keepMask r n) ∧
          (t.ctx (coreOf s.cur * 8 + 7)).pendLane =
            some (reclaimValue s.cur (s.here.lg * s.here.lanes) n s.here.lanes (physLanes (coreOf s.cur)))) ∧
        (∀ u, s.readLines (dieOf s.cur) (lines s) = some u → s.here.lanes < n →
          let k := s.here.loadImage (fun off => u.areaRead s.cur (areaPa s.here.vsavea + off) 64) s.here.lanes n
          (t.ctx s.cur).v = k.v ∧ (t.ctx s.cur).m = k.m) ∧
        s.here.sameBelow (t.ctx s.cur)) ∧
    Acts (.vshape d a b) (fun s => moves s ∧ barred s)
      (fun s => s.trap s.cur (mkTrap 12 (BitVec.ofNat 64 (areaPa s.here.vsavea))))

/-- R144-R146: VFORM and VFORMI exchange FORM; an illegal value traps and writes nothing. -/
def FormClaims : Prop :=
  ∀ (d a : BitVec 5) (v : BitVec 14),
    Acts (.vform d a) (fun s => formLegal (s.here.rx a) = true)
      (fun s => (s.modCtx s.cur fun k => { k with form := (s.here.rx a).truncate 14 }).retireX s.cur d
        (s.here.form.zeroExtend 64)) ∧
    IllegalWhen (.vform d a) (fun s => formLegal (s.here.rx a) = false) ∧
    Acts (.vformi d v) (fun _ => True)
      (fun s => (s.modCtx s.cur fun k => { k with form := v }).retireX s.cur d (s.here.form.zeroExtend 64))

/-- R147: VRDSHAPE waits for the context's queues, then writes SHAPE (R29) to x[d]. -/
def ReadShapeClaims : Prop :=
  ∀ d : BitVec 5,
    Acts (.vrdshape d) (fun s => s.queuesEmpty s.cur = true) (fun s => s.retireX s.cur d (BitVec.ofNat 64
      (s.here.vl % 2 ^ 13 + s.here.vrows % 16 * 2 ^ 16 + b2n s.here.tr * 2 ^ 20 + s.here.lanes % 32 * 2 ^ 24 +
        s.here.lg % 4 * 2 ^ 29))) ∧
    WaitsWhile (.vrdshape d) (fun s => s.queuesEmpty s.cur = false)

/-- The target slots of VSPLIT n (R148). -/
def splitTarget (c : CtxId) (n k : Nat) : CtxId := coreOf c * 8 + (slotOf c + 8 * k / n) % 8

/-- VSPLIT below M needs every target slot to be of its own DID (R149). -/
def State.splitAllowed (s : State) (n : Nat) : Prop :=
  s.here.mode = .m ∨ ∀ g, g < n → s.slotDid (coreOf s.cur) (slotOf (splitTarget s.cur n g)) = s.did s.cur

/-- R148, R149: VSPLIT n gives each of n slots a group of the lanes; the executing context keeps the bytes of its own. -/
def SplitClaims : Prop :=
  ∀ (f : BitVec 2) (n : Nat), (f = 1 ∧ n = 2) ∨ (f = 2 ∧ n = 4) → ∀ s : State,
    let s1 := s.issued (encode (.vsplit f))
    let c := s.cur
    let l := physLanes (coreOf c)
    let ok := s.here.lanes = l ∧ s.here.lg = 0 ∧ (n = 2 → slotOf c ≠ 3 ∧ slotOf c ≠ 7) ∧ (n = 4 → slotOf c % 2 = 0)
    (s.issuesIf (encode (.vsplit f)) false = true → ok → s1.splitAllowed n →
      s.here.groupBound 24 8 = false → s1.vectorIdle c = true →
      ∃ t, exec (.vsplit f) s = .next t ∧ (t.ctx c).lanes = l / n ∧ (t.ctx c).lg = 0 ∧ (t.ctx c).vl = 0 ∧
        (t.ctx c).vrows = 0 ∧ (t.ctx c).latch = 0 ∧ (t.ctx c).v = s.here.v.map (fun r => keepRow r (l / n)) ∧
        (t.ctx c).m = s.here.m.map (fun r => keepMask r (l / n)) ∧ (t.ctx c).pc = s.here.pc + 4 ∧
        (∀ g, 1 ≤ g → g < n → (t.ctx (splitTarget c n g)).lanes = l / n ∧ (t.ctx (splitTarget c n g)).lg = g ∧
          (t.ctx (splitTarget c n g)).vl = 0 ∧ (t.ctx (splitTarget c n g)).v = Vector.replicate 256 0 ∧
          (t.ctx (splitTarget c n g)).m = Vector.replicate 64 0 ∧
          (t.ctx (splitTarget c n g)).form = (s.ctx (splitTarget c n g)).form ∧
          (t.ctx (splitTarget c n g)).pc = (s.ctx (splitTarget c n g)).pc)) ∧
    (s.issuesIf (encode (.vsplit f)) false = true → ok → ¬ s1.splitAllowed n →
      ∃ v, exec (.vsplit f) s = .next (s1.trap c (mkTrap 10 v))) ∧
    (¬ ok → s.here.pfx = none → exec (.vsplit f) s = .next ((s.settle c).trap c (mkTrap 0 ((encode (.vsplit f)).zeroExtend 64))))

/-- R150, R153: VJOIN takes all lanes of the core once every other vector context of it is vector-idle and clean. -/
def JoinClaims : Prop :=
  ∀ s : State, s.issuesIf (encode .vjoin) false = true → s.here.lg = 0 → s.here.lanes < physLanes (coreOf s.cur) →
    let s1 := s.issued (encode .vjoin)
    let c := s.cur
    (s.here.mode = .m ∨ ∀ z, z ∈ s1.joinPartners c → s1.did z = s1.did c) →
    s1.vectorIdle c = true → (∀ z, z ∈ s1.joinPartners c → s1.vectorIdle z = true) →
    ((∀ z, z ∈ s1.joinPartners c → (s1.ctx z).dirty = 0 ∧ (s1.ctx z).groupBound 24 8 = false) →
      ∃ t, exec .vjoin s = .next t ∧ (t.ctx c).lanes = physLanes (coreOf c) ∧ (t.ctx c).lg = 0 ∧ (t.ctx c).vl = 0 ∧
        (t.ctx c).vrows = 0 ∧ (t.ctx c).latch = 0 ∧ (t.ctx c).v = s.here.v.map (fun r => keepRow r s.here.lanes) ∧
        (t.ctx c).m = s.here.m.map (fun r => keepMask r s.here.lanes) ∧ (t.ctx c).pc = s.here.pc + 4 ∧
        ∀ z, z ∈ s1.joinPartners c → (t.ctx z).lanes = 0 ∧ (t.ctx z).lg = 0 ∧ (t.ctx z).vl = 0 ∧ (t.ctx z).vrows = 0) ∧
    ((∃ z, z ∈ s1.joinPartners c ∧ ((s1.ctx z).dirty ≠ 0 ∨ (s1.ctx z).groupBound 24 8 = true)) →
      exec .vjoin s = .next (s1.illegal c (encode .vjoin)))

/-! Matrix instructions. -/

/-- The core of the context whose turn it is. -/
def State.coreHere (s : State) : Core := s.core (coreOf s.cur)

/-- The context whose turn it is owns the array of its core (R26). -/
def State.arrayMine (s : State) : Prop := s.coreHere.mown.toNat = slotOf s.cur

/-- A field of MSTAT (R213): `n` bits from `lo`. -/
def State.mstatField (s : State) (lo n : Nat) : Nat := sliceNat s.coreHere.mstat lo n

/-- The rows in use (R212): 64 with HR set, else those of the core's array. -/
def State.rowsHere (s : State) : Nat := if s.coreHere.mstat.getLsbD 11 then 64 else arrayRowsOf (coreOf s.cur)

/-- Post an operation (R233): with a place in the queue, its entry joins the end, MSTAT becomes what `front` gives, and the
instruction retires; no register, memory byte or tile changes yet. -/
def Posts (i : Instr) (pre : State → Prop) (op : State → MOp) (front : State → Word) : Prop :=
  ActsTo i (fun s => s.arrayMine ∧ pre s ∧ s.coreHere.mq.length < 32) fun s t =>
    (t.core (coreOf s.cur)).mq = s.coreHere.mq ++
      [{ owner := s.cur, pc := s.here.pc, started := false, rows := s.rowsHere, op := op s }] ∧
    (t.core (coreOf s.cur)).mstat = front s ∧ (t.core (coreOf s.cur)).acc = s.coreHere.acc ∧
    (t.ctx s.cur).pc = s.here.pc + 4 ∧ (t.ctx s.cur).x = s.here.x ∧ (t.ctx s.cur).v = s.here.v ∧
    (t.ctx s.cur).fstat = s.here.fstat ∧ t.mem = s.mem ∧ t.pend = s.pend

/-- The form-mismatch trap with the instruction word (R221, R228). -/
def Misforms (i : Instr) (pre : State → Prop) : Prop :=
  Acts i (fun s => s.arrayMine ∧ pre s) fun s => s.trap s.cur (mkTrap 4 ((encode i).zeroExtend 64))

/-- Every matrix instruction of a context that does not own the array traps (R26, R239), and so does its MOVS or MOVSW of
MSTAT (number 3). -/
def OwnerTrap (i : Instr) : Prop :=
  Acts i (fun s => ¬ s.arrayMine) fun s => s.trap s.cur (mkTrap 18 (BitVec.ofNat 64
    (s.coreHere.mown.toNat + 8 * (s.did (coreOf s.cur * 8 + s.coreHere.mown.toNat)).toNat)))

/-- R26, R239: the matrix-ownership trap. -/
def OwnershipClaims : Prop :=
  ∀ (p q s : BitVec 5) (n : BitVec 2) (f : BitVec 4) (r : BitVec 3),
    OwnerTrap (.mshape p r) ∧ OwnerTrap (.mzero n) ∧ OwnerTrap (.mlds p q f) ∧ OwnerTrap .mswap ∧ OwnerTrap (.mop p q n f) ∧
    OwnerTrap (.mops p q n f) ∧ OwnerTrap (.mrd p q n) ∧ OwnerTrap (.mwr p q n) ∧ OwnerTrap (.mcvt r n f) ∧
    OwnerTrap (.mopx p q s n f) ∧ OwnerTrap (.mopsx p q s n f) ∧ OwnerTrap (.movs p 3) ∧ OwnerTrap (.movsw p 3)

/-- R222-R225, R229, R231: MSHAPE, MZERO, MSWAP, MLDS, MCVT and MWR at issue. -/
def MatrixClaims : Prop :=
  ∀ (p q : BitVec 5) (n : BitVec 2) (f : BitVec 4) (r : BitVec 3),
    ActsTo (.mshape p r) (fun s => s.arrayMine ∧ s.coreHere.mq.length < 32) (fun s t =>
      (t.core (coreOf s.cur)).mq = s.coreHere.mq ++
        [{ owner := s.cur, pc := s.here.pc, started := false, rows := s.rowsHere,
           op := .shape (s.coreHere.mstat.getLsbD 11) }] ∧
      (t.core (coreOf s.cur)).mstat = putSlice (putSlice s.coreHere.mstat 11 1 0) 8 3 r.toNat ∧
      (t.core (coreOf s.cur)).acc = s.coreHere.acc ∧
      (s.here.copyReg = none → (t.ctx s.cur).x = (s.here.wx p (BitVec.ofNat 64 (arrayRowsOf (coreOf s.cur) + 64 * 256 +
        (if Config.isBreeze (dieOf s.cur) then 0 else 1) * 65536))).x) ∧
      (t.ctx s.cur).pc = s.here.pc + 4 ∧ (t.ctx s.cur).v = s.here.v ∧ t.mem = s.mem ∧ t.pend = s.pend) ∧
    StallsWhile (.mshape p r) (fun s => s.arrayMine ∧ 32 ≤ s.coreHere.mq.length) ∧
    Posts (.mzero n) (fun _ => True) (fun _ => .zero n.toNat) (fun s => putSlice s.coreHere.mstat (16 + 3 * n.toNat) 3 0) ∧
    Posts .mswap (fun _ => True) (fun _ => .swap) (fun s =>
      putSlice (putSlice (putSlice (putSlice s.coreHere.mstat 32 4 (s.mstatField 44 4)) 36 7 (s.mstatField 48 7)) 44 4
        (s.mstatField 32 4)) 48 7 (s.mstatField 36 7)) ∧
    (let nb (s : State) := 8 * planeRowBytes f.toNat * bits (s.here.rx q) 6 0
     let fits (s : State) := zeroBits (s.here.rx q) 63 7 = true ∧ bits (s.here.rx q) 6 0 ≤ planeCapacity f.toNat ∧
       nb s ≤ stringRoom (64 * s.here.lanes) p.toNat
     Posts (.mlds p q f) (fun s => fits s ∧ s.here.groupBound p.toNat (stringRegs (64 * s.here.lanes) (nb s)) = false)
       (fun s => .load f.toNat (bits (s.here.rx q) 6 0) (s.here.string p.toNat (nb s)))
       (fun s => putSlice (putSlice s.coreHere.mstat 44 4 f.toNat) 48 7 (bits (s.here.rx q) 6 0)) ∧
     Misforms (.mlds p q f) (fun s => ¬ fits s)) ∧
    Posts (.mcvt r n f) (fun _ => True)
      (fun s => .convert n.toNat f.toNat r.toNat s.rowsHere (s.mstatField (16 + 3 * n.toNat) 3) (s.here.form.getLsbD 13))
      (fun s => putSlice s.coreHere.mstat (16 + 3 * n.toNat) 3 (if f.toNat = 1 then 1 else f.toNat + 2)) ∧
    (let nb (s : State) := 2048 * bits (s.here.rx q) 15 8
     let fits (s : State) := s.rowsMisfit s.cur (s.here.rx q) = false ∧ nb s ≤ stringRoom (64 * s.here.lanes) p.toNat
     Posts (.mwr p q n) (fun s => fits s ∧ s.here.groupBound p.toNat (stringRegs (64 * s.here.lanes) (nb s)) = false)
       (fun s => .write n.toNat (bits (s.here.rx q) 6 0) (bits (s.here.rx q) 15 8) (s.here.string p.toNat (nb s)))
       (fun s => s.coreHere.mstat) ∧
     Misforms (.mwr p q n) (fun s => ¬ fits s))

/-- The rounding mode that an outer product of format f would use is not reserved (R6, R47, R213). -/
def State.mrmUsable (s : State) (f : Nat) : Prop := s.mstatField 8 3 ≤ 4 ∨ 9 ≤ f

/-- An outer product under a reserved rounding mode is illegal (R6, R47). -/
def MrmTraps (i : Instr) (f : BitVec 4) : Prop :=
  ∀ s : State, s.issues (encode i) = true → s.arrayMine → ¬ s.mrmUsable f.toNat →
    exec i s = .next ((s.settle s.cur).trap s.cur (mkTrap 0 ((encode i).zeroExtend 64)))

/-- The outer product `i` with its A operand in a register string (R226-R228). -/
def OuterFromString (i : Instr) (p q : BitVec 5) (n : BitVec 2) (f : BitVec 4) (scales : Option Nat) : Prop :=
  let k (s : State) := bits (s.here.rx q) 6 0
  let nb (s : State) := k s * s.rowsHere * matWidth f.toNat
  let fits (s : State) := s.outerMisfit s.cur n.toNat f.toNat (s.here.rx q) scales.isSome = false ∧
    nb s ≤ stringRoom (64 * s.here.lanes) p.toNat
  Posts i (fun s => s.mrmUsable f.toNat ∧ fits s ∧
      s.here.groupBound p.toNat (stringRegs (64 * s.here.lanes) (nb s)) = false ∧
      ∀ v, scales = some v → s.here.groupBound v 1 = false)
    (fun s => .outer n.toNat f.toNat (s.mstatField 32 4) (k s) (bits (s.here.rx q) 13 8) s.rowsHere (s.mstatField 8 3)
      (s.here.string p.toNat (nb s)) (scales.map fun v => ((s.here.vreg v 0).toNat, (s.here.vreg v 1).toNat)))
    (fun s => if 0 < k s then putSlice s.coreHere.mstat (16 + 3 * n.toNat) 3 (accTag f.toNat) else s.coreHere.mstat) ∧
  Misforms i (fun s => s.mrmUsable f.toNat ∧ ¬ fits s) ∧ MrmTraps i f

/-- The outer product `i` with its A operand in a chunk of the stream that v[p] is bound to (R219, R226-R228). -/
def OuterFromStream (i : Instr) (p q : BitVec 5) (n : BitVec 2) (f : BitVec 4) (scales : Option Nat) : Prop :=
  (∀ (s s0 u v w : State) (j due : Nat) (ch : Chunk), s.issues (encode i) = true →
    let s1 := s.issued (encode i)
    let c := s.cur
    let d := s.here.stream j
    let g := d.cfg s.cfgHere
    s.arrayMine → s.mrmUsable f.toNat → s.here.boundTo p.toNat = some j → s1.gustTrap c true = none → d.dir = false →
    s.outerMisfit c n.toNat f.toNat (s.here.rx q) scales.isSome = false →
    g.rows * g.vl * g.e ≤ s.paneLinear (coreOf c) d.pane.toNat → (∀ v, scales = some v → s.here.groupBound v 1 = false) →
    s.coreHere.mq.length < 32 → s1.chunkWalks c g [j] = some s0 → s0.planChunk c j g .load = .ok ch →
    s0.readAccs c ch.accs = some u → u.accsReady c ch.accs [] [] 0 = (v, true) → v.hostReads c ch.accs g.e = (w, due) →
    let k := min (bits (s.here.rx q) 6 0) (8 * g.e * ch.accs.length / (s.rowsHere * matWidth f.toNat))
    let r := ((((w.useGust c true).vecStart c).consume c g ch).farTaken c ch.accs).arrive c due
    exec i s = .next (r.postOuter c n.toNat f.toNat k (bits (s.here.rx q) 13 8)
      (w.chunkString c g.e ch.accs) (scales.map fun v => ((s.here.vreg v 0).toNat, (s.here.vreg v 1).toNat)))) ∧
  Misforms i (fun s => s.mrmUsable f.toNat ∧ (s.here.boundTo p.toNat = none ∨
    ∃ j, s.here.boundTo p.toNat = some j ∧ ((s.here.stream j).dir = true ∨
      s.outerMisfit s.cur n.toNat f.toNat (s.here.rx q) scales.isSome = true ∨
      s.paneLinear (coreOf s.cur) (s.here.stream j).pane.toNat <
        s.cfgHere.rows * s.cfgHere.vl * 2 ^ (s.here.stream j).ew.toNat))) ∧ MrmTraps i f

/-- R226-R228: the outer products. -/
def OuterClaims : Prop :=
  ∀ (p q v : BitVec 5) (n : BitVec 2) (f : BitVec 4),
    OuterFromString (.mop p q n f) p q n f none ∧ OuterFromString (.mopx p q v n f) p q n f (some v.toNat) ∧
    OuterFromStream (.mops p q n f) p q n f none ∧ OuterFromStream (.mopsx p q v n f) p q n f (some v.toNat)

/-- R230, R232, R235: MRD waits until the matrix queue is empty, then writes the rows of its tile as bytes from v[p]. -/
def TileReadClaims : Prop :=
  ∀ (p q : BitVec 5) (n : BitVec 2),
    let rw (s : State) := tagRowBytes (s.mstatField (16 + 3 * n.toNat) 3)
    let nb (s : State) := 8 * bits (s.here.rx q) 15 8 * rw s
    let fits (s : State) := s.rowsMisfit s.cur (s.here.rx q) = false ∧ nb s ≤ stringRoom (64 * s.here.lanes) p.toNat
    let free (s : State) := s.here.groupBound p.toNat (stringRegs (64 * s.here.lanes) (nb s)) = false ∧
      s.here.vq.length < 16
    ActsTo (.mrd p q n) (fun s => s.arrayMine ∧ fits s ∧ free s ∧ s.coreHere.mq = []) (fun s t =>
      (t.ctx s.cur).v = (s.here.putString s.cfgHere p.toNat (nb s)
        ((upFrom 0 (bits (s.here.rx q) 15 8)).foldl (fun acc r => acc +
          rowString (s.coreHere.tileRow n.toNat (bits (s.here.rx q) 6 0 + r)) (s.mstatField (16 + 3 * n.toNat) 3) <<<
            (8 * rw s * r)) 0)).v ∧
      (t.ctx s.cur).latch = (if bits (s.here.rx q) 15 8 = 0 then s.here.latch else p) ∧
      (t.ctx s.cur).vq.length = s.here.vq.length + 1 ∧ (t.ctx s.cur).pc = s.here.pc + 4 ∧ (t.ctx s.cur).x = s.here.x ∧
      (t.ctx s.cur).fstat = s.here.fstat ∧ t.core (coreOf s.cur) = s.coreHere ∧ t.mem = s.mem ∧ t.pend = s.pend) ∧
    WaitsWhile (.mrd p q n) (fun s => s.arrayMine ∧ fits s ∧ free s ∧ s.coreHere.mq ≠ []) ∧
    Misforms (.mrd p q n) (fun s => ¬ fits s)

/-! Panes, streams, sealed buffers and jobs. -/

/-- The instruction writes all ones to x[d] where its request cannot be met (R248). -/
def Refuses (i : Instr) (d : BitVec 5) (pre : State → Prop) : Prop :=
  Acts i pre fun s => s.retireX s.cur d (BitVec.allOnes 64)

/-- The pane that x[a] names (R249). -/
def State.paneHere (s : State) (xa : Word) : Pane := s.coreHere.pane (xa.toNat % 64)

/-- R248: PALLOC takes the wanted pane, or the lowest free one, at the lowest base that fits, and writes its number; a
request that cannot be met writes all ones. -/
def PaneAllocClaims : Prop :=
  ∀ (d a b : BitVec 5),
    (∀ (s : State) (n base : Nat), s.issues (encode (.palloc d a b)) = true →
      (s.here.rx a).toNat ≠ 0 → (s.here.rx a).toNat % 64 = 0 →
      (s.here.rx a).toNat ≤ (s.issued (encode (.palloc d a b))).sliceSize (coreOf s.cur) →
      s.coreHere.paneNumber (s.here.rx b).toNat = some n →
      (s.issued (encode (.palloc d a b))).paneBase (coreOf s.cur) (s.did s.cur) (s.here.rx a).toNat = some base →
      exec (.palloc d a b) s = .next ((((s.issued (encode (.palloc d a b))).modCore (coreOf s.cur)) fun k =>
        k.setPane n { state := 2, held := false, owner := s.did s.cur, base := base, size := (s.here.rx a).toNat }).retireX
          s.cur d (BitVec.ofNat 64 n))) ∧
    Refuses (.palloc d a b) d (fun s => s.here.rx a = 0 ∨ (s.here.rx a).toNat % 64 ≠ 0 ∨
      s.sliceSize (coreOf s.cur) < (s.here.rx a).toNat ∨ s.coreHere.paneNumber (s.here.rx b).toNat = none ∨
      s.paneBase (coreOf s.cur) (s.did s.cur) (s.here.rx a).toNat = none)

/-- R248: the pane that PALLOC finds: its base is a multiple of 64 at which the pane fits, and none below fits. -/
def PaneBaseClaims : Prop :=
  ∀ (s : State) (core : CoreId) (did : BitVec 7) (size base : Nat), s.paneBase core did size = some base →
    base % 64 = 0 ∧ base + size ≤ s.sliceSize core ∧
    (∀ p, p ∈ (s.core core).panes.toList → p.state ≠ 0 → p.base + p.size ≤ base ∨ base + size ≤ p.base) ∧
    ∀ b, b < base → b % 64 = 0 → s.paneFits core did size b = false

/-- R247, R249: PSTATE answers the state of the pane and asks for a change; PFREE frees a pane that no job or stream holds. -/
def PaneStateClaims : Prop :=
  ∀ (d a : BitVec 5),
    Acts (.pstate d a) (fun s => (s.here.rx a).toNat < 64 ∧ ((s.paneHere (s.here.rx a)).state = 0 ∨
        (s.paneHere (s.here.rx a)).owner = s.did s.cur))
      (fun s => s.retireX s.cur d (s.paneHere (s.here.rx a)).value) ∧
    Acts (.pstate d a) (fun s => (s.here.rx a).toNat < 64 ∧ (s.paneHere (s.here.rx a)).state ≠ 0 ∧
        (s.paneHere (s.here.rx a)).owner ≠ s.did s.cur)
      (fun s => s.trap s.cur (mkTrap 10 (s.here.rx a))) ∧
    Acts (.pstate d a) (fun s => 2048 ≤ (s.here.rx a).toNat)
      (fun s => s.trap s.cur (mkTrap 13 (s.here.rx a))) ∧
    (∀ r, r < 4 → Acts (.pstate d a) (fun s => (s.here.rx a).toNat / 64 = 4 + 8 * r ∧
        ((s.paneHere (s.here.rx a)).state = 0 ∨ (s.paneHere (s.here.rx a)).owner = s.did s.cur))
      (fun s => (s.modCore (coreOf s.cur) fun k => k.setPane ((s.here.rx a).toNat % 64)
          ((s.paneHere (s.here.rx a)).request r)).retireX s.cur d (s.paneHere (s.here.rx a)).value)) ∧
    Acts (.pfree a) (fun s => (s.here.rx a).toNat < 64 ∧ (s.paneHere (s.here.rx a)).state = 2 ∧
        (s.paneHere (s.here.rx a)).owner = s.did s.cur ∧ (s.paneHere (s.here.rx a)).held = false)
      (fun s => (s.modCore (coreOf s.cur) fun k => k.setPane (s.here.rx a).toNat Pane.empty).retire s.cur) ∧
    Acts (.pfree a) (fun s => 64 ≤ (s.here.rx a).toNat ∨ (s.paneHere (s.here.rx a)).state = 0)
      (fun s => s.trap s.cur (mkTrap 13 (s.here.rx a))) ∧
    Acts (.pfree a) (fun s => (s.here.rx a).toNat < 64 ∧ (s.paneHere (s.here.rx a)).state ≠ 0 ∧
        (s.paneHere (s.here.rx a)).owner ≠ s.did s.cur)
      (fun s => s.trap s.cur (mkTrap 10 (s.here.rx a))) ∧
    StallsWhile (.pfree a) (fun s => (s.here.rx a).toNat < 64 ∧
      ((s.paneHere (s.here.rx a)).state = 1 ∨ (s.paneHere (s.here.rx a)).state = 3) ∧
      (s.paneHere (s.here.rx a)).owner = s.did s.cur)

/-- The world of a context and of its core's Gust agree (R426). -/
def State.gustAgrees (s : State) : Prop := (s.here.mode = .m ↔ s.coreHere.gw = true)

/-- R250, R251: SDECL reads its 64-byte descriptor and takes the pane; a stream that is declared already is ended first, once its
output has drained; SBIND binds a declared stream to a vector register; a bound one cannot be declared again. -/
def StreamClaims : Prop :=
  ∀ j a v : BitVec 5,
    (∀ (s u : State) (bs : List Byte), s.issues (encode (.sdecl j a)) = true → s.gustAgrees →
      (s.here.stream j.toNat).st = .free →
      (s.issued (encode (.sdecl j a))).ReadsBlock s.cur (s.here.rx a) 64 bs u → streamLegal bs = true →
      ((u.core (coreOf s.cur)).pane (streamOf bs).pane.toNat).state = 2 →
      ((u.core (coreOf s.cur)).pane (streamOf bs).pane.toNat).held = false →
      ((u.core (coreOf s.cur)).pane (streamOf bs).pane.toNat).owner = s.did s.cur →
      exec (.sdecl j a) s = .next ((((u.modCore (coreOf s.cur) fun k => k.modPane (streamOf bs).pane.toNat fun p =>
        { p with state := if (streamOf bs).dir then 3 else 1, held := true }).modCtx s.cur fun k =>
          k.setStream j.toNat (streamOf bs))).retire s.cur)) ∧
    (∀ (s u v : State) (bs : List Byte) (done : Bool), s.issues (encode (.sdecl j a)) = true → s.gustAgrees →
      (s.here.stream j.toNat).st = .declared →
      (s.issued (encode (.sdecl j a))).ReadsBlock s.cur (s.here.rx a) 64 bs u → streamLegal bs = true →
      let n := (streamOf bs).pane
      let p := (u.core (coreOf s.cur)).pane n.toNat
      (s.here.stream j.toNat).pane = n ∨ (p.state = 2 ∧ p.held = false) → p.owner = s.did s.cur →
      u.streamDrained s.cur (s.here.stream j.toNat) = (v, done) →
      let o := ((v.ctx s.cur).stream j.toNat).pane.toNat
      let ended := (v.modCore (coreOf s.cur) fun k =>
          (k.paneZero (k.pane o)).modPane o fun q => { q with state := 2, held := false }).modCtx s.cur fun k =>
        k.setStream j.toNat Stream.reset
      exec (.sdecl j a) s = .next (if done = true then
          ((ended.modCore (coreOf s.cur) fun k => k.modPane n.toNat fun p =>
            { p with state := if (streamOf bs).dir then 3 else 1, held := true }).modCtx s.cur fun k =>
              k.setStream j.toNat (streamOf bs)).retire s.cur
        else v.stallBounded s.cur)) ∧
    IllegalWhen (.sdecl j a) (fun s => (s.here.stream j.toNat).st = .bound) ∧
    (24 ≤ v.toNat →
      Acts (.sbind v j) (fun s => s.gustAgrees ∧ (s.here.stream j.toNat).st = .declared ∧ s.here.boundTo v.toNat = none)
        (fun s => (s.modCtx s.cur fun k =>
          k.setStream j.toNat { s.here.stream j.toNat with st := .bound, vd := v }).retire s.cur) ∧
      IllegalWhen (.sbind v j) (fun s => (s.here.stream j.toNat).st ≠ .declared ∨ s.here.boundTo v.toNat ≠ none))

/-- The instruction traps with a value that the spec leaves open. -/
def OpenTrapWhen (i : Instr) (cause : Nat) (pre : State → Prop) : Prop :=
  ∀ s, s.issues (encode i) = true → pre (s.issued (encode i)) →
    ∃ v, exec i s = .next ((s.issued (encode i)).trap s.cur (mkTrap cause v))

/-- R426: a stream command of a context in the other world than its core's Gust traps, with a trap value that the spec leaves
open. -/
def StreamWorldClaims : Prop :=
  ∀ d j v : BitVec 5,
    (24 ≤ v.toNat →
      OpenTrapWhen (.sbind v j) 9
        (fun s => ¬ s.gustAgrees ∧ (s.here.stream j.toNat).st = .declared ∧ s.here.boundTo v.toNat = none) ∧
      OpenTrapWhen (.sunbind v) 9 (fun s => ¬ s.gustAgrees ∧ s.here.boundTo v.toNat ≠ none)) ∧
    OpenTrapWhen (.sdecl j d) 9 (fun s => ¬ s.gustAgrees ∧ (s.here.stream j.toNat).st ≠ .bound) ∧
    OpenTrapWhen (.sstat d j) 9 (fun s => ¬ s.gustAgrees)

/-- R250: the descriptor of a stream, field by field. -/
def StreamFieldClaims : Prop :=
  ∀ bs : List Byte,
    let d := streamOf bs
    let w (i : Nat) : Word := wordOf ((bs.drop (8 * i)).take 8)
    d.base = w 0 ∧ d.count = (w 1).toNat ∧ d.str0 = w 2 ∧ d.n0 = w 3 ∧ d.str1 = w 4 ∧
    d.ew.toNat = (w 5).toNat % 4 ∧ d.dir = (w 5).getLsbD 2 ∧ d.pane.toNat = (w 5).toNat / 256 % 64 ∧ d.pos = 0 ∧
    d.st = .declared ∧ d.atEnd = false ∧ d.flt = false ∧
    (streamLegal bs = true ↔ (w 1).toNat ≤ 2 ^ 40 ∧ (w 5).toNat / 8 % 32 = 0 ∧ (w 5).toNat / 2 ^ 14 = 0 ∧ w 6 = 0 ∧ w 7 = 0)

/-- R251, R256: SUNBIND ends the stream once its output has drained: its pane is zeroed and free; SSTAT answers its status
once the queues are empty. -/
def StreamEndClaims : Prop :=
  ∀ d v j : BitVec 5,
    (24 ≤ v.toNat →
      (∀ (s u : State) (n : Nat), s.issues (encode (.sunbind v)) = true → s.gustAgrees →
        s.here.boundTo v.toNat = some n →
        (s.issued (encode (.sunbind v))).streamDrained s.cur (s.here.stream n) = (u, true) →
        let p := ((u.ctx s.cur).stream n).pane.toNat
        exec (.sunbind v) s = .next (((u.modCore (coreOf s.cur) fun k =>
            (k.paneZero (k.pane p)).modPane p fun q => { q with state := 2, held := false }).modCtx s.cur fun k =>
          k.setStream n Stream.reset).retire s.cur)) ∧
      IllegalWhen (.sunbind v) (fun s => s.here.boundTo v.toNat = none)) ∧
    Acts (.sstat d j) (fun s => s.gustAgrees ∧ s.queuesEmpty s.cur = true)
      (fun s => s.retireX s.cur d (if (s.here.stream j.toNat).st = .free then 0 else BitVec.ofNat 64
        (((s.here.stream j.toNat).count - (s.here.stream j.toNat).pos) % 2 ^ 41 + 2 ^ 60 +
          2 ^ 61 * b2n (s.here.stream j.toNat).flt + 2 ^ 62 * b2n (s.here.stream j.toNat).atEnd +
          2 ^ 63 * b2n (decide ((s.here.stream j.toNat).st = .bound))))) ∧
    WaitsWhile (.sstat d j) (fun s => s.gustAgrees ∧ s.queuesEmpty s.cur = false)

/-- The instruction of context `c` may go on (R510, R351): the interval of a redundant member is closed, the context is no
shadow, and what its release at scope `sc` asks for is performed; `u` is the state then. -/
def State.Released (s : State) (c : CtxId) (ops : List Word) (sc : Nat) (u : State) : Prop :=
  ∃ v, s.closeInterval c ops = (v, true) ∧ (v.ctx c).isShadow = false ∧ v.release c ((v.ctx c).effScope sc) .message = (u, true)

/-- R264-R266: SEAL enters the buffer that its descriptor names in the table of the home die; UNSEAL of a buffer that no die
holds frees its entry at once, and else drains it; RELB gives up the copies of this die. -/
def SealClaims : Prop :=
  ∀ a : BitVec 5,
    (∀ (s s1 s2 u v w : State) (bs : List Byte) (x : Access) (i : Nat), s.issues (encode (.seal a)) = true →
      let s0 := s.issued (encode (.seal a))
      let base := blockWord bs 0
      let n := (blockWord bs 1).toNat
      let home := s2.homeKey x.pa
      s0.ReadsBlock s.cur (s.here.rx a) 16 bs s1 → base.toNat % 64 = 0 → n % 64 = 0 → n ≠ 0 →
      s1.walkReady (s1.agent s.cur) [base] 1 = some s2 → s2.checkAccess (s1.agent s.cur) .store base 1 = .ok x →
      s2.sealRange base x n = true → (s2.die home).sealMeets x.pa n = false → (s2.die home).sealSlot = some i →
      (s2.fillTlb (s1.agent s.cur) base x.xl).closeInterval s.cur [base, blockWord bs 1] = (u, true) →
      (u.ctx s.cur).isShadow = false → u.release s.cur 4 .access = (v, true) → v.rangeHome x.pa n = (w, true) →
      exec (.seal a) s = .next ((w.modDie home fun d =>
        { d with seals := d.seals.set i { base := x.pa, len := n, did := s.did s.cur, draining := false,
                                           holders := [] } }).retire s.cur)) ∧
    (∀ (s s0 u : State) (home i : Nat) (e : Seal), s.issues (encode (.unseal a)) = true →
      (s.issued (encode (.unseal a))).walkReady (s.agent s.cur) [s.here.rx a] 1 = some s0 →
      s0.sealNamed s.cur (s.here.rx a) = .ok (some (home, i, e)) →
      s0.closeInterval s.cur [s.here.rx a] = (u, true) → (u.ctx s.cur).isShadow = false →
      (e.holders = [] → exec (.unseal a) s = .next (((u.modCtx s.cur fun k => { k with sealWait := none }).freeSeal
        home i).retire s.cur)) ∧
      (e.holders ≠ [] → exec (.unseal a) s = .next ((u.modDie home fun d =>
        { d with seals := d.seals.set i { e with draining := true } }).modCtx s.cur fun k =>
          { k with sealWait := some (home, i), bounded := false, passed := some k.pc }))) ∧
    (∀ (s s0 : State) (home i : Nat) (e : Seal), s.issues (encode (.relb a)) = true →
      (s.issued (encode (.relb a))).walkReady (s.agent s.cur) [s.here.rx a] 1 = some s0 →
      s0.sealNamed s.cur (s.here.rx a) = .ok (some (home, i, e)) →
      exec (.relb a) s = .next ((s0.dropSealed (dieOf s.cur) home i e).retire s.cur)) ∧
    (∀ (s s0 : State), s.issues (encode (.relb a)) = true →
      (s.issued (encode (.relb a))).walkReady (s.agent s.cur) [s.here.rx a] 1 = some s0 →
      s0.sealNamed s.cur (s.here.rx a) = .ok none → exec (.relb a) s = .next (s0.retire s.cur)) ∧
    (∀ (s s0 : State), s.issues (encode (.unseal a)) = true →
      (s.issued (encode (.unseal a))).walkReady (s.agent s.cur) [s.here.rx a] 1 = some s0 →
      s0.sealNamed s.cur (s.here.rx a) = .ok none →
      exec (.unseal a) s = .next (s0.trap s.cur (mkTrap 9 (s.here.rx a))))

/-- The world of a context and of its cluster's Levanter engine agree (R426). -/
def State.levAgrees (s : State) : Prop :=
  (s.here.mode = .m ↔ (s.die (dieOf s.cur)).levW.getLsbD (clusterOf (coreOf s.cur)) = true)

/-- R257-R259, R441: an LX instruction reads its record, queues the job that it names, and writes the job's identifier to
x[d]; with the queue full, or the places of the core (R427) or of the domain (R432) used, it waits. -/
def IssuesJob (i : Instr) (kind : JobKind) (d a : BitVec 5) (sc : BitVec 3) (acq rel : BitVec 1) : Prop :=
  ∀ (s s0 u v : State) (x : Access), s.issues (encode i) = true →
    let s1 := s.issued (encode i)
    let c := s.cur
    let die := dieOf c
    let cl := clusterOf (coreOf c)
    s1.levAgrees → s1.walkReady (s1.agent c) [s.here.rx a] 64 = some s0 →
    s0.recordCheck (s1.agent c) (s.here.rx a) = .ok x →
    s0.closeInterval c [s.here.rx a] = (u, true) → (u.ctx c).isShadow = false →
    (acq = 1 → u.release c ((u.ctx c).effScope sc.toNat) .access = (v, true)) → (acq = 0 → v = u) →
    let q := (v.die die).queue cl
    let core := q.filter fun j => decide (coreOf j.ctx = coreOf c)
    let mine := core.filter fun j => decide (j.did = (v.agent c).did)
    (∀ r bs, q.length < Config.jobQueueDepth → core.length < corePlaces → mine.length < v.levanterPlaces c →
      v.ReadsBlock c (s.here.rx a) 64 bs r →
      let id : Word := BitVec.ofNat 64 ((v.ctx c).jobs.toNat + slotOf c * 2 ^ 16 + coreOf c % 64 * 2 ^ 19 + die * 2 ^ 25)
      let job : Job :=
        { id := id, ctx := c, did := (v.agent c).did, mode := (v.agent c).mode, sptb := (v.agent c).sptb,
          hptb := (v.agent c).hptb, kind := kind, recPa := x.pa, recSh := writeShared (v.agent c) x, acq := acq = 1,
          rel := rel = 1, scope := sc, st := .waiting, ctl := blockWord bs 0, src := blockWord bs 1,
          dst := blockWord bs 2, n := blockWord bs 3, idx := blockWord bs 4, dup := blockWord bs 5,
          prog := (blockWord bs 6).toNat, before := [], got := [], ended := none, recorded := false, written := false,
          ticket := { dom := 0, no := 0 }, waitFor := (r.pend.filter fun p => p.isOf c).map fun p => p.id,
          seen := r.stillPending (r.ctx c).seen, due := none }
      exec i s = .next ((((r.setQueue die cl (q ++ [job])).soon (.jobSchedule die cl)).modCtx c fun k =>
        { k with jobs := k.jobs + 1 }).retireX c d id)) ∧
    (Config.jobQueueDepth ≤ q.length ∨ corePlaces ≤ core.length ∨ v.levanterPlaces c ≤ mine.length →
      exec i s = .next (v.modCtx c fun k => { k with bounded := false, passed := some k.pc }))

/-- R257-R259: the three jobs, and LXPOLL. -/
def JobClaims : Prop :=
  ∀ (d a : BitVec 5) (sc : BitVec 3) (q e : BitVec 1),
    IssuesJob (.lxcopy d a sc q e) .copy d a sc q e ∧ IssuesJob (.lxgath d a sc q e) .gather d a sc q e ∧
    IssuesJob (.lxscat d a sc q e) .scatter d a sc q e ∧
    Acts (.lxpoll d a) (fun s => s.levAgrees ∧ s.here.red = none ∧ s.here.log = none)
      (fun s => s.retireX s.cur d (match ((s.die (bits (s.here.rx a) 28 25)).queue (bits (s.here.rx a) 24 22)).find?
          (fun j => decide (j.id = s.here.rx a) && decide (j.did = s.did s.cur) && j.ended.isNone) with
        | none => 0
        | some j => match j.st with
          | .waiting => 1
          | .running => 2
          | .suspended => 3)) ∧
    (∀ i, i ∈ [Instr.lxcopy d a sc q e, .lxgath d a sc q e, .lxscat d a sc q e, .lxpoll d a] →
      OpenTrapWhen i 9 (fun s => ¬ s.levAgrees))

/-! Tasks and gangs. -/

/-- The state with the entry of a gang replaced. -/
def State.putGang (s : State) (g : Nat) (e : Gang) : State := { s with gangs := s.gangs.set g e }

/-- R267, R268: RSPAWN checks its operands in order, performs a release at the narrowest scope that holds both cores, and
waits for the answer.  A die number of 12 to 15 names a core with a reset entry, the model's choice (log entry 65). -/
def SpawnClaims : Prop :=
  ∀ (a b : BitVec 5),
    (∀ (s u : State), s.issues (encode (.rspawn a b)) = true →
      let s1 := s.issued (encode (.rspawn a b))
      let core := spawnCore (s.here.rx a)
      (s.here.rx a).toNat < 1024 → (s.here.rx b).toNat % 4 = 0 → canonical s.here.mode (s.here.rx b) = true →
      (s1.core core).part.toNat = s1.part s.cur →
      s1.Released s.cur [s.here.rx a, s.here.rx b] (narrowScope s.cur (core * 8)) u →
      exec (.rspawn a b) s = .next ((u.modCtx s.cur fun k => { k with wait := .answer 0 }).soon
        (.spawnRequestArrival s.cur core (s.here.rx b)))) ∧
    Acts (.rspawn a b) (fun s => 1024 ≤ (s.here.rx a).toNat) (fun s => s.trap s.cur (mkTrap 9 (s.here.rx a))) ∧
    Acts (.rspawn a b) (fun s => (s.here.rx a).toNat < 1024 ∧ (s.here.rx b).toNat % 4 ≠ 0)
      (fun s => s.trap s.cur (mkTrap 5 (s.here.rx b))) ∧
    Acts (.rspawn a b) (fun s => (s.here.rx a).toNat < 1024 ∧ (s.here.rx b).toNat % 4 = 0 ∧
        canonical s.here.mode (s.here.rx b) = false)
      (fun s => s.trap s.cur (mkTrap 8 (s.here.rx b))) ∧
    Acts (.rspawn a b) (fun s => (s.here.rx a).toNat < 1024 ∧ (s.here.rx b).toNat % 4 = 0 ∧
        canonical s.here.mode (s.here.rx b) = true ∧ (s.core (spawnCore (s.here.rx a))).part.toNat ≠ s.part s.cur)
      (fun s => s.trap s.cur (mkTrap 10 (s.here.rx a)))

/-- R269-R272: DQPUSH puts the record at the bottom of the deque, and with 32 records there moves the top one to the newest place of
the spill ring in pane 63, or traps; DQPOP takes the bottom record, else the ring's newest, else it asks the first victim of its
steal domain; both need the deque to be empty or the domain's own. -/
def DequeClaims : Prop :=
  ∀ (d a b : BitVec 5),
    let t (s : State) : Task := { pc := s.here.rx a, a0 := s.here.rx 10, a1 := s.here.rx 11, a2 := s.here.rx 12,
                                  a3 := s.here.rx 13, join := s.here.rx b }
    let mine (s : State) : Prop := s.coreHere.dqEmpty = true ∨ s.coreHere.dqOwner = s.did s.cur
    let alone (s : State) : Prop := s.here.red = none ∧ s.here.log = none
    let ring (s : State) : Nat := s.coreHere.ringSize (physLanes (coreOf s.cur))
    let room (s : State) : Prop := (s.coreHere.pane 63).state = 2 ∧ (s.coreHere.pane 63).owner = s.did s.cur ∧
      (s.coreHere.ringCnt = 0 → (s.coreHere.pane 63).held = false) ∧ s.coreHere.ringCnt < ring s
    let takes (s u : State) (e : Task) : State := (u.modCtx s.cur fun k =>
      ((((k.wx 10 e.a0).wx 11 e.a1).wx 12 e.a2).wx 13 e.a3).wx 14 e.join).retireX s.cur d e.pc
    Acts (.dqpush a b) (fun s => mine s ∧ s.coreHere.deque.length < 32)
      (fun s => (s.setCore (coreOf s.cur) { s.coreHere with deque := t s :: s.coreHere.deque,
                                                              dqOwner := s.did s.cur }).retire s.cur) ∧
    Acts (.dqpush a b) (fun s => mine s ∧ 32 ≤ s.coreHere.deque.length ∧ room s)
      (fun s => (s.setCore (coreOf s.cur) (({ s.coreHere.paneWrite (s.coreHere.pane 63) (physLanes (coreOf s.cur))
          (64 * ((s.coreHere.ringOld + s.coreHere.ringCnt) % ring s)) (s.coreHere.deque.getLastD (t s)).bytes with
            deque := t s :: s.coreHere.deque.dropLast, ringCnt := s.coreHere.ringCnt + 1 } : Core).modPane 63 fun p =>
              { p with held := true })).retire s.cur) ∧
    OpenTrapWhen (.dqpush a b) 10 (fun s => ¬ mine s) ∧
    OpenTrapWhen (.dqpush a b) 13 (fun s => mine s ∧ 32 ≤ s.coreHere.deque.length ∧ ¬ room s) ∧
    (∀ (s : State) (e : Task) (r : List Task), s.issues (encode (.dqpop d)) = true → alone s → mine s →
      s.coreHere.deque = e :: r → exec (.dqpop d) s =
        .next (takes s ((s.issued (encode (.dqpop d))).setCore (coreOf s.cur) { s.coreHere with deque := r }) e)) ∧
    (∀ s : State, s.issues (encode (.dqpop d)) = true → alone s → s.coreHere.dqOwner = s.did s.cur → s.coreHere.deque = [] →
      s.coreHere.ringCnt ≠ 0 →
      let k := s.coreHere
      exec (.dqpop d) s = .next (takes s ((s.issued (encode (.dqpop d))).setCore (coreOf s.cur)
          ({ k with ringCnt := k.ringCnt - 1 } : Core).ringHeld)
        (k.ringRecord (physLanes (coreOf s.cur)) ((k.ringOld + k.ringCnt - 1) % ring s)))) ∧
    OpenTrapWhen (.dqpop d) 10 (fun s => alone s ∧ ¬ mine s) ∧
    Acts (.dqpop d) (fun s => alone s ∧ s.coreHere.dqEmpty = true ∧ s.victims s.cur = [])
      (fun s => (s.modCtx s.cur fun k => { k with wait := .none }).retireX s.cur d 0) ∧
    (∀ (s : State) (x : CoreId) (xs : List CoreId), s.issues (encode (.dqpop d)) = true → alone s → s.coreHere.dqEmpty = true →
      (s.issued (encode (.dqpop d))).victims s.cur = x :: xs →
      exec (.dqpop d) s = .next (((s.issued (encode (.dqpop d))).modCtx s.cur fun k => { k with wait := .answer d }).soon
        (.stealRequest s.cur x))) ∧
    (∀ (s : State) (x : CoreId), x ∈ s.victims s.cur → x ≠ coreOf s.cur ∧ (s.core x).harv = false ∧
      ((s.core x).dqEmpty = true ∨ (s.core x).dqOwner = s.did s.cur))

/-- R274, R276: GNEW makes a gang of x[a] members to come, with the lowest free number; GADD adds the next member, and the
last one activates the gang. -/
def GangClaims : Prop :=
  ∀ (d a b : BitVec 5),
    (∀ (s : State) (g : Nat), s.here.mode ≠ .u → s.issuesIf (encode (.gnew d a)) false = true →
      1 ≤ (s.here.rx a).toNat → (s.here.rx a).toNat ≤ 8192 →
      (upFrom 1 4095).find? (fun g => (s.gang? g).isNone) = some g →
      exec (.gnew d a) s = .next (((s.issued (encode (.gnew d a))).putGang g
        { st := .forming, size := (s.here.rx a).toNat, members := [], entries := [], gen := 0 }).retireX
          s.cur d (BitVec.ofNat 64 g))) ∧
    ActsUnless (.gnew d a) (fun s => decide (s.here.mode = .u)) (fun s => s.here.rx a = 0 ∨ 8192 < (s.here.rx a).toNat ∨
        ∀ g, 1 ≤ g → g ≤ 4095 → s.gang? g ≠ none)
      (fun s => s.retireX s.cur d (BitVec.allOnes 64)) ∧
    (∀ (s : State) (e : Gang), s.here.mode ≠ .u → s.issuesIf (encode (.gadd a b)) false = true →
      let s1 := s.issued (encode (.gadd a b))
      let t := (s.here.rx b).toNat % 8192
      s1.gang? (s.here.rx a).toNat = some e → e.st = .forming → bits (s.here.rx b) 18 13 = s.pkgNum → dieOf t < 12 →
      s1.part t = s1.part s.cur → (∀ m, e.members.head? = some m → s1.did m = s1.did t) → slotOf t ≠ 7 →
      (s1.core (coreOf t)).harv = false → s1.isMember t = false →
      (e.members.length + 1 < e.size → exec (.gadd a b) s = .next ((s1.putGang (s.here.rx a).toNat
        { e with members := e.members ++ [t] }).retire s.cur)) ∧
      (e.members.length + 1 = e.size → exec (.gadd a b) s = .next ((s1.activate (s.here.rx a).toNat
        { e with members := e.members ++ [t] }).retire s.cur)))

/-- R275-R277: an activated gang: each member has the gang's number, its rank in the order of its GADD, and an entry of its
coordinate. -/
def ActivateClaims : Prop :=
  ∀ (s : State) (g : Nat) (e : Gang), e.members.Nodup → g ≠ 0 →
    let t := s.activate g e
    (∃ e', t.gang? g = some e' ∧ e'.st = .active ∧ e'.members = e.members ∧ e'.gen = 0 ∧
      e'.entries = e.members.map fun m => { coord := s.coord m, it := false, v := true }) ∧
    (∀ r, ∀ h : r < e.members.length, (t.ctx e.members[r]).gang = g ∧ (t.ctx e.members[r]).rank = r ∧
      (t.ctx e.members[r]).gbarGen = 0 ∧ (t.ctx e.members[r]).arrived = false ∧
      (t.ctx e.members[r]).x = (s.ctx e.members[r]).x ∧ (t.ctx e.members[r]).pc = (s.ctx e.members[r]).pc) ∧
    (∀ c, c ∉ e.members → t.ctx c = s.ctx c) ∧ t.mem = s.mem

/-- R276, R393: GSTOP stops an active gang and retires once it is stopped; GRESUME makes a stopped gang active again, or
frees it with bit 63; on an active gang it has no effect, or traps with bit 63.  On a stopping gang, which the table of R276 leaves
out, it does as on an active one: the model's choice (log entry 29).  So is x[a] as the trap value (log entry 17). -/
def GangStopClaims : Prop :=
  ∀ a : BitVec 5,
    (∀ (s : State) (e : Gang), s.here.mode ≠ .u → s.issuesIf (encode (.gstop a)) false = true →
      (s.issued (encode (.gstop a))).namedGang (s.here.rx a) = some e →
      (e.st = .stopped → exec (.gstop a) s = .next ((s.issued (encode (.gstop a))).retire s.cur)) ∧
      (e.st = .stopping → exec (.gstop a) s = .next ((s.issued (encode (.gstop a))).modCtx s.cur fun k =>
        { k with bounded := false, passed := some k.pc })) ∧
      (e.st = .active → ∃ t, exec (.gstop a) s = .next t ∧
        (∃ e', t.gang? (bits (s.here.rx a) 11 0) = some e' ∧ e'.st = .stopping ∧ e'.members = e.members) ∧
        (∀ m, m ∈ e.members → (t.ctx m).pendStop = some (BitVec.ofNat 64 (bits (s.here.rx a) 11 0))) ∧
        (t.ctx s.cur).pc = s.here.pc)) ∧
    (∀ (s : State) (e : Gang), s.here.mode ≠ .u → s.issuesIf (encode (.gresume a)) false = true →
      (s.issued (encode (.gresume a))).namedGang (s.here.rx a) = some e →
      (e.st = .stopped → (s.here.rx a).getLsbD 63 = false →
        exec (.gresume a) s = .next (((s.issued (encode (.gresume a))).putGang (bits (s.here.rx a) 11 0)
          { e with st := .active }).retire s.cur)) ∧
      (e.st = .stopped → (s.here.rx a).getLsbD 63 = true →
        exec (.gresume a) s = .next (((s.issued (encode (.gresume a))).freeGang (bits (s.here.rx a) 11 0) e).retire s.cur)) ∧
      (e.st ≠ .stopped → (s.here.rx a).getLsbD 63 = true →
        exec (.gresume a) s = .next ((s.issued (encode (.gresume a))).trap s.cur (mkTrap 9 (s.here.rx a)))) ∧
      (e.st ≠ .stopped → (s.here.rx a).getLsbD 63 = false →
        exec (.gresume a) s = .next ((s.issued (encode (.gresume a))).retire s.cur))) ∧
    ActsUnless (.gstop a) (fun s => decide (s.here.mode = .u)) (fun s => s.namedGang (s.here.rx a) = none)
      (fun s => s.trap s.cur (mkTrap 9 (s.here.rx a))) ∧
    ActsUnless (.gresume a) (fun s => decide (s.here.mode = .u)) (fun s => s.namedGang (s.here.rx a) = none)
      (fun s => s.trap s.cur (mkTrap 9 (s.here.rx a)))

/-- The gang of the context whose turn it is, outside a handler (R277). -/
def State.gangHere (s : State) : Option Gang := if s.here.depth = 0 ∧ s.here.gang ≠ 0 then s.gang? s.here.gang else none

/-- R277, R278: GBAR arrives with a release at the gang's scope and parks the context until its generation completes; GCAST
copies a pane or a sealed buffer to the pane of every core of the gang. -/
def BarrierClaims : Prop :=
  (∀ (s u : State) (g : Gang), s.issues (encode .gbar) = true → s.gangHere = some g → s.here.arrived = false →
    (s.issued (encode .gbar)).Released s.cur [] g.scope u →
    exec .gbar s = .next ((u.modCtx s.cur fun k => { k with arrived := true, bounded := false, passed := some k.pc, run := .parked .gbar }).soon
      (.gbarArrivalSignal s.here.gang s.here.rank))) ∧
  IllegalWhen .gbar (fun s => s.gangHere = none) ∧
  (∀ (s : State) (g : Gang), s.issues (encode .gbar) = true → s.gangHere = some g → s.here.gbarGen < g.gen →
    s.here.arrived = true →
    exec .gbar s = .next ((g.members.foldl (fun t p => t.synced p s.cur) (s.issued (encode .gbar))).modCtx s.cur fun k =>
      { k.retired with run := .running, gbarGen := k.gbarGen + 1, arrived := false })) ∧
  Acts .gbar (fun s => (∃ g, s.gangHere = some g ∧ g.gen ≤ s.here.gbarGen) ∧ s.here.arrived = true)
    (fun s => s.modCtx s.cur fun k => { k with run := .parked .gbar, bounded := false, passed := some k.pc }) ∧
  (∀ (a b : BitVec 5) (s u : State) (g : Gang), s.issues (encode (.gcast a b)) = true →
    let s1 := s.issued (encode (.gcast a b))
    let c := s.cur
    let p := bits (s.here.rx b) 5 0
    let n := 64 * bits (s.here.rx b) 31 6
    let vas := (upFrom 0 (n / 64)).map fun i => s.here.rx a + BitVec.ofNat 64 (64 * i)
    let ms := g.members.filter fun m => decide (s.here.rx a ≠ 0) || decide (coreOf m ≠ coreOf c)
    let ds := (ms.map coreOf).eraseDups
    let sent (bs : List Byte) (t : State) : State :=
      let u := ds.foldl (fun t m =>
        (t.modCore m fun q => (q.paneWrite (q.pane p) (physLanes m) 0 bs).modPane p fun z =>
          { z with state := 1, held := true }).soon (.gcastCopyLanded m p)) t
      if ds = [] then u.castDone c else u.modCtx c fun k => { k with wait := .answer 0, casts := ds.map fun m => (m, p) }
    s.gangHere = some g → zeroBits (s.here.rx b) 63 32 = true →
    (∀ m, m ∈ ms → let q := (s1.core (coreOf m)).pane p
      q.state = 2 ∧ q.held = false ∧ q.owner = s1.did m ∧ n ≤ q.size * physLanes (coreOf m)) →
    (let q := s1.coreHere.pane p
     s.here.rx a = 0 → q.state = 2 → n ≤ q.size * physLanes (coreOf c) →
      s1.Released c [s.here.rx a, s.here.rx b] g.scope u →
      exec (.gcast a b) s = .next (sent ((u.core (coreOf c)).paneRead q (physLanes (coreOf c)) 0 n)
        ((u.modCore (coreOf c) fun k => k.modPane p fun z => { z with state := 3, held := true }).modCtx c fun k =>
          { k with castSrc := some p }))) ∧
    (∀ s0 as r, s.here.rx a ≠ 0 → s1.walkReady (s1.agent c) vas 64 = some s0 → s1.castLines c (s.here.rx a) n = .ok as →
      s0.Released c [s.here.rx a, s.here.rx b] g.scope u → u.readLines (dieOf c) (accLines as) = some r →
      exec (.gcast a b) s = .next (sent (as.flatMap fun x => r.view c (dieOf c) x.pa 64) (r.takeReads c as 64)))) ∧
  (∀ a b : BitVec 5, IllegalWhen (.gcast a b) (fun s => s.gangHere = none))

/-- R273: JOINDEC decrements the counter at x[a], with sequential consistency at scope 4, and writes the new value to x[d]. -/
def JoinDecClaims : Prop :=
  ∀ (d a : BitVec 5) (s u : State) (x : Access), s.issues (encode (.joindec d a)) = true → s.here.red = none →
    s.here.log = none →
    (s.issued (encode (.joindec d a))).AtomicReaches .amo (s.here.rx a) 8 4 4 [s.here.rx a, BitVec.allOnes 64] x u →
    let v := u.flushSeen s.cur x.pa 8
    let old := natOf (v.mem.readN x.pa 8)
    exec (.joindec d a) s = .next ((((v.noteRead s.cur true x.pa 8).writeHome s.cur x.pa
      (bytesOf ((old + (2 ^ 64 - 1)) % 2 ^ 64) 8) (writeShared (s.agent s.cur) x) (s.did s.cur)).retireX s.cur d
        (BitVec.ofNat 64 old - 1)).awaitReply s.cur)

/-! Messages and time. -/

/-- R279-R281: MSEND of kinds DATA, SPAWN and REGW reads its payload at x[b] (WAKE reads none), performs a release, and
hands the message to its core, which takes it or not yet. -/
def SendClaims : Prop :=
  ∀ (a b : BitVec 5) (kd : BitVec 2),
    (∀ (s r u v : State) (g : Gang) (bs : List Byte) (took : Bool), s.issues (encode (.msend a b kd)) = true →
      let s1 := s.issued (encode (.msend a b kd))
      s.gangHere = some g → (s.here.rx a).toNat < 8192 → (s.here.rx a).toNat < g.size →
      (kd = 2 → bs = [] ∧ r = s1) → (kd ≠ 2 → s1.ReadsBlock s.cur (s.here.rx b) 64 bs r) →
      let m : Msg := { kind := kd, org := false, srank := s.here.rank, gang := s.here.gang, trank := (s.here.rx a).toNat,
                       payload := BitVec.ofNat 512 (natOf bs) }
      r.Released s.cur (s.here.rx a :: (upFrom 0 8).map (msgWord m))
        (narrowScope s.cur (g.entry (s.here.rx a).toNat).target) u →
      u.acceptMsg (coreOf s.cur) m = (v, took) →
      exec (.msend a b kd) s = .next (if took = true then v.retire s.cur
        else v.modCtx s.cur fun k => { k with bounded := false, passed := some k.pc })) ∧
    IllegalWhen (.msend a b kd) (fun s => s.gangHere = none) ∧
    Acts (.msend a b kd) (fun s => ∃ g, s.gangHere = some g ∧ (8192 ≤ (s.here.rx a).toNat ∨ g.size ≤ (s.here.rx a).toNat))
      (fun s => s.trap s.cur (mkTrap 9 (s.here.rx a)))

/-- R282: MRECV of an empty mailbox, or in a handler's gate, writes 0; with a message it stores the 64 payload bytes at x[a]
(in HBM, in host memory or through a peer window), writes the header to x[d], and removes the message. -/
def ReceiveClaims : Prop :=
  ∀ (d a : BitVec 5),
    Acts (.mrecv d a) (fun s => s.here.depth ≠ 0) (fun s => s.retireX s.cur d 0) ∧
    Acts (.mrecv d a) (fun s => s.here.mailbox = [] ∧ s.here.red = none ∧ s.here.log = none) (fun s => s.retireX s.cur d 0) ∧
    (∀ (s u : State) (m : Msg) (rest : List Msg) (x : Access), s.issues (encode (.mrecv d a)) = true → s.here.depth = 0 →
      s.here.red = none → s.here.log = none → s.here.mailbox = m :: rest →
      (s.issued (encode (.mrecv d a))).Reaches s.cur .store (s.here.rx a) 64 false 0 0 [] x u →
      let bs := (upFrom 0 8).flatMap fun i => bytesOf (msgWord m i).toNat 8
      let taken (t : State) : State := (t.modCtx s.cur fun k => { k with mailbox := k.mailbox.drop 1 }).retireX s.cur d
        (BitVec.ofNat 64 (1 + 2 * b2n m.org + 4 * (m.srank % 8192)))
      (x.place = .hbm → u.leaseFree x.pa 64 = true → exec (.mrecv d a) s = .next ((taken
        (u.writeHome s.cur x.pa bs (writeShared (s.agent s.cur) x) (s.did s.cur))).awaitReply s.cur)) ∧
      ((∃ p, x.place = .host p) ∨ (∃ p w off, x.place = .peer p w off) →
        exec (.mrecv d a) s = .next ((taken (u.outboundWrite s.cur x bs)).awaitFar s.cur)))

/-- R283, R284: WAITM returns at once with a message waiting, starts a held SPAWN, consumes a wake, and else parks; WAITT
parks until its time and marks a time already past; TIMEQ reads the time and the mark. -/
def WaitClaims : Prop :=
  ∀ (d a : BitVec 5),
    (let plain (s : State) : Prop := s.here.depth = 0 ∧ s.here.log = none
     Acts .waitm (fun s => plain s ∧ s.here.mailbox ≠ []) (fun s => s.retire s.cur) ∧
     (∀ m : Msg, Acts .waitm (fun s => plain s ∧ s.here.mailbox = [] ∧ s.here.spawn = some m)
       (fun s => s.modCtx s.cur fun k => { k.startMsg m with spawn := k.spawnq.head?, spawnq := k.spawnq.drop 1 })) ∧
     Acts .waitm (fun s => plain s ∧ s.here.mailbox = [] ∧ s.here.spawn = none ∧ s.here.wake = true)
       (fun s => (s.modCtx s.cur fun k => { k with wake := false }).retire s.cur) ∧
     Acts .waitm (fun s => plain s ∧ s.here.mailbox = [] ∧ s.here.spawn = none ∧ s.here.wake = false)
       (fun s => s.modCtx s.cur fun k => { k with run := .parked .waitm, bounded := false, passed := some k.pc }) ∧
     IllegalWhen .waitm (fun s => s.here.depth ≠ 0)) ∧
    Acts (.waitt a) (fun s => (s.here.rx a).toNat < (s.time (dieOf s.cur)).toNat)
      (fun s => (s.modCtx s.cur fun k => { k with missed := true }).retire s.cur) ∧
    Acts (.waitt a) (fun s => (s.time (dieOf s.cur)).toNat ≤ (s.here.rx a).toNat)
      (fun s => s.modCtx s.cur fun k =>
        { k with run := .parked (.waitt (s.here.rx a)), bounded := false, passed := some k.pc }) ∧
    Acts (.timeq d) (fun s => s.here.log = none ∧ s.here.red = none)
      (fun s => (s.modCtx s.cur fun k => { k with missed := false }).retireX s.cur d
        (BitVec.ofNat 64 ((s.time (dieOf s.cur)).toNat % 2 ^ 63 + 2 ^ 63 * b2n s.here.missed)))

/-! System instructions. -/

/-- The state of a context makes the word of `i` illegal before every other check (R87): the trap holds the word, and every
earlier instruction completes in its queue before it (R88). -/
def ForbiddenWhen (i : Instr) (bad : State → Prop) : Prop :=
  ∀ s : State, (∀ p, s.here.pfx = some p → p.restored = false) → bad s →
    exec i s = .next ((s.settle s.cur).trap s.cur (mkTrap 0 ((encode i).zeroExtend 64)))

/-- R443-R446: ECALL traps with the cause of its mode, and is illegal in M; EBREAK traps with its address.  From H, a service
number in x10 also puts the step by which the firmware's service acts (R508) on the agenda: the model's choice (log entry 42), as
R444 gives ECALL no effect beside its trap. -/
def CallClaims : Prop :=
  Acts .ecall (fun s => s.here.mode = .u) (fun s => s.trap s.cur (mkTrap 14 0)) ∧
  Acts .ecall (fun s => s.here.mode = .s) (fun s => s.trap s.cur (mkTrap 15 0)) ∧
  Acts .ecall (fun s => s.here.mode = .h ∧ ∀ n, n ∈ [0x100, 0x101, 0x110, 0x111, 0x112] → s.here.rx 10 ≠ BitVec.ofNat 64 n)
    (fun s => s.trap s.cur (mkTrap 16 0)) ∧
  (∀ c n i, (n, i) ∈ [(0x100#64, Instr.redundantOn c), (0x101, .redundantOff c), (0x110, .recordOn c), (0x111, .replayOn c),
      (0x112, .recordReplayOff c)] →
    Acts .ecall (fun s => s.here.mode = .h ∧ s.here.rx 10 = n ∧ s.cur = c)
      (fun s => (s.trap s.cur (mkTrap 16 0)).after 0 i)) ∧
  IllegalWhen .ecall (fun s => s.here.mode = .m) ∧
  Acts .ebreak (fun _ => True) (fun s => s.trap s.cur (mkTrap 17 s.here.pc))

/-- What a fence of scope `sc` waits for is done (R447): its release, and the jobs of the context; `u` is the state then. -/
def State.Fenced (s : State) (sc : Nat) (u : State) : Prop :=
  ∃ v, s.closeInterval s.cur [] = (v, true) ∧ v.release s.cur ((v.ctx s.cur).effScope sc) .fence = (u, true) ∧
    u.jobsDone s.cur = true

/-- R447, R448, R455: FENCE and CHKPT retire when what they wait for is done; FENCEI retires when every earlier store of its
context is performed at DIE, and empties the instruction cache of its core. -/
def FenceClaims : Prop :=
  (∀ (sh : BitVec 3) (s u : State), sh.toNat ≤ 4 → s.issues (encode (.fence sh)) = true →
    (s.issued (encode (.fence sh))).Fenced sh.toNat u → exec (.fence sh) s = .next (u.retire s.cur)) ∧
  (∀ s u : State, s.issues (encode .chkpt) = true → (s.issued (encode .chkpt)).Fenced 4 u →
    exec .chkpt s = .next (u.retire s.cur)) ∧
  (∀ s v : State, s.issues (encode .fencei) = true → (s.issued (encode .fencei)).closeInterval s.cur [] = (v, true) →
    v.storesDone s.cur = true →
    exec .fencei s = .next ((v.modCore (coreOf s.cur) fun k => { k with icache := [] }).retire s.cur)) ∧
  (∀ sh : BitVec 3, Acts (.fence sh) (fun s => sh.toNat ≤ 4 ∧ s.here.red = none ∧ s.here.vq = [] ∧ s.here.vchk = none ∧
      s.pend = [] ∧ s.jobsDone s.cur = true)
    (fun s => (s.modCtx s.cur fun k => { k with seen := [], acq := [], pub := [], sent := [] }).retire s.cur))

/-- R449, R450: TLBINV removes the entries that its operands name, of its own partition below M; the operand bits that it does not
define must be zero. -/
def TlbClaims : Prop :=
  ∀ (a b : BitVec 5) (t : BitVec 2),
    (∀ (s v u : State), s.issuesIf (encode (.tlbinv a b t)) false = true →
      (s.here.mode = .m ∨ s.here.mode = .h ∨ (s.here.mode = .s ∧ t = 0)) → t ≠ 3 →
      zeroBits (s.here.rx b) 15 14 = true → zeroBits (s.here.rx b) 63 28 = true →
      (s.here.mode = .s → zeroBits (s.here.rx b) 27 16 = true) →
      (s.issued (encode (.tlbinv a b t))).closeInterval s.cur [s.here.rx a, s.here.rx b] = (v, true) →
      v.release s.cur 3 .access = (u, true) → u.jobsDone s.cur = true →
      ∃ r, exec (.tlbinv a b t) s = .next r ∧ (r.ctx s.cur).pc = (u.ctx s.cur).pc + 4 ∧ r.mem = u.mem ∧
        ∀ e, e ∈ r.tlb ↔ e ∈ u.tlb ∧ ¬ ((s.here.mode = .m ∨ partOf e.did = s.part s.cur) ∧
          e.vmid.toNat = (if s.here.mode = .s then bits s.here.hptb 63 52 else bits (s.here.rx b) 27 16) ∧
          (t ≠ 0 ∨ (((s.here.rx b).getLsbD 12 = true ∨ bits (s.here.rx a) 47 0 / e.size = e.vpage) ∧
            ((s.here.rx b).getLsbD 13 = true ∨ e.g = true ∨ e.asid.toNat = bits (s.here.rx b) 11 0))))) ∧
    ActsUnless (.tlbinv a b t) (fun s => decide (t = 3 ∨ s.here.mode = .u ∨ (s.here.mode = .s ∧ t ≠ 0)))
      (fun s => zeroBits (s.here.rx b) 15 14 = false ∨ zeroBits (s.here.rx b) 63 28 = false ∨
        (s.here.mode = .s ∧ zeroBits (s.here.rx b) 27 16 = false))
      (fun s => (s.settle s.cur).trap s.cur (mkTrap 0 ((encode (.tlbinv a b t)).zeroExtend 64))) ∧
    ForbiddenWhen (.tlbinv a b t) (fun s => t = 3 ∨ s.here.mode = .u ∨ (s.here.mode = .s ∧ t ≠ 0))

/-- R454-R457: WFI parks a context with nothing pending; PFX becomes the prefix of the word after it. -/
def IdleClaims : Prop :=
  Acts .wfi (fun s => s.here.wfiReady = true) (fun s => s.retire s.cur) ∧
  Acts .wfi (fun s => s.here.wfiReady = false) (fun s => s.modCtx s.cur fun k =>
    { k with run := .parked .wfi, bounded := false, passed := some k.pc }) ∧
  ∀ (k : BitVec 2) (r c : BitVec 5) (n v : BitVec 1) (o sh : BitVec 3), pfxLegal (encode (.pfx k r n c v o sh)) = true →
    Acts (.pfx k r n c v o sh) (fun _ => True) (fun s => s.modCtx s.cur fun q =>
      { q.retired with pfx := some { word := encode (.pfx k r n c v o sh), restored := false } })

/-! Call gates. -/

/-- The entry of a gate has been read with its lease (R336, R438); `u` is the state then. -/
def State.GateRead (s : State) (c : CtxId) (n : Nat) (u : State) : Prop :=
  s.gateBarred c n = false ∧
    s.readLines (dieOf c) (if n < s.gateCount (s.part c) then linesOf (s.gateAddr (s.part c) n) 32 else []) = some u

/-- R438-R440, R451: DGATE through an open gate saves the caller in its frame, with its matrix state where it owns the array, and
enters the callee of the gate: only x10 to x17 are handed over, x2 is the gate's stack, the rest of the registers is zero.  In
slot 7, which never runs in U, it is illegal: the model's choice, as is the trap for a gate table that its granule bars (log entry
34). -/
def DgateClaims : Prop :=
  ∀ a : BitVec 5,
    (∀ (s s0 u : State), s.here.mode = .u ∨ s.here.mode = .s → slotOf s.cur ≠ 7 →
      s.issuesIf (encode (.dgate a)) false = true →
      let s1 := s.issued (encode (.dgate a))
      let c := s.cur
      let n := (s.here.rx a).toNat
      let fa := s1.frameAddr c s.here.depth
      let g := s1.gate c (s1.part c) n
      s1.GateRead c n s0 →
      (s0.gateOk c (s.here.rx a) = false → exec (.dgate a) s = .next (s0.trap c (mkTrap 11 (s.here.rx a)))) ∧
      (s0.gateOk c (s.here.rx a) = true → s0.frameOk c fa = false →
        exec (.dgate a) s = .next (s0.trap c (mkTrap 9 (BitVec.ofNat 64 fa)))) ∧
      (s0.gateOk c (s.here.rx a) = true → s0.frameOk c fa = true → s0.Fenced 4 u → u.vectorIdle c = true →
        (∀ l, u.frameError c fa = some l → exec (.dgate a) s = .next (u.trap c (mkTrap 20 (BitVec.ofNat 64 (64 * l))))) ∧
        (u.frameError c fa = none → ∃ t, exec (.dgate a) s = .next t ∧
          (let w := if s.here.isShadow then u else u.areaWrite c fa (u.frameBlocks c n)
           t.mem = w.mem ∧ t.pend = w.pend) ∧
          (t.ctx c).pc = g.entry ∧ (t.ctx c).mode = .u ∧
          (t.ctx c).did.toNat = (u.part c * 8 + bits g.ctl 3 1) % 128 ∧ (t.ctx c).sptb = g.tsptb ∧
          (t.ctx c).depth = (u.ctx c).depth + 1 ∧
          (∀ r : Fin 32, (t.ctx c).x[r] =
            if r.val = 2 then g.stack else if 10 ≤ r.val ∧ r.val ≤ 17 then (u.ctx c).x[r] else 0) ∧
          (t.ctx c).f = Vector.replicate 32 0 ∧ (t.ctx c).v = Vector.replicate 256 0 ∧
          (t.ctx c).m = Vector.replicate 64 0 ∧ (t.ctx c).form = 3 ∧ (t.ctx c).fstat = 0 ∧ (t.ctx c).vl = 0 ∧
          (t.ctx c).vrows = 0 ∧ (t.ctx c).tr = false ∧ (t.ctx c).lanes = (u.ctx c).lanes ∧
          (t.ctx c).resv = none ∧ (t.core (coreOf c)).defer.getLsbD (slotOf c) = true ∧
          (let q := u.core (coreOf c)
           let q' := t.core (coreOf c)
           q'.mown = q.mown ∧ (if u.ownsArray c then
             q'.acc = Vector.replicate 512 0 ∧ q'.plane = 0 ∧ q'.shadow = 0 ∧ q'.mstat = 0
           else q'.acc = q.acc ∧ q'.plane = q.plane ∧ q'.shadow = q.shadow ∧ q'.mstat = q.mstat))))) ∧
    ActsUnless (.dgate a) (fun s => decide (s.here.mode = .h ∨ s.here.mode = .m ∨ slotOf s.cur = 7))
      (fun s => s.gateBarred s.cur (s.here.rx a).toNat = true)
      (fun s => s.trap s.cur (mkTrap 9 (BitVec.ofNat 64 (s.gateAddr (s.part s.cur) (s.here.rx a).toNat)))) ∧
    ForbiddenWhen (.dgate a) (fun s => s.here.mode = .h ∨ s.here.mode = .m ∨ slotOf s.cur = 7)

/-- R439, R453: DRET restores the caller from the frame, but for x10 to x17, with the array where the frame holds matrix state;
SHAPE, FSTAT, v and m are what the frame holds. -/
def DretClaims : Prop :=
  ForbiddenWhen .dret (fun s => s.here.mode ≠ .u) ∧
  (∀ (s u r : State), s.here.mode = .u → s.issuesIf (encode .dret) false = true →
    let s1 := s.issued (encode .dret)
    let c := s.cur
    let core := coreOf c
    let fa := s1.frameAddr (s1.framer c) (s.here.depth - 1)
    let mat := decide (natOf (u.areaRead c (fa + 0x28) 8) = 1)
    let w (o : Nat) : Word := wordOf (r.areaRead c (fa + o) 8)
    s.here.depth ≠ 0 → s1.frameOk c fa = true → s1.Fenced 4 u → u.vectorIdle c = true →
    (mat = true → (u.core core).mq = [] ∧ (u.ctx (core * 8 + (u.core core).mown.toNat)).vq = []) →
    u.frameError c fa = none → u.readLines (dieOf c) (u.frameLines c fa mat) = some r →
    ∃ t, exec .dret s = .next t ∧ (t.ctx c).pc = w 0 ∧ (t.ctx c).did.toNat = bits (w 8) 6 0 ∧
      (t.ctx c).mode.toNat = bits (w 8) 9 8 ∧ (t.ctx c).form.toNat = (w 0x10).toNat % 2 ^ 14 ∧ (t.ctx c).sptb = w 0x38 ∧
      (t.ctx c).latch.toNat = (w 0x30).toNat % 32 ∧ (t.ctx c).depth = (u.ctx c).depth - 1 ∧
      (∀ i : Fin 32, (t.ctx c).x[i] = if (1 ≤ i.val ∧ i.val ≤ 9) ∨ 18 ≤ i.val then w (0x40 + 8 * i.val)
        else (u.ctx c).x[i]) ∧
      (∀ i : Fin 32, (t.ctx c).f[i] = w (0x140 + 8 * i.val)) ∧
      (t.ctx c).vl = bits (w 0x18) 12 0 ∧ (t.ctx c).vrows = bits (w 0x18) 19 16 ∧ (t.ctx c).tr = (w 0x18).getLsbD 20 ∧
      (t.ctx c).lanes = bits (w 0x18) 28 24 ∧ (s.here.isShadow = false → (t.ctx c).lg = bits (w 0x18) 30 29) ∧
      (t.ctx c).fstat.toNat = (w 0x20).toNat % 32 ∧
      (let k := (r.ctx c).loadImage (fun o => r.areaRead c (fa + (0x1000 + o)) 64) 0 (bits (w 0x18) 28 24)
       (t.ctx c).v = k.v ∧ (t.ctx c).m = k.m) ∧ (t.ctx c).missing = 0 ∧ (t.ctx c).resv = none ∧ t.mem = u.mem ∧
      t.core core = (if mat then { ((r.matRestore c core (fa + 0x4A000)).getD r).core core with
        mown := BitVec.ofNat 3 (slotOf c) } else r.core core)) ∧
  ActsUnless .dret (fun s => decide (s.here.mode ≠ .u)) (fun s => s.here.depth = 0)
    (fun s => s.trap s.cur (mkTrap 11 (BitVec.allOnes 64)))

/-- R380, R409, R411: a migration return, with everything of the context drained, resumes the thread in its destination at
the saved PC and mode, with its registers and its gang, and leaves its own context free where the destination was parked.  That the
ERET does so as one step is the model's choice (log entry 33). -/
def MigrationReturns : Prop :=
  ∀ (s u : State) (d : CtxId), s.issues (encode .eret) = true → let c := s.cur; let s1 := s.issued (encode .eret)
    s1.eretTrap c = none → s1.inStopped c = false → (s1.migTarget c).isSome = true → s1.release c 4 .message = (u, true) →
    u.migTarget c = some d → u.mayLeave c d = true → d ≠ c →
    ∃ t, exec .eret s = .next t ∧ (t.ctx d).pc = addr62 (u.ctx c).mb.epc ∧ (t.ctx d).mode = (u.ctx c).mb.pm ∧
      (t.ctx d).x = (u.ctx c).x ∧ (t.ctx d).f = (u.ctx c).f ∧ (t.ctx d).v = (u.ctx c).v ∧ (t.ctx d).gang = (u.ctx c).gang ∧
      (t.ctx d).run = .running ∧ (t.ctx d).resv = none ∧ (t.ctx c).pc = (u.ctx d).pc ∧
      (t.ctx c).x = Vector.replicate 32 0 ∧ (t.ctx c).gang = 0 ∧ (t.ctx c).mode = (u.ctx c).mb.pm ∧
      (t.ctx c).run = .parked .waitm ∧ (u.ownsArray c = true → (t.core (coreOf d)).mown.toNat = slotOf d)

/-- R412: where no destination can take a thread that has taken a migrate trap, it is back at its word, whose trap the
supervisor gets: illegal_instruction with the word, or the access fault of its save area.  That the ERET does so is the model's
choice (log entry 33). -/
def ReflectedReturns : Prop :=
  ∀ s : State, s.issues (encode .eret) = true → let c := s.cur; let s1 := s.issued (encode .eret)
    s1.eretTrap c = none → s1.inStopped c = false → s.here.swOut = none → s.here.stopped = false → s1.migTarget c = none →
    s1.migReflects c = true →
    ∃ t, exec .eret s = .next t ∧ (t.ctx c).mode = .s ∧ (t.ctx c).pc = addr62 s.here.sb.base ∧
      (t.ctx c).sb.epc = s.here.mb.epc ∧ (t.ctx c).sb.isAsync = false ∧ (t.ctx c).sb.pm = s.here.mb.pm ∧
      (if s1.ownsArray c = true ∧ s1.tsaveFree c = false
        then (t.ctx c).sb.code = 9 ∧ (t.ctx c).sb.tval = BitVec.ofNat 64 (areaPa s.here.tsave)
        else (t.ctx c).sb.code = 0 ∧ (t.ctx c).sb.tval = s.here.mb.tval) ∧
      (t.ctx c).x = s.here.x ∧ t.mem = s.mem

/-- R398, R380: ERET returns to what the trap bank of its mode saved: the PC, the mode, the DID, the latch, the prefix; AE
takes PAE, and the reservation is cleared.  Where a destination stands named (R409), it is a migration return. -/
def ReturnClaims : Prop :=
  (∀ s : State, s.issues (encode .eret) = true → let b := s.here.bank s.here.mode
    s.here.mode ≠ .u → b.pm.toNat ≤ s.here.mode.toNat → (slotOf s.cur = 7 → b.pm = .s ∨ b.pm = .m) →
    (s.here.mode = .m → b.pm ≠ .m → s.coreHere.ssec.getLsbD (slotOf s.cur) = false) →
    (b.pm = .u → s.pdid s.cur s.here.mode = s.slotDid (coreOf s.cur) (slotOf s.cur)) →
    s.inStopped s.cur = false → s.here.swOut = none → s.here.stopped = false →
    (s.issued (encode .eret)).migTarget s.cur = none → (s.issued (encode .eret)).migReflects s.cur = false →
    ∃ t, exec .eret s = .next t ∧ (t.ctx s.cur).pc = addr62 b.epc ∧ (t.ctx s.cur).mode = b.pm ∧
      (t.ctx s.cur).did = s.pdid s.cur s.here.mode ∧ (t.ctx s.cur).latch = b.platch ∧ (t.ctx s.cur).resv = none ∧
      (t.ctx s.cur).pfx = (if b.pfxV then some { word := b.pfxWord, restored := true } else none) ∧
      ((t.ctx s.cur).bank s.here.mode).ae = b.pae ∧ ((t.ctx s.cur).bank s.here.mode).pfxV = false ∧
      ((t.ctx s.cur).bank s.here.mode).epc = b.epc ∧ ((t.ctx s.cur).bank s.here.mode).tval = b.tval ∧
      (t.ctx s.cur).x = s.here.x ∧ (t.ctx s.cur).f = s.here.f ∧ (t.ctx s.cur).v = s.here.v ∧
      (t.ctx s.cur).fstat = s.here.fstat ∧ t.mem = s.mem) ∧ MigrationReturns ∧ ReflectedReturns ∧
  ForbiddenWhen .eret (fun s => s.here.mode = .u ∨ s.here.mode.toNat < (s.here.bank s.here.mode).pm.toNat ∨
    (slotOf s.cur = 7 ∧ ((s.here.bank s.here.mode).pm = .u ∨ (s.here.bank s.here.mode).pm = .h)))

/-! System registers. -/

/-- A read of system register `n`, in a mode that may (R37), with `pre`: x[d] takes `v`, and nothing else changes. -/
def ReadsAs (n : Nat) (pre : State → Prop) (v : State → Word) : Prop :=
  ∀ d : BitVec 5, Acts (.movs d (BitVec.ofNat 12 n)) (fun s => n / 1024 ≤ s.here.mode.toNat ∧ pre s)
    fun s => s.retireX s.cur d (v s)

/-- A write of x[a] to system register `n`, in a mode that may (R37), with `pre` of the value: `act` is done and the
instruction retires. -/
def WritesAs (n : Nat) (pre : State → Word → Prop) (act : State → Word → State) : Prop :=
  ∀ a : BitVec 5, Acts (.movsw a (BitVec.ofNat 12 n)) (fun s => n / 1024 ≤ s.here.mode.toNat ∧ pre s (s.here.rx a))
    fun s => (act s (s.here.rx a)).retire s.cur

/-- R36-R38: a register of a higher mode is illegal to read and to write, and so are the slot control outside slot 7 and a number
that the table of R38 does not list, whose word decodes to no instruction. -/
def PrivilegeClaims : Prop :=
  ∀ (r : BitVec 5) (n : BitVec 12),
    ForbiddenWhen (.movs r n) (fun s => s.here.mode.toNat < n.toNat / 1024) ∧
    ForbiddenWhen (.movsw r n) (fun s => s.here.mode.toNat < n.toNat / 1024) ∧
    (n.toNat ∉ [0x000, 0x001, 0x002, 0x003, 0x008, 0x009, 0x00A, 0x00B, 0x400, 0x401, 0x402, 0x403, 0x404, 0x405, 0x406, 0x410,
        0x411, 0x412, 0x413, 0x420, 0x421, 0x430, 0x431, 0x432, 0x433, 0x434, 0x440, 0x441, 0x800, 0x801, 0x802, 0x803, 0x804,
        0x805, 0x806, 0x810, 0x811, 0xC00, 0xC01, 0xC02, 0xC03, 0xC04, 0xC05, 0xC06, 0xC10, 0xC11, 0xC12, 0xC13, 0xC14, 0xC18,
        0xC19] → ∀ w, w = encode (.movs r n) ∨ w = encode (.movsw r n) → ∀ s : State,
      (∀ p, s.here.pfx = some p → p.restored = false) →
      s.runWord w = .next ((s.settle s.cur).trap s.cur (mkTrap 0 (w.zeroExtend 64)))) ∧
    (n.toNat = 0x440 ∨ n.toNat = 0x441 →
      ForbiddenWhen (.movs r n) (fun s => 1 ≤ s.here.mode.toNat ∧ slotOf s.cur ≠ 7) ∧
      ForbiddenWhen (.movsw r n) (fun s => 1 ≤ s.here.mode.toNat ∧ slotOf s.cur ≠ 7))

/-- R27-R40: what a read of each user register, and of the registers of a context, answers. -/
def SysReadClaims : Prop :=
  ReadsAs 0x000 (fun _ => True) (fun s => s.here.form.zeroExtend 64) ∧
  ReadsAs 0x001 (fun s => s.queuesEmpty s.cur = true) (fun s => s.here.shapeValue) ∧
  ReadsAs 0x002 (fun s => s.queuesEmpty s.cur = true) (fun s => s.here.fstat.zeroExtend 64) ∧
  ReadsAs 0x003 (fun s => s.arrayMine ∧ s.matrixQuiet s.cur = true) (fun s => s.coreHere.mstat) ∧
  ReadsAs 0x008 (fun s => s.here.log = none ∧ s.here.red = none) (fun s => s.time (dieOf s.cur)) ∧
  ReadsAs 0x009 (fun s => s.here.log = none ∧ s.here.red = none ∧ s.here.swOut = none)
    (fun s => BitVec.ofNat 64 (s.clk - s.here.cycleOff)) ∧
  ReadsAs 0x00A (fun _ => True) (fun s => BitVec.ofNat 64 (s.cur + s.pkgNum * 8192 + (s.did s.cur).toNat * 2 ^ 20)) ∧
  ReadsAs 0x00B (fun _ => True)
    (fun s => if s.here.depth = 0 then BitVec.ofNat 64 (s.here.rank + 65536 * s.here.gang) else 0) ∧
  ReadsAs 0x410 (fun _ => True) (fun s => s.here.stealdom) ∧ ReadsAs 0x411 (fun _ => True) (fun s => s.here.tsave) ∧
  ReadsAs 0x412 (fun _ => True) (fun s => s.here.vsavea) ∧ ReadsAs 0x413 (fun _ => True) (fun s => s.here.sptb) ∧
  ReadsAs 0x420 (fun _ => True) (fun s => s.coreHere.rtwin) ∧
  ReadsAs 0x421 (fun _ => True) (fun s => s.rtRead (coreOf s.cur)) ∧
  ReadsAs 0x430 (fun _ => True) (fun s => BitVec.ofNat 64 (s.coreHere.dpslot.toNat + 2 ^ 24 * s.coreHere.part.toNat)) ∧
  ReadsAs 0x431 (fun _ => True) (fun s => s.coreHere.dplane) ∧ ReadsAs 0x432 (fun _ => True) (fun s => s.coreHere.dpbank) ∧
  ReadsAs 0x433 (fun _ => True) (fun s => s.coreHere.dpquota) ∧
  ReadsAs 0x434 (fun _ => True) (fun s => s.coreHere.dptoken) ∧
  ReadsAs 0x440 (fun s => slotOf s.cur = 7) (fun _ => 0) ∧ ReadsAs 0x441 (fun s => slotOf s.cur = 7) (fun s => s.coreHere.slotpc) ∧
  ReadsAs 0x810 (fun _ => True) (fun s => s.featmask.toList.getD (s.part s.cur) 0) ∧
  ReadsAs 0x811 (fun _ => True) (fun s => s.here.hptb) ∧
  ReadsAs 0xC10 (fun _ => True) (fun s => (s.die (dieOf s.cur)).mrvec) ∧
  ReadsAs 0xC11 (fun _ => True) (fun s => s.coreHere.mown.zeroExtend 64) ∧
  ReadsAs 0xC12 (fun _ => True) (fun s => BitVec.ofNat 64 s.leaseD) ∧
  ReadsAs 0xC13 (fun _ => True) (fun s => BitVec.ofNat 64 s.leaseP) ∧
  ReadsAs 0xC14 (fun _ => True) (fun s => if s.detmode then 1 else 0) ∧
  ReadsAs 0xC18 (fun _ => True) (fun s => (s.die (dieOf s.cur)).wtwin) ∧
  ReadsAs 0xC19 (fun _ => True) (fun s => s.wtRead (dieOf s.cur)) ∧
  ∀ t : Mode, t ≠ .u →
    let b (s : State) : TrapBank := s.here.bank t
    ReadsAs (1024 * t.toNat) (fun _ => True) (fun s => BitVec.ofNat 64 ((b s).pm.toNat + 4 * b2n (b s).ae +
      8 * b2n (b s).pae + 16 * (s.pdid s.cur t).toNat + 2048 * (b s).platch.toNat)) ∧
    ReadsAs (1024 * t.toNat + 1) (fun _ => True) (fun s => addr62 (b s).epc) ∧
    ReadsAs (1024 * t.toNat + 2) (fun _ => True) (fun s => BitVec.ofNat 64 ((b s).code.toNat + 2 ^ 63 * b2n (b s).isAsync)) ∧
    ReadsAs (1024 * t.toNat + 3) (fun _ => True) (fun s => (b s).tval) ∧
    ReadsAs (1024 * t.toNat + 4) (fun _ => True) (fun s => addr62 (b s).base) ∧
    ReadsAs (1024 * t.toNat + 5) (fun _ => True) (fun s => (b s).scratch) ∧
    ReadsAs (1024 * t.toNat + 6) (fun _ => True) (fun s => BitVec.ofNat 64 ((b s).pfxWord.toNat + 2 ^ 63 * b2n (b s).pfxV))

/-- A write of a system register that only its own field of the context takes. -/
def SetsCtx (n : Nat) (pre : State → Word → Prop) (g : Word → Ctx → Ctx) : Prop :=
  WritesAs n pre fun s v => s.modCtx s.cur (g v)

/-- A write of a system register that a field of the core takes. -/
def SetsCore (n : Nat) (pre : State → Word → Prop) (g : Word → Core → Core) : Prop :=
  WritesAs n pre fun s v => s.modCore (coreOf s.cur) (g v)

/-- R27-R33, R140, R272, R393, R404-R408, R415: writes of the registers of a context, each with its writable bits.  A write of SHAPE in
a context without lanes leaves VROWS zero: the model's reading of R140 beside R401 (log entry 56). -/
def SysWriteClaims : Prop :=
  SetsCtx 0x000 (fun _ v => formLegal v = true) (fun v k => { k with form := v.truncate 14 }) ∧
  SetsCtx 0x001 (fun s v => s.here.mode ≠ .u ∧ bits v 12 0 ≤ s.cfgHere.vlmax ∧ bits v 19 16 ≤ 8 ∧ zeroBits v 15 13 = true ∧
    zeroBits v 23 21 = true ∧ zeroBits v 63 31 = true)
    (fun v k => { k with vl := bits v 12 0, vrows := if k.lanes = 0 then 0 else bits v 19 16, tr := v.getLsbD 20 }) ∧
  SetsCtx 0x001 (fun s _ => s.here.mode = .u) (fun v k => { k with tr := k.tr && !v.getLsbD 20 }) ∧
  SetsCtx 0x002 (fun s _ => s.queuesEmpty s.cur = true) (fun v k => { k with fstat := v.truncate 5 }) ∧
  SetsCore 0x003 (fun s _ => s.arrayMine ∧ s.matrixQuiet s.cur = true)
    (fun v k => { k with mstat := k.mstat &&& ~~~ (v &&& 0x3F) }) ∧
  SetsCtx 0x410 (fun _ _ => True) (fun v k => { k with stealdom := v &&& 0x1FFFF }) ∧
  SetsCtx 0x411 (fun _ _ => True) (fun v k => { k with tsave := v &&& 0x000FFFFFFFFFF000 }) ∧
  SetsCtx 0x412 (fun _ _ => True) (fun v k => { k with vsavea := v &&& 0x000FFFFFFFFFF000 }) ∧
  SetsCtx 0x413 (fun _ _ => True) (fun v k => { k with sptb := v &&& 0xFFFFFFFFFFFFF001 }) ∧
  SetsCtx 0x811 (fun _ _ => True) (fun v k => { k with hptb := v &&& 0xFFFFFFFFFFFFF001 }) ∧
  ∀ t : Mode, t ≠ .u →
    let put (i : Nat) (g : Word → TrapBank → TrapBank) : Prop :=
      SetsCtx (1024 * t.toNat + i) (fun _ _ => True) fun v k => k.setBank t (g v (k.bank t))
    put 0 (fun v b => { b with pm := Mode.ofCode (if t = .s then v.toNat % 2 else v.toNat % 4), ae := v.getLsbD 2,
                                pae := v.getLsbD 3,
                                pdid := if t = .m then v.extractLsb' 4 7 else b.pdid.extractLsb' 3 4 ++ v.extractLsb' 4 3,
                                platch := v.extractLsb' 11 5 }) ∧
    put 1 (fun v b => { b with epc := v.extractLsb' 2 62 }) ∧
    put 2 (fun v b => { b with code := v.truncate 5, isAsync := v.getLsbD 63 }) ∧
    put 3 (fun v b => { b with tval := v }) ∧ put 4 (fun v b => { b with base := v.extractLsb' 2 62 }) ∧
    put 5 (fun v b => { b with scratch := v }) ∧
    put 6 (fun v b => { b with pfxWord := v.truncate 32, pfxV := v.getLsbD 63 })

/-- R305, R319, R332-R335, R405, R423, R424, R429-R434: writes of the registers of a core, a die and the package.  A DPBANK write
that leaves SPSZ as it is zeroes every bank whose owner it changes, and traps where a pane meets one: the model's choice where R332
and R434 differ (log entry 31). -/
def DomainWriteClaims : Prop :=
  (let may (s : State) : Prop := s.here.mode = .m ∨ localOf (s.did s.cur) = 0
   SetsCore 0x430 (fun s v => may s ∧ dpLegal 0x430 v = true) (fun v k => { k with dpslot := v }) ∧
   SetsCore 0x431 (fun s v => may s ∧ dpLegal 0x431 v = true) (fun v k => { k with dplane := v }) ∧
   WritesAs 0x432 (fun s v => may s ∧ dpLegal 0x432 v = true ∧ bits v 3 0 = s.coreHere.spsz ∧
       (∀ b, b ∈ s.coreHere.changedBanks v → s.coreHere.bankPaned (coreOf s.cur) b = false))
     (fun s v => s.setCore (coreOf s.cur) { (s.coreHere.changedBanks v).foldl
       (fun t b => t.zeroBank (coreOf s.cur) b) s.coreHere with dpbank := v }) ∧
   WritesAs 0x432 (fun s v => may s ∧ dpLegal 0x432 v = true ∧ bits v 3 0 ≠ s.coreHere.spsz ∧
       (∀ p, p ∈ s.coreHere.panes.toList → p.state = 0) ∧ (s.sliceHome (coreOf s.cur)).2 = true)
     (fun s v => ((s.sliceHome (coreOf s.cur)).1.emptySlice (coreOf s.cur)).modCore (coreOf s.cur) fun k =>
       { k with dpbank := v, spad := [] }) ∧
   (∀ a : BitVec 5, Acts (.movsw a 0x432) (fun s => 1 ≤ s.here.mode.toNat ∧ may s ∧ dpLegal 0x432 (s.here.rx a) = true ∧
       bits (s.here.rx a) 3 0 ≠ s.coreHere.spsz ∧ (∀ p, p ∈ s.coreHere.panes.toList → p.state = 0) ∧
       (s.sliceHome (coreOf s.cur)).2 = false)
     (fun s => (s.sliceHome (coreOf s.cur)).1.modCtx s.cur fun k =>
       { k with bounded := !k.closeFailed, passed := some k.pc })) ∧
   SetsCore 0x433 (fun s _ => may s) (fun v k => { k with dpquota := v }) ∧
   WritesAs 0x434 (fun s _ => may s)
     (fun s v => (s.modCore (coreOf s.cur) fun k => k.setTokens v).startRefill (coreOf s.cur))) ∧
  SetsCore 0x420 (fun _ _ => True) (fun v k => { k with rtwin := v &&& 0x1FFFF }) ∧
  SetsCore 0x441 (fun s _ => slotOf s.cur = 7) (fun v k => { k with slotpc := v &&& ~~~ 3#64 }) ∧
  WritesAs 0x440 (fun s v => slotOf s.cur = 7 ∧ v.toNat / 8 = 1 ∧ v.toNat % 8 ≠ 7 ∧
      (s.ctx (coreOf s.cur * 8 + v.toNat % 8)).run = .out)
    (fun s v => s.modCtx (coreOf s.cur * 8 + v.toNat % 8) fun k =>
      { k with run := .running, pc := s.coreHere.slotpc, mode := s.here.mode, did := s.did s.cur }) ∧
  WritesAs 0x440 (fun s v => slotOf s.cur = 7 ∧ v.getLsbD 3 = false) (fun s _ => s) ∧
  WritesAs 0x810 (fun _ _ => True) (fun s v => { s with featmask := s.featmask.setIfInBounds (s.part s.cur) v }) ∧
  WritesAs 0xC10 (fun _ _ => True) (fun s v => s.modDie (dieOf s.cur) fun d => { d with mrvec := v }) ∧
  WritesAs 0xC12 (fun s v => s.detmode = false ∧ 64 ≤ v.toNat ∧ v.toNat ≤ 65536) (fun s v => { s with leaseD := v.toNat }) ∧
  WritesAs 0xC13 (fun s v => s.detmode = false ∧ 512 ≤ v.toNat ∧ v.toNat ≤ 1048576)
    (fun s v => { s with leaseP := v.toNat }) ∧
  WritesAs 0xC14 (fun s v => v.getLsbD 0 = true → s.linksFull = true) (fun s v => { s with detmode := v.getLsbD 0 }) ∧
  WritesAs 0xC18 (fun _ _ => True) (fun s v => s.modDie (dieOf s.cur) fun d => { d with wtwin := v &&& 0x7FFFF }) ∧
  WritesAs 0xC19 (fun _ _ => True) (fun s v => s.wtSet (dieOf s.cur) v) ∧
  WritesAs 0xC11 (fun s v => s.coreHere.mq = [] ∧ (s.ctx (coreOf s.cur * 8 + s.coreHere.mown.toNat)).vq = [] ∧ v.toNat < 8)
    (fun s v => s.modCore (coreOf s.cur) fun k => { k with mown := v.truncate 3 }) ∧
  WritesAs 0xC11 (fun s v => s.coreHere.mq = [] ∧ (s.ctx (coreOf s.cur * 8 + s.coreHere.mown.toNat)).vq = [] ∧
      v.toNat / 8 = 8)
    (fun s v => s.modCore (coreOf s.cur) fun k =>
      { k with acc := Vector.replicate 512 0, plane := 0, shadow := 0, mstat := 0, mown := v.truncate 3 })

/-! Events. -/

/-- A gang with a rank entry replaced. -/
def Gang.withEntry (g : Gang) (r : Nat) (e : RankEntry) : Gang := { g with entries := g.entries.set r e }

/-- The package sends `m` to the host. -/
def State.says (s : State) (m : HostOut) : State := { s with hostOut := s.hostOut ++ [m] }

/-- The event `i` happens: whenever `pre` holds, `exec` answers `act` of the state. -/
def Happens (i : Instr) (pre : State → Prop) (act : State → State) : Prop := ∀ s, pre s → exec i s = .next (act s)

/-- The write of `v` to system register `n` by the context whose turn it is, as an event of its own: in a mode that may
(R37), with `pre`, `act` is done and the instruction retires. -/
def PutsSys (i : Instr) (n : Nat) (pre : State → Prop) (act : State → State) : Prop :=
  Happens i (fun s => n / 1024 ≤ s.here.mode.toNat ∧ pre s) fun s => (act s).retire s.cur

/-- R32, R41, R237, R305-R310, R319, R332-R335, R401, R407, R423, R433: the register writes that stand as steps.  The model's
choices among them: a DPBANK write that leaves SPSZ as it is zeroes the banks whose owners change (log entry 31), and a rank-entry
write may name the destination of a thread that migrates (log entry 33); SHAPE keeps VROWS zero without lanes (log entry 56); a save to a sealed TSAVE area is not the save of these
clauses (log entry 21). -/
def RegisterEventClaims : Prop :=
  ∀ v : Word,
    PutsSys (.shapeWrite v) 0x001 (fun s => s.here.mode ≠ .u ∧ bits v 12 0 ≤ s.cfgHere.vlmax ∧ bits v 19 16 ≤ 8 ∧
        zeroBits v 15 13 = true ∧ zeroBits v 23 21 = true ∧ zeroBits v 63 31 = true)
      (fun s => s.modCtx s.cur fun k =>
        { k with vl := bits v 12 0, vrows := if s.here.lanes = 0 then 0 else bits v 19 16, tr := v.getLsbD 20 }) ∧
    PutsSys (.shapeWrite v) 0x001 (fun s => s.here.mode = .u)
      (fun s => s.modCtx s.cur fun k => { k with tr := k.tr && !v.getLsbD 20 }) ∧
    PutsSys (.fstatWrite v) 0x002 (fun s => s.queuesEmpty s.cur = true)
      (fun s => s.modCtx s.cur fun k => { k with fstat := v.truncate 5 }) ∧
    PutsSys (.mstatClear v) 0x003 (fun s => s.arrayMine ∧ s.matrixQuiet s.cur = true)
      (fun s => s.modCore (coreOf s.cur) fun k => { k with mstat := k.mstat &&& ~~~ (v &&& 0x3F) }) ∧
    PutsSys (.slotctlStart v) 0x440 (fun s => slotOf s.cur = 7 ∧ v.toNat < 16 ∧ v.toNat % 8 ≠ 7 ∧
        (s.ctx (coreOf s.cur * 8 + v.toNat % 8)).run = .out)
      (fun s => s.modCtx (coreOf s.cur * 8 + v.toNat % 8) fun k =>
        { k with run := .running, pc := s.coreHere.slotpc, mode := s.here.mode, did := s.did s.cur }) ∧
    PutsSys (.dptokenWrite v) 0x434 (fun s => s.here.mode = .m ∨ localOf (s.did s.cur) = 0)
      (fun s => (s.modCore (coreOf s.cur) fun k => k.setTokens v).startRefill (coreOf s.cur)) ∧
    (let legal (s : State) : Prop := (s.here.mode = .m ∨ localOf (s.did s.cur) = 0) ∧ dpLegal 0x432 v = true
     PutsSys (.dpbankWrite v) 0x432 (fun s => legal s ∧ bits v 3 0 ≠ s.coreHere.spsz ∧
         (∀ p, p ∈ s.coreHere.panes.toList → p.state = 0) ∧ (s.sliceHome (coreOf s.cur)).2 = true)
       (fun s => ((s.sliceHome (coreOf s.cur)).1.emptySlice (coreOf s.cur)).modCore (coreOf s.cur) fun k =>
         { k with dpbank := v, spad := [] }) ∧
     PutsSys (.dpbankWrite v) 0x432 (fun s => legal s ∧ bits v 3 0 = s.coreHere.spsz ∧
         ∀ b, b ∈ s.coreHere.changedBanks v → s.coreHere.bankPaned (coreOf s.cur) b = false)
       (fun s => s.setCore (coreOf s.cur)
         { (s.coreHere.changedBanks v).foldl (fun k b => k.zeroBank (coreOf s.cur) b) s.coreHere with dpbank := v })) ∧
    PutsSys (.leaseLengthWrite false v) 0xC12 (fun s => s.detmode = false ∧ 64 ≤ v.toNat ∧ v.toNat ≤ 65536)
      (fun s => { s with leaseD := v.toNat }) ∧
    PutsSys (.leaseLengthWrite true v) 0xC13 (fun s => s.detmode = false ∧ 512 ≤ v.toNat ∧ v.toNat ≤ 1048576)
      (fun s => { s with leaseP := v.toNat }) ∧
    PutsSys (.detmodeWrite v) 0xC14 (fun s => v.getLsbD 0 = true → s.linksFull = true)
      (fun s => { s with detmode := v.getLsbD 0 }) ∧
    PutsSys (.worldTableWrite v) 0xC19 (fun _ => True) (fun s => s.wtSet (dieOf s.cur) v) ∧
    PutsSys (.inboxRegisterWrite v) 0x421 (fun s => slotOf s.cur = 7 ∧ bits s.coreHere.rtwin 12 0 = 1)
      (fun s => s.modCore (coreOf s.cur) fun k => { k with defer := k.defer &&& ~~~ v.truncate 8 }) ∧
    PutsSys (.inboxRegisterWrite v) 0x421 (fun s => slotOf s.cur = 7 ∧ bits s.coreHere.rtwin 12 0 = 0)
      (fun s => (s.leaveInbox (coreOf s.cur)).modCore (coreOf s.cur) fun k =>
        { k with inSz := v.truncate 4, inBase := v.extractLsb' 12 40, inEn := v.getLsbD 63 }) ∧
    PutsSys (.inboxRegisterWrite v) 0x421 (fun s => slotOf s.cur = 7 ∧ 2 ≤ bits s.coreHere.rtwin 12 0) (fun s => s) ∧
    PutsSys (.rankEntryWrite v) 0x421 (fun s => s.rankSelected (coreOf s.cur) = none) (fun s => s) ∧
    (∀ (s : State) (g r : Nat) (e : Gang), 1 ≤ s.here.mode.toNat → s.rankSelected (coreOf s.cur) = some (g, e, r) →
      (∀ m, e.members.head? = some m → s.part m = s.part s.cur) →
      let z : RankEntry := ⟨v.truncate 19, v.getLsbD 62, v.getLsbD 63⟩
      let u := (s.putGang g (e.withEntry r z)).nameDestination (e.entry r) z
      exec (.rankEntryWrite v) s = .next ((if (e.entry r).it = true ∧ z.it = false then u.startRelease (holdKey g r)
        else u).retire s.cur)) ∧
    ∀ slot : BitVec 3,
      let free (s : State) : Prop := s.coreHere.mq = [] ∧ (s.ctx (coreOf s.cur * 8 + s.coreHere.mown.toNat)).vq = []
      PutsSys (.mownZero slot) 0xC11 free (fun s => s.modCore (coreOf s.cur) fun k =>
        { k with acc := Vector.replicate 512 0, plane := 0, shadow := 0, mstat := 0, mown := slot }) ∧
      PutsSys (.mownSave slot) 0xC11 (fun s => free s ∧ s.tsaveFree (coreOf s.cur * 8 + s.coreHere.mown.toNat) = true)
        (fun s => (s.matSave s.cur (coreOf s.cur) (coreOf s.cur * 8 + s.coreHere.mown.toNat)).modCore (coreOf s.cur) fun k =>
          { k with mown := slot }) ∧
      ∀ (s r u : State), 3 ≤ s.here.mode.toNat → free s → s.tsaveOk (coreOf s.cur * 8 + slot.toNat) = true →
        let area := areaPa (s.ctx (coreOf s.cur * 8 + slot.toNat)).tsave
        s.readLines (dieOf s.cur) (s.matLines s.cur (coreOf s.cur) area) = some r →
        r.matRestore s.cur (coreOf s.cur) area = some u →
        exec (.mownLoad slot) s = .next ((u.modCore (coreOf s.cur) fun k => { k with mown := slot }).retire s.cur)

/-- R122, R124, R185: a reply returns once the port has served its access, with the record of a corrected error, or of one of the
L1 data cache, or with an uncorrectable one (log entry 7); the next posted store of a context leaves when its time has come; a check phase ends and the instruction enters the queue; a bounded
wait pushes what it waits for. -/
def ReplyClaims : Prop :=
  ∀ (c line : Nat) (err : BitVec 2),
    Happens (.memoryReply c 0 line) (fun s => (s.ctx c).wait ≠ .reply) (fun s => s) ∧
    Happens (.memoryReply c 3 line) (fun s => (s.ctx c).wait ≠ .reply) (fun s => s.lineFails (coreOf c) line) ∧
    Happens (.memoryReply c err line) (fun s => (s.ctx c).wait ≠ .reply ∧ err ≠ 0 ∧ err ≠ 3)
      (fun s => s.logError (dieOf c) 0 0xFF 0 ((s.ctxid c).toNat % 2 ^ 27) (line * 64) (Config.syndrome s.free).toNat) ∧
    (let served (s : State) : Prop := s.portServed (coreOf c) (s.ctx c).ticket = true
     Happens (.memoryReply c err line) (fun s => (s.ctx c).wait = .reply ∧ ¬ served s)
       (fun s => s.after 1 (.memoryReply c err line)) ∧
     Happens (.memoryReply c err line) (fun s => (s.ctx c).wait = .reply ∧ served s ∧ err ≠ 3)
       (fun s => (s.logCorrected (coreOf c) ((s.ctxid c).toNat % 2 ^ 27) line err).modCtx c fun k => { k with wait := .none }) ∧
     Happens (.memoryReply c 3 line) (fun s => (s.ctx c).wait = .reply ∧ served s)
       (fun s => (s.lineFails (coreOf c) line).modCtx c fun k => { k with wait := .none }) ∧
     Happens (.memoryReply c 0 line) (fun s => (s.ctx c).wait = .reply ∧ served s)
       (fun s => s.modCtx c fun k => { k with wait := .none })) ∧
    (∀ e : VEntry, Happens (.vectorCheckPhaseEnd c) (fun s => (s.ctx c).vchk = some e) (fun s => (s.modCtx c fun k =>
        { k with vchk := none, wait := if k.wait = .check then .none else k.wait }).enqueue c e)) ∧
    Happens (.vectorCheckPhaseEnd c) (fun s => (s.ctx c).vchk = none)
      (fun s => s.modCtx c fun k => { k with vchk := none, wait := if k.wait = .check then .none else k.wait }) ∧
    Happens (.postedStoreDrain c) (fun s => s.nextPosted c = none) (fun s => s) ∧
    (∀ (s : State) (p : PWrite), s.nextPosted c = some p →
      (s.clk < p.leave → exec (.postedStoreDrain c) s = .next (s.after (p.leave - s.clk) (.postedStoreDrain c))) ∧
      (p.leave ≤ s.clk → s.portServed (coreOf c) p.ticket = false →
        exec (.postedStoreDrain c) s = .next (s.after 1 (.postedStoreDrain c))) ∧
      (p.leave ≤ s.clk → s.portServed (coreOf c) p.ticket = true →
        let u := if s.place p.addr = .hbm then s.reachDie fun q => decide (q.id = p.id) else s.sendPosted p
        (u.nextPosted c = none → exec (.postedStoreDrain c) s = .next u) ∧
        ∀ q, u.nextPosted c = some q → ∃ t, exec (.postedStoreDrain c) s = .next t ∧ t.mem = u.mem ∧ t.ctxs = u.ctxs ∧
          t.agenda = u.agenda ++ [(u.clk + (max q.leave (u.clk + 1) - u.clk), .postedStoreDrain c)])) ∧
    (∀ (s : State) (p : PWrite), s.pend = [p] → p.kind = .posted → p.owner = c → p.atDie = false → p.near = false →
      p.leave ≤ s.clk → s.portServed (coreOf c) p.ticket = true → s.place p.addr = .hbm → (s.ctx c).pub = [] → (s.ctx c).rel = [] →
      exec (.postedStoreDrain c) s = .next { s with pend := [{ p with atDie := true }] }) ∧
    (∀ (s : State) (p : PWrite) (port : Nat), s.pend = [p] → p.kind = .posted → p.owner = c → p.atDie = false →
      p.leave ≤ s.clk → s.portServed (coreOf c) p.ticket = true → s.place p.addr = .host port → s.misses = [] →
      ∃ t, exec (.postedStoreDrain c) s = .next t ∧ t.pend = [] ∧ t.mem = s.mem.writeL p.addr p.bytes) ∧
    Happens (.waitResumption c) (fun s => (s.ctx c).bounded = false) (fun s => s) ∧
    Happens (.waitResumption c) (fun s => (s.ctx c).bounded = true) (fun s => (s.release c 4 .access).1)

/-- R56, R153, R179: the head of a vector queue starts when nothing is in its way, its rows arrive, and it completes; the groups
that arrive with a row are those of the row that the instruction writes. -/
def VectorQueueClaims : Prop :=
  ∀ (c row : Nat),
    (∀ i, i ∈ [Instr.vectorSweepStart c, .vectorRowArrival c row, .vectorSweepComplete c] →
      Happens i (fun s => (s.ctx c).vq = []) (fun s => s)) ∧
    (∀ (e : VEntry) (t : List VEntry) (s : State), (s.ctx c).vq = e :: t →
      (e.started = true → exec (.vectorSweepStart c) s = .next s) ∧
      (e.started = false → s.sweepReady c e = false →
        exec (.vectorSweepStart c) s = .next (s.after 1 (.vectorSweepStart c))) ∧
      (e.started = false → s.sweepReady c e = true →
        exec (.vectorSweepStart c) s = .next ((((((match e.load with
          | some l => s.fixLoad c l
          | none => s) : State).useLanes c).modCtx c Ctx.loadsFixed).modCtx c Ctx.startHead).soon
            (if e.rows = 0 then .vectorSweepComplete c else .vectorRowArrival c 0))) ∧
      (e.started = false → s.sweepReady c e = true → e.load = none → ∃ u, exec (.vectorSweepStart c) s = .next u ∧
        (u.ctx c).vq = { e with started := true } :: t.map VEntry.fixed ∧
        (u.ctx c).missing = (s.ctx c).missing ||| e.cover ∧ u.mem = s.mem) ∧
      (e.started = false → exec (.vectorRowArrival c row) s = .next s ∧ exec (.vectorSweepComplete c) s = .next s) ∧
      (e.started = true →
        (let u := (s.useLanes c).modCtx c fun k => k.rowArrival e.cover row
         exec (.vectorRowArrival c row) s = .next (if row + 1 < e.rows then u.after 8 (.vectorRowArrival c (row + 1))
           else u.after 1 (.vectorSweepComplete c))) ∧
        (let u := ((s.useLanes c).completeVector c e).modCtx c fun k => { k with vq := t }
         exec (.vectorSweepComplete c) s = .next (if t = [] then u else u.soon (.vectorSweepStart c))) ∧
        (e.writes = [] → s.pend = [] → ∃ u, exec (.vectorSweepComplete c) s = .next u ∧ (u.ctx c).vq = t ∧
          (u.ctx c).fstat = (s.ctx c).fstat ||| e.flags ∧ (u.ctx c).v = (s.ctx c).v ∧ u.mem = s.mem ∧
          (∀ v, e.mc = some v → (u.ctx c).pendMc = some v) ∧ (e.mc = none → (u.ctx c).pendMc = (s.ctx c).pendMc)))) ∧
    ∀ (k : Ctx) (cover : BitVec 4096) (i : Nat), row < 8 → i < 4096 →
      (k.rowArrival cover row).missing.getLsbD i = (k.missing.getLsbD i && !(cover.getLsbD i && decide (i / 16 % 8 = row)))

/-- R236, R237, R241: the head of a matrix queue starts and completes; a failed check of the array or of a vector register
leaves all ones in the tile and a machine check at the entry's PC: for the register and for the tile's rows the model's reading (log
entries 25 and 45). -/
def MatrixQueueClaims : Prop :=
  ∀ (core : Nat) (residue vreg : Bool),
    (∀ i, i ∈ [Instr.matrixEntryStart core, .matrixEntryComplete core residue vreg] →
      Happens i (fun s => (s.core core).mq = []) (fun s => s)) ∧
    ∀ (e : MEntry) (t : List MEntry) (s : State), (s.core core).mq = e :: t →
      (e.started = true → exec (.matrixEntryStart core) s = .next s) ∧
      (e.started = false → exec (.matrixEntryComplete core residue vreg) s = .next s) ∧
      (e.started = false → exec (.matrixEntryStart core) s = .next (((s.useArray core).modCore core fun k =>
        { k with mq := { e with started := true } :: t }).soon (.matrixEntryComplete core false false))) ∧
      (e.started = true →
        ∃ u, exec (.matrixEntryComplete core residue vreg) s = .next u ∧ (u.core core).mq = t ∧
          ((residue && e.op.tile.isSome) = false → (vreg && e.op.readsVector) = false →
            (u.core core).acc = ((s.core core).applyMOp e.op).1.acc ∧
            (u.core core).plane = ((s.core core).applyMOp e.op).1.plane ∧
            (u.core core).shadow = ((s.core core).applyMOp e.op).1.shadow ∧
            (u.core core).mstat = ((s.core core).applyMOp e.op).1.mstat |||
              ((s.core core).applyMOp e.op).2.zeroExtend 64 ∧ u.mem = s.mem) ∧
          (((residue && e.op.tile.isSome) || (vreg && e.op.readsVector)) = true → (u.ctx e.owner).pendMc = some e.pc) ∧
          ∀ n, e.op.tile = some n → n < 4 → e.rows ≤ 128 → (residue || (vreg && e.op.readsVector)) = true →
            (residue = true → (u.core core).mstat.getLsbD 5 = true) ∧
            ∀ i, i < e.rows → (u.core core).tileRow n i = BitVec.allOnes 2048)

/-- R117, R299, R300, R421: the fill of an instruction line, which waits for the port and at the home, and the end of a walk,
which is cached if the access may be made.  The model's choices: an uncorrectable error that comes with the fill (log entry 7), and
no walk where a table stands in host memory, for which no context waits (log entry 8). -/
def FillClaims : Prop :=
  ∀ (core pa c : Nat) (err : BitVec 2) (va : Word) (write exec' : Bool),
    Happens (.icacheFill core pa err) (fun s => s.fillable (core / 64) pa = false) (fun s => s.endFills core) ∧
    Happens (.icacheFill core pa err) (fun s => s.fillable (core / 64) pa = true ∧ s.fillsServed core = false)
      (fun s => s.after 1 (.icacheFill core pa err)) ∧
    Happens (.icacheFill core pa 3) (fun s => s.fillable (core / 64) pa = true ∧ s.fillsServed core = true)
      (fun s => (s.lineFails core (lineOf pa)).endFills core) ∧
    (err ≠ 3 → Happens (.icacheFill core pa err) (fun s => s.fillable (core / 64) pa = true ∧ s.fillsServed core = true ∧
        (s.logCorrected core 0xFFFFFFFF (lineOf pa) err).readLine (core / 64) (lineOf pa) = none)
      (fun s => (s.holdMisses (core / 64) [lineOf pa]).after 8 (.icacheFill core pa err))) ∧
    (∀ s u : State, err ≠ 3 → s.fillable (core / 64) pa = true → s.fillsServed core = true →
      (s.logCorrected core 0xFFFFFFFF (lineOf pa) err).readLine (core / 64) (lineOf pa) = some u →
      exec (.icacheFill core pa err) s = .next ((u.modCore core fun k =>
        k.fillIcache (lineOf pa) (u.codeLine (core / 64) (lineOf pa))).endFills core) ∧
      ∃ t, exec (.icacheFill core pa err) s = .next t ∧ (t.core core).icache.find? (lineOf pa) =
        some (u.codeLine (core / 64) (lineOf pa)) ∧ t.mem = u.mem) ∧
    (let kind : AccKind := if exec' then .fetch else if write then .store else .load
     let far (s : State) : Prop := s.hostTables (s.agent c) (s.tablesOf (s.agent c) [va] 1) ≠ []
     Happens (.pageWalk c va write exec') far (fun s => s) ∧
     Happens (.pageWalk c va write exec') (fun s => ¬ far s ∧ s.walkReady (s.agent c) [va] 1 = none)
       (fun s => (s.holdWalks (s.agent c) [va] 1).after 8 (.pageWalk c va write exec')) ∧
     ∀ s u : State, ¬ far s → s.walkReady (s.agent c) [va] 1 = some u →
       (∀ x, s.walk (s.agent c) va = .ok x → canonical (s.ctx c).mode va = true → x.grants2 kind = true →
         exec (.pageWalk c va write exec') s = .next (u.fillTlb (s.agent c) va x)) ∧
       (∀ x, s.walk (s.agent c) va = .ok x → canonical (s.ctx c).mode va = false ∨ x.grants2 kind = false →
         exec (.pageWalk c va write exec') s = .next u) ∧
       ∀ x, s.walk (s.agent c) va = .error x → exec (.pageWalk c va write exec') s = .next u)

/-- R315, R336-R338, R342, R343, R350, R364: misses and leases, writes at their home, token buckets, and the discipline of
TIME. -/
def MemoryEventClaims : Prop :=
  ∀ (die line core id : Nat),
    (∀ s u : State, s.readLine die line = some u → exec (.homeMiss die line) s = .next u) ∧
    Happens (.homeMiss die line) (fun s => s.readLine die line = none) (fun s => s.holdMisses die [line]) ∧
    (∀ s : State, (s.die die).copies.getD line 0 ≤ s.clk → s.near die line = false → s.held = [] →
      ∃ t, exec (.leaseExpiry die line) s = .next t ∧ (t.die die).copies.find? line = none ∧ t.mem = s.mem ∧
        t.ctxs = s.ctxs ∧ ∀ k, k / 64 = die → line ∉ (t.core k).l1) ∧
    Happens (.leaseExpiry die line) (fun s => (s.clk < (s.die die).copies.getD line 0 ∨ s.near die line = true) ∧ s.held = [])
      (fun s => s) ∧
    Happens (.writeCombineFlush die line) (fun _ => True) (fun s => s.flush fun p =>
      decide (p.die = die) && p.atDie && decide (p.kind ≠ .host) && decide (line ∈ linesOf p.addr p.bytes.length)) ∧
    Happens (.homeWritePerform id) (fun s => ∀ p, p ∈ s.pend → p.id ≠ id) (fun s => s) ∧
    (∀ (s : State) (p : PWrite), s.pend.find? (fun q => decide (q.id = id)) = some p →
      (s.fnOfWrite id = none →
        (p.atDie = false → exec (.homeWritePerform id) s = .next (s.after 8 (.homeWritePerform id))) ∧
        (p.atDie = true →
          let u := s.flush fun q => decide (q.id = id)
          exec (.homeWritePerform id) s = .next (if p.waits = true ∧ (u.pend.any fun q => decide (q.id = id)) = true then
            u.after 8 (.homeWritePerform id) else u))) ∧
      ∀ port fn, s.fnOfWrite id = some (port, fn) →
        (s.earlierReqs port fn id = true → exec (.homeWritePerform id) s = .next (s.after 8 (.homeWritePerform id))) ∧
        (s.earlierReqs port fn id = false → s.leaseFree p.addr p.bytes.length = true →
          exec (.homeWritePerform id) s = .next (s.performHost p port fn)) ∧
        (s.earlierReqs port fn id = false → s.leaseFree p.addr p.bytes.length = false →
          exec (.homeWritePerform id) s = .next (if p.waits then s.after 8 (.homeWritePerform id) else s.waitHome p))) ∧
    (∀ (s : State) (p : PWrite), s.pend = [p] → p.kind ≠ .host → p.atDie = true → s.fnOfWrite p.id = none →
      s.errLines = [] → s.sramErrs = [] → s.leaseFree p.addr p.bytes.length = true →
      ∃ t, exec (.homeWritePerform p.id) s = .next t ∧ t.pend = [] ∧ t.mem = s.mem.writeA p.addr p.bytes) ∧
    Happens (.tokenBucketRefill core) (fun _ => True)
      (fun s => (s.modCore core fun k => k.portClk s.detmode).startRefill core) ∧
    (∀ (k : Core) (l : Nat), l < 8 → k.refilled.buckets.toList.getD l 0 =
      (let rate := bits k.dptoken (8 * l + 3) (8 * l)
       let full := 16 * (16 * 4 ^ bits k.dptoken (8 * l + 5) (8 * l + 4))
       if rate = 0 then k.buckets.toList.getD l 0 else min full (k.buckets.toList.getD l 0 + rate))) ∧
    ∀ (ppm : Int) (s : State), ∃ t, exec (.ptpTimestampExchange ppm) s = .next t ∧ t.timeBaseNow = s.timeBaseNow ∧
      t.timeParts = s.timeParts % 2000000 ∧ t.ppm = max (-200) (min 200 ppm) ∧ t.clk = s.clk ∧ t.mem = s.mem

/-- R260, R441: a Levanter engine that is idle chooses a job, which starts from PROG, or ends at once where it is invalid; a gather
with a duplicate mask reads its earlier indices again first (R258).  That a job whose SRC and DST name the same pane is invalid is the
model's choice (log entry 63). -/
def JobStartClaims : Prop :=
  ∀ (die cl : Nat),
    Happens (.jobSchedule die cl) (fun s => ((s.die die).queue cl).any Job.runs = true ∨
      (s.die die).levHarv.getLsbD cl = true) (fun s => s) ∧
    (let idle (s : State) : Prop := ((s.die die).queue cl).any Job.runs = false ∧ (s.die die).levHarv.getLsbD cl = false
     Happens (.jobSchedule die cl) (fun s => idle s ∧ s.choose die cl = none) (fun s => s) ∧
     ∀ (s : State) (j : Job), idle s → s.choose die cl = some j →
       (j.st = .suspended → exec (.jobSchedule die cl) s = .next (s.startJob die cl j)) ∧
       (j.st = .waiting → s.jobInvalid die cl j = none → exec (.jobSchedule die cl) s = .next (s.startJob die cl j)) ∧
       ∀ x, j.st = .waiting → s.jobInvalid die cl j = some x → exec (.jobSchedule die cl) s =
         .next (((s.setJob die cl { j with ended := some (x + 1, j.prog) }).after 0 (.jobFaultEnd die cl)).after 0
           (.jobSchedule die cl))) ∧
    ∀ (s : State) (j : Job),
      let panes (u : State) : State := if j.st = .waiting then u.takePanes die cl j else u
      (j.kind ≠ .gather ∨ j.dup = 0 →
        s.startJob die cl j = ((panes s).setJob die cl { j with
          st := .running, due := none, before := [], ticket := s.lastTicket (coreOf j.ctx) j.did,
          seen := j.seen.eraseDups }).after 32 (.jobBlockEnd die cl)) ∧
      (j.kind = .gather → j.dup ≠ 0 →
        let rs := s.engineRanges (j.agent die) ((upFrom 0 j.prog).map fun i => (.load, j.idx + BitVec.ofNat 64 (4 * i), 4))
        (s.jobArrived j rs = false → s.startJob die cl j = s.fetchHost die cl j rs (.jobSchedule die cl)) ∧
        (s.jobArrived j rs = true → s.readLines die (s.hbmLines rs) = none →
          s.startJob die cl j = (s.holdMisses die (s.hbmLines rs)).after 8 (.jobSchedule die cl)) ∧
        ∀ (u v : State) (t : Ticket) (l : List Nat), s.jobArrived j rs = true → s.readLines die (s.hbmLines rs) = some u →
          u.enginePorts j (u.hbmLines rs) [] = (v, t) → ({ st := v, ws := [] } : JobAcc).earlier (j.agent die) j j.prog = .ok l →
          s.startJob die cl j = ((panes v).setJob die cl
            { j.tookLines u t (u.hbmLines rs) with st := .running, due := none, before := l }).after 32 (.jobBlockEnd die cl))

/-- R260, R337, R340, R342, R441, R476: a running job reaches its next block boundary once the port has served its lines, the host
memory that it reads has come, and no home holds its lines; after the block it ends, waits for a link, is suspended, or goes on.  When
a block reads and writes is the model's choice (log entry 28). -/
def JobBlockClaims : Prop :=
  ∀ (die cl : Nat),
    Happens (.jobBlockEnd die cl) (fun s => ((s.die die).queue cl).any Job.runs = false) (fun s => s) ∧
    (∀ (s : State) (j : Job), ((s.die die).queue cl).find? Job.runs = some j →
      let ag := j.agent die
      let rs := s.engineRanges ag (JobAcc.run { st := s, ws := [] } ag cl j j.blockLeft).1.as.reverse
      (s.portServed (coreOf j.ctx) j.ticket = false → exec (.jobBlockEnd die cl) s = .next (s.after 1 (.jobBlockEnd die cl))) ∧
      (s.portServed (coreOf j.ctx) j.ticket = true → s.jobArrived j rs = false →
        exec (.jobBlockEnd die cl) s = .next (s.fetchHost die cl j rs (.jobBlockEnd die cl))) ∧
      (s.portServed (coreOf j.ctx) j.ticket = true → s.jobArrived j rs = true → s.readLines die (s.hbmLines rs) = none →
        exec (.jobBlockEnd die cl) s = .next ((s.holdMisses die (s.hbmLines rs)).after 8 (.jobBlockEnd die cl))) ∧
      ∀ (u v : State) (z : JobAcc) (k : Job) (stop : Option Nat) (t : Ticket), s.portServed (coreOf j.ctx) j.ticket = true →
        s.jobArrived j rs = true → s.readLines die (s.hbmLines rs) = some u →
        JobAcc.run { st := u, ws := [] } ag cl j j.blockLeft = (z, k, stop) →
        (z.as.reverse.foldl (fun w a => w.cacheEngine ag a.2.1) (z.commit ag)).enginePorts j (u.hbmLines rs)
          (z.ws.map fun e => lineOf e.1).eraseDups = (v, t) →
        exec (.jobBlockEnd die cl) s = .next (v.blockDone die cl (k.tookLines u t (u.hbmLines rs)) stop)) ∧
    ∀ (s : State) (j : Job),
      let counted := s.countBlock die cl j
      s.blockDone die cl j (some linkWait) = (s.setJob die cl j).after 8 (.jobBlockEnd die cl) ∧
      (∀ x, x ≠ linkWait → s.blockDone die cl j (some x) = ((counted.setJob die cl { j with ended := some (x + 1, j.prog) }).after 0
        (.jobFaultEnd die cl)).after 0 (.jobSchedule die cl)) ∧
      (j.n.toNat ≤ j.prog → s.blockDone die cl j none = ((counted.setJob die cl
        { j with ended := some (0, j.n.toNat), prog := j.n.toNat }).after 0 (.jobComplete die cl)).after 0
          (.jobSchedule die cl)) ∧
      (j.prog < j.n.toNat → counted.budgetSpent die j = true → s.blockDone die cl j none =
        ((counted.writeRecord die j 0x30 (bytesOf j.prog 8)).setJob die cl { j with st := .suspended }).after 0
          (.jobSchedule die cl)) ∧
      (j.prog < j.n.toNat → counted.budgetSpent die j = false →
        s.blockDone die cl j none = (counted.setJob die cl j).after 32 (.jobBlockEnd die cl)) ∧
      (counted.die die).blocks.find? (coreOf j.ctx * 128 + j.did.toNat) =
        some ((s.die die).blocks.getD (coreOf j.ctx * 128 + j.did.toNat) 0 + 1)

/-- R260-R262, R266, R441: every job that has ended writes PROG and STAT after its own writes and once the port has served it, gives up
its panes, sends its completion message, and leaves its place; what waits is tried again; a round ends; a drained seal entry is
free.  That the message carries the GANG and the rank that the context has then is the model's choice (log entry 24), and so is
a record that its granule denies the engine (log entry 64). -/
def JobEndClaims : Prop :=
  ∀ (die cl : Nat),
    (∀ (s : State) (picks : Nat → Bool) (again : Instr),
      (picks = (fun n => decide (n = 0)) ∧ again = .jobComplete die cl) ∨
        (picks = (fun n => decide (n ≠ 0)) ∧ again = .jobFaultEnd die cl) →
      let u := (s.endedJobs die cl picks).foldl (fun t e => t.endJob die cl e.1 e.2.1 e.2.2) s
      exec again s = .next (if u.endedJobs die cl picks = [] then u else u.afterOnce 8 again) ∧
      (∀ (j : Job) (stat prog : Nat), (j, stat, prog) ∈ s.endedJobs die cl picks ↔
        j ∈ (s.die die).queue cl ∧ j.ended = some (stat, prog) ∧ picks stat = true) ∧
      ((∀ k, k ∈ (s.die die).queue cl → ∀ z, k.ended = some z → picks z.1 = false) → exec again s = .next s)) ∧
    (∀ (s u : State) (j : Job) (stat prog : Nat) (done : Bool), s.recordEnd die cl j stat prog = (u, done) →
      (done = false → s.endJob die cl j stat prog = u) ∧
      (done = true → ∀ (v : State) (ok : Bool), u.deliverTo j.ctx ⟨0, true, 0, (u.ctx j.ctx).gang, (u.ctx j.ctx).rank,
          BitVec.ofNat 512 (j.id.toNat + stat * 2 ^ 64 + prog * 2 ^ 128)⟩ = (v, ok) →
        s.endJob die cl j stat prog = if ok = true then (v.setQueue die cl (((v.die die).queue cl).filter fun q =>
          decide (q.id ≠ j.id))).after 0 (.jobSchedule die cl) else v)) ∧
    (∀ (s u : State) (j : Job) (stat prog : Nat) (ok : Bool), s.jobWritesDone j = (u, ok) →
      let served : Prop := s.portServed (coreOf j.ctx) j.ticket = true
      (j.written = true → s.recordEnd die cl j stat prog = (s, true)) ∧
      (j.written = false → ¬ served → s.recordEnd die cl j stat prog = (s, false)) ∧
      (j.written = false → served → ok = false → s.recordEnd die cl j stat prog = (u, false)) ∧
      (j.written = false → served → ok = true → j.recorded = false →
        let v := u.writeRecord die j 0x30 (bytesOf prog 8 ++ bytesOf stat 8)
        s.recordEnd die cl j stat prog =
          (v.setJob die cl { j with recorded := true, ticket := v.lastTicket (coreOf j.ctx) j.did }, false)) ∧
      (j.written = false → served → ok = true → j.recorded = true → s.recordEnd die cl j stat prog =
        ((if j.st = .waiting then u else u.freePanes die cl j).setJob die cl { j with written := true }, true))) ∧
    (∀ s : State, ∃ t, exec (.levanterRound die cl) s = .next t ∧ t.mem = s.mem ∧
      ∀ key, (t.die die).blocks.find? key = if key / 128 / 8 = die * 8 + cl then none else (s.die die).blocks.find? key) ∧
    (∀ (s : State) (i : Nat) (e : Seal), (s.die die).seals.find? i = some e →
      exec (.sealCountDrained die i) s = .next (if e.draining = true ∧ e.holders = [] then s.freeSeal die i else s)) ∧
    (∀ i, Happens (.sealCountDrained die i) (fun s => (s.die die).seals.find? i = none) (fun s => s)) ∧
    ∀ (c st : Nat), Happens (.gustPrefetch c st) (fun _ => True) (fun s =>
      if ((s.ctx c).stream st).st = .free then s else s.useUnits (dieOf c) [(4, coreOf c % 64)])

/-- R268, R271, R314: a spawn request starts the lowest free slot of its core, or the spawner itself; a steal request, in the order of
its clk, takes the oldest record of its victim, or goes on to the next. -/
def TaskEventClaims : Prop :=
  ∀ (c core v : Nat) (pc : Word),
    (let slot (s : State) : Option CtxId := if (s.core core).harv then none else s.freeSlot core (s.ctx c).mode (s.did c)
     Happens (.spawnRequestArrival c core pc) (fun s => (s.ctx c).wait ≠ .answer 0) (fun s => s) ∧
     Happens (.spawnRequestArrival c core pc) (fun s => (s.ctx c).wait = .answer 0 ∧ slot s = none)
       (fun s => s.modCtx c fun q => { (q.wx 1 (q.pc + 4)).retired with pc := pc, wait := .none }) ∧
     ∀ (s : State) (t : CtxId), (s.ctx c).wait = .answer 0 → slot s = some t →
       exec (.spawnRequestArrival c core pc) s = .next (((s.synced c t).modCtx t fun q => q.startAt pc ((s.ctx c).rx 10)
         ((s.ctx c).rx 11) ((s.ctx c).rx 12) ((s.ctx c).rx 13)).modCtx c fun q => { q.retired with wait := .none }) ∧
       ((s.ctx c).run = .running → ∃ u, exec (.spawnRequestArrival c core pc) s = .next u ∧
         (u.ctx t).pc = pc &&& ~~~3#64 ∧ (u.ctx t).run = .running ∧
         (u.ctx t).x = ((((((s.ctx t).wx 1 (s.ctx t).pc).wx 10 ((s.ctx c).rx 10)).wx 11 ((s.ctx c).rx 11)).wx 12
           ((s.ctx c).rx 12)).wx 13 ((s.ctx c).rx 13)).x ∧
         (u.ctx c).pc = (s.ctx c).pc + 4 ∧ (u.ctx c).wait = .none ∧ (u.ctx c).x = (s.ctx c).x ∧ u.mem = s.mem)) ∧
    Happens (.stealRequest c v) (fun s => ∀ d, (s.ctx c).wait ≠ .answer d) (fun s => s) ∧
    ∀ (s : State) (d : BitVec 5), (s.ctx c).wait = .answer d →
      (s.stealBefore c v = true → exec (.stealRequest c v) s = .next (s.after 0 (.stealRequest c v))) ∧
      (s.stealBefore c v = false → (s.core v).dqOwner ≠ s.did c ∨ (s.core v).popTop (physLanes v) = none →
        exec (.stealRequest c v) s = .next (s.stealFrom c d
          ((((s.stealOrder c).dropWhile fun w => decide (w ≠ v)).drop 1).filter fun w => s.stealable c w))) ∧
      (∀ (e : Task) (k : Core), s.stealBefore c v = false → (s.core v).dqOwner = s.did c →
        (s.core v).popTop (physLanes v) = some (e, k) →
        exec (.stealRequest c v) s = .next ((s.modCtx c fun q => { q with wait := .none }).finishPop c d (some e) fun u =>
          u.setCore v k) ∧
        ((s.ctx c).red = none → (s.ctx c).log = none →
          exec (.stealRequest c v) s = .next (((s.modCtx c fun q => { q with wait := .none }).setCore v k).retireTask c d
            [e.pc, e.a0, e.a1, e.a2, e.a3, e.join]))) ∧
      (∀ w vs, s.stealFrom c d (w :: vs) = (s.modCtx c fun k => { k with wait := .answer d }).soon (.stealRequest c w)) ∧
      s.stealFrom c d [] = (s.modCtx c fun k => { k with wait := .none }).finishPop c d none id

/-- R276-R278: barriers, gang stops, and the copies of a GCAST. -/
def GangEventClaims : Prop :=
  ∀ (c core g rank pane : Nat),
    (∀ i, i ∈ [Instr.gbarArrivalSignal g rank, .gbarGenerationComplete g, .gangStopComplete g] →
      Happens i (fun s => s.gang? g = none) (fun s => s)) ∧
    (∀ (s : State) (e : Gang), s.gang? g = some e →
      (s.allArrived e = true → exec (.gbarArrivalSignal g rank) s = .next (s.after (if e.scope ≤ 2 then 32 else 64)
        (.gbarGenerationComplete g))) ∧
      (s.allArrived e = false → exec (.gbarArrivalSignal g rank) s = .next s ∧
        exec (.gbarGenerationComplete g) s = .next s) ∧
      (s.allArrived e = true → exec (.gbarGenerationComplete g) s = .next (e.members.foldl
        (fun t m => if (t.ctx m).run = .parked .gbar then t.passGbar e m else t) (s.putGang g { e with gen := e.gen + 1 }))) ∧
      (s.allArrived e = true → e.members.Nodup → ∃ u, exec (.gbarGenerationComplete g) s = .next u ∧
        (∃ e', u.gang? g = some e' ∧ e'.gen = e.gen + 1 ∧ e'.members = e.members) ∧
        (∀ m, m ∈ e.members → (s.ctx m).run = .parked .gbar → (u.ctx m).run = .running ∧ (u.ctx m).pc = (s.ctx m).pc + 4 ∧
          (u.ctx m).gbarGen = (s.ctx m).gbarGen + 1 ∧ (u.ctx m).arrived = false) ∧
        (∀ m, m ∉ e.members ∨ (s.ctx m).run ≠ .parked .gbar → u.ctx m = s.ctx m) ∧ u.mem = s.mem) ∧
      exec (.gangStopComplete g) s = .next (if e.st = .stopping ∧ ∀ m, m ∈ e.members → (s.ctx m).pendStop = none then
        s.putGang g { e with st := .stopped } else s)) ∧
    (let waiting (s : State) : List CtxId := (s.ctxs.filter fun e => decide ((core, pane) ∈ e.2.casts)).map fun e => e.1
     Happens (.gcastCopyLanded core pane) (fun s => waiting s = []) (fun s => s) ∧
     Happens (.gcastCopyLanded core pane) (fun s => waiting s ≠ []) (fun s => (waiting s).foldl
       (fun t c => t.castLanded core pane c) (s.modCore core fun k => k.castFreed pane)) ∧
     ∀ s : State, waiting s = [c] →
       let rest := (s.ctx c).casts.filter fun z => decide (z ≠ (core, pane))
       ∃ u, exec (.gcastCopyLanded core pane) s = .next u ∧ (u.ctx c).casts = rest ∧ u.mem = s.mem ∧
         (rest = [] → (u.ctx c).wait = .none ∧ (u.ctx c).pc = (s.ctx c).pc + 4) ∧
         (rest ≠ [] → (u.ctx c).wait = (s.ctx c).wait ∧ (u.ctx c).pc = (s.ctx c).pc) ∧
         (pane < 64 → (u.core core).spad = (s.core core).spad ∧ ((u.core core).pane pane).state = 2))

/-- R279, R280, R306, R307: what a core's network interface does with a message: it holds it for a rank in transit, in order, up
to four, and lets it go on once the rank entry names its target in this package. -/
def HoldClaims : Prop :=
  ∀ (core : Nat) (m : Msg),
    (let held (s : State) : List Msg := (s.core core).holds.getD (m.gang * 8192 + m.trank) []
     (∀ (s u : State) (ok : Bool), (∀ n, (held s).head? = some n → n ≠ m) → s.acceptMsg core m = (u, ok) →
       exec (.msendAccept core m) s = .next (if ok = true then u else u.after 8 (.msendAccept core m))) ∧
     (∀ (s : State) (rest : List Msg), held s = m :: rest → exec (.msendAccept core m) s = .next (s.releaseHold core m rest)) ∧
     (∀ s : State, s.gang? m.gang = none → s.acceptMsg core m = (s, false)) ∧
     ∀ (s : State) (g : Gang), s.gang? m.gang = some g →
       ((g.entry m.trank).it = true ∨ held s ≠ [] → s.acceptMsg core m = if (held s).length < 4 then
         (s.modCore core fun k => { k with holds := k.holds.set (m.gang * 8192 + m.trank) (held s ++ [m]) }, true)
           else (s, false)) ∧
       ((g.entry m.trank).it = false → held s = [] →
         s.acceptMsg core m = if (g.entry m.trank).coord.toNat / 8192 = s.pkgNum then
           s.deliverTo ((g.entry m.trank).coord.toNat % 8192) m else (s, false)) ∧
       (∀ rest, (g.entry m.trank).it = true → s.releaseHold core m rest = s) ∧
       ∀ (rest : List Msg) (u : State) (ok : Bool), (g.entry m.trank).it = false →
         (g.entry m.trank).coord.toNat / 8192 = s.pkgNum →
         s.deliverTo ((g.entry m.trank).coord.toNat % 8192) m = (u, ok) →
         (ok = false → s.releaseHold core m rest = u.after 8 (.msendAccept core m)) ∧
         (ok = true → rest = [] → s.releaseHold core m rest =
           u.modCore core fun k => { k with holds := k.holds.erase (m.gang * 8192 + m.trank) }) ∧
         ∀ n t, ok = true → rest = n :: t → s.releaseHold core m rest = (u.modCore core fun k =>
           { k with holds := k.holds.set (m.gang * 8192 + m.trank) rest }).after 0 (.msendAccept core n))

/-- R280, R283, R309, R312, R454: a message is delivered to a target that is present, goes to the inbox ring for one that is absent
or deferred, and is tried again where neither takes it; timed waits and WFI end. -/
def MessageEventClaims : Prop :=
  ∀ (c core slot : Nat) (m : Msg),
    (let ofKind (n : Nat) : Msg := { m with kind := BitVec.ofNat 2 n }
     let event (n : Nat) : Instr := [Instr.dataDelivery c m, .spawnDelivery c m, .wakeDelivery c m, .regwDelivery c m].getD n
       (.dataDelivery c m)
     (∀ n, n < 4 → ∀ (s u : State) (ok : Bool), s.deliverTo c (ofKind n) = (u, ok) →
       exec (event n) s = .next (if ok = true then u else u.after 8 (event n))) ∧
     ∀ n, n < 4 → ∀ s : State,
       (s.migratingTo (ofKind n) c = true → s.deliverTo c (ofKind n) = (s, false)) ∧
       (s.migratingTo (ofKind n) c = false →
         (s.ctx c).absentFor (ofKind n) = true ∨ (s.core (coreOf c)).defer.getLsbD (slotOf c) = true →
         s.deliverTo c (ofKind n) = ((s.msgSync (ofKind n) c).msgSync (ofKind n) (coreOf c * 8 + 7)).inboxWrite
           (coreOf c) (slotOf c) (ofKind n)) ∧
       (s.migratingTo (ofKind n) c = false → (s.ctx c).absentFor (ofKind n) = false →
         (s.core (coreOf c)).defer.getLsbD (slotOf c) = false → (s.ctx c).log = none →
         let v := s.msgSync (ofKind n) c
         let parked := (s.ctx c).run = .parked .waitm
         (n = 0 → (s.ctx c).mailbox.length < Config.mailboxDepth → ∃ u, s.deliverTo c (ofKind n) = (u, true) ∧
           (u.ctx c).mailbox = (s.ctx c).mailbox ++ [ofKind n] ∧ u.mem = s.mem ∧
           (parked → (u.ctx c).run = .running ∧ (u.ctx c).pc = (s.ctx c).pc + 4) ∧
           (¬ parked → (u.ctx c).run = (s.ctx c).run ∧ (u.ctx c).pc = (s.ctx c).pc)) ∧
         (n = 0 → Config.mailboxDepth ≤ (s.ctx c).mailbox.length → s.deliverTo c (ofKind n) = (v, false)) ∧
         (n = 1 → parked → ∃ u, s.deliverTo c (ofKind n) = (u, true) ∧ (u.ctx c).pc = msgWord m 0 &&& ~~~3#64 ∧
           (u.ctx c).run = .running ∧ (u.ctx c).rx 1 = (s.ctx c).pc ∧ (u.ctx c).rx 10 = msgWord m 1 ∧
           (u.ctx c).rx 13 = msgWord m 4 ∧ u.mem = s.mem) ∧
         (n = 1 → ¬ parked → s.deliverTo c (ofKind n) = if (s.ctx c).spawn = none ∧ (s.ctx c).spawnq = [] then
           (v.setCtx c { v.ctx c with spawn := some (ofKind n) }, true) else (v, false)) ∧
         (n = 2 → parked → s.deliverTo c (ofKind n) = (v.modCtx c fun k => { k.retired with run := .running }, true)) ∧
         (n = 2 → ¬ parked → s.deliverTo c (ofKind n) = (v.setCtx c { v.ctx c with wake := true }, true)) ∧
         (n = 3 → parked ∨ (s.ctx c).run = .out →
           s.deliverTo c (ofKind n) = (v.setCtx c ((v.ctx c).wx 28 (msgWord m 0)), true)) ∧
         (n = 3 → ¬ parked → (s.ctx c).run ≠ .out → s.deliverTo c (ofKind n) =
           (v.setCtx c { v.ctx c with regw := (v.ctx c).regw ++ [msgWord m 0] }, true)))) ∧
    (∀ (s u : State) (ok : Bool), s.inboxWrite core slot m = (u, ok) →
      exec (.inboxRecordWrite core slot m) s = .next (if ok = true then u else u.after 8 (.inboxRecordWrite core slot m))) ∧
    (∀ (s : State) (t : Word), (s.ctx c).run = .parked (.waitt t) →
      (t.toNat ≤ (s.time (dieOf c)).toNat →
        exec (.waittExpiry c) s = .next (s.modCtx c fun k => { k.retired with run := .running })) ∧
      ((s.time (dieOf c)).toNat < t.toNat → exec (.waittExpiry c) s = .next s)) ∧
    Happens (.waittExpiry c) (fun s => ∀ t, (s.ctx c).run ≠ .parked (.waitt t)) (fun s => s) ∧
    Happens (.wfiWake c) (fun s => (s.ctx c).run = .parked .wfi ∧ (s.ctx c).wfiReady = true)
      (fun s => s.modCtx c fun k => { k.retired with run := .running }) ∧
    Happens (.wfiWake c) (fun s => (s.ctx c).run ≠ .parked .wfi ∨ (s.ctx c).wfiReady = false) (fun s => s)

/-- R310, R311, R425: an inbox record that may be written: 128 bytes at WP of the ring, whose first word names the message and whose
second half is its payload; WP moves on, DEFER of the slot is set, and slot 7 is woken; a ring that may not take it stays, and a record waits
at its home for the leases of its lines (R337).  Who writes the record, and what its lines are tagged with, is the model's choice (log
entry 53). -/
def InboxClaims : Prop :=
  ∀ (s : State) (core slot : Nat) (m : Msg), let k := s.core core
    let a := k.inBase.toNat * 4096 + 128 * k.wp.toNat
    (s.inboxOpen core = false → s.inboxWrite core slot m = (s, false)) ∧
    (s.inboxOpen core = true → s.leaseFree a 128 = false → s.inboxWrite core slot m = (s.holdInbox core a, false)) ∧
    (Memory.wf s.mem = true → s.inboxOpen core = true → s.leaseFree a 128 = true → s.errLines = [] → s.sramErrs = [] → slot < 8 → (∀ i, i < 128 → isReport (a + i) = false) →
      ∃ u, s.inboxWrite core slot m = (u, true) ∧
        natOf (u.mem.readN a 8) = (1 + 2 * m.kind.toNat + 8 * b2n m.org + 16 * (m.srank % 2 ^ 13) + 2 ^ 17 * slot +
          2 ^ 20 * (m.gang % 2 ^ 12) + 2 ^ 32 * (m.trank % 2 ^ 13)) ∧
        u.mem.readN (a + 64) 64 = bytesOf m.payload.toNat 64 ∧
        (u.core core).wp.toNat = (k.wp.toNat + 1) % 2 ^ min k.inSz.toNat 12 % 4096 ∧
        (u.core core).defer.getLsbD slot = true ∧
        (∀ l, l ∈ linesOf a 128 → u.tags.find? l = some ⟨false, k.part ++ 0#3⟩) ∧
        ((s.ctx (core * 8 + 7)).run = .parked .waitm → (u.ctx (core * 8 + 7)).run = .running) ∧
        ((s.ctx (core * 8 + 7)).run ≠ .parked .waitm → (u.ctx (core * 8 + 7)).wake = true))

/-! Host ports. -/

/-- A store of `v` to a register of a function control block by the context whose turn it is, as an event. -/
def PutsFcb (i : Instr) (p f off : Nat) (v : Word) : Prop :=
  ∀ (s u : State), p ≤ 1 → f ≤ 48 →
    (s.fcbWrite (s.agent s.cur) p f off v = (u, true) → exec i s = .next ((u.retire s.cur).awaitFar s.cur)) ∧
    (s.fcbWrite (s.agent s.cur) p f off v = (u, false) → exec i s = .next (u.trap s.cur (mkTrap 9
      (BitVec.ofNat 64 (s.pkgNum * 2 ^ 46 + (12 + p) * 2 ^ 42 + 2 ^ 41 + 4096 * f + off)))))

/-- R463-R470, R474: the stores to function control blocks that stand as steps. -/
def FcbEventClaims : Prop :=
  ∀ (p f k off : Nat) (v : Word),
    PutsFcb (.fctlWrite p f v) p f 0x008 v ∧ PutsFcb (.dbtgtWrite p f v) p f 0x018 v ∧
    PutsFcb (.lqheadWrite p f v) p f 0x028 v ∧ PutsFcb (.hintWrite p f v) p f 0x030 v ∧
    (k < 8 → PutsFcb (.codeRangeEnable p f k v) p f (0x108 + 0x18 * k) (v ||| 1) ∧
      PutsFcb (.codeRangeDisable p f k v) p f (0x108 + 0x18 * k) (v &&& ~~~1)) ∧
    PutsFcb (.fcbRegisterWrite p f off v) p f off v

/-- A function with a code range replaced. -/
def Fn.withRange (f : Fn) (k : Nat) (r : CodeRange) : Fn := { f with ranges := f.ranges.setIfInBounds k r }

/-- R463-R465, R468-R470, R474: what a store by the kernel to each register of a function control block does, in a function
that is not secure.  The model's choices: LQTAIL, which no row of R464 lists, takes none (log entry 15), and a code range is not
enabled whose table the port die may not read (R425; log entry 68). -/
def FcbWriteClaims : Prop :=
  ∀ (s : State) (ag : Agent) (p f : Nat) (v : Word), let r := s.fn p f
    r.w = false → kernelOf ag (s.fnPart p f) = true →
    (v.toNat < 2 → s.fcbWrite ag p f 0x008 v = ((s.setFn p f { r with en := v = 1 }).evalDoorbell p f, true)) ∧
    (2 ≤ v.toNat → s.fcbWrite ag p f 0x008 v = (s, false)) ∧
    (zeroBits v 62 19 = true → s.dbTargetOk (s.fnPart p f) v = true → s.fcbWrite ag p f 0x018 v =
      ((s.setFn p f { r with dbV := v.getLsbD 63, dbCtx := v.truncate 19 }).evalDoorbell p f, true)) ∧
    (v.toNat < 2 ^ 32 → s.fcbWrite ag p f 0x028 v =
      ((s.setFn p f { r with lqhead := v.truncate 32, out := false }).evalDoorbell p f, true)) ∧
    s.fcbWrite ag p f 0x020 v = (s, false) ∧
    (v.toNat < 16 → s.fcbWrite ag p f 0x030 v = (s.sendMsix p f v.toNat, true) ∧
      s.fcbWrite ag p f 0x038 v = (s.setFn p f { r with ferr := r.ferr &&& ~~~ v.truncate 4 }, true)) ∧
    (∀ k, k < 8 → v.toNat % 2 = 1 → v.toNat < 2 ^ 16 → (r.ranges.toList.getD k CodeRange.reset).v = false →
      s.fcbWrite ag p f (0x108 + 0x18 * k) v =
        if s.tableOk p f (r.ranges.toList.getD k CodeRange.reset) (v.extractLsb' 1 12).toNat = true then
          (s.rangeEnable p f k (v.extractLsb' 1 12) (v.extractLsb' 13 3), true) else (s, false)) ∧
    (∀ k, k < 8 → v.toNat % 4096 = 0 → v.toNat < 2 ^ 52 →
      ((r.ranges.toList.getD k CodeRange.reset).v = false → s.fcbWrite ag p f (0x100 + 0x18 * k) v =
        (s.setFn p f (r.withRange k { r.ranges.toList.getD k CodeRange.reset with base := v.extractLsb' 12 40 }), true)) ∧
      ((r.ranges.toList.getD k CodeRange.reset).v = true → s.fcbWrite ag p f (0x100 + 0x18 * k) v = (s, false)))

/-- R466, R468-R470: a doorbell message is prepared when delivery is on, none is out, and the tail differs from the last one sent;
an MSI-X vector is dropped, kept pending while masked, or sent with the address and the data of its table entry. -/
def DoorbellClaims : Prop :=
  ∀ (s : State) (p f vec : Nat), let r := s.fn p f
    (r.out = false → r.en = true → r.dbV = true → r.lqtail ≠ r.note →
      ∃ u, s.evalDoorbell p f = u ∧ (u.fn p f).note = r.lqtail ∧ (u.fn p f).out = true ∧
        (u.fn p f).dbWait = r.dbWait ++ [(r.lqtail, r.reqs)] ∧ u.agenda.length = s.agenda.length + 1) ∧
    (r.out = true ∨ r.en = false ∨ r.dbV = false ∨ r.lqtail = r.note → s.evalDoorbell p f = s) ∧
    (r.vfe = false → s.sendMsix p f vec = s) ∧
    (r.vfe = true → r.vecMasked vec = true →
      s.sendMsix p f vec = s.setFn p f { r with pend := r.pend ||| BitVec.twoPow 16 vec }) ∧
    (r.vfe = true → r.vecMasked vec = false →
      s.sendMsix p f vec = s.says (.msix p f vec ((r.vector vec).extractLsb' 0 64) ((r.vector vec).extractLsb' 64 32)))

/-- A request of a function's host, as the event `i`: it has no effect before the ports are up or while the package is halted (log entry
69), and it waits behind the earlier requests of its function (R467). -/
def Queues (p f : Nat) (i : Instr) : Prop :=
  Happens i (fun s => s.hostUp = false) (fun s => s) ∧
  Happens i (fun s => s.hostUp = true ∧ s.behind p f i = true)
    (fun s => s.modFn p f fun r => { r with queue := r.queue ++ [i] })

/-- A request of a function's host whose turn it is, as the event `i`: whenever `pre` holds, `act` is done, and the next request of
the function is examined. -/
def Serves (p f : Nat) (i : Instr) (pre : State → Prop) (act : State → State) : Prop :=
  Happens i (fun s => s.hostUp = true ∧ s.behind p f i = false ∧ pre s) fun s => (act s).nextRequest p f

/-- R340, R364, R459, R466-R472, R476: inbound requests, in the order of their function (log entries 36 and 37). -/
def InboundClaims : Prop :=
  ∀ (p f off len : Nat) (bar0 ide : Bool) (data : List Byte),
    (let ok (s : State) : Prop := (s.fn p f).accepts ide = true
     let ps := linePieces (len / 64 + 2) off len
     let i : Instr := .inboundRead p f off len bar0 ide
     let far : Instr := .inboundRead p f off len false ide
     Queues p f i ∧
     Serves p f i (fun s => ¬ ok s) (fun s => s.abortRead p f 2) ∧
     Serves p f i (fun s => ok s ∧ 4096 < len) (fun s => s.abortRead p f 0) ∧
     Serves p f (.inboundRead p f off len true ide) (fun s => ok s ∧ len ≤ 4096)
       (fun s => s.says (.data p f ((s.fn p f).bar0Bytes off len))) ∧
     Happens far (fun s => s.hostUp = true ∧ s.behind p f far = false ∧ ok s ∧ len ≤ 4096 ∧ s.requestWaits p f off len = true)
       (fun s => (s.modFn p f fun r => { r with queue := if r.queue = [] then [far] else r.queue }).after 8 far) ∧
     (∀ qs : List (Nat × Nat), Serves p f far
       (fun s => ok s ∧ len ≤ 4096 ∧ s.requestWaits p f off len = false ∧ s.inboundAll p f false ps = .ok qs)
       (fun s => s.says (.data p f (qs.flatMap fun q => s.mem.readN q.1 q.2)))) ∧
     ∀ b : Nat, Serves p f far
       (fun s => ok s ∧ len ≤ 4096 ∧ s.requestWaits p f off len = false ∧ s.inboundAll p f false ps = .error b)
       (fun s => s.abortRead p f b)) ∧
    (let ok (s : State) : Prop := (s.fn p f).accepts ide = true
     let ps := linePieces (data.length / 64 + 2) off data.length
     let i : Instr := .inboundWrite p f off data bar0 ide
     let far : Instr := .inboundWrite p f off data false ide
     let waits (s : State) : Prop := s.requestWaits p f off data.length = true
     Queues p f i ∧
     Serves p f i (fun s => ¬ ok s) (fun s => s.setFerr p f 2) ∧
     Serves p f i (fun s => ok s ∧ 512 < data.length) (fun s => s.setFerr p f 0) ∧
     Serves p f (.inboundWrite p f off data true ide) (fun s => ok s ∧ data.length ≤ 512)
       (fun s => if off % 4 = 0 then s.bar0Writes p f off data else s) ∧
     Happens far (fun s => s.hostUp = true ∧ s.behind p f far = false ∧ ok s ∧ data.length ≤ 512 ∧ waits s)
       (fun s => (s.modFn p f fun r => { r with queue := if r.queue = [] then [far] else r.queue }).after 8 far) ∧
     (∀ qs : List (Nat × Nat), Serves p f far
       (fun s => ok s ∧ data.length ≤ 512 ∧ ¬ waits s ∧ s.inboundAll p f true ps = .ok qs)
       (fun s => s.inboundParts p f qs data)) ∧
     ∀ b : Nat, Serves p f far (fun s => ok s ∧ data.length ≤ 512 ∧ ¬ waits s ∧ s.inboundAll p f true ps = .error b)
       (fun s => s.setFerr p f b)) ∧
    (∀ (s : State) (i : Instr),
      ((s.fn p f).queue = [] → s.behind p f i = false ∧ s.nextRequest p f = s) ∧
      ((s.fn p f).queue = [i] → s.nextRequest p f = s.modFn p f fun r => { r with queue := [] }) ∧
      ∀ j t, (s.fn p f).queue = i :: j :: t →
        s.nextRequest p f = (s.modFn p f fun r => { r with queue := j :: t }).after 0 j) ∧
    ∀ (r : Fn), r.bar0Word 0x008 = r.lqhead ∧ r.bar0Word 0x2000 = r.pend.zeroExtend 32 ∧ r.bar0Word 0 = 0 ∧
      ∀ vec w, vec < 16 → w < 4 → r.bar0Word (0x1000 + 16 * vec + 4 * w) = (r.vector vec).extractLsb' (32 * w) 32

/-- R466, R468-R470, R472: the host rings the doorbell and writes the MSI-X table; a prepared doorbell message leaves once the
requests before it are performed. -/
def HostWriteClaims : Prop :=
  ∀ (p f vec : Nat) (v : BitVec 32) (ide : Bool),
    (∀ i, i ∈ [Instr.hostDoorbellWrite p f v ide, .hostMsixUnmask p f vec v ide] →
      Queues p f i ∧ Serves p f i (fun s => (s.fn p f).accepts ide = false) (fun s => s.setFerr p f 2)) ∧
    Serves p f (.hostDoorbellWrite p f v ide) (fun s => (s.fn p f).accepts ide = true)
      (fun s => (s.modFn p f fun r => { r with lqtail := v }).evalDoorbell p f) ∧
    (∀ s : State, s.hostUp = true → (s.fn p f).queue = [] → (s.fn p f).accepts ide = true → vec < 16 →
      ∃ t, exec (.hostMsixUnmask p f vec v ide) s = .next t ∧
        (t.fn p f).vector vec = putSlice ((s.fn p f).vector vec) 96 32 v.toNat ∧
        (t.fn p f).vecMasked vec = v.getLsbD 0 ∧
        (v.getLsbD 0 = false → (t.fn p f).pend.getLsbD vec = false) ∧
        (v.getLsbD 0 = true → (t.fn p f).pend = (s.fn p f).pend) ∧
        t.hostOut = s.hostOut ++ (if (s.fn p f).pend.getLsbD vec = true ∧ v.getLsbD 0 = false then
          [.msix p f vec (((s.fn p f).vector vec).extractLsb' 0 64) (((s.fn p f).vector vec).extractLsb' 64 32)] else [])) ∧
    Happens (.doorbellMessageSend p f) (fun s => (s.fn p f).dbWait = []) (fun s => s) ∧
    ∀ (s : State) (note : BitVec 32) (ids : List Nat) (t : List (BitVec 32 × List Nat)),
      (s.fn p f).dbWait = (note, ids) :: t →
      ((∃ i, i ∈ ids ∧ i ∈ (s.fn p f).reqs) →
        exec (.doorbellMessageSend p f) s = .next (s.after 8 (.doorbellMessageSend p f))) ∧
      ((∀ i, i ∈ ids → i ∉ (s.fn p f).reqs) → ∀ (u : State) (ok : Bool),
        s.deliverTo ((s.fn p f).dbCtx.toNat % 8192) ⟨0, true, 0, 0, 0,
          BitVec.ofNat 512 (2 ^ 63 + 64 * p + f + 2 ^ 64 * note.toNat)⟩ = (u, ok) →
        exec (.doorbellMessageSend p f) s = .next (if ok = true then u.modFn p f fun r => { r with dbWait := t }
          else u.after 8 (.doorbellMessageSend p f)))

/-- R340, R461, R471: completions, errors and time-outs of outbound reads, by what the context waits for: a load, a block, a fetched
word, tables.  A primary hands what it has read to its shadow, which reads nothing itself: the model's choice (log entry 49). -/
def CompletionClaims : Prop :=
  ∀ (c : Nat) (data : Word) (va : Word) (pa : Nat) (fn : Option (Nat × Nat)),
    (∀ w : BitVec 32,
      Happens (.outboundCompletion c data true) (fun s => (s.ctx c).wait = .outbound w va pa fn)
        (fun s => ((s.endOutbound c).lend c true (cellsOf pa (bytesOf data.toNat 8))).finishLoad c w data.toNat) ∧
      Happens (.peerReadTimeout c) (fun s => (s.ctx c).wait = .outbound w va pa fn) (fun s => s.outboundError c va fn)) ∧
    (∀ n : Nat, Happens (.outboundCompletion c data true) (fun s => (s.ctx c).wait = .block va pa n fn)
      (fun s => ((s.endOutbound c).lend c true (cellsOf pa (s.mem.readN pa n))).modCtx c fun k =>
        { k with block := some (va, s.mem.readN pa n) })) ∧
    Happens (.outboundCompletion c data true) (fun s => (s.ctx c).wait = .fetch va pa fn)
      (fun s => (s.endOutbound c).modCtx c fun k => { k with fetched := some (va, BitVec.ofNat 32 (natOf (s.mem.readN pa 4))) }) ∧
    Happens (.outboundCompletion c data true) (fun s => (s.ctx c).wait = .tables va fn)
      (fun s => (s.endOutbound c).modCtx c fun k => { k with walked := true }) ∧
    Happens (.outboundCompletion c data false) (fun s => (∃ w, (s.ctx c).wait = .outbound w va pa fn) ∨
        (∃ n, (s.ctx c).wait = .block va pa n fn) ∨ (s.ctx c).wait = .fetch va pa fn ∨ (s.ctx c).wait = .tables va fn)
      (fun s => s.outboundError c va fn) ∧
    (∀ (ok : Bool) (i : Instr), i ∈ [Instr.outboundCompletion c data ok, .peerReadTimeout c] →
      Happens i (fun s => (s.ctx c).wait = .none ∨ (s.ctx c).wait = .reply) (fun s => s)) ∧
    (∀ (s : State) (p f : Nat),
      s.outboundError c va (some (p, f)) = (((s.endOutbound c).setFerr p f 3).lend c false []).trap c (mkTrap 20 va) ∧
      s.outboundError c va none = ((s.endOutbound c).lend c false []).trap c (mkTrap 20 va)) ∧
    ∀ (s : State) (ok : Bool) (cells : List Host.Cell),
      ((s.ctx c).red = none → s.lend c ok cells = s) ∧
      ∀ r, (s.ctx c).red = some r → s.lend c ok cells = if r.primary = true then s.modCtx r.partner fun k =>
        { k with red := k.red.map fun q => { q with far := some (ok, cells) } } else s

/-- What the host does at its ports, as the event `i`: nothing before they are up or while the package is halted (log entry 69), and
`act` from then on. -/
def AtPort (i : Instr) (act : State → State) : Prop :=
  Happens i (fun s => s.hostUp = false) (fun s => s) ∧ Happens i (fun s => s.hostUp = true) act

/-- R459, R463, R472, R473: TDISP states, SPDM sessions, keys, and the reset and enabling of functions.  The moves that a request may
make and what a function level reset leaves are the model's choice (log entry 38), as is that an erased key leaves V = 1 with the chunks
failed, where R473 and R474 differ (log entry 57). -/
def SecurityEventClaims : Prop :=
  ∀ (p f : Nat),
    (∀ n : Nat, AtPort (.tdispRequest p f n) fun s =>
      if f = 0 ∨ 48 < f then s
      else if (s.fn p f).tds = 0 ∧ n = 1 ∨ (s.fn p f).tds = 1 ∧ n = 2 then s.modFn p f fun r => { r with tds := BitVec.ofNat 2 n }
      else if n = 0 ∨ n = 3 then s.modFn p f fun r => { r.eraseKeys with tds := BitVec.ofNat 2 n }
      else s) ∧
    (∀ (slot : Nat) (key : BitVec 768), AtPort (.keyInstall p f slot key) fun s =>
      if (s.fn p f).sess = true ∧ ((s.fn p f).tds = 1 ∨ (s.fn p f).tds = 2) ∧ slot < 8 then
        (s.setFn p f { s.fn p f with keys := (s.fn p f).keys.setIfInBounds slot (some key) }).says (.spdm p f 3 true)
      else s.says (.spdm p f 3 false)) ∧
    (∀ kind : Nat, AtPort (.spdmMessage p f kind) fun s =>
      let u := if kind = 2 then s.modFn p f fun r => { r with sess := true }
        else if kind = 4 ∧ (s.fn p f).sess = true then s.modFn p f fun r => { r.eraseKeys with sess := false } else s
      u.says (.spdm p f kind (decide (kind ≤ 2) || (s.fn p f).sess))) ∧
    AtPort (.keyErase p f) (fun s => s.modFn p f Fn.eraseKeys) ∧
    AtPort (.functionLevelReset p f) (fun s => s.modFn p f Fn.eraseKeys) ∧
    (∀ r : Fn, r.eraseKeys.keys = Vector.replicate 8 none ∧ ∀ k, k < 8 → (r.ranges.toList.getD k CodeRange.reset).v = true →
      ∀ n, n ≤ (r.ranges.toList.getD k CodeRange.reset).nch.toNat → (r.ranges.toList.getD k CodeRange.reset).isCode n = true →
        (r.eraseKeys.ranges.toList.getD k CodeRange.reset).chunk n = .failed) ∧
    ∀ en : Bool, AtPort (.functionEnable p f en) (fun s => s.modFn p f fun r => { r with vfe := en })

/-! Package, boot and reliability. -/

/-- R475-R478: links: down, retrained or lost, and their widths. -/
def LinkClaims : Prop :=
  ∀ (port link load : Nat),
    Happens (.etesianFlitReplay port) (fun _ => True) (fun s => s) ∧
    (port < 18 →
      (∀ s : State, s.portState port = 2 → ∃ t, exec (.linkDown port) s = .next t ∧ t.portState port = 1 ∧
        t.agenda = s.agenda ++ [(s.clk + 2000000, .linkRetrainTimeout port)]) ∧
      (∀ s : State, s.portState port = 1 → ∃ t, exec (.linkRetrained port) s = .next t ∧ t.portState port = 2) ∧
      (∀ s : State, s.portState port = 1 → ∃ t, exec (.linkRetrainTimeout port) s = .next t ∧ t.portState port = 0)) ∧
    Happens (.linkDown port) (fun s => s.portState port ≠ 2) (fun s => s) ∧
    (∀ s : State, link ∉ s.shaking →
      (75 < load → s.widths.getD link 0 ≠ 0 → ∃ t, exec (.linkWidthWindow link load) s = .next t ∧
        t.widths.getD link 0 = 0 ∧ t.shaking = link :: s.shaking ∧
        t.agenda = s.agenda ++ [(s.clk + 1000, .linkWidthHandshakeDone link)]) ∧
      (load < 25 → s.widths.getD link 0 < 2 → s.detmode = false → ∃ t, exec (.linkWidthWindow link load) s = .next t ∧
        t.widths.getD link 0 = s.widths.getD link 0 + 1) ∧
      (25 ≤ load → load ≤ 75 → exec (.linkWidthWindow link load) s = .next s) ∧
      (s.widths.getD link 0 ≠ 0 → ∃ t, exec (.linkWiden link) s = .next t ∧ t.widths.getD link 0 = 0)) ∧
    Happens (.linkWidthHandshakeDone link) (fun _ => True)
      (fun s => { s with shaking := s.shaking.filter fun l => decide (l ≠ link) })

/-- R490: the path that a boot step takes after the outcome that the journal holds for it; what follows outcome 5, a halt, is the
model's choice (log entry 40). -/
def BootPathClaims : Prop :=
  ∀ n : Nat,
    bootPath n none = .normal false ∧ bootPath n (some 0) = .normal false ∧ bootPath n (some 6) = .normal false ∧
    bootPath n (some 2) = .alternate ∧ bootPath n (some 4) = .skip ∧ bootPath n (some 5) = .normal true ∧
    (n = 1 ∨ n = 3 ∨ n = 7 → bootPath n (some 1) = .alternate ∧ bootPath n (some 3) = .halt) ∧
    (n = 4 ∨ n = 9 ∨ n = 10 → bootPath n (some 1) = .skip ∧ bootPath n (some 3) = .skip) ∧
    (n = 2 ∨ n = 5 ∨ n = 6 ∨ n = 8 ∨ n = 11 ∨ n = 12 → bootPath n (some 1) = .normal true ∧ bootPath n (some 3) = .halt)

/-- R489-R493: a step of a start, by its path and by what it finds: its effect, its record and the next step, or the end of the
start; with twelve successes the fused minimum SVN rises to that of the image (R488).  What a step finds, its failing unit among it, is
left open (log entries 7 and 40). -/
def BootStepClaims : Prop :=
  ∀ (f : BootFound),
    Happens (.packageBoot f) (fun s => s.booting = false) (fun s => s) ∧
    Happens (.packageBoot f) (fun s => s.booting = true) (fun s => s.bootStep (s.boot.lastStep + 1) f) ∧
    ∀ (s : State) (n unit : Nat), (match s.boot.lastOut n with
        | some r => if r.unit = 0xFFFF then s.boot.lastUnit n else r.unit
        | none => 0xFFFF) = unit →
      (∀ h, s.boot.path n = .normal h →
        (∀ u, s.stepFails n (.normal h) f = some u → s.bootStep n f = s.bootFailed n 1 u h) ∧
        (s.stepFails n (.normal h) f = none →
          s.bootStep n f = (s.bootEffect n 0xFFFF f (.normal h)).stepEnded n 0 0xFFFF)) ∧
      (s.boot.path n = .alternate →
        (∀ u, s.stepFails n .alternate f = some u → s.bootStep n f = s.bootFailed n 3 u false) ∧
        (s.stepFails n .alternate f = none → s.bootStep n f = (s.bootEffect n unit f .alternate).stepEnded n 2 unit)) ∧
      (s.boot.path n = .skip → s.bootStep n f = (s.bootEffect n unit f .skip).stepEnded n 4 unit) ∧
      (s.boot.path n = .halt → s.bootStep n f = s.bootFailed n 3 unit true) ∧
      (∀ out, (s.stepEnded n out unit).boot.lastStep = n ∧ (s.stepEnded n out unit).mem = s.mem ∧
        (n ≠ 12 → (s.stepEnded n out unit).agenda.length = s.agenda.length + 1) ∧
        ((∃ m, 1 ≤ m ∧ m ≤ 12 ∧ ∀ r, r ∈ (s.stepEnded n out unit).boot.journal → r.start = s.boot.start → r.step = m →
          r.out ≠ 0) → (s.stepEnded n out unit).boot.minSvn = s.boot.minSvn)) ∧
      (∀ out, (s.bootFailed n out unit true).boot.halted = true) ∧
      (∀ out, (s.bootFailed n out unit false).boot.start = s.boot.start + 1 ∧
        (s.bootFailed n out unit false).boot.lastStep = 0 ∧ (s.bootFailed n out unit false).boot.halted = false) ∧
      (unit < 12 → ((s.bootEffect 4 unit f .skip).die unit).stack = 1) ∧
      (∀ p, p ≠ .skip → (s.bootEffect 10 unit f p).timeBaseNow = f.ptp ∧ (s.bootEffect 10 unit f p).ppm = 0) ∧
      (s.bootEffect 9 unit f .skip).joined = [s.pkgNum] ∧
      ∀ i : BootImage, s.boot.accepts i = true ↔ i.magic = 0x4D494648 ∧ i.edpk = s.boot.fuseEd ∧
        i.mlpk = s.boot.fuseMl ∧ i.edOk = true ∧ i.mlOk = true ∧ s.boot.minSvn ≤ i.svn

/-- R40, R488, R492, R494, R514, R518: reset, the controllers, expansion tables, temperature and power.  What memory, journal and clock
a reset, a thermal trip and a power loss leave is the model's choice (log entry 39), and so are the slots of an update and the controller
that stops (log entry 40). -/
def PackageEventClaims : Prop :=
  (∀ (s : State) (b : Boot), let t := s.resetPackage b
    t.ctxs = State.reset.ctxs ∧ t.gangs = [] ∧ t.pend = [] ∧ t.tlb = [] ∧ t.pkgNum = s.pkgNum ∧ t.clk = 0 ∧
      t.mem = s.mem.filter (fun e => !isReport e.1) ∧ t.hostOut = s.hostOut ∧ t.boot.start = b.start + 1 ∧
      t.boot.lastStep = 0 ∧ t.boot.halted = false ∧ t.boot.journal = b.journal ∧
      (0, .packageBoot (Config.bootFound (s.free + 1))) ∈ t.agenda) ∧
  Happens (.packageReset none) (fun _ => True) (fun s => s.resetPackage s.boot) ∧
  (∀ u : BootImage, Happens (.packageReset (some u)) (fun _ => True) (fun s =>
    let alternate := decide (({ s.boot with start := s.boot.start + 1, lastStep := 0, halted := false, edges := [] } : Boot).path 1 =
      .alternate)
    s.resetPackage (if s.boot.slotB then { s.boot with imageA := u, firstB := alternate }
      else { s.boot with imageB := u, firstB := !alternate }))) ∧
  (∀ s : State, s.boot.active = 12 → ∃ t, exec .controllerHeartbeat s = .next t ∧ t.boot.beat = s.clk ∧
    (s.clk + 200000000, .controllerFailover) ∈ t.agenda ∧ t.mem = s.mem ∧
    (Config.choice s.free 12 = false → (s.clk + 20000000, .controllerHeartbeat) ∈ t.agenda)) ∧
  Happens .controllerHeartbeat (fun s => s.boot.active ≠ 12) (fun s => s) ∧
  (∀ s : State, s.boot.active = 12 → s.boot.beat + 200000000 ≤ s.clk → ∃ t, exec .controllerFailover s = .next t ∧
    t.boot.active = 13 ∧ t.ctxs = State.reset.ctxs ∧ t.boot.start = s.boot.start + 1 ∧
    ∃ r, r ∈ t.boot.journal ∧ r.step = 0xF0 ∧ r.start = s.boot.start) ∧
  Happens .controllerFailover (fun s => s.boot.active ≠ 12 ∨ s.clk < s.boot.beat + 200000000) (fun s => s) ∧
  (∀ (s : State) (die svn : Nat) (om : List Nat),
    ((s.die die).tableSvn ≤ svn → (∀ c, c ∈ (s.die die).decoded → c ∉ om) →
      exec (.expansionTableReplace die svn om true) s =
        .next (s.modDie die fun d => { d with omitted := om, tableSvn := svn, decoded := [] })) ∧
    (svn < (s.die die).tableSvn ∨ (∃ c, c ∈ (s.die die).decoded ∧ c ∈ om) →
      exec (.expansionTableReplace die svn om true) s = .next s) ∧
    exec (.expansionTableReplace die svn om false) s = .next s) ∧
  (∀ (s : State) (ts : List Int), (∃ x, x ∈ ts ∧ 110 ≤ x) → ∃ t, exec (.thermalSensorRead ts) s = .next t ∧
    t.boot.halted = true ∧ (∀ e, e ∈ t.mem ↔ e ∈ s.mem ∧ (12 ≤ dieField e.1 ∨ pkgOf e.1 ≠ s.pkgNum)) ∧ t.ctxs = [] ∧
    t.clk = s.clk ∧ t.ports = s.ports ∧ t.joined = s.joined ∧
    (s.booting = true → ∃ r, r ∈ t.boot.journal ∧ r.start = s.boot.start ∧ r.step = s.boot.lastStep + 1 ∧
      (r.out = 1 ∨ r.out = 3 ∨ r.out = 5))) ∧
  (∀ ts : List Int, Happens (.thermalSensorRead ts) (fun _ => ∀ x, x ∈ ts → x < 110)
    (fun s => s.after 2000000 (.thermalSensorRead (Config.celsius s.free)))) ∧
  ∀ s : State, ∃ t, exec .powerRemoved s = .next t ∧ t.powered = false ∧ t.agenda = [] ∧
    (∀ e, e ∈ t.mem ↔ e ∈ s.mem ∧ (12 ≤ dieField e.1 ∨ pkgOf e.1 ≠ s.pkgNum)) ∧ t.boot.journal = s.boot.journal

/-- R495-R497: the management commands, each in its turn: the state summary of 1,392 bytes, the journal's clear command, and status
0xFF for any other code; one that comes while a summary is collected waits behind those that wait, and is carried out after it. -/
def CommandClaims : Prop :=
  (let one (i : Instr) : Prop := Happens i (fun s => s.boot.summary.isSome = true)
     (fun s => { s with boot := { s.boot with waiting := s.boot.waiting ++ [i] } })
   let free (s : State) : Prop := s.boot.summary = none
   one (.stateSummary false) ∧
   Happens (.stateSummary false) free (fun s => ({ s with boot :=
     { s.boot with summary := some (bytesOf s.timeNow.toNat 8 :: s.summaryFields) } } : State).soon (.stateSummary true)) ∧
   (∀ n, one (.journalClear n) ∧ ∀ s : State, free s →
     (1 ≤ n → n ≤ 12 → ∃ t, exec (.journalClear n) s = .next t ∧
       (∃ r, r ∈ t.boot.journal ∧ r.step = n ∧ r.out = 6 ∧ r.start = s.boot.start ∧
         t.hostOut = s.hostOut ++ [.doe (s.boot.active - 12) (0 :: r.bytes)]) ∧ t.mem = s.mem) ∧
     (n = 0 ∨ 12 < n → exec (.journalClear n) s = .next (s.says (.doe (s.boot.active - 12) [1])))) ∧
   ∀ b : Byte, b ≠ 1 → b ≠ 2 → one (.doeUnknownCommand b) ∧
     Happens (.doeUnknownCommand b) free (fun s => s.says (.doe (s.boot.active - 12) [0xFF]))) ∧
  (∀ b : Byte, b = 1 ∨ b = 2 → Happens (.doeUnknownCommand b) (fun _ => True) (fun s => s)) ∧
  (∀ (s : State) (t : List Byte) (fs : List (List Byte)), s.boot.summary = some (t :: fs) → t.length = 8 →
    fs.map List.length = s.summaryFields.map List.length →
    ∃ bs, bs.length = 1392 ∧
      let u : State := { s with boot := { s.boot with summary := none } }
      exec (.stateSummary true) s = .next (State.nextCommands s.boot.waiting (u.says (.doe (s.boot.active - 12) bs)))) ∧
  (∀ (s : State) (n : Nat) (b : Byte) (e : Bool) (l : List Instr),
    State.nextCommands (.journalClear n :: l) s = State.nextCommands l (s.clearStep n) ∧
    (s.boot.summary = none → exec (.journalClear n) s = .next (s.clearStep n)) ∧
    State.nextCommands (.doeUnknownCommand b :: l) s = State.nextCommands l (s.says (.doe (s.boot.active - 12) [0xFF])) ∧
    (let begun : Boot := { s.boot with waiting := l, summary := some (bytesOf s.timeNow.toNat 8 :: s.summaryFields) }
     State.nextCommands (.stateSummary e :: l) s = ({ s with boot := begun } : State).soon (.stateSummary true)) ∧
    State.nextCommands [] s = { s with boot := { s.boot with waiting := [] } }) ∧
  (∀ s t : State, s.summaryFields.map List.length = t.summaryFields.map List.length)

/-- R501, R503-R506: patrol scrubbing reads a line at a time and logs what it finds; a test in a pipe that has stood unused is
reported, and a failed one fences the unit.  The order of the tests, and what scrubs and tests find, are the model's choice (log entry
7). -/
def ScrubClaims : Prop :=
  (∀ (s : State) (die : Nat) (err : BitVec 2),
    let line := (s.pkgNum * 2 ^ 46 + die * 2 ^ 42) / 64 + (s.die die).scrub % 2 ^ 30
    ∃ t, exec (.patrolScrub die err) s = .next t ∧ (t.die die).scrub = ((s.die die).scrub + 1) % 2 ^ 30 ∧
      (∃ e, e ∈ t.agenda ∧ e.1 = s.clk + 160000 ∧ ∃ x, e.2 = .patrolScrub die x) ∧
      (line ∉ s.errLines → err = 0 → t.mem = s.mem ∧ t.errLines = s.errLines) ∧
      (line ∉ s.errLines → err = 2 ∨ err = 3 → t.errLines = s.errLines ++ [line]) ∧
      (line ∈ s.errLines → t.errLines = s.errLines)) ∧
  ∀ (die cls idx : Nat) (pass : Bool),
    Happens (.foehnTest die cls idx pass) (fun s => s.testable die cls idx = false) (fun s => s.nextTest die cls idx) ∧
    (∀ s : State, s.testable die cls idx = true →
      (∃ t, exec (.foehnTest die cls idx false) s = .next t ∧ (cls, idx) ∈ (t.die die).fenced) ∧
      exec (.foehnTest die cls idx true) s = .next ((s.report die cls idx true true).nextTest die cls idx) ∧
      cls ≤ 5 ∧ (cls, idx) ∉ (s.die die).fenced) ∧
    ∀ s : State, ∃ b, s.nextTest die cls idx = s.after 64 (if idx + 1 < unitCount cls then .foehnTest die cls (idx + 1) b
      else if cls < 5 then .foehnTest die (cls + 1) 0 b else .foehnTest die 0 0 b)

/-- The service `code` with the operands `p` and `q` has been requested by context `c`, which is at M for it (R508). -/
def State.Requested (s : State) (c : CtxId) (code p q : Nat) : Prop :=
  (s.ctx c).mode = .m ∧ (s.ctx c).mb.code = 16 ∧ (s.ctx c).mb.isAsync = false ∧ ((s.ctx c).rx 10).toNat = code ∧
    ((s.ctx c).rx 11).toNat = p ∧ ((s.ctx c).rx 12).toNat = q

/-- The answer of a firmware service in x10 (R508). -/
def State.answers (s : State) (c : CtxId) (n : Nat) : State := s.modCtx c fun k => k.wx 10 (BitVec.ofNat 64 n)

/-- R508: the firmware services for redundant pairs, record and replay, with their results; a context that has requested none of them
is left alone.  How a service that an ECALL has requested comes to run is the model's choice (log entry 42). -/
def ServiceClaims : Prop :=
  ∀ c : CtxId,
    (∀ z, z ∈ [(Instr.redundantOn c, 0x100), (.redundantOff c, 0x101), (.recordOn c, 0x110), (.replayOn c, 0x111),
        (.recordReplayOff c, 0x112)] →
      (∀ (s : State) (g a : Nat), s.Requested c z.2 g a → s.serviceGang c g = none → exec z.1 s = .next (s.answers c 1)) ∧
      Happens z.1 (fun s => ∀ g a, ¬ s.Requested c z.2 g a) (fun s => s)) ∧
    (∀ (s : State) (g h : Nat) (a b : Gang), s.Requested c 0x100 g h → s.serviceGang c g = some a →
      s.serviceGang c h = some b →
      (s.pairable a b = true → g ≠ h →
        exec (.redundantOn c) s = .next (((a.members.zip b.members).foldl (fun t z =>
          (t.modCtx z.1 fun k => { k with red := some (pairMember true z.2) }).modCtx z.2 fun k =>
            { k with red := some (pairMember false z.1) }) s).answers c 0)) ∧
      (s.pairable a b = false ∨ g = h → exec (.redundantOn c) s = .next (s.answers c 2))) ∧
    (∀ (s : State) (g a : Nat) (e : Gang), s.Requested c 0x101 g a → s.serviceGang c g = some e →
      ((∃ m, m ∈ e.members ∧ s.primaryRole m = none) → exec (.redundantOff c) s = .next (s.answers c 1)) ∧
      ((∀ m, m ∈ e.members → ∃ r, s.primaryRole m = some r ∧ s.storesFree r.stores = true) →
        exec (.redundantOff c) s = .next ((e.members.foldl State.unpair s).answers c 0))) ∧
    (∀ (s : State) (replay : Bool) (g addr : Nat) (e : Gang), s.Requested c (if replay then 0x111 else 0x110) g addr →
      s.serviceGang c g = some e → e.members.Nodup →
      let i : Instr := if replay then .replayOn c else .recordOn c
      ((∃ m, m ∈ e.members ∧ (s.ctx m).red.isSome = true) → exec i s = .next (s.answers c 2)) ∧
      ((∀ m, m ∈ e.members → (s.ctx m).red = none) → s.logAreasOk e addr = false → exec i s = .next (s.answers c 3)) ∧
      ((∀ m, m ∈ e.members → (s.ctx m).red = none) → s.logAreasOk e addr = true → ∃ t, exec i s = .next t ∧
        (t.ctx c).rx 10 = 0 ∧ ∀ r, ∀ h : r < e.members.length,
          (t.ctx e.members[r]).log = some { replay := replay, desc := addr + 32 * r, full := false })) ∧
    ∀ (s : State) (g a : Nat) (e : Gang), s.Requested c 0x112 g a → s.serviceGang c g = some e →
      ∃ t, exec (.recordReplayOff c) s = .next t ∧ (t.ctx c).rx 10 = 0 ∧ ∀ m, m ∈ e.members → (t.ctx m).log = none

/-- R510, R511: the close of an interval of a redundant pair, which performs the stores of the primary in order once no lease holds them,
and a close that is missed for 2 ms.  A mismatch is found whenever the stores or the operands differ, as R510's hash without a
collision: the model's choice (log entry 14); after one the members wait for their gang_stop (log entry 42). -/
def PairClaims : Prop :=
  (∀ (s : State) (p q : CtxId) (a b : Redundant), (s.ctx p).red = some a → (s.ctx q).red = some b → a.partner = q →
    b.partner = p → a.primary = true → b.primary = false → a.close.isSome = true → b.close.isSome = true →
    let a' : Redundant := { a with stores := [], ckpt := a.ckpt + 1, close := none, matched := true }
    let b' : Redundant := { b with stores := [], ckpt := b.ckpt + 1, close := none, matched := true }
    ∀ c, c = p ∨ c = q →
      (a.stores = b.stores → a.close = b.close → s.storesFree a.stores = true →
        exec (.intervalClose c) s = .next (((s.commitStores p a.stores).modCtx p fun k => { k with red := some a' }).modCtx q
          fun k => { k with red := some b' })) ∧
      (a.stores = b.stores → a.close = b.close → s.storesFree a.stores = false →
        exec (.intervalClose c) s = .next ((s.holdStores p a.stores).after 8 (.intervalClose c))) ∧
      (a.stores ≠ b.stores ∨ a.close ≠ b.close → exec (.intervalClose c) s = .next (s.mismatch p q (a.ckpt + 1)))) ∧
  (∀ (s : State) (c : CtxId) (r : Redundant), (s.ctx c).red = some r →
    (s.closePair c r = none → exec (.intervalClose c) s = .next s) ∧
    (r.close = none ∨ (s.closePair c r).isSome = true → exec (.redundantTimeout c) s = .next s) ∧
    (r.close.isSome = true → s.closePair c r = none → s.timeBaseNow < r.since + 2000000 →
      exec (.redundantTimeout c) s = .next (s.after 8 (.redundantTimeout c))) ∧
    (r.close.isSome = true → s.closePair c r = none → r.since + 2000000 ≤ s.timeBaseNow →
      exec (.redundantTimeout c) s = .next (if r.primary then s.mismatch c r.partner (r.ckpt + 1)
        else s.mismatch r.partner c (r.ckpt + 1)))) ∧
  (∀ c i, i ∈ [Instr.intervalClose c, .redundantTimeout c] → Happens i (fun s => (s.ctx c).red = none) (fun s => s)) ∧
  ∀ (s : State) (p q : CtxId) (n : Nat) (a b : Redundant), p ≠ q → (s.ctx p).red = some a → (s.ctx q).red = some b →
    ((s.ctx p).closeFailed = true ∨ (s.ctx q).closeFailed = true → s.mismatch p q n = s) ∧
    ((s.ctx p).closeFailed = false → (s.ctx q).closeFailed = false →
      ∃ a' b', ((s.mismatch p q n).ctx p).red = some a' ∧ ((s.mismatch p q n).ctx q).red = some b' ∧ a'.stores = [] ∧
        b'.stores = [] ∧ a'.close = none ∧ b'.close = none ∧ a'.failed = true ∧ b'.failed = true)

/-! Traps. -/

/-- R389, R395, R396: taking a synchronous trap `t` at mode `m`: the bank of m saves the PC (that of the prefix of a pair), the
cause, the value, the mode, the DID, AE and the latch; the PC goes to the bank's base; nothing else of the context changes,
nor any other context, nor memory. -/
def TrapEntryClaims : Prop :=
  ∀ (s : State) (c : CtxId) (t : Trap), let k := s.ctx c
    let u := s.trap c t
    let k' := u.ctx c
    let md := takingMode c k t
    t.cause < 32 → md ≠ .u →
    (k'.bank md).epc = (if k.pfx.isSome then k.pc - 4 else k.pc).extractLsb' 2 62 ∧
    (k'.bank md).code.toNat = t.cause ∧ (k'.bank md).isAsync = false ∧ (k'.bank md).tval = t.val ∧ (k'.bank md).pm = k.mode ∧
    (k'.bank md).pdid = s.did c ∧ (k'.bank md).pae = (k.bank md).ae ∧ (k'.bank md).ae = false ∧
    (k'.bank md).platch = k.latch ∧ (k'.bank md).pfxWord = 0 ∧ (k'.bank md).pfxV = false ∧
    (k'.bank md).base = (k.bank md).base ∧ (k'.bank md).scratch = (k.bank md).scratch ∧
    (∀ o : Mode, o ≠ md → o ≠ .u → k'.bank o = k.bank o) ∧
    k'.mode = md ∧ k'.pc = addr62 (k.bank md).base ∧ k'.resv = none ∧ k'.pfx = none ∧
    (k'.did).toNat = (s.did c).toNat / 8 * 8 + (if md = .m then 7 else 0) ∧
    k'.x = k.x ∧ k'.f = k.f ∧ k'.v = k.v ∧ k'.m = k.m ∧ k'.form = k.form ∧ k'.vl = k.vl ∧ k'.vrows = k.vrows ∧
    k'.lanes = k.lanes ∧ k'.fstat = k.fstat ∧ k'.mailbox = k.mailbox ∧ k'.streams = k.streams ∧ k'.vq = k.vq ∧
    k'.gang = k.gang ∧ k'.latch = k.latch ∧ (∀ q, q ≠ c → u.ctx q = s.ctx q) ∧ u.cores = s.cores ∧ u.dies = s.dies ∧
    (∀ a, u.mem.read a = s.mem.read a)

/-- R390: the mode that takes a trap is the higher of the current mode and the mode of the table; slot 7 takes at M what would
be taken at H. -/
def TakingModeClaims : Prop :=
  ∀ (c : CtxId) (k : Ctx) (t : Trap),
    (takingMode c k t).toNat ≥ k.mode.toNat ∧ takingMode c k t ≠ .u ∧ (slotOf c = 7 → takingMode c k t ≠ .h) ∧
    (t.cause = 2 ∨ t.cause = 16 ∨ t.cause = 18 ∨ t.cause = 20 → takingMode c k t = .m) ∧
    (k.mode = .u ∨ k.mode = .s → slotOf c ≠ 7 →
      (t.cause = 1 ∨ t.cause = 15 ∨ (t.cause = 6 ∨ t.cause = 7 ∨ t.cause = 8) ∧ t.stage2 = true → takingMode c k t = .h) ∧
      (t.cause = 0 ∨ 3 ≤ t.cause ∧ t.cause ≤ 5 ∨ 9 ≤ t.cause ∧ t.cause ≤ 14 ∨ t.cause = 17 ∨ t.cause = 19 ∨
        (6 ≤ t.cause ∧ t.cause ≤ 8) ∧ t.stage2 = false → takingMode c k t = .s)) ∧
    (k.mode = .m → takingMode c k t = .m)

/-- R391, R395-R397: at a boundary a pending machine check is taken first, then a gang stop, then a lane notice; a member at
H or M takes a gang stop when it leaves that mode (R399); each is pending until the context runs below the mode that takes it,
or at it with AE = 1. -/
def PendingClaims : Prop :=
  ∀ (c : CtxId) (k : Ctx),
    let open' (md : Mode) : Prop := k.mode.toNat < md.toNat ∨ (k.mode = md ∧ (k.bank md).ae = true)
    let check := k.pendMc.isSome = true ∧ open' .m
    let stop := k.pendStop.isSome = true ∧ open' .s
    (∀ v, k.pendMc = some v → open' .m → Ctx.pendingAsync c k = some (20, v, .m)) ∧
    (∀ v, ¬ check → k.pendStop = some v → open' .s → Ctx.pendingAsync c k = some (21, v, .s)) ∧
    (∀ v, ¬ check → ¬ stop → k.pendLane = some v → (k.bank k.mode).ae = true →
      Ctx.pendingAsync c k = some (22, v, k.mode)) ∧
    (¬ check → ¬ stop → k.pendLane = none ∨ (k.bank k.mode).ae = false → Ctx.pendingAsync c k = none)

/-- R391, R395, R396: the pending asynchronous trap that comes first is taken, with its cause, its value and a pending prefix saved,
and is pending no longer; with none nothing changes; a word that is no instruction traps after the queues of its context have
settled; a fetch that fails traps, with a record of an uncorrectable error before it, or waits for links that retrain. -/
def AsyncTrapClaims : Prop :=
  Happens .asyncTrapTaken (fun s => Ctx.pendingAsync s.cur s.here = none) (fun s => s) ∧
  (∀ (s : State) (n : Nat) (v : Word) (md : Mode), Ctx.pendingAsync s.cur s.here = some (n, v, md) →
    ∃ t, exec .asyncTrapTaken s = .next t ∧ let k' := t.ctx s.cur
      k'.mode = md ∧ (k'.bank md).code.toNat = n ∧ (k'.bank md).isAsync = true ∧ (k'.bank md).tval = v ∧
      (k'.bank md).epc = s.here.pc.extractLsb' 2 62 ∧ (k'.bank md).pm = s.here.mode ∧ (k'.bank md).ae = false ∧
      k'.pc = addr62 (s.here.bank md).base ∧ k'.resv = none ∧ k'.pfx = none ∧
      (s.here.pfx = none → (k'.bank md).pfxV = false) ∧
      (∀ p, s.here.pfx = some p → (k'.bank md).pfxV = true ∧ (k'.bank md).pfxWord = p.word) ∧
      k'.pendMc = (if n = 20 then none else s.here.pendMc) ∧ k'.pendStop = (if n = 21 then none else s.here.pendStop) ∧
      k'.pendLane = (if n = 20 ∨ n = 21 then s.here.pendLane else none) ∧
      k'.x = s.here.x ∧ k'.f = s.here.f ∧ k'.v = s.here.v ∧ k'.m = s.here.m ∧ k'.mailbox = s.here.mailbox ∧
      (∀ q, q ≠ s.cur → t.ctx q = s.ctx q) ∧ t.cores = s.cores ∧ t.mem = s.mem) ∧
  (∀ w : BitVec 32, Happens (.illegalEncoding w) (fun s => ∀ p, s.here.pfx = some p → p.restored = false)
    (fun s => (s.settle s.cur).trap s.cur (mkTrap 0 (w.zeroExtend 64)))) ∧
  ∀ (n : Nat) (a : Word) (s : State), ∃ b : Bool, let t : Trap := { cause := n, val := a, stage2 := b }
    (∀ z, s.translate (s.agent s.cur) .fetch a = .error (.page z) → b = z) ∧
    (n ≠ 20 → exec (.instructionFetchFault n a) s = .next (s.trap s.cur t)) ∧
    (n = 20 → s.linkWaits (s.agent s.cur) .fetch a = true →
      exec (.instructionFetchFault n a) s = .next (s.modCtx s.cur fun k =>
        { k with bounded := !k.closeFailed, passed := some k.pc })) ∧
    (n = 20 → s.linkWaits (s.agent s.cur) .fetch a = false →
      (s.errorLine (s.agent s.cur) .fetch a = none → exec (.instructionFetchFault n a) s = .next (s.trap s.cur t)) ∧
      ∀ l, s.errorLine (s.agent s.cur) .fetch a = some l → exec (.instructionFetchFault n a) s =
        .next ((s.logLineError (dieField (l * 64)) ((s.ctxid s.cur).toNat % 2 ^ 27) l).trap s.cur t))

/-- R86-R88: a word is checked for legality, then against the feature mask (in U and S), then against the expansion table of
its die; the first check that fails decides, and everything issued earlier completes before the trap.  A word that waits has passed
the table for good (R494). -/
def CheckOrderClaims : Prop :=
  ∀ (s : State) (w : BitVec 32) (bad : Bool) (go : CtxId → Ctx → State → State), let c := s.cur
    let illegal := mkTrap 0 (w.zeroExtend 64)
    (∀ p, s.here.pfx = some p → p.restored = false) →
    (bad = true ∨ (isVectorWord w = true ∧ s.here.lanes = 0) ∨ (∃ p, s.here.pfx = some p ∧ pairLegal s.here p.word w = false) →
      s.issueCheck w bad = some illegal) ∧
    (bad = false → (isVectorWord w = true → s.here.lanes ≠ 0) →
      (∀ p, s.here.pfx = some p → pairLegal s.here p.word w = true) →
      (∀ n, featBit w = some n → s.here.mode = .u ∨ s.here.mode = .s →
        (s.featmask.toList.getD (s.part c) 0).getLsbD n = false → s.issueCheck w bad = some (mkTrap 1 (w.zeroExtend 64))) ∧
      (s.here.mode = .h ∨ s.here.mode = .m ∨ featBit w = none ∨
          (∃ n, featBit w = some n ∧ (s.featmask.toList.getD (s.part c) 0).getLsbD n = true) →
        (expansionCode w ∈ (s.die (dieOf c)).omitted → s.here.passed ≠ some s.here.pc →
          (s.here.mode = .h ∨ s.here.mode = .m ∨ slotOf c = 7 → s.issueCheck w bad = some illegal) ∧
          ((s.here.mode = .u ∨ s.here.mode = .s) → slotOf c ≠ 7 →
            s.issueCheck w bad = some (mkTrap 2 (w.zeroExtend 64)))) ∧
        (expansionCode w ∉ (s.die (dieOf c)).omitted ∨ s.here.passed = some s.here.pc → (s.die (dieOf c)).fenced = [] →
          s.issueCheck w bad = none))) ∧
    (∀ t, s.issueCheck w bad = some t → s.issueIf w bad go = ((s.noteStopped c w t).settle c).trap c t)

/-- R86, R457: a prefixed word whose predicate does not hold takes the traps of every check, the three checks at issue among them,
and else only retires, a VREST whose form_mismatch comes from its comparison (R199) among the latter; the predicates. -/
def PredicateClaims : Prop :=
  (∀ (s : State) (w : BitVec 32) (bad : Bool) (go : CtxId → Ctx → State → State) (p : Prefix), s.here.pfx = some p →
    s.issueCheck w bad = none → s.here.red = none → s.here.maskWaits = false → s.here.pfxCond p.word = false →
    let t := go s.cur s.here (s.issued w)
    s.issueIf w bad go = (s.issued w).skipped s.cur w go ∧
    ((t.ctx s.cur).traps ≤ s.here.traps → s.issueIf w bad go = (s.issued w).retire s.cur) ∧
    (s.here.traps < (t.ctx s.cur).traps → ((t.ctx s.cur).bank (t.ctx s.cur).mode).code.toNat ∈ [3, 4, 18] →
      s.here.compares w = false → s.issueIf w bad go = t) ∧
    (s.here.compares w = true → s.issueIf w bad go = (s.issued w).retire s.cur) ∧
    (s.here.compares w = true ↔ majorOf w = 0x26 ∧ opOf w = 8 ∧
      s.here.vl ≤ 64 * s.here.lanes * 2 ^ (s.here.form.extractLsb' 2 2).toNat / 2 ^ (s.here.form.extractLsb' 0 2).toNat)) ∧
  (∀ (k : Ctx) (p : BitVec 32), let r := p.extractLsb' 19 5
    let inv := p.getLsbD 18
    (p.extractLsb' 24 2 = 0 → k.pfxCond p = !inv) ∧
    (p.extractLsb' 24 2 = 1 → k.pfxCond p = (decide (k.rx r ≠ 0) != inv)) ∧
    (p.extractLsb' 24 2 = 2 → k.pfxCond p = (decide (k.rx r = 0) != inv)) ∧
    (p.extractLsb' 24 2 = 3 → k.pfxCond p = (k.anyMask r.toNat != inv))) ∧
  (∀ (s : State) (c : CtxId) (d : BitVec 5) (v : Word) (p : Prefix), (s.ctx c).pfx = some p → p.word.getLsbD 12 = true →
    ((s.retireX c d v).ctx c).x = (((s.ctx c).wx d v).wx (p.word.extractLsb' 13 5) v).x ∧
    ((s.retireX c d v).ctx c).pfx = none)

/-! Registers, reset and frames. -/

/-- R18: x0 reads as zero and discards writes; every other x register reads back what was written to it, and no other. -/
def RegisterClaims : Prop :=
  ∀ (k : Ctx) (r q : BitVec 5) (v : Word),
    k.rx 0 = 0 ∧ k.wx 0 v = k ∧ (r ≠ 0 → (k.wx r v).rx r = v) ∧ (q ≠ r → (k.wx r v).rx q = k.rx q) ∧
    (k.wf r v).rf r = v ∧ (q ≠ r → (k.wf r v).rf q = k.rf q) ∧ (k.wx r v).f = k.f ∧ (k.wf r v).x = k.x

/-- R38, R40: after reset, of which the pending wake and the writes on their way are the model's choice (log entry 5), every x, f, v and m register, tile and plane is zero, every element group has arrived, no row is
dirty, every queue, mailbox and deque is empty, every context is in M with DID 7, only slot 7 of each core is in rotation, the
lanes belong to slot 0, and each system register reads as the Reset column of R38 says. -/
def ResetClaims : Prop :=
  ∀ c : CtxId, c < 6144 → let k := State.reset.ctx c
    let q := State.reset.core (coreOf c)
    k.x = Vector.replicate 32 0 ∧ k.f = Vector.replicate 32 0 ∧ k.v = Vector.replicate 256 0 ∧
    k.m = Vector.replicate 64 0 ∧ q.acc = Vector.replicate 512 0 ∧ q.plane = 0 ∧ q.shadow = 0 ∧ k.missing = 0 ∧ k.dirty = 0 ∧
    k.vq = [] ∧ q.mq = [] ∧ k.mailbox = [] ∧ k.spawn = none ∧ k.wake = false ∧ q.deque = [] ∧
    (∀ cl, (State.reset.die (dieOf c)).queue cl = []) ∧ State.reset.pend = [] ∧
    k.lanes = (if slotOf c = 0 then physLanes (coreOf c) else 0) ∧ k.mode = .m ∧ State.reset.did c = 7 ∧
    (slotOf c = 7 → k.pc = (State.reset.die (dieOf c)).mrvec) ∧ (slotOf c ≠ 7 → k.pc = 0) ∧
    k.run = (if slotOf c = 7 then .running else .out) ∧
    State.reset.sysValue c 0x000 = 3 ∧ State.reset.sysValue c 0x001 = BitVec.ofNat 64 (k.lanes * 2 ^ 24) ∧
    State.reset.sysValue c 0x810 = BitVec.allOnes 64 ∧ State.reset.sysValue c 0xC12 = 1024 ∧
    State.reset.sysValue c 0xC13 = 8192 ∧
    ∀ n, n ∈ [0x002, 0x003, 0x009, 0x00B, 0x400, 0x401, 0x402, 0x403, 0x404, 0x405, 0x406, 0x410, 0x411, 0x412, 0x413, 0x420,
        0x421, 0x430, 0x431, 0x432, 0x433, 0x434, 0x441, 0x800, 0x801, 0x802, 0x803, 0x804, 0x805, 0x806, 0x811, 0xC00, 0xC01,
        0xC02, 0xC03, 0xC04, 0xC05, 0xC06, 0xC11, 0xC14, 0xC18, 0xC19] → State.reset.sysValue c n = 0

/-- Everything of the machine but one context's registers and PC is as before: the state below, every other context, the cores,
the dies, the tables of the package, and every byte of memory. -/
def State.sameAround (s t : State) (c : CtxId) : Prop :=
  let k := s.ctx c
  let k' := t.ctx c
  k'.v = k.v ∧ k'.m = k.m ∧ k'.form = k.form ∧ k'.vl = k.vl ∧ k'.vrows = k.vrows ∧ k'.tr = k.tr ∧ k'.lanes = k.lanes ∧
  k'.lg = k.lg ∧ k'.mode = k.mode ∧ k'.did = k.did ∧ k'.sb = k.sb ∧ k'.hb = k.hb ∧ k'.mb = k.mb ∧ k'.gang = k.gang ∧
  k'.rank = k.rank ∧ k'.stealdom = k.stealdom ∧ k'.tsave = k.tsave ∧ k'.vsavea = k.vsavea ∧ k'.sptb = k.sptb ∧
  k'.hptb = k.hptb ∧ k'.latch = k.latch ∧ k'.missing = k.missing ∧ k'.dirty = k.dirty ∧ k'.vq = k.vq ∧
  k'.streams = k.streams ∧ k'.mailbox = k.mailbox ∧ k'.resv = k.resv ∧ k'.cycleOff = k.cycleOff ∧ k'.spawn = k.spawn ∧
  k'.wake = k.wake ∧ k'.regw = k.regw ∧ k'.pendMc = k.pendMc ∧ k'.pendStop = k.pendStop ∧ k'.pendLane = k.pendLane ∧
  k'.run = k.run ∧ k'.traps = k.traps ∧ k'.jobs = k.jobs ∧ k'.depth = k.depth ∧ k'.log = k.log ∧
  (∀ q, q ≠ c → t.ctx q = s.ctx q) ∧ t.cores = s.cores ∧ t.gangs = s.gangs ∧ t.fns = s.fns ∧ t.leaseD = s.leaseD ∧
  t.leaseP = s.leaseP ∧ t.detmode = s.detmode ∧ t.featmask = s.featmask ∧ t.parts = s.parts ∧
  t.tags = s.tags ∧ t.tlb = s.tlb ∧ t.pend = s.pend ∧ t.hostOut = s.hostOut ∧
  ∀ a, t.mem.read a = s.mem.read a

/-- The frame of an instruction whose destination is x[d]: the copy register of a prefix is the only other register that may
change; the flags change only if `flags`, and then none is cleared. -/
def FrameX (flags : Bool) (i : Instr) (d : BitVec 5) : Prop :=
  ∀ s t, s.issues (encode i) = true → exec i s = .next t →
    (∀ r, r ≠ d → s.here.copyReg ≠ some r → (t.ctx s.cur).rx r = s.here.rx r) ∧ (t.ctx s.cur).f = s.here.f ∧
    (flags = false → (t.ctx s.cur).fstat = s.here.fstat) ∧
    (t.ctx s.cur).fstat ||| s.here.fstat = (t.ctx s.cur).fstat ∧ s.sameAround t s.cur

/-- The frame of an instruction whose destination is f[d]. -/
def FrameF (i : Instr) (d : BitVec 5) : Prop :=
  ∀ s t, s.issues (encode i) = true → exec i s = .next t →
    (∀ r, r ≠ d → s.here.copyReg ≠ some r → (t.ctx s.cur).rf r = s.here.rf r) ∧ (t.ctx s.cur).x = s.here.x ∧
    (t.ctx s.cur).fstat ||| s.here.fstat = (t.ctx s.cur).fstat ∧ s.sameAround t s.cur

/-- The frame of a branch: no register changes when it does not trap. -/
def FrameBranch (i : Instr) (o : BitVec 16) : Prop :=
  ∀ s t, s.issues (encode i) = true → canonical s.here.mode (s.here.pc + o.signExtend 64 * 4) = true →
    s.here.pc.toNat % 4 = 0 → exec i s = .next t →
    (t.ctx s.cur).x = s.here.x ∧ (t.ctx s.cur).f = s.here.f ∧ (t.ctx s.cur).fstat = s.here.fstat ∧ s.sameAround t s.cur

/-- R91-R101: what the integer instructions leave unchanged. -/
def IntegerFrameClaims : Prop :=
  ∀ (d a b l : BitVec 5) (sh p : BitVec 6) (i : BitVec 16) (u : BitVec 21) (t : BitVec 8) (x : Instr),
    x ∈ [.add d a b, .sub d a b, .and d a b, .or d a b, .xor d a b, .sll d a b, .srl d a b, .sra d a b, .slt d a b,
      .sltu d a b, .min d a b, .max d a b, .minu d a b, .maxu d a b, .fshl d a b sh, .fshr d a b sh, .clz d a, .ctz d a,
      .popc d a, .sel d a b, .ext d a l p, .ins d a l p, .addi d a i, .andi d a i, .ori d a i, .xori d a i, .slli d a sh,
      .srli d a sh, .srai d a sh, .slti d a i, .sltiu d a i, .lui d u, .addpc d u, .mul d a b, .mulh d a b, .mulhu d a b,
      .div d a b, .divu d a b, .rem d a b, .remu d a b, .lut3 d a b t] → FrameX false x d

/-- R55, R93, R103-R115: what the floating-point instructions and the branches leave unchanged. -/
def FloatFrameClaims : Prop :=
  ∀ (d a b c : BitVec 5) (r : BitVec 3) (f g : BitVec 4) (n : BitVec 2) (p : BitVec 1) (o : BitVec 16),
    (∀ x : Instr, x ∈ [.fadd d a b r f, .fsub d a b r f, .fmul d a b r f, .fdiv d a b r f, .fsqrt d a r f, .fcvt d a g r f,
      .icvtf d a n r f, .fma d a b c r p, .fms d a b c r p, .fnma d a b c r p, .fnms d a b c r p, .fmin d a b f,
      .fmax d a b f, .fmvf d a f] → FrameF x d) ∧
    (∀ x : Instr, x ∈ [.feq d a b f, .flt d a b f, .fle d a b f, .fcvti d a n r f] → FrameX true x d) ∧
    FrameX false (.fclass d a f) d ∧ FrameX false (.fmvx d a f) d ∧
    (∀ x : Instr, x ∈ [.beq a b o, .bne a b o, .blt a b o, .bge a b o, .bltu a b o, .bgeu a b o] → FrameBranch x o)

/-- The frame of a vector instruction that reads and writes no stream: x, f, the masks, SHAPE, every byte of memory, and every
row of the registers outside the `n` from `d` are as before. -/
def FrameV (i : Instr) (d : Nat) (o : BitVec 32 → VCfg → Ctx → VOp) : Prop :=
  ∀ (s u t : State), s.issues (encode i) = true →
    (∃ due, (s.issued (encode i)).VecPasses s.cur (o (encode i) s.cfgHere s.here) false [] [] u due) → exec i s = .next t →
    s.here.boundTo d = none →
    (t.ctx s.cur).x = s.here.x ∧ (t.ctx s.cur).f = s.here.f ∧ (t.ctx s.cur).m = s.here.m ∧ (t.ctx s.cur).vl = s.here.vl ∧
    (t.ctx s.cur).vrows = s.here.vrows ∧ (t.ctx s.cur).form = s.here.form ∧ (t.ctx s.cur).fstat = s.here.fstat ∧
    (t.ctx s.cur).mode = s.here.mode ∧ (t.ctx s.cur).pc = s.here.pc + 4 ∧
    (∀ n r, r < 8 → n < 32 → n < d ∨ d + s.cfgHere.g ≤ n → (t.ctx s.cur).vreg n r = s.here.vreg n r) ∧
    (∀ q, q ≠ s.cur → t.ctx q = s.ctx q) ∧ t.cores = s.cores ∧ ∀ a, t.mem.read a = s.mem.read a

/-- The frame of a comparison into mask register d: all that FrameV names, the vector registers, and the other masks. -/
def FrameC (i : Instr) (d : Nat) (o : BitVec 32 → VCfg → Ctx → VOp) : Prop :=
  ∀ (s u t : State), s.issues (encode i) = true →
    (∃ due, (s.issued (encode i)).VecPasses s.cur (o (encode i) s.cfgHere s.here) false [] [] u due) → exec i s = .next t →
    (t.ctx s.cur).x = s.here.x ∧ (t.ctx s.cur).f = s.here.f ∧ (t.ctx s.cur).v = s.here.v ∧ (t.ctx s.cur).vl = s.here.vl ∧
    (t.ctx s.cur).vrows = s.here.vrows ∧ (t.ctx s.cur).form = s.here.form ∧ (t.ctx s.cur).fstat = s.here.fstat ∧
    (t.ctx s.cur).mode = s.here.mode ∧ (t.ctx s.cur).pc = s.here.pc + 4 ∧
    (∀ n r, r < 8 → n < 8 → n ≠ d → (t.ctx s.cur).mrow n r = s.here.mrow n r) ∧
    (∀ q, q ≠ s.cur → t.ctx q = s.ctx q) ∧ t.cores = s.cores ∧ ∀ a, t.mem.read a = s.mem.read a

/-- R55, R158, R159, R163-R165, R170: what the vector integer arithmetic, logic, merges, moves and comparisons leave unchanged, in
their V, X and I forms. -/
def VectorFrameClaims : Prop :=
  ∀ (d a b : BitVec 5) (m : BitVec 3) (l : BitVec 1) (x : Instr),
    let group (src : Ctx → BSrc) : Prop := FrameV x d.toNat fun w q k => mapOp w q.g d.toNat a.toNat (src k) false false
    (x ∈ [.vaddV d a b m l, .vsubV d a b m l, .vrsubV d a b m l, .vmulV d a b m l, .vmulhV d a b m l, .vmulhuV d a b m l,
      .vdivV d a b m l, .vdivuV d a b m l, .vremV d a b m l, .vremuV d a b m l, .vminV d a b m l, .vmaxV d a b m l,
      .vminuV d a b m l, .vmaxuV d a b m l, .vandV d a b m l, .vorV d a b m l, .vxorV d a b m l, .vsllV d a b m l,
      .vsrlV d a b m l, .vsraV d a b m l, .vsaddV d a b m l, .vssubV d a b m l, .vmergeV d a b m l] → group (srcV b l)) ∧
    (x ∈ [.vaddX d a b m, .vsubX d a b m, .vrsubX d a b m, .vmulX d a b m, .vmulhX d a b m, .vmulhuX d a b m, .vdivX d a b m,
      .vdivuX d a b m, .vremX d a b m, .vremuX d a b m, .vminX d a b m, .vmaxX d a b m, .vminuX d a b m, .vmaxuX d a b m,
      .vandX d a b m, .vorX d a b m, .vxorX d a b m, .vsllX d a b m, .vsrlX d a b m, .vsraX d a b m, .vsaddX d a b m,
      .vssubX d a b m, .vmergeX d a b m] → group (srcX b)) ∧
    (x ∈ [.vaddI d a b m, .vsubI d a b m, .vrsubI d a b m, .vminI d a b m, .vmaxI d a b m, .vminuI d a b m, .vmaxuI d a b m,
      .vandI d a b m, .vorI d a b m, .vxorI d a b m, .vsaddI d a b m, .vssubI d a b m, .vmergeI d a b m] → group (srcI b)) ∧
    (x ∈ [.vsllI d a b m, .vsrlI d a b m, .vsraI d a b m] → group (srcU b)) ∧
    (x ∈ [.vpopc d a m, .vclz d a m] → group fun _ => .k 0) ∧
    (let move (src : Ctx → BSrc) : Prop := FrameV x d.toNat fun w q k => moveOp w q.g d.toNat (src k)
     (x = .vmovV d b m l → move (srcV b l)) ∧ (x = .vmovX d b m → move (srcX b)) ∧ (x = .vmovI d b m → move (srcI b))) ∧
    (let compare (src : Ctx → BSrc) : Prop := FrameC x d.toNat fun w q k => compareOp w q.g a.toNat (src k) false
     (x ∈ [.vseqV d a b m l, .vsneV d a b m l, .vsltV d a b m l, .vsltuV d a b m l, .vsleV d a b m l, .vsleuV d a b m l,
       .vsgtV d a b m l, .vsgtuV d a b m l] → compare (srcV b l)) ∧
     (x ∈ [.vseqX d a b m, .vsneX d a b m, .vsltX d a b m, .vsltuX d a b m, .vsleX d a b m, .vsleuX d a b m, .vsgtX d a b m,
       .vsgtuX d a b m] → compare (srcX b)) ∧
     (x ∈ [.vseqI d a b m, .vsneI d a b m, .vsltI d a b m, .vsltuI d a b m, .vsleI d a b m, .vsleuI d a b m, .vsgtI d a b m,
       .vsgtuI d a b m] → compare (srcI b)))

/-! Memory. -/

/-- R117: memory reads back what was written, byte for byte, and keeps its canonical form. -/
def MemoryClaims : Prop :=
  ∀ (m : Memory) (a b : Nat) (v : Byte) (bs : List Byte), Memory.wf m = true →
    Memory.wf (m.write a v) = true ∧ Memory.wf (m.writeL a bs) = true ∧ (m.write a v).read a = v ∧
    (b ≠ a → (m.write a v).read b = m.read b) ∧ (m.writeL a bs).readN a bs.length = bs ∧
    (b < a ∨ a + bs.length ≤ b → (m.writeL a bs).read b = m.read b) ∧
    (∀ m' : Memory, Memory.wf m' = true → (∀ c, m.read c = m'.read c) → m = m')

/-! Encoding, and the step. -/

/-- Every instruction word decodes to the instruction it was encoded from, with every operand. -/
def RoundTripClaims : Prop := ∀ i : Instr, i.isWord = true → i.wf = true → decode (encode i) = .ok i

/-- A word that decodes is the encoding of the instruction that it decodes to, which is well formed: no two words decode to
one instruction, and no bit of a word is dropped. -/
def EncodingUniqueClaims : Prop := ∀ (w : BitVec 32) (i : Instr), decode w = .ok i → i.wf = true ∧ i.isWord = true ∧ encode i = w

/-- Words that the spec writes out decode to what they stand for. -/
def DecodeWordClaims : Prop :=
  decode 0x00642801 = .ok (.add 3 4 5) ∧ decode 0x00E8488F = .ok (.fshl 7 8 9 4) ∧
  decode 0x00647915 = .ok (.ext 3 4 15 8) ∧ decode 0xB4A00066 = .ok (.vformi 5 0x66) ∧
  decode 0xA4A00000 = .ok (.mshape 5 0) ∧ decode 0xA4000001 = .ok (.mzero 0) ∧ decode 0xA5060082 = .ok (.mlds 8 6 4) ∧
  decode 0xA4000003 = .ok .mswap ∧ decode 0xA609_0006 = .ok (.mrd 16 9 0) ∧ decode 0x58A60000 = .ok (.ld 5 6 0)

/-- R34, R301: the step runs the decoded instruction: where a word at the PC of the context whose turn it is decodes to `i` and
nothing comes before it, the step is what `exec` answers for `i` after the fetch, and the turn passes on. -/
def StepRunsClaims : Prop := ∀ (s t : State) (i : Instr), s.Runs i t → step s = mapNext s.advance (exec i t)

/-- R34: slot s of a core has its turn only on clk = s modulo 8: the turn passes from core to core, and after the last one clk
counts on. -/
def TurnClaims : Prop :=
  ∀ (s t : State), s.cursor < 768 → s.cur / 8 = s.cursor ∧ slotOf s.cur = s.clk % 8 ∧
    (s.cursor + 1 < 768 → (s.advance t).cursor = s.cursor + 1 ∧ (s.advance t).clk = s.clk) ∧
    (s.cursor + 1 = 768 → (s.advance t).cursor = 0 ∧ (s.advance t).clk = s.clk + 1)

/-- The step of a package that does not run, of a context out of rotation, and of one that waits: only the turn passes. -/
def IdleTurnClaims : Prop :=
  ∀ s : State, s.cursor < 768 → takeDue s.clk s.agenda = none →
    (s.alive = false → step s = .next (s.advance s)) ∧
    (s.alive = true → s.here.regw = [] → s.asyncNow s.cur = false →
      (s.here.run = .out ∨ s.here.run = .parked .waitm ∨ s.here.run = .parked .gbar ∨
        (s.here.run = .running ∧ (s.here.wait ≠ .none ∨ s.clk < s.here.notBefore))) →
      step s = .next (s.advance s))

/-- Every step from a canonical state answers a next state (no instruction and no event stops the machine), and that state is
canonical: the turn names a core, memory is in its canonical form. -/
def StepKeepsClaims : Prop := ∀ s : State, s.canonical = true → ∃ t, step s = .next t ∧ t.canonical = true

/-- The machine never stops: from every canonical state, a run of any length is safe. -/
def NeverStopsClaims : Prop := ∀ (s : State) (n : Nat), s.canonical = true → safeRun n s

/-- The state after reset is canonical. -/
def ResetCanonicalClaims : Prop := State.reset.canonical = true

end Sys2Proof.Machine

/-- R96: the three-register and immediate integer instructions. -/
def Obligations.ScalarInteger : Prop :=
  Sys2Proof.Machine.AluClaims ∧ Sys2Proof.Machine.ImmediateClaims

/-- R99: multiplication, division with its corner operands, and LUT3. -/
def Obligations.MulDiv : Prop :=
  Sys2Proof.Machine.MulDivClaims

/-- Scalar floating point: results and flags. -/
def Obligations.FloatResults : Prop :=
  Sys2Proof.Machine.FloatClaims ∧ Sys2Proof.Machine.FloatMoveClaims

/-- R114-R116: jumps, branches, and their traps. -/
def Obligations.Jumps : Prop :=
  Sys2Proof.Machine.JumpClaims ∧ Sys2Proof.Machine.JumpTrapClaims

/-- Loads from HBM, function control blocks, the host and peers. -/
def Obligations.Loads : Prop :=
  Sys2Proof.Machine.LoadClaims ∧ Sys2Proof.Machine.OutboundLoadClaims

/-- Stores to HBM, function control blocks, the host and peers. -/
def Obligations.Stores : Prop :=
  Sys2Proof.Machine.StoreClaims ∧ Sys2Proof.Machine.OutboundStoreClaims

/-- The checks of scalar accesses, and their traps. -/
def Obligations.AccessChecks : Prop :=
  Sys2Proof.Machine.MisalignedClaims ∧ Sys2Proof.Machine.AccessCheckClaims

/-- Atomics, LDL and STC, JOINDEC. -/
def Obligations.Atomics : Prop :=
  Sys2Proof.Machine.AtomicClaims ∧ Sys2Proof.Machine.ReservedClaims ∧ Sys2Proof.Machine.JoinDecClaims

/-- Vector integer arithmetic, logic and comparisons, element by element. -/
def Obligations.VectorInteger : Prop :=
  Sys2Proof.Machine.VectorArithmeticClaims ∧ Sys2Proof.Machine.VectorLogicClaims ∧ Sys2Proof.Machine.VectorCompareClaims

/-- Vector widening, narrowing, funnel, merge, move, conflict, lookup and reductions. -/
def Obligations.VectorWideReduce : Prop :=
  Sys2Proof.Machine.VectorWideClaims ∧ Sys2Proof.Machine.VectorReductionClaims

/-- Vector floating point and conversions. -/
def Obligations.VectorFloats : Prop :=
  Sys2Proof.Machine.VectorFloatClaims ∧ Sys2Proof.Machine.VectorConvertClaims

/-- Vector masks, permutations and scalar results. -/
def Obligations.VectorPermutes : Prop :=
  Sys2Proof.Machine.VectorPermuteClaims ∧ Sys2Proof.Machine.VectorScalarClaims

/-- A sweep writes exactly the positions of its group. -/
def Obligations.SweepPositions : Prop :=
  Sys2Proof.Machine.SweepClaims ∧ Sys2Proof.Machine.FateClaims

/-- Vector loads and stores in four address modes. -/
def Obligations.VectorMemory : Prop :=
  Sys2Proof.Machine.VectorMemoryClaims

/-- Lane and remote scratchpad instructions. -/
def Obligations.ScratchpadMemory : Prop :=
  Sys2Proof.Machine.LaneMemoryClaims ∧ Sys2Proof.Machine.RemoteMemoryClaims

/-- VSAVE and VREST. -/
def Obligations.SaveImage : Prop :=
  Sys2Proof.Machine.SaveImageClaims

/-- VSHAPE and lane moves. -/
def Obligations.Shapes : Prop :=
  Sys2Proof.Machine.ShapeClaims ∧ Sys2Proof.Machine.LaneMoveClaims

/-- R144: VFORM, VFORMI and VRDSHAPE. -/
def Obligations.Forms : Prop :=
  Sys2Proof.Machine.FormClaims ∧ Sys2Proof.Machine.ReadShapeClaims

/-- VSPLIT and VJOIN. -/
def Obligations.LaneGroups : Prop :=
  Sys2Proof.Machine.SplitClaims ∧ Sys2Proof.Machine.JoinClaims

/-- R26: matrix instructions and MSTAT accesses of a context that is not the owner trap. -/
def Obligations.Ownership : Prop :=
  Sys2Proof.Machine.OwnershipClaims

/-- Matrix set-up, conversion, tile writes and reads. -/
def Obligations.Matrix : Prop :=
  Sys2Proof.Machine.MatrixClaims ∧ Sys2Proof.Machine.TileReadClaims

/-- Outer products from strings and streams. -/
def Obligations.OuterProducts : Prop :=
  Sys2Proof.Machine.OuterClaims

/-- PALLOC, PSTATE and PFREE. -/
def Obligations.Panes : Prop :=
  Sys2Proof.Machine.PaneAllocClaims ∧ Sys2Proof.Machine.PaneBaseClaims ∧ Sys2Proof.Machine.PaneStateClaims

/-- SDECL, SBIND, SUNBIND and SSTAT. -/
def Obligations.Streams : Prop :=
  Sys2Proof.Machine.StreamClaims ∧
    Sys2Proof.Machine.StreamWorldClaims ∧
    Sys2Proof.Machine.StreamFieldClaims ∧
    Sys2Proof.Machine.StreamEndClaims

/-- SEAL, UNSEAL, RELB, the Levanter jobs and LXPOLL. -/
def Obligations.BuffersAndJobs : Prop :=
  Sys2Proof.Machine.SealClaims ∧ Sys2Proof.Machine.JobClaims

/-- RSPAWN, DQPUSH and DQPOP. -/
def Obligations.Tasks : Prop :=
  Sys2Proof.Machine.SpawnClaims ∧ Sys2Proof.Machine.DequeClaims

/-- Gangs: GNEW, GADD, activation, GSTOP and GRESUME. -/
def Obligations.Gangs : Prop :=
  Sys2Proof.Machine.GangClaims ∧ Sys2Proof.Machine.ActivateClaims ∧ Sys2Proof.Machine.GangStopClaims

/-- GBAR and GCAST. -/
def Obligations.Barriers : Prop :=
  Sys2Proof.Machine.BarrierClaims

/-- MSEND and MRECV. -/
def Obligations.Messages : Prop :=
  Sys2Proof.Machine.SendClaims ∧ Sys2Proof.Machine.ReceiveClaims

/-- WAITM, WAITT, TIMEQ, WFI and PFX. -/
def Obligations.Waits : Prop :=
  Sys2Proof.Machine.WaitClaims ∧ Sys2Proof.Machine.IdleClaims

/-- ECALL, EBREAK, FENCE, FENCEI, CHKPT and TLBINV. -/
def Obligations.Calls : Prop :=
  Sys2Proof.Machine.CallClaims ∧ Sys2Proof.Machine.FenceClaims ∧ Sys2Proof.Machine.TlbClaims

/-- DGATE and DRET. -/
def Obligations.Gates : Prop :=
  Sys2Proof.Machine.DgateClaims ∧ Sys2Proof.Machine.DretClaims

/-- ERET restores what the trap bank saved. -/
def Obligations.TrapReturn : Prop :=
  Sys2Proof.Machine.ReturnClaims

/-- System registers: privilege, and MOVS of every readable one. -/
def Obligations.SystemReads : Prop :=
  Sys2Proof.Machine.PrivilegeClaims ∧ Sys2Proof.Machine.SysReadClaims

/-- MOVSW of every writable system register. -/
def Obligations.SystemWrites : Prop :=
  Sys2Proof.Machine.SysWriteClaims ∧ Sys2Proof.Machine.DomainWriteClaims

/-- Register writes that the step table lists. -/
def Obligations.RegisterEvents : Prop :=
  Sys2Proof.Machine.RegisterEventClaims

/-- Events of the vector and matrix queues and of posted stores. -/
def Obligations.QueueEvents : Prop :=
  Sys2Proof.Machine.ReplyClaims ∧ Sys2Proof.Machine.VectorQueueClaims ∧ Sys2Proof.Machine.MatrixQueueClaims

/-- Events of the memory hierarchy. -/
def Obligations.MemoryEvents : Prop :=
  Sys2Proof.Machine.FillClaims ∧ Sys2Proof.Machine.MemoryEventClaims

/-- Events of the Levanter engines. -/
def Obligations.JobEvents : Prop :=
  Sys2Proof.Machine.JobStartClaims ∧ Sys2Proof.Machine.JobBlockClaims ∧ Sys2Proof.Machine.JobEndClaims

/-- Events of tasks, gangs and barriers. -/
def Obligations.GangEvents : Prop :=
  Sys2Proof.Machine.TaskEventClaims ∧ Sys2Proof.Machine.GangEventClaims

/-- Events of messages and waits, and the inbox. -/
def Obligations.MessageEvents : Prop :=
  Sys2Proof.Machine.HoldClaims ∧ Sys2Proof.Machine.MessageEventClaims ∧ Sys2Proof.Machine.InboxClaims

/-- Function control blocks and doorbells. -/
def Obligations.ControlBlocks : Prop :=
  Sys2Proof.Machine.FcbEventClaims ∧ Sys2Proof.Machine.FcbWriteClaims ∧ Sys2Proof.Machine.DoorbellClaims

/-- Events of the host ports. -/
def Obligations.HostEvents : Prop :=
  Sys2Proof.Machine.InboundClaims ∧
    Sys2Proof.Machine.HostWriteClaims ∧
    Sys2Proof.Machine.CompletionClaims ∧
    Sys2Proof.Machine.SecurityEventClaims

/-- Links, boot paths, reset, boot and power. -/
def Obligations.PackageEvents : Prop :=
  Sys2Proof.Machine.LinkClaims ∧
    Sys2Proof.Machine.BootPathClaims ∧
    Sys2Proof.Machine.BootStepClaims ∧
    Sys2Proof.Machine.PackageEventClaims ∧
    Sys2Proof.Machine.CommandClaims

/-- Scrubbing, tests, redundant pairs, record and replay. -/
def Obligations.Reliability : Prop :=
  Sys2Proof.Machine.ScrubClaims ∧ Sys2Proof.Machine.ServiceClaims ∧ Sys2Proof.Machine.PairClaims

/-- Taking a trap: what is saved, the mode, and the frame. -/
def Obligations.TrapEntry : Prop :=
  Sys2Proof.Machine.TrapEntryClaims ∧ Sys2Proof.Machine.TakingModeClaims

/-- Asynchronous traps at a boundary. -/
def Obligations.AsyncTraps : Prop :=
  Sys2Proof.Machine.PendingClaims ∧ Sys2Proof.Machine.AsyncTrapClaims

/-- The order of checks, and predicated words. -/
def Obligations.CheckOrder : Prop :=
  Sys2Proof.Machine.CheckOrderClaims ∧ Sys2Proof.Machine.PredicateClaims

/-- x0 reads as zero and discards writes; other registers read back. -/
def Obligations.Registers : Prop :=
  Sys2Proof.Machine.RegisterClaims

/-- The state after reset. -/
def Obligations.Reset : Prop :=
  Sys2Proof.Machine.ResetClaims

/-- What the integer, floating-point and branch instructions leave unchanged. -/
def Obligations.ScalarFrame : Prop :=
  Sys2Proof.Machine.IntegerFrameClaims ∧ Sys2Proof.Machine.FloatFrameClaims

/-- What vector integer arithmetic, logic, merges, moves and comparisons leave unchanged. -/
def Obligations.VectorFrame : Prop :=
  Sys2Proof.Machine.VectorFrameClaims

/-- Memory reads back what was written, and a store changes only its bytes. -/
def Obligations.MemoryLaws : Prop :=
  Sys2Proof.Machine.MemoryClaims ∧ Sys2Proof.Machine.StoreFrameClaims

/-- Decoding the encoding of a well-formed instruction gives it back. -/
def Obligations.RoundTrip : Prop :=
  Sys2Proof.Machine.RoundTripClaims

/-- A word that decodes is the encoding of its well-formed instruction. -/
def Obligations.EncodingUnique : Prop :=
  Sys2Proof.Machine.EncodingUniqueClaims

/-- Words that the spec writes out. -/
def Obligations.DecodeWords : Prop :=
  Sys2Proof.Machine.DecodeWordClaims

/-- A step runs the decoded instruction, and the turn passes. -/
def Obligations.StepRuns : Prop :=
  Sys2Proof.Machine.StepRunsClaims ∧ Sys2Proof.Machine.TurnClaims ∧ Sys2Proof.Machine.IdleTurnClaims

/-- Every step from a canonical state answers a canonical next state. -/
def Obligations.StepKeeps : Prop :=
  Sys2Proof.Machine.StepKeepsClaims

/-- The machine never stops. -/
def Obligations.NeverStops : Prop :=
  Sys2Proof.Machine.NeverStopsClaims

/-- The state after reset is canonical. -/
def Obligations.ResetCanonical : Prop :=
  Sys2Proof.Machine.ResetCanonicalClaims
end

