-- ==== Sys2Proof/Laws/State.lean ====
section
/-! SUPPORT. What each named update of the state does to each field: one lemma per field and update, true by rfl, so that no
proof unfolds a record update. -/

namespace Sys2Proof.Machine

/-! `setCtx` changes `ctxs` only. -/

@[simp] theorem State.setCtx_clk (s : State) (c : CtxId) (k : Ctx) : (s.setCtx c k).clk = s.clk := rfl
@[simp] theorem State.setCtx_cursor (s : State) (c : CtxId) (k : Ctx) : (s.setCtx c k).cursor = s.cursor := rfl
@[simp] theorem State.setCtx_free (s : State) (c : CtxId) (k : Ctx) : (s.setCtx c k).free = s.free := rfl
@[simp] theorem State.setCtx_agenda (s : State) (c : CtxId) (k : Ctx) : (s.setCtx c k).agenda = s.agenda := rfl
@[simp] theorem State.setCtx_powered (s : State) (c : CtxId) (k : Ctx) : (s.setCtx c k).powered = s.powered := rfl
@[simp] theorem State.setCtx_pkgNum (s : State) (c : CtxId) (k : Ctx) : (s.setCtx c k).pkgNum = s.pkgNum := rfl
@[simp] theorem State.setCtx_joined (s : State) (c : CtxId) (k : Ctx) : (s.setCtx c k).joined = s.joined := rfl
@[simp] theorem State.setCtx_cores (s : State) (c : CtxId) (k : Ctx) : (s.setCtx c k).cores = s.cores := rfl
@[simp] theorem State.setCtx_dies (s : State) (c : CtxId) (k : Ctx) : (s.setCtx c k).dies = s.dies := rfl
@[simp] theorem State.setCtx_mem (s : State) (c : CtxId) (k : Ctx) : (s.setCtx c k).mem = s.mem := rfl
@[simp] theorem State.setCtx_tags (s : State) (c : CtxId) (k : Ctx) : (s.setCtx c k).tags = s.tags := rfl
@[simp] theorem State.setCtx_errLines (s : State) (c : CtxId) (k : Ctx) : (s.setCtx c k).errLines = s.errLines := rfl
@[simp] theorem State.setCtx_sramErrs (s : State) (c : CtxId) (k : Ctx) : (s.setCtx c k).sramErrs = s.sramErrs := rfl
@[simp] theorem State.setCtx_pubs (s : State) (c : CtxId) (k : Ctx) : (s.setCtx c k).pubs = s.pubs := rfl
@[simp] theorem State.setCtx_pend (s : State) (c : CtxId) (k : Ctx) : (s.setCtx c k).pend = s.pend := rfl
@[simp] theorem State.setCtx_nextId (s : State) (c : CtxId) (k : Ctx) : (s.setCtx c k).nextId = s.nextId := rfl
@[simp] theorem State.setCtx_held (s : State) (c : CtxId) (k : Ctx) : (s.setCtx c k).held = s.held := rfl
@[simp] theorem State.setCtx_misses (s : State) (c : CtxId) (k : Ctx) : (s.setCtx c k).misses = s.misses := rfl
@[simp] theorem State.setCtx_tlb (s : State) (c : CtxId) (k : Ctx) : (s.setCtx c k).tlb = s.tlb := rfl
@[simp] theorem State.setCtx_timeBase (s : State) (c : CtxId) (k : Ctx) : (s.setCtx c k).timeBase = s.timeBase := rfl
@[simp] theorem State.setCtx_timeFrac (s : State) (c : CtxId) (k : Ctx) : (s.setCtx c k).timeFrac = s.timeFrac := rfl
@[simp] theorem State.setCtx_clkBase (s : State) (c : CtxId) (k : Ctx) : (s.setCtx c k).clkBase = s.clkBase := rfl
@[simp] theorem State.setCtx_ppm (s : State) (c : CtxId) (k : Ctx) : (s.setCtx c k).ppm = s.ppm := rfl
@[simp] theorem State.setCtx_leaseD (s : State) (c : CtxId) (k : Ctx) : (s.setCtx c k).leaseD = s.leaseD := rfl
@[simp] theorem State.setCtx_leaseP (s : State) (c : CtxId) (k : Ctx) : (s.setCtx c k).leaseP = s.leaseP := rfl
@[simp] theorem State.setCtx_detmode (s : State) (c : CtxId) (k : Ctx) : (s.setCtx c k).detmode = s.detmode := rfl
@[simp] theorem State.setCtx_featmask (s : State) (c : CtxId) (k : Ctx) : (s.setCtx c k).featmask = s.featmask := rfl
@[simp] theorem State.setCtx_parts (s : State) (c : CtxId) (k : Ctx) : (s.setCtx c k).parts = s.parts := rfl
@[simp] theorem State.setCtx_gangs (s : State) (c : CtxId) (k : Ctx) : (s.setCtx c k).gangs = s.gangs := rfl
@[simp] theorem State.setCtx_fns (s : State) (c : CtxId) (k : Ctx) : (s.setCtx c k).fns = s.fns := rfl
@[simp] theorem State.setCtx_peers (s : State) (c : CtxId) (k : Ctx) : (s.setCtx c k).peers = s.peers := rfl
@[simp] theorem State.setCtx_ports (s : State) (c : CtxId) (k : Ctx) : (s.setCtx c k).ports = s.ports := rfl
@[simp] theorem State.setCtx_widths (s : State) (c : CtxId) (k : Ctx) : (s.setCtx c k).widths = s.widths := rfl
@[simp] theorem State.setCtx_shaking (s : State) (c : CtxId) (k : Ctx) : (s.setCtx c k).shaking = s.shaking := rfl
@[simp] theorem State.setCtx_routes (s : State) (c : CtxId) (k : Ctx) : (s.setCtx c k).routes = s.routes := rfl
@[simp] theorem State.setCtx_boot (s : State) (c : CtxId) (k : Ctx) : (s.setCtx c k).boot = s.boot := rfl
@[simp] theorem State.setCtx_hostOut (s : State) (c : CtxId) (k : Ctx) : (s.setCtx c k).hostOut = s.hostOut := rfl

/-! `modCtx` changes `ctxs` only. -/

@[simp] theorem State.modCtx_clk (s : State) (c : CtxId) (g : Ctx → Ctx) : (s.modCtx c g).clk = s.clk := rfl
@[simp] theorem State.modCtx_cursor (s : State) (c : CtxId) (g : Ctx → Ctx) : (s.modCtx c g).cursor = s.cursor := rfl
@[simp] theorem State.modCtx_free (s : State) (c : CtxId) (g : Ctx → Ctx) : (s.modCtx c g).free = s.free := rfl
@[simp] theorem State.modCtx_agenda (s : State) (c : CtxId) (g : Ctx → Ctx) : (s.modCtx c g).agenda = s.agenda := rfl
@[simp] theorem State.modCtx_powered (s : State) (c : CtxId) (g : Ctx → Ctx) : (s.modCtx c g).powered = s.powered := rfl
@[simp] theorem State.modCtx_pkgNum (s : State) (c : CtxId) (g : Ctx → Ctx) : (s.modCtx c g).pkgNum = s.pkgNum := rfl
@[simp] theorem State.modCtx_joined (s : State) (c : CtxId) (g : Ctx → Ctx) : (s.modCtx c g).joined = s.joined := rfl
@[simp] theorem State.modCtx_cores (s : State) (c : CtxId) (g : Ctx → Ctx) : (s.modCtx c g).cores = s.cores := rfl
@[simp] theorem State.modCtx_dies (s : State) (c : CtxId) (g : Ctx → Ctx) : (s.modCtx c g).dies = s.dies := rfl
@[simp] theorem State.modCtx_mem (s : State) (c : CtxId) (g : Ctx → Ctx) : (s.modCtx c g).mem = s.mem := rfl
@[simp] theorem State.modCtx_tags (s : State) (c : CtxId) (g : Ctx → Ctx) : (s.modCtx c g).tags = s.tags := rfl
@[simp] theorem State.modCtx_errLines (s : State) (c : CtxId) (g : Ctx → Ctx) : (s.modCtx c g).errLines = s.errLines := rfl
@[simp] theorem State.modCtx_sramErrs (s : State) (c : CtxId) (g : Ctx → Ctx) : (s.modCtx c g).sramErrs = s.sramErrs := rfl
@[simp] theorem State.modCtx_pubs (s : State) (c : CtxId) (g : Ctx → Ctx) : (s.modCtx c g).pubs = s.pubs := rfl
@[simp] theorem State.modCtx_pend (s : State) (c : CtxId) (g : Ctx → Ctx) : (s.modCtx c g).pend = s.pend := rfl
@[simp] theorem State.modCtx_nextId (s : State) (c : CtxId) (g : Ctx → Ctx) : (s.modCtx c g).nextId = s.nextId := rfl
@[simp] theorem State.modCtx_held (s : State) (c : CtxId) (g : Ctx → Ctx) : (s.modCtx c g).held = s.held := rfl
@[simp] theorem State.modCtx_misses (s : State) (c : CtxId) (g : Ctx → Ctx) : (s.modCtx c g).misses = s.misses := rfl
@[simp] theorem State.modCtx_tlb (s : State) (c : CtxId) (g : Ctx → Ctx) : (s.modCtx c g).tlb = s.tlb := rfl
@[simp] theorem State.modCtx_timeBase (s : State) (c : CtxId) (g : Ctx → Ctx) : (s.modCtx c g).timeBase = s.timeBase := rfl
@[simp] theorem State.modCtx_timeFrac (s : State) (c : CtxId) (g : Ctx → Ctx) : (s.modCtx c g).timeFrac = s.timeFrac := rfl
@[simp] theorem State.modCtx_clkBase (s : State) (c : CtxId) (g : Ctx → Ctx) : (s.modCtx c g).clkBase = s.clkBase := rfl
@[simp] theorem State.modCtx_ppm (s : State) (c : CtxId) (g : Ctx → Ctx) : (s.modCtx c g).ppm = s.ppm := rfl
@[simp] theorem State.modCtx_leaseD (s : State) (c : CtxId) (g : Ctx → Ctx) : (s.modCtx c g).leaseD = s.leaseD := rfl
@[simp] theorem State.modCtx_leaseP (s : State) (c : CtxId) (g : Ctx → Ctx) : (s.modCtx c g).leaseP = s.leaseP := rfl
@[simp] theorem State.modCtx_detmode (s : State) (c : CtxId) (g : Ctx → Ctx) : (s.modCtx c g).detmode = s.detmode := rfl
@[simp] theorem State.modCtx_featmask (s : State) (c : CtxId) (g : Ctx → Ctx) : (s.modCtx c g).featmask = s.featmask := rfl
@[simp] theorem State.modCtx_parts (s : State) (c : CtxId) (g : Ctx → Ctx) : (s.modCtx c g).parts = s.parts := rfl
@[simp] theorem State.modCtx_gangs (s : State) (c : CtxId) (g : Ctx → Ctx) : (s.modCtx c g).gangs = s.gangs := rfl
@[simp] theorem State.modCtx_fns (s : State) (c : CtxId) (g : Ctx → Ctx) : (s.modCtx c g).fns = s.fns := rfl
@[simp] theorem State.modCtx_peers (s : State) (c : CtxId) (g : Ctx → Ctx) : (s.modCtx c g).peers = s.peers := rfl
@[simp] theorem State.modCtx_ports (s : State) (c : CtxId) (g : Ctx → Ctx) : (s.modCtx c g).ports = s.ports := rfl
@[simp] theorem State.modCtx_widths (s : State) (c : CtxId) (g : Ctx → Ctx) : (s.modCtx c g).widths = s.widths := rfl
@[simp] theorem State.modCtx_shaking (s : State) (c : CtxId) (g : Ctx → Ctx) : (s.modCtx c g).shaking = s.shaking := rfl
@[simp] theorem State.modCtx_routes (s : State) (c : CtxId) (g : Ctx → Ctx) : (s.modCtx c g).routes = s.routes := rfl
@[simp] theorem State.modCtx_boot (s : State) (c : CtxId) (g : Ctx → Ctx) : (s.modCtx c g).boot = s.boot := rfl
@[simp] theorem State.modCtx_hostOut (s : State) (c : CtxId) (g : Ctx → Ctx) : (s.modCtx c g).hostOut = s.hostOut := rfl

/-! `setCore` changes `cores` only. -/

@[simp] theorem State.setCore_clk (s : State) (n : CoreId) (k : Core) : (s.setCore n k).clk = s.clk := rfl
@[simp] theorem State.setCore_cursor (s : State) (n : CoreId) (k : Core) : (s.setCore n k).cursor = s.cursor := rfl
@[simp] theorem State.setCore_free (s : State) (n : CoreId) (k : Core) : (s.setCore n k).free = s.free := rfl
@[simp] theorem State.setCore_agenda (s : State) (n : CoreId) (k : Core) : (s.setCore n k).agenda = s.agenda := rfl
@[simp] theorem State.setCore_powered (s : State) (n : CoreId) (k : Core) : (s.setCore n k).powered = s.powered := rfl
@[simp] theorem State.setCore_pkgNum (s : State) (n : CoreId) (k : Core) : (s.setCore n k).pkgNum = s.pkgNum := rfl
@[simp] theorem State.setCore_joined (s : State) (n : CoreId) (k : Core) : (s.setCore n k).joined = s.joined := rfl
@[simp] theorem State.setCore_ctxs (s : State) (n : CoreId) (k : Core) : (s.setCore n k).ctxs = s.ctxs := rfl
@[simp] theorem State.setCore_dies (s : State) (n : CoreId) (k : Core) : (s.setCore n k).dies = s.dies := rfl
@[simp] theorem State.setCore_mem (s : State) (n : CoreId) (k : Core) : (s.setCore n k).mem = s.mem := rfl
@[simp] theorem State.setCore_tags (s : State) (n : CoreId) (k : Core) : (s.setCore n k).tags = s.tags := rfl
@[simp] theorem State.setCore_errLines (s : State) (n : CoreId) (k : Core) : (s.setCore n k).errLines = s.errLines := rfl
@[simp] theorem State.setCore_sramErrs (s : State) (n : CoreId) (k : Core) : (s.setCore n k).sramErrs = s.sramErrs := rfl
@[simp] theorem State.setCore_pubs (s : State) (n : CoreId) (k : Core) : (s.setCore n k).pubs = s.pubs := rfl
@[simp] theorem State.setCore_pend (s : State) (n : CoreId) (k : Core) : (s.setCore n k).pend = s.pend := rfl
@[simp] theorem State.setCore_nextId (s : State) (n : CoreId) (k : Core) : (s.setCore n k).nextId = s.nextId := rfl
@[simp] theorem State.setCore_held (s : State) (n : CoreId) (k : Core) : (s.setCore n k).held = s.held := rfl
@[simp] theorem State.setCore_misses (s : State) (n : CoreId) (k : Core) : (s.setCore n k).misses = s.misses := rfl
@[simp] theorem State.setCore_tlb (s : State) (n : CoreId) (k : Core) : (s.setCore n k).tlb = s.tlb := rfl
@[simp] theorem State.setCore_timeBase (s : State) (n : CoreId) (k : Core) : (s.setCore n k).timeBase = s.timeBase := rfl
@[simp] theorem State.setCore_timeFrac (s : State) (n : CoreId) (k : Core) : (s.setCore n k).timeFrac = s.timeFrac := rfl
@[simp] theorem State.setCore_clkBase (s : State) (n : CoreId) (k : Core) : (s.setCore n k).clkBase = s.clkBase := rfl
@[simp] theorem State.setCore_ppm (s : State) (n : CoreId) (k : Core) : (s.setCore n k).ppm = s.ppm := rfl
@[simp] theorem State.setCore_leaseD (s : State) (n : CoreId) (k : Core) : (s.setCore n k).leaseD = s.leaseD := rfl
@[simp] theorem State.setCore_leaseP (s : State) (n : CoreId) (k : Core) : (s.setCore n k).leaseP = s.leaseP := rfl
@[simp] theorem State.setCore_detmode (s : State) (n : CoreId) (k : Core) : (s.setCore n k).detmode = s.detmode := rfl
@[simp] theorem State.setCore_featmask (s : State) (n : CoreId) (k : Core) : (s.setCore n k).featmask = s.featmask := rfl
@[simp] theorem State.setCore_parts (s : State) (n : CoreId) (k : Core) : (s.setCore n k).parts = s.parts := rfl
@[simp] theorem State.setCore_gangs (s : State) (n : CoreId) (k : Core) : (s.setCore n k).gangs = s.gangs := rfl
@[simp] theorem State.setCore_fns (s : State) (n : CoreId) (k : Core) : (s.setCore n k).fns = s.fns := rfl
@[simp] theorem State.setCore_peers (s : State) (n : CoreId) (k : Core) : (s.setCore n k).peers = s.peers := rfl
@[simp] theorem State.setCore_ports (s : State) (n : CoreId) (k : Core) : (s.setCore n k).ports = s.ports := rfl
@[simp] theorem State.setCore_widths (s : State) (n : CoreId) (k : Core) : (s.setCore n k).widths = s.widths := rfl
@[simp] theorem State.setCore_shaking (s : State) (n : CoreId) (k : Core) : (s.setCore n k).shaking = s.shaking := rfl
@[simp] theorem State.setCore_routes (s : State) (n : CoreId) (k : Core) : (s.setCore n k).routes = s.routes := rfl
@[simp] theorem State.setCore_boot (s : State) (n : CoreId) (k : Core) : (s.setCore n k).boot = s.boot := rfl
@[simp] theorem State.setCore_hostOut (s : State) (n : CoreId) (k : Core) : (s.setCore n k).hostOut = s.hostOut := rfl

/-! `modCore` changes `cores` only. -/

@[simp] theorem State.modCore_clk (s : State) (n : CoreId) (g : Core → Core) : (s.modCore n g).clk = s.clk := rfl
@[simp] theorem State.modCore_cursor (s : State) (n : CoreId) (g : Core → Core) : (s.modCore n g).cursor = s.cursor := rfl
@[simp] theorem State.modCore_free (s : State) (n : CoreId) (g : Core → Core) : (s.modCore n g).free = s.free := rfl
@[simp] theorem State.modCore_agenda (s : State) (n : CoreId) (g : Core → Core) : (s.modCore n g).agenda = s.agenda := rfl
@[simp] theorem State.modCore_powered (s : State) (n : CoreId) (g : Core → Core) : (s.modCore n g).powered = s.powered := rfl
@[simp] theorem State.modCore_pkgNum (s : State) (n : CoreId) (g : Core → Core) : (s.modCore n g).pkgNum = s.pkgNum := rfl
@[simp] theorem State.modCore_joined (s : State) (n : CoreId) (g : Core → Core) : (s.modCore n g).joined = s.joined := rfl
@[simp] theorem State.modCore_ctxs (s : State) (n : CoreId) (g : Core → Core) : (s.modCore n g).ctxs = s.ctxs := rfl
@[simp] theorem State.modCore_dies (s : State) (n : CoreId) (g : Core → Core) : (s.modCore n g).dies = s.dies := rfl
@[simp] theorem State.modCore_mem (s : State) (n : CoreId) (g : Core → Core) : (s.modCore n g).mem = s.mem := rfl
@[simp] theorem State.modCore_tags (s : State) (n : CoreId) (g : Core → Core) : (s.modCore n g).tags = s.tags := rfl
@[simp] theorem State.modCore_errLines (s : State) (n : CoreId) (g : Core → Core) : (s.modCore n g).errLines = s.errLines := rfl
@[simp] theorem State.modCore_sramErrs (s : State) (n : CoreId) (g : Core → Core) : (s.modCore n g).sramErrs = s.sramErrs := rfl
@[simp] theorem State.modCore_pubs (s : State) (n : CoreId) (g : Core → Core) : (s.modCore n g).pubs = s.pubs := rfl
@[simp] theorem State.modCore_pend (s : State) (n : CoreId) (g : Core → Core) : (s.modCore n g).pend = s.pend := rfl
@[simp] theorem State.modCore_nextId (s : State) (n : CoreId) (g : Core → Core) : (s.modCore n g).nextId = s.nextId := rfl
@[simp] theorem State.modCore_held (s : State) (n : CoreId) (g : Core → Core) : (s.modCore n g).held = s.held := rfl
@[simp] theorem State.modCore_misses (s : State) (n : CoreId) (g : Core → Core) : (s.modCore n g).misses = s.misses := rfl
@[simp] theorem State.modCore_tlb (s : State) (n : CoreId) (g : Core → Core) : (s.modCore n g).tlb = s.tlb := rfl
@[simp] theorem State.modCore_timeBase (s : State) (n : CoreId) (g : Core → Core) : (s.modCore n g).timeBase = s.timeBase := rfl
@[simp] theorem State.modCore_timeFrac (s : State) (n : CoreId) (g : Core → Core) : (s.modCore n g).timeFrac = s.timeFrac := rfl
@[simp] theorem State.modCore_clkBase (s : State) (n : CoreId) (g : Core → Core) : (s.modCore n g).clkBase = s.clkBase := rfl
@[simp] theorem State.modCore_ppm (s : State) (n : CoreId) (g : Core → Core) : (s.modCore n g).ppm = s.ppm := rfl
@[simp] theorem State.modCore_leaseD (s : State) (n : CoreId) (g : Core → Core) : (s.modCore n g).leaseD = s.leaseD := rfl
@[simp] theorem State.modCore_leaseP (s : State) (n : CoreId) (g : Core → Core) : (s.modCore n g).leaseP = s.leaseP := rfl
@[simp] theorem State.modCore_detmode (s : State) (n : CoreId) (g : Core → Core) : (s.modCore n g).detmode = s.detmode := rfl
@[simp] theorem State.modCore_featmask (s : State) (n : CoreId) (g : Core → Core) : (s.modCore n g).featmask = s.featmask := rfl
@[simp] theorem State.modCore_parts (s : State) (n : CoreId) (g : Core → Core) : (s.modCore n g).parts = s.parts := rfl
@[simp] theorem State.modCore_gangs (s : State) (n : CoreId) (g : Core → Core) : (s.modCore n g).gangs = s.gangs := rfl
@[simp] theorem State.modCore_fns (s : State) (n : CoreId) (g : Core → Core) : (s.modCore n g).fns = s.fns := rfl
@[simp] theorem State.modCore_peers (s : State) (n : CoreId) (g : Core → Core) : (s.modCore n g).peers = s.peers := rfl
@[simp] theorem State.modCore_ports (s : State) (n : CoreId) (g : Core → Core) : (s.modCore n g).ports = s.ports := rfl
@[simp] theorem State.modCore_widths (s : State) (n : CoreId) (g : Core → Core) : (s.modCore n g).widths = s.widths := rfl
@[simp] theorem State.modCore_shaking (s : State) (n : CoreId) (g : Core → Core) : (s.modCore n g).shaking = s.shaking := rfl
@[simp] theorem State.modCore_routes (s : State) (n : CoreId) (g : Core → Core) : (s.modCore n g).routes = s.routes := rfl
@[simp] theorem State.modCore_boot (s : State) (n : CoreId) (g : Core → Core) : (s.modCore n g).boot = s.boot := rfl
@[simp] theorem State.modCore_hostOut (s : State) (n : CoreId) (g : Core → Core) : (s.modCore n g).hostOut = s.hostOut := rfl

/-! `setDie` changes `dies` only. -/

@[simp] theorem State.setDie_clk (s : State) (d : Nat) (k : Die) : (s.setDie d k).clk = s.clk := rfl
@[simp] theorem State.setDie_cursor (s : State) (d : Nat) (k : Die) : (s.setDie d k).cursor = s.cursor := rfl
@[simp] theorem State.setDie_free (s : State) (d : Nat) (k : Die) : (s.setDie d k).free = s.free := rfl
@[simp] theorem State.setDie_agenda (s : State) (d : Nat) (k : Die) : (s.setDie d k).agenda = s.agenda := rfl
@[simp] theorem State.setDie_powered (s : State) (d : Nat) (k : Die) : (s.setDie d k).powered = s.powered := rfl
@[simp] theorem State.setDie_pkgNum (s : State) (d : Nat) (k : Die) : (s.setDie d k).pkgNum = s.pkgNum := rfl
@[simp] theorem State.setDie_joined (s : State) (d : Nat) (k : Die) : (s.setDie d k).joined = s.joined := rfl
@[simp] theorem State.setDie_ctxs (s : State) (d : Nat) (k : Die) : (s.setDie d k).ctxs = s.ctxs := rfl
@[simp] theorem State.setDie_cores (s : State) (d : Nat) (k : Die) : (s.setDie d k).cores = s.cores := rfl
@[simp] theorem State.setDie_mem (s : State) (d : Nat) (k : Die) : (s.setDie d k).mem = s.mem := rfl
@[simp] theorem State.setDie_tags (s : State) (d : Nat) (k : Die) : (s.setDie d k).tags = s.tags := rfl
@[simp] theorem State.setDie_errLines (s : State) (d : Nat) (k : Die) : (s.setDie d k).errLines = s.errLines := rfl
@[simp] theorem State.setDie_sramErrs (s : State) (d : Nat) (k : Die) : (s.setDie d k).sramErrs = s.sramErrs := rfl
@[simp] theorem State.setDie_pubs (s : State) (d : Nat) (k : Die) : (s.setDie d k).pubs = s.pubs := rfl
@[simp] theorem State.setDie_pend (s : State) (d : Nat) (k : Die) : (s.setDie d k).pend = s.pend := rfl
@[simp] theorem State.setDie_nextId (s : State) (d : Nat) (k : Die) : (s.setDie d k).nextId = s.nextId := rfl
@[simp] theorem State.setDie_held (s : State) (d : Nat) (k : Die) : (s.setDie d k).held = s.held := rfl
@[simp] theorem State.setDie_misses (s : State) (d : Nat) (k : Die) : (s.setDie d k).misses = s.misses := rfl
@[simp] theorem State.setDie_tlb (s : State) (d : Nat) (k : Die) : (s.setDie d k).tlb = s.tlb := rfl
@[simp] theorem State.setDie_timeBase (s : State) (d : Nat) (k : Die) : (s.setDie d k).timeBase = s.timeBase := rfl
@[simp] theorem State.setDie_timeFrac (s : State) (d : Nat) (k : Die) : (s.setDie d k).timeFrac = s.timeFrac := rfl
@[simp] theorem State.setDie_clkBase (s : State) (d : Nat) (k : Die) : (s.setDie d k).clkBase = s.clkBase := rfl
@[simp] theorem State.setDie_ppm (s : State) (d : Nat) (k : Die) : (s.setDie d k).ppm = s.ppm := rfl
@[simp] theorem State.setDie_leaseD (s : State) (d : Nat) (k : Die) : (s.setDie d k).leaseD = s.leaseD := rfl
@[simp] theorem State.setDie_leaseP (s : State) (d : Nat) (k : Die) : (s.setDie d k).leaseP = s.leaseP := rfl
@[simp] theorem State.setDie_detmode (s : State) (d : Nat) (k : Die) : (s.setDie d k).detmode = s.detmode := rfl
@[simp] theorem State.setDie_featmask (s : State) (d : Nat) (k : Die) : (s.setDie d k).featmask = s.featmask := rfl
@[simp] theorem State.setDie_parts (s : State) (d : Nat) (k : Die) : (s.setDie d k).parts = s.parts := rfl
@[simp] theorem State.setDie_gangs (s : State) (d : Nat) (k : Die) : (s.setDie d k).gangs = s.gangs := rfl
@[simp] theorem State.setDie_fns (s : State) (d : Nat) (k : Die) : (s.setDie d k).fns = s.fns := rfl
@[simp] theorem State.setDie_peers (s : State) (d : Nat) (k : Die) : (s.setDie d k).peers = s.peers := rfl
@[simp] theorem State.setDie_ports (s : State) (d : Nat) (k : Die) : (s.setDie d k).ports = s.ports := rfl
@[simp] theorem State.setDie_widths (s : State) (d : Nat) (k : Die) : (s.setDie d k).widths = s.widths := rfl
@[simp] theorem State.setDie_shaking (s : State) (d : Nat) (k : Die) : (s.setDie d k).shaking = s.shaking := rfl
@[simp] theorem State.setDie_routes (s : State) (d : Nat) (k : Die) : (s.setDie d k).routes = s.routes := rfl
@[simp] theorem State.setDie_boot (s : State) (d : Nat) (k : Die) : (s.setDie d k).boot = s.boot := rfl
@[simp] theorem State.setDie_hostOut (s : State) (d : Nat) (k : Die) : (s.setDie d k).hostOut = s.hostOut := rfl

/-! `modDie` changes `dies` only. -/

@[simp] theorem State.modDie_clk (s : State) (d : Nat) (g : Die → Die) : (s.modDie d g).clk = s.clk := rfl
@[simp] theorem State.modDie_cursor (s : State) (d : Nat) (g : Die → Die) : (s.modDie d g).cursor = s.cursor := rfl
@[simp] theorem State.modDie_free (s : State) (d : Nat) (g : Die → Die) : (s.modDie d g).free = s.free := rfl
@[simp] theorem State.modDie_agenda (s : State) (d : Nat) (g : Die → Die) : (s.modDie d g).agenda = s.agenda := rfl
@[simp] theorem State.modDie_powered (s : State) (d : Nat) (g : Die → Die) : (s.modDie d g).powered = s.powered := rfl
@[simp] theorem State.modDie_pkgNum (s : State) (d : Nat) (g : Die → Die) : (s.modDie d g).pkgNum = s.pkgNum := rfl
@[simp] theorem State.modDie_joined (s : State) (d : Nat) (g : Die → Die) : (s.modDie d g).joined = s.joined := rfl
@[simp] theorem State.modDie_ctxs (s : State) (d : Nat) (g : Die → Die) : (s.modDie d g).ctxs = s.ctxs := rfl
@[simp] theorem State.modDie_cores (s : State) (d : Nat) (g : Die → Die) : (s.modDie d g).cores = s.cores := rfl
@[simp] theorem State.modDie_mem (s : State) (d : Nat) (g : Die → Die) : (s.modDie d g).mem = s.mem := rfl
@[simp] theorem State.modDie_tags (s : State) (d : Nat) (g : Die → Die) : (s.modDie d g).tags = s.tags := rfl
@[simp] theorem State.modDie_errLines (s : State) (d : Nat) (g : Die → Die) : (s.modDie d g).errLines = s.errLines := rfl
@[simp] theorem State.modDie_sramErrs (s : State) (d : Nat) (g : Die → Die) : (s.modDie d g).sramErrs = s.sramErrs := rfl
@[simp] theorem State.modDie_pubs (s : State) (d : Nat) (g : Die → Die) : (s.modDie d g).pubs = s.pubs := rfl
@[simp] theorem State.modDie_pend (s : State) (d : Nat) (g : Die → Die) : (s.modDie d g).pend = s.pend := rfl
@[simp] theorem State.modDie_nextId (s : State) (d : Nat) (g : Die → Die) : (s.modDie d g).nextId = s.nextId := rfl
@[simp] theorem State.modDie_held (s : State) (d : Nat) (g : Die → Die) : (s.modDie d g).held = s.held := rfl
@[simp] theorem State.modDie_misses (s : State) (d : Nat) (g : Die → Die) : (s.modDie d g).misses = s.misses := rfl
@[simp] theorem State.modDie_tlb (s : State) (d : Nat) (g : Die → Die) : (s.modDie d g).tlb = s.tlb := rfl
@[simp] theorem State.modDie_timeBase (s : State) (d : Nat) (g : Die → Die) : (s.modDie d g).timeBase = s.timeBase := rfl
@[simp] theorem State.modDie_timeFrac (s : State) (d : Nat) (g : Die → Die) : (s.modDie d g).timeFrac = s.timeFrac := rfl
@[simp] theorem State.modDie_clkBase (s : State) (d : Nat) (g : Die → Die) : (s.modDie d g).clkBase = s.clkBase := rfl
@[simp] theorem State.modDie_ppm (s : State) (d : Nat) (g : Die → Die) : (s.modDie d g).ppm = s.ppm := rfl
@[simp] theorem State.modDie_leaseD (s : State) (d : Nat) (g : Die → Die) : (s.modDie d g).leaseD = s.leaseD := rfl
@[simp] theorem State.modDie_leaseP (s : State) (d : Nat) (g : Die → Die) : (s.modDie d g).leaseP = s.leaseP := rfl
@[simp] theorem State.modDie_detmode (s : State) (d : Nat) (g : Die → Die) : (s.modDie d g).detmode = s.detmode := rfl
@[simp] theorem State.modDie_featmask (s : State) (d : Nat) (g : Die → Die) : (s.modDie d g).featmask = s.featmask := rfl
@[simp] theorem State.modDie_parts (s : State) (d : Nat) (g : Die → Die) : (s.modDie d g).parts = s.parts := rfl
@[simp] theorem State.modDie_gangs (s : State) (d : Nat) (g : Die → Die) : (s.modDie d g).gangs = s.gangs := rfl
@[simp] theorem State.modDie_fns (s : State) (d : Nat) (g : Die → Die) : (s.modDie d g).fns = s.fns := rfl
@[simp] theorem State.modDie_peers (s : State) (d : Nat) (g : Die → Die) : (s.modDie d g).peers = s.peers := rfl
@[simp] theorem State.modDie_ports (s : State) (d : Nat) (g : Die → Die) : (s.modDie d g).ports = s.ports := rfl
@[simp] theorem State.modDie_widths (s : State) (d : Nat) (g : Die → Die) : (s.modDie d g).widths = s.widths := rfl
@[simp] theorem State.modDie_shaking (s : State) (d : Nat) (g : Die → Die) : (s.modDie d g).shaking = s.shaking := rfl
@[simp] theorem State.modDie_routes (s : State) (d : Nat) (g : Die → Die) : (s.modDie d g).routes = s.routes := rfl
@[simp] theorem State.modDie_boot (s : State) (d : Nat) (g : Die → Die) : (s.modDie d g).boot = s.boot := rfl
@[simp] theorem State.modDie_hostOut (s : State) (d : Nat) (g : Die → Die) : (s.modDie d g).hostOut = s.hostOut := rfl

/-! `setFn` changes `fns` only. -/

@[simp] theorem State.setFn_clk (s : State) (p f : Nat) (k : Fn) : (s.setFn p f k).clk = s.clk := rfl
@[simp] theorem State.setFn_cursor (s : State) (p f : Nat) (k : Fn) : (s.setFn p f k).cursor = s.cursor := rfl
@[simp] theorem State.setFn_free (s : State) (p f : Nat) (k : Fn) : (s.setFn p f k).free = s.free := rfl
@[simp] theorem State.setFn_agenda (s : State) (p f : Nat) (k : Fn) : (s.setFn p f k).agenda = s.agenda := rfl
@[simp] theorem State.setFn_powered (s : State) (p f : Nat) (k : Fn) : (s.setFn p f k).powered = s.powered := rfl
@[simp] theorem State.setFn_pkgNum (s : State) (p f : Nat) (k : Fn) : (s.setFn p f k).pkgNum = s.pkgNum := rfl
@[simp] theorem State.setFn_joined (s : State) (p f : Nat) (k : Fn) : (s.setFn p f k).joined = s.joined := rfl
@[simp] theorem State.setFn_ctxs (s : State) (p f : Nat) (k : Fn) : (s.setFn p f k).ctxs = s.ctxs := rfl
@[simp] theorem State.setFn_cores (s : State) (p f : Nat) (k : Fn) : (s.setFn p f k).cores = s.cores := rfl
@[simp] theorem State.setFn_dies (s : State) (p f : Nat) (k : Fn) : (s.setFn p f k).dies = s.dies := rfl
@[simp] theorem State.setFn_mem (s : State) (p f : Nat) (k : Fn) : (s.setFn p f k).mem = s.mem := rfl
@[simp] theorem State.setFn_tags (s : State) (p f : Nat) (k : Fn) : (s.setFn p f k).tags = s.tags := rfl
@[simp] theorem State.setFn_errLines (s : State) (p f : Nat) (k : Fn) : (s.setFn p f k).errLines = s.errLines := rfl
@[simp] theorem State.setFn_sramErrs (s : State) (p f : Nat) (k : Fn) : (s.setFn p f k).sramErrs = s.sramErrs := rfl
@[simp] theorem State.setFn_pubs (s : State) (p f : Nat) (k : Fn) : (s.setFn p f k).pubs = s.pubs := rfl
@[simp] theorem State.setFn_pend (s : State) (p f : Nat) (k : Fn) : (s.setFn p f k).pend = s.pend := rfl
@[simp] theorem State.setFn_nextId (s : State) (p f : Nat) (k : Fn) : (s.setFn p f k).nextId = s.nextId := rfl
@[simp] theorem State.setFn_held (s : State) (p f : Nat) (k : Fn) : (s.setFn p f k).held = s.held := rfl
@[simp] theorem State.setFn_misses (s : State) (p f : Nat) (k : Fn) : (s.setFn p f k).misses = s.misses := rfl
@[simp] theorem State.setFn_tlb (s : State) (p f : Nat) (k : Fn) : (s.setFn p f k).tlb = s.tlb := rfl
@[simp] theorem State.setFn_timeBase (s : State) (p f : Nat) (k : Fn) : (s.setFn p f k).timeBase = s.timeBase := rfl
@[simp] theorem State.setFn_timeFrac (s : State) (p f : Nat) (k : Fn) : (s.setFn p f k).timeFrac = s.timeFrac := rfl
@[simp] theorem State.setFn_clkBase (s : State) (p f : Nat) (k : Fn) : (s.setFn p f k).clkBase = s.clkBase := rfl
@[simp] theorem State.setFn_ppm (s : State) (p f : Nat) (k : Fn) : (s.setFn p f k).ppm = s.ppm := rfl
@[simp] theorem State.setFn_leaseD (s : State) (p f : Nat) (k : Fn) : (s.setFn p f k).leaseD = s.leaseD := rfl
@[simp] theorem State.setFn_leaseP (s : State) (p f : Nat) (k : Fn) : (s.setFn p f k).leaseP = s.leaseP := rfl
@[simp] theorem State.setFn_detmode (s : State) (p f : Nat) (k : Fn) : (s.setFn p f k).detmode = s.detmode := rfl
@[simp] theorem State.setFn_featmask (s : State) (p f : Nat) (k : Fn) : (s.setFn p f k).featmask = s.featmask := rfl
@[simp] theorem State.setFn_parts (s : State) (p f : Nat) (k : Fn) : (s.setFn p f k).parts = s.parts := rfl
@[simp] theorem State.setFn_gangs (s : State) (p f : Nat) (k : Fn) : (s.setFn p f k).gangs = s.gangs := rfl
@[simp] theorem State.setFn_peers (s : State) (p f : Nat) (k : Fn) : (s.setFn p f k).peers = s.peers := rfl
@[simp] theorem State.setFn_ports (s : State) (p f : Nat) (k : Fn) : (s.setFn p f k).ports = s.ports := rfl
@[simp] theorem State.setFn_widths (s : State) (p f : Nat) (k : Fn) : (s.setFn p f k).widths = s.widths := rfl
@[simp] theorem State.setFn_shaking (s : State) (p f : Nat) (k : Fn) : (s.setFn p f k).shaking = s.shaking := rfl
@[simp] theorem State.setFn_routes (s : State) (p f : Nat) (k : Fn) : (s.setFn p f k).routes = s.routes := rfl
@[simp] theorem State.setFn_boot (s : State) (p f : Nat) (k : Fn) : (s.setFn p f k).boot = s.boot := rfl
@[simp] theorem State.setFn_hostOut (s : State) (p f : Nat) (k : Fn) : (s.setFn p f k).hostOut = s.hostOut := rfl

/-! `modFn` changes `fns` only. -/

@[simp] theorem State.modFn_clk (s : State) (p f : Nat) (g : Fn → Fn) : (s.modFn p f g).clk = s.clk := rfl
@[simp] theorem State.modFn_cursor (s : State) (p f : Nat) (g : Fn → Fn) : (s.modFn p f g).cursor = s.cursor := rfl
@[simp] theorem State.modFn_free (s : State) (p f : Nat) (g : Fn → Fn) : (s.modFn p f g).free = s.free := rfl
@[simp] theorem State.modFn_agenda (s : State) (p f : Nat) (g : Fn → Fn) : (s.modFn p f g).agenda = s.agenda := rfl
@[simp] theorem State.modFn_powered (s : State) (p f : Nat) (g : Fn → Fn) : (s.modFn p f g).powered = s.powered := rfl
@[simp] theorem State.modFn_pkgNum (s : State) (p f : Nat) (g : Fn → Fn) : (s.modFn p f g).pkgNum = s.pkgNum := rfl
@[simp] theorem State.modFn_joined (s : State) (p f : Nat) (g : Fn → Fn) : (s.modFn p f g).joined = s.joined := rfl
@[simp] theorem State.modFn_ctxs (s : State) (p f : Nat) (g : Fn → Fn) : (s.modFn p f g).ctxs = s.ctxs := rfl
@[simp] theorem State.modFn_cores (s : State) (p f : Nat) (g : Fn → Fn) : (s.modFn p f g).cores = s.cores := rfl
@[simp] theorem State.modFn_dies (s : State) (p f : Nat) (g : Fn → Fn) : (s.modFn p f g).dies = s.dies := rfl
@[simp] theorem State.modFn_mem (s : State) (p f : Nat) (g : Fn → Fn) : (s.modFn p f g).mem = s.mem := rfl
@[simp] theorem State.modFn_tags (s : State) (p f : Nat) (g : Fn → Fn) : (s.modFn p f g).tags = s.tags := rfl
@[simp] theorem State.modFn_errLines (s : State) (p f : Nat) (g : Fn → Fn) : (s.modFn p f g).errLines = s.errLines := rfl
@[simp] theorem State.modFn_sramErrs (s : State) (p f : Nat) (g : Fn → Fn) : (s.modFn p f g).sramErrs = s.sramErrs := rfl
@[simp] theorem State.modFn_pubs (s : State) (p f : Nat) (g : Fn → Fn) : (s.modFn p f g).pubs = s.pubs := rfl
@[simp] theorem State.modFn_pend (s : State) (p f : Nat) (g : Fn → Fn) : (s.modFn p f g).pend = s.pend := rfl
@[simp] theorem State.modFn_nextId (s : State) (p f : Nat) (g : Fn → Fn) : (s.modFn p f g).nextId = s.nextId := rfl
@[simp] theorem State.modFn_held (s : State) (p f : Nat) (g : Fn → Fn) : (s.modFn p f g).held = s.held := rfl
@[simp] theorem State.modFn_misses (s : State) (p f : Nat) (g : Fn → Fn) : (s.modFn p f g).misses = s.misses := rfl
@[simp] theorem State.modFn_tlb (s : State) (p f : Nat) (g : Fn → Fn) : (s.modFn p f g).tlb = s.tlb := rfl
@[simp] theorem State.modFn_timeBase (s : State) (p f : Nat) (g : Fn → Fn) : (s.modFn p f g).timeBase = s.timeBase := rfl
@[simp] theorem State.modFn_timeFrac (s : State) (p f : Nat) (g : Fn → Fn) : (s.modFn p f g).timeFrac = s.timeFrac := rfl
@[simp] theorem State.modFn_clkBase (s : State) (p f : Nat) (g : Fn → Fn) : (s.modFn p f g).clkBase = s.clkBase := rfl
@[simp] theorem State.modFn_ppm (s : State) (p f : Nat) (g : Fn → Fn) : (s.modFn p f g).ppm = s.ppm := rfl
@[simp] theorem State.modFn_leaseD (s : State) (p f : Nat) (g : Fn → Fn) : (s.modFn p f g).leaseD = s.leaseD := rfl
@[simp] theorem State.modFn_leaseP (s : State) (p f : Nat) (g : Fn → Fn) : (s.modFn p f g).leaseP = s.leaseP := rfl
@[simp] theorem State.modFn_detmode (s : State) (p f : Nat) (g : Fn → Fn) : (s.modFn p f g).detmode = s.detmode := rfl
@[simp] theorem State.modFn_featmask (s : State) (p f : Nat) (g : Fn → Fn) : (s.modFn p f g).featmask = s.featmask := rfl
@[simp] theorem State.modFn_parts (s : State) (p f : Nat) (g : Fn → Fn) : (s.modFn p f g).parts = s.parts := rfl
@[simp] theorem State.modFn_gangs (s : State) (p f : Nat) (g : Fn → Fn) : (s.modFn p f g).gangs = s.gangs := rfl
@[simp] theorem State.modFn_peers (s : State) (p f : Nat) (g : Fn → Fn) : (s.modFn p f g).peers = s.peers := rfl
@[simp] theorem State.modFn_ports (s : State) (p f : Nat) (g : Fn → Fn) : (s.modFn p f g).ports = s.ports := rfl
@[simp] theorem State.modFn_widths (s : State) (p f : Nat) (g : Fn → Fn) : (s.modFn p f g).widths = s.widths := rfl
@[simp] theorem State.modFn_shaking (s : State) (p f : Nat) (g : Fn → Fn) : (s.modFn p f g).shaking = s.shaking := rfl
@[simp] theorem State.modFn_routes (s : State) (p f : Nat) (g : Fn → Fn) : (s.modFn p f g).routes = s.routes := rfl
@[simp] theorem State.modFn_boot (s : State) (p f : Nat) (g : Fn → Fn) : (s.modFn p f g).boot = s.boot := rfl
@[simp] theorem State.modFn_hostOut (s : State) (p f : Nat) (g : Fn → Fn) : (s.modFn p f g).hostOut = s.hostOut := rfl

/-! `after` changes `agenda` only. -/

@[simp] theorem State.after_clk (s : State) (d : Nat) (i : Instr) : (s.after d i).clk = s.clk := rfl
@[simp] theorem State.after_cursor (s : State) (d : Nat) (i : Instr) : (s.after d i).cursor = s.cursor := rfl
@[simp] theorem State.after_free (s : State) (d : Nat) (i : Instr) : (s.after d i).free = s.free := rfl
@[simp] theorem State.after_powered (s : State) (d : Nat) (i : Instr) : (s.after d i).powered = s.powered := rfl
@[simp] theorem State.after_pkgNum (s : State) (d : Nat) (i : Instr) : (s.after d i).pkgNum = s.pkgNum := rfl
@[simp] theorem State.after_joined (s : State) (d : Nat) (i : Instr) : (s.after d i).joined = s.joined := rfl
@[simp] theorem State.after_ctxs (s : State) (d : Nat) (i : Instr) : (s.after d i).ctxs = s.ctxs := rfl
@[simp] theorem State.after_cores (s : State) (d : Nat) (i : Instr) : (s.after d i).cores = s.cores := rfl
@[simp] theorem State.after_dies (s : State) (d : Nat) (i : Instr) : (s.after d i).dies = s.dies := rfl
@[simp] theorem State.after_mem (s : State) (d : Nat) (i : Instr) : (s.after d i).mem = s.mem := rfl
@[simp] theorem State.after_tags (s : State) (d : Nat) (i : Instr) : (s.after d i).tags = s.tags := rfl
@[simp] theorem State.after_errLines (s : State) (d : Nat) (i : Instr) : (s.after d i).errLines = s.errLines := rfl
@[simp] theorem State.after_sramErrs (s : State) (d : Nat) (i : Instr) : (s.after d i).sramErrs = s.sramErrs := rfl
@[simp] theorem State.after_pubs (s : State) (d : Nat) (i : Instr) : (s.after d i).pubs = s.pubs := rfl
@[simp] theorem State.after_pend (s : State) (d : Nat) (i : Instr) : (s.after d i).pend = s.pend := rfl
@[simp] theorem State.after_nextId (s : State) (d : Nat) (i : Instr) : (s.after d i).nextId = s.nextId := rfl
@[simp] theorem State.after_held (s : State) (d : Nat) (i : Instr) : (s.after d i).held = s.held := rfl
@[simp] theorem State.after_misses (s : State) (d : Nat) (i : Instr) : (s.after d i).misses = s.misses := rfl
@[simp] theorem State.after_tlb (s : State) (d : Nat) (i : Instr) : (s.after d i).tlb = s.tlb := rfl
@[simp] theorem State.after_timeBase (s : State) (d : Nat) (i : Instr) : (s.after d i).timeBase = s.timeBase := rfl
@[simp] theorem State.after_timeFrac (s : State) (d : Nat) (i : Instr) : (s.after d i).timeFrac = s.timeFrac := rfl
@[simp] theorem State.after_clkBase (s : State) (d : Nat) (i : Instr) : (s.after d i).clkBase = s.clkBase := rfl
@[simp] theorem State.after_ppm (s : State) (d : Nat) (i : Instr) : (s.after d i).ppm = s.ppm := rfl
@[simp] theorem State.after_leaseD (s : State) (d : Nat) (i : Instr) : (s.after d i).leaseD = s.leaseD := rfl
@[simp] theorem State.after_leaseP (s : State) (d : Nat) (i : Instr) : (s.after d i).leaseP = s.leaseP := rfl
@[simp] theorem State.after_detmode (s : State) (d : Nat) (i : Instr) : (s.after d i).detmode = s.detmode := rfl
@[simp] theorem State.after_featmask (s : State) (d : Nat) (i : Instr) : (s.after d i).featmask = s.featmask := rfl
@[simp] theorem State.after_parts (s : State) (d : Nat) (i : Instr) : (s.after d i).parts = s.parts := rfl
@[simp] theorem State.after_gangs (s : State) (d : Nat) (i : Instr) : (s.after d i).gangs = s.gangs := rfl
@[simp] theorem State.after_fns (s : State) (d : Nat) (i : Instr) : (s.after d i).fns = s.fns := rfl
@[simp] theorem State.after_peers (s : State) (d : Nat) (i : Instr) : (s.after d i).peers = s.peers := rfl
@[simp] theorem State.after_ports (s : State) (d : Nat) (i : Instr) : (s.after d i).ports = s.ports := rfl
@[simp] theorem State.after_widths (s : State) (d : Nat) (i : Instr) : (s.after d i).widths = s.widths := rfl
@[simp] theorem State.after_shaking (s : State) (d : Nat) (i : Instr) : (s.after d i).shaking = s.shaking := rfl
@[simp] theorem State.after_routes (s : State) (d : Nat) (i : Instr) : (s.after d i).routes = s.routes := rfl
@[simp] theorem State.after_boot (s : State) (d : Nat) (i : Instr) : (s.after d i).boot = s.boot := rfl
@[simp] theorem State.after_hostOut (s : State) (d : Nat) (i : Instr) : (s.after d i).hostOut = s.hostOut := rfl

/-! `soon` changes `agenda` and `free` only. -/

@[simp] theorem State.soon_clk (s : State) (i : Instr) : (s.soon i).clk = s.clk := rfl
@[simp] theorem State.soon_cursor (s : State) (i : Instr) : (s.soon i).cursor = s.cursor := rfl
@[simp] theorem State.soon_powered (s : State) (i : Instr) : (s.soon i).powered = s.powered := rfl
@[simp] theorem State.soon_pkgNum (s : State) (i : Instr) : (s.soon i).pkgNum = s.pkgNum := rfl
@[simp] theorem State.soon_joined (s : State) (i : Instr) : (s.soon i).joined = s.joined := rfl
@[simp] theorem State.soon_ctxs (s : State) (i : Instr) : (s.soon i).ctxs = s.ctxs := rfl
@[simp] theorem State.soon_cores (s : State) (i : Instr) : (s.soon i).cores = s.cores := rfl
@[simp] theorem State.soon_dies (s : State) (i : Instr) : (s.soon i).dies = s.dies := rfl
@[simp] theorem State.soon_mem (s : State) (i : Instr) : (s.soon i).mem = s.mem := rfl
@[simp] theorem State.soon_tags (s : State) (i : Instr) : (s.soon i).tags = s.tags := rfl
@[simp] theorem State.soon_errLines (s : State) (i : Instr) : (s.soon i).errLines = s.errLines := rfl
@[simp] theorem State.soon_sramErrs (s : State) (i : Instr) : (s.soon i).sramErrs = s.sramErrs := rfl
@[simp] theorem State.soon_pubs (s : State) (i : Instr) : (s.soon i).pubs = s.pubs := rfl
@[simp] theorem State.soon_pend (s : State) (i : Instr) : (s.soon i).pend = s.pend := rfl
@[simp] theorem State.soon_nextId (s : State) (i : Instr) : (s.soon i).nextId = s.nextId := rfl
@[simp] theorem State.soon_held (s : State) (i : Instr) : (s.soon i).held = s.held := rfl
@[simp] theorem State.soon_misses (s : State) (i : Instr) : (s.soon i).misses = s.misses := rfl
@[simp] theorem State.soon_tlb (s : State) (i : Instr) : (s.soon i).tlb = s.tlb := rfl
@[simp] theorem State.soon_timeBase (s : State) (i : Instr) : (s.soon i).timeBase = s.timeBase := rfl
@[simp] theorem State.soon_timeFrac (s : State) (i : Instr) : (s.soon i).timeFrac = s.timeFrac := rfl
@[simp] theorem State.soon_clkBase (s : State) (i : Instr) : (s.soon i).clkBase = s.clkBase := rfl
@[simp] theorem State.soon_ppm (s : State) (i : Instr) : (s.soon i).ppm = s.ppm := rfl
@[simp] theorem State.soon_leaseD (s : State) (i : Instr) : (s.soon i).leaseD = s.leaseD := rfl
@[simp] theorem State.soon_leaseP (s : State) (i : Instr) : (s.soon i).leaseP = s.leaseP := rfl
@[simp] theorem State.soon_detmode (s : State) (i : Instr) : (s.soon i).detmode = s.detmode := rfl
@[simp] theorem State.soon_featmask (s : State) (i : Instr) : (s.soon i).featmask = s.featmask := rfl
@[simp] theorem State.soon_parts (s : State) (i : Instr) : (s.soon i).parts = s.parts := rfl
@[simp] theorem State.soon_gangs (s : State) (i : Instr) : (s.soon i).gangs = s.gangs := rfl
@[simp] theorem State.soon_fns (s : State) (i : Instr) : (s.soon i).fns = s.fns := rfl
@[simp] theorem State.soon_peers (s : State) (i : Instr) : (s.soon i).peers = s.peers := rfl
@[simp] theorem State.soon_ports (s : State) (i : Instr) : (s.soon i).ports = s.ports := rfl
@[simp] theorem State.soon_widths (s : State) (i : Instr) : (s.soon i).widths = s.widths := rfl
@[simp] theorem State.soon_shaking (s : State) (i : Instr) : (s.soon i).shaking = s.shaking := rfl
@[simp] theorem State.soon_routes (s : State) (i : Instr) : (s.soon i).routes = s.routes := rfl
@[simp] theorem State.soon_boot (s : State) (i : Instr) : (s.soon i).boot = s.boot := rfl
@[simp] theorem State.soon_hostOut (s : State) (i : Instr) : (s.soon i).hostOut = s.hostOut := rfl

/-! `retire` changes `ctxs` only. -/

@[simp] theorem State.retire_clk (s : State) (c : CtxId) : (s.retire c).clk = s.clk := rfl
@[simp] theorem State.retire_cursor (s : State) (c : CtxId) : (s.retire c).cursor = s.cursor := rfl
@[simp] theorem State.retire_free (s : State) (c : CtxId) : (s.retire c).free = s.free := rfl
@[simp] theorem State.retire_agenda (s : State) (c : CtxId) : (s.retire c).agenda = s.agenda := rfl
@[simp] theorem State.retire_powered (s : State) (c : CtxId) : (s.retire c).powered = s.powered := rfl
@[simp] theorem State.retire_pkgNum (s : State) (c : CtxId) : (s.retire c).pkgNum = s.pkgNum := rfl
@[simp] theorem State.retire_joined (s : State) (c : CtxId) : (s.retire c).joined = s.joined := rfl
@[simp] theorem State.retire_cores (s : State) (c : CtxId) : (s.retire c).cores = s.cores := rfl
@[simp] theorem State.retire_dies (s : State) (c : CtxId) : (s.retire c).dies = s.dies := rfl
@[simp] theorem State.retire_mem (s : State) (c : CtxId) : (s.retire c).mem = s.mem := rfl
@[simp] theorem State.retire_tags (s : State) (c : CtxId) : (s.retire c).tags = s.tags := rfl
@[simp] theorem State.retire_errLines (s : State) (c : CtxId) : (s.retire c).errLines = s.errLines := rfl
@[simp] theorem State.retire_sramErrs (s : State) (c : CtxId) : (s.retire c).sramErrs = s.sramErrs := rfl
@[simp] theorem State.retire_pubs (s : State) (c : CtxId) : (s.retire c).pubs = s.pubs := rfl
@[simp] theorem State.retire_pend (s : State) (c : CtxId) : (s.retire c).pend = s.pend := rfl
@[simp] theorem State.retire_nextId (s : State) (c : CtxId) : (s.retire c).nextId = s.nextId := rfl
@[simp] theorem State.retire_held (s : State) (c : CtxId) : (s.retire c).held = s.held := rfl
@[simp] theorem State.retire_misses (s : State) (c : CtxId) : (s.retire c).misses = s.misses := rfl
@[simp] theorem State.retire_tlb (s : State) (c : CtxId) : (s.retire c).tlb = s.tlb := rfl
@[simp] theorem State.retire_timeBase (s : State) (c : CtxId) : (s.retire c).timeBase = s.timeBase := rfl
@[simp] theorem State.retire_timeFrac (s : State) (c : CtxId) : (s.retire c).timeFrac = s.timeFrac := rfl
@[simp] theorem State.retire_clkBase (s : State) (c : CtxId) : (s.retire c).clkBase = s.clkBase := rfl
@[simp] theorem State.retire_ppm (s : State) (c : CtxId) : (s.retire c).ppm = s.ppm := rfl
@[simp] theorem State.retire_leaseD (s : State) (c : CtxId) : (s.retire c).leaseD = s.leaseD := rfl
@[simp] theorem State.retire_leaseP (s : State) (c : CtxId) : (s.retire c).leaseP = s.leaseP := rfl
@[simp] theorem State.retire_detmode (s : State) (c : CtxId) : (s.retire c).detmode = s.detmode := rfl
@[simp] theorem State.retire_featmask (s : State) (c : CtxId) : (s.retire c).featmask = s.featmask := rfl
@[simp] theorem State.retire_parts (s : State) (c : CtxId) : (s.retire c).parts = s.parts := rfl
@[simp] theorem State.retire_gangs (s : State) (c : CtxId) : (s.retire c).gangs = s.gangs := rfl
@[simp] theorem State.retire_fns (s : State) (c : CtxId) : (s.retire c).fns = s.fns := rfl
@[simp] theorem State.retire_peers (s : State) (c : CtxId) : (s.retire c).peers = s.peers := rfl
@[simp] theorem State.retire_ports (s : State) (c : CtxId) : (s.retire c).ports = s.ports := rfl
@[simp] theorem State.retire_widths (s : State) (c : CtxId) : (s.retire c).widths = s.widths := rfl
@[simp] theorem State.retire_shaking (s : State) (c : CtxId) : (s.retire c).shaking = s.shaking := rfl
@[simp] theorem State.retire_routes (s : State) (c : CtxId) : (s.retire c).routes = s.routes := rfl
@[simp] theorem State.retire_boot (s : State) (c : CtxId) : (s.retire c).boot = s.boot := rfl
@[simp] theorem State.retire_hostOut (s : State) (c : CtxId) : (s.retire c).hostOut = s.hostOut := rfl

/-! `retireX` changes `ctxs` only. -/

@[simp] theorem State.retireX_clk (s : State) (c : CtxId) (d : BitVec 5) (v : Word) : (s.retireX c d v).clk = s.clk := rfl
@[simp] theorem State.retireX_cursor (s : State) (c : CtxId) (d : BitVec 5) (v : Word) : (s.retireX c d v).cursor = s.cursor := rfl
@[simp] theorem State.retireX_free (s : State) (c : CtxId) (d : BitVec 5) (v : Word) : (s.retireX c d v).free = s.free := rfl
@[simp] theorem State.retireX_agenda (s : State) (c : CtxId) (d : BitVec 5) (v : Word) : (s.retireX c d v).agenda = s.agenda := rfl
@[simp] theorem State.retireX_powered (s : State) (c : CtxId) (d : BitVec 5) (v : Word) : (s.retireX c d v).powered = s.powered := rfl
@[simp] theorem State.retireX_pkgNum (s : State) (c : CtxId) (d : BitVec 5) (v : Word) : (s.retireX c d v).pkgNum = s.pkgNum := rfl
@[simp] theorem State.retireX_joined (s : State) (c : CtxId) (d : BitVec 5) (v : Word) : (s.retireX c d v).joined = s.joined := rfl
@[simp] theorem State.retireX_cores (s : State) (c : CtxId) (d : BitVec 5) (v : Word) : (s.retireX c d v).cores = s.cores := rfl
@[simp] theorem State.retireX_dies (s : State) (c : CtxId) (d : BitVec 5) (v : Word) : (s.retireX c d v).dies = s.dies := rfl
@[simp] theorem State.retireX_mem (s : State) (c : CtxId) (d : BitVec 5) (v : Word) : (s.retireX c d v).mem = s.mem := rfl
@[simp] theorem State.retireX_tags (s : State) (c : CtxId) (d : BitVec 5) (v : Word) : (s.retireX c d v).tags = s.tags := rfl
@[simp] theorem State.retireX_errLines (s : State) (c : CtxId) (d : BitVec 5) (v : Word) : (s.retireX c d v).errLines = s.errLines := rfl
@[simp] theorem State.retireX_sramErrs (s : State) (c : CtxId) (d : BitVec 5) (v : Word) : (s.retireX c d v).sramErrs = s.sramErrs := rfl
@[simp] theorem State.retireX_pubs (s : State) (c : CtxId) (d : BitVec 5) (v : Word) : (s.retireX c d v).pubs = s.pubs := rfl
@[simp] theorem State.retireX_pend (s : State) (c : CtxId) (d : BitVec 5) (v : Word) : (s.retireX c d v).pend = s.pend := rfl
@[simp] theorem State.retireX_nextId (s : State) (c : CtxId) (d : BitVec 5) (v : Word) : (s.retireX c d v).nextId = s.nextId := rfl
@[simp] theorem State.retireX_held (s : State) (c : CtxId) (d : BitVec 5) (v : Word) : (s.retireX c d v).held = s.held := rfl
@[simp] theorem State.retireX_misses (s : State) (c : CtxId) (d : BitVec 5) (v : Word) : (s.retireX c d v).misses = s.misses := rfl
@[simp] theorem State.retireX_tlb (s : State) (c : CtxId) (d : BitVec 5) (v : Word) : (s.retireX c d v).tlb = s.tlb := rfl
@[simp] theorem State.retireX_timeBase (s : State) (c : CtxId) (d : BitVec 5) (v : Word) : (s.retireX c d v).timeBase = s.timeBase := rfl
@[simp] theorem State.retireX_timeFrac (s : State) (c : CtxId) (d : BitVec 5) (v : Word) : (s.retireX c d v).timeFrac = s.timeFrac := rfl
@[simp] theorem State.retireX_clkBase (s : State) (c : CtxId) (d : BitVec 5) (v : Word) : (s.retireX c d v).clkBase = s.clkBase := rfl
@[simp] theorem State.retireX_ppm (s : State) (c : CtxId) (d : BitVec 5) (v : Word) : (s.retireX c d v).ppm = s.ppm := rfl
@[simp] theorem State.retireX_leaseD (s : State) (c : CtxId) (d : BitVec 5) (v : Word) : (s.retireX c d v).leaseD = s.leaseD := rfl
@[simp] theorem State.retireX_leaseP (s : State) (c : CtxId) (d : BitVec 5) (v : Word) : (s.retireX c d v).leaseP = s.leaseP := rfl
@[simp] theorem State.retireX_detmode (s : State) (c : CtxId) (d : BitVec 5) (v : Word) : (s.retireX c d v).detmode = s.detmode := rfl
@[simp] theorem State.retireX_featmask (s : State) (c : CtxId) (d : BitVec 5) (v : Word) : (s.retireX c d v).featmask = s.featmask := rfl
@[simp] theorem State.retireX_parts (s : State) (c : CtxId) (d : BitVec 5) (v : Word) : (s.retireX c d v).parts = s.parts := rfl
@[simp] theorem State.retireX_gangs (s : State) (c : CtxId) (d : BitVec 5) (v : Word) : (s.retireX c d v).gangs = s.gangs := rfl
@[simp] theorem State.retireX_fns (s : State) (c : CtxId) (d : BitVec 5) (v : Word) : (s.retireX c d v).fns = s.fns := rfl
@[simp] theorem State.retireX_peers (s : State) (c : CtxId) (d : BitVec 5) (v : Word) : (s.retireX c d v).peers = s.peers := rfl
@[simp] theorem State.retireX_ports (s : State) (c : CtxId) (d : BitVec 5) (v : Word) : (s.retireX c d v).ports = s.ports := rfl
@[simp] theorem State.retireX_widths (s : State) (c : CtxId) (d : BitVec 5) (v : Word) : (s.retireX c d v).widths = s.widths := rfl
@[simp] theorem State.retireX_shaking (s : State) (c : CtxId) (d : BitVec 5) (v : Word) : (s.retireX c d v).shaking = s.shaking := rfl
@[simp] theorem State.retireX_routes (s : State) (c : CtxId) (d : BitVec 5) (v : Word) : (s.retireX c d v).routes = s.routes := rfl
@[simp] theorem State.retireX_boot (s : State) (c : CtxId) (d : BitVec 5) (v : Word) : (s.retireX c d v).boot = s.boot := rfl
@[simp] theorem State.retireX_hostOut (s : State) (c : CtxId) (d : BitVec 5) (v : Word) : (s.retireX c d v).hostOut = s.hostOut := rfl

/-! `retireF` changes `ctxs` only. -/

@[simp] theorem State.retireF_clk (s : State) (c : CtxId) (d : BitVec 5) (v : Word) : (s.retireF c d v).clk = s.clk := rfl
@[simp] theorem State.retireF_cursor (s : State) (c : CtxId) (d : BitVec 5) (v : Word) : (s.retireF c d v).cursor = s.cursor := rfl
@[simp] theorem State.retireF_free (s : State) (c : CtxId) (d : BitVec 5) (v : Word) : (s.retireF c d v).free = s.free := rfl
@[simp] theorem State.retireF_agenda (s : State) (c : CtxId) (d : BitVec 5) (v : Word) : (s.retireF c d v).agenda = s.agenda := rfl
@[simp] theorem State.retireF_powered (s : State) (c : CtxId) (d : BitVec 5) (v : Word) : (s.retireF c d v).powered = s.powered := rfl
@[simp] theorem State.retireF_pkgNum (s : State) (c : CtxId) (d : BitVec 5) (v : Word) : (s.retireF c d v).pkgNum = s.pkgNum := rfl
@[simp] theorem State.retireF_joined (s : State) (c : CtxId) (d : BitVec 5) (v : Word) : (s.retireF c d v).joined = s.joined := rfl
@[simp] theorem State.retireF_cores (s : State) (c : CtxId) (d : BitVec 5) (v : Word) : (s.retireF c d v).cores = s.cores := rfl
@[simp] theorem State.retireF_dies (s : State) (c : CtxId) (d : BitVec 5) (v : Word) : (s.retireF c d v).dies = s.dies := rfl
@[simp] theorem State.retireF_mem (s : State) (c : CtxId) (d : BitVec 5) (v : Word) : (s.retireF c d v).mem = s.mem := rfl
@[simp] theorem State.retireF_tags (s : State) (c : CtxId) (d : BitVec 5) (v : Word) : (s.retireF c d v).tags = s.tags := rfl
@[simp] theorem State.retireF_errLines (s : State) (c : CtxId) (d : BitVec 5) (v : Word) : (s.retireF c d v).errLines = s.errLines := rfl
@[simp] theorem State.retireF_sramErrs (s : State) (c : CtxId) (d : BitVec 5) (v : Word) : (s.retireF c d v).sramErrs = s.sramErrs := rfl
@[simp] theorem State.retireF_pubs (s : State) (c : CtxId) (d : BitVec 5) (v : Word) : (s.retireF c d v).pubs = s.pubs := rfl
@[simp] theorem State.retireF_pend (s : State) (c : CtxId) (d : BitVec 5) (v : Word) : (s.retireF c d v).pend = s.pend := rfl
@[simp] theorem State.retireF_nextId (s : State) (c : CtxId) (d : BitVec 5) (v : Word) : (s.retireF c d v).nextId = s.nextId := rfl
@[simp] theorem State.retireF_held (s : State) (c : CtxId) (d : BitVec 5) (v : Word) : (s.retireF c d v).held = s.held := rfl
@[simp] theorem State.retireF_misses (s : State) (c : CtxId) (d : BitVec 5) (v : Word) : (s.retireF c d v).misses = s.misses := rfl
@[simp] theorem State.retireF_tlb (s : State) (c : CtxId) (d : BitVec 5) (v : Word) : (s.retireF c d v).tlb = s.tlb := rfl
@[simp] theorem State.retireF_timeBase (s : State) (c : CtxId) (d : BitVec 5) (v : Word) : (s.retireF c d v).timeBase = s.timeBase := rfl
@[simp] theorem State.retireF_timeFrac (s : State) (c : CtxId) (d : BitVec 5) (v : Word) : (s.retireF c d v).timeFrac = s.timeFrac := rfl
@[simp] theorem State.retireF_clkBase (s : State) (c : CtxId) (d : BitVec 5) (v : Word) : (s.retireF c d v).clkBase = s.clkBase := rfl
@[simp] theorem State.retireF_ppm (s : State) (c : CtxId) (d : BitVec 5) (v : Word) : (s.retireF c d v).ppm = s.ppm := rfl
@[simp] theorem State.retireF_leaseD (s : State) (c : CtxId) (d : BitVec 5) (v : Word) : (s.retireF c d v).leaseD = s.leaseD := rfl
@[simp] theorem State.retireF_leaseP (s : State) (c : CtxId) (d : BitVec 5) (v : Word) : (s.retireF c d v).leaseP = s.leaseP := rfl
@[simp] theorem State.retireF_detmode (s : State) (c : CtxId) (d : BitVec 5) (v : Word) : (s.retireF c d v).detmode = s.detmode := rfl
@[simp] theorem State.retireF_featmask (s : State) (c : CtxId) (d : BitVec 5) (v : Word) : (s.retireF c d v).featmask = s.featmask := rfl
@[simp] theorem State.retireF_parts (s : State) (c : CtxId) (d : BitVec 5) (v : Word) : (s.retireF c d v).parts = s.parts := rfl
@[simp] theorem State.retireF_gangs (s : State) (c : CtxId) (d : BitVec 5) (v : Word) : (s.retireF c d v).gangs = s.gangs := rfl
@[simp] theorem State.retireF_fns (s : State) (c : CtxId) (d : BitVec 5) (v : Word) : (s.retireF c d v).fns = s.fns := rfl
@[simp] theorem State.retireF_peers (s : State) (c : CtxId) (d : BitVec 5) (v : Word) : (s.retireF c d v).peers = s.peers := rfl
@[simp] theorem State.retireF_ports (s : State) (c : CtxId) (d : BitVec 5) (v : Word) : (s.retireF c d v).ports = s.ports := rfl
@[simp] theorem State.retireF_widths (s : State) (c : CtxId) (d : BitVec 5) (v : Word) : (s.retireF c d v).widths = s.widths := rfl
@[simp] theorem State.retireF_shaking (s : State) (c : CtxId) (d : BitVec 5) (v : Word) : (s.retireF c d v).shaking = s.shaking := rfl
@[simp] theorem State.retireF_routes (s : State) (c : CtxId) (d : BitVec 5) (v : Word) : (s.retireF c d v).routes = s.routes := rfl
@[simp] theorem State.retireF_boot (s : State) (c : CtxId) (d : BitVec 5) (v : Word) : (s.retireF c d v).boot = s.boot := rfl
@[simp] theorem State.retireF_hostOut (s : State) (c : CtxId) (d : BitVec 5) (v : Word) : (s.retireF c d v).hostOut = s.hostOut := rfl

/-! `stallBounded` changes `ctxs` only. -/

@[simp] theorem State.stallBounded_clk (s : State) (c : CtxId) : (s.stallBounded c).clk = s.clk := rfl
@[simp] theorem State.stallBounded_cursor (s : State) (c : CtxId) : (s.stallBounded c).cursor = s.cursor := rfl
@[simp] theorem State.stallBounded_free (s : State) (c : CtxId) : (s.stallBounded c).free = s.free := rfl
@[simp] theorem State.stallBounded_agenda (s : State) (c : CtxId) : (s.stallBounded c).agenda = s.agenda := rfl
@[simp] theorem State.stallBounded_powered (s : State) (c : CtxId) : (s.stallBounded c).powered = s.powered := rfl
@[simp] theorem State.stallBounded_pkgNum (s : State) (c : CtxId) : (s.stallBounded c).pkgNum = s.pkgNum := rfl
@[simp] theorem State.stallBounded_joined (s : State) (c : CtxId) : (s.stallBounded c).joined = s.joined := rfl
@[simp] theorem State.stallBounded_cores (s : State) (c : CtxId) : (s.stallBounded c).cores = s.cores := rfl
@[simp] theorem State.stallBounded_dies (s : State) (c : CtxId) : (s.stallBounded c).dies = s.dies := rfl
@[simp] theorem State.stallBounded_mem (s : State) (c : CtxId) : (s.stallBounded c).mem = s.mem := rfl
@[simp] theorem State.stallBounded_tags (s : State) (c : CtxId) : (s.stallBounded c).tags = s.tags := rfl
@[simp] theorem State.stallBounded_errLines (s : State) (c : CtxId) : (s.stallBounded c).errLines = s.errLines := rfl
@[simp] theorem State.stallBounded_sramErrs (s : State) (c : CtxId) : (s.stallBounded c).sramErrs = s.sramErrs := rfl
@[simp] theorem State.stallBounded_pubs (s : State) (c : CtxId) : (s.stallBounded c).pubs = s.pubs := rfl
@[simp] theorem State.stallBounded_pend (s : State) (c : CtxId) : (s.stallBounded c).pend = s.pend := rfl
@[simp] theorem State.stallBounded_nextId (s : State) (c : CtxId) : (s.stallBounded c).nextId = s.nextId := rfl
@[simp] theorem State.stallBounded_held (s : State) (c : CtxId) : (s.stallBounded c).held = s.held := rfl
@[simp] theorem State.stallBounded_misses (s : State) (c : CtxId) : (s.stallBounded c).misses = s.misses := rfl
@[simp] theorem State.stallBounded_tlb (s : State) (c : CtxId) : (s.stallBounded c).tlb = s.tlb := rfl
@[simp] theorem State.stallBounded_timeBase (s : State) (c : CtxId) : (s.stallBounded c).timeBase = s.timeBase := rfl
@[simp] theorem State.stallBounded_timeFrac (s : State) (c : CtxId) : (s.stallBounded c).timeFrac = s.timeFrac := rfl
@[simp] theorem State.stallBounded_clkBase (s : State) (c : CtxId) : (s.stallBounded c).clkBase = s.clkBase := rfl
@[simp] theorem State.stallBounded_ppm (s : State) (c : CtxId) : (s.stallBounded c).ppm = s.ppm := rfl
@[simp] theorem State.stallBounded_leaseD (s : State) (c : CtxId) : (s.stallBounded c).leaseD = s.leaseD := rfl
@[simp] theorem State.stallBounded_leaseP (s : State) (c : CtxId) : (s.stallBounded c).leaseP = s.leaseP := rfl
@[simp] theorem State.stallBounded_detmode (s : State) (c : CtxId) : (s.stallBounded c).detmode = s.detmode := rfl
@[simp] theorem State.stallBounded_featmask (s : State) (c : CtxId) : (s.stallBounded c).featmask = s.featmask := rfl
@[simp] theorem State.stallBounded_parts (s : State) (c : CtxId) : (s.stallBounded c).parts = s.parts := rfl
@[simp] theorem State.stallBounded_gangs (s : State) (c : CtxId) : (s.stallBounded c).gangs = s.gangs := rfl
@[simp] theorem State.stallBounded_fns (s : State) (c : CtxId) : (s.stallBounded c).fns = s.fns := rfl
@[simp] theorem State.stallBounded_peers (s : State) (c : CtxId) : (s.stallBounded c).peers = s.peers := rfl
@[simp] theorem State.stallBounded_ports (s : State) (c : CtxId) : (s.stallBounded c).ports = s.ports := rfl
@[simp] theorem State.stallBounded_widths (s : State) (c : CtxId) : (s.stallBounded c).widths = s.widths := rfl
@[simp] theorem State.stallBounded_shaking (s : State) (c : CtxId) : (s.stallBounded c).shaking = s.shaking := rfl
@[simp] theorem State.stallBounded_routes (s : State) (c : CtxId) : (s.stallBounded c).routes = s.routes := rfl
@[simp] theorem State.stallBounded_boot (s : State) (c : CtxId) : (s.stallBounded c).boot = s.boot := rfl
@[simp] theorem State.stallBounded_hostOut (s : State) (c : CtxId) : (s.stallBounded c).hostOut = s.hostOut := rfl

/-! `stall` changes `ctxs` only. -/

@[simp] theorem State.stall_clk (s : State) (c : CtxId) : (s.stall c).clk = s.clk := rfl
@[simp] theorem State.stall_cursor (s : State) (c : CtxId) : (s.stall c).cursor = s.cursor := rfl
@[simp] theorem State.stall_free (s : State) (c : CtxId) : (s.stall c).free = s.free := rfl
@[simp] theorem State.stall_agenda (s : State) (c : CtxId) : (s.stall c).agenda = s.agenda := rfl
@[simp] theorem State.stall_powered (s : State) (c : CtxId) : (s.stall c).powered = s.powered := rfl
@[simp] theorem State.stall_pkgNum (s : State) (c : CtxId) : (s.stall c).pkgNum = s.pkgNum := rfl
@[simp] theorem State.stall_joined (s : State) (c : CtxId) : (s.stall c).joined = s.joined := rfl
@[simp] theorem State.stall_cores (s : State) (c : CtxId) : (s.stall c).cores = s.cores := rfl
@[simp] theorem State.stall_dies (s : State) (c : CtxId) : (s.stall c).dies = s.dies := rfl
@[simp] theorem State.stall_mem (s : State) (c : CtxId) : (s.stall c).mem = s.mem := rfl
@[simp] theorem State.stall_tags (s : State) (c : CtxId) : (s.stall c).tags = s.tags := rfl
@[simp] theorem State.stall_errLines (s : State) (c : CtxId) : (s.stall c).errLines = s.errLines := rfl
@[simp] theorem State.stall_sramErrs (s : State) (c : CtxId) : (s.stall c).sramErrs = s.sramErrs := rfl
@[simp] theorem State.stall_pubs (s : State) (c : CtxId) : (s.stall c).pubs = s.pubs := rfl
@[simp] theorem State.stall_pend (s : State) (c : CtxId) : (s.stall c).pend = s.pend := rfl
@[simp] theorem State.stall_nextId (s : State) (c : CtxId) : (s.stall c).nextId = s.nextId := rfl
@[simp] theorem State.stall_held (s : State) (c : CtxId) : (s.stall c).held = s.held := rfl
@[simp] theorem State.stall_misses (s : State) (c : CtxId) : (s.stall c).misses = s.misses := rfl
@[simp] theorem State.stall_tlb (s : State) (c : CtxId) : (s.stall c).tlb = s.tlb := rfl
@[simp] theorem State.stall_timeBase (s : State) (c : CtxId) : (s.stall c).timeBase = s.timeBase := rfl
@[simp] theorem State.stall_timeFrac (s : State) (c : CtxId) : (s.stall c).timeFrac = s.timeFrac := rfl
@[simp] theorem State.stall_clkBase (s : State) (c : CtxId) : (s.stall c).clkBase = s.clkBase := rfl
@[simp] theorem State.stall_ppm (s : State) (c : CtxId) : (s.stall c).ppm = s.ppm := rfl
@[simp] theorem State.stall_leaseD (s : State) (c : CtxId) : (s.stall c).leaseD = s.leaseD := rfl
@[simp] theorem State.stall_leaseP (s : State) (c : CtxId) : (s.stall c).leaseP = s.leaseP := rfl
@[simp] theorem State.stall_detmode (s : State) (c : CtxId) : (s.stall c).detmode = s.detmode := rfl
@[simp] theorem State.stall_featmask (s : State) (c : CtxId) : (s.stall c).featmask = s.featmask := rfl
@[simp] theorem State.stall_parts (s : State) (c : CtxId) : (s.stall c).parts = s.parts := rfl
@[simp] theorem State.stall_gangs (s : State) (c : CtxId) : (s.stall c).gangs = s.gangs := rfl
@[simp] theorem State.stall_fns (s : State) (c : CtxId) : (s.stall c).fns = s.fns := rfl
@[simp] theorem State.stall_peers (s : State) (c : CtxId) : (s.stall c).peers = s.peers := rfl
@[simp] theorem State.stall_ports (s : State) (c : CtxId) : (s.stall c).ports = s.ports := rfl
@[simp] theorem State.stall_widths (s : State) (c : CtxId) : (s.stall c).widths = s.widths := rfl
@[simp] theorem State.stall_shaking (s : State) (c : CtxId) : (s.stall c).shaking = s.shaking := rfl
@[simp] theorem State.stall_routes (s : State) (c : CtxId) : (s.stall c).routes = s.routes := rfl
@[simp] theorem State.stall_boot (s : State) (c : CtxId) : (s.stall c).boot = s.boot := rfl
@[simp] theorem State.stall_hostOut (s : State) (c : CtxId) : (s.stall c).hostOut = s.hostOut := rfl

/-! `raiseMc` changes `ctxs` only. -/

@[simp] theorem State.raiseMc_clk (s : State) (c : CtxId) (v : Word) : (s.raiseMc c v).clk = s.clk := rfl
@[simp] theorem State.raiseMc_cursor (s : State) (c : CtxId) (v : Word) : (s.raiseMc c v).cursor = s.cursor := rfl
@[simp] theorem State.raiseMc_free (s : State) (c : CtxId) (v : Word) : (s.raiseMc c v).free = s.free := rfl
@[simp] theorem State.raiseMc_agenda (s : State) (c : CtxId) (v : Word) : (s.raiseMc c v).agenda = s.agenda := rfl
@[simp] theorem State.raiseMc_powered (s : State) (c : CtxId) (v : Word) : (s.raiseMc c v).powered = s.powered := rfl
@[simp] theorem State.raiseMc_pkgNum (s : State) (c : CtxId) (v : Word) : (s.raiseMc c v).pkgNum = s.pkgNum := rfl
@[simp] theorem State.raiseMc_joined (s : State) (c : CtxId) (v : Word) : (s.raiseMc c v).joined = s.joined := rfl
@[simp] theorem State.raiseMc_cores (s : State) (c : CtxId) (v : Word) : (s.raiseMc c v).cores = s.cores := rfl
@[simp] theorem State.raiseMc_dies (s : State) (c : CtxId) (v : Word) : (s.raiseMc c v).dies = s.dies := rfl
@[simp] theorem State.raiseMc_mem (s : State) (c : CtxId) (v : Word) : (s.raiseMc c v).mem = s.mem := rfl
@[simp] theorem State.raiseMc_tags (s : State) (c : CtxId) (v : Word) : (s.raiseMc c v).tags = s.tags := rfl
@[simp] theorem State.raiseMc_errLines (s : State) (c : CtxId) (v : Word) : (s.raiseMc c v).errLines = s.errLines := rfl
@[simp] theorem State.raiseMc_sramErrs (s : State) (c : CtxId) (v : Word) : (s.raiseMc c v).sramErrs = s.sramErrs := rfl
@[simp] theorem State.raiseMc_pubs (s : State) (c : CtxId) (v : Word) : (s.raiseMc c v).pubs = s.pubs := rfl
@[simp] theorem State.raiseMc_pend (s : State) (c : CtxId) (v : Word) : (s.raiseMc c v).pend = s.pend := rfl
@[simp] theorem State.raiseMc_nextId (s : State) (c : CtxId) (v : Word) : (s.raiseMc c v).nextId = s.nextId := rfl
@[simp] theorem State.raiseMc_held (s : State) (c : CtxId) (v : Word) : (s.raiseMc c v).held = s.held := rfl
@[simp] theorem State.raiseMc_misses (s : State) (c : CtxId) (v : Word) : (s.raiseMc c v).misses = s.misses := rfl
@[simp] theorem State.raiseMc_tlb (s : State) (c : CtxId) (v : Word) : (s.raiseMc c v).tlb = s.tlb := rfl
@[simp] theorem State.raiseMc_timeBase (s : State) (c : CtxId) (v : Word) : (s.raiseMc c v).timeBase = s.timeBase := rfl
@[simp] theorem State.raiseMc_timeFrac (s : State) (c : CtxId) (v : Word) : (s.raiseMc c v).timeFrac = s.timeFrac := rfl
@[simp] theorem State.raiseMc_clkBase (s : State) (c : CtxId) (v : Word) : (s.raiseMc c v).clkBase = s.clkBase := rfl
@[simp] theorem State.raiseMc_ppm (s : State) (c : CtxId) (v : Word) : (s.raiseMc c v).ppm = s.ppm := rfl
@[simp] theorem State.raiseMc_leaseD (s : State) (c : CtxId) (v : Word) : (s.raiseMc c v).leaseD = s.leaseD := rfl
@[simp] theorem State.raiseMc_leaseP (s : State) (c : CtxId) (v : Word) : (s.raiseMc c v).leaseP = s.leaseP := rfl
@[simp] theorem State.raiseMc_detmode (s : State) (c : CtxId) (v : Word) : (s.raiseMc c v).detmode = s.detmode := rfl
@[simp] theorem State.raiseMc_featmask (s : State) (c : CtxId) (v : Word) : (s.raiseMc c v).featmask = s.featmask := rfl
@[simp] theorem State.raiseMc_parts (s : State) (c : CtxId) (v : Word) : (s.raiseMc c v).parts = s.parts := rfl
@[simp] theorem State.raiseMc_gangs (s : State) (c : CtxId) (v : Word) : (s.raiseMc c v).gangs = s.gangs := rfl
@[simp] theorem State.raiseMc_fns (s : State) (c : CtxId) (v : Word) : (s.raiseMc c v).fns = s.fns := rfl
@[simp] theorem State.raiseMc_peers (s : State) (c : CtxId) (v : Word) : (s.raiseMc c v).peers = s.peers := rfl
@[simp] theorem State.raiseMc_ports (s : State) (c : CtxId) (v : Word) : (s.raiseMc c v).ports = s.ports := rfl
@[simp] theorem State.raiseMc_widths (s : State) (c : CtxId) (v : Word) : (s.raiseMc c v).widths = s.widths := rfl
@[simp] theorem State.raiseMc_shaking (s : State) (c : CtxId) (v : Word) : (s.raiseMc c v).shaking = s.shaking := rfl
@[simp] theorem State.raiseMc_routes (s : State) (c : CtxId) (v : Word) : (s.raiseMc c v).routes = s.routes := rfl
@[simp] theorem State.raiseMc_boot (s : State) (c : CtxId) (v : Word) : (s.raiseMc c v).boot = s.boot := rfl
@[simp] theorem State.raiseMc_hostOut (s : State) (c : CtxId) (v : Word) : (s.raiseMc c v).hostOut = s.hostOut := rfl

/-! What a context update leaves of the other tables, as the readers see them. -/

@[simp] theorem State.setCtx_core (s : State) (c : CtxId) (k : Ctx) (m : Nat) : (s.setCtx c k).core m = s.core m := rfl
@[simp] theorem State.setCtx_die (s : State) (c : CtxId) (k : Ctx) (e : Nat) : (s.setCtx c k).die e = s.die e := rfl
@[simp] theorem State.setCtx_cur (s : State) (c : CtxId) (k : Ctx) : (s.setCtx c k).cur = s.cur := rfl
@[simp] theorem State.modCtx_core (s : State) (c : CtxId) (g : Ctx → Ctx) (m : Nat) : (s.modCtx c g).core m = s.core m := rfl
@[simp] theorem State.modCtx_die (s : State) (c : CtxId) (g : Ctx → Ctx) (e : Nat) : (s.modCtx c g).die e = s.die e := rfl
@[simp] theorem State.modCtx_cur (s : State) (c : CtxId) (g : Ctx → Ctx) : (s.modCtx c g).cur = s.cur := rfl
@[simp] theorem State.setCore_ctx (s : State) (n : CoreId) (k : Core) (q : CtxId) : (s.setCore n k).ctx q = s.ctx q := rfl
@[simp] theorem State.setCore_cur (s : State) (n : CoreId) (k : Core) : (s.setCore n k).cur = s.cur := rfl
@[simp] theorem State.setCore_die (s : State) (n : CoreId) (k : Core) (e : Nat) : (s.setCore n k).die e = s.die e := rfl
@[simp] theorem State.modCore_ctx (s : State) (n : CoreId) (g : Core → Core) (q : CtxId) : (s.modCore n g).ctx q = s.ctx q := rfl
@[simp] theorem State.modCore_cur (s : State) (n : CoreId) (g : Core → Core) : (s.modCore n g).cur = s.cur := rfl
@[simp] theorem State.modCore_die (s : State) (n : CoreId) (g : Core → Core) (e : Nat) : (s.modCore n g).die e = s.die e := rfl
@[simp] theorem State.setDie_ctx (s : State) (d : Nat) (k : Die) (q : CtxId) : (s.setDie d k).ctx q = s.ctx q := rfl
@[simp] theorem State.setDie_cur (s : State) (d : Nat) (k : Die) : (s.setDie d k).cur = s.cur := rfl
@[simp] theorem State.setDie_core (s : State) (d : Nat) (k : Die) (m : Nat) : (s.setDie d k).core m = s.core m := rfl
@[simp] theorem State.modDie_ctx (s : State) (d : Nat) (g : Die → Die) (q : CtxId) : (s.modDie d g).ctx q = s.ctx q := rfl
@[simp] theorem State.modDie_cur (s : State) (d : Nat) (g : Die → Die) : (s.modDie d g).cur = s.cur := rfl
@[simp] theorem State.modDie_core (s : State) (d : Nat) (g : Die → Die) (m : Nat) : (s.modDie d g).core m = s.core m := rfl
@[simp] theorem State.setFn_ctx (s : State) (p f : Nat) (k : Fn) (q : CtxId) : (s.setFn p f k).ctx q = s.ctx q := rfl
@[simp] theorem State.setFn_cur (s : State) (p f : Nat) (k : Fn) : (s.setFn p f k).cur = s.cur := rfl
@[simp] theorem State.modFn_ctx (s : State) (p f : Nat) (g : Fn → Fn) (q : CtxId) : (s.modFn p f g).ctx q = s.ctx q := rfl
@[simp] theorem State.modFn_cur (s : State) (p f : Nat) (g : Fn → Fn) : (s.modFn p f g).cur = s.cur := rfl
@[simp] theorem State.after_core (s : State) (d : Nat) (i : Instr) (m : Nat) : (s.after d i).core m = s.core m := rfl
@[simp] theorem State.after_die (s : State) (d : Nat) (i : Instr) (e : Nat) : (s.after d i).die e = s.die e := rfl
@[simp] theorem State.after_cur (s : State) (d : Nat) (i : Instr) : (s.after d i).cur = s.cur := rfl
@[simp] theorem State.after_ctx (s : State) (d : Nat) (i : Instr) (q : CtxId) : (s.after d i).ctx q = s.ctx q := rfl
@[simp] theorem State.soon_core (s : State) (i : Instr) (m : Nat) : (s.soon i).core m = s.core m := rfl
@[simp] theorem State.soon_die (s : State) (i : Instr) (e : Nat) : (s.soon i).die e = s.die e := rfl
@[simp] theorem State.soon_cur (s : State) (i : Instr) : (s.soon i).cur = s.cur := rfl
@[simp] theorem State.soon_ctx (s : State) (i : Instr) (q : CtxId) : (s.soon i).ctx q = s.ctx q := rfl
@[simp] theorem State.retire_core (s : State) (c : CtxId) (m : Nat) : (s.retire c).core m = s.core m := rfl
@[simp] theorem State.retire_die (s : State) (c : CtxId) (e : Nat) : (s.retire c).die e = s.die e := rfl
@[simp] theorem State.retire_cur (s : State) (c : CtxId) : (s.retire c).cur = s.cur := rfl
@[simp] theorem State.retireX_core (s : State) (c : CtxId) (d : BitVec 5) (v : Word) (m : Nat) : (s.retireX c d v).core m = s.core m := rfl
@[simp] theorem State.retireX_die (s : State) (c : CtxId) (d : BitVec 5) (v : Word) (e : Nat) : (s.retireX c d v).die e = s.die e := rfl
@[simp] theorem State.retireX_cur (s : State) (c : CtxId) (d : BitVec 5) (v : Word) : (s.retireX c d v).cur = s.cur := rfl
@[simp] theorem State.retireF_core (s : State) (c : CtxId) (d : BitVec 5) (v : Word) (m : Nat) : (s.retireF c d v).core m = s.core m := rfl
@[simp] theorem State.retireF_die (s : State) (c : CtxId) (d : BitVec 5) (v : Word) (e : Nat) : (s.retireF c d v).die e = s.die e := rfl
@[simp] theorem State.retireF_cur (s : State) (c : CtxId) (d : BitVec 5) (v : Word) : (s.retireF c d v).cur = s.cur := rfl
@[simp] theorem State.stallBounded_core (s : State) (c : CtxId) (m : Nat) : (s.stallBounded c).core m = s.core m := rfl
@[simp] theorem State.stallBounded_die (s : State) (c : CtxId) (e : Nat) : (s.stallBounded c).die e = s.die e := rfl
@[simp] theorem State.stallBounded_cur (s : State) (c : CtxId) : (s.stallBounded c).cur = s.cur := rfl
@[simp] theorem State.stall_core (s : State) (c : CtxId) (m : Nat) : (s.stall c).core m = s.core m := rfl
@[simp] theorem State.stall_die (s : State) (c : CtxId) (e : Nat) : (s.stall c).die e = s.die e := rfl
@[simp] theorem State.stall_cur (s : State) (c : CtxId) : (s.stall c).cur = s.cur := rfl
@[simp] theorem State.raiseMc_core (s : State) (c : CtxId) (v : Word) (m : Nat) : (s.raiseMc c v).core m = s.core m := rfl
@[simp] theorem State.raiseMc_die (s : State) (c : CtxId) (v : Word) (e : Nat) : (s.raiseMc c v).die e = s.die e := rfl
@[simp] theorem State.raiseMc_cur (s : State) (c : CtxId) (v : Word) : (s.raiseMc c v).cur = s.cur := rfl

/-! `Ctx.retired` changes `pc`, `pfx`, `bounded`, `red`, `block` only. -/

@[simp] theorem Ctx.retired_x (k : Ctx) : (k.retired).x = k.x := rfl
@[simp] theorem Ctx.retired_f (k : Ctx) : (k.retired).f = k.f := rfl
@[simp] theorem Ctx.retired_mode (k : Ctx) : (k.retired).mode = k.mode := rfl
@[simp] theorem Ctx.retired_did (k : Ctx) : (k.retired).did = k.did := rfl
@[simp] theorem Ctx.retired_form (k : Ctx) : (k.retired).form = k.form := rfl
@[simp] theorem Ctx.retired_vl (k : Ctx) : (k.retired).vl = k.vl := rfl
@[simp] theorem Ctx.retired_vrows (k : Ctx) : (k.retired).vrows = k.vrows := rfl
@[simp] theorem Ctx.retired_tr (k : Ctx) : (k.retired).tr = k.tr := rfl
@[simp] theorem Ctx.retired_lanes (k : Ctx) : (k.retired).lanes = k.lanes := rfl
@[simp] theorem Ctx.retired_lg (k : Ctx) : (k.retired).lg = k.lg := rfl
@[simp] theorem Ctx.retired_fstat (k : Ctx) : (k.retired).fstat = k.fstat := rfl
@[simp] theorem Ctx.retired_cycleOff (k : Ctx) : (k.retired).cycleOff = k.cycleOff := rfl
@[simp] theorem Ctx.retired_swOut (k : Ctx) : (k.retired).swOut = k.swOut := rfl
@[simp] theorem Ctx.retired_gang (k : Ctx) : (k.retired).gang = k.gang := rfl
@[simp] theorem Ctx.retired_rank (k : Ctx) : (k.retired).rank = k.rank := rfl
@[simp] theorem Ctx.retired_sb (k : Ctx) : (k.retired).sb = k.sb := rfl
@[simp] theorem Ctx.retired_hb (k : Ctx) : (k.retired).hb = k.hb := rfl
@[simp] theorem Ctx.retired_mb (k : Ctx) : (k.retired).mb = k.mb := rfl
@[simp] theorem Ctx.retired_stealdom (k : Ctx) : (k.retired).stealdom = k.stealdom := rfl
@[simp] theorem Ctx.retired_tsave (k : Ctx) : (k.retired).tsave = k.tsave := rfl
@[simp] theorem Ctx.retired_vsavea (k : Ctx) : (k.retired).vsavea = k.vsavea := rfl
@[simp] theorem Ctx.retired_sptb (k : Ctx) : (k.retired).sptb = k.sptb := rfl
@[simp] theorem Ctx.retired_hptb (k : Ctx) : (k.retired).hptb = k.hptb := rfl
@[simp] theorem Ctx.retired_v (k : Ctx) : (k.retired).v = k.v := rfl
@[simp] theorem Ctx.retired_m (k : Ctx) : (k.retired).m = k.m := rfl
@[simp] theorem Ctx.retired_missing (k : Ctx) : (k.retired).missing = k.missing := rfl
@[simp] theorem Ctx.retired_dirty (k : Ctx) : (k.retired).dirty = k.dirty := rfl
@[simp] theorem Ctx.retired_latch (k : Ctx) : (k.retired).latch = k.latch := rfl
@[simp] theorem Ctx.retired_vq (k : Ctx) : (k.retired).vq = k.vq := rfl
@[simp] theorem Ctx.retired_vchk (k : Ctx) : (k.retired).vchk = k.vchk := rfl
@[simp] theorem Ctx.retired_streams (k : Ctx) : (k.retired).streams = k.streams := rfl
@[simp] theorem Ctx.retired_mailbox (k : Ctx) : (k.retired).mailbox = k.mailbox := rfl
@[simp] theorem Ctx.retired_spawn (k : Ctx) : (k.retired).spawn = k.spawn := rfl
@[simp] theorem Ctx.retired_spawnq (k : Ctx) : (k.retired).spawnq = k.spawnq := rfl
@[simp] theorem Ctx.retired_wake (k : Ctx) : (k.retired).wake = k.wake := rfl
@[simp] theorem Ctx.retired_regw (k : Ctx) : (k.retired).regw = k.regw := rfl
@[simp] theorem Ctx.retired_missed (k : Ctx) : (k.retired).missed = k.missed := rfl
@[simp] theorem Ctx.retired_resv (k : Ctx) : (k.retired).resv = k.resv := rfl
@[simp] theorem Ctx.retired_pendMc (k : Ctx) : (k.retired).pendMc = k.pendMc := rfl
@[simp] theorem Ctx.retired_pendStop (k : Ctx) : (k.retired).pendStop = k.pendStop := rfl
@[simp] theorem Ctx.retired_pendLane (k : Ctx) : (k.retired).pendLane = k.pendLane := rfl
@[simp] theorem Ctx.retired_run (k : Ctx) : (k.retired).run = k.run := rfl
@[simp] theorem Ctx.retired_wait (k : Ctx) : (k.retired).wait = k.wait := rfl
@[simp] theorem Ctx.retired_seen (k : Ctx) : (k.retired).seen = k.seen := rfl
@[simp] theorem Ctx.retired_pub (k : Ctx) : (k.retired).pub = k.pub := rfl
@[simp] theorem Ctx.retired_acq (k : Ctx) : (k.retired).acq = k.acq := rfl
@[simp] theorem Ctx.retired_sent (k : Ctx) : (k.retired).sent = k.sent := rfl
@[simp] theorem Ctx.retired_castSrc (k : Ctx) : (k.retired).castSrc = k.castSrc := rfl
@[simp] theorem Ctx.retired_migSaved (k : Ctx) : (k.retired).migSaved = k.migSaved := rfl
@[simp] theorem Ctx.retired_wrote (k : Ctx) : (k.retired).wrote = k.wrote := rfl
@[simp] theorem Ctx.retired_ticket (k : Ctx) : (k.retired).ticket = k.ticket := rfl
@[simp] theorem Ctx.retired_reply (k : Ctx) : (k.retired).reply = k.reply := rfl
@[simp] theorem Ctx.retired_stopped (k : Ctx) : (k.retired).stopped = k.stopped := rfl
@[simp] theorem Ctx.retired_notBefore (k : Ctx) : (k.retired).notBefore = k.notBefore := rfl
@[simp] theorem Ctx.retired_traps (k : Ctx) : (k.retired).traps = k.traps := rfl
@[simp] theorem Ctx.retired_jobs (k : Ctx) : (k.retired).jobs = k.jobs := rfl
@[simp] theorem Ctx.retired_depth (k : Ctx) : (k.retired).depth = k.depth := rfl
@[simp] theorem Ctx.retired_gbarGen (k : Ctx) : (k.retired).gbarGen = k.gbarGen := rfl
@[simp] theorem Ctx.retired_arrived (k : Ctx) : (k.retired).arrived = k.arrived := rfl
@[simp] theorem Ctx.retired_sealWait (k : Ctx) : (k.retired).sealWait = k.sealWait := rfl
@[simp] theorem Ctx.retired_casts (k : Ctx) : (k.retired).casts = k.casts := rfl
@[simp] theorem Ctx.retired_migDest (k : Ctx) : (k.retired).migDest = k.migDest := rfl
@[simp] theorem Ctx.retired_migPc (k : Ctx) : (k.retired).migPc = k.migPc := rfl
@[simp] theorem Ctx.retired_log (k : Ctx) : (k.retired).log = k.log := rfl

/-! `Ctx.orFlags` changes `fstat` only. -/

@[simp] theorem Ctx.orFlags_pc (k : Ctx) (fl : BitVec 5) : (k.orFlags fl).pc = k.pc := rfl
@[simp] theorem Ctx.orFlags_x (k : Ctx) (fl : BitVec 5) : (k.orFlags fl).x = k.x := rfl
@[simp] theorem Ctx.orFlags_f (k : Ctx) (fl : BitVec 5) : (k.orFlags fl).f = k.f := rfl
@[simp] theorem Ctx.orFlags_mode (k : Ctx) (fl : BitVec 5) : (k.orFlags fl).mode = k.mode := rfl
@[simp] theorem Ctx.orFlags_did (k : Ctx) (fl : BitVec 5) : (k.orFlags fl).did = k.did := rfl
@[simp] theorem Ctx.orFlags_form (k : Ctx) (fl : BitVec 5) : (k.orFlags fl).form = k.form := rfl
@[simp] theorem Ctx.orFlags_vl (k : Ctx) (fl : BitVec 5) : (k.orFlags fl).vl = k.vl := rfl
@[simp] theorem Ctx.orFlags_vrows (k : Ctx) (fl : BitVec 5) : (k.orFlags fl).vrows = k.vrows := rfl
@[simp] theorem Ctx.orFlags_tr (k : Ctx) (fl : BitVec 5) : (k.orFlags fl).tr = k.tr := rfl
@[simp] theorem Ctx.orFlags_lanes (k : Ctx) (fl : BitVec 5) : (k.orFlags fl).lanes = k.lanes := rfl
@[simp] theorem Ctx.orFlags_lg (k : Ctx) (fl : BitVec 5) : (k.orFlags fl).lg = k.lg := rfl
@[simp] theorem Ctx.orFlags_cycleOff (k : Ctx) (fl : BitVec 5) : (k.orFlags fl).cycleOff = k.cycleOff := rfl
@[simp] theorem Ctx.orFlags_swOut (k : Ctx) (fl : BitVec 5) : (k.orFlags fl).swOut = k.swOut := rfl
@[simp] theorem Ctx.orFlags_gang (k : Ctx) (fl : BitVec 5) : (k.orFlags fl).gang = k.gang := rfl
@[simp] theorem Ctx.orFlags_rank (k : Ctx) (fl : BitVec 5) : (k.orFlags fl).rank = k.rank := rfl
@[simp] theorem Ctx.orFlags_sb (k : Ctx) (fl : BitVec 5) : (k.orFlags fl).sb = k.sb := rfl
@[simp] theorem Ctx.orFlags_hb (k : Ctx) (fl : BitVec 5) : (k.orFlags fl).hb = k.hb := rfl
@[simp] theorem Ctx.orFlags_mb (k : Ctx) (fl : BitVec 5) : (k.orFlags fl).mb = k.mb := rfl
@[simp] theorem Ctx.orFlags_stealdom (k : Ctx) (fl : BitVec 5) : (k.orFlags fl).stealdom = k.stealdom := rfl
@[simp] theorem Ctx.orFlags_tsave (k : Ctx) (fl : BitVec 5) : (k.orFlags fl).tsave = k.tsave := rfl
@[simp] theorem Ctx.orFlags_vsavea (k : Ctx) (fl : BitVec 5) : (k.orFlags fl).vsavea = k.vsavea := rfl
@[simp] theorem Ctx.orFlags_sptb (k : Ctx) (fl : BitVec 5) : (k.orFlags fl).sptb = k.sptb := rfl
@[simp] theorem Ctx.orFlags_hptb (k : Ctx) (fl : BitVec 5) : (k.orFlags fl).hptb = k.hptb := rfl
@[simp] theorem Ctx.orFlags_v (k : Ctx) (fl : BitVec 5) : (k.orFlags fl).v = k.v := rfl
@[simp] theorem Ctx.orFlags_m (k : Ctx) (fl : BitVec 5) : (k.orFlags fl).m = k.m := rfl
@[simp] theorem Ctx.orFlags_missing (k : Ctx) (fl : BitVec 5) : (k.orFlags fl).missing = k.missing := rfl
@[simp] theorem Ctx.orFlags_dirty (k : Ctx) (fl : BitVec 5) : (k.orFlags fl).dirty = k.dirty := rfl
@[simp] theorem Ctx.orFlags_latch (k : Ctx) (fl : BitVec 5) : (k.orFlags fl).latch = k.latch := rfl
@[simp] theorem Ctx.orFlags_vq (k : Ctx) (fl : BitVec 5) : (k.orFlags fl).vq = k.vq := rfl
@[simp] theorem Ctx.orFlags_vchk (k : Ctx) (fl : BitVec 5) : (k.orFlags fl).vchk = k.vchk := rfl
@[simp] theorem Ctx.orFlags_streams (k : Ctx) (fl : BitVec 5) : (k.orFlags fl).streams = k.streams := rfl
@[simp] theorem Ctx.orFlags_mailbox (k : Ctx) (fl : BitVec 5) : (k.orFlags fl).mailbox = k.mailbox := rfl
@[simp] theorem Ctx.orFlags_spawn (k : Ctx) (fl : BitVec 5) : (k.orFlags fl).spawn = k.spawn := rfl
@[simp] theorem Ctx.orFlags_spawnq (k : Ctx) (fl : BitVec 5) : (k.orFlags fl).spawnq = k.spawnq := rfl
@[simp] theorem Ctx.orFlags_wake (k : Ctx) (fl : BitVec 5) : (k.orFlags fl).wake = k.wake := rfl
@[simp] theorem Ctx.orFlags_regw (k : Ctx) (fl : BitVec 5) : (k.orFlags fl).regw = k.regw := rfl
@[simp] theorem Ctx.orFlags_missed (k : Ctx) (fl : BitVec 5) : (k.orFlags fl).missed = k.missed := rfl
@[simp] theorem Ctx.orFlags_resv (k : Ctx) (fl : BitVec 5) : (k.orFlags fl).resv = k.resv := rfl
@[simp] theorem Ctx.orFlags_pfx (k : Ctx) (fl : BitVec 5) : (k.orFlags fl).pfx = k.pfx := rfl
@[simp] theorem Ctx.orFlags_pendMc (k : Ctx) (fl : BitVec 5) : (k.orFlags fl).pendMc = k.pendMc := rfl
@[simp] theorem Ctx.orFlags_pendStop (k : Ctx) (fl : BitVec 5) : (k.orFlags fl).pendStop = k.pendStop := rfl
@[simp] theorem Ctx.orFlags_pendLane (k : Ctx) (fl : BitVec 5) : (k.orFlags fl).pendLane = k.pendLane := rfl
@[simp] theorem Ctx.orFlags_run (k : Ctx) (fl : BitVec 5) : (k.orFlags fl).run = k.run := rfl
@[simp] theorem Ctx.orFlags_wait (k : Ctx) (fl : BitVec 5) : (k.orFlags fl).wait = k.wait := rfl
@[simp] theorem Ctx.orFlags_bounded (k : Ctx) (fl : BitVec 5) : (k.orFlags fl).bounded = k.bounded := rfl
@[simp] theorem Ctx.orFlags_seen (k : Ctx) (fl : BitVec 5) : (k.orFlags fl).seen = k.seen := rfl
@[simp] theorem Ctx.orFlags_pub (k : Ctx) (fl : BitVec 5) : (k.orFlags fl).pub = k.pub := rfl
@[simp] theorem Ctx.orFlags_acq (k : Ctx) (fl : BitVec 5) : (k.orFlags fl).acq = k.acq := rfl
@[simp] theorem Ctx.orFlags_sent (k : Ctx) (fl : BitVec 5) : (k.orFlags fl).sent = k.sent := rfl
@[simp] theorem Ctx.orFlags_rel (k : Ctx) (fl : BitVec 5) : (k.orFlags fl).rel = k.rel := rfl
@[simp] theorem Ctx.orFlags_walked (k : Ctx) (fl : BitVec 5) : (k.orFlags fl).walked = k.walked := rfl
@[simp] theorem Ctx.orFlags_passed (k : Ctx) (fl : BitVec 5) : (k.orFlags fl).passed = k.passed := rfl
@[simp] theorem Ctx.orFlags_fetched (k : Ctx) (fl : BitVec 5) : (k.orFlags fl).fetched = k.fetched := rfl
@[simp] theorem Ctx.orFlags_castSrc (k : Ctx) (fl : BitVec 5) : (k.orFlags fl).castSrc = k.castSrc := rfl
@[simp] theorem Ctx.orFlags_migSaved (k : Ctx) (fl : BitVec 5) : (k.orFlags fl).migSaved = k.migSaved := rfl
@[simp] theorem Ctx.orFlags_wrote (k : Ctx) (fl : BitVec 5) : (k.orFlags fl).wrote = k.wrote := rfl
@[simp] theorem Ctx.orFlags_ticket (k : Ctx) (fl : BitVec 5) : (k.orFlags fl).ticket = k.ticket := rfl
@[simp] theorem Ctx.orFlags_reply (k : Ctx) (fl : BitVec 5) : (k.orFlags fl).reply = k.reply := rfl
@[simp] theorem Ctx.orFlags_block (k : Ctx) (fl : BitVec 5) : (k.orFlags fl).block = k.block := rfl
@[simp] theorem Ctx.orFlags_stopped (k : Ctx) (fl : BitVec 5) : (k.orFlags fl).stopped = k.stopped := rfl
@[simp] theorem Ctx.orFlags_notBefore (k : Ctx) (fl : BitVec 5) : (k.orFlags fl).notBefore = k.notBefore := rfl
@[simp] theorem Ctx.orFlags_traps (k : Ctx) (fl : BitVec 5) : (k.orFlags fl).traps = k.traps := rfl
@[simp] theorem Ctx.orFlags_jobs (k : Ctx) (fl : BitVec 5) : (k.orFlags fl).jobs = k.jobs := rfl
@[simp] theorem Ctx.orFlags_depth (k : Ctx) (fl : BitVec 5) : (k.orFlags fl).depth = k.depth := rfl
@[simp] theorem Ctx.orFlags_gbarGen (k : Ctx) (fl : BitVec 5) : (k.orFlags fl).gbarGen = k.gbarGen := rfl
@[simp] theorem Ctx.orFlags_arrived (k : Ctx) (fl : BitVec 5) : (k.orFlags fl).arrived = k.arrived := rfl
@[simp] theorem Ctx.orFlags_sealWait (k : Ctx) (fl : BitVec 5) : (k.orFlags fl).sealWait = k.sealWait := rfl
@[simp] theorem Ctx.orFlags_casts (k : Ctx) (fl : BitVec 5) : (k.orFlags fl).casts = k.casts := rfl
@[simp] theorem Ctx.orFlags_migDest (k : Ctx) (fl : BitVec 5) : (k.orFlags fl).migDest = k.migDest := rfl
@[simp] theorem Ctx.orFlags_migPc (k : Ctx) (fl : BitVec 5) : (k.orFlags fl).migPc = k.migPc := rfl
@[simp] theorem Ctx.orFlags_red (k : Ctx) (fl : BitVec 5) : (k.orFlags fl).red = k.red := rfl
@[simp] theorem Ctx.orFlags_log (k : Ctx) (fl : BitVec 5) : (k.orFlags fl).log = k.log := rfl

/-! `Ctx.wf` changes `f` only. -/

@[simp] theorem Ctx.wf_pc (k : Ctx) (r : BitVec 5) (v : Word) : (k.wf r v).pc = k.pc := rfl
@[simp] theorem Ctx.wf_x (k : Ctx) (r : BitVec 5) (v : Word) : (k.wf r v).x = k.x := rfl
@[simp] theorem Ctx.wf_mode (k : Ctx) (r : BitVec 5) (v : Word) : (k.wf r v).mode = k.mode := rfl
@[simp] theorem Ctx.wf_did (k : Ctx) (r : BitVec 5) (v : Word) : (k.wf r v).did = k.did := rfl
@[simp] theorem Ctx.wf_form (k : Ctx) (r : BitVec 5) (v : Word) : (k.wf r v).form = k.form := rfl
@[simp] theorem Ctx.wf_vl (k : Ctx) (r : BitVec 5) (v : Word) : (k.wf r v).vl = k.vl := rfl
@[simp] theorem Ctx.wf_vrows (k : Ctx) (r : BitVec 5) (v : Word) : (k.wf r v).vrows = k.vrows := rfl
@[simp] theorem Ctx.wf_tr (k : Ctx) (r : BitVec 5) (v : Word) : (k.wf r v).tr = k.tr := rfl
@[simp] theorem Ctx.wf_lanes (k : Ctx) (r : BitVec 5) (v : Word) : (k.wf r v).lanes = k.lanes := rfl
@[simp] theorem Ctx.wf_lg (k : Ctx) (r : BitVec 5) (v : Word) : (k.wf r v).lg = k.lg := rfl
@[simp] theorem Ctx.wf_fstat (k : Ctx) (r : BitVec 5) (v : Word) : (k.wf r v).fstat = k.fstat := rfl
@[simp] theorem Ctx.wf_cycleOff (k : Ctx) (r : BitVec 5) (v : Word) : (k.wf r v).cycleOff = k.cycleOff := rfl
@[simp] theorem Ctx.wf_swOut (k : Ctx) (r : BitVec 5) (v : Word) : (k.wf r v).swOut = k.swOut := rfl
@[simp] theorem Ctx.wf_gang (k : Ctx) (r : BitVec 5) (v : Word) : (k.wf r v).gang = k.gang := rfl
@[simp] theorem Ctx.wf_rank (k : Ctx) (r : BitVec 5) (v : Word) : (k.wf r v).rank = k.rank := rfl
@[simp] theorem Ctx.wf_sb (k : Ctx) (r : BitVec 5) (v : Word) : (k.wf r v).sb = k.sb := rfl
@[simp] theorem Ctx.wf_hb (k : Ctx) (r : BitVec 5) (v : Word) : (k.wf r v).hb = k.hb := rfl
@[simp] theorem Ctx.wf_mb (k : Ctx) (r : BitVec 5) (v : Word) : (k.wf r v).mb = k.mb := rfl
@[simp] theorem Ctx.wf_stealdom (k : Ctx) (r : BitVec 5) (v : Word) : (k.wf r v).stealdom = k.stealdom := rfl
@[simp] theorem Ctx.wf_tsave (k : Ctx) (r : BitVec 5) (v : Word) : (k.wf r v).tsave = k.tsave := rfl
@[simp] theorem Ctx.wf_vsavea (k : Ctx) (r : BitVec 5) (v : Word) : (k.wf r v).vsavea = k.vsavea := rfl
@[simp] theorem Ctx.wf_sptb (k : Ctx) (r : BitVec 5) (v : Word) : (k.wf r v).sptb = k.sptb := rfl
@[simp] theorem Ctx.wf_hptb (k : Ctx) (r : BitVec 5) (v : Word) : (k.wf r v).hptb = k.hptb := rfl
@[simp] theorem Ctx.wf_v (k : Ctx) (r : BitVec 5) (v : Word) : (k.wf r v).v = k.v := rfl
@[simp] theorem Ctx.wf_m (k : Ctx) (r : BitVec 5) (v : Word) : (k.wf r v).m = k.m := rfl
@[simp] theorem Ctx.wf_missing (k : Ctx) (r : BitVec 5) (v : Word) : (k.wf r v).missing = k.missing := rfl
@[simp] theorem Ctx.wf_dirty (k : Ctx) (r : BitVec 5) (v : Word) : (k.wf r v).dirty = k.dirty := rfl
@[simp] theorem Ctx.wf_latch (k : Ctx) (r : BitVec 5) (v : Word) : (k.wf r v).latch = k.latch := rfl
@[simp] theorem Ctx.wf_vq (k : Ctx) (r : BitVec 5) (v : Word) : (k.wf r v).vq = k.vq := rfl
@[simp] theorem Ctx.wf_vchk (k : Ctx) (r : BitVec 5) (v : Word) : (k.wf r v).vchk = k.vchk := rfl
@[simp] theorem Ctx.wf_streams (k : Ctx) (r : BitVec 5) (v : Word) : (k.wf r v).streams = k.streams := rfl
@[simp] theorem Ctx.wf_mailbox (k : Ctx) (r : BitVec 5) (v : Word) : (k.wf r v).mailbox = k.mailbox := rfl
@[simp] theorem Ctx.wf_spawn (k : Ctx) (r : BitVec 5) (v : Word) : (k.wf r v).spawn = k.spawn := rfl
@[simp] theorem Ctx.wf_spawnq (k : Ctx) (r : BitVec 5) (v : Word) : (k.wf r v).spawnq = k.spawnq := rfl
@[simp] theorem Ctx.wf_wake (k : Ctx) (r : BitVec 5) (v : Word) : (k.wf r v).wake = k.wake := rfl
@[simp] theorem Ctx.wf_regw (k : Ctx) (r : BitVec 5) (v : Word) : (k.wf r v).regw = k.regw := rfl
@[simp] theorem Ctx.wf_missed (k : Ctx) (r : BitVec 5) (v : Word) : (k.wf r v).missed = k.missed := rfl
@[simp] theorem Ctx.wf_resv (k : Ctx) (r : BitVec 5) (v : Word) : (k.wf r v).resv = k.resv := rfl
@[simp] theorem Ctx.wf_pfx (k : Ctx) (r : BitVec 5) (v : Word) : (k.wf r v).pfx = k.pfx := rfl
@[simp] theorem Ctx.wf_pendMc (k : Ctx) (r : BitVec 5) (v : Word) : (k.wf r v).pendMc = k.pendMc := rfl
@[simp] theorem Ctx.wf_pendStop (k : Ctx) (r : BitVec 5) (v : Word) : (k.wf r v).pendStop = k.pendStop := rfl
@[simp] theorem Ctx.wf_pendLane (k : Ctx) (r : BitVec 5) (v : Word) : (k.wf r v).pendLane = k.pendLane := rfl
@[simp] theorem Ctx.wf_run (k : Ctx) (r : BitVec 5) (v : Word) : (k.wf r v).run = k.run := rfl
@[simp] theorem Ctx.wf_wait (k : Ctx) (r : BitVec 5) (v : Word) : (k.wf r v).wait = k.wait := rfl
@[simp] theorem Ctx.wf_bounded (k : Ctx) (r : BitVec 5) (v : Word) : (k.wf r v).bounded = k.bounded := rfl
@[simp] theorem Ctx.wf_seen (k : Ctx) (r : BitVec 5) (v : Word) : (k.wf r v).seen = k.seen := rfl
@[simp] theorem Ctx.wf_pub (k : Ctx) (r : BitVec 5) (v : Word) : (k.wf r v).pub = k.pub := rfl
@[simp] theorem Ctx.wf_acq (k : Ctx) (r : BitVec 5) (v : Word) : (k.wf r v).acq = k.acq := rfl
@[simp] theorem Ctx.wf_sent (k : Ctx) (r : BitVec 5) (v : Word) : (k.wf r v).sent = k.sent := rfl
@[simp] theorem Ctx.wf_rel (k : Ctx) (r : BitVec 5) (v : Word) : (k.wf r v).rel = k.rel := rfl
@[simp] theorem Ctx.wf_walked (k : Ctx) (r : BitVec 5) (v : Word) : (k.wf r v).walked = k.walked := rfl
@[simp] theorem Ctx.wf_passed (k : Ctx) (r : BitVec 5) (v : Word) : (k.wf r v).passed = k.passed := rfl
@[simp] theorem Ctx.wf_fetched (k : Ctx) (r : BitVec 5) (v : Word) : (k.wf r v).fetched = k.fetched := rfl
@[simp] theorem Ctx.wf_castSrc (k : Ctx) (r : BitVec 5) (v : Word) : (k.wf r v).castSrc = k.castSrc := rfl
@[simp] theorem Ctx.wf_migSaved (k : Ctx) (r : BitVec 5) (v : Word) : (k.wf r v).migSaved = k.migSaved := rfl
@[simp] theorem Ctx.wf_wrote (k : Ctx) (r : BitVec 5) (v : Word) : (k.wf r v).wrote = k.wrote := rfl
@[simp] theorem Ctx.wf_ticket (k : Ctx) (r : BitVec 5) (v : Word) : (k.wf r v).ticket = k.ticket := rfl
@[simp] theorem Ctx.wf_reply (k : Ctx) (r : BitVec 5) (v : Word) : (k.wf r v).reply = k.reply := rfl
@[simp] theorem Ctx.wf_block (k : Ctx) (r : BitVec 5) (v : Word) : (k.wf r v).block = k.block := rfl
@[simp] theorem Ctx.wf_stopped (k : Ctx) (r : BitVec 5) (v : Word) : (k.wf r v).stopped = k.stopped := rfl
@[simp] theorem Ctx.wf_notBefore (k : Ctx) (r : BitVec 5) (v : Word) : (k.wf r v).notBefore = k.notBefore := rfl
@[simp] theorem Ctx.wf_traps (k : Ctx) (r : BitVec 5) (v : Word) : (k.wf r v).traps = k.traps := rfl
@[simp] theorem Ctx.wf_jobs (k : Ctx) (r : BitVec 5) (v : Word) : (k.wf r v).jobs = k.jobs := rfl
@[simp] theorem Ctx.wf_depth (k : Ctx) (r : BitVec 5) (v : Word) : (k.wf r v).depth = k.depth := rfl
@[simp] theorem Ctx.wf_gbarGen (k : Ctx) (r : BitVec 5) (v : Word) : (k.wf r v).gbarGen = k.gbarGen := rfl
@[simp] theorem Ctx.wf_arrived (k : Ctx) (r : BitVec 5) (v : Word) : (k.wf r v).arrived = k.arrived := rfl
@[simp] theorem Ctx.wf_sealWait (k : Ctx) (r : BitVec 5) (v : Word) : (k.wf r v).sealWait = k.sealWait := rfl
@[simp] theorem Ctx.wf_casts (k : Ctx) (r : BitVec 5) (v : Word) : (k.wf r v).casts = k.casts := rfl
@[simp] theorem Ctx.wf_migDest (k : Ctx) (r : BitVec 5) (v : Word) : (k.wf r v).migDest = k.migDest := rfl
@[simp] theorem Ctx.wf_migPc (k : Ctx) (r : BitVec 5) (v : Word) : (k.wf r v).migPc = k.migPc := rfl
@[simp] theorem Ctx.wf_red (k : Ctx) (r : BitVec 5) (v : Word) : (k.wf r v).red = k.red := rfl
@[simp] theorem Ctx.wf_log (k : Ctx) (r : BitVec 5) (v : Word) : (k.wf r v).log = k.log := rfl

/-! `Ctx.wx` changes `x` only, and not x0. -/

@[simp] theorem Ctx.wx_pc (k : Ctx) (r : BitVec 5) (v : Word) : (k.wx r v).pc = k.pc := by unfold Ctx.wx; split <;> rfl
@[simp] theorem Ctx.wx_f (k : Ctx) (r : BitVec 5) (v : Word) : (k.wx r v).f = k.f := by unfold Ctx.wx; split <;> rfl
@[simp] theorem Ctx.wx_mode (k : Ctx) (r : BitVec 5) (v : Word) : (k.wx r v).mode = k.mode := by unfold Ctx.wx; split <;> rfl
@[simp] theorem Ctx.wx_did (k : Ctx) (r : BitVec 5) (v : Word) : (k.wx r v).did = k.did := by unfold Ctx.wx; split <;> rfl
@[simp] theorem Ctx.wx_form (k : Ctx) (r : BitVec 5) (v : Word) : (k.wx r v).form = k.form := by unfold Ctx.wx; split <;> rfl
@[simp] theorem Ctx.wx_vl (k : Ctx) (r : BitVec 5) (v : Word) : (k.wx r v).vl = k.vl := by unfold Ctx.wx; split <;> rfl
@[simp] theorem Ctx.wx_vrows (k : Ctx) (r : BitVec 5) (v : Word) : (k.wx r v).vrows = k.vrows := by unfold Ctx.wx; split <;> rfl
@[simp] theorem Ctx.wx_tr (k : Ctx) (r : BitVec 5) (v : Word) : (k.wx r v).tr = k.tr := by unfold Ctx.wx; split <;> rfl
@[simp] theorem Ctx.wx_lanes (k : Ctx) (r : BitVec 5) (v : Word) : (k.wx r v).lanes = k.lanes := by unfold Ctx.wx; split <;> rfl
@[simp] theorem Ctx.wx_lg (k : Ctx) (r : BitVec 5) (v : Word) : (k.wx r v).lg = k.lg := by unfold Ctx.wx; split <;> rfl
@[simp] theorem Ctx.wx_fstat (k : Ctx) (r : BitVec 5) (v : Word) : (k.wx r v).fstat = k.fstat := by unfold Ctx.wx; split <;> rfl
@[simp] theorem Ctx.wx_cycleOff (k : Ctx) (r : BitVec 5) (v : Word) : (k.wx r v).cycleOff = k.cycleOff := by unfold Ctx.wx; split <;> rfl
@[simp] theorem Ctx.wx_swOut (k : Ctx) (r : BitVec 5) (v : Word) : (k.wx r v).swOut = k.swOut := by unfold Ctx.wx; split <;> rfl
@[simp] theorem Ctx.wx_gang (k : Ctx) (r : BitVec 5) (v : Word) : (k.wx r v).gang = k.gang := by unfold Ctx.wx; split <;> rfl
@[simp] theorem Ctx.wx_rank (k : Ctx) (r : BitVec 5) (v : Word) : (k.wx r v).rank = k.rank := by unfold Ctx.wx; split <;> rfl
@[simp] theorem Ctx.wx_sb (k : Ctx) (r : BitVec 5) (v : Word) : (k.wx r v).sb = k.sb := by unfold Ctx.wx; split <;> rfl
@[simp] theorem Ctx.wx_hb (k : Ctx) (r : BitVec 5) (v : Word) : (k.wx r v).hb = k.hb := by unfold Ctx.wx; split <;> rfl
@[simp] theorem Ctx.wx_mb (k : Ctx) (r : BitVec 5) (v : Word) : (k.wx r v).mb = k.mb := by unfold Ctx.wx; split <;> rfl
@[simp] theorem Ctx.wx_stealdom (k : Ctx) (r : BitVec 5) (v : Word) : (k.wx r v).stealdom = k.stealdom := by unfold Ctx.wx; split <;> rfl
@[simp] theorem Ctx.wx_tsave (k : Ctx) (r : BitVec 5) (v : Word) : (k.wx r v).tsave = k.tsave := by unfold Ctx.wx; split <;> rfl
@[simp] theorem Ctx.wx_vsavea (k : Ctx) (r : BitVec 5) (v : Word) : (k.wx r v).vsavea = k.vsavea := by unfold Ctx.wx; split <;> rfl
@[simp] theorem Ctx.wx_sptb (k : Ctx) (r : BitVec 5) (v : Word) : (k.wx r v).sptb = k.sptb := by unfold Ctx.wx; split <;> rfl
@[simp] theorem Ctx.wx_hptb (k : Ctx) (r : BitVec 5) (v : Word) : (k.wx r v).hptb = k.hptb := by unfold Ctx.wx; split <;> rfl
@[simp] theorem Ctx.wx_v (k : Ctx) (r : BitVec 5) (v : Word) : (k.wx r v).v = k.v := by unfold Ctx.wx; split <;> rfl
@[simp] theorem Ctx.wx_m (k : Ctx) (r : BitVec 5) (v : Word) : (k.wx r v).m = k.m := by unfold Ctx.wx; split <;> rfl
@[simp] theorem Ctx.wx_missing (k : Ctx) (r : BitVec 5) (v : Word) : (k.wx r v).missing = k.missing := by unfold Ctx.wx; split <;> rfl
@[simp] theorem Ctx.wx_dirty (k : Ctx) (r : BitVec 5) (v : Word) : (k.wx r v).dirty = k.dirty := by unfold Ctx.wx; split <;> rfl
@[simp] theorem Ctx.wx_latch (k : Ctx) (r : BitVec 5) (v : Word) : (k.wx r v).latch = k.latch := by unfold Ctx.wx; split <;> rfl
@[simp] theorem Ctx.wx_vq (k : Ctx) (r : BitVec 5) (v : Word) : (k.wx r v).vq = k.vq := by unfold Ctx.wx; split <;> rfl
@[simp] theorem Ctx.wx_vchk (k : Ctx) (r : BitVec 5) (v : Word) : (k.wx r v).vchk = k.vchk := by unfold Ctx.wx; split <;> rfl
@[simp] theorem Ctx.wx_streams (k : Ctx) (r : BitVec 5) (v : Word) : (k.wx r v).streams = k.streams := by unfold Ctx.wx; split <;> rfl
@[simp] theorem Ctx.wx_mailbox (k : Ctx) (r : BitVec 5) (v : Word) : (k.wx r v).mailbox = k.mailbox := by unfold Ctx.wx; split <;> rfl
@[simp] theorem Ctx.wx_spawn (k : Ctx) (r : BitVec 5) (v : Word) : (k.wx r v).spawn = k.spawn := by unfold Ctx.wx; split <;> rfl
@[simp] theorem Ctx.wx_spawnq (k : Ctx) (r : BitVec 5) (v : Word) : (k.wx r v).spawnq = k.spawnq := by unfold Ctx.wx; split <;> rfl
@[simp] theorem Ctx.wx_wake (k : Ctx) (r : BitVec 5) (v : Word) : (k.wx r v).wake = k.wake := by unfold Ctx.wx; split <;> rfl
@[simp] theorem Ctx.wx_regw (k : Ctx) (r : BitVec 5) (v : Word) : (k.wx r v).regw = k.regw := by unfold Ctx.wx; split <;> rfl
@[simp] theorem Ctx.wx_missed (k : Ctx) (r : BitVec 5) (v : Word) : (k.wx r v).missed = k.missed := by unfold Ctx.wx; split <;> rfl
@[simp] theorem Ctx.wx_resv (k : Ctx) (r : BitVec 5) (v : Word) : (k.wx r v).resv = k.resv := by unfold Ctx.wx; split <;> rfl
@[simp] theorem Ctx.wx_pfx (k : Ctx) (r : BitVec 5) (v : Word) : (k.wx r v).pfx = k.pfx := by unfold Ctx.wx; split <;> rfl
@[simp] theorem Ctx.wx_pendMc (k : Ctx) (r : BitVec 5) (v : Word) : (k.wx r v).pendMc = k.pendMc := by unfold Ctx.wx; split <;> rfl
@[simp] theorem Ctx.wx_pendStop (k : Ctx) (r : BitVec 5) (v : Word) : (k.wx r v).pendStop = k.pendStop := by unfold Ctx.wx; split <;> rfl
@[simp] theorem Ctx.wx_pendLane (k : Ctx) (r : BitVec 5) (v : Word) : (k.wx r v).pendLane = k.pendLane := by unfold Ctx.wx; split <;> rfl
@[simp] theorem Ctx.wx_run (k : Ctx) (r : BitVec 5) (v : Word) : (k.wx r v).run = k.run := by unfold Ctx.wx; split <;> rfl
@[simp] theorem Ctx.wx_wait (k : Ctx) (r : BitVec 5) (v : Word) : (k.wx r v).wait = k.wait := by unfold Ctx.wx; split <;> rfl
@[simp] theorem Ctx.wx_bounded (k : Ctx) (r : BitVec 5) (v : Word) : (k.wx r v).bounded = k.bounded := by unfold Ctx.wx; split <;> rfl
@[simp] theorem Ctx.wx_seen (k : Ctx) (r : BitVec 5) (v : Word) : (k.wx r v).seen = k.seen := by unfold Ctx.wx; split <;> rfl
@[simp] theorem Ctx.wx_pub (k : Ctx) (r : BitVec 5) (v : Word) : (k.wx r v).pub = k.pub := by unfold Ctx.wx; split <;> rfl
@[simp] theorem Ctx.wx_acq (k : Ctx) (r : BitVec 5) (v : Word) : (k.wx r v).acq = k.acq := by unfold Ctx.wx; split <;> rfl
@[simp] theorem Ctx.wx_sent (k : Ctx) (r : BitVec 5) (v : Word) : (k.wx r v).sent = k.sent := by unfold Ctx.wx; split <;> rfl
@[simp] theorem Ctx.wx_rel (k : Ctx) (r : BitVec 5) (v : Word) : (k.wx r v).rel = k.rel := by unfold Ctx.wx; split <;> rfl
@[simp] theorem Ctx.wx_walked (k : Ctx) (r : BitVec 5) (v : Word) : (k.wx r v).walked = k.walked := by unfold Ctx.wx; split <;> rfl
@[simp] theorem Ctx.wx_passed (k : Ctx) (r : BitVec 5) (v : Word) : (k.wx r v).passed = k.passed := by unfold Ctx.wx; split <;> rfl
@[simp] theorem Ctx.wx_fetched (k : Ctx) (r : BitVec 5) (v : Word) : (k.wx r v).fetched = k.fetched := by unfold Ctx.wx; split <;> rfl
@[simp] theorem Ctx.wx_castSrc (k : Ctx) (r : BitVec 5) (v : Word) : (k.wx r v).castSrc = k.castSrc := by unfold Ctx.wx; split <;> rfl
@[simp] theorem Ctx.wx_migSaved (k : Ctx) (r : BitVec 5) (v : Word) : (k.wx r v).migSaved = k.migSaved := by unfold Ctx.wx; split <;> rfl
@[simp] theorem Ctx.wx_wrote (k : Ctx) (r : BitVec 5) (v : Word) : (k.wx r v).wrote = k.wrote := by unfold Ctx.wx; split <;> rfl
@[simp] theorem Ctx.wx_ticket (k : Ctx) (r : BitVec 5) (v : Word) : (k.wx r v).ticket = k.ticket := by unfold Ctx.wx; split <;> rfl
@[simp] theorem Ctx.wx_reply (k : Ctx) (r : BitVec 5) (v : Word) : (k.wx r v).reply = k.reply := by unfold Ctx.wx; split <;> rfl
@[simp] theorem Ctx.wx_block (k : Ctx) (r : BitVec 5) (v : Word) : (k.wx r v).block = k.block := by unfold Ctx.wx; split <;> rfl
@[simp] theorem Ctx.wx_stopped (k : Ctx) (r : BitVec 5) (v : Word) : (k.wx r v).stopped = k.stopped := by unfold Ctx.wx; split <;> rfl
@[simp] theorem Ctx.wx_notBefore (k : Ctx) (r : BitVec 5) (v : Word) : (k.wx r v).notBefore = k.notBefore := by unfold Ctx.wx; split <;> rfl
@[simp] theorem Ctx.wx_traps (k : Ctx) (r : BitVec 5) (v : Word) : (k.wx r v).traps = k.traps := by unfold Ctx.wx; split <;> rfl
@[simp] theorem Ctx.wx_jobs (k : Ctx) (r : BitVec 5) (v : Word) : (k.wx r v).jobs = k.jobs := by unfold Ctx.wx; split <;> rfl
@[simp] theorem Ctx.wx_depth (k : Ctx) (r : BitVec 5) (v : Word) : (k.wx r v).depth = k.depth := by unfold Ctx.wx; split <;> rfl
@[simp] theorem Ctx.wx_gbarGen (k : Ctx) (r : BitVec 5) (v : Word) : (k.wx r v).gbarGen = k.gbarGen := by unfold Ctx.wx; split <;> rfl
@[simp] theorem Ctx.wx_arrived (k : Ctx) (r : BitVec 5) (v : Word) : (k.wx r v).arrived = k.arrived := by unfold Ctx.wx; split <;> rfl
@[simp] theorem Ctx.wx_sealWait (k : Ctx) (r : BitVec 5) (v : Word) : (k.wx r v).sealWait = k.sealWait := by unfold Ctx.wx; split <;> rfl
@[simp] theorem Ctx.wx_casts (k : Ctx) (r : BitVec 5) (v : Word) : (k.wx r v).casts = k.casts := by unfold Ctx.wx; split <;> rfl
@[simp] theorem Ctx.wx_migDest (k : Ctx) (r : BitVec 5) (v : Word) : (k.wx r v).migDest = k.migDest := by unfold Ctx.wx; split <;> rfl
@[simp] theorem Ctx.wx_migPc (k : Ctx) (r : BitVec 5) (v : Word) : (k.wx r v).migPc = k.migPc := by unfold Ctx.wx; split <;> rfl
@[simp] theorem Ctx.wx_red (k : Ctx) (r : BitVec 5) (v : Word) : (k.wx r v).red = k.red := by unfold Ctx.wx; split <;> rfl
@[simp] theorem Ctx.wx_log (k : Ctx) (r : BitVec 5) (v : Word) : (k.wx r v).log = k.log := by unfold Ctx.wx; split <;> rfl

/-! The copying writes change `x` (or `f`) only. -/

@[simp] theorem Ctx.wxCopy_pc (k : Ctx) (r : BitVec 5) (v : Word) : (k.wxCopy r v).pc = k.pc := by unfold Ctx.wxCopy; split <;> simp
@[simp] theorem Ctx.wfCopy_pc (k : Ctx) (r : BitVec 5) (v : Word) : (k.wfCopy r v).pc = k.pc := by unfold Ctx.wfCopy; split <;> rfl
@[simp] theorem Ctx.wfCopy_x (k : Ctx) (r : BitVec 5) (v : Word) : (k.wfCopy r v).x = k.x := by unfold Ctx.wfCopy; split <;> rfl
@[simp] theorem Ctx.wxCopy_f (k : Ctx) (r : BitVec 5) (v : Word) : (k.wxCopy r v).f = k.f := by unfold Ctx.wxCopy; split <;> simp
@[simp] theorem Ctx.wxCopy_mode (k : Ctx) (r : BitVec 5) (v : Word) : (k.wxCopy r v).mode = k.mode := by unfold Ctx.wxCopy; split <;> simp
@[simp] theorem Ctx.wfCopy_mode (k : Ctx) (r : BitVec 5) (v : Word) : (k.wfCopy r v).mode = k.mode := by unfold Ctx.wfCopy; split <;> rfl
@[simp] theorem Ctx.wxCopy_did (k : Ctx) (r : BitVec 5) (v : Word) : (k.wxCopy r v).did = k.did := by unfold Ctx.wxCopy; split <;> simp
@[simp] theorem Ctx.wfCopy_did (k : Ctx) (r : BitVec 5) (v : Word) : (k.wfCopy r v).did = k.did := by unfold Ctx.wfCopy; split <;> rfl
@[simp] theorem Ctx.wxCopy_form (k : Ctx) (r : BitVec 5) (v : Word) : (k.wxCopy r v).form = k.form := by unfold Ctx.wxCopy; split <;> simp
@[simp] theorem Ctx.wfCopy_form (k : Ctx) (r : BitVec 5) (v : Word) : (k.wfCopy r v).form = k.form := by unfold Ctx.wfCopy; split <;> rfl
@[simp] theorem Ctx.wxCopy_vl (k : Ctx) (r : BitVec 5) (v : Word) : (k.wxCopy r v).vl = k.vl := by unfold Ctx.wxCopy; split <;> simp
@[simp] theorem Ctx.wfCopy_vl (k : Ctx) (r : BitVec 5) (v : Word) : (k.wfCopy r v).vl = k.vl := by unfold Ctx.wfCopy; split <;> rfl
@[simp] theorem Ctx.wxCopy_vrows (k : Ctx) (r : BitVec 5) (v : Word) : (k.wxCopy r v).vrows = k.vrows := by unfold Ctx.wxCopy; split <;> simp
@[simp] theorem Ctx.wfCopy_vrows (k : Ctx) (r : BitVec 5) (v : Word) : (k.wfCopy r v).vrows = k.vrows := by unfold Ctx.wfCopy; split <;> rfl
@[simp] theorem Ctx.wxCopy_tr (k : Ctx) (r : BitVec 5) (v : Word) : (k.wxCopy r v).tr = k.tr := by unfold Ctx.wxCopy; split <;> simp
@[simp] theorem Ctx.wfCopy_tr (k : Ctx) (r : BitVec 5) (v : Word) : (k.wfCopy r v).tr = k.tr := by unfold Ctx.wfCopy; split <;> rfl
@[simp] theorem Ctx.wxCopy_lanes (k : Ctx) (r : BitVec 5) (v : Word) : (k.wxCopy r v).lanes = k.lanes := by unfold Ctx.wxCopy; split <;> simp
@[simp] theorem Ctx.wfCopy_lanes (k : Ctx) (r : BitVec 5) (v : Word) : (k.wfCopy r v).lanes = k.lanes := by unfold Ctx.wfCopy; split <;> rfl
@[simp] theorem Ctx.wxCopy_lg (k : Ctx) (r : BitVec 5) (v : Word) : (k.wxCopy r v).lg = k.lg := by unfold Ctx.wxCopy; split <;> simp
@[simp] theorem Ctx.wfCopy_lg (k : Ctx) (r : BitVec 5) (v : Word) : (k.wfCopy r v).lg = k.lg := by unfold Ctx.wfCopy; split <;> rfl
@[simp] theorem Ctx.wxCopy_fstat (k : Ctx) (r : BitVec 5) (v : Word) : (k.wxCopy r v).fstat = k.fstat := by unfold Ctx.wxCopy; split <;> simp
@[simp] theorem Ctx.wfCopy_fstat (k : Ctx) (r : BitVec 5) (v : Word) : (k.wfCopy r v).fstat = k.fstat := by unfold Ctx.wfCopy; split <;> rfl
@[simp] theorem Ctx.wxCopy_cycleOff (k : Ctx) (r : BitVec 5) (v : Word) : (k.wxCopy r v).cycleOff = k.cycleOff := by unfold Ctx.wxCopy; split <;> simp
@[simp] theorem Ctx.wfCopy_cycleOff (k : Ctx) (r : BitVec 5) (v : Word) : (k.wfCopy r v).cycleOff = k.cycleOff := by unfold Ctx.wfCopy; split <;> rfl
@[simp] theorem Ctx.wxCopy_swOut (k : Ctx) (r : BitVec 5) (v : Word) : (k.wxCopy r v).swOut = k.swOut := by unfold Ctx.wxCopy; split <;> simp
@[simp] theorem Ctx.wfCopy_swOut (k : Ctx) (r : BitVec 5) (v : Word) : (k.wfCopy r v).swOut = k.swOut := by unfold Ctx.wfCopy; split <;> rfl
@[simp] theorem Ctx.wxCopy_gang (k : Ctx) (r : BitVec 5) (v : Word) : (k.wxCopy r v).gang = k.gang := by unfold Ctx.wxCopy; split <;> simp
@[simp] theorem Ctx.wfCopy_gang (k : Ctx) (r : BitVec 5) (v : Word) : (k.wfCopy r v).gang = k.gang := by unfold Ctx.wfCopy; split <;> rfl
@[simp] theorem Ctx.wxCopy_rank (k : Ctx) (r : BitVec 5) (v : Word) : (k.wxCopy r v).rank = k.rank := by unfold Ctx.wxCopy; split <;> simp
@[simp] theorem Ctx.wfCopy_rank (k : Ctx) (r : BitVec 5) (v : Word) : (k.wfCopy r v).rank = k.rank := by unfold Ctx.wfCopy; split <;> rfl
@[simp] theorem Ctx.wxCopy_sb (k : Ctx) (r : BitVec 5) (v : Word) : (k.wxCopy r v).sb = k.sb := by unfold Ctx.wxCopy; split <;> simp
@[simp] theorem Ctx.wfCopy_sb (k : Ctx) (r : BitVec 5) (v : Word) : (k.wfCopy r v).sb = k.sb := by unfold Ctx.wfCopy; split <;> rfl
@[simp] theorem Ctx.wxCopy_hb (k : Ctx) (r : BitVec 5) (v : Word) : (k.wxCopy r v).hb = k.hb := by unfold Ctx.wxCopy; split <;> simp
@[simp] theorem Ctx.wfCopy_hb (k : Ctx) (r : BitVec 5) (v : Word) : (k.wfCopy r v).hb = k.hb := by unfold Ctx.wfCopy; split <;> rfl
@[simp] theorem Ctx.wxCopy_mb (k : Ctx) (r : BitVec 5) (v : Word) : (k.wxCopy r v).mb = k.mb := by unfold Ctx.wxCopy; split <;> simp
@[simp] theorem Ctx.wfCopy_mb (k : Ctx) (r : BitVec 5) (v : Word) : (k.wfCopy r v).mb = k.mb := by unfold Ctx.wfCopy; split <;> rfl
@[simp] theorem Ctx.wxCopy_stealdom (k : Ctx) (r : BitVec 5) (v : Word) : (k.wxCopy r v).stealdom = k.stealdom := by unfold Ctx.wxCopy; split <;> simp
@[simp] theorem Ctx.wfCopy_stealdom (k : Ctx) (r : BitVec 5) (v : Word) : (k.wfCopy r v).stealdom = k.stealdom := by unfold Ctx.wfCopy; split <;> rfl
@[simp] theorem Ctx.wxCopy_tsave (k : Ctx) (r : BitVec 5) (v : Word) : (k.wxCopy r v).tsave = k.tsave := by unfold Ctx.wxCopy; split <;> simp
@[simp] theorem Ctx.wfCopy_tsave (k : Ctx) (r : BitVec 5) (v : Word) : (k.wfCopy r v).tsave = k.tsave := by unfold Ctx.wfCopy; split <;> rfl
@[simp] theorem Ctx.wxCopy_vsavea (k : Ctx) (r : BitVec 5) (v : Word) : (k.wxCopy r v).vsavea = k.vsavea := by unfold Ctx.wxCopy; split <;> simp
@[simp] theorem Ctx.wfCopy_vsavea (k : Ctx) (r : BitVec 5) (v : Word) : (k.wfCopy r v).vsavea = k.vsavea := by unfold Ctx.wfCopy; split <;> rfl
@[simp] theorem Ctx.wxCopy_sptb (k : Ctx) (r : BitVec 5) (v : Word) : (k.wxCopy r v).sptb = k.sptb := by unfold Ctx.wxCopy; split <;> simp
@[simp] theorem Ctx.wfCopy_sptb (k : Ctx) (r : BitVec 5) (v : Word) : (k.wfCopy r v).sptb = k.sptb := by unfold Ctx.wfCopy; split <;> rfl
@[simp] theorem Ctx.wxCopy_hptb (k : Ctx) (r : BitVec 5) (v : Word) : (k.wxCopy r v).hptb = k.hptb := by unfold Ctx.wxCopy; split <;> simp
@[simp] theorem Ctx.wfCopy_hptb (k : Ctx) (r : BitVec 5) (v : Word) : (k.wfCopy r v).hptb = k.hptb := by unfold Ctx.wfCopy; split <;> rfl
@[simp] theorem Ctx.wxCopy_v (k : Ctx) (r : BitVec 5) (v : Word) : (k.wxCopy r v).v = k.v := by unfold Ctx.wxCopy; split <;> simp
@[simp] theorem Ctx.wfCopy_v (k : Ctx) (r : BitVec 5) (v : Word) : (k.wfCopy r v).v = k.v := by unfold Ctx.wfCopy; split <;> rfl
@[simp] theorem Ctx.wxCopy_m (k : Ctx) (r : BitVec 5) (v : Word) : (k.wxCopy r v).m = k.m := by unfold Ctx.wxCopy; split <;> simp
@[simp] theorem Ctx.wfCopy_m (k : Ctx) (r : BitVec 5) (v : Word) : (k.wfCopy r v).m = k.m := by unfold Ctx.wfCopy; split <;> rfl
@[simp] theorem Ctx.wxCopy_missing (k : Ctx) (r : BitVec 5) (v : Word) : (k.wxCopy r v).missing = k.missing := by unfold Ctx.wxCopy; split <;> simp
@[simp] theorem Ctx.wfCopy_missing (k : Ctx) (r : BitVec 5) (v : Word) : (k.wfCopy r v).missing = k.missing := by unfold Ctx.wfCopy; split <;> rfl
@[simp] theorem Ctx.wxCopy_dirty (k : Ctx) (r : BitVec 5) (v : Word) : (k.wxCopy r v).dirty = k.dirty := by unfold Ctx.wxCopy; split <;> simp
@[simp] theorem Ctx.wfCopy_dirty (k : Ctx) (r : BitVec 5) (v : Word) : (k.wfCopy r v).dirty = k.dirty := by unfold Ctx.wfCopy; split <;> rfl
@[simp] theorem Ctx.wxCopy_latch (k : Ctx) (r : BitVec 5) (v : Word) : (k.wxCopy r v).latch = k.latch := by unfold Ctx.wxCopy; split <;> simp
@[simp] theorem Ctx.wfCopy_latch (k : Ctx) (r : BitVec 5) (v : Word) : (k.wfCopy r v).latch = k.latch := by unfold Ctx.wfCopy; split <;> rfl
@[simp] theorem Ctx.wxCopy_vq (k : Ctx) (r : BitVec 5) (v : Word) : (k.wxCopy r v).vq = k.vq := by unfold Ctx.wxCopy; split <;> simp
@[simp] theorem Ctx.wfCopy_vq (k : Ctx) (r : BitVec 5) (v : Word) : (k.wfCopy r v).vq = k.vq := by unfold Ctx.wfCopy; split <;> rfl
@[simp] theorem Ctx.wxCopy_vchk (k : Ctx) (r : BitVec 5) (v : Word) : (k.wxCopy r v).vchk = k.vchk := by unfold Ctx.wxCopy; split <;> simp
@[simp] theorem Ctx.wfCopy_vchk (k : Ctx) (r : BitVec 5) (v : Word) : (k.wfCopy r v).vchk = k.vchk := by unfold Ctx.wfCopy; split <;> rfl
@[simp] theorem Ctx.wxCopy_streams (k : Ctx) (r : BitVec 5) (v : Word) : (k.wxCopy r v).streams = k.streams := by unfold Ctx.wxCopy; split <;> simp
@[simp] theorem Ctx.wfCopy_streams (k : Ctx) (r : BitVec 5) (v : Word) : (k.wfCopy r v).streams = k.streams := by unfold Ctx.wfCopy; split <;> rfl
@[simp] theorem Ctx.wxCopy_mailbox (k : Ctx) (r : BitVec 5) (v : Word) : (k.wxCopy r v).mailbox = k.mailbox := by unfold Ctx.wxCopy; split <;> simp
@[simp] theorem Ctx.wfCopy_mailbox (k : Ctx) (r : BitVec 5) (v : Word) : (k.wfCopy r v).mailbox = k.mailbox := by unfold Ctx.wfCopy; split <;> rfl
@[simp] theorem Ctx.wxCopy_spawn (k : Ctx) (r : BitVec 5) (v : Word) : (k.wxCopy r v).spawn = k.spawn := by unfold Ctx.wxCopy; split <;> simp
@[simp] theorem Ctx.wfCopy_spawn (k : Ctx) (r : BitVec 5) (v : Word) : (k.wfCopy r v).spawn = k.spawn := by unfold Ctx.wfCopy; split <;> rfl
@[simp] theorem Ctx.wxCopy_spawnq (k : Ctx) (r : BitVec 5) (v : Word) : (k.wxCopy r v).spawnq = k.spawnq := by unfold Ctx.wxCopy; split <;> simp
@[simp] theorem Ctx.wfCopy_spawnq (k : Ctx) (r : BitVec 5) (v : Word) : (k.wfCopy r v).spawnq = k.spawnq := by unfold Ctx.wfCopy; split <;> rfl
@[simp] theorem Ctx.wxCopy_wake (k : Ctx) (r : BitVec 5) (v : Word) : (k.wxCopy r v).wake = k.wake := by unfold Ctx.wxCopy; split <;> simp
@[simp] theorem Ctx.wfCopy_wake (k : Ctx) (r : BitVec 5) (v : Word) : (k.wfCopy r v).wake = k.wake := by unfold Ctx.wfCopy; split <;> rfl
@[simp] theorem Ctx.wxCopy_regw (k : Ctx) (r : BitVec 5) (v : Word) : (k.wxCopy r v).regw = k.regw := by unfold Ctx.wxCopy; split <;> simp
@[simp] theorem Ctx.wfCopy_regw (k : Ctx) (r : BitVec 5) (v : Word) : (k.wfCopy r v).regw = k.regw := by unfold Ctx.wfCopy; split <;> rfl
@[simp] theorem Ctx.wxCopy_missed (k : Ctx) (r : BitVec 5) (v : Word) : (k.wxCopy r v).missed = k.missed := by unfold Ctx.wxCopy; split <;> simp
@[simp] theorem Ctx.wfCopy_missed (k : Ctx) (r : BitVec 5) (v : Word) : (k.wfCopy r v).missed = k.missed := by unfold Ctx.wfCopy; split <;> rfl
@[simp] theorem Ctx.wxCopy_resv (k : Ctx) (r : BitVec 5) (v : Word) : (k.wxCopy r v).resv = k.resv := by unfold Ctx.wxCopy; split <;> simp
@[simp] theorem Ctx.wfCopy_resv (k : Ctx) (r : BitVec 5) (v : Word) : (k.wfCopy r v).resv = k.resv := by unfold Ctx.wfCopy; split <;> rfl
@[simp] theorem Ctx.wxCopy_pfx (k : Ctx) (r : BitVec 5) (v : Word) : (k.wxCopy r v).pfx = k.pfx := by unfold Ctx.wxCopy; split <;> simp
@[simp] theorem Ctx.wfCopy_pfx (k : Ctx) (r : BitVec 5) (v : Word) : (k.wfCopy r v).pfx = k.pfx := by unfold Ctx.wfCopy; split <;> rfl
@[simp] theorem Ctx.wxCopy_pendMc (k : Ctx) (r : BitVec 5) (v : Word) : (k.wxCopy r v).pendMc = k.pendMc := by unfold Ctx.wxCopy; split <;> simp
@[simp] theorem Ctx.wfCopy_pendMc (k : Ctx) (r : BitVec 5) (v : Word) : (k.wfCopy r v).pendMc = k.pendMc := by unfold Ctx.wfCopy; split <;> rfl
@[simp] theorem Ctx.wxCopy_pendStop (k : Ctx) (r : BitVec 5) (v : Word) : (k.wxCopy r v).pendStop = k.pendStop := by unfold Ctx.wxCopy; split <;> simp
@[simp] theorem Ctx.wfCopy_pendStop (k : Ctx) (r : BitVec 5) (v : Word) : (k.wfCopy r v).pendStop = k.pendStop := by unfold Ctx.wfCopy; split <;> rfl
@[simp] theorem Ctx.wxCopy_pendLane (k : Ctx) (r : BitVec 5) (v : Word) : (k.wxCopy r v).pendLane = k.pendLane := by unfold Ctx.wxCopy; split <;> simp
@[simp] theorem Ctx.wfCopy_pendLane (k : Ctx) (r : BitVec 5) (v : Word) : (k.wfCopy r v).pendLane = k.pendLane := by unfold Ctx.wfCopy; split <;> rfl
@[simp] theorem Ctx.wxCopy_run (k : Ctx) (r : BitVec 5) (v : Word) : (k.wxCopy r v).run = k.run := by unfold Ctx.wxCopy; split <;> simp
@[simp] theorem Ctx.wfCopy_run (k : Ctx) (r : BitVec 5) (v : Word) : (k.wfCopy r v).run = k.run := by unfold Ctx.wfCopy; split <;> rfl
@[simp] theorem Ctx.wxCopy_wait (k : Ctx) (r : BitVec 5) (v : Word) : (k.wxCopy r v).wait = k.wait := by unfold Ctx.wxCopy; split <;> simp
@[simp] theorem Ctx.wfCopy_wait (k : Ctx) (r : BitVec 5) (v : Word) : (k.wfCopy r v).wait = k.wait := by unfold Ctx.wfCopy; split <;> rfl
@[simp] theorem Ctx.wxCopy_bounded (k : Ctx) (r : BitVec 5) (v : Word) : (k.wxCopy r v).bounded = k.bounded := by unfold Ctx.wxCopy; split <;> simp
@[simp] theorem Ctx.wfCopy_bounded (k : Ctx) (r : BitVec 5) (v : Word) : (k.wfCopy r v).bounded = k.bounded := by unfold Ctx.wfCopy; split <;> rfl
@[simp] theorem Ctx.wxCopy_seen (k : Ctx) (r : BitVec 5) (v : Word) : (k.wxCopy r v).seen = k.seen := by unfold Ctx.wxCopy; split <;> simp
@[simp] theorem Ctx.wfCopy_seen (k : Ctx) (r : BitVec 5) (v : Word) : (k.wfCopy r v).seen = k.seen := by unfold Ctx.wfCopy; split <;> rfl
@[simp] theorem Ctx.wxCopy_pub (k : Ctx) (r : BitVec 5) (v : Word) : (k.wxCopy r v).pub = k.pub := by unfold Ctx.wxCopy; split <;> simp
@[simp] theorem Ctx.wxCopy_acq (k : Ctx) (r : BitVec 5) (v : Word) : (k.wxCopy r v).acq = k.acq := by unfold Ctx.wxCopy; split <;> simp
@[simp] theorem Ctx.wxCopy_sent (k : Ctx) (r : BitVec 5) (v : Word) : (k.wxCopy r v).sent = k.sent := by unfold Ctx.wxCopy; split <;> simp
@[simp] theorem Ctx.wxCopy_rel (k : Ctx) (r : BitVec 5) (v : Word) : (k.wxCopy r v).rel = k.rel := by unfold Ctx.wxCopy; split <;> simp
@[simp] theorem Ctx.wxCopy_walked (k : Ctx) (r : BitVec 5) (v : Word) : (k.wxCopy r v).walked = k.walked := by unfold Ctx.wxCopy; split <;> simp
@[simp] theorem Ctx.wxCopy_passed (k : Ctx) (r : BitVec 5) (v : Word) : (k.wxCopy r v).passed = k.passed := by unfold Ctx.wxCopy; split <;> simp
@[simp] theorem Ctx.wxCopy_fetched (k : Ctx) (r : BitVec 5) (v : Word) : (k.wxCopy r v).fetched = k.fetched := by unfold Ctx.wxCopy; split <;> simp
@[simp] theorem Ctx.wxCopy_castSrc (k : Ctx) (r : BitVec 5) (v : Word) : (k.wxCopy r v).castSrc = k.castSrc := by unfold Ctx.wxCopy; split <;> simp
@[simp] theorem Ctx.wxCopy_migSaved (k : Ctx) (r : BitVec 5) (v : Word) : (k.wxCopy r v).migSaved = k.migSaved := by unfold Ctx.wxCopy; split <;> simp
@[simp] theorem Ctx.wfCopy_pub (k : Ctx) (r : BitVec 5) (v : Word) : (k.wfCopy r v).pub = k.pub := by unfold Ctx.wfCopy; split <;> rfl
@[simp] theorem Ctx.wfCopy_acq (k : Ctx) (r : BitVec 5) (v : Word) : (k.wfCopy r v).acq = k.acq := by unfold Ctx.wfCopy; split <;> rfl
@[simp] theorem Ctx.wfCopy_sent (k : Ctx) (r : BitVec 5) (v : Word) : (k.wfCopy r v).sent = k.sent := by unfold Ctx.wfCopy; split <;> rfl
@[simp] theorem Ctx.wfCopy_rel (k : Ctx) (r : BitVec 5) (v : Word) : (k.wfCopy r v).rel = k.rel := by unfold Ctx.wfCopy; split <;> rfl
@[simp] theorem Ctx.wfCopy_walked (k : Ctx) (r : BitVec 5) (v : Word) : (k.wfCopy r v).walked = k.walked := by unfold Ctx.wfCopy; split <;> rfl
@[simp] theorem Ctx.wfCopy_passed (k : Ctx) (r : BitVec 5) (v : Word) : (k.wfCopy r v).passed = k.passed := by unfold Ctx.wfCopy; split <;> rfl
@[simp] theorem Ctx.wfCopy_fetched (k : Ctx) (r : BitVec 5) (v : Word) : (k.wfCopy r v).fetched = k.fetched := by unfold Ctx.wfCopy; split <;> rfl
@[simp] theorem Ctx.wfCopy_castSrc (k : Ctx) (r : BitVec 5) (v : Word) : (k.wfCopy r v).castSrc = k.castSrc := by unfold Ctx.wfCopy; split <;> rfl
@[simp] theorem Ctx.wfCopy_migSaved (k : Ctx) (r : BitVec 5) (v : Word) : (k.wfCopy r v).migSaved = k.migSaved := by unfold Ctx.wfCopy; split <;> rfl
@[simp] theorem Ctx.wxCopy_wrote (k : Ctx) (r : BitVec 5) (v : Word) : (k.wxCopy r v).wrote = k.wrote := by unfold Ctx.wxCopy; split <;> simp
@[simp] theorem Ctx.wfCopy_wrote (k : Ctx) (r : BitVec 5) (v : Word) : (k.wfCopy r v).wrote = k.wrote := by unfold Ctx.wfCopy; split <;> rfl
@[simp] theorem Ctx.wxCopy_ticket (k : Ctx) (r : BitVec 5) (v : Word) : (k.wxCopy r v).ticket = k.ticket := by unfold Ctx.wxCopy; split <;> simp
@[simp] theorem Ctx.wfCopy_ticket (k : Ctx) (r : BitVec 5) (v : Word) : (k.wfCopy r v).ticket = k.ticket := by unfold Ctx.wfCopy; split <;> rfl
@[simp] theorem Ctx.wxCopy_reply (k : Ctx) (r : BitVec 5) (v : Word) : (k.wxCopy r v).reply = k.reply := by unfold Ctx.wxCopy; split <;> simp
@[simp] theorem Ctx.wfCopy_reply (k : Ctx) (r : BitVec 5) (v : Word) : (k.wfCopy r v).reply = k.reply := by unfold Ctx.wfCopy; split <;> rfl
@[simp] theorem Ctx.wxCopy_block (k : Ctx) (r : BitVec 5) (v : Word) : (k.wxCopy r v).block = k.block := by unfold Ctx.wxCopy; split <;> simp
@[simp] theorem Ctx.wfCopy_block (k : Ctx) (r : BitVec 5) (v : Word) : (k.wfCopy r v).block = k.block := by unfold Ctx.wfCopy; split <;> rfl
@[simp] theorem Ctx.wxCopy_stopped (k : Ctx) (r : BitVec 5) (v : Word) : (k.wxCopy r v).stopped = k.stopped := by unfold Ctx.wxCopy; split <;> simp
@[simp] theorem Ctx.wfCopy_stopped (k : Ctx) (r : BitVec 5) (v : Word) : (k.wfCopy r v).stopped = k.stopped := by unfold Ctx.wfCopy; split <;> rfl
@[simp] theorem Ctx.wxCopy_notBefore (k : Ctx) (r : BitVec 5) (v : Word) : (k.wxCopy r v).notBefore = k.notBefore := by unfold Ctx.wxCopy; split <;> simp
@[simp] theorem Ctx.wfCopy_notBefore (k : Ctx) (r : BitVec 5) (v : Word) : (k.wfCopy r v).notBefore = k.notBefore := by unfold Ctx.wfCopy; split <;> rfl
@[simp] theorem Ctx.wxCopy_traps (k : Ctx) (r : BitVec 5) (v : Word) : (k.wxCopy r v).traps = k.traps := by unfold Ctx.wxCopy; split <;> simp
@[simp] theorem Ctx.wfCopy_traps (k : Ctx) (r : BitVec 5) (v : Word) : (k.wfCopy r v).traps = k.traps := by unfold Ctx.wfCopy; split <;> rfl
@[simp] theorem Ctx.wxCopy_jobs (k : Ctx) (r : BitVec 5) (v : Word) : (k.wxCopy r v).jobs = k.jobs := by unfold Ctx.wxCopy; split <;> simp
@[simp] theorem Ctx.wfCopy_jobs (k : Ctx) (r : BitVec 5) (v : Word) : (k.wfCopy r v).jobs = k.jobs := by unfold Ctx.wfCopy; split <;> rfl
@[simp] theorem Ctx.wxCopy_depth (k : Ctx) (r : BitVec 5) (v : Word) : (k.wxCopy r v).depth = k.depth := by unfold Ctx.wxCopy; split <;> simp
@[simp] theorem Ctx.wfCopy_depth (k : Ctx) (r : BitVec 5) (v : Word) : (k.wfCopy r v).depth = k.depth := by unfold Ctx.wfCopy; split <;> rfl
@[simp] theorem Ctx.wxCopy_gbarGen (k : Ctx) (r : BitVec 5) (v : Word) : (k.wxCopy r v).gbarGen = k.gbarGen := by unfold Ctx.wxCopy; split <;> simp
@[simp] theorem Ctx.wfCopy_gbarGen (k : Ctx) (r : BitVec 5) (v : Word) : (k.wfCopy r v).gbarGen = k.gbarGen := by unfold Ctx.wfCopy; split <;> rfl
@[simp] theorem Ctx.wxCopy_arrived (k : Ctx) (r : BitVec 5) (v : Word) : (k.wxCopy r v).arrived = k.arrived := by unfold Ctx.wxCopy; split <;> simp
@[simp] theorem Ctx.wfCopy_arrived (k : Ctx) (r : BitVec 5) (v : Word) : (k.wfCopy r v).arrived = k.arrived := by unfold Ctx.wfCopy; split <;> rfl
@[simp] theorem Ctx.wxCopy_sealWait (k : Ctx) (r : BitVec 5) (v : Word) : (k.wxCopy r v).sealWait = k.sealWait := by unfold Ctx.wxCopy; split <;> simp
@[simp] theorem Ctx.wfCopy_sealWait (k : Ctx) (r : BitVec 5) (v : Word) : (k.wfCopy r v).sealWait = k.sealWait := by unfold Ctx.wfCopy; split <;> rfl
@[simp] theorem Ctx.wxCopy_casts (k : Ctx) (r : BitVec 5) (v : Word) : (k.wxCopy r v).casts = k.casts := by unfold Ctx.wxCopy; split <;> simp
@[simp] theorem Ctx.wfCopy_casts (k : Ctx) (r : BitVec 5) (v : Word) : (k.wfCopy r v).casts = k.casts := by unfold Ctx.wfCopy; split <;> rfl
@[simp] theorem Ctx.wxCopy_migDest (k : Ctx) (r : BitVec 5) (v : Word) : (k.wxCopy r v).migDest = k.migDest := by unfold Ctx.wxCopy; split <;> simp
@[simp] theorem Ctx.wfCopy_migDest (k : Ctx) (r : BitVec 5) (v : Word) : (k.wfCopy r v).migDest = k.migDest := by unfold Ctx.wfCopy; split <;> rfl
@[simp] theorem Ctx.wxCopy_migPc (k : Ctx) (r : BitVec 5) (v : Word) : (k.wxCopy r v).migPc = k.migPc := by unfold Ctx.wxCopy; split <;> simp
@[simp] theorem Ctx.wfCopy_migPc (k : Ctx) (r : BitVec 5) (v : Word) : (k.wfCopy r v).migPc = k.migPc := by unfold Ctx.wfCopy; split <;> rfl
@[simp] theorem Ctx.wxCopy_red (k : Ctx) (r : BitVec 5) (v : Word) : (k.wxCopy r v).red = k.red := by unfold Ctx.wxCopy; split <;> simp
@[simp] theorem Ctx.wfCopy_red (k : Ctx) (r : BitVec 5) (v : Word) : (k.wfCopy r v).red = k.red := by unfold Ctx.wfCopy; split <;> rfl
@[simp] theorem Ctx.wxCopy_log (k : Ctx) (r : BitVec 5) (v : Word) : (k.wxCopy r v).log = k.log := by unfold Ctx.wxCopy; split <;> simp
@[simp] theorem Ctx.wfCopy_log (k : Ctx) (r : BitVec 5) (v : Word) : (k.wfCopy r v).log = k.log := by unfold Ctx.wfCopy; split <;> rfl

/-! Tables: reading after writing. -/

theorem Tbl.find?_set_same {α : Type} (t : Tbl α) (n : Nat) (v : α) : Tbl.find? (Tbl.set t n v) n = some v := by
  induction t with
  | nil => simp [Tbl.set, Tbl.find?]
  | cons e t ih => obtain ⟨k, w⟩ := e; by_cases h : k = n <;> simp [Tbl.set, Tbl.find?, h, ih]

theorem Tbl.find?_set_other {α : Type} (t : Tbl α) (n m : Nat) (v : α) (h : m ≠ n) :
    Tbl.find? (Tbl.set t n v) m = Tbl.find? t m := by
  induction t with
  | nil => simp [Tbl.set, Tbl.find?, Ne.symm h]
  | cons e t ih =>
    obtain ⟨k, w⟩ := e
    by_cases hk : k = n
    · subst hk; simp [Tbl.set, Tbl.find?, Ne.symm h]
    · simp only [Tbl.set, hk, if_false, Tbl.find?, ih]

@[simp] theorem Tbl.getD_set_same {α : Type} (t : Tbl α) (n : Nat) (v d : α) : Tbl.getD (Tbl.set t n v) n d = v := by
  simp [Tbl.getD, Tbl.find?_set_same]

@[simp] theorem Tbl.getD_set_other {α : Type} (t : Tbl α) (n m : Nat) (v d : α) (h : m ≠ n) :
    Tbl.getD (Tbl.set t n v) m d = Tbl.getD t m d := by
  simp [Tbl.getD, Tbl.find?_set_other t n m v h]

/-! Contexts, cores and dies after an update of one of them. -/

@[simp] theorem State.setCtx_ctx_same (s : State) (c : CtxId) (k : Ctx) : (s.setCtx c k).ctx c = k := by
  simp [State.setCtx, State.ctx]

@[simp] theorem State.setCtx_ctx_other (s : State) (c q : CtxId) (k : Ctx) (h : q ≠ c) :
    (s.setCtx c k).ctx q = s.ctx q := by
  simp [State.setCtx, State.ctx, h]

@[simp] theorem State.modCtx_ctx_same (s : State) (c : CtxId) (g : Ctx → Ctx) : (s.modCtx c g).ctx c = g (s.ctx c) := by
  simp [State.modCtx]

@[simp] theorem State.modCtx_ctx_other (s : State) (c q : CtxId) (g : Ctx → Ctx) (h : q ≠ c) :
    (s.modCtx c g).ctx q = s.ctx q := by
  simp [State.modCtx, h]

@[simp] theorem State.setCore_core_same (s : State) (n : CoreId) (k : Core) : (s.setCore n k).core n = k := by
  simp [State.setCore, State.core]

@[simp] theorem State.setCore_core_other (s : State) (n q : CoreId) (k : Core) (h : q ≠ n) :
    (s.setCore n k).core q = s.core q := by
  simp [State.setCore, State.core, h]

@[simp] theorem State.modCore_core_same (s : State) (n : CoreId) (g : Core → Core) :
    (s.modCore n g).core n = g (s.core n) := by
  simp [State.modCore]

@[simp] theorem State.modCore_core_other (s : State) (n q : CoreId) (g : Core → Core) (h : q ≠ n) :
    (s.modCore n g).core q = s.core q := by
  simp [State.modCore, h]

@[simp] theorem State.setDie_die_same (s : State) (d : Nat) (k : Die) : (s.setDie d k).die d = k := by
  simp [State.setDie, State.die]

@[simp] theorem State.setDie_die_other (s : State) (d q : Nat) (k : Die) (h : q ≠ d) : (s.setDie d k).die q = s.die q := by
  simp [State.setDie, State.die, h]

@[simp] theorem State.modDie_die_same (s : State) (d : Nat) (g : Die → Die) : (s.modDie d g).die d = g (s.die d) := by
  simp [State.modDie]

@[simp] theorem State.modDie_die_other (s : State) (d q : Nat) (g : Die → Die) (h : q ≠ d) :
    (s.modDie d g).die q = s.die q := by
  simp [State.modDie, h]

end Sys2Proof.Machine
end

