-- ==== Sys2Proof/Laws/Perform.lean ====
section
/-! SUPPORT. What accesses leave (R131, R337, R342, R353, R356, R500): of every context all but its reservation, a pending
machine check, what it has seen and published, and its place at the ports, said once for each operation that an access goes
through. -/

namespace Sys2Proof.Machine

/-- A context with the reservation, the pending machine check, what it has seen and published, and the place at the ports of
another. -/
def Ctx.accessOf (k k' : Ctx) : Ctx :=
  { k with resv := k'.resv, pendMc := k'.pendMc, seen := k'.seen, acq := k'.acq, pub := k'.pub, sent := k'.sent,
           rel := k'.rel, ticket := k'.ticket, reply := k'.reply }

/-- Of a context all else is kept. -/
def Ctx.Kept (k k' : Ctx) : Prop := k' = k.accessOf k'

/-- Between two states every context is kept so. -/
def State.CtxKept (s t : State) : Prop := ∀ q, (s.ctx q).Kept (t.ctx q)

theorem Ctx.Kept.refl (k : Ctx) : k.Kept k := rfl

theorem State.CtxKept.refl (s : State) : s.CtxKept s := fun q => Ctx.Kept.refl (s.ctx q)

theorem Ctx.Kept.trans {a b e : Ctx} (h : a.Kept b) (h' : b.Kept e) : a.Kept e :=
  have through : b.accessOf e = (a.accessOf b).accessOf e := congrArg (fun k : Ctx => k.accessOf e) h
  Eq.trans h' through

theorem State.CtxKept.trans {s t u : State} (h : s.CtxKept t) (h' : t.CtxKept u) : s.CtxKept u := fun q => (h q).trans (h' q)

/-- A change of one context that keeps it keeps all. -/
theorem State.CtxKept.of_modCtx {s : State} {c : CtxId} {g : Ctx → Ctx} (h : (s.ctx c).Kept (g (s.ctx c))) :
    s.CtxKept (s.modCtx c g) := fun q => by
  by_cases same : q = c
  · subst same; rw [State.modCtx_ctx_same]; exact h
  · rw [State.modCtx_ctx_other s c q g same]; exact Ctx.Kept.refl _

/-- An operation that leaves the table of contexts alone keeps them. -/
theorem State.CtxKept.of_ctxs {s t : State} (h : t.ctxs = s.ctxs) : s.CtxKept t := fun q => by
  rw [show t.ctx q = s.ctx q by simp [State.ctx, h]]; exact Ctx.Kept.refl _

/-- A loop keeps what every round keeps. -/
theorem State.CtxKept.foldl {α : Type} {f : State → α → State} (h : ∀ (s : State) (a : α), s.CtxKept (f s a)) (l : List α)
    (s : State) : s.CtxKept (l.foldl f s) := by
  induction l generalizing s with
  | nil => exact State.CtxKept.refl s
  | cons a t ih => exact (h s a).trans (ih (f s a))

/-- An entry of a table whose values a map has changed. -/
theorem Tbl.find?_map {α : Type} (g : α → α) (t : Tbl α) (n : Nat) :
    Tbl.find? (t.map fun e => (e.1, g e.2) : Tbl α) n = (Tbl.find? t n).map g := by
  induction t with
  | nil => rfl
  | cons e t ih =>
    rw [List.map_cons]
    by_cases here : e.1 = n
    · rw [Tbl.find?.eq_2, Tbl.find?.eq_2, if_pos here, if_pos here]; rfl
    · rw [Tbl.find?.eq_2, Tbl.find?.eq_2, if_neg here, if_neg here, ih]

theorem Ctx.offLine_kept (k : Ctx) (line : Nat) : k.Kept (k.offLine line) := by
  unfold Ctx.offLine
  split
  · split <;> rfl
  · rfl

theorem State.clearResv_kept (s : State) (line : Nat) : s.CtxKept (s.clearResv line) := by
  intro q
  have entry := Tbl.find?_map (fun k : Ctx => k.offLine line) s.ctxs q
  simp only [State.ctx, Tbl.getD, State.clearResv, entry]
  cases Tbl.find? s.ctxs q with
  | none => exact Ctx.Kept.refl _
  | some k => exact Ctx.offLine_kept k line

theorem State.raiseMc_kept (s : State) (c : CtxId) (v : Word) : s.CtxKept (s.raiseMc c v) :=
  State.CtxKept.of_modCtx rfl

theorem State.logLineError_kept (s : State) (die ctx line : Nat) : s.CtxKept (s.logLineError die ctx line) :=
  State.CtxKept.of_ctxs (by simp only [State.logLineError, State.logError]; split <;> rfl)

theorem State.mergeError_kept (s : State) (w : Writer) (line : Nat) : s.CtxKept (s.mergeError w line) := by
  by_cases bad : line ∈ s.errLines ∨ (s.sramBad line).isSome = true
  · rw [State.mergeError, if_pos bad]
    have clean (m : Memory) : s.CtxKept { s with mem := m } := State.CtxKept.of_ctxs rfl
    have fresh (t : State) : t.CtxKept (t.freshLine line) := State.CtxKept.of_ctxs rfl
    have logged := fun m d n => ((clean m).trans (State.logLineError_kept _ d n line)).trans (fresh _)
    cases w.ctx with
    | none => exact logged _ _ _
    | some c => exact (logged _ _ _).trans (State.raiseMc_kept _ c _)
  · rw [State.mergeError, if_neg bad]
    exact State.CtxKept.refl s

theorem State.dropCopies_kept (s : State) (k : Option CoreId) (line : Nat) : s.CtxKept (s.dropCopies k line) :=
  State.CtxKept.of_ctxs rfl

theorem State.touchLine_kept (s : State) (w : Writer) (sh : Bool) (did : BitVec 7) (line : Nat) :
    s.CtxKept (s.touchLine w sh did line) :=
  (State.clearResv_kept s line).trans (State.CtxKept.of_ctxs rfl)

/-- A write that is performed at its home keeps every context but its reservation and pending machine check. -/
theorem State.performHome_kept (s : State) (w : Writer) (addr : Nat) (bytes : List Byte) (sh : Bool) (did : BitVec 7) :
    s.CtxKept (s.performHome w addr bytes sh did) := by
  have errors := State.CtxKept.foldl (fun (t : State) l => State.mergeError_kept t w l) (linesOf addr bytes.length) s
  have bytesOnly (t : State) (m : Memory) : t.CtxKept { t with mem := m } := State.CtxKept.of_ctxs rfl
  refine (errors.trans (bytesOnly _ _)).trans (State.CtxKept.foldl (fun t l => ?_) _ _)
  exact (State.touchLine_kept t w sh did l).trans (State.dropCopies_kept _ _ l)

theorem State.grant_kept (s : State) (die line : Nat) : s.CtxKept (s.grant die line) := State.CtxKept.of_ctxs rfl

theorem State.serveMisses_kept (s : State) (line : Nat) : s.CtxKept (s.serveMisses line) := by
  by_cases waits : s.writeWaits line = true
  · rw [State.serveMisses, if_pos waits]; exact State.CtxKept.refl s
  · rw [State.serveMisses, if_neg waits]
    have served (m : List (Nat × Nat)) : s.CtxKept { s with misses := m } := State.CtxKept.of_ctxs rfl
    exact (served _).trans (State.CtxKept.foldl (fun t (m : Nat × Nat) => State.grant_kept t m.2 line) _ _)

theorem State.endPend_kept (s : State) (p : PWrite) : s.CtxKept (s.endPend p) :=
  State.CtxKept.trans (State.CtxKept.of_ctxs rfl) (State.CtxKept.foldl State.serveMisses_kept _ _)

theorem State.performPend_kept (s : State) (p : PWrite) : s.CtxKept (s.performPend p) :=
  (State.performHome_kept s _ _ _ _ _).trans (State.endPend_kept _ p)

theorem State.sendFrom_kept (s : State) (die : Nat) (ls : List Nat) : s.CtxKept (s.sendFrom die ls) := by
  refine State.CtxKept.foldl (fun t l => ?_) ls s
  split
  · exact State.CtxKept.refl t
  · exact State.CtxKept.of_ctxs rfl

theorem State.waitHome_kept (s : State) (p : PWrite) : s.CtxKept (s.waitHome p) := by
  unfold State.waitHome
  split
  · exact State.CtxKept.refl s
  · refine State.CtxKept.trans ?_ (State.CtxKept.of_ctxs rfl)
    split
    · exact State.CtxKept.refl s
    · exact State.sendFrom_kept s _ _

/-- So do the writes that are pushed to their homes. -/
theorem State.flush_kept (s : State) (sel : PWrite → Bool) : s.CtxKept (s.flush sel) := by
  refine State.CtxKept.foldl (fun t p => ?_) (inOrder s.pend) s
  by_cases pick : s.picked sel p = true
  · by_cases free : t.leaseFree p.addr p.bytes.length = true
    · simpa only [pick, free, if_true] using State.performPend_kept t p
    · simpa only [pick, if_true, if_neg free] using State.waitHome_kept t p
  · simpa only [if_neg pick] using State.CtxKept.refl t

theorem State.flushSeen_kept (s : State) (c : CtxId) (addr n : Nat) : s.CtxKept (s.flushSeen c addr n) :=
  State.flush_kept s _

/-! Reading, ports, releases. -/

theorem State.addSeen_kept (s : State) (c : CtxId) (ids : List Nat) : s.CtxKept (s.addSeen c ids) := by
  unfold State.addSeen
  split
  · exact State.CtxKept.refl s
  · exact State.CtxKept.of_modCtx rfl

theorem State.addAcq_kept (s : State) (c : CtxId) (es : List (Nat × Nat)) : s.CtxKept (s.addAcq c es) := by
  unfold State.addAcq
  split
  · exact State.CtxKept.refl s
  · exact State.CtxKept.of_modCtx rfl

theorem State.noteRead_kept (s : State) (c : CtxId) (acquire : Bool) (addr n : Nat) :
    s.CtxKept (s.noteRead c acquire addr n) := by
  unfold State.noteRead
  dsimp only
  split
  · exact State.addSeen_kept s c _
  · exact (State.addSeen_kept s c _).trans (State.addAcq_kept _ c _)

theorem State.lineGone_ctxs (s : State) (die line : Nat) : (s.lineGone die line).ctxs = s.ctxs := by
  simp only [State.lineGone, State.leaveSeal]
  repeat' split
  all_goals rfl

theorem State.evicted_kept (s : State) (core : CoreId) (v : CLine) : s.CtxKept (s.evicted core v) := by
  refine State.CtxKept.of_ctxs ?_
  simp only [State.evicted]
  repeat' split
  all_goals first | rfl | exact State.lineGone_ctxs _ _ _

theorem State.joinSeal_ctxs (s : State) (die line : Nat) : (s.joinSeal die line).ctxs = s.ctxs := by
  unfold State.joinSeal
  repeat' split
  all_goals rfl

theorem State.portLine_kept (s : State) (core : CoreId) (did : BitVec 7) (scalar write stays : Bool) (line : Nat) :
    s.CtxKept (s.portLine core did scalar write stays line) := by
  unfold State.portLine
  split
  · exact State.CtxKept.refl s
  · split
    · exact State.CtxKept.of_ctxs rfl
    · split
      · exact State.CtxKept.of_ctxs rfl
      · dsimp only
        have used : s.CtxKept (((if (s.core core).keeps line = true then s
            else { s with sramErrs := s.sramErrs.filter fun e => e ≠ (line, core) } : State).joinSeal (core / 64) line).modCore core
            fun k =>
              let k1 := (k.touchL2 did write line).ask (localOf did)
              if scalar then k1.touchL1 line else if write then k1.dropL1 line else k1) := by
          refine State.CtxKept.of_ctxs ((State.joinSeal_ctxs _ _ _).trans ?_)
          split <;> rfl
        split
        · exact used.trans (State.evicted_kept _ core _)
        · exact used

theorem State.portUse_kept (s : State) (c : CtxId) (scalar write stays : Bool) (ls : List Nat) :
    s.CtxKept (s.portUse c scalar write stays ls) := by
  have lines := State.CtxKept.foldl
    (fun (t : State) l => State.portLine_kept t (coreOf c) (s.did c) scalar write stays l) ls s
  unfold State.portUse
  dsimp only
  split
  · exact lines
  · exact lines.trans (State.CtxKept.of_modCtx rfl)

theorem State.takeRead_kept (s : State) (c : CtxId) (scalar acquire : Bool) (addr n : Nat) :
    s.CtxKept (s.takeRead c scalar acquire addr n) :=
  (State.noteRead_kept s c acquire addr n).trans (State.portUse_kept _ c _ _ _ _)

theorem State.homeUse_kept (s : State) (c : CtxId) (write : Bool) (addr n : Nat) : s.CtxKept (s.homeUse c write addr n) :=
  State.portUse_kept s c _ _ _ _

theorem State.sendCombining_kept (s : State) (c : CtxId) : s.CtxKept (s.sendCombining c) := by
  have one (t : State) (p : PWrite) : t.CtxKept (t.soon (.homeWritePerform p.id)) := State.CtxKept.of_ctxs rfl
  exact State.CtxKept.foldl one _ s

/-- A release keeps every context so. -/
theorem State.release_kept (s : State) (c : CtxId) (scope : Nat) (kind : RelKind) : s.CtxKept (s.release c scope kind).1 := by
  have pushed : s.CtxKept (if 2 ≤ scope then s.flush fun p => p.atDie && p.holdsRelease c (s.ctx c).seen scope kind else s) := by
    split
    · exact State.flush_kept s _
    · exact State.CtxKept.refl s
  unfold State.release
  dsimp only
  generalize (if 2 ≤ scope then s.flush fun p => p.atDie && p.holdsRelease c (s.ctx c).seen scope kind else s) = u at pushed ⊢
  split
  · have sent : u.CtxKept (if scope = 2 then u.sendCombining c else u) := by
      split
      · exact State.sendCombining_kept u c
      · exact State.CtxKept.refl u
    refine (pushed.trans sent).trans (State.CtxKept.of_modCtx ?_)
    cases kind <;> rfl
  · exact pushed

/-- What must be performed before an access of a context that is no redundant member keeps every context so. -/
theorem State.orderReady_kept (s : State) (c : CtxId) (atomic : Bool) (order scope : Nat) (ops : List Word)
    (h : (s.ctx c).red = none) : s.CtxKept (s.orderReady c atomic order scope ops).1 := by
  have close : s.closeInterval c ops = (s, true) := by simp [State.closeInterval, h]
  unfold State.orderReady
  rw [close]
  dsimp only
  split
  · exact State.CtxKept.refl s
  · split
    · exact State.CtxKept.refl s
    · split
      · split
        · exact State.CtxKept.refl s
        · split
          · exact State.CtxKept.refl s
          · exact State.release_kept s c _ _
      · exact State.CtxKept.refl s

end Sys2Proof.Machine
end

