-- ==== Sys2Proof/Laws/Access.lean ====
section
/-! SUPPORT. What the reads of an access leave: a miss takes a lease or a seal count, which changes dies and the agenda only;
what a read brings with it changes its context only; a cached translation changes the TLB only; a walk keeps every context as an
access does. -/

namespace Sys2Proof.Machine

/-- What a read of a line can do (R265, R336, R339): nothing where it hits or is held without a lease, or a lease. -/
theorem State.readLine_cases {s u : State} {die line : Nat} (h : s.readLine die line = some u) :
    u = s ∨ ((s.sealAt (line * 64)).isSome = false ∧ s.writeWaits line = false ∧ u = s.grant die line) := by
  grind [State.readLine]

theorem State.readLine_only {s u : State} {die line : Nat} (h : s.readLine die line = some u) :
    u = { s with dies := u.dies, agenda := u.agenda } := by
  obtain hit | ⟨-, -, lease⟩ := State.readLine_cases h
  · rw [hit]
  · rw [lease]; rfl

theorem State.readLines_only {die : Nat} {ls : List Nat} {s u : State} (h : s.readLines die ls = some u) :
    u = { s with dies := u.dies, agenda := u.agenda } := by
  induction ls generalizing s with
  | nil => cases h; rfl
  | cons l t ih =>
    cases first : s.readLine die l with
    | none => simp [State.readLines, first] at h
    | some v =>
      have rest : v.readLines die t = some u := by simpa [State.readLines, first] using h
      rw [ih rest, State.readLine_only first]

/-- The leases of a vector instruction's reads change dies and the agenda only. -/
theorem State.readAccs_only {s u : State} {c : CtxId} {as : List Access} (h : s.readAccs c as = some u) :
    u = { s with dies := u.dies, agenda := u.agenda } := State.readLines_only h

/-- What bytes bring with them changes contexts only (R353, R356). -/
theorem State.addSeen_only (s : State) (c : CtxId) (ids : List Nat) :
    s.addSeen c ids = { s with ctxs := (s.addSeen c ids).ctxs } := by
  unfold State.addSeen
  split <;> rfl

theorem State.addAcq_only (s : State) (c : CtxId) (es : List (Nat × Nat)) :
    s.addAcq c es = { s with ctxs := (s.addAcq c es).ctxs } := by
  unfold State.addAcq
  split <;> rfl

theorem State.noteRead_only (s : State) (c : CtxId) (acquire : Bool) (addr n : Nat) :
    s.noteRead c acquire addr n = { s with ctxs := (s.noteRead c acquire addr n).ctxs } := by
  unfold State.noteRead
  dsimp only
  split
  · exact State.addSeen_only s c _
  · rw [State.addAcq_only, State.addSeen_only]

/-- A cached translation changes the TLB only (R420). -/
theorem State.fillTlb_only (s : State) (ag : Agent) (va : Word) (x : Xlat) :
    s.fillTlb ag va x = { s with tlb := (s.fillTlb ag va x).tlb } := by
  unfold State.fillTlb
  split <;> rfl

theorem State.fillTlbs_only (ag : Agent) (es : List (Word × Access)) (s : State) :
    s.fillTlbs ag es = { s with tlb := (s.fillTlbs ag es).tlb } := by
  induction es generalizing s with
  | nil => rfl
  | cons e t ih =>
    have one := State.fillTlb_only s ag e.1 e.2.xl
    generalize hv : s.fillTlb ag e.1 e.2.xl = v at one
    have more : s.fillTlbs ag (e :: t) = v.fillTlbs ag t := by rw [← hv]; rfl
    rw [more, ih v, one]

theorem State.cacheWalk_only (s : State) (ag : Agent) (va : Word) :
    s.cacheWalk ag va = { s with tlb := (s.cacheWalk ag va).tlb } := by
  unfold State.cacheWalk
  split
  · split
    · exact State.fillTlb_only s ag va _
    · rfl
  · rfl

/-- A walk that goes ahead keeps every context as an access does (R336, R342, R416). -/
theorem State.walkReady_kept {s u : State} {ag : Agent} {vas : List Word} {n : Nat} (h : s.walkReady ag vas n = some u) :
    s.CtxKept u := by
  unfold State.walkReady at h
  dsimp only at h
  split at h
  · cases h; exact State.CtxKept.refl s
  · split at h
    · cases h
    · split at h
      · rename_i t lines
        cases h
        have leased : s.CtxKept t := State.CtxKept.of_ctxs (by rw [State.readLines_only lines])
        have cached (v : State) (va : Word) : v.CtxKept (v.cacheWalk ag va) :=
          State.CtxKept.of_ctxs (by rw [State.cacheWalk_only])
        exact (leased.trans (State.CtxKept.foldl cached vas t)).trans (State.portUse_kept _ _ _ _ _ _)
      · cases h

/-! The fronts of the accesses. -/

/-- A scalar access that goes ahead does what its instruction does with it. -/
theorem State.scalarFront_of_reaches {s u : State} {c : CtxId} {kind : AccKind} {va : Word} {n order scope : Nat}
    {atomic : Bool} {ops : List Word} {x : Access} (go : State → Agent → Access → State)
    (h : s.Reaches c kind va n atomic order scope ops x u) :
    s.scalarFront c kind va n atomic order scope ops go = go u (s.agent c) x := by
  obtain ⟨s0, v, walk, check, hbm, free, order, rfl⟩ := h
  have place : atomic = true → ¬ x.place = .hbm → False := fun a b => b (hbm a)
  simp only [State.scalarFront, walk, check, free, order]
  cases atomic <;> simp_all

/-- A scalar access that goes ahead, of a context that is no redundant member, has kept every context but its reservation, its
pending machine check, what it has seen and published, and its place at the ports. -/
theorem State.Reaches.kept {s u : State} {c : CtxId} {kind : AccKind} {va : Word} {n order scope : Nat} {atomic : Bool}
    {ops : List Word} {x : Access} (h : s.Reaches c kind va n atomic order scope ops x u) (hr : (s.ctx c).red = none) :
    s.CtxKept u := by
  obtain ⟨s0, v, walk, -, -, -, done, rfl⟩ := h
  have tables : s.CtxKept s0 := State.walkReady_kept walk
  have single : (s0.ctx c).red = none := (congrArg Ctx.red (tables c)).trans hr
  have before : s0.CtxKept v := by
    have kept := State.orderReady_kept s0 c atomic order scope ops single
    rwa [done] at kept
  exact (tables.trans before).trans (State.CtxKept.of_ctxs (by rw [State.fillTlb_only]))

/-- A scalar access to a misaligned address takes the trap of R119 with the address. -/
theorem State.scalarFront_misaligned {s : State} {c : CtxId} {kind : AccKind} {va : Word} {n order scope : Nat}
    {atomic : Bool} {ops : List Word} (go : State → Agent → Access → State) (h : va.toNat % n ≠ 0) :
    s.scalarFront c kind va n atomic order scope ops go = s.trap c (mkTrap 5 va) := by
  have walk : s.walkReady (s.agent c) [va] n = some s := by
    simp [State.walkReady, State.tablesOf, State.walkNeeds, h]
  have check : s.checkAccess (s.agent c) kind va n = .error (mkTrap 5 va) := by
    simp [State.checkAccess, State.check3, h]
  simp [State.scalarFront, walk, check, State.offHbm, State.accessTrap, mkTrap]

/-- A block in readable HBM is handed to the instruction. -/
theorem State.withBlock_of_reads {s u : State} {c : CtxId} {va : Word} {n : Nat} {bs : List Byte}
    (go : List Byte → State → State) (h : s.ReadsBlock c va n bs u) : s.withBlock c va n go = go bs u := by
  obtain ⟨s0, x, s1, walk, check, hbm, lines, rfl, rfl⟩ := h
  simp [State.withBlock, walk, check, hbm, lines]

/-- In a context that is no redundant member and keeps no log, a logged channel gives the machine's own value (R509, R512). -/
theorem State.withLogged_plain (s : State) (c : CtxId) (ch : Nat) (own : Word) (go : State → List Word → State)
    (single : (s.ctx c).red = none) (unlogged : (s.ctx c).log = none) : s.withLogged c [(ch, own)] go = go s [own] := by
  simp [State.withLogged, State.loggedAll, State.logged1, single, unlogged]

end Sys2Proof.Machine
end

