-- ==== Sys2Proof/Laws/Issue.lean ====
section
/-! SUPPORT. What issuing a word can do (R85-R90, R457, R506, R510), said once: the word's own effect, the trap of the first
check that fails, what a word whose condition is false does, or a wait. -/

namespace Sys2Proof.Machine

/-- Noting an encoding changes its die only. -/
theorem State.noteDecoded_only (s : State) (d n : Nat) : s.noteDecoded d n = { s with dies := (s.noteDecoded d n).dies } := by
  unfold State.noteDecoded
  split <;> rfl

/-- Noting the use of units changes their die only. -/
theorem State.useUnits_only (s : State) (d : Nat) (us : List (Nat × Nat)) :
    s.useUnits d us = { s with dies := (s.useUnits d us).dies } := rfl

/-- A word that issues has changed its die only: what it has noted of the word. -/
theorem State.issued_only (s : State) (w : BitVec 32) : s.issued w = { s with dies := (s.issued w).dies } := by
  simp only [State.issued, State.noteIssue, State.noteUse]
  split
  · rw [State.useUnits_only]
  · rw [State.useUnits_only, State.noteDecoded_only]

@[simp] theorem State.issued_ctxs (s : State) (w : BitVec 32) : (s.issued w).ctxs = s.ctxs := by
  rw [State.issued_only]

@[simp] theorem State.issued_cores (s : State) (w : BitVec 32) : (s.issued w).cores = s.cores := by
  rw [State.issued_only]

@[simp] theorem State.issued_mem (s : State) (w : BitVec 32) : (s.issued w).mem = s.mem := by
  rw [State.issued_only]

@[simp] theorem State.issued_pend (s : State) (w : BitVec 32) : (s.issued w).pend = s.pend := by
  rw [State.issued_only]

@[simp] theorem State.issued_clk (s : State) (w : BitVec 32) : (s.issued w).clk = s.clk := by
  rw [State.issued_only]

@[simp] theorem State.issued_cursor (s : State) (w : BitVec 32) : (s.issued w).cursor = s.cursor := by
  rw [State.issued_only]

@[simp] theorem State.issued_gangs (s : State) (w : BitVec 32) : (s.issued w).gangs = s.gangs := by
  rw [State.issued_only]

@[simp] theorem State.issued_fns (s : State) (w : BitVec 32) : (s.issued w).fns = s.fns := by
  rw [State.issued_only]

@[simp] theorem State.issued_agenda (s : State) (w : BitVec 32) : (s.issued w).agenda = s.agenda := by
  rw [State.issued_only]

@[simp] theorem State.issued_free (s : State) (w : BitVec 32) : (s.issued w).free = s.free := by
  rw [State.issued_only]

@[simp] theorem State.issued_tlb (s : State) (w : BitVec 32) : (s.issued w).tlb = s.tlb := by
  rw [State.issued_only]

@[simp] theorem State.issued_hostOut (s : State) (w : BitVec 32) : (s.issued w).hostOut = s.hostOut := by
  rw [State.issued_only]

@[simp] theorem State.issued_ctx (s : State) (w : BitVec 32) (c : CtxId) : (s.issued w).ctx c = s.ctx c := by
  simp [State.ctx]

@[simp] theorem State.issued_core (s : State) (w : BitVec 32) (c : CoreId) : (s.issued w).core c = s.core c := by
  simp [State.core]

@[simp] theorem State.issued_cur (s : State) (w : BitVec 32) : (s.issued w).cur = s.cur := by simp [State.cur]

@[simp] theorem State.issued_here (s : State) (w : BitVec 32) : (s.issued w).here = s.here := by simp [State.here]

/-- A close whose pair has matched lets the instruction go on. -/
theorem State.closeInterval_of_matched (s : State) (c : CtxId) (ops : List Word)
    (h : ∀ r, (s.ctx c).red = some r → r.matched = true) : s.closeInterval c ops = (s, true) := by
  cases hr : (s.ctx c).red with
  | none => simp [State.closeInterval, hr]
  | some r => simp [State.closeInterval, hr, h r hr]

/-- A word that issues has its own effect, in the context whose turn it is. -/
theorem State.issueIf_of_issues (s : State) (w : BitVec 32) (f : Bool) (go : CtxId → Ctx → State → State)
    (h : s.issuesIf w f = true) : s.issueIf w f go = go s.cur s.here (s.issued w) := by
  simp only [State.issuesIf, Bool.and_eq_true, Option.isNone_iff_eq_none, Bool.not_eq_true'] at h
  obtain ⟨⟨⟨check, buffer⟩, mask⟩, cond⟩ := h
  have ctx : (s.issued w).ctx s.cur = s.here := by simp [State.here]
  have first : ∀ full : Bool, full = (match s.here.red with
        | some r => decide (4096 ≤ r.stores.length)
        | none => false) →
      (if full = true then (s.issued w).closeInterval s.cur [] else (s.issued w, true)) = (s.issued w, true) := by
    intro full hf
    cases full with
    | false => rfl
    | true =>
      refine State.closeInterval_of_matched _ _ _ fun r hr => ?_
      rw [ctx] at hr
      simp only [hr] at hf
      simpa [Ctx.bufferWaits, hr, ← hf] using buffer
  simp only [State.issueIf, check]
  show (match (if (match s.here.red with
        | some r => decide (4096 ≤ r.stores.length)
        | none => false) = true then (s.issued w).closeInterval s.cur [] else (s.issued w, true)) with
    | (s2, ok) => if (!ok || s.here.maskWaits) = true then s2.stallBounded s.cur else match s.here.pfx with
      | some p => if s.here.pfxCond p.word = true then go s.cur (s2.ctx s.cur) s2 else s2.skipped s.cur w go
      | none => go s.cur (s2.ctx s.cur) s2) = _
  rw [first _ rfl]
  simp only [mask, ctx]
  cases hp : s.here.pfx with
  | none => rfl
  | some p => simp [show s.here.pfxCond p.word = true by simpa [Ctx.pfxHolds, hp] using cond]

/-- A word that issues and that no context state forbids has its own effect. -/
theorem State.issue_of_issues (s : State) (w : BitVec 32) (go : CtxId → Ctx → State → State) (h : s.issues w = true) :
    s.issue w go = go s.cur s.here (s.issued w) :=
  State.issueIf_of_issues s w false go h

/-- A word that fails a check takes the trap of the check, after the queues of its context have settled (R87, R88). -/
theorem State.issueIf_trap (s : State) (w : BitVec 32) (f : Bool) (go : CtxId → Ctx → State → State) (t : Trap)
    (h : s.issueCheck w f = some t) :
    s.issueIf w f go = ((s.noteStopped s.cur w t).settle s.cur).trap s.cur t := by
  simp only [State.issueIf, h]

/-- A word whose prefix condition is false has no effect but the traps of its checks (R86, R457). -/
theorem State.issueIf_skip (s : State) (w : BitVec 32) (f : Bool) (go : CtxId → Ctx → State → State) (p : Prefix)
    (h : s.issueCheck w f = none) (hr : s.here.red = none) (hm : s.here.maskWaits = false) (hp : s.here.pfx = some p)
    (hc : s.here.pfxCond p.word = false) : s.issueIf w f go = (s.issued w).skipped s.cur w go := by
  simp only [State.here] at hr hm hp hc
  simp [State.issueIf, h, hr, hm, hp, hc, State.issued]

/-- An instruction that issues its word acts as its effect does on the state it issues in. -/
theorem acts_of_issue {i : Instr} {pre : State → Prop} {act : State → State} {go : CtxId → Ctx → State → State}
    (h : ∀ s, exec i s = .next (s.issue (encode i) go)) (h2 : ∀ s : State, pre s → go s.cur s.here s = act s) :
    Acts i pre act := by
  intro s h1 hp
  rw [h, State.issue_of_issues _ _ _ h1, ← h2 _ hp]; simp

/-- The same for an instruction that a context state makes illegal. -/
theorem actsUnless_of_issue {i : Instr} {bad : State → Bool} {pre : State → Prop} {act : State → State}
    {go : CtxId → Ctx → State → State} (h : ∀ s, exec i s = .next (s.issueIf (encode i) (bad s) go))
    (h2 : ∀ s : State, pre s → go s.cur s.here s = act s) : ActsUnless i bad pre act := by
  intro s hb h1 hp
  rw [h, hb, State.issueIf_of_issues _ _ _ _ h1, ← h2 _ hp]; simp

@[simp] theorem State.issued_did (s : State) (w : BitVec 32) (c : CtxId) : (s.issued w).did c = s.did c := by
  simp [State.did]

@[simp] theorem State.issued_agent (s : State) (w : BitVec 32) (c : CtxId) : (s.issued w).agent c = s.agent c := by
  simp [State.agent]

end Sys2Proof.Machine
end

