-- ==== Sys2Proof/Laws/Memory.lean ====
section
/-! SUPPORT. Memory: every write keeps the canonical form, a byte reads as the last write to it left it, and a write leaves
every other byte alone. -/

namespace Sys2Proof.Machine

theorem Memory.above_trans {a b : Nat} {m : Memory} (h : a ≤ b) (hm : Memory.above b m = true) :
    Memory.above a m = true := by
  cases m with
  | nil => rfl
  | cons e t => obtain ⟨k, v⟩ := e; simp [Memory.above] at *; omega

theorem Memory.wf_tail {e : Host.Cell} {t : Memory} (h : Memory.wf (e :: t) = true) : Memory.wf t = true := by
  obtain ⟨k, v⟩ := e
  simp [Memory.wf] at h
  exact h.2

theorem Memory.wf_above {k : Nat} {v : Byte} {t : Memory} (h : Memory.wf ((k, v) :: t) = true) :
    Memory.above k t = true := by
  simp [Memory.wf] at h
  exact h.1.2

/-- An address below every listed one reads as a byte that nothing has written. -/
theorem Memory.read_above {a b : Nat} {m : Memory} (hm : Memory.above a m = true) (h : b ≤ a) : m.read b = blankByte b := by
  cases m with
  | nil => rfl
  | cons e t =>
    obtain ⟨k, v⟩ := e
    simp [Memory.above] at hm
    simp [Memory.read, show b < k by omega]

theorem Memory.above_write {a k : Nat} {b : Byte} {m : Memory} (hm : Memory.above k m = true) (h : k < a)
    (hw : Memory.wf m = true) : Memory.above k (m.write a b) = true := by
  cases m with
  | nil => simp only [Memory.write]; split <;> simp [Memory.above, h]
  | cons e t =>
    obtain ⟨n, v⟩ := e
    have hn : k < n := by simpa [Memory.above] using hm
    simp only [Memory.write]
    split
    · split <;> simp [Memory.above, h, hn]
    · split
      · split
        · exact Memory.above_trans (Nat.le_of_lt hn) (Memory.wf_above hw)
        · simp [Memory.above, hn]
      · simp [Memory.above, hn]

/-- A write keeps the canonical form. -/
theorem Memory.write_wf (m : Memory) (a : Nat) (b : Byte) (h : Memory.wf m = true) : Memory.wf (m.write a b) = true := by
  induction m with
  | nil => simp only [Memory.write]; split <;> simp_all [Memory.wf, Memory.above]
  | cons e t ih =>
    obtain ⟨k, v⟩ := e
    have ht := Memory.wf_tail h
    have hk := Memory.wf_above h
    have hv : v ≠ blankByte k := by simp [Memory.wf] at h; exact h.1.1
    simp only [Memory.write]
    split
    · split
      · exact h
      · simp_all [Memory.wf, Memory.above]
    · split
      · split
        · exact ht
        · simp_all [Memory.wf]
      · have := Memory.above_write (b := b) hk (show k < a by omega) ht
        simp_all [Memory.wf]

/-- The byte written is read back. -/
theorem Memory.read_write_same (m : Memory) (a : Nat) (b : Byte) (h : Memory.wf m = true) : (m.write a b).read a = b := by
  induction m with
  | nil => simp only [Memory.write]; split <;> simp_all [Memory.read]
  | cons e t ih =>
    obtain ⟨k, v⟩ := e
    simp only [Memory.write]
    split
    · split <;> simp_all [Memory.read]
    · split
      · split
        · next h1 h2 h3 => subst h2; rw [h3]; exact Memory.read_above (Memory.wf_above h) (Nat.le_refl _)
        · next h1 h2 h3 => subst h2; simp [Memory.read]
      · next h1 h2 => simp [Memory.read, h1, h2, ih (Memory.wf_tail h)]

/-- Every other byte is left alone. -/
theorem Memory.read_write_other (m : Memory) (a x : Nat) (b : Byte) (h : Memory.wf m = true) (hx : x ≠ a) :
    (m.write a b).read x = m.read x := by
  induction m with
  | nil =>
    simp only [Memory.write]
    split <;> simp [Memory.read, hx]
  | cons e t ih =>
    obtain ⟨k, v⟩ := e
    simp only [Memory.write]
    split
    · split
      · rfl
      · next h1 _ =>
        by_cases h2 : x < a
        · simp [Memory.read, h2, show x < k by omega]
        · rw [Memory.read, if_neg h2, if_neg hx]
    · split
      · split
        · next h1 h2 h3 =>
          subst h2
          by_cases h4 : x < a
          · simp [Memory.read, h4, Memory.read_above (Memory.wf_above h) (Nat.le_of_lt h4)]
          · simp [Memory.read, h4, hx]
        · next h1 h2 h3 => subst h2; simp [Memory.read, hx]
      · simp [Memory.read, ih (Memory.wf_tail h)]

/-- A run of writes keeps the canonical form. -/
theorem Memory.writeL_wf (m : Memory) (a : Nat) (bs : List Byte) (h : Memory.wf m = true) :
    Memory.wf (m.writeL a bs) = true := by
  induction bs generalizing m a with
  | nil => exact h
  | cons b t ih => exact ih (m.write a b) (a + 1) (Memory.write_wf m a b h)

/-- A byte outside a run of writes is left alone. -/
theorem Memory.read_writeL_other (m : Memory) (a x : Nat) (bs : List Byte) (h : Memory.wf m = true)
    (hx : x < a ∨ a + bs.length ≤ x) : (m.writeL a bs).read x = m.read x := by
  induction bs generalizing m a with
  | nil => rfl
  | cons b t ih =>
    simp only [List.length_cons] at hx
    simp only [Memory.writeL]
    rw [ih (m.write a b) (a + 1) (Memory.write_wf m a b h) (by omega), Memory.read_write_other m a x b h (by omega)]

/-- A byte inside a run of writes reads as it was written. -/
theorem Memory.read_writeL_same (m : Memory) (a n : Nat) (bs : List Byte) (h : Memory.wf m = true) (hn : n < bs.length) :
    (m.writeL a bs).read (a + n) = bs[n] := by
  induction bs generalizing m a n with
  | nil => simp at hn
  | cons b t ih =>
    simp only [Memory.writeL]
    cases n with
    | zero =>
      rw [Memory.read_writeL_other (m.write a b) (a + 1) (a + 0) t (Memory.write_wf m a b h) (by omega)]
      simpa using Memory.read_write_same m a b h
    | succ n =>
      have := ih (m.write a b) (a + 1) n (Memory.write_wf m a b h) (by simpa using hn)
      simpa [Nat.add_assoc, Nat.add_comm 1 n] using this

/-- The bytes written are read back. -/
theorem Memory.readN_writeL (m : Memory) (a : Nat) (bs : List Byte) (h : Memory.wf m = true) :
    (m.writeL a bs).readN a bs.length = bs := by
  induction bs generalizing m a with
  | nil => rfl
  | cons b t ih =>
    simp only [Memory.writeL, List.length_cons, Memory.readN]
    rw [ih (m.write a b) (a + 1) (Memory.write_wf m a b h),
      Memory.read_writeL_other (m.write a b) (a + 1) a t (Memory.write_wf m a b h) (by omega),
      Memory.read_write_same m a b h]

/-! Writes that no unit report takes (R504). -/

/-- A write that spares the unit reports keeps the canonical form. -/
theorem Memory.writeA_wf (m : Memory) (a : Nat) (bs : List Byte) (h : Memory.wf m = true) :
    Memory.wf (m.writeA a bs) = true := by
  induction bs generalizing m a with
  | nil => exact h
  | cons b t ih =>
    refine ih _ (a + 1) ?_
    split
    · exact h
    · exact Memory.write_wf m a b h

/-- A byte outside it is left alone. -/
theorem Memory.read_writeA_other (m : Memory) (a x : Nat) (bs : List Byte) (h : Memory.wf m = true)
    (hx : x < a ∨ a + bs.length ≤ x) : (m.writeA a bs).read x = m.read x := by
  induction bs generalizing m a with
  | nil => rfl
  | cons b t ih =>
    simp only [List.length_cons] at hx
    simp only [Memory.writeA]
    split
    · exact ih m (a + 1) h (by omega)
    · rw [ih _ (a + 1) (Memory.write_wf m a b h) (by omega), Memory.read_write_other m a x b h (by omega)]

/-- A unit report is left alone. -/
theorem Memory.read_writeA_report (m : Memory) (a x : Nat) (bs : List Byte) (h : Memory.wf m = true)
    (hx : isReport x = true) : (m.writeA a bs).read x = m.read x := by
  induction bs generalizing m a with
  | nil => rfl
  | cons b t ih =>
    simp only [Memory.writeA]
    split
    · exact ih m (a + 1) h
    · next h1 =>
      rw [ih _ (a + 1) (Memory.write_wf m a b h), Memory.read_write_other m a x b h (by rintro rfl; exact h1 hx)]

/-- Every other byte inside it reads as it was written. -/
theorem Memory.read_writeA_same (m : Memory) (a n : Nat) (bs : List Byte) (h : Memory.wf m = true) (hn : n < bs.length)
    (hr : isReport (a + n) = false) : (m.writeA a bs).read (a + n) = bs[n] := by
  induction bs generalizing m a n with
  | nil => simp at hn
  | cons b t ih =>
    simp only [Memory.writeA]
    cases n with
    | zero =>
      have hr' : isReport a = false := hr
      rw [hr', Memory.read_writeA_other _ (a + 1) (a + 0) t (by simpa using Memory.write_wf m a b h) (by omega)]
      simpa using Memory.read_write_same m a b h
    | succ n =>
      have hm : Memory.wf (if isReport a = true then m else m.write a b) = true := by
        split
        · exact h
        · exact Memory.write_wf m a b h
      have := ih _ (a + 1) n hm (by simpa using hn) (by rw [← hr]; congr 1; omega)
      simpa [Nat.add_assoc, Nat.add_comm 1 n] using this

end Sys2Proof.Machine
end

