-- ==== Sys2Proof/Laws/PerInstr.lean ====
section
/-! SUPPORT. One lemma per constructor of Instr: the decoder reads back the word that the encoder writes (R63-R86). -/

set_option linter.unusedSimpArgs false
set_option linter.unreachableTactic false
set_option linter.unnecessarySeqFocus false
set_option linter.unusedTactic false

namespace Sys2Proof.Laws

/-- The decoder reads back the word of an instruction (an event of the table has no word). -/
def RoundTrip.Statement (i : Instr) : Prop := i.isWord = true → decodeRaw (encode i) = some i

/-- A field that lies in the lower of two joined parts. -/
theorem RoundTrip.low {s l v w : Nat} (x : BitVec v) (y : BitVec w) (h : s + l ≤ w) :
    BitVec.extractLsb' (n := v + w) s l (x ++ y) = y.extractLsb' s l :=
  BitVec.extractLsb'_append_eq_of_add_le h

/-- A field that lies in the upper of two joined parts. -/
theorem RoundTrip.high {s l v w : Nat} (x : BitVec v) (y : BitVec w) (h : w ≤ s) :
    BitVec.extractLsb' (n := v + w) s l (x ++ y) = x.extractLsb' (s - w) l :=
  BitVec.extractLsb'_append_eq_of_le h

/-- A whole part. -/
theorem RoundTrip.whole {w : Nat} (x : BitVec w) : x.extractLsb' 0 w = x := BitVec.extractLsb'_eq_self

theorem RoundTrip.asyncTrapTaken : RoundTrip.Statement (.asyncTrapTaken) := fun h => by cases h
theorem RoundTrip.slotctlStart (v : Word) : RoundTrip.Statement (.slotctlStart v) := fun h => by cases h
theorem RoundTrip.shapeWrite (v : Word) : RoundTrip.Statement (.shapeWrite v) := fun h => by cases h
theorem RoundTrip.fstatWrite (v : Word) : RoundTrip.Statement (.fstatWrite v) := fun h => by cases h
theorem RoundTrip.mstatClear (v : Word) : RoundTrip.Statement (.mstatClear v) := fun h => by cases h
theorem RoundTrip.mownSave (slot : BitVec 3) : RoundTrip.Statement (.mownSave slot) := fun h => by cases h
theorem RoundTrip.mownLoad (slot : BitVec 3) : RoundTrip.Statement (.mownLoad slot) := fun h => by cases h
theorem RoundTrip.mownZero (slot : BitVec 3) : RoundTrip.Statement (.mownZero slot) := fun h => by cases h
theorem RoundTrip.dpbankWrite (v : Word) : RoundTrip.Statement (.dpbankWrite v) := fun h => by cases h
theorem RoundTrip.leaseLengthWrite (pkgWide : Bool) (v : Word) : RoundTrip.Statement (.leaseLengthWrite pkgWide v) := fun h => by cases h
theorem RoundTrip.detmodeWrite (v : Word) : RoundTrip.Statement (.detmodeWrite v) := fun h => by cases h
theorem RoundTrip.rankEntryWrite (v : Word) : RoundTrip.Statement (.rankEntryWrite v) := fun h => by cases h
theorem RoundTrip.inboxRegisterWrite (v : Word) : RoundTrip.Statement (.inboxRegisterWrite v) := fun h => by cases h
theorem RoundTrip.worldTableWrite (v : Word) : RoundTrip.Statement (.worldTableWrite v) := fun h => by cases h
theorem RoundTrip.fctlWrite (port : Nat) (fn : Nat) (v : Word) : RoundTrip.Statement (.fctlWrite port fn v) := fun h => by cases h
theorem RoundTrip.dbtgtWrite (port : Nat) (fn : Nat) (v : Word) : RoundTrip.Statement (.dbtgtWrite port fn v) := fun h => by cases h
theorem RoundTrip.lqheadWrite (port : Nat) (fn : Nat) (v : Word) : RoundTrip.Statement (.lqheadWrite port fn v) := fun h => by cases h
theorem RoundTrip.hintWrite (port : Nat) (fn : Nat) (v : Word) : RoundTrip.Statement (.hintWrite port fn v) := fun h => by cases h
theorem RoundTrip.codeRangeEnable (port : Nat) (fn : Nat) (k : Nat) (v : Word) : RoundTrip.Statement (.codeRangeEnable port fn k v) := fun h => by cases h
theorem RoundTrip.codeRangeDisable (port : Nat) (fn : Nat) (k : Nat) (v : Word) : RoundTrip.Statement (.codeRangeDisable port fn k v) := fun h => by cases h
theorem RoundTrip.fcbRegisterWrite (port : Nat) (fn : Nat) (off : Nat) (v : Word) : RoundTrip.Statement (.fcbRegisterWrite port fn off v) := fun h => by cases h
theorem RoundTrip.memoryReply (c : Nat) (err : BitVec 2) (line : Nat) : RoundTrip.Statement (.memoryReply c err line) := fun h => by cases h
theorem RoundTrip.postedStoreDrain (c : Nat) : RoundTrip.Statement (.postedStoreDrain c) := fun h => by cases h
theorem RoundTrip.icacheFill (core : Nat) (pa : Nat) (err : BitVec 2) : RoundTrip.Statement (.icacheFill core pa err) := fun h => by cases h
theorem RoundTrip.pageWalk (c : Nat) (va : Word) (write : Bool) (exec : Bool) : RoundTrip.Statement (.pageWalk c va write exec) := fun h => by cases h
theorem RoundTrip.vectorCheckPhaseEnd (c : Nat) : RoundTrip.Statement (.vectorCheckPhaseEnd c) := fun h => by cases h
theorem RoundTrip.vectorSweepStart (c : Nat) : RoundTrip.Statement (.vectorSweepStart c) := fun h => by cases h
theorem RoundTrip.vectorRowArrival (c : Nat) (row : Nat) : RoundTrip.Statement (.vectorRowArrival c row) := fun h => by cases h
theorem RoundTrip.vectorSweepComplete (c : Nat) : RoundTrip.Statement (.vectorSweepComplete c) := fun h => by cases h
theorem RoundTrip.matrixEntryStart (core : Nat) : RoundTrip.Statement (.matrixEntryStart core) := fun h => by cases h
theorem RoundTrip.matrixEntryComplete (core : Nat) (residue : Bool) (vreg : Bool) : RoundTrip.Statement (.matrixEntryComplete core residue vreg) := fun h => by cases h
theorem RoundTrip.gustPrefetch (c : Nat) (stream : Nat) : RoundTrip.Statement (.gustPrefetch c stream) := fun h => by cases h
theorem RoundTrip.jobSchedule (die : Nat) (cluster : Nat) : RoundTrip.Statement (.jobSchedule die cluster) := fun h => by cases h
theorem RoundTrip.jobBlockEnd (die : Nat) (cluster : Nat) : RoundTrip.Statement (.jobBlockEnd die cluster) := fun h => by cases h
theorem RoundTrip.jobFaultEnd (die : Nat) (cluster : Nat) : RoundTrip.Statement (.jobFaultEnd die cluster) := fun h => by cases h
theorem RoundTrip.jobComplete (die : Nat) (cluster : Nat) : RoundTrip.Statement (.jobComplete die cluster) := fun h => by cases h
theorem RoundTrip.levanterRound (die : Nat) (cluster : Nat) : RoundTrip.Statement (.levanterRound die cluster) := fun h => by cases h
theorem RoundTrip.gcastCopyLanded (core : Nat) (pane : Nat) : RoundTrip.Statement (.gcastCopyLanded core pane) := fun h => by cases h
theorem RoundTrip.sealCountDrained (die : Nat) (idx : Nat) : RoundTrip.Statement (.sealCountDrained die idx) := fun h => by cases h
theorem RoundTrip.spawnRequestArrival (c : Nat) (core : Nat) (pc : Word) : RoundTrip.Statement (.spawnRequestArrival c core pc) := fun h => by cases h
theorem RoundTrip.stealRequest (c : Nat) (victim : Nat) : RoundTrip.Statement (.stealRequest c victim) := fun h => by cases h
theorem RoundTrip.gbarArrivalSignal (gang : Nat) (rank : Nat) : RoundTrip.Statement (.gbarArrivalSignal gang rank) := fun h => by cases h
theorem RoundTrip.gbarGenerationComplete (gang : Nat) : RoundTrip.Statement (.gbarGenerationComplete gang) := fun h => by cases h
theorem RoundTrip.gangStopComplete (gang : Nat) : RoundTrip.Statement (.gangStopComplete gang) := fun h => by cases h
theorem RoundTrip.msendAccept (core : Nat) (msg : Msg) : RoundTrip.Statement (.msendAccept core msg) := fun h => by cases h
theorem RoundTrip.dataDelivery (c : Nat) (msg : Msg) : RoundTrip.Statement (.dataDelivery c msg) := fun h => by cases h
theorem RoundTrip.spawnDelivery (c : Nat) (msg : Msg) : RoundTrip.Statement (.spawnDelivery c msg) := fun h => by cases h
theorem RoundTrip.wakeDelivery (c : Nat) (msg : Msg) : RoundTrip.Statement (.wakeDelivery c msg) := fun h => by cases h
theorem RoundTrip.regwDelivery (c : Nat) (msg : Msg) : RoundTrip.Statement (.regwDelivery c msg) := fun h => by cases h
theorem RoundTrip.inboxRecordWrite (core : Nat) (slot : Nat) (msg : Msg) : RoundTrip.Statement (.inboxRecordWrite core slot msg) := fun h => by cases h
theorem RoundTrip.waittExpiry (c : Nat) : RoundTrip.Statement (.waittExpiry c) := fun h => by cases h
theorem RoundTrip.wfiWake (c : Nat) : RoundTrip.Statement (.wfiWake c) := fun h => by cases h
theorem RoundTrip.waitResumption (c : Nat) : RoundTrip.Statement (.waitResumption c) := fun h => by cases h
theorem RoundTrip.homeMiss (die : Nat) (line : Nat) : RoundTrip.Statement (.homeMiss die line) := fun h => by cases h
theorem RoundTrip.homeWritePerform (id : Nat) : RoundTrip.Statement (.homeWritePerform id) := fun h => by cases h
theorem RoundTrip.leaseExpiry (die : Nat) (line : Nat) : RoundTrip.Statement (.leaseExpiry die line) := fun h => by cases h
theorem RoundTrip.writeCombineFlush (die : Nat) (line : Nat) : RoundTrip.Statement (.writeCombineFlush die line) := fun h => by cases h
theorem RoundTrip.tokenBucketRefill (core : Nat) : RoundTrip.Statement (.tokenBucketRefill core) := fun h => by cases h
theorem RoundTrip.ptpTimestampExchange (ppm : Int) : RoundTrip.Statement (.ptpTimestampExchange ppm) := fun h => by cases h
theorem RoundTrip.hostDoorbellWrite (port : Nat) (fn : Nat) (v : BitVec 32) (ide : Bool) : RoundTrip.Statement (.hostDoorbellWrite port fn v ide) := fun h => by cases h
theorem RoundTrip.doorbellMessageSend (port : Nat) (fn : Nat) : RoundTrip.Statement (.doorbellMessageSend port fn) := fun h => by cases h
theorem RoundTrip.inboundRead (port : Nat) (fn : Nat) (off : Nat) (len : Nat) (bar0 : Bool) (ide : Bool) : RoundTrip.Statement (.inboundRead port fn off len bar0 ide) := fun h => by cases h
theorem RoundTrip.inboundWrite (port : Nat) (fn : Nat) (off : Nat) (data : List Byte) (bar0 : Bool) (ide : Bool) : RoundTrip.Statement (.inboundWrite port fn off data bar0 ide) := fun h => by cases h
theorem RoundTrip.outboundCompletion (c : Nat) (data : Word) (ok : Bool) : RoundTrip.Statement (.outboundCompletion c data ok) := fun h => by cases h
theorem RoundTrip.peerReadTimeout (c : Nat) : RoundTrip.Statement (.peerReadTimeout c) := fun h => by cases h
theorem RoundTrip.hostMsixUnmask (port : Nat) (fn : Nat) (vec : Nat) (v : BitVec 32) (ide : Bool) : RoundTrip.Statement (.hostMsixUnmask port fn vec v ide) := fun h => by cases h
theorem RoundTrip.tdispRequest (port : Nat) (fn : Nat) (state : Nat) : RoundTrip.Statement (.tdispRequest port fn state) := fun h => by cases h
theorem RoundTrip.spdmMessage (port : Nat) (fn : Nat) (kind : Nat) : RoundTrip.Statement (.spdmMessage port fn kind) := fun h => by cases h
theorem RoundTrip.keyInstall (port : Nat) (fn : Nat) (slot : Nat) (key : BitVec 768) : RoundTrip.Statement (.keyInstall port fn slot key) := fun h => by cases h
theorem RoundTrip.keyErase (port : Nat) (fn : Nat) : RoundTrip.Statement (.keyErase port fn) := fun h => by cases h
theorem RoundTrip.functionLevelReset (port : Nat) (fn : Nat) : RoundTrip.Statement (.functionLevelReset port fn) := fun h => by cases h
theorem RoundTrip.etesianFlitReplay (port : Nat) : RoundTrip.Statement (.etesianFlitReplay port) := fun h => by cases h
theorem RoundTrip.linkDown (port : Nat) : RoundTrip.Statement (.linkDown port) := fun h => by cases h
theorem RoundTrip.linkRetrainTimeout (port : Nat) : RoundTrip.Statement (.linkRetrainTimeout port) := fun h => by cases h
theorem RoundTrip.linkWidthWindow (link : Nat) (loadPct : Nat) : RoundTrip.Statement (.linkWidthWindow link loadPct) := fun h => by cases h
theorem RoundTrip.linkWiden (link : Nat) : RoundTrip.Statement (.linkWiden link) := fun h => by cases h
theorem RoundTrip.linkWidthHandshakeDone (link : Nat) : RoundTrip.Statement (.linkWidthHandshakeDone link) := fun h => by cases h
theorem RoundTrip.packageReset (update : Option BootImage) : RoundTrip.Statement (.packageReset update) := fun h => by cases h
theorem RoundTrip.packageBoot (f : BootFound) : RoundTrip.Statement (.packageBoot f) := fun h => by cases h
theorem RoundTrip.controllerHeartbeat : RoundTrip.Statement (.controllerHeartbeat) := fun h => by cases h
theorem RoundTrip.controllerFailover : RoundTrip.Statement (.controllerFailover) := fun h => by cases h
theorem RoundTrip.stateSummary (ends : Bool) : RoundTrip.Statement (.stateSummary ends) := fun h => by cases h
theorem RoundTrip.journalClear (bootStep : Nat) : RoundTrip.Statement (.journalClear bootStep) := fun h => by cases h
theorem RoundTrip.doeUnknownCommand (code : Byte) : RoundTrip.Statement (.doeUnknownCommand code) := fun h => by cases h
theorem RoundTrip.expansionTableReplace (die : Nat) (svn : Nat) (omitted : List Nat) (signed : Bool) : RoundTrip.Statement (.expansionTableReplace die svn omitted signed) := fun h => by cases h
theorem RoundTrip.thermalSensorRead (celsius : List Int) : RoundTrip.Statement (.thermalSensorRead celsius) := fun h => by cases h
theorem RoundTrip.patrolScrub (die : Nat) (err : BitVec 2) : RoundTrip.Statement (.patrolScrub die err) := fun h => by cases h
theorem RoundTrip.foehnTest (die : Nat) (cls : Nat) (idx : Nat) (pass : Bool) : RoundTrip.Statement (.foehnTest die cls idx pass) := fun h => by cases h
theorem RoundTrip.redundantOn (c : Nat) : RoundTrip.Statement (.redundantOn c) := fun h => by cases h
theorem RoundTrip.redundantOff (c : Nat) : RoundTrip.Statement (.redundantOff c) := fun h => by cases h
theorem RoundTrip.recordOn (c : Nat) : RoundTrip.Statement (.recordOn c) := fun h => by cases h
theorem RoundTrip.replayOn (c : Nat) : RoundTrip.Statement (.replayOn c) := fun h => by cases h
theorem RoundTrip.recordReplayOff (c : Nat) : RoundTrip.Statement (.recordReplayOff c) := fun h => by cases h
theorem RoundTrip.intervalClose (c : Nat) : RoundTrip.Statement (.intervalClose c) := fun h => by cases h
theorem RoundTrip.redundantTimeout (c : Nat) : RoundTrip.Statement (.redundantTimeout c) := fun h => by cases h
theorem RoundTrip.illegalEncoding (w : BitVec 32) : RoundTrip.Statement (.illegalEncoding w) := fun h => by cases h
theorem RoundTrip.instructionFetchFault (cause : Nat) (addr : Word) : RoundTrip.Statement (.instructionFetchFault cause addr) := fun h => by cases h
theorem RoundTrip.linkRetrained (port : Nat) : RoundTrip.Statement (.linkRetrained port) := fun h => by cases h
theorem RoundTrip.functionEnable (port : Nat) (fn : Nat) (enable : Bool) : RoundTrip.Statement (.functionEnable port fn enable) := fun h => by cases h
theorem RoundTrip.powerRemoved : RoundTrip.Statement (.powerRemoved) := fun h => by cases h
theorem RoundTrip.dptokenWrite (v : Word) : RoundTrip.Statement (.dptokenWrite v) := fun h => by cases h
theorem RoundTrip.add (d : BitVec 5) (a : BitVec 5) (b : BitVec 5) : RoundTrip.Statement (.add d a b) := fun _ => by
  have hm : (encAdd d a b).extractLsb' 26 6 = 0x00#6 := by
    simp (disch := decide) only [encAdd, RoundTrip.low, RoundTrip.high, RoundTrip.whole, Nat.reduceSub] <;> rfl
  change decodeByMajor ((encAdd d a b).extractLsb' 26 6) (encAdd d a b) = _
  rw [hm]
  have ho : (encAdd d a b).extractLsb' 0 5 = 0x1#5 := by
    simp (disch := decide) only [encAdd, RoundTrip.low, RoundTrip.high, RoundTrip.whole, Nat.reduceSub] <;> rfl
  change decodeMajor00Op ((encAdd d a b).extractLsb' 0 5) (encAdd d a b) = _
  rw [ho]
  change ((if (encAdd d a b).extractLsb' 5 6 == 0x0#6 then some (.add ((encAdd d a b).extractLsb' 21 5) ((encAdd d a b).extractLsb' 16 5) ((encAdd d a b).extractLsb' 11 5)) else none) : Option Instr) = _
  simp (disch := decide) only [encAdd, RoundTrip.low, RoundTrip.high, RoundTrip.whole, Nat.reduceSub] <;> rfl
theorem RoundTrip.sub (d : BitVec 5) (a : BitVec 5) (b : BitVec 5) : RoundTrip.Statement (.sub d a b) := fun _ => by
  have hm : (encSub d a b).extractLsb' 26 6 = 0x00#6 := by
    simp (disch := decide) only [encSub, RoundTrip.low, RoundTrip.high, RoundTrip.whole, Nat.reduceSub] <;> rfl
  change decodeByMajor ((encSub d a b).extractLsb' 26 6) (encSub d a b) = _
  rw [hm]
  have ho : (encSub d a b).extractLsb' 0 5 = 0x2#5 := by
    simp (disch := decide) only [encSub, RoundTrip.low, RoundTrip.high, RoundTrip.whole, Nat.reduceSub] <;> rfl
  change decodeMajor00Op ((encSub d a b).extractLsb' 0 5) (encSub d a b) = _
  rw [ho]
  change ((if (encSub d a b).extractLsb' 5 6 == 0x0#6 then some (.sub ((encSub d a b).extractLsb' 21 5) ((encSub d a b).extractLsb' 16 5) ((encSub d a b).extractLsb' 11 5)) else none) : Option Instr) = _
  simp (disch := decide) only [encSub, RoundTrip.low, RoundTrip.high, RoundTrip.whole, Nat.reduceSub] <;> rfl
theorem RoundTrip.and (d : BitVec 5) (a : BitVec 5) (b : BitVec 5) : RoundTrip.Statement (.and d a b) := fun _ => by
  have hm : (encAnd d a b).extractLsb' 26 6 = 0x00#6 := by
    simp (disch := decide) only [encAnd, RoundTrip.low, RoundTrip.high, RoundTrip.whole, Nat.reduceSub] <;> rfl
  change decodeByMajor ((encAnd d a b).extractLsb' 26 6) (encAnd d a b) = _
  rw [hm]
  have ho : (encAnd d a b).extractLsb' 0 5 = 0x3#5 := by
    simp (disch := decide) only [encAnd, RoundTrip.low, RoundTrip.high, RoundTrip.whole, Nat.reduceSub] <;> rfl
  change decodeMajor00Op ((encAnd d a b).extractLsb' 0 5) (encAnd d a b) = _
  rw [ho]
  change ((if (encAnd d a b).extractLsb' 5 6 == 0x0#6 then some (.and ((encAnd d a b).extractLsb' 21 5) ((encAnd d a b).extractLsb' 16 5) ((encAnd d a b).extractLsb' 11 5)) else none) : Option Instr) = _
  simp (disch := decide) only [encAnd, RoundTrip.low, RoundTrip.high, RoundTrip.whole, Nat.reduceSub] <;> rfl
theorem RoundTrip.or (d : BitVec 5) (a : BitVec 5) (b : BitVec 5) : RoundTrip.Statement (.or d a b) := fun _ => by
  have hm : (encOr d a b).extractLsb' 26 6 = 0x00#6 := by
    simp (disch := decide) only [encOr, RoundTrip.low, RoundTrip.high, RoundTrip.whole, Nat.reduceSub] <;> rfl
  change decodeByMajor ((encOr d a b).extractLsb' 26 6) (encOr d a b) = _
  rw [hm]
  have ho : (encOr d a b).extractLsb' 0 5 = 0x4#5 := by
    simp (disch := decide) only [encOr, RoundTrip.low, RoundTrip.high, RoundTrip.whole, Nat.reduceSub] <;> rfl
  change decodeMajor00Op ((encOr d a b).extractLsb' 0 5) (encOr d a b) = _
  rw [ho]
  change ((if (encOr d a b).extractLsb' 5 6 == 0x0#6 then some (.or ((encOr d a b).extractLsb' 21 5) ((encOr d a b).extractLsb' 16 5) ((encOr d a b).extractLsb' 11 5)) else none) : Option Instr) = _
  simp (disch := decide) only [encOr, RoundTrip.low, RoundTrip.high, RoundTrip.whole, Nat.reduceSub] <;> rfl
theorem RoundTrip.xor (d : BitVec 5) (a : BitVec 5) (b : BitVec 5) : RoundTrip.Statement (.xor d a b) := fun _ => by
  have hm : (encXor d a b).extractLsb' 26 6 = 0x00#6 := by
    simp (disch := decide) only [encXor, RoundTrip.low, RoundTrip.high, RoundTrip.whole, Nat.reduceSub] <;> rfl
  change decodeByMajor ((encXor d a b).extractLsb' 26 6) (encXor d a b) = _
  rw [hm]
  have ho : (encXor d a b).extractLsb' 0 5 = 0x5#5 := by
    simp (disch := decide) only [encXor, RoundTrip.low, RoundTrip.high, RoundTrip.whole, Nat.reduceSub] <;> rfl
  change decodeMajor00Op ((encXor d a b).extractLsb' 0 5) (encXor d a b) = _
  rw [ho]
  change ((if (encXor d a b).extractLsb' 5 6 == 0x0#6 then some (.xor ((encXor d a b).extractLsb' 21 5) ((encXor d a b).extractLsb' 16 5) ((encXor d a b).extractLsb' 11 5)) else none) : Option Instr) = _
  simp (disch := decide) only [encXor, RoundTrip.low, RoundTrip.high, RoundTrip.whole, Nat.reduceSub] <;> rfl
theorem RoundTrip.sll (d : BitVec 5) (a : BitVec 5) (b : BitVec 5) : RoundTrip.Statement (.sll d a b) := fun _ => by
  have hm : (encSll d a b).extractLsb' 26 6 = 0x00#6 := by
    simp (disch := decide) only [encSll, RoundTrip.low, RoundTrip.high, RoundTrip.whole, Nat.reduceSub] <;> rfl
  change decodeByMajor ((encSll d a b).extractLsb' 26 6) (encSll d a b) = _
  rw [hm]
  have ho : (encSll d a b).extractLsb' 0 5 = 0x6#5 := by
    simp (disch := decide) only [encSll, RoundTrip.low, RoundTrip.high, RoundTrip.whole, Nat.reduceSub] <;> rfl
  change decodeMajor00Op ((encSll d a b).extractLsb' 0 5) (encSll d a b) = _
  rw [ho]
  change ((if (encSll d a b).extractLsb' 5 6 == 0x0#6 then some (.sll ((encSll d a b).extractLsb' 21 5) ((encSll d a b).extractLsb' 16 5) ((encSll d a b).extractLsb' 11 5)) else none) : Option Instr) = _
  simp (disch := decide) only [encSll, RoundTrip.low, RoundTrip.high, RoundTrip.whole, Nat.reduceSub] <;> rfl
theorem RoundTrip.srl (d : BitVec 5) (a : BitVec 5) (b : BitVec 5) : RoundTrip.Statement (.srl d a b) := fun _ => by
  have hm : (encSrl d a b).extractLsb' 26 6 = 0x00#6 := by
    simp (disch := decide) only [encSrl, RoundTrip.low, RoundTrip.high, RoundTrip.whole, Nat.reduceSub] <;> rfl
  change decodeByMajor ((encSrl d a b).extractLsb' 26 6) (encSrl d a b) = _
  rw [hm]
  have ho : (encSrl d a b).extractLsb' 0 5 = 0x7#5 := by
    simp (disch := decide) only [encSrl, RoundTrip.low, RoundTrip.high, RoundTrip.whole, Nat.reduceSub] <;> rfl
  change decodeMajor00Op ((encSrl d a b).extractLsb' 0 5) (encSrl d a b) = _
  rw [ho]
  change ((if (encSrl d a b).extractLsb' 5 6 == 0x0#6 then some (.srl ((encSrl d a b).extractLsb' 21 5) ((encSrl d a b).extractLsb' 16 5) ((encSrl d a b).extractLsb' 11 5)) else none) : Option Instr) = _
  simp (disch := decide) only [encSrl, RoundTrip.low, RoundTrip.high, RoundTrip.whole, Nat.reduceSub] <;> rfl
theorem RoundTrip.sra (d : BitVec 5) (a : BitVec 5) (b : BitVec 5) : RoundTrip.Statement (.sra d a b) := fun _ => by
  have hm : (encSra d a b).extractLsb' 26 6 = 0x00#6 := by
    simp (disch := decide) only [encSra, RoundTrip.low, RoundTrip.high, RoundTrip.whole, Nat.reduceSub] <;> rfl
  change decodeByMajor ((encSra d a b).extractLsb' 26 6) (encSra d a b) = _
  rw [hm]
  have ho : (encSra d a b).extractLsb' 0 5 = 0x8#5 := by
    simp (disch := decide) only [encSra, RoundTrip.low, RoundTrip.high, RoundTrip.whole, Nat.reduceSub] <;> rfl
  change decodeMajor00Op ((encSra d a b).extractLsb' 0 5) (encSra d a b) = _
  rw [ho]
  change ((if (encSra d a b).extractLsb' 5 6 == 0x0#6 then some (.sra ((encSra d a b).extractLsb' 21 5) ((encSra d a b).extractLsb' 16 5) ((encSra d a b).extractLsb' 11 5)) else none) : Option Instr) = _
  simp (disch := decide) only [encSra, RoundTrip.low, RoundTrip.high, RoundTrip.whole, Nat.reduceSub] <;> rfl
theorem RoundTrip.slt (d : BitVec 5) (a : BitVec 5) (b : BitVec 5) : RoundTrip.Statement (.slt d a b) := fun _ => by
  have hm : (encSlt d a b).extractLsb' 26 6 = 0x00#6 := by
    simp (disch := decide) only [encSlt, RoundTrip.low, RoundTrip.high, RoundTrip.whole, Nat.reduceSub] <;> rfl
  change decodeByMajor ((encSlt d a b).extractLsb' 26 6) (encSlt d a b) = _
  rw [hm]
  have ho : (encSlt d a b).extractLsb' 0 5 = 0x9#5 := by
    simp (disch := decide) only [encSlt, RoundTrip.low, RoundTrip.high, RoundTrip.whole, Nat.reduceSub] <;> rfl
  change decodeMajor00Op ((encSlt d a b).extractLsb' 0 5) (encSlt d a b) = _
  rw [ho]
  change ((if (encSlt d a b).extractLsb' 5 6 == 0x0#6 then some (.slt ((encSlt d a b).extractLsb' 21 5) ((encSlt d a b).extractLsb' 16 5) ((encSlt d a b).extractLsb' 11 5)) else none) : Option Instr) = _
  simp (disch := decide) only [encSlt, RoundTrip.low, RoundTrip.high, RoundTrip.whole, Nat.reduceSub] <;> rfl
theorem RoundTrip.sltu (d : BitVec 5) (a : BitVec 5) (b : BitVec 5) : RoundTrip.Statement (.sltu d a b) := fun _ => by
  have hm : (encSltu d a b).extractLsb' 26 6 = 0x00#6 := by
    simp (disch := decide) only [encSltu, RoundTrip.low, RoundTrip.high, RoundTrip.whole, Nat.reduceSub] <;> rfl
  change decodeByMajor ((encSltu d a b).extractLsb' 26 6) (encSltu d a b) = _
  rw [hm]
  have ho : (encSltu d a b).extractLsb' 0 5 = 0xa#5 := by
    simp (disch := decide) only [encSltu, RoundTrip.low, RoundTrip.high, RoundTrip.whole, Nat.reduceSub] <;> rfl
  change decodeMajor00Op ((encSltu d a b).extractLsb' 0 5) (encSltu d a b) = _
  rw [ho]
  change ((if (encSltu d a b).extractLsb' 5 6 == 0x0#6 then some (.sltu ((encSltu d a b).extractLsb' 21 5) ((encSltu d a b).extractLsb' 16 5) ((encSltu d a b).extractLsb' 11 5)) else none) : Option Instr) = _
  simp (disch := decide) only [encSltu, RoundTrip.low, RoundTrip.high, RoundTrip.whole, Nat.reduceSub] <;> rfl
theorem RoundTrip.min (d : BitVec 5) (a : BitVec 5) (b : BitVec 5) : RoundTrip.Statement (.min d a b) := fun _ => by
  have hm : (encMin d a b).extractLsb' 26 6 = 0x00#6 := by
    simp (disch := decide) only [encMin, RoundTrip.low, RoundTrip.high, RoundTrip.whole, Nat.reduceSub] <;> rfl
  change decodeByMajor ((encMin d a b).extractLsb' 26 6) (encMin d a b) = _
  rw [hm]
  have ho : (encMin d a b).extractLsb' 0 5 = 0xb#5 := by
    simp (disch := decide) only [encMin, RoundTrip.low, RoundTrip.high, RoundTrip.whole, Nat.reduceSub] <;> rfl
  change decodeMajor00Op ((encMin d a b).extractLsb' 0 5) (encMin d a b) = _
  rw [ho]
  change ((if (encMin d a b).extractLsb' 5 6 == 0x0#6 then some (.min ((encMin d a b).extractLsb' 21 5) ((encMin d a b).extractLsb' 16 5) ((encMin d a b).extractLsb' 11 5)) else none) : Option Instr) = _
  simp (disch := decide) only [encMin, RoundTrip.low, RoundTrip.high, RoundTrip.whole, Nat.reduceSub] <;> rfl
theorem RoundTrip.max (d : BitVec 5) (a : BitVec 5) (b : BitVec 5) : RoundTrip.Statement (.max d a b) := fun _ => by
  have hm : (encMax d a b).extractLsb' 26 6 = 0x00#6 := by
    simp (disch := decide) only [encMax, RoundTrip.low, RoundTrip.high, RoundTrip.whole, Nat.reduceSub] <;> rfl
  change decodeByMajor ((encMax d a b).extractLsb' 26 6) (encMax d a b) = _
  rw [hm]
  have ho : (encMax d a b).extractLsb' 0 5 = 0xc#5 := by
    simp (disch := decide) only [encMax, RoundTrip.low, RoundTrip.high, RoundTrip.whole, Nat.reduceSub] <;> rfl
  change decodeMajor00Op ((encMax d a b).extractLsb' 0 5) (encMax d a b) = _
  rw [ho]
  change ((if (encMax d a b).extractLsb' 5 6 == 0x0#6 then some (.max ((encMax d a b).extractLsb' 21 5) ((encMax d a b).extractLsb' 16 5) ((encMax d a b).extractLsb' 11 5)) else none) : Option Instr) = _
  simp (disch := decide) only [encMax, RoundTrip.low, RoundTrip.high, RoundTrip.whole, Nat.reduceSub] <;> rfl
theorem RoundTrip.minu (d : BitVec 5) (a : BitVec 5) (b : BitVec 5) : RoundTrip.Statement (.minu d a b) := fun _ => by
  have hm : (encMinu d a b).extractLsb' 26 6 = 0x00#6 := by
    simp (disch := decide) only [encMinu, RoundTrip.low, RoundTrip.high, RoundTrip.whole, Nat.reduceSub] <;> rfl
  change decodeByMajor ((encMinu d a b).extractLsb' 26 6) (encMinu d a b) = _
  rw [hm]
  have ho : (encMinu d a b).extractLsb' 0 5 = 0xd#5 := by
    simp (disch := decide) only [encMinu, RoundTrip.low, RoundTrip.high, RoundTrip.whole, Nat.reduceSub] <;> rfl
  change decodeMajor00Op ((encMinu d a b).extractLsb' 0 5) (encMinu d a b) = _
  rw [ho]
  change ((if (encMinu d a b).extractLsb' 5 6 == 0x0#6 then some (.minu ((encMinu d a b).extractLsb' 21 5) ((encMinu d a b).extractLsb' 16 5) ((encMinu d a b).extractLsb' 11 5)) else none) : Option Instr) = _
  simp (disch := decide) only [encMinu, RoundTrip.low, RoundTrip.high, RoundTrip.whole, Nat.reduceSub] <;> rfl
theorem RoundTrip.maxu (d : BitVec 5) (a : BitVec 5) (b : BitVec 5) : RoundTrip.Statement (.maxu d a b) := fun _ => by
  have hm : (encMaxu d a b).extractLsb' 26 6 = 0x00#6 := by
    simp (disch := decide) only [encMaxu, RoundTrip.low, RoundTrip.high, RoundTrip.whole, Nat.reduceSub] <;> rfl
  change decodeByMajor ((encMaxu d a b).extractLsb' 26 6) (encMaxu d a b) = _
  rw [hm]
  have ho : (encMaxu d a b).extractLsb' 0 5 = 0xe#5 := by
    simp (disch := decide) only [encMaxu, RoundTrip.low, RoundTrip.high, RoundTrip.whole, Nat.reduceSub] <;> rfl
  change decodeMajor00Op ((encMaxu d a b).extractLsb' 0 5) (encMaxu d a b) = _
  rw [ho]
  change ((if (encMaxu d a b).extractLsb' 5 6 == 0x0#6 then some (.maxu ((encMaxu d a b).extractLsb' 21 5) ((encMaxu d a b).extractLsb' 16 5) ((encMaxu d a b).extractLsb' 11 5)) else none) : Option Instr) = _
  simp (disch := decide) only [encMaxu, RoundTrip.low, RoundTrip.high, RoundTrip.whole, Nat.reduceSub] <;> rfl
theorem RoundTrip.fshl (d : BitVec 5) (a : BitVec 5) (b : BitVec 5) (s : BitVec 6) : RoundTrip.Statement (.fshl d a b s) := fun _ => by
  have hm : (encFshl d a b s).extractLsb' 26 6 = 0x00#6 := by
    simp (disch := decide) only [encFshl, RoundTrip.low, RoundTrip.high, RoundTrip.whole, Nat.reduceSub] <;> rfl
  change decodeByMajor ((encFshl d a b s).extractLsb' 26 6) (encFshl d a b s) = _
  rw [hm]
  have ho : (encFshl d a b s).extractLsb' 0 5 = 0xf#5 := by
    simp (disch := decide) only [encFshl, RoundTrip.low, RoundTrip.high, RoundTrip.whole, Nat.reduceSub] <;> rfl
  change decodeMajor00Op ((encFshl d a b s).extractLsb' 0 5) (encFshl d a b s) = _
  rw [ho]
  change (some (.fshl ((encFshl d a b s).extractLsb' 21 5) ((encFshl d a b s).extractLsb' 16 5) ((encFshl d a b s).extractLsb' 11 5) ((encFshl d a b s).extractLsb' 5 6)) : Option Instr) = _
  simp (disch := decide) only [encFshl, RoundTrip.low, RoundTrip.high, RoundTrip.whole, Nat.reduceSub] <;> rfl
theorem RoundTrip.fshr (d : BitVec 5) (a : BitVec 5) (b : BitVec 5) (s : BitVec 6) : RoundTrip.Statement (.fshr d a b s) := fun _ => by
  have hm : (encFshr d a b s).extractLsb' 26 6 = 0x00#6 := by
    simp (disch := decide) only [encFshr, RoundTrip.low, RoundTrip.high, RoundTrip.whole, Nat.reduceSub] <;> rfl
  change decodeByMajor ((encFshr d a b s).extractLsb' 26 6) (encFshr d a b s) = _
  rw [hm]
  have ho : (encFshr d a b s).extractLsb' 0 5 = 0x10#5 := by
    simp (disch := decide) only [encFshr, RoundTrip.low, RoundTrip.high, RoundTrip.whole, Nat.reduceSub] <;> rfl
  change decodeMajor00Op ((encFshr d a b s).extractLsb' 0 5) (encFshr d a b s) = _
  rw [ho]
  change (some (.fshr ((encFshr d a b s).extractLsb' 21 5) ((encFshr d a b s).extractLsb' 16 5) ((encFshr d a b s).extractLsb' 11 5) ((encFshr d a b s).extractLsb' 5 6)) : Option Instr) = _
  simp (disch := decide) only [encFshr, RoundTrip.low, RoundTrip.high, RoundTrip.whole, Nat.reduceSub] <;> rfl
theorem RoundTrip.clz (d : BitVec 5) (a : BitVec 5) : RoundTrip.Statement (.clz d a) := fun _ => by
  have hm : (encClz d a).extractLsb' 26 6 = 0x00#6 := by
    simp (disch := decide) only [encClz, RoundTrip.low, RoundTrip.high, RoundTrip.whole, Nat.reduceSub] <;> rfl
  change decodeByMajor ((encClz d a).extractLsb' 26 6) (encClz d a) = _
  rw [hm]
  have ho : (encClz d a).extractLsb' 0 5 = 0x11#5 := by
    simp (disch := decide) only [encClz, RoundTrip.low, RoundTrip.high, RoundTrip.whole, Nat.reduceSub] <;> rfl
  change decodeMajor00Op ((encClz d a).extractLsb' 0 5) (encClz d a) = _
  rw [ho]
  change ((if (encClz d a).extractLsb' 5 11 == 0x0#11 then some (.clz ((encClz d a).extractLsb' 21 5) ((encClz d a).extractLsb' 16 5)) else none) : Option Instr) = _
  simp (disch := decide) only [encClz, RoundTrip.low, RoundTrip.high, RoundTrip.whole, Nat.reduceSub] <;> rfl
theorem RoundTrip.ctz (d : BitVec 5) (a : BitVec 5) : RoundTrip.Statement (.ctz d a) := fun _ => by
  have hm : (encCtz d a).extractLsb' 26 6 = 0x00#6 := by
    simp (disch := decide) only [encCtz, RoundTrip.low, RoundTrip.high, RoundTrip.whole, Nat.reduceSub] <;> rfl
  change decodeByMajor ((encCtz d a).extractLsb' 26 6) (encCtz d a) = _
  rw [hm]
  have ho : (encCtz d a).extractLsb' 0 5 = 0x12#5 := by
    simp (disch := decide) only [encCtz, RoundTrip.low, RoundTrip.high, RoundTrip.whole, Nat.reduceSub] <;> rfl
  change decodeMajor00Op ((encCtz d a).extractLsb' 0 5) (encCtz d a) = _
  rw [ho]
  change ((if (encCtz d a).extractLsb' 5 11 == 0x0#11 then some (.ctz ((encCtz d a).extractLsb' 21 5) ((encCtz d a).extractLsb' 16 5)) else none) : Option Instr) = _
  simp (disch := decide) only [encCtz, RoundTrip.low, RoundTrip.high, RoundTrip.whole, Nat.reduceSub] <;> rfl
theorem RoundTrip.popc (d : BitVec 5) (a : BitVec 5) : RoundTrip.Statement (.popc d a) := fun _ => by
  have hm : (encPopc d a).extractLsb' 26 6 = 0x00#6 := by
    simp (disch := decide) only [encPopc, RoundTrip.low, RoundTrip.high, RoundTrip.whole, Nat.reduceSub] <;> rfl
  change decodeByMajor ((encPopc d a).extractLsb' 26 6) (encPopc d a) = _
  rw [hm]
  have ho : (encPopc d a).extractLsb' 0 5 = 0x13#5 := by
    simp (disch := decide) only [encPopc, RoundTrip.low, RoundTrip.high, RoundTrip.whole, Nat.reduceSub] <;> rfl
  change decodeMajor00Op ((encPopc d a).extractLsb' 0 5) (encPopc d a) = _
  rw [ho]
  change ((if (encPopc d a).extractLsb' 5 11 == 0x0#11 then some (.popc ((encPopc d a).extractLsb' 21 5) ((encPopc d a).extractLsb' 16 5)) else none) : Option Instr) = _
  simp (disch := decide) only [encPopc, RoundTrip.low, RoundTrip.high, RoundTrip.whole, Nat.reduceSub] <;> rfl
theorem RoundTrip.sel (d : BitVec 5) (a : BitVec 5) (b : BitVec 5) : RoundTrip.Statement (.sel d a b) := fun _ => by
  have hm : (encSel d a b).extractLsb' 26 6 = 0x00#6 := by
    simp (disch := decide) only [encSel, RoundTrip.low, RoundTrip.high, RoundTrip.whole, Nat.reduceSub] <;> rfl
  change decodeByMajor ((encSel d a b).extractLsb' 26 6) (encSel d a b) = _
  rw [hm]
  have ho : (encSel d a b).extractLsb' 0 5 = 0x14#5 := by
    simp (disch := decide) only [encSel, RoundTrip.low, RoundTrip.high, RoundTrip.whole, Nat.reduceSub] <;> rfl
  change decodeMajor00Op ((encSel d a b).extractLsb' 0 5) (encSel d a b) = _
  rw [ho]
  change ((if (encSel d a b).extractLsb' 5 6 == 0x0#6 then some (.sel ((encSel d a b).extractLsb' 21 5) ((encSel d a b).extractLsb' 16 5) ((encSel d a b).extractLsb' 11 5)) else none) : Option Instr) = _
  simp (disch := decide) only [encSel, RoundTrip.low, RoundTrip.high, RoundTrip.whole, Nat.reduceSub] <;> rfl
theorem RoundTrip.ext (d : BitVec 5) (a : BitVec 5) (l : BitVec 5) (p : BitVec 6) : RoundTrip.Statement (.ext d a l p) := fun _ => by
  have hm : (encExt d a l p).extractLsb' 26 6 = 0x00#6 := by
    simp (disch := decide) only [encExt, RoundTrip.low, RoundTrip.high, RoundTrip.whole, Nat.reduceSub] <;> rfl
  change decodeByMajor ((encExt d a l p).extractLsb' 26 6) (encExt d a l p) = _
  rw [hm]
  have ho : (encExt d a l p).extractLsb' 0 5 = 0x15#5 := by
    simp (disch := decide) only [encExt, RoundTrip.low, RoundTrip.high, RoundTrip.whole, Nat.reduceSub] <;> rfl
  change decodeMajor00Op ((encExt d a l p).extractLsb' 0 5) (encExt d a l p) = _
  rw [ho]
  change (some (.ext ((encExt d a l p).extractLsb' 21 5) ((encExt d a l p).extractLsb' 16 5) ((encExt d a l p).extractLsb' 11 5) ((encExt d a l p).extractLsb' 5 6)) : Option Instr) = _
  simp (disch := decide) only [encExt, RoundTrip.low, RoundTrip.high, RoundTrip.whole, Nat.reduceSub] <;> rfl
theorem RoundTrip.ins (d : BitVec 5) (a : BitVec 5) (l : BitVec 5) (p : BitVec 6) : RoundTrip.Statement (.ins d a l p) := fun _ => by
  have hm : (encIns d a l p).extractLsb' 26 6 = 0x00#6 := by
    simp (disch := decide) only [encIns, RoundTrip.low, RoundTrip.high, RoundTrip.whole, Nat.reduceSub] <;> rfl
  change decodeByMajor ((encIns d a l p).extractLsb' 26 6) (encIns d a l p) = _
  rw [hm]
  have ho : (encIns d a l p).extractLsb' 0 5 = 0x16#5 := by
    simp (disch := decide) only [encIns, RoundTrip.low, RoundTrip.high, RoundTrip.whole, Nat.reduceSub] <;> rfl
  change decodeMajor00Op ((encIns d a l p).extractLsb' 0 5) (encIns d a l p) = _
  rw [ho]
  change (some (.ins ((encIns d a l p).extractLsb' 21 5) ((encIns d a l p).extractLsb' 16 5) ((encIns d a l p).extractLsb' 11 5) ((encIns d a l p).extractLsb' 5 6)) : Option Instr) = _
  simp (disch := decide) only [encIns, RoundTrip.low, RoundTrip.high, RoundTrip.whole, Nat.reduceSub] <;> rfl
theorem RoundTrip.addi (d : BitVec 5) (a : BitVec 5) (i : BitVec 16) : RoundTrip.Statement (.addi d a i) := fun _ => by
  have hm : (encAddi d a i).extractLsb' 26 6 = 0x01#6 := by
    simp (disch := decide) only [encAddi, RoundTrip.low, RoundTrip.high, RoundTrip.whole, Nat.reduceSub] <;> rfl
  change decodeByMajor ((encAddi d a i).extractLsb' 26 6) (encAddi d a i) = _
  rw [hm]
  change (some (.addi ((encAddi d a i).extractLsb' 21 5) ((encAddi d a i).extractLsb' 16 5) ((encAddi d a i).extractLsb' 0 16)) : Option Instr) = _
  simp (disch := decide) only [encAddi, RoundTrip.low, RoundTrip.high, RoundTrip.whole, Nat.reduceSub] <;> rfl
theorem RoundTrip.andi (d : BitVec 5) (a : BitVec 5) (i : BitVec 16) : RoundTrip.Statement (.andi d a i) := fun _ => by
  have hm : (encAndi d a i).extractLsb' 26 6 = 0x02#6 := by
    simp (disch := decide) only [encAndi, RoundTrip.low, RoundTrip.high, RoundTrip.whole, Nat.reduceSub] <;> rfl
  change decodeByMajor ((encAndi d a i).extractLsb' 26 6) (encAndi d a i) = _
  rw [hm]
  change (some (.andi ((encAndi d a i).extractLsb' 21 5) ((encAndi d a i).extractLsb' 16 5) ((encAndi d a i).extractLsb' 0 16)) : Option Instr) = _
  simp (disch := decide) only [encAndi, RoundTrip.low, RoundTrip.high, RoundTrip.whole, Nat.reduceSub] <;> rfl
theorem RoundTrip.ori (d : BitVec 5) (a : BitVec 5) (i : BitVec 16) : RoundTrip.Statement (.ori d a i) := fun _ => by
  have hm : (encOri d a i).extractLsb' 26 6 = 0x03#6 := by
    simp (disch := decide) only [encOri, RoundTrip.low, RoundTrip.high, RoundTrip.whole, Nat.reduceSub] <;> rfl
  change decodeByMajor ((encOri d a i).extractLsb' 26 6) (encOri d a i) = _
  rw [hm]
  change (some (.ori ((encOri d a i).extractLsb' 21 5) ((encOri d a i).extractLsb' 16 5) ((encOri d a i).extractLsb' 0 16)) : Option Instr) = _
  simp (disch := decide) only [encOri, RoundTrip.low, RoundTrip.high, RoundTrip.whole, Nat.reduceSub] <;> rfl
theorem RoundTrip.xori (d : BitVec 5) (a : BitVec 5) (i : BitVec 16) : RoundTrip.Statement (.xori d a i) := fun _ => by
  have hm : (encXori d a i).extractLsb' 26 6 = 0x04#6 := by
    simp (disch := decide) only [encXori, RoundTrip.low, RoundTrip.high, RoundTrip.whole, Nat.reduceSub] <;> rfl
  change decodeByMajor ((encXori d a i).extractLsb' 26 6) (encXori d a i) = _
  rw [hm]
  change (some (.xori ((encXori d a i).extractLsb' 21 5) ((encXori d a i).extractLsb' 16 5) ((encXori d a i).extractLsb' 0 16)) : Option Instr) = _
  simp (disch := decide) only [encXori, RoundTrip.low, RoundTrip.high, RoundTrip.whole, Nat.reduceSub] <;> rfl
theorem RoundTrip.slli (d : BitVec 5) (a : BitVec 5) (s : BitVec 6) : RoundTrip.Statement (.slli d a s) := fun _ => by
  have hm : (encSlli d a s).extractLsb' 26 6 = 0x05#6 := by
    simp (disch := decide) only [encSlli, RoundTrip.low, RoundTrip.high, RoundTrip.whole, Nat.reduceSub] <;> rfl
  change decodeByMajor ((encSlli d a s).extractLsb' 26 6) (encSlli d a s) = _
  rw [hm]
  have ho : (encSlli d a s).extractLsb' 14 2 = 0x0#2 := by
    simp (disch := decide) only [encSlli, RoundTrip.low, RoundTrip.high, RoundTrip.whole, Nat.reduceSub] <;> rfl
  change decodeMajor05Op ((encSlli d a s).extractLsb' 14 2) (encSlli d a s) = _
  rw [ho]
  change ((if (encSlli d a s).extractLsb' 6 8 == 0x0#8 then some (.slli ((encSlli d a s).extractLsb' 21 5) ((encSlli d a s).extractLsb' 16 5) ((encSlli d a s).extractLsb' 0 6)) else none) : Option Instr) = _
  simp (disch := decide) only [encSlli, RoundTrip.low, RoundTrip.high, RoundTrip.whole, Nat.reduceSub] <;> rfl
theorem RoundTrip.srli (d : BitVec 5) (a : BitVec 5) (s : BitVec 6) : RoundTrip.Statement (.srli d a s) := fun _ => by
  have hm : (encSrli d a s).extractLsb' 26 6 = 0x05#6 := by
    simp (disch := decide) only [encSrli, RoundTrip.low, RoundTrip.high, RoundTrip.whole, Nat.reduceSub] <;> rfl
  change decodeByMajor ((encSrli d a s).extractLsb' 26 6) (encSrli d a s) = _
  rw [hm]
  have ho : (encSrli d a s).extractLsb' 14 2 = 0x1#2 := by
    simp (disch := decide) only [encSrli, RoundTrip.low, RoundTrip.high, RoundTrip.whole, Nat.reduceSub] <;> rfl
  change decodeMajor05Op ((encSrli d a s).extractLsb' 14 2) (encSrli d a s) = _
  rw [ho]
  change ((if (encSrli d a s).extractLsb' 6 8 == 0x0#8 then some (.srli ((encSrli d a s).extractLsb' 21 5) ((encSrli d a s).extractLsb' 16 5) ((encSrli d a s).extractLsb' 0 6)) else none) : Option Instr) = _
  simp (disch := decide) only [encSrli, RoundTrip.low, RoundTrip.high, RoundTrip.whole, Nat.reduceSub] <;> rfl
theorem RoundTrip.srai (d : BitVec 5) (a : BitVec 5) (s : BitVec 6) : RoundTrip.Statement (.srai d a s) := fun _ => by
  have hm : (encSrai d a s).extractLsb' 26 6 = 0x05#6 := by
    simp (disch := decide) only [encSrai, RoundTrip.low, RoundTrip.high, RoundTrip.whole, Nat.reduceSub] <;> rfl
  change decodeByMajor ((encSrai d a s).extractLsb' 26 6) (encSrai d a s) = _
  rw [hm]
  have ho : (encSrai d a s).extractLsb' 14 2 = 0x2#2 := by
    simp (disch := decide) only [encSrai, RoundTrip.low, RoundTrip.high, RoundTrip.whole, Nat.reduceSub] <;> rfl
  change decodeMajor05Op ((encSrai d a s).extractLsb' 14 2) (encSrai d a s) = _
  rw [ho]
  change ((if (encSrai d a s).extractLsb' 6 8 == 0x0#8 then some (.srai ((encSrai d a s).extractLsb' 21 5) ((encSrai d a s).extractLsb' 16 5) ((encSrai d a s).extractLsb' 0 6)) else none) : Option Instr) = _
  simp (disch := decide) only [encSrai, RoundTrip.low, RoundTrip.high, RoundTrip.whole, Nat.reduceSub] <;> rfl
theorem RoundTrip.slti (d : BitVec 5) (a : BitVec 5) (i : BitVec 16) : RoundTrip.Statement (.slti d a i) := fun _ => by
  have hm : (encSlti d a i).extractLsb' 26 6 = 0x06#6 := by
    simp (disch := decide) only [encSlti, RoundTrip.low, RoundTrip.high, RoundTrip.whole, Nat.reduceSub] <;> rfl
  change decodeByMajor ((encSlti d a i).extractLsb' 26 6) (encSlti d a i) = _
  rw [hm]
  change (some (.slti ((encSlti d a i).extractLsb' 21 5) ((encSlti d a i).extractLsb' 16 5) ((encSlti d a i).extractLsb' 0 16)) : Option Instr) = _
  simp (disch := decide) only [encSlti, RoundTrip.low, RoundTrip.high, RoundTrip.whole, Nat.reduceSub] <;> rfl
theorem RoundTrip.sltiu (d : BitVec 5) (a : BitVec 5) (i : BitVec 16) : RoundTrip.Statement (.sltiu d a i) := fun _ => by
  have hm : (encSltiu d a i).extractLsb' 26 6 = 0x07#6 := by
    simp (disch := decide) only [encSltiu, RoundTrip.low, RoundTrip.high, RoundTrip.whole, Nat.reduceSub] <;> rfl
  change decodeByMajor ((encSltiu d a i).extractLsb' 26 6) (encSltiu d a i) = _
  rw [hm]
  change (some (.sltiu ((encSltiu d a i).extractLsb' 21 5) ((encSltiu d a i).extractLsb' 16 5) ((encSltiu d a i).extractLsb' 0 16)) : Option Instr) = _
  simp (disch := decide) only [encSltiu, RoundTrip.low, RoundTrip.high, RoundTrip.whole, Nat.reduceSub] <;> rfl
theorem RoundTrip.lui (d : BitVec 5) (i : BitVec 21) : RoundTrip.Statement (.lui d i) := fun _ => by
  have hm : (encLui d i).extractLsb' 26 6 = 0x08#6 := by
    simp (disch := decide) only [encLui, RoundTrip.low, RoundTrip.high, RoundTrip.whole, Nat.reduceSub] <;> rfl
  change decodeByMajor ((encLui d i).extractLsb' 26 6) (encLui d i) = _
  rw [hm]
  change (some (.lui ((encLui d i).extractLsb' 21 5) ((encLui d i).extractLsb' 0 21)) : Option Instr) = _
  simp (disch := decide) only [encLui, RoundTrip.low, RoundTrip.high, RoundTrip.whole, Nat.reduceSub] <;> rfl
theorem RoundTrip.addpc (d : BitVec 5) (i : BitVec 21) : RoundTrip.Statement (.addpc d i) := fun _ => by
  have hm : (encAddpc d i).extractLsb' 26 6 = 0x09#6 := by
    simp (disch := decide) only [encAddpc, RoundTrip.low, RoundTrip.high, RoundTrip.whole, Nat.reduceSub] <;> rfl
  change decodeByMajor ((encAddpc d i).extractLsb' 26 6) (encAddpc d i) = _
  rw [hm]
  change (some (.addpc ((encAddpc d i).extractLsb' 21 5) ((encAddpc d i).extractLsb' 0 21)) : Option Instr) = _
  simp (disch := decide) only [encAddpc, RoundTrip.low, RoundTrip.high, RoundTrip.whole, Nat.reduceSub] <;> rfl
theorem RoundTrip.mul (d : BitVec 5) (a : BitVec 5) (b : BitVec 5) : RoundTrip.Statement (.mul d a b) := fun _ => by
  have hm : (encMul d a b).extractLsb' 26 6 = 0x0a#6 := by
    simp (disch := decide) only [encMul, RoundTrip.low, RoundTrip.high, RoundTrip.whole, Nat.reduceSub] <;> rfl
  change decodeByMajor ((encMul d a b).extractLsb' 26 6) (encMul d a b) = _
  rw [hm]
  have ho : (encMul d a b).extractLsb' 0 11 = 0x0#11 := by
    simp (disch := decide) only [encMul, RoundTrip.low, RoundTrip.high, RoundTrip.whole, Nat.reduceSub] <;> rfl
  change decodeMajor0AOp ((encMul d a b).extractLsb' 0 11) (encMul d a b) = _
  rw [ho]
  change (some (.mul ((encMul d a b).extractLsb' 21 5) ((encMul d a b).extractLsb' 16 5) ((encMul d a b).extractLsb' 11 5)) : Option Instr) = _
  simp (disch := decide) only [encMul, RoundTrip.low, RoundTrip.high, RoundTrip.whole, Nat.reduceSub] <;> rfl
theorem RoundTrip.mulh (d : BitVec 5) (a : BitVec 5) (b : BitVec 5) : RoundTrip.Statement (.mulh d a b) := fun _ => by
  have hm : (encMulh d a b).extractLsb' 26 6 = 0x0a#6 := by
    simp (disch := decide) only [encMulh, RoundTrip.low, RoundTrip.high, RoundTrip.whole, Nat.reduceSub] <;> rfl
  change decodeByMajor ((encMulh d a b).extractLsb' 26 6) (encMulh d a b) = _
  rw [hm]
  have ho : (encMulh d a b).extractLsb' 0 11 = 0x1#11 := by
    simp (disch := decide) only [encMulh, RoundTrip.low, RoundTrip.high, RoundTrip.whole, Nat.reduceSub] <;> rfl
  change decodeMajor0AOp ((encMulh d a b).extractLsb' 0 11) (encMulh d a b) = _
  rw [ho]
  change (some (.mulh ((encMulh d a b).extractLsb' 21 5) ((encMulh d a b).extractLsb' 16 5) ((encMulh d a b).extractLsb' 11 5)) : Option Instr) = _
  simp (disch := decide) only [encMulh, RoundTrip.low, RoundTrip.high, RoundTrip.whole, Nat.reduceSub] <;> rfl
theorem RoundTrip.mulhu (d : BitVec 5) (a : BitVec 5) (b : BitVec 5) : RoundTrip.Statement (.mulhu d a b) := fun _ => by
  have hm : (encMulhu d a b).extractLsb' 26 6 = 0x0a#6 := by
    simp (disch := decide) only [encMulhu, RoundTrip.low, RoundTrip.high, RoundTrip.whole, Nat.reduceSub] <;> rfl
  change decodeByMajor ((encMulhu d a b).extractLsb' 26 6) (encMulhu d a b) = _
  rw [hm]
  have ho : (encMulhu d a b).extractLsb' 0 11 = 0x2#11 := by
    simp (disch := decide) only [encMulhu, RoundTrip.low, RoundTrip.high, RoundTrip.whole, Nat.reduceSub] <;> rfl
  change decodeMajor0AOp ((encMulhu d a b).extractLsb' 0 11) (encMulhu d a b) = _
  rw [ho]
  change (some (.mulhu ((encMulhu d a b).extractLsb' 21 5) ((encMulhu d a b).extractLsb' 16 5) ((encMulhu d a b).extractLsb' 11 5)) : Option Instr) = _
  simp (disch := decide) only [encMulhu, RoundTrip.low, RoundTrip.high, RoundTrip.whole, Nat.reduceSub] <;> rfl
theorem RoundTrip.div (d : BitVec 5) (a : BitVec 5) (b : BitVec 5) : RoundTrip.Statement (.div d a b) := fun _ => by
  have hm : (encDiv d a b).extractLsb' 26 6 = 0x0a#6 := by
    simp (disch := decide) only [encDiv, RoundTrip.low, RoundTrip.high, RoundTrip.whole, Nat.reduceSub] <;> rfl
  change decodeByMajor ((encDiv d a b).extractLsb' 26 6) (encDiv d a b) = _
  rw [hm]
  have ho : (encDiv d a b).extractLsb' 0 11 = 0x3#11 := by
    simp (disch := decide) only [encDiv, RoundTrip.low, RoundTrip.high, RoundTrip.whole, Nat.reduceSub] <;> rfl
  change decodeMajor0AOp ((encDiv d a b).extractLsb' 0 11) (encDiv d a b) = _
  rw [ho]
  change (some (.div ((encDiv d a b).extractLsb' 21 5) ((encDiv d a b).extractLsb' 16 5) ((encDiv d a b).extractLsb' 11 5)) : Option Instr) = _
  simp (disch := decide) only [encDiv, RoundTrip.low, RoundTrip.high, RoundTrip.whole, Nat.reduceSub] <;> rfl
theorem RoundTrip.divu (d : BitVec 5) (a : BitVec 5) (b : BitVec 5) : RoundTrip.Statement (.divu d a b) := fun _ => by
  have hm : (encDivu d a b).extractLsb' 26 6 = 0x0a#6 := by
    simp (disch := decide) only [encDivu, RoundTrip.low, RoundTrip.high, RoundTrip.whole, Nat.reduceSub] <;> rfl
  change decodeByMajor ((encDivu d a b).extractLsb' 26 6) (encDivu d a b) = _
  rw [hm]
  have ho : (encDivu d a b).extractLsb' 0 11 = 0x4#11 := by
    simp (disch := decide) only [encDivu, RoundTrip.low, RoundTrip.high, RoundTrip.whole, Nat.reduceSub] <;> rfl
  change decodeMajor0AOp ((encDivu d a b).extractLsb' 0 11) (encDivu d a b) = _
  rw [ho]
  change (some (.divu ((encDivu d a b).extractLsb' 21 5) ((encDivu d a b).extractLsb' 16 5) ((encDivu d a b).extractLsb' 11 5)) : Option Instr) = _
  simp (disch := decide) only [encDivu, RoundTrip.low, RoundTrip.high, RoundTrip.whole, Nat.reduceSub] <;> rfl
theorem RoundTrip.rem (d : BitVec 5) (a : BitVec 5) (b : BitVec 5) : RoundTrip.Statement (.rem d a b) := fun _ => by
  have hm : (encRem d a b).extractLsb' 26 6 = 0x0a#6 := by
    simp (disch := decide) only [encRem, RoundTrip.low, RoundTrip.high, RoundTrip.whole, Nat.reduceSub] <;> rfl
  change decodeByMajor ((encRem d a b).extractLsb' 26 6) (encRem d a b) = _
  rw [hm]
  have ho : (encRem d a b).extractLsb' 0 11 = 0x5#11 := by
    simp (disch := decide) only [encRem, RoundTrip.low, RoundTrip.high, RoundTrip.whole, Nat.reduceSub] <;> rfl
  change decodeMajor0AOp ((encRem d a b).extractLsb' 0 11) (encRem d a b) = _
  rw [ho]
  change (some (.rem ((encRem d a b).extractLsb' 21 5) ((encRem d a b).extractLsb' 16 5) ((encRem d a b).extractLsb' 11 5)) : Option Instr) = _
  simp (disch := decide) only [encRem, RoundTrip.low, RoundTrip.high, RoundTrip.whole, Nat.reduceSub] <;> rfl
theorem RoundTrip.remu (d : BitVec 5) (a : BitVec 5) (b : BitVec 5) : RoundTrip.Statement (.remu d a b) := fun _ => by
  have hm : (encRemu d a b).extractLsb' 26 6 = 0x0a#6 := by
    simp (disch := decide) only [encRemu, RoundTrip.low, RoundTrip.high, RoundTrip.whole, Nat.reduceSub] <;> rfl
  change decodeByMajor ((encRemu d a b).extractLsb' 26 6) (encRemu d a b) = _
  rw [hm]
  have ho : (encRemu d a b).extractLsb' 0 11 = 0x6#11 := by
    simp (disch := decide) only [encRemu, RoundTrip.low, RoundTrip.high, RoundTrip.whole, Nat.reduceSub] <;> rfl
  change decodeMajor0AOp ((encRemu d a b).extractLsb' 0 11) (encRemu d a b) = _
  rw [ho]
  change (some (.remu ((encRemu d a b).extractLsb' 21 5) ((encRemu d a b).extractLsb' 16 5) ((encRemu d a b).extractLsb' 11 5)) : Option Instr) = _
  simp (disch := decide) only [encRemu, RoundTrip.low, RoundTrip.high, RoundTrip.whole, Nat.reduceSub] <;> rfl
theorem RoundTrip.lut3 (d : BitVec 5) (a : BitVec 5) (b : BitVec 5) (t : BitVec 8) : RoundTrip.Statement (.lut3 d a b t) := fun _ => by
  have hm : (encLut3 d a b t).extractLsb' 26 6 = 0x0b#6 := by
    simp (disch := decide) only [encLut3, RoundTrip.low, RoundTrip.high, RoundTrip.whole, Nat.reduceSub] <;> rfl
  change decodeByMajor ((encLut3 d a b t).extractLsb' 26 6) (encLut3 d a b t) = _
  rw [hm]
  change (if (encLut3 d a b t).extractLsb' 8 3 == 0x0#3 then some (.lut3 ((encLut3 d a b t).extractLsb' 21 5) ((encLut3 d a b t).extractLsb' 16 5) ((encLut3 d a b t).extractLsb' 11 5) ((encLut3 d a b t).extractLsb' 0 8)) else none : Option Instr) = _
  simp (disch := decide) only [encLut3, RoundTrip.low, RoundTrip.high, RoundTrip.whole, Nat.reduceSub] <;> rfl
theorem RoundTrip.fadd (d : BitVec 5) (a : BitVec 5) (b : BitVec 5) (r : BitVec 3) (f : BitVec 4) : RoundTrip.Statement (.fadd d a b r f) := fun _ => by
  have hm : (encFadd d a b r f).extractLsb' 26 6 = 0x0c#6 := by
    simp (disch := decide) only [encFadd, RoundTrip.low, RoundTrip.high, RoundTrip.whole, Nat.reduceSub] <;> rfl
  change decodeByMajor ((encFadd d a b r f).extractLsb' 26 6) (encFadd d a b r f) = _
  rw [hm]
  have ho : (encFadd d a b r f).extractLsb' 0 4 = 0x0#4 := by
    simp (disch := decide) only [encFadd, RoundTrip.low, RoundTrip.high, RoundTrip.whole, Nat.reduceSub] <;> rfl
  change decodeMajor0COp ((encFadd d a b r f).extractLsb' 0 4) (encFadd d a b r f) = _
  rw [ho]
  change (some (.fadd ((encFadd d a b r f).extractLsb' 21 5) ((encFadd d a b r f).extractLsb' 16 5) ((encFadd d a b r f).extractLsb' 11 5) ((encFadd d a b r f).extractLsb' 8 3) ((encFadd d a b r f).extractLsb' 4 4)) : Option Instr) = _
  simp (disch := decide) only [encFadd, RoundTrip.low, RoundTrip.high, RoundTrip.whole, Nat.reduceSub] <;> rfl
theorem RoundTrip.fsub (d : BitVec 5) (a : BitVec 5) (b : BitVec 5) (r : BitVec 3) (f : BitVec 4) : RoundTrip.Statement (.fsub d a b r f) := fun _ => by
  have hm : (encFsub d a b r f).extractLsb' 26 6 = 0x0c#6 := by
    simp (disch := decide) only [encFsub, RoundTrip.low, RoundTrip.high, RoundTrip.whole, Nat.reduceSub] <;> rfl
  change decodeByMajor ((encFsub d a b r f).extractLsb' 26 6) (encFsub d a b r f) = _
  rw [hm]
  have ho : (encFsub d a b r f).extractLsb' 0 4 = 0x1#4 := by
    simp (disch := decide) only [encFsub, RoundTrip.low, RoundTrip.high, RoundTrip.whole, Nat.reduceSub] <;> rfl
  change decodeMajor0COp ((encFsub d a b r f).extractLsb' 0 4) (encFsub d a b r f) = _
  rw [ho]
  change (some (.fsub ((encFsub d a b r f).extractLsb' 21 5) ((encFsub d a b r f).extractLsb' 16 5) ((encFsub d a b r f).extractLsb' 11 5) ((encFsub d a b r f).extractLsb' 8 3) ((encFsub d a b r f).extractLsb' 4 4)) : Option Instr) = _
  simp (disch := decide) only [encFsub, RoundTrip.low, RoundTrip.high, RoundTrip.whole, Nat.reduceSub] <;> rfl
theorem RoundTrip.fmul (d : BitVec 5) (a : BitVec 5) (b : BitVec 5) (r : BitVec 3) (f : BitVec 4) : RoundTrip.Statement (.fmul d a b r f) := fun _ => by
  have hm : (encFmul d a b r f).extractLsb' 26 6 = 0x0c#6 := by
    simp (disch := decide) only [encFmul, RoundTrip.low, RoundTrip.high, RoundTrip.whole, Nat.reduceSub] <;> rfl
  change decodeByMajor ((encFmul d a b r f).extractLsb' 26 6) (encFmul d a b r f) = _
  rw [hm]
  have ho : (encFmul d a b r f).extractLsb' 0 4 = 0x2#4 := by
    simp (disch := decide) only [encFmul, RoundTrip.low, RoundTrip.high, RoundTrip.whole, Nat.reduceSub] <;> rfl
  change decodeMajor0COp ((encFmul d a b r f).extractLsb' 0 4) (encFmul d a b r f) = _
  rw [ho]
  change (some (.fmul ((encFmul d a b r f).extractLsb' 21 5) ((encFmul d a b r f).extractLsb' 16 5) ((encFmul d a b r f).extractLsb' 11 5) ((encFmul d a b r f).extractLsb' 8 3) ((encFmul d a b r f).extractLsb' 4 4)) : Option Instr) = _
  simp (disch := decide) only [encFmul, RoundTrip.low, RoundTrip.high, RoundTrip.whole, Nat.reduceSub] <;> rfl
theorem RoundTrip.fdiv (d : BitVec 5) (a : BitVec 5) (b : BitVec 5) (r : BitVec 3) (f : BitVec 4) : RoundTrip.Statement (.fdiv d a b r f) := fun _ => by
  have hm : (encFdiv d a b r f).extractLsb' 26 6 = 0x0c#6 := by
    simp (disch := decide) only [encFdiv, RoundTrip.low, RoundTrip.high, RoundTrip.whole, Nat.reduceSub] <;> rfl
  change decodeByMajor ((encFdiv d a b r f).extractLsb' 26 6) (encFdiv d a b r f) = _
  rw [hm]
  have ho : (encFdiv d a b r f).extractLsb' 0 4 = 0x3#4 := by
    simp (disch := decide) only [encFdiv, RoundTrip.low, RoundTrip.high, RoundTrip.whole, Nat.reduceSub] <;> rfl
  change decodeMajor0COp ((encFdiv d a b r f).extractLsb' 0 4) (encFdiv d a b r f) = _
  rw [ho]
  change (some (.fdiv ((encFdiv d a b r f).extractLsb' 21 5) ((encFdiv d a b r f).extractLsb' 16 5) ((encFdiv d a b r f).extractLsb' 11 5) ((encFdiv d a b r f).extractLsb' 8 3) ((encFdiv d a b r f).extractLsb' 4 4)) : Option Instr) = _
  simp (disch := decide) only [encFdiv, RoundTrip.low, RoundTrip.high, RoundTrip.whole, Nat.reduceSub] <;> rfl
theorem RoundTrip.fsqrt (d : BitVec 5) (a : BitVec 5) (r : BitVec 3) (f : BitVec 4) : RoundTrip.Statement (.fsqrt d a r f) := fun _ => by
  have hm : (encFsqrt d a r f).extractLsb' 26 6 = 0x0c#6 := by
    simp (disch := decide) only [encFsqrt, RoundTrip.low, RoundTrip.high, RoundTrip.whole, Nat.reduceSub] <;> rfl
  change decodeByMajor ((encFsqrt d a r f).extractLsb' 26 6) (encFsqrt d a r f) = _
  rw [hm]
  have ho : (encFsqrt d a r f).extractLsb' 0 4 = 0x4#4 := by
    simp (disch := decide) only [encFsqrt, RoundTrip.low, RoundTrip.high, RoundTrip.whole, Nat.reduceSub] <;> rfl
  change decodeMajor0COp ((encFsqrt d a r f).extractLsb' 0 4) (encFsqrt d a r f) = _
  rw [ho]
  change ((if (encFsqrt d a r f).extractLsb' 11 5 == 0x0#5 then some (.fsqrt ((encFsqrt d a r f).extractLsb' 21 5) ((encFsqrt d a r f).extractLsb' 16 5) ((encFsqrt d a r f).extractLsb' 8 3) ((encFsqrt d a r f).extractLsb' 4 4)) else none) : Option Instr) = _
  simp (disch := decide) only [encFsqrt, RoundTrip.low, RoundTrip.high, RoundTrip.whole, Nat.reduceSub] <;> rfl
theorem RoundTrip.fmin (d : BitVec 5) (a : BitVec 5) (b : BitVec 5) (f : BitVec 4) : RoundTrip.Statement (.fmin d a b f) := fun _ => by
  have hm : (encFmin d a b f).extractLsb' 26 6 = 0x0c#6 := by
    simp (disch := decide) only [encFmin, RoundTrip.low, RoundTrip.high, RoundTrip.whole, Nat.reduceSub] <;> rfl
  change decodeByMajor ((encFmin d a b f).extractLsb' 26 6) (encFmin d a b f) = _
  rw [hm]
  have ho : (encFmin d a b f).extractLsb' 0 4 = 0x5#4 := by
    simp (disch := decide) only [encFmin, RoundTrip.low, RoundTrip.high, RoundTrip.whole, Nat.reduceSub] <;> rfl
  change decodeMajor0COp ((encFmin d a b f).extractLsb' 0 4) (encFmin d a b f) = _
  rw [ho]
  change ((if (encFmin d a b f).extractLsb' 8 3 == 0x0#3 then some (.fmin ((encFmin d a b f).extractLsb' 21 5) ((encFmin d a b f).extractLsb' 16 5) ((encFmin d a b f).extractLsb' 11 5) ((encFmin d a b f).extractLsb' 4 4)) else none) : Option Instr) = _
  simp (disch := decide) only [encFmin, RoundTrip.low, RoundTrip.high, RoundTrip.whole, Nat.reduceSub] <;> rfl
theorem RoundTrip.fmax (d : BitVec 5) (a : BitVec 5) (b : BitVec 5) (f : BitVec 4) : RoundTrip.Statement (.fmax d a b f) := fun _ => by
  have hm : (encFmax d a b f).extractLsb' 26 6 = 0x0c#6 := by
    simp (disch := decide) only [encFmax, RoundTrip.low, RoundTrip.high, RoundTrip.whole, Nat.reduceSub] <;> rfl
  change decodeByMajor ((encFmax d a b f).extractLsb' 26 6) (encFmax d a b f) = _
  rw [hm]
  have ho : (encFmax d a b f).extractLsb' 0 4 = 0x6#4 := by
    simp (disch := decide) only [encFmax, RoundTrip.low, RoundTrip.high, RoundTrip.whole, Nat.reduceSub] <;> rfl
  change decodeMajor0COp ((encFmax d a b f).extractLsb' 0 4) (encFmax d a b f) = _
  rw [ho]
  change ((if (encFmax d a b f).extractLsb' 8 3 == 0x0#3 then some (.fmax ((encFmax d a b f).extractLsb' 21 5) ((encFmax d a b f).extractLsb' 16 5) ((encFmax d a b f).extractLsb' 11 5) ((encFmax d a b f).extractLsb' 4 4)) else none) : Option Instr) = _
  simp (disch := decide) only [encFmax, RoundTrip.low, RoundTrip.high, RoundTrip.whole, Nat.reduceSub] <;> rfl
theorem RoundTrip.feq (d : BitVec 5) (a : BitVec 5) (b : BitVec 5) (f : BitVec 4) : RoundTrip.Statement (.feq d a b f) := fun _ => by
  have hm : (encFeq d a b f).extractLsb' 26 6 = 0x0c#6 := by
    simp (disch := decide) only [encFeq, RoundTrip.low, RoundTrip.high, RoundTrip.whole, Nat.reduceSub] <;> rfl
  change decodeByMajor ((encFeq d a b f).extractLsb' 26 6) (encFeq d a b f) = _
  rw [hm]
  have ho : (encFeq d a b f).extractLsb' 0 4 = 0x7#4 := by
    simp (disch := decide) only [encFeq, RoundTrip.low, RoundTrip.high, RoundTrip.whole, Nat.reduceSub] <;> rfl
  change decodeMajor0COp ((encFeq d a b f).extractLsb' 0 4) (encFeq d a b f) = _
  rw [ho]
  change ((if (encFeq d a b f).extractLsb' 8 3 == 0x0#3 then some (.feq ((encFeq d a b f).extractLsb' 21 5) ((encFeq d a b f).extractLsb' 16 5) ((encFeq d a b f).extractLsb' 11 5) ((encFeq d a b f).extractLsb' 4 4)) else none) : Option Instr) = _
  simp (disch := decide) only [encFeq, RoundTrip.low, RoundTrip.high, RoundTrip.whole, Nat.reduceSub] <;> rfl
theorem RoundTrip.flt (d : BitVec 5) (a : BitVec 5) (b : BitVec 5) (f : BitVec 4) : RoundTrip.Statement (.flt d a b f) := fun _ => by
  have hm : (encFlt d a b f).extractLsb' 26 6 = 0x0c#6 := by
    simp (disch := decide) only [encFlt, RoundTrip.low, RoundTrip.high, RoundTrip.whole, Nat.reduceSub] <;> rfl
  change decodeByMajor ((encFlt d a b f).extractLsb' 26 6) (encFlt d a b f) = _
  rw [hm]
  have ho : (encFlt d a b f).extractLsb' 0 4 = 0x8#4 := by
    simp (disch := decide) only [encFlt, RoundTrip.low, RoundTrip.high, RoundTrip.whole, Nat.reduceSub] <;> rfl
  change decodeMajor0COp ((encFlt d a b f).extractLsb' 0 4) (encFlt d a b f) = _
  rw [ho]
  change ((if (encFlt d a b f).extractLsb' 8 3 == 0x0#3 then some (.flt ((encFlt d a b f).extractLsb' 21 5) ((encFlt d a b f).extractLsb' 16 5) ((encFlt d a b f).extractLsb' 11 5) ((encFlt d a b f).extractLsb' 4 4)) else none) : Option Instr) = _
  simp (disch := decide) only [encFlt, RoundTrip.low, RoundTrip.high, RoundTrip.whole, Nat.reduceSub] <;> rfl
theorem RoundTrip.fle (d : BitVec 5) (a : BitVec 5) (b : BitVec 5) (f : BitVec 4) : RoundTrip.Statement (.fle d a b f) := fun _ => by
  have hm : (encFle d a b f).extractLsb' 26 6 = 0x0c#6 := by
    simp (disch := decide) only [encFle, RoundTrip.low, RoundTrip.high, RoundTrip.whole, Nat.reduceSub] <;> rfl
  change decodeByMajor ((encFle d a b f).extractLsb' 26 6) (encFle d a b f) = _
  rw [hm]
  have ho : (encFle d a b f).extractLsb' 0 4 = 0x9#4 := by
    simp (disch := decide) only [encFle, RoundTrip.low, RoundTrip.high, RoundTrip.whole, Nat.reduceSub] <;> rfl
  change decodeMajor0COp ((encFle d a b f).extractLsb' 0 4) (encFle d a b f) = _
  rw [ho]
  change ((if (encFle d a b f).extractLsb' 8 3 == 0x0#3 then some (.fle ((encFle d a b f).extractLsb' 21 5) ((encFle d a b f).extractLsb' 16 5) ((encFle d a b f).extractLsb' 11 5) ((encFle d a b f).extractLsb' 4 4)) else none) : Option Instr) = _
  simp (disch := decide) only [encFle, RoundTrip.low, RoundTrip.high, RoundTrip.whole, Nat.reduceSub] <;> rfl
theorem RoundTrip.fclass (d : BitVec 5) (a : BitVec 5) (f : BitVec 4) : RoundTrip.Statement (.fclass d a f) := fun _ => by
  have hm : (encFclass d a f).extractLsb' 26 6 = 0x0c#6 := by
    simp (disch := decide) only [encFclass, RoundTrip.low, RoundTrip.high, RoundTrip.whole, Nat.reduceSub] <;> rfl
  change decodeByMajor ((encFclass d a f).extractLsb' 26 6) (encFclass d a f) = _
  rw [hm]
  have ho : (encFclass d a f).extractLsb' 0 4 = 0xa#4 := by
    simp (disch := decide) only [encFclass, RoundTrip.low, RoundTrip.high, RoundTrip.whole, Nat.reduceSub] <;> rfl
  change decodeMajor0COp ((encFclass d a f).extractLsb' 0 4) (encFclass d a f) = _
  rw [ho]
  change ((if (encFclass d a f).extractLsb' 8 8 == 0x0#8 then some (.fclass ((encFclass d a f).extractLsb' 21 5) ((encFclass d a f).extractLsb' 16 5) ((encFclass d a f).extractLsb' 4 4)) else none) : Option Instr) = _
  simp (disch := decide) only [encFclass, RoundTrip.low, RoundTrip.high, RoundTrip.whole, Nat.reduceSub] <;> rfl
theorem RoundTrip.fcvt (d : BitVec 5) (a : BitVec 5) (s : BitVec 4) (r : BitVec 3) (f : BitVec 4) : RoundTrip.Statement (.fcvt d a s r f) := fun _ => by
  have hm : (encFcvt d a s r f).extractLsb' 26 6 = 0x0c#6 := by
    simp (disch := decide) only [encFcvt, RoundTrip.low, RoundTrip.high, RoundTrip.whole, Nat.reduceSub] <;> rfl
  change decodeByMajor ((encFcvt d a s r f).extractLsb' 26 6) (encFcvt d a s r f) = _
  rw [hm]
  have ho : (encFcvt d a s r f).extractLsb' 0 4 = 0xb#4 := by
    simp (disch := decide) only [encFcvt, RoundTrip.low, RoundTrip.high, RoundTrip.whole, Nat.reduceSub] <;> rfl
  change decodeMajor0COp ((encFcvt d a s r f).extractLsb' 0 4) (encFcvt d a s r f) = _
  rw [ho]
  change ((if (encFcvt d a s r f).extractLsb' 15 1 == 0x0#1 then some (.fcvt ((encFcvt d a s r f).extractLsb' 21 5) ((encFcvt d a s r f).extractLsb' 16 5) ((encFcvt d a s r f).extractLsb' 11 4) ((encFcvt d a s r f).extractLsb' 8 3) ((encFcvt d a s r f).extractLsb' 4 4)) else none) : Option Instr) = _
  simp (disch := decide) only [encFcvt, RoundTrip.low, RoundTrip.high, RoundTrip.whole, Nat.reduceSub] <;> rfl
theorem RoundTrip.fcvti (d : BitVec 5) (a : BitVec 5) (k : BitVec 2) (r : BitVec 3) (f : BitVec 4) : RoundTrip.Statement (.fcvti d a k r f) := fun _ => by
  have hm : (encFcvti d a k r f).extractLsb' 26 6 = 0x0c#6 := by
    simp (disch := decide) only [encFcvti, RoundTrip.low, RoundTrip.high, RoundTrip.whole, Nat.reduceSub] <;> rfl
  change decodeByMajor ((encFcvti d a k r f).extractLsb' 26 6) (encFcvti d a k r f) = _
  rw [hm]
  have ho : (encFcvti d a k r f).extractLsb' 0 4 = 0xc#4 := by
    simp (disch := decide) only [encFcvti, RoundTrip.low, RoundTrip.high, RoundTrip.whole, Nat.reduceSub] <;> rfl
  change decodeMajor0COp ((encFcvti d a k r f).extractLsb' 0 4) (encFcvti d a k r f) = _
  rw [ho]
  change ((if (encFcvti d a k r f).extractLsb' 13 3 == 0x0#3 then some (.fcvti ((encFcvti d a k r f).extractLsb' 21 5) ((encFcvti d a k r f).extractLsb' 16 5) ((encFcvti d a k r f).extractLsb' 11 2) ((encFcvti d a k r f).extractLsb' 8 3) ((encFcvti d a k r f).extractLsb' 4 4)) else none) : Option Instr) = _
  simp (disch := decide) only [encFcvti, RoundTrip.low, RoundTrip.high, RoundTrip.whole, Nat.reduceSub] <;> rfl
theorem RoundTrip.icvtf (d : BitVec 5) (a : BitVec 5) (k : BitVec 2) (r : BitVec 3) (f : BitVec 4) : RoundTrip.Statement (.icvtf d a k r f) := fun _ => by
  have hm : (encIcvtf d a k r f).extractLsb' 26 6 = 0x0c#6 := by
    simp (disch := decide) only [encIcvtf, RoundTrip.low, RoundTrip.high, RoundTrip.whole, Nat.reduceSub] <;> rfl
  change decodeByMajor ((encIcvtf d a k r f).extractLsb' 26 6) (encIcvtf d a k r f) = _
  rw [hm]
  have ho : (encIcvtf d a k r f).extractLsb' 0 4 = 0xd#4 := by
    simp (disch := decide) only [encIcvtf, RoundTrip.low, RoundTrip.high, RoundTrip.whole, Nat.reduceSub] <;> rfl
  change decodeMajor0COp ((encIcvtf d a k r f).extractLsb' 0 4) (encIcvtf d a k r f) = _
  rw [ho]
  change ((if (encIcvtf d a k r f).extractLsb' 13 3 == 0x0#3 then some (.icvtf ((encIcvtf d a k r f).extractLsb' 21 5) ((encIcvtf d a k r f).extractLsb' 16 5) ((encIcvtf d a k r f).extractLsb' 11 2) ((encIcvtf d a k r f).extractLsb' 8 3) ((encIcvtf d a k r f).extractLsb' 4 4)) else none) : Option Instr) = _
  simp (disch := decide) only [encIcvtf, RoundTrip.low, RoundTrip.high, RoundTrip.whole, Nat.reduceSub] <;> rfl
theorem RoundTrip.fmvx (d : BitVec 5) (a : BitVec 5) (f : BitVec 4) : RoundTrip.Statement (.fmvx d a f) := fun _ => by
  have hm : (encFmvx d a f).extractLsb' 26 6 = 0x0c#6 := by
    simp (disch := decide) only [encFmvx, RoundTrip.low, RoundTrip.high, RoundTrip.whole, Nat.reduceSub] <;> rfl
  change decodeByMajor ((encFmvx d a f).extractLsb' 26 6) (encFmvx d a f) = _
  rw [hm]
  have ho : (encFmvx d a f).extractLsb' 0 4 = 0xe#4 := by
    simp (disch := decide) only [encFmvx, RoundTrip.low, RoundTrip.high, RoundTrip.whole, Nat.reduceSub] <;> rfl
  change decodeMajor0COp ((encFmvx d a f).extractLsb' 0 4) (encFmvx d a f) = _
  rw [ho]
  change ((if (encFmvx d a f).extractLsb' 8 8 == 0x0#8 then some (.fmvx ((encFmvx d a f).extractLsb' 21 5) ((encFmvx d a f).extractLsb' 16 5) ((encFmvx d a f).extractLsb' 4 4)) else none) : Option Instr) = _
  simp (disch := decide) only [encFmvx, RoundTrip.low, RoundTrip.high, RoundTrip.whole, Nat.reduceSub] <;> rfl
theorem RoundTrip.fmvf (d : BitVec 5) (a : BitVec 5) (f : BitVec 4) : RoundTrip.Statement (.fmvf d a f) := fun _ => by
  have hm : (encFmvf d a f).extractLsb' 26 6 = 0x0c#6 := by
    simp (disch := decide) only [encFmvf, RoundTrip.low, RoundTrip.high, RoundTrip.whole, Nat.reduceSub] <;> rfl
  change decodeByMajor ((encFmvf d a f).extractLsb' 26 6) (encFmvf d a f) = _
  rw [hm]
  have ho : (encFmvf d a f).extractLsb' 0 4 = 0xf#4 := by
    simp (disch := decide) only [encFmvf, RoundTrip.low, RoundTrip.high, RoundTrip.whole, Nat.reduceSub] <;> rfl
  change decodeMajor0COp ((encFmvf d a f).extractLsb' 0 4) (encFmvf d a f) = _
  rw [ho]
  change ((if (encFmvf d a f).extractLsb' 8 8 == 0x0#8 then some (.fmvf ((encFmvf d a f).extractLsb' 21 5) ((encFmvf d a f).extractLsb' 16 5) ((encFmvf d a f).extractLsb' 4 4)) else none) : Option Instr) = _
  simp (disch := decide) only [encFmvf, RoundTrip.low, RoundTrip.high, RoundTrip.whole, Nat.reduceSub] <;> rfl
theorem RoundTrip.fma (d : BitVec 5) (a : BitVec 5) (b : BitVec 5) (c : BitVec 5) (r : BitVec 3) (p : BitVec 1) : RoundTrip.Statement (.fma d a b c r p) := fun _ => by
  have hm : (encFma d a b c r p).extractLsb' 26 6 = 0x0d#6 := by
    simp (disch := decide) only [encFma, RoundTrip.low, RoundTrip.high, RoundTrip.whole, Nat.reduceSub] <;> rfl
  change decodeByMajor ((encFma d a b c r p).extractLsb' 26 6) (encFma d a b c r p) = _
  rw [hm]
  have ho : (encFma d a b c r p).extractLsb' 1 2 = 0x0#2 := by
    simp (disch := decide) only [encFma, RoundTrip.low, RoundTrip.high, RoundTrip.whole, Nat.reduceSub] <;> rfl
  change decodeMajor0DOp ((encFma d a b c r p).extractLsb' 1 2) (encFma d a b c r p) = _
  rw [ho]
  change (some (.fma ((encFma d a b c r p).extractLsb' 21 5) ((encFma d a b c r p).extractLsb' 16 5) ((encFma d a b c r p).extractLsb' 11 5) ((encFma d a b c r p).extractLsb' 6 5) ((encFma d a b c r p).extractLsb' 3 3) ((encFma d a b c r p).extractLsb' 0 1)) : Option Instr) = _
  simp (disch := decide) only [encFma, RoundTrip.low, RoundTrip.high, RoundTrip.whole, Nat.reduceSub] <;> rfl
theorem RoundTrip.fms (d : BitVec 5) (a : BitVec 5) (b : BitVec 5) (c : BitVec 5) (r : BitVec 3) (p : BitVec 1) : RoundTrip.Statement (.fms d a b c r p) := fun _ => by
  have hm : (encFms d a b c r p).extractLsb' 26 6 = 0x0d#6 := by
    simp (disch := decide) only [encFms, RoundTrip.low, RoundTrip.high, RoundTrip.whole, Nat.reduceSub] <;> rfl
  change decodeByMajor ((encFms d a b c r p).extractLsb' 26 6) (encFms d a b c r p) = _
  rw [hm]
  have ho : (encFms d a b c r p).extractLsb' 1 2 = 0x1#2 := by
    simp (disch := decide) only [encFms, RoundTrip.low, RoundTrip.high, RoundTrip.whole, Nat.reduceSub] <;> rfl
  change decodeMajor0DOp ((encFms d a b c r p).extractLsb' 1 2) (encFms d a b c r p) = _
  rw [ho]
  change (some (.fms ((encFms d a b c r p).extractLsb' 21 5) ((encFms d a b c r p).extractLsb' 16 5) ((encFms d a b c r p).extractLsb' 11 5) ((encFms d a b c r p).extractLsb' 6 5) ((encFms d a b c r p).extractLsb' 3 3) ((encFms d a b c r p).extractLsb' 0 1)) : Option Instr) = _
  simp (disch := decide) only [encFms, RoundTrip.low, RoundTrip.high, RoundTrip.whole, Nat.reduceSub] <;> rfl
theorem RoundTrip.fnma (d : BitVec 5) (a : BitVec 5) (b : BitVec 5) (c : BitVec 5) (r : BitVec 3) (p : BitVec 1) : RoundTrip.Statement (.fnma d a b c r p) := fun _ => by
  have hm : (encFnma d a b c r p).extractLsb' 26 6 = 0x0d#6 := by
    simp (disch := decide) only [encFnma, RoundTrip.low, RoundTrip.high, RoundTrip.whole, Nat.reduceSub] <;> rfl
  change decodeByMajor ((encFnma d a b c r p).extractLsb' 26 6) (encFnma d a b c r p) = _
  rw [hm]
  have ho : (encFnma d a b c r p).extractLsb' 1 2 = 0x2#2 := by
    simp (disch := decide) only [encFnma, RoundTrip.low, RoundTrip.high, RoundTrip.whole, Nat.reduceSub] <;> rfl
  change decodeMajor0DOp ((encFnma d a b c r p).extractLsb' 1 2) (encFnma d a b c r p) = _
  rw [ho]
  change (some (.fnma ((encFnma d a b c r p).extractLsb' 21 5) ((encFnma d a b c r p).extractLsb' 16 5) ((encFnma d a b c r p).extractLsb' 11 5) ((encFnma d a b c r p).extractLsb' 6 5) ((encFnma d a b c r p).extractLsb' 3 3) ((encFnma d a b c r p).extractLsb' 0 1)) : Option Instr) = _
  simp (disch := decide) only [encFnma, RoundTrip.low, RoundTrip.high, RoundTrip.whole, Nat.reduceSub] <;> rfl
theorem RoundTrip.fnms (d : BitVec 5) (a : BitVec 5) (b : BitVec 5) (c : BitVec 5) (r : BitVec 3) (p : BitVec 1) : RoundTrip.Statement (.fnms d a b c r p) := fun _ => by
  have hm : (encFnms d a b c r p).extractLsb' 26 6 = 0x0d#6 := by
    simp (disch := decide) only [encFnms, RoundTrip.low, RoundTrip.high, RoundTrip.whole, Nat.reduceSub] <;> rfl
  change decodeByMajor ((encFnms d a b c r p).extractLsb' 26 6) (encFnms d a b c r p) = _
  rw [hm]
  have ho : (encFnms d a b c r p).extractLsb' 1 2 = 0x3#2 := by
    simp (disch := decide) only [encFnms, RoundTrip.low, RoundTrip.high, RoundTrip.whole, Nat.reduceSub] <;> rfl
  change decodeMajor0DOp ((encFnms d a b c r p).extractLsb' 1 2) (encFnms d a b c r p) = _
  rw [ho]
  change (some (.fnms ((encFnms d a b c r p).extractLsb' 21 5) ((encFnms d a b c r p).extractLsb' 16 5) ((encFnms d a b c r p).extractLsb' 11 5) ((encFnms d a b c r p).extractLsb' 6 5) ((encFnms d a b c r p).extractLsb' 3 3) ((encFnms d a b c r p).extractLsb' 0 1)) : Option Instr) = _
  simp (disch := decide) only [encFnms, RoundTrip.low, RoundTrip.high, RoundTrip.whole, Nat.reduceSub] <;> rfl
theorem RoundTrip.jal (o : BitVec 26) : RoundTrip.Statement (.jal o) := fun _ => by
  have hm : (encJal o).extractLsb' 26 6 = 0x0e#6 := by
    simp (disch := decide) only [encJal, RoundTrip.low, RoundTrip.high, RoundTrip.whole, Nat.reduceSub] <;> rfl
  change decodeByMajor ((encJal o).extractLsb' 26 6) (encJal o) = _
  rw [hm]
  change (some (.jal ((encJal o).extractLsb' 0 26)) : Option Instr) = _
  simp (disch := decide) only [encJal, RoundTrip.low, RoundTrip.high, RoundTrip.whole, Nat.reduceSub] <;> rfl
theorem RoundTrip.jalr (d : BitVec 5) (a : BitVec 5) (i : BitVec 16) : RoundTrip.Statement (.jalr d a i) := fun _ => by
  have hm : (encJalr d a i).extractLsb' 26 6 = 0x0f#6 := by
    simp (disch := decide) only [encJalr, RoundTrip.low, RoundTrip.high, RoundTrip.whole, Nat.reduceSub] <;> rfl
  change decodeByMajor ((encJalr d a i).extractLsb' 26 6) (encJalr d a i) = _
  rw [hm]
  change (some (.jalr ((encJalr d a i).extractLsb' 21 5) ((encJalr d a i).extractLsb' 16 5) ((encJalr d a i).extractLsb' 0 16)) : Option Instr) = _
  simp (disch := decide) only [encJalr, RoundTrip.low, RoundTrip.high, RoundTrip.whole, Nat.reduceSub] <;> rfl
theorem RoundTrip.lb (d : BitVec 5) (a : BitVec 5) (i : BitVec 16) : RoundTrip.Statement (.lb d a i) := fun _ => by
  have hm : (encLb d a i).extractLsb' 26 6 = 0x10#6 := by
    simp (disch := decide) only [encLb, RoundTrip.low, RoundTrip.high, RoundTrip.whole, Nat.reduceSub] <;> rfl
  change decodeByMajor ((encLb d a i).extractLsb' 26 6) (encLb d a i) = _
  rw [hm]
  change (some (.lb ((encLb d a i).extractLsb' 21 5) ((encLb d a i).extractLsb' 16 5) ((encLb d a i).extractLsb' 0 16)) : Option Instr) = _
  simp (disch := decide) only [encLb, RoundTrip.low, RoundTrip.high, RoundTrip.whole, Nat.reduceSub] <;> rfl
theorem RoundTrip.lbu (d : BitVec 5) (a : BitVec 5) (i : BitVec 16) : RoundTrip.Statement (.lbu d a i) := fun _ => by
  have hm : (encLbu d a i).extractLsb' 26 6 = 0x11#6 := by
    simp (disch := decide) only [encLbu, RoundTrip.low, RoundTrip.high, RoundTrip.whole, Nat.reduceSub] <;> rfl
  change decodeByMajor ((encLbu d a i).extractLsb' 26 6) (encLbu d a i) = _
  rw [hm]
  change (some (.lbu ((encLbu d a i).extractLsb' 21 5) ((encLbu d a i).extractLsb' 16 5) ((encLbu d a i).extractLsb' 0 16)) : Option Instr) = _
  simp (disch := decide) only [encLbu, RoundTrip.low, RoundTrip.high, RoundTrip.whole, Nat.reduceSub] <;> rfl
theorem RoundTrip.lh (d : BitVec 5) (a : BitVec 5) (i : BitVec 16) : RoundTrip.Statement (.lh d a i) := fun _ => by
  have hm : (encLh d a i).extractLsb' 26 6 = 0x12#6 := by
    simp (disch := decide) only [encLh, RoundTrip.low, RoundTrip.high, RoundTrip.whole, Nat.reduceSub] <;> rfl
  change decodeByMajor ((encLh d a i).extractLsb' 26 6) (encLh d a i) = _
  rw [hm]
  change (some (.lh ((encLh d a i).extractLsb' 21 5) ((encLh d a i).extractLsb' 16 5) ((encLh d a i).extractLsb' 0 16)) : Option Instr) = _
  simp (disch := decide) only [encLh, RoundTrip.low, RoundTrip.high, RoundTrip.whole, Nat.reduceSub] <;> rfl
theorem RoundTrip.lhu (d : BitVec 5) (a : BitVec 5) (i : BitVec 16) : RoundTrip.Statement (.lhu d a i) := fun _ => by
  have hm : (encLhu d a i).extractLsb' 26 6 = 0x13#6 := by
    simp (disch := decide) only [encLhu, RoundTrip.low, RoundTrip.high, RoundTrip.whole, Nat.reduceSub] <;> rfl
  change decodeByMajor ((encLhu d a i).extractLsb' 26 6) (encLhu d a i) = _
  rw [hm]
  change (some (.lhu ((encLhu d a i).extractLsb' 21 5) ((encLhu d a i).extractLsb' 16 5) ((encLhu d a i).extractLsb' 0 16)) : Option Instr) = _
  simp (disch := decide) only [encLhu, RoundTrip.low, RoundTrip.high, RoundTrip.whole, Nat.reduceSub] <;> rfl
theorem RoundTrip.lw (d : BitVec 5) (a : BitVec 5) (i : BitVec 16) : RoundTrip.Statement (.lw d a i) := fun _ => by
  have hm : (encLw d a i).extractLsb' 26 6 = 0x14#6 := by
    simp (disch := decide) only [encLw, RoundTrip.low, RoundTrip.high, RoundTrip.whole, Nat.reduceSub] <;> rfl
  change decodeByMajor ((encLw d a i).extractLsb' 26 6) (encLw d a i) = _
  rw [hm]
  change (some (.lw ((encLw d a i).extractLsb' 21 5) ((encLw d a i).extractLsb' 16 5) ((encLw d a i).extractLsb' 0 16)) : Option Instr) = _
  simp (disch := decide) only [encLw, RoundTrip.low, RoundTrip.high, RoundTrip.whole, Nat.reduceSub] <;> rfl
theorem RoundTrip.lwu (d : BitVec 5) (a : BitVec 5) (i : BitVec 16) : RoundTrip.Statement (.lwu d a i) := fun _ => by
  have hm : (encLwu d a i).extractLsb' 26 6 = 0x15#6 := by
    simp (disch := decide) only [encLwu, RoundTrip.low, RoundTrip.high, RoundTrip.whole, Nat.reduceSub] <;> rfl
  change decodeByMajor ((encLwu d a i).extractLsb' 26 6) (encLwu d a i) = _
  rw [hm]
  change (some (.lwu ((encLwu d a i).extractLsb' 21 5) ((encLwu d a i).extractLsb' 16 5) ((encLwu d a i).extractLsb' 0 16)) : Option Instr) = _
  simp (disch := decide) only [encLwu, RoundTrip.low, RoundTrip.high, RoundTrip.whole, Nat.reduceSub] <;> rfl
theorem RoundTrip.ld (d : BitVec 5) (a : BitVec 5) (i : BitVec 16) : RoundTrip.Statement (.ld d a i) := fun _ => by
  have hm : (encLd d a i).extractLsb' 26 6 = 0x16#6 := by
    simp (disch := decide) only [encLd, RoundTrip.low, RoundTrip.high, RoundTrip.whole, Nat.reduceSub] <;> rfl
  change decodeByMajor ((encLd d a i).extractLsb' 26 6) (encLd d a i) = _
  rw [hm]
  change (some (.ld ((encLd d a i).extractLsb' 21 5) ((encLd d a i).extractLsb' 16 5) ((encLd d a i).extractLsb' 0 16)) : Option Instr) = _
  simp (disch := decide) only [encLd, RoundTrip.low, RoundTrip.high, RoundTrip.whole, Nat.reduceSub] <;> rfl
theorem RoundTrip.flw (d : BitVec 5) (a : BitVec 5) (i : BitVec 16) : RoundTrip.Statement (.flw d a i) := fun _ => by
  have hm : (encFlw d a i).extractLsb' 26 6 = 0x17#6 := by
    simp (disch := decide) only [encFlw, RoundTrip.low, RoundTrip.high, RoundTrip.whole, Nat.reduceSub] <;> rfl
  change decodeByMajor ((encFlw d a i).extractLsb' 26 6) (encFlw d a i) = _
  rw [hm]
  change (some (.flw ((encFlw d a i).extractLsb' 21 5) ((encFlw d a i).extractLsb' 16 5) ((encFlw d a i).extractLsb' 0 16)) : Option Instr) = _
  simp (disch := decide) only [encFlw, RoundTrip.low, RoundTrip.high, RoundTrip.whole, Nat.reduceSub] <;> rfl
theorem RoundTrip.fld (d : BitVec 5) (a : BitVec 5) (i : BitVec 16) : RoundTrip.Statement (.fld d a i) := fun _ => by
  have hm : (encFld d a i).extractLsb' 26 6 = 0x18#6 := by
    simp (disch := decide) only [encFld, RoundTrip.low, RoundTrip.high, RoundTrip.whole, Nat.reduceSub] <;> rfl
  change decodeByMajor ((encFld d a i).extractLsb' 26 6) (encFld d a i) = _
  rw [hm]
  change (some (.fld ((encFld d a i).extractLsb' 21 5) ((encFld d a i).extractLsb' 16 5) ((encFld d a i).extractLsb' 0 16)) : Option Instr) = _
  simp (disch := decide) only [encFld, RoundTrip.low, RoundTrip.high, RoundTrip.whole, Nat.reduceSub] <;> rfl
theorem RoundTrip.sb (s : BitVec 5) (a : BitVec 5) (i : BitVec 16) : RoundTrip.Statement (.sb s a i) := fun _ => by
  have hm : (encSb s a i).extractLsb' 26 6 = 0x19#6 := by
    simp (disch := decide) only [encSb, RoundTrip.low, RoundTrip.high, RoundTrip.whole, Nat.reduceSub] <;> rfl
  change decodeByMajor ((encSb s a i).extractLsb' 26 6) (encSb s a i) = _
  rw [hm]
  change (some (.sb ((encSb s a i).extractLsb' 21 5) ((encSb s a i).extractLsb' 16 5) ((encSb s a i).extractLsb' 0 16)) : Option Instr) = _
  simp (disch := decide) only [encSb, RoundTrip.low, RoundTrip.high, RoundTrip.whole, Nat.reduceSub] <;> rfl
theorem RoundTrip.sh (s : BitVec 5) (a : BitVec 5) (i : BitVec 16) : RoundTrip.Statement (.sh s a i) := fun _ => by
  have hm : (encSh s a i).extractLsb' 26 6 = 0x1a#6 := by
    simp (disch := decide) only [encSh, RoundTrip.low, RoundTrip.high, RoundTrip.whole, Nat.reduceSub] <;> rfl
  change decodeByMajor ((encSh s a i).extractLsb' 26 6) (encSh s a i) = _
  rw [hm]
  change (some (.sh ((encSh s a i).extractLsb' 21 5) ((encSh s a i).extractLsb' 16 5) ((encSh s a i).extractLsb' 0 16)) : Option Instr) = _
  simp (disch := decide) only [encSh, RoundTrip.low, RoundTrip.high, RoundTrip.whole, Nat.reduceSub] <;> rfl
theorem RoundTrip.sw (s : BitVec 5) (a : BitVec 5) (i : BitVec 16) : RoundTrip.Statement (.sw s a i) := fun _ => by
  have hm : (encSw s a i).extractLsb' 26 6 = 0x1b#6 := by
    simp (disch := decide) only [encSw, RoundTrip.low, RoundTrip.high, RoundTrip.whole, Nat.reduceSub] <;> rfl
  change decodeByMajor ((encSw s a i).extractLsb' 26 6) (encSw s a i) = _
  rw [hm]
  change (some (.sw ((encSw s a i).extractLsb' 21 5) ((encSw s a i).extractLsb' 16 5) ((encSw s a i).extractLsb' 0 16)) : Option Instr) = _
  simp (disch := decide) only [encSw, RoundTrip.low, RoundTrip.high, RoundTrip.whole, Nat.reduceSub] <;> rfl
theorem RoundTrip.sd (s : BitVec 5) (a : BitVec 5) (i : BitVec 16) : RoundTrip.Statement (.sd s a i) := fun _ => by
  have hm : (encSd s a i).extractLsb' 26 6 = 0x1c#6 := by
    simp (disch := decide) only [encSd, RoundTrip.low, RoundTrip.high, RoundTrip.whole, Nat.reduceSub] <;> rfl
  change decodeByMajor ((encSd s a i).extractLsb' 26 6) (encSd s a i) = _
  rw [hm]
  change (some (.sd ((encSd s a i).extractLsb' 21 5) ((encSd s a i).extractLsb' 16 5) ((encSd s a i).extractLsb' 0 16)) : Option Instr) = _
  simp (disch := decide) only [encSd, RoundTrip.low, RoundTrip.high, RoundTrip.whole, Nat.reduceSub] <;> rfl
theorem RoundTrip.fsw (s : BitVec 5) (a : BitVec 5) (i : BitVec 16) : RoundTrip.Statement (.fsw s a i) := fun _ => by
  have hm : (encFsw s a i).extractLsb' 26 6 = 0x1d#6 := by
    simp (disch := decide) only [encFsw, RoundTrip.low, RoundTrip.high, RoundTrip.whole, Nat.reduceSub] <;> rfl
  change decodeByMajor ((encFsw s a i).extractLsb' 26 6) (encFsw s a i) = _
  rw [hm]
  change (some (.fsw ((encFsw s a i).extractLsb' 21 5) ((encFsw s a i).extractLsb' 16 5) ((encFsw s a i).extractLsb' 0 16)) : Option Instr) = _
  simp (disch := decide) only [encFsw, RoundTrip.low, RoundTrip.high, RoundTrip.whole, Nat.reduceSub] <;> rfl
theorem RoundTrip.fsd (s : BitVec 5) (a : BitVec 5) (i : BitVec 16) : RoundTrip.Statement (.fsd s a i) := fun _ => by
  have hm : (encFsd s a i).extractLsb' 26 6 = 0x1e#6 := by
    simp (disch := decide) only [encFsd, RoundTrip.low, RoundTrip.high, RoundTrip.whole, Nat.reduceSub] <;> rfl
  change decodeByMajor ((encFsd s a i).extractLsb' 26 6) (encFsd s a i) = _
  rw [hm]
  change (some (.fsd ((encFsd s a i).extractLsb' 21 5) ((encFsd s a i).extractLsb' 16 5) ((encFsd s a i).extractLsb' 0 16)) : Option Instr) = _
  simp (disch := decide) only [encFsd, RoundTrip.low, RoundTrip.high, RoundTrip.whole, Nat.reduceSub] <;> rfl
theorem RoundTrip.ecall : RoundTrip.Statement .ecall := fun _ => by
  have hm : encEcall.extractLsb' 26 6 = 0x1f#6 := by
    simp (disch := decide) only [encEcall, RoundTrip.low, RoundTrip.high, RoundTrip.whole, Nat.reduceSub] <;> rfl
  change decodeByMajor (encEcall.extractLsb' 26 6) encEcall = _
  rw [hm]
  have ho : encEcall.extractLsb' 0 4 = 0x0#4 := by
    simp (disch := decide) only [encEcall, RoundTrip.low, RoundTrip.high, RoundTrip.whole, Nat.reduceSub] <;> rfl
  change decodeMajor1FOp (encEcall.extractLsb' 0 4) encEcall = _
  rw [ho]
  change ((if encEcall.extractLsb' 4 22 == 0x0#22 then some .ecall else none) : Option Instr) = _
  simp (disch := decide) only [encEcall, RoundTrip.low, RoundTrip.high, RoundTrip.whole, Nat.reduceSub] <;> rfl
theorem RoundTrip.ebreak : RoundTrip.Statement .ebreak := fun _ => by
  have hm : encEbreak.extractLsb' 26 6 = 0x1f#6 := by
    simp (disch := decide) only [encEbreak, RoundTrip.low, RoundTrip.high, RoundTrip.whole, Nat.reduceSub] <;> rfl
  change decodeByMajor (encEbreak.extractLsb' 26 6) encEbreak = _
  rw [hm]
  have ho : encEbreak.extractLsb' 0 4 = 0x1#4 := by
    simp (disch := decide) only [encEbreak, RoundTrip.low, RoundTrip.high, RoundTrip.whole, Nat.reduceSub] <;> rfl
  change decodeMajor1FOp (encEbreak.extractLsb' 0 4) encEbreak = _
  rw [ho]
  change ((if encEbreak.extractLsb' 4 22 == 0x0#22 then some .ebreak else none) : Option Instr) = _
  simp (disch := decide) only [encEbreak, RoundTrip.low, RoundTrip.high, RoundTrip.whole, Nat.reduceSub] <;> rfl
theorem RoundTrip.eret : RoundTrip.Statement .eret := fun _ => by
  have hm : encEret.extractLsb' 26 6 = 0x1f#6 := by
    simp (disch := decide) only [encEret, RoundTrip.low, RoundTrip.high, RoundTrip.whole, Nat.reduceSub] <;> rfl
  change decodeByMajor (encEret.extractLsb' 26 6) encEret = _
  rw [hm]
  have ho : encEret.extractLsb' 0 4 = 0x2#4 := by
    simp (disch := decide) only [encEret, RoundTrip.low, RoundTrip.high, RoundTrip.whole, Nat.reduceSub] <;> rfl
  change decodeMajor1FOp (encEret.extractLsb' 0 4) encEret = _
  rw [ho]
  change ((if encEret.extractLsb' 4 22 == 0x0#22 then some .eret else none) : Option Instr) = _
  simp (disch := decide) only [encEret, RoundTrip.low, RoundTrip.high, RoundTrip.whole, Nat.reduceSub] <;> rfl
theorem RoundTrip.movs (d : BitVec 5) (n : BitVec 12) : RoundTrip.Statement (.movs d n) := fun _ => by
  have hm : (encMovs d n).extractLsb' 26 6 = 0x1f#6 := by
    simp (disch := decide) only [encMovs, RoundTrip.low, RoundTrip.high, RoundTrip.whole, Nat.reduceSub] <;> rfl
  change decodeByMajor ((encMovs d n).extractLsb' 26 6) (encMovs d n) = _
  rw [hm]
  have ho : (encMovs d n).extractLsb' 0 4 = 0x3#4 := by
    simp (disch := decide) only [encMovs, RoundTrip.low, RoundTrip.high, RoundTrip.whole, Nat.reduceSub] <;> rfl
  change decodeMajor1FOp ((encMovs d n).extractLsb' 0 4) (encMovs d n) = _
  rw [ho]
  change ((if (encMovs d n).extractLsb' 16 5 == 0x0#5 then some (.movs ((encMovs d n).extractLsb' 21 5) ((encMovs d n).extractLsb' 4 12)) else none) : Option Instr) = _
  simp (disch := decide) only [encMovs, RoundTrip.low, RoundTrip.high, RoundTrip.whole, Nat.reduceSub] <;> rfl
theorem RoundTrip.movsw (a : BitVec 5) (n : BitVec 12) : RoundTrip.Statement (.movsw a n) := fun _ => by
  have hm : (encMovsw a n).extractLsb' 26 6 = 0x1f#6 := by
    simp (disch := decide) only [encMovsw, RoundTrip.low, RoundTrip.high, RoundTrip.whole, Nat.reduceSub] <;> rfl
  change decodeByMajor ((encMovsw a n).extractLsb' 26 6) (encMovsw a n) = _
  rw [hm]
  have ho : (encMovsw a n).extractLsb' 0 4 = 0x4#4 := by
    simp (disch := decide) only [encMovsw, RoundTrip.low, RoundTrip.high, RoundTrip.whole, Nat.reduceSub] <;> rfl
  change decodeMajor1FOp ((encMovsw a n).extractLsb' 0 4) (encMovsw a n) = _
  rw [ho]
  change ((if (encMovsw a n).extractLsb' 21 5 == 0x0#5 then some (.movsw ((encMovsw a n).extractLsb' 16 5) ((encMovsw a n).extractLsb' 4 12)) else none) : Option Instr) = _
  simp (disch := decide) only [encMovsw, RoundTrip.low, RoundTrip.high, RoundTrip.whole, Nat.reduceSub] <;> rfl
theorem RoundTrip.fence (s : BitVec 3) : RoundTrip.Statement (.fence s) := fun _ => by
  have hm : (encFence s).extractLsb' 26 6 = 0x1f#6 := by
    simp (disch := decide) only [encFence, RoundTrip.low, RoundTrip.high, RoundTrip.whole, Nat.reduceSub] <;> rfl
  change decodeByMajor ((encFence s).extractLsb' 26 6) (encFence s) = _
  rw [hm]
  have ho : (encFence s).extractLsb' 0 4 = 0x5#4 := by
    simp (disch := decide) only [encFence, RoundTrip.low, RoundTrip.high, RoundTrip.whole, Nat.reduceSub] <;> rfl
  change decodeMajor1FOp ((encFence s).extractLsb' 0 4) (encFence s) = _
  rw [ho]
  change ((if (encFence s).extractLsb' 7 19 == 0x0#19 then some (.fence ((encFence s).extractLsb' 4 3)) else none) : Option Instr) = _
  simp (disch := decide) only [encFence, RoundTrip.low, RoundTrip.high, RoundTrip.whole, Nat.reduceSub] <;> rfl
theorem RoundTrip.fencei : RoundTrip.Statement .fencei := fun _ => by
  have hm : encFencei.extractLsb' 26 6 = 0x1f#6 := by
    simp (disch := decide) only [encFencei, RoundTrip.low, RoundTrip.high, RoundTrip.whole, Nat.reduceSub] <;> rfl
  change decodeByMajor (encFencei.extractLsb' 26 6) encFencei = _
  rw [hm]
  have ho : encFencei.extractLsb' 0 4 = 0x6#4 := by
    simp (disch := decide) only [encFencei, RoundTrip.low, RoundTrip.high, RoundTrip.whole, Nat.reduceSub] <;> rfl
  change decodeMajor1FOp (encFencei.extractLsb' 0 4) encFencei = _
  rw [ho]
  change ((if encFencei.extractLsb' 4 22 == 0x0#22 then some .fencei else none) : Option Instr) = _
  simp (disch := decide) only [encFencei, RoundTrip.low, RoundTrip.high, RoundTrip.whole, Nat.reduceSub] <;> rfl
theorem RoundTrip.tlbinv (a : BitVec 5) (b : BitVec 5) (t : BitVec 2) : RoundTrip.Statement (.tlbinv a b t) := fun _ => by
  have hm : (encTlbinv a b t).extractLsb' 26 6 = 0x1f#6 := by
    simp (disch := decide) only [encTlbinv, RoundTrip.low, RoundTrip.high, RoundTrip.whole, Nat.reduceSub] <;> rfl
  change decodeByMajor ((encTlbinv a b t).extractLsb' 26 6) (encTlbinv a b t) = _
  rw [hm]
  have ho : (encTlbinv a b t).extractLsb' 0 4 = 0x7#4 := by
    simp (disch := decide) only [encTlbinv, RoundTrip.low, RoundTrip.high, RoundTrip.whole, Nat.reduceSub] <;> rfl
  change decodeMajor1FOp ((encTlbinv a b t).extractLsb' 0 4) (encTlbinv a b t) = _
  rw [ho]
  change ((if (encTlbinv a b t).extractLsb' 6 5 == 0x0#5 && (encTlbinv a b t).extractLsb' 21 5 == 0x0#5 then some (.tlbinv ((encTlbinv a b t).extractLsb' 16 5) ((encTlbinv a b t).extractLsb' 11 5) ((encTlbinv a b t).extractLsb' 4 2)) else none) : Option Instr) = _
  simp (disch := decide) only [encTlbinv, RoundTrip.low, RoundTrip.high, RoundTrip.whole, Nat.reduceSub] <;> rfl
theorem RoundTrip.dgate (a : BitVec 5) : RoundTrip.Statement (.dgate a) := fun _ => by
  have hm : (encDgate a).extractLsb' 26 6 = 0x1f#6 := by
    simp (disch := decide) only [encDgate, RoundTrip.low, RoundTrip.high, RoundTrip.whole, Nat.reduceSub] <;> rfl
  change decodeByMajor ((encDgate a).extractLsb' 26 6) (encDgate a) = _
  rw [hm]
  have ho : (encDgate a).extractLsb' 0 4 = 0x8#4 := by
    simp (disch := decide) only [encDgate, RoundTrip.low, RoundTrip.high, RoundTrip.whole, Nat.reduceSub] <;> rfl
  change decodeMajor1FOp ((encDgate a).extractLsb' 0 4) (encDgate a) = _
  rw [ho]
  change ((if (encDgate a).extractLsb' 4 12 == 0x0#12 && (encDgate a).extractLsb' 21 5 == 0x0#5 then some (.dgate ((encDgate a).extractLsb' 16 5)) else none) : Option Instr) = _
  simp (disch := decide) only [encDgate, RoundTrip.low, RoundTrip.high, RoundTrip.whole, Nat.reduceSub] <;> rfl
theorem RoundTrip.dret : RoundTrip.Statement .dret := fun _ => by
  have hm : encDret.extractLsb' 26 6 = 0x1f#6 := by
    simp (disch := decide) only [encDret, RoundTrip.low, RoundTrip.high, RoundTrip.whole, Nat.reduceSub] <;> rfl
  change decodeByMajor (encDret.extractLsb' 26 6) encDret = _
  rw [hm]
  have ho : encDret.extractLsb' 0 4 = 0x9#4 := by
    simp (disch := decide) only [encDret, RoundTrip.low, RoundTrip.high, RoundTrip.whole, Nat.reduceSub] <;> rfl
  change decodeMajor1FOp (encDret.extractLsb' 0 4) encDret = _
  rw [ho]
  change ((if encDret.extractLsb' 4 22 == 0x0#22 then some .dret else none) : Option Instr) = _
  simp (disch := decide) only [encDret, RoundTrip.low, RoundTrip.high, RoundTrip.whole, Nat.reduceSub] <;> rfl
theorem RoundTrip.wfi : RoundTrip.Statement .wfi := fun _ => by
  have hm : encWfi.extractLsb' 26 6 = 0x1f#6 := by
    simp (disch := decide) only [encWfi, RoundTrip.low, RoundTrip.high, RoundTrip.whole, Nat.reduceSub] <;> rfl
  change decodeByMajor (encWfi.extractLsb' 26 6) encWfi = _
  rw [hm]
  have ho : encWfi.extractLsb' 0 4 = 0xa#4 := by
    simp (disch := decide) only [encWfi, RoundTrip.low, RoundTrip.high, RoundTrip.whole, Nat.reduceSub] <;> rfl
  change decodeMajor1FOp (encWfi.extractLsb' 0 4) encWfi = _
  rw [ho]
  change ((if encWfi.extractLsb' 4 22 == 0x0#22 then some .wfi else none) : Option Instr) = _
  simp (disch := decide) only [encWfi, RoundTrip.low, RoundTrip.high, RoundTrip.whole, Nat.reduceSub] <;> rfl
theorem RoundTrip.chkpt : RoundTrip.Statement .chkpt := fun _ => by
  have hm : encChkpt.extractLsb' 26 6 = 0x1f#6 := by
    simp (disch := decide) only [encChkpt, RoundTrip.low, RoundTrip.high, RoundTrip.whole, Nat.reduceSub] <;> rfl
  change decodeByMajor (encChkpt.extractLsb' 26 6) encChkpt = _
  rw [hm]
  have ho : encChkpt.extractLsb' 0 4 = 0xb#4 := by
    simp (disch := decide) only [encChkpt, RoundTrip.low, RoundTrip.high, RoundTrip.whole, Nat.reduceSub] <;> rfl
  change decodeMajor1FOp (encChkpt.extractLsb' 0 4) encChkpt = _
  rw [ho]
  change ((if encChkpt.extractLsb' 4 22 == 0x0#22 then some .chkpt else none) : Option Instr) = _
  simp (disch := decide) only [encChkpt, RoundTrip.low, RoundTrip.high, RoundTrip.whole, Nat.reduceSub] <;> rfl
theorem RoundTrip.vaddV (d : BitVec 5) (a : BitVec 5) (b : BitVec 5) (m : BitVec 3) (l : BitVec 1) : RoundTrip.Statement (.vaddV d a b m l) := fun _ => by
  have hm : (encVaddV d a b m l).extractLsb' 26 6 = 0x20#6 := by
    simp (disch := decide) only [encVaddV, RoundTrip.low, RoundTrip.high, RoundTrip.whole, Nat.reduceSub] <;> rfl
  change decodeByMajor ((encVaddV d a b m l).extractLsb' 26 6) (encVaddV d a b m l) = _
  rw [hm]
  have hl : ((encVaddV d a b m l).extractLsb' 5 2 == 0x3#2) = false := by
    simp (disch := decide) only [encVaddV, RoundTrip.low, RoundTrip.high, RoundTrip.whole, Nat.reduceSub] <;> rfl
  change (if (encVaddV d a b m l).extractLsb' 5 2 == 0x3#2 then _ else decodeMajor20Op ((encVaddV d a b m l).extractLsb' 0 7) (encVaddV d a b m l)) = _
  rw [hl]
  have ho : (encVaddV d a b m l).extractLsb' 0 7 = 0x0#7 := by
    simp (disch := decide) only [encVaddV, RoundTrip.low, RoundTrip.high, RoundTrip.whole, Nat.reduceSub] <;> rfl
  change decodeMajor20Op ((encVaddV d a b m l).extractLsb' 0 7) (encVaddV d a b m l) = _
  rw [ho]
  change (some (.vaddV ((encVaddV d a b m l).extractLsb' 21 5) ((encVaddV d a b m l).extractLsb' 16 5) ((encVaddV d a b m l).extractLsb' 11 5) ((encVaddV d a b m l).extractLsb' 8 3) ((encVaddV d a b m l).extractLsb' 7 1)) : Option Instr) = _
  simp (disch := decide) only [encVaddV, RoundTrip.low, RoundTrip.high, RoundTrip.whole, Nat.reduceSub] <;> rfl
theorem RoundTrip.vaddX (d : BitVec 5) (a : BitVec 5) (b : BitVec 5) (m : BitVec 3) : RoundTrip.Statement (.vaddX d a b m) := fun _ => by
  have hm : (encVaddX d a b m).extractLsb' 26 6 = 0x21#6 := by
    simp (disch := decide) only [encVaddX, RoundTrip.low, RoundTrip.high, RoundTrip.whole, Nat.reduceSub] <;> rfl
  change decodeByMajor ((encVaddX d a b m).extractLsb' 26 6) (encVaddX d a b m) = _
  rw [hm]
  have ho : (encVaddX d a b m).extractLsb' 0 7 = 0x0#7 := by
    simp (disch := decide) only [encVaddX, RoundTrip.low, RoundTrip.high, RoundTrip.whole, Nat.reduceSub] <;> rfl
  change decodeMajor21Op ((encVaddX d a b m).extractLsb' 0 7) (encVaddX d a b m) = _
  rw [ho]
  change ((if (encVaddX d a b m).extractLsb' 7 1 == 0x0#1 then some (.vaddX ((encVaddX d a b m).extractLsb' 21 5) ((encVaddX d a b m).extractLsb' 16 5) ((encVaddX d a b m).extractLsb' 11 5) ((encVaddX d a b m).extractLsb' 8 3)) else none) : Option Instr) = _
  simp (disch := decide) only [encVaddX, RoundTrip.low, RoundTrip.high, RoundTrip.whole, Nat.reduceSub] <;> rfl
theorem RoundTrip.vaddI (d : BitVec 5) (a : BitVec 5) (i : BitVec 5) (m : BitVec 3) : RoundTrip.Statement (.vaddI d a i m) := fun _ => by
  have hm : (encVaddI d a i m).extractLsb' 26 6 = 0x22#6 := by
    simp (disch := decide) only [encVaddI, RoundTrip.low, RoundTrip.high, RoundTrip.whole, Nat.reduceSub] <;> rfl
  change decodeByMajor ((encVaddI d a i m).extractLsb' 26 6) (encVaddI d a i m) = _
  rw [hm]
  have ho : (encVaddI d a i m).extractLsb' 0 7 = 0x0#7 := by
    simp (disch := decide) only [encVaddI, RoundTrip.low, RoundTrip.high, RoundTrip.whole, Nat.reduceSub] <;> rfl
  change decodeMajor22Op ((encVaddI d a i m).extractLsb' 0 7) (encVaddI d a i m) = _
  rw [ho]
  change ((if (encVaddI d a i m).extractLsb' 7 1 == 0x0#1 then some (.vaddI ((encVaddI d a i m).extractLsb' 21 5) ((encVaddI d a i m).extractLsb' 16 5) ((encVaddI d a i m).extractLsb' 11 5) ((encVaddI d a i m).extractLsb' 8 3)) else none) : Option Instr) = _
  simp (disch := decide) only [encVaddI, RoundTrip.low, RoundTrip.high, RoundTrip.whole, Nat.reduceSub] <;> rfl
theorem RoundTrip.vsubV (d : BitVec 5) (a : BitVec 5) (b : BitVec 5) (m : BitVec 3) (l : BitVec 1) : RoundTrip.Statement (.vsubV d a b m l) := fun _ => by
  have hm : (encVsubV d a b m l).extractLsb' 26 6 = 0x20#6 := by
    simp (disch := decide) only [encVsubV, RoundTrip.low, RoundTrip.high, RoundTrip.whole, Nat.reduceSub] <;> rfl
  change decodeByMajor ((encVsubV d a b m l).extractLsb' 26 6) (encVsubV d a b m l) = _
  rw [hm]
  have hl : ((encVsubV d a b m l).extractLsb' 5 2 == 0x3#2) = false := by
    simp (disch := decide) only [encVsubV, RoundTrip.low, RoundTrip.high, RoundTrip.whole, Nat.reduceSub] <;> rfl
  change (if (encVsubV d a b m l).extractLsb' 5 2 == 0x3#2 then _ else decodeMajor20Op ((encVsubV d a b m l).extractLsb' 0 7) (encVsubV d a b m l)) = _
  rw [hl]
  have ho : (encVsubV d a b m l).extractLsb' 0 7 = 0x1#7 := by
    simp (disch := decide) only [encVsubV, RoundTrip.low, RoundTrip.high, RoundTrip.whole, Nat.reduceSub] <;> rfl
  change decodeMajor20Op ((encVsubV d a b m l).extractLsb' 0 7) (encVsubV d a b m l) = _
  rw [ho]
  change (some (.vsubV ((encVsubV d a b m l).extractLsb' 21 5) ((encVsubV d a b m l).extractLsb' 16 5) ((encVsubV d a b m l).extractLsb' 11 5) ((encVsubV d a b m l).extractLsb' 8 3) ((encVsubV d a b m l).extractLsb' 7 1)) : Option Instr) = _
  simp (disch := decide) only [encVsubV, RoundTrip.low, RoundTrip.high, RoundTrip.whole, Nat.reduceSub] <;> rfl
theorem RoundTrip.vsubX (d : BitVec 5) (a : BitVec 5) (b : BitVec 5) (m : BitVec 3) : RoundTrip.Statement (.vsubX d a b m) := fun _ => by
  have hm : (encVsubX d a b m).extractLsb' 26 6 = 0x21#6 := by
    simp (disch := decide) only [encVsubX, RoundTrip.low, RoundTrip.high, RoundTrip.whole, Nat.reduceSub] <;> rfl
  change decodeByMajor ((encVsubX d a b m).extractLsb' 26 6) (encVsubX d a b m) = _
  rw [hm]
  have ho : (encVsubX d a b m).extractLsb' 0 7 = 0x1#7 := by
    simp (disch := decide) only [encVsubX, RoundTrip.low, RoundTrip.high, RoundTrip.whole, Nat.reduceSub] <;> rfl
  change decodeMajor21Op ((encVsubX d a b m).extractLsb' 0 7) (encVsubX d a b m) = _
  rw [ho]
  change ((if (encVsubX d a b m).extractLsb' 7 1 == 0x0#1 then some (.vsubX ((encVsubX d a b m).extractLsb' 21 5) ((encVsubX d a b m).extractLsb' 16 5) ((encVsubX d a b m).extractLsb' 11 5) ((encVsubX d a b m).extractLsb' 8 3)) else none) : Option Instr) = _
  simp (disch := decide) only [encVsubX, RoundTrip.low, RoundTrip.high, RoundTrip.whole, Nat.reduceSub] <;> rfl
theorem RoundTrip.vsubI (d : BitVec 5) (a : BitVec 5) (i : BitVec 5) (m : BitVec 3) : RoundTrip.Statement (.vsubI d a i m) := fun _ => by
  have hm : (encVsubI d a i m).extractLsb' 26 6 = 0x22#6 := by
    simp (disch := decide) only [encVsubI, RoundTrip.low, RoundTrip.high, RoundTrip.whole, Nat.reduceSub] <;> rfl
  change decodeByMajor ((encVsubI d a i m).extractLsb' 26 6) (encVsubI d a i m) = _
  rw [hm]
  have ho : (encVsubI d a i m).extractLsb' 0 7 = 0x1#7 := by
    simp (disch := decide) only [encVsubI, RoundTrip.low, RoundTrip.high, RoundTrip.whole, Nat.reduceSub] <;> rfl
  change decodeMajor22Op ((encVsubI d a i m).extractLsb' 0 7) (encVsubI d a i m) = _
  rw [ho]
  change ((if (encVsubI d a i m).extractLsb' 7 1 == 0x0#1 then some (.vsubI ((encVsubI d a i m).extractLsb' 21 5) ((encVsubI d a i m).extractLsb' 16 5) ((encVsubI d a i m).extractLsb' 11 5) ((encVsubI d a i m).extractLsb' 8 3)) else none) : Option Instr) = _
  simp (disch := decide) only [encVsubI, RoundTrip.low, RoundTrip.high, RoundTrip.whole, Nat.reduceSub] <;> rfl
theorem RoundTrip.vrsubV (d : BitVec 5) (a : BitVec 5) (b : BitVec 5) (m : BitVec 3) (l : BitVec 1) : RoundTrip.Statement (.vrsubV d a b m l) := fun _ => by
  have hm : (encVrsubV d a b m l).extractLsb' 26 6 = 0x20#6 := by
    simp (disch := decide) only [encVrsubV, RoundTrip.low, RoundTrip.high, RoundTrip.whole, Nat.reduceSub] <;> rfl
  change decodeByMajor ((encVrsubV d a b m l).extractLsb' 26 6) (encVrsubV d a b m l) = _
  rw [hm]
  have hl : ((encVrsubV d a b m l).extractLsb' 5 2 == 0x3#2) = false := by
    simp (disch := decide) only [encVrsubV, RoundTrip.low, RoundTrip.high, RoundTrip.whole, Nat.reduceSub] <;> rfl
  change (if (encVrsubV d a b m l).extractLsb' 5 2 == 0x3#2 then _ else decodeMajor20Op ((encVrsubV d a b m l).extractLsb' 0 7) (encVrsubV d a b m l)) = _
  rw [hl]
  have ho : (encVrsubV d a b m l).extractLsb' 0 7 = 0x2#7 := by
    simp (disch := decide) only [encVrsubV, RoundTrip.low, RoundTrip.high, RoundTrip.whole, Nat.reduceSub] <;> rfl
  change decodeMajor20Op ((encVrsubV d a b m l).extractLsb' 0 7) (encVrsubV d a b m l) = _
  rw [ho]
  change (some (.vrsubV ((encVrsubV d a b m l).extractLsb' 21 5) ((encVrsubV d a b m l).extractLsb' 16 5) ((encVrsubV d a b m l).extractLsb' 11 5) ((encVrsubV d a b m l).extractLsb' 8 3) ((encVrsubV d a b m l).extractLsb' 7 1)) : Option Instr) = _
  simp (disch := decide) only [encVrsubV, RoundTrip.low, RoundTrip.high, RoundTrip.whole, Nat.reduceSub] <;> rfl
theorem RoundTrip.vrsubX (d : BitVec 5) (a : BitVec 5) (b : BitVec 5) (m : BitVec 3) : RoundTrip.Statement (.vrsubX d a b m) := fun _ => by
  have hm : (encVrsubX d a b m).extractLsb' 26 6 = 0x21#6 := by
    simp (disch := decide) only [encVrsubX, RoundTrip.low, RoundTrip.high, RoundTrip.whole, Nat.reduceSub] <;> rfl
  change decodeByMajor ((encVrsubX d a b m).extractLsb' 26 6) (encVrsubX d a b m) = _
  rw [hm]
  have ho : (encVrsubX d a b m).extractLsb' 0 7 = 0x2#7 := by
    simp (disch := decide) only [encVrsubX, RoundTrip.low, RoundTrip.high, RoundTrip.whole, Nat.reduceSub] <;> rfl
  change decodeMajor21Op ((encVrsubX d a b m).extractLsb' 0 7) (encVrsubX d a b m) = _
  rw [ho]
  change ((if (encVrsubX d a b m).extractLsb' 7 1 == 0x0#1 then some (.vrsubX ((encVrsubX d a b m).extractLsb' 21 5) ((encVrsubX d a b m).extractLsb' 16 5) ((encVrsubX d a b m).extractLsb' 11 5) ((encVrsubX d a b m).extractLsb' 8 3)) else none) : Option Instr) = _
  simp (disch := decide) only [encVrsubX, RoundTrip.low, RoundTrip.high, RoundTrip.whole, Nat.reduceSub] <;> rfl
theorem RoundTrip.vrsubI (d : BitVec 5) (a : BitVec 5) (i : BitVec 5) (m : BitVec 3) : RoundTrip.Statement (.vrsubI d a i m) := fun _ => by
  have hm : (encVrsubI d a i m).extractLsb' 26 6 = 0x22#6 := by
    simp (disch := decide) only [encVrsubI, RoundTrip.low, RoundTrip.high, RoundTrip.whole, Nat.reduceSub] <;> rfl
  change decodeByMajor ((encVrsubI d a i m).extractLsb' 26 6) (encVrsubI d a i m) = _
  rw [hm]
  have ho : (encVrsubI d a i m).extractLsb' 0 7 = 0x2#7 := by
    simp (disch := decide) only [encVrsubI, RoundTrip.low, RoundTrip.high, RoundTrip.whole, Nat.reduceSub] <;> rfl
  change decodeMajor22Op ((encVrsubI d a i m).extractLsb' 0 7) (encVrsubI d a i m) = _
  rw [ho]
  change ((if (encVrsubI d a i m).extractLsb' 7 1 == 0x0#1 then some (.vrsubI ((encVrsubI d a i m).extractLsb' 21 5) ((encVrsubI d a i m).extractLsb' 16 5) ((encVrsubI d a i m).extractLsb' 11 5) ((encVrsubI d a i m).extractLsb' 8 3)) else none) : Option Instr) = _
  simp (disch := decide) only [encVrsubI, RoundTrip.low, RoundTrip.high, RoundTrip.whole, Nat.reduceSub] <;> rfl
theorem RoundTrip.vmulV (d : BitVec 5) (a : BitVec 5) (b : BitVec 5) (m : BitVec 3) (l : BitVec 1) : RoundTrip.Statement (.vmulV d a b m l) := fun _ => by
  have hm : (encVmulV d a b m l).extractLsb' 26 6 = 0x20#6 := by
    simp (disch := decide) only [encVmulV, RoundTrip.low, RoundTrip.high, RoundTrip.whole, Nat.reduceSub] <;> rfl
  change decodeByMajor ((encVmulV d a b m l).extractLsb' 26 6) (encVmulV d a b m l) = _
  rw [hm]
  have hl : ((encVmulV d a b m l).extractLsb' 5 2 == 0x3#2) = false := by
    simp (disch := decide) only [encVmulV, RoundTrip.low, RoundTrip.high, RoundTrip.whole, Nat.reduceSub] <;> rfl
  change (if (encVmulV d a b m l).extractLsb' 5 2 == 0x3#2 then _ else decodeMajor20Op ((encVmulV d a b m l).extractLsb' 0 7) (encVmulV d a b m l)) = _
  rw [hl]
  have ho : (encVmulV d a b m l).extractLsb' 0 7 = 0x3#7 := by
    simp (disch := decide) only [encVmulV, RoundTrip.low, RoundTrip.high, RoundTrip.whole, Nat.reduceSub] <;> rfl
  change decodeMajor20Op ((encVmulV d a b m l).extractLsb' 0 7) (encVmulV d a b m l) = _
  rw [ho]
  change (some (.vmulV ((encVmulV d a b m l).extractLsb' 21 5) ((encVmulV d a b m l).extractLsb' 16 5) ((encVmulV d a b m l).extractLsb' 11 5) ((encVmulV d a b m l).extractLsb' 8 3) ((encVmulV d a b m l).extractLsb' 7 1)) : Option Instr) = _
  simp (disch := decide) only [encVmulV, RoundTrip.low, RoundTrip.high, RoundTrip.whole, Nat.reduceSub] <;> rfl
theorem RoundTrip.vmulX (d : BitVec 5) (a : BitVec 5) (b : BitVec 5) (m : BitVec 3) : RoundTrip.Statement (.vmulX d a b m) := fun _ => by
  have hm : (encVmulX d a b m).extractLsb' 26 6 = 0x21#6 := by
    simp (disch := decide) only [encVmulX, RoundTrip.low, RoundTrip.high, RoundTrip.whole, Nat.reduceSub] <;> rfl
  change decodeByMajor ((encVmulX d a b m).extractLsb' 26 6) (encVmulX d a b m) = _
  rw [hm]
  have ho : (encVmulX d a b m).extractLsb' 0 7 = 0x3#7 := by
    simp (disch := decide) only [encVmulX, RoundTrip.low, RoundTrip.high, RoundTrip.whole, Nat.reduceSub] <;> rfl
  change decodeMajor21Op ((encVmulX d a b m).extractLsb' 0 7) (encVmulX d a b m) = _
  rw [ho]
  change ((if (encVmulX d a b m).extractLsb' 7 1 == 0x0#1 then some (.vmulX ((encVmulX d a b m).extractLsb' 21 5) ((encVmulX d a b m).extractLsb' 16 5) ((encVmulX d a b m).extractLsb' 11 5) ((encVmulX d a b m).extractLsb' 8 3)) else none) : Option Instr) = _
  simp (disch := decide) only [encVmulX, RoundTrip.low, RoundTrip.high, RoundTrip.whole, Nat.reduceSub] <;> rfl
theorem RoundTrip.vmulhV (d : BitVec 5) (a : BitVec 5) (b : BitVec 5) (m : BitVec 3) (l : BitVec 1) : RoundTrip.Statement (.vmulhV d a b m l) := fun _ => by
  have hm : (encVmulhV d a b m l).extractLsb' 26 6 = 0x20#6 := by
    simp (disch := decide) only [encVmulhV, RoundTrip.low, RoundTrip.high, RoundTrip.whole, Nat.reduceSub] <;> rfl
  change decodeByMajor ((encVmulhV d a b m l).extractLsb' 26 6) (encVmulhV d a b m l) = _
  rw [hm]
  have hl : ((encVmulhV d a b m l).extractLsb' 5 2 == 0x3#2) = false := by
    simp (disch := decide) only [encVmulhV, RoundTrip.low, RoundTrip.high, RoundTrip.whole, Nat.reduceSub] <;> rfl
  change (if (encVmulhV d a b m l).extractLsb' 5 2 == 0x3#2 then _ else decodeMajor20Op ((encVmulhV d a b m l).extractLsb' 0 7) (encVmulhV d a b m l)) = _
  rw [hl]
  have ho : (encVmulhV d a b m l).extractLsb' 0 7 = 0x4#7 := by
    simp (disch := decide) only [encVmulhV, RoundTrip.low, RoundTrip.high, RoundTrip.whole, Nat.reduceSub] <;> rfl
  change decodeMajor20Op ((encVmulhV d a b m l).extractLsb' 0 7) (encVmulhV d a b m l) = _
  rw [ho]
  change (some (.vmulhV ((encVmulhV d a b m l).extractLsb' 21 5) ((encVmulhV d a b m l).extractLsb' 16 5) ((encVmulhV d a b m l).extractLsb' 11 5) ((encVmulhV d a b m l).extractLsb' 8 3) ((encVmulhV d a b m l).extractLsb' 7 1)) : Option Instr) = _
  simp (disch := decide) only [encVmulhV, RoundTrip.low, RoundTrip.high, RoundTrip.whole, Nat.reduceSub] <;> rfl
theorem RoundTrip.vmulhX (d : BitVec 5) (a : BitVec 5) (b : BitVec 5) (m : BitVec 3) : RoundTrip.Statement (.vmulhX d a b m) := fun _ => by
  have hm : (encVmulhX d a b m).extractLsb' 26 6 = 0x21#6 := by
    simp (disch := decide) only [encVmulhX, RoundTrip.low, RoundTrip.high, RoundTrip.whole, Nat.reduceSub] <;> rfl
  change decodeByMajor ((encVmulhX d a b m).extractLsb' 26 6) (encVmulhX d a b m) = _
  rw [hm]
  have ho : (encVmulhX d a b m).extractLsb' 0 7 = 0x4#7 := by
    simp (disch := decide) only [encVmulhX, RoundTrip.low, RoundTrip.high, RoundTrip.whole, Nat.reduceSub] <;> rfl
  change decodeMajor21Op ((encVmulhX d a b m).extractLsb' 0 7) (encVmulhX d a b m) = _
  rw [ho]
  change ((if (encVmulhX d a b m).extractLsb' 7 1 == 0x0#1 then some (.vmulhX ((encVmulhX d a b m).extractLsb' 21 5) ((encVmulhX d a b m).extractLsb' 16 5) ((encVmulhX d a b m).extractLsb' 11 5) ((encVmulhX d a b m).extractLsb' 8 3)) else none) : Option Instr) = _
  simp (disch := decide) only [encVmulhX, RoundTrip.low, RoundTrip.high, RoundTrip.whole, Nat.reduceSub] <;> rfl
theorem RoundTrip.vmulhuV (d : BitVec 5) (a : BitVec 5) (b : BitVec 5) (m : BitVec 3) (l : BitVec 1) : RoundTrip.Statement (.vmulhuV d a b m l) := fun _ => by
  have hm : (encVmulhuV d a b m l).extractLsb' 26 6 = 0x20#6 := by
    simp (disch := decide) only [encVmulhuV, RoundTrip.low, RoundTrip.high, RoundTrip.whole, Nat.reduceSub] <;> rfl
  change decodeByMajor ((encVmulhuV d a b m l).extractLsb' 26 6) (encVmulhuV d a b m l) = _
  rw [hm]
  have hl : ((encVmulhuV d a b m l).extractLsb' 5 2 == 0x3#2) = false := by
    simp (disch := decide) only [encVmulhuV, RoundTrip.low, RoundTrip.high, RoundTrip.whole, Nat.reduceSub] <;> rfl
  change (if (encVmulhuV d a b m l).extractLsb' 5 2 == 0x3#2 then _ else decodeMajor20Op ((encVmulhuV d a b m l).extractLsb' 0 7) (encVmulhuV d a b m l)) = _
  rw [hl]
  have ho : (encVmulhuV d a b m l).extractLsb' 0 7 = 0x5#7 := by
    simp (disch := decide) only [encVmulhuV, RoundTrip.low, RoundTrip.high, RoundTrip.whole, Nat.reduceSub] <;> rfl
  change decodeMajor20Op ((encVmulhuV d a b m l).extractLsb' 0 7) (encVmulhuV d a b m l) = _
  rw [ho]
  change (some (.vmulhuV ((encVmulhuV d a b m l).extractLsb' 21 5) ((encVmulhuV d a b m l).extractLsb' 16 5) ((encVmulhuV d a b m l).extractLsb' 11 5) ((encVmulhuV d a b m l).extractLsb' 8 3) ((encVmulhuV d a b m l).extractLsb' 7 1)) : Option Instr) = _
  simp (disch := decide) only [encVmulhuV, RoundTrip.low, RoundTrip.high, RoundTrip.whole, Nat.reduceSub] <;> rfl
theorem RoundTrip.vmulhuX (d : BitVec 5) (a : BitVec 5) (b : BitVec 5) (m : BitVec 3) : RoundTrip.Statement (.vmulhuX d a b m) := fun _ => by
  have hm : (encVmulhuX d a b m).extractLsb' 26 6 = 0x21#6 := by
    simp (disch := decide) only [encVmulhuX, RoundTrip.low, RoundTrip.high, RoundTrip.whole, Nat.reduceSub] <;> rfl
  change decodeByMajor ((encVmulhuX d a b m).extractLsb' 26 6) (encVmulhuX d a b m) = _
  rw [hm]
  have ho : (encVmulhuX d a b m).extractLsb' 0 7 = 0x5#7 := by
    simp (disch := decide) only [encVmulhuX, RoundTrip.low, RoundTrip.high, RoundTrip.whole, Nat.reduceSub] <;> rfl
  change decodeMajor21Op ((encVmulhuX d a b m).extractLsb' 0 7) (encVmulhuX d a b m) = _
  rw [ho]
  change ((if (encVmulhuX d a b m).extractLsb' 7 1 == 0x0#1 then some (.vmulhuX ((encVmulhuX d a b m).extractLsb' 21 5) ((encVmulhuX d a b m).extractLsb' 16 5) ((encVmulhuX d a b m).extractLsb' 11 5) ((encVmulhuX d a b m).extractLsb' 8 3)) else none) : Option Instr) = _
  simp (disch := decide) only [encVmulhuX, RoundTrip.low, RoundTrip.high, RoundTrip.whole, Nat.reduceSub] <;> rfl
theorem RoundTrip.vdivV (d : BitVec 5) (a : BitVec 5) (b : BitVec 5) (m : BitVec 3) (l : BitVec 1) : RoundTrip.Statement (.vdivV d a b m l) := fun _ => by
  have hm : (encVdivV d a b m l).extractLsb' 26 6 = 0x20#6 := by
    simp (disch := decide) only [encVdivV, RoundTrip.low, RoundTrip.high, RoundTrip.whole, Nat.reduceSub] <;> rfl
  change decodeByMajor ((encVdivV d a b m l).extractLsb' 26 6) (encVdivV d a b m l) = _
  rw [hm]
  have hl : ((encVdivV d a b m l).extractLsb' 5 2 == 0x3#2) = false := by
    simp (disch := decide) only [encVdivV, RoundTrip.low, RoundTrip.high, RoundTrip.whole, Nat.reduceSub] <;> rfl
  change (if (encVdivV d a b m l).extractLsb' 5 2 == 0x3#2 then _ else decodeMajor20Op ((encVdivV d a b m l).extractLsb' 0 7) (encVdivV d a b m l)) = _
  rw [hl]
  have ho : (encVdivV d a b m l).extractLsb' 0 7 = 0x6#7 := by
    simp (disch := decide) only [encVdivV, RoundTrip.low, RoundTrip.high, RoundTrip.whole, Nat.reduceSub] <;> rfl
  change decodeMajor20Op ((encVdivV d a b m l).extractLsb' 0 7) (encVdivV d a b m l) = _
  rw [ho]
  change (some (.vdivV ((encVdivV d a b m l).extractLsb' 21 5) ((encVdivV d a b m l).extractLsb' 16 5) ((encVdivV d a b m l).extractLsb' 11 5) ((encVdivV d a b m l).extractLsb' 8 3) ((encVdivV d a b m l).extractLsb' 7 1)) : Option Instr) = _
  simp (disch := decide) only [encVdivV, RoundTrip.low, RoundTrip.high, RoundTrip.whole, Nat.reduceSub] <;> rfl
theorem RoundTrip.vdivX (d : BitVec 5) (a : BitVec 5) (b : BitVec 5) (m : BitVec 3) : RoundTrip.Statement (.vdivX d a b m) := fun _ => by
  have hm : (encVdivX d a b m).extractLsb' 26 6 = 0x21#6 := by
    simp (disch := decide) only [encVdivX, RoundTrip.low, RoundTrip.high, RoundTrip.whole, Nat.reduceSub] <;> rfl
  change decodeByMajor ((encVdivX d a b m).extractLsb' 26 6) (encVdivX d a b m) = _
  rw [hm]
  have ho : (encVdivX d a b m).extractLsb' 0 7 = 0x6#7 := by
    simp (disch := decide) only [encVdivX, RoundTrip.low, RoundTrip.high, RoundTrip.whole, Nat.reduceSub] <;> rfl
  change decodeMajor21Op ((encVdivX d a b m).extractLsb' 0 7) (encVdivX d a b m) = _
  rw [ho]
  change ((if (encVdivX d a b m).extractLsb' 7 1 == 0x0#1 then some (.vdivX ((encVdivX d a b m).extractLsb' 21 5) ((encVdivX d a b m).extractLsb' 16 5) ((encVdivX d a b m).extractLsb' 11 5) ((encVdivX d a b m).extractLsb' 8 3)) else none) : Option Instr) = _
  simp (disch := decide) only [encVdivX, RoundTrip.low, RoundTrip.high, RoundTrip.whole, Nat.reduceSub] <;> rfl
theorem RoundTrip.vdivuV (d : BitVec 5) (a : BitVec 5) (b : BitVec 5) (m : BitVec 3) (l : BitVec 1) : RoundTrip.Statement (.vdivuV d a b m l) := fun _ => by
  have hm : (encVdivuV d a b m l).extractLsb' 26 6 = 0x20#6 := by
    simp (disch := decide) only [encVdivuV, RoundTrip.low, RoundTrip.high, RoundTrip.whole, Nat.reduceSub] <;> rfl
  change decodeByMajor ((encVdivuV d a b m l).extractLsb' 26 6) (encVdivuV d a b m l) = _
  rw [hm]
  have hl : ((encVdivuV d a b m l).extractLsb' 5 2 == 0x3#2) = false := by
    simp (disch := decide) only [encVdivuV, RoundTrip.low, RoundTrip.high, RoundTrip.whole, Nat.reduceSub] <;> rfl
  change (if (encVdivuV d a b m l).extractLsb' 5 2 == 0x3#2 then _ else decodeMajor20Op ((encVdivuV d a b m l).extractLsb' 0 7) (encVdivuV d a b m l)) = _
  rw [hl]
  have ho : (encVdivuV d a b m l).extractLsb' 0 7 = 0x7#7 := by
    simp (disch := decide) only [encVdivuV, RoundTrip.low, RoundTrip.high, RoundTrip.whole, Nat.reduceSub] <;> rfl
  change decodeMajor20Op ((encVdivuV d a b m l).extractLsb' 0 7) (encVdivuV d a b m l) = _
  rw [ho]
  change (some (.vdivuV ((encVdivuV d a b m l).extractLsb' 21 5) ((encVdivuV d a b m l).extractLsb' 16 5) ((encVdivuV d a b m l).extractLsb' 11 5) ((encVdivuV d a b m l).extractLsb' 8 3) ((encVdivuV d a b m l).extractLsb' 7 1)) : Option Instr) = _
  simp (disch := decide) only [encVdivuV, RoundTrip.low, RoundTrip.high, RoundTrip.whole, Nat.reduceSub] <;> rfl
theorem RoundTrip.vdivuX (d : BitVec 5) (a : BitVec 5) (b : BitVec 5) (m : BitVec 3) : RoundTrip.Statement (.vdivuX d a b m) := fun _ => by
  have hm : (encVdivuX d a b m).extractLsb' 26 6 = 0x21#6 := by
    simp (disch := decide) only [encVdivuX, RoundTrip.low, RoundTrip.high, RoundTrip.whole, Nat.reduceSub] <;> rfl
  change decodeByMajor ((encVdivuX d a b m).extractLsb' 26 6) (encVdivuX d a b m) = _
  rw [hm]
  have ho : (encVdivuX d a b m).extractLsb' 0 7 = 0x7#7 := by
    simp (disch := decide) only [encVdivuX, RoundTrip.low, RoundTrip.high, RoundTrip.whole, Nat.reduceSub] <;> rfl
  change decodeMajor21Op ((encVdivuX d a b m).extractLsb' 0 7) (encVdivuX d a b m) = _
  rw [ho]
  change ((if (encVdivuX d a b m).extractLsb' 7 1 == 0x0#1 then some (.vdivuX ((encVdivuX d a b m).extractLsb' 21 5) ((encVdivuX d a b m).extractLsb' 16 5) ((encVdivuX d a b m).extractLsb' 11 5) ((encVdivuX d a b m).extractLsb' 8 3)) else none) : Option Instr) = _
  simp (disch := decide) only [encVdivuX, RoundTrip.low, RoundTrip.high, RoundTrip.whole, Nat.reduceSub] <;> rfl
theorem RoundTrip.vremV (d : BitVec 5) (a : BitVec 5) (b : BitVec 5) (m : BitVec 3) (l : BitVec 1) : RoundTrip.Statement (.vremV d a b m l) := fun _ => by
  have hm : (encVremV d a b m l).extractLsb' 26 6 = 0x20#6 := by
    simp (disch := decide) only [encVremV, RoundTrip.low, RoundTrip.high, RoundTrip.whole, Nat.reduceSub] <;> rfl
  change decodeByMajor ((encVremV d a b m l).extractLsb' 26 6) (encVremV d a b m l) = _
  rw [hm]
  have hl : ((encVremV d a b m l).extractLsb' 5 2 == 0x3#2) = false := by
    simp (disch := decide) only [encVremV, RoundTrip.low, RoundTrip.high, RoundTrip.whole, Nat.reduceSub] <;> rfl
  change (if (encVremV d a b m l).extractLsb' 5 2 == 0x3#2 then _ else decodeMajor20Op ((encVremV d a b m l).extractLsb' 0 7) (encVremV d a b m l)) = _
  rw [hl]
  have ho : (encVremV d a b m l).extractLsb' 0 7 = 0x8#7 := by
    simp (disch := decide) only [encVremV, RoundTrip.low, RoundTrip.high, RoundTrip.whole, Nat.reduceSub] <;> rfl
  change decodeMajor20Op ((encVremV d a b m l).extractLsb' 0 7) (encVremV d a b m l) = _
  rw [ho]
  change (some (.vremV ((encVremV d a b m l).extractLsb' 21 5) ((encVremV d a b m l).extractLsb' 16 5) ((encVremV d a b m l).extractLsb' 11 5) ((encVremV d a b m l).extractLsb' 8 3) ((encVremV d a b m l).extractLsb' 7 1)) : Option Instr) = _
  simp (disch := decide) only [encVremV, RoundTrip.low, RoundTrip.high, RoundTrip.whole, Nat.reduceSub] <;> rfl
theorem RoundTrip.vremX (d : BitVec 5) (a : BitVec 5) (b : BitVec 5) (m : BitVec 3) : RoundTrip.Statement (.vremX d a b m) := fun _ => by
  have hm : (encVremX d a b m).extractLsb' 26 6 = 0x21#6 := by
    simp (disch := decide) only [encVremX, RoundTrip.low, RoundTrip.high, RoundTrip.whole, Nat.reduceSub] <;> rfl
  change decodeByMajor ((encVremX d a b m).extractLsb' 26 6) (encVremX d a b m) = _
  rw [hm]
  have ho : (encVremX d a b m).extractLsb' 0 7 = 0x8#7 := by
    simp (disch := decide) only [encVremX, RoundTrip.low, RoundTrip.high, RoundTrip.whole, Nat.reduceSub] <;> rfl
  change decodeMajor21Op ((encVremX d a b m).extractLsb' 0 7) (encVremX d a b m) = _
  rw [ho]
  change ((if (encVremX d a b m).extractLsb' 7 1 == 0x0#1 then some (.vremX ((encVremX d a b m).extractLsb' 21 5) ((encVremX d a b m).extractLsb' 16 5) ((encVremX d a b m).extractLsb' 11 5) ((encVremX d a b m).extractLsb' 8 3)) else none) : Option Instr) = _
  simp (disch := decide) only [encVremX, RoundTrip.low, RoundTrip.high, RoundTrip.whole, Nat.reduceSub] <;> rfl
theorem RoundTrip.vremuV (d : BitVec 5) (a : BitVec 5) (b : BitVec 5) (m : BitVec 3) (l : BitVec 1) : RoundTrip.Statement (.vremuV d a b m l) := fun _ => by
  have hm : (encVremuV d a b m l).extractLsb' 26 6 = 0x20#6 := by
    simp (disch := decide) only [encVremuV, RoundTrip.low, RoundTrip.high, RoundTrip.whole, Nat.reduceSub] <;> rfl
  change decodeByMajor ((encVremuV d a b m l).extractLsb' 26 6) (encVremuV d a b m l) = _
  rw [hm]
  have hl : ((encVremuV d a b m l).extractLsb' 5 2 == 0x3#2) = false := by
    simp (disch := decide) only [encVremuV, RoundTrip.low, RoundTrip.high, RoundTrip.whole, Nat.reduceSub] <;> rfl
  change (if (encVremuV d a b m l).extractLsb' 5 2 == 0x3#2 then _ else decodeMajor20Op ((encVremuV d a b m l).extractLsb' 0 7) (encVremuV d a b m l)) = _
  rw [hl]
  have ho : (encVremuV d a b m l).extractLsb' 0 7 = 0x9#7 := by
    simp (disch := decide) only [encVremuV, RoundTrip.low, RoundTrip.high, RoundTrip.whole, Nat.reduceSub] <;> rfl
  change decodeMajor20Op ((encVremuV d a b m l).extractLsb' 0 7) (encVremuV d a b m l) = _
  rw [ho]
  change (some (.vremuV ((encVremuV d a b m l).extractLsb' 21 5) ((encVremuV d a b m l).extractLsb' 16 5) ((encVremuV d a b m l).extractLsb' 11 5) ((encVremuV d a b m l).extractLsb' 8 3) ((encVremuV d a b m l).extractLsb' 7 1)) : Option Instr) = _
  simp (disch := decide) only [encVremuV, RoundTrip.low, RoundTrip.high, RoundTrip.whole, Nat.reduceSub] <;> rfl
theorem RoundTrip.vremuX (d : BitVec 5) (a : BitVec 5) (b : BitVec 5) (m : BitVec 3) : RoundTrip.Statement (.vremuX d a b m) := fun _ => by
  have hm : (encVremuX d a b m).extractLsb' 26 6 = 0x21#6 := by
    simp (disch := decide) only [encVremuX, RoundTrip.low, RoundTrip.high, RoundTrip.whole, Nat.reduceSub] <;> rfl
  change decodeByMajor ((encVremuX d a b m).extractLsb' 26 6) (encVremuX d a b m) = _
  rw [hm]
  have ho : (encVremuX d a b m).extractLsb' 0 7 = 0x9#7 := by
    simp (disch := decide) only [encVremuX, RoundTrip.low, RoundTrip.high, RoundTrip.whole, Nat.reduceSub] <;> rfl
  change decodeMajor21Op ((encVremuX d a b m).extractLsb' 0 7) (encVremuX d a b m) = _
  rw [ho]
  change ((if (encVremuX d a b m).extractLsb' 7 1 == 0x0#1 then some (.vremuX ((encVremuX d a b m).extractLsb' 21 5) ((encVremuX d a b m).extractLsb' 16 5) ((encVremuX d a b m).extractLsb' 11 5) ((encVremuX d a b m).extractLsb' 8 3)) else none) : Option Instr) = _
  simp (disch := decide) only [encVremuX, RoundTrip.low, RoundTrip.high, RoundTrip.whole, Nat.reduceSub] <;> rfl
theorem RoundTrip.vminV (d : BitVec 5) (a : BitVec 5) (b : BitVec 5) (m : BitVec 3) (l : BitVec 1) : RoundTrip.Statement (.vminV d a b m l) := fun _ => by
  have hm : (encVminV d a b m l).extractLsb' 26 6 = 0x20#6 := by
    simp (disch := decide) only [encVminV, RoundTrip.low, RoundTrip.high, RoundTrip.whole, Nat.reduceSub] <;> rfl
  change decodeByMajor ((encVminV d a b m l).extractLsb' 26 6) (encVminV d a b m l) = _
  rw [hm]
  have hl : ((encVminV d a b m l).extractLsb' 5 2 == 0x3#2) = false := by
    simp (disch := decide) only [encVminV, RoundTrip.low, RoundTrip.high, RoundTrip.whole, Nat.reduceSub] <;> rfl
  change (if (encVminV d a b m l).extractLsb' 5 2 == 0x3#2 then _ else decodeMajor20Op ((encVminV d a b m l).extractLsb' 0 7) (encVminV d a b m l)) = _
  rw [hl]
  have ho : (encVminV d a b m l).extractLsb' 0 7 = 0xa#7 := by
    simp (disch := decide) only [encVminV, RoundTrip.low, RoundTrip.high, RoundTrip.whole, Nat.reduceSub] <;> rfl
  change decodeMajor20Op ((encVminV d a b m l).extractLsb' 0 7) (encVminV d a b m l) = _
  rw [ho]
  change (some (.vminV ((encVminV d a b m l).extractLsb' 21 5) ((encVminV d a b m l).extractLsb' 16 5) ((encVminV d a b m l).extractLsb' 11 5) ((encVminV d a b m l).extractLsb' 8 3) ((encVminV d a b m l).extractLsb' 7 1)) : Option Instr) = _
  simp (disch := decide) only [encVminV, RoundTrip.low, RoundTrip.high, RoundTrip.whole, Nat.reduceSub] <;> rfl
theorem RoundTrip.vminX (d : BitVec 5) (a : BitVec 5) (b : BitVec 5) (m : BitVec 3) : RoundTrip.Statement (.vminX d a b m) := fun _ => by
  have hm : (encVminX d a b m).extractLsb' 26 6 = 0x21#6 := by
    simp (disch := decide) only [encVminX, RoundTrip.low, RoundTrip.high, RoundTrip.whole, Nat.reduceSub] <;> rfl
  change decodeByMajor ((encVminX d a b m).extractLsb' 26 6) (encVminX d a b m) = _
  rw [hm]
  have ho : (encVminX d a b m).extractLsb' 0 7 = 0xa#7 := by
    simp (disch := decide) only [encVminX, RoundTrip.low, RoundTrip.high, RoundTrip.whole, Nat.reduceSub] <;> rfl
  change decodeMajor21Op ((encVminX d a b m).extractLsb' 0 7) (encVminX d a b m) = _
  rw [ho]
  change ((if (encVminX d a b m).extractLsb' 7 1 == 0x0#1 then some (.vminX ((encVminX d a b m).extractLsb' 21 5) ((encVminX d a b m).extractLsb' 16 5) ((encVminX d a b m).extractLsb' 11 5) ((encVminX d a b m).extractLsb' 8 3)) else none) : Option Instr) = _
  simp (disch := decide) only [encVminX, RoundTrip.low, RoundTrip.high, RoundTrip.whole, Nat.reduceSub] <;> rfl
theorem RoundTrip.vminI (d : BitVec 5) (a : BitVec 5) (i : BitVec 5) (m : BitVec 3) : RoundTrip.Statement (.vminI d a i m) := fun _ => by
  have hm : (encVminI d a i m).extractLsb' 26 6 = 0x22#6 := by
    simp (disch := decide) only [encVminI, RoundTrip.low, RoundTrip.high, RoundTrip.whole, Nat.reduceSub] <;> rfl
  change decodeByMajor ((encVminI d a i m).extractLsb' 26 6) (encVminI d a i m) = _
  rw [hm]
  have ho : (encVminI d a i m).extractLsb' 0 7 = 0xa#7 := by
    simp (disch := decide) only [encVminI, RoundTrip.low, RoundTrip.high, RoundTrip.whole, Nat.reduceSub] <;> rfl
  change decodeMajor22Op ((encVminI d a i m).extractLsb' 0 7) (encVminI d a i m) = _
  rw [ho]
  change ((if (encVminI d a i m).extractLsb' 7 1 == 0x0#1 then some (.vminI ((encVminI d a i m).extractLsb' 21 5) ((encVminI d a i m).extractLsb' 16 5) ((encVminI d a i m).extractLsb' 11 5) ((encVminI d a i m).extractLsb' 8 3)) else none) : Option Instr) = _
  simp (disch := decide) only [encVminI, RoundTrip.low, RoundTrip.high, RoundTrip.whole, Nat.reduceSub] <;> rfl
theorem RoundTrip.vmaxV (d : BitVec 5) (a : BitVec 5) (b : BitVec 5) (m : BitVec 3) (l : BitVec 1) : RoundTrip.Statement (.vmaxV d a b m l) := fun _ => by
  have hm : (encVmaxV d a b m l).extractLsb' 26 6 = 0x20#6 := by
    simp (disch := decide) only [encVmaxV, RoundTrip.low, RoundTrip.high, RoundTrip.whole, Nat.reduceSub] <;> rfl
  change decodeByMajor ((encVmaxV d a b m l).extractLsb' 26 6) (encVmaxV d a b m l) = _
  rw [hm]
  have hl : ((encVmaxV d a b m l).extractLsb' 5 2 == 0x3#2) = false := by
    simp (disch := decide) only [encVmaxV, RoundTrip.low, RoundTrip.high, RoundTrip.whole, Nat.reduceSub] <;> rfl
  change (if (encVmaxV d a b m l).extractLsb' 5 2 == 0x3#2 then _ else decodeMajor20Op ((encVmaxV d a b m l).extractLsb' 0 7) (encVmaxV d a b m l)) = _
  rw [hl]
  have ho : (encVmaxV d a b m l).extractLsb' 0 7 = 0xb#7 := by
    simp (disch := decide) only [encVmaxV, RoundTrip.low, RoundTrip.high, RoundTrip.whole, Nat.reduceSub] <;> rfl
  change decodeMajor20Op ((encVmaxV d a b m l).extractLsb' 0 7) (encVmaxV d a b m l) = _
  rw [ho]
  change (some (.vmaxV ((encVmaxV d a b m l).extractLsb' 21 5) ((encVmaxV d a b m l).extractLsb' 16 5) ((encVmaxV d a b m l).extractLsb' 11 5) ((encVmaxV d a b m l).extractLsb' 8 3) ((encVmaxV d a b m l).extractLsb' 7 1)) : Option Instr) = _
  simp (disch := decide) only [encVmaxV, RoundTrip.low, RoundTrip.high, RoundTrip.whole, Nat.reduceSub] <;> rfl
theorem RoundTrip.vmaxX (d : BitVec 5) (a : BitVec 5) (b : BitVec 5) (m : BitVec 3) : RoundTrip.Statement (.vmaxX d a b m) := fun _ => by
  have hm : (encVmaxX d a b m).extractLsb' 26 6 = 0x21#6 := by
    simp (disch := decide) only [encVmaxX, RoundTrip.low, RoundTrip.high, RoundTrip.whole, Nat.reduceSub] <;> rfl
  change decodeByMajor ((encVmaxX d a b m).extractLsb' 26 6) (encVmaxX d a b m) = _
  rw [hm]
  have ho : (encVmaxX d a b m).extractLsb' 0 7 = 0xb#7 := by
    simp (disch := decide) only [encVmaxX, RoundTrip.low, RoundTrip.high, RoundTrip.whole, Nat.reduceSub] <;> rfl
  change decodeMajor21Op ((encVmaxX d a b m).extractLsb' 0 7) (encVmaxX d a b m) = _
  rw [ho]
  change ((if (encVmaxX d a b m).extractLsb' 7 1 == 0x0#1 then some (.vmaxX ((encVmaxX d a b m).extractLsb' 21 5) ((encVmaxX d a b m).extractLsb' 16 5) ((encVmaxX d a b m).extractLsb' 11 5) ((encVmaxX d a b m).extractLsb' 8 3)) else none) : Option Instr) = _
  simp (disch := decide) only [encVmaxX, RoundTrip.low, RoundTrip.high, RoundTrip.whole, Nat.reduceSub] <;> rfl
theorem RoundTrip.vmaxI (d : BitVec 5) (a : BitVec 5) (i : BitVec 5) (m : BitVec 3) : RoundTrip.Statement (.vmaxI d a i m) := fun _ => by
  have hm : (encVmaxI d a i m).extractLsb' 26 6 = 0x22#6 := by
    simp (disch := decide) only [encVmaxI, RoundTrip.low, RoundTrip.high, RoundTrip.whole, Nat.reduceSub] <;> rfl
  change decodeByMajor ((encVmaxI d a i m).extractLsb' 26 6) (encVmaxI d a i m) = _
  rw [hm]
  have ho : (encVmaxI d a i m).extractLsb' 0 7 = 0xb#7 := by
    simp (disch := decide) only [encVmaxI, RoundTrip.low, RoundTrip.high, RoundTrip.whole, Nat.reduceSub] <;> rfl
  change decodeMajor22Op ((encVmaxI d a i m).extractLsb' 0 7) (encVmaxI d a i m) = _
  rw [ho]
  change ((if (encVmaxI d a i m).extractLsb' 7 1 == 0x0#1 then some (.vmaxI ((encVmaxI d a i m).extractLsb' 21 5) ((encVmaxI d a i m).extractLsb' 16 5) ((encVmaxI d a i m).extractLsb' 11 5) ((encVmaxI d a i m).extractLsb' 8 3)) else none) : Option Instr) = _
  simp (disch := decide) only [encVmaxI, RoundTrip.low, RoundTrip.high, RoundTrip.whole, Nat.reduceSub] <;> rfl
theorem RoundTrip.vminuV (d : BitVec 5) (a : BitVec 5) (b : BitVec 5) (m : BitVec 3) (l : BitVec 1) : RoundTrip.Statement (.vminuV d a b m l) := fun _ => by
  have hm : (encVminuV d a b m l).extractLsb' 26 6 = 0x20#6 := by
    simp (disch := decide) only [encVminuV, RoundTrip.low, RoundTrip.high, RoundTrip.whole, Nat.reduceSub] <;> rfl
  change decodeByMajor ((encVminuV d a b m l).extractLsb' 26 6) (encVminuV d a b m l) = _
  rw [hm]
  have hl : ((encVminuV d a b m l).extractLsb' 5 2 == 0x3#2) = false := by
    simp (disch := decide) only [encVminuV, RoundTrip.low, RoundTrip.high, RoundTrip.whole, Nat.reduceSub] <;> rfl
  change (if (encVminuV d a b m l).extractLsb' 5 2 == 0x3#2 then _ else decodeMajor20Op ((encVminuV d a b m l).extractLsb' 0 7) (encVminuV d a b m l)) = _
  rw [hl]
  have ho : (encVminuV d a b m l).extractLsb' 0 7 = 0xc#7 := by
    simp (disch := decide) only [encVminuV, RoundTrip.low, RoundTrip.high, RoundTrip.whole, Nat.reduceSub] <;> rfl
  change decodeMajor20Op ((encVminuV d a b m l).extractLsb' 0 7) (encVminuV d a b m l) = _
  rw [ho]
  change (some (.vminuV ((encVminuV d a b m l).extractLsb' 21 5) ((encVminuV d a b m l).extractLsb' 16 5) ((encVminuV d a b m l).extractLsb' 11 5) ((encVminuV d a b m l).extractLsb' 8 3) ((encVminuV d a b m l).extractLsb' 7 1)) : Option Instr) = _
  simp (disch := decide) only [encVminuV, RoundTrip.low, RoundTrip.high, RoundTrip.whole, Nat.reduceSub] <;> rfl
theorem RoundTrip.vminuX (d : BitVec 5) (a : BitVec 5) (b : BitVec 5) (m : BitVec 3) : RoundTrip.Statement (.vminuX d a b m) := fun _ => by
  have hm : (encVminuX d a b m).extractLsb' 26 6 = 0x21#6 := by
    simp (disch := decide) only [encVminuX, RoundTrip.low, RoundTrip.high, RoundTrip.whole, Nat.reduceSub] <;> rfl
  change decodeByMajor ((encVminuX d a b m).extractLsb' 26 6) (encVminuX d a b m) = _
  rw [hm]
  have ho : (encVminuX d a b m).extractLsb' 0 7 = 0xc#7 := by
    simp (disch := decide) only [encVminuX, RoundTrip.low, RoundTrip.high, RoundTrip.whole, Nat.reduceSub] <;> rfl
  change decodeMajor21Op ((encVminuX d a b m).extractLsb' 0 7) (encVminuX d a b m) = _
  rw [ho]
  change ((if (encVminuX d a b m).extractLsb' 7 1 == 0x0#1 then some (.vminuX ((encVminuX d a b m).extractLsb' 21 5) ((encVminuX d a b m).extractLsb' 16 5) ((encVminuX d a b m).extractLsb' 11 5) ((encVminuX d a b m).extractLsb' 8 3)) else none) : Option Instr) = _
  simp (disch := decide) only [encVminuX, RoundTrip.low, RoundTrip.high, RoundTrip.whole, Nat.reduceSub] <;> rfl
theorem RoundTrip.vminuI (d : BitVec 5) (a : BitVec 5) (i : BitVec 5) (m : BitVec 3) : RoundTrip.Statement (.vminuI d a i m) := fun _ => by
  have hm : (encVminuI d a i m).extractLsb' 26 6 = 0x22#6 := by
    simp (disch := decide) only [encVminuI, RoundTrip.low, RoundTrip.high, RoundTrip.whole, Nat.reduceSub] <;> rfl
  change decodeByMajor ((encVminuI d a i m).extractLsb' 26 6) (encVminuI d a i m) = _
  rw [hm]
  have ho : (encVminuI d a i m).extractLsb' 0 7 = 0xc#7 := by
    simp (disch := decide) only [encVminuI, RoundTrip.low, RoundTrip.high, RoundTrip.whole, Nat.reduceSub] <;> rfl
  change decodeMajor22Op ((encVminuI d a i m).extractLsb' 0 7) (encVminuI d a i m) = _
  rw [ho]
  change ((if (encVminuI d a i m).extractLsb' 7 1 == 0x0#1 then some (.vminuI ((encVminuI d a i m).extractLsb' 21 5) ((encVminuI d a i m).extractLsb' 16 5) ((encVminuI d a i m).extractLsb' 11 5) ((encVminuI d a i m).extractLsb' 8 3)) else none) : Option Instr) = _
  simp (disch := decide) only [encVminuI, RoundTrip.low, RoundTrip.high, RoundTrip.whole, Nat.reduceSub] <;> rfl
theorem RoundTrip.vmaxuV (d : BitVec 5) (a : BitVec 5) (b : BitVec 5) (m : BitVec 3) (l : BitVec 1) : RoundTrip.Statement (.vmaxuV d a b m l) := fun _ => by
  have hm : (encVmaxuV d a b m l).extractLsb' 26 6 = 0x20#6 := by
    simp (disch := decide) only [encVmaxuV, RoundTrip.low, RoundTrip.high, RoundTrip.whole, Nat.reduceSub] <;> rfl
  change decodeByMajor ((encVmaxuV d a b m l).extractLsb' 26 6) (encVmaxuV d a b m l) = _
  rw [hm]
  have hl : ((encVmaxuV d a b m l).extractLsb' 5 2 == 0x3#2) = false := by
    simp (disch := decide) only [encVmaxuV, RoundTrip.low, RoundTrip.high, RoundTrip.whole, Nat.reduceSub] <;> rfl
  change (if (encVmaxuV d a b m l).extractLsb' 5 2 == 0x3#2 then _ else decodeMajor20Op ((encVmaxuV d a b m l).extractLsb' 0 7) (encVmaxuV d a b m l)) = _
  rw [hl]
  have ho : (encVmaxuV d a b m l).extractLsb' 0 7 = 0xd#7 := by
    simp (disch := decide) only [encVmaxuV, RoundTrip.low, RoundTrip.high, RoundTrip.whole, Nat.reduceSub] <;> rfl
  change decodeMajor20Op ((encVmaxuV d a b m l).extractLsb' 0 7) (encVmaxuV d a b m l) = _
  rw [ho]
  change (some (.vmaxuV ((encVmaxuV d a b m l).extractLsb' 21 5) ((encVmaxuV d a b m l).extractLsb' 16 5) ((encVmaxuV d a b m l).extractLsb' 11 5) ((encVmaxuV d a b m l).extractLsb' 8 3) ((encVmaxuV d a b m l).extractLsb' 7 1)) : Option Instr) = _
  simp (disch := decide) only [encVmaxuV, RoundTrip.low, RoundTrip.high, RoundTrip.whole, Nat.reduceSub] <;> rfl
theorem RoundTrip.vmaxuX (d : BitVec 5) (a : BitVec 5) (b : BitVec 5) (m : BitVec 3) : RoundTrip.Statement (.vmaxuX d a b m) := fun _ => by
  have hm : (encVmaxuX d a b m).extractLsb' 26 6 = 0x21#6 := by
    simp (disch := decide) only [encVmaxuX, RoundTrip.low, RoundTrip.high, RoundTrip.whole, Nat.reduceSub] <;> rfl
  change decodeByMajor ((encVmaxuX d a b m).extractLsb' 26 6) (encVmaxuX d a b m) = _
  rw [hm]
  have ho : (encVmaxuX d a b m).extractLsb' 0 7 = 0xd#7 := by
    simp (disch := decide) only [encVmaxuX, RoundTrip.low, RoundTrip.high, RoundTrip.whole, Nat.reduceSub] <;> rfl
  change decodeMajor21Op ((encVmaxuX d a b m).extractLsb' 0 7) (encVmaxuX d a b m) = _
  rw [ho]
  change ((if (encVmaxuX d a b m).extractLsb' 7 1 == 0x0#1 then some (.vmaxuX ((encVmaxuX d a b m).extractLsb' 21 5) ((encVmaxuX d a b m).extractLsb' 16 5) ((encVmaxuX d a b m).extractLsb' 11 5) ((encVmaxuX d a b m).extractLsb' 8 3)) else none) : Option Instr) = _
  simp (disch := decide) only [encVmaxuX, RoundTrip.low, RoundTrip.high, RoundTrip.whole, Nat.reduceSub] <;> rfl
theorem RoundTrip.vmaxuI (d : BitVec 5) (a : BitVec 5) (i : BitVec 5) (m : BitVec 3) : RoundTrip.Statement (.vmaxuI d a i m) := fun _ => by
  have hm : (encVmaxuI d a i m).extractLsb' 26 6 = 0x22#6 := by
    simp (disch := decide) only [encVmaxuI, RoundTrip.low, RoundTrip.high, RoundTrip.whole, Nat.reduceSub] <;> rfl
  change decodeByMajor ((encVmaxuI d a i m).extractLsb' 26 6) (encVmaxuI d a i m) = _
  rw [hm]
  have ho : (encVmaxuI d a i m).extractLsb' 0 7 = 0xd#7 := by
    simp (disch := decide) only [encVmaxuI, RoundTrip.low, RoundTrip.high, RoundTrip.whole, Nat.reduceSub] <;> rfl
  change decodeMajor22Op ((encVmaxuI d a i m).extractLsb' 0 7) (encVmaxuI d a i m) = _
  rw [ho]
  change ((if (encVmaxuI d a i m).extractLsb' 7 1 == 0x0#1 then some (.vmaxuI ((encVmaxuI d a i m).extractLsb' 21 5) ((encVmaxuI d a i m).extractLsb' 16 5) ((encVmaxuI d a i m).extractLsb' 11 5) ((encVmaxuI d a i m).extractLsb' 8 3)) else none) : Option Instr) = _
  simp (disch := decide) only [encVmaxuI, RoundTrip.low, RoundTrip.high, RoundTrip.whole, Nat.reduceSub] <;> rfl
theorem RoundTrip.vandV (d : BitVec 5) (a : BitVec 5) (b : BitVec 5) (m : BitVec 3) (l : BitVec 1) : RoundTrip.Statement (.vandV d a b m l) := fun _ => by
  have hm : (encVandV d a b m l).extractLsb' 26 6 = 0x20#6 := by
    simp (disch := decide) only [encVandV, RoundTrip.low, RoundTrip.high, RoundTrip.whole, Nat.reduceSub] <;> rfl
  change decodeByMajor ((encVandV d a b m l).extractLsb' 26 6) (encVandV d a b m l) = _
  rw [hm]
  have hl : ((encVandV d a b m l).extractLsb' 5 2 == 0x3#2) = false := by
    simp (disch := decide) only [encVandV, RoundTrip.low, RoundTrip.high, RoundTrip.whole, Nat.reduceSub] <;> rfl
  change (if (encVandV d a b m l).extractLsb' 5 2 == 0x3#2 then _ else decodeMajor20Op ((encVandV d a b m l).extractLsb' 0 7) (encVandV d a b m l)) = _
  rw [hl]
  have ho : (encVandV d a b m l).extractLsb' 0 7 = 0xe#7 := by
    simp (disch := decide) only [encVandV, RoundTrip.low, RoundTrip.high, RoundTrip.whole, Nat.reduceSub] <;> rfl
  change decodeMajor20Op ((encVandV d a b m l).extractLsb' 0 7) (encVandV d a b m l) = _
  rw [ho]
  change (some (.vandV ((encVandV d a b m l).extractLsb' 21 5) ((encVandV d a b m l).extractLsb' 16 5) ((encVandV d a b m l).extractLsb' 11 5) ((encVandV d a b m l).extractLsb' 8 3) ((encVandV d a b m l).extractLsb' 7 1)) : Option Instr) = _
  simp (disch := decide) only [encVandV, RoundTrip.low, RoundTrip.high, RoundTrip.whole, Nat.reduceSub] <;> rfl
theorem RoundTrip.vandX (d : BitVec 5) (a : BitVec 5) (b : BitVec 5) (m : BitVec 3) : RoundTrip.Statement (.vandX d a b m) := fun _ => by
  have hm : (encVandX d a b m).extractLsb' 26 6 = 0x21#6 := by
    simp (disch := decide) only [encVandX, RoundTrip.low, RoundTrip.high, RoundTrip.whole, Nat.reduceSub] <;> rfl
  change decodeByMajor ((encVandX d a b m).extractLsb' 26 6) (encVandX d a b m) = _
  rw [hm]
  have ho : (encVandX d a b m).extractLsb' 0 7 = 0xe#7 := by
    simp (disch := decide) only [encVandX, RoundTrip.low, RoundTrip.high, RoundTrip.whole, Nat.reduceSub] <;> rfl
  change decodeMajor21Op ((encVandX d a b m).extractLsb' 0 7) (encVandX d a b m) = _
  rw [ho]
  change ((if (encVandX d a b m).extractLsb' 7 1 == 0x0#1 then some (.vandX ((encVandX d a b m).extractLsb' 21 5) ((encVandX d a b m).extractLsb' 16 5) ((encVandX d a b m).extractLsb' 11 5) ((encVandX d a b m).extractLsb' 8 3)) else none) : Option Instr) = _
  simp (disch := decide) only [encVandX, RoundTrip.low, RoundTrip.high, RoundTrip.whole, Nat.reduceSub] <;> rfl
theorem RoundTrip.vandI (d : BitVec 5) (a : BitVec 5) (i : BitVec 5) (m : BitVec 3) : RoundTrip.Statement (.vandI d a i m) := fun _ => by
  have hm : (encVandI d a i m).extractLsb' 26 6 = 0x22#6 := by
    simp (disch := decide) only [encVandI, RoundTrip.low, RoundTrip.high, RoundTrip.whole, Nat.reduceSub] <;> rfl
  change decodeByMajor ((encVandI d a i m).extractLsb' 26 6) (encVandI d a i m) = _
  rw [hm]
  have ho : (encVandI d a i m).extractLsb' 0 7 = 0xe#7 := by
    simp (disch := decide) only [encVandI, RoundTrip.low, RoundTrip.high, RoundTrip.whole, Nat.reduceSub] <;> rfl
  change decodeMajor22Op ((encVandI d a i m).extractLsb' 0 7) (encVandI d a i m) = _
  rw [ho]
  change ((if (encVandI d a i m).extractLsb' 7 1 == 0x0#1 then some (.vandI ((encVandI d a i m).extractLsb' 21 5) ((encVandI d a i m).extractLsb' 16 5) ((encVandI d a i m).extractLsb' 11 5) ((encVandI d a i m).extractLsb' 8 3)) else none) : Option Instr) = _
  simp (disch := decide) only [encVandI, RoundTrip.low, RoundTrip.high, RoundTrip.whole, Nat.reduceSub] <;> rfl
theorem RoundTrip.vorV (d : BitVec 5) (a : BitVec 5) (b : BitVec 5) (m : BitVec 3) (l : BitVec 1) : RoundTrip.Statement (.vorV d a b m l) := fun _ => by
  have hm : (encVorV d a b m l).extractLsb' 26 6 = 0x20#6 := by
    simp (disch := decide) only [encVorV, RoundTrip.low, RoundTrip.high, RoundTrip.whole, Nat.reduceSub] <;> rfl
  change decodeByMajor ((encVorV d a b m l).extractLsb' 26 6) (encVorV d a b m l) = _
  rw [hm]
  have hl : ((encVorV d a b m l).extractLsb' 5 2 == 0x3#2) = false := by
    simp (disch := decide) only [encVorV, RoundTrip.low, RoundTrip.high, RoundTrip.whole, Nat.reduceSub] <;> rfl
  change (if (encVorV d a b m l).extractLsb' 5 2 == 0x3#2 then _ else decodeMajor20Op ((encVorV d a b m l).extractLsb' 0 7) (encVorV d a b m l)) = _
  rw [hl]
  have ho : (encVorV d a b m l).extractLsb' 0 7 = 0xf#7 := by
    simp (disch := decide) only [encVorV, RoundTrip.low, RoundTrip.high, RoundTrip.whole, Nat.reduceSub] <;> rfl
  change decodeMajor20Op ((encVorV d a b m l).extractLsb' 0 7) (encVorV d a b m l) = _
  rw [ho]
  change (some (.vorV ((encVorV d a b m l).extractLsb' 21 5) ((encVorV d a b m l).extractLsb' 16 5) ((encVorV d a b m l).extractLsb' 11 5) ((encVorV d a b m l).extractLsb' 8 3) ((encVorV d a b m l).extractLsb' 7 1)) : Option Instr) = _
  simp (disch := decide) only [encVorV, RoundTrip.low, RoundTrip.high, RoundTrip.whole, Nat.reduceSub] <;> rfl
theorem RoundTrip.vorX (d : BitVec 5) (a : BitVec 5) (b : BitVec 5) (m : BitVec 3) : RoundTrip.Statement (.vorX d a b m) := fun _ => by
  have hm : (encVorX d a b m).extractLsb' 26 6 = 0x21#6 := by
    simp (disch := decide) only [encVorX, RoundTrip.low, RoundTrip.high, RoundTrip.whole, Nat.reduceSub] <;> rfl
  change decodeByMajor ((encVorX d a b m).extractLsb' 26 6) (encVorX d a b m) = _
  rw [hm]
  have ho : (encVorX d a b m).extractLsb' 0 7 = 0xf#7 := by
    simp (disch := decide) only [encVorX, RoundTrip.low, RoundTrip.high, RoundTrip.whole, Nat.reduceSub] <;> rfl
  change decodeMajor21Op ((encVorX d a b m).extractLsb' 0 7) (encVorX d a b m) = _
  rw [ho]
  change ((if (encVorX d a b m).extractLsb' 7 1 == 0x0#1 then some (.vorX ((encVorX d a b m).extractLsb' 21 5) ((encVorX d a b m).extractLsb' 16 5) ((encVorX d a b m).extractLsb' 11 5) ((encVorX d a b m).extractLsb' 8 3)) else none) : Option Instr) = _
  simp (disch := decide) only [encVorX, RoundTrip.low, RoundTrip.high, RoundTrip.whole, Nat.reduceSub] <;> rfl
theorem RoundTrip.vorI (d : BitVec 5) (a : BitVec 5) (i : BitVec 5) (m : BitVec 3) : RoundTrip.Statement (.vorI d a i m) := fun _ => by
  have hm : (encVorI d a i m).extractLsb' 26 6 = 0x22#6 := by
    simp (disch := decide) only [encVorI, RoundTrip.low, RoundTrip.high, RoundTrip.whole, Nat.reduceSub] <;> rfl
  change decodeByMajor ((encVorI d a i m).extractLsb' 26 6) (encVorI d a i m) = _
  rw [hm]
  have ho : (encVorI d a i m).extractLsb' 0 7 = 0xf#7 := by
    simp (disch := decide) only [encVorI, RoundTrip.low, RoundTrip.high, RoundTrip.whole, Nat.reduceSub] <;> rfl
  change decodeMajor22Op ((encVorI d a i m).extractLsb' 0 7) (encVorI d a i m) = _
  rw [ho]
  change ((if (encVorI d a i m).extractLsb' 7 1 == 0x0#1 then some (.vorI ((encVorI d a i m).extractLsb' 21 5) ((encVorI d a i m).extractLsb' 16 5) ((encVorI d a i m).extractLsb' 11 5) ((encVorI d a i m).extractLsb' 8 3)) else none) : Option Instr) = _
  simp (disch := decide) only [encVorI, RoundTrip.low, RoundTrip.high, RoundTrip.whole, Nat.reduceSub] <;> rfl
theorem RoundTrip.vxorV (d : BitVec 5) (a : BitVec 5) (b : BitVec 5) (m : BitVec 3) (l : BitVec 1) : RoundTrip.Statement (.vxorV d a b m l) := fun _ => by
  have hm : (encVxorV d a b m l).extractLsb' 26 6 = 0x20#6 := by
    simp (disch := decide) only [encVxorV, RoundTrip.low, RoundTrip.high, RoundTrip.whole, Nat.reduceSub] <;> rfl
  change decodeByMajor ((encVxorV d a b m l).extractLsb' 26 6) (encVxorV d a b m l) = _
  rw [hm]
  have hl : ((encVxorV d a b m l).extractLsb' 5 2 == 0x3#2) = false := by
    simp (disch := decide) only [encVxorV, RoundTrip.low, RoundTrip.high, RoundTrip.whole, Nat.reduceSub] <;> rfl
  change (if (encVxorV d a b m l).extractLsb' 5 2 == 0x3#2 then _ else decodeMajor20Op ((encVxorV d a b m l).extractLsb' 0 7) (encVxorV d a b m l)) = _
  rw [hl]
  have ho : (encVxorV d a b m l).extractLsb' 0 7 = 0x10#7 := by
    simp (disch := decide) only [encVxorV, RoundTrip.low, RoundTrip.high, RoundTrip.whole, Nat.reduceSub] <;> rfl
  change decodeMajor20Op ((encVxorV d a b m l).extractLsb' 0 7) (encVxorV d a b m l) = _
  rw [ho]
  change (some (.vxorV ((encVxorV d a b m l).extractLsb' 21 5) ((encVxorV d a b m l).extractLsb' 16 5) ((encVxorV d a b m l).extractLsb' 11 5) ((encVxorV d a b m l).extractLsb' 8 3) ((encVxorV d a b m l).extractLsb' 7 1)) : Option Instr) = _
  simp (disch := decide) only [encVxorV, RoundTrip.low, RoundTrip.high, RoundTrip.whole, Nat.reduceSub] <;> rfl
theorem RoundTrip.vxorX (d : BitVec 5) (a : BitVec 5) (b : BitVec 5) (m : BitVec 3) : RoundTrip.Statement (.vxorX d a b m) := fun _ => by
  have hm : (encVxorX d a b m).extractLsb' 26 6 = 0x21#6 := by
    simp (disch := decide) only [encVxorX, RoundTrip.low, RoundTrip.high, RoundTrip.whole, Nat.reduceSub] <;> rfl
  change decodeByMajor ((encVxorX d a b m).extractLsb' 26 6) (encVxorX d a b m) = _
  rw [hm]
  have ho : (encVxorX d a b m).extractLsb' 0 7 = 0x10#7 := by
    simp (disch := decide) only [encVxorX, RoundTrip.low, RoundTrip.high, RoundTrip.whole, Nat.reduceSub] <;> rfl
  change decodeMajor21Op ((encVxorX d a b m).extractLsb' 0 7) (encVxorX d a b m) = _
  rw [ho]
  change ((if (encVxorX d a b m).extractLsb' 7 1 == 0x0#1 then some (.vxorX ((encVxorX d a b m).extractLsb' 21 5) ((encVxorX d a b m).extractLsb' 16 5) ((encVxorX d a b m).extractLsb' 11 5) ((encVxorX d a b m).extractLsb' 8 3)) else none) : Option Instr) = _
  simp (disch := decide) only [encVxorX, RoundTrip.low, RoundTrip.high, RoundTrip.whole, Nat.reduceSub] <;> rfl
theorem RoundTrip.vxorI (d : BitVec 5) (a : BitVec 5) (i : BitVec 5) (m : BitVec 3) : RoundTrip.Statement (.vxorI d a i m) := fun _ => by
  have hm : (encVxorI d a i m).extractLsb' 26 6 = 0x22#6 := by
    simp (disch := decide) only [encVxorI, RoundTrip.low, RoundTrip.high, RoundTrip.whole, Nat.reduceSub] <;> rfl
  change decodeByMajor ((encVxorI d a i m).extractLsb' 26 6) (encVxorI d a i m) = _
  rw [hm]
  have ho : (encVxorI d a i m).extractLsb' 0 7 = 0x10#7 := by
    simp (disch := decide) only [encVxorI, RoundTrip.low, RoundTrip.high, RoundTrip.whole, Nat.reduceSub] <;> rfl
  change decodeMajor22Op ((encVxorI d a i m).extractLsb' 0 7) (encVxorI d a i m) = _
  rw [ho]
  change ((if (encVxorI d a i m).extractLsb' 7 1 == 0x0#1 then some (.vxorI ((encVxorI d a i m).extractLsb' 21 5) ((encVxorI d a i m).extractLsb' 16 5) ((encVxorI d a i m).extractLsb' 11 5) ((encVxorI d a i m).extractLsb' 8 3)) else none) : Option Instr) = _
  simp (disch := decide) only [encVxorI, RoundTrip.low, RoundTrip.high, RoundTrip.whole, Nat.reduceSub] <;> rfl
theorem RoundTrip.vsllV (d : BitVec 5) (a : BitVec 5) (b : BitVec 5) (m : BitVec 3) (l : BitVec 1) : RoundTrip.Statement (.vsllV d a b m l) := fun _ => by
  have hm : (encVsllV d a b m l).extractLsb' 26 6 = 0x20#6 := by
    simp (disch := decide) only [encVsllV, RoundTrip.low, RoundTrip.high, RoundTrip.whole, Nat.reduceSub] <;> rfl
  change decodeByMajor ((encVsllV d a b m l).extractLsb' 26 6) (encVsllV d a b m l) = _
  rw [hm]
  have hl : ((encVsllV d a b m l).extractLsb' 5 2 == 0x3#2) = false := by
    simp (disch := decide) only [encVsllV, RoundTrip.low, RoundTrip.high, RoundTrip.whole, Nat.reduceSub] <;> rfl
  change (if (encVsllV d a b m l).extractLsb' 5 2 == 0x3#2 then _ else decodeMajor20Op ((encVsllV d a b m l).extractLsb' 0 7) (encVsllV d a b m l)) = _
  rw [hl]
  have ho : (encVsllV d a b m l).extractLsb' 0 7 = 0x11#7 := by
    simp (disch := decide) only [encVsllV, RoundTrip.low, RoundTrip.high, RoundTrip.whole, Nat.reduceSub] <;> rfl
  change decodeMajor20Op ((encVsllV d a b m l).extractLsb' 0 7) (encVsllV d a b m l) = _
  rw [ho]
  change (some (.vsllV ((encVsllV d a b m l).extractLsb' 21 5) ((encVsllV d a b m l).extractLsb' 16 5) ((encVsllV d a b m l).extractLsb' 11 5) ((encVsllV d a b m l).extractLsb' 8 3) ((encVsllV d a b m l).extractLsb' 7 1)) : Option Instr) = _
  simp (disch := decide) only [encVsllV, RoundTrip.low, RoundTrip.high, RoundTrip.whole, Nat.reduceSub] <;> rfl
theorem RoundTrip.vsllX (d : BitVec 5) (a : BitVec 5) (b : BitVec 5) (m : BitVec 3) : RoundTrip.Statement (.vsllX d a b m) := fun _ => by
  have hm : (encVsllX d a b m).extractLsb' 26 6 = 0x21#6 := by
    simp (disch := decide) only [encVsllX, RoundTrip.low, RoundTrip.high, RoundTrip.whole, Nat.reduceSub] <;> rfl
  change decodeByMajor ((encVsllX d a b m).extractLsb' 26 6) (encVsllX d a b m) = _
  rw [hm]
  have ho : (encVsllX d a b m).extractLsb' 0 7 = 0x11#7 := by
    simp (disch := decide) only [encVsllX, RoundTrip.low, RoundTrip.high, RoundTrip.whole, Nat.reduceSub] <;> rfl
  change decodeMajor21Op ((encVsllX d a b m).extractLsb' 0 7) (encVsllX d a b m) = _
  rw [ho]
  change ((if (encVsllX d a b m).extractLsb' 7 1 == 0x0#1 then some (.vsllX ((encVsllX d a b m).extractLsb' 21 5) ((encVsllX d a b m).extractLsb' 16 5) ((encVsllX d a b m).extractLsb' 11 5) ((encVsllX d a b m).extractLsb' 8 3)) else none) : Option Instr) = _
  simp (disch := decide) only [encVsllX, RoundTrip.low, RoundTrip.high, RoundTrip.whole, Nat.reduceSub] <;> rfl
theorem RoundTrip.vsllI (d : BitVec 5) (a : BitVec 5) (i : BitVec 5) (m : BitVec 3) : RoundTrip.Statement (.vsllI d a i m) := fun _ => by
  have hm : (encVsllI d a i m).extractLsb' 26 6 = 0x22#6 := by
    simp (disch := decide) only [encVsllI, RoundTrip.low, RoundTrip.high, RoundTrip.whole, Nat.reduceSub] <;> rfl
  change decodeByMajor ((encVsllI d a i m).extractLsb' 26 6) (encVsllI d a i m) = _
  rw [hm]
  have ho : (encVsllI d a i m).extractLsb' 0 7 = 0x11#7 := by
    simp (disch := decide) only [encVsllI, RoundTrip.low, RoundTrip.high, RoundTrip.whole, Nat.reduceSub] <;> rfl
  change decodeMajor22Op ((encVsllI d a i m).extractLsb' 0 7) (encVsllI d a i m) = _
  rw [ho]
  change ((if (encVsllI d a i m).extractLsb' 7 1 == 0x0#1 then some (.vsllI ((encVsllI d a i m).extractLsb' 21 5) ((encVsllI d a i m).extractLsb' 16 5) ((encVsllI d a i m).extractLsb' 11 5) ((encVsllI d a i m).extractLsb' 8 3)) else none) : Option Instr) = _
  simp (disch := decide) only [encVsllI, RoundTrip.low, RoundTrip.high, RoundTrip.whole, Nat.reduceSub] <;> rfl
theorem RoundTrip.vsrlV (d : BitVec 5) (a : BitVec 5) (b : BitVec 5) (m : BitVec 3) (l : BitVec 1) : RoundTrip.Statement (.vsrlV d a b m l) := fun _ => by
  have hm : (encVsrlV d a b m l).extractLsb' 26 6 = 0x20#6 := by
    simp (disch := decide) only [encVsrlV, RoundTrip.low, RoundTrip.high, RoundTrip.whole, Nat.reduceSub] <;> rfl
  change decodeByMajor ((encVsrlV d a b m l).extractLsb' 26 6) (encVsrlV d a b m l) = _
  rw [hm]
  have hl : ((encVsrlV d a b m l).extractLsb' 5 2 == 0x3#2) = false := by
    simp (disch := decide) only [encVsrlV, RoundTrip.low, RoundTrip.high, RoundTrip.whole, Nat.reduceSub] <;> rfl
  change (if (encVsrlV d a b m l).extractLsb' 5 2 == 0x3#2 then _ else decodeMajor20Op ((encVsrlV d a b m l).extractLsb' 0 7) (encVsrlV d a b m l)) = _
  rw [hl]
  have ho : (encVsrlV d a b m l).extractLsb' 0 7 = 0x12#7 := by
    simp (disch := decide) only [encVsrlV, RoundTrip.low, RoundTrip.high, RoundTrip.whole, Nat.reduceSub] <;> rfl
  change decodeMajor20Op ((encVsrlV d a b m l).extractLsb' 0 7) (encVsrlV d a b m l) = _
  rw [ho]
  change (some (.vsrlV ((encVsrlV d a b m l).extractLsb' 21 5) ((encVsrlV d a b m l).extractLsb' 16 5) ((encVsrlV d a b m l).extractLsb' 11 5) ((encVsrlV d a b m l).extractLsb' 8 3) ((encVsrlV d a b m l).extractLsb' 7 1)) : Option Instr) = _
  simp (disch := decide) only [encVsrlV, RoundTrip.low, RoundTrip.high, RoundTrip.whole, Nat.reduceSub] <;> rfl
theorem RoundTrip.vsrlX (d : BitVec 5) (a : BitVec 5) (b : BitVec 5) (m : BitVec 3) : RoundTrip.Statement (.vsrlX d a b m) := fun _ => by
  have hm : (encVsrlX d a b m).extractLsb' 26 6 = 0x21#6 := by
    simp (disch := decide) only [encVsrlX, RoundTrip.low, RoundTrip.high, RoundTrip.whole, Nat.reduceSub] <;> rfl
  change decodeByMajor ((encVsrlX d a b m).extractLsb' 26 6) (encVsrlX d a b m) = _
  rw [hm]
  have ho : (encVsrlX d a b m).extractLsb' 0 7 = 0x12#7 := by
    simp (disch := decide) only [encVsrlX, RoundTrip.low, RoundTrip.high, RoundTrip.whole, Nat.reduceSub] <;> rfl
  change decodeMajor21Op ((encVsrlX d a b m).extractLsb' 0 7) (encVsrlX d a b m) = _
  rw [ho]
  change ((if (encVsrlX d a b m).extractLsb' 7 1 == 0x0#1 then some (.vsrlX ((encVsrlX d a b m).extractLsb' 21 5) ((encVsrlX d a b m).extractLsb' 16 5) ((encVsrlX d a b m).extractLsb' 11 5) ((encVsrlX d a b m).extractLsb' 8 3)) else none) : Option Instr) = _
  simp (disch := decide) only [encVsrlX, RoundTrip.low, RoundTrip.high, RoundTrip.whole, Nat.reduceSub] <;> rfl
theorem RoundTrip.vsrlI (d : BitVec 5) (a : BitVec 5) (i : BitVec 5) (m : BitVec 3) : RoundTrip.Statement (.vsrlI d a i m) := fun _ => by
  have hm : (encVsrlI d a i m).extractLsb' 26 6 = 0x22#6 := by
    simp (disch := decide) only [encVsrlI, RoundTrip.low, RoundTrip.high, RoundTrip.whole, Nat.reduceSub] <;> rfl
  change decodeByMajor ((encVsrlI d a i m).extractLsb' 26 6) (encVsrlI d a i m) = _
  rw [hm]
  have ho : (encVsrlI d a i m).extractLsb' 0 7 = 0x12#7 := by
    simp (disch := decide) only [encVsrlI, RoundTrip.low, RoundTrip.high, RoundTrip.whole, Nat.reduceSub] <;> rfl
  change decodeMajor22Op ((encVsrlI d a i m).extractLsb' 0 7) (encVsrlI d a i m) = _
  rw [ho]
  change ((if (encVsrlI d a i m).extractLsb' 7 1 == 0x0#1 then some (.vsrlI ((encVsrlI d a i m).extractLsb' 21 5) ((encVsrlI d a i m).extractLsb' 16 5) ((encVsrlI d a i m).extractLsb' 11 5) ((encVsrlI d a i m).extractLsb' 8 3)) else none) : Option Instr) = _
  simp (disch := decide) only [encVsrlI, RoundTrip.low, RoundTrip.high, RoundTrip.whole, Nat.reduceSub] <;> rfl
theorem RoundTrip.vsraV (d : BitVec 5) (a : BitVec 5) (b : BitVec 5) (m : BitVec 3) (l : BitVec 1) : RoundTrip.Statement (.vsraV d a b m l) := fun _ => by
  have hm : (encVsraV d a b m l).extractLsb' 26 6 = 0x20#6 := by
    simp (disch := decide) only [encVsraV, RoundTrip.low, RoundTrip.high, RoundTrip.whole, Nat.reduceSub] <;> rfl
  change decodeByMajor ((encVsraV d a b m l).extractLsb' 26 6) (encVsraV d a b m l) = _
  rw [hm]
  have hl : ((encVsraV d a b m l).extractLsb' 5 2 == 0x3#2) = false := by
    simp (disch := decide) only [encVsraV, RoundTrip.low, RoundTrip.high, RoundTrip.whole, Nat.reduceSub] <;> rfl
  change (if (encVsraV d a b m l).extractLsb' 5 2 == 0x3#2 then _ else decodeMajor20Op ((encVsraV d a b m l).extractLsb' 0 7) (encVsraV d a b m l)) = _
  rw [hl]
  have ho : (encVsraV d a b m l).extractLsb' 0 7 = 0x13#7 := by
    simp (disch := decide) only [encVsraV, RoundTrip.low, RoundTrip.high, RoundTrip.whole, Nat.reduceSub] <;> rfl
  change decodeMajor20Op ((encVsraV d a b m l).extractLsb' 0 7) (encVsraV d a b m l) = _
  rw [ho]
  change (some (.vsraV ((encVsraV d a b m l).extractLsb' 21 5) ((encVsraV d a b m l).extractLsb' 16 5) ((encVsraV d a b m l).extractLsb' 11 5) ((encVsraV d a b m l).extractLsb' 8 3) ((encVsraV d a b m l).extractLsb' 7 1)) : Option Instr) = _
  simp (disch := decide) only [encVsraV, RoundTrip.low, RoundTrip.high, RoundTrip.whole, Nat.reduceSub] <;> rfl
theorem RoundTrip.vsraX (d : BitVec 5) (a : BitVec 5) (b : BitVec 5) (m : BitVec 3) : RoundTrip.Statement (.vsraX d a b m) := fun _ => by
  have hm : (encVsraX d a b m).extractLsb' 26 6 = 0x21#6 := by
    simp (disch := decide) only [encVsraX, RoundTrip.low, RoundTrip.high, RoundTrip.whole, Nat.reduceSub] <;> rfl
  change decodeByMajor ((encVsraX d a b m).extractLsb' 26 6) (encVsraX d a b m) = _
  rw [hm]
  have ho : (encVsraX d a b m).extractLsb' 0 7 = 0x13#7 := by
    simp (disch := decide) only [encVsraX, RoundTrip.low, RoundTrip.high, RoundTrip.whole, Nat.reduceSub] <;> rfl
  change decodeMajor21Op ((encVsraX d a b m).extractLsb' 0 7) (encVsraX d a b m) = _
  rw [ho]
  change ((if (encVsraX d a b m).extractLsb' 7 1 == 0x0#1 then some (.vsraX ((encVsraX d a b m).extractLsb' 21 5) ((encVsraX d a b m).extractLsb' 16 5) ((encVsraX d a b m).extractLsb' 11 5) ((encVsraX d a b m).extractLsb' 8 3)) else none) : Option Instr) = _
  simp (disch := decide) only [encVsraX, RoundTrip.low, RoundTrip.high, RoundTrip.whole, Nat.reduceSub] <;> rfl
theorem RoundTrip.vsraI (d : BitVec 5) (a : BitVec 5) (i : BitVec 5) (m : BitVec 3) : RoundTrip.Statement (.vsraI d a i m) := fun _ => by
  have hm : (encVsraI d a i m).extractLsb' 26 6 = 0x22#6 := by
    simp (disch := decide) only [encVsraI, RoundTrip.low, RoundTrip.high, RoundTrip.whole, Nat.reduceSub] <;> rfl
  change decodeByMajor ((encVsraI d a i m).extractLsb' 26 6) (encVsraI d a i m) = _
  rw [hm]
  have ho : (encVsraI d a i m).extractLsb' 0 7 = 0x13#7 := by
    simp (disch := decide) only [encVsraI, RoundTrip.low, RoundTrip.high, RoundTrip.whole, Nat.reduceSub] <;> rfl
  change decodeMajor22Op ((encVsraI d a i m).extractLsb' 0 7) (encVsraI d a i m) = _
  rw [ho]
  change ((if (encVsraI d a i m).extractLsb' 7 1 == 0x0#1 then some (.vsraI ((encVsraI d a i m).extractLsb' 21 5) ((encVsraI d a i m).extractLsb' 16 5) ((encVsraI d a i m).extractLsb' 11 5) ((encVsraI d a i m).extractLsb' 8 3)) else none) : Option Instr) = _
  simp (disch := decide) only [encVsraI, RoundTrip.low, RoundTrip.high, RoundTrip.whole, Nat.reduceSub] <;> rfl
theorem RoundTrip.vsaddV (d : BitVec 5) (a : BitVec 5) (b : BitVec 5) (m : BitVec 3) (l : BitVec 1) : RoundTrip.Statement (.vsaddV d a b m l) := fun _ => by
  have hm : (encVsaddV d a b m l).extractLsb' 26 6 = 0x20#6 := by
    simp (disch := decide) only [encVsaddV, RoundTrip.low, RoundTrip.high, RoundTrip.whole, Nat.reduceSub] <;> rfl
  change decodeByMajor ((encVsaddV d a b m l).extractLsb' 26 6) (encVsaddV d a b m l) = _
  rw [hm]
  have hl : ((encVsaddV d a b m l).extractLsb' 5 2 == 0x3#2) = false := by
    simp (disch := decide) only [encVsaddV, RoundTrip.low, RoundTrip.high, RoundTrip.whole, Nat.reduceSub] <;> rfl
  change (if (encVsaddV d a b m l).extractLsb' 5 2 == 0x3#2 then _ else decodeMajor20Op ((encVsaddV d a b m l).extractLsb' 0 7) (encVsaddV d a b m l)) = _
  rw [hl]
  have ho : (encVsaddV d a b m l).extractLsb' 0 7 = 0x14#7 := by
    simp (disch := decide) only [encVsaddV, RoundTrip.low, RoundTrip.high, RoundTrip.whole, Nat.reduceSub] <;> rfl
  change decodeMajor20Op ((encVsaddV d a b m l).extractLsb' 0 7) (encVsaddV d a b m l) = _
  rw [ho]
  change (some (.vsaddV ((encVsaddV d a b m l).extractLsb' 21 5) ((encVsaddV d a b m l).extractLsb' 16 5) ((encVsaddV d a b m l).extractLsb' 11 5) ((encVsaddV d a b m l).extractLsb' 8 3) ((encVsaddV d a b m l).extractLsb' 7 1)) : Option Instr) = _
  simp (disch := decide) only [encVsaddV, RoundTrip.low, RoundTrip.high, RoundTrip.whole, Nat.reduceSub] <;> rfl
theorem RoundTrip.vsaddX (d : BitVec 5) (a : BitVec 5) (b : BitVec 5) (m : BitVec 3) : RoundTrip.Statement (.vsaddX d a b m) := fun _ => by
  have hm : (encVsaddX d a b m).extractLsb' 26 6 = 0x21#6 := by
    simp (disch := decide) only [encVsaddX, RoundTrip.low, RoundTrip.high, RoundTrip.whole, Nat.reduceSub] <;> rfl
  change decodeByMajor ((encVsaddX d a b m).extractLsb' 26 6) (encVsaddX d a b m) = _
  rw [hm]
  have ho : (encVsaddX d a b m).extractLsb' 0 7 = 0x14#7 := by
    simp (disch := decide) only [encVsaddX, RoundTrip.low, RoundTrip.high, RoundTrip.whole, Nat.reduceSub] <;> rfl
  change decodeMajor21Op ((encVsaddX d a b m).extractLsb' 0 7) (encVsaddX d a b m) = _
  rw [ho]
  change ((if (encVsaddX d a b m).extractLsb' 7 1 == 0x0#1 then some (.vsaddX ((encVsaddX d a b m).extractLsb' 21 5) ((encVsaddX d a b m).extractLsb' 16 5) ((encVsaddX d a b m).extractLsb' 11 5) ((encVsaddX d a b m).extractLsb' 8 3)) else none) : Option Instr) = _
  simp (disch := decide) only [encVsaddX, RoundTrip.low, RoundTrip.high, RoundTrip.whole, Nat.reduceSub] <;> rfl
theorem RoundTrip.vsaddI (d : BitVec 5) (a : BitVec 5) (i : BitVec 5) (m : BitVec 3) : RoundTrip.Statement (.vsaddI d a i m) := fun _ => by
  have hm : (encVsaddI d a i m).extractLsb' 26 6 = 0x22#6 := by
    simp (disch := decide) only [encVsaddI, RoundTrip.low, RoundTrip.high, RoundTrip.whole, Nat.reduceSub] <;> rfl
  change decodeByMajor ((encVsaddI d a i m).extractLsb' 26 6) (encVsaddI d a i m) = _
  rw [hm]
  have ho : (encVsaddI d a i m).extractLsb' 0 7 = 0x14#7 := by
    simp (disch := decide) only [encVsaddI, RoundTrip.low, RoundTrip.high, RoundTrip.whole, Nat.reduceSub] <;> rfl
  change decodeMajor22Op ((encVsaddI d a i m).extractLsb' 0 7) (encVsaddI d a i m) = _
  rw [ho]
  change ((if (encVsaddI d a i m).extractLsb' 7 1 == 0x0#1 then some (.vsaddI ((encVsaddI d a i m).extractLsb' 21 5) ((encVsaddI d a i m).extractLsb' 16 5) ((encVsaddI d a i m).extractLsb' 11 5) ((encVsaddI d a i m).extractLsb' 8 3)) else none) : Option Instr) = _
  simp (disch := decide) only [encVsaddI, RoundTrip.low, RoundTrip.high, RoundTrip.whole, Nat.reduceSub] <;> rfl
theorem RoundTrip.vssubV (d : BitVec 5) (a : BitVec 5) (b : BitVec 5) (m : BitVec 3) (l : BitVec 1) : RoundTrip.Statement (.vssubV d a b m l) := fun _ => by
  have hm : (encVssubV d a b m l).extractLsb' 26 6 = 0x20#6 := by
    simp (disch := decide) only [encVssubV, RoundTrip.low, RoundTrip.high, RoundTrip.whole, Nat.reduceSub] <;> rfl
  change decodeByMajor ((encVssubV d a b m l).extractLsb' 26 6) (encVssubV d a b m l) = _
  rw [hm]
  have hl : ((encVssubV d a b m l).extractLsb' 5 2 == 0x3#2) = false := by
    simp (disch := decide) only [encVssubV, RoundTrip.low, RoundTrip.high, RoundTrip.whole, Nat.reduceSub] <;> rfl
  change (if (encVssubV d a b m l).extractLsb' 5 2 == 0x3#2 then _ else decodeMajor20Op ((encVssubV d a b m l).extractLsb' 0 7) (encVssubV d a b m l)) = _
  rw [hl]
  have ho : (encVssubV d a b m l).extractLsb' 0 7 = 0x15#7 := by
    simp (disch := decide) only [encVssubV, RoundTrip.low, RoundTrip.high, RoundTrip.whole, Nat.reduceSub] <;> rfl
  change decodeMajor20Op ((encVssubV d a b m l).extractLsb' 0 7) (encVssubV d a b m l) = _
  rw [ho]
  change (some (.vssubV ((encVssubV d a b m l).extractLsb' 21 5) ((encVssubV d a b m l).extractLsb' 16 5) ((encVssubV d a b m l).extractLsb' 11 5) ((encVssubV d a b m l).extractLsb' 8 3) ((encVssubV d a b m l).extractLsb' 7 1)) : Option Instr) = _
  simp (disch := decide) only [encVssubV, RoundTrip.low, RoundTrip.high, RoundTrip.whole, Nat.reduceSub] <;> rfl
theorem RoundTrip.vssubX (d : BitVec 5) (a : BitVec 5) (b : BitVec 5) (m : BitVec 3) : RoundTrip.Statement (.vssubX d a b m) := fun _ => by
  have hm : (encVssubX d a b m).extractLsb' 26 6 = 0x21#6 := by
    simp (disch := decide) only [encVssubX, RoundTrip.low, RoundTrip.high, RoundTrip.whole, Nat.reduceSub] <;> rfl
  change decodeByMajor ((encVssubX d a b m).extractLsb' 26 6) (encVssubX d a b m) = _
  rw [hm]
  have ho : (encVssubX d a b m).extractLsb' 0 7 = 0x15#7 := by
    simp (disch := decide) only [encVssubX, RoundTrip.low, RoundTrip.high, RoundTrip.whole, Nat.reduceSub] <;> rfl
  change decodeMajor21Op ((encVssubX d a b m).extractLsb' 0 7) (encVssubX d a b m) = _
  rw [ho]
  change ((if (encVssubX d a b m).extractLsb' 7 1 == 0x0#1 then some (.vssubX ((encVssubX d a b m).extractLsb' 21 5) ((encVssubX d a b m).extractLsb' 16 5) ((encVssubX d a b m).extractLsb' 11 5) ((encVssubX d a b m).extractLsb' 8 3)) else none) : Option Instr) = _
  simp (disch := decide) only [encVssubX, RoundTrip.low, RoundTrip.high, RoundTrip.whole, Nat.reduceSub] <;> rfl
theorem RoundTrip.vssubI (d : BitVec 5) (a : BitVec 5) (i : BitVec 5) (m : BitVec 3) : RoundTrip.Statement (.vssubI d a i m) := fun _ => by
  have hm : (encVssubI d a i m).extractLsb' 26 6 = 0x22#6 := by
    simp (disch := decide) only [encVssubI, RoundTrip.low, RoundTrip.high, RoundTrip.whole, Nat.reduceSub] <;> rfl
  change decodeByMajor ((encVssubI d a i m).extractLsb' 26 6) (encVssubI d a i m) = _
  rw [hm]
  have ho : (encVssubI d a i m).extractLsb' 0 7 = 0x15#7 := by
    simp (disch := decide) only [encVssubI, RoundTrip.low, RoundTrip.high, RoundTrip.whole, Nat.reduceSub] <;> rfl
  change decodeMajor22Op ((encVssubI d a i m).extractLsb' 0 7) (encVssubI d a i m) = _
  rw [ho]
  change ((if (encVssubI d a i m).extractLsb' 7 1 == 0x0#1 then some (.vssubI ((encVssubI d a i m).extractLsb' 21 5) ((encVssubI d a i m).extractLsb' 16 5) ((encVssubI d a i m).extractLsb' 11 5) ((encVssubI d a i m).extractLsb' 8 3)) else none) : Option Instr) = _
  simp (disch := decide) only [encVssubI, RoundTrip.low, RoundTrip.high, RoundTrip.whole, Nat.reduceSub] <;> rfl
theorem RoundTrip.vwmulV (d : BitVec 5) (a : BitVec 5) (b : BitVec 5) (m : BitVec 3) (l : BitVec 1) : RoundTrip.Statement (.vwmulV d a b m l) := fun _ => by
  have hm : (encVwmulV d a b m l).extractLsb' 26 6 = 0x20#6 := by
    simp (disch := decide) only [encVwmulV, RoundTrip.low, RoundTrip.high, RoundTrip.whole, Nat.reduceSub] <;> rfl
  change decodeByMajor ((encVwmulV d a b m l).extractLsb' 26 6) (encVwmulV d a b m l) = _
  rw [hm]
  have hl : ((encVwmulV d a b m l).extractLsb' 5 2 == 0x3#2) = false := by
    simp (disch := decide) only [encVwmulV, RoundTrip.low, RoundTrip.high, RoundTrip.whole, Nat.reduceSub] <;> rfl
  change (if (encVwmulV d a b m l).extractLsb' 5 2 == 0x3#2 then _ else decodeMajor20Op ((encVwmulV d a b m l).extractLsb' 0 7) (encVwmulV d a b m l)) = _
  rw [hl]
  have ho : (encVwmulV d a b m l).extractLsb' 0 7 = 0x16#7 := by
    simp (disch := decide) only [encVwmulV, RoundTrip.low, RoundTrip.high, RoundTrip.whole, Nat.reduceSub] <;> rfl
  change decodeMajor20Op ((encVwmulV d a b m l).extractLsb' 0 7) (encVwmulV d a b m l) = _
  rw [ho]
  change (some (.vwmulV ((encVwmulV d a b m l).extractLsb' 21 5) ((encVwmulV d a b m l).extractLsb' 16 5) ((encVwmulV d a b m l).extractLsb' 11 5) ((encVwmulV d a b m l).extractLsb' 8 3) ((encVwmulV d a b m l).extractLsb' 7 1)) : Option Instr) = _
  simp (disch := decide) only [encVwmulV, RoundTrip.low, RoundTrip.high, RoundTrip.whole, Nat.reduceSub] <;> rfl
theorem RoundTrip.vwmulX (d : BitVec 5) (a : BitVec 5) (b : BitVec 5) (m : BitVec 3) : RoundTrip.Statement (.vwmulX d a b m) := fun _ => by
  have hm : (encVwmulX d a b m).extractLsb' 26 6 = 0x21#6 := by
    simp (disch := decide) only [encVwmulX, RoundTrip.low, RoundTrip.high, RoundTrip.whole, Nat.reduceSub] <;> rfl
  change decodeByMajor ((encVwmulX d a b m).extractLsb' 26 6) (encVwmulX d a b m) = _
  rw [hm]
  have ho : (encVwmulX d a b m).extractLsb' 0 7 = 0x16#7 := by
    simp (disch := decide) only [encVwmulX, RoundTrip.low, RoundTrip.high, RoundTrip.whole, Nat.reduceSub] <;> rfl
  change decodeMajor21Op ((encVwmulX d a b m).extractLsb' 0 7) (encVwmulX d a b m) = _
  rw [ho]
  change ((if (encVwmulX d a b m).extractLsb' 7 1 == 0x0#1 then some (.vwmulX ((encVwmulX d a b m).extractLsb' 21 5) ((encVwmulX d a b m).extractLsb' 16 5) ((encVwmulX d a b m).extractLsb' 11 5) ((encVwmulX d a b m).extractLsb' 8 3)) else none) : Option Instr) = _
  simp (disch := decide) only [encVwmulX, RoundTrip.low, RoundTrip.high, RoundTrip.whole, Nat.reduceSub] <;> rfl
theorem RoundTrip.vwmaccV (d : BitVec 5) (a : BitVec 5) (b : BitVec 5) (m : BitVec 3) (l : BitVec 1) : RoundTrip.Statement (.vwmaccV d a b m l) := fun _ => by
  have hm : (encVwmaccV d a b m l).extractLsb' 26 6 = 0x20#6 := by
    simp (disch := decide) only [encVwmaccV, RoundTrip.low, RoundTrip.high, RoundTrip.whole, Nat.reduceSub] <;> rfl
  change decodeByMajor ((encVwmaccV d a b m l).extractLsb' 26 6) (encVwmaccV d a b m l) = _
  rw [hm]
  have hl : ((encVwmaccV d a b m l).extractLsb' 5 2 == 0x3#2) = false := by
    simp (disch := decide) only [encVwmaccV, RoundTrip.low, RoundTrip.high, RoundTrip.whole, Nat.reduceSub] <;> rfl
  change (if (encVwmaccV d a b m l).extractLsb' 5 2 == 0x3#2 then _ else decodeMajor20Op ((encVwmaccV d a b m l).extractLsb' 0 7) (encVwmaccV d a b m l)) = _
  rw [hl]
  have ho : (encVwmaccV d a b m l).extractLsb' 0 7 = 0x17#7 := by
    simp (disch := decide) only [encVwmaccV, RoundTrip.low, RoundTrip.high, RoundTrip.whole, Nat.reduceSub] <;> rfl
  change decodeMajor20Op ((encVwmaccV d a b m l).extractLsb' 0 7) (encVwmaccV d a b m l) = _
  rw [ho]
  change (some (.vwmaccV ((encVwmaccV d a b m l).extractLsb' 21 5) ((encVwmaccV d a b m l).extractLsb' 16 5) ((encVwmaccV d a b m l).extractLsb' 11 5) ((encVwmaccV d a b m l).extractLsb' 8 3) ((encVwmaccV d a b m l).extractLsb' 7 1)) : Option Instr) = _
  simp (disch := decide) only [encVwmaccV, RoundTrip.low, RoundTrip.high, RoundTrip.whole, Nat.reduceSub] <;> rfl
theorem RoundTrip.vwmaccX (d : BitVec 5) (a : BitVec 5) (b : BitVec 5) (m : BitVec 3) : RoundTrip.Statement (.vwmaccX d a b m) := fun _ => by
  have hm : (encVwmaccX d a b m).extractLsb' 26 6 = 0x21#6 := by
    simp (disch := decide) only [encVwmaccX, RoundTrip.low, RoundTrip.high, RoundTrip.whole, Nat.reduceSub] <;> rfl
  change decodeByMajor ((encVwmaccX d a b m).extractLsb' 26 6) (encVwmaccX d a b m) = _
  rw [hm]
  have ho : (encVwmaccX d a b m).extractLsb' 0 7 = 0x17#7 := by
    simp (disch := decide) only [encVwmaccX, RoundTrip.low, RoundTrip.high, RoundTrip.whole, Nat.reduceSub] <;> rfl
  change decodeMajor21Op ((encVwmaccX d a b m).extractLsb' 0 7) (encVwmaccX d a b m) = _
  rw [ho]
  change ((if (encVwmaccX d a b m).extractLsb' 7 1 == 0x0#1 then some (.vwmaccX ((encVwmaccX d a b m).extractLsb' 21 5) ((encVwmaccX d a b m).extractLsb' 16 5) ((encVwmaccX d a b m).extractLsb' 11 5) ((encVwmaccX d a b m).extractLsb' 8 3)) else none) : Option Instr) = _
  simp (disch := decide) only [encVwmaccX, RoundTrip.low, RoundTrip.high, RoundTrip.whole, Nat.reduceSub] <;> rfl
theorem RoundTrip.vwmaccuV (d : BitVec 5) (a : BitVec 5) (b : BitVec 5) (m : BitVec 3) (l : BitVec 1) : RoundTrip.Statement (.vwmaccuV d a b m l) := fun _ => by
  have hm : (encVwmaccuV d a b m l).extractLsb' 26 6 = 0x20#6 := by
    simp (disch := decide) only [encVwmaccuV, RoundTrip.low, RoundTrip.high, RoundTrip.whole, Nat.reduceSub] <;> rfl
  change decodeByMajor ((encVwmaccuV d a b m l).extractLsb' 26 6) (encVwmaccuV d a b m l) = _
  rw [hm]
  have hl : ((encVwmaccuV d a b m l).extractLsb' 5 2 == 0x3#2) = false := by
    simp (disch := decide) only [encVwmaccuV, RoundTrip.low, RoundTrip.high, RoundTrip.whole, Nat.reduceSub] <;> rfl
  change (if (encVwmaccuV d a b m l).extractLsb' 5 2 == 0x3#2 then _ else decodeMajor20Op ((encVwmaccuV d a b m l).extractLsb' 0 7) (encVwmaccuV d a b m l)) = _
  rw [hl]
  have ho : (encVwmaccuV d a b m l).extractLsb' 0 7 = 0x18#7 := by
    simp (disch := decide) only [encVwmaccuV, RoundTrip.low, RoundTrip.high, RoundTrip.whole, Nat.reduceSub] <;> rfl
  change decodeMajor20Op ((encVwmaccuV d a b m l).extractLsb' 0 7) (encVwmaccuV d a b m l) = _
  rw [ho]
  change (some (.vwmaccuV ((encVwmaccuV d a b m l).extractLsb' 21 5) ((encVwmaccuV d a b m l).extractLsb' 16 5) ((encVwmaccuV d a b m l).extractLsb' 11 5) ((encVwmaccuV d a b m l).extractLsb' 8 3) ((encVwmaccuV d a b m l).extractLsb' 7 1)) : Option Instr) = _
  simp (disch := decide) only [encVwmaccuV, RoundTrip.low, RoundTrip.high, RoundTrip.whole, Nat.reduceSub] <;> rfl
theorem RoundTrip.vwmaccuX (d : BitVec 5) (a : BitVec 5) (b : BitVec 5) (m : BitVec 3) : RoundTrip.Statement (.vwmaccuX d a b m) := fun _ => by
  have hm : (encVwmaccuX d a b m).extractLsb' 26 6 = 0x21#6 := by
    simp (disch := decide) only [encVwmaccuX, RoundTrip.low, RoundTrip.high, RoundTrip.whole, Nat.reduceSub] <;> rfl
  change decodeByMajor ((encVwmaccuX d a b m).extractLsb' 26 6) (encVwmaccuX d a b m) = _
  rw [hm]
  have ho : (encVwmaccuX d a b m).extractLsb' 0 7 = 0x18#7 := by
    simp (disch := decide) only [encVwmaccuX, RoundTrip.low, RoundTrip.high, RoundTrip.whole, Nat.reduceSub] <;> rfl
  change decodeMajor21Op ((encVwmaccuX d a b m).extractLsb' 0 7) (encVwmaccuX d a b m) = _
  rw [ho]
  change ((if (encVwmaccuX d a b m).extractLsb' 7 1 == 0x0#1 then some (.vwmaccuX ((encVwmaccuX d a b m).extractLsb' 21 5) ((encVwmaccuX d a b m).extractLsb' 16 5) ((encVwmaccuX d a b m).extractLsb' 11 5) ((encVwmaccuX d a b m).extractLsb' 8 3)) else none) : Option Instr) = _
  simp (disch := decide) only [encVwmaccuX, RoundTrip.low, RoundTrip.high, RoundTrip.whole, Nat.reduceSub] <;> rfl
theorem RoundTrip.vwmaccsuV (d : BitVec 5) (a : BitVec 5) (b : BitVec 5) (m : BitVec 3) (l : BitVec 1) : RoundTrip.Statement (.vwmaccsuV d a b m l) := fun _ => by
  have hm : (encVwmaccsuV d a b m l).extractLsb' 26 6 = 0x20#6 := by
    simp (disch := decide) only [encVwmaccsuV, RoundTrip.low, RoundTrip.high, RoundTrip.whole, Nat.reduceSub] <;> rfl
  change decodeByMajor ((encVwmaccsuV d a b m l).extractLsb' 26 6) (encVwmaccsuV d a b m l) = _
  rw [hm]
  have hl : ((encVwmaccsuV d a b m l).extractLsb' 5 2 == 0x3#2) = false := by
    simp (disch := decide) only [encVwmaccsuV, RoundTrip.low, RoundTrip.high, RoundTrip.whole, Nat.reduceSub] <;> rfl
  change (if (encVwmaccsuV d a b m l).extractLsb' 5 2 == 0x3#2 then _ else decodeMajor20Op ((encVwmaccsuV d a b m l).extractLsb' 0 7) (encVwmaccsuV d a b m l)) = _
  rw [hl]
  have ho : (encVwmaccsuV d a b m l).extractLsb' 0 7 = 0x19#7 := by
    simp (disch := decide) only [encVwmaccsuV, RoundTrip.low, RoundTrip.high, RoundTrip.whole, Nat.reduceSub] <;> rfl
  change decodeMajor20Op ((encVwmaccsuV d a b m l).extractLsb' 0 7) (encVwmaccsuV d a b m l) = _
  rw [ho]
  change (some (.vwmaccsuV ((encVwmaccsuV d a b m l).extractLsb' 21 5) ((encVwmaccsuV d a b m l).extractLsb' 16 5) ((encVwmaccsuV d a b m l).extractLsb' 11 5) ((encVwmaccsuV d a b m l).extractLsb' 8 3) ((encVwmaccsuV d a b m l).extractLsb' 7 1)) : Option Instr) = _
  simp (disch := decide) only [encVwmaccsuV, RoundTrip.low, RoundTrip.high, RoundTrip.whole, Nat.reduceSub] <;> rfl
theorem RoundTrip.vwmaccsuX (d : BitVec 5) (a : BitVec 5) (b : BitVec 5) (m : BitVec 3) : RoundTrip.Statement (.vwmaccsuX d a b m) := fun _ => by
  have hm : (encVwmaccsuX d a b m).extractLsb' 26 6 = 0x21#6 := by
    simp (disch := decide) only [encVwmaccsuX, RoundTrip.low, RoundTrip.high, RoundTrip.whole, Nat.reduceSub] <;> rfl
  change decodeByMajor ((encVwmaccsuX d a b m).extractLsb' 26 6) (encVwmaccsuX d a b m) = _
  rw [hm]
  have ho : (encVwmaccsuX d a b m).extractLsb' 0 7 = 0x19#7 := by
    simp (disch := decide) only [encVwmaccsuX, RoundTrip.low, RoundTrip.high, RoundTrip.whole, Nat.reduceSub] <;> rfl
  change decodeMajor21Op ((encVwmaccsuX d a b m).extractLsb' 0 7) (encVwmaccsuX d a b m) = _
  rw [ho]
  change ((if (encVwmaccsuX d a b m).extractLsb' 7 1 == 0x0#1 then some (.vwmaccsuX ((encVwmaccsuX d a b m).extractLsb' 21 5) ((encVwmaccsuX d a b m).extractLsb' 16 5) ((encVwmaccsuX d a b m).extractLsb' 11 5) ((encVwmaccsuX d a b m).extractLsb' 8 3)) else none) : Option Instr) = _
  simp (disch := decide) only [encVwmaccsuX, RoundTrip.low, RoundTrip.high, RoundTrip.whole, Nat.reduceSub] <;> rfl
theorem RoundTrip.vnclipV (d : BitVec 5) (a : BitVec 5) (b : BitVec 5) (m : BitVec 3) (l : BitVec 1) : RoundTrip.Statement (.vnclipV d a b m l) := fun _ => by
  have hm : (encVnclipV d a b m l).extractLsb' 26 6 = 0x20#6 := by
    simp (disch := decide) only [encVnclipV, RoundTrip.low, RoundTrip.high, RoundTrip.whole, Nat.reduceSub] <;> rfl
  change decodeByMajor ((encVnclipV d a b m l).extractLsb' 26 6) (encVnclipV d a b m l) = _
  rw [hm]
  have hl : ((encVnclipV d a b m l).extractLsb' 5 2 == 0x3#2) = false := by
    simp (disch := decide) only [encVnclipV, RoundTrip.low, RoundTrip.high, RoundTrip.whole, Nat.reduceSub] <;> rfl
  change (if (encVnclipV d a b m l).extractLsb' 5 2 == 0x3#2 then _ else decodeMajor20Op ((encVnclipV d a b m l).extractLsb' 0 7) (encVnclipV d a b m l)) = _
  rw [hl]
  have ho : (encVnclipV d a b m l).extractLsb' 0 7 = 0x1a#7 := by
    simp (disch := decide) only [encVnclipV, RoundTrip.low, RoundTrip.high, RoundTrip.whole, Nat.reduceSub] <;> rfl
  change decodeMajor20Op ((encVnclipV d a b m l).extractLsb' 0 7) (encVnclipV d a b m l) = _
  rw [ho]
  change (some (.vnclipV ((encVnclipV d a b m l).extractLsb' 21 5) ((encVnclipV d a b m l).extractLsb' 16 5) ((encVnclipV d a b m l).extractLsb' 11 5) ((encVnclipV d a b m l).extractLsb' 8 3) ((encVnclipV d a b m l).extractLsb' 7 1)) : Option Instr) = _
  simp (disch := decide) only [encVnclipV, RoundTrip.low, RoundTrip.high, RoundTrip.whole, Nat.reduceSub] <;> rfl
theorem RoundTrip.vnclipX (d : BitVec 5) (a : BitVec 5) (b : BitVec 5) (m : BitVec 3) : RoundTrip.Statement (.vnclipX d a b m) := fun _ => by
  have hm : (encVnclipX d a b m).extractLsb' 26 6 = 0x21#6 := by
    simp (disch := decide) only [encVnclipX, RoundTrip.low, RoundTrip.high, RoundTrip.whole, Nat.reduceSub] <;> rfl
  change decodeByMajor ((encVnclipX d a b m).extractLsb' 26 6) (encVnclipX d a b m) = _
  rw [hm]
  have ho : (encVnclipX d a b m).extractLsb' 0 7 = 0x1a#7 := by
    simp (disch := decide) only [encVnclipX, RoundTrip.low, RoundTrip.high, RoundTrip.whole, Nat.reduceSub] <;> rfl
  change decodeMajor21Op ((encVnclipX d a b m).extractLsb' 0 7) (encVnclipX d a b m) = _
  rw [ho]
  change ((if (encVnclipX d a b m).extractLsb' 7 1 == 0x0#1 then some (.vnclipX ((encVnclipX d a b m).extractLsb' 21 5) ((encVnclipX d a b m).extractLsb' 16 5) ((encVnclipX d a b m).extractLsb' 11 5) ((encVnclipX d a b m).extractLsb' 8 3)) else none) : Option Instr) = _
  simp (disch := decide) only [encVnclipX, RoundTrip.low, RoundTrip.high, RoundTrip.whole, Nat.reduceSub] <;> rfl
theorem RoundTrip.vnclipI (d : BitVec 5) (a : BitVec 5) (i : BitVec 5) (m : BitVec 3) : RoundTrip.Statement (.vnclipI d a i m) := fun _ => by
  have hm : (encVnclipI d a i m).extractLsb' 26 6 = 0x22#6 := by
    simp (disch := decide) only [encVnclipI, RoundTrip.low, RoundTrip.high, RoundTrip.whole, Nat.reduceSub] <;> rfl
  change decodeByMajor ((encVnclipI d a i m).extractLsb' 26 6) (encVnclipI d a i m) = _
  rw [hm]
  have ho : (encVnclipI d a i m).extractLsb' 0 7 = 0x1a#7 := by
    simp (disch := decide) only [encVnclipI, RoundTrip.low, RoundTrip.high, RoundTrip.whole, Nat.reduceSub] <;> rfl
  change decodeMajor22Op ((encVnclipI d a i m).extractLsb' 0 7) (encVnclipI d a i m) = _
  rw [ho]
  change ((if (encVnclipI d a i m).extractLsb' 7 1 == 0x0#1 then some (.vnclipI ((encVnclipI d a i m).extractLsb' 21 5) ((encVnclipI d a i m).extractLsb' 16 5) ((encVnclipI d a i m).extractLsb' 11 5) ((encVnclipI d a i m).extractLsb' 8 3)) else none) : Option Instr) = _
  simp (disch := decide) only [encVnclipI, RoundTrip.low, RoundTrip.high, RoundTrip.whole, Nat.reduceSub] <;> rfl
theorem RoundTrip.vfshlV (d : BitVec 5) (a : BitVec 5) (b : BitVec 5) (m : BitVec 3) (l : BitVec 1) : RoundTrip.Statement (.vfshlV d a b m l) := fun _ => by
  have hm : (encVfshlV d a b m l).extractLsb' 26 6 = 0x20#6 := by
    simp (disch := decide) only [encVfshlV, RoundTrip.low, RoundTrip.high, RoundTrip.whole, Nat.reduceSub] <;> rfl
  change decodeByMajor ((encVfshlV d a b m l).extractLsb' 26 6) (encVfshlV d a b m l) = _
  rw [hm]
  have hl : ((encVfshlV d a b m l).extractLsb' 5 2 == 0x3#2) = false := by
    simp (disch := decide) only [encVfshlV, RoundTrip.low, RoundTrip.high, RoundTrip.whole, Nat.reduceSub] <;> rfl
  change (if (encVfshlV d a b m l).extractLsb' 5 2 == 0x3#2 then _ else decodeMajor20Op ((encVfshlV d a b m l).extractLsb' 0 7) (encVfshlV d a b m l)) = _
  rw [hl]
  have ho : (encVfshlV d a b m l).extractLsb' 0 7 = 0x1b#7 := by
    simp (disch := decide) only [encVfshlV, RoundTrip.low, RoundTrip.high, RoundTrip.whole, Nat.reduceSub] <;> rfl
  change decodeMajor20Op ((encVfshlV d a b m l).extractLsb' 0 7) (encVfshlV d a b m l) = _
  rw [ho]
  change (some (.vfshlV ((encVfshlV d a b m l).extractLsb' 21 5) ((encVfshlV d a b m l).extractLsb' 16 5) ((encVfshlV d a b m l).extractLsb' 11 5) ((encVfshlV d a b m l).extractLsb' 8 3) ((encVfshlV d a b m l).extractLsb' 7 1)) : Option Instr) = _
  simp (disch := decide) only [encVfshlV, RoundTrip.low, RoundTrip.high, RoundTrip.whole, Nat.reduceSub] <;> rfl
theorem RoundTrip.vfshlX (d : BitVec 5) (a : BitVec 5) (b : BitVec 5) (m : BitVec 3) : RoundTrip.Statement (.vfshlX d a b m) := fun _ => by
  have hm : (encVfshlX d a b m).extractLsb' 26 6 = 0x21#6 := by
    simp (disch := decide) only [encVfshlX, RoundTrip.low, RoundTrip.high, RoundTrip.whole, Nat.reduceSub] <;> rfl
  change decodeByMajor ((encVfshlX d a b m).extractLsb' 26 6) (encVfshlX d a b m) = _
  rw [hm]
  have ho : (encVfshlX d a b m).extractLsb' 0 7 = 0x1b#7 := by
    simp (disch := decide) only [encVfshlX, RoundTrip.low, RoundTrip.high, RoundTrip.whole, Nat.reduceSub] <;> rfl
  change decodeMajor21Op ((encVfshlX d a b m).extractLsb' 0 7) (encVfshlX d a b m) = _
  rw [ho]
  change ((if (encVfshlX d a b m).extractLsb' 7 1 == 0x0#1 then some (.vfshlX ((encVfshlX d a b m).extractLsb' 21 5) ((encVfshlX d a b m).extractLsb' 16 5) ((encVfshlX d a b m).extractLsb' 11 5) ((encVfshlX d a b m).extractLsb' 8 3)) else none) : Option Instr) = _
  simp (disch := decide) only [encVfshlX, RoundTrip.low, RoundTrip.high, RoundTrip.whole, Nat.reduceSub] <;> rfl
theorem RoundTrip.vfshlI (d : BitVec 5) (a : BitVec 5) (i : BitVec 5) (m : BitVec 3) : RoundTrip.Statement (.vfshlI d a i m) := fun _ => by
  have hm : (encVfshlI d a i m).extractLsb' 26 6 = 0x22#6 := by
    simp (disch := decide) only [encVfshlI, RoundTrip.low, RoundTrip.high, RoundTrip.whole, Nat.reduceSub] <;> rfl
  change decodeByMajor ((encVfshlI d a i m).extractLsb' 26 6) (encVfshlI d a i m) = _
  rw [hm]
  have ho : (encVfshlI d a i m).extractLsb' 0 7 = 0x1b#7 := by
    simp (disch := decide) only [encVfshlI, RoundTrip.low, RoundTrip.high, RoundTrip.whole, Nat.reduceSub] <;> rfl
  change decodeMajor22Op ((encVfshlI d a i m).extractLsb' 0 7) (encVfshlI d a i m) = _
  rw [ho]
  change ((if (encVfshlI d a i m).extractLsb' 7 1 == 0x0#1 then some (.vfshlI ((encVfshlI d a i m).extractLsb' 21 5) ((encVfshlI d a i m).extractLsb' 16 5) ((encVfshlI d a i m).extractLsb' 11 5) ((encVfshlI d a i m).extractLsb' 8 3)) else none) : Option Instr) = _
  simp (disch := decide) only [encVfshlI, RoundTrip.low, RoundTrip.high, RoundTrip.whole, Nat.reduceSub] <;> rfl
theorem RoundTrip.vfshrV (d : BitVec 5) (a : BitVec 5) (b : BitVec 5) (m : BitVec 3) (l : BitVec 1) : RoundTrip.Statement (.vfshrV d a b m l) := fun _ => by
  have hm : (encVfshrV d a b m l).extractLsb' 26 6 = 0x20#6 := by
    simp (disch := decide) only [encVfshrV, RoundTrip.low, RoundTrip.high, RoundTrip.whole, Nat.reduceSub] <;> rfl
  change decodeByMajor ((encVfshrV d a b m l).extractLsb' 26 6) (encVfshrV d a b m l) = _
  rw [hm]
  have hl : ((encVfshrV d a b m l).extractLsb' 5 2 == 0x3#2) = false := by
    simp (disch := decide) only [encVfshrV, RoundTrip.low, RoundTrip.high, RoundTrip.whole, Nat.reduceSub] <;> rfl
  change (if (encVfshrV d a b m l).extractLsb' 5 2 == 0x3#2 then _ else decodeMajor20Op ((encVfshrV d a b m l).extractLsb' 0 7) (encVfshrV d a b m l)) = _
  rw [hl]
  have ho : (encVfshrV d a b m l).extractLsb' 0 7 = 0x1c#7 := by
    simp (disch := decide) only [encVfshrV, RoundTrip.low, RoundTrip.high, RoundTrip.whole, Nat.reduceSub] <;> rfl
  change decodeMajor20Op ((encVfshrV d a b m l).extractLsb' 0 7) (encVfshrV d a b m l) = _
  rw [ho]
  change (some (.vfshrV ((encVfshrV d a b m l).extractLsb' 21 5) ((encVfshrV d a b m l).extractLsb' 16 5) ((encVfshrV d a b m l).extractLsb' 11 5) ((encVfshrV d a b m l).extractLsb' 8 3) ((encVfshrV d a b m l).extractLsb' 7 1)) : Option Instr) = _
  simp (disch := decide) only [encVfshrV, RoundTrip.low, RoundTrip.high, RoundTrip.whole, Nat.reduceSub] <;> rfl
theorem RoundTrip.vfshrX (d : BitVec 5) (a : BitVec 5) (b : BitVec 5) (m : BitVec 3) : RoundTrip.Statement (.vfshrX d a b m) := fun _ => by
  have hm : (encVfshrX d a b m).extractLsb' 26 6 = 0x21#6 := by
    simp (disch := decide) only [encVfshrX, RoundTrip.low, RoundTrip.high, RoundTrip.whole, Nat.reduceSub] <;> rfl
  change decodeByMajor ((encVfshrX d a b m).extractLsb' 26 6) (encVfshrX d a b m) = _
  rw [hm]
  have ho : (encVfshrX d a b m).extractLsb' 0 7 = 0x1c#7 := by
    simp (disch := decide) only [encVfshrX, RoundTrip.low, RoundTrip.high, RoundTrip.whole, Nat.reduceSub] <;> rfl
  change decodeMajor21Op ((encVfshrX d a b m).extractLsb' 0 7) (encVfshrX d a b m) = _
  rw [ho]
  change ((if (encVfshrX d a b m).extractLsb' 7 1 == 0x0#1 then some (.vfshrX ((encVfshrX d a b m).extractLsb' 21 5) ((encVfshrX d a b m).extractLsb' 16 5) ((encVfshrX d a b m).extractLsb' 11 5) ((encVfshrX d a b m).extractLsb' 8 3)) else none) : Option Instr) = _
  simp (disch := decide) only [encVfshrX, RoundTrip.low, RoundTrip.high, RoundTrip.whole, Nat.reduceSub] <;> rfl
theorem RoundTrip.vfshrI (d : BitVec 5) (a : BitVec 5) (i : BitVec 5) (m : BitVec 3) : RoundTrip.Statement (.vfshrI d a i m) := fun _ => by
  have hm : (encVfshrI d a i m).extractLsb' 26 6 = 0x22#6 := by
    simp (disch := decide) only [encVfshrI, RoundTrip.low, RoundTrip.high, RoundTrip.whole, Nat.reduceSub] <;> rfl
  change decodeByMajor ((encVfshrI d a i m).extractLsb' 26 6) (encVfshrI d a i m) = _
  rw [hm]
  have ho : (encVfshrI d a i m).extractLsb' 0 7 = 0x1c#7 := by
    simp (disch := decide) only [encVfshrI, RoundTrip.low, RoundTrip.high, RoundTrip.whole, Nat.reduceSub] <;> rfl
  change decodeMajor22Op ((encVfshrI d a i m).extractLsb' 0 7) (encVfshrI d a i m) = _
  rw [ho]
  change ((if (encVfshrI d a i m).extractLsb' 7 1 == 0x0#1 then some (.vfshrI ((encVfshrI d a i m).extractLsb' 21 5) ((encVfshrI d a i m).extractLsb' 16 5) ((encVfshrI d a i m).extractLsb' 11 5) ((encVfshrI d a i m).extractLsb' 8 3)) else none) : Option Instr) = _
  simp (disch := decide) only [encVfshrI, RoundTrip.low, RoundTrip.high, RoundTrip.whole, Nat.reduceSub] <;> rfl
theorem RoundTrip.vmergeV (d : BitVec 5) (a : BitVec 5) (b : BitVec 5) (m : BitVec 3) (l : BitVec 1) : RoundTrip.Statement (.vmergeV d a b m l) := fun _ => by
  have hm : (encVmergeV d a b m l).extractLsb' 26 6 = 0x20#6 := by
    simp (disch := decide) only [encVmergeV, RoundTrip.low, RoundTrip.high, RoundTrip.whole, Nat.reduceSub] <;> rfl
  change decodeByMajor ((encVmergeV d a b m l).extractLsb' 26 6) (encVmergeV d a b m l) = _
  rw [hm]
  have hl : ((encVmergeV d a b m l).extractLsb' 5 2 == 0x3#2) = false := by
    simp (disch := decide) only [encVmergeV, RoundTrip.low, RoundTrip.high, RoundTrip.whole, Nat.reduceSub] <;> rfl
  change (if (encVmergeV d a b m l).extractLsb' 5 2 == 0x3#2 then _ else decodeMajor20Op ((encVmergeV d a b m l).extractLsb' 0 7) (encVmergeV d a b m l)) = _
  rw [hl]
  have ho : (encVmergeV d a b m l).extractLsb' 0 7 = 0x1d#7 := by
    simp (disch := decide) only [encVmergeV, RoundTrip.low, RoundTrip.high, RoundTrip.whole, Nat.reduceSub] <;> rfl
  change decodeMajor20Op ((encVmergeV d a b m l).extractLsb' 0 7) (encVmergeV d a b m l) = _
  rw [ho]
  change (some (.vmergeV ((encVmergeV d a b m l).extractLsb' 21 5) ((encVmergeV d a b m l).extractLsb' 16 5) ((encVmergeV d a b m l).extractLsb' 11 5) ((encVmergeV d a b m l).extractLsb' 8 3) ((encVmergeV d a b m l).extractLsb' 7 1)) : Option Instr) = _
  simp (disch := decide) only [encVmergeV, RoundTrip.low, RoundTrip.high, RoundTrip.whole, Nat.reduceSub] <;> rfl
theorem RoundTrip.vmergeX (d : BitVec 5) (a : BitVec 5) (b : BitVec 5) (m : BitVec 3) : RoundTrip.Statement (.vmergeX d a b m) := fun _ => by
  have hm : (encVmergeX d a b m).extractLsb' 26 6 = 0x21#6 := by
    simp (disch := decide) only [encVmergeX, RoundTrip.low, RoundTrip.high, RoundTrip.whole, Nat.reduceSub] <;> rfl
  change decodeByMajor ((encVmergeX d a b m).extractLsb' 26 6) (encVmergeX d a b m) = _
  rw [hm]
  have ho : (encVmergeX d a b m).extractLsb' 0 7 = 0x1d#7 := by
    simp (disch := decide) only [encVmergeX, RoundTrip.low, RoundTrip.high, RoundTrip.whole, Nat.reduceSub] <;> rfl
  change decodeMajor21Op ((encVmergeX d a b m).extractLsb' 0 7) (encVmergeX d a b m) = _
  rw [ho]
  change ((if (encVmergeX d a b m).extractLsb' 7 1 == 0x0#1 then some (.vmergeX ((encVmergeX d a b m).extractLsb' 21 5) ((encVmergeX d a b m).extractLsb' 16 5) ((encVmergeX d a b m).extractLsb' 11 5) ((encVmergeX d a b m).extractLsb' 8 3)) else none) : Option Instr) = _
  simp (disch := decide) only [encVmergeX, RoundTrip.low, RoundTrip.high, RoundTrip.whole, Nat.reduceSub] <;> rfl
theorem RoundTrip.vmergeI (d : BitVec 5) (a : BitVec 5) (i : BitVec 5) (m : BitVec 3) : RoundTrip.Statement (.vmergeI d a i m) := fun _ => by
  have hm : (encVmergeI d a i m).extractLsb' 26 6 = 0x22#6 := by
    simp (disch := decide) only [encVmergeI, RoundTrip.low, RoundTrip.high, RoundTrip.whole, Nat.reduceSub] <;> rfl
  change decodeByMajor ((encVmergeI d a i m).extractLsb' 26 6) (encVmergeI d a i m) = _
  rw [hm]
  have ho : (encVmergeI d a i m).extractLsb' 0 7 = 0x1d#7 := by
    simp (disch := decide) only [encVmergeI, RoundTrip.low, RoundTrip.high, RoundTrip.whole, Nat.reduceSub] <;> rfl
  change decodeMajor22Op ((encVmergeI d a i m).extractLsb' 0 7) (encVmergeI d a i m) = _
  rw [ho]
  change ((if (encVmergeI d a i m).extractLsb' 7 1 == 0x0#1 then some (.vmergeI ((encVmergeI d a i m).extractLsb' 21 5) ((encVmergeI d a i m).extractLsb' 16 5) ((encVmergeI d a i m).extractLsb' 11 5) ((encVmergeI d a i m).extractLsb' 8 3)) else none) : Option Instr) = _
  simp (disch := decide) only [encVmergeI, RoundTrip.low, RoundTrip.high, RoundTrip.whole, Nat.reduceSub] <;> rfl
theorem RoundTrip.vmovV (d : BitVec 5) (b : BitVec 5) (m : BitVec 3) (l : BitVec 1) : RoundTrip.Statement (.vmovV d b m l) := fun _ => by
  have hm : (encVmovV d b m l).extractLsb' 26 6 = 0x20#6 := by
    simp (disch := decide) only [encVmovV, RoundTrip.low, RoundTrip.high, RoundTrip.whole, Nat.reduceSub] <;> rfl
  change decodeByMajor ((encVmovV d b m l).extractLsb' 26 6) (encVmovV d b m l) = _
  rw [hm]
  have hl : ((encVmovV d b m l).extractLsb' 5 2 == 0x3#2) = false := by
    simp (disch := decide) only [encVmovV, RoundTrip.low, RoundTrip.high, RoundTrip.whole, Nat.reduceSub] <;> rfl
  change (if (encVmovV d b m l).extractLsb' 5 2 == 0x3#2 then _ else decodeMajor20Op ((encVmovV d b m l).extractLsb' 0 7) (encVmovV d b m l)) = _
  rw [hl]
  have ho : (encVmovV d b m l).extractLsb' 0 7 = 0x1e#7 := by
    simp (disch := decide) only [encVmovV, RoundTrip.low, RoundTrip.high, RoundTrip.whole, Nat.reduceSub] <;> rfl
  change decodeMajor20Op ((encVmovV d b m l).extractLsb' 0 7) (encVmovV d b m l) = _
  rw [ho]
  change ((if (encVmovV d b m l).extractLsb' 16 5 == 0x0#5 then some (.vmovV ((encVmovV d b m l).extractLsb' 21 5) ((encVmovV d b m l).extractLsb' 11 5) ((encVmovV d b m l).extractLsb' 8 3) ((encVmovV d b m l).extractLsb' 7 1)) else none) : Option Instr) = _
  simp (disch := decide) only [encVmovV, RoundTrip.low, RoundTrip.high, RoundTrip.whole, Nat.reduceSub] <;> rfl
theorem RoundTrip.vmovX (d : BitVec 5) (b : BitVec 5) (m : BitVec 3) : RoundTrip.Statement (.vmovX d b m) := fun _ => by
  have hm : (encVmovX d b m).extractLsb' 26 6 = 0x21#6 := by
    simp (disch := decide) only [encVmovX, RoundTrip.low, RoundTrip.high, RoundTrip.whole, Nat.reduceSub] <;> rfl
  change decodeByMajor ((encVmovX d b m).extractLsb' 26 6) (encVmovX d b m) = _
  rw [hm]
  have ho : (encVmovX d b m).extractLsb' 0 7 = 0x1e#7 := by
    simp (disch := decide) only [encVmovX, RoundTrip.low, RoundTrip.high, RoundTrip.whole, Nat.reduceSub] <;> rfl
  change decodeMajor21Op ((encVmovX d b m).extractLsb' 0 7) (encVmovX d b m) = _
  rw [ho]
  change ((if (encVmovX d b m).extractLsb' 7 1 == 0x0#1 && (encVmovX d b m).extractLsb' 16 5 == 0x0#5 then some (.vmovX ((encVmovX d b m).extractLsb' 21 5) ((encVmovX d b m).extractLsb' 11 5) ((encVmovX d b m).extractLsb' 8 3)) else none) : Option Instr) = _
  simp (disch := decide) only [encVmovX, RoundTrip.low, RoundTrip.high, RoundTrip.whole, Nat.reduceSub] <;> rfl
theorem RoundTrip.vmovI (d : BitVec 5) (i : BitVec 5) (m : BitVec 3) : RoundTrip.Statement (.vmovI d i m) := fun _ => by
  have hm : (encVmovI d i m).extractLsb' 26 6 = 0x22#6 := by
    simp (disch := decide) only [encVmovI, RoundTrip.low, RoundTrip.high, RoundTrip.whole, Nat.reduceSub] <;> rfl
  change decodeByMajor ((encVmovI d i m).extractLsb' 26 6) (encVmovI d i m) = _
  rw [hm]
  have ho : (encVmovI d i m).extractLsb' 0 7 = 0x1e#7 := by
    simp (disch := decide) only [encVmovI, RoundTrip.low, RoundTrip.high, RoundTrip.whole, Nat.reduceSub] <;> rfl
  change decodeMajor22Op ((encVmovI d i m).extractLsb' 0 7) (encVmovI d i m) = _
  rw [ho]
  change ((if (encVmovI d i m).extractLsb' 7 1 == 0x0#1 && (encVmovI d i m).extractLsb' 16 5 == 0x0#5 then some (.vmovI ((encVmovI d i m).extractLsb' 21 5) ((encVmovI d i m).extractLsb' 11 5) ((encVmovI d i m).extractLsb' 8 3)) else none) : Option Instr) = _
  simp (disch := decide) only [encVmovI, RoundTrip.low, RoundTrip.high, RoundTrip.whole, Nat.reduceSub] <;> rfl
theorem RoundTrip.vseqV (d : BitVec 5) (a : BitVec 5) (b : BitVec 5) (m : BitVec 3) (l : BitVec 1) : RoundTrip.Statement (.vseqV d a b m l) := fun _ => by
  have hm : (encVseqV d a b m l).extractLsb' 26 6 = 0x20#6 := by
    simp (disch := decide) only [encVseqV, RoundTrip.low, RoundTrip.high, RoundTrip.whole, Nat.reduceSub] <;> rfl
  change decodeByMajor ((encVseqV d a b m l).extractLsb' 26 6) (encVseqV d a b m l) = _
  rw [hm]
  have hl : ((encVseqV d a b m l).extractLsb' 5 2 == 0x3#2) = false := by
    simp (disch := decide) only [encVseqV, RoundTrip.low, RoundTrip.high, RoundTrip.whole, Nat.reduceSub] <;> rfl
  change (if (encVseqV d a b m l).extractLsb' 5 2 == 0x3#2 then _ else decodeMajor20Op ((encVseqV d a b m l).extractLsb' 0 7) (encVseqV d a b m l)) = _
  rw [hl]
  have ho : (encVseqV d a b m l).extractLsb' 0 7 = 0x20#7 := by
    simp (disch := decide) only [encVseqV, RoundTrip.low, RoundTrip.high, RoundTrip.whole, Nat.reduceSub] <;> rfl
  change decodeMajor20Op ((encVseqV d a b m l).extractLsb' 0 7) (encVseqV d a b m l) = _
  rw [ho]
  change (some (.vseqV ((encVseqV d a b m l).extractLsb' 21 5) ((encVseqV d a b m l).extractLsb' 16 5) ((encVseqV d a b m l).extractLsb' 11 5) ((encVseqV d a b m l).extractLsb' 8 3) ((encVseqV d a b m l).extractLsb' 7 1)) : Option Instr) = _
  simp (disch := decide) only [encVseqV, RoundTrip.low, RoundTrip.high, RoundTrip.whole, Nat.reduceSub] <;> rfl
theorem RoundTrip.vseqX (d : BitVec 5) (a : BitVec 5) (b : BitVec 5) (m : BitVec 3) : RoundTrip.Statement (.vseqX d a b m) := fun _ => by
  have hm : (encVseqX d a b m).extractLsb' 26 6 = 0x21#6 := by
    simp (disch := decide) only [encVseqX, RoundTrip.low, RoundTrip.high, RoundTrip.whole, Nat.reduceSub] <;> rfl
  change decodeByMajor ((encVseqX d a b m).extractLsb' 26 6) (encVseqX d a b m) = _
  rw [hm]
  have ho : (encVseqX d a b m).extractLsb' 0 7 = 0x20#7 := by
    simp (disch := decide) only [encVseqX, RoundTrip.low, RoundTrip.high, RoundTrip.whole, Nat.reduceSub] <;> rfl
  change decodeMajor21Op ((encVseqX d a b m).extractLsb' 0 7) (encVseqX d a b m) = _
  rw [ho]
  change ((if (encVseqX d a b m).extractLsb' 7 1 == 0x0#1 then some (.vseqX ((encVseqX d a b m).extractLsb' 21 5) ((encVseqX d a b m).extractLsb' 16 5) ((encVseqX d a b m).extractLsb' 11 5) ((encVseqX d a b m).extractLsb' 8 3)) else none) : Option Instr) = _
  simp (disch := decide) only [encVseqX, RoundTrip.low, RoundTrip.high, RoundTrip.whole, Nat.reduceSub] <;> rfl
theorem RoundTrip.vseqI (d : BitVec 5) (a : BitVec 5) (i : BitVec 5) (m : BitVec 3) : RoundTrip.Statement (.vseqI d a i m) := fun _ => by
  have hm : (encVseqI d a i m).extractLsb' 26 6 = 0x22#6 := by
    simp (disch := decide) only [encVseqI, RoundTrip.low, RoundTrip.high, RoundTrip.whole, Nat.reduceSub] <;> rfl
  change decodeByMajor ((encVseqI d a i m).extractLsb' 26 6) (encVseqI d a i m) = _
  rw [hm]
  have ho : (encVseqI d a i m).extractLsb' 0 7 = 0x20#7 := by
    simp (disch := decide) only [encVseqI, RoundTrip.low, RoundTrip.high, RoundTrip.whole, Nat.reduceSub] <;> rfl
  change decodeMajor22Op ((encVseqI d a i m).extractLsb' 0 7) (encVseqI d a i m) = _
  rw [ho]
  change ((if (encVseqI d a i m).extractLsb' 7 1 == 0x0#1 then some (.vseqI ((encVseqI d a i m).extractLsb' 21 5) ((encVseqI d a i m).extractLsb' 16 5) ((encVseqI d a i m).extractLsb' 11 5) ((encVseqI d a i m).extractLsb' 8 3)) else none) : Option Instr) = _
  simp (disch := decide) only [encVseqI, RoundTrip.low, RoundTrip.high, RoundTrip.whole, Nat.reduceSub] <;> rfl
theorem RoundTrip.vsneV (d : BitVec 5) (a : BitVec 5) (b : BitVec 5) (m : BitVec 3) (l : BitVec 1) : RoundTrip.Statement (.vsneV d a b m l) := fun _ => by
  have hm : (encVsneV d a b m l).extractLsb' 26 6 = 0x20#6 := by
    simp (disch := decide) only [encVsneV, RoundTrip.low, RoundTrip.high, RoundTrip.whole, Nat.reduceSub] <;> rfl
  change decodeByMajor ((encVsneV d a b m l).extractLsb' 26 6) (encVsneV d a b m l) = _
  rw [hm]
  have hl : ((encVsneV d a b m l).extractLsb' 5 2 == 0x3#2) = false := by
    simp (disch := decide) only [encVsneV, RoundTrip.low, RoundTrip.high, RoundTrip.whole, Nat.reduceSub] <;> rfl
  change (if (encVsneV d a b m l).extractLsb' 5 2 == 0x3#2 then _ else decodeMajor20Op ((encVsneV d a b m l).extractLsb' 0 7) (encVsneV d a b m l)) = _
  rw [hl]
  have ho : (encVsneV d a b m l).extractLsb' 0 7 = 0x21#7 := by
    simp (disch := decide) only [encVsneV, RoundTrip.low, RoundTrip.high, RoundTrip.whole, Nat.reduceSub] <;> rfl
  change decodeMajor20Op ((encVsneV d a b m l).extractLsb' 0 7) (encVsneV d a b m l) = _
  rw [ho]
  change (some (.vsneV ((encVsneV d a b m l).extractLsb' 21 5) ((encVsneV d a b m l).extractLsb' 16 5) ((encVsneV d a b m l).extractLsb' 11 5) ((encVsneV d a b m l).extractLsb' 8 3) ((encVsneV d a b m l).extractLsb' 7 1)) : Option Instr) = _
  simp (disch := decide) only [encVsneV, RoundTrip.low, RoundTrip.high, RoundTrip.whole, Nat.reduceSub] <;> rfl
theorem RoundTrip.vsneX (d : BitVec 5) (a : BitVec 5) (b : BitVec 5) (m : BitVec 3) : RoundTrip.Statement (.vsneX d a b m) := fun _ => by
  have hm : (encVsneX d a b m).extractLsb' 26 6 = 0x21#6 := by
    simp (disch := decide) only [encVsneX, RoundTrip.low, RoundTrip.high, RoundTrip.whole, Nat.reduceSub] <;> rfl
  change decodeByMajor ((encVsneX d a b m).extractLsb' 26 6) (encVsneX d a b m) = _
  rw [hm]
  have ho : (encVsneX d a b m).extractLsb' 0 7 = 0x21#7 := by
    simp (disch := decide) only [encVsneX, RoundTrip.low, RoundTrip.high, RoundTrip.whole, Nat.reduceSub] <;> rfl
  change decodeMajor21Op ((encVsneX d a b m).extractLsb' 0 7) (encVsneX d a b m) = _
  rw [ho]
  change ((if (encVsneX d a b m).extractLsb' 7 1 == 0x0#1 then some (.vsneX ((encVsneX d a b m).extractLsb' 21 5) ((encVsneX d a b m).extractLsb' 16 5) ((encVsneX d a b m).extractLsb' 11 5) ((encVsneX d a b m).extractLsb' 8 3)) else none) : Option Instr) = _
  simp (disch := decide) only [encVsneX, RoundTrip.low, RoundTrip.high, RoundTrip.whole, Nat.reduceSub] <;> rfl
theorem RoundTrip.vsneI (d : BitVec 5) (a : BitVec 5) (i : BitVec 5) (m : BitVec 3) : RoundTrip.Statement (.vsneI d a i m) := fun _ => by
  have hm : (encVsneI d a i m).extractLsb' 26 6 = 0x22#6 := by
    simp (disch := decide) only [encVsneI, RoundTrip.low, RoundTrip.high, RoundTrip.whole, Nat.reduceSub] <;> rfl
  change decodeByMajor ((encVsneI d a i m).extractLsb' 26 6) (encVsneI d a i m) = _
  rw [hm]
  have ho : (encVsneI d a i m).extractLsb' 0 7 = 0x21#7 := by
    simp (disch := decide) only [encVsneI, RoundTrip.low, RoundTrip.high, RoundTrip.whole, Nat.reduceSub] <;> rfl
  change decodeMajor22Op ((encVsneI d a i m).extractLsb' 0 7) (encVsneI d a i m) = _
  rw [ho]
  change ((if (encVsneI d a i m).extractLsb' 7 1 == 0x0#1 then some (.vsneI ((encVsneI d a i m).extractLsb' 21 5) ((encVsneI d a i m).extractLsb' 16 5) ((encVsneI d a i m).extractLsb' 11 5) ((encVsneI d a i m).extractLsb' 8 3)) else none) : Option Instr) = _
  simp (disch := decide) only [encVsneI, RoundTrip.low, RoundTrip.high, RoundTrip.whole, Nat.reduceSub] <;> rfl
theorem RoundTrip.vsltV (d : BitVec 5) (a : BitVec 5) (b : BitVec 5) (m : BitVec 3) (l : BitVec 1) : RoundTrip.Statement (.vsltV d a b m l) := fun _ => by
  have hm : (encVsltV d a b m l).extractLsb' 26 6 = 0x20#6 := by
    simp (disch := decide) only [encVsltV, RoundTrip.low, RoundTrip.high, RoundTrip.whole, Nat.reduceSub] <;> rfl
  change decodeByMajor ((encVsltV d a b m l).extractLsb' 26 6) (encVsltV d a b m l) = _
  rw [hm]
  have hl : ((encVsltV d a b m l).extractLsb' 5 2 == 0x3#2) = false := by
    simp (disch := decide) only [encVsltV, RoundTrip.low, RoundTrip.high, RoundTrip.whole, Nat.reduceSub] <;> rfl
  change (if (encVsltV d a b m l).extractLsb' 5 2 == 0x3#2 then _ else decodeMajor20Op ((encVsltV d a b m l).extractLsb' 0 7) (encVsltV d a b m l)) = _
  rw [hl]
  have ho : (encVsltV d a b m l).extractLsb' 0 7 = 0x22#7 := by
    simp (disch := decide) only [encVsltV, RoundTrip.low, RoundTrip.high, RoundTrip.whole, Nat.reduceSub] <;> rfl
  change decodeMajor20Op ((encVsltV d a b m l).extractLsb' 0 7) (encVsltV d a b m l) = _
  rw [ho]
  change (some (.vsltV ((encVsltV d a b m l).extractLsb' 21 5) ((encVsltV d a b m l).extractLsb' 16 5) ((encVsltV d a b m l).extractLsb' 11 5) ((encVsltV d a b m l).extractLsb' 8 3) ((encVsltV d a b m l).extractLsb' 7 1)) : Option Instr) = _
  simp (disch := decide) only [encVsltV, RoundTrip.low, RoundTrip.high, RoundTrip.whole, Nat.reduceSub] <;> rfl
theorem RoundTrip.vsltX (d : BitVec 5) (a : BitVec 5) (b : BitVec 5) (m : BitVec 3) : RoundTrip.Statement (.vsltX d a b m) := fun _ => by
  have hm : (encVsltX d a b m).extractLsb' 26 6 = 0x21#6 := by
    simp (disch := decide) only [encVsltX, RoundTrip.low, RoundTrip.high, RoundTrip.whole, Nat.reduceSub] <;> rfl
  change decodeByMajor ((encVsltX d a b m).extractLsb' 26 6) (encVsltX d a b m) = _
  rw [hm]
  have ho : (encVsltX d a b m).extractLsb' 0 7 = 0x22#7 := by
    simp (disch := decide) only [encVsltX, RoundTrip.low, RoundTrip.high, RoundTrip.whole, Nat.reduceSub] <;> rfl
  change decodeMajor21Op ((encVsltX d a b m).extractLsb' 0 7) (encVsltX d a b m) = _
  rw [ho]
  change ((if (encVsltX d a b m).extractLsb' 7 1 == 0x0#1 then some (.vsltX ((encVsltX d a b m).extractLsb' 21 5) ((encVsltX d a b m).extractLsb' 16 5) ((encVsltX d a b m).extractLsb' 11 5) ((encVsltX d a b m).extractLsb' 8 3)) else none) : Option Instr) = _
  simp (disch := decide) only [encVsltX, RoundTrip.low, RoundTrip.high, RoundTrip.whole, Nat.reduceSub] <;> rfl
theorem RoundTrip.vsltI (d : BitVec 5) (a : BitVec 5) (i : BitVec 5) (m : BitVec 3) : RoundTrip.Statement (.vsltI d a i m) := fun _ => by
  have hm : (encVsltI d a i m).extractLsb' 26 6 = 0x22#6 := by
    simp (disch := decide) only [encVsltI, RoundTrip.low, RoundTrip.high, RoundTrip.whole, Nat.reduceSub] <;> rfl
  change decodeByMajor ((encVsltI d a i m).extractLsb' 26 6) (encVsltI d a i m) = _
  rw [hm]
  have ho : (encVsltI d a i m).extractLsb' 0 7 = 0x22#7 := by
    simp (disch := decide) only [encVsltI, RoundTrip.low, RoundTrip.high, RoundTrip.whole, Nat.reduceSub] <;> rfl
  change decodeMajor22Op ((encVsltI d a i m).extractLsb' 0 7) (encVsltI d a i m) = _
  rw [ho]
  change ((if (encVsltI d a i m).extractLsb' 7 1 == 0x0#1 then some (.vsltI ((encVsltI d a i m).extractLsb' 21 5) ((encVsltI d a i m).extractLsb' 16 5) ((encVsltI d a i m).extractLsb' 11 5) ((encVsltI d a i m).extractLsb' 8 3)) else none) : Option Instr) = _
  simp (disch := decide) only [encVsltI, RoundTrip.low, RoundTrip.high, RoundTrip.whole, Nat.reduceSub] <;> rfl
theorem RoundTrip.vsltuV (d : BitVec 5) (a : BitVec 5) (b : BitVec 5) (m : BitVec 3) (l : BitVec 1) : RoundTrip.Statement (.vsltuV d a b m l) := fun _ => by
  have hm : (encVsltuV d a b m l).extractLsb' 26 6 = 0x20#6 := by
    simp (disch := decide) only [encVsltuV, RoundTrip.low, RoundTrip.high, RoundTrip.whole, Nat.reduceSub] <;> rfl
  change decodeByMajor ((encVsltuV d a b m l).extractLsb' 26 6) (encVsltuV d a b m l) = _
  rw [hm]
  have hl : ((encVsltuV d a b m l).extractLsb' 5 2 == 0x3#2) = false := by
    simp (disch := decide) only [encVsltuV, RoundTrip.low, RoundTrip.high, RoundTrip.whole, Nat.reduceSub] <;> rfl
  change (if (encVsltuV d a b m l).extractLsb' 5 2 == 0x3#2 then _ else decodeMajor20Op ((encVsltuV d a b m l).extractLsb' 0 7) (encVsltuV d a b m l)) = _
  rw [hl]
  have ho : (encVsltuV d a b m l).extractLsb' 0 7 = 0x23#7 := by
    simp (disch := decide) only [encVsltuV, RoundTrip.low, RoundTrip.high, RoundTrip.whole, Nat.reduceSub] <;> rfl
  change decodeMajor20Op ((encVsltuV d a b m l).extractLsb' 0 7) (encVsltuV d a b m l) = _
  rw [ho]
  change (some (.vsltuV ((encVsltuV d a b m l).extractLsb' 21 5) ((encVsltuV d a b m l).extractLsb' 16 5) ((encVsltuV d a b m l).extractLsb' 11 5) ((encVsltuV d a b m l).extractLsb' 8 3) ((encVsltuV d a b m l).extractLsb' 7 1)) : Option Instr) = _
  simp (disch := decide) only [encVsltuV, RoundTrip.low, RoundTrip.high, RoundTrip.whole, Nat.reduceSub] <;> rfl
theorem RoundTrip.vsltuX (d : BitVec 5) (a : BitVec 5) (b : BitVec 5) (m : BitVec 3) : RoundTrip.Statement (.vsltuX d a b m) := fun _ => by
  have hm : (encVsltuX d a b m).extractLsb' 26 6 = 0x21#6 := by
    simp (disch := decide) only [encVsltuX, RoundTrip.low, RoundTrip.high, RoundTrip.whole, Nat.reduceSub] <;> rfl
  change decodeByMajor ((encVsltuX d a b m).extractLsb' 26 6) (encVsltuX d a b m) = _
  rw [hm]
  have ho : (encVsltuX d a b m).extractLsb' 0 7 = 0x23#7 := by
    simp (disch := decide) only [encVsltuX, RoundTrip.low, RoundTrip.high, RoundTrip.whole, Nat.reduceSub] <;> rfl
  change decodeMajor21Op ((encVsltuX d a b m).extractLsb' 0 7) (encVsltuX d a b m) = _
  rw [ho]
  change ((if (encVsltuX d a b m).extractLsb' 7 1 == 0x0#1 then some (.vsltuX ((encVsltuX d a b m).extractLsb' 21 5) ((encVsltuX d a b m).extractLsb' 16 5) ((encVsltuX d a b m).extractLsb' 11 5) ((encVsltuX d a b m).extractLsb' 8 3)) else none) : Option Instr) = _
  simp (disch := decide) only [encVsltuX, RoundTrip.low, RoundTrip.high, RoundTrip.whole, Nat.reduceSub] <;> rfl
theorem RoundTrip.vsltuI (d : BitVec 5) (a : BitVec 5) (i : BitVec 5) (m : BitVec 3) : RoundTrip.Statement (.vsltuI d a i m) := fun _ => by
  have hm : (encVsltuI d a i m).extractLsb' 26 6 = 0x22#6 := by
    simp (disch := decide) only [encVsltuI, RoundTrip.low, RoundTrip.high, RoundTrip.whole, Nat.reduceSub] <;> rfl
  change decodeByMajor ((encVsltuI d a i m).extractLsb' 26 6) (encVsltuI d a i m) = _
  rw [hm]
  have ho : (encVsltuI d a i m).extractLsb' 0 7 = 0x23#7 := by
    simp (disch := decide) only [encVsltuI, RoundTrip.low, RoundTrip.high, RoundTrip.whole, Nat.reduceSub] <;> rfl
  change decodeMajor22Op ((encVsltuI d a i m).extractLsb' 0 7) (encVsltuI d a i m) = _
  rw [ho]
  change ((if (encVsltuI d a i m).extractLsb' 7 1 == 0x0#1 then some (.vsltuI ((encVsltuI d a i m).extractLsb' 21 5) ((encVsltuI d a i m).extractLsb' 16 5) ((encVsltuI d a i m).extractLsb' 11 5) ((encVsltuI d a i m).extractLsb' 8 3)) else none) : Option Instr) = _
  simp (disch := decide) only [encVsltuI, RoundTrip.low, RoundTrip.high, RoundTrip.whole, Nat.reduceSub] <;> rfl
theorem RoundTrip.vsleV (d : BitVec 5) (a : BitVec 5) (b : BitVec 5) (m : BitVec 3) (l : BitVec 1) : RoundTrip.Statement (.vsleV d a b m l) := fun _ => by
  have hm : (encVsleV d a b m l).extractLsb' 26 6 = 0x20#6 := by
    simp (disch := decide) only [encVsleV, RoundTrip.low, RoundTrip.high, RoundTrip.whole, Nat.reduceSub] <;> rfl
  change decodeByMajor ((encVsleV d a b m l).extractLsb' 26 6) (encVsleV d a b m l) = _
  rw [hm]
  have hl : ((encVsleV d a b m l).extractLsb' 5 2 == 0x3#2) = false := by
    simp (disch := decide) only [encVsleV, RoundTrip.low, RoundTrip.high, RoundTrip.whole, Nat.reduceSub] <;> rfl
  change (if (encVsleV d a b m l).extractLsb' 5 2 == 0x3#2 then _ else decodeMajor20Op ((encVsleV d a b m l).extractLsb' 0 7) (encVsleV d a b m l)) = _
  rw [hl]
  have ho : (encVsleV d a b m l).extractLsb' 0 7 = 0x24#7 := by
    simp (disch := decide) only [encVsleV, RoundTrip.low, RoundTrip.high, RoundTrip.whole, Nat.reduceSub] <;> rfl
  change decodeMajor20Op ((encVsleV d a b m l).extractLsb' 0 7) (encVsleV d a b m l) = _
  rw [ho]
  change (some (.vsleV ((encVsleV d a b m l).extractLsb' 21 5) ((encVsleV d a b m l).extractLsb' 16 5) ((encVsleV d a b m l).extractLsb' 11 5) ((encVsleV d a b m l).extractLsb' 8 3) ((encVsleV d a b m l).extractLsb' 7 1)) : Option Instr) = _
  simp (disch := decide) only [encVsleV, RoundTrip.low, RoundTrip.high, RoundTrip.whole, Nat.reduceSub] <;> rfl
theorem RoundTrip.vsleX (d : BitVec 5) (a : BitVec 5) (b : BitVec 5) (m : BitVec 3) : RoundTrip.Statement (.vsleX d a b m) := fun _ => by
  have hm : (encVsleX d a b m).extractLsb' 26 6 = 0x21#6 := by
    simp (disch := decide) only [encVsleX, RoundTrip.low, RoundTrip.high, RoundTrip.whole, Nat.reduceSub] <;> rfl
  change decodeByMajor ((encVsleX d a b m).extractLsb' 26 6) (encVsleX d a b m) = _
  rw [hm]
  have ho : (encVsleX d a b m).extractLsb' 0 7 = 0x24#7 := by
    simp (disch := decide) only [encVsleX, RoundTrip.low, RoundTrip.high, RoundTrip.whole, Nat.reduceSub] <;> rfl
  change decodeMajor21Op ((encVsleX d a b m).extractLsb' 0 7) (encVsleX d a b m) = _
  rw [ho]
  change ((if (encVsleX d a b m).extractLsb' 7 1 == 0x0#1 then some (.vsleX ((encVsleX d a b m).extractLsb' 21 5) ((encVsleX d a b m).extractLsb' 16 5) ((encVsleX d a b m).extractLsb' 11 5) ((encVsleX d a b m).extractLsb' 8 3)) else none) : Option Instr) = _
  simp (disch := decide) only [encVsleX, RoundTrip.low, RoundTrip.high, RoundTrip.whole, Nat.reduceSub] <;> rfl
theorem RoundTrip.vsleI (d : BitVec 5) (a : BitVec 5) (i : BitVec 5) (m : BitVec 3) : RoundTrip.Statement (.vsleI d a i m) := fun _ => by
  have hm : (encVsleI d a i m).extractLsb' 26 6 = 0x22#6 := by
    simp (disch := decide) only [encVsleI, RoundTrip.low, RoundTrip.high, RoundTrip.whole, Nat.reduceSub] <;> rfl
  change decodeByMajor ((encVsleI d a i m).extractLsb' 26 6) (encVsleI d a i m) = _
  rw [hm]
  have ho : (encVsleI d a i m).extractLsb' 0 7 = 0x24#7 := by
    simp (disch := decide) only [encVsleI, RoundTrip.low, RoundTrip.high, RoundTrip.whole, Nat.reduceSub] <;> rfl
  change decodeMajor22Op ((encVsleI d a i m).extractLsb' 0 7) (encVsleI d a i m) = _
  rw [ho]
  change ((if (encVsleI d a i m).extractLsb' 7 1 == 0x0#1 then some (.vsleI ((encVsleI d a i m).extractLsb' 21 5) ((encVsleI d a i m).extractLsb' 16 5) ((encVsleI d a i m).extractLsb' 11 5) ((encVsleI d a i m).extractLsb' 8 3)) else none) : Option Instr) = _
  simp (disch := decide) only [encVsleI, RoundTrip.low, RoundTrip.high, RoundTrip.whole, Nat.reduceSub] <;> rfl
theorem RoundTrip.vsleuV (d : BitVec 5) (a : BitVec 5) (b : BitVec 5) (m : BitVec 3) (l : BitVec 1) : RoundTrip.Statement (.vsleuV d a b m l) := fun _ => by
  have hm : (encVsleuV d a b m l).extractLsb' 26 6 = 0x20#6 := by
    simp (disch := decide) only [encVsleuV, RoundTrip.low, RoundTrip.high, RoundTrip.whole, Nat.reduceSub] <;> rfl
  change decodeByMajor ((encVsleuV d a b m l).extractLsb' 26 6) (encVsleuV d a b m l) = _
  rw [hm]
  have hl : ((encVsleuV d a b m l).extractLsb' 5 2 == 0x3#2) = false := by
    simp (disch := decide) only [encVsleuV, RoundTrip.low, RoundTrip.high, RoundTrip.whole, Nat.reduceSub] <;> rfl
  change (if (encVsleuV d a b m l).extractLsb' 5 2 == 0x3#2 then _ else decodeMajor20Op ((encVsleuV d a b m l).extractLsb' 0 7) (encVsleuV d a b m l)) = _
  rw [hl]
  have ho : (encVsleuV d a b m l).extractLsb' 0 7 = 0x25#7 := by
    simp (disch := decide) only [encVsleuV, RoundTrip.low, RoundTrip.high, RoundTrip.whole, Nat.reduceSub] <;> rfl
  change decodeMajor20Op ((encVsleuV d a b m l).extractLsb' 0 7) (encVsleuV d a b m l) = _
  rw [ho]
  change (some (.vsleuV ((encVsleuV d a b m l).extractLsb' 21 5) ((encVsleuV d a b m l).extractLsb' 16 5) ((encVsleuV d a b m l).extractLsb' 11 5) ((encVsleuV d a b m l).extractLsb' 8 3) ((encVsleuV d a b m l).extractLsb' 7 1)) : Option Instr) = _
  simp (disch := decide) only [encVsleuV, RoundTrip.low, RoundTrip.high, RoundTrip.whole, Nat.reduceSub] <;> rfl
theorem RoundTrip.vsleuX (d : BitVec 5) (a : BitVec 5) (b : BitVec 5) (m : BitVec 3) : RoundTrip.Statement (.vsleuX d a b m) := fun _ => by
  have hm : (encVsleuX d a b m).extractLsb' 26 6 = 0x21#6 := by
    simp (disch := decide) only [encVsleuX, RoundTrip.low, RoundTrip.high, RoundTrip.whole, Nat.reduceSub] <;> rfl
  change decodeByMajor ((encVsleuX d a b m).extractLsb' 26 6) (encVsleuX d a b m) = _
  rw [hm]
  have ho : (encVsleuX d a b m).extractLsb' 0 7 = 0x25#7 := by
    simp (disch := decide) only [encVsleuX, RoundTrip.low, RoundTrip.high, RoundTrip.whole, Nat.reduceSub] <;> rfl
  change decodeMajor21Op ((encVsleuX d a b m).extractLsb' 0 7) (encVsleuX d a b m) = _
  rw [ho]
  change ((if (encVsleuX d a b m).extractLsb' 7 1 == 0x0#1 then some (.vsleuX ((encVsleuX d a b m).extractLsb' 21 5) ((encVsleuX d a b m).extractLsb' 16 5) ((encVsleuX d a b m).extractLsb' 11 5) ((encVsleuX d a b m).extractLsb' 8 3)) else none) : Option Instr) = _
  simp (disch := decide) only [encVsleuX, RoundTrip.low, RoundTrip.high, RoundTrip.whole, Nat.reduceSub] <;> rfl
theorem RoundTrip.vsleuI (d : BitVec 5) (a : BitVec 5) (i : BitVec 5) (m : BitVec 3) : RoundTrip.Statement (.vsleuI d a i m) := fun _ => by
  have hm : (encVsleuI d a i m).extractLsb' 26 6 = 0x22#6 := by
    simp (disch := decide) only [encVsleuI, RoundTrip.low, RoundTrip.high, RoundTrip.whole, Nat.reduceSub] <;> rfl
  change decodeByMajor ((encVsleuI d a i m).extractLsb' 26 6) (encVsleuI d a i m) = _
  rw [hm]
  have ho : (encVsleuI d a i m).extractLsb' 0 7 = 0x25#7 := by
    simp (disch := decide) only [encVsleuI, RoundTrip.low, RoundTrip.high, RoundTrip.whole, Nat.reduceSub] <;> rfl
  change decodeMajor22Op ((encVsleuI d a i m).extractLsb' 0 7) (encVsleuI d a i m) = _
  rw [ho]
  change ((if (encVsleuI d a i m).extractLsb' 7 1 == 0x0#1 then some (.vsleuI ((encVsleuI d a i m).extractLsb' 21 5) ((encVsleuI d a i m).extractLsb' 16 5) ((encVsleuI d a i m).extractLsb' 11 5) ((encVsleuI d a i m).extractLsb' 8 3)) else none) : Option Instr) = _
  simp (disch := decide) only [encVsleuI, RoundTrip.low, RoundTrip.high, RoundTrip.whole, Nat.reduceSub] <;> rfl
theorem RoundTrip.vsgtV (d : BitVec 5) (a : BitVec 5) (b : BitVec 5) (m : BitVec 3) (l : BitVec 1) : RoundTrip.Statement (.vsgtV d a b m l) := fun _ => by
  have hm : (encVsgtV d a b m l).extractLsb' 26 6 = 0x20#6 := by
    simp (disch := decide) only [encVsgtV, RoundTrip.low, RoundTrip.high, RoundTrip.whole, Nat.reduceSub] <;> rfl
  change decodeByMajor ((encVsgtV d a b m l).extractLsb' 26 6) (encVsgtV d a b m l) = _
  rw [hm]
  have hl : ((encVsgtV d a b m l).extractLsb' 5 2 == 0x3#2) = false := by
    simp (disch := decide) only [encVsgtV, RoundTrip.low, RoundTrip.high, RoundTrip.whole, Nat.reduceSub] <;> rfl
  change (if (encVsgtV d a b m l).extractLsb' 5 2 == 0x3#2 then _ else decodeMajor20Op ((encVsgtV d a b m l).extractLsb' 0 7) (encVsgtV d a b m l)) = _
  rw [hl]
  have ho : (encVsgtV d a b m l).extractLsb' 0 7 = 0x26#7 := by
    simp (disch := decide) only [encVsgtV, RoundTrip.low, RoundTrip.high, RoundTrip.whole, Nat.reduceSub] <;> rfl
  change decodeMajor20Op ((encVsgtV d a b m l).extractLsb' 0 7) (encVsgtV d a b m l) = _
  rw [ho]
  change (some (.vsgtV ((encVsgtV d a b m l).extractLsb' 21 5) ((encVsgtV d a b m l).extractLsb' 16 5) ((encVsgtV d a b m l).extractLsb' 11 5) ((encVsgtV d a b m l).extractLsb' 8 3) ((encVsgtV d a b m l).extractLsb' 7 1)) : Option Instr) = _
  simp (disch := decide) only [encVsgtV, RoundTrip.low, RoundTrip.high, RoundTrip.whole, Nat.reduceSub] <;> rfl
theorem RoundTrip.vsgtX (d : BitVec 5) (a : BitVec 5) (b : BitVec 5) (m : BitVec 3) : RoundTrip.Statement (.vsgtX d a b m) := fun _ => by
  have hm : (encVsgtX d a b m).extractLsb' 26 6 = 0x21#6 := by
    simp (disch := decide) only [encVsgtX, RoundTrip.low, RoundTrip.high, RoundTrip.whole, Nat.reduceSub] <;> rfl
  change decodeByMajor ((encVsgtX d a b m).extractLsb' 26 6) (encVsgtX d a b m) = _
  rw [hm]
  have ho : (encVsgtX d a b m).extractLsb' 0 7 = 0x26#7 := by
    simp (disch := decide) only [encVsgtX, RoundTrip.low, RoundTrip.high, RoundTrip.whole, Nat.reduceSub] <;> rfl
  change decodeMajor21Op ((encVsgtX d a b m).extractLsb' 0 7) (encVsgtX d a b m) = _
  rw [ho]
  change ((if (encVsgtX d a b m).extractLsb' 7 1 == 0x0#1 then some (.vsgtX ((encVsgtX d a b m).extractLsb' 21 5) ((encVsgtX d a b m).extractLsb' 16 5) ((encVsgtX d a b m).extractLsb' 11 5) ((encVsgtX d a b m).extractLsb' 8 3)) else none) : Option Instr) = _
  simp (disch := decide) only [encVsgtX, RoundTrip.low, RoundTrip.high, RoundTrip.whole, Nat.reduceSub] <;> rfl
theorem RoundTrip.vsgtI (d : BitVec 5) (a : BitVec 5) (i : BitVec 5) (m : BitVec 3) : RoundTrip.Statement (.vsgtI d a i m) := fun _ => by
  have hm : (encVsgtI d a i m).extractLsb' 26 6 = 0x22#6 := by
    simp (disch := decide) only [encVsgtI, RoundTrip.low, RoundTrip.high, RoundTrip.whole, Nat.reduceSub] <;> rfl
  change decodeByMajor ((encVsgtI d a i m).extractLsb' 26 6) (encVsgtI d a i m) = _
  rw [hm]
  have ho : (encVsgtI d a i m).extractLsb' 0 7 = 0x26#7 := by
    simp (disch := decide) only [encVsgtI, RoundTrip.low, RoundTrip.high, RoundTrip.whole, Nat.reduceSub] <;> rfl
  change decodeMajor22Op ((encVsgtI d a i m).extractLsb' 0 7) (encVsgtI d a i m) = _
  rw [ho]
  change ((if (encVsgtI d a i m).extractLsb' 7 1 == 0x0#1 then some (.vsgtI ((encVsgtI d a i m).extractLsb' 21 5) ((encVsgtI d a i m).extractLsb' 16 5) ((encVsgtI d a i m).extractLsb' 11 5) ((encVsgtI d a i m).extractLsb' 8 3)) else none) : Option Instr) = _
  simp (disch := decide) only [encVsgtI, RoundTrip.low, RoundTrip.high, RoundTrip.whole, Nat.reduceSub] <;> rfl
theorem RoundTrip.vsgtuV (d : BitVec 5) (a : BitVec 5) (b : BitVec 5) (m : BitVec 3) (l : BitVec 1) : RoundTrip.Statement (.vsgtuV d a b m l) := fun _ => by
  have hm : (encVsgtuV d a b m l).extractLsb' 26 6 = 0x20#6 := by
    simp (disch := decide) only [encVsgtuV, RoundTrip.low, RoundTrip.high, RoundTrip.whole, Nat.reduceSub] <;> rfl
  change decodeByMajor ((encVsgtuV d a b m l).extractLsb' 26 6) (encVsgtuV d a b m l) = _
  rw [hm]
  have hl : ((encVsgtuV d a b m l).extractLsb' 5 2 == 0x3#2) = false := by
    simp (disch := decide) only [encVsgtuV, RoundTrip.low, RoundTrip.high, RoundTrip.whole, Nat.reduceSub] <;> rfl
  change (if (encVsgtuV d a b m l).extractLsb' 5 2 == 0x3#2 then _ else decodeMajor20Op ((encVsgtuV d a b m l).extractLsb' 0 7) (encVsgtuV d a b m l)) = _
  rw [hl]
  have ho : (encVsgtuV d a b m l).extractLsb' 0 7 = 0x27#7 := by
    simp (disch := decide) only [encVsgtuV, RoundTrip.low, RoundTrip.high, RoundTrip.whole, Nat.reduceSub] <;> rfl
  change decodeMajor20Op ((encVsgtuV d a b m l).extractLsb' 0 7) (encVsgtuV d a b m l) = _
  rw [ho]
  change (some (.vsgtuV ((encVsgtuV d a b m l).extractLsb' 21 5) ((encVsgtuV d a b m l).extractLsb' 16 5) ((encVsgtuV d a b m l).extractLsb' 11 5) ((encVsgtuV d a b m l).extractLsb' 8 3) ((encVsgtuV d a b m l).extractLsb' 7 1)) : Option Instr) = _
  simp (disch := decide) only [encVsgtuV, RoundTrip.low, RoundTrip.high, RoundTrip.whole, Nat.reduceSub] <;> rfl
theorem RoundTrip.vsgtuX (d : BitVec 5) (a : BitVec 5) (b : BitVec 5) (m : BitVec 3) : RoundTrip.Statement (.vsgtuX d a b m) := fun _ => by
  have hm : (encVsgtuX d a b m).extractLsb' 26 6 = 0x21#6 := by
    simp (disch := decide) only [encVsgtuX, RoundTrip.low, RoundTrip.high, RoundTrip.whole, Nat.reduceSub] <;> rfl
  change decodeByMajor ((encVsgtuX d a b m).extractLsb' 26 6) (encVsgtuX d a b m) = _
  rw [hm]
  have ho : (encVsgtuX d a b m).extractLsb' 0 7 = 0x27#7 := by
    simp (disch := decide) only [encVsgtuX, RoundTrip.low, RoundTrip.high, RoundTrip.whole, Nat.reduceSub] <;> rfl
  change decodeMajor21Op ((encVsgtuX d a b m).extractLsb' 0 7) (encVsgtuX d a b m) = _
  rw [ho]
  change ((if (encVsgtuX d a b m).extractLsb' 7 1 == 0x0#1 then some (.vsgtuX ((encVsgtuX d a b m).extractLsb' 21 5) ((encVsgtuX d a b m).extractLsb' 16 5) ((encVsgtuX d a b m).extractLsb' 11 5) ((encVsgtuX d a b m).extractLsb' 8 3)) else none) : Option Instr) = _
  simp (disch := decide) only [encVsgtuX, RoundTrip.low, RoundTrip.high, RoundTrip.whole, Nat.reduceSub] <;> rfl
theorem RoundTrip.vsgtuI (d : BitVec 5) (a : BitVec 5) (i : BitVec 5) (m : BitVec 3) : RoundTrip.Statement (.vsgtuI d a i m) := fun _ => by
  have hm : (encVsgtuI d a i m).extractLsb' 26 6 = 0x22#6 := by
    simp (disch := decide) only [encVsgtuI, RoundTrip.low, RoundTrip.high, RoundTrip.whole, Nat.reduceSub] <;> rfl
  change decodeByMajor ((encVsgtuI d a i m).extractLsb' 26 6) (encVsgtuI d a i m) = _
  rw [hm]
  have ho : (encVsgtuI d a i m).extractLsb' 0 7 = 0x27#7 := by
    simp (disch := decide) only [encVsgtuI, RoundTrip.low, RoundTrip.high, RoundTrip.whole, Nat.reduceSub] <;> rfl
  change decodeMajor22Op ((encVsgtuI d a i m).extractLsb' 0 7) (encVsgtuI d a i m) = _
  rw [ho]
  change ((if (encVsgtuI d a i m).extractLsb' 7 1 == 0x0#1 then some (.vsgtuI ((encVsgtuI d a i m).extractLsb' 21 5) ((encVsgtuI d a i m).extractLsb' 16 5) ((encVsgtuI d a i m).extractLsb' 11 5) ((encVsgtuI d a i m).extractLsb' 8 3)) else none) : Option Instr) = _
  simp (disch := decide) only [encVsgtuI, RoundTrip.low, RoundTrip.high, RoundTrip.whole, Nat.reduceSub] <;> rfl
theorem RoundTrip.vpopc (d : BitVec 5) (a : BitVec 5) (m : BitVec 3) : RoundTrip.Statement (.vpopc d a m) := fun _ => by
  have hm : (encVpopc d a m).extractLsb' 26 6 = 0x20#6 := by
    simp (disch := decide) only [encVpopc, RoundTrip.low, RoundTrip.high, RoundTrip.whole, Nat.reduceSub] <;> rfl
  change decodeByMajor ((encVpopc d a m).extractLsb' 26 6) (encVpopc d a m) = _
  rw [hm]
  have hl : ((encVpopc d a m).extractLsb' 5 2 == 0x3#2) = false := by
    simp (disch := decide) only [encVpopc, RoundTrip.low, RoundTrip.high, RoundTrip.whole, Nat.reduceSub] <;> rfl
  change (if (encVpopc d a m).extractLsb' 5 2 == 0x3#2 then _ else decodeMajor20Op ((encVpopc d a m).extractLsb' 0 7) (encVpopc d a m)) = _
  rw [hl]
  have ho : (encVpopc d a m).extractLsb' 0 7 = 0x28#7 := by
    simp (disch := decide) only [encVpopc, RoundTrip.low, RoundTrip.high, RoundTrip.whole, Nat.reduceSub] <;> rfl
  change decodeMajor20Op ((encVpopc d a m).extractLsb' 0 7) (encVpopc d a m) = _
  rw [ho]
  change ((if (encVpopc d a m).extractLsb' 7 1 == 0x0#1 && (encVpopc d a m).extractLsb' 11 5 == 0x0#5 then some (.vpopc ((encVpopc d a m).extractLsb' 21 5) ((encVpopc d a m).extractLsb' 16 5) ((encVpopc d a m).extractLsb' 8 3)) else none) : Option Instr) = _
  simp (disch := decide) only [encVpopc, RoundTrip.low, RoundTrip.high, RoundTrip.whole, Nat.reduceSub] <;> rfl
theorem RoundTrip.vclz (d : BitVec 5) (a : BitVec 5) (m : BitVec 3) : RoundTrip.Statement (.vclz d a m) := fun _ => by
  have hm : (encVclz d a m).extractLsb' 26 6 = 0x20#6 := by
    simp (disch := decide) only [encVclz, RoundTrip.low, RoundTrip.high, RoundTrip.whole, Nat.reduceSub] <;> rfl
  change decodeByMajor ((encVclz d a m).extractLsb' 26 6) (encVclz d a m) = _
  rw [hm]
  have hl : ((encVclz d a m).extractLsb' 5 2 == 0x3#2) = false := by
    simp (disch := decide) only [encVclz, RoundTrip.low, RoundTrip.high, RoundTrip.whole, Nat.reduceSub] <;> rfl
  change (if (encVclz d a m).extractLsb' 5 2 == 0x3#2 then _ else decodeMajor20Op ((encVclz d a m).extractLsb' 0 7) (encVclz d a m)) = _
  rw [hl]
  have ho : (encVclz d a m).extractLsb' 0 7 = 0x29#7 := by
    simp (disch := decide) only [encVclz, RoundTrip.low, RoundTrip.high, RoundTrip.whole, Nat.reduceSub] <;> rfl
  change decodeMajor20Op ((encVclz d a m).extractLsb' 0 7) (encVclz d a m) = _
  rw [ho]
  change ((if (encVclz d a m).extractLsb' 7 1 == 0x0#1 && (encVclz d a m).extractLsb' 11 5 == 0x0#5 then some (.vclz ((encVclz d a m).extractLsb' 21 5) ((encVclz d a m).extractLsb' 16 5) ((encVclz d a m).extractLsb' 8 3)) else none) : Option Instr) = _
  simp (disch := decide) only [encVclz, RoundTrip.low, RoundTrip.high, RoundTrip.whole, Nat.reduceSub] <;> rfl
theorem RoundTrip.vconf (d : BitVec 5) (a : BitVec 5) : RoundTrip.Statement (.vconf d a) := fun _ => by
  have hm : (encVconf d a).extractLsb' 26 6 = 0x20#6 := by
    simp (disch := decide) only [encVconf, RoundTrip.low, RoundTrip.high, RoundTrip.whole, Nat.reduceSub] <;> rfl
  change decodeByMajor ((encVconf d a).extractLsb' 26 6) (encVconf d a) = _
  rw [hm]
  have hl : ((encVconf d a).extractLsb' 5 2 == 0x3#2) = false := by
    simp (disch := decide) only [encVconf, RoundTrip.low, RoundTrip.high, RoundTrip.whole, Nat.reduceSub] <;> rfl
  change (if (encVconf d a).extractLsb' 5 2 == 0x3#2 then _ else decodeMajor20Op ((encVconf d a).extractLsb' 0 7) (encVconf d a)) = _
  rw [hl]
  have ho : (encVconf d a).extractLsb' 0 7 = 0x2a#7 := by
    simp (disch := decide) only [encVconf, RoundTrip.low, RoundTrip.high, RoundTrip.whole, Nat.reduceSub] <;> rfl
  change decodeMajor20Op ((encVconf d a).extractLsb' 0 7) (encVconf d a) = _
  rw [ho]
  change ((if (encVconf d a).extractLsb' 7 9 == 0x0#9 then some (.vconf ((encVconf d a).extractLsb' 21 5) ((encVconf d a).extractLsb' 16 5)) else none) : Option Instr) = _
  simp (disch := decide) only [encVconf, RoundTrip.low, RoundTrip.high, RoundTrip.whole, Nat.reduceSub] <;> rfl
theorem RoundTrip.vredsum (d : BitVec 5) (a : BitVec 5) (m : BitVec 3) : RoundTrip.Statement (.vredsum d a m) := fun _ => by
  have hm : (encVredsum d a m).extractLsb' 26 6 = 0x20#6 := by
    simp (disch := decide) only [encVredsum, RoundTrip.low, RoundTrip.high, RoundTrip.whole, Nat.reduceSub] <;> rfl
  change decodeByMajor ((encVredsum d a m).extractLsb' 26 6) (encVredsum d a m) = _
  rw [hm]
  have hl : ((encVredsum d a m).extractLsb' 5 2 == 0x3#2) = false := by
    simp (disch := decide) only [encVredsum, RoundTrip.low, RoundTrip.high, RoundTrip.whole, Nat.reduceSub] <;> rfl
  change (if (encVredsum d a m).extractLsb' 5 2 == 0x3#2 then _ else decodeMajor20Op ((encVredsum d a m).extractLsb' 0 7) (encVredsum d a m)) = _
  rw [hl]
  have ho : (encVredsum d a m).extractLsb' 0 7 = 0x30#7 := by
    simp (disch := decide) only [encVredsum, RoundTrip.low, RoundTrip.high, RoundTrip.whole, Nat.reduceSub] <;> rfl
  change decodeMajor20Op ((encVredsum d a m).extractLsb' 0 7) (encVredsum d a m) = _
  rw [ho]
  change ((if (encVredsum d a m).extractLsb' 7 1 == 0x0#1 && (encVredsum d a m).extractLsb' 11 5 == 0x0#5 then some (.vredsum ((encVredsum d a m).extractLsb' 21 5) ((encVredsum d a m).extractLsb' 16 5) ((encVredsum d a m).extractLsb' 8 3)) else none) : Option Instr) = _
  simp (disch := decide) only [encVredsum, RoundTrip.low, RoundTrip.high, RoundTrip.whole, Nat.reduceSub] <;> rfl
theorem RoundTrip.vredmax (d : BitVec 5) (a : BitVec 5) (m : BitVec 3) : RoundTrip.Statement (.vredmax d a m) := fun _ => by
  have hm : (encVredmax d a m).extractLsb' 26 6 = 0x20#6 := by
    simp (disch := decide) only [encVredmax, RoundTrip.low, RoundTrip.high, RoundTrip.whole, Nat.reduceSub] <;> rfl
  change decodeByMajor ((encVredmax d a m).extractLsb' 26 6) (encVredmax d a m) = _
  rw [hm]
  have hl : ((encVredmax d a m).extractLsb' 5 2 == 0x3#2) = false := by
    simp (disch := decide) only [encVredmax, RoundTrip.low, RoundTrip.high, RoundTrip.whole, Nat.reduceSub] <;> rfl
  change (if (encVredmax d a m).extractLsb' 5 2 == 0x3#2 then _ else decodeMajor20Op ((encVredmax d a m).extractLsb' 0 7) (encVredmax d a m)) = _
  rw [hl]
  have ho : (encVredmax d a m).extractLsb' 0 7 = 0x31#7 := by
    simp (disch := decide) only [encVredmax, RoundTrip.low, RoundTrip.high, RoundTrip.whole, Nat.reduceSub] <;> rfl
  change decodeMajor20Op ((encVredmax d a m).extractLsb' 0 7) (encVredmax d a m) = _
  rw [ho]
  change ((if (encVredmax d a m).extractLsb' 7 1 == 0x0#1 && (encVredmax d a m).extractLsb' 11 5 == 0x0#5 then some (.vredmax ((encVredmax d a m).extractLsb' 21 5) ((encVredmax d a m).extractLsb' 16 5) ((encVredmax d a m).extractLsb' 8 3)) else none) : Option Instr) = _
  simp (disch := decide) only [encVredmax, RoundTrip.low, RoundTrip.high, RoundTrip.whole, Nat.reduceSub] <;> rfl
theorem RoundTrip.vredmin (d : BitVec 5) (a : BitVec 5) (m : BitVec 3) : RoundTrip.Statement (.vredmin d a m) := fun _ => by
  have hm : (encVredmin d a m).extractLsb' 26 6 = 0x20#6 := by
    simp (disch := decide) only [encVredmin, RoundTrip.low, RoundTrip.high, RoundTrip.whole, Nat.reduceSub] <;> rfl
  change decodeByMajor ((encVredmin d a m).extractLsb' 26 6) (encVredmin d a m) = _
  rw [hm]
  have hl : ((encVredmin d a m).extractLsb' 5 2 == 0x3#2) = false := by
    simp (disch := decide) only [encVredmin, RoundTrip.low, RoundTrip.high, RoundTrip.whole, Nat.reduceSub] <;> rfl
  change (if (encVredmin d a m).extractLsb' 5 2 == 0x3#2 then _ else decodeMajor20Op ((encVredmin d a m).extractLsb' 0 7) (encVredmin d a m)) = _
  rw [hl]
  have ho : (encVredmin d a m).extractLsb' 0 7 = 0x32#7 := by
    simp (disch := decide) only [encVredmin, RoundTrip.low, RoundTrip.high, RoundTrip.whole, Nat.reduceSub] <;> rfl
  change decodeMajor20Op ((encVredmin d a m).extractLsb' 0 7) (encVredmin d a m) = _
  rw [ho]
  change ((if (encVredmin d a m).extractLsb' 7 1 == 0x0#1 && (encVredmin d a m).extractLsb' 11 5 == 0x0#5 then some (.vredmin ((encVredmin d a m).extractLsb' 21 5) ((encVredmin d a m).extractLsb' 16 5) ((encVredmin d a m).extractLsb' 8 3)) else none) : Option Instr) = _
  simp (disch := decide) only [encVredmin, RoundTrip.low, RoundTrip.high, RoundTrip.whole, Nat.reduceSub] <;> rfl
theorem RoundTrip.vredmaxu (d : BitVec 5) (a : BitVec 5) (m : BitVec 3) : RoundTrip.Statement (.vredmaxu d a m) := fun _ => by
  have hm : (encVredmaxu d a m).extractLsb' 26 6 = 0x20#6 := by
    simp (disch := decide) only [encVredmaxu, RoundTrip.low, RoundTrip.high, RoundTrip.whole, Nat.reduceSub] <;> rfl
  change decodeByMajor ((encVredmaxu d a m).extractLsb' 26 6) (encVredmaxu d a m) = _
  rw [hm]
  have hl : ((encVredmaxu d a m).extractLsb' 5 2 == 0x3#2) = false := by
    simp (disch := decide) only [encVredmaxu, RoundTrip.low, RoundTrip.high, RoundTrip.whole, Nat.reduceSub] <;> rfl
  change (if (encVredmaxu d a m).extractLsb' 5 2 == 0x3#2 then _ else decodeMajor20Op ((encVredmaxu d a m).extractLsb' 0 7) (encVredmaxu d a m)) = _
  rw [hl]
  have ho : (encVredmaxu d a m).extractLsb' 0 7 = 0x33#7 := by
    simp (disch := decide) only [encVredmaxu, RoundTrip.low, RoundTrip.high, RoundTrip.whole, Nat.reduceSub] <;> rfl
  change decodeMajor20Op ((encVredmaxu d a m).extractLsb' 0 7) (encVredmaxu d a m) = _
  rw [ho]
  change ((if (encVredmaxu d a m).extractLsb' 7 1 == 0x0#1 && (encVredmaxu d a m).extractLsb' 11 5 == 0x0#5 then some (.vredmaxu ((encVredmaxu d a m).extractLsb' 21 5) ((encVredmaxu d a m).extractLsb' 16 5) ((encVredmaxu d a m).extractLsb' 8 3)) else none) : Option Instr) = _
  simp (disch := decide) only [encVredmaxu, RoundTrip.low, RoundTrip.high, RoundTrip.whole, Nat.reduceSub] <;> rfl
theorem RoundTrip.vredminu (d : BitVec 5) (a : BitVec 5) (m : BitVec 3) : RoundTrip.Statement (.vredminu d a m) := fun _ => by
  have hm : (encVredminu d a m).extractLsb' 26 6 = 0x20#6 := by
    simp (disch := decide) only [encVredminu, RoundTrip.low, RoundTrip.high, RoundTrip.whole, Nat.reduceSub] <;> rfl
  change decodeByMajor ((encVredminu d a m).extractLsb' 26 6) (encVredminu d a m) = _
  rw [hm]
  have hl : ((encVredminu d a m).extractLsb' 5 2 == 0x3#2) = false := by
    simp (disch := decide) only [encVredminu, RoundTrip.low, RoundTrip.high, RoundTrip.whole, Nat.reduceSub] <;> rfl
  change (if (encVredminu d a m).extractLsb' 5 2 == 0x3#2 then _ else decodeMajor20Op ((encVredminu d a m).extractLsb' 0 7) (encVredminu d a m)) = _
  rw [hl]
  have ho : (encVredminu d a m).extractLsb' 0 7 = 0x34#7 := by
    simp (disch := decide) only [encVredminu, RoundTrip.low, RoundTrip.high, RoundTrip.whole, Nat.reduceSub] <;> rfl
  change decodeMajor20Op ((encVredminu d a m).extractLsb' 0 7) (encVredminu d a m) = _
  rw [ho]
  change ((if (encVredminu d a m).extractLsb' 7 1 == 0x0#1 && (encVredminu d a m).extractLsb' 11 5 == 0x0#5 then some (.vredminu ((encVredminu d a m).extractLsb' 21 5) ((encVredminu d a m).extractLsb' 16 5) ((encVredminu d a m).extractLsb' 8 3)) else none) : Option Instr) = _
  simp (disch := decide) only [encVredminu, RoundTrip.low, RoundTrip.high, RoundTrip.whole, Nat.reduceSub] <;> rfl
theorem RoundTrip.vredand (d : BitVec 5) (a : BitVec 5) (m : BitVec 3) : RoundTrip.Statement (.vredand d a m) := fun _ => by
  have hm : (encVredand d a m).extractLsb' 26 6 = 0x20#6 := by
    simp (disch := decide) only [encVredand, RoundTrip.low, RoundTrip.high, RoundTrip.whole, Nat.reduceSub] <;> rfl
  change decodeByMajor ((encVredand d a m).extractLsb' 26 6) (encVredand d a m) = _
  rw [hm]
  have hl : ((encVredand d a m).extractLsb' 5 2 == 0x3#2) = false := by
    simp (disch := decide) only [encVredand, RoundTrip.low, RoundTrip.high, RoundTrip.whole, Nat.reduceSub] <;> rfl
  change (if (encVredand d a m).extractLsb' 5 2 == 0x3#2 then _ else decodeMajor20Op ((encVredand d a m).extractLsb' 0 7) (encVredand d a m)) = _
  rw [hl]
  have ho : (encVredand d a m).extractLsb' 0 7 = 0x35#7 := by
    simp (disch := decide) only [encVredand, RoundTrip.low, RoundTrip.high, RoundTrip.whole, Nat.reduceSub] <;> rfl
  change decodeMajor20Op ((encVredand d a m).extractLsb' 0 7) (encVredand d a m) = _
  rw [ho]
  change ((if (encVredand d a m).extractLsb' 7 1 == 0x0#1 && (encVredand d a m).extractLsb' 11 5 == 0x0#5 then some (.vredand ((encVredand d a m).extractLsb' 21 5) ((encVredand d a m).extractLsb' 16 5) ((encVredand d a m).extractLsb' 8 3)) else none) : Option Instr) = _
  simp (disch := decide) only [encVredand, RoundTrip.low, RoundTrip.high, RoundTrip.whole, Nat.reduceSub] <;> rfl
theorem RoundTrip.vredor (d : BitVec 5) (a : BitVec 5) (m : BitVec 3) : RoundTrip.Statement (.vredor d a m) := fun _ => by
  have hm : (encVredor d a m).extractLsb' 26 6 = 0x20#6 := by
    simp (disch := decide) only [encVredor, RoundTrip.low, RoundTrip.high, RoundTrip.whole, Nat.reduceSub] <;> rfl
  change decodeByMajor ((encVredor d a m).extractLsb' 26 6) (encVredor d a m) = _
  rw [hm]
  have hl : ((encVredor d a m).extractLsb' 5 2 == 0x3#2) = false := by
    simp (disch := decide) only [encVredor, RoundTrip.low, RoundTrip.high, RoundTrip.whole, Nat.reduceSub] <;> rfl
  change (if (encVredor d a m).extractLsb' 5 2 == 0x3#2 then _ else decodeMajor20Op ((encVredor d a m).extractLsb' 0 7) (encVredor d a m)) = _
  rw [hl]
  have ho : (encVredor d a m).extractLsb' 0 7 = 0x36#7 := by
    simp (disch := decide) only [encVredor, RoundTrip.low, RoundTrip.high, RoundTrip.whole, Nat.reduceSub] <;> rfl
  change decodeMajor20Op ((encVredor d a m).extractLsb' 0 7) (encVredor d a m) = _
  rw [ho]
  change ((if (encVredor d a m).extractLsb' 7 1 == 0x0#1 && (encVredor d a m).extractLsb' 11 5 == 0x0#5 then some (.vredor ((encVredor d a m).extractLsb' 21 5) ((encVredor d a m).extractLsb' 16 5) ((encVredor d a m).extractLsb' 8 3)) else none) : Option Instr) = _
  simp (disch := decide) only [encVredor, RoundTrip.low, RoundTrip.high, RoundTrip.whole, Nat.reduceSub] <;> rfl
theorem RoundTrip.vredxor (d : BitVec 5) (a : BitVec 5) (m : BitVec 3) : RoundTrip.Statement (.vredxor d a m) := fun _ => by
  have hm : (encVredxor d a m).extractLsb' 26 6 = 0x20#6 := by
    simp (disch := decide) only [encVredxor, RoundTrip.low, RoundTrip.high, RoundTrip.whole, Nat.reduceSub] <;> rfl
  change decodeByMajor ((encVredxor d a m).extractLsb' 26 6) (encVredxor d a m) = _
  rw [hm]
  have hl : ((encVredxor d a m).extractLsb' 5 2 == 0x3#2) = false := by
    simp (disch := decide) only [encVredxor, RoundTrip.low, RoundTrip.high, RoundTrip.whole, Nat.reduceSub] <;> rfl
  change (if (encVredxor d a m).extractLsb' 5 2 == 0x3#2 then _ else decodeMajor20Op ((encVredxor d a m).extractLsb' 0 7) (encVredxor d a m)) = _
  rw [hl]
  have ho : (encVredxor d a m).extractLsb' 0 7 = 0x37#7 := by
    simp (disch := decide) only [encVredxor, RoundTrip.low, RoundTrip.high, RoundTrip.whole, Nat.reduceSub] <;> rfl
  change decodeMajor20Op ((encVredxor d a m).extractLsb' 0 7) (encVredxor d a m) = _
  rw [ho]
  change ((if (encVredxor d a m).extractLsb' 7 1 == 0x0#1 && (encVredxor d a m).extractLsb' 11 5 == 0x0#5 then some (.vredxor ((encVredxor d a m).extractLsb' 21 5) ((encVredxor d a m).extractLsb' 16 5) ((encVredxor d a m).extractLsb' 8 3)) else none) : Option Instr) = _
  simp (disch := decide) only [encVredxor, RoundTrip.low, RoundTrip.high, RoundTrip.whole, Nat.reduceSub] <;> rfl
theorem RoundTrip.vlut3 (d : BitVec 5) (a : BitVec 5) (b : BitVec 5) (t : BitVec 3) (l : BitVec 1) (u : BitVec 5) : RoundTrip.Statement (.vlut3 d a b t l u) := fun _ => by
  have hm : (encVlut3 d a b t l u).extractLsb' 26 6 = 0x20#6 := by
    simp (disch := decide) only [encVlut3, RoundTrip.low, RoundTrip.high, RoundTrip.whole, Nat.reduceSub] <;> rfl
  change decodeByMajor ((encVlut3 d a b t l u).extractLsb' 26 6) (encVlut3 d a b t l u) = _
  rw [hm]
  have ho : (encVlut3 d a b t l u).extractLsb' 5 2 = 0x3#2 := by
    simp (disch := decide) only [encVlut3, RoundTrip.low, RoundTrip.high, RoundTrip.whole, Nat.reduceSub] <;> rfl
  change (if (encVlut3 d a b t l u).extractLsb' 5 2 == 0x3#2 then (some (.vlut3 ((encVlut3 d a b t l u).extractLsb' 21 5) ((encVlut3 d a b t l u).extractLsb' 16 5) ((encVlut3 d a b t l u).extractLsb' 11 5) ((encVlut3 d a b t l u).extractLsb' 8 3) ((encVlut3 d a b t l u).extractLsb' 7 1) ((encVlut3 d a b t l u).extractLsb' 0 5)) : Option Instr) else _) = _
  rw [ho]
  change (some (.vlut3 ((encVlut3 d a b t l u).extractLsb' 21 5) ((encVlut3 d a b t l u).extractLsb' 16 5) ((encVlut3 d a b t l u).extractLsb' 11 5) ((encVlut3 d a b t l u).extractLsb' 8 3) ((encVlut3 d a b t l u).extractLsb' 7 1) ((encVlut3 d a b t l u).extractLsb' 0 5)) : Option Instr) = _
  simp (disch := decide) only [encVlut3, RoundTrip.low, RoundTrip.high, RoundTrip.whole, Nat.reduceSub] <;> rfl
theorem RoundTrip.vfaddV (d : BitVec 5) (a : BitVec 5) (b : BitVec 5) (m : BitVec 3) (l : BitVec 1) : RoundTrip.Statement (.vfaddV d a b m l) := fun _ => by
  have hm : (encVfaddV d a b m l).extractLsb' 26 6 = 0x23#6 := by
    simp (disch := decide) only [encVfaddV, RoundTrip.low, RoundTrip.high, RoundTrip.whole, Nat.reduceSub] <;> rfl
  change decodeByMajor ((encVfaddV d a b m l).extractLsb' 26 6) (encVfaddV d a b m l) = _
  rw [hm]
  have ho : (encVfaddV d a b m l).extractLsb' 0 7 = 0x0#7 := by
    simp (disch := decide) only [encVfaddV, RoundTrip.low, RoundTrip.high, RoundTrip.whole, Nat.reduceSub] <;> rfl
  change decodeMajor23Op ((encVfaddV d a b m l).extractLsb' 0 7) (encVfaddV d a b m l) = _
  rw [ho]
  change (some (.vfaddV ((encVfaddV d a b m l).extractLsb' 21 5) ((encVfaddV d a b m l).extractLsb' 16 5) ((encVfaddV d a b m l).extractLsb' 11 5) ((encVfaddV d a b m l).extractLsb' 8 3) ((encVfaddV d a b m l).extractLsb' 7 1)) : Option Instr) = _
  simp (disch := decide) only [encVfaddV, RoundTrip.low, RoundTrip.high, RoundTrip.whole, Nat.reduceSub] <;> rfl
theorem RoundTrip.vfaddF (d : BitVec 5) (a : BitVec 5) (b : BitVec 5) (m : BitVec 3) : RoundTrip.Statement (.vfaddF d a b m) := fun _ => by
  have hm : (encVfaddF d a b m).extractLsb' 26 6 = 0x24#6 := by
    simp (disch := decide) only [encVfaddF, RoundTrip.low, RoundTrip.high, RoundTrip.whole, Nat.reduceSub] <;> rfl
  change decodeByMajor ((encVfaddF d a b m).extractLsb' 26 6) (encVfaddF d a b m) = _
  rw [hm]
  have ho : (encVfaddF d a b m).extractLsb' 0 7 = 0x0#7 := by
    simp (disch := decide) only [encVfaddF, RoundTrip.low, RoundTrip.high, RoundTrip.whole, Nat.reduceSub] <;> rfl
  change decodeMajor24Op ((encVfaddF d a b m).extractLsb' 0 7) (encVfaddF d a b m) = _
  rw [ho]
  change ((if (encVfaddF d a b m).extractLsb' 7 1 == 0x0#1 then some (.vfaddF ((encVfaddF d a b m).extractLsb' 21 5) ((encVfaddF d a b m).extractLsb' 16 5) ((encVfaddF d a b m).extractLsb' 11 5) ((encVfaddF d a b m).extractLsb' 8 3)) else none) : Option Instr) = _
  simp (disch := decide) only [encVfaddF, RoundTrip.low, RoundTrip.high, RoundTrip.whole, Nat.reduceSub] <;> rfl
theorem RoundTrip.vfsubV (d : BitVec 5) (a : BitVec 5) (b : BitVec 5) (m : BitVec 3) (l : BitVec 1) : RoundTrip.Statement (.vfsubV d a b m l) := fun _ => by
  have hm : (encVfsubV d a b m l).extractLsb' 26 6 = 0x23#6 := by
    simp (disch := decide) only [encVfsubV, RoundTrip.low, RoundTrip.high, RoundTrip.whole, Nat.reduceSub] <;> rfl
  change decodeByMajor ((encVfsubV d a b m l).extractLsb' 26 6) (encVfsubV d a b m l) = _
  rw [hm]
  have ho : (encVfsubV d a b m l).extractLsb' 0 7 = 0x1#7 := by
    simp (disch := decide) only [encVfsubV, RoundTrip.low, RoundTrip.high, RoundTrip.whole, Nat.reduceSub] <;> rfl
  change decodeMajor23Op ((encVfsubV d a b m l).extractLsb' 0 7) (encVfsubV d a b m l) = _
  rw [ho]
  change (some (.vfsubV ((encVfsubV d a b m l).extractLsb' 21 5) ((encVfsubV d a b m l).extractLsb' 16 5) ((encVfsubV d a b m l).extractLsb' 11 5) ((encVfsubV d a b m l).extractLsb' 8 3) ((encVfsubV d a b m l).extractLsb' 7 1)) : Option Instr) = _
  simp (disch := decide) only [encVfsubV, RoundTrip.low, RoundTrip.high, RoundTrip.whole, Nat.reduceSub] <;> rfl
theorem RoundTrip.vfsubF (d : BitVec 5) (a : BitVec 5) (b : BitVec 5) (m : BitVec 3) : RoundTrip.Statement (.vfsubF d a b m) := fun _ => by
  have hm : (encVfsubF d a b m).extractLsb' 26 6 = 0x24#6 := by
    simp (disch := decide) only [encVfsubF, RoundTrip.low, RoundTrip.high, RoundTrip.whole, Nat.reduceSub] <;> rfl
  change decodeByMajor ((encVfsubF d a b m).extractLsb' 26 6) (encVfsubF d a b m) = _
  rw [hm]
  have ho : (encVfsubF d a b m).extractLsb' 0 7 = 0x1#7 := by
    simp (disch := decide) only [encVfsubF, RoundTrip.low, RoundTrip.high, RoundTrip.whole, Nat.reduceSub] <;> rfl
  change decodeMajor24Op ((encVfsubF d a b m).extractLsb' 0 7) (encVfsubF d a b m) = _
  rw [ho]
  change ((if (encVfsubF d a b m).extractLsb' 7 1 == 0x0#1 then some (.vfsubF ((encVfsubF d a b m).extractLsb' 21 5) ((encVfsubF d a b m).extractLsb' 16 5) ((encVfsubF d a b m).extractLsb' 11 5) ((encVfsubF d a b m).extractLsb' 8 3)) else none) : Option Instr) = _
  simp (disch := decide) only [encVfsubF, RoundTrip.low, RoundTrip.high, RoundTrip.whole, Nat.reduceSub] <;> rfl
theorem RoundTrip.vfmulV (d : BitVec 5) (a : BitVec 5) (b : BitVec 5) (m : BitVec 3) (l : BitVec 1) : RoundTrip.Statement (.vfmulV d a b m l) := fun _ => by
  have hm : (encVfmulV d a b m l).extractLsb' 26 6 = 0x23#6 := by
    simp (disch := decide) only [encVfmulV, RoundTrip.low, RoundTrip.high, RoundTrip.whole, Nat.reduceSub] <;> rfl
  change decodeByMajor ((encVfmulV d a b m l).extractLsb' 26 6) (encVfmulV d a b m l) = _
  rw [hm]
  have ho : (encVfmulV d a b m l).extractLsb' 0 7 = 0x2#7 := by
    simp (disch := decide) only [encVfmulV, RoundTrip.low, RoundTrip.high, RoundTrip.whole, Nat.reduceSub] <;> rfl
  change decodeMajor23Op ((encVfmulV d a b m l).extractLsb' 0 7) (encVfmulV d a b m l) = _
  rw [ho]
  change (some (.vfmulV ((encVfmulV d a b m l).extractLsb' 21 5) ((encVfmulV d a b m l).extractLsb' 16 5) ((encVfmulV d a b m l).extractLsb' 11 5) ((encVfmulV d a b m l).extractLsb' 8 3) ((encVfmulV d a b m l).extractLsb' 7 1)) : Option Instr) = _
  simp (disch := decide) only [encVfmulV, RoundTrip.low, RoundTrip.high, RoundTrip.whole, Nat.reduceSub] <;> rfl
theorem RoundTrip.vfmulF (d : BitVec 5) (a : BitVec 5) (b : BitVec 5) (m : BitVec 3) : RoundTrip.Statement (.vfmulF d a b m) := fun _ => by
  have hm : (encVfmulF d a b m).extractLsb' 26 6 = 0x24#6 := by
    simp (disch := decide) only [encVfmulF, RoundTrip.low, RoundTrip.high, RoundTrip.whole, Nat.reduceSub] <;> rfl
  change decodeByMajor ((encVfmulF d a b m).extractLsb' 26 6) (encVfmulF d a b m) = _
  rw [hm]
  have ho : (encVfmulF d a b m).extractLsb' 0 7 = 0x2#7 := by
    simp (disch := decide) only [encVfmulF, RoundTrip.low, RoundTrip.high, RoundTrip.whole, Nat.reduceSub] <;> rfl
  change decodeMajor24Op ((encVfmulF d a b m).extractLsb' 0 7) (encVfmulF d a b m) = _
  rw [ho]
  change ((if (encVfmulF d a b m).extractLsb' 7 1 == 0x0#1 then some (.vfmulF ((encVfmulF d a b m).extractLsb' 21 5) ((encVfmulF d a b m).extractLsb' 16 5) ((encVfmulF d a b m).extractLsb' 11 5) ((encVfmulF d a b m).extractLsb' 8 3)) else none) : Option Instr) = _
  simp (disch := decide) only [encVfmulF, RoundTrip.low, RoundTrip.high, RoundTrip.whole, Nat.reduceSub] <;> rfl
theorem RoundTrip.vfdivV (d : BitVec 5) (a : BitVec 5) (b : BitVec 5) (m : BitVec 3) (l : BitVec 1) : RoundTrip.Statement (.vfdivV d a b m l) := fun _ => by
  have hm : (encVfdivV d a b m l).extractLsb' 26 6 = 0x23#6 := by
    simp (disch := decide) only [encVfdivV, RoundTrip.low, RoundTrip.high, RoundTrip.whole, Nat.reduceSub] <;> rfl
  change decodeByMajor ((encVfdivV d a b m l).extractLsb' 26 6) (encVfdivV d a b m l) = _
  rw [hm]
  have ho : (encVfdivV d a b m l).extractLsb' 0 7 = 0x3#7 := by
    simp (disch := decide) only [encVfdivV, RoundTrip.low, RoundTrip.high, RoundTrip.whole, Nat.reduceSub] <;> rfl
  change decodeMajor23Op ((encVfdivV d a b m l).extractLsb' 0 7) (encVfdivV d a b m l) = _
  rw [ho]
  change (some (.vfdivV ((encVfdivV d a b m l).extractLsb' 21 5) ((encVfdivV d a b m l).extractLsb' 16 5) ((encVfdivV d a b m l).extractLsb' 11 5) ((encVfdivV d a b m l).extractLsb' 8 3) ((encVfdivV d a b m l).extractLsb' 7 1)) : Option Instr) = _
  simp (disch := decide) only [encVfdivV, RoundTrip.low, RoundTrip.high, RoundTrip.whole, Nat.reduceSub] <;> rfl
theorem RoundTrip.vfdivF (d : BitVec 5) (a : BitVec 5) (b : BitVec 5) (m : BitVec 3) : RoundTrip.Statement (.vfdivF d a b m) := fun _ => by
  have hm : (encVfdivF d a b m).extractLsb' 26 6 = 0x24#6 := by
    simp (disch := decide) only [encVfdivF, RoundTrip.low, RoundTrip.high, RoundTrip.whole, Nat.reduceSub] <;> rfl
  change decodeByMajor ((encVfdivF d a b m).extractLsb' 26 6) (encVfdivF d a b m) = _
  rw [hm]
  have ho : (encVfdivF d a b m).extractLsb' 0 7 = 0x3#7 := by
    simp (disch := decide) only [encVfdivF, RoundTrip.low, RoundTrip.high, RoundTrip.whole, Nat.reduceSub] <;> rfl
  change decodeMajor24Op ((encVfdivF d a b m).extractLsb' 0 7) (encVfdivF d a b m) = _
  rw [ho]
  change ((if (encVfdivF d a b m).extractLsb' 7 1 == 0x0#1 then some (.vfdivF ((encVfdivF d a b m).extractLsb' 21 5) ((encVfdivF d a b m).extractLsb' 16 5) ((encVfdivF d a b m).extractLsb' 11 5) ((encVfdivF d a b m).extractLsb' 8 3)) else none) : Option Instr) = _
  simp (disch := decide) only [encVfdivF, RoundTrip.low, RoundTrip.high, RoundTrip.whole, Nat.reduceSub] <;> rfl
theorem RoundTrip.vfsqrt (d : BitVec 5) (a : BitVec 5) (m : BitVec 3) : RoundTrip.Statement (.vfsqrt d a m) := fun _ => by
  have hm : (encVfsqrt d a m).extractLsb' 26 6 = 0x23#6 := by
    simp (disch := decide) only [encVfsqrt, RoundTrip.low, RoundTrip.high, RoundTrip.whole, Nat.reduceSub] <;> rfl
  change decodeByMajor ((encVfsqrt d a m).extractLsb' 26 6) (encVfsqrt d a m) = _
  rw [hm]
  have ho : (encVfsqrt d a m).extractLsb' 0 7 = 0x4#7 := by
    simp (disch := decide) only [encVfsqrt, RoundTrip.low, RoundTrip.high, RoundTrip.whole, Nat.reduceSub] <;> rfl
  change decodeMajor23Op ((encVfsqrt d a m).extractLsb' 0 7) (encVfsqrt d a m) = _
  rw [ho]
  change ((if (encVfsqrt d a m).extractLsb' 7 1 == 0x0#1 && (encVfsqrt d a m).extractLsb' 11 5 == 0x0#5 then some (.vfsqrt ((encVfsqrt d a m).extractLsb' 21 5) ((encVfsqrt d a m).extractLsb' 16 5) ((encVfsqrt d a m).extractLsb' 8 3)) else none) : Option Instr) = _
  simp (disch := decide) only [encVfsqrt, RoundTrip.low, RoundTrip.high, RoundTrip.whole, Nat.reduceSub] <;> rfl
theorem RoundTrip.vfmaV (d : BitVec 5) (a : BitVec 5) (b : BitVec 5) (m : BitVec 3) (l : BitVec 1) : RoundTrip.Statement (.vfmaV d a b m l) := fun _ => by
  have hm : (encVfmaV d a b m l).extractLsb' 26 6 = 0x23#6 := by
    simp (disch := decide) only [encVfmaV, RoundTrip.low, RoundTrip.high, RoundTrip.whole, Nat.reduceSub] <;> rfl
  change decodeByMajor ((encVfmaV d a b m l).extractLsb' 26 6) (encVfmaV d a b m l) = _
  rw [hm]
  have ho : (encVfmaV d a b m l).extractLsb' 0 7 = 0x5#7 := by
    simp (disch := decide) only [encVfmaV, RoundTrip.low, RoundTrip.high, RoundTrip.whole, Nat.reduceSub] <;> rfl
  change decodeMajor23Op ((encVfmaV d a b m l).extractLsb' 0 7) (encVfmaV d a b m l) = _
  rw [ho]
  change (some (.vfmaV ((encVfmaV d a b m l).extractLsb' 21 5) ((encVfmaV d a b m l).extractLsb' 16 5) ((encVfmaV d a b m l).extractLsb' 11 5) ((encVfmaV d a b m l).extractLsb' 8 3) ((encVfmaV d a b m l).extractLsb' 7 1)) : Option Instr) = _
  simp (disch := decide) only [encVfmaV, RoundTrip.low, RoundTrip.high, RoundTrip.whole, Nat.reduceSub] <;> rfl
theorem RoundTrip.vfmaF (d : BitVec 5) (a : BitVec 5) (b : BitVec 5) (m : BitVec 3) : RoundTrip.Statement (.vfmaF d a b m) := fun _ => by
  have hm : (encVfmaF d a b m).extractLsb' 26 6 = 0x24#6 := by
    simp (disch := decide) only [encVfmaF, RoundTrip.low, RoundTrip.high, RoundTrip.whole, Nat.reduceSub] <;> rfl
  change decodeByMajor ((encVfmaF d a b m).extractLsb' 26 6) (encVfmaF d a b m) = _
  rw [hm]
  have ho : (encVfmaF d a b m).extractLsb' 0 7 = 0x5#7 := by
    simp (disch := decide) only [encVfmaF, RoundTrip.low, RoundTrip.high, RoundTrip.whole, Nat.reduceSub] <;> rfl
  change decodeMajor24Op ((encVfmaF d a b m).extractLsb' 0 7) (encVfmaF d a b m) = _
  rw [ho]
  change ((if (encVfmaF d a b m).extractLsb' 7 1 == 0x0#1 then some (.vfmaF ((encVfmaF d a b m).extractLsb' 21 5) ((encVfmaF d a b m).extractLsb' 16 5) ((encVfmaF d a b m).extractLsb' 11 5) ((encVfmaF d a b m).extractLsb' 8 3)) else none) : Option Instr) = _
  simp (disch := decide) only [encVfmaF, RoundTrip.low, RoundTrip.high, RoundTrip.whole, Nat.reduceSub] <;> rfl
theorem RoundTrip.vfnmaV (d : BitVec 5) (a : BitVec 5) (b : BitVec 5) (m : BitVec 3) (l : BitVec 1) : RoundTrip.Statement (.vfnmaV d a b m l) := fun _ => by
  have hm : (encVfnmaV d a b m l).extractLsb' 26 6 = 0x23#6 := by
    simp (disch := decide) only [encVfnmaV, RoundTrip.low, RoundTrip.high, RoundTrip.whole, Nat.reduceSub] <;> rfl
  change decodeByMajor ((encVfnmaV d a b m l).extractLsb' 26 6) (encVfnmaV d a b m l) = _
  rw [hm]
  have ho : (encVfnmaV d a b m l).extractLsb' 0 7 = 0x6#7 := by
    simp (disch := decide) only [encVfnmaV, RoundTrip.low, RoundTrip.high, RoundTrip.whole, Nat.reduceSub] <;> rfl
  change decodeMajor23Op ((encVfnmaV d a b m l).extractLsb' 0 7) (encVfnmaV d a b m l) = _
  rw [ho]
  change (some (.vfnmaV ((encVfnmaV d a b m l).extractLsb' 21 5) ((encVfnmaV d a b m l).extractLsb' 16 5) ((encVfnmaV d a b m l).extractLsb' 11 5) ((encVfnmaV d a b m l).extractLsb' 8 3) ((encVfnmaV d a b m l).extractLsb' 7 1)) : Option Instr) = _
  simp (disch := decide) only [encVfnmaV, RoundTrip.low, RoundTrip.high, RoundTrip.whole, Nat.reduceSub] <;> rfl
theorem RoundTrip.vfnmaF (d : BitVec 5) (a : BitVec 5) (b : BitVec 5) (m : BitVec 3) : RoundTrip.Statement (.vfnmaF d a b m) := fun _ => by
  have hm : (encVfnmaF d a b m).extractLsb' 26 6 = 0x24#6 := by
    simp (disch := decide) only [encVfnmaF, RoundTrip.low, RoundTrip.high, RoundTrip.whole, Nat.reduceSub] <;> rfl
  change decodeByMajor ((encVfnmaF d a b m).extractLsb' 26 6) (encVfnmaF d a b m) = _
  rw [hm]
  have ho : (encVfnmaF d a b m).extractLsb' 0 7 = 0x6#7 := by
    simp (disch := decide) only [encVfnmaF, RoundTrip.low, RoundTrip.high, RoundTrip.whole, Nat.reduceSub] <;> rfl
  change decodeMajor24Op ((encVfnmaF d a b m).extractLsb' 0 7) (encVfnmaF d a b m) = _
  rw [ho]
  change ((if (encVfnmaF d a b m).extractLsb' 7 1 == 0x0#1 then some (.vfnmaF ((encVfnmaF d a b m).extractLsb' 21 5) ((encVfnmaF d a b m).extractLsb' 16 5) ((encVfnmaF d a b m).extractLsb' 11 5) ((encVfnmaF d a b m).extractLsb' 8 3)) else none) : Option Instr) = _
  simp (disch := decide) only [encVfnmaF, RoundTrip.low, RoundTrip.high, RoundTrip.whole, Nat.reduceSub] <;> rfl
theorem RoundTrip.vfminV (d : BitVec 5) (a : BitVec 5) (b : BitVec 5) (m : BitVec 3) (l : BitVec 1) : RoundTrip.Statement (.vfminV d a b m l) := fun _ => by
  have hm : (encVfminV d a b m l).extractLsb' 26 6 = 0x23#6 := by
    simp (disch := decide) only [encVfminV, RoundTrip.low, RoundTrip.high, RoundTrip.whole, Nat.reduceSub] <;> rfl
  change decodeByMajor ((encVfminV d a b m l).extractLsb' 26 6) (encVfminV d a b m l) = _
  rw [hm]
  have ho : (encVfminV d a b m l).extractLsb' 0 7 = 0x7#7 := by
    simp (disch := decide) only [encVfminV, RoundTrip.low, RoundTrip.high, RoundTrip.whole, Nat.reduceSub] <;> rfl
  change decodeMajor23Op ((encVfminV d a b m l).extractLsb' 0 7) (encVfminV d a b m l) = _
  rw [ho]
  change (some (.vfminV ((encVfminV d a b m l).extractLsb' 21 5) ((encVfminV d a b m l).extractLsb' 16 5) ((encVfminV d a b m l).extractLsb' 11 5) ((encVfminV d a b m l).extractLsb' 8 3) ((encVfminV d a b m l).extractLsb' 7 1)) : Option Instr) = _
  simp (disch := decide) only [encVfminV, RoundTrip.low, RoundTrip.high, RoundTrip.whole, Nat.reduceSub] <;> rfl
theorem RoundTrip.vfminF (d : BitVec 5) (a : BitVec 5) (b : BitVec 5) (m : BitVec 3) : RoundTrip.Statement (.vfminF d a b m) := fun _ => by
  have hm : (encVfminF d a b m).extractLsb' 26 6 = 0x24#6 := by
    simp (disch := decide) only [encVfminF, RoundTrip.low, RoundTrip.high, RoundTrip.whole, Nat.reduceSub] <;> rfl
  change decodeByMajor ((encVfminF d a b m).extractLsb' 26 6) (encVfminF d a b m) = _
  rw [hm]
  have ho : (encVfminF d a b m).extractLsb' 0 7 = 0x7#7 := by
    simp (disch := decide) only [encVfminF, RoundTrip.low, RoundTrip.high, RoundTrip.whole, Nat.reduceSub] <;> rfl
  change decodeMajor24Op ((encVfminF d a b m).extractLsb' 0 7) (encVfminF d a b m) = _
  rw [ho]
  change ((if (encVfminF d a b m).extractLsb' 7 1 == 0x0#1 then some (.vfminF ((encVfminF d a b m).extractLsb' 21 5) ((encVfminF d a b m).extractLsb' 16 5) ((encVfminF d a b m).extractLsb' 11 5) ((encVfminF d a b m).extractLsb' 8 3)) else none) : Option Instr) = _
  simp (disch := decide) only [encVfminF, RoundTrip.low, RoundTrip.high, RoundTrip.whole, Nat.reduceSub] <;> rfl
theorem RoundTrip.vfmaxV (d : BitVec 5) (a : BitVec 5) (b : BitVec 5) (m : BitVec 3) (l : BitVec 1) : RoundTrip.Statement (.vfmaxV d a b m l) := fun _ => by
  have hm : (encVfmaxV d a b m l).extractLsb' 26 6 = 0x23#6 := by
    simp (disch := decide) only [encVfmaxV, RoundTrip.low, RoundTrip.high, RoundTrip.whole, Nat.reduceSub] <;> rfl
  change decodeByMajor ((encVfmaxV d a b m l).extractLsb' 26 6) (encVfmaxV d a b m l) = _
  rw [hm]
  have ho : (encVfmaxV d a b m l).extractLsb' 0 7 = 0x8#7 := by
    simp (disch := decide) only [encVfmaxV, RoundTrip.low, RoundTrip.high, RoundTrip.whole, Nat.reduceSub] <;> rfl
  change decodeMajor23Op ((encVfmaxV d a b m l).extractLsb' 0 7) (encVfmaxV d a b m l) = _
  rw [ho]
  change (some (.vfmaxV ((encVfmaxV d a b m l).extractLsb' 21 5) ((encVfmaxV d a b m l).extractLsb' 16 5) ((encVfmaxV d a b m l).extractLsb' 11 5) ((encVfmaxV d a b m l).extractLsb' 8 3) ((encVfmaxV d a b m l).extractLsb' 7 1)) : Option Instr) = _
  simp (disch := decide) only [encVfmaxV, RoundTrip.low, RoundTrip.high, RoundTrip.whole, Nat.reduceSub] <;> rfl
theorem RoundTrip.vfmaxF (d : BitVec 5) (a : BitVec 5) (b : BitVec 5) (m : BitVec 3) : RoundTrip.Statement (.vfmaxF d a b m) := fun _ => by
  have hm : (encVfmaxF d a b m).extractLsb' 26 6 = 0x24#6 := by
    simp (disch := decide) only [encVfmaxF, RoundTrip.low, RoundTrip.high, RoundTrip.whole, Nat.reduceSub] <;> rfl
  change decodeByMajor ((encVfmaxF d a b m).extractLsb' 26 6) (encVfmaxF d a b m) = _
  rw [hm]
  have ho : (encVfmaxF d a b m).extractLsb' 0 7 = 0x8#7 := by
    simp (disch := decide) only [encVfmaxF, RoundTrip.low, RoundTrip.high, RoundTrip.whole, Nat.reduceSub] <;> rfl
  change decodeMajor24Op ((encVfmaxF d a b m).extractLsb' 0 7) (encVfmaxF d a b m) = _
  rw [ho]
  change ((if (encVfmaxF d a b m).extractLsb' 7 1 == 0x0#1 then some (.vfmaxF ((encVfmaxF d a b m).extractLsb' 21 5) ((encVfmaxF d a b m).extractLsb' 16 5) ((encVfmaxF d a b m).extractLsb' 11 5) ((encVfmaxF d a b m).extractLsb' 8 3)) else none) : Option Instr) = _
  simp (disch := decide) only [encVfmaxF, RoundTrip.low, RoundTrip.high, RoundTrip.whole, Nat.reduceSub] <;> rfl
theorem RoundTrip.vfeqV (d : BitVec 5) (a : BitVec 5) (b : BitVec 5) (m : BitVec 3) (l : BitVec 1) : RoundTrip.Statement (.vfeqV d a b m l) := fun _ => by
  have hm : (encVfeqV d a b m l).extractLsb' 26 6 = 0x23#6 := by
    simp (disch := decide) only [encVfeqV, RoundTrip.low, RoundTrip.high, RoundTrip.whole, Nat.reduceSub] <;> rfl
  change decodeByMajor ((encVfeqV d a b m l).extractLsb' 26 6) (encVfeqV d a b m l) = _
  rw [hm]
  have ho : (encVfeqV d a b m l).extractLsb' 0 7 = 0x10#7 := by
    simp (disch := decide) only [encVfeqV, RoundTrip.low, RoundTrip.high, RoundTrip.whole, Nat.reduceSub] <;> rfl
  change decodeMajor23Op ((encVfeqV d a b m l).extractLsb' 0 7) (encVfeqV d a b m l) = _
  rw [ho]
  change (some (.vfeqV ((encVfeqV d a b m l).extractLsb' 21 5) ((encVfeqV d a b m l).extractLsb' 16 5) ((encVfeqV d a b m l).extractLsb' 11 5) ((encVfeqV d a b m l).extractLsb' 8 3) ((encVfeqV d a b m l).extractLsb' 7 1)) : Option Instr) = _
  simp (disch := decide) only [encVfeqV, RoundTrip.low, RoundTrip.high, RoundTrip.whole, Nat.reduceSub] <;> rfl
theorem RoundTrip.vfeqF (d : BitVec 5) (a : BitVec 5) (b : BitVec 5) (m : BitVec 3) : RoundTrip.Statement (.vfeqF d a b m) := fun _ => by
  have hm : (encVfeqF d a b m).extractLsb' 26 6 = 0x24#6 := by
    simp (disch := decide) only [encVfeqF, RoundTrip.low, RoundTrip.high, RoundTrip.whole, Nat.reduceSub] <;> rfl
  change decodeByMajor ((encVfeqF d a b m).extractLsb' 26 6) (encVfeqF d a b m) = _
  rw [hm]
  have ho : (encVfeqF d a b m).extractLsb' 0 7 = 0x10#7 := by
    simp (disch := decide) only [encVfeqF, RoundTrip.low, RoundTrip.high, RoundTrip.whole, Nat.reduceSub] <;> rfl
  change decodeMajor24Op ((encVfeqF d a b m).extractLsb' 0 7) (encVfeqF d a b m) = _
  rw [ho]
  change ((if (encVfeqF d a b m).extractLsb' 7 1 == 0x0#1 then some (.vfeqF ((encVfeqF d a b m).extractLsb' 21 5) ((encVfeqF d a b m).extractLsb' 16 5) ((encVfeqF d a b m).extractLsb' 11 5) ((encVfeqF d a b m).extractLsb' 8 3)) else none) : Option Instr) = _
  simp (disch := decide) only [encVfeqF, RoundTrip.low, RoundTrip.high, RoundTrip.whole, Nat.reduceSub] <;> rfl
theorem RoundTrip.vfltV (d : BitVec 5) (a : BitVec 5) (b : BitVec 5) (m : BitVec 3) (l : BitVec 1) : RoundTrip.Statement (.vfltV d a b m l) := fun _ => by
  have hm : (encVfltV d a b m l).extractLsb' 26 6 = 0x23#6 := by
    simp (disch := decide) only [encVfltV, RoundTrip.low, RoundTrip.high, RoundTrip.whole, Nat.reduceSub] <;> rfl
  change decodeByMajor ((encVfltV d a b m l).extractLsb' 26 6) (encVfltV d a b m l) = _
  rw [hm]
  have ho : (encVfltV d a b m l).extractLsb' 0 7 = 0x11#7 := by
    simp (disch := decide) only [encVfltV, RoundTrip.low, RoundTrip.high, RoundTrip.whole, Nat.reduceSub] <;> rfl
  change decodeMajor23Op ((encVfltV d a b m l).extractLsb' 0 7) (encVfltV d a b m l) = _
  rw [ho]
  change (some (.vfltV ((encVfltV d a b m l).extractLsb' 21 5) ((encVfltV d a b m l).extractLsb' 16 5) ((encVfltV d a b m l).extractLsb' 11 5) ((encVfltV d a b m l).extractLsb' 8 3) ((encVfltV d a b m l).extractLsb' 7 1)) : Option Instr) = _
  simp (disch := decide) only [encVfltV, RoundTrip.low, RoundTrip.high, RoundTrip.whole, Nat.reduceSub] <;> rfl
theorem RoundTrip.vfltF (d : BitVec 5) (a : BitVec 5) (b : BitVec 5) (m : BitVec 3) : RoundTrip.Statement (.vfltF d a b m) := fun _ => by
  have hm : (encVfltF d a b m).extractLsb' 26 6 = 0x24#6 := by
    simp (disch := decide) only [encVfltF, RoundTrip.low, RoundTrip.high, RoundTrip.whole, Nat.reduceSub] <;> rfl
  change decodeByMajor ((encVfltF d a b m).extractLsb' 26 6) (encVfltF d a b m) = _
  rw [hm]
  have ho : (encVfltF d a b m).extractLsb' 0 7 = 0x11#7 := by
    simp (disch := decide) only [encVfltF, RoundTrip.low, RoundTrip.high, RoundTrip.whole, Nat.reduceSub] <;> rfl
  change decodeMajor24Op ((encVfltF d a b m).extractLsb' 0 7) (encVfltF d a b m) = _
  rw [ho]
  change ((if (encVfltF d a b m).extractLsb' 7 1 == 0x0#1 then some (.vfltF ((encVfltF d a b m).extractLsb' 21 5) ((encVfltF d a b m).extractLsb' 16 5) ((encVfltF d a b m).extractLsb' 11 5) ((encVfltF d a b m).extractLsb' 8 3)) else none) : Option Instr) = _
  simp (disch := decide) only [encVfltF, RoundTrip.low, RoundTrip.high, RoundTrip.whole, Nat.reduceSub] <;> rfl
theorem RoundTrip.vfleV (d : BitVec 5) (a : BitVec 5) (b : BitVec 5) (m : BitVec 3) (l : BitVec 1) : RoundTrip.Statement (.vfleV d a b m l) := fun _ => by
  have hm : (encVfleV d a b m l).extractLsb' 26 6 = 0x23#6 := by
    simp (disch := decide) only [encVfleV, RoundTrip.low, RoundTrip.high, RoundTrip.whole, Nat.reduceSub] <;> rfl
  change decodeByMajor ((encVfleV d a b m l).extractLsb' 26 6) (encVfleV d a b m l) = _
  rw [hm]
  have ho : (encVfleV d a b m l).extractLsb' 0 7 = 0x12#7 := by
    simp (disch := decide) only [encVfleV, RoundTrip.low, RoundTrip.high, RoundTrip.whole, Nat.reduceSub] <;> rfl
  change decodeMajor23Op ((encVfleV d a b m l).extractLsb' 0 7) (encVfleV d a b m l) = _
  rw [ho]
  change (some (.vfleV ((encVfleV d a b m l).extractLsb' 21 5) ((encVfleV d a b m l).extractLsb' 16 5) ((encVfleV d a b m l).extractLsb' 11 5) ((encVfleV d a b m l).extractLsb' 8 3) ((encVfleV d a b m l).extractLsb' 7 1)) : Option Instr) = _
  simp (disch := decide) only [encVfleV, RoundTrip.low, RoundTrip.high, RoundTrip.whole, Nat.reduceSub] <;> rfl
theorem RoundTrip.vfleF (d : BitVec 5) (a : BitVec 5) (b : BitVec 5) (m : BitVec 3) : RoundTrip.Statement (.vfleF d a b m) := fun _ => by
  have hm : (encVfleF d a b m).extractLsb' 26 6 = 0x24#6 := by
    simp (disch := decide) only [encVfleF, RoundTrip.low, RoundTrip.high, RoundTrip.whole, Nat.reduceSub] <;> rfl
  change decodeByMajor ((encVfleF d a b m).extractLsb' 26 6) (encVfleF d a b m) = _
  rw [hm]
  have ho : (encVfleF d a b m).extractLsb' 0 7 = 0x12#7 := by
    simp (disch := decide) only [encVfleF, RoundTrip.low, RoundTrip.high, RoundTrip.whole, Nat.reduceSub] <;> rfl
  change decodeMajor24Op ((encVfleF d a b m).extractLsb' 0 7) (encVfleF d a b m) = _
  rw [ho]
  change ((if (encVfleF d a b m).extractLsb' 7 1 == 0x0#1 then some (.vfleF ((encVfleF d a b m).extractLsb' 21 5) ((encVfleF d a b m).extractLsb' 16 5) ((encVfleF d a b m).extractLsb' 11 5) ((encVfleF d a b m).extractLsb' 8 3)) else none) : Option Instr) = _
  simp (disch := decide) only [encVfleF, RoundTrip.low, RoundTrip.high, RoundTrip.whole, Nat.reduceSub] <;> rfl
theorem RoundTrip.vfgtV (d : BitVec 5) (a : BitVec 5) (b : BitVec 5) (m : BitVec 3) (l : BitVec 1) : RoundTrip.Statement (.vfgtV d a b m l) := fun _ => by
  have hm : (encVfgtV d a b m l).extractLsb' 26 6 = 0x23#6 := by
    simp (disch := decide) only [encVfgtV, RoundTrip.low, RoundTrip.high, RoundTrip.whole, Nat.reduceSub] <;> rfl
  change decodeByMajor ((encVfgtV d a b m l).extractLsb' 26 6) (encVfgtV d a b m l) = _
  rw [hm]
  have ho : (encVfgtV d a b m l).extractLsb' 0 7 = 0x13#7 := by
    simp (disch := decide) only [encVfgtV, RoundTrip.low, RoundTrip.high, RoundTrip.whole, Nat.reduceSub] <;> rfl
  change decodeMajor23Op ((encVfgtV d a b m l).extractLsb' 0 7) (encVfgtV d a b m l) = _
  rw [ho]
  change (some (.vfgtV ((encVfgtV d a b m l).extractLsb' 21 5) ((encVfgtV d a b m l).extractLsb' 16 5) ((encVfgtV d a b m l).extractLsb' 11 5) ((encVfgtV d a b m l).extractLsb' 8 3) ((encVfgtV d a b m l).extractLsb' 7 1)) : Option Instr) = _
  simp (disch := decide) only [encVfgtV, RoundTrip.low, RoundTrip.high, RoundTrip.whole, Nat.reduceSub] <;> rfl
theorem RoundTrip.vfgtF (d : BitVec 5) (a : BitVec 5) (b : BitVec 5) (m : BitVec 3) : RoundTrip.Statement (.vfgtF d a b m) := fun _ => by
  have hm : (encVfgtF d a b m).extractLsb' 26 6 = 0x24#6 := by
    simp (disch := decide) only [encVfgtF, RoundTrip.low, RoundTrip.high, RoundTrip.whole, Nat.reduceSub] <;> rfl
  change decodeByMajor ((encVfgtF d a b m).extractLsb' 26 6) (encVfgtF d a b m) = _
  rw [hm]
  have ho : (encVfgtF d a b m).extractLsb' 0 7 = 0x13#7 := by
    simp (disch := decide) only [encVfgtF, RoundTrip.low, RoundTrip.high, RoundTrip.whole, Nat.reduceSub] <;> rfl
  change decodeMajor24Op ((encVfgtF d a b m).extractLsb' 0 7) (encVfgtF d a b m) = _
  rw [ho]
  change ((if (encVfgtF d a b m).extractLsb' 7 1 == 0x0#1 then some (.vfgtF ((encVfgtF d a b m).extractLsb' 21 5) ((encVfgtF d a b m).extractLsb' 16 5) ((encVfgtF d a b m).extractLsb' 11 5) ((encVfgtF d a b m).extractLsb' 8 3)) else none) : Option Instr) = _
  simp (disch := decide) only [encVfgtF, RoundTrip.low, RoundTrip.high, RoundTrip.whole, Nat.reduceSub] <;> rfl
theorem RoundTrip.vfgeV (d : BitVec 5) (a : BitVec 5) (b : BitVec 5) (m : BitVec 3) (l : BitVec 1) : RoundTrip.Statement (.vfgeV d a b m l) := fun _ => by
  have hm : (encVfgeV d a b m l).extractLsb' 26 6 = 0x23#6 := by
    simp (disch := decide) only [encVfgeV, RoundTrip.low, RoundTrip.high, RoundTrip.whole, Nat.reduceSub] <;> rfl
  change decodeByMajor ((encVfgeV d a b m l).extractLsb' 26 6) (encVfgeV d a b m l) = _
  rw [hm]
  have ho : (encVfgeV d a b m l).extractLsb' 0 7 = 0x14#7 := by
    simp (disch := decide) only [encVfgeV, RoundTrip.low, RoundTrip.high, RoundTrip.whole, Nat.reduceSub] <;> rfl
  change decodeMajor23Op ((encVfgeV d a b m l).extractLsb' 0 7) (encVfgeV d a b m l) = _
  rw [ho]
  change (some (.vfgeV ((encVfgeV d a b m l).extractLsb' 21 5) ((encVfgeV d a b m l).extractLsb' 16 5) ((encVfgeV d a b m l).extractLsb' 11 5) ((encVfgeV d a b m l).extractLsb' 8 3) ((encVfgeV d a b m l).extractLsb' 7 1)) : Option Instr) = _
  simp (disch := decide) only [encVfgeV, RoundTrip.low, RoundTrip.high, RoundTrip.whole, Nat.reduceSub] <;> rfl
theorem RoundTrip.vfgeF (d : BitVec 5) (a : BitVec 5) (b : BitVec 5) (m : BitVec 3) : RoundTrip.Statement (.vfgeF d a b m) := fun _ => by
  have hm : (encVfgeF d a b m).extractLsb' 26 6 = 0x24#6 := by
    simp (disch := decide) only [encVfgeF, RoundTrip.low, RoundTrip.high, RoundTrip.whole, Nat.reduceSub] <;> rfl
  change decodeByMajor ((encVfgeF d a b m).extractLsb' 26 6) (encVfgeF d a b m) = _
  rw [hm]
  have ho : (encVfgeF d a b m).extractLsb' 0 7 = 0x14#7 := by
    simp (disch := decide) only [encVfgeF, RoundTrip.low, RoundTrip.high, RoundTrip.whole, Nat.reduceSub] <;> rfl
  change decodeMajor24Op ((encVfgeF d a b m).extractLsb' 0 7) (encVfgeF d a b m) = _
  rw [ho]
  change ((if (encVfgeF d a b m).extractLsb' 7 1 == 0x0#1 then some (.vfgeF ((encVfgeF d a b m).extractLsb' 21 5) ((encVfgeF d a b m).extractLsb' 16 5) ((encVfgeF d a b m).extractLsb' 11 5) ((encVfgeF d a b m).extractLsb' 8 3)) else none) : Option Instr) = _
  simp (disch := decide) only [encVfgeF, RoundTrip.low, RoundTrip.high, RoundTrip.whole, Nat.reduceSub] <;> rfl
theorem RoundTrip.vfcvt (d : BitVec 5) (a : BitVec 5) (c : BitVec 5) (m : BitVec 3) : RoundTrip.Statement (.vfcvt d a c m) := fun _ => by
  have hm : (encVfcvt d a c m).extractLsb' 26 6 = 0x23#6 := by
    simp (disch := decide) only [encVfcvt, RoundTrip.low, RoundTrip.high, RoundTrip.whole, Nat.reduceSub] <;> rfl
  change decodeByMajor ((encVfcvt d a c m).extractLsb' 26 6) (encVfcvt d a c m) = _
  rw [hm]
  have ho : (encVfcvt d a c m).extractLsb' 0 7 = 0x18#7 := by
    simp (disch := decide) only [encVfcvt, RoundTrip.low, RoundTrip.high, RoundTrip.whole, Nat.reduceSub] <;> rfl
  change decodeMajor23Op ((encVfcvt d a c m).extractLsb' 0 7) (encVfcvt d a c m) = _
  rw [ho]
  change ((if (encVfcvt d a c m).extractLsb' 7 1 == 0x0#1 then some (.vfcvt ((encVfcvt d a c m).extractLsb' 21 5) ((encVfcvt d a c m).extractLsb' 16 5) ((encVfcvt d a c m).extractLsb' 11 5) ((encVfcvt d a c m).extractLsb' 8 3)) else none) : Option Instr) = _
  simp (disch := decide) only [encVfcvt, RoundTrip.low, RoundTrip.high, RoundTrip.whole, Nat.reduceSub] <;> rfl
theorem RoundTrip.vfpack (d : BitVec 5) (a : BitVec 5) (c : BitVec 5) (m : BitVec 3) : RoundTrip.Statement (.vfpack d a c m) := fun _ => by
  have hm : (encVfpack d a c m).extractLsb' 26 6 = 0x23#6 := by
    simp (disch := decide) only [encVfpack, RoundTrip.low, RoundTrip.high, RoundTrip.whole, Nat.reduceSub] <;> rfl
  change decodeByMajor ((encVfpack d a c m).extractLsb' 26 6) (encVfpack d a c m) = _
  rw [hm]
  have ho : (encVfpack d a c m).extractLsb' 0 7 = 0x19#7 := by
    simp (disch := decide) only [encVfpack, RoundTrip.low, RoundTrip.high, RoundTrip.whole, Nat.reduceSub] <;> rfl
  change decodeMajor23Op ((encVfpack d a c m).extractLsb' 0 7) (encVfpack d a c m) = _
  rw [ho]
  change ((if (encVfpack d a c m).extractLsb' 7 1 == 0x0#1 then some (.vfpack ((encVfpack d a c m).extractLsb' 21 5) ((encVfpack d a c m).extractLsb' 16 5) ((encVfpack d a c m).extractLsb' 11 5) ((encVfpack d a c m).extractLsb' 8 3)) else none) : Option Instr) = _
  simp (disch := decide) only [encVfpack, RoundTrip.low, RoundTrip.high, RoundTrip.whole, Nat.reduceSub] <;> rfl
theorem RoundTrip.vfunpack (d : BitVec 5) (a : BitVec 5) (c : BitVec 5) (m : BitVec 3) : RoundTrip.Statement (.vfunpack d a c m) := fun _ => by
  have hm : (encVfunpack d a c m).extractLsb' 26 6 = 0x23#6 := by
    simp (disch := decide) only [encVfunpack, RoundTrip.low, RoundTrip.high, RoundTrip.whole, Nat.reduceSub] <;> rfl
  change decodeByMajor ((encVfunpack d a c m).extractLsb' 26 6) (encVfunpack d a c m) = _
  rw [hm]
  have ho : (encVfunpack d a c m).extractLsb' 0 7 = 0x1a#7 := by
    simp (disch := decide) only [encVfunpack, RoundTrip.low, RoundTrip.high, RoundTrip.whole, Nat.reduceSub] <;> rfl
  change decodeMajor23Op ((encVfunpack d a c m).extractLsb' 0 7) (encVfunpack d a c m) = _
  rw [ho]
  change ((if (encVfunpack d a c m).extractLsb' 7 1 == 0x0#1 then some (.vfunpack ((encVfunpack d a c m).extractLsb' 21 5) ((encVfunpack d a c m).extractLsb' 16 5) ((encVfunpack d a c m).extractLsb' 11 5) ((encVfunpack d a c m).extractLsb' 8 3)) else none) : Option Instr) = _
  simp (disch := decide) only [encVfunpack, RoundTrip.low, RoundTrip.high, RoundTrip.whole, Nat.reduceSub] <;> rfl
theorem RoundTrip.vfcvti (d : BitVec 5) (a : BitVec 5) (c : BitVec 5) (m : BitVec 3) : RoundTrip.Statement (.vfcvti d a c m) := fun _ => by
  have hm : (encVfcvti d a c m).extractLsb' 26 6 = 0x23#6 := by
    simp (disch := decide) only [encVfcvti, RoundTrip.low, RoundTrip.high, RoundTrip.whole, Nat.reduceSub] <;> rfl
  change decodeByMajor ((encVfcvti d a c m).extractLsb' 26 6) (encVfcvti d a c m) = _
  rw [hm]
  have ho : (encVfcvti d a c m).extractLsb' 0 7 = 0x1b#7 := by
    simp (disch := decide) only [encVfcvti, RoundTrip.low, RoundTrip.high, RoundTrip.whole, Nat.reduceSub] <;> rfl
  change decodeMajor23Op ((encVfcvti d a c m).extractLsb' 0 7) (encVfcvti d a c m) = _
  rw [ho]
  change ((if (encVfcvti d a c m).extractLsb' 7 1 == 0x0#1 then some (.vfcvti ((encVfcvti d a c m).extractLsb' 21 5) ((encVfcvti d a c m).extractLsb' 16 5) ((encVfcvti d a c m).extractLsb' 11 5) ((encVfcvti d a c m).extractLsb' 8 3)) else none) : Option Instr) = _
  simp (disch := decide) only [encVfcvti, RoundTrip.low, RoundTrip.high, RoundTrip.whole, Nat.reduceSub] <;> rfl
theorem RoundTrip.vicvtf (d : BitVec 5) (a : BitVec 5) (c : BitVec 5) (m : BitVec 3) : RoundTrip.Statement (.vicvtf d a c m) := fun _ => by
  have hm : (encVicvtf d a c m).extractLsb' 26 6 = 0x23#6 := by
    simp (disch := decide) only [encVicvtf, RoundTrip.low, RoundTrip.high, RoundTrip.whole, Nat.reduceSub] <;> rfl
  change decodeByMajor ((encVicvtf d a c m).extractLsb' 26 6) (encVicvtf d a c m) = _
  rw [hm]
  have ho : (encVicvtf d a c m).extractLsb' 0 7 = 0x1c#7 := by
    simp (disch := decide) only [encVicvtf, RoundTrip.low, RoundTrip.high, RoundTrip.whole, Nat.reduceSub] <;> rfl
  change decodeMajor23Op ((encVicvtf d a c m).extractLsb' 0 7) (encVicvtf d a c m) = _
  rw [ho]
  change ((if (encVicvtf d a c m).extractLsb' 7 1 == 0x0#1 then some (.vicvtf ((encVicvtf d a c m).extractLsb' 21 5) ((encVicvtf d a c m).extractLsb' 16 5) ((encVicvtf d a c m).extractLsb' 11 5) ((encVicvtf d a c m).extractLsb' 8 3)) else none) : Option Instr) = _
  simp (disch := decide) only [encVicvtf, RoundTrip.low, RoundTrip.high, RoundTrip.whole, Nat.reduceSub] <;> rfl
theorem RoundTrip.vfredsum (d : BitVec 5) (a : BitVec 5) (m : BitVec 3) : RoundTrip.Statement (.vfredsum d a m) := fun _ => by
  have hm : (encVfredsum d a m).extractLsb' 26 6 = 0x23#6 := by
    simp (disch := decide) only [encVfredsum, RoundTrip.low, RoundTrip.high, RoundTrip.whole, Nat.reduceSub] <;> rfl
  change decodeByMajor ((encVfredsum d a m).extractLsb' 26 6) (encVfredsum d a m) = _
  rw [hm]
  have ho : (encVfredsum d a m).extractLsb' 0 7 = 0x20#7 := by
    simp (disch := decide) only [encVfredsum, RoundTrip.low, RoundTrip.high, RoundTrip.whole, Nat.reduceSub] <;> rfl
  change decodeMajor23Op ((encVfredsum d a m).extractLsb' 0 7) (encVfredsum d a m) = _
  rw [ho]
  change ((if (encVfredsum d a m).extractLsb' 7 1 == 0x0#1 && (encVfredsum d a m).extractLsb' 11 5 == 0x0#5 then some (.vfredsum ((encVfredsum d a m).extractLsb' 21 5) ((encVfredsum d a m).extractLsb' 16 5) ((encVfredsum d a m).extractLsb' 8 3)) else none) : Option Instr) = _
  simp (disch := decide) only [encVfredsum, RoundTrip.low, RoundTrip.high, RoundTrip.whole, Nat.reduceSub] <;> rfl
theorem RoundTrip.vfredmax (d : BitVec 5) (a : BitVec 5) (m : BitVec 3) : RoundTrip.Statement (.vfredmax d a m) := fun _ => by
  have hm : (encVfredmax d a m).extractLsb' 26 6 = 0x23#6 := by
    simp (disch := decide) only [encVfredmax, RoundTrip.low, RoundTrip.high, RoundTrip.whole, Nat.reduceSub] <;> rfl
  change decodeByMajor ((encVfredmax d a m).extractLsb' 26 6) (encVfredmax d a m) = _
  rw [hm]
  have ho : (encVfredmax d a m).extractLsb' 0 7 = 0x21#7 := by
    simp (disch := decide) only [encVfredmax, RoundTrip.low, RoundTrip.high, RoundTrip.whole, Nat.reduceSub] <;> rfl
  change decodeMajor23Op ((encVfredmax d a m).extractLsb' 0 7) (encVfredmax d a m) = _
  rw [ho]
  change ((if (encVfredmax d a m).extractLsb' 7 1 == 0x0#1 && (encVfredmax d a m).extractLsb' 11 5 == 0x0#5 then some (.vfredmax ((encVfredmax d a m).extractLsb' 21 5) ((encVfredmax d a m).extractLsb' 16 5) ((encVfredmax d a m).extractLsb' 8 3)) else none) : Option Instr) = _
  simp (disch := decide) only [encVfredmax, RoundTrip.low, RoundTrip.high, RoundTrip.whole, Nat.reduceSub] <;> rfl
theorem RoundTrip.vfexp2 (d : BitVec 5) (a : BitVec 5) (m : BitVec 3) : RoundTrip.Statement (.vfexp2 d a m) := fun _ => by
  have hm : (encVfexp2 d a m).extractLsb' 26 6 = 0x23#6 := by
    simp (disch := decide) only [encVfexp2, RoundTrip.low, RoundTrip.high, RoundTrip.whole, Nat.reduceSub] <;> rfl
  change decodeByMajor ((encVfexp2 d a m).extractLsb' 26 6) (encVfexp2 d a m) = _
  rw [hm]
  have ho : (encVfexp2 d a m).extractLsb' 0 7 = 0x28#7 := by
    simp (disch := decide) only [encVfexp2, RoundTrip.low, RoundTrip.high, RoundTrip.whole, Nat.reduceSub] <;> rfl
  change decodeMajor23Op ((encVfexp2 d a m).extractLsb' 0 7) (encVfexp2 d a m) = _
  rw [ho]
  change ((if (encVfexp2 d a m).extractLsb' 7 1 == 0x0#1 && (encVfexp2 d a m).extractLsb' 11 5 == 0x0#5 then some (.vfexp2 ((encVfexp2 d a m).extractLsb' 21 5) ((encVfexp2 d a m).extractLsb' 16 5) ((encVfexp2 d a m).extractLsb' 8 3)) else none) : Option Instr) = _
  simp (disch := decide) only [encVfexp2, RoundTrip.low, RoundTrip.high, RoundTrip.whole, Nat.reduceSub] <;> rfl
theorem RoundTrip.vflog2 (d : BitVec 5) (a : BitVec 5) (m : BitVec 3) : RoundTrip.Statement (.vflog2 d a m) := fun _ => by
  have hm : (encVflog2 d a m).extractLsb' 26 6 = 0x23#6 := by
    simp (disch := decide) only [encVflog2, RoundTrip.low, RoundTrip.high, RoundTrip.whole, Nat.reduceSub] <;> rfl
  change decodeByMajor ((encVflog2 d a m).extractLsb' 26 6) (encVflog2 d a m) = _
  rw [hm]
  have ho : (encVflog2 d a m).extractLsb' 0 7 = 0x29#7 := by
    simp (disch := decide) only [encVflog2, RoundTrip.low, RoundTrip.high, RoundTrip.whole, Nat.reduceSub] <;> rfl
  change decodeMajor23Op ((encVflog2 d a m).extractLsb' 0 7) (encVflog2 d a m) = _
  rw [ho]
  change ((if (encVflog2 d a m).extractLsb' 7 1 == 0x0#1 && (encVflog2 d a m).extractLsb' 11 5 == 0x0#5 then some (.vflog2 ((encVflog2 d a m).extractLsb' 21 5) ((encVflog2 d a m).extractLsb' 16 5) ((encVflog2 d a m).extractLsb' 8 3)) else none) : Option Instr) = _
  simp (disch := decide) only [encVflog2, RoundTrip.low, RoundTrip.high, RoundTrip.whole, Nat.reduceSub] <;> rfl
theorem RoundTrip.vfrcp (d : BitVec 5) (a : BitVec 5) (m : BitVec 3) : RoundTrip.Statement (.vfrcp d a m) := fun _ => by
  have hm : (encVfrcp d a m).extractLsb' 26 6 = 0x23#6 := by
    simp (disch := decide) only [encVfrcp, RoundTrip.low, RoundTrip.high, RoundTrip.whole, Nat.reduceSub] <;> rfl
  change decodeByMajor ((encVfrcp d a m).extractLsb' 26 6) (encVfrcp d a m) = _
  rw [hm]
  have ho : (encVfrcp d a m).extractLsb' 0 7 = 0x2a#7 := by
    simp (disch := decide) only [encVfrcp, RoundTrip.low, RoundTrip.high, RoundTrip.whole, Nat.reduceSub] <;> rfl
  change decodeMajor23Op ((encVfrcp d a m).extractLsb' 0 7) (encVfrcp d a m) = _
  rw [ho]
  change ((if (encVfrcp d a m).extractLsb' 7 1 == 0x0#1 && (encVfrcp d a m).extractLsb' 11 5 == 0x0#5 then some (.vfrcp ((encVfrcp d a m).extractLsb' 21 5) ((encVfrcp d a m).extractLsb' 16 5) ((encVfrcp d a m).extractLsb' 8 3)) else none) : Option Instr) = _
  simp (disch := decide) only [encVfrcp, RoundTrip.low, RoundTrip.high, RoundTrip.whole, Nat.reduceSub] <;> rfl
theorem RoundTrip.vfrsq (d : BitVec 5) (a : BitVec 5) (m : BitVec 3) : RoundTrip.Statement (.vfrsq d a m) := fun _ => by
  have hm : (encVfrsq d a m).extractLsb' 26 6 = 0x23#6 := by
    simp (disch := decide) only [encVfrsq, RoundTrip.low, RoundTrip.high, RoundTrip.whole, Nat.reduceSub] <;> rfl
  change decodeByMajor ((encVfrsq d a m).extractLsb' 26 6) (encVfrsq d a m) = _
  rw [hm]
  have ho : (encVfrsq d a m).extractLsb' 0 7 = 0x2b#7 := by
    simp (disch := decide) only [encVfrsq, RoundTrip.low, RoundTrip.high, RoundTrip.whole, Nat.reduceSub] <;> rfl
  change decodeMajor23Op ((encVfrsq d a m).extractLsb' 0 7) (encVfrsq d a m) = _
  rw [ho]
  change ((if (encVfrsq d a m).extractLsb' 7 1 == 0x0#1 && (encVfrsq d a m).extractLsb' 11 5 == 0x0#5 then some (.vfrsq ((encVfrsq d a m).extractLsb' 21 5) ((encVfrsq d a m).extractLsb' 16 5) ((encVfrsq d a m).extractLsb' 8 3)) else none) : Option Instr) = _
  simp (disch := decide) only [encVfrsq, RoundTrip.low, RoundTrip.high, RoundTrip.whole, Nat.reduceSub] <;> rfl
theorem RoundTrip.mand (d : BitVec 5) (a : BitVec 5) (b : BitVec 5) : RoundTrip.Statement (.mand d a b) := fun _ => by
  have hm : (encMand d a b).extractLsb' 26 6 = 0x25#6 := by
    simp (disch := decide) only [encMand, RoundTrip.low, RoundTrip.high, RoundTrip.whole, Nat.reduceSub] <;> rfl
  change decodeByMajor ((encMand d a b).extractLsb' 26 6) (encMand d a b) = _
  rw [hm]
  have ho : (encMand d a b).extractLsb' 0 7 = 0x0#7 := by
    simp (disch := decide) only [encMand, RoundTrip.low, RoundTrip.high, RoundTrip.whole, Nat.reduceSub] <;> rfl
  change decodeMajor25Op ((encMand d a b).extractLsb' 0 7) (encMand d a b) = _
  rw [ho]
  change ((if (encMand d a b).extractLsb' 7 4 == 0x0#4 then some (.mand ((encMand d a b).extractLsb' 21 5) ((encMand d a b).extractLsb' 16 5) ((encMand d a b).extractLsb' 11 5)) else none) : Option Instr) = _
  simp (disch := decide) only [encMand, RoundTrip.low, RoundTrip.high, RoundTrip.whole, Nat.reduceSub] <;> rfl
theorem RoundTrip.mor (d : BitVec 5) (a : BitVec 5) (b : BitVec 5) : RoundTrip.Statement (.mor d a b) := fun _ => by
  have hm : (encMor d a b).extractLsb' 26 6 = 0x25#6 := by
    simp (disch := decide) only [encMor, RoundTrip.low, RoundTrip.high, RoundTrip.whole, Nat.reduceSub] <;> rfl
  change decodeByMajor ((encMor d a b).extractLsb' 26 6) (encMor d a b) = _
  rw [hm]
  have ho : (encMor d a b).extractLsb' 0 7 = 0x1#7 := by
    simp (disch := decide) only [encMor, RoundTrip.low, RoundTrip.high, RoundTrip.whole, Nat.reduceSub] <;> rfl
  change decodeMajor25Op ((encMor d a b).extractLsb' 0 7) (encMor d a b) = _
  rw [ho]
  change ((if (encMor d a b).extractLsb' 7 4 == 0x0#4 then some (.mor ((encMor d a b).extractLsb' 21 5) ((encMor d a b).extractLsb' 16 5) ((encMor d a b).extractLsb' 11 5)) else none) : Option Instr) = _
  simp (disch := decide) only [encMor, RoundTrip.low, RoundTrip.high, RoundTrip.whole, Nat.reduceSub] <;> rfl
theorem RoundTrip.mxor (d : BitVec 5) (a : BitVec 5) (b : BitVec 5) : RoundTrip.Statement (.mxor d a b) := fun _ => by
  have hm : (encMxor d a b).extractLsb' 26 6 = 0x25#6 := by
    simp (disch := decide) only [encMxor, RoundTrip.low, RoundTrip.high, RoundTrip.whole, Nat.reduceSub] <;> rfl
  change decodeByMajor ((encMxor d a b).extractLsb' 26 6) (encMxor d a b) = _
  rw [hm]
  have ho : (encMxor d a b).extractLsb' 0 7 = 0x2#7 := by
    simp (disch := decide) only [encMxor, RoundTrip.low, RoundTrip.high, RoundTrip.whole, Nat.reduceSub] <;> rfl
  change decodeMajor25Op ((encMxor d a b).extractLsb' 0 7) (encMxor d a b) = _
  rw [ho]
  change ((if (encMxor d a b).extractLsb' 7 4 == 0x0#4 then some (.mxor ((encMxor d a b).extractLsb' 21 5) ((encMxor d a b).extractLsb' 16 5) ((encMxor d a b).extractLsb' 11 5)) else none) : Option Instr) = _
  simp (disch := decide) only [encMxor, RoundTrip.low, RoundTrip.high, RoundTrip.whole, Nat.reduceSub] <;> rfl
theorem RoundTrip.mnot (d : BitVec 5) (a : BitVec 5) : RoundTrip.Statement (.mnot d a) := fun _ => by
  have hm : (encMnot d a).extractLsb' 26 6 = 0x25#6 := by
    simp (disch := decide) only [encMnot, RoundTrip.low, RoundTrip.high, RoundTrip.whole, Nat.reduceSub] <;> rfl
  change decodeByMajor ((encMnot d a).extractLsb' 26 6) (encMnot d a) = _
  rw [hm]
  have ho : (encMnot d a).extractLsb' 0 7 = 0x3#7 := by
    simp (disch := decide) only [encMnot, RoundTrip.low, RoundTrip.high, RoundTrip.whole, Nat.reduceSub] <;> rfl
  change decodeMajor25Op ((encMnot d a).extractLsb' 0 7) (encMnot d a) = _
  rw [ho]
  change ((if (encMnot d a).extractLsb' 7 9 == 0x0#9 then some (.mnot ((encMnot d a).extractLsb' 21 5) ((encMnot d a).extractLsb' 16 5)) else none) : Option Instr) = _
  simp (disch := decide) only [encMnot, RoundTrip.low, RoundTrip.high, RoundTrip.whole, Nat.reduceSub] <;> rfl
theorem RoundTrip.mpopc (d : BitVec 5) (a : BitVec 5) : RoundTrip.Statement (.mpopc d a) := fun _ => by
  have hm : (encMpopc d a).extractLsb' 26 6 = 0x25#6 := by
    simp (disch := decide) only [encMpopc, RoundTrip.low, RoundTrip.high, RoundTrip.whole, Nat.reduceSub] <;> rfl
  change decodeByMajor ((encMpopc d a).extractLsb' 26 6) (encMpopc d a) = _
  rw [hm]
  have ho : (encMpopc d a).extractLsb' 0 7 = 0x4#7 := by
    simp (disch := decide) only [encMpopc, RoundTrip.low, RoundTrip.high, RoundTrip.whole, Nat.reduceSub] <;> rfl
  change decodeMajor25Op ((encMpopc d a).extractLsb' 0 7) (encMpopc d a) = _
  rw [ho]
  change ((if (encMpopc d a).extractLsb' 7 9 == 0x0#9 then some (.mpopc ((encMpopc d a).extractLsb' 21 5) ((encMpopc d a).extractLsb' 16 5)) else none) : Option Instr) = _
  simp (disch := decide) only [encMpopc, RoundTrip.low, RoundTrip.high, RoundTrip.whole, Nat.reduceSub] <;> rfl
theorem RoundTrip.mfirst (d : BitVec 5) (a : BitVec 5) : RoundTrip.Statement (.mfirst d a) := fun _ => by
  have hm : (encMfirst d a).extractLsb' 26 6 = 0x25#6 := by
    simp (disch := decide) only [encMfirst, RoundTrip.low, RoundTrip.high, RoundTrip.whole, Nat.reduceSub] <;> rfl
  change decodeByMajor ((encMfirst d a).extractLsb' 26 6) (encMfirst d a) = _
  rw [hm]
  have ho : (encMfirst d a).extractLsb' 0 7 = 0x5#7 := by
    simp (disch := decide) only [encMfirst, RoundTrip.low, RoundTrip.high, RoundTrip.whole, Nat.reduceSub] <;> rfl
  change decodeMajor25Op ((encMfirst d a).extractLsb' 0 7) (encMfirst d a) = _
  rw [ho]
  change ((if (encMfirst d a).extractLsb' 7 9 == 0x0#9 then some (.mfirst ((encMfirst d a).extractLsb' 21 5) ((encMfirst d a).extractLsb' 16 5)) else none) : Option Instr) = _
  simp (disch := decide) only [encMfirst, RoundTrip.low, RoundTrip.high, RoundTrip.whole, Nat.reduceSub] <;> rfl
theorem RoundTrip.iota (d : BitVec 5) (a : BitVec 5) : RoundTrip.Statement (.iota d a) := fun _ => by
  have hm : (encIota d a).extractLsb' 26 6 = 0x25#6 := by
    simp (disch := decide) only [encIota, RoundTrip.low, RoundTrip.high, RoundTrip.whole, Nat.reduceSub] <;> rfl
  change decodeByMajor ((encIota d a).extractLsb' 26 6) (encIota d a) = _
  rw [hm]
  have ho : (encIota d a).extractLsb' 0 7 = 0x6#7 := by
    simp (disch := decide) only [encIota, RoundTrip.low, RoundTrip.high, RoundTrip.whole, Nat.reduceSub] <;> rfl
  change decodeMajor25Op ((encIota d a).extractLsb' 0 7) (encIota d a) = _
  rw [ho]
  change ((if (encIota d a).extractLsb' 7 9 == 0x0#9 then some (.iota ((encIota d a).extractLsb' 21 5) ((encIota d a).extractLsb' 16 5)) else none) : Option Instr) = _
  simp (disch := decide) only [encIota, RoundTrip.low, RoundTrip.high, RoundTrip.whole, Nat.reduceSub] <;> rfl
theorem RoundTrip.vid (d : BitVec 5) : RoundTrip.Statement (.vid d) := fun _ => by
  have hm : (encVid d).extractLsb' 26 6 = 0x25#6 := by
    simp (disch := decide) only [encVid, RoundTrip.low, RoundTrip.high, RoundTrip.whole, Nat.reduceSub] <;> rfl
  change decodeByMajor ((encVid d).extractLsb' 26 6) (encVid d) = _
  rw [hm]
  have ho : (encVid d).extractLsb' 0 7 = 0x7#7 := by
    simp (disch := decide) only [encVid, RoundTrip.low, RoundTrip.high, RoundTrip.whole, Nat.reduceSub] <;> rfl
  change decodeMajor25Op ((encVid d).extractLsb' 0 7) (encVid d) = _
  rw [ho]
  change ((if (encVid d).extractLsb' 7 14 == 0x0#14 then some (.vid ((encVid d).extractLsb' 21 5)) else none) : Option Instr) = _
  simp (disch := decide) only [encVid, RoundTrip.low, RoundTrip.high, RoundTrip.whole, Nat.reduceSub] <;> rfl
theorem RoundTrip.slideupX (d : BitVec 5) (a : BitVec 5) (b : BitVec 5) (m : BitVec 3) : RoundTrip.Statement (.slideupX d a b m) := fun _ => by
  have hm : (encSlideupX d a b m).extractLsb' 26 6 = 0x25#6 := by
    simp (disch := decide) only [encSlideupX, RoundTrip.low, RoundTrip.high, RoundTrip.whole, Nat.reduceSub] <;> rfl
  change decodeByMajor ((encSlideupX d a b m).extractLsb' 26 6) (encSlideupX d a b m) = _
  rw [hm]
  have ho : (encSlideupX d a b m).extractLsb' 0 7 = 0x8#7 := by
    simp (disch := decide) only [encSlideupX, RoundTrip.low, RoundTrip.high, RoundTrip.whole, Nat.reduceSub] <;> rfl
  change decodeMajor25Op ((encSlideupX d a b m).extractLsb' 0 7) (encSlideupX d a b m) = _
  rw [ho]
  change ((if (encSlideupX d a b m).extractLsb' 7 1 == 0x0#1 then some (.slideupX ((encSlideupX d a b m).extractLsb' 21 5) ((encSlideupX d a b m).extractLsb' 16 5) ((encSlideupX d a b m).extractLsb' 11 5) ((encSlideupX d a b m).extractLsb' 8 3)) else none) : Option Instr) = _
  simp (disch := decide) only [encSlideupX, RoundTrip.low, RoundTrip.high, RoundTrip.whole, Nat.reduceSub] <;> rfl
theorem RoundTrip.slidednX (d : BitVec 5) (a : BitVec 5) (b : BitVec 5) (m : BitVec 3) : RoundTrip.Statement (.slidednX d a b m) := fun _ => by
  have hm : (encSlidednX d a b m).extractLsb' 26 6 = 0x25#6 := by
    simp (disch := decide) only [encSlidednX, RoundTrip.low, RoundTrip.high, RoundTrip.whole, Nat.reduceSub] <;> rfl
  change decodeByMajor ((encSlidednX d a b m).extractLsb' 26 6) (encSlidednX d a b m) = _
  rw [hm]
  have ho : (encSlidednX d a b m).extractLsb' 0 7 = 0x9#7 := by
    simp (disch := decide) only [encSlidednX, RoundTrip.low, RoundTrip.high, RoundTrip.whole, Nat.reduceSub] <;> rfl
  change decodeMajor25Op ((encSlidednX d a b m).extractLsb' 0 7) (encSlidednX d a b m) = _
  rw [ho]
  change ((if (encSlidednX d a b m).extractLsb' 7 1 == 0x0#1 then some (.slidednX ((encSlidednX d a b m).extractLsb' 21 5) ((encSlidednX d a b m).extractLsb' 16 5) ((encSlidednX d a b m).extractLsb' 11 5) ((encSlidednX d a b m).extractLsb' 8 3)) else none) : Option Instr) = _
  simp (disch := decide) only [encSlidednX, RoundTrip.low, RoundTrip.high, RoundTrip.whole, Nat.reduceSub] <;> rfl
theorem RoundTrip.slideupI (d : BitVec 5) (a : BitVec 5) (i : BitVec 5) (m : BitVec 3) : RoundTrip.Statement (.slideupI d a i m) := fun _ => by
  have hm : (encSlideupI d a i m).extractLsb' 26 6 = 0x25#6 := by
    simp (disch := decide) only [encSlideupI, RoundTrip.low, RoundTrip.high, RoundTrip.whole, Nat.reduceSub] <;> rfl
  change decodeByMajor ((encSlideupI d a i m).extractLsb' 26 6) (encSlideupI d a i m) = _
  rw [hm]
  have ho : (encSlideupI d a i m).extractLsb' 0 7 = 0xa#7 := by
    simp (disch := decide) only [encSlideupI, RoundTrip.low, RoundTrip.high, RoundTrip.whole, Nat.reduceSub] <;> rfl
  change decodeMajor25Op ((encSlideupI d a i m).extractLsb' 0 7) (encSlideupI d a i m) = _
  rw [ho]
  change ((if (encSlideupI d a i m).extractLsb' 7 1 == 0x0#1 then some (.slideupI ((encSlideupI d a i m).extractLsb' 21 5) ((encSlideupI d a i m).extractLsb' 16 5) ((encSlideupI d a i m).extractLsb' 11 5) ((encSlideupI d a i m).extractLsb' 8 3)) else none) : Option Instr) = _
  simp (disch := decide) only [encSlideupI, RoundTrip.low, RoundTrip.high, RoundTrip.whole, Nat.reduceSub] <;> rfl
theorem RoundTrip.slidednI (d : BitVec 5) (a : BitVec 5) (i : BitVec 5) (m : BitVec 3) : RoundTrip.Statement (.slidednI d a i m) := fun _ => by
  have hm : (encSlidednI d a i m).extractLsb' 26 6 = 0x25#6 := by
    simp (disch := decide) only [encSlidednI, RoundTrip.low, RoundTrip.high, RoundTrip.whole, Nat.reduceSub] <;> rfl
  change decodeByMajor ((encSlidednI d a i m).extractLsb' 26 6) (encSlidednI d a i m) = _
  rw [hm]
  have ho : (encSlidednI d a i m).extractLsb' 0 7 = 0xb#7 := by
    simp (disch := decide) only [encSlidednI, RoundTrip.low, RoundTrip.high, RoundTrip.whole, Nat.reduceSub] <;> rfl
  change decodeMajor25Op ((encSlidednI d a i m).extractLsb' 0 7) (encSlidednI d a i m) = _
  rw [ho]
  change ((if (encSlidednI d a i m).extractLsb' 7 1 == 0x0#1 then some (.slidednI ((encSlidednI d a i m).extractLsb' 21 5) ((encSlidednI d a i m).extractLsb' 16 5) ((encSlidednI d a i m).extractLsb' 11 5) ((encSlidednI d a i m).extractLsb' 8 3)) else none) : Option Instr) = _
  simp (disch := decide) only [encSlidednI, RoundTrip.low, RoundTrip.high, RoundTrip.whole, Nat.reduceSub] <;> rfl
theorem RoundTrip.vgather (d : BitVec 5) (a : BitVec 5) (b : BitVec 5) (m : BitVec 3) (l : BitVec 1) : RoundTrip.Statement (.vgather d a b m l) := fun _ => by
  have hm : (encVgather d a b m l).extractLsb' 26 6 = 0x25#6 := by
    simp (disch := decide) only [encVgather, RoundTrip.low, RoundTrip.high, RoundTrip.whole, Nat.reduceSub] <;> rfl
  change decodeByMajor ((encVgather d a b m l).extractLsb' 26 6) (encVgather d a b m l) = _
  rw [hm]
  have ho : (encVgather d a b m l).extractLsb' 0 7 = 0xc#7 := by
    simp (disch := decide) only [encVgather, RoundTrip.low, RoundTrip.high, RoundTrip.whole, Nat.reduceSub] <;> rfl
  change decodeMajor25Op ((encVgather d a b m l).extractLsb' 0 7) (encVgather d a b m l) = _
  rw [ho]
  change (some (.vgather ((encVgather d a b m l).extractLsb' 21 5) ((encVgather d a b m l).extractLsb' 16 5) ((encVgather d a b m l).extractLsb' 11 5) ((encVgather d a b m l).extractLsb' 8 3) ((encVgather d a b m l).extractLsb' 7 1)) : Option Instr) = _
  simp (disch := decide) only [encVgather, RoundTrip.low, RoundTrip.high, RoundTrip.whole, Nat.reduceSub] <;> rfl
theorem RoundTrip.compress (d : BitVec 5) (a : BitVec 5) (m : BitVec 3) : RoundTrip.Statement (.compress d a m) := fun _ => by
  have hm : (encCompress d a m).extractLsb' 26 6 = 0x25#6 := by
    simp (disch := decide) only [encCompress, RoundTrip.low, RoundTrip.high, RoundTrip.whole, Nat.reduceSub] <;> rfl
  change decodeByMajor ((encCompress d a m).extractLsb' 26 6) (encCompress d a m) = _
  rw [hm]
  have ho : (encCompress d a m).extractLsb' 0 7 = 0xd#7 := by
    simp (disch := decide) only [encCompress, RoundTrip.low, RoundTrip.high, RoundTrip.whole, Nat.reduceSub] <;> rfl
  change decodeMajor25Op ((encCompress d a m).extractLsb' 0 7) (encCompress d a m) = _
  rw [ho]
  change ((if (encCompress d a m).extractLsb' 7 1 == 0x0#1 && (encCompress d a m).extractLsb' 11 5 == 0x0#5 then some (.compress ((encCompress d a m).extractLsb' 21 5) ((encCompress d a m).extractLsb' 16 5) ((encCompress d a m).extractLsb' 8 3)) else none) : Option Instr) = _
  simp (disch := decide) only [encCompress, RoundTrip.low, RoundTrip.high, RoundTrip.whole, Nat.reduceSub] <;> rfl
theorem RoundTrip.expand (d : BitVec 5) (a : BitVec 5) (m : BitVec 3) : RoundTrip.Statement (.expand d a m) := fun _ => by
  have hm : (encExpand d a m).extractLsb' 26 6 = 0x25#6 := by
    simp (disch := decide) only [encExpand, RoundTrip.low, RoundTrip.high, RoundTrip.whole, Nat.reduceSub] <;> rfl
  change decodeByMajor ((encExpand d a m).extractLsb' 26 6) (encExpand d a m) = _
  rw [hm]
  have ho : (encExpand d a m).extractLsb' 0 7 = 0xe#7 := by
    simp (disch := decide) only [encExpand, RoundTrip.low, RoundTrip.high, RoundTrip.whole, Nat.reduceSub] <;> rfl
  change decodeMajor25Op ((encExpand d a m).extractLsb' 0 7) (encExpand d a m) = _
  rw [ho]
  change ((if (encExpand d a m).extractLsb' 7 1 == 0x0#1 && (encExpand d a m).extractLsb' 11 5 == 0x0#5 then some (.expand ((encExpand d a m).extractLsb' 21 5) ((encExpand d a m).extractLsb' 16 5) ((encExpand d a m).extractLsb' 8 3)) else none) : Option Instr) = _
  simp (disch := decide) only [encExpand, RoundTrip.low, RoundTrip.high, RoundTrip.whole, Nat.reduceSub] <;> rfl
theorem RoundTrip.rowbcX (d : BitVec 5) (a : BitVec 5) (b : BitVec 5) (m : BitVec 3) : RoundTrip.Statement (.rowbcX d a b m) := fun _ => by
  have hm : (encRowbcX d a b m).extractLsb' 26 6 = 0x25#6 := by
    simp (disch := decide) only [encRowbcX, RoundTrip.low, RoundTrip.high, RoundTrip.whole, Nat.reduceSub] <;> rfl
  change decodeByMajor ((encRowbcX d a b m).extractLsb' 26 6) (encRowbcX d a b m) = _
  rw [hm]
  have ho : (encRowbcX d a b m).extractLsb' 0 7 = 0xf#7 := by
    simp (disch := decide) only [encRowbcX, RoundTrip.low, RoundTrip.high, RoundTrip.whole, Nat.reduceSub] <;> rfl
  change decodeMajor25Op ((encRowbcX d a b m).extractLsb' 0 7) (encRowbcX d a b m) = _
  rw [ho]
  change ((if (encRowbcX d a b m).extractLsb' 7 1 == 0x0#1 then some (.rowbcX ((encRowbcX d a b m).extractLsb' 21 5) ((encRowbcX d a b m).extractLsb' 16 5) ((encRowbcX d a b m).extractLsb' 11 5) ((encRowbcX d a b m).extractLsb' 8 3)) else none) : Option Instr) = _
  simp (disch := decide) only [encRowbcX, RoundTrip.low, RoundTrip.high, RoundTrip.whole, Nat.reduceSub] <;> rfl
theorem RoundTrip.rowrotX (d : BitVec 5) (a : BitVec 5) (b : BitVec 5) (m : BitVec 3) : RoundTrip.Statement (.rowrotX d a b m) := fun _ => by
  have hm : (encRowrotX d a b m).extractLsb' 26 6 = 0x25#6 := by
    simp (disch := decide) only [encRowrotX, RoundTrip.low, RoundTrip.high, RoundTrip.whole, Nat.reduceSub] <;> rfl
  change decodeByMajor ((encRowrotX d a b m).extractLsb' 26 6) (encRowrotX d a b m) = _
  rw [hm]
  have ho : (encRowrotX d a b m).extractLsb' 0 7 = 0x10#7 := by
    simp (disch := decide) only [encRowrotX, RoundTrip.low, RoundTrip.high, RoundTrip.whole, Nat.reduceSub] <;> rfl
  change decodeMajor25Op ((encRowrotX d a b m).extractLsb' 0 7) (encRowrotX d a b m) = _
  rw [ho]
  change ((if (encRowrotX d a b m).extractLsb' 7 1 == 0x0#1 then some (.rowrotX ((encRowrotX d a b m).extractLsb' 21 5) ((encRowrotX d a b m).extractLsb' 16 5) ((encRowrotX d a b m).extractLsb' 11 5) ((encRowrotX d a b m).extractLsb' 8 3)) else none) : Option Instr) = _
  simp (disch := decide) only [encRowrotX, RoundTrip.low, RoundTrip.high, RoundTrip.whole, Nat.reduceSub] <;> rfl
theorem RoundTrip.rowbcI (d : BitVec 5) (a : BitVec 5) (i : BitVec 3) (m : BitVec 3) : RoundTrip.Statement (.rowbcI d a i m) := fun _ => by
  have hm : (encRowbcI d a i m).extractLsb' 26 6 = 0x25#6 := by
    simp (disch := decide) only [encRowbcI, RoundTrip.low, RoundTrip.high, RoundTrip.whole, Nat.reduceSub] <;> rfl
  change decodeByMajor ((encRowbcI d a i m).extractLsb' 26 6) (encRowbcI d a i m) = _
  rw [hm]
  have ho : (encRowbcI d a i m).extractLsb' 0 7 = 0x11#7 := by
    simp (disch := decide) only [encRowbcI, RoundTrip.low, RoundTrip.high, RoundTrip.whole, Nat.reduceSub] <;> rfl
  change decodeMajor25Op ((encRowbcI d a i m).extractLsb' 0 7) (encRowbcI d a i m) = _
  rw [ho]
  change ((if (encRowbcI d a i m).extractLsb' 7 1 == 0x0#1 && (encRowbcI d a i m).extractLsb' 14 2 == 0x0#2 then some (.rowbcI ((encRowbcI d a i m).extractLsb' 21 5) ((encRowbcI d a i m).extractLsb' 16 5) ((encRowbcI d a i m).extractLsb' 11 3) ((encRowbcI d a i m).extractLsb' 8 3)) else none) : Option Instr) = _
  simp (disch := decide) only [encRowbcI, RoundTrip.low, RoundTrip.high, RoundTrip.whole, Nat.reduceSub] <;> rfl
theorem RoundTrip.rowrotI (d : BitVec 5) (a : BitVec 5) (i : BitVec 3) (m : BitVec 3) : RoundTrip.Statement (.rowrotI d a i m) := fun _ => by
  have hm : (encRowrotI d a i m).extractLsb' 26 6 = 0x25#6 := by
    simp (disch := decide) only [encRowrotI, RoundTrip.low, RoundTrip.high, RoundTrip.whole, Nat.reduceSub] <;> rfl
  change decodeByMajor ((encRowrotI d a i m).extractLsb' 26 6) (encRowrotI d a i m) = _
  rw [hm]
  have ho : (encRowrotI d a i m).extractLsb' 0 7 = 0x12#7 := by
    simp (disch := decide) only [encRowrotI, RoundTrip.low, RoundTrip.high, RoundTrip.whole, Nat.reduceSub] <;> rfl
  change decodeMajor25Op ((encRowrotI d a i m).extractLsb' 0 7) (encRowrotI d a i m) = _
  rw [ho]
  change ((if (encRowrotI d a i m).extractLsb' 7 1 == 0x0#1 && (encRowrotI d a i m).extractLsb' 14 2 == 0x0#2 then some (.rowrotI ((encRowrotI d a i m).extractLsb' 21 5) ((encRowrotI d a i m).extractLsb' 16 5) ((encRowrotI d a i m).extractLsb' 11 3) ((encRowrotI d a i m).extractLsb' 8 3)) else none) : Option Instr) = _
  simp (disch := decide) only [encRowrotI, RoundTrip.low, RoundTrip.high, RoundTrip.whole, Nat.reduceSub] <;> rfl
theorem RoundTrip.vmvx (d : BitVec 5) (a : BitVec 5) (b : BitVec 5) : RoundTrip.Statement (.vmvx d a b) := fun _ => by
  have hm : (encVmvx d a b).extractLsb' 26 6 = 0x25#6 := by
    simp (disch := decide) only [encVmvx, RoundTrip.low, RoundTrip.high, RoundTrip.whole, Nat.reduceSub] <;> rfl
  change decodeByMajor ((encVmvx d a b).extractLsb' 26 6) (encVmvx d a b) = _
  rw [hm]
  have ho : (encVmvx d a b).extractLsb' 0 7 = 0x13#7 := by
    simp (disch := decide) only [encVmvx, RoundTrip.low, RoundTrip.high, RoundTrip.whole, Nat.reduceSub] <;> rfl
  change decodeMajor25Op ((encVmvx d a b).extractLsb' 0 7) (encVmvx d a b) = _
  rw [ho]
  change ((if (encVmvx d a b).extractLsb' 7 4 == 0x0#4 then some (.vmvx ((encVmvx d a b).extractLsb' 21 5) ((encVmvx d a b).extractLsb' 16 5) ((encVmvx d a b).extractLsb' 11 5)) else none) : Option Instr) = _
  simp (disch := decide) only [encVmvx, RoundTrip.low, RoundTrip.high, RoundTrip.whole, Nat.reduceSub] <;> rfl
theorem RoundTrip.vmvs (d : BitVec 5) (a : BitVec 5) (b : BitVec 5) : RoundTrip.Statement (.vmvs d a b) := fun _ => by
  have hm : (encVmvs d a b).extractLsb' 26 6 = 0x25#6 := by
    simp (disch := decide) only [encVmvs, RoundTrip.low, RoundTrip.high, RoundTrip.whole, Nat.reduceSub] <;> rfl
  change decodeByMajor ((encVmvs d a b).extractLsb' 26 6) (encVmvs d a b) = _
  rw [hm]
  have ho : (encVmvs d a b).extractLsb' 0 7 = 0x14#7 := by
    simp (disch := decide) only [encVmvs, RoundTrip.low, RoundTrip.high, RoundTrip.whole, Nat.reduceSub] <;> rfl
  change decodeMajor25Op ((encVmvs d a b).extractLsb' 0 7) (encVmvs d a b) = _
  rw [ho]
  change ((if (encVmvs d a b).extractLsb' 7 4 == 0x0#4 then some (.vmvs ((encVmvs d a b).extractLsb' 21 5) ((encVmvs d a b).extractLsb' 16 5) ((encVmvs d a b).extractLsb' 11 5)) else none) : Option Instr) = _
  simp (disch := decide) only [encVmvs, RoundTrip.low, RoundTrip.high, RoundTrip.whole, Nat.reduceSub] <;> rfl
theorem RoundTrip.vld (d : BitVec 5) (a : BitVec 5) (m : BitVec 3) : RoundTrip.Statement (.vld d a m) := fun _ => by
  have hm : (encVld d a m).extractLsb' 26 6 = 0x26#6 := by
    simp (disch := decide) only [encVld, RoundTrip.low, RoundTrip.high, RoundTrip.whole, Nat.reduceSub] <;> rfl
  change decodeByMajor ((encVld d a m).extractLsb' 26 6) (encVld d a m) = _
  rw [hm]
  have ho : (encVld d a m).extractLsb' 0 4 = 0x0#4 := by
    simp (disch := decide) only [encVld, RoundTrip.low, RoundTrip.high, RoundTrip.whole, Nat.reduceSub] <;> rfl
  change decodeMajor26Op ((encVld d a m).extractLsb' 0 4) (encVld d a m) = _
  rw [ho]
  change ((if (encVld d a m).extractLsb' 4 4 == 0x0#4 && (encVld d a m).extractLsb' 11 5 == 0x0#5 then some (.vld ((encVld d a m).extractLsb' 21 5) ((encVld d a m).extractLsb' 16 5) ((encVld d a m).extractLsb' 8 3)) else none) : Option Instr) = _
  simp (disch := decide) only [encVld, RoundTrip.low, RoundTrip.high, RoundTrip.whole, Nat.reduceSub] <;> rfl
theorem RoundTrip.vlds (d : BitVec 5) (a : BitVec 5) (b : BitVec 5) (m : BitVec 3) : RoundTrip.Statement (.vlds d a b m) := fun _ => by
  have hm : (encVlds d a b m).extractLsb' 26 6 = 0x26#6 := by
    simp (disch := decide) only [encVlds, RoundTrip.low, RoundTrip.high, RoundTrip.whole, Nat.reduceSub] <;> rfl
  change decodeByMajor ((encVlds d a b m).extractLsb' 26 6) (encVlds d a b m) = _
  rw [hm]
  have ho : (encVlds d a b m).extractLsb' 0 4 = 0x1#4 := by
    simp (disch := decide) only [encVlds, RoundTrip.low, RoundTrip.high, RoundTrip.whole, Nat.reduceSub] <;> rfl
  change decodeMajor26Op ((encVlds d a b m).extractLsb' 0 4) (encVlds d a b m) = _
  rw [ho]
  change ((if (encVlds d a b m).extractLsb' 4 4 == 0x0#4 then some (.vlds ((encVlds d a b m).extractLsb' 21 5) ((encVlds d a b m).extractLsb' 16 5) ((encVlds d a b m).extractLsb' 11 5) ((encVlds d a b m).extractLsb' 8 3)) else none) : Option Instr) = _
  simp (disch := decide) only [encVlds, RoundTrip.low, RoundTrip.high, RoundTrip.whole, Nat.reduceSub] <;> rfl
theorem RoundTrip.vld2 (d : BitVec 5) (a : BitVec 5) (b : BitVec 5) (m : BitVec 3) : RoundTrip.Statement (.vld2 d a b m) := fun _ => by
  have hm : (encVld2 d a b m).extractLsb' 26 6 = 0x26#6 := by
    simp (disch := decide) only [encVld2, RoundTrip.low, RoundTrip.high, RoundTrip.whole, Nat.reduceSub] <;> rfl
  change decodeByMajor ((encVld2 d a b m).extractLsb' 26 6) (encVld2 d a b m) = _
  rw [hm]
  have ho : (encVld2 d a b m).extractLsb' 0 4 = 0x2#4 := by
    simp (disch := decide) only [encVld2, RoundTrip.low, RoundTrip.high, RoundTrip.whole, Nat.reduceSub] <;> rfl
  change decodeMajor26Op ((encVld2 d a b m).extractLsb' 0 4) (encVld2 d a b m) = _
  rw [ho]
  change ((if (encVld2 d a b m).extractLsb' 4 4 == 0x0#4 then some (.vld2 ((encVld2 d a b m).extractLsb' 21 5) ((encVld2 d a b m).extractLsb' 16 5) ((encVld2 d a b m).extractLsb' 11 5) ((encVld2 d a b m).extractLsb' 8 3)) else none) : Option Instr) = _
  simp (disch := decide) only [encVld2, RoundTrip.low, RoundTrip.high, RoundTrip.whole, Nat.reduceSub] <;> rfl
theorem RoundTrip.vldx (d : BitVec 5) (a : BitVec 5) (b : BitVec 5) (m : BitVec 3) : RoundTrip.Statement (.vldx d a b m) := fun _ => by
  have hm : (encVldx d a b m).extractLsb' 26 6 = 0x26#6 := by
    simp (disch := decide) only [encVldx, RoundTrip.low, RoundTrip.high, RoundTrip.whole, Nat.reduceSub] <;> rfl
  change decodeByMajor ((encVldx d a b m).extractLsb' 26 6) (encVldx d a b m) = _
  rw [hm]
  have ho : (encVldx d a b m).extractLsb' 0 4 = 0x3#4 := by
    simp (disch := decide) only [encVldx, RoundTrip.low, RoundTrip.high, RoundTrip.whole, Nat.reduceSub] <;> rfl
  change decodeMajor26Op ((encVldx d a b m).extractLsb' 0 4) (encVldx d a b m) = _
  rw [ho]
  change ((if (encVldx d a b m).extractLsb' 4 4 == 0x0#4 then some (.vldx ((encVldx d a b m).extractLsb' 21 5) ((encVldx d a b m).extractLsb' 16 5) ((encVldx d a b m).extractLsb' 11 5) ((encVldx d a b m).extractLsb' 8 3)) else none) : Option Instr) = _
  simp (disch := decide) only [encVldx, RoundTrip.low, RoundTrip.high, RoundTrip.whole, Nat.reduceSub] <;> rfl
theorem RoundTrip.vldl (d : BitVec 5) (a : BitVec 5) (b : BitVec 5) (m : BitVec 3) : RoundTrip.Statement (.vldl d a b m) := fun _ => by
  have hm : (encVldl d a b m).extractLsb' 26 6 = 0x26#6 := by
    simp (disch := decide) only [encVldl, RoundTrip.low, RoundTrip.high, RoundTrip.whole, Nat.reduceSub] <;> rfl
  change decodeByMajor ((encVldl d a b m).extractLsb' 26 6) (encVldl d a b m) = _
  rw [hm]
  have ho : (encVldl d a b m).extractLsb' 0 4 = 0x4#4 := by
    simp (disch := decide) only [encVldl, RoundTrip.low, RoundTrip.high, RoundTrip.whole, Nat.reduceSub] <;> rfl
  change decodeMajor26Op ((encVldl d a b m).extractLsb' 0 4) (encVldl d a b m) = _
  rw [ho]
  change ((if (encVldl d a b m).extractLsb' 4 4 == 0x0#4 then some (.vldl ((encVldl d a b m).extractLsb' 21 5) ((encVldl d a b m).extractLsb' 16 5) ((encVldl d a b m).extractLsb' 11 5) ((encVldl d a b m).extractLsb' 8 3)) else none) : Option Instr) = _
  simp (disch := decide) only [encVldl, RoundTrip.low, RoundTrip.high, RoundTrip.whole, Nat.reduceSub] <;> rfl
theorem RoundTrip.vldr (d : BitVec 5) (b : BitVec 5) (m : BitVec 3) (f : BitVec 3) : RoundTrip.Statement (.vldr d b m f) := fun _ => by
  have hm : (encVldr d b m f).extractLsb' 26 6 = 0x26#6 := by
    simp (disch := decide) only [encVldr, RoundTrip.low, RoundTrip.high, RoundTrip.whole, Nat.reduceSub] <;> rfl
  change decodeByMajor ((encVldr d b m f).extractLsb' 26 6) (encVldr d b m f) = _
  rw [hm]
  have ho : (encVldr d b m f).extractLsb' 0 4 = 0x5#4 := by
    simp (disch := decide) only [encVldr, RoundTrip.low, RoundTrip.high, RoundTrip.whole, Nat.reduceSub] <;> rfl
  change decodeMajor26Op ((encVldr d b m f).extractLsb' 0 4) (encVldr d b m f) = _
  rw [ho]
  change ((if (encVldr d b m f).extractLsb' 7 1 == 0x0#1 && (encVldr d b m f).extractLsb' 16 5 == 0x0#5 then some (.vldr ((encVldr d b m f).extractLsb' 21 5) ((encVldr d b m f).extractLsb' 11 5) ((encVldr d b m f).extractLsb' 8 3) ((encVldr d b m f).extractLsb' 4 3)) else none) : Option Instr) = _
  simp (disch := decide) only [encVldr, RoundTrip.low, RoundTrip.high, RoundTrip.whole, Nat.reduceSub] <;> rfl
theorem RoundTrip.vrest (a : BitVec 5) : RoundTrip.Statement (.vrest a) := fun _ => by
  have hm : (encVrest a).extractLsb' 26 6 = 0x26#6 := by
    simp (disch := decide) only [encVrest, RoundTrip.low, RoundTrip.high, RoundTrip.whole, Nat.reduceSub] <;> rfl
  change decodeByMajor ((encVrest a).extractLsb' 26 6) (encVrest a) = _
  rw [hm]
  have ho : (encVrest a).extractLsb' 0 4 = 0x8#4 := by
    simp (disch := decide) only [encVrest, RoundTrip.low, RoundTrip.high, RoundTrip.whole, Nat.reduceSub] <;> rfl
  change decodeMajor26Op ((encVrest a).extractLsb' 0 4) (encVrest a) = _
  rw [ho]
  change ((if (encVrest a).extractLsb' 4 12 == 0x0#12 && (encVrest a).extractLsb' 21 5 == 0x0#5 then some (.vrest ((encVrest a).extractLsb' 16 5)) else none) : Option Instr) = _
  simp (disch := decide) only [encVrest, RoundTrip.low, RoundTrip.high, RoundTrip.whole, Nat.reduceSub] <;> rfl
theorem RoundTrip.vst (d : BitVec 5) (a : BitVec 5) (m : BitVec 3) : RoundTrip.Statement (.vst d a m) := fun _ => by
  have hm : (encVst d a m).extractLsb' 26 6 = 0x27#6 := by
    simp (disch := decide) only [encVst, RoundTrip.low, RoundTrip.high, RoundTrip.whole, Nat.reduceSub] <;> rfl
  change decodeByMajor ((encVst d a m).extractLsb' 26 6) (encVst d a m) = _
  rw [hm]
  have ho : (encVst d a m).extractLsb' 0 4 = 0x0#4 := by
    simp (disch := decide) only [encVst, RoundTrip.low, RoundTrip.high, RoundTrip.whole, Nat.reduceSub] <;> rfl
  change decodeMajor27Op ((encVst d a m).extractLsb' 0 4) (encVst d a m) = _
  rw [ho]
  change ((if (encVst d a m).extractLsb' 4 4 == 0x0#4 && (encVst d a m).extractLsb' 11 5 == 0x0#5 then some (.vst ((encVst d a m).extractLsb' 21 5) ((encVst d a m).extractLsb' 16 5) ((encVst d a m).extractLsb' 8 3)) else none) : Option Instr) = _
  simp (disch := decide) only [encVst, RoundTrip.low, RoundTrip.high, RoundTrip.whole, Nat.reduceSub] <;> rfl
theorem RoundTrip.vsts (d : BitVec 5) (a : BitVec 5) (b : BitVec 5) (m : BitVec 3) : RoundTrip.Statement (.vsts d a b m) := fun _ => by
  have hm : (encVsts d a b m).extractLsb' 26 6 = 0x27#6 := by
    simp (disch := decide) only [encVsts, RoundTrip.low, RoundTrip.high, RoundTrip.whole, Nat.reduceSub] <;> rfl
  change decodeByMajor ((encVsts d a b m).extractLsb' 26 6) (encVsts d a b m) = _
  rw [hm]
  have ho : (encVsts d a b m).extractLsb' 0 4 = 0x1#4 := by
    simp (disch := decide) only [encVsts, RoundTrip.low, RoundTrip.high, RoundTrip.whole, Nat.reduceSub] <;> rfl
  change decodeMajor27Op ((encVsts d a b m).extractLsb' 0 4) (encVsts d a b m) = _
  rw [ho]
  change ((if (encVsts d a b m).extractLsb' 4 4 == 0x0#4 then some (.vsts ((encVsts d a b m).extractLsb' 21 5) ((encVsts d a b m).extractLsb' 16 5) ((encVsts d a b m).extractLsb' 11 5) ((encVsts d a b m).extractLsb' 8 3)) else none) : Option Instr) = _
  simp (disch := decide) only [encVsts, RoundTrip.low, RoundTrip.high, RoundTrip.whole, Nat.reduceSub] <;> rfl
theorem RoundTrip.vst2 (d : BitVec 5) (a : BitVec 5) (b : BitVec 5) (m : BitVec 3) : RoundTrip.Statement (.vst2 d a b m) := fun _ => by
  have hm : (encVst2 d a b m).extractLsb' 26 6 = 0x27#6 := by
    simp (disch := decide) only [encVst2, RoundTrip.low, RoundTrip.high, RoundTrip.whole, Nat.reduceSub] <;> rfl
  change decodeByMajor ((encVst2 d a b m).extractLsb' 26 6) (encVst2 d a b m) = _
  rw [hm]
  have ho : (encVst2 d a b m).extractLsb' 0 4 = 0x2#4 := by
    simp (disch := decide) only [encVst2, RoundTrip.low, RoundTrip.high, RoundTrip.whole, Nat.reduceSub] <;> rfl
  change decodeMajor27Op ((encVst2 d a b m).extractLsb' 0 4) (encVst2 d a b m) = _
  rw [ho]
  change ((if (encVst2 d a b m).extractLsb' 4 4 == 0x0#4 then some (.vst2 ((encVst2 d a b m).extractLsb' 21 5) ((encVst2 d a b m).extractLsb' 16 5) ((encVst2 d a b m).extractLsb' 11 5) ((encVst2 d a b m).extractLsb' 8 3)) else none) : Option Instr) = _
  simp (disch := decide) only [encVst2, RoundTrip.low, RoundTrip.high, RoundTrip.whole, Nat.reduceSub] <;> rfl
theorem RoundTrip.vstx (d : BitVec 5) (a : BitVec 5) (b : BitVec 5) (m : BitVec 3) : RoundTrip.Statement (.vstx d a b m) := fun _ => by
  have hm : (encVstx d a b m).extractLsb' 26 6 = 0x27#6 := by
    simp (disch := decide) only [encVstx, RoundTrip.low, RoundTrip.high, RoundTrip.whole, Nat.reduceSub] <;> rfl
  change decodeByMajor ((encVstx d a b m).extractLsb' 26 6) (encVstx d a b m) = _
  rw [hm]
  have ho : (encVstx d a b m).extractLsb' 0 4 = 0x3#4 := by
    simp (disch := decide) only [encVstx, RoundTrip.low, RoundTrip.high, RoundTrip.whole, Nat.reduceSub] <;> rfl
  change decodeMajor27Op ((encVstx d a b m).extractLsb' 0 4) (encVstx d a b m) = _
  rw [ho]
  change ((if (encVstx d a b m).extractLsb' 4 4 == 0x0#4 then some (.vstx ((encVstx d a b m).extractLsb' 21 5) ((encVstx d a b m).extractLsb' 16 5) ((encVstx d a b m).extractLsb' 11 5) ((encVstx d a b m).extractLsb' 8 3)) else none) : Option Instr) = _
  simp (disch := decide) only [encVstx, RoundTrip.low, RoundTrip.high, RoundTrip.whole, Nat.reduceSub] <;> rfl
theorem RoundTrip.vstl (d : BitVec 5) (a : BitVec 5) (b : BitVec 5) (m : BitVec 3) : RoundTrip.Statement (.vstl d a b m) := fun _ => by
  have hm : (encVstl d a b m).extractLsb' 26 6 = 0x27#6 := by
    simp (disch := decide) only [encVstl, RoundTrip.low, RoundTrip.high, RoundTrip.whole, Nat.reduceSub] <;> rfl
  change decodeByMajor ((encVstl d a b m).extractLsb' 26 6) (encVstl d a b m) = _
  rw [hm]
  have ho : (encVstl d a b m).extractLsb' 0 4 = 0x4#4 := by
    simp (disch := decide) only [encVstl, RoundTrip.low, RoundTrip.high, RoundTrip.whole, Nat.reduceSub] <;> rfl
  change decodeMajor27Op ((encVstl d a b m).extractLsb' 0 4) (encVstl d a b m) = _
  rw [ho]
  change ((if (encVstl d a b m).extractLsb' 4 4 == 0x0#4 then some (.vstl ((encVstl d a b m).extractLsb' 21 5) ((encVstl d a b m).extractLsb' 16 5) ((encVstl d a b m).extractLsb' 11 5) ((encVstl d a b m).extractLsb' 8 3)) else none) : Option Instr) = _
  simp (disch := decide) only [encVstl, RoundTrip.low, RoundTrip.high, RoundTrip.whole, Nat.reduceSub] <;> rfl
theorem RoundTrip.vstr (d : BitVec 5) (b : BitVec 5) (m : BitVec 3) (f : BitVec 3) : RoundTrip.Statement (.vstr d b m f) := fun _ => by
  have hm : (encVstr d b m f).extractLsb' 26 6 = 0x27#6 := by
    simp (disch := decide) only [encVstr, RoundTrip.low, RoundTrip.high, RoundTrip.whole, Nat.reduceSub] <;> rfl
  change decodeByMajor ((encVstr d b m f).extractLsb' 26 6) (encVstr d b m f) = _
  rw [hm]
  have ho : (encVstr d b m f).extractLsb' 0 4 = 0x5#4 := by
    simp (disch := decide) only [encVstr, RoundTrip.low, RoundTrip.high, RoundTrip.whole, Nat.reduceSub] <;> rfl
  change decodeMajor27Op ((encVstr d b m f).extractLsb' 0 4) (encVstr d b m f) = _
  rw [ho]
  change ((if (encVstr d b m f).extractLsb' 7 1 == 0x0#1 && (encVstr d b m f).extractLsb' 16 5 == 0x0#5 then some (.vstr ((encVstr d b m f).extractLsb' 21 5) ((encVstr d b m f).extractLsb' 11 5) ((encVstr d b m f).extractLsb' 8 3) ((encVstr d b m f).extractLsb' 4 3)) else none) : Option Instr) = _
  simp (disch := decide) only [encVstr, RoundTrip.low, RoundTrip.high, RoundTrip.whole, Nat.reduceSub] <;> rfl
theorem RoundTrip.vsaadd (d : BitVec 5) (a : BitVec 5) (b : BitVec 5) (m : BitVec 3) : RoundTrip.Statement (.vsaadd d a b m) := fun _ => by
  have hm : (encVsaadd d a b m).extractLsb' 26 6 = 0x27#6 := by
    simp (disch := decide) only [encVsaadd, RoundTrip.low, RoundTrip.high, RoundTrip.whole, Nat.reduceSub] <;> rfl
  change decodeByMajor ((encVsaadd d a b m).extractLsb' 26 6) (encVsaadd d a b m) = _
  rw [hm]
  have ho : (encVsaadd d a b m).extractLsb' 0 4 = 0x6#4 := by
    simp (disch := decide) only [encVsaadd, RoundTrip.low, RoundTrip.high, RoundTrip.whole, Nat.reduceSub] <;> rfl
  change decodeMajor27Op ((encVsaadd d a b m).extractLsb' 0 4) (encVsaadd d a b m) = _
  rw [ho]
  change ((if (encVsaadd d a b m).extractLsb' 4 4 == 0x0#4 then some (.vsaadd ((encVsaadd d a b m).extractLsb' 21 5) ((encVsaadd d a b m).extractLsb' 16 5) ((encVsaadd d a b m).extractLsb' 11 5) ((encVsaadd d a b m).extractLsb' 8 3)) else none) : Option Instr) = _
  simp (disch := decide) only [encVsaadd, RoundTrip.low, RoundTrip.high, RoundTrip.whole, Nat.reduceSub] <;> rfl
theorem RoundTrip.vsamax (d : BitVec 5) (a : BitVec 5) (b : BitVec 5) (m : BitVec 3) : RoundTrip.Statement (.vsamax d a b m) := fun _ => by
  have hm : (encVsamax d a b m).extractLsb' 26 6 = 0x27#6 := by
    simp (disch := decide) only [encVsamax, RoundTrip.low, RoundTrip.high, RoundTrip.whole, Nat.reduceSub] <;> rfl
  change decodeByMajor ((encVsamax d a b m).extractLsb' 26 6) (encVsamax d a b m) = _
  rw [hm]
  have ho : (encVsamax d a b m).extractLsb' 0 4 = 0x7#4 := by
    simp (disch := decide) only [encVsamax, RoundTrip.low, RoundTrip.high, RoundTrip.whole, Nat.reduceSub] <;> rfl
  change decodeMajor27Op ((encVsamax d a b m).extractLsb' 0 4) (encVsamax d a b m) = _
  rw [ho]
  change ((if (encVsamax d a b m).extractLsb' 4 4 == 0x0#4 then some (.vsamax ((encVsamax d a b m).extractLsb' 21 5) ((encVsamax d a b m).extractLsb' 16 5) ((encVsamax d a b m).extractLsb' 11 5) ((encVsamax d a b m).extractLsb' 8 3)) else none) : Option Instr) = _
  simp (disch := decide) only [encVsamax, RoundTrip.low, RoundTrip.high, RoundTrip.whole, Nat.reduceSub] <;> rfl
theorem RoundTrip.vsave (a : BitVec 5) : RoundTrip.Statement (.vsave a) := fun _ => by
  have hm : (encVsave a).extractLsb' 26 6 = 0x27#6 := by
    simp (disch := decide) only [encVsave, RoundTrip.low, RoundTrip.high, RoundTrip.whole, Nat.reduceSub] <;> rfl
  change decodeByMajor ((encVsave a).extractLsb' 26 6) (encVsave a) = _
  rw [hm]
  have ho : (encVsave a).extractLsb' 0 4 = 0x8#4 := by
    simp (disch := decide) only [encVsave, RoundTrip.low, RoundTrip.high, RoundTrip.whole, Nat.reduceSub] <;> rfl
  change decodeMajor27Op ((encVsave a).extractLsb' 0 4) (encVsave a) = _
  rw [ho]
  change ((if (encVsave a).extractLsb' 4 12 == 0x0#12 && (encVsave a).extractLsb' 21 5 == 0x0#5 then some (.vsave ((encVsave a).extractLsb' 16 5)) else none) : Option Instr) = _
  simp (disch := decide) only [encVsave, RoundTrip.low, RoundTrip.high, RoundTrip.whole, Nat.reduceSub] <;> rfl
theorem RoundTrip.vshape (d : BitVec 5) (a : BitVec 5) (b : BitVec 5) : RoundTrip.Statement (.vshape d a b) := fun _ => by
  have hm : (encVshape d a b).extractLsb' 26 6 = 0x28#6 := by
    simp (disch := decide) only [encVshape, RoundTrip.low, RoundTrip.high, RoundTrip.whole, Nat.reduceSub] <;> rfl
  change decodeByMajor ((encVshape d a b).extractLsb' 26 6) (encVshape d a b) = _
  rw [hm]
  have ho : (encVshape d a b).extractLsb' 0 4 = 0x0#4 := by
    simp (disch := decide) only [encVshape, RoundTrip.low, RoundTrip.high, RoundTrip.whole, Nat.reduceSub] <;> rfl
  change decodeMajor28Op ((encVshape d a b).extractLsb' 0 4) (encVshape d a b) = _
  rw [ho]
  change ((if (encVshape d a b).extractLsb' 4 7 == 0x0#7 then some (.vshape ((encVshape d a b).extractLsb' 21 5) ((encVshape d a b).extractLsb' 16 5) ((encVshape d a b).extractLsb' 11 5)) else none) : Option Instr) = _
  simp (disch := decide) only [encVshape, RoundTrip.low, RoundTrip.high, RoundTrip.whole, Nat.reduceSub] <;> rfl
theorem RoundTrip.vform (d : BitVec 5) (a : BitVec 5) : RoundTrip.Statement (.vform d a) := fun _ => by
  have hm : (encVform d a).extractLsb' 26 6 = 0x28#6 := by
    simp (disch := decide) only [encVform, RoundTrip.low, RoundTrip.high, RoundTrip.whole, Nat.reduceSub] <;> rfl
  change decodeByMajor ((encVform d a).extractLsb' 26 6) (encVform d a) = _
  rw [hm]
  have ho : (encVform d a).extractLsb' 0 4 = 0x1#4 := by
    simp (disch := decide) only [encVform, RoundTrip.low, RoundTrip.high, RoundTrip.whole, Nat.reduceSub] <;> rfl
  change decodeMajor28Op ((encVform d a).extractLsb' 0 4) (encVform d a) = _
  rw [ho]
  change ((if (encVform d a).extractLsb' 4 12 == 0x0#12 then some (.vform ((encVform d a).extractLsb' 21 5) ((encVform d a).extractLsb' 16 5)) else none) : Option Instr) = _
  simp (disch := decide) only [encVform, RoundTrip.low, RoundTrip.high, RoundTrip.whole, Nat.reduceSub] <;> rfl
theorem RoundTrip.vsplit (n : BitVec 2) : RoundTrip.Statement (.vsplit n) := fun _ => by
  have hm : (encVsplit n).extractLsb' 26 6 = 0x28#6 := by
    simp (disch := decide) only [encVsplit, RoundTrip.low, RoundTrip.high, RoundTrip.whole, Nat.reduceSub] <;> rfl
  change decodeByMajor ((encVsplit n).extractLsb' 26 6) (encVsplit n) = _
  rw [hm]
  have ho : (encVsplit n).extractLsb' 0 4 = 0x2#4 := by
    simp (disch := decide) only [encVsplit, RoundTrip.low, RoundTrip.high, RoundTrip.whole, Nat.reduceSub] <;> rfl
  change decodeMajor28Op ((encVsplit n).extractLsb' 0 4) (encVsplit n) = _
  rw [ho]
  change ((if (encVsplit n).extractLsb' 6 20 == 0x0#20 then some (.vsplit ((encVsplit n).extractLsb' 4 2)) else none) : Option Instr) = _
  simp (disch := decide) only [encVsplit, RoundTrip.low, RoundTrip.high, RoundTrip.whole, Nat.reduceSub] <;> rfl
theorem RoundTrip.vjoin : RoundTrip.Statement .vjoin := fun _ => by
  have hm : encVjoin.extractLsb' 26 6 = 0x28#6 := by
    simp (disch := decide) only [encVjoin, RoundTrip.low, RoundTrip.high, RoundTrip.whole, Nat.reduceSub] <;> rfl
  change decodeByMajor (encVjoin.extractLsb' 26 6) encVjoin = _
  rw [hm]
  have ho : encVjoin.extractLsb' 0 4 = 0x3#4 := by
    simp (disch := decide) only [encVjoin, RoundTrip.low, RoundTrip.high, RoundTrip.whole, Nat.reduceSub] <;> rfl
  change decodeMajor28Op (encVjoin.extractLsb' 0 4) encVjoin = _
  rw [ho]
  change ((if encVjoin.extractLsb' 4 22 == 0x0#22 then some .vjoin else none) : Option Instr) = _
  simp (disch := decide) only [encVjoin, RoundTrip.low, RoundTrip.high, RoundTrip.whole, Nat.reduceSub] <;> rfl
theorem RoundTrip.vrdshape (d : BitVec 5) : RoundTrip.Statement (.vrdshape d) := fun _ => by
  have hm : (encVrdshape d).extractLsb' 26 6 = 0x28#6 := by
    simp (disch := decide) only [encVrdshape, RoundTrip.low, RoundTrip.high, RoundTrip.whole, Nat.reduceSub] <;> rfl
  change decodeByMajor ((encVrdshape d).extractLsb' 26 6) (encVrdshape d) = _
  rw [hm]
  have ho : (encVrdshape d).extractLsb' 0 4 = 0x4#4 := by
    simp (disch := decide) only [encVrdshape, RoundTrip.low, RoundTrip.high, RoundTrip.whole, Nat.reduceSub] <;> rfl
  change decodeMajor28Op ((encVrdshape d).extractLsb' 0 4) (encVrdshape d) = _
  rw [ho]
  change ((if (encVrdshape d).extractLsb' 4 17 == 0x0#17 then some (.vrdshape ((encVrdshape d).extractLsb' 21 5)) else none) : Option Instr) = _
  simp (disch := decide) only [encVrdshape, RoundTrip.low, RoundTrip.high, RoundTrip.whole, Nat.reduceSub] <;> rfl
theorem RoundTrip.mshape (p : BitVec 5) (r : BitVec 3) : RoundTrip.Statement (.mshape p r) := fun _ => by
  have hm : (encMshape p r).extractLsb' 26 6 = 0x29#6 := by
    simp (disch := decide) only [encMshape, RoundTrip.low, RoundTrip.high, RoundTrip.whole, Nat.reduceSub] <;> rfl
  change decodeByMajor ((encMshape p r).extractLsb' 26 6) (encMshape p r) = _
  rw [hm]
  have ho : (encMshape p r).extractLsb' 0 5 = 0x0#5 := by
    simp (disch := decide) only [encMshape, RoundTrip.low, RoundTrip.high, RoundTrip.whole, Nat.reduceSub] <;> rfl
  change decodeMajor29Op ((encMshape p r).extractLsb' 0 5) (encMshape p r) = _
  rw [ho]
  change ((if (encMshape p r).extractLsb' 5 6 == 0x0#6 && (encMshape p r).extractLsb' 14 7 == 0x0#7 then some (.mshape ((encMshape p r).extractLsb' 21 5) ((encMshape p r).extractLsb' 11 3)) else none) : Option Instr) = _
  simp (disch := decide) only [encMshape, RoundTrip.low, RoundTrip.high, RoundTrip.whole, Nat.reduceSub] <;> rfl
theorem RoundTrip.mzero (n : BitVec 2) : RoundTrip.Statement (.mzero n) := fun _ => by
  have hm : (encMzero n).extractLsb' 26 6 = 0x29#6 := by
    simp (disch := decide) only [encMzero, RoundTrip.low, RoundTrip.high, RoundTrip.whole, Nat.reduceSub] <;> rfl
  change decodeByMajor ((encMzero n).extractLsb' 26 6) (encMzero n) = _
  rw [hm]
  have ho : (encMzero n).extractLsb' 0 5 = 0x1#5 := by
    simp (disch := decide) only [encMzero, RoundTrip.low, RoundTrip.high, RoundTrip.whole, Nat.reduceSub] <;> rfl
  change decodeMajor29Op ((encMzero n).extractLsb' 0 5) (encMzero n) = _
  rw [ho]
  change ((if (encMzero n).extractLsb' 5 4 == 0x0#4 && (encMzero n).extractLsb' 11 15 == 0x0#15 then some (.mzero ((encMzero n).extractLsb' 9 2)) else none) : Option Instr) = _
  simp (disch := decide) only [encMzero, RoundTrip.low, RoundTrip.high, RoundTrip.whole, Nat.reduceSub] <;> rfl
theorem RoundTrip.mlds (p : BitVec 5) (q : BitVec 5) (f : BitVec 4) : RoundTrip.Statement (.mlds p q f) := fun _ => by
  have hm : (encMlds p q f).extractLsb' 26 6 = 0x29#6 := by
    simp (disch := decide) only [encMlds, RoundTrip.low, RoundTrip.high, RoundTrip.whole, Nat.reduceSub] <;> rfl
  change decodeByMajor ((encMlds p q f).extractLsb' 26 6) (encMlds p q f) = _
  rw [hm]
  have ho : (encMlds p q f).extractLsb' 0 5 = 0x2#5 := by
    simp (disch := decide) only [encMlds, RoundTrip.low, RoundTrip.high, RoundTrip.whole, Nat.reduceSub] <;> rfl
  change decodeMajor29Op ((encMlds p q f).extractLsb' 0 5) (encMlds p q f) = _
  rw [ho]
  change ((if (encMlds p q f).extractLsb' 9 7 == 0x0#7 then some (.mlds ((encMlds p q f).extractLsb' 21 5) ((encMlds p q f).extractLsb' 16 5) ((encMlds p q f).extractLsb' 5 4)) else none) : Option Instr) = _
  simp (disch := decide) only [encMlds, RoundTrip.low, RoundTrip.high, RoundTrip.whole, Nat.reduceSub] <;> rfl
theorem RoundTrip.mswap : RoundTrip.Statement .mswap := fun _ => by
  have hm : encMswap.extractLsb' 26 6 = 0x29#6 := by
    simp (disch := decide) only [encMswap, RoundTrip.low, RoundTrip.high, RoundTrip.whole, Nat.reduceSub] <;> rfl
  change decodeByMajor (encMswap.extractLsb' 26 6) encMswap = _
  rw [hm]
  have ho : encMswap.extractLsb' 0 5 = 0x3#5 := by
    simp (disch := decide) only [encMswap, RoundTrip.low, RoundTrip.high, RoundTrip.whole, Nat.reduceSub] <;> rfl
  change decodeMajor29Op (encMswap.extractLsb' 0 5) encMswap = _
  rw [ho]
  change ((if encMswap.extractLsb' 5 21 == 0x0#21 then some .mswap else none) : Option Instr) = _
  simp (disch := decide) only [encMswap, RoundTrip.low, RoundTrip.high, RoundTrip.whole, Nat.reduceSub] <;> rfl
theorem RoundTrip.mop (p : BitVec 5) (q : BitVec 5) (n : BitVec 2) (f : BitVec 4) : RoundTrip.Statement (.mop p q n f) := fun _ => by
  have hm : (encMop p q n f).extractLsb' 26 6 = 0x29#6 := by
    simp (disch := decide) only [encMop, RoundTrip.low, RoundTrip.high, RoundTrip.whole, Nat.reduceSub] <;> rfl
  change decodeByMajor ((encMop p q n f).extractLsb' 26 6) (encMop p q n f) = _
  rw [hm]
  have ho : (encMop p q n f).extractLsb' 0 5 = 0x4#5 := by
    simp (disch := decide) only [encMop, RoundTrip.low, RoundTrip.high, RoundTrip.whole, Nat.reduceSub] <;> rfl
  change decodeMajor29Op ((encMop p q n f).extractLsb' 0 5) (encMop p q n f) = _
  rw [ho]
  change ((if (encMop p q n f).extractLsb' 11 5 == 0x0#5 then some (.mop ((encMop p q n f).extractLsb' 21 5) ((encMop p q n f).extractLsb' 16 5) ((encMop p q n f).extractLsb' 9 2) ((encMop p q n f).extractLsb' 5 4)) else none) : Option Instr) = _
  simp (disch := decide) only [encMop, RoundTrip.low, RoundTrip.high, RoundTrip.whole, Nat.reduceSub] <;> rfl
theorem RoundTrip.mops (p : BitVec 5) (q : BitVec 5) (n : BitVec 2) (f : BitVec 4) : RoundTrip.Statement (.mops p q n f) := fun _ => by
  have hm : (encMops p q n f).extractLsb' 26 6 = 0x29#6 := by
    simp (disch := decide) only [encMops, RoundTrip.low, RoundTrip.high, RoundTrip.whole, Nat.reduceSub] <;> rfl
  change decodeByMajor ((encMops p q n f).extractLsb' 26 6) (encMops p q n f) = _
  rw [hm]
  have ho : (encMops p q n f).extractLsb' 0 5 = 0x5#5 := by
    simp (disch := decide) only [encMops, RoundTrip.low, RoundTrip.high, RoundTrip.whole, Nat.reduceSub] <;> rfl
  change decodeMajor29Op ((encMops p q n f).extractLsb' 0 5) (encMops p q n f) = _
  rw [ho]
  change ((if (encMops p q n f).extractLsb' 11 5 == 0x0#5 then some (.mops ((encMops p q n f).extractLsb' 21 5) ((encMops p q n f).extractLsb' 16 5) ((encMops p q n f).extractLsb' 9 2) ((encMops p q n f).extractLsb' 5 4)) else none) : Option Instr) = _
  simp (disch := decide) only [encMops, RoundTrip.low, RoundTrip.high, RoundTrip.whole, Nat.reduceSub] <;> rfl
theorem RoundTrip.mrd (p : BitVec 5) (q : BitVec 5) (n : BitVec 2) : RoundTrip.Statement (.mrd p q n) := fun _ => by
  have hm : (encMrd p q n).extractLsb' 26 6 = 0x29#6 := by
    simp (disch := decide) only [encMrd, RoundTrip.low, RoundTrip.high, RoundTrip.whole, Nat.reduceSub] <;> rfl
  change decodeByMajor ((encMrd p q n).extractLsb' 26 6) (encMrd p q n) = _
  rw [hm]
  have ho : (encMrd p q n).extractLsb' 0 5 = 0x6#5 := by
    simp (disch := decide) only [encMrd, RoundTrip.low, RoundTrip.high, RoundTrip.whole, Nat.reduceSub] <;> rfl
  change decodeMajor29Op ((encMrd p q n).extractLsb' 0 5) (encMrd p q n) = _
  rw [ho]
  change ((if (encMrd p q n).extractLsb' 5 4 == 0x0#4 && (encMrd p q n).extractLsb' 11 5 == 0x0#5 then some (.mrd ((encMrd p q n).extractLsb' 21 5) ((encMrd p q n).extractLsb' 16 5) ((encMrd p q n).extractLsb' 9 2)) else none) : Option Instr) = _
  simp (disch := decide) only [encMrd, RoundTrip.low, RoundTrip.high, RoundTrip.whole, Nat.reduceSub] <;> rfl
theorem RoundTrip.mwr (p : BitVec 5) (q : BitVec 5) (n : BitVec 2) : RoundTrip.Statement (.mwr p q n) := fun _ => by
  have hm : (encMwr p q n).extractLsb' 26 6 = 0x29#6 := by
    simp (disch := decide) only [encMwr, RoundTrip.low, RoundTrip.high, RoundTrip.whole, Nat.reduceSub] <;> rfl
  change decodeByMajor ((encMwr p q n).extractLsb' 26 6) (encMwr p q n) = _
  rw [hm]
  have ho : (encMwr p q n).extractLsb' 0 5 = 0x7#5 := by
    simp (disch := decide) only [encMwr, RoundTrip.low, RoundTrip.high, RoundTrip.whole, Nat.reduceSub] <;> rfl
  change decodeMajor29Op ((encMwr p q n).extractLsb' 0 5) (encMwr p q n) = _
  rw [ho]
  change ((if (encMwr p q n).extractLsb' 5 4 == 0x0#4 && (encMwr p q n).extractLsb' 11 5 == 0x0#5 then some (.mwr ((encMwr p q n).extractLsb' 21 5) ((encMwr p q n).extractLsb' 16 5) ((encMwr p q n).extractLsb' 9 2)) else none) : Option Instr) = _
  simp (disch := decide) only [encMwr, RoundTrip.low, RoundTrip.high, RoundTrip.whole, Nat.reduceSub] <;> rfl
theorem RoundTrip.mcvt (r : BitVec 3) (n : BitVec 2) (f : BitVec 4) : RoundTrip.Statement (.mcvt r n f) := fun _ => by
  have hm : (encMcvt r n f).extractLsb' 26 6 = 0x29#6 := by
    simp (disch := decide) only [encMcvt, RoundTrip.low, RoundTrip.high, RoundTrip.whole, Nat.reduceSub] <;> rfl
  change decodeByMajor ((encMcvt r n f).extractLsb' 26 6) (encMcvt r n f) = _
  rw [hm]
  have ho : (encMcvt r n f).extractLsb' 0 5 = 0x8#5 := by
    simp (disch := decide) only [encMcvt, RoundTrip.low, RoundTrip.high, RoundTrip.whole, Nat.reduceSub] <;> rfl
  change decodeMajor29Op ((encMcvt r n f).extractLsb' 0 5) (encMcvt r n f) = _
  rw [ho]
  change ((if (encMcvt r n f).extractLsb' 14 12 == 0x0#12 then some (.mcvt ((encMcvt r n f).extractLsb' 11 3) ((encMcvt r n f).extractLsb' 9 2) ((encMcvt r n f).extractLsb' 5 4)) else none) : Option Instr) = _
  simp (disch := decide) only [encMcvt, RoundTrip.low, RoundTrip.high, RoundTrip.whole, Nat.reduceSub] <;> rfl
theorem RoundTrip.mopx (p : BitVec 5) (q : BitVec 5) (s : BitVec 5) (n : BitVec 2) (f : BitVec 4) : RoundTrip.Statement (.mopx p q s n f) := fun _ => by
  have hm : (encMopx p q s n f).extractLsb' 26 6 = 0x29#6 := by
    simp (disch := decide) only [encMopx, RoundTrip.low, RoundTrip.high, RoundTrip.whole, Nat.reduceSub] <;> rfl
  change decodeByMajor ((encMopx p q s n f).extractLsb' 26 6) (encMopx p q s n f) = _
  rw [hm]
  have ho : (encMopx p q s n f).extractLsb' 0 5 = 0x9#5 := by
    simp (disch := decide) only [encMopx, RoundTrip.low, RoundTrip.high, RoundTrip.whole, Nat.reduceSub] <;> rfl
  change decodeMajor29Op ((encMopx p q s n f).extractLsb' 0 5) (encMopx p q s n f) = _
  rw [ho]
  change (some (.mopx ((encMopx p q s n f).extractLsb' 21 5) ((encMopx p q s n f).extractLsb' 16 5) ((encMopx p q s n f).extractLsb' 11 5) ((encMopx p q s n f).extractLsb' 9 2) ((encMopx p q s n f).extractLsb' 5 4)) : Option Instr) = _
  simp (disch := decide) only [encMopx, RoundTrip.low, RoundTrip.high, RoundTrip.whole, Nat.reduceSub] <;> rfl
theorem RoundTrip.mopsx (p : BitVec 5) (q : BitVec 5) (s : BitVec 5) (n : BitVec 2) (f : BitVec 4) : RoundTrip.Statement (.mopsx p q s n f) := fun _ => by
  have hm : (encMopsx p q s n f).extractLsb' 26 6 = 0x29#6 := by
    simp (disch := decide) only [encMopsx, RoundTrip.low, RoundTrip.high, RoundTrip.whole, Nat.reduceSub] <;> rfl
  change decodeByMajor ((encMopsx p q s n f).extractLsb' 26 6) (encMopsx p q s n f) = _
  rw [hm]
  have ho : (encMopsx p q s n f).extractLsb' 0 5 = 0xa#5 := by
    simp (disch := decide) only [encMopsx, RoundTrip.low, RoundTrip.high, RoundTrip.whole, Nat.reduceSub] <;> rfl
  change decodeMajor29Op ((encMopsx p q s n f).extractLsb' 0 5) (encMopsx p q s n f) = _
  rw [ho]
  change (some (.mopsx ((encMopsx p q s n f).extractLsb' 21 5) ((encMopsx p q s n f).extractLsb' 16 5) ((encMopsx p q s n f).extractLsb' 11 5) ((encMopsx p q s n f).extractLsb' 9 2) ((encMopsx p q s n f).extractLsb' 5 4)) : Option Instr) = _
  simp (disch := decide) only [encMopsx, RoundTrip.low, RoundTrip.high, RoundTrip.whole, Nat.reduceSub] <;> rfl
theorem RoundTrip.sdecl (s : BitVec 5) (a : BitVec 5) : RoundTrip.Statement (.sdecl s a) := fun _ => by
  have hm : (encSdecl s a).extractLsb' 26 6 = 0x2a#6 := by
    simp (disch := decide) only [encSdecl, RoundTrip.low, RoundTrip.high, RoundTrip.whole, Nat.reduceSub] <;> rfl
  change decodeByMajor ((encSdecl s a).extractLsb' 26 6) (encSdecl s a) = _
  rw [hm]
  have ho : (encSdecl s a).extractLsb' 0 5 = 0x0#5 := by
    simp (disch := decide) only [encSdecl, RoundTrip.low, RoundTrip.high, RoundTrip.whole, Nat.reduceSub] <;> rfl
  change decodeMajor2AOp ((encSdecl s a).extractLsb' 0 5) (encSdecl s a) = _
  rw [ho]
  change ((if (encSdecl s a).extractLsb' 5 11 == 0x0#11 then some (.sdecl ((encSdecl s a).extractLsb' 21 5) ((encSdecl s a).extractLsb' 16 5)) else none) : Option Instr) = _
  simp (disch := decide) only [encSdecl, RoundTrip.low, RoundTrip.high, RoundTrip.whole, Nat.reduceSub] <;> rfl
theorem RoundTrip.sbind (d : BitVec 5) (s : BitVec 5) : RoundTrip.Statement (.sbind d s) := fun _ => by
  have hm : (encSbind d s).extractLsb' 26 6 = 0x2a#6 := by
    simp (disch := decide) only [encSbind, RoundTrip.low, RoundTrip.high, RoundTrip.whole, Nat.reduceSub] <;> rfl
  change decodeByMajor ((encSbind d s).extractLsb' 26 6) (encSbind d s) = _
  rw [hm]
  have ho : (encSbind d s).extractLsb' 0 5 = 0x1#5 := by
    simp (disch := decide) only [encSbind, RoundTrip.low, RoundTrip.high, RoundTrip.whole, Nat.reduceSub] <;> rfl
  change decodeMajor2AOp ((encSbind d s).extractLsb' 0 5) (encSbind d s) = _
  rw [ho]
  change ((if (encSbind d s).extractLsb' 5 6 == 0x0#6 && (encSbind d s).extractLsb' 16 5 == 0x0#5 then some (.sbind ((encSbind d s).extractLsb' 21 5) ((encSbind d s).extractLsb' 11 5)) else none) : Option Instr) = _
  simp (disch := decide) only [encSbind, RoundTrip.low, RoundTrip.high, RoundTrip.whole, Nat.reduceSub] <;> rfl
theorem RoundTrip.sunbind (d : BitVec 5) : RoundTrip.Statement (.sunbind d) := fun _ => by
  have hm : (encSunbind d).extractLsb' 26 6 = 0x2a#6 := by
    simp (disch := decide) only [encSunbind, RoundTrip.low, RoundTrip.high, RoundTrip.whole, Nat.reduceSub] <;> rfl
  change decodeByMajor ((encSunbind d).extractLsb' 26 6) (encSunbind d) = _
  rw [hm]
  have ho : (encSunbind d).extractLsb' 0 5 = 0x2#5 := by
    simp (disch := decide) only [encSunbind, RoundTrip.low, RoundTrip.high, RoundTrip.whole, Nat.reduceSub] <;> rfl
  change decodeMajor2AOp ((encSunbind d).extractLsb' 0 5) (encSunbind d) = _
  rw [ho]
  change ((if (encSunbind d).extractLsb' 5 16 == 0x0#16 then some (.sunbind ((encSunbind d).extractLsb' 21 5)) else none) : Option Instr) = _
  simp (disch := decide) only [encSunbind, RoundTrip.low, RoundTrip.high, RoundTrip.whole, Nat.reduceSub] <;> rfl
theorem RoundTrip.sstat (d : BitVec 5) (s : BitVec 5) : RoundTrip.Statement (.sstat d s) := fun _ => by
  have hm : (encSstat d s).extractLsb' 26 6 = 0x2a#6 := by
    simp (disch := decide) only [encSstat, RoundTrip.low, RoundTrip.high, RoundTrip.whole, Nat.reduceSub] <;> rfl
  change decodeByMajor ((encSstat d s).extractLsb' 26 6) (encSstat d s) = _
  rw [hm]
  have ho : (encSstat d s).extractLsb' 0 5 = 0x3#5 := by
    simp (disch := decide) only [encSstat, RoundTrip.low, RoundTrip.high, RoundTrip.whole, Nat.reduceSub] <;> rfl
  change decodeMajor2AOp ((encSstat d s).extractLsb' 0 5) (encSstat d s) = _
  rw [ho]
  change ((if (encSstat d s).extractLsb' 5 6 == 0x0#6 && (encSstat d s).extractLsb' 16 5 == 0x0#5 then some (.sstat ((encSstat d s).extractLsb' 21 5) ((encSstat d s).extractLsb' 11 5)) else none) : Option Instr) = _
  simp (disch := decide) only [encSstat, RoundTrip.low, RoundTrip.high, RoundTrip.whole, Nat.reduceSub] <;> rfl
theorem RoundTrip.palloc (d : BitVec 5) (a : BitVec 5) (b : BitVec 5) : RoundTrip.Statement (.palloc d a b) := fun _ => by
  have hm : (encPalloc d a b).extractLsb' 26 6 = 0x2a#6 := by
    simp (disch := decide) only [encPalloc, RoundTrip.low, RoundTrip.high, RoundTrip.whole, Nat.reduceSub] <;> rfl
  change decodeByMajor ((encPalloc d a b).extractLsb' 26 6) (encPalloc d a b) = _
  rw [hm]
  have ho : (encPalloc d a b).extractLsb' 0 5 = 0x4#5 := by
    simp (disch := decide) only [encPalloc, RoundTrip.low, RoundTrip.high, RoundTrip.whole, Nat.reduceSub] <;> rfl
  change decodeMajor2AOp ((encPalloc d a b).extractLsb' 0 5) (encPalloc d a b) = _
  rw [ho]
  change ((if (encPalloc d a b).extractLsb' 5 6 == 0x0#6 then some (.palloc ((encPalloc d a b).extractLsb' 21 5) ((encPalloc d a b).extractLsb' 16 5) ((encPalloc d a b).extractLsb' 11 5)) else none) : Option Instr) = _
  simp (disch := decide) only [encPalloc, RoundTrip.low, RoundTrip.high, RoundTrip.whole, Nat.reduceSub] <;> rfl
theorem RoundTrip.pstate (d : BitVec 5) (a : BitVec 5) : RoundTrip.Statement (.pstate d a) := fun _ => by
  have hm : (encPstate d a).extractLsb' 26 6 = 0x2a#6 := by
    simp (disch := decide) only [encPstate, RoundTrip.low, RoundTrip.high, RoundTrip.whole, Nat.reduceSub] <;> rfl
  change decodeByMajor ((encPstate d a).extractLsb' 26 6) (encPstate d a) = _
  rw [hm]
  have ho : (encPstate d a).extractLsb' 0 5 = 0x5#5 := by
    simp (disch := decide) only [encPstate, RoundTrip.low, RoundTrip.high, RoundTrip.whole, Nat.reduceSub] <;> rfl
  change decodeMajor2AOp ((encPstate d a).extractLsb' 0 5) (encPstate d a) = _
  rw [ho]
  change ((if (encPstate d a).extractLsb' 5 11 == 0x0#11 then some (.pstate ((encPstate d a).extractLsb' 21 5) ((encPstate d a).extractLsb' 16 5)) else none) : Option Instr) = _
  simp (disch := decide) only [encPstate, RoundTrip.low, RoundTrip.high, RoundTrip.whole, Nat.reduceSub] <;> rfl
theorem RoundTrip.pfree (a : BitVec 5) : RoundTrip.Statement (.pfree a) := fun _ => by
  have hm : (encPfree a).extractLsb' 26 6 = 0x2a#6 := by
    simp (disch := decide) only [encPfree, RoundTrip.low, RoundTrip.high, RoundTrip.whole, Nat.reduceSub] <;> rfl
  change decodeByMajor ((encPfree a).extractLsb' 26 6) (encPfree a) = _
  rw [hm]
  have ho : (encPfree a).extractLsb' 0 5 = 0x6#5 := by
    simp (disch := decide) only [encPfree, RoundTrip.low, RoundTrip.high, RoundTrip.whole, Nat.reduceSub] <;> rfl
  change decodeMajor2AOp ((encPfree a).extractLsb' 0 5) (encPfree a) = _
  rw [ho]
  change ((if (encPfree a).extractLsb' 5 11 == 0x0#11 && (encPfree a).extractLsb' 21 5 == 0x0#5 then some (.pfree ((encPfree a).extractLsb' 16 5)) else none) : Option Instr) = _
  simp (disch := decide) only [encPfree, RoundTrip.low, RoundTrip.high, RoundTrip.whole, Nat.reduceSub] <;> rfl
theorem RoundTrip.lxcopy (d : BitVec 5) (a : BitVec 5) (s : BitVec 3) (c : BitVec 1) (e : BitVec 1) : RoundTrip.Statement (.lxcopy d a s c e) := fun _ => by
  have hm : (encLxcopy d a s c e).extractLsb' 26 6 = 0x2a#6 := by
    simp (disch := decide) only [encLxcopy, RoundTrip.low, RoundTrip.high, RoundTrip.whole, Nat.reduceSub] <;> rfl
  change decodeByMajor ((encLxcopy d a s c e).extractLsb' 26 6) (encLxcopy d a s c e) = _
  rw [hm]
  have ho : (encLxcopy d a s c e).extractLsb' 0 5 = 0x7#5 := by
    simp (disch := decide) only [encLxcopy, RoundTrip.low, RoundTrip.high, RoundTrip.whole, Nat.reduceSub] <;> rfl
  change decodeMajor2AOp ((encLxcopy d a s c e).extractLsb' 0 5) (encLxcopy d a s c e) = _
  rw [ho]
  change ((if (encLxcopy d a s c e).extractLsb' 5 1 == 0x0#1 && (encLxcopy d a s c e).extractLsb' 11 5 == 0x0#5 then some (.lxcopy ((encLxcopy d a s c e).extractLsb' 21 5) ((encLxcopy d a s c e).extractLsb' 16 5) ((encLxcopy d a s c e).extractLsb' 8 3) ((encLxcopy d a s c e).extractLsb' 7 1) ((encLxcopy d a s c e).extractLsb' 6 1)) else none) : Option Instr) = _
  simp (disch := decide) only [encLxcopy, RoundTrip.low, RoundTrip.high, RoundTrip.whole, Nat.reduceSub] <;> rfl
theorem RoundTrip.lxgath (d : BitVec 5) (a : BitVec 5) (s : BitVec 3) (c : BitVec 1) (e : BitVec 1) : RoundTrip.Statement (.lxgath d a s c e) := fun _ => by
  have hm : (encLxgath d a s c e).extractLsb' 26 6 = 0x2a#6 := by
    simp (disch := decide) only [encLxgath, RoundTrip.low, RoundTrip.high, RoundTrip.whole, Nat.reduceSub] <;> rfl
  change decodeByMajor ((encLxgath d a s c e).extractLsb' 26 6) (encLxgath d a s c e) = _
  rw [hm]
  have ho : (encLxgath d a s c e).extractLsb' 0 5 = 0x8#5 := by
    simp (disch := decide) only [encLxgath, RoundTrip.low, RoundTrip.high, RoundTrip.whole, Nat.reduceSub] <;> rfl
  change decodeMajor2AOp ((encLxgath d a s c e).extractLsb' 0 5) (encLxgath d a s c e) = _
  rw [ho]
  change ((if (encLxgath d a s c e).extractLsb' 5 1 == 0x0#1 && (encLxgath d a s c e).extractLsb' 11 5 == 0x0#5 then some (.lxgath ((encLxgath d a s c e).extractLsb' 21 5) ((encLxgath d a s c e).extractLsb' 16 5) ((encLxgath d a s c e).extractLsb' 8 3) ((encLxgath d a s c e).extractLsb' 7 1) ((encLxgath d a s c e).extractLsb' 6 1)) else none) : Option Instr) = _
  simp (disch := decide) only [encLxgath, RoundTrip.low, RoundTrip.high, RoundTrip.whole, Nat.reduceSub] <;> rfl
theorem RoundTrip.lxscat (d : BitVec 5) (a : BitVec 5) (s : BitVec 3) (c : BitVec 1) (e : BitVec 1) : RoundTrip.Statement (.lxscat d a s c e) := fun _ => by
  have hm : (encLxscat d a s c e).extractLsb' 26 6 = 0x2a#6 := by
    simp (disch := decide) only [encLxscat, RoundTrip.low, RoundTrip.high, RoundTrip.whole, Nat.reduceSub] <;> rfl
  change decodeByMajor ((encLxscat d a s c e).extractLsb' 26 6) (encLxscat d a s c e) = _
  rw [hm]
  have ho : (encLxscat d a s c e).extractLsb' 0 5 = 0x9#5 := by
    simp (disch := decide) only [encLxscat, RoundTrip.low, RoundTrip.high, RoundTrip.whole, Nat.reduceSub] <;> rfl
  change decodeMajor2AOp ((encLxscat d a s c e).extractLsb' 0 5) (encLxscat d a s c e) = _
  rw [ho]
  change ((if (encLxscat d a s c e).extractLsb' 5 1 == 0x0#1 && (encLxscat d a s c e).extractLsb' 11 5 == 0x0#5 then some (.lxscat ((encLxscat d a s c e).extractLsb' 21 5) ((encLxscat d a s c e).extractLsb' 16 5) ((encLxscat d a s c e).extractLsb' 8 3) ((encLxscat d a s c e).extractLsb' 7 1) ((encLxscat d a s c e).extractLsb' 6 1)) else none) : Option Instr) = _
  simp (disch := decide) only [encLxscat, RoundTrip.low, RoundTrip.high, RoundTrip.whole, Nat.reduceSub] <;> rfl
theorem RoundTrip.lxpoll (d : BitVec 5) (a : BitVec 5) : RoundTrip.Statement (.lxpoll d a) := fun _ => by
  have hm : (encLxpoll d a).extractLsb' 26 6 = 0x2a#6 := by
    simp (disch := decide) only [encLxpoll, RoundTrip.low, RoundTrip.high, RoundTrip.whole, Nat.reduceSub] <;> rfl
  change decodeByMajor ((encLxpoll d a).extractLsb' 26 6) (encLxpoll d a) = _
  rw [hm]
  have ho : (encLxpoll d a).extractLsb' 0 5 = 0xa#5 := by
    simp (disch := decide) only [encLxpoll, RoundTrip.low, RoundTrip.high, RoundTrip.whole, Nat.reduceSub] <;> rfl
  change decodeMajor2AOp ((encLxpoll d a).extractLsb' 0 5) (encLxpoll d a) = _
  rw [ho]
  change ((if (encLxpoll d a).extractLsb' 5 11 == 0x0#11 then some (.lxpoll ((encLxpoll d a).extractLsb' 21 5) ((encLxpoll d a).extractLsb' 16 5)) else none) : Option Instr) = _
  simp (disch := decide) only [encLxpoll, RoundTrip.low, RoundTrip.high, RoundTrip.whole, Nat.reduceSub] <;> rfl
theorem RoundTrip.seal (a : BitVec 5) : RoundTrip.Statement (.seal a) := fun _ => by
  have hm : (encSeal a).extractLsb' 26 6 = 0x2a#6 := by
    simp (disch := decide) only [encSeal, RoundTrip.low, RoundTrip.high, RoundTrip.whole, Nat.reduceSub] <;> rfl
  change decodeByMajor ((encSeal a).extractLsb' 26 6) (encSeal a) = _
  rw [hm]
  have ho : (encSeal a).extractLsb' 0 5 = 0xb#5 := by
    simp (disch := decide) only [encSeal, RoundTrip.low, RoundTrip.high, RoundTrip.whole, Nat.reduceSub] <;> rfl
  change decodeMajor2AOp ((encSeal a).extractLsb' 0 5) (encSeal a) = _
  rw [ho]
  change ((if (encSeal a).extractLsb' 5 11 == 0x0#11 && (encSeal a).extractLsb' 21 5 == 0x0#5 then some (.seal ((encSeal a).extractLsb' 16 5)) else none) : Option Instr) = _
  simp (disch := decide) only [encSeal, RoundTrip.low, RoundTrip.high, RoundTrip.whole, Nat.reduceSub] <;> rfl
theorem RoundTrip.unseal (a : BitVec 5) : RoundTrip.Statement (.unseal a) := fun _ => by
  have hm : (encUnseal a).extractLsb' 26 6 = 0x2a#6 := by
    simp (disch := decide) only [encUnseal, RoundTrip.low, RoundTrip.high, RoundTrip.whole, Nat.reduceSub] <;> rfl
  change decodeByMajor ((encUnseal a).extractLsb' 26 6) (encUnseal a) = _
  rw [hm]
  have ho : (encUnseal a).extractLsb' 0 5 = 0xc#5 := by
    simp (disch := decide) only [encUnseal, RoundTrip.low, RoundTrip.high, RoundTrip.whole, Nat.reduceSub] <;> rfl
  change decodeMajor2AOp ((encUnseal a).extractLsb' 0 5) (encUnseal a) = _
  rw [ho]
  change ((if (encUnseal a).extractLsb' 5 11 == 0x0#11 && (encUnseal a).extractLsb' 21 5 == 0x0#5 then some (.unseal ((encUnseal a).extractLsb' 16 5)) else none) : Option Instr) = _
  simp (disch := decide) only [encUnseal, RoundTrip.low, RoundTrip.high, RoundTrip.whole, Nat.reduceSub] <;> rfl
theorem RoundTrip.relb (a : BitVec 5) : RoundTrip.Statement (.relb a) := fun _ => by
  have hm : (encRelb a).extractLsb' 26 6 = 0x2a#6 := by
    simp (disch := decide) only [encRelb, RoundTrip.low, RoundTrip.high, RoundTrip.whole, Nat.reduceSub] <;> rfl
  change decodeByMajor ((encRelb a).extractLsb' 26 6) (encRelb a) = _
  rw [hm]
  have ho : (encRelb a).extractLsb' 0 5 = 0xd#5 := by
    simp (disch := decide) only [encRelb, RoundTrip.low, RoundTrip.high, RoundTrip.whole, Nat.reduceSub] <;> rfl
  change decodeMajor2AOp ((encRelb a).extractLsb' 0 5) (encRelb a) = _
  rw [ho]
  change ((if (encRelb a).extractLsb' 5 11 == 0x0#11 && (encRelb a).extractLsb' 21 5 == 0x0#5 then some (.relb ((encRelb a).extractLsb' 16 5)) else none) : Option Instr) = _
  simp (disch := decide) only [encRelb, RoundTrip.low, RoundTrip.high, RoundTrip.whole, Nat.reduceSub] <;> rfl
theorem RoundTrip.rspawn (a : BitVec 5) (b : BitVec 5) : RoundTrip.Statement (.rspawn a b) := fun _ => by
  have hm : (encRspawn a b).extractLsb' 26 6 = 0x2b#6 := by
    simp (disch := decide) only [encRspawn, RoundTrip.low, RoundTrip.high, RoundTrip.whole, Nat.reduceSub] <;> rfl
  change decodeByMajor ((encRspawn a b).extractLsb' 26 6) (encRspawn a b) = _
  rw [hm]
  have ho : (encRspawn a b).extractLsb' 0 4 = 0x0#4 := by
    simp (disch := decide) only [encRspawn, RoundTrip.low, RoundTrip.high, RoundTrip.whole, Nat.reduceSub] <;> rfl
  change decodeMajor2BOp ((encRspawn a b).extractLsb' 0 4) (encRspawn a b) = _
  rw [ho]
  change ((if (encRspawn a b).extractLsb' 4 7 == 0x0#7 && (encRspawn a b).extractLsb' 21 5 == 0x0#5 then some (.rspawn ((encRspawn a b).extractLsb' 16 5) ((encRspawn a b).extractLsb' 11 5)) else none) : Option Instr) = _
  simp (disch := decide) only [encRspawn, RoundTrip.low, RoundTrip.high, RoundTrip.whole, Nat.reduceSub] <;> rfl
theorem RoundTrip.dqpush (a : BitVec 5) (b : BitVec 5) : RoundTrip.Statement (.dqpush a b) := fun _ => by
  have hm : (encDqpush a b).extractLsb' 26 6 = 0x2b#6 := by
    simp (disch := decide) only [encDqpush, RoundTrip.low, RoundTrip.high, RoundTrip.whole, Nat.reduceSub] <;> rfl
  change decodeByMajor ((encDqpush a b).extractLsb' 26 6) (encDqpush a b) = _
  rw [hm]
  have ho : (encDqpush a b).extractLsb' 0 4 = 0x1#4 := by
    simp (disch := decide) only [encDqpush, RoundTrip.low, RoundTrip.high, RoundTrip.whole, Nat.reduceSub] <;> rfl
  change decodeMajor2BOp ((encDqpush a b).extractLsb' 0 4) (encDqpush a b) = _
  rw [ho]
  change ((if (encDqpush a b).extractLsb' 4 7 == 0x0#7 && (encDqpush a b).extractLsb' 21 5 == 0x0#5 then some (.dqpush ((encDqpush a b).extractLsb' 16 5) ((encDqpush a b).extractLsb' 11 5)) else none) : Option Instr) = _
  simp (disch := decide) only [encDqpush, RoundTrip.low, RoundTrip.high, RoundTrip.whole, Nat.reduceSub] <;> rfl
theorem RoundTrip.dqpop (d : BitVec 5) : RoundTrip.Statement (.dqpop d) := fun _ => by
  have hm : (encDqpop d).extractLsb' 26 6 = 0x2b#6 := by
    simp (disch := decide) only [encDqpop, RoundTrip.low, RoundTrip.high, RoundTrip.whole, Nat.reduceSub] <;> rfl
  change decodeByMajor ((encDqpop d).extractLsb' 26 6) (encDqpop d) = _
  rw [hm]
  have ho : (encDqpop d).extractLsb' 0 4 = 0x2#4 := by
    simp (disch := decide) only [encDqpop, RoundTrip.low, RoundTrip.high, RoundTrip.whole, Nat.reduceSub] <;> rfl
  change decodeMajor2BOp ((encDqpop d).extractLsb' 0 4) (encDqpop d) = _
  rw [ho]
  change ((if (encDqpop d).extractLsb' 4 17 == 0x0#17 then some (.dqpop ((encDqpop d).extractLsb' 21 5)) else none) : Option Instr) = _
  simp (disch := decide) only [encDqpop, RoundTrip.low, RoundTrip.high, RoundTrip.whole, Nat.reduceSub] <;> rfl
theorem RoundTrip.joindec (d : BitVec 5) (a : BitVec 5) : RoundTrip.Statement (.joindec d a) := fun _ => by
  have hm : (encJoindec d a).extractLsb' 26 6 = 0x2b#6 := by
    simp (disch := decide) only [encJoindec, RoundTrip.low, RoundTrip.high, RoundTrip.whole, Nat.reduceSub] <;> rfl
  change decodeByMajor ((encJoindec d a).extractLsb' 26 6) (encJoindec d a) = _
  rw [hm]
  have ho : (encJoindec d a).extractLsb' 0 4 = 0x3#4 := by
    simp (disch := decide) only [encJoindec, RoundTrip.low, RoundTrip.high, RoundTrip.whole, Nat.reduceSub] <;> rfl
  change decodeMajor2BOp ((encJoindec d a).extractLsb' 0 4) (encJoindec d a) = _
  rw [ho]
  change ((if (encJoindec d a).extractLsb' 4 12 == 0x0#12 then some (.joindec ((encJoindec d a).extractLsb' 21 5) ((encJoindec d a).extractLsb' 16 5)) else none) : Option Instr) = _
  simp (disch := decide) only [encJoindec, RoundTrip.low, RoundTrip.high, RoundTrip.whole, Nat.reduceSub] <;> rfl
theorem RoundTrip.gnew (d : BitVec 5) (a : BitVec 5) : RoundTrip.Statement (.gnew d a) := fun _ => by
  have hm : (encGnew d a).extractLsb' 26 6 = 0x2b#6 := by
    simp (disch := decide) only [encGnew, RoundTrip.low, RoundTrip.high, RoundTrip.whole, Nat.reduceSub] <;> rfl
  change decodeByMajor ((encGnew d a).extractLsb' 26 6) (encGnew d a) = _
  rw [hm]
  have ho : (encGnew d a).extractLsb' 0 4 = 0x4#4 := by
    simp (disch := decide) only [encGnew, RoundTrip.low, RoundTrip.high, RoundTrip.whole, Nat.reduceSub] <;> rfl
  change decodeMajor2BOp ((encGnew d a).extractLsb' 0 4) (encGnew d a) = _
  rw [ho]
  change ((if (encGnew d a).extractLsb' 4 12 == 0x0#12 then some (.gnew ((encGnew d a).extractLsb' 21 5) ((encGnew d a).extractLsb' 16 5)) else none) : Option Instr) = _
  simp (disch := decide) only [encGnew, RoundTrip.low, RoundTrip.high, RoundTrip.whole, Nat.reduceSub] <;> rfl
theorem RoundTrip.gadd (a : BitVec 5) (b : BitVec 5) : RoundTrip.Statement (.gadd a b) := fun _ => by
  have hm : (encGadd a b).extractLsb' 26 6 = 0x2b#6 := by
    simp (disch := decide) only [encGadd, RoundTrip.low, RoundTrip.high, RoundTrip.whole, Nat.reduceSub] <;> rfl
  change decodeByMajor ((encGadd a b).extractLsb' 26 6) (encGadd a b) = _
  rw [hm]
  have ho : (encGadd a b).extractLsb' 0 4 = 0x5#4 := by
    simp (disch := decide) only [encGadd, RoundTrip.low, RoundTrip.high, RoundTrip.whole, Nat.reduceSub] <;> rfl
  change decodeMajor2BOp ((encGadd a b).extractLsb' 0 4) (encGadd a b) = _
  rw [ho]
  change ((if (encGadd a b).extractLsb' 4 7 == 0x0#7 && (encGadd a b).extractLsb' 21 5 == 0x0#5 then some (.gadd ((encGadd a b).extractLsb' 16 5) ((encGadd a b).extractLsb' 11 5)) else none) : Option Instr) = _
  simp (disch := decide) only [encGadd, RoundTrip.low, RoundTrip.high, RoundTrip.whole, Nat.reduceSub] <;> rfl
theorem RoundTrip.gstop (a : BitVec 5) : RoundTrip.Statement (.gstop a) := fun _ => by
  have hm : (encGstop a).extractLsb' 26 6 = 0x2b#6 := by
    simp (disch := decide) only [encGstop, RoundTrip.low, RoundTrip.high, RoundTrip.whole, Nat.reduceSub] <;> rfl
  change decodeByMajor ((encGstop a).extractLsb' 26 6) (encGstop a) = _
  rw [hm]
  have ho : (encGstop a).extractLsb' 0 4 = 0x6#4 := by
    simp (disch := decide) only [encGstop, RoundTrip.low, RoundTrip.high, RoundTrip.whole, Nat.reduceSub] <;> rfl
  change decodeMajor2BOp ((encGstop a).extractLsb' 0 4) (encGstop a) = _
  rw [ho]
  change ((if (encGstop a).extractLsb' 4 12 == 0x0#12 && (encGstop a).extractLsb' 21 5 == 0x0#5 then some (.gstop ((encGstop a).extractLsb' 16 5)) else none) : Option Instr) = _
  simp (disch := decide) only [encGstop, RoundTrip.low, RoundTrip.high, RoundTrip.whole, Nat.reduceSub] <;> rfl
theorem RoundTrip.gresume (a : BitVec 5) : RoundTrip.Statement (.gresume a) := fun _ => by
  have hm : (encGresume a).extractLsb' 26 6 = 0x2b#6 := by
    simp (disch := decide) only [encGresume, RoundTrip.low, RoundTrip.high, RoundTrip.whole, Nat.reduceSub] <;> rfl
  change decodeByMajor ((encGresume a).extractLsb' 26 6) (encGresume a) = _
  rw [hm]
  have ho : (encGresume a).extractLsb' 0 4 = 0x7#4 := by
    simp (disch := decide) only [encGresume, RoundTrip.low, RoundTrip.high, RoundTrip.whole, Nat.reduceSub] <;> rfl
  change decodeMajor2BOp ((encGresume a).extractLsb' 0 4) (encGresume a) = _
  rw [ho]
  change ((if (encGresume a).extractLsb' 4 12 == 0x0#12 && (encGresume a).extractLsb' 21 5 == 0x0#5 then some (.gresume ((encGresume a).extractLsb' 16 5)) else none) : Option Instr) = _
  simp (disch := decide) only [encGresume, RoundTrip.low, RoundTrip.high, RoundTrip.whole, Nat.reduceSub] <;> rfl
theorem RoundTrip.gbar : RoundTrip.Statement .gbar := fun _ => by
  have hm : encGbar.extractLsb' 26 6 = 0x2b#6 := by
    simp (disch := decide) only [encGbar, RoundTrip.low, RoundTrip.high, RoundTrip.whole, Nat.reduceSub] <;> rfl
  change decodeByMajor (encGbar.extractLsb' 26 6) encGbar = _
  rw [hm]
  have ho : encGbar.extractLsb' 0 4 = 0x8#4 := by
    simp (disch := decide) only [encGbar, RoundTrip.low, RoundTrip.high, RoundTrip.whole, Nat.reduceSub] <;> rfl
  change decodeMajor2BOp (encGbar.extractLsb' 0 4) encGbar = _
  rw [ho]
  change ((if encGbar.extractLsb' 4 22 == 0x0#22 then some .gbar else none) : Option Instr) = _
  simp (disch := decide) only [encGbar, RoundTrip.low, RoundTrip.high, RoundTrip.whole, Nat.reduceSub] <;> rfl
theorem RoundTrip.gcast (a : BitVec 5) (b : BitVec 5) : RoundTrip.Statement (.gcast a b) := fun _ => by
  have hm : (encGcast a b).extractLsb' 26 6 = 0x2b#6 := by
    simp (disch := decide) only [encGcast, RoundTrip.low, RoundTrip.high, RoundTrip.whole, Nat.reduceSub] <;> rfl
  change decodeByMajor ((encGcast a b).extractLsb' 26 6) (encGcast a b) = _
  rw [hm]
  have ho : (encGcast a b).extractLsb' 0 4 = 0x9#4 := by
    simp (disch := decide) only [encGcast, RoundTrip.low, RoundTrip.high, RoundTrip.whole, Nat.reduceSub] <;> rfl
  change decodeMajor2BOp ((encGcast a b).extractLsb' 0 4) (encGcast a b) = _
  rw [ho]
  change ((if (encGcast a b).extractLsb' 4 7 == 0x0#7 && (encGcast a b).extractLsb' 21 5 == 0x0#5 then some (.gcast ((encGcast a b).extractLsb' 16 5) ((encGcast a b).extractLsb' 11 5)) else none) : Option Instr) = _
  simp (disch := decide) only [encGcast, RoundTrip.low, RoundTrip.high, RoundTrip.whole, Nat.reduceSub] <;> rfl
theorem RoundTrip.msend (a : BitVec 5) (b : BitVec 5) (k : BitVec 2) : RoundTrip.Statement (.msend a b k) := fun _ => by
  have hm : (encMsend a b k).extractLsb' 26 6 = 0x2b#6 := by
    simp (disch := decide) only [encMsend, RoundTrip.low, RoundTrip.high, RoundTrip.whole, Nat.reduceSub] <;> rfl
  change decodeByMajor ((encMsend a b k).extractLsb' 26 6) (encMsend a b k) = _
  rw [hm]
  have ho : (encMsend a b k).extractLsb' 0 4 = 0xa#4 := by
    simp (disch := decide) only [encMsend, RoundTrip.low, RoundTrip.high, RoundTrip.whole, Nat.reduceSub] <;> rfl
  change decodeMajor2BOp ((encMsend a b k).extractLsb' 0 4) (encMsend a b k) = _
  rw [ho]
  change ((if (encMsend a b k).extractLsb' 6 5 == 0x0#5 && (encMsend a b k).extractLsb' 21 5 == 0x0#5 then some (.msend ((encMsend a b k).extractLsb' 16 5) ((encMsend a b k).extractLsb' 11 5) ((encMsend a b k).extractLsb' 4 2)) else none) : Option Instr) = _
  simp (disch := decide) only [encMsend, RoundTrip.low, RoundTrip.high, RoundTrip.whole, Nat.reduceSub] <;> rfl
theorem RoundTrip.mrecv (d : BitVec 5) (a : BitVec 5) : RoundTrip.Statement (.mrecv d a) := fun _ => by
  have hm : (encMrecv d a).extractLsb' 26 6 = 0x2b#6 := by
    simp (disch := decide) only [encMrecv, RoundTrip.low, RoundTrip.high, RoundTrip.whole, Nat.reduceSub] <;> rfl
  change decodeByMajor ((encMrecv d a).extractLsb' 26 6) (encMrecv d a) = _
  rw [hm]
  have ho : (encMrecv d a).extractLsb' 0 4 = 0xb#4 := by
    simp (disch := decide) only [encMrecv, RoundTrip.low, RoundTrip.high, RoundTrip.whole, Nat.reduceSub] <;> rfl
  change decodeMajor2BOp ((encMrecv d a).extractLsb' 0 4) (encMrecv d a) = _
  rw [ho]
  change ((if (encMrecv d a).extractLsb' 4 12 == 0x0#12 then some (.mrecv ((encMrecv d a).extractLsb' 21 5) ((encMrecv d a).extractLsb' 16 5)) else none) : Option Instr) = _
  simp (disch := decide) only [encMrecv, RoundTrip.low, RoundTrip.high, RoundTrip.whole, Nat.reduceSub] <;> rfl
theorem RoundTrip.waitm : RoundTrip.Statement .waitm := fun _ => by
  have hm : encWaitm.extractLsb' 26 6 = 0x2b#6 := by
    simp (disch := decide) only [encWaitm, RoundTrip.low, RoundTrip.high, RoundTrip.whole, Nat.reduceSub] <;> rfl
  change decodeByMajor (encWaitm.extractLsb' 26 6) encWaitm = _
  rw [hm]
  have ho : encWaitm.extractLsb' 0 4 = 0xc#4 := by
    simp (disch := decide) only [encWaitm, RoundTrip.low, RoundTrip.high, RoundTrip.whole, Nat.reduceSub] <;> rfl
  change decodeMajor2BOp (encWaitm.extractLsb' 0 4) encWaitm = _
  rw [ho]
  change ((if encWaitm.extractLsb' 4 22 == 0x0#22 then some .waitm else none) : Option Instr) = _
  simp (disch := decide) only [encWaitm, RoundTrip.low, RoundTrip.high, RoundTrip.whole, Nat.reduceSub] <;> rfl
theorem RoundTrip.waitt (a : BitVec 5) : RoundTrip.Statement (.waitt a) := fun _ => by
  have hm : (encWaitt a).extractLsb' 26 6 = 0x2b#6 := by
    simp (disch := decide) only [encWaitt, RoundTrip.low, RoundTrip.high, RoundTrip.whole, Nat.reduceSub] <;> rfl
  change decodeByMajor ((encWaitt a).extractLsb' 26 6) (encWaitt a) = _
  rw [hm]
  have ho : (encWaitt a).extractLsb' 0 4 = 0xd#4 := by
    simp (disch := decide) only [encWaitt, RoundTrip.low, RoundTrip.high, RoundTrip.whole, Nat.reduceSub] <;> rfl
  change decodeMajor2BOp ((encWaitt a).extractLsb' 0 4) (encWaitt a) = _
  rw [ho]
  change ((if (encWaitt a).extractLsb' 4 12 == 0x0#12 && (encWaitt a).extractLsb' 21 5 == 0x0#5 then some (.waitt ((encWaitt a).extractLsb' 16 5)) else none) : Option Instr) = _
  simp (disch := decide) only [encWaitt, RoundTrip.low, RoundTrip.high, RoundTrip.whole, Nat.reduceSub] <;> rfl
theorem RoundTrip.timeq (d : BitVec 5) : RoundTrip.Statement (.timeq d) := fun _ => by
  have hm : (encTimeq d).extractLsb' 26 6 = 0x2b#6 := by
    simp (disch := decide) only [encTimeq, RoundTrip.low, RoundTrip.high, RoundTrip.whole, Nat.reduceSub] <;> rfl
  change decodeByMajor ((encTimeq d).extractLsb' 26 6) (encTimeq d) = _
  rw [hm]
  have ho : (encTimeq d).extractLsb' 0 4 = 0xe#4 := by
    simp (disch := decide) only [encTimeq, RoundTrip.low, RoundTrip.high, RoundTrip.whole, Nat.reduceSub] <;> rfl
  change decodeMajor2BOp ((encTimeq d).extractLsb' 0 4) (encTimeq d) = _
  rw [ho]
  change ((if (encTimeq d).extractLsb' 4 17 == 0x0#17 then some (.timeq ((encTimeq d).extractLsb' 21 5)) else none) : Option Instr) = _
  simp (disch := decide) only [encTimeq, RoundTrip.low, RoundTrip.high, RoundTrip.whole, Nat.reduceSub] <;> rfl
theorem RoundTrip.amoswap (d : BitVec 5) (a : BitVec 5) (b : BitVec 5) (s : BitVec 3) (o : BitVec 3) (w : BitVec 1) : RoundTrip.Statement (.amoswap d a b s o w) := fun _ => by
  have hm : (encAmoswap d a b s o w).extractLsb' 26 6 = 0x2c#6 := by
    simp (disch := decide) only [encAmoswap, RoundTrip.low, RoundTrip.high, RoundTrip.whole, Nat.reduceSub] <;> rfl
  change decodeByMajor ((encAmoswap d a b s o w).extractLsb' 26 6) (encAmoswap d a b s o w) = _
  rw [hm]
  have ho : (encAmoswap d a b s o w).extractLsb' 1 4 = 0x0#4 := by
    simp (disch := decide) only [encAmoswap, RoundTrip.low, RoundTrip.high, RoundTrip.whole, Nat.reduceSub] <;> rfl
  change decodeMajor2COp ((encAmoswap d a b s o w).extractLsb' 1 4) (encAmoswap d a b s o w) = _
  rw [ho]
  change (some (.amoswap ((encAmoswap d a b s o w).extractLsb' 21 5) ((encAmoswap d a b s o w).extractLsb' 16 5) ((encAmoswap d a b s o w).extractLsb' 11 5) ((encAmoswap d a b s o w).extractLsb' 8 3) ((encAmoswap d a b s o w).extractLsb' 5 3) ((encAmoswap d a b s o w).extractLsb' 0 1)) : Option Instr) = _
  simp (disch := decide) only [encAmoswap, RoundTrip.low, RoundTrip.high, RoundTrip.whole, Nat.reduceSub] <;> rfl
theorem RoundTrip.amoadd (d : BitVec 5) (a : BitVec 5) (b : BitVec 5) (s : BitVec 3) (o : BitVec 3) (w : BitVec 1) : RoundTrip.Statement (.amoadd d a b s o w) := fun _ => by
  have hm : (encAmoadd d a b s o w).extractLsb' 26 6 = 0x2c#6 := by
    simp (disch := decide) only [encAmoadd, RoundTrip.low, RoundTrip.high, RoundTrip.whole, Nat.reduceSub] <;> rfl
  change decodeByMajor ((encAmoadd d a b s o w).extractLsb' 26 6) (encAmoadd d a b s o w) = _
  rw [hm]
  have ho : (encAmoadd d a b s o w).extractLsb' 1 4 = 0x1#4 := by
    simp (disch := decide) only [encAmoadd, RoundTrip.low, RoundTrip.high, RoundTrip.whole, Nat.reduceSub] <;> rfl
  change decodeMajor2COp ((encAmoadd d a b s o w).extractLsb' 1 4) (encAmoadd d a b s o w) = _
  rw [ho]
  change (some (.amoadd ((encAmoadd d a b s o w).extractLsb' 21 5) ((encAmoadd d a b s o w).extractLsb' 16 5) ((encAmoadd d a b s o w).extractLsb' 11 5) ((encAmoadd d a b s o w).extractLsb' 8 3) ((encAmoadd d a b s o w).extractLsb' 5 3) ((encAmoadd d a b s o w).extractLsb' 0 1)) : Option Instr) = _
  simp (disch := decide) only [encAmoadd, RoundTrip.low, RoundTrip.high, RoundTrip.whole, Nat.reduceSub] <;> rfl
theorem RoundTrip.amoand (d : BitVec 5) (a : BitVec 5) (b : BitVec 5) (s : BitVec 3) (o : BitVec 3) (w : BitVec 1) : RoundTrip.Statement (.amoand d a b s o w) := fun _ => by
  have hm : (encAmoand d a b s o w).extractLsb' 26 6 = 0x2c#6 := by
    simp (disch := decide) only [encAmoand, RoundTrip.low, RoundTrip.high, RoundTrip.whole, Nat.reduceSub] <;> rfl
  change decodeByMajor ((encAmoand d a b s o w).extractLsb' 26 6) (encAmoand d a b s o w) = _
  rw [hm]
  have ho : (encAmoand d a b s o w).extractLsb' 1 4 = 0x2#4 := by
    simp (disch := decide) only [encAmoand, RoundTrip.low, RoundTrip.high, RoundTrip.whole, Nat.reduceSub] <;> rfl
  change decodeMajor2COp ((encAmoand d a b s o w).extractLsb' 1 4) (encAmoand d a b s o w) = _
  rw [ho]
  change (some (.amoand ((encAmoand d a b s o w).extractLsb' 21 5) ((encAmoand d a b s o w).extractLsb' 16 5) ((encAmoand d a b s o w).extractLsb' 11 5) ((encAmoand d a b s o w).extractLsb' 8 3) ((encAmoand d a b s o w).extractLsb' 5 3) ((encAmoand d a b s o w).extractLsb' 0 1)) : Option Instr) = _
  simp (disch := decide) only [encAmoand, RoundTrip.low, RoundTrip.high, RoundTrip.whole, Nat.reduceSub] <;> rfl
theorem RoundTrip.amoor (d : BitVec 5) (a : BitVec 5) (b : BitVec 5) (s : BitVec 3) (o : BitVec 3) (w : BitVec 1) : RoundTrip.Statement (.amoor d a b s o w) := fun _ => by
  have hm : (encAmoor d a b s o w).extractLsb' 26 6 = 0x2c#6 := by
    simp (disch := decide) only [encAmoor, RoundTrip.low, RoundTrip.high, RoundTrip.whole, Nat.reduceSub] <;> rfl
  change decodeByMajor ((encAmoor d a b s o w).extractLsb' 26 6) (encAmoor d a b s o w) = _
  rw [hm]
  have ho : (encAmoor d a b s o w).extractLsb' 1 4 = 0x3#4 := by
    simp (disch := decide) only [encAmoor, RoundTrip.low, RoundTrip.high, RoundTrip.whole, Nat.reduceSub] <;> rfl
  change decodeMajor2COp ((encAmoor d a b s o w).extractLsb' 1 4) (encAmoor d a b s o w) = _
  rw [ho]
  change (some (.amoor ((encAmoor d a b s o w).extractLsb' 21 5) ((encAmoor d a b s o w).extractLsb' 16 5) ((encAmoor d a b s o w).extractLsb' 11 5) ((encAmoor d a b s o w).extractLsb' 8 3) ((encAmoor d a b s o w).extractLsb' 5 3) ((encAmoor d a b s o w).extractLsb' 0 1)) : Option Instr) = _
  simp (disch := decide) only [encAmoor, RoundTrip.low, RoundTrip.high, RoundTrip.whole, Nat.reduceSub] <;> rfl
theorem RoundTrip.amoxor (d : BitVec 5) (a : BitVec 5) (b : BitVec 5) (s : BitVec 3) (o : BitVec 3) (w : BitVec 1) : RoundTrip.Statement (.amoxor d a b s o w) := fun _ => by
  have hm : (encAmoxor d a b s o w).extractLsb' 26 6 = 0x2c#6 := by
    simp (disch := decide) only [encAmoxor, RoundTrip.low, RoundTrip.high, RoundTrip.whole, Nat.reduceSub] <;> rfl
  change decodeByMajor ((encAmoxor d a b s o w).extractLsb' 26 6) (encAmoxor d a b s o w) = _
  rw [hm]
  have ho : (encAmoxor d a b s o w).extractLsb' 1 4 = 0x4#4 := by
    simp (disch := decide) only [encAmoxor, RoundTrip.low, RoundTrip.high, RoundTrip.whole, Nat.reduceSub] <;> rfl
  change decodeMajor2COp ((encAmoxor d a b s o w).extractLsb' 1 4) (encAmoxor d a b s o w) = _
  rw [ho]
  change (some (.amoxor ((encAmoxor d a b s o w).extractLsb' 21 5) ((encAmoxor d a b s o w).extractLsb' 16 5) ((encAmoxor d a b s o w).extractLsb' 11 5) ((encAmoxor d a b s o w).extractLsb' 8 3) ((encAmoxor d a b s o w).extractLsb' 5 3) ((encAmoxor d a b s o w).extractLsb' 0 1)) : Option Instr) = _
  simp (disch := decide) only [encAmoxor, RoundTrip.low, RoundTrip.high, RoundTrip.whole, Nat.reduceSub] <;> rfl
theorem RoundTrip.amomin (d : BitVec 5) (a : BitVec 5) (b : BitVec 5) (s : BitVec 3) (o : BitVec 3) (w : BitVec 1) : RoundTrip.Statement (.amomin d a b s o w) := fun _ => by
  have hm : (encAmomin d a b s o w).extractLsb' 26 6 = 0x2c#6 := by
    simp (disch := decide) only [encAmomin, RoundTrip.low, RoundTrip.high, RoundTrip.whole, Nat.reduceSub] <;> rfl
  change decodeByMajor ((encAmomin d a b s o w).extractLsb' 26 6) (encAmomin d a b s o w) = _
  rw [hm]
  have ho : (encAmomin d a b s o w).extractLsb' 1 4 = 0x5#4 := by
    simp (disch := decide) only [encAmomin, RoundTrip.low, RoundTrip.high, RoundTrip.whole, Nat.reduceSub] <;> rfl
  change decodeMajor2COp ((encAmomin d a b s o w).extractLsb' 1 4) (encAmomin d a b s o w) = _
  rw [ho]
  change (some (.amomin ((encAmomin d a b s o w).extractLsb' 21 5) ((encAmomin d a b s o w).extractLsb' 16 5) ((encAmomin d a b s o w).extractLsb' 11 5) ((encAmomin d a b s o w).extractLsb' 8 3) ((encAmomin d a b s o w).extractLsb' 5 3) ((encAmomin d a b s o w).extractLsb' 0 1)) : Option Instr) = _
  simp (disch := decide) only [encAmomin, RoundTrip.low, RoundTrip.high, RoundTrip.whole, Nat.reduceSub] <;> rfl
theorem RoundTrip.amomax (d : BitVec 5) (a : BitVec 5) (b : BitVec 5) (s : BitVec 3) (o : BitVec 3) (w : BitVec 1) : RoundTrip.Statement (.amomax d a b s o w) := fun _ => by
  have hm : (encAmomax d a b s o w).extractLsb' 26 6 = 0x2c#6 := by
    simp (disch := decide) only [encAmomax, RoundTrip.low, RoundTrip.high, RoundTrip.whole, Nat.reduceSub] <;> rfl
  change decodeByMajor ((encAmomax d a b s o w).extractLsb' 26 6) (encAmomax d a b s o w) = _
  rw [hm]
  have ho : (encAmomax d a b s o w).extractLsb' 1 4 = 0x6#4 := by
    simp (disch := decide) only [encAmomax, RoundTrip.low, RoundTrip.high, RoundTrip.whole, Nat.reduceSub] <;> rfl
  change decodeMajor2COp ((encAmomax d a b s o w).extractLsb' 1 4) (encAmomax d a b s o w) = _
  rw [ho]
  change (some (.amomax ((encAmomax d a b s o w).extractLsb' 21 5) ((encAmomax d a b s o w).extractLsb' 16 5) ((encAmomax d a b s o w).extractLsb' 11 5) ((encAmomax d a b s o w).extractLsb' 8 3) ((encAmomax d a b s o w).extractLsb' 5 3) ((encAmomax d a b s o w).extractLsb' 0 1)) : Option Instr) = _
  simp (disch := decide) only [encAmomax, RoundTrip.low, RoundTrip.high, RoundTrip.whole, Nat.reduceSub] <;> rfl
theorem RoundTrip.amocas (d : BitVec 5) (a : BitVec 5) (b : BitVec 5) (s : BitVec 3) (o : BitVec 3) (w : BitVec 1) : RoundTrip.Statement (.amocas d a b s o w) := fun _ => by
  have hm : (encAmocas d a b s o w).extractLsb' 26 6 = 0x2c#6 := by
    simp (disch := decide) only [encAmocas, RoundTrip.low, RoundTrip.high, RoundTrip.whole, Nat.reduceSub] <;> rfl
  change decodeByMajor ((encAmocas d a b s o w).extractLsb' 26 6) (encAmocas d a b s o w) = _
  rw [hm]
  have ho : (encAmocas d a b s o w).extractLsb' 1 4 = 0x7#4 := by
    simp (disch := decide) only [encAmocas, RoundTrip.low, RoundTrip.high, RoundTrip.whole, Nat.reduceSub] <;> rfl
  change decodeMajor2COp ((encAmocas d a b s o w).extractLsb' 1 4) (encAmocas d a b s o w) = _
  rw [ho]
  change (some (.amocas ((encAmocas d a b s o w).extractLsb' 21 5) ((encAmocas d a b s o w).extractLsb' 16 5) ((encAmocas d a b s o w).extractLsb' 11 5) ((encAmocas d a b s o w).extractLsb' 8 3) ((encAmocas d a b s o w).extractLsb' 5 3) ((encAmocas d a b s o w).extractLsb' 0 1)) : Option Instr) = _
  simp (disch := decide) only [encAmocas, RoundTrip.low, RoundTrip.high, RoundTrip.whole, Nat.reduceSub] <;> rfl
theorem RoundTrip.ldl (d : BitVec 5) (a : BitVec 5) (s : BitVec 3) (o : BitVec 3) (w : BitVec 1) : RoundTrip.Statement (.ldl d a s o w) := fun _ => by
  have hm : (encLdl d a s o w).extractLsb' 26 6 = 0x2c#6 := by
    simp (disch := decide) only [encLdl, RoundTrip.low, RoundTrip.high, RoundTrip.whole, Nat.reduceSub] <;> rfl
  change decodeByMajor ((encLdl d a s o w).extractLsb' 26 6) (encLdl d a s o w) = _
  rw [hm]
  have ho : (encLdl d a s o w).extractLsb' 1 4 = 0x8#4 := by
    simp (disch := decide) only [encLdl, RoundTrip.low, RoundTrip.high, RoundTrip.whole, Nat.reduceSub] <;> rfl
  change decodeMajor2COp ((encLdl d a s o w).extractLsb' 1 4) (encLdl d a s o w) = _
  rw [ho]
  change ((if (encLdl d a s o w).extractLsb' 11 5 == 0x0#5 then some (.ldl ((encLdl d a s o w).extractLsb' 21 5) ((encLdl d a s o w).extractLsb' 16 5) ((encLdl d a s o w).extractLsb' 8 3) ((encLdl d a s o w).extractLsb' 5 3) ((encLdl d a s o w).extractLsb' 0 1)) else none) : Option Instr) = _
  simp (disch := decide) only [encLdl, RoundTrip.low, RoundTrip.high, RoundTrip.whole, Nat.reduceSub] <;> rfl
theorem RoundTrip.stc (d : BitVec 5) (a : BitVec 5) (b : BitVec 5) (s : BitVec 3) (o : BitVec 3) (w : BitVec 1) : RoundTrip.Statement (.stc d a b s o w) := fun _ => by
  have hm : (encStc d a b s o w).extractLsb' 26 6 = 0x2c#6 := by
    simp (disch := decide) only [encStc, RoundTrip.low, RoundTrip.high, RoundTrip.whole, Nat.reduceSub] <;> rfl
  change decodeByMajor ((encStc d a b s o w).extractLsb' 26 6) (encStc d a b s o w) = _
  rw [hm]
  have ho : (encStc d a b s o w).extractLsb' 1 4 = 0x9#4 := by
    simp (disch := decide) only [encStc, RoundTrip.low, RoundTrip.high, RoundTrip.whole, Nat.reduceSub] <;> rfl
  change decodeMajor2COp ((encStc d a b s o w).extractLsb' 1 4) (encStc d a b s o w) = _
  rw [ho]
  change (some (.stc ((encStc d a b s o w).extractLsb' 21 5) ((encStc d a b s o w).extractLsb' 16 5) ((encStc d a b s o w).extractLsb' 11 5) ((encStc d a b s o w).extractLsb' 8 3) ((encStc d a b s o w).extractLsb' 5 3) ((encStc d a b s o w).extractLsb' 0 1)) : Option Instr) = _
  simp (disch := decide) only [encStc, RoundTrip.low, RoundTrip.high, RoundTrip.whole, Nat.reduceSub] <;> rfl
theorem RoundTrip.vformi (d : BitVec 5) (v : BitVec 14) : RoundTrip.Statement (.vformi d v) := fun _ => by
  have hm : (encVformi d v).extractLsb' 26 6 = 0x2d#6 := by
    simp (disch := decide) only [encVformi, RoundTrip.low, RoundTrip.high, RoundTrip.whole, Nat.reduceSub] <;> rfl
  change decodeByMajor ((encVformi d v).extractLsb' 26 6) (encVformi d v) = _
  rw [hm]
  change (if (encVformi d v).extractLsb' 14 7 == 0x0#7 then some (.vformi ((encVformi d v).extractLsb' 21 5) ((encVformi d v).extractLsb' 0 14)) else none : Option Instr) = _
  simp (disch := decide) only [encVformi, RoundTrip.low, RoundTrip.high, RoundTrip.whole, Nat.reduceSub] <;> rfl
theorem RoundTrip.beq (a : BitVec 5) (b : BitVec 5) (o : BitVec 16) : RoundTrip.Statement (.beq a b o) := fun _ => by
  have hm : (encBeq a b o).extractLsb' 26 6 = 0x30#6 := by
    simp (disch := decide) only [encBeq, RoundTrip.low, RoundTrip.high, RoundTrip.whole, Nat.reduceSub] <;> rfl
  change decodeByMajor ((encBeq a b o).extractLsb' 26 6) (encBeq a b o) = _
  rw [hm]
  change (some (.beq ((encBeq a b o).extractLsb' 21 5) ((encBeq a b o).extractLsb' 16 5) ((encBeq a b o).extractLsb' 0 16)) : Option Instr) = _
  simp (disch := decide) only [encBeq, RoundTrip.low, RoundTrip.high, RoundTrip.whole, Nat.reduceSub] <;> rfl
theorem RoundTrip.bne (a : BitVec 5) (b : BitVec 5) (o : BitVec 16) : RoundTrip.Statement (.bne a b o) := fun _ => by
  have hm : (encBne a b o).extractLsb' 26 6 = 0x31#6 := by
    simp (disch := decide) only [encBne, RoundTrip.low, RoundTrip.high, RoundTrip.whole, Nat.reduceSub] <;> rfl
  change decodeByMajor ((encBne a b o).extractLsb' 26 6) (encBne a b o) = _
  rw [hm]
  change (some (.bne ((encBne a b o).extractLsb' 21 5) ((encBne a b o).extractLsb' 16 5) ((encBne a b o).extractLsb' 0 16)) : Option Instr) = _
  simp (disch := decide) only [encBne, RoundTrip.low, RoundTrip.high, RoundTrip.whole, Nat.reduceSub] <;> rfl
theorem RoundTrip.blt (a : BitVec 5) (b : BitVec 5) (o : BitVec 16) : RoundTrip.Statement (.blt a b o) := fun _ => by
  have hm : (encBlt a b o).extractLsb' 26 6 = 0x32#6 := by
    simp (disch := decide) only [encBlt, RoundTrip.low, RoundTrip.high, RoundTrip.whole, Nat.reduceSub] <;> rfl
  change decodeByMajor ((encBlt a b o).extractLsb' 26 6) (encBlt a b o) = _
  rw [hm]
  change (some (.blt ((encBlt a b o).extractLsb' 21 5) ((encBlt a b o).extractLsb' 16 5) ((encBlt a b o).extractLsb' 0 16)) : Option Instr) = _
  simp (disch := decide) only [encBlt, RoundTrip.low, RoundTrip.high, RoundTrip.whole, Nat.reduceSub] <;> rfl
theorem RoundTrip.bge (a : BitVec 5) (b : BitVec 5) (o : BitVec 16) : RoundTrip.Statement (.bge a b o) := fun _ => by
  have hm : (encBge a b o).extractLsb' 26 6 = 0x33#6 := by
    simp (disch := decide) only [encBge, RoundTrip.low, RoundTrip.high, RoundTrip.whole, Nat.reduceSub] <;> rfl
  change decodeByMajor ((encBge a b o).extractLsb' 26 6) (encBge a b o) = _
  rw [hm]
  change (some (.bge ((encBge a b o).extractLsb' 21 5) ((encBge a b o).extractLsb' 16 5) ((encBge a b o).extractLsb' 0 16)) : Option Instr) = _
  simp (disch := decide) only [encBge, RoundTrip.low, RoundTrip.high, RoundTrip.whole, Nat.reduceSub] <;> rfl
theorem RoundTrip.bltu (a : BitVec 5) (b : BitVec 5) (o : BitVec 16) : RoundTrip.Statement (.bltu a b o) := fun _ => by
  have hm : (encBltu a b o).extractLsb' 26 6 = 0x34#6 := by
    simp (disch := decide) only [encBltu, RoundTrip.low, RoundTrip.high, RoundTrip.whole, Nat.reduceSub] <;> rfl
  change decodeByMajor ((encBltu a b o).extractLsb' 26 6) (encBltu a b o) = _
  rw [hm]
  change (some (.bltu ((encBltu a b o).extractLsb' 21 5) ((encBltu a b o).extractLsb' 16 5) ((encBltu a b o).extractLsb' 0 16)) : Option Instr) = _
  simp (disch := decide) only [encBltu, RoundTrip.low, RoundTrip.high, RoundTrip.whole, Nat.reduceSub] <;> rfl
theorem RoundTrip.bgeu (a : BitVec 5) (b : BitVec 5) (o : BitVec 16) : RoundTrip.Statement (.bgeu a b o) := fun _ => by
  have hm : (encBgeu a b o).extractLsb' 26 6 = 0x35#6 := by
    simp (disch := decide) only [encBgeu, RoundTrip.low, RoundTrip.high, RoundTrip.whole, Nat.reduceSub] <;> rfl
  change decodeByMajor ((encBgeu a b o).extractLsb' 26 6) (encBgeu a b o) = _
  rw [hm]
  change (some (.bgeu ((encBgeu a b o).extractLsb' 21 5) ((encBgeu a b o).extractLsb' 16 5) ((encBgeu a b o).extractLsb' 0 16)) : Option Instr) = _
  simp (disch := decide) only [encBgeu, RoundTrip.low, RoundTrip.high, RoundTrip.whole, Nat.reduceSub] <;> rfl
theorem RoundTrip.pfx (k : BitVec 2) (r : BitVec 5) (n : BitVec 1) (c : BitVec 5) (v : BitVec 1) (o : BitVec 3) (s : BitVec 3) : RoundTrip.Statement (.pfx k r n c v o s) := fun _ => by
  have hm : (encPfx k r n c v o s).extractLsb' 26 6 = 0x3f#6 := by
    simp (disch := decide) only [encPfx, RoundTrip.low, RoundTrip.high, RoundTrip.whole, Nat.reduceSub] <;> rfl
  change decodeByMajor ((encPfx k r n c v o s).extractLsb' 26 6) (encPfx k r n c v o s) = _
  rw [hm]
  change (if (encPfx k r n c v o s).extractLsb' 0 6 == 0x0#6 then some (.pfx ((encPfx k r n c v o s).extractLsb' 24 2) ((encPfx k r n c v o s).extractLsb' 19 5) ((encPfx k r n c v o s).extractLsb' 18 1) ((encPfx k r n c v o s).extractLsb' 13 5) ((encPfx k r n c v o s).extractLsb' 12 1) ((encPfx k r n c v o s).extractLsb' 9 3) ((encPfx k r n c v o s).extractLsb' 6 3)) else none : Option Instr) = _
  simp (disch := decide) only [encPfx, RoundTrip.low, RoundTrip.high, RoundTrip.whole, Nat.reduceSub] <;> rfl

end Sys2Proof.Laws
end

