-- ==== Sys2Proof/Laws/Retire.lean ====
section
/-! SUPPORT. What retiring and taking a trap leave: the context they act on, every other context, and the rest of the state. -/

namespace Sys2Proof.Machine

/-! Retiring. -/

@[simp] theorem State.retire_ctx_same (s : State) (c : CtxId) : (s.retire c).ctx c = (s.ctx c).retired := by
  simp [State.retire]

theorem State.retire_ctx_ne (s : State) (c q : CtxId) (h : q ≠ c) : (s.retire c).ctx q = s.ctx q := by
  simp [State.retire, h]

@[simp] theorem State.retireX_ctx_same (s : State) (c : CtxId) (d : BitVec 5) (v : Word) :
    (s.retireX c d v).ctx c = ((s.ctx c).wxCopy d v).retired := by simp [State.retireX]

theorem State.retireX_ctx_ne (s : State) (c q : CtxId) (d : BitVec 5) (v : Word) (h : q ≠ c) :
    (s.retireX c d v).ctx q = s.ctx q := by simp [State.retireX, h]

@[simp] theorem State.retireF_ctx_same (s : State) (c : CtxId) (d : BitVec 5) (v : Word) :
    (s.retireF c d v).ctx c = ((s.ctx c).wfCopy d v).retired := by simp [State.retireF]

theorem State.retireF_ctx_ne (s : State) (c q : CtxId) (d : BitVec 5) (v : Word) (h : q ≠ c) :
    (s.retireF c d v).ctx q = s.ctx q := by simp [State.retireF, h]

@[simp] theorem Ctx.retired_pc (k : Ctx) : k.retired.pc = k.pc + 4 := rfl
@[simp] theorem Ctx.retired_pfx (k : Ctx) : k.retired.pfx = none := rfl
@[simp] theorem Ctx.retired_bounded (k : Ctx) : k.retired.bounded = false := rfl

/-- Without a copy register a result goes to its destination alone. -/
theorem Ctx.wxCopy_of_none (k : Ctx) (d : BitVec 5) (v : Word) (h : k.copyReg = none) : k.wxCopy d v = k.wx d v := by
  simp [Ctx.wxCopy, h]

theorem Ctx.wfCopy_of_none (k : Ctx) (d : BitVec 5) (v : Word) (h : k.copyReg = none) : k.wfCopy d v = k.wf d v := by
  simp [Ctx.wfCopy, h]

/-! Registers. -/

@[simp] theorem Ctx.rx_zero (k : Ctx) : k.rx 0 = 0 := rfl
@[simp] theorem Ctx.wx_zero (k : Ctx) (v : Word) : k.wx 0 v = k := rfl

theorem Ctx.rx_wx_same (k : Ctx) (r : BitVec 5) (v : Word) (h : r ≠ 0) : (k.wx r v).rx r = v := by
  simp only [Ctx.rx, Ctx.wx, if_neg h]; simp

theorem Ctx.rx_wx_ne (k : Ctx) (r q : BitVec 5) (v : Word) (h : q ≠ r) : (k.wx r v).rx q = k.rx q := by
  unfold Ctx.rx Ctx.wx
  split
  · rfl
  · split
    · rfl
    · have : r.toNat ≠ q.toNat := fun e => h (BitVec.eq_of_toNat_eq e.symm)
      simp [this]

@[simp] theorem Ctx.rf_wf_same (k : Ctx) (r : BitVec 5) (v : Word) : (k.wf r v).rf r = v := by simp [Ctx.rf, Ctx.wf]

theorem Ctx.rf_wf_ne (k : Ctx) (r q : BitVec 5) (v : Word) (h : q ≠ r) : (k.wf r v).rf q = k.rf q := by
  have : r.toNat ≠ q.toNat := fun e => h (BitVec.eq_of_toNat_eq e.symm)
  simp [Ctx.rf, Ctx.wf, this]

/-- A register other than the destination and the copy register of a prefix keeps its value. -/
theorem Ctx.rx_wxCopy_ne (k : Ctx) (d r : BitVec 5) (v : Word) (h : r ≠ d) (hc : k.copyReg ≠ some r) :
    (k.wxCopy d v).rx r = k.rx r := by
  unfold Ctx.wxCopy
  split
  · rename_i q hq
    rw [Ctx.rx_wx_ne _ _ _ _ (fun e => hc (by rw [hq, e])), Ctx.rx_wx_ne _ _ _ _ h]
  · exact Ctx.rx_wx_ne _ _ _ _ h

theorem Ctx.rf_wfCopy_ne (k : Ctx) (d r : BitVec 5) (v : Word) (h : r ≠ d) (hc : k.copyReg ≠ some r) :
    (k.wfCopy d v).rf r = k.rf r := by
  unfold Ctx.wfCopy
  split
  · rename_i q hq
    rw [Ctx.rf_wf_ne _ _ _ _ (fun e => hc (by rw [hq, e])), Ctx.rf_wf_ne _ _ _ _ h]
  · exact Ctx.rf_wf_ne _ _ _ _ h

/-! Traps. -/

theorem State.enterTrap_ctx_ne (s : State) (c q : CtxId) (n : Nat) (v : Word) (a : Bool) (e : Word) (p : Option (BitVec 32))
    (t : Mode) (h : q ≠ c) : (s.enterTrap c n v a e p t).ctx q = s.ctx q := by
  simp only [State.enterTrap]
  exact State.setCtx_ctx_other s c q _ h

theorem State.trap_ctx_ne (s : State) (c q : CtxId) (t : Trap) (h : q ≠ c) : (s.trap c t).ctx q = s.ctx q :=
  State.enterTrap_ctx_ne s c q _ _ _ _ _ _ h

@[simp] theorem State.trap_mem (s : State) (c : CtxId) (t : Trap) : (s.trap c t).mem = s.mem := rfl
@[simp] theorem State.trap_cores (s : State) (c : CtxId) (t : Trap) : (s.trap c t).cores = s.cores := rfl
@[simp] theorem State.trap_dies (s : State) (c : CtxId) (t : Trap) : (s.trap c t).dies = s.dies := rfl
@[simp] theorem State.trap_pend (s : State) (c : CtxId) (t : Trap) : (s.trap c t).pend = s.pend := rfl
@[simp] theorem State.trap_gangs (s : State) (c : CtxId) (t : Trap) : (s.trap c t).gangs = s.gangs := rfl
@[simp] theorem State.trap_cursor (s : State) (c : CtxId) (t : Trap) : (s.trap c t).cursor = s.cursor := rfl
@[simp] theorem State.trap_clk (s : State) (c : CtxId) (t : Trap) : (s.trap c t).clk = s.clk := rfl
@[simp] theorem State.trap_agenda (s : State) (c : CtxId) (t : Trap) : (s.trap c t).agenda = s.agenda := rfl

end Sys2Proof.Machine
end

