-- ==== Sys2Proof/Laws/Vector.lean ====
section
/-! SUPPORT. The shared front of the vector instructions (R136, R160-R162, R203, R252-R254), said once. -/

namespace Sys2Proof.Machine

/-- A vector instruction whose checks pass goes on with its chunks consumed. -/
theorem State.vecFront_of_passes (s : State) (c : CtxId) (o : VOp) (idle : Bool)
    (go : State → VCfg → List Chunk → Nat → State) (ins es : List Chunk) (u : State) (due : Nat)
    (h : s.VecPasses c o idle ins es u due) :
    s.vecFront c o idle go =
      go (u.consumed c ((s.ctx c).vcfg (physLanes (coreOf c))) ((s.ctx c).opBound o) ins)
        ((s.ctx c).vcfg (physLanes (coreOf c))) es due := by
  obtain ⟨unit, form, overlap, room, empty, s0, s1, s2, walks, loads, stores, reads, close, host⟩ := h
  have queue : ¬ (idle = true ∧ (s.ctx c).vq ≠ []) := fun ⟨a, b⟩ => b (empty a)
  unfold Ctx.outputStreams at walks stores
  simp only [State.vecFront, unit, form, overlap, Nat.not_le.mpr room, queue, walks, loads, stores, reads, close, host,
    State.consumed, Bool.false_eq_true, if_false, Bool.not_true]

/-- A vector instruction without a memory operand, whose checks pass. -/
theorem State.vecIssue_of_passes (s : State) (c : CtxId) (o : VOp) (eff : VCfg → Ctx → Ctx × BitVec 5)
    (ins es : List Chunk) (u : State) (due : Nat) (h : s.VecPasses c o false ins es u due) :
    s.vecIssue c o eff =
      (u.consumed c ((s.ctx c).vcfg (physLanes (coreOf c))) ((s.ctx c).opBound o) ins).vecDone c
        ((s.ctx c).vcfg (physLanes (coreOf c))) ((s.ctx c).plainDst o) es due (eff ((s.ctx c).vcfg (physLanes (coreOf c)))
          ((u.consumed c ((s.ctx c).vcfg (physLanes (coreOf c))) ((s.ctx c).opBound o) ins).ctx c)) := by
  rw [State.vecIssue, State.vecFront_of_passes s c o false _ ins es u due h]
  rfl

/-- A vector instruction with a scalar result, whose checks pass. -/
theorem State.vecScalar_of_passes (s : State) (c : CtxId) (o : VOp) (d : BitVec 5) (res : VCfg → Ctx → Word)
    (ins es : List Chunk) (u : State) (due : Nat) (h : s.VecPasses c o true ins es u due) :
    s.vecScalar c o d res =
      ((u.consumed c ((s.ctx c).vcfg (physLanes (coreOf c))) ((s.ctx c).opBound o) ins).arrive c due).retireX c d
        (res ((s.ctx c).vcfg (physLanes (coreOf c)))
          ((u.consumed c ((s.ctx c).vcfg (physLanes (coreOf c))) ((s.ctx c).opBound o) ins).ctx c)) := by
  rw [State.vecScalar, State.vecFront_of_passes s c o true _ ins es u due h]

/-- A vector instruction whose operands do not fit FORM or SHAPE takes form_mismatch with its word (R136). -/
theorem State.vecFront_mismatch (s : State) (c : CtxId) (o : VOp) (idle : Bool) (go : State → VCfg → List Chunk → Nat → State)
    (h : s.formMismatch c ((s.ctx c).vcfg (physLanes (coreOf c))) o = true) :
    s.vecFront c o idle go = s.trap c (mkTrap 4 (o.word.zeroExtend 64)) := by
  simp [State.vecFront, h]

/-- A vector instruction that issues through `vecIssue` does its effect (R136, R160, R252). -/
theorem vecActs_of_issue {i : Instr} {o : BitVec 32 → VCfg → Ctx → VOp} {eff : Ctx → VCfg → Ctx → Ctx × BitVec 5}
    (h : ∀ s, exec i s = .next (s.issue (encode i) fun c k s =>
      s.vecIssue c (o (encode i) ((s.ctx c).vcfg (physLanes (coreOf c))) k) fun q k' => eff k q k')) : VecActs i o eff := by
  intro s ins es u due h1 p v hp
  have hq : ((s.issued (encode i)).ctx s.cur).vcfg (physLanes (coreOf s.cur)) = s.cfgHere := by
    simp [State.cfgHere, State.here]
  rw [h, State.issue_of_issues _ _ _ h1]
  simp only [hq]
  rw [State.vecIssue_of_passes _ _ _ _ ins es u due hp, hq]
  simp [State.here, v, p]

/-- A vector instruction that issues through `vecScalar` writes its scalar result (R203). -/
theorem vecWritesX_of_issue {i : Instr} {d : BitVec 5} {o : BitVec 32 → VCfg → Ctx → VOp} {res : Ctx → VCfg → Ctx → Word}
    (h : ∀ s, exec i s = .next (s.issue (encode i) fun c k s =>
      s.vecScalar c (o (encode i) ((s.ctx c).vcfg (physLanes (coreOf c))) k) d fun q k' => res k q k')) :
    VecWritesX i d o res := by
  intro s ins es u due h1 p v hp
  have hq : ((s.issued (encode i)).ctx s.cur).vcfg (physLanes (coreOf s.cur)) = s.cfgHere := by
    simp [State.cfgHere, State.here]
  rw [h, State.issue_of_issues _ _ _ h1]
  simp only [hq]
  rw [State.vecScalar_of_passes _ _ _ _ _ ins es u due hp, hq]
  simp [State.here, v, p]

end Sys2Proof.Machine
end

