-- ==== Sys2Proof/Tests/Slice0.lean ====
section
/-! SUPPORT. The model's own tests: ill-formed terms, words written out from the spec's encodings, one state that meets the
hypotheses of each statement, and single steps whose results come from the spec's tables and examples. -/

namespace Sys2Proof.Tests
open Sys2Proof.Machine

set_option Elab.async false

/-- A message without content. -/
def m0 : Msg := { kind := 0, org := false, srank := 0, gang := 0, trank := 0, payload := 0 }

/-- A boot step that finds nothing. -/
def boot0 : BootFound :=
  { fail := none, back := false, banks := [], routers := [], number := 0, joined := [], ports := [], routes := [], ptp := 0 }

/-- WellFormed refuses a term that fails each of its checks (events, part 1). -/
theorem test_ill_formed_event_1 : ([
    .packageBoot { boot0 with number := 64 }, .packageBoot { boot0 with joined := [64] },
    .packageBoot { boot0 with ports := [18] }, .fctlWrite 2 0 0, .fctlWrite 0 49 0, .dbtgtWrite 2 0 0, .dbtgtWrite 0 49 0,
    .lqheadWrite 2 0 0, .lqheadWrite 0 49 0, .hintWrite 2 0 0, .hintWrite 0 49 0, .codeRangeEnable 2 0 0 0,
    .codeRangeEnable 0 49 0 0, .codeRangeEnable 0 0 8 0, .codeRangeDisable 2 0 0 0, .codeRangeDisable 0 49 0 0,
    .codeRangeDisable 0 0 8 0, .fcbRegisterWrite 2 0 0 0, .fcbRegisterWrite 0 49 0 0, .memoryReply 6144 0 0,
    .postedStoreDrain 6144, .icacheFill 768 0 0, .pageWalk 6144 0 false false, .vectorCheckPhaseEnd 6144,
    .vectorSweepStart 6144, .vectorRowArrival 6144 0, .vectorRowArrival 0 8, .vectorSweepComplete 6144,
    .matrixEntryStart 768, .matrixEntryComplete 768 false false, .gustPrefetch 6144 0, .gustPrefetch 0 8, .jobSchedule 12 0,
    .jobSchedule 0 8, .jobBlockEnd 12 0, .jobBlockEnd 0 8, .jobFaultEnd 12 0, .jobFaultEnd 0 8, .jobComplete 12 0,
    .jobComplete 0 8, .levanterRound 12 0, .levanterRound 0 8, .gcastCopyLanded 768 0, .gcastCopyLanded 0 64,
    .sealCountDrained 12 0, .sealCountDrained 0 256, .spawnRequestArrival 6144 0 0, .spawnRequestArrival 0 768 0,
    .stealRequest 6144 0, .stealRequest 0 768, .gbarArrivalSignal 4096 0, .gbarArrivalSignal 0 8192,
    .gbarGenerationComplete 4096, .gangStopComplete 4096, .msendAccept 768 m0, .dataDelivery 6144 m0,
    .spawnDelivery 6144 m0, .wakeDelivery 6144 m0, .regwDelivery 6144 m0, .inboxRecordWrite 768 0 m0].all fun i : Instr =>
      !i.wf) = true := by decide +kernel

/-- WellFormed refuses a term that fails each of its checks (events, part 2). -/
theorem test_ill_formed_event_2 : ([
    .inboxRecordWrite 0 8 m0, .waittExpiry 6144, .wfiWake 6144, .waitResumption 6144, .homeMiss 12 0, .leaseExpiry 12 0,
    .writeCombineFlush 12 0, .tokenBucketRefill 768, .hostDoorbellWrite 2 0 0 false, .hostDoorbellWrite 0 49 0 false,
    .doorbellMessageSend 2 0, .doorbellMessageSend 0 49, .inboundRead 2 0 0 0 false false,
    .inboundRead 0 49 0 0 false false, .inboundRead 0 0 0 4097 false false, .inboundWrite 2 0 0 [] false false,
    .inboundWrite 0 49 0 [] false false, .inboundWrite 0 0 0 (List.replicate 513 0) false false,
    .outboundCompletion 6144 0 false, .peerReadTimeout 6144, .hostMsixUnmask 2 0 0 0 false, .hostMsixUnmask 0 49 0 0 false,
    .hostMsixUnmask 0 0 16 0 false, .tdispRequest 2 0 0, .tdispRequest 0 49 0, .tdispRequest 0 0 4, .spdmMessage 2 0 0,
    .spdmMessage 0 49 0, .spdmMessage 0 0 5, .keyInstall 2 0 0 0, .keyInstall 0 49 0 0, .keyInstall 0 0 8 0, .keyErase 2 0,
    .keyErase 0 49, .functionLevelReset 2 0, .functionLevelReset 0 49, .etesianFlitReplay 18, .linkDown 18,
    .linkRetrainTimeout 18, .linkWidthWindow 66 0, .linkWiden 66, .linkWidthHandshakeDone 66, .journalClear 0,
    .journalClear 13, .expansionTableReplace 12 0 [] false, .patrolScrub 12 0, .foehnTest 12 0 0 false,
    .foehnTest 0 6 0 false, .redundantOn 6144, .redundantOff 6144, .recordOn 6144, .replayOn 6144, .recordReplayOff 6144,
    .intervalClose 6144, .redundantTimeout 6144, .instructionFetchFault 23 0, .linkRetrained 18, .functionEnable 2 0 false,
    .functionEnable 0 49 false].all fun i : Instr => !i.wf) = true := by decide +kernel

/-- WellFormed refuses a term that fails each of its checks (words, part 1). -/
theorem test_ill_formed_word_1 : ([
    .ext 0 0 1 63, .ins 0 0 1 63, .fadd 0 0 0 5 0, .fadd 0 0 0 0 2, .fsub 0 0 0 5 0, .fsub 0 0 0 0 2, .fmul 0 0 0 5 0,
    .fmul 0 0 0 0 2, .fdiv 0 0 0 5 0, .fdiv 0 0 0 0 2, .fsqrt 0 0 5 0, .fsqrt 0 0 0 2, .fmin 0 0 0 2, .fmax 0 0 0 2,
    .feq 0 0 0 2, .flt 0 0 0 2, .fle 0 0 0 2, .fclass 0 0 2, .fcvt 0 0 4 0 0, .fcvt 0 0 1 0 4, .fcvt 0 0 0 0 0,
    .fcvt 0 0 1 5 0, .fcvti 0 0 0 0 4, .fcvti 0 0 0 5 0, .icvtf 0 0 0 0 4, .icvtf 0 0 0 5 0, .fmvx 0 0 4, .fmvf 0 0 4,
    .fma 0 0 0 0 5 0, .fms 0 0 0 0 5 0, .fnma 0 0 0 0 5 0, .fnms 0 0 0 0 5 0, .movs 0 4, .movsw 0 4, .fence 5,
    .tlbinv 0 0 3, .vaddV 0 0 30 0 1, .vsubV 0 0 30 0 1, .vrsubV 0 0 30 0 1, .vmulV 0 0 30 0 1, .vmulhV 0 0 30 0 1,
    .vmulhuV 0 0 30 0 1, .vdivV 0 0 30 0 1, .vdivuV 0 0 30 0 1, .vremV 0 0 30 0 1, .vremuV 0 0 30 0 1, .vminV 0 0 30 0 1,
    .vmaxV 0 0 30 0 1, .vminuV 0 0 30 0 1, .vmaxuV 0 0 30 0 1, .vandV 0 0 30 0 1, .vorV 0 0 30 0 1, .vxorV 0 0 30 0 1,
    .vsllV 0 0 30 0 1, .vsrlV 0 0 30 0 1, .vsraV 0 0 30 0 1, .vsaddV 0 0 30 0 1, .vssubV 0 0 30 0 1, .vwmulV 0 0 30 0 1,
    .vwmaccV 0 0 30 0 1].all fun i : Instr => !i.wf) = true := by decide +kernel

/-- WellFormed refuses a term that fails each of its checks (words, part 2). -/
theorem test_ill_formed_word_2 : ([
    .vwmaccuV 0 0 30 0 1, .vwmaccsuV 0 0 30 0 1, .vnclipV 0 0 30 0 1, .vfshlV 0 0 30 0 1, .vfshrV 0 0 30 0 1,
    .vmergeV 0 0 0 0 0, .vmergeV 0 0 30 1 1, .vmergeX 0 0 0 0, .vmergeI 0 0 0 0, .vmovV 0 30 0 1, .vseqV 8 0 0 0 0,
    .vseqV 0 0 30 0 1, .vseqX 8 0 0 0, .vseqI 8 0 0 0, .vsneV 8 0 0 0 0, .vsneV 0 0 30 0 1, .vsneX 8 0 0 0, .vsneI 8 0 0 0,
    .vsltV 8 0 0 0 0, .vsltV 0 0 30 0 1, .vsltX 8 0 0 0, .vsltI 8 0 0 0, .vsltuV 8 0 0 0 0, .vsltuV 0 0 30 0 1,
    .vsltuX 8 0 0 0, .vsltuI 8 0 0 0, .vsleV 8 0 0 0 0, .vsleV 0 0 30 0 1, .vsleX 8 0 0 0, .vsleI 8 0 0 0,
    .vsleuV 8 0 0 0 0, .vsleuV 0 0 30 0 1, .vsleuX 8 0 0 0, .vsleuI 8 0 0 0, .vsgtV 8 0 0 0 0, .vsgtV 0 0 30 0 1,
    .vsgtX 8 0 0 0, .vsgtI 8 0 0 0, .vsgtuV 8 0 0 0 0, .vsgtuV 0 0 30 0 1, .vsgtuX 8 0 0 0, .vsgtuI 8 0 0 0, .vconf 8 0,
    .vlut3 0 0 30 0 1 0, .vfaddV 0 0 30 0 1, .vfsubV 0 0 30 0 1, .vfmulV 0 0 30 0 1, .vfdivV 0 0 30 0 1, .vfmaV 0 0 30 0 1,
    .vfnmaV 0 0 30 0 1, .vfminV 0 0 30 0 1, .vfmaxV 0 0 30 0 1, .vfeqV 8 0 0 0 0, .vfeqV 0 0 30 0 1, .vfeqF 8 0 0 0,
    .vfltV 8 0 0 0 0, .vfltV 0 0 30 0 1, .vfltF 8 0 0 0, .vfleV 8 0 0 0 0, .vfleV 0 0 30 0 1].all fun i : Instr =>
      !i.wf) = true := by decide +kernel

/-- WellFormed refuses a term that fails each of its checks (words, part 3). -/
theorem test_ill_formed_word_3 : ([
    .vfleF 8 0 0 0, .vfgtV 8 0 0 0 0, .vfgtV 0 0 30 0 1, .vfgtF 8 0 0 0, .vfgeV 8 0 0 0 0, .vfgeV 0 0 30 0 1,
    .vfgeF 8 0 0 0, .vfcvt 0 0 6 0, .vfpack 0 0 5 0, .vfpack 0 0 9 0, .vfunpack 0 0 5 0, .vfunpack 0 0 9 0, .vfcvti 0 0 8 0,
    .vfcvti 0 0 13 0, .vicvtf 0 0 8 0, .vicvtf 0 0 13 0, .mand 8 0 0, .mand 0 8 0, .mand 0 0 8, .mor 8 0 0, .mor 0 8 0,
    .mor 0 0 8, .mxor 8 0 0, .mxor 0 8 0, .mxor 0 0 8, .mnot 8 0, .mnot 0 8, .mpopc 0 8, .mfirst 0 8, .iota 0 8,
    .vgather 0 0 30 0 1, .compress 0 0 0, .expand 0 0 0, .vld2 0 0 0 0, .vld2 0 0 31 0, .vst2 0 0 0 0, .vst2 0 0 31 0,
    .vsplit 0, .vsplit 3, .mshape 0 5, .mlds 0 0 11, .mop 0 0 0 6, .mop 0 0 0 8, .mop 0 0 0 11, .mops 23 0 0 0,
    .mops 24 0 0 6, .mops 24 0 0 8, .mops 24 0 0 11, .mcvt 0 0 0, .mcvt 0 0 6, .mcvt 5 0 1, .mopx 0 0 0 0 3,
    .mopx 0 0 0 0 9, .mopsx 23 0 0 0 4, .mopsx 24 0 0 0 3, .mopsx 24 0 0 0 9, .sdecl 8 0, .sbind 23 0, .sbind 24 8,
    .sunbind 23].all fun i : Instr => !i.wf) = true := by decide +kernel

/-- WellFormed refuses a term that fails each of its checks (words, part 4). -/
theorem test_ill_formed_word_4 : ([
    .sstat 0 8, .lxcopy 0 0 5 1 0, .lxcopy 0 0 1 0 0, .lxgath 0 0 5 1 0, .lxgath 0 0 1 0 0, .lxscat 0 0 5 1 0,
    .lxscat 0 0 1 0 0, .dqpop 10, .dqpop 14, .msend 0 1 2, .amoswap 0 0 0 0 5 0, .amoswap 0 0 0 5 1 0, .amoswap 0 0 0 1 0 0,
    .amoadd 0 0 0 0 5 0, .amoadd 0 0 0 5 1 0, .amoadd 0 0 0 1 0 0, .amoand 0 0 0 0 5 0, .amoand 0 0 0 5 1 0,
    .amoand 0 0 0 1 0 0, .amoor 0 0 0 0 5 0, .amoor 0 0 0 5 1 0, .amoor 0 0 0 1 0 0, .amoxor 0 0 0 0 5 0,
    .amoxor 0 0 0 5 1 0, .amoxor 0 0 0 1 0 0, .amomin 0 0 0 0 5 0, .amomin 0 0 0 5 1 0, .amomin 0 0 0 1 0 0,
    .amomax 0 0 0 0 5 0, .amomax 0 0 0 5 1 0, .amomax 0 0 0 1 0 0, .amocas 0 0 0 0 5 0, .amocas 0 0 0 5 1 0,
    .amocas 0 0 0 1 0 0, .ldl 0 0 0 3 0, .ldl 0 0 5 1 0, .ldl 0 0 1 0 0, .stc 0 0 0 0 2 0, .stc 0 0 0 0 4 0,
    .stc 0 0 0 5 1 0, .stc 0 0 0 1 0 0, .vformi 0 12, .vformi 0 832, .vformi 0 5120, .pfx 0 1 0 0 0 1 0, .pfx 0 0 1 0 0 1 0,
    .pfx 3 8 0 0 0 1 0, .pfx 0 0 0 1 0 1 0, .pfx 0 0 0 0 0 5 0, .pfx 0 0 0 0 0 1 5, .pfx 0 0 0 0 0 0 1].all fun i : Instr =>
      !i.wf) = true := by decide +kernel

/-- The same terms with the offending field put right are well formed (part 1). -/
theorem test_well_formed_1 : ([
    .packageBoot boot0, .fctlWrite 0 0 0, .dbtgtWrite 0 0 0, .lqheadWrite 0 0 0, .hintWrite 0 0 0, .codeRangeEnable 0 0 0 0,
    .codeRangeDisable 0 0 0 0, .fcbRegisterWrite 0 0 0 0, .memoryReply 0 0 0, .postedStoreDrain 0, .icacheFill 0 0 0,
    .pageWalk 0 0 false false, .vectorCheckPhaseEnd 0, .vectorSweepStart 0, .vectorRowArrival 0 0, .vectorSweepComplete 0,
    .matrixEntryStart 0, .matrixEntryComplete 0 false false, .gustPrefetch 0 0, .jobSchedule 0 0, .jobBlockEnd 0 0,
    .jobFaultEnd 0 0, .jobComplete 0 0, .levanterRound 0 0, .gcastCopyLanded 0 0, .sealCountDrained 0 0,
    .spawnRequestArrival 0 0 0, .stealRequest 0 0, .gbarArrivalSignal 0 0, .gbarGenerationComplete 0, .gangStopComplete 0,
    .msendAccept 0 m0, .dataDelivery 0 m0, .spawnDelivery 0 m0, .wakeDelivery 0 m0, .regwDelivery 0 m0,
    .inboxRecordWrite 0 0 m0, .waittExpiry 0, .wfiWake 0, .waitResumption 0, .homeMiss 0 0, .leaseExpiry 0 0,
    .writeCombineFlush 0 0, .tokenBucketRefill 0, .hostDoorbellWrite 0 0 0 false, .doorbellMessageSend 0 0,
    .inboundRead 0 0 0 0 false false, .inboundWrite 0 0 0 [] false false, .outboundCompletion 0 0 false, .peerReadTimeout 0,
    .hostMsixUnmask 0 0 0 0 false, .tdispRequest 0 0 0, .spdmMessage 0 0 0, .keyInstall 0 0 0 0, .keyErase 0 0,
    .functionLevelReset 0 0, .etesianFlitReplay 0, .linkDown 0, .linkRetrainTimeout 0, .linkWidthWindow 0 0, .linkWiden 0,
    .linkWidthHandshakeDone 0, .journalClear 1, .expansionTableReplace 0 0 [] false, .patrolScrub 0 0,
    .foehnTest 0 0 0 false, .redundantOn 0, .redundantOff 0, .recordOn 0, .replayOn 0].all fun i : Instr =>
      i.wf) = true := by decide +kernel

/-- The same terms with the offending field put right are well formed (part 2). -/
theorem test_well_formed_2 : ([
    .recordReplayOff 0, .intervalClose 0, .redundantTimeout 0, .instructionFetchFault 0 0, .linkRetrained 0,
    .functionEnable 0 0 false, .ext 0 0 0 0, .ins 0 0 0 0, .fadd 0 0 0 0 0, .fsub 0 0 0 0 0, .fmul 0 0 0 0 0,
    .fdiv 0 0 0 0 0, .fsqrt 0 0 0 0, .fmin 0 0 0 0, .fmax 0 0 0 0, .feq 0 0 0 0, .flt 0 0 0 0, .fle 0 0 0 0, .fclass 0 0 0,
    .fcvt 0 0 1 0 0, .fcvti 0 0 0 0 0, .icvtf 0 0 0 0 0, .fmvx 0 0 0, .fmvf 0 0 0, .fma 0 0 0 0 0 0, .fms 0 0 0 0 0 0,
    .fnma 0 0 0 0 0 0, .fnms 0 0 0 0 0 0, .movs 0 0, .movsw 0 0, .fence 0, .tlbinv 0 0 0, .vaddV 0 0 0 0 0,
    .vsubV 0 0 0 0 0, .vrsubV 0 0 0 0 0, .vmulV 0 0 0 0 0, .vmulhV 0 0 0 0 0, .vmulhuV 0 0 0 0 0, .vdivV 0 0 0 0 0,
    .vdivuV 0 0 0 0 0, .vremV 0 0 0 0 0, .vremuV 0 0 0 0 0, .vminV 0 0 0 0 0, .vmaxV 0 0 0 0 0, .vminuV 0 0 0 0 0,
    .vmaxuV 0 0 0 0 0, .vandV 0 0 0 0 0, .vorV 0 0 0 0 0, .vxorV 0 0 0 0 0, .vsllV 0 0 0 0 0, .vsrlV 0 0 0 0 0,
    .vsraV 0 0 0 0 0, .vsaddV 0 0 0 0 0, .vssubV 0 0 0 0 0, .vwmulV 0 0 0 0 0, .vwmaccV 0 0 0 0 0, .vwmaccuV 0 0 0 0 0,
    .vwmaccsuV 0 0 0 0 0, .vnclipV 0 0 0 0 0, .vfshlV 0 0 0 0 0, .vfshrV 0 0 0 0 0, .vmergeV 0 0 0 1 0, .vmergeX 0 0 0 1,
    .vmergeI 0 0 0 1, .vmovV 0 0 0 0, .vseqV 0 0 0 0 0, .vseqX 0 0 0 0, .vseqI 0 0 0 0, .vsneV 0 0 0 0 0, .vsneX 0 0 0 0].all fun i : Instr =>
      i.wf) = true := by decide +kernel

/-- The same terms with the offending field put right are well formed (part 3). -/
theorem test_well_formed_3 : ([
    .vsneI 0 0 0 0, .vsltV 0 0 0 0 0, .vsltX 0 0 0 0, .vsltI 0 0 0 0, .vsltuV 0 0 0 0 0, .vsltuX 0 0 0 0, .vsltuI 0 0 0 0,
    .vsleV 0 0 0 0 0, .vsleX 0 0 0 0, .vsleI 0 0 0 0, .vsleuV 0 0 0 0 0, .vsleuX 0 0 0 0, .vsleuI 0 0 0 0, .vsgtV 0 0 0 0 0,
    .vsgtX 0 0 0 0, .vsgtI 0 0 0 0, .vsgtuV 0 0 0 0 0, .vsgtuX 0 0 0 0, .vsgtuI 0 0 0 0, .vconf 0 0, .vlut3 0 0 0 0 0 0,
    .vfaddV 0 0 0 0 0, .vfsubV 0 0 0 0 0, .vfmulV 0 0 0 0 0, .vfdivV 0 0 0 0 0, .vfmaV 0 0 0 0 0, .vfnmaV 0 0 0 0 0,
    .vfminV 0 0 0 0 0, .vfmaxV 0 0 0 0 0, .vfeqV 0 0 0 0 0, .vfeqF 0 0 0 0, .vfltV 0 0 0 0 0, .vfltF 0 0 0 0,
    .vfleV 0 0 0 0 0, .vfleF 0 0 0 0, .vfgtV 0 0 0 0 0, .vfgtF 0 0 0 0, .vfgeV 0 0 0 0 0, .vfgeF 0 0 0 0, .vfcvt 0 0 0 0,
    .vfpack 0 0 6 0, .vfunpack 0 0 6 0, .vfcvti 0 0 9 0, .vicvtf 0 0 9 0, .mand 0 0 0, .mor 0 0 0, .mxor 0 0 0, .mnot 0 0,
    .mpopc 0 0, .mfirst 0 0, .iota 0 0, .vgather 0 0 0 0 0, .compress 0 0 1, .expand 0 0 1, .vld2 0 0 2 0, .vst2 0 0 2 0,
    .vsplit 1, .mshape 0 0, .mlds 0 0 0, .mop 0 0 0 0, .mops 24 0 0 0, .mcvt 0 0 1, .mopx 0 0 0 0 4, .mopsx 24 0 0 0 4,
    .sdecl 0 0, .sbind 24 0, .sunbind 24, .sstat 0 0, .lxcopy 0 0 0 1 0, .lxgath 0 0 0 1 0].all fun i : Instr =>
      i.wf) = true := by decide +kernel

/-- The same terms with the offending field put right are well formed (part 4). -/
theorem test_well_formed_4 : ([
    .lxscat 0 0 0 1 0, .dqpop 0, .msend 0 0 0, .amoswap 0 0 0 0 1 0, .amoadd 0 0 0 0 1 0, .amoand 0 0 0 0 1 0,
    .amoor 0 0 0 0 1 0, .amoxor 0 0 0 0 1 0, .amomin 0 0 0 0 1 0, .amomax 0 0 0 0 1 0, .amocas 0 0 0 0 1 0, .ldl 0 0 0 1 0,
    .stc 0 0 0 0 1 0, .vformi 0 0, .pfx 0 0 0 0 0 1 0].all fun i : Instr => i.wf) = true := by decide +kernel

/-! Decoding: words that the spec writes out, or that are put together here from its encoding tables. -/

/-- Each word decodes to its instruction, and the instruction encodes to the word. -/
noncomputable def readsAs (l : List (BitVec 32 × Instr)) : Bool :=
  l.all fun p => decide (decodeTableWord 32 p.1.toNat = some p.2) && decide (encode p.2 = p.1)

/-- Scalar integer words: the tables of R96, R97, R101 and R113, and the listings of spec/14, 20. -/
theorem test_decode_scalar : readsAs [(0x00642801, .add 3 4 5), (0x00E8488F, .fshl 7 8 9 4), (0x00647915, .ext 3 4 15 8),
    (0x00E6800A, .sltu 7 6 16), (0x20A2468A, .lui 5 0x2468A), (0x04A50678, .addi 5 5 0x678), (0x1464803F, .srai 3 4 63),
    (0x1508002C, .slli 8 8 44), (0x15074010, .srli 8 7 16), (0x0D08001D, .ori 8 8 0x1D), (0x08A7FFFF, .andi 5 7 0xFFFF),
    (0x2CA638E8, .lut3 5 6 7 0xE8), (0x04000000, .addi 0 0 0), (0x04A6FFFC, .addi 5 6 0xFFFC)] = true := by decide +kernel

/-- Jumps and branches: the listings of R131 and spec/14, 20. -/
theorem test_decode_jumps : readsAs [(0x38000022, .jal 34), (0xC500FFFD, .bne 8 0 0xFFFD), (0xC0C0FFFF, .beq 6 0 0xFFFF),
    (0xC4C0FFF7, .bne 6 0 0xFFF7), (0xC700FFEA, .bne 24 0 0xFFEA)] = true := by decide +kernel

/-- Scalar loads, stores and atomics: the listings of R86, R126, R131 and spec/20. -/
theorem test_decode_memory : readsAs [(0x58A60000, .ld 5 6 0), (0x54E6000C, .lwu 7 6 12), (0x6ECC0008, .sw 22 12 8),
    (0x70C70000, .sd 6 7 0), (0x71060018, .sd 8 6 24), (0xB0A73283, .amoadd 5 7 6 2 4 1), (0xB0A70011, .ldl 5 7 0 0 1),
    (0xB1073013, .stc 8 7 6 0 0 1)] = true := by decide +kernel

/-- Scalar floating point (R71, R111), with the words of R111 and of the fields of R71. -/
theorem test_decode_float : readsAs [(0x34221901, .fma 1 2 3 4 0 1)] = true := by decide +kernel

/-- Vector configuration: the table of R140 and the word of R146. -/
theorem test_decode_shape : readsAs [(0xA0A63800, .vshape 5 6 7), (0xA0A60001, .vform 5 6), (0xA0000012, .vsplit 1),
    (0xA0000022, .vsplit 2), (0xA0000003, .vjoin), (0xA0A00004, .vrdshape 5), (0xB4A00066, .vformi 5 0x66),
    (0xB5C00302, .vformi 14 0x302)] = true := by decide +kernel

/-- Vector arithmetic: the examples of R180 and R77, and the listing of spec/14. -/
theorem test_decode_vector : readsAs [(0x84432900, .vaddX 2 3 5 1), (0x8846E822, .vsltI 2 6 29 0),
    (0x81021817, .vwmaccV 8 2 3 0 0), (0x8848201A, .vnclipI 2 8 4 0), (0x8C88F885, .vfmaV 4 8 31 0 1),
    (0x8C881018, .vfcvt 4 8 2 0), (0x80642C76, .vlut3 3 4 5 4 0 0x16), (0x8024002A, .vconf 1 4),
    (0x88840B1D, .vmergeI 4 4 1 3), (0x8881081B, .vfshlI 4 1 1 0), (0x88A1081C, .vfshrI 5 1 1 0)] = true := by
  decide +kernel

/-- Vector memory: the table of R201 and the listings of spec/14. -/
theorem test_decode_vector_memory : readsAs [(0x988A0000, .vld 4 10 0), (0x988A5801, .vlds 4 10 11 0),
    (0x988A4103, .vldx 4 10 8 1), (0x98804035, .vldr 4 8 0 3), (0x9C8A4006, .vsaadd 4 10 8 0), (0x9C0A0008, .vsave 10),
    (0x980A0008, .vrest 10), (0x990B2303, .vldx 8 11 4 3), (0x9D0B2303, .vstx 8 11 4 3), (0x99062004, .vldl 8 6 4 0),
    (0x9C2B0000, .vst 1 11 0)] = true := by decide +kernel

/-- Masks and permutations: the table of R207. -/
theorem test_decode_permute : readsAs [(0x9485020D, .compress 4 5 2), (0x9485020E, .expand 4 5 2), (0x94820006, .iota 4 2),
    (0x94A20004, .mpopc 5 2), (0x94C20005, .mfirst 6 2), (0x94421802, .mxor 2 2 3)] = true := by decide +kernel

/-- Matrix instructions: the table of R221 and the example of R90. -/
theorem test_decode_matrix : readsAs [(0xA4A00000, .mshape 5 0), (0xA4000001, .mzero 0), (0xA5060082, .mlds 8 6 4),
    (0xA4000003, .mswap), (0xA4070084, .mop 0 7 0 4), (0xA7070285, .mops 24 7 1 4), (0xA6090006, .mrd 16 9 0),
    (0xA4490607, .mwr 2 9 3), (0xA4000048, .mcvt 0 0 2), (0xA727630A, .mopsx 25 7 12 1 8),
    (0xA5096309, .mopx 8 9 12 1 8)] = true := by decide +kernel

/-- Streams, panes, jobs, tasks, gangs and messages: the table of spec/09. -/
theorem test_decode_engines : readsAs [(0xA84A0000, .sdecl 2 10), (0xAB001001, .sbind 24 2), (0xA8A01003, .sstat 5 2),
    (0xA8A63804, .palloc 5 6 7), (0xA8A60247, .lxcopy 5 6 2 0 1), (0xA8A604C8, .lxgath 5 6 4 1 1), (0xA806000B, .seal 6),
    (0xA80F000D, .relb 15), (0xA80F000C, .unseal 15), (0xAC053000, .rspawn 5 6), (0xACA00002, .dqpop 5),
    (0xACC50004, .gnew 6 5), (0xAC063805, .gadd 6 7), (0xAC0A0006, .gstop 10), (0xAC0A0007, .gresume 10),
    (0xAC000008, .gbar), (0xAC0F3809, .gcast 15 7), (0xAC05300A, .msend 5 6 0), (0xAC05303A, .msend 5 6 3),
    (0xAC05002A, .msend 5 0 2), (0xACCD000B, .mrecv 6 13), (0xAC00000C, .waitm), (0xAC07000D, .waitt 7),
    (0xACA0000E, .timeq 5)] = true := by decide +kernel

/-- System instructions: the table of R443, and the prefixes of R86 and spec/10. -/
theorem test_decode_system : readsAs [(0x7C000000, .ecall), (0x7C000001, .ebreak), (0x7C000002, .eret),
    (0x7CA00013, .movs 5 0x001), (0x7CA00023, .movs 5 0x002), (0x7C064054, .movsw 6 0x405), (0x7C06C114, .movsw 6 0xC11),
    (0x7C000005, .fence 0), (0x7C000025, .fence 2), (0x7C000045, .fence 4), (0x7C000006, .fencei),
    (0x7C0A5807, .tlbinv 10 11 0), (0x7C0A5827, .tlbinv 10 11 2), (0x7C0A0008, .dgate 10), (0x7C000009, .dret),
    (0x7C00000A, .wfi), (0x7C00000B, .chkpt), (0xFC000480, .pfx 0 0 0 0 0 2 2), (0xFD28F000, .pfx 1 5 0 7 1 0 0)] = true := by
  decide +kernel

/-- Illegal words: R68 names 0x00000000 and 0xFFFFFFFF, R90 a word with a reserved bit, R78 its ROWBC immediates. -/
theorem test_decode_illegal : ([0x00000000, 0xFFFFFFFF, 0xA50963A9, 0x7C000046, 0x7C00000C, 0x9485000D] : List (BitVec 32)).all
    (fun w => match decode w with
      | .ok _ => false
      | .error _ => true) = true := by decide +kernel

/-! Witnesses: for each statement with hypotheses, states and operands that meet them. -/

/-- Slot 7 of core 0 of die 1, a Gale die, has the turn, in M, with the context that `g` gives. -/
def sys7 (g : Ctx → Ctx) : State := ({ State.reset with clk := 7, cursor := 64 } : State).modCtx 519 g

/-- Slot 0 of that core, which holds its lanes, has the turn, in M, with 4 elements in 2 rows and the context that `g` gives. -/
def vec0 (g : Ctx → Ctx) : State :=
  ({ State.reset with cursor := 64 } : State).modCtx 512 fun k => g { k with run := .running, vl := 4, vrows := 2 }

/-- Each of these instructions issues in the state. -/
def issueAll (s : State) (l : List Instr) : Bool := l.all fun i => s.issues (encode i)

/-- An address of host port 0, of register 0x008 of function 0 of port 0, and of window 0 of port 0. -/
def hostA : Word := 0x0000300000001000
def fcbA : Word := 0x0000320000000008
def peerA : Word := 0x0000321000000040

/-- The state with that window valid, of every local domain. -/
def withPeer (s : State) : State :=
  { s with peers := [(0, { base := 5, v := true, lsz := 12, part := 0, ldm := 0x7F })],
           fns := [(0, { Fn.reset with vfe := true })] }

/-- An access of a context goes ahead, to an access and a state of which `p` holds. -/
def frontTo (s : State) (c : CtxId) (kind : AccKind) (va : Word) (n : Nat) (atomic : Bool) (order scope : Nat)
    (ops : List Word) (p : Access → State → Bool) : Bool :=
  match s.walkReady (s.agent c) [va] n, s.checkAccess (s.agent c) kind va n with
  | some s0, .ok x =>
    let r := s0.orderReady c atomic order scope ops
    (!atomic || decide (x.place = .hbm)) && (!s.vectorMeets c x.pa n && (r.2 && p x (r.1.fillTlb (s.agent c) va x.xl)))
  | _, _ => false

theorem reaches_of {s : State} {c : CtxId} {kind : AccKind} {va : Word} {n order scope : Nat} {atomic : Bool} {ops : List Word}
    {p : Access → State → Bool} (h : frontTo s c kind va n atomic order scope ops p = true) :
    ∃ x u, s.Reaches c kind va n atomic order scope ops x u ∧ p x u = true := by
  unfold frontTo at h
  split at h
  · next s0 x hw hx =>
    have a := Bool.and_eq_true_iff.mp h
    have b := Bool.and_eq_true_iff.mp a.2
    have e := Bool.and_eq_true_iff.mp b.2
    refine ⟨x, _, ⟨s0, _, hw, hx, fun ha => ?_, by simpa using b.1, Prod.ext rfl e.1, rfl⟩, e.2⟩
    simpa [ha] using a.1
  · cases h

/-- The word of `s` reaches a scalar access that is no atomic, of which `p` holds. -/
def goes (s : State) (i : Instr) (kind : AccKind) (va : Word) (n : Nat) (ops : List Word) (p : Access → State → Bool) :
    Prop :=
  ∃ x u, (s.issued (encode i)).Reaches s.cur kind va n false s.here.pfxOrder s.here.pfxScope ops x u ∧ p x u = true

/-- The word of `s` reaches an atomic access. -/
def goesAtomic (s : State) (i : Instr) (kind : AccKind) (va : Word) (n order scope : Nat) (ops : List Word) : Prop :=
  ∃ x u v, (s.issued (encode i)).Reaches s.cur kind va n true order scope ops x v ∧ v.closeInterval s.cur ops = (u, true) ∧
    u.leaseFree x.pa n = true

theorem goesAtomic_of {s : State} {i : Instr} {kind : AccKind} {va : Word} {n order scope : Nat} {ops : List Word}
    (h : frontTo (s.issued (encode i)) s.cur kind va n true order scope ops
      (fun x v => (v.closeInterval s.cur ops).2 && (v.closeInterval s.cur ops).1.leaseFree x.pa n) = true) :
    goesAtomic s i kind va n order scope ops := by
  obtain ⟨x, v, hr, hp⟩ := reaches_of h
  exact ⟨x, _, v, hr, Prod.ext rfl (Bool.and_eq_true_iff.mp hp).1, (Bool.and_eq_true_iff.mp hp).2⟩

/-- Every integer instruction issues (statements ScalarInteger, MulDiv, ScalarFrame), and so does every floating-point one. -/
theorem witness_scalar_issue : issueAll (sys7 id) [.add 3 4 5, .sub 3 4 5, .and 3 4 5, .or 3 4 5, .xor 3 4 5, .sll 3 4 5,
    .srl 3 4 5, .sra 3 4 5, .slt 3 4 5, .sltu 3 4 5, .min 3 4 5, .max 3 4 5, .minu 3 4 5, .maxu 3 4 5, .fshl 3 4 5 63,
    .fshr 3 4 5 0, .clz 3 4, .ctz 3 4, .popc 3 4, .sel 3 4 5, .ext 3 4 31 32, .ins 3 4 0 63, .addi 3 4 0x8000, .andi 3 4 1,
    .ori 3 4 1, .xori 3 4 1, .slli 3 4 63, .srli 3 4 63, .srai 3 4 63, .slti 3 4 1, .sltiu 3 4 1, .lui 3 0x1FFFFF,
    .addpc 3 1, .mul 3 4 5, .mulh 3 4 5, .mulhu 3 4 5, .div 3 4 5, .divu 3 4 5, .rem 3 4 5, .remu 3 4 5, .lut3 3 4 5 0xE8,
    .fadd 3 4 5 4 1, .fsub 3 4 5 0 0, .fmul 3 4 5 0 0, .fdiv 3 4 5 0 0, .fsqrt 3 4 0 0, .fcvt 3 4 1 0 0, .icvtf 3 4 3 0 3,
    .fma 1 2 3 4 0 1, .fms 1 2 3 4 0 1, .fnma 1 2 3 4 0 1, .fnms 1 2 3 4 0 1, .fmin 3 4 5 0, .fmax 3 4 5 0, .feq 3 4 5 0,
    .flt 3 4 5 0, .fle 3 4 5 0, .fclass 3 4 0, .fcvti 3 4 0 0 0, .fmvx 3 4 3, .fmvf 3 4 3] = true := by decide +kernel

/-- Jumps: a target that is aligned and canonical, one that is misaligned, and ones that are not canonical. -/
theorem witness_jumps :
    let s := sys7 fun k => (k.wx 4 2).wx 5 (BitVec.twoPow 64 52)
    let t : State := sys7 fun k => (k.wx 4 1).wx 5 1
    issueAll s [.jal 1, .jalr 1 0 4, .jalr 1 4 0, .jalr 1 5 0, .beq 0 0 1, .bne 0 4 1, .blt 0 4 1, .bge 4 0 1, .bltu 0 4 1,
      .bgeu 4 0 1] = true ∧
    (s.here.pc + (1 : BitVec 26).signExtend 64 * 4).toNat % 4 = 0 ∧ canonical s.here.mode (s.here.pc + 4) = true ∧
    s.here.rx 0 = s.here.rx 0 ∧ s.here.rx 0 ≠ s.here.rx 4 ∧ (s.here.rx 0).toInt < (s.here.rx 4).toInt ∧
    (s.here.rx 4 + (0 : BitVec 16).signExtend 64).toNat % 4 ≠ 0 ∧
    (s.here.rx 5 + (0 : BitVec 16).signExtend 64).toNat % 4 = 0 ∧
    canonical s.here.mode (s.here.rx 5 + (0 : BitVec 16).signExtend 64) = false ∧
    canonical t.here.mode (t.here.pc + (0xFFFF : BitVec 16).signExtend 64 * 4) = false ∧
    (t.here.pc + (0xFFFF : BitVec 16).signExtend 64 * 4).toNat % 4 = 0 ∧
    canonical t.here.mode (t.here.pc + (0x3FFFFFF : BitVec 26).signExtend 64 * 4) = false ∧ t.here.rx 4 = t.here.rx 5 := by
  decide +kernel

/-- Loads from HBM, whose line can be read. -/
theorem witness_load_hbm : issueAll (sys7 id) [.lb 5 6 1, .lbu 5 6 1, .lh 5 6 2, .lhu 5 6 2, .lw 5 6 4, .lwu 5 6 4, .ld 5 6 64,
      .flw 5 6 4, .fld 5 6 8] = true ∧
    goes (sys7 id) (.ld 5 6 64) .load ((sys7 id).eaHere 6 64) 8 [(sys7 id).eaHere 6 64] fun x u =>
      decide (x.place = .hbm) && (u.readLine 1 (lineOf x.pa)).isSome :=
  ⟨by decide +kernel, reaches_of (by decide +kernel)⟩

/-- A load of a function control block register. -/
theorem witness_load_fcb : let s := sys7 fun k => k.wx 6 fcbA
    s.issues (encode (.ld 5 6 0)) = true ∧ goes s (.ld 5 6 0) .load (s.eaHere 6 0) 8 [s.eaHere 6 0]
      (fun x u => decide (x.place = .fcb 0 0 8) && (u.fcbRead (s.agent s.cur) 0 0 8).isSome) :=
  ⟨by decide +kernel, reaches_of (by decide +kernel)⟩

/-- A load at host memory, whose request can be sent at once. -/
theorem witness_load_host : let s := sys7 fun k => k.wx 6 hostA
    s.issues (encode (.lb 5 6 0)) = true ∧ goes s (.lb 5 6 0) .load (s.eaHere 6 0) 1 [s.eaHere 6 0]
      (fun x u => decide (x.place = .host 0) && (u.closeInterval s.cur [s.eaHere 6 0]).2) :=
  ⟨by decide +kernel, reaches_of (by decide +kernel)⟩

/-- A load through a peer window. -/
theorem witness_load_peer : let s := withPeer (sys7 fun k => k.wx 6 peerA)
    s.issues (encode (.ld 5 6 0)) = true ∧ goes s (.ld 5 6 0) .load (s.eaHere 6 0) 8 [s.eaHere 6 0]
      (fun x u => decide (x.place = .peer 0 0 64) && (u.closeInterval s.cur [s.eaHere 6 0]).2) :=
  ⟨by decide +kernel, reaches_of (by decide +kernel)⟩

/-- The operands of a store of x[5] at x[6]. -/
def stOps (s : State) : List Word := [s.eaHere 6 0, wordOf (bytesOf (s.here.rx 5).toNat 8)]

/-- A store to HBM that is performed at once: no lease runs on its line. -/
theorem witness_store_hbm : let s := sys7 fun k => k.wx 5 7
    issueAll s [.sb 5 6 0, .sh 5 6 0, .sw 5 6 0, .sd 5 6 0, .fsw 5 6 0, .fsd 5 6 0] = true ∧
    goes s (.sd 5 6 0) .store (s.eaHere 6 0) 8 (stOps s)
      (fun x u => decide (x.place = .hbm) && (u.ctx s.cur).red.isNone && decide (s.here.pfxOrder ≠ 1) && u.leaseFree x.pa 8) :=
  ⟨by decide +kernel, reaches_of (by decide +kernel)⟩

/-- A relaxed store, under a prefix of order 1. -/
theorem witness_store_relaxed : let s := sys7 fun k => { k with pfx := some ⟨encode (.pfx 0 0 0 0 0 1 2), false⟩ }
    s.issues (encode (.sd 5 6 0)) = true ∧ goes s (.sd 5 6 0) .store (s.eaHere 6 0) 8 (stOps s)
      (fun x u => decide (x.place = .hbm) && (u.ctx s.cur).red.isNone && decide (s.here.pfxOrder = 1) &&
        decide (u.postedCount s.cur < 4)) :=
  ⟨by decide +kernel, reaches_of (by decide +kernel)⟩

/-- A store of a redundant member. -/
theorem witness_store_redundant : let s := sys7 fun k => { k with red := some (pairMember true 520) }
    s.issues (encode (.sd 5 6 0)) = true ∧ goes s (.sd 5 6 0) .store (s.eaHere 6 0) 8 (stOps s)
      (fun x u => decide (x.place = .hbm) && (u.ctx s.cur).red.isSome && (u.commitRoom s.cur 8).2) :=
  ⟨by decide +kernel, reaches_of (by decide +kernel)⟩

/-- A store to FCTL, whose value it takes. -/
theorem witness_store_fcb : let s := sys7 fun k => k.wx 6 fcbA
    s.issues (encode (.sd 5 6 0)) = true ∧ goes s (.sd 5 6 0) .store (s.eaHere 6 0) 8 (stOps s)
      (fun x u => decide (x.place = .fcb 0 0 8) && (u.fcbWrite (s.agent s.cur) 0 0 8 0).2) :=
  ⟨by decide +kernel, reaches_of (by decide +kernel)⟩

/-- A store at host memory, of a context that is no shadow and of a shadow whose interval is closed. -/
theorem witness_store_host : let s := sys7 fun k => k.wx 6 hostA
    let t := sys7 fun k => { k.wx 6 hostA with red := some { pairMember false 520 with matched := true } }
    (goes s (.sd 5 6 0) .store (s.eaHere 6 0) 8 (stOps s)
      (fun x u => decide (x.place = .host 0) && (u.closeInterval s.cur (stOps s)).2 &&
        !((u.closeInterval s.cur (stOps s)).1.ctx s.cur).isShadow)) ∧
    goes t (.sd 5 6 0) .store (t.eaHere 6 0) 8 (stOps t)
      (fun x u => decide (x.place = .host 0) && (u.closeInterval t.cur (stOps t)).2 &&
        ((u.closeInterval t.cur (stOps t)).1.ctx t.cur).isShadow) :=
  ⟨reaches_of (by decide +kernel), reaches_of (by decide +kernel)⟩

/-- A store through a peer window, of a context that is no shadow and of a shadow. -/
theorem witness_store_peer : let s := withPeer (sys7 fun k => k.wx 6 peerA)
    let t := withPeer (sys7 fun k => { k.wx 6 peerA with red := some { pairMember false 520 with matched := true } })
    (goes s (.sd 5 6 0) .store (s.eaHere 6 0) 8 (stOps s)
      (fun x u => decide (x.place = .peer 0 0 64) && (u.closeInterval s.cur (stOps s)).2 &&
        ((u.closeInterval s.cur (stOps s)).1.servingFn 0 (s.did s.cur)).isSome &&
        !((u.closeInterval s.cur (stOps s)).1.ctx s.cur).isShadow)) ∧
    goes t (.sd 5 6 0) .store (t.eaHere 6 0) 8 (stOps t)
      (fun x u => decide (x.place = .peer 0 0 64) && (u.closeInterval t.cur (stOps t)).2 &&
        ((u.closeInterval t.cur (stOps t)).1.ctx t.cur).isShadow) :=
  ⟨reaches_of (by decide +kernel), reaches_of (by decide +kernel)⟩

/-- Misaligned scalar accesses, at the last address below a multiple of the width. -/
theorem witness_misaligned : let s := sys7 fun k => k.wx 6 1
    issueAll s [.lh 5 6 0, .lhu 5 6 0, .lw 5 6 0, .lwu 5 6 0, .ld 5 6 0, .flw 5 6 0, .fld 5 6 0, .sh 5 6 0, .sw 5 6 0,
      .sd 5 6 0,
      .fsw 5 6 0, .fsd 5 6 0] = true ∧ (s.eaHere 6 0).toNat % 2 ≠ 0 ∧ (s.eaHere 6 2).toNat % 4 ≠ 0 ∧
      (s.eaHere 6 6).toNat % 8 ≠ 0 := by decide +kernel

/-- Atomics, LDL, STC and JOINDEC on a line of HBM. -/
theorem witness_atomics : let s := sys7 id
    issueAll s [.amoswap 5 6 7 0 0 0, .amoadd 5 6 7 2 4 1, .amoand 5 6 7 0 0 1, .amoor 5 6 7 0 0 1, .amoxor 5 6 7 0 0 1,
      .amomin 5 6 7 0 0 1, .amomax 5 6 7 0 0 1, .amocas 5 6 7 0 0 1, .ldl 5 6 0 0 1, .stc 5 6 7 0 0 1, .joindec 5 6] = true ∧
    s.here.red = none ∧ s.here.log = none ∧
    goesAtomic s (.amoadd 5 6 7 2 4 1) .amo (s.here.rx 6) 8 4 2 [s.here.rx 6, s.here.rx 7] ∧
    goesAtomic s (.ldl 5 6 0 0 1) .load (s.here.rx 6) 8 0 0 [s.here.rx 6] ∧
    goesAtomic s (.stc 5 6 7 0 0 1) .store (s.here.rx 6) 8 0 0 [s.here.rx 6, s.here.rx 7] ∧
    goesAtomic s (.joindec 5 6) .amo (s.here.rx 6) 8 4 4 [s.here.rx 6, BitVec.allOnes 64] := by
  refine ⟨by decide +kernel, by decide +kernel, by decide +kernel, ?_⟩
  repeat' apply And.intro
  all_goals exact goesAtomic_of (by decide +kernel)

/-- A store that is performed, with nothing on its way and no line in error (statement MemoryLaws). -/
theorem witness_store_frame : Memory.wf (sys7 id).mem = true ∧ (sys7 id).pend = [] ∧
  (sys7 id).errLines = [] ∧ (sys7 id).sramErrs = [] := by decide +kernel


/-- An access whose walk has read its tables meets a check of R119 for which `p` holds of the state and of its agent (statement
AccessChecks). -/
def failing (s : State) (i : Instr) (va : Word) (n : Nat) (p : State → Agent → Bool) : Bool :=
  let t := s.issued (encode i)
  s.issues (encode i) && decide (va.toNat % n = 0) && (t.walkReady (t.agent s.cur) [va] n).isSome && p t (t.agent s.cur)

/-- Is this translation refused with `f`? -/
def refused (s : State) (ag : Agent) (kind : AccKind) (va : Word) (f : Fail) : Bool :=
  match s.translate ag kind va with
  | .error e => decide (e = f)
  | .ok _ => false

/-- Does this access reach a place of which `p` holds? -/
def reachesPlace (s : State) (ag : Agent) (kind : AccKind) (va : Word) (p : Place → Bool) : Bool :=
  match s.translate ag kind va with
  | .ok x => p (s.place x.pa)
  | .error _ => false

/-- Does this access pass checks 1 to 3, with one of which `p` holds? -/
def passes3 (s : State) (ag : Agent) (kind : AccKind) (va : Word) (n : Nat) (p : Access → Bool) : Bool :=
  match s.check3 ag kind va n with
  | .ok x => p x
  | .error _ => false

/-- Each check that fails: the canonical form, the walk, the table, the place, the granule, the function, the window, the width of a
control register, the line's domain, a sealed buffer, an error. -/
theorem witness_access_checks :
    let u (a : Word) (g : Ctx → Ctx) : State := vec0 fun k => g { k.wx 6 a with mode := .u, did := 0 }
    let far : Word := BitVec.twoPow 64 63
    let a : Word := 0x40000200000
    let barred : State := (u a id).modDie 1 fun d => { d with granules := [(1, { w := false, part := 1, any := false, gf := false })] }
    let other : State := { u a id with tags := [(lineOf 0x40000200000, { shared := false, ldid := 5 })] }
    let sealed' : State := (u a id).modDie 1 fun d => { d with seals := [(0, Seal.mk 0x40000200000 64 0 false [])] }
    let bad : State := { u a id with errLines := [lineOf 0x40000200000] }
    failing (u far id) (.ld 5 6 0) far 8 (fun _ ag => !canonical ag.mode far) = true ∧
    failing (u a fun k => { k with sptb := 0x0010_0400_0000_0001 }) (.ld 5 6 0) a 8
      (fun t ag => refused t ag .load a (.page false)) = true ∧
    failing (u a fun k => { k with sptb := 0x0010_3C00_0000_0001 }) (.ld 5 6 0) a 8 (fun t ag => refused t ag .load a .access) = true ∧
    failing (u 0x3C0000000000 id) (.ld 5 6 0) 0x3C0000000000 8
      (fun t ag => reachesPlace t ag .load 0x3C0000000000 fun p => decide (p = .nothing)) = true ∧
    failing barred (.ld 5 6 0) a 8 (fun t ag =>
      reachesPlace t ag .load a (fun p => decide (p = .hbm)) && !t.granuleOk ag 0x40000200000) = true ∧
    failing (u hostA fun k => { k with did := 64 }) (.ld 5 6 0) hostA 8
      (fun t ag => reachesPlace t ag .load hostA fun p => decide (p = .host 0) && (t.servingFn 0 ag.did).isNone) = true ∧
    failing (u fcbA id) (.lw 5 6 0) fcbA 4 (fun t ag => reachesPlace t ag .load fcbA fun p => decide (p = .fcb 0 0 8)) = true ∧
    failing (u peerA id) (.ld 5 6 0) peerA 8
      (fun t ag => reachesPlace t ag .load peerA fun p => decide (p = .peer 0 0 64) && !t.peerOk ag 0 0 64) = true ∧
    failing other (.ld 5 6 0) a 8 (fun t ag => passes3 t ag .load a 8 fun x => !t.lineDidOk ag x) = true ∧
    failing sealed' (.sd 5 6 0) a 8
      (fun t ag => passes3 t ag .store a 8 fun x => t.lineDidOk ag x && (t.sealAt x.pa).isSome) = true ∧
    failing bad (.ld 5 6 0) a 8 (fun t ag => passes3 t ag .load a 8 fun x =>
      t.lineDidOk ag x && decide (x.place = .hbm) && t.badLine 1 (lineOf x.pa)) = true := by decide +kernel

/-- A store to host memory from the store path, with room in it (statement StoresOutbound), and one to FCTL (statement Stores). -/
theorem witness_store_posted_far :
    let s (a : Word) := sys7 fun k => { k.wx 6 a with pfx := some ⟨encode (.pfx 0 0 0 0 0 1 2), false⟩ }
    (goes (s hostA) (.sd 5 6 0) .store ((s hostA).eaHere 6 0) 8 (stOps (s hostA)) fun x u =>
      decide (x.place = .host 0) && (u.closeInterval (s hostA).cur (stOps (s hostA))).2 &&
        decide ((u.closeInterval (s hostA).cur (stOps (s hostA))).1.postedCount (s hostA).cur < 4)) ∧
    goes (s fcbA) (.sd 5 6 0) .store ((s fcbA).eaHere 6 0) 8 (stOps (s fcbA)) fun x u =>
      decide (x.place = .fcb 0 0 8) && (u.fcbWrite ((s fcbA).agent (s fcbA).cur) 0 0 8 0).2 &&
        decide (u.postedCount (s fcbA).cur < 4) :=
  ⟨reaches_of (by decide +kernel), reaches_of (by decide +kernel)⟩
/-! Witnesses for the vector statements. -/

/-- The checks of a vector instruction, as a test. -/
def passesB (s : State) (c : CtxId) (o : VOp) (idle : Bool) : Bool :=
  let k := s.ctx c
  let q := k.vcfg (physLanes (coreOf c))
  match s.chunkWalks c q (k.inputStreams o ++ k.outputStreams o) with
  | none => false
  | some s0 =>
    match s0.planAll c q .load (k.inputStreams o), s0.planAll c q .store (k.outputStreams o) with
    | .ok ins, .ok es => match s0.readAccs c (ins.flatMap Chunk.accs) with
      | none => false
      | some s1 => (s1.accsReady c (ins.flatMap Chunk.accs) (es.flatMap Chunk.accs) []
          ((es.flatMap Chunk.accs).length * q.e)).2 &&
          decide (s.gustTrap c (k.opBound o) = none ∧ s.formMismatch c q o = false ∧ s.registerOverlap c o = false ∧
            k.vq.length < Config.vectorQueueDepth ∧ (idle = true → k.vq = []))
    | _, _ => false

theorem passes_of {s : State} {c : CtxId} {o : VOp} {idle : Bool} (h : passesB s c o idle = true) :
    ∃ ins es u due, s.VecPasses c o idle ins es u due := by
  simp only [passesB] at h
  split at h
  · cases h
  · next s0 h0 =>
    split at h
    · next ins es hi he =>
      split at h
      · cases h
      next s1 h1 =>
      have b := Bool.and_eq_true_iff.mp h
      have d := of_decide_eq_true b.2
      exact ⟨ins, es, _, _, d.1, d.2.1, d.2.2.1, d.2.2.2.1, d.2.2.2.2, s0, s1, _, h0, hi, he, h1, Prod.ext rfl b.1, rfl⟩
    · cases h

/-- A vector instruction issues in the state, and its operands pass their checks. -/
def vecOk (s : State) (idle : Bool) (p : Instr × (BitVec 32 → VCfg → Ctx → VOp)) : Bool :=
  s.issues (encode p.1) && passesB (s.issued (encode p.1)) s.cur (p.2 (encode p.1) s.cfgHere s.here) idle

/-- The test says that the hypotheses of a vector statement are met. -/
theorem meets_of_vecOk {s : State} {idle : Bool} {p : Instr × (BitVec 32 → VCfg → Ctx → VOp)} (h : vecOk s idle p = true) :
    s.issues (encode p.1) = true ∧
      ∃ ins es u due, (s.issued (encode p.1)).VecPasses s.cur (p.2 (encode p.1) s.cfgHere s.here) idle ins es u due :=
  ⟨(Bool.and_eq_true_iff.mp h).1, passes_of (Bool.and_eq_true_iff.mp h).2⟩

/-- One witness. -/
theorem witness_vector_passes : ∃ ins es u due, ((vec0 id).issued (encode (.vaddV 2 4 6 0 0))).VecPasses (vec0 id).cur
    (mapOp (encode (.vaddV 2 4 6 0 0)) 1 2 4 (.v 6) false false) false ins es u due :=
  (meets_of_vecOk (p := (.vaddV 2 4 6 0 0, fun w _ _ => mapOp w 1 2 4 (.v 6) false false)) (by decide +kernel)).2

/-- FORM with elements of 2^ew bytes, groups of 2^gf registers, and format nf. -/
def inForm (ew gf nf : Nat) (k : Ctx) : Ctx := { k with form := BitVec.ofNat 14 (ew + 4 * gf + 64 * nf) }

/-- Vector integer instructions in each operand form: the latch, a bound of the register file, the immediate (statements
VectorInteger, VectorFrame, VectorWideReduce). -/
theorem witness_vector_integer : ([
    (.vaddV 2 4 31 0 1, fun w q k => mapOp w q.g 2 4 (srcV 31 1 k) false false),
    (.vaddX 31 30 5 7, fun w q k => mapOp w q.g 31 30 (srcX 5 k) false false),
    (.vaddI 0 1 31 0, fun w q k => mapOp w q.g 0 1 (srcI 31 k) false false),
    (.vsllI 2 4 31 0, fun w q k => mapOp w q.g 2 4 (srcU 31 k) false false),
    (.vpopc 2 4 0, fun w q _ => mapOp w q.g 2 4 (.k 0) false false),
    (.vseqV 7 4 6 0 0, fun w q k => compareOp w q.g 4 (srcV 6 0 k) false),
    (.vsgtuI 0 4 6 0, fun w q k => compareOp w q.g 4 (srcI 6 k) false),
    (.vfshlV 2 4 6 0 0, fun w q k => mapOp w q.g 2 4 (srcV 6 0 k) true false),
    (.vmergeX 2 4 6 1, fun w q k => mapOp w q.g 2 4 (srcX 6 k) false false),
    (.vmovI 2 4 0, fun w q k => moveOp w q.g 2 (srcI 4 k)),
    (.vconf 3 4, fun w q _ => confOp w q.g 4),
    (.vlut3 2 4 6 4 0 22, fun w q k => mapOp w q.g 2 4 (srcV 6 0 k) true false),
    (.vredsum 2 4 0, fun w q _ => reduceOp w q.g 2 4 false)] : List (Instr × (BitVec 32 → VCfg → Ctx → VOp))).all
      (vecOk (vec0 (inForm 2 0 1)) false) = true := by decide +kernel

/-- Widening to twice the group, narrowing from it. -/
theorem witness_vector_wide : ([
    (.vwmulV 8 2 3 0 0, fun w q k => wideOp w q 8 2 (srcV 3 0 k) false),
    (.vwmaccX 8 2 3 0, fun w q k => wideOp w q 8 2 (srcX 3 k) true),
    (.vwmaccuV 30 2 3 0 0, fun w q k => wideOp w q 30 2 (srcV 3 0 k) true),
    (.vwmaccsuX 8 2 3 0, fun w q k => wideOp w q 8 2 (srcX 3 k) true),
    (.vnclipV 2 8 3 0 0, fun w q k => narrowOp w q 2 8 (srcV 3 0 k)),
    (.vnclipI 2 8 31 0, fun w q k => narrowOp w q 2 8 (srcU 31 k))] : List (Instr × (BitVec 32 → VCfg → Ctx → VOp))).all
      (vecOk (vec0 (inForm 1 0 0)) false) = true := by decide +kernel

/-- Vector floating point in FP32 elements (statement VectorFloats). -/
theorem witness_vector_float : ([
    (.vfaddV 2 4 6 0 0, fun w q k => mapOp w q.g 2 4 (srcV 6 0 k) false (nfMisfit q)),
    (.vfmulF 2 4 6 0, fun w q k => mapOp w q.g 2 4 (srcF 6 k) false (nfMisfit q)),
    (.vfmaV 2 4 6 0 0, fun w q k => mapOp w q.g 2 4 (srcV 6 0 k) true (nfMisfit q)),
    (.vfsqrt 2 4 0, fun w q _ => mapOp w q.g 2 4 (.k 0) false (nfMisfit q)),
    (.vfrcp 2 4 0, fun w q _ => mapOp w q.g 2 4 (.k 0) false (specialMisfit q)),
    (.vfeqV 7 4 6 0 0, fun w q k => compareOp w q.g 4 (srcV 6 0 k) (nfMisfit q)),
    (.vfgeF 7 4 6 0, fun w q k => compareOp w q.g 4 (srcF 6 k) (nfMisfit q)),
    (.vfredsum 2 4 0, fun w q _ => reduceOp w q.g 2 4 (nfMisfit q)),
    (.vfcvt 4 8 2 0, fun w q _ => convertOp w q 4 8 2 true),
    (.vfcvti 4 8 10 0, fun w q _ => convertOp w q 4 8 10 true),
    (.vicvtf 4 8 10 0, fun w q _ => convertOp w q 4 8 10 false)] : List (Instr × (BitVec 32 → VCfg → Ctx → VOp))).all
      (vecOk (vec0 (inForm 2 0 1)) false) = true := by decide +kernel

/-- Packing to and from the formats below a byte. -/
theorem witness_vector_pack : ([
    (.vfpack 4 8 8 0, fun w q _ => convertOp w q 4 8 8 true),
    (.vfunpack 8 4 8 0, fun w q _ => convertOp w q 8 4 8 false)] : List (Instr × (BitVec 32 → VCfg → Ctx → VOp))).all
      (fun p => vecOk (vec0 (inForm 2 0 1)) false p || vecOk (vec0 (inForm 1 0 3)) false p) = true := by decide +kernel

/-- Masks and permutations (statement VectorPermutes). -/
theorem witness_vector_permute : ([
    (.mand 7 0 7, fun w _ _ => maskOp w), (.mor 1 2 3, fun w _ _ => maskOp w), (.mxor 1 2 3, fun w _ _ => maskOp w),
    (.mnot 1 2, fun w _ _ => maskOp w),
    (.iota 4 2, fun w q _ => permOp w q.g 4 [] false), (.vid 4, fun w q _ => permOp w q.g 4 [] false),
    (.slideupX 4 5 6 0, fun w q _ => permOp w q.g 4 [5] true), (.slideupI 4 5 0 0, fun w q _ => permOp w q.g 4 [5] true),
    (.slidednX 4 5 6 0, fun w q _ => permOp w q.g 4 [5] true), (.slidednI 4 5 31 0, fun w q _ => permOp w q.g 4 [5] true),
    (.vgather 4 5 31 0 1, fun w q k => permOp w q.g 4 [5, k.latch.toNat] true),
    (.compress 4 5 2, fun w q _ => permOp w q.g 4 [5] true), (.expand 4 5 2, fun w q _ => permOp w q.g 4 [5] true),
    (.rowbcX 4 5 6 0, fun w q _ => permOp w q.g 4 [5] true), (.rowbcI 4 5 7 0, fun w q _ => permOp w q.g 4 [5] true),
    (.rowrotX 4 5 6 0, fun w q _ => permOp w q.g 4 [5] true), (.rowrotI 4 5 7 0, fun w q _ => permOp w q.g 4 [5] true),
    (.vmvs 4 5 6, fun w q _ => permOp w q.g 4 [] false)] : List (Instr × (BitVec 32 → VCfg → Ctx → VOp))).all
      (vecOk (vec0 (inForm 2 0 1)) false) = true := by decide +kernel

/-- The instructions with a scalar result, with the queue empty. -/
theorem witness_vector_scalar : ([
    (.mpopc 5 2, fun w _ _ => maskOp w), (.mfirst 6 2, fun w _ _ => maskOp w),
    (.vmvx 5 4 6, fun w q _ => { word := w, srcs := [(4, q.g)], dst := none, form := [(4, q.g)], old := false,
                                 formBad := false, overlap := false })] : List (Instr × (BitVec 32 → VCfg → Ctx → VOp))).all
      (vecOk (vec0 (inForm 2 0 1)) true) = true := by decide +kernel

/-- A sweep over registers 30 and 31 of a context with rows of 64 bytes (statement SweepPositions), and each fate of a position:
VL = 4 with masked-off and tail positions, and VL = 0. -/
theorem witness_sweep :
    (8 ≤ 8 ∧ 30 + 2 ≤ 32 ∧ 8 * 64 ≤ 8192 ∧ 0 < 32 ∧ 8 * 64 % 32 = 0 ∧ 32 * 32 ≤ 8 * 64 * 2) ∧
    (let k := (vec0 id).here
     let q := (vec0 id).cfgHere
     3 < q.vl ∧ (k.mrow 1 0).getLsbD 3 = false ∧ q.vl ≤ 4 ∧ q.vl ≠ 0) ∧ (vec0 fun k => { k with vl := 0 }).cfgHere.vl = 0 ∧
    ((vec0 fun k => { k with m := Vector.replicate 64 1 }).here.mrow 1 0).getLsbD 0 = true := by
  decide +kernel

/-! Witnesses for vector memory, configuration and matrix statements. -/

/-- The state of `s` with core 64, its own, changed. -/
def onCore (s : State) (g : Core → Core) : State := s.modCore 64 g

/-- The hypotheses of VecLoads, with the cut that they lead to. -/
def loadMeets (s : State) (i : Instr) (d : BitVec 5) (m : BitVec 3) (ix : List Nat) (addr : AddrRule) (cut : Nat) : Bool :=
  let s1 := s.issued (encode i)
  let c := s.cur
  let q := s.cfgHere
  let o : VOp := { word := encode i, srcs := ix.map fun n => (n, q.g), dst := some (d.toNat, q.g),
                   form := (d.toNat, q.g) :: ix.map fun n => (n, q.g), old := false, formBad := false,
                   overlap := (ix.map fun n => (n, q.g)).any fun p => groupsMeet d.toNat q.g p.1 p.2 }
  match (s1.vecStart c).walkReady (s1.agent c) ((s.here.activePos q m.toNat).map fun p => addr s.here q p.1 p.2) q.e with
  | none => false
  | some s0 =>
    let res := s0.positionChecks c q m.toNat (s0.checkAt c q .load (addr s.here q))
    let oks := s0.positionAccs c q .load m.toNat (addr s.here q) cut
    let as := oks.map fun e => e.2
    match (s0.fillTlbs (s1.agent c) (oks.map fun e => (addr s.here q e.1.1 e.1.2, e.2))).readAccs c as with
    | none => false
    | some v => s.issues (encode i) && s1.memPasses c o && !s0.vecWaits (s1.agent c) .load (res.filterMap fun e => e.2) &&
        decide (firstBad res ≠ some 0 ∧ cutIndex res q.vl = cut ∧ s.errLines = [] ∧ s.sramErrs = []) && (v.accsReady c as [] [] 0).2

/-- Vector loads: of all elements, and cut at index 2 by the end of the memory of the die; each address mode. -/
theorem witness_vector_loads :
    let s (a : Word) : State := vec0 fun k => { inForm 2 0 1 (((k.wx 10 a).wx 11 4).wx 12 4) with
      vrows := if a = 0x40FFFFFFFF8 then 1 else 2 }
    loadMeets (s 0x40000000000) (.vld 4 10 0) 4 0 [] (fun k q r j => k.rx 10 + BitVec.ofNat 64 ((r * q.vl + j) * q.e)) 4 = true ∧
    loadMeets (s 0x40FFFFFFFF8) (.vld 4 10 0) 4 0 [] (fun k q r j => k.rx 10 + BitVec.ofNat 64 ((r * q.vl + j) * q.e)) 2 = true ∧
    loadMeets (s 0x40000000000) (.vlds 4 10 11 0) 4 0 []
      (fun k q r j => k.rx 10 + BitVec.ofNat 64 (r * q.vl + j) * k.rx 11) 4 = true ∧
    loadMeets (s 0x40000000000) (.vld2 4 10 11 0) 4 0 []
      (fun k _ r j => k.rx 10 + BitVec.ofNat 64 r * k.rx 11 + BitVec.ofNat 64 j * k.rx 12) 4 = true ∧
    loadMeets (s 0x40000000000) (.vldx 4 10 8 0) 4 0 [8]
      (fun k q r j => k.rx 10 + BitVec.ofNat 64 (k.element q 8 q.g q.w r j)) 4 = true := by decide +kernel

/-- The hypotheses of VecStores, with the cut. -/
def storeMeets (s : State) (i : Instr) (d : BitVec 5) (m : BitVec 3) (ix : List Nat) (addr : AddrRule) (cut : Nat) : Bool :=
  let s1 := s.issued (encode i)
  let c := s.cur
  let q := s.cfgHere
  let o : VOp := { word := encode i, srcs := (d.toNat, q.g) :: ix.map fun n => (n, q.g), dst := none,
                   form := (d.toNat, q.g) :: ix.map fun n => (n, q.g), old := false, formBad := false, overlap := false }
  match (s1.vecStart c).walkReady (s1.agent c) ((s.here.activePos q m.toNat).map fun p => addr s.here q p.1 p.2) q.e with
  | none => false
  | some s0 =>
    let res := s0.positionChecks c q m.toNat (s0.checkAt c q .store (addr s.here q))
    let oks := s0.positionAccs c q .store m.toNat (addr s.here q) cut
    s.issues (encode i) && s1.memPasses c o && !s0.vecWaits (s1.agent c) .store (res.filterMap fun e => e.2) &&
      decide (firstBad res ≠ some 0 ∧ cutIndex res q.vl = cut) &&
      ((s0.fillTlbs (s1.agent c) (oks.map fun e => (addr s.here q e.1.1 e.1.2, e.2))).storesReady c
        (oks.map fun e => (e.2, bytesOf (s.here.element q d.toNat q.g q.w e.1.1 e.1.2) q.e))).2

/-- Vector stores, whole and cut, in each address mode. -/
theorem witness_vector_stores :
    let s (a : Word) : State := vec0 fun k => { inForm 2 0 1 (((k.wx 10 a).wx 11 4).wx 12 4) with
      vrows := if a = 0x40FFFFFFFF8 then 1 else 2 }
    storeMeets (s 0x40000000000) (.vst 4 10 0) 4 0 [] (fun k q r j => k.rx 10 + BitVec.ofNat 64 ((r * q.vl + j) * q.e)) 4 = true ∧
    storeMeets (s 0x40FFFFFFFF8) (.vst 4 10 0) 4 0 [] (fun k q r j => k.rx 10 + BitVec.ofNat 64 ((r * q.vl + j) * q.e)) 2 = true ∧
    storeMeets (s 0x40000000000) (.vsts 4 10 11 0) 4 0 []
      (fun k q r j => k.rx 10 + BitVec.ofNat 64 (r * q.vl + j) * k.rx 11) 4 = true ∧
    storeMeets (s 0x40000000000) (.vst2 4 10 11 0) 4 0 []
      (fun k _ r j => k.rx 10 + BitVec.ofNat 64 r * k.rx 11 + BitVec.ofNat 64 j * k.rx 12) 4 = true ∧
    storeMeets (s 0x40000000000) (.vstx 4 10 8 0) 4 0 [8]
      (fun k q r j => k.rx 10 + BitVec.ofNat 64 (k.element q 8 q.g q.w r j)) 4 = true := by decide +kernel

/-- A core whose 4 banks belong to local domain 7, with pane 5 ready, owned by DID 7. -/
def paneCore (k : Core) : Core :=
  ({ k with dpbank := 0xFFF4 } : Core).setPane 5 (Pane.mk 2 false 7 64 128)

/-- A lane instruction on that pane passes, with all its offsets 0. -/
theorem witness_lane_memory :
    let s : State := onCore (vec0 fun k => inForm 2 0 1 (k.wx 6 5)) paneCore
    let o (i : Instr) (ld : Bool) : VOp := VOp.mk (encode i) (if ld then [(4, 1)] else [(8, 1), (4, 1)])
      (if ld then some (8, 1) else none) [(8, 1), (4, 1)] false false false
    issueAll s [.vldl 8 6 4 0, .vstl 8 6 4 0, .vsaadd 8 6 4 0, .vsamax 8 6 4 0] = true ∧
    groupsMeet 8 1 4 1 = false ∧ s.cfgHere.g = 1 ∧ s.cfgHere.ew ≠ 3 ∧
    (let t := s.issued (encode (.vldl 8 6 4 0))
     t.lanePasses s.cur (o (.vldl 8 6 4 0) true) (s.here.rx 6) ((t.core 64).pane 5) 4 0 4) ∧
    (let t := s.issued (encode (.vsaadd 8 6 4 0))
     t.lanePasses s.cur (o (.vsaadd 8 6 4 0) false) (s.here.rx 6) ((t.core 64).pane 5) 4 0 4) := by
  unfold State.lanePasses State.paneReady
  decide +kernel

/-- Remote instructions, whose positions name core 0 without a scratchpad, so that each fails. -/
theorem witness_remote_memory :
    let s : State := vec0 fun k => inForm 2 0 1 k
    issueAll s [.vldr 8 4 0 3, .vstr 8 4 0 3] = true ∧
    (s.issued (encode (.vldr 8 4 0 3))).memPasses s.cur
      (VOp.mk (encode (.vldr 8 4 0 3)) [(4, 1)] (some (8, 1)) [(8, 1), (4, 1)] false false (groupsMeet 8 1 4 1)) = true ∧
    (s.issued (encode (.vstr 8 4 0 3))).memPasses s.cur
      (VOp.mk (encode (.vstr 8 4 0 3)) [(8, 1), (4, 1)] none [(8, 1), (4, 1)] false false false) = true ∧ s.cfgHere.g = 1 ∧ s.cfgHere.ew = 2 ∧
    s.remoteOk s.cur (s.here.element s.cfgHere 4 1 32 0 0) = false := by decide +kernel

/-- The 2^d lines from `va` pass their check and have `p`; split in halves, so that its evaluation stays shallow. -/
def linesOk (s : State) (ag : Agent) (kind : AccKind) (p : Access → Bool) : Nat → Word → Bool
  | 0, va => match s.checkVec ag kind va 64 with
    | .ok a => p a
    | .error _ => false
  | d + 1, va => linesOk s ag kind p d va && linesOk s ag kind p d (va + BitVec.ofNat 64 (64 * 2 ^ d))

theorem imageCheck_succ {s : State} {ag : Agent} {kind : AccKind} {as : List Access} {n : Nat} {va : Word} :
    s.imageCheck ag kind va (n + 1) = .ok as ↔
      ∃ a t, s.checkVec ag kind va 64 = .ok a ∧ s.imageCheck ag kind (va + 64) n = .ok t ∧ a :: t = as := by
  rw [State.imageCheck]
  cases s.checkVec ag kind va 64 <;> cases s.imageCheck ag kind (va + 64) n <;> simp

/-- The check of n lines, then of m more, is that of n + m lines. -/
theorem imageCheck_add {s : State} {ag : Agent} {kind : AccKind} {as bs : List Access} (n m : Nat) :
    ∀ va : Word, s.imageCheck ag kind va n = .ok as → s.imageCheck ag kind (va + BitVec.ofNat 64 (64 * n)) m = .ok bs →
      s.imageCheck ag kind va (n + m) = .ok (as ++ bs) := by
  induction n generalizing as with
  | zero => rintro va ⟨⟩ hb; simpa using hb
  | succ n ih =>
    intro va ha hb
    obtain ⟨a, t, h1, h2, rfl⟩ := imageCheck_succ.mp ha
    have e : va + BitVec.ofNat 64 (64 * (n + 1)) = va + 64 + BitVec.ofNat 64 (64 * n) := by
      rw [Nat.mul_add, BitVec.add_assoc, BitVec.ofNat_add, BitVec.add_comm (BitVec.ofNat 64 (64 * n))]; rfl
    rw [Nat.add_right_comm]
    exact imageCheck_succ.mpr ⟨a, t ++ bs, h1, ih _ h2 (e ▸ hb), rfl⟩

theorem imageCheck_of_linesOk {s : State} {ag : Agent} {kind : AccKind} {p : Access → Bool} (d : Nat) :
    ∀ va : Word, linesOk s ag kind p d va = true → ∃ as, s.imageCheck ag kind va (2 ^ d) = .ok as ∧ ∀ a, a ∈ as → p a = true := by
  induction d with
  | zero =>
    intro va h
    rw [linesOk] at h
    split at h
    · next a ha => exact ⟨[a], imageCheck_succ.mpr ⟨a, [], ha, rfl, rfl⟩, by simpa using h⟩
    · cases h
  | succ d ih =>
    intro va h
    obtain ⟨as, h1, h2⟩ := ih _ (Bool.and_eq_true_iff.mp h).1
    obtain ⟨bs, h3, h4⟩ := ih _ (Bool.and_eq_true_iff.mp h).2
    refine ⟨as ++ bs, by rw [Nat.pow_succ, Nat.mul_two]; exact imageCheck_add _ _ _ h1 h3, fun a ha => ?_⟩
    exact (List.mem_append.mp ha).elim (h2 a) (h4 a)

theorem walkReady_bare {s : State} {ag : Agent} {vas : List Word} {n : Nat} (h : ag.mode = .m) :
    s.walkReady ag vas n = some s := by
  have e : s.tablesOf ag vas n = [] := by
    have e0 : (vas.flatMap fun va => s.walkNeeds ag va n) = [] := by simp +contextual [State.walkNeeds, State.walkAddrs, h]
    simp [State.tablesOf, e0]
  simp [State.walkReady, e]

theorem readLines_near {s : State} {die : Nat} {ls : List Nat} (h : ∀ l, l ∈ ls → s.near die l = true) :
    s.readLines die ls = some s := by
  induction ls with
  | nil => rfl
  | cons l t ih =>
    rw [State.readLines, State.readLine, if_pos (.inr (h l (by simp)))]
    exact ih fun b hb => h b (by simp [hb])

theorem accsReady_single {s : State} {c : CtxId} {as : List Access} (h : (s.ctx c).red = none) (p : s.pend = []) :
    s.accsReady c as [] [] 0 = (s, true) := by
  simp [State.accsReady, State.closeInterval, Ctx.farWaits, Ctx.isShadow, State.portsQuiet, h, p]

theorem storesReady_single {s : State} {c : CtxId} {ws : List (Access × List Byte)} (h : (s.ctx c).red = none)
    (p : s.pend = []) : s.storesReady c ws = (s, true) := by
  simp [State.storesReady, State.portsQuiet, h, p]

theorem fillTlbs_bare {s : State} {ag : Agent} {es : List (Word × Access)}
    (h : ∀ e, e ∈ es → (e.2.xl.st1 || e.2.xl.st2) = false) : s.fillTlbs ag es = s := by
  unfold State.fillTlbs
  induction es with
  | nil => rfl
  | cons e t ih =>
    rw [List.foldl_cons, State.fillTlb, h e (by simp), if_neg Bool.false_ne_true]
    exact ih fun x hx => h x (by simp [hx])

/-- A state whose x10 names an image in the memory of die 1, whose header names 16 lanes. -/
def imageState : State := { vec0 (fun k => k.wx 10 0x40000000000) with mem := [(0x40000000000, 16)] }

/-- A line of the image: in the memory of the die, under no translation. -/
def imageLine (a : Access) : Bool := !(a.xl.st1 || a.xl.st2) && imageState.near 1 (lineOf a.pa)

/-- Every line of the image passes its check, and lies in the memory of the die. -/
theorem imageState_check (kind : AccKind) (w : BitVec 32)
    (h : ([(12, 0), (9, 262144), (6, 294912)] : List (Nat × Nat)).all (fun e => linesOk (imageState.issued w)
      (imageState.agent imageState.cur) kind imageLine e.1 (0x40000000000 + BitVec.ofNat 64 e.2)) = true) :
    ∃ as, (imageState.issued w).imageCheck (imageState.agent imageState.cur) kind 0x40000000000 4672 = .ok as ∧
      ∀ a, a ∈ as → imageLine a = true := by
  simp only [List.all_cons, List.all_nil, Bool.and_true, Bool.and_eq_true] at h
  obtain ⟨as, h1, h2⟩ := imageCheck_of_linesOk _ _ h.1
  obtain ⟨bs, h3, h4⟩ := imageCheck_of_linesOk _ _ h.2.1
  obtain ⟨cs, h5, h6⟩ := imageCheck_of_linesOk _ _ h.2.2
  have hn : 4672 = 2 ^ 12 + (2 ^ 9 + 2 ^ 6) := rfl
  refine ⟨as ++ (bs ++ cs), by rw [hn]; exact imageCheck_add _ _ _ h1 (imageCheck_add _ _ _ h3 h5), fun a ha => ?_⟩
  exact (List.mem_append.mp ha).elim (h2 a) fun hb => (List.mem_append.mp hb).elim (h4 a) (h6 a)

/-- So the image instruction reaches memory, with no translation cached. -/
theorem imageState_reaches (kind : AccKind) (w : BitVec 32) 
    (hw : let k := (imageState.issued w).ctx imageState.cur
      (k.vcfg (physLanes (coreOf imageState.cur))).vl ≤ (k.vcfg (physLanes (coreOf imageState.cur))).vlmax ∧
        k.vq.length < Config.vectorQueueDepth ∧ ((imageState.issued w).agent imageState.cur).mode = .m)
    {as : List Access} (h : (imageState.issued w).imageCheck (imageState.agent imageState.cur) kind 0x40000000000 4672 = .ok as)
    (hl : ∀ a, a ∈ as → imageLine a = true) :
    (imageState.issued w).imageReaches imageState.cur kind 0x40000000000 as ((imageState.issued w).vecStart imageState.cur) :=
  ⟨hw.1, hw.2.1, by decide, _, walkReady_bare hw.2.2, h, by
    rw [fillTlbs_bare fun e he => by simpa using (Bool.and_eq_true_iff.mp (hl _ (List.of_mem_zip he).2)).1]⟩

/-- VSAVE of an image: every line passes, and its writes can leave. -/
theorem witness_vsave : imageState.issues (encode (.vsave 10)) = true ∧ imageState.here.rx 10 = 0x40000000000 ∧
    ∃ as u, (imageState.issued (encode (.vsave 10))).imageReaches imageState.cur .store 0x40000000000 as u ∧
      ∀ bs, (u.storesReady imageState.cur bs).2 = true := by
  obtain ⟨as, h, hl⟩ := imageState_check .store (encode (.vsave 10)) (by decide +kernel)
  refine ⟨by decide +kernel, by decide +kernel, as, _, imageState_reaches _ _ (by decide +kernel) h hl, fun bs => ?_⟩
  rw [storesReady_single (by decide +kernel) rfl]

/-- VREST of it: every line passes, the header names its lanes, and its reads can be made. -/
theorem witness_vrest : imageState.issues (encode (.vrest 10)) = true ∧ imageState.errLines = [] ∧ imageState.sramErrs = [] ∧
    ∃ as u, (imageState.issued (encode (.vrest 10))).imageReaches imageState.cur .load 0x40000000000 as u ∧
      u.viewAcc imageState.cur (as.getD 0 Access.none) 8 = imageState.here.lanes ∧
      ∀ offs : List Nat, u.readAccs imageState.cur (offs.map fun o => as.getD o Access.none) = some u ∧
        (u.accsReady imageState.cur (offs.map fun o => as.getD o Access.none) [] [] 0).2 = true := by
  obtain ⟨as, h, hl⟩ := imageState_check .load (encode (.vrest 10)) (by decide +kernel)
  refine ⟨by decide +kernel, rfl, rfl, as, _, imageState_reaches _ _ (by decide +kernel) h hl, ?_, fun offs => ⟨?_, ?_⟩⟩
  · obtain ⟨a, t, ha, -, rfl⟩ := imageCheck_succ.mp h
    have e : (match (imageState.issued (encode (.vrest 10))).checkVec (imageState.agent imageState.cur) .load 0x40000000000 64 with
      | .ok a => decide (((imageState.issued (encode (.vrest 10))).vecStart 512).viewAcc imageState.cur a 8 = imageState.here.lanes)
      | .error _ => false) = true := by decide +kernel
    rw [ha] at e
    exact of_decide_eq_true e
  · refine readLines_near fun l hm => ?_
    obtain ⟨a, ha, rfl⟩ := List.mem_map.mp (List.mem_eraseDups.mp hm)
    obtain ⟨o, -, rfl⟩ := List.mem_map.mp (List.mem_filter.mp ha).1
    rw [List.getD_eq_getElem?_getD] at ha ⊢
    cases ho : as[o]? with
    | none => simp [ho, Access.none] at ha
    | some a => exact (Bool.and_eq_true_iff.mp (hl a (List.mem_of_getElem? ho))).2
  · rw [accsReady_single (by decide +kernel) rfl]

/-- VSHAPE: no lane move; a move down to 4 lanes under a ceiling of one quarter, idle and with a queue entry; an area that is
not memory; and the form exchange, legal and illegal; the queues full and empty. -/
theorem witness_shapes :
    let s := vec0 id
    let e : VEntry := { cover := 0, rows := 0, started := false, flags := 0, mc := none, writes := [], reads := [],
                        ticket := { dom := 0, no := 0 }, due := 0, load := none }
    let low := onCore (vec0 fun k => { k with vsavea := 0x40000000000 }) fun k => { k with dplane := 1 }
    let busy := onCore (vec0 fun k => { k with vq := [e] }) fun k => { k with dplane := 1 }
    let bad := onCore (vec0 fun k => { k with vsavea := 0x4FFFFFFFFF000 }) fun k => { k with dplane := 1 }
    issueAll s [.vshape 5 6 7, .vform 5 6, .vformi 5 3, .vrdshape 5] = true ∧ s.laneGrant s.cur = s.here.lanes ∧
    low.issues (encode (.vshape 5 6 7)) = true ∧ low.laneGrant low.cur = 4 ∧ low.here.lanes = 16 ∧ low.vectorIdle low.cur = true ∧
    low.areaOk (low.part low.cur) (low.slotSecure low.cur) (areaPa low.here.vsavea) imageSize = true ∧
    busy.issues (encode (.vshape 5 6 7)) = true ∧ busy.laneGrant busy.cur ≠ busy.here.lanes ∧ busy.vectorIdle busy.cur = false ∧
    bad.issues (encode (.vshape 5 6 7)) = true ∧ bad.laneGrant bad.cur ≠ bad.here.lanes ∧ bad.vectorIdle bad.cur = true ∧
    bad.areaOk (bad.part bad.cur) (bad.slotSecure bad.cur) (areaPa bad.here.vsavea) imageSize = false ∧
    formLegal (s.here.rx 6) = true ∧ formLegal ((vec0 fun k => k.wx 6 0xC).here.rx 6) = false ∧
    (vec0 fun k => k.wx 6 0xC).issues (encode (.vform 5 6)) = true ∧ s.queuesEmpty s.cur = true ∧
    busy.issues (encode (.vrdshape 5)) = true ∧ busy.queuesEmpty busy.cur = false := by decide +kernel

/-- VSPLIT and VJOIN in M, VSPLIT below M with slots of another DID, and in slot 3; VJOIN with a clean and a dirty partner. -/
theorem witness_lane_groups :
    let s := vec0 id
    let u := onCore (vec0 fun k => { k with mode := .s }) fun k => { k with dpslot := 8 }
    let j (d : BitVec 128) : State := (vec0 fun k => { k with lanes := 8 }).modCtx 516 fun k => { k with lanes := 8, lg := 1, dirty := d }
    s.issuesIf (encode (.vsplit 1)) false = true ∧ s.issuesIf (encode (.vsplit 2)) false = true ∧ s.here.lanes = 16 ∧ s.here.lg = 0 ∧
    slotOf s.cur ≠ 3 ∧ slotOf s.cur ≠ 7 ∧ slotOf s.cur % 2 = 0 ∧ s.here.mode = .m ∧ s.here.groupBound 24 8 = false ∧
    s.vectorIdle s.cur = true ∧
    u.issuesIf (encode (.vsplit 1)) false = true ∧ u.here.mode ≠ .m ∧ u.here.lanes = 16 ∧
    u.slotDid 64 (slotOf (splitTarget u.cur 2 1)) ≠ u.did u.cur ∨ u.slotDid 64 (slotOf (splitTarget u.cur 2 0)) ≠ u.did u.cur ∧
    (vec0 fun k => { k with lanes := 8 }).here.lanes ≠ physLanes 64 ∧ s.here.pfx = none ∧
    (j 0).issuesIf (encode .vjoin) false = true ∧ (j 0).here.lg = 0 ∧ (j 0).here.lanes < physLanes (coreOf (j 0).cur) ∧
    ((j 0).issued (encode .vjoin)).joinPartners 512 = [516] ∧ ((j 0).issued (encode .vjoin)).vectorIdle 512 = true ∧
    ((j 0).issued (encode .vjoin)).vectorIdle 516 = true ∧ ((j 0).ctx 516).dirty = 0 ∧ ((j 0).ctx 516).groupBound 24 8 = false ∧
    ((j 1).ctx 516).dirty ≠ 0 ∧ (j 1).issuesIf (encode .vjoin) false = true := by decide +kernel

/-- Another slot owns the array (statement Ownership). -/
theorem witness_ownership :
    let s := onCore (vec0 id) fun k => { k with mown := 3 }
    issueAll s [.mshape 5 0, .mzero 0, .mlds 8 6 4, .mswap, .mop 0 7 0 4, .mops 24 7 0 4, .mrd 16 9 0, .mwr 2 9 3, .mcvt 0 0 2,
      .mopx 8 9 12 1 8, .mopsx 25 7 12 1 8, .movs 5 3, .movsw 5 3] = true ∧ ¬ s.arrayMine := by
  unfold State.arrayMine
  decide +kernel

/-- Matrix instructions of the owner: HR set with the queue empty and not, operands that fit and that do not. -/
theorem witness_matrix :
    let s := vec0 fun k => ((k.wx 6 2).wx 7 0).wx 9 0x0200
    let e : MEntry := { owner := 512, pc := 0, started := false, rows := 0, op := .zero 0 }
    let w := onCore s fun k => { k with mstat := 0x800, mq := [e] }
    let full := onCore s fun k => { k with mq := List.replicate 32 e }
    s.arrayMine ∧ issueAll s [.mshape 5 0, .mzero 3, .mswap, .mlds 8 6 4, .mcvt 0 0 2, .mwr 2 9 3, .mrd 16 9 0] = true ∧
    s.coreHere.mq.length < 32 ∧ w.coreHere.mq ≠ [] ∧ 32 ≤ full.coreHere.mq.length ∧ full.issues (encode (.mshape 5 0)) = true ∧
    zeroBits (s.here.rx 6) 63 7 = true ∧ bits (s.here.rx 6) 6 0 ≤ planeCapacity 4 ∧
    8 * planeRowBytes 4 * 2 ≤ stringRoom (64 * s.here.lanes) 8 ∧
    s.here.groupBound 8 (stringRegs (64 * s.here.lanes) (8 * planeRowBytes 4 * 2)) = false ∧
    zeroBits ((vec0 fun k => k.wx 6 128).here.rx 6) 63 7 = false ∧
    s.rowsMisfit s.cur (s.here.rx 9) = false ∧ 2048 * 2 ≤ stringRoom (64 * s.here.lanes) 2 ∧
    s.here.groupBound 2 (stringRegs (64 * s.here.lanes) 4096) = false ∧
    s.here.groupBound 16 (stringRegs (64 * s.here.lanes) (16 * tagRowBytes 0)) = false ∧ s.here.vq.length < 16 ∧
    (vec0 fun k => k.wx 9 0x80).rowsMisfit 512 0x80 = true := by
  unfold State.arrayMine
  decide +kernel

/-- Outer products of one step on a plane of FP8 values, a misfit, and one whose A operand comes from a stream. -/
theorem witness_outer_products :
    let g (k : Core) : Core := { k with mstat := BitVec.ofNat 64 (4 * 2 ^ 32 + 1 * 2 ^ 36), mown := 0 }
    let s := onCore (vec0 fun k => k.wx 7 1) g
    let z (f : Nat) : State := onCore (vec0 fun k => k.wx 7 1) fun k => { k with mstat := BitVec.ofNat 64 (f * 2 ^ 32 + 2 ^ 36) }
    let st : Stream := { st := .bound, base := 0x40000000000, count := 8, str0 := 1, n0 := 0, str1 := 0, ew := 0, dir := false,
                         pane := 6, vd := 24, pos := 0, atEnd := false, flt := false }
    let b := onCore (vec0 fun k => (k.wx 7 1).setStream 2 st) fun k =>
      (g { k with dpbank := 0xFFF4 }).setPane 6 (Pane.mk 1 true 7 0 128)
    issueAll s [.mop 0 7 0 4, .mopx 0 7 12 0 4, .mops 24 7 0 4] = true ∧ s.arrayMine ∧ s.coreHere.mq.length < 32 ∧
    s.outerMisfit s.cur 0 4 (s.here.rx 7) false = false ∧ (z 6).issues (encode (.mopx 0 7 12 0 6)) = true ∧
    (z 6).outerMisfit 512 0 6 1 true = false ∧
    1 * s.rowsHere * matWidth 4 ≤ stringRoom (64 * s.here.lanes) 0 ∧
    s.here.groupBound 0 (stringRegs (64 * s.here.lanes) (s.rowsHere * matWidth 4)) = false ∧ s.here.groupBound 12 1 = false ∧
    (vec0 fun k => k.wx 7 1).outerMisfit 512 0 4 1 false = true ∧ s.here.boundTo 24 = none ∧
    b.here.boundTo 24 = some 2 ∧ b.outerMisfit b.cur 0 4 (b.here.rx 7) false = false ∧
    (let d := b.here.stream 2
     let q := d.cfg b.cfgHere
     q.rows * q.vl * q.e ≤ b.paneLinear (coreOf b.cur) d.pane.toNat ∧
     (b.issued (encode (.mops 24 7 0 4))).gustTrap b.cur true = none ∧
     (match (b.issued (encode (.mops 24 7 0 4))).chunkWalks b.cur q [2] with
      | none => false
      | some s0 => match s0.planChunk b.cur 2 q .load with
        | .ok ch => (match s0.readAccs b.cur ch.accs with
          | some u => (u.accsReady b.cur ch.accs [] [] 0).2
          | none => false)
        | .error _ => false) = true) := by
  unfold State.arrayMine
  decide +kernel


/-- Lane moves whose lines can be read, one whose area meets a sealed range (statement LaneMove), and a lane group of the array under a
reserved rounding mode (statement OuterProducts). -/
theorem witness_lane_moves :
    let low (a : Word) : State := onCore (vec0 fun k => { k with vsavea := a }) fun k => { k with dplane := 1 }
    let up := onCore (vec0 fun k => { k with vsavea := 0x40000000000, lanes := 4 }) fun k => { k with dplane := 0xFFF000000 }
    let barred := (low 0x40000000000).modDie 1 fun d => { d with seals := [(0, Seal.mk 0x40000000000 64 7 false [])] }
    let lines (s : State) : List Nat := areaLines (areaPa s.here.vsavea) (laneOffsets s.here.lanes (s.laneGrant s.cur))
    ([low 0x40000000000, up].all fun s => s.issues (encode (.vshape 5 6 7)) && decide (s.laneGrant s.cur ≠ s.here.lanes) &&
      s.vectorIdle s.cur && s.areaOk (s.part s.cur) (s.slotSecure s.cur) (areaPa s.here.vsavea) imageSize &&
      !s.areaSealed (areaPa s.here.vsavea) imageSize && (s.readLines 1 (lines s)).isSome) = true ∧
    (low 0).laneGrant 512 < (low 0).here.lanes ∧ up.here.lanes < up.laneGrant 512 ∧
    barred.areaSealed (areaPa barred.here.vsavea) imageSize = true ∧ barred.laneGrant 512 < barred.here.lanes ∧
    (let m (v : Word) : State := onCore (vec0 id) fun k => { k with mown := 0, mstat := v }
     (m 0x500).arrayMine ∧ (m 0x500).mstatField 8 3 = 5 ∧ (m 0x400).mstatField 8 3 = 4 ∧ (3 : Nat) < 9 ∧ (9 : Nat) ≤ 9 ∧
     issueAll (m 0x500) [.mop 0 7 0 4, .mopx 0 7 12 0 4, .mops 24 7 0 4, .mopsx 24 7 12 0 4] = true) := by
  unfold State.arrayMine
  decide +kernel
/-! Witnesses for panes, streams, jobs, tasks, gangs, messages and waits. -/

/-- A release of a context goes ahead, to a state of which `p` holds. -/
def releasedTo (s : State) (c : CtxId) (ops : List Word) (sc : Nat) (p : State → Bool) : Bool :=
  let v := s.closeInterval c ops
  let u := v.1.release c ((v.1.ctx c).effScope sc) .message
  v.2 && (!(v.1.ctx c).isShadow && (u.2 && p u.1))

theorem released_of {s : State} {c : CtxId} {ops : List Word} {sc : Nat} {p : State → Bool}
    (h : releasedTo s c ops sc p = true) : ∃ u, s.Released c ops sc u ∧ p u = true := by
  have a := Bool.and_eq_true_iff.mp h
  have b := Bool.and_eq_true_iff.mp a.2
  have e := Bool.and_eq_true_iff.mp b.2
  exact ⟨_, ⟨_, Prod.ext rfl a.1, by simpa using b.1, Prod.ext rfl e.1⟩, e.2⟩

/-- A fence of the context whose turn it is goes ahead, to a state of which `p` holds. -/
def fencedTo (s : State) (sc : Nat) (p : State → Bool) : Bool :=
  let v := s.closeInterval s.cur []
  let u := v.1.release s.cur ((v.1.ctx s.cur).effScope sc) .fence
  v.2 && (u.2 && (u.1.jobsDone s.cur && p u.1))

theorem fenced_of {s : State} {sc : Nat} {p : State → Bool} (h : fencedTo s sc p = true) : ∃ u, s.Fenced sc u ∧ p u = true := by
  have a := Bool.and_eq_true_iff.mp h
  have b := Bool.and_eq_true_iff.mp a.2
  have e := Bool.and_eq_true_iff.mp b.2
  exact ⟨_, ⟨_, Prod.ext rfl a.1, Prod.ext rfl b.1, e.1⟩, e.2⟩

/-- A read of a block of `n` bytes of HBM goes ahead, with its bytes and a state of which `p` holds. -/
def blockTo (s : State) (c : CtxId) (va : Word) (n : Nat) (p : List Byte → State → Bool) : Bool :=
  match s.walkReady (s.agent c) [va] n, s.checkAccess (s.agent c) .load va n with
  | some s0, .ok x => match (s0.fillTlb (s.agent c) va x.xl).readLines (dieOf c) (linesOf x.pa n) with
    | some s1 => decide (x.place = .hbm) && p (s1.view c (dieOf c) x.pa n) (s1.takeRead c false false x.pa n)
    | none => false
  | _, _ => false

theorem readsBlock_of {s : State} {c : CtxId} {va : Word} {n : Nat} {p : List Byte → State → Bool}
    (h : blockTo s c va n p = true) : ∃ bs u, s.ReadsBlock c va n bs u ∧ p bs u = true := by
  unfold blockTo at h
  split at h
  · next s0 x hw hx =>
    split at h
    · next s1 hr =>
      have a := Bool.and_eq_true_iff.mp h
      exact ⟨_, _, ⟨s0, x, s1, hw, hx, of_decide_eq_true a.1, hr, rfl, rfl⟩, a.2⟩
    · cases h
  · cases h

/-- A core whose 4 banks belong to local domain 7. -/
def banked (k : Core) : Core := { k with dpbank := 0xFFF4 }

/-- PALLOC: a request that is met at base 0 in a named pane and in the lowest free one, and each request that is not. -/
theorem witness_panes :
    let s (a b : Word) : State := onCore (vec0 fun k => (k.wx 6 a).wx 7 b) banked
    let t := onCore (vec0 fun k => (k.wx 6 5).wx 7 5) paneCore
    (s 64 63).issues (encode (.palloc 5 6 7)) = true ∧ ((s 64 63).here.rx 6).toNat % 64 = 0 ∧ ((s 64 63).here.rx 6).toNat ≠ 0 ∧
    ((s 64 63).here.rx 6).toNat ≤ (s 64 63).sliceSize 64 ∧ (s 64 63).coreHere.paneNumber 63 = some 63 ∧
    (s 64 64).coreHere.paneNumber 64 = some 0 ∧ (s 64 63).paneBase 64 7 64 = some 0 ∧ t.coreHere.paneNumber 5 = none ∧
    ((s 0x40000 0).here.rx 6).toNat ≤ (s 0 0).sliceSize 64 ∧ (s 0 0).sliceSize 64 < 0x40040 ∧
    (vec0 id).paneBase 64 7 64 = none ∧
    (t.here.rx 6).toNat < 64 ∧ (t.paneHere (t.here.rx 6)).state = 2 ∧ (t.paneHere (t.here.rx 6)).owner = t.did t.cur ∧
    (t.paneHere (t.here.rx 6)).held = false ∧ (t.paneHere 64).state = 0 ∧ t.did t.cur ≠ 3 ∧ (5 + 256 * 7 : Nat) / 64 = 4 + 8 * 3 ∧
    2048 ≤ ((s 2048 0).here.rx 6).toNat ∧ (s 2048 0).issues (encode (.pstate 5 6)) = true ∧
    t.issues (encode (.pstate 5 6)) = true ∧ t.issues (encode (.pfree 6)) = true := by decide +kernel

/-- Panes of another domain, and panes that move. -/
theorem witness_pane_other :
    let t (st : BitVec 2) (o : BitVec 7) : State := onCore (vec0 fun k => k.wx 6 63) fun k => (banked k).setPane 63 (Pane.mk st false o 0 64)
    (t 2 3).issues (encode (.pstate 5 6)) = true ∧ ((t 2 3).here.rx 6).toNat < 64 ∧ ((t 2 3).paneHere ((t 2 3).here.rx 6)).state ≠ 0 ∧
    ((t 2 3).paneHere ((t 2 3).here.rx 6)).owner ≠ (t 2 3).did (t 2 3).cur ∧ ((t 1 7).paneHere ((t 1 7).here.rx 6)).state = 1 ∧
    ((t 3 7).paneHere ((t 3 7).here.rx 6)).state = 3 ∧ ((t 3 7).paneHere ((t 3 7).here.rx 6)).owner = (t 3 7).did (t 3 7).cur ∧
    (t 3 7).issues (encode (.pfree 6)) = true := by decide +kernel

/-- Memory of die 1 that holds a stream descriptor at its first byte: COUNT 8, pane 5, input. -/
def descMem : Memory := [(0x40000000008, 8), (0x40000000029, 5)]

/-- Gust of core 64 works for the secure world, as its context in M does. -/
theorem witness_streams :
    let s : State := { onCore (vec0 fun k => k.wx 10 0x40000000000) fun k => { paneCore k with gw := true } with mem := descMem }
    let d := s.modCtx 512 fun k => k.setStream 2 { Stream.reset with st := .declared, pane := 5 }
    let b := s.modCtx 512 fun k => k.setStream 2 { Stream.reset with st := .bound, pane := 5, vd := 24 }
    let e : VEntry := { cover := 0, rows := 0, started := false, flags := 0, mc := none, writes := [], reads := [],
                        ticket := { dom := 0, no := 0 }, due := 0, load := none }
    issueAll s [.sdecl 2 10, .sbind 24 2, .sunbind 31, .sstat 5 2] = true ∧ (s.here.mode = .m ∧ s.coreHere.gw = true) ∧
    (s.here.stream 2).st = .free ∧
    blockTo (s.issued (encode (.sdecl 2 10))) s.cur (s.here.rx 10) 64 (fun bs u =>
      streamLegal bs && decide ((streamOf bs).pane = 5) && decide (((u.core 64).pane 5).state = 2) &&
        decide (((u.core 64).pane 5).held = false) && decide (((u.core 64).pane 5).owner = s.did s.cur)) = true ∧
    issueAll (vec0 id) [.sdecl 2 10, .sbind 24 2, .sunbind 24, .sstat 5 2] = true ∧ (vec0 id).coreHere.gw = false ∧
    (onCore d fun k => { k with gw := false }).coreHere.gw = false ∧
        (b.here.stream 2).st = .bound ∧ b.issues (encode (.sdecl 2 10)) = true ∧ b.issues (encode (.sbind 24 2)) = true ∧
    (d.here.stream 2).st = .declared ∧ d.here.boundTo 24 = none ∧ d.issues (encode (.sbind 24 2)) = true ∧
    b.here.boundTo 24 = some 2 ∧ b.issues (encode (.sunbind 24)) = true ∧
    ((b.issued (encode (.sunbind 24))).streamDrained b.cur (b.here.stream 2)).2 = true ∧ s.here.boundTo 31 = none ∧
    s.queuesEmpty s.cur = true ∧ (s.modCtx 512 fun k => { k with vq := [e] }).queuesEmpty 512 = false ∧
    (s.modCtx 512 fun k => { k with vq := [e] }).issues (encode (.sstat 5 2)) = true := by decide +kernel

/-- SEAL of 64 bytes at 0x40000001000, and UNSEAL and RELB of buffers held by no die and by die 2, and of none. -/
theorem witness_sealed_buffers :
    let s : State := { vec0 (fun k => (k.wx 10 0x40000000000).wx 11 0x40000001000) with
                       mem := [(0x40000000001, 0x10), (0x40000000005, 4), (0x40000000008, 64)] }
    let e (h : List Nat) : Seal := { base := 0x40000001000, len := 64, did := 7, draining := false, holders := h }
    let t (h : List Nat) : State := s.modDie 1 fun d => { d with seals := [(0, e h)] }
    s.issues (encode (.seal 10)) = true ∧
    blockTo (s.issued (encode (.seal 10))) s.cur (s.here.rx 10) 16 (fun bs s1 =>
      match s1.walkReady (s1.agent s.cur) [blockWord bs 0] 1 with
      | none => false
      | some s2 => match s2.checkAccess (s1.agent s.cur) .store (blockWord bs 0) 1 with
        | .error _ => false
        | .ok x =>
          let u := (s2.fillTlb (s1.agent s.cur) (blockWord bs 0) x.xl).closeInterval s.cur [blockWord bs 0, blockWord bs 1]
          decide (blockWord bs 0 = 0x40000001000 ∧ blockWord bs 1 = 64) && s2.sealRange (blockWord bs 0) x 64 &&
            !(s2.die (s2.homeKey x.pa)).sealMeets x.pa 64 && decide ((s2.die (s2.homeKey x.pa)).sealSlot = some 0) && u.2 &&
            !(u.1.ctx s.cur).isShadow && (u.1.release s.cur 4 .access).2 && ((u.1.release s.cur 4 .access).1.rangeHome x.pa 64).2) = true ∧
        ([[], [2]].all fun h => issueAll (t h) [.unseal 11, .relb 11] &&
      (let s1 := (t h).issued (encode (.unseal 11))
       match s1.walkReady (s1.agent s.cur) [(t h).here.rx 11] 1 with
       | none => false
       | some s0 => (match s0.sealNamed s.cur ((t h).here.rx 11) with
         | .ok (some (1, 0, f)) => decide (f = e h)
         | _ => false) && (s0.closeInterval s.cur [(t h).here.rx 11]).2 &&
           !((s0.closeInterval s.cur [(t h).here.rx 11]).1.ctx s.cur).isShadow)) = true ∧
    (let s1 := s.issued (encode (.relb 11))
     match s1.walkReady (s1.agent s.cur) [s.here.rx 11] 1 with
     | none => false
     | some s0 => match s0.sealNamed s.cur (s.here.rx 11) with
       | .ok none => true
       | _ => false) = true ∧ issueAll s [.relb 11, .unseal 11] = true := by decide +kernel

/-- A job record in HBM, an engine of the secure world, with room in its queue and with a full one. -/
theorem witness_jobs :
    let s : State := (vec0 fun k => k.wx 6 0x40000000000).modDie 1 fun d => { d with levW := 0xFF }
    issueAll s [.lxcopy 5 6 2 0 1, .lxgath 5 6 4 1 1, .lxscat 5 6 0 1 0, .lxpoll 5 6] = true ∧ s.here.mode = .m ∧
    (s.die 1).levW.getLsbD (clusterOf 64) = true ∧ s.here.red = none ∧ s.here.log = none ∧
    (let s1 := s.issued (encode (.lxgath 5 6 4 1 1))
     match s1.walkReady (s1.agent s.cur) [s.here.rx 6] 64 with
     | none => false
     | some s0 => match s0.recordCheck (s1.agent s.cur) (s.here.rx 6) with
       | .error _ => false
       | .ok x =>
         let u := s0.closeInterval s.cur [s.here.rx 6]
         let v := u.1.release s.cur ((u.1.ctx s.cur).effScope 4) .access
         u.2 && !(u.1.ctx s.cur).isShadow && v.2 && decide (((v.1.die 1).queue (clusterOf 64)).length < Config.jobQueueDepth) &&
           decide (0 < corePlaces ∧ 0 < v.1.levanterPlaces s.cur) && (v.1.readLines 1 (accLines [x])).isSome) = true ∧
    ((vec0 id).die 1).levW.getLsbD (clusterOf 64) = false ∧
    issueAll (vec0 id) [.lxcopy 5 6 2 0 1, .lxgath 5 6 4 1 1, .lxscat 5 6 0 1 0, .lxpoll 5 6] = true ∧
        Config.jobQueueDepth ≤ (List.replicate Config.jobQueueDepth 0).length := by decide +kernel

/-- RSPAWN: a core of the partition, and each operand that is refused. -/
theorem witness_spawn :
    let s (a b : Word) : State := vec0 fun k => (k.wx 5 a).wx 6 b
    (s 0x40 4).issues (encode (.rspawn 5 6)) = true ∧ ((s 0x40 4).here.rx 5).toNat < 1024 ∧ ((s 0x40 4).here.rx 6).toNat % 4 = 0 ∧
    canonical (s 0x40 4).here.mode ((s 0x40 4).here.rx 6) = true ∧
    ((s 0x40 4).core (spawnCore 0x40)).part.toNat = (s 0x40 4).part (s 0x40 4).cur ∧
    1024 ≤ ((s 1024 4).here.rx 5).toNat ∧ ((s 1023 2).here.rx 6).toNat % 4 ≠ 0 ∧ ((s 1023 2).here.rx 5).toNat < 1024 ∧
    (((s 0x40 4).modCore (spawnCore 0x40) fun k => { k with part := 1 }).core (spawnCore 0x40)).part.toNat ≠ 0 := by decide +kernel

theorem witness_spawn_released :
    ∃ u, ((vec0 fun k => k.wx 5 0x40).issued (encode (.rspawn 5 6))).Released 512 [0x40, 0]
      (narrowScope 512 (spawnCore 0x40 * 8)) u ∧ true = true := released_of (by decide +kernel)

/-- Deques: empty, of the own domain, of another domain; nobody to steal from. -/
theorem witness_deques :
    let s := vec0 fun k => { k with stealdom := 0x18000 }
    let e : Task := { pc := 4, a0 := 0, a1 := 0, a2 := 0, a3 := 0, join := 0 }
    let t (o : BitVec 7) : State := onCore s fun k => { k with deque := [e], dqOwner := o }
    issueAll s [.dqpush 5 6, .dqpop 5] = true ∧ s.coreHere.dqEmpty = true ∧ s.coreHere.deque.length < 32 ∧ s.victims s.cur = [] ∧
    s.here.red = none ∧ s.here.log = none ∧ (t 7).coreHere.dqOwner = (t 7).did (t 7).cur ∧ (t 7).coreHere.deque = [e] ∧
    (t 3).coreHere.dqEmpty = false ∧ (t 3).coreHere.dqOwner ≠ (t 3).did (t 3).cur ∧ issueAll (t 3) [.dqpush 5 6] = true ∧
    issueAll (t 7) [.dqpop 5] = true := by decide +kernel

/-- A gang of contexts 512 and 513, as member 0 of which the context of `vec0` runs. -/
def ganged (st : GangState) (g : Ctx → Ctx) : State :=
  { vec0 fun k => g { k with gang := 3, rank := 0 } with
    gangs := [(3, { st := st, size := 2, members := [512, 513], entries := [⟨512, false, true⟩, ⟨513, false, true⟩], gen := 0 })] }

/-- GNEW and GADD: the bounds of the size, a member that is not the last and one that is. -/
theorem witness_gangs :
    let s (a : Word) : State := vec0 fun k => (k.wx 5 a).wx 7 513
    let f (ms : List CtxId) (n : Nat) : State := { s 3 with gangs := [(3, { st := .forming, size := n, members := ms, entries := [], gen := 0 })] }
    (s 1).here.mode ≠ .u ∧ (s 1).issuesIf (encode (.gnew 6 5)) false = true ∧ 1 ≤ ((s 1).here.rx 5).toNat ∧
    ((s 8192).here.rx 5).toNat ≤ 8192 ∧ (upFrom 1 4095).find? (fun g => ((s 1).gang? g).isNone) = some 1 ∧ (s 0).here.rx 5 = 0 ∧
    8192 < ((s 8193).here.rx 5).toNat ∧
    ([(f [] 2, []), (f [512] 2, [512])].all fun p => p.1.issuesIf (encode (.gadd 5 7)) false &&
      decide ((p.1.gang? (p.1.here.rx 5).toNat) = some { st := .forming, size := 2, members := p.2, entries := [], gen := 0 }) &&
      decide (bits (p.1.here.rx 7) 18 13 = p.1.pkgNum) && decide (dieOf 513 < 12) && decide (p.1.part 513 = p.1.part p.1.cur) &&
      decide (p.1.did 512 = p.1.did 513) && decide (slotOf 513 ≠ 7) && !(p.1.core 64).harv && !p.1.isMember 513) = true := by
  decide +kernel

/-- An activation of two different members. -/
theorem witness_activate : ([512, 513] : List CtxId).Nodup ∧ (3 : Nat) ≠ 0 ∧ (515 : CtxId) ∉ ([512, 513] : List CtxId) := by decide

/-- GSTOP and GRESUME of an active, a stopping and a stopped gang, with and without bit 63, and of no gang. -/
theorem witness_gang_stop :
    ([GangState.active, .stopping, .stopped].all fun st => ([3, BitVec.twoPow 64 63 + 3] : List Word).all fun a =>
      let s := ganged st fun k => k.wx 5 a
      s.issuesIf (encode (.gstop 5)) false && s.issuesIf (encode (.gresume 5)) false && decide (s.here.mode ≠ .u) &&
        (match (s.issued (encode (.gstop 5))).namedGang (s.here.rx 5), (s.issued (encode (.gresume 5))).namedGang (s.here.rx 5) with
         | some e, some f => decide (e.st = st) && decide (f.st = st)
         | _, _ => false)) = true ∧ (vec0 id).namedGang 0 = none := by decide +kernel

/-- GBAR of a member: not arrived, arrived with its generation not complete and complete; of a context in no gang. -/
theorem witness_barrier :
    let s := ganged .active id
    let t (n : Nat) : State := { ganged .active (fun k => { k with arrived := true }) with
      gangs := [(3, { st := .active, size := 2, members := [512, 513], entries := [], gen := n })] }
    s.issues (encode .gbar) = true ∧ (s.gangHere.map fun g => g.size) = some 2 ∧ s.here.arrived = false ∧
    (t 1).issues (encode .gbar) = true ∧ (t 1).here.arrived = true ∧ ((t 1).gangHere.map fun g => g.gen) = some 1 ∧
    (t 1).here.gbarGen = 0 ∧ ((t 0).gangHere.map fun g => g.gen) = some 0 ∧ (vec0 id).gangHere = none ∧
    issueAll (vec0 id) [.gbar, .gcast 15 7] = true := by decide +kernel

theorem witness_barrier_released : ∃ u, ((ganged .active id).issued (encode .gbar)).Released 512 [] 4 u ∧ true = true :=
  released_of (by decide +kernel)

/-- GCAST to the pane of core 65, where the other member runs: of the pane of the own core, and of a sealed buffer, which also
fills the own core's pane. -/
theorem witness_gcast :
    let g : Gang := { st := .active, size := 2, members := [512, 520], entries := [], gen := 0 }
    let p (k : Core) : Core := (banked k).setPane 5 (Pane.mk 2 false 7 0 64)
    let e : Seal := { base := 0x40000000000, len := 64, did := 7, draining := false, holders := [] }
    let s (a : Word) : State := ((onCore { vec0 (fun k => { (k.wx 7 (5 + 64)).wx 15 a with gang := 3 }) with gangs := [(3, g)] }
      p).modCore 65 p).modDie 1 fun d => { d with seals := [(0, e)] }
    let s1 (a : Word) : State := (s a).issued (encode (.gcast 15 7))
    let src : Word := 0x40000000000
    ([0, src].all fun a => (s a).issues (encode (.gcast 15 7)) && decide ((s a).gangHere = some g) &&
      zeroBits ((s a).here.rx 7) 63 32 && ([512, 520].all fun m => let q := ((s1 a).core (coreOf m)).pane 5
        decide (q.state = 2 ∧ q.held = false ∧ q.owner = (s1 a).did m ∧ 64 ≤ q.size * physLanes (coreOf m)))) = true ∧
    releasedTo (s1 0) 512 [0, 5 + 64] g.scope (fun _ => true) = true ∧
    (match (s1 src).walkReady ((s1 src).agent 512) [src] 64, (s1 src).castLines 512 src 64 with
     | some s0, .ok as => releasedTo s0 512 [src, 5 + 64] g.scope fun u => (u.readLines 1 (accLines as)).isSome
     | _, _ => false) = true := by decide +kernel

/-- MSEND to member 1, with a payload in HBM and without one; a rank beyond the gang; no gang. -/
theorem witness_send :
    let s (a : Word) : State := ganged .active fun k => k.wx 5 a
    issueAll (s 1) [.msend 5 6 0, .msend 5 6 1, .msend 5 0 2, .msend 5 6 3] = true ∧ ((s 1).gangHere.map fun g => g.size) = some 2 ∧
    ((s 1).here.rx 5).toNat < 2 ∧
    blockTo ((s 1).issued (encode (.msend 5 6 0))) 512 ((s 1).here.rx 6) 64 (fun bs r =>
      releasedTo r 512 (1 :: (upFrom 0 8).map (msgWord (Msg.mk 0 false 0 3 1 (BitVec.ofNat 512 (natOf bs)))))
        (narrowScope 512 513) fun _ => true) = true ∧ 8192 ≤ ((s 8192).here.rx 5).toNat ∧ 2 ≤ ((s 2).here.rx 5).toNat ∧
    (vec0 id).gangHere = none ∧ issueAll (vec0 id) [.msend 5 6 0] = true := by decide +kernel

theorem witness_send_released :
    ∃ u, ((ganged .active fun k => k.wx 5 1).issued (encode (.msend 5 0 2))).Released 512
      (1 :: (upFrom 0 8).map (msgWord { kind := 2, org := false, srank := 0, gang := 3, trank := 1, payload := 0 }))
      (narrowScope 512 513) u ∧ true = true := released_of (by decide +kernel)

/-- MRECV in a gate, with an empty mailbox, and with a message whose 64 bytes go to HBM, or to host memory. -/
theorem witness_receive :
    let s := vec0 fun k => { k with mailbox := [m0] }
    let t := vec0 fun k => { k with depth := 1 }
    let h := vec0 fun k => { k.wx 6 hostA with mailbox := [m0] }
    issueAll s [.mrecv 5 6] = true ∧ issueAll t [.mrecv 5 6] = true ∧ t.here.depth ≠ 0 ∧ (vec0 id).here.mailbox = [] ∧
    issueAll (vec0 id) [.mrecv 5 6] = true ∧ s.here.depth = 0 ∧ s.here.red = none ∧ s.here.log = none ∧ s.here.mailbox = [m0] ∧
    frontTo (s.issued (encode (.mrecv 5 6))) s.cur .store (s.here.rx 6) 64 false 0 0 [] (fun x u =>
      decide (x.place = .hbm) && u.leaseFree x.pa 64) = true ∧
    frontTo (h.issued (encode (.mrecv 5 6))) h.cur .store (h.here.rx 6) 64 false 0 0 [] (fun x _ =>
      decide (x.place = .host 0)) = true ∧ h.issues (encode (.mrecv 5 6)) = true := by decide +kernel

/-- WAITM with a message, a held SPAWN, a wake, nothing, and in a gate; WAITT before and after its time; WFI. -/
theorem witness_waits :
    let s (g : Ctx → Ctx) : State := { vec0 (fun k => g (k.wx 5 5)) with timeBase := 5 }
    ([id, fun k : Ctx => { k with mailbox := [m0] }, fun k => { k with spawn := some m0 }, fun k => { k with wake := true },
      fun k => { k with depth := 1 }].all fun g => issueAll (s g) [.waitm, .waitt 5, .timeq 5, .wfi]) = true ∧
    (s id).here.depth = 0 ∧ (s id).here.log = none ∧ (s id).here.red = none ∧ (s id).here.mailbox = [] ∧
    (s fun k => { k with mailbox := [m0] }).here.mailbox ≠ [] ∧ (s fun k => { k with wake := true }).here.wake = true ∧
    (s fun k => { k with wake := true }).here.wfiReady = true ∧ (s id).here.wfiReady = false := by decide +kernel

theorem time_bounds {s : State} {n : Nat} (h : s.timeBaseNow = n) (hn : n < 1000) (d : Nat) :
    n ≤ (s.time d).toNat ∧ (s.time d).toNat ≤ n + 2 := by
  have hm : Nat.min (Config.skew d) 2 ≤ 2 := Nat.min_le_right _ _
  rw [State.time, h, BitVec.toNat_ofNat, Nat.mod_eq_of_lt (by omega)]
  omega

/-- Time 5 with x5 = `a`. -/
def timed (a : Word) : State := { vec0 (fun k => k.wx 5 a) with timeBase := 5 }

/-- A time that is past, and one that is not, whatever the skew of the die (log entry 2). -/
theorem witness_waitt : ((timed 4).here.rx 5).toNat < ((timed 4).time 1).toNat ∧
    ((timed 7).time 1).toNat ≤ ((timed 7).here.rx 5).toNat := by
  have h1 := time_bounds (s := timed 4) (n := 5) (by decide +kernel) (by decide) 1
  have h2 := time_bounds (s := timed 7) (n := 5) (by decide +kernel) (by decide) 1
  have h3 : ((timed 4).here.rx 5).toNat = 4 := by decide +kernel
  have h4 : ((timed 7).here.rx 5).toNat = 7 := by decide +kernel
  rw [h3, h4]
  exact ⟨Nat.lt_of_lt_of_le (by decide) h1.1, h2.2⟩


/-- SDECL of a declared stream, whose pane is free or its own (statement Streams); a thread that spawns at an address that is not
canonical (statement Spawn). -/
theorem witness_redeclare :
    let s : State := { onCore (vec0 fun k => k.wx 10 0x40000000000) fun k => { paneCore k with gw := true } with mem := descMem }
    let d (p : BitVec 6) : State := s.modCtx 512 fun k => k.setStream 2 { Stream.reset with st := .declared, pane := p }
    ([5, 6] : List (BitVec 6)).all (fun p => (d p).issues (encode (.sdecl 2 10)) && decide (((d p).here.stream 2).st = .declared) &&
      blockTo ((d p).issued (encode (.sdecl 2 10))) 512 ((d p).here.rx 10) 64 fun bs u =>
        streamLegal bs && decide ((streamOf bs).pane = 5) && decide (((u.core 64).pane 5).state = 2) &&
          decide (((u.core 64).pane 5).owner = (d p).did 512)) = true ∧
    (let t := vec0 fun k => { (k.wx 5 0x40).wx 6 (BitVec.twoPow 64 60) with mode := .u, did := 0 }
     t.issues (encode (.rspawn 5 6)) = true ∧ (t.here.rx 5).toNat < 1024 ∧ (t.here.rx 6).toNat % 4 = 0 ∧
     canonical t.here.mode (t.here.rx 6) = false) := by decide +kernel

/-- A full deque, with room in the ring of pane 63 and without; records in the ring alone; a core to steal from (statement Deques). -/
theorem witness_deque_spill :
    let e : Task := { pc := 4, a0 := 0, a1 := 0, a2 := 0, a3 := 0, join := 0 }
    let full (st : BitVec 2) : State := onCore (vec0 id) fun k =>
      { banked k with deque := List.replicate 32 e, dqOwner := 7 }.setPane 63 (Pane.mk st false 7 0 64)
    let ring := onCore (vec0 id) fun k => { banked k with ringCnt := 1, dqOwner := 7 }.setPane 63 (Pane.mk 2 true 7 0 64)
    let thief := (vec0 fun k => { k with stealdom := 0x2081 }).modCore 65 fun k => { k with deque := [e], dqOwner := 7 }
    ([full 2, full 0].all fun s => s.issues (encode (.dqpush 5 6)) && decide (s.coreHere.dqOwner = s.did s.cur) &&
      decide (32 ≤ s.coreHere.deque.length)) = true ∧
    ((full 2).coreHere.pane 63).state = 2 ∧ ((full 2).coreHere.pane 63).owner = (full 2).did 512 ∧
    (full 2).coreHere.ringCnt < (full 2).coreHere.ringSize (physLanes 64) ∧ ((full 0).coreHere.pane 63).state ≠ 2 ∧
    ring.issues (encode (.dqpop 5)) = true ∧ ring.coreHere.dqOwner = ring.did 512 ∧ ring.coreHere.deque = [] ∧
    ring.coreHere.ringCnt ≠ 0 ∧ ring.here.red = none ∧ ring.here.log = none ∧
    thief.issues (encode (.dqpop 5)) = true ∧ thief.coreHere.dqEmpty = true ∧
    (thief.issued (encode (.dqpop 5))).victims 512 = [65, 66] ∧ thief.victims 512 = [65, 66] := by decide +kernel
/-! Witnesses for system instructions, gates, traps and system registers. -/

/-- The context of `vec0` in mode `md` with DID `d`. -/
def inMode (md : Mode) (g : Ctx → Ctx) : State := vec0 fun k => g { k with mode := md, did := 0 }

/-- ECALL in each mode, EBREAK, the fences, WFI and a prefix. -/
theorem witness_calls : ([Mode.u, .s, .h, .m].all fun md => issueAll (inMode md id) [.ecall, .ebreak, .fence 0, .fence 4, .chkpt,
      .fencei, .wfi, .pfx 1 5 0 7 1 0 0]) = true ∧ pfxLegal (encode (.pfx 1 5 0 7 1 0 0)) = true ∧
    (let s := vec0 id
     s.here.red = none ∧ s.here.vq = [] ∧ s.here.vchk = none ∧ s.pend = [] ∧ s.jobsDone s.cur = true ∧
     ((s.issued (encode .fencei)).closeInterval s.cur []).2 = true ∧
     ((s.issued (encode .fencei)).closeInterval s.cur []).1.storesDone s.cur = true) ∧
    (let h (n : Word) : State := inMode .h fun k => k.wx 10 n
     ([0x100, 0x101, 0x110, 0x111, 0x112].all fun n => (h n).issues (encode .ecall) && decide ((h n).here.rx 10 = n)) = true ∧
     (h 0x102).here.rx 10 = 0x102 ∧ (h 0x102).here.mode = .h) := by decide +kernel

theorem witness_fence : (∃ u, ((vec0 id).issued (encode (.fence 4))).Fenced 4 u ∧ true = true) ∧
    ∃ u, ((vec0 id).issued (encode .chkpt)).Fenced 4 u ∧ true = true :=
  ⟨fenced_of (by decide +kernel), fenced_of (by decide +kernel)⟩

/-- TLBINV in M, H and S with the operand bits that each allows, and with bits that it does not. -/
theorem witness_tlbinv :
    let s (md : Mode) (b : Word) : State := inMode md fun k => k.wx 11 b
    ([(Mode.m, (2 : BitVec 2)), (.h, 1), (.s, 0)].all fun p => (s p.1 0x3FFF).issuesIf (encode (.tlbinv 10 11 p.2)) false &&
      zeroBits ((s p.1 0x3FFF).here.rx 11) 15 14 && zeroBits ((s p.1 0x3FFF).here.rx 11) 63 28 &&
      zeroBits ((s p.1 0x3FFF).here.rx 11) 27 16 &&
      (let v := ((s p.1 0x3FFF).issued (encode (.tlbinv 10 11 p.2))).closeInterval 512 [(s p.1 0x3FFF).here.rx 10, 0x3FFF]
       v.2 && (v.1.release 512 3 .access).2 && (v.1.release 512 3 .access).1.jobsDone 512)) = true ∧
    zeroBits ((s .m 0x4000).here.rx 11) 15 14 = false ∧ zeroBits ((s .m 0x10000000).here.rx 11) 63 28 = false ∧
    zeroBits ((s .s 0x10000).here.rx 11) 27 16 = false ∧ (s .s 0x10000).here.mode = .s ∧
    (s .s 0x10000).issuesIf (encode (.tlbinv 10 11 0)) false = true := by decide +kernel

/-- A gate 0 of partition 0, whose table lies at 0x40000000000, open to local domain 0, with frames at 0x40000200000. -/
def gateState (md : Mode) (g : Ctx → Ctx) : State :=
  { onCore ((inMode md fun k => g { k with did := 0 }).modDie 1 fun d =>
      { d with granules := [(1, { w := false, part := 0, any := false, gf := true })] }) (fun k =>
        { k with gfV := true, gfFb := 0x40000200, mown := 1 }) with
    parts := Vector.replicate 16 { ng := 1, gt := 0x40000000, vcw := 0 },
    mem := [(0x40000000000, 8), (0x40000000008, 3), (0x40000000009, 1)] }

/-- DGATE through an open gate, and through one beyond the table; DRET with a frame and without. -/
theorem witness_gates :
    let s := gateState .u id
    let t := gateState .u fun k => { k with depth := 1 }
    s.here.mode = .u ∧ s.issuesIf (encode (.dgate 10)) false = true ∧ s.gateOk s.cur (s.here.rx 10) = true ∧
    s.frameOk s.cur (s.frameAddr s.cur s.here.depth) = true ∧ (gateState .s fun k => k.wx 10 1).gateOk 512 1 = false ∧
    (gateState .s fun k => k.wx 10 1).issuesIf (encode (.dgate 10)) false = true ∧
    t.issuesIf (encode .dret) false = true ∧ t.here.depth ≠ 0 ∧ t.frameOk t.cur (t.frameAddr t.cur (t.here.depth - 1)) = true ∧
    s.issuesIf (encode .dret) false = true ∧ s.here.depth = 0 ∧ slotOf s.cur ≠ 7 ∧ slotOf (sys7 id).cur = 7 := by decide +kernel

/-- The gate's entry is read at once, its table lies in memory that another partition owns, and a frame is read back (statement
Gates). -/
theorem witness_gate_reads :
    let s := gateState .u id
    let b := s.modDie 1 fun d => { d with granules := [(0, { w := false, part := 1, any := false, gf := false })] }
    let t := gateState .u fun k => { k with depth := 1 }
    let s1 := s.issued (encode (.dgate 10))
    s1.gateBarred 512 0 = false ∧ 0 < s1.gateCount (s1.part 512) ∧
    (s1.readLines 1 (linesOf (s1.gateAddr (s1.part 512) 0) 32)).isSome = true ∧
    b.gateBarred 512 0 = true ∧ b.issuesIf (encode (.dgate 10)) false = true ∧ t.here.isShadow = false ∧
    ((t.issued (encode .dret)).readLines 1 ((t.issued (encode .dret)).frameLines 512 0x40000200000 false)).isSome = true ∧
    (t.core 64).mq = [] ∧ (t.ctx (64 * 8 + (t.core 64).mown.toNat)).vq = [] := by decide +kernel

theorem witness_gate_fenced :
    (∃ u, ((gateState .u id).issued (encode (.dgate 10))).Fenced 4 u ∧ (u.vectorIdle 512 &&
      (u.frameError 512 0x40000200000).isNone) = true) ∧
    ∃ u, ((gateState .u fun k => { k with depth := 1 }).issued (encode .dret)).Fenced 4 u ∧ (u.vectorIdle 512 &&
      (u.frameError 512 0x40000200000).isNone && decide (natOf (u.areaRead 512 (0x40000200000 + 0x28) 8) ≠ 1)) = true :=
  ⟨fenced_of (p := fun u => u.vectorIdle 512 && (u.frameError 512 0x40000200000).isNone) (by decide +kernel),
    fenced_of (p := fun u => u.vectorIdle 512 && (u.frameError 512 0x40000200000).isNone &&
      decide (natOf (u.areaRead 512 (0x40000200000 + 0x28) 8) ≠ 1)) (by decide +kernel)⟩

/-- ERET in S, H and M to U, with the DID of the slot; in U, to a higher mode, and in slot 7 to U and H. -/
theorem witness_return :
    ([Mode.s, .h, .m].all fun md =>
      let s := inMode md id
      let b := s.here.bank md
      s.issues (encode .eret) && decide (b.pm = .u ∨ b.pm = .s) && decide (b.pm.toNat ≤ md.toNat) &&
        decide (s.coreHere.ssec.getLsbD (slotOf s.cur) = false) &&
        decide (s.pdid s.cur md = s.slotDid (coreOf s.cur) (slotOf s.cur)) && !s.inStopped s.cur && s.here.swOut.isNone &&
        !s.here.stopped && ((s.issued (encode .eret)).migTarget s.cur).isNone &&
        !(s.issued (encode .eret)).migReflects s.cur) = true ∧
    issueAll (inMode .u id) [.eret] = true ∧ (inMode .u id).here.mode = .u ∧
    (let s := inMode .s fun k => k.setBank .s { TrapBank.reset with pm := .h }
     s.here.mode.toNat < (s.here.bank s.here.mode).pm.toNat ∧ s.issues (encode .eret) = true) ∧
    (let s := sys7 id
     slotOf s.cur = 7 ∧ (s.here.bank s.here.mode).pm = .u ∧ s.issues (encode .eret) = true) := by decide +kernel

/-- A migration return: a thread of U that took the migrate trap at a POPC, and a context of another die parked in
WAITM; without a gang step 1 finds it, and a rank entry may have named it. -/
theorem witness_migration_return :
    let parked (s : State) : State := s.modCtx 1024 fun k => { k with run := .parked .waitm, mode := .u, did := 0, lanes := 16 }
    let m (dest : Option CtxId) : State := parked (inMode .m fun k =>
      { k with mb := { TrapBank.reset with code := 2, tval := 0x00A60013, epc := 0x40 }, traps := 1, migDest := dest, gang := 0,
               migPc := some 0x100 })
    let r (dest : Option CtxId) : State × Bool := ((m dest).issued (encode .eret)).release 512 4 .message
    ([none, some 1024].all fun dest => let s := m dest; let s1 := s.issued (encode .eret); let u := (r dest).1
      s.issues (encode .eret) && decide (s1.eretTrap s.cur = none) && !s1.inStopped s.cur && decide (s1.migTarget s.cur = some 1024) &&
        (r dest).2 && u.mayLeave s.cur 1024 && decide (u.migTarget s.cur = some 1024)) = true ∧
    (1024 : CtxId) ≠ (m none).cur := by decide +kernel

/-- A thread whose trap no context can serve: no other is parked in WAITM; and one that owns the array but has no save area. -/
theorem witness_reflected_return :
    let m (own : BitVec 3) : State := onCore (inMode .m fun k =>
      { k with mb := { TrapBank.reset with code := 2, tval := 0x00A60013, epc := 0x40 }, traps := 1, migPc := some 0x100,
               tsave := 0x4FFFFFFFFF000 }) fun k => { k with mown := own }
    ([(0 : BitVec 3), 1].all fun own => let s := m own; let s1 := s.issued (encode .eret)
      s.issues (encode .eret) && decide (s1.eretTrap 512 = none) && !s1.inStopped 512 && s.here.swOut.isNone && !s.here.stopped &&
        (s1.migTarget 512).isNone && s1.migReflects 512 && decide (s1.ownsArray 512 = decide (own = 0)) && !s1.tsaveOk 512) =
      true := by decide +kernel

/-- Every register of R38 can be named by MOVS and by MOVSW in M in slot 7, and a higher one in each lower mode. -/
theorem witness_system_registers :
    (sysregNumbers.all fun n => issueAll (sys7 id) [.movs 5 (BitVec.ofNat 12 n), .movsw 5 (BitVec.ofNat 12 n)] &&
      decide (n / 1024 ≤ (sys7 id).here.mode.toNat)) = true ∧
    issueAll (inMode .u id) [.movs 5 0x400, .movsw 5 0x400] = true ∧ (inMode .u id).here.mode.toNat < 0x400 / 1024 ∧
    issueAll (inMode .h id) [.movs 5 0xC19, .movsw 5 0xC19] = true ∧ (inMode .h id).here.mode.toNat < 0xC19 / 1024 ∧
    slotOf (inMode .h id).cur ≠ 7 ∧ 1 ≤ (inMode .h id).here.mode.toNat ∧
    (sys7 id).queuesEmpty 519 = true ∧ (onCore (sys7 id) fun k => { k with mown := 7 }).arrayMine ∧
    (onCore (sys7 id) fun k => { k with mown := 7 }).matrixQuiet 519 = true ∧ (sys7 id).here.log = none ∧ (sys7 id).here.red = none ∧
    (sys7 id).here.swOut = none ∧ slotOf (sys7 id).cur = 7 := by
  unfold State.arrayMine
  decide +kernel

/-- Values that writes take: at the bounds of their fields. -/
theorem witness_register_values :
    formLegal 0x3FFF = false ∧ formLegal 0x333B = true ∧
    (let s := vec0 fun k => k.wx 6 (128 + 8 * 65536 + 2 ^ 20)
     s.here.mode ≠ .u ∧ bits (s.here.rx 6) 12 0 ≤ s.cfgHere.vlmax ∧ bits (s.here.rx 6) 19 16 ≤ 8 ∧ zeroBits (s.here.rx 6) 15 13 = true ∧
     zeroBits (s.here.rx 6) 23 21 = true ∧ zeroBits (s.here.rx 6) 63 31 = true) ∧
    (let s := onCore (sys7 id) banked
     s.here.mode = .m ∧ dpLegal 0x430 0x1B6DB6 = true ∧ dpLegal 0x431 0x124924924 = true ∧ dpLegal 0x432 0x4 = true ∧
     bits 0x4 3 0 = s.coreHere.spsz ∧ s.coreHere.changedBanks 0x4 = [0, 1, 2, 3] ∧
     (s.coreHere.changedBanks 0x4).all (fun b => !s.coreHere.bankPaned 64 b) = true ∧ dpLegal 0x432 0x8 = true ∧
     bits 0x8 3 0 ≠ s.coreHere.spsz ∧ (s.coreHere.panes.toList.all fun p => decide (p.state = 0)) = true ∧
     (s.sliceHome 64).2 = true) ∧
    (let s := sys7 id
     (8 + 6 : Nat) / 8 = 1 ∧ (s.ctx (coreOf s.cur * 8 + 6)).run = .out ∧ s.detmode = false ∧ s.linksFull = true ∧ s.coreHere.mq = [] ∧
     (s.ctx (coreOf s.cur * 8 + s.coreHere.mown.toNat)).vq = [] ∧ (64 + 7 : Nat) / 8 = 8) := by decide +kernel

/-- The rank entry and inbox windows, an area for a tile save, and the registers as events (statement RegisterEvents). -/
theorem witness_register_events :
    let s := sys7 id
    let g : Gang := { st := .active, size := 1, members := [512], entries := [⟨512, false, true⟩], gen := 0 }
    let t : State := { s.modCtx 512 fun k => { k with gang := 3 } with gangs := [(3, g)] }
    let i (n : Word) : State := onCore s fun k => { k with rtwin := n }
    let a := (s.modCtx 512 fun k => { k with tsave := 0x40000000000 })
    1 ≤ s.here.mode.toNat ∧ s.rankSelected 64 = none ∧ t.rankSelected 64 = some (3, g, 0) ∧ t.part 512 = t.part t.cur ∧
    (g.entry 0).it = false ∧ slotOf s.cur = 7 ∧ bits (i 1).coreHere.rtwin 12 0 = 1 ∧ bits (i 0).coreHere.rtwin 12 0 = 0 ∧
    (15 : Word).toNat < 16 ∧ (15 : Word).toNat % 8 = 7 ∧ (14 : Word).toNat % 8 ≠ 7 ∧ (s.sliceHome 64).2 = true ∧ (s.ctx (coreOf s.cur * 8 + 2)).run = .out ∧ 3 ≤ s.here.mode.toNat ∧
    a.tsaveOk (coreOf a.cur * 8 + a.coreHere.mown.toNat) = true ∧ (a.matRestore a.cur 64 (areaPa (a.ctx 512).tsave)).isSome = true := by
  decide +kernel

/-- A trap of cause 31 in each mode is taken at a mode other than U; a prefix, an unprefixed word (statement TrapEntry). -/
theorem witness_trap_entry : ([Mode.u, .s, .h, .m].all fun md => [none, some (Prefix.mk 0xFC000480 false)].all fun p =>
    decide (takingMode 512 ((inMode md fun k => { k with pfx := p }).here) (mkTrap 0 0) ≠ .u)) = true ∧ (31 : Nat) < 32 := by
  decide +kernel

/-- Pending asynchronous traps in a mode that takes them, in the order of R391, and none; a gang stop that waits in H and M for
AE. -/
theorem witness_async_traps :
    let p (md : Mode) (g : Ctx → Ctx) : State := inMode md g
    let s := p .u fun k => { k with pendMc := some 5, pendStop := some 3, pendLane := some 1 }
    let t := p .u fun k => { k with pendStop := some 3, pendLane := some 1 }
    let l := p .m fun k => { k with pendLane := some 1, pendStop := some 3, mb := { TrapBank.reset with ae := true } }
    Ctx.pendingAsync s.cur s.here = some (20, 5, .m) ∧ Ctx.pendingAsync t.cur t.here = some (21, 3, .s) ∧
    Ctx.pendingAsync l.cur l.here = some (22, 1, .m) ∧ Ctx.pendingAsync 512 (vec0 id).here = none ∧
    (vec0 id).here.pfx = none ∧
    ([Mode.h, .m].all fun md => let u := p md fun k => { k with pendStop := some 3 }
      decide (Ctx.pendingAsync u.cur u.here = none)) = true := by decide +kernel

/-- The order of checks on MOPX acc1, v8, x9, v12, E2M1: the table of R90. -/
theorem test_check_order :
    let w : BitVec 32 := 0xA5096309
    let gale (md : Mode) (l : Nat) : State := inMode md fun k => { k with lanes := l }
    let masked (s : State) : State := { s with featmask := Vector.replicate 16 0 }
    let breeze (md : Mode) (l : Nat) : State :=
      State.reset.modCtx 0 fun k => { k with run := .running, mode := md, did := 0, lanes := l }
    let slot7 : State := ({ State.reset with clk := 7 } : State).modCtx 7 fun k => { k with mode := .s, did := 0, lanes := 8 }
    let cause (s : State) : Option (Nat × Word) := (s.issueCheck w false).map fun t => (t.cause, t.val)
    cause (gale .u 16) = none ∧ cause (masked (gale .u 16)) = some (1, 0xA5096309) ∧
    cause (masked (breeze .u 8)) = some (1, 0xA5096309) ∧ cause (breeze .u 8) = some (2, 0xA5096309) ∧
    cause slot7 = some (0, 0xA5096309) ∧ cause (breeze .u 0) = some (0, 0xA5096309) := by decide +kernel

/-- States that decide each check: a restored prefix is none of them; a legal and an illegal pair; a mode above S. -/
theorem witness_check_order :
    let p (w : BitVec 32) (g : Ctx → Ctx) : State := vec0 fun k => g { k with pfx := some ⟨w, false⟩ }
    pairLegal (p 0xFC000480 id).here 0xFC000480 0x58A60000 = true ∧ pairLegal (p 0xFC000480 id).here 0xFC000480 0x7C000025 = false ∧
    isVectorWord 0x84432900 = true ∧ (sys7 id).here.lanes = 0 ∧ featBit 0xA5096309 = some 11 ∧
    expansionCode 0xA5096309 ∈ (State.reset.die 0).omitted ∧ expansionCode 0xA5096309 ∉ (State.reset.die 1).omitted ∧
    (State.reset.die 1).fenced = [] ∧ featBit 0x04000000 = none := by decide +kernel

/-- Prefixes of each kind, true and false, and one that names a copy register (statement CheckOrder). -/
theorem witness_predicates :
    let p (i : Instr) : State := vec0 fun k => { k with pfx := some ⟨encode i, false⟩ }
    (p (.pfx 1 5 0 7 1 0 0)).issueCheck (encode (.addi 5 0 1)) false = none ∧ (p (.pfx 1 5 0 7 1 0 0)).here.red = none ∧
    (p (.pfx 1 5 0 7 1 0 0)).here.pfxCond (encode (.pfx 1 5 0 7 1 0 0)) = false ∧
    (p (.pfx 2 5 0 7 1 0 0)).here.pfxCond (encode (.pfx 2 5 0 7 1 0 0)) = true ∧
    (p (.pfx 3 2 0 0 0 0 0)).here.pfxCond (encode (.pfx 3 2 0 0 0 0 0)) = false ∧
    (p (.pfx 1 5 0 7 1 0 0)).here.maskWaits = false ∧ (encode (.pfx 1 5 0 7 1 0 0)).getLsbD 12 = true ∧
    (let s := onCore (p (.pfx 1 5 0 0 0 0 0)) fun k => { k with mown := 3 }
     let t := (s.issued (encode (.mzero 0))).trap 512 (mkTrap 18 3)
     s.issueCheck (encode (.mzero 0)) false = none ∧ s.here.red = none ∧ s.here.maskWaits = false ∧
     s.here.pfxCond (encode (.pfx 1 5 0 0 0 0 0)) = false ∧ s.here.traps < (t.ctx s.cur).traps ∧
     ((t.ctx s.cur).bank (t.ctx s.cur).mode).code.toNat ∈ [3, 4, 18] ∧ majorOf (encode (.mzero 0)) ≠ 0x26) := by
  decide +kernel

/-- A branch with a target that is canonical, from an aligned PC (statement ScalarFrame). -/
theorem witness_scalar_frame : let s := sys7 id
    canonical s.here.mode (s.here.pc + (1 : BitVec 16).signExtend 64 * 4) = true ∧ s.here.pc.toNat % 4 = 0 ∧
    issueAll s [.beq 0 0 1, .bne 0 4 1, .blt 0 4 1, .bge 4 0 1, .bltu 0 4 1, .bgeu 4 0 1] = true ∧ s.here.copyReg ≠ some 1 := by
  decide +kernel

/-- A vector instruction that reads and writes no stream (statement VectorFrame). -/
theorem witness_vector_frame : (vec0 id).here.boundTo 2 = none ∧ ∃ u due,
    ((vec0 id).issued (encode (.vsllV 2 4 6 0 0))).VecPasses 512 (mapOp (encode (.vsllV 2 4 6 0 0)) 1 2 4 (.v 6) false false)
      false [] [] u due := by
  let s := (vec0 id).issued (encode (.vsllV 2 4 6 0 0))
  refine ⟨by decide +kernel, s, 0, ?_⟩
  constructor
  case reads => exact ⟨s, s, s, rfl, rfl, rfl, rfl, rfl, rfl⟩
  all_goals decide +kernel

/-- A word of memory that a step fetches: ADDI x10, x0, 0x100 at the PC of slot 7 of core 0, with its instruction cache filled
(statement StepRuns), on the turn of that slot. -/
theorem test_step_runs :
    (match step (State.reset.withFetchWord 32 0x05400100) with
     | .next t => decide ((t.ctx 7).rx 10 = 0x100) && decide ((t.ctx 7).pc = 4) && decide (t.cursor = 1)
     | _ => false) = true := by decide +kernel

theorem fetched_of {s : State} {c : CtxId} {i : Instr} (h : (match s.fetch c with
      | .word w _ => (match decode w with
        | .ok j => decide (j = i)
        | .error _ => false)
      | _ => false) = true) : ∃ t w, s.fetch c = .word w t ∧ decode w = .ok i := by
  split at h
  · next w t hf =>
    split at h
    · next j hj => exact ⟨t, w, hf, by rw [hj, of_decide_eq_true h]⟩
    · cases h
  · cases h

/-- That state runs it. -/
theorem witness_step_runs : ∃ t, (State.reset.withFetchWord 32 0x05400100).Runs (.addi 10 0 0x100) t := by
  obtain ⟨t, w, h⟩ := fetched_of (s := State.reset.withFetchWord 32 0x05400100)
    (c := (State.reset.withFetchWord 32 0x05400100).cur) (i := .addi 10 0 0x100) (by decide +kernel)
  refine ⟨t, ?_⟩
  constructor
  case word => exact ⟨w, h⟩
  all_goals decide +kernel

/-- The first turn after reset: slot 0 of core 0 is out of rotation (statement StepRuns), and the state is canonical (StepKeeps,
NeverStops, ResetCanonical). -/
theorem witness_idle_turn : State.reset.cursor < 768 ∧ takeDue State.reset.clk State.reset.agenda = none ∧
    State.reset.alive = true ∧ State.reset.here.regw = [] ∧ State.reset.asyncNow State.reset.cur = false ∧
    State.reset.here.run = .out ∧ State.reset.canonical = true ∧
    ({ State.reset with powered := false } : State).alive = false := by decide +kernel

/-! Witnesses for events. -/

/-- The first place at a port. -/
def noTicket : Ticket := { dom := 0, no := 0 }

/-- An entry of a vector queue with these places at the ports and host reads. -/
def anEntry (st : Bool) (no due : Nat) : VEntry :=
  { cover := 0x3, rows := 2, started := st, flags := 0x10, mc := none, writes := [], reads := [],
    ticket := { dom := 7, no := no }, due := due, load := none }

/-- A context whose vector queue holds one entry, started or not. -/
def queued (e : VEntry) : State := vec0 fun k => { k with vq := [e] }

/-- The core 64 with one matrix entry of tile 3. -/
def matrixQueued (st : Bool) : State :=
  onCore (vec0 id) fun k => { k with mq := [{ owner := 512, pc := 0, started := st, rows := 64, op := .zero 3 }] }

/-- A posted store of context 512, and one that has reached its die. -/
def posted (atDie near : Bool) (leave no : Nat) : PWrite :=
  { id := 4, owner := 512, die := 2, kind := .posted, near := near, leave := leave, ticket := { dom := 7, no := no },
    atDie := atDie, waits := false, addr := 0x40000000040, bytes := [1, 2], shared := false, did := 7, mode := .m }

/-- The state with that write on its way. -/
def sending (p : PWrite) : State := { vec0 id with pend := [p] }

/-- Each reply, posted store, check phase and wait finds what it acts on, served at the port and not (statement Reply). -/
theorem witness_replies :
    let r (no : Nat) : State := vec0 fun k => { k with wait := .reply, ticket := { dom := 7, no := no } }
    ((r 0).ctx 512).wait = .reply ∧ (r 0).portServed 64 ((r 0).ctx 512).ticket = true ∧
    (r 1).portServed 64 ((r 1).ctx 512).ticket = false ∧ ((vec0 id).ctx 512).wait ≠ .reply ∧
    (let s := vec0 fun k => { k with wait := .check, vchk := some (anEntry false 0 0) }
     (s.ctx 512).vchk = some (anEntry false 0 0) ∧ (s.ctx 512).wait = .check) ∧ ((vec0 id).ctx 512).vchk = none ∧
    (vec0 id).nextPosted 512 = none ∧
    ([(posted false false 9 0), (posted false false 0 1), (posted false false 0 0), (posted false true 0 0)].all fun p =>
      decide ((sending p).nextPosted 512 = some p)) = true ∧
    (sending (posted false false 9 0)).clk < (posted false false 9 0).leave ∧
    (sending (posted false false 0 1)).portServed 64 (posted false false 0 1).ticket = false ∧
    (sending (posted false false 0 0)).portServed 64 (posted false false 0 0).ticket = true ∧
    (let q : PWrite := { posted false false 0 0 with id := 5 }
     let s : State := { sending (posted false false 0 0) with pend := [posted false false 0 0, q] }
     s.nextPosted 512 = some (posted false false 0 0) ∧ (s.reachDie fun z => decide (z.id = 4)).nextPosted 512 = some q) ∧
    ((vec0 id).ctx 512).bounded = false ∧
      ((vec0 fun k => { k with bounded := true }).ctx 512).bounded = true := by decide +kernel

/-- The heads of queues, started and not, ready and not (statements VectorQueue, MatrixQueue). -/
theorem witness_queue_events :
    ([(false, 0, 0), (false, 1, 0), (false, 0, 5), (true, 0, 0)].all fun p =>
      let e := anEntry p.1 p.2.1 p.2.2
      decide ((((queued e).ctx 512).vq = [e])) && decide (e.writes = []) &&
        decide ((queued e).sweepReady 512 e = decide (p.2.1 = 0 ∧ p.2.2 = 0))) = true ∧ (queued (anEntry true 0 0)).pend = [] ∧
    ((vec0 id).ctx 512).vq = [] ∧ ((vec0 id).core 64).mq = [] ∧ (1 : Nat) < 8 ∧ (16 : Nat) < 4096 ∧
    ([false, true].all fun b => ((matrixQueued b).core 64).mq.any fun e =>
      decide (e.started = b ∧ e.op.tile = some 3 ∧ e.rows ≤ 128)) = true ∧
    (MOp.zero 3).readsVector = false ∧ (MOp.load 4 2 0).readsVector = true := by decide +kernel

/-- Lines that can be filled and read, and ones that cannot; walks; leases; writes at their home, of contexts and of the host
(statements Fill, MemoryEvents). -/
theorem witness_memory_events :
    let s := vec0 id
    let w : PWrite := { posted false false 0 0 with waits := true, addr := 0x40000000040 }
    let far : State := { s with held := [(0x1000000001, 512)] }
    let leased : State := s.modDie 2 fun d => { d with copies := [(0x1000000001, 9)] }
    let filling : State := vec0 fun k => { k with wait := .fill, ticket := { dom := 7, no := 1 } }
    let table : State := { inMode .u
      (fun k => { k with sptb := 0x0010_0100_0000_0001 }) with held := [(0x1000001000 / 64, 512)] }
    let host (ids : List Nat) (d : Nat) : State := ({ sending { posted true false 0 0 with kind := .host } with
      fns := [(0, { Fn.reset with reqs := ids })] } : State).modDie 1 fun k => { k with expiry := [(lineOf 0x40000000040, d)] }
    s.fillable 1 0x40000000040 = true ∧ s.fillsServed 64 = true ∧ filling.fillsServed 64 = false ∧
    (s.readLine 1 (lineOf 0x40000000040)).isSome = true ∧ (s.readLine 2 0x1000000001).isSome = true ∧
    s.fillable 1 0x300000000000 = false ∧ (far.readLine 2 0x1000000001).isNone = true ∧ far.fillable 1 0x40000000040 = true ∧
    ((far.logCorrected 128 0xFFFFFFFF 0x1000000001 0).readLine 2 0x1000000001).isNone = true ∧
    (s.walkReady (s.agent 512) [0x40000000040] 1).isSome = true ∧
    (match s.walk (s.agent 512) 0x40000000040 with
     | .ok x => x.grants2 .load
     | .error _ => false) = true ∧ canonical (s.ctx 512).mode 0x40000000040 = true ∧
       canonical .u (BitVec.twoPow 64 63) = false ∧
    (match table.walk (table.agent 512) 0x40000000040 with
     | .ok _ => false
     | .error _ => true) = true ∧
    (s.die 2).copies.getD 0x1000000001 0 ≤ s.clk ∧ leased.clk < (leased.die 2).copies.getD 0x1000000001 0 ∧
    (sending w).fnOfWrite 4 = none ∧ w.atDie = false ∧ (posted true false 0 0).kind ≠ .host ∧
    (posted true false 0 0).atDie = true ∧ (sending (posted true false 0 0)).fnOfWrite 4 = none ∧ s.errLines = [] ∧
    s.leaseFree 0x40000000040 2 = true ∧ (host [4] 0).fnOfWrite 4 = some (0, 0) ∧ (host [4] 0).earlierReqs 0 0 4 = false ∧
    (host [4] 0).leaseFree 0x40000000040 2 = true ∧ (host [4] 9).leaseFree 0x40000000040 2 = false ∧
    (let h := host [3, 4] 0
     ({ h with pend := { posted true false 0 0 with id := 3 } :: h.pend } : State).earlierReqs 0 0 4 = true) := by decide +kernel

/-- A copy job of cluster 0 of die 1, between memory addresses, of context 512. -/
def aJob (st : JobState) (ctl n : Word) (ended : Option (Nat × Nat)) : Job :=
  { id := 9, ctx := 512, did := 7, mode := .m, sptb := 0, hptb := 0, kind := .copy, recPa := 0x40000000400,
    recSh := false, acq := false,
    rel := false, scope := 0, st := st, ctl := ctl, src := 0x40000000800, dst := 0x40000000C00, n := n, idx := 0, dup := 0,
    prog := 0, before := [], got := [], ended := ended, recorded := false, written := ended.isSome, ticket := noTicket,
    waitFor := [], seen := [], due := none }

/-- The state whose queue holds that job. -/
def withJob (j : Job) : State := (vec0 id).setQueue 1 0 [j]

/-- Engines that are idle, busy and harvested; jobs that start, are invalid, resume, and read their earlier indices again
(statement JobStart). -/
theorem witness_job_starts :
    ((withJob (aJob .running 0 1 none)).die 1).queue 0 ≠ [] ∧
      (((withJob (aJob .running 0 1 none)).die 1).queue 0).any Job.runs = true ∧
    (((vec0 id).die 1).queue 0).any Job.runs = false ∧ ((vec0 id).die 1).levHarv.getLsbD 0 = false ∧
      (vec0 id).choose 1 0 = none ∧
    ([aJob .waiting 0 1 none, aJob .waiting 4 1 none, aJob .suspended 0 1 none].all fun j => let s := withJob j
      !((s.die 1).queue 0).any Job.runs && !(s.die 1).levHarv.getLsbD 0 && decide (s.choose 1 0 = some j)) = true ∧
    (withJob (aJob .waiting 0 1 none)).jobInvalid 1 0 (aJob .waiting 0 1 none) = none ∧
    (withJob (aJob .waiting 4 1 none)).jobInvalid 1 0 (aJob .waiting 4 1 none) = some 0 ∧
    (let j : Job := { aJob .suspended 0 4 none with kind := .gather, dup := 0x40000000900, idx := 0x40000000A00, prog := 2 }
     let s := vec0 id
     let rs (k : Job) := s.engineRanges (k.agent 1)
       ((upFrom 0 k.prog).map fun i => (.load, k.idx + BitVec.ofNat 64 (4 * i), 4))
     let h : Job := { j with idx := hostA }
     j.dup ≠ 0 ∧ s.jobArrived j (rs j) = true ∧ (s.readLines 1 (s.hbmLines (rs j))).isSome = true ∧
     s.jobArrived h (rs h) = false ∧ s.jobArrived { h with due := some 0 } (rs h) = true ∧
     (match ({ st := s, ws := [] } : JobAcc).earlier (j.agent 1) j j.prog with
      | .ok _ => true
      | .error _ => false) = true) := by decide +kernel

/-- Blocks that end a job, fail, meet lines that the port has not served or a home holds, or read host memory, and jobs that have
more to do (statement JobBlock). -/
theorem witness_job_blocks :
    let j := aJob .running 0 1 none
    let f := { aJob .running 0 1 none with src := fcbA }
    let late := { aJob .running 0 1 none with ticket := { dom := 7, no := 1 } }
    let h := { aJob .running 0 1 none with src := 0x80000000800 }
    let run (k : Job) := JobAcc.run { st := withJob k, ws := [] } (k.agent 1) 0 k k.blockLeft
    let far := { aJob .running 0 1 none with src := hostA }
    let rs (k : Job) := (withJob k).engineRanges (k.agent 1) (run k).1.as.reverse
    ((([j, f, late, h, far] : List Job).all fun k => decide (((((withJob k).die 1).queue 0).find? Job.runs) = some k)) = true) ∧
    (withJob late).portServed 64 late.ticket = false ∧ (withJob j).portServed 64 j.ticket = true ∧
    (withJob j).jobArrived j (rs j) = true ∧ ((withJob j).readLines 1 ((withJob j).hbmLines (rs j))).isSome = true ∧
    (withJob far).jobArrived far (rs far) = false ∧
    (let w : State := { withJob h with held := [(lineOf 0x80000000800, 1024)] }
     w.jobArrived h (rs h) = true ∧ (w.readLines 1 (w.hbmLines (rs h))).isNone = true) ∧
    (match run j with
     | (_, k, none) => decide (k.n.toNat ≤ k.prog)
     | _ => false) = true ∧
    (match run f with
     | (_, _, some x) => decide (x ≠ linkWait)
     | _ => false) = true ∧
    (aJob .running 0 2 none).prog < (aJob .running 0 2 none).n.toNat ∧
    (withJob (aJob .running 0 2 none)).budgetSpent 1 (aJob .running 0 2 none) = false := by decide +kernel

/-- Jobs that have ended, with and without their record and message; seal entries (statement JobEnd). -/
theorem witness_job_ends :
    let j (e : Nat × Nat) (r w : Bool) : Job := { aJob .running 0 1 (some e) with recorded := r, written := w }
    let msg (s : State) (k : Job) : Msg := Msg.mk 0 true 0 (s.ctx k.ctx).gang (s.ctx k.ctx).rank (BitVec.ofNat 512 (k.id.toNat + 1 * 2 ^ 128))
    ([(0, 1), (3, 0)].all fun e => decide (((withJob (j e false false)).die 1).queue 0 = [j e false false])) = true ∧
    ((withJob (j (0, 1) false false)).recordEnd 1 0 (j (0, 1) false false) 0 1).2 = false ∧
    ((withJob (j (0, 1) true false)).recordEnd 1 0 (j (0, 1) true false) 0 1).2 = true ∧
    ((withJob (j (0, 1) true true)).recordEnd 1 0 (j (0, 1) true true) 0 1).2 = true ∧
    ((withJob (j (0, 1) false false)).jobWritesDone (j (0, 1) false false)).2 = true ∧
    ([false, true].all fun full =>
      let s := (withJob (j (0,
        1) true true)).modCtx 512 fun k => if full then { k with mailbox := List.replicate Config.mailboxDepth m0 } else k
      decide ((s.deliverTo 512 (msg s (j (0, 1) true true))).2 = !full)) = true ∧
    ([(true, []), (true, [2]), (false, [])].all fun p =>
      (((vec0 id).modDie 1 fun d => { d with seals := [(3, Seal.mk 0x40000000000 64 7 p.1 p.2)] }).die 1).seals.find? 3
        |>.isSome) = true ∧ ((vec0 id).die 1).seals.find? 3 = none := by decide +kernel

/-- Spawn requests with a free slot and none, steals with one before them, gangs all arrived and not, a stop, a copy that lands
(statements TaskEvents, GangEvents). -/
theorem witness_gang_events :
    let w : State := (vec0 fun k => { k with wait := .answer 0, did := 7 })
    let s := w.modCtx 513 fun k => { k with run := .parked .waitm }
    let d : State := onCore (vec0 fun k => { k with wait := .answer 5 }) fun k =>
      { k with deque := [Task.mk 1 2 3 4 5 6], dqOwner := 7 }
    let g (st : GangState) (l : List CtxId) : Gang := { st := st, size := 2, members := l, entries := [], gen := 0 }
    (s.ctx 512).wait = .answer 0 ∧ (s.core 64).harv = false ∧ s.freeSlot 64 (s.ctx 512).mode (s.did 512) = some 513 ∧
      w.freeSlot 64
      (w.ctx 512).mode (w.did 512) = none ∧ (d.ctx 512).wait = .answer 5 ∧ (d.core 64).dqOwner = d.did 512 ∧
    ((d.core 64).popTop (physLanes 64)).isSome = true ∧ (d.ctx 512).red = none ∧ (d.ctx 512).log = none ∧
    ({ s with gangs := [(3, g .active [512])] } : State).gang? 3 = some (g .active [512]) ∧
      s.allArrived (g .active [512]) = false ∧
    (vec0 fun k => { k with arrived := true }).allArrived (g .active [512]) = true ∧ ([512] : List Nat).Nodup ∧
    (s.ctx 512).pendStop = none ∧ ((vec0 fun k => { k with pendStop := some 0 }).ctx 512).pendStop ≠ none ∧
    d.stealBefore 512 64 = false ∧
    ({ d with agenda := [(0, .stealRequest 8 64)] } : State).stealBefore 512 64 = true ∧
      (w.core 64).popTop (physLanes 64) = none ∧
    (let k := vec0 fun k => { k with wait := .answer 0, casts := [(64, 5), (65, 5)] }
     (((k.ctxs.filter fun e => decide ((65, 5) ∈ e.2.casts)).map fun e => e.1) = [512] ∧
      ((k.ctxs.filter fun e => decide ((66, 5) ∈ e.2.casts)).map fun e => e.1) = [])) := by decide +kernel

/-- Messages that are held, released and accepted at a rank entry that names this package, and another (statement Hold). -/
theorem witness_holds :
    let m : Msg := Msg.mk 0 false 0 0 0 5
    let g (it : Bool) (c : BitVec 19) : Gang := Gang.mk .active 1 [512] [⟨c, it, true⟩] 0
    let s (it : Bool) (c : BitVec 19) (h : List Msg) : State := { onCore (vec0 fun k => { k with run := .parked .waitm }) (fun k =>
      { k with holds := [(0, h)] }) with gangs := [(0, g it c)] }
    (s true 512 []).gang? m.gang = some (g true 512) ∧ ((g true 512).entry m.trank).it = true ∧
    ((g false 512).entry m.trank).coord.toNat / 8192 = (s false 512 []).pkgNum ∧
    ((g false 8704).entry m.trank).coord.toNat / 8192 ≠ (s false 8704 []).pkgNum ∧
    ((s false 512 []).core 64).holds.getD (m.gang * 8192 + m.trank) [] = [] ∧
    ((s true 512 [m]).core 64).holds.getD (m.gang * 8192 + m.trank) [] = [m] ∧ (vec0 id).gang? m.gang = none ∧
    ((s false 512 []).deliverTo 512 m).2 = true ∧
    (((s false 512 []).modCtx 512 fun k => { k with mailbox := List.replicate Config.mailboxDepth m }).deliverTo 512 m).2 = false := by
  decide +kernel

/-- Contexts that each message finds, one that migrates in, one that defers; an inbox with room and one without (statements
MessageEvents, Inbox). -/
theorem witness_message_events :
    let m : Msg := Msg.mk 0 false 0 0 0 5
    let s := vec0 fun k => { k with run := .parked .waitm }
    let g : Gang := { st := .active, size := 1, members := [513], entries := [⟨512, false, true⟩], gen := 0 }
    let mig : State := { (vec0 id).modCtx 513 fun k => { k with migDest := some 512 } with gangs := [(0, g)] }
    let i (en : Bool) : State := onCore (vec0 id) fun k => { k with inEn := en, inBase := 0x40000002, inSz := 12 }
    ([0, 1, 2, 3].all fun kd => !s.migratingTo { m with kind := kd } 512 &&
      !(s.ctx 512).absentFor { m with kind := kd }) = true ∧
    (s.core 64).defer.getLsbD 0 = false ∧ (onCore s fun k => { k with defer := 1 }).coreHere.defer.getLsbD 0 = true ∧
    (s.ctx 512).log = none ∧ (s.ctx 512).mailbox.length < Config.mailboxDepth ∧
    (s.ctx 512).run = .parked .waitm ∧ ((vec0 id).ctx 512).run = .running ∧ mig.migratingTo m 512 = true ∧
    (i true).inboxOpen 64 = true ∧ (i false).inboxOpen 64 = false ∧ Memory.wf (i true).mem = true ∧ (i true).errLines = [] ∧
    ((upFrom 0 128).all fun n => !isReport (((i true).core 64).inBase.toNat * 4096 + 128 * ((i true).core 64).wp.toNat + n)) = true ∧
    ((i true).ctx 519).run ≠ .parked .waitm := by decide +kernel

/-- Waits: WFI with a message and with none; a WAITT whose time has come and one whose time is ahead (statement MessageEvents). -/
theorem witness_wait_events :
    ((vec0 fun k => { k with run := .parked .wfi, wake := true }).ctx 512).wfiReady = true ∧
    ((vec0 fun k => { k with run := .parked .wfi }).ctx 512).wfiReady = false ∧
    (0 : Word).toNat ≤ ((vec0 id).time (dieOf 512)).toNat ∧
    ((vec0 id).time (dieOf 512)).toNat < (BitVec.allOnes 64 : Word).toNat :=
  ⟨by decide +kernel, by decide +kernel, Nat.zero_le _,
    Nat.lt_of_le_of_lt (time_bounds (s := vec0 id) (n := 0) (by decide +kernel) (by decide) 1).2 (by decide +kernel)⟩

/-- A function of partition 0 that delivers, with its doorbell at context 512 of package 0. -/
def aFn (en out : Bool) (tail : BitVec 32) : Fn :=
  { Fn.reset with vfe := true, en := en, dbV := true, dbCtx := 512, lqtail := tail, out := out }

def withFn (f : Fn) : State := { vec0 id with fns := [(0, f)] }

/-- Registers of function 0 of port 0: stores that it takes and ones that it does not (statement ControlBlocks). -/
theorem witness_fcb_events :
    let s := withFn (aFn true false 3)
    let ag := s.agent s.cur
    (s.fcbWrite ag 0 0 0x020 1).2 = false ∧
    (s.fn 0 0).w = false ∧ kernelOf ag (s.fnPart 0 0) = true ∧ (s.fcbWrite ag 0 0 0x008 1).2 = true ∧
      (s.fcbWrite ag 0 0 0x008 2).2 = false ∧
    s.dbTargetOk (s.fnPart 0 0) (2 ^ 63 + 512) = true ∧ zeroBits (2 ^ 63 + 512 : Word) 62 19 = true ∧
    ((s.fn 0 0).ranges.toList.getD 7 CodeRange.reset).v = false ∧
    (({ s.fn 0 0 with ranges := Vector.replicate 8 { CodeRange.reset with v := true } } : Fn).ranges.toList.getD 7 CodeRange.reset).v
      = true ∧ ((0x5003 : Word).toNat % 2 = 1 ∧ (0x5003 : Word).toNat < 2 ^ 16) ∧
    (s.fn 0 0).out = false ∧ (s.fn 0 0).en = true ∧ (s.fn 0 0).dbV = true ∧ (s.fn 0 0).lqtail ≠ (s.fn 0 0).note ∧
    (s.fn 0 0).vfe = true ∧ (s.fn 0 0).vecMasked 15 = true ∧
    ((withFn { aFn true false 3 with msix := Vector.replicate 16 0 }).fn 0 0).vecMasked 15 = false ∧
    ((vec0 id).fn 0 0).vfe = false := by decide +kernel

/-- A function whose address table, in HBM of its partition, maps its first pages. -/
def mapped : State :=
  let s := withFn { aFn true false 3 with iatEn := true, iatb := 0x40000004 }
  { s with mem := (s.mem.writeL 0x40000004000 (bytesOf 0x40000005003 8)).writeL 0x40000005000 (bytesOf 0x4000000008D 8) }

/-- Requests of the host that are answered and ones that are not; prepared doorbell messages that wait and that leave (statements
HostWrite, Completion, SecurityEvents). -/
theorem witness_host_events :
    let db (ids reqs : List Nat) : State := withFn { aFn true true 3 with dbWait := [(3, ids)], note := 3, reqs := reqs }
    let s := db [] []
    let sec (n : BitVec 2) : State := withFn { aFn true false 3 with tds := n, sess := true }
    let o (w : Wait) : State := vec0 fun k => { k with wait := w }
    (s.fn 0 0).accepts false = true ∧ ((sec 1).fn 0 0).accepts true = false ∧ ((sec 2).fn 0 0).accepts true = true ∧
    ((vec0 id).fn 0 0).dbWait = [] ∧ (s.fn 0 0).dbWait = [(3, [])] ∧ ((db [4] [4]).fn 0 0).dbWait = [(3, [4])] ∧
    4 ∈ ((db [4] [4]).fn 0 0).reqs ∧ 4 ∉ ((db [4] []).fn 0 0).reqs ∧
    (s.deliverTo ((s.fn 0 0).dbCtx.toNat % 8192) (Msg.mk 0 true 0 0 0 (BitVec.ofNat 512 (2 ^ 63 + 64 * 0 + 0 + 2 ^ 64 * 3)))).2 = true ∧
    (s.fn 0 0).vfe = true ∧ ((sec 1).fn 0 0).sess = true ∧ ((sec 1).fn 0 0).tds = 1 ∧
    ([.outbound 7 9 9 none, .block 9 9 64 none, .fetch 9 9 none, .tables 9 none, .none, .reply].all fun w =>
      decide (((o w).ctx 512).wait = w)) = true ∧
    (let r : Fn := { Fn.reset with ranges := Vector.replicate 8 { CodeRange.reset with v := true, copied := [(0, 0)] } }
     (r.ranges.toList.getD 7 CodeRange.reset).v = true ∧ 0 ≤ (r.ranges.toList.getD 7 CodeRange.reset).nch.toNat) := by
  decide +kernel

/-- Inbound requests that reach memory and ones whose address fails (statement HostEvents). -/
theorem witness_inbound :
    let p (s : State) (w : Bool) (o : Nat) : Option (List (Nat × Nat)) := (s.inboundAll 0 0 w (linePieces 2 o 64)).toOption
    (mapped.fn 0 0).accepts false = true ∧ p mapped false 0 = some [(0x40000000000, 64)] ∧
      p mapped true 0 = some [(0x40000000000, 64)] ∧
    p mapped false (2 ^ 36) = none ∧ p mapped true (2 ^ 36) = none := by decide +kernel

/-- Ports up, training and down; a link at width 1; a package on either controller; tables; temperatures (statements Link,
PackageEvents). -/
theorem witness_package_events :
    let s (n : BitVec 2) : State := { State.reset with ports := Vector.replicate 18 ⟨n⟩ }
    (s 2).portState 17 = 2 ∧ (s 1).portState 0 = 1 ∧ (s 0).portState 0 ≠ 2 ∧ State.reset.shaking = [] ∧
    ({ State.reset with widths := [(3, 1)] } : State).widths.getD 3 0 = 1 ∧ State.reset.detmode = false ∧
    State.reset.boot.active = 12 ∧ State.reset.clk < State.reset.boot.beat + 200000000 ∧
    State.reset.boot.beat + 200000000 ≤ ({ State.reset with clk := 200000000 } : State).clk ∧
    (State.reset.die 0).tableSvn ≤ 0 ∧ (State.reset.die 0).decoded = [] ∧ (∃ x : Int, x ∈ [109, 110] ∧ 110 ≤ x) ∧
    ∀ x : Int, x ∈ [109] → x < 110 := by
  decide +kernel

/-- A start that is under way, with a journal whose record of step `n` in the start before has outcome `out`. -/
def starting (n out : Nat) : State :=
  { State.reset with boot := { State.reset.boot with
      start := 1, lastStep := n - 1, journal := [{ start := 0, step := n, out := out, unit := 5, time := 0, code := 0 }] } }

/-- A step of a start on each path, that fails and that does not (statements BootPath, BootStep). -/
theorem witness_boot_steps :
    let ok : BootFound := { boot0 with fail := none }
    let bad : BootFound := { boot0 with fail := some 7 }
    (starting 4 0).booting = true ∧ State.reset.booting = false ∧
    (starting 4 0).boot.path 4 = .normal false ∧ (starting 7 1).boot.path 7 = .alternate ∧ (starting 4 1).boot.path 4 = .skip ∧
    (starting 2 3).boot.path 2 = .halt ∧ (((starting 4 0).boot.lastOut 4).map JournalRec.unit).getD 0xFFFF = 5 ∧
    (((starting 4 0).boot.lastOut 3).map JournalRec.unit).getD 0xFFFF = 0xFFFF ∧
    (starting 4 0).stepFails 4 (.normal false) bad = some 7 ∧ (starting 4 0).stepFails 4 (.normal false) ok = none ∧
    (starting 7 1).stepFails 7 .alternate ok = none ∧ (starting 7 1).stepFails 7 .alternate bad = some 7 := by decide +kernel

/-- A summary under way and none (statement Command); a line with and without an error; a unit that can be tested and one that cannot
(statement Scrub). -/
theorem witness_command_events :
    let s : State := { State.reset with boot := { State.reset.boot with
        summary := some (bytesOf 0 8 :: State.reset.summaryFields) } }
    s.boot.summary.isSome = true ∧ State.reset.boot.summary = none ∧ (bytesOf 0 8).length = 8 ∧
    (0 : Nat) < 1 ∧ (State.reset.die 1).scrub % 2 ^ 30 = 0 ∧ (2 ^ 36 : Nat) ∉ State.reset.errLines ∧
    (2 ^ 36 : Nat) ∈ ({ State.reset with errLines := [2 ^ 36] } : State).errLines ∧
    ({ State.reset with clk := 4096 } : State).testable 1 0 5 = true ∧ State.reset.testable 1 0 5 = false := by decide +kernel

/-- Two stopped gangs, of context 512 on die 1 and of context 1024 on die 2. -/
def twoGangs : State :=
  { (vec0 id).modCtx 1024 fun k => { k with gang := 4 } with
    gangs := [(3, { st := .stopped, size := 1, members := [512], entries := [], gen := 0 }),
              (4, { st := .stopped, size := 1, members := [1024], entries := [], gen := 0 })] }

/-- A pair of contexts 512 and 1024 that has reached a close, the second with the stores `ss`. -/
def paired (ss : List (Nat × List Byte × Bool × BitVec 7)) : State :=
  (({ vec0 id with timeBase := 2000000 } : State).modCtx 512 fun k => { k with red := some { pairMember true 1024 with close := some [1] } }).modCtx
    1024 fun k => { k with red := some { pairMember false 512 with close := some [1], stores := ss } }

/-- Context 512 has asked at M, from H, for a service with these operands, in a state with those gangs. -/
def asked (s : State) (code p q : Word) : State :=
  s.modCtx 512 fun k => { ((k.wx 10 code).wx 11 p).wx 12 q with mode := .m, mb := { TrapBank.reset with code := 16 } }

/-- Gangs that can be paired, cannot, and do not stand stopped; log areas (statement Service). -/
theorem witness_services :
    let a : Gang := { st := .stopped, size := 1, members := [512], entries := [], gen := 0 }
    let b : Gang := { st := .stopped, size := 1, members := [1024], entries := [], gen := 0 }
    let s (n p q : Word) : State := asked twoGangs n p q
    ((s 0x100 3 4).Requested 512 0x100 3 4 ∧ (s 0x101 3 0).Requested 512 0x101 3 0 ∧ (s 0x110 3 0).Requested 512 0x110 3 0 ∧
      (s 0x111 3 0).Requested 512 0x111 3 0 ∧ (s 0x112 3 0).Requested 512 0x112 3 0 ∧ (s 0x100 5 4).Requested 512 0x100 5 4) ∧
    (s 0x100 3 4).serviceGang 512 3 = some a ∧ (s 0x100 3 4).serviceGang 512 4 = some b ∧
      (s 0x100 5 4).serviceGang 512 5 = none ∧
    (s 0x100 3 4).pairable a b = true ∧ (s 0x100 3 3).pairable a a = false ∧ (vec0 id).here.mb.code ≠ 16 ∧
    (s 0x101 3 0).primaryRole 512 = none ∧
    (let p : State := asked ((twoGangs.modCtx 512 fun k => { k with red := some (pairMember true 1024) }).modCtx 1024 fun k =>
       { k with red := some (pairMember false 512) }) 0x101 3 0
     p.Requested 512 0x101 3 0 ∧ (p.primaryRole 512).isSome = true ∧ p.storesFree [] = true ∧ (p.ctx 512).red.isSome = true) ∧
    ((s 0x110 3 0x40000000000).ctx 512).red = none ∧ (s 0x110 3 0x40000000000).logAreasOk a 0x40000000000 = true ∧
    (s 0x110 3 0x40000000000).logAreasOk a 0x4FFFFFFFFF000 = false ∧ a.members.Nodup := by
  unfold State.Requested
  decide +kernel

/-- Pairs that match, differ and wait (statement Pair). -/
theorem witness_pairs :
    let w : State := (vec0 id).modCtx 1024 fun k => { k with red := some (pairMember false 512) }
    let l : State := w.modCtx 512 fun k => { k with red := some { pairMember true 1024 with close := some [1] } }
    (512 : Nat) ≠ 1024 ∧ ((paired []).ctx 512).red = some { pairMember true 1024 with close := some [1] } ∧
    ((paired []).ctx 1024).red = some { pairMember false 512 with close := some [1] } ∧ (paired []).storesFree [] = true ∧
    (((paired [(0x40000000000, [1], false, 7)]).ctx 1024).red.map fun r => decide (r.stores ≠ [])) = some true ∧
    (l.ctx 512).red = some { pairMember true 1024 with close := some [1] } ∧
    (l.closePair 512 { pairMember true 1024 with close := some [1] }).isNone = true ∧
    ((paired []).closePair 512 { pairMember true 1024 with close := some [1] }).isSome = true ∧
    l.timeBaseNow < (pairMember true 1024).since + 2000000 ∧
    (pairMember true 1024).since + 2000000 ≤ ({ l with timeBase := 2000000 } : State).timeBaseNow := by decide +kernel

/-- Memory in its canonical form, with an address above and below a write (statement MemoryLaws). -/
theorem witness_memory : Memory.wf [(5, (1 : Byte)), (9, 2)] = true ∧ (4 : Nat) < 5 ∧
  5 + [(7 : Byte)].length ≤ 6 := by decide +kernel

/-- An instruction word that is well formed and one that decodes (statements RoundTrip, EncodingUnique). -/
theorem witness_encoding : (Instr.add 3 4 5).isWord = true ∧ (Instr.add 3 4 5).wf = true ∧
  decodeTableWord 32 0x00642801 = some (.add 3 4 5) := by
  decide +kernel

/-- A fetch through links that retrain, and one of a line in error (statement AsyncTrap). -/
theorem witness_fetch_faults :
    let far : Word := 0x0000440000000000
    let s : State := { vec0 id with joined := [0, 1], routes := [(1, [[0]])], ports := Vector.replicate 18 ⟨1⟩ }
    let e : State := { vec0 id with errLines := [lineOf 0x40000000000] }
    s.linkWaits (s.agent 512) .fetch far = true ∧ e.linkWaits (e.agent 512) .fetch 0x40000000000 = false ∧
    e.errorLine (e.agent 512) .fetch 0x40000000000 = some (lineOf 0x40000000000) ∧
    (vec0 id).errorLine ((vec0 id).agent 512) .fetch 0x40000000000 = none := by decide +kernel


/-- The package with its host ports up. -/
def portsUp (s : State) : State := { s with boot := { s.boot with lastStep := 12 } }

/-- Host ports up and not; a function with requests that wait and without; one whose table leads to memory behind links that retrain
(statements Inbound, HostWrite, SecurityEvents). -/
theorem witness_ports :
    let i : Instr := .inboundRead 0 0 0 64 false false
    let q (l : List Instr) : State := portsUp (withFn { aFn true false 3 with queue := l })
    let far : State := { portsUp mapped with mem := mapped.mem.writeL 0x40000005000 (bytesOf 0x44000000008D 8), joined := [0, 1],
                                             routes := [(1, [[0]])], ports := Vector.replicate 18 ⟨1⟩ }
    (starting 4 0).hostUp = false ∧ (q []).hostUp = true ∧ (q []).behind 0 0 i = false ∧ (q [i]).behind 0 0 i = false ∧
    (q [.hostDoorbellWrite 0 0 1 false]).behind 0 0 i = true ∧ ((q []).fn 0 0).accepts false = true ∧
    (portsUp mapped).requestWaits 0 0 0 64 = false ∧ far.requestWaits 0 0 0 64 = true ∧ far.hostUp = true := by decide +kernel

/-- Posted stores to host memory; a line whose fill fails; a walk whose table stands in host memory; a waiting write under a
lease (statements Reply, Fill, MemoryEvents). -/
theorem witness_far_events :
    let p : PWrite := { posted false false 0 0 with addr := 0x300000001000 }
    let s := sending p
    let t : State := inMode .u fun k => { k with sptb := 0x0010_3000_0000_0001 }
    let w : PWrite := { posted true false 0 0 with kind := .host, waits := true }
    let h : State := ({ sending w with fns := [(0, { Fn.reset with reqs := [4] })] } : State).modDie 1 fun k =>
      { k with expiry := [(lineOf 0x40000000040, 9)] }
    s.pend = [p] ∧ p.kind = .posted ∧ p.owner = 512 ∧ p.atDie = false ∧ p.leave ≤ s.clk ∧ s.portServed 64 p.ticket = true ∧
    s.place p.addr = .host 0 ∧ s.misses = [] ∧ (s.ctx 512).pub = [] ∧ (s.ctx 512).rel = [] ∧ (vec0 id).held = [] ∧
    (vec0 id).near 2 0x1000000001 = false ∧ (vec0 id).sramErrs = [] ∧
    t.hostTables (t.agent 512) (t.tablesOf (t.agent 512) [0x40000000040] 1) ≠ [] ∧
    h.fnOfWrite 4 = some (0, 0) ∧ h.earlierReqs 0 0 4 = false ∧ h.leaseFree 0x40000000040 2 = false ∧ w.waits = true := by
  decide +kernel

/-- A job whose record the port has not served, and whose writes are not done (statement JobEnd). -/
theorem witness_job_waits :
    let j : Job := aJob .running 0 1 (some (0, 1))
    let s (no : Nat) : State := withJob { j with ticket := { dom := 7, no := no }, written := false }
    let w : PWrite := { posted false false 0 0 with kind := .job }
    (s 1).portServed 64 { dom := 7, no := 1 } = false ∧ (s 0).portServed 64 { dom := 7, no := 0 } = true ∧
    (({ s 0 with pend := [w] } : State).jobWritesDone j).2 = false := by decide +kernel

/-- An inbox whose next place a lease holds (statement Inbox), a table that a port die may read and one that it may not (statement
FcbWrite). -/
theorem witness_inbox_lease :
    let i : State := (onCore (vec0 id) fun k => { k with inEn := true, inBase := 0x40000002, inSz := 12 }).modDie 1 fun d =>
      { d with expiry := [(lineOf 0x40000002000, 9)] }
    let r (t : BitVec 40) : CodeRange := { CodeRange.reset with tab := t }
    i.inboxOpen 64 = true ∧ i.leaseFree 0x40000002000 128 = false ∧ (vec0 id).leaseFree 0x40000002000 128 = true ∧
    (vec0 id).tableOk 0 0 (r 0x40000000) 1 = true ∧ (vec0 id).tableOk 0 0 (r 0x4FFFFFFFFF) 1 = false := by decide +kernel

/-- A pair whose stores a lease holds, and one that has failed (statement Pair). -/
theorem witness_pair_waits :
    let a : Redundant := { pairMember true 1024 with close := some [1] }
    let st : List (Nat × List Byte × Bool × BitVec 7) := [(0x40000000000, [1], false, 7)]
    let h : State := (paired []).modDie 1 fun d => { d with expiry := [(lineOf 0x40000000000, 9)] }
    h.storesFree st = false ∧ (paired []).storesFree st = true ∧
    ((vec0 fun k => { k with red := some { a with close := none, failed := true } }).ctx 512).closeFailed = true ∧
    ((paired []).ctx 512).closeFailed = false ∧ ((paired []).ctx 1024).closeFailed = false := by decide +kernel

/-- A word that has passed the table of its die (statement CheckOrder), a predicated VREST whose comparison is false and holds
(statement Predicate), a register number that no row of R38 lists (statement Privilege). -/
theorem witness_decode_states :
    let p (vl : Nat) : State := vec0 fun k => { k with vl := vl, pfx := some ⟨encode (.pfx 1 5 0 0 0 0 0), false⟩ }
    (vec0 fun k => { k with passed := some k.pc }).here.passed = some (vec0 id).here.pc ∧
    (p 4).here.compares (encode (.vrest 10)) = true ∧ (p 4096).here.compares (encode (.vrest 10)) = false ∧
    (p 4).issueCheck (encode (.vrest 10)) false = none ∧ (p 4).here.pfxCond (encode (.pfx 1 5 0 0 0 0 0)) = false ∧
    sysregNumbers.contains 0x004 = false ∧ (sys7 id).here.pfx = none := by decide +kernel

/-- A vector comparison that reads no stream (statement VectorFrame). -/
theorem witness_compare_frame : ∃ u due, ((vec0 id).issued (encode (.vseqV 7 4 6 0 0))).VecPasses 512
    (compareOp (encode (.vseqV 7 4 6 0 0)) 1 4 (.v 6) false) false [] [] u due := by
  let s := (vec0 id).issued (encode (.vseqV 7 4 6 0 0))
  refine ⟨s, 0, ?_⟩
  constructor
  case reads => exact ⟨s, s, s, rfl, rfl, rfl, rfl, rfl, rfl⟩
  all_goals decide +kernel
/-! Single steps, whose results the spec's own examples and tables give. -/

/-- The context of slot 7 after one instruction. -/
def runX (g : Ctx → Ctx) (i : Instr) (p : Ctx → Bool) : Bool :=
  match exec i (sys7 g) with
  | .next t => p (t.ctx 519)
  | _ => false

/-- The example of R96 for EXT, of R97 for LUI with ADDI and for SRAI, and wrapping at 64 bits. -/
theorem test_integer :
    runX (fun k => k.wx 4 0xABCD00) (.ext 3 4 15 8) (fun k => decide (k.rx 3 = 0xABCD ∧ k.pc = 4)) = true ∧
    runX id (.lui 5 0x2468A) (fun k => decide (k.rx 5 = 0x12345000)) = true ∧
    runX (fun k => k.wx 5 0x12345000) (.addi 5 5 0x678) (fun k => decide (k.rx 5 = 0x12345678)) = true ∧
    runX id (.lui 5 0x100000) (fun k => decide (k.rx 5 = 0xFFFFFFFF80000000)) = true ∧
    runX (fun k => k.wx 4 (BitVec.twoPow 64 63)) (.srai 3 4 63) (fun k => decide (k.rx 3 = BitVec.allOnes 64)) = true ∧
    runX (fun k => (k.wx 4 (BitVec.allOnes 64)).wx 5 2) (.add 4 4 5) (fun k => decide (k.rx 4 = 1)) = true ∧
    runX (fun k => (k.wx 4 1).wx 5 2) (.sub 3 4 5) (fun k => decide (k.rx 3 = BitVec.allOnes 64)) = true ∧
    runX (fun k => (k.wx 4 9).wx 5 2) (.fshr 3 4 5 0) (fun k => decide (k.rx 3 = 2)) = true ∧
    runX (fun k => (k.wx 4 9).wx 5 2) (.fshl 3 4 5 63) (fun k => decide (k.rx 3 = 0x8000000000000001)) = true ∧
    runX (fun k => (k.wx 4 (-1)).wx 5 1) (.slt 3 4 5) (fun k => decide (k.rx 3 = 1)) = true ∧
    runX (fun k => (k.wx 4 (-1)).wx 5 1) (.sltu 3 4 5) (fun k => decide (k.rx 3 = 0)) = true ∧
    runX id (.ctz 3 0) (fun k => decide (k.rx 3 = 64)) = true ∧
    runX (fun k => k.wx 4 1) (.clz 3 4) (fun k => decide (k.rx 3 = 63)) = true := by decide +kernel

/-- The corners of R99, row by row, and the sign of REM (R98). -/
theorem test_division :
    let ab (a b : Word) (k : Ctx) : Ctx := (k.wx 4 a).wx 5 b
    let mn : Word := BitVec.twoPow 64 63
    runX (ab 0 0) (.div 3 4 5) (fun k => decide (k.rx 3 = 0)) = true ∧ runX (ab 0 0) (.divu 3 4 5) (fun k => decide (k.rx 3 = 0)) = true ∧
    runX (ab 7 0) (.div 3 4 5) (fun k => decide (k.rx 3 = mn - 1)) = true ∧
    runX (ab 7 0) (.divu 3 4 5) (fun k => decide (k.rx 3 = BitVec.allOnes 64)) = true ∧
    runX (ab (-7) 0) (.div 3 4 5) (fun k => decide (k.rx 3 = mn)) = true ∧ runX (ab (-7) 0) (.rem 3 4 5) (fun k => decide (k.rx 3 = -7)) = true ∧
    runX (ab 7 0) (.remu 3 4 5) (fun k => decide (k.rx 3 = 7)) = true ∧ runX (ab mn (-1)) (.div 3 4 5) (fun k => decide (k.rx 3 = mn - 1)) = true ∧
    runX (ab mn (-1)) (.rem 3 4 5) (fun k => decide (k.rx 3 = 0)) = true ∧ runX (ab (-7) 2) (.rem 3 4 5) (fun k => decide (k.rx 3 = -1)) = true ∧
    runX (ab (-7) 2) (.div 3 4 5) (fun k => decide (k.rx 3 = -3)) = true ∧ runX (ab (-1) (-1)) (.mulhu 3 4 5) (fun k => decide (k.rx 3 = -2)) = true := by
  decide +kernel

/-- The examples of R101, R105 for FCLASS, and a register x0 that discards a write. -/
theorem test_scalar_examples :
    let l (k : Ctx) : Ctx := ((k.wx 6 0xC).wx 7 0xA).wx 5 9
    runX l (.lut3 5 6 7 0xE8) (fun k => decide (k.rx 5 = 8)) = true ∧ runX l (.lut3 5 6 7 0x96) (fun k => decide (k.rx 5 = 15)) = true ∧
    runX (fun k => k.wf 4 0x8000000000000000) (.fclass 3 4 0) (fun k => decide (k.rx 3 = 1)) = true ∧
    runX (fun k => k.wf 4 0x7FF0000000000000) (.fclass 3 4 0) (fun k => decide (k.rx 3 = 6)) = true ∧
    runX (fun k => k.wf 4 0x7FF8000000000000) (.fclass 3 4 0) (fun k => decide (k.rx 3 = 8)) = true ∧
    runX (fun k => k.wx 4 5) (.add 0 4 4) (fun k => decide (k.rx 0 = 0 ∧ k.pc = 4)) = true := by decide +kernel

/-- The context of slot 0 of a core whose lanes it holds, after one instruction. -/
def runV (g : Ctx → Ctx) (i : Instr) (p : Ctx → Bool) : Bool :=
  match exec i (vec0 g) with
  | .next t => p (t.ctx 512)
  | _ => false

/-- Row r of register n set to the number of the bytes `bs`. -/
def withRow (n r : Nat) (bs : List Byte) (k : Ctx) : Ctx := { k with v := k.v.setIfInBounds (n * 8 + r) (BitVec.ofNat 8192 (natOf bs)) }

/-- The first bytes of row r of register n. -/
def rowOf (k : Ctx) (n r len : Nat) : List Byte := bytesOf ((k.v.toList.getD (n * 8 + r) 0).toNat) len

/-- FORM, VL and VROWS as the examples have them. -/
def setup (ew gf nf vl rows : Nat) (k : Ctx) : Ctx := { inForm ew gf nf k with vl := vl, vrows := rows }

/-- The example of R143, on a Gale core, and what MSHAPE gives there and on a Breeze core (R222, R236). -/
theorem test_shapes :
    runV (fun k => setup 2 1 0 0 0 ((k.wx 6 1000).wx 7 12)) (.vshape 5 6 7) (fun k => decide (k.rx 5 = 512 ∧ k.vl = 512 ∧ k.vrows = 8)) = true ∧
    runV (fun k => setup 2 1 0 512 8 ((k.wx 6 488).wx 7 4)) (.vshape 5 6 7) (fun k => decide (k.rx 5 = 488 ∧ k.vl = 488 ∧ k.vrows = 4)) = true ∧
    runV id (.mshape 5 0) (fun k => decide (k.rx 5 = 0x14080)) = true ∧
    (match exec (.mshape 5 0) (State.reset.modCtx 0 fun k => { k with run := .running }) with
     | .next t => decide ((t.ctx 0).rx 5 = 0x4040)
     | _ => false) = true := by decide +kernel

/-- The example of VWMACC and VNCLIP, under RNE and RDN. -/
theorem test_widening :
    runV (fun k => withRow 2 0 [100, 156, 7, 127] (withRow 3 0 [6, 6, 253, 127] (withRow 8 0 [0, 0, 0, 0, 20, 0, 1, 0] (setup 0 0 0 4 1 k))))
      (.vwmaccV 8 2 3 0 0) (fun k => decide (rowOf k 8 0 8 = bytesOf 600 2 ++ bytesOf (65536 - 600) 2 ++ bytesOf 65535 2 ++ bytesOf 16130 2)) = true ∧
    ([((0 : Nat), (0 : Byte)), (2, 255), (3, 0)].all fun p => runV (fun k =>
      let k := withRow 8 0 (bytesOf 600 2 ++ bytesOf (65536 - 600) 2 ++ bytesOf 65535 2 ++ bytesOf 16130 2) (setup 0 0 0 4 1 k)
      { k with form := k.form + BitVec.ofNat 14 (1024 * p.1) })
      (.vnclipI 10 8 2 0) (fun k => decide (rowOf k 10 0 4 = [127, 128, p.2, 127]))) = true := by decide +kernel

/-- The examples of VCONF, of the E4M3 sum without and with FORM.SAT, of the packing to E2M1, and of FREDSUM. -/
theorem test_vector_examples :
    runV (fun k => withRow 4 3 ([5, 3, 5, 5, 7, 3].flatMap fun n => bytesOf n 4) (setup 2 0 0 6 4 k)) (.vconf 2 4)
      (fun k => decide (((k.mrow 2 3).toNat) % 64 = 0x2C)) = true ∧
    ([((0 : Nat), [(0x7F : Byte), 0x7E, 0x60]), (1, [0x7E, 0x7E, 0x60])].all fun p => runV (fun k =>
      let k := withRow 2 0 [0x7E, 0x7E, 0x58] (withRow 3 0 [0x68, 0x58, 0x58] (setup 0 0 4 3 1 k))
      { k with form := k.form + BitVec.ofNat 14 (8192 * p.1) })
      (.vfaddV 1 2 3 0 0) (fun k => decide (rowOf k 1 0 3 = p.2 ∧ k.vq.map (fun e => e.flags) = [0x5]))) = true ∧
    runV (fun k => withRow 4 0 ([0x3F800000, 0xC0200000, 0x40E00000, 0x7FC00000].flatMap fun n => bytesOf n 4) (setup 2 0 1 4 1 k))
      (.vfpack 6 4 8 0) (fun k => decide (rowOf k 6 0 2 = [0xC2, 0x07] ∧ k.vq.map (fun e => e.flags) = [0x15])) = true ∧
    runV (fun k => withRow 4 0 ([0x4B800000, 0x3F800000, 0x3F800000].flatMap fun n => bytesOf n 4) (setup 2 0 1 3 1 k))
      (.vfredsum 6 4 0) (fun k => decide (rowOf k 6 0 4 = bytesOf 0x4B800000 4 ∧ k.vq.map (fun e => e.flags) = [1])) = true := by
  decide +kernel

/-- The example of R207: COMPRESS, EXPAND, IOTA, MPOPC, MFIRST. -/
theorem test_permutes :
    let g (k : Ctx) : Ctx :=
      let k := withRow 4 0 (List.replicate 8 85) (withRow 5 0 [10, 11, 12, 13, 14, 15, 16, 17] (setup 0 0 0 8 1 k))
      { k with form := k.form + 16, m := k.m.setIfInBounds 16 0xB2 }
    runV g (.compress 4 5 2) (fun k => decide (rowOf k 4 0 8 = [11, 14, 15, 17, 0, 0, 0, 0])) = true ∧
    runV g (.expand 4 5 2) (fun k => decide (rowOf k 4 0 8 = [85, 10, 85, 85, 11, 12, 85, 13])) = true ∧
    runV g (.iota 4 2) (fun k => decide (rowOf k 4 0 8 = [0, 0, 1, 1, 1, 2, 3, 3])) = true ∧
    runV g (.mpopc 5 2) (fun k => decide (k.rx 5 = 4)) = true ∧ runV g (.mfirst 6 2) (fun k => decide (k.rx 6 = 1)) = true := by
  decide +kernel

/-- A store puts its bytes in little-endian order (R118), a load extends its sign (R119), an atomic returns what was there. -/
theorem test_memory :
    (match exec (.sw 5 6 0) (sys7 fun k => (k.wx 5 0x1122334455667788).wx 6 0x40000000100) with
     | .next t => decide (t.mem = [(0x40000000100, 0x88), (0x40000000101, 0x77), (0x40000000102, 0x66), (0x40000000103, 0x55)])
     | _ => false) = true ∧
    (let m : State := { sys7 (fun k => (k.wx 6 0x40000000100).wx 7 1) with mem := [(0x40000000101, 0x80)] }
     (match exec (.lh 5 6 0) m with
      | .next t => decide ((t.ctx 519).rx 5 = 0xFFFFFFFFFFFF8000)
      | _ => false) = true ∧
     (match exec (.amoadd 5 6 7 0 0 0) m with
      | .next t => decide ((t.ctx 519).rx 5 = 0x8000) && decide (t.mem = [(0x40000000100, 1), (0x40000000101, 0x80)])
      | _ => false) = true) := by decide +kernel

/-- The example of R398: a gang stop that falls between a PFX and its load. -/
theorem test_stop_in_pair :
    (match step (inMode .u fun k => { k with pc := 0x1004, gang := 3, pfx := some ⟨0xFC000480, false⟩, pendStop := some 3 }) with
     | .next t => decide ((t.ctx 512).sb = { TrapBank.reset with epc := 0x1004 / 4, code := 0x15, isAsync := true, tval := 3, pfxWord := 0xFC000480, pfxV := true } ∧
         (t.ctx 512).pc = 0 ∧ (t.ctx 512).mode = .s ∧ (t.ctx 512).pfx = none)
     | _ => false) = true := by decide +kernel

/-- ECALL from U: the cause and the saved PC of R390 and R394, at S. -/
theorem test_ecall :
    (match exec .ecall (inMode .u fun k => { k with pc := 0x1000 }) with
     | .next t => decide ((t.ctx 512).mode = .s ∧ (t.ctx 512).sb.pm = .u ∧ (t.ctx 512).sb.epc = 0x1000 / 4 ∧ (t.ctx 512).pc = 0)
     | _ => false) = true := by decide +kernel
end Sys2Proof.Tests
end

/-! SUPPORT. Shared by the proofs about the programmer's state: fields of words, words that a context state forbids, and when a
context may reach a system register. -/

namespace Sys2Proof.Machine

/-! Fields of a word. -/

/-- A field as a number is the field that is cut out. -/
theorem bits_eq_toNat (v : Word) (hi lo : Nat) : bits v hi lo = (v.extractLsb' lo (hi + 1 - lo)).toNat := by
  simp [bits]

/-- A field of its own width is the field that is cut out. -/
theorem ofNat_bits (v : Word) {hi lo n : Nat} (h : hi + 1 - lo = n) : BitVec.ofNat n (bits v hi lo) = v.extractLsb' lo n := by
  subst h
  rw [bits_eq_toNat, BitVec.ofNat_toNat, BitVec.setWidth_eq]

/-- The lowest field of a word is the word truncated. -/
theorem ofNat_bits_low (v : Word) {hi n : Nat} (h : hi + 1 = n) : BitVec.ofNat n (bits v hi 0) = v.truncate n := by
  subst h
  exact BitVec.eq_of_toNat_eq (by simp [bits])

theorem bits_low (v : Word) (hi : Nat) : bits v hi 0 = v.toNat % 2 ^ (hi + 1) := by simp [bits]

/-- Bits from `lo` up are zero when the word lies below 2^lo. -/
theorem zeroBits_of_lt {v : Word} {lo : Nat} (hi : Nat) (h : v.toNat < 2 ^ lo) : zeroBits v hi lo = true := by
  simp [zeroBits, bits, Nat.shiftRight_eq_div_pow, Nat.div_eq_of_lt h]

theorem bit_of_lt {v : Word} {k : Nat} (h : v.toNat < 2 ^ k) : bit v k = false := Nat.testBit_lt_two_pow h

/-- A bit of a word as a digit of its number. -/
theorem bit_eq_decide (v : Word) (k : Nat) : bit v k = decide (v.toNat / 2 ^ k % 2 = 1) := by
  rw [bit, BitVec.getLsbD, Nat.testBit_eq_decide_div_mod_eq]

/-! Issuing. -/

/-- An instruction acts where its precondition excludes the context states that forbid its word (R87). -/
theorem acts_of_issueIf {i : Instr} {pre : State → Prop} {act : State → State} {bad : State → Bool}
    {go : CtxId → Ctx → State → State} (h : ∀ s, exec i s = .next (s.issueIf (encode i) (bad s) go))
    (allowed : ∀ s : State, pre (s.issued (encode i)) → bad s = false)
    (h2 : ∀ s : State, pre s → go s.cur s.here s = act s) : Acts i pre act := by
  intro s issues hp
  rw [h, allowed s hp, State.issueIf_of_issues _ _ _ _ issues, ← h2 _ hp]
  simp

/-- The check of a forbidden word, before which no ERET has restored a PFX, gives trap(illegal_instruction) with the word (R87). -/
theorem State.issueCheck_forbidden {s : State} (w : BitVec 32) (fresh : ∀ p, s.here.pfx = some p → p.restored = false) :
    s.issueCheck w true = some (mkTrap 0 (w.zeroExtend 64)) := by
  simp only [State.here] at fresh
  cases hp : (s.ctx s.cur).pfx with
  | none => simp [State.issueCheck, hp]
  | some p => simp [State.issueCheck, hp, fresh p hp]

/-- A forbidden word takes trap(illegal_instruction) after the queues of its context have settled (R87, R88). -/
theorem State.issueIf_forbidden {s : State} (w : BitVec 32) (go : CtxId → Ctx → State → State)
    (fresh : ∀ p, s.here.pfx = some p → p.restored = false) :
    s.issueIf w true go = (s.settle s.cur).trap s.cur (mkTrap 0 (w.zeroExtend 64)) := by
  rw [State.issueIf_trap s w true go _ (State.issueCheck_forbidden w fresh)]
  rfl

/-- An instruction is forbidden in the states in which its meaning forbids its word. -/
theorem forbiddenWhen_of_issueIf {i : Instr} {pre : State → Prop} {bad : State → Bool} {go : CtxId → Ctx → State → State}
    (h : ∀ s, exec i s = .next (s.issueIf (encode i) (bad s) go)) (forbids : ∀ s, pre s → bad s = true) :
    ForbiddenWhen i pre := by
  intro s fresh hp
  rw [h, forbids s hp, State.issueIf_forbidden _ _ fresh]

/-! Access to system registers (R36, R41). -/

@[simp] theorem State.issued_sysForbidden (s : State) (w : BitVec 32) (c : CtxId) (n : Nat) :
    (s.issued w).sysForbidden c n = s.sysForbidden c n := by
  simp [State.sysForbidden]

theorem State.sysForbidden_of_mode {s : State} {c : CtxId} {n : Nat} (h : (s.ctx c).mode.toNat < n / 1024) :
    s.sysForbidden c n = true := by
  simp [State.sysForbidden, h]

theorem State.sysForbidden_of_slot {s : State} {c : CtxId} {n : Nat} (h : n = 0x440 ∨ n = 0x441) (slot : slotOf c ≠ 7) :
    s.sysForbidden c n = true := by
  simp [State.sysForbidden, h, slot]

/-- A mode that is high enough may reach a register, the slot controls in slot 7 only. -/
theorem State.sysForbidden_eq_false {s : State} {c : CtxId} {n : Nat} (mode : n / 1024 ≤ (s.ctx c).mode.toNat)
    (slot : n = 0x440 ∨ n = 0x441 → slotOf c = 7) : s.sysForbidden c n = false := by
  simp only [State.sysForbidden, Bool.or_eq_false_iff, Bool.and_eq_false_iff, decide_eq_false_iff_not]
  exact ⟨Nat.not_lt.mpr mode, or_iff_not_imp_left.mpr fun h => not_not.mpr (slot (not_not.mp h))⟩

theorem toNat_ofNat_sysreg {n : Nat} (h : n < 4096) : (BitVec.ofNat 12 n).toNat = n := by
  simpa using Nat.mod_eq_of_lt h

end Sys2Proof.Machine

/-! The registers, the state after reset, and the step (R18, R34, R38, R40, R301). -/

namespace Sys2Proof.Machine

/-! After reset no entry of a table is listed, so each context, core and die is at its own reset value. -/

@[simp] theorem State.reset_clk : State.reset.clk = 0 := rfl
@[simp] theorem State.reset_detmode : State.reset.detmode = false := rfl
@[simp] theorem State.reset_ctx (c : CtxId) : State.reset.ctx c = Ctx.reset c := rfl
@[simp] theorem State.reset_core (n : CoreId) : State.reset.core n = Core.reset := rfl
@[simp] theorem State.reset_die (d : Nat) : State.reset.die d = Die.reset d := rfl

/-- The lanes of a core belong to slot 0 after reset. -/
theorem Ctx.reset_lanes (c : CtxId) : (Ctx.reset c).lanes = if slotOf c = 0 then physLanes (coreOf c) else 0 := by
  simp [Ctx.reset, slotOf, physLanes, coreOf, Nat.div_div_eq_div_mul]

theorem Ctx.reset_lanes_le (c : CtxId) : (Ctx.reset c).lanes ≤ 16 := by
  simp only [Ctx.reset, Config.lanesOf]
  split
  · split <;> decide
  · decide

/-- No job waits at a Levanter engine after reset. -/
theorem Die.reset_queue (d cl : Nat) : (Die.reset d).queue cl = [] := by
  simp only [Die.queue, Die.reset, Vector.toList_replicate, List.getD_eq_getElem?_getD, List.getElem?_replicate]
  split <;> rfl

/-- Every context is in M, in the domain 7 of partition 0, after reset (R40, R428). -/
@[simp] theorem State.reset_did (c : CtxId) : State.reset.did c = 7 := by
  show (0#4 ++ 7#3 : BitVec 7) = 7
  decide

@[simp] theorem State.reset_part (c : CtxId) : State.reset.part c = 0 := by
  simp [State.part, partOf]

@[simp] theorem Ctx.reset_bank (c : CtxId) (t : Mode) : (Ctx.reset c).bank t = TrapBank.reset := by
  cases t <;> rfl

/-- The registers of every trap bank read as zero after reset (R40, R393). -/
theorem State.reset_bankRead (c : CtxId) (t : Mode) (i : Nat) : State.reset.bankRead c t i = 0 := by
  unfold State.bankRead
  simp only [State.reset_ctx, Ctx.reset_bank]
  split <;> simp [TrapBank.reset, State.pdid, addr62, b2n, Mode.toNat]

/-- RTDATA reads as zero after reset: RTWIN selects a rank of no gang (R305, R306). -/
theorem State.reset_rtRead (n : CoreId) : State.reset.rtRead n = 0 := by
  simp [State.rtRead, State.rankRead, State.rankSelected, Core.reset, Ctx.reset, bit]

/-- WTDATA reads as zero after reset: WTWIN selects granule 0 (R423, R424). -/
theorem State.reset_wtRead (d : Nat) : State.reset.wtRead d = 0 := by
  simp [State.wtRead, Die.reset, bits, Tbl.getD, Tbl.find?, Granule.reset, b2n]

/-- SHAPE after reset holds the lanes alone (R29). -/
theorem State.reset_shape (c : CtxId) :
    State.reset.sysValue c 0x001 = BitVec.ofNat 64 ((State.reset.ctx c).lanes * 2 ^ 24) := by
  have few := Ctx.reset_lanes_le c
  show BitVec.ofNat 64 (0 % 2 ^ 13 + 0 % 16 * 2 ^ 16 + b2n false * 2 ^ 20 + (Ctx.reset c).lanes % 32 * 2 ^ 24 + 0 % 4 * 2 ^ 29) = _
  rw [Nat.mod_eq_of_lt (by omega : (Ctx.reset c).lanes < 32)]
  simp [b2n]

/-- No feature is masked after reset (R38). -/
theorem State.reset_featmask (c : CtxId) : State.reset.sysValue c 0x810 = BitVec.allOnes 64 := by
  show State.reset.featmask.toList.getD (State.reset.part c) 0 = BitVec.allOnes 64
  rw [State.reset_part]
  rfl

/-- The registers that read as zero after reset (R38). -/
theorem State.reset_sysValue_zero (c : CtxId) {n : Nat} (h : n ∈ [0x002, 0x003, 0x009, 0x00B, 0x400, 0x401, 0x402, 0x403,
    0x404, 0x405, 0x406, 0x410, 0x411, 0x412, 0x413, 0x420, 0x421, 0x430, 0x431, 0x432, 0x433, 0x434, 0x441, 0x800, 0x801,
    0x802, 0x803, 0x804, 0x805, 0x806, 0x811, 0xC00, 0xC01, 0xC02, 0xC03, 0xC04, 0xC05, 0xC06, 0xC11, 0xC14, 0xC18, 0xC19]) :
    State.reset.sysValue c n = 0 := by
  fin_cases h <;>
    simp [State.sysValue, State.reset_bankRead, State.reset_rtRead, State.reset_wtRead, State.cycle, Ctx.reset, Core.reset,
      Die.reset, b2n]

/-! The step. -/

/-- Where no event is due, a step is the turn of the core whose turn it is. -/
theorem step_of_noEvent {s : State} (turn : s.cursor < 768) (noEvent : takeDue s.clk s.agenda = none) : step s = s.turn := by
  simp [step, Nat.not_le.mpr turn, noEvent]

theorem State.takeRegw_of_nil {s : State} {c : CtxId} (h : (s.ctx c).regw = []) : s.takeRegw c = s := by
  simp [State.takeRegw, h]

/-- The turn of a package that does not run only passes. -/
theorem State.turn_of_not_alive {s : State} (h : s.alive = false) : s.turn = .next (s.advance s) := by
  simp [State.turn, h]

/-- The turn of a package that runs is that of its context, where no REGW waits. -/
theorem State.turn_of_alive {s : State} (h : s.alive = true) (regw : (s.ctx s.cur).regw = []) :
    s.turn = mapNext s.advance (s.ownTurn s.cur) := by
  simp [State.turn, h, State.takeRegw_of_nil regw]

/-- A ready context fetches and runs (R301). -/
theorem State.ownTurn_of_ready {s : State} {c : CtxId} (noTrap : s.asyncNow c = false) (running : (s.ctx c).run = .running)
    (free : (s.ctx c).wait = .none) (ready : (s.ctx c).notBefore ≤ s.clk) : s.ownTurn c = s.fetchRun c := by
  simp [State.ownTurn, noTrap, running, free, ready]

/-- A context out of rotation, one parked in WAITM or GBAR, and one whose unit makes it wait do nothing (R301). -/
theorem State.ownTurn_of_idle {s : State} {c : CtxId} (noTrap : s.asyncNow c = false)
    (idle : (s.ctx c).run = .out ∨ (s.ctx c).run = .parked .waitm ∨ (s.ctx c).run = .parked .gbar ∨
      ((s.ctx c).run = .running ∧ ((s.ctx c).wait ≠ .none ∨ s.clk < (s.ctx c).notBefore))) : s.ownTurn c = .next s := by
  rcases idle with out | waitm | gbar | ⟨running, waits⟩
  · simp [State.ownTurn, noTrap, out]
  · simp [State.ownTurn, noTrap, waitm]
  · simp [State.ownTurn, noTrap, gbar]
  · have busy : ¬ ((s.ctx c).wait = .none ∧ (s.ctx c).notBefore ≤ s.clk) := by
      rintro ⟨free, ready⟩
      exact waits.elim (fun h => h free) fun h => Nat.not_lt.mpr ready h
    simp [State.ownTurn, noTrap, running, busy]

/-- A word that decodes runs its instruction. -/
theorem State.runWord_of_decode {s : State} {w : BitVec 32} {i : Instr} (h : decode w = .ok i) : s.runWord w = exec i s := by
  simp [State.runWord, h]

/-- R34, R301: the step runs the instruction that is fetched. -/
theorem stepRunsClaims : StepRunsClaims := by
  rintro s t i ⟨turn, noEvent, alive, regw, noTrap, running, free, ready, w, fetched, decoded⟩
  rw [step_of_noEvent turn noEvent, State.turn_of_alive alive regw, State.ownTurn_of_ready noTrap running free ready,
    State.fetchRun, fetched]
  exact congrArg (mapNext s.advance) (State.runWord_of_decode decoded)

/-- R34: the turn passes from core to core, and after the last one clk counts on. -/
theorem turnClaims : TurnClaims := by
  intro s t _
  refine ⟨?_, ?_, fun more => ?_, fun last => ?_⟩
  · show (s.cursor * 8 + s.clk % 8) / 8 = s.cursor
    omega
  · simp [slotOf, State.cur, Nat.add_mod]
  · simp [State.advance, more]
  · simp [State.advance, last]

/-- R301: where no context acts, only the turn passes. -/
theorem idleTurnClaims : IdleTurnClaims := by
  intro s turn noEvent
  rw [step_of_noEvent turn noEvent]
  refine ⟨State.turn_of_not_alive, fun alive regw noTrap idle => ?_⟩
  rw [State.turn_of_alive alive regw, State.ownTurn_of_idle noTrap idle]
  rfl

end Sys2Proof.Machine

/-! Ownership of the matrix array (R26, R239). -/

namespace Sys2Proof.Machine

@[simp] theorem State.issued_coreHere (s : State) (w : BitVec 32) : (s.issued w).coreHere = s.coreHere := by
  simp [State.coreHere]

@[simp] theorem State.issued_arrayMine (s : State) (w : BitVec 32) : (s.issued w).arrayMine ↔ s.arrayMine := by
  simp [State.arrayMine]

/-- What only the owner may do is done by the owner. -/
theorem State.owned_of_mine {s : State} (h : s.arrayMine) (go : State) : s.owned s.cur go = go := if_pos h

/-- Another context takes the matrix-ownership trap, with MOWN and the DID of the owner (R26, R389). -/
theorem State.owned_of_not_mine {s : State} (h : ¬ s.arrayMine) (go : State) :
    s.owned s.cur go = s.trap s.cur (mkTrap 18 (BitVec.ofNat 64
      (s.coreHere.mown.toNat + 8 * (s.did (coreOf s.cur * 8 + s.coreHere.mown.toNat)).toNat))) := if_neg h

/-- MSTAT.MRM forbids a word to the owner of the array alone: it is the owner's (R6, R213). -/
theorem State.mrmReserved_of_not_mine {s : State} (h : ¬ s.arrayMine) (fmt : Nat) : s.mrmReserved fmt = false := by
  have other : ¬ (s.core (coreOf s.cur)).mown.toNat = slotOf s.cur := h
  simp [State.mrmReserved, other]

/-- An instruction whose meaning begins with the owner check traps in every other context. -/
theorem ownerTrap_of_issueIf {i : Instr} {bad : State → Bool} {body : CtxId → Ctx → State → State}
    (h : ∀ s, exec i s = .next (s.issueIf (encode i) (bad s) fun c k t => t.owned c (body c k t)))
    (allowed : ∀ s : State, ¬ s.arrayMine → bad s = false) : OwnerTrap i :=
  acts_of_issueIf h (fun s hp => allowed s (by simpa using hp)) fun _ hp => State.owned_of_not_mine hp _

/-- The same for an instruction that no context state forbids. -/
theorem ownerTrap_of_issue {i : Instr} {body : CtxId → Ctx → State → State}
    (h : ∀ s, exec i s = .next (s.issue (encode i) fun c k t => t.owned c (body c k t))) : OwnerTrap i :=
  ownerTrap_of_issueIf h fun _ _ => rfl

/-- MSTAT is a register of every mode. -/
theorem State.sysForbidden_mstat (s : State) (c : CtxId) : s.sysForbidden c 0x003 = false :=
  State.sysForbidden_eq_false (Nat.zero_le _) fun h => absurd h (by decide)

/-- R26, R239: every matrix instruction and every access to MSTAT begins with the owner check. -/
theorem ownershipClaims : OwnershipClaims := by
  intro p q s n f r
  refine ⟨?mshape, ?mzero, ?mlds, ?mswap, ?mop, ?mops, ?mrd, ?mwr, ?mcvt, ?mopx, ?mopsx, ?movs, ?movsw⟩
  case mop | mops | mopx | mopsx =>
    exact ownerTrap_of_issueIf (fun _ => rfl) fun _ h => State.mrmReserved_of_not_mine h _
  case movs | movsw => exact ownerTrap_of_issueIf (fun _ => rfl) fun s _ => s.sysForbidden_mstat _
  all_goals exact ownerTrap_of_issue fun _ => rfl

end Sys2Proof.Machine

/-! Reads of system registers, and the words that privilege forbids (R27-R41, R446). -/

namespace Sys2Proof.Machine

/-! Words that name no register. -/

/-- A word whose fields the tables do not allow decodes to no instruction (R87). -/
theorem decode_of_not_wf {w : BitVec 32} {i : Instr} (raw : decodeRaw w = some i) (bad : i.wf = false) :
    decode w = .error (.reserved i) := by
  simp [decode, raw, bad]

/-- A word that decodes to no instruction takes trap(illegal_instruction) (R87, R88). -/
theorem State.runWord_of_error {s : State} {w : BitVec 32} {e : DecodeError} (h : decode w = .error e)
    (fresh : ∀ p, s.here.pfx = some p → p.restored = false) :
    s.runWord w = .next ((s.settle s.cur).trap s.cur (mkTrap 0 (w.zeroExtend 64))) := by
  have illegal : s.runWord w = exec (.illegalEncoding w) s := by simp [State.runWord, h]
  rw [illegal, ← State.issueIf_forbidden w (fun c _ t => t.illegal c w) fresh]
  rfl

/-- MOVS and MOVSW of a number that the table of R38 does not list decode to no instruction. -/
theorem decode_unlisted {r : BitVec 5} {n : BitVec 12} (unlisted : n.toNat ∉ sysregNumbers) {w : BitVec 32}
    (h : w = encode (.movs r n) ∨ w = encode (.movsw r n)) : ∃ e, decode w = .error e := by
  have bad : decide (sysregKnown n.toNat = true) = false := by simpa [sysregKnown] using unlisted
  rcases h with rfl | rfl
  · exact ⟨_, decode_of_not_wf (Laws.RoundTrip.movs r n rfl) bad⟩
  · exact ⟨_, decode_of_not_wf (Laws.RoundTrip.movsw r n rfl) bad⟩

/-- R36-R38, R41: a register of a higher mode, the slot controls outside slot 7, and a number without a register. -/
theorem privilegeClaims : PrivilegeClaims := by
  intro r n
  refine ⟨forbiddenWhen_of_issueIf (fun _ => rfl) fun _ => State.sysForbidden_of_mode,
    forbiddenWhen_of_issueIf (fun _ => rfl) fun _ => State.sysForbidden_of_mode, fun unlisted w hw s fresh => ?_,
    fun control => ⟨forbiddenWhen_of_issueIf (fun _ => rfl) fun _ h => State.sysForbidden_of_slot control h.2,
      forbiddenWhen_of_issueIf (fun _ => rfl) fun _ h => State.sysForbidden_of_slot control h.2⟩⟩
  obtain ⟨e, he⟩ := decode_unlisted unlisted hw
  exact State.runWord_of_error he fresh

/-! Reads. -/

/-- MOVS of a register reads as its meaning does in the state in which the word issues. -/
theorem readsAs_of_movs {n : Nat} {pre : State → Prop} {v : State → Word} (range : n < 4096)
    (slot : n = 0x440 ∨ n = 0x441 → ∀ s, pre s → slotOf s.cur = 7)
    (h : ∀ (s : State) (d : BitVec 5), pre s → s.movs s.cur d n = s.retireX s.cur d (v s)) : ReadsAs n pre v := by
  intro d
  refine acts_of_issueIf (fun _ => rfl) (fun s hp => ?_) fun s hp => ?_
  · rw [toNat_ofNat_sysreg range, ← State.issued_sysForbidden, ← State.issued_cur]
    exact State.sysForbidden_eq_false hp.1 fun control => slot control _ hp.2
  · rw [toNat_ofNat_sysreg range]
    exact h s d hp.2

/-- The registers that MOVS reads without a wait and without a log: all but SHAPE, FSTAT, MSTAT, TIME and CYCLE (R32, R237,
R512). -/
theorem State.movs_plain {s : State} {c : CtxId} {d : BitVec 5} {n : Nat} (h : n ∉ [0x001, 0x002, 0x003, 0x008, 0x009]) :
    s.movs c d n = s.retireX c d (s.sysValue c n) := by
  simp only [List.mem_cons, List.not_mem_nil, not_or, or_false] at h
  obtain ⟨shape, fstat, mstat, time, cycle⟩ := h
  simp [State.movs, shape, fstat, mstat, time, cycle]

/-- A register that is read at once in every slot. -/
theorem readsAs_plain {n : Nat} {v : State → Word}
    (plain : n < 4096 ∧ n ∉ [0x440, 0x441] ∧ n ∉ [0x001, 0x002, 0x003, 0x008, 0x009])
    (value : ∀ s, s.sysValue s.cur n = v s) : ReadsAs n (fun _ => True) v :=
  readsAs_of_movs plain.1 (fun control => absurd (by simpa using control) plain.2.1) fun s d _ => by
    rw [State.movs_plain plain.2.2, value]

/-- The slot controls are read in slot 7 (R41). -/
theorem readsAs_control {n : Nat} {v : State → Word} (control : n = 0x440 ∨ n = 0x441)
    (value : ∀ s, s.sysValue s.cur n = v s) : ReadsAs n (fun s => slotOf s.cur = 7) v :=
  readsAs_of_movs (by omega) (fun _ _ h => h) fun s d _ => by rw [State.movs_plain (by simp; omega), value]

/-- SHAPE and FSTAT read at once where the queues hold nothing of the context (R32, R147). -/
theorem readsAs_queued {n : Nat} {v : State → Word} (h : n = 0x001 ∨ n = 0x002)
    (value : ∀ s, s.sysValue s.cur n = v s) : ReadsAs n (fun s => s.queuesEmpty s.cur = true) v :=
  readsAs_of_movs (by omega) (fun control => by omega) fun s d empty => by
    rw [State.movs, if_pos h, if_pos empty, value]

/-- MSTAT reads at once for the owner, with none of its matrix instructions outstanding (R26, R237). -/
theorem readsAs_mstat : ReadsAs 0x003 (fun s => s.arrayMine ∧ s.matrixQuiet s.cur = true) (fun s => s.coreHere.mstat) :=
  readsAs_of_movs (by decide) (fun control => absurd control (by decide)) fun s d ⟨mine, quiet⟩ => by
    show s.owned s.cur (if s.matrixQuiet s.cur then _ else _) = _
    rw [State.owned_of_mine mine, if_pos quiet]
    rfl

/-- TIME outside a log and a redundant pair is the TIME of the die (R35, R512). -/
theorem readsAs_time : ReadsAs 0x008 (fun s => s.here.log = none ∧ s.here.red = none) (fun s => s.time (dieOf s.cur)) :=
  readsAs_of_movs (by decide) (fun control => absurd control (by decide)) fun s d ⟨unlogged, single⟩ =>
    State.withLogged_plain s s.cur 0 _ _ single unlogged

/-- CYCLE counts from the offset of the context while it holds its slot (R35, R512). -/
theorem readsAs_cycle : ReadsAs 0x009 (fun s => s.here.log = none ∧ s.here.red = none ∧ s.here.swOut = none)
    (fun s => BitVec.ofNat 64 (s.clk - s.here.cycleOff)) :=
  readsAs_of_movs (by decide) (fun control => absurd control (by decide)) fun s d ⟨unlogged, single, inSlot⟩ => by
    have value : s.cycle s.cur = BitVec.ofNat 64 (s.clk - s.here.cycleOff) := by
      simp only [State.here] at inSlot
      simp [State.cycle, inSlot, State.here]
    rw [← value]
    exact State.withLogged_plain s s.cur 1 _ _ single unlogged

/-! Trap banks. -/

theorem Mode.toNat_range {t : Mode} (ht : t ≠ .u) : 1 ≤ t.toNat ∧ t.toNat ≤ 3 := by
  cases t with
  | u => exact absurd rfl ht
  | s | h | m => decide

theorem bankMode_eq {t : Mode} {i : Nat} (h : i ≤ 6) : bankMode (1024 * t.toNat + i) = t := by
  have high : (1024 * t.toNat + i) / 1024 = t.toNat := by omega
  rw [bankMode, high]
  cases t <;> rfl

/-- A number of the bank of a mode above U names no other register (R38). -/
theorem State.sysValue_bank {s : State} {c : CtxId} {t : Mode} (ht : t ≠ .u) {i : Nat} (hi : i ≤ 6) :
    s.sysValue c (1024 * t.toNat + i) = s.bankRead c t i := by
  have index : (1024 * t.toNat + i) % 1024 = i := by omega
  have bank : s.bankRead c (bankMode (1024 * t.toNat + i)) ((1024 * t.toNat + i) % 1024) = s.bankRead c t i := by
    rw [bankMode_eq hi, index]
  rw [← bank]
  cases t with
  | u => exact absurd rfl ht
  | s | h | m => interval_cases i <;> rfl

theorem readsAs_bank {t : Mode} (ht : t ≠ .u) {i : Nat} (hi : i ≤ 6) :
    ReadsAs (1024 * t.toNat + i) (fun _ => True) (fun s => s.bankRead s.cur t i) := by
  have mode := Mode.toNat_range ht
  exact readsAs_plain ⟨by omega, by simp; omega, by simp; omega⟩ fun _ => State.sysValue_bank ht hi

/-- DETMODE reads as 1 or 0 (R319). -/
theorem State.sysValue_detmode (s : State) (c : CtxId) : s.sysValue c 0xC14 = if s.detmode then 1 else 0 := by
  show BitVec.ofNat 64 (b2n s.detmode) = _
  cases s.detmode <;> rfl

/-- R27-R40: what MOVS of each register reads. -/
theorem sysReadClaims : SysReadClaims := by
  refine ⟨?form, ?shape, ?fstat, readsAs_mstat, readsAs_time, readsAs_cycle, ?ctxid, ?rank, ?stealdom, ?tsave, ?vsavea, ?sptb,
    ?rtwin, ?rtdata, ?dpslot, ?dplane, ?dpbank, ?dpquota, ?dptoken, ?slotctl, ?slotpc, ?featmask, ?hptb, ?mrvec, ?mown,
    ?leaseD, ?leaseP, ?detmode, ?wtwin, ?wtdata, ?banks⟩
  case shape => exact readsAs_queued (.inl rfl) fun _ => rfl
  case fstat => exact readsAs_queued (.inr rfl) fun _ => rfl
  case slotctl => exact readsAs_control (.inl rfl) fun _ => rfl
  case slotpc => exact readsAs_control (.inr rfl) fun _ => rfl
  case detmode => exact readsAs_plain (by decide) fun s => s.sysValue_detmode _
  case banks =>
    exact fun _ ht => ⟨readsAs_bank ht (i := 0) (by decide), readsAs_bank ht (i := 1) (by decide),
      readsAs_bank ht (i := 2) (by decide), readsAs_bank ht (i := 3) (by decide), readsAs_bank ht (i := 4) (by decide),
      readsAs_bank ht (i := 5) (by decide), readsAs_bank ht (i := 6) (by decide)⟩
  all_goals exact readsAs_plain (by decide) fun _ => rfl

end Sys2Proof.Machine

/-! Writes of system registers (R26-R41, R305-R335, R393-R434). -/

namespace Sys2Proof.Machine

/-- MOVSW of a register acts as its meaning does in the state in which the word issues. -/
theorem acts_movsw {n : Nat} {pre : State → Word → Prop} {act : State → Word → State} (range : n < 4096)
    (slot : n = 0x440 ∨ n = 0x441 → ∀ s v, pre s v → slotOf s.cur = 7)
    (h : ∀ (s : State) (w : BitVec 32) (v : Word), pre s v → s.sysWrite s.cur w n v = act s v) (a : BitVec 5) :
    Acts (.movsw a (BitVec.ofNat 12 n)) (fun s => n / 1024 ≤ s.here.mode.toNat ∧ pre s (s.here.rx a))
      fun s => act s (s.here.rx a) := by
  refine acts_of_issueIf (fun _ => rfl) (fun s hp => ?_) fun s hp => ?_
  · rw [toNat_ofNat_sysreg range, ← State.issued_sysForbidden, ← State.issued_cur]
    exact State.sysForbidden_eq_false hp.1 fun control => slot control _ _ hp.2
  · rw [toNat_ofNat_sysreg range]
    exact h s _ _ hp.2

/-- A register that every slot may write. -/
theorem writesAs_plain {n : Nat} {pre : State → Word → Prop} {act : State → Word → State}
    (plain : n < 4096 ∧ n ∉ [0x440, 0x441])
    (h : ∀ (s : State) (w : BitVec 32) (v : Word), pre s v → s.sysWrite s.cur w n v = (act s v).retire s.cur) :
    WritesAs n pre act :=
  acts_movsw plain.1 (fun control => absurd (by simpa using control) plain.2) h

/-- A slot control, which slot 7 writes (R41). -/
theorem writesAs_control {n : Nat} {pre : State → Word → Prop} {act : State → Word → State} (control : n = 0x440 ∨ n = 0x441)
    (slot : ∀ s v, pre s v → slotOf s.cur = 7)
    (h : ∀ (s : State) (w : BitVec 32) (v : Word), pre s v → s.sysWrite s.cur w n v = (act s v).retire s.cur) :
    WritesAs n pre act :=
  acts_movsw (by omega) (fun _ => slot) h

/-- An event that writes a register writes as its meaning does. -/
theorem putsSys_of_sysWrite {i : Instr} {n : Nat} {v : Word} {pre : State → Prop} {act : State → State} (range : n < 4096)
    (slot : n = 0x440 ∨ n = 0x441 → ∀ s, pre s → slotOf s.cur = 7)
    (put : ∀ s, exec i s = .next (s.putSys (BitVec.ofNat 12 n) v))
    (h : ∀ (s : State) (w : BitVec 32), pre s → s.sysWrite s.cur w n v = (act s).retire s.cur) : PutsSys i n pre act := by
  rintro s ⟨mode, hp⟩
  have allowed : s.sysForbidden s.cur n = false := State.sysForbidden_eq_false mode fun control => slot control s hp
  rw [put, State.putSys, State.putReg, toNat_ofNat_sysreg range, allowed]
  exact congrArg _ (h s _ hp)

/-! Registers of a context. -/

/-- FORM takes a legal value (R28). -/
theorem State.sysWrite_form {s : State} {c : CtxId} {v : Word} (w : BitVec 32) (h : formLegal v = true) :
    s.sysWrite c w 0x000 v = (s.modCtx c fun k => { k with form := v.truncate 14 }).retire c := if_pos h

/-- SHAPE written above U, with fields that fit (R140, R401). -/
theorem State.shapeWrite_of_fits {s : State} {c : CtxId} {v : Word} (w : BitVec 32) (mode : (s.ctx c).mode ≠ .u)
    (vl : bits v 12 0 ≤ ((s.ctx c).vcfg (physLanes (coreOf c))).vlmax) (rows : bits v 19 16 ≤ 8)
    (z15 : zeroBits v 15 13 = true) (z23 : zeroBits v 23 21 = true) (z63 : zeroBits v 63 31 = true) :
    s.shapeWrite c w v = (s.modCtx c fun k =>
      { k with vl := bits v 12 0, vrows := if k.lanes = 0 then 0 else bits v 19 16, tr := v.getLsbD 20 }).retire c := by
  rw [State.shapeWrite, if_neg mode, if_neg (by simp [Nat.not_lt.mpr vl, Nat.not_lt.mpr rows, z15, z23, z63])]
  rfl

/-- SHAPE written in U clears TR only (R401). -/
theorem State.shapeWrite_of_user {s : State} {c : CtxId} (w : BitVec 32) (v : Word) (mode : (s.ctx c).mode = .u) :
    s.shapeWrite c w v = (s.modCtx c fun k => { k with tr := k.tr && !v.getLsbD 20 }).retire c := if_pos mode

/-- FSTAT is written where the queues hold nothing of the context (R32). -/
theorem State.fstatWrite_of_empty {s : State} {c : CtxId} (v : Word) (empty : s.queuesEmpty c = true) :
    s.fstatWrite c v = (s.modCtx c fun k => { k with fstat := v.truncate 5 }).retire c := by
  rw [State.fstatWrite, if_pos empty, ofNat_bits_low v rfl]

/-- The owner clears the flags of MSTAT that it names, with none of its matrix instructions outstanding (R26, R237). -/
theorem State.mstatWrite_of_quiet {s : State} (v : Word) (mine : s.arrayMine) (quiet : s.matrixQuiet s.cur = true) :
    s.mstatWrite s.cur v =
      (s.modCore (coreOf s.cur) fun k => { k with mstat := k.mstat &&& ~~~ (v &&& 0x3F) }).retire s.cur := by
  have flags : BitVec.ofNat 64 (bits v 5 0) = v &&& 0x3F := by
    refine BitVec.eq_of_toNat_eq ?_
    have low : v.toNat &&& 63 = v.toNat % 64 := Nat.and_two_pow_sub_one_eq_mod v.toNat 6
    rw [bits_low, BitVec.toNat_ofNat, BitVec.toNat_and]
    exact (Nat.mod_eq_of_lt (by omega)).trans low.symm
  rw [State.mstatWrite, State.owned_of_mine mine, if_pos quiet, flags]

/-- A number of the bank of a mode above U writes that bank (R393, R394). -/
theorem State.sysWrite_bank {s : State} {c : CtxId} {t : Mode} (w : BitVec 32) (v : Word) (ht : t ≠ .u) {i : Nat} (hi : i ≤ 6) :
    s.sysWrite c w (1024 * t.toNat + i) v =
      (s.modCtx c fun k => k.setBank t ((k.bank t).write t i v)).retire c := by
  have index : (1024 * t.toNat + i) % 1024 = i := by omega
  have bank : s.sysWrite c w (1024 * t.toNat + i) v = (s.modCtx c fun k => k.setBank (bankMode (1024 * t.toNat + i))
      ((k.bank (bankMode (1024 * t.toNat + i))).write (bankMode (1024 * t.toNat + i)) ((1024 * t.toNat + i) % 1024) v)).retire c := by
    cases t with
    | u => exact absurd rfl ht
    | s | h | m => interval_cases i <;> rfl
  rw [bank, bankMode_eq hi, index]

/-- The DID field of STATUS: whole in M, and of the own partition below (R393). -/
theorem pdid_field (p : BitVec 7) (v : Word) (m : Prop) [Decidable m] :
    BitVec.ofNat 7 (if m then bits v 10 4 else p.toNat / 8 * 8 + bits v 6 4) =
      if m then v.extractLsb' 4 7 else p.extractLsb' 3 4 ++ v.extractLsb' 4 3 := by
  split
  · exact ofNat_bits v rfl
  · refine BitVec.eq_of_toNat_eq ?_
    have low : (v.extractLsb' 4 3).toNat < 2 ^ 3 := (v.extractLsb' 4 3).isLt
    rw [BitVec.toNat_append, ← Nat.shiftLeft_add_eq_or_of_lt low, bits_eq_toNat]
    simp only [BitVec.toNat_ofNat, BitVec.extractLsb'_toNat, Nat.shiftRight_eq_div_pow, Nat.shiftLeft_eq]
    omega

theorem TrapBank.write_status (b : TrapBank) (t : Mode) (v : Word) : b.write t 0 v =
    { b with pm := Mode.ofCode (if t = .s then v.toNat % 2 else v.toNat % 4), ae := v.getLsbD 2, pae := v.getLsbD 3,
             pdid := if t = .m then v.extractLsb' 4 7 else b.pdid.extractLsb' 3 4 ++ v.extractLsb' 4 3,
             platch := v.extractLsb' 11 5 } := by
  show TrapBank.mk _ _ _ _ _ _ _ _ _ _ _ _ _ = _
  rw [pdid_field, ofNat_bits v (rfl : 15 + 1 - 11 = 5), bits_low, bits_low]
  rfl

theorem TrapBank.write_cause (b : TrapBank) (t : Mode) (v : Word) :
    b.write t 2 v = { b with code := v.truncate 5, isAsync := v.getLsbD 63 } := by
  show { b with code := BitVec.ofNat 5 (bits v 4 0), isAsync := v.getLsbD 63 } = _
  rw [ofNat_bits_low v rfl]

theorem TrapBank.write_pfxs (b : TrapBank) (t : Mode) (v : Word) :
    b.write t 6 v = { b with pfxWord := v.truncate 32, pfxV := v.getLsbD 63 } := by
  show { b with pfxWord := BitVec.ofNat 32 (bits v 31 0), pfxV := v.getLsbD 63 } = _
  rw [ofNat_bits_low v rfl]

/-- MOVSW of a register of a bank writes that field of the bank. -/
theorem setsCtx_bank {t : Mode} (ht : t ≠ .u) {i : Nat} (hi : i ≤ 6) {g : Word → TrapBank → TrapBank}
    (h : ∀ (b : TrapBank) (v : Word), b.write t i v = g v b) :
    SetsCtx (1024 * t.toNat + i) (fun _ _ => True) fun v k => k.setBank t (g v (k.bank t)) := by
  have mode := Mode.toNat_range ht
  refine writesAs_plain ⟨by omega, by simp; omega⟩ fun s w v _ => ?_
  simp only [State.sysWrite_bank w v ht hi, h]

/-- R27-R33, R140, R272, R393, R404-R408, R415: MOVSW of the registers of a context. -/
theorem sysWriteClaims : SysWriteClaims := by
  refine ⟨?form, ?shape, ?user, ?fstat, ?mstat, ?stealdom, ?tsave, ?vsavea, ?sptb, ?hptb, ?banks⟩
  case form => exact writesAs_plain (by decide) fun _ w _ legal => State.sysWrite_form w legal
  case shape =>
    exact writesAs_plain (by decide) fun _ w _ ⟨mode, vl, rows, z15, z23, z63⟩ =>
      State.shapeWrite_of_fits w mode vl rows z15 z23 z63
  case user => exact writesAs_plain (by decide) fun _ w v mode => State.shapeWrite_of_user w v mode
  case fstat => exact writesAs_plain (by decide) fun _ _ v empty => State.fstatWrite_of_empty v empty
  case mstat => exact writesAs_plain (by decide) fun _ _ v ⟨mine, quiet⟩ => State.mstatWrite_of_quiet v mine quiet
  case banks =>
    exact fun t ht => ⟨setsCtx_bank ht (i := 0) (by decide) fun b v => b.write_status t v,
      setsCtx_bank ht (i := 1) (by decide) fun _ _ => rfl, setsCtx_bank ht (i := 2) (by decide) fun b v => b.write_cause t v,
      setsCtx_bank ht (i := 3) (by decide) fun _ _ => rfl, setsCtx_bank ht (i := 4) (by decide) fun _ _ => rfl,
      setsCtx_bank ht (i := 5) (by decide) fun _ _ => rfl, setsCtx_bank ht (i := 6) (by decide) fun b v => b.write_pfxs t v⟩
  all_goals exact writesAs_plain (by decide) fun _ _ _ _ => rfl

end Sys2Proof.Machine

/-! Registers of a core, a die and the package, and the register writes that are steps of their own (R32, R41, R237, R305-R310,
R319, R332-R335, R401, R405-R407, R423, R429-R434). -/

namespace Sys2Proof.Machine

/-! Domain partition registers (R39, R434). -/

/-- The context may write the domain partition registers: it is in M or in the local domain 0 (R39). -/
def State.mayPartition (s : State) (c : CtxId) : Prop := (s.ctx c).mode = .m ∨ localOf (s.did c) = 0

/-- A legal value of a context that may write it passes the checks of a domain partition register. -/
theorem State.dpWrite_of_legal {s : State} {c : CtxId} {n : Nat} {v : Word} (w : BitVec 32) (may : s.mayPartition c)
    (legal : dpLegal n v = true) :
    s.dpWrite c w n v =
      if n = 0x430 then (s.modCore (coreOf c) fun q => { q with dpslot := v }).retire c
      else if n = 0x431 then (s.modCore (coreOf c) fun q => { q with dplane := v }).retire c
      else if n = 0x432 then s.dpbankSet c v
      else if n = 0x433 then (s.modCore (coreOf c) fun q => { q with dpquota := v }).retire c
      else ((s.modCore (coreOf c) fun q => q.setTokens v).startRefill (coreOf c)).retire c := by
  have passes : ¬ ((s.ctx c).mode ≠ .m ∧ localOf (s.did c) ≠ 0) := fun ⟨mode, domain⟩ => may.elim mode domain
  simp [State.dpWrite, passes, legal]

/-- A DPBANK write that leaves SPSZ and meets no pane in a bank that changes its owner zeroes those banks (R434, log entry
31). -/
theorem State.dpbankSet_owners {s : State} {c : CtxId} {v : Word} (size : bits v 3 0 = (s.core (coreOf c)).spsz)
    (clear : ∀ b, b ∈ (s.core (coreOf c)).changedBanks v → (s.core (coreOf c)).bankPaned (coreOf c) b = false) :
    s.dpbankSet c v = (s.setCore (coreOf c) { ((s.core (coreOf c)).changedBanks v).foldl
      (fun t b => t.zeroBank (coreOf c) b) (s.core (coreOf c)) with dpbank := v }).retire c := by
  have unpaned : (((s.core (coreOf c)).changedBanks v).any fun b => (s.core (coreOf c)).bankPaned (coreOf c) b) = false := by
    simpa using clear
  simp [State.dpbankSet, size, unpaned]

/-- A DPBANK write that changes SPSZ, with no pane in use, once the slice's dirty lines are home or while they go (R332). -/
theorem State.dpbankSet_size {s : State} {c : CtxId} {v : Word} (size : bits v 3 0 ≠ (s.core (coreOf c)).spsz)
    (unused : ∀ p, p ∈ (s.core (coreOf c)).panes.toList → p.state = 0) :
    s.dpbankSet c v = if (s.sliceHome (coreOf c)).2 = true then
      ((((s.sliceHome (coreOf c)).1.emptySlice (coreOf c)).modCore (coreOf c) fun k =>
        { k with dpbank := v, spad := [] }).retire c)
      else (s.sliceHome (coreOf c)).1.stallBounded c := by
  have noPane : ((s.core (coreOf c)).panes.toList.any fun p => decide (p.state ≠ 0)) = false := by
    rw [List.any_eq_false]
    exact fun p hp => by simpa using unused p hp
  simp only [State.dpbankSet, if_pos size, noPane]
  cases (s.sliceHome (coreOf c)).2 <;> rfl

/-! Slot control (R41). -/

/-- START puts a slot that is out of rotation into it, at SLOTPC and in the mode and domain of slot 7. -/
theorem State.slotctl_start {s : State} {c : CtxId} {v : Word} (w : BitVec 32) (slot : slotOf c = 7) (start : v.toNat / 8 = 1)
    (other : v.toNat % 8 ≠ 7) (out : (s.ctx (coreOf c * 8 + v.toNat % 8)).run = .out) :
    s.slotctl c w v = (s.modCtx (coreOf c * 8 + v.toNat % 8) fun k =>
      { k with run := .running, pc := (s.core (coreOf c)).slotpc, mode := (s.ctx c).mode, did := s.did c }).retire c := by
  have target : bits v 2 0 = v.toNat % 8 := bits_low v 2
  have upper : zeroBits v 63 4 = true := zeroBits_of_lt 63 (by omega)
  have bit3 : bit v 3 = true := by simp [bit_eq_decide, start]
  simp [State.slotctl, slot, bit3, target, other, upper, out]

/-- Without START nothing happens. -/
theorem State.slotctl_idle {s : State} {c : CtxId} {v : Word} (w : BitVec 32) (slot : slotOf c = 7)
    (idle : v.getLsbD 3 = false) : s.slotctl c w v = s.retire c := by
  have bit3 : bit v 3 = false := idle
  simp [State.slotctl, slot, bit3]

/-! Leases and deterministic mode (R319, R335). -/

theorem State.leaseWrite_die {s : State} {c : CtxId} {v : Word} (w : BitVec 32) (free : s.detmode = false)
    (least : 64 ≤ v.toNat) (most : v.toNat ≤ 65536) :
    s.leaseWrite c w false v = ({ s with leaseD := v.toNat } : State).retire c := by
  simp [State.leaseWrite, free, Nat.not_lt.mpr least, Nat.not_lt.mpr most]

theorem State.leaseWrite_package {s : State} {c : CtxId} {v : Word} (w : BitVec 32) (free : s.detmode = false)
    (least : 512 ≤ v.toNat) (most : v.toNat ≤ 1048576) :
    s.leaseWrite c w true v = ({ s with leaseP := v.toNat } : State).retire c := by
  simp [State.leaseWrite, free, Nat.not_lt.mpr least, Nat.not_lt.mpr most]

theorem State.detmodeSet_of_full {s : State} {c : CtxId} {v : Word} (full : v.getLsbD 0 = true → s.linksFull = true) :
    s.detmodeSet c v = ({ s with detmode := v.getLsbD 0 } : State).retire c := by
  have free : (bit v 0 && !s.linksFull) = false := by
    unfold bit
    cases h : v.getLsbD 0 with
    | false => rfl
    | true => rw [full h]; rfl
  rw [State.detmodeSet, free]
  rfl

/-! MOWN (R405-R407). -/

theorem Tbl.set_set {α : Type} (t : Tbl α) (n : Nat) (v w : α) : Tbl.set (Tbl.set t n v) n w = Tbl.set t n w := by
  induction t with
  | nil => simp [Tbl.set]
  | cons e t ih =>
    by_cases h : e.1 = n
    · simp [Tbl.set, h]
    · simp [Tbl.set, h, ih]

/-- Two changes of a core are one. -/
theorem State.modCore_modCore (s : State) (n : CoreId) (g h : Core → Core) :
    (s.modCore n g).modCore n h = s.modCore n fun k => h (g k) := by
  rw [State.modCore, State.modCore_core_same]
  simp [State.modCore, State.setCore, Tbl.set_set]

/-- The array may change its owner: neither its queue nor the vector queue of the old owner holds an instruction (R240). -/
def State.arrayFree (s : State) (core : CoreId) : Prop :=
  (s.core core).mq = [] ∧ (s.ctx (core * 8 + (s.core core).mown.toNat)).vq = []

theorem State.sysWrite_mown (s : State) {c : CtxId} {w : BitVec 32} {v : Word} :
    s.sysWrite c w 0xC11 v = s.mownWrite c w v := by
  simp [State.sysWrite]

/-- A write of MOWN with none of SV, LD and ZR changes the owner alone. -/
theorem State.mownWrite_plain {s : State} {c : CtxId} {v : Word} (w : BitVec 32) (free : s.arrayFree (coreOf c))
    (sv : bit v 4 = false) (ld : bit v 5 = false) (zr : bit v 6 = false) :
    s.mownWrite c w v = (s.modCore (coreOf c) fun k => { k with mown := v.truncate 3 }).retire c := by
  obtain ⟨mq, vq⟩ := free
  simp [State.mownWrite, mq, vq, sv, ld, zr, State.withLines, State.readLines, ofNat_bits_low v (rfl : 2 + 1 = 3)]

/-- ZR zeroes the tiles, the planes and MSTAT. -/
theorem State.mownWrite_zero {s : State} {c : CtxId} {v : Word} (w : BitVec 32) (free : s.arrayFree (coreOf c))
    (sv : bit v 4 = false) (ld : bit v 5 = false) (zr : bit v 6 = true) :
    s.mownWrite c w v = (s.modCore (coreOf c) fun k =>
      { k with acc := Vector.replicate 512 0, plane := 0, shadow := 0, mstat := 0, mown := v.truncate 3 }).retire c := by
  obtain ⟨mq, vq⟩ := free
  simp [State.mownWrite, mq, vq, sv, ld, zr, State.withLines, State.readLines, ofNat_bits_low v (rfl : 2 + 1 = 3),
    State.modCore_modCore, Core.matZero]

/-- SV saves the matrix state to a free area of the old owner. -/
theorem State.mownWrite_save {s : State} {c : CtxId} {v : Word} (w : BitVec 32) (free : s.arrayFree (coreOf c))
    (sv : bit v 4 = true) (ld : bit v 5 = false) (zr : bit v 6 = false)
    (area : s.tsaveFree (coreOf c * 8 + (s.core (coreOf c)).mown.toNat) = true) :
    s.mownWrite c w v = ((s.matSave c (coreOf c) (coreOf c * 8 + (s.core (coreOf c)).mown.toNat)).modCore (coreOf c) fun k =>
      { k with mown := v.truncate 3 }).retire c := by
  obtain ⟨mq, vq⟩ := free
  have ok : s.tsaveOk (coreOf c * 8 + (s.core (coreOf c)).mown.toNat) = true := by
    rw [State.tsaveFree, Bool.and_eq_true] at area
    exact area.1
  simp [State.mownWrite, mq, vq, sv, ld, zr, area, ok, State.withLines, State.readLines, ofNat_bits_low v (rfl : 2 + 1 = 3)]

/-- LD loads the matrix state from the area of the new owner, which the plan of R407 accepts. -/
theorem State.mownWrite_load {s r u : State} {c : CtxId} {v : Word} {slot : BitVec 3} (w : BitVec 32)
    (free : s.arrayFree (coreOf c)) (new : v.truncate 3 = slot) (sv : bit v 4 = false) (ld : bit v 5 = true)
    (zr : bit v 6 = false) (area : s.tsaveOk (coreOf c * 8 + slot.toNat) = true)
    (lines : s.readLines (dieOf c) (s.matLines c (coreOf c) (areaPa (s.ctx (coreOf c * 8 + slot.toNat)).tsave)) = some r)
    (loads : r.matRestore c (coreOf c) (areaPa (s.ctx (coreOf c * 8 + slot.toNat)).tsave) = some u) :
    s.mownWrite c w v = (u.modCore (coreOf c) fun k => { k with mown := slot }).retire c := by
  obtain ⟨mq, vq⟩ := free
  have owner : bits v 2 0 = slot.toNat := by rw [← new, bits_low]; simp
  simp [State.mownWrite, mq, vq, sv, ld, zr, owner, area, lines, loads, State.withLines]

/-! MOVSW of these registers. -/

/-- A value of MOWN whose bits above the slot number hold ZR alone has neither SV nor LD. -/
theorem mown_zr_bits {v : Word} (h : v.toNat / 8 = 8) : bit v 4 = false ∧ bit v 5 = false ∧ bit v 6 = true := by
  simp only [bit_eq_decide, decide_eq_false_iff_not, decide_eq_true_iff]
  omega

/-- A change of SPSZ waits while dirty lines of the slice go home (R332). -/
theorem movsw_dpbank_waits (a : BitVec 5) :
    Acts (.movsw a 0x432) (fun s => 1 ≤ s.here.mode.toNat ∧ s.mayPartition s.cur ∧ dpLegal 0x432 (s.here.rx a) = true ∧
        bits (s.here.rx a) 3 0 ≠ s.coreHere.spsz ∧ (∀ p, p ∈ s.coreHere.panes.toList → p.state = 0) ∧
        (s.sliceHome (coreOf s.cur)).2 = false)
      fun s => (s.sliceHome (coreOf s.cur)).1.stallBounded s.cur :=
  acts_movsw (n := 0x432)
    (pre := fun s v => s.mayPartition s.cur ∧ dpLegal 0x432 v = true ∧ bits v 3 0 ≠ s.coreHere.spsz ∧
      (∀ p, p ∈ s.coreHere.panes.toList → p.state = 0) ∧ (s.sliceHome (coreOf s.cur)).2 = false)
    (act := fun s _ => (s.sliceHome (coreOf s.cur)).1.stallBounded s.cur)
    (by decide) (fun control => absurd control (by decide))
    (fun _ w _ ⟨may, legal, size, unused, going⟩ => (State.dpWrite_of_legal w may legal).trans
      ((State.dpbankSet_size size unused).trans (if_neg (by simp [going])))) a

/-- R305, R319, R332-R335, R405, R423, R424, R429-R434: MOVSW of the registers of a core, a die and the package. -/
theorem domainWriteClaims : DomainWriteClaims := by
  refine ⟨⟨?dpslot, ?dplane, ?owners, ?size, ?waits, ?dpquota, ?dptoken⟩, ?rtwin, ?slotpc, ?start, ?idle, ?featmask, ?mrvec,
    ?leaseD, ?leaseP, ?detmode, ?wtwin, ?wtdata, ?mown, ?zero⟩
  case dpslot => exact writesAs_plain (by decide) fun _ w _ ⟨may, legal⟩ => State.dpWrite_of_legal w may legal
  case dplane => exact writesAs_plain (by decide) fun _ w _ ⟨may, legal⟩ => State.dpWrite_of_legal w may legal
  case owners =>
    exact writesAs_plain (by decide) fun _ w _ ⟨may, legal, size, clear⟩ =>
      (State.dpWrite_of_legal w may legal).trans (State.dpbankSet_owners size clear)
  case size =>
    exact writesAs_plain (by decide) fun _ w _ ⟨may, legal, size, unused, home⟩ =>
      (State.dpWrite_of_legal w may legal).trans ((State.dpbankSet_size size unused).trans (if_pos home))
  case waits => exact movsw_dpbank_waits
  case dpquota => exact writesAs_plain (by decide) fun _ w _ may => State.dpWrite_of_legal w may rfl
  case dptoken => exact writesAs_plain (by decide) fun _ w _ may => State.dpWrite_of_legal w may rfl
  case start =>
    exact writesAs_control (.inl rfl) (fun _ _ h => h.1) fun _ w _ ⟨slot, start, other, out⟩ =>
      State.slotctl_start w slot start other out
  case idle => exact writesAs_control (.inl rfl) (fun _ _ h => h.1) fun _ w _ ⟨slot, idle⟩ => State.slotctl_idle w slot idle
  case slotpc => exact writesAs_control (.inr rfl) (fun _ _ slot => slot) fun _ _ _ _ => rfl
  case leaseD => exact writesAs_plain (by decide) fun _ w _ ⟨free, least, most⟩ => State.leaseWrite_die w free least most
  case leaseP => exact writesAs_plain (by decide) fun _ w _ ⟨free, least, most⟩ => State.leaseWrite_package w free least most
  case detmode => exact writesAs_plain (by decide) fun _ _ _ full => State.detmodeSet_of_full full
  case mown =>
    exact writesAs_plain (by decide) fun s w v ⟨mq, vq, small⟩ =>
      s.sysWrite_mown.trans (State.mownWrite_plain w ⟨mq, vq⟩ (bit_of_lt (by omega)) (bit_of_lt (by omega)) (bit_of_lt (by omega)))
  case zero =>
    refine writesAs_plain (by decide) fun s w v ⟨mq, vq, zr⟩ => ?_
    obtain ⟨sv, ld, zr⟩ := mown_zr_bits zr
    exact s.sysWrite_mown.trans (State.mownWrite_zero w ⟨mq, vq⟩ sv ld zr)
  all_goals exact writesAs_plain (by decide) fun _ _ _ _ => rfl

/-! Register writes that are steps of their own. -/

/-- An event that writes a register that every slot may write. -/
theorem putsSys_plain {i : Instr} {n : Nat} {v : Word} {pre : State → Prop} {act : State → State}
    (plain : n < 4096 ∧ n ∉ [0x440, 0x441]) (put : ∀ s, exec i s = .next (s.putSys (BitVec.ofNat 12 n) v))
    (h : ∀ (s : State) (w : BitVec 32), pre s → s.sysWrite s.cur w n v = (act s).retire s.cur) : PutsSys i n pre act :=
  putsSys_of_sysWrite plain.1 (fun control => absurd (by simpa using control) plain.2) put h

/-- SLOTCTL_START sets START beside the number of the slot (R41). -/
theorem start_value {v : Word} (h : v.toNat < 16) : (v ||| 8).toNat / 8 = 1 ∧ (v ||| 8).toNat % 8 = v.toNat % 8 := by
  rw [BitVec.toNat_or]
  generalize v.toNat = n at h
  interval_cases n <;> decide

/-- SLOTCTL_START puts the slot that it names into rotation (R41). -/
theorem slotctlStart_puts (v : Word) :
    PutsSys (.slotctlStart v) 0x440 (fun s => slotOf s.cur = 7 ∧ v.toNat < 16 ∧ v.toNat % 8 ≠ 7 ∧
        (s.ctx (coreOf s.cur * 8 + v.toNat % 8)).run = .out)
      (fun s => s.modCtx (coreOf s.cur * 8 + v.toNat % 8) fun k =>
        { k with run := .running, pc := s.coreHere.slotpc, mode := s.here.mode, did := s.did s.cur }) := by
  refine putsSys_of_sysWrite (v := v ||| 8) (by decide) (fun _ _ h => h.1) (fun _ => rfl) fun s w ⟨slot, small, other, out⟩ => ?_
  obtain ⟨start, target⟩ := start_value small
  rw [← target] at other out ⊢
  exact State.slotctl_start w slot start other out

/-! The value that each MOWN event writes: a slot number with SV, LD or ZR. -/

theorem mownSave_value (slot : BitVec 3) : let v : Word := slot.zeroExtend 64 ||| 0x10
    bit v 4 = true ∧ bit v 5 = false ∧ bit v 6 = false ∧ v.truncate 3 = slot := by
  revert slot; decide

theorem mownLoad_value (slot : BitVec 3) : let v : Word := slot.zeroExtend 64 ||| 0x20
    v.truncate 3 = slot ∧ bit v 4 = false ∧ bit v 5 = true ∧ bit v 6 = false := by
  revert slot; decide

theorem mownZero_value (slot : BitVec 3) : let v : Word := slot.zeroExtend 64 ||| 0x40
    bit v 4 = false ∧ bit v 5 = false ∧ bit v 6 = true ∧ v.truncate 3 = slot := by
  revert slot; decide

/-- MOWN_ZERO zeroes the matrix state of the new owner (R407). -/
theorem mownZero_puts (slot : BitVec 3) :
    PutsSys (.mownZero slot) 0xC11 (fun s => s.arrayFree (coreOf s.cur)) (fun s => s.modCore (coreOf s.cur) fun k =>
      { k with acc := Vector.replicate 512 0, plane := 0, shadow := 0, mstat := 0, mown := slot }) := by
  obtain ⟨sv, ld, zr, owner⟩ := mownZero_value slot
  refine putsSys_plain (by decide) (fun _ => rfl) fun s w free => ?_
  rw [State.sysWrite_mown, State.mownWrite_zero w free sv ld zr, owner]

/-- MOWN_SAVE saves the matrix state to the area of the old owner (R407). -/
theorem mownSave_puts (slot : BitVec 3) :
    PutsSys (.mownSave slot) 0xC11
      (fun s => s.arrayFree (coreOf s.cur) ∧ s.tsaveFree (coreOf s.cur * 8 + s.coreHere.mown.toNat) = true)
      (fun s => (s.matSave s.cur (coreOf s.cur) (coreOf s.cur * 8 + s.coreHere.mown.toNat)).modCore (coreOf s.cur) fun k =>
        { k with mown := slot }) := by
  obtain ⟨sv, ld, zr, owner⟩ := mownSave_value slot
  refine putsSys_plain (by decide) (fun _ => rfl) fun s w ⟨free, area⟩ => ?_
  rw [State.sysWrite_mown, State.mownWrite_save w free sv ld zr area, owner]
  rfl

/-- MOWN_LOAD loads the matrix state from the area of the new owner (R407). -/
theorem exec_mownLoad {s r u : State} {slot : BitVec 3} (mode : 3 ≤ s.here.mode.toNat) (free : s.arrayFree (coreOf s.cur))
    (area : s.tsaveOk (coreOf s.cur * 8 + slot.toNat) = true)
    (lines : s.readLines (dieOf s.cur)
      (s.matLines s.cur (coreOf s.cur) (areaPa (s.ctx (coreOf s.cur * 8 + slot.toNat)).tsave)) = some r)
    (loads : r.matRestore s.cur (coreOf s.cur) (areaPa (s.ctx (coreOf s.cur * 8 + slot.toNat)).tsave) = some u) :
    exec (.mownLoad slot) s = .next ((u.modCore (coreOf s.cur) fun k => { k with mown := slot }).retire s.cur) := by
  obtain ⟨owner, sv, ld, zr⟩ := mownLoad_value slot
  have puts : PutsSys (.mownLoad slot) 0xC11 (fun t => t = s)
      (fun _ => u.modCore (coreOf s.cur) fun k => { k with mown := slot }) := by
    refine putsSys_plain (by decide) (fun _ => rfl) ?_
    rintro t w rfl
    rw [State.sysWrite_mown, State.mownWrite_load w free owner sv ld zr area lines loads]
  exact puts s ⟨mode, rfl⟩

/-! The rank table and the inbox (R305-R310). -/

/-- An event that writes RTDATA does what its meaning does in a mode above U. -/
theorem State.putReg_rtdata {s : State} (go : State → State) (mode : 1 ≤ s.here.mode.toNat) : s.putReg 0x421 go = go s := by
  have allowed : s.sysForbidden s.cur 0x421 = false :=
    State.sysForbidden_eq_false mode fun control => absurd control (by decide)
  exact if_neg (by simp [allowed])

/-- Where RTWIN selects no rank, a write changes nothing (R305). -/
theorem State.rankWrite_of_none {s : State} {c : CtxId} (v : Word) (h : s.rankSelected (coreOf c) = none) :
    s.rankWrite c v = s.retire c := by
  simp [State.rankWrite, h]

/-- A write of the selected entry, of a gang of the own partition: IT cleared releases the messages that are held (R306, R307,
R409). -/
theorem State.rankWrite_of_selected {s : State} {c : CtxId} {v : Word} {g r : Nat} {e : Gang}
    (h : s.rankSelected (coreOf c) = some (g, e, r)) (own : ∀ m, e.members.head? = some m → s.part m = s.part c) :
    let z : RankEntry := ⟨v.truncate 19, v.getLsbD 62, v.getLsbD 63⟩
    let u := (s.putGang g (e.withEntry r z)).nameDestination (e.entry r) z
    s.rankWrite c v = (if (e.entry r).it = true ∧ z.it = false then u.startRelease (holdKey g r) else u).retire c := by
  have member : (e.members.head?.any fun m => decide (s.part m ≠ s.part c)) = false := by
    cases first : e.members.head? with
    | none => rfl
    | some m => simp [own m first]
  simp only [State.rankWrite, h, member, ofNat_bits_low v (rfl : 18 + 1 = 19)]
  simp [bit, State.putGang, Gang.withEntry]

/-- Slot 7 writes the ring of the inbox, its DEFER bits or nothing, as RTWIN selects (R310). -/
theorem State.inboxRegWrite_of_slot {s : State} {c : CtxId} (w : BitVec 32) (v : Word) (slot : slotOf c = 7) :
    s.inboxRegWrite c w v =
      (if bits (s.core (coreOf c)).rtwin 12 0 = 0 then (s.leaveInbox (coreOf c)).modCore (coreOf c) fun k =>
          { k with inSz := v.truncate 4, inBase := v.extractLsb' 12 40, inEn := v.getLsbD 63 }
      else if bits (s.core (coreOf c)).rtwin 12 0 = 1 then s.modCore (coreOf c) fun k =>
          { k with defer := k.defer &&& ~~~ v.truncate 8 }
      else s).retire c := by
  simp [State.inboxRegWrite, slot, ofNat_bits_low v (rfl : 3 + 1 = 4), ofNat_bits_low v (rfl : 7 + 1 = 8),
    ofNat_bits v (rfl : 51 + 1 - 12 = 40), bit]

/-- INBOX_REGISTER_WRITE by slot 7 does what its register asks. -/
theorem inboxRegisterWrite_puts {v : Word} {pre : State → Prop} {act : State → State} (slot : ∀ s, pre s → slotOf s.cur = 7)
    (h : ∀ s, pre s → (if bits s.coreHere.rtwin 12 0 = 0 then (s.leaveInbox (coreOf s.cur)).modCore (coreOf s.cur) fun k =>
          { k with inSz := v.truncate 4, inBase := v.extractLsb' 12 40, inEn := v.getLsbD 63 }
      else if bits s.coreHere.rtwin 12 0 = 1 then s.modCore (coreOf s.cur) fun k =>
          { k with defer := k.defer &&& ~~~ v.truncate 8 }
      else s) = act s) : PutsSys (.inboxRegisterWrite v) 0x421 pre act := by
  rintro s ⟨mode, hp⟩
  have put : exec (.inboxRegisterWrite v) s = .next (s.inboxRegWrite s.cur (encMovsw 0 0x421) v) :=
    congrArg _ (State.putReg_rtdata _ mode)
  rw [put, State.inboxRegWrite_of_slot _ v (slot s hp)]
  exact congrArg (fun t : State => Host.Outcome.next (t.retire s.cur)) (h s hp)

/-- R32, R41, R237, R305-R310, R319, R332-R335, R401, R407, R423, R433: each register write that is a step of its own. -/
theorem registerEventClaims : RegisterEventClaims := by
  intro v
  refine ⟨?shape, ?user, ?fstat, ?mstat, slotctlStart_puts v, ?dptoken, ⟨?size, ?owners⟩, ?leaseD, ?leaseP, ?detmode, ?world,
    ?defer, ?ring, ?other, ?unselected, ?entry, fun slot => ⟨mownZero_puts slot, mownSave_puts slot, ?load⟩⟩
  case shape =>
    exact putsSys_plain (by decide) (fun _ => rfl) fun _ w ⟨mode, vl, rows, z15, z23, z63⟩ =>
      State.shapeWrite_of_fits w mode vl rows z15 z23 z63
  case user => exact putsSys_plain (by decide) (fun _ => rfl) fun _ w mode => State.shapeWrite_of_user w v mode
  case fstat => exact putsSys_plain (by decide) (fun _ => rfl) fun _ _ empty => State.fstatWrite_of_empty v empty
  case mstat =>
    exact putsSys_plain (by decide) (fun _ => rfl) fun _ _ ⟨mine, quiet⟩ => State.mstatWrite_of_quiet v mine quiet
  case dptoken => exact putsSys_plain (by decide) (fun _ => rfl) fun _ w may => State.dpWrite_of_legal w may rfl
  case size =>
    exact putsSys_plain (by decide) (fun _ => rfl) fun _ w ⟨⟨may, legal⟩, size, unused, home⟩ =>
      (State.dpWrite_of_legal w may legal).trans ((State.dpbankSet_size size unused).trans (if_pos home))
  case owners =>
    exact putsSys_plain (by decide) (fun _ => rfl) fun _ w ⟨⟨may, legal⟩, size, clear⟩ =>
      (State.dpWrite_of_legal w may legal).trans (State.dpbankSet_owners size clear)
  case leaseD =>
    exact putsSys_plain (by decide) (fun _ => rfl) fun _ w ⟨free, least, most⟩ => State.leaseWrite_die w free least most
  case leaseP =>
    exact putsSys_plain (by decide) (fun _ => rfl) fun _ w ⟨free, least, most⟩ => State.leaseWrite_package w free least most
  case detmode => exact putsSys_plain (by decide) (fun _ => rfl) fun _ _ full => State.detmodeSet_of_full full
  case world => exact putsSys_plain (by decide) (fun _ => rfl) fun _ _ _ => rfl
  case defer => exact inboxRegisterWrite_puts (fun _ h => h.1) fun s ⟨_, defer⟩ => by rw [if_neg (by omega), if_pos defer]
  case ring => exact inboxRegisterWrite_puts (fun _ h => h.1) fun s ⟨_, ring⟩ => if_pos ring
  case other =>
    exact inboxRegisterWrite_puts (fun _ h => h.1) fun s ⟨_, other⟩ => by rw [if_neg (by omega), if_neg (by omega)]
  case unselected =>
    rintro s ⟨mode, none⟩
    exact congrArg _ ((State.putReg_rtdata _ mode).trans (State.rankWrite_of_none v none))
  case entry =>
    intro s g r e mode selected own
    exact congrArg _ ((State.putReg_rtdata _ mode).trans (State.rankWrite_of_selected selected own))
  case load => exact fun s r u mode free area lines loads => exec_mownLoad mode free area lines loads

end Sys2Proof.Machine

/-! The statements of spec/01_programmer_state.md. -/

namespace Sys2Proof.Proofs

open Sys2Proof.Machine

/-- Settles O20: each of these instructions begins with the owner check, before any check of its operands, and
nothing in the state of another context forbids its word. -/
theorem ownership : Obligations.Ownership := ownershipClaims

/-- Settles O34: the privilege by the check of the word at issue, the reads by the value of each register at issue. -/
theorem systemReads : Obligations.SystemReads := ⟨privilegeClaims, sysReadClaims⟩

/-- Settles O35: each register by the lemma that says what its write does where its rule allows the value. -/
theorem systemWrites : Obligations.SystemWrites := ⟨sysWriteClaims, domainWriteClaims⟩

/-- Settles O36: each event is the write of its register, so the lemmas that MOVSW uses say what it does. -/
theorem registerEvents : Obligations.RegisterEvents := registerEventClaims

/-- Settles O49: each law of a register file is a lemma about reads after writes. -/
theorem registers : Obligations.Registers := fun k r q v =>
  ⟨k.rx_zero, k.wx_zero v, k.rx_wx_same r v, k.rx_wx_ne r q v, k.rf_wf_same r v, k.rf_wf_ne r q v, k.wx_f r v, k.wf_x r v⟩

/-- Settles O50: every table is empty after reset, so each value is the one of a context, a core or a die at reset. -/
theorem reset : Obligations.Reset := by
  intro c _ k q
  refine ⟨rfl, rfl, rfl, rfl, rfl, rfl, rfl, rfl, rfl, rfl, rfl, rfl, rfl, rfl, rfl, Die.reset_queue _, rfl,
    Ctx.reset_lanes c, rfl, State.reset_did c, fun _ => rfl, fun _ => rfl, rfl, rfl, State.reset_shape c,
    State.reset_featmask c, rfl, rfl, fun _ => State.reset_sysValue_zero c⟩

/-- Settles O57: the step is unfolded once for a turn without an event, and the turn once for each thing its context does. -/
theorem stepRuns : Obligations.StepRuns := ⟨stepRunsClaims, turnClaims, idleTurnClaims⟩

/-- Settles O60: the turn after reset is that of core 0, and the empty memory is canonical. -/
theorem resetCanonical : Obligations.ResetCanonical := rfl

end Sys2Proof.Proofs

/-! Events of the vector and matrix queues and of posted stores (R56, R122, R124, R153, R179, R185, R236, R237, R241). -/

namespace Sys2Proof.Machine

/-! The meaning of each of these events. -/

@[simp] theorem exec_memoryReply (c : Nat) (err : BitVec 2) (line : Nat) (s : State) :
    exec (.memoryReply c err line) s = execMemoryReply c err line s := rfl
@[simp] theorem exec_postedStoreDrain (c : Nat) (s : State) : exec (.postedStoreDrain c) s = .next (s.drainPosted c) := rfl
@[simp] theorem exec_vectorCheckPhaseEnd (c : Nat) (s : State) :
    exec (.vectorCheckPhaseEnd c) s = execVectorCheckPhaseEnd c s := rfl
@[simp] theorem exec_vectorSweepStart (c : Nat) (s : State) : exec (.vectorSweepStart c) s = execVectorSweepStart c s := rfl
@[simp] theorem exec_vectorRowArrival (c row : Nat) (s : State) :
    exec (.vectorRowArrival c row) s = execVectorRowArrival c row s := rfl
@[simp] theorem exec_vectorSweepComplete (c : Nat) (s : State) :
    exec (.vectorSweepComplete c) s = execVectorSweepComplete c s := rfl
@[simp] theorem exec_matrixEntryStart (core : Nat) (s : State) : exec (.matrixEntryStart core) s = execMatrixEntryStart core s := rfl
@[simp] theorem exec_matrixEntryComplete (core : Nat) (residue vreg : Bool) (s : State) :
    exec (.matrixEntryComplete core residue vreg) s = execMatrixEntryComplete core residue vreg s := rfl

/-! Replies and check phases (R122, R185). -/

/-- The reply of an access that the port has served ends the wait; with 3 its line has an error from now on (R122, R500). -/
theorem exec_memoryReply_of_served {s : State} {c : CtxId} (err : BitVec 2) (line : Nat) (waits : (s.ctx c).wait = .reply)
    (served : s.portServed (coreOf c) (s.ctx c).ticket = true) :
    exec (.memoryReply c err line) s = .next ((if err = 3 then s.lineFails (coreOf c) line
      else s.logCorrected (coreOf c) ((s.ctxid c).toNat % 2 ^ 27) line err).modCtx c fun k => { k with wait := .none }) := by
  simp [execMemoryReply, waits, served]

/-- Before the port has served it, the reply tries again (R342). -/
theorem exec_memoryReply_of_unserved {s : State} {c : CtxId} (err : BitVec 2) (line : Nat) (waits : (s.ctx c).wait = .reply)
    (unserved : ¬ s.portServed (coreOf c) (s.ctx c).ticket = true) :
    exec (.memoryReply c err line) s = .next (s.after 1 (.memoryReply c err line)) := by
  simp [execMemoryReply, waits, unserved]

/-- The end of a check phase puts the entry that was under check into its queue (R185). -/
theorem exec_vectorCheckPhaseEnd_of_entry {s : State} {c : CtxId} {e : VEntry} (phase : (s.ctx c).vchk = some e) :
    exec (.vectorCheckPhaseEnd c) s = .next ((s.modCtx c Ctx.checked).enqueue c e) := by
  simp [execVectorCheckPhaseEnd, phase]

theorem exec_vectorCheckPhaseEnd_of_none {s : State} {c : CtxId} (phase : (s.ctx c).vchk = none) :
    exec (.vectorCheckPhaseEnd c) s = .next (s.modCtx c Ctx.checked) := by
  simp [execVectorCheckPhaseEnd, phase]

/-! Writes that reach their die's caches (R124, R350). -/

theorem mem_inOrder {p : PWrite} {ps : List PWrite} : p ∈ inOrder ps ↔ p ∈ ps := by
  cases h : p.atDie <;> simp [inOrder, h]

/-- Where no pending write is selected, none is pushed to its home. -/
theorem State.flush_of_none {s : State} {sel : PWrite → Bool} (unselected : ∀ p ∈ s.pend, sel p = false) : s.flush sel = s := by
  have unpicked : ∀ p ∈ inOrder s.pend, s.picked sel p = false := by
    intro p hp
    simp only [State.picked, unselected p (mem_inOrder.mp hp), Bool.false_or, List.any_eq_false]
    exact fun q hq => by simp [unselected q hq]
  rw [State.flush, List.foldl_ext _ (fun t _ => t) s fun t p hp => if_neg (by simp [unpicked p hp])]
  exact List.foldl_fixed _

/-- A context whose fences and release have published nothing publishes nothing with its write (R356). -/
theorem State.publish_of_none {s : State} {c : CtxId} (addr n : Nat) (pub : (s.ctx c).pub = []) (rel : (s.ctx c).rel = []) :
    s.publish c addr n = s := by
  simp [State.publish, pub, rel]

/-- No write on its way: none reaches the caches. -/
theorem State.reachDie_of_noPend {s : State} (sel : PWrite → Bool) (empty : s.pend = []) : s.reachDie sel = s := by
  have same : ({ s with pend := [] } : State) = s := by rw [← empty]
  simpa [State.reachDie, empty, same] using State.flush_of_none (by simp [empty])

/-- The only write on its way, to a far line, comes into its die's caches (R124, R350). -/
theorem State.reachDie_single {s : State} {p : PWrite} (only : s.pend = [p]) (waits : p.atDie = false) (far : p.near = false)
    (pub : (s.ctx p.owner).pub = []) (rel : (s.ctx p.owner).rel = []) :
    s.reachDie (fun q => decide (q.id = p.id)) = { s with pend := [{ p with atDie := true }] } := by
  have silent := State.publish_of_none (s := { s with pend := [{ p with atDie := true }] }) p.addr p.bytes.length pub rel
  simpa [State.reachDie, only, PWrite.arrives, waits, silent] using State.flush_of_none (by simp [far])

/-- A home that holds no miss serves none (R337). -/
theorem State.serveMisses_of_none {s : State} (line : Nat) (empty : s.misses = []) : s.serveMisses line = s := by
  have same : ({ s with misses := [] } : State) = s := by rw [← empty]
  simp [State.serveMisses, empty, same]

/-- Where no miss is held, a write that is over leaves the list of pending writes, and memory stays. -/
theorem State.endPend_of_noMisses {s : State} (p : PWrite) (empty : s.misses = []) :
    (s.endPend p).pend = s.pend.filter (fun q => q.id ≠ p.id) ∧ (s.endPend p).mem = s.mem := by
  rw [State.endPend]
  generalize hu : ({ s with
    pend := s.pend.filter fun q => q.id ≠ p.id,
    pubs := (s.pubs.map fun e => (e.1, e.2.filter fun x => x.2.2 ≠ p.id)).filter fun e => !e.2.isEmpty } : State) = u
  have noMiss : u.misses = [] := by rw [← hu]; exact empty
  have unchanged : (linesOf p.addr p.bytes.length).foldl State.serveMisses u = u := by
    induction linesOf p.addr p.bytes.length with
    | nil => rfl
    | cons l t ih => rw [List.foldl_cons, State.serveMisses_of_none l noMiss, ih]
  rw [unchanged, ← hu]
  exact ⟨rfl, rfl⟩

/-- A request to a host port changes what the package has sent only (R340). -/
theorem State.portRequest_only (s : State) (did : BitVec 7) (pl : Place) (pa : Nat) (write : Bool) (n : Nat)
    (bytes : List Byte) : s.portRequest did pl pa write n bytes =
      { s with hostOut := (s.portRequest did pl pa write n bytes).hostOut } := by
  unfold State.portRequest
  dsimp only
  split
  · split <;> rfl
  · split <;> rfl
  · rfl

/-! Posted stores (R124). -/

/-- A posted store leaves the store path: into its die's caches, or out to a port or a control block (R124, R340). -/
def State.leavePath (s : State) (p : PWrite) : State :=
  if s.place p.addr = .hbm then s.reachDie fun q => decide (q.id = p.id) else s.sendPosted p

section
variable {s : State} {c : CtxId} {p : PWrite}

theorem State.drainPosted_of_none (idle : s.nextPosted c = none) : s.drainPosted c = s := by
  simp [State.drainPosted, idle]

/-- The next store has not been long enough in the path. -/
theorem State.drainPosted_of_early (next : s.nextPosted c = some p) (early : s.clk < p.leave) :
    s.drainPosted c = s.after (p.leave - s.clk) (.postedStoreDrain c) := by
  simp [State.drainPosted, next, early]

/-- The port has not served the next store (R342). -/
theorem State.drainPosted_of_unserved (next : s.nextPosted c = some p) (due : p.leave ≤ s.clk)
    (unserved : s.portServed (coreOf c) p.ticket = false) : s.drainPosted c = s.after 1 (.postedStoreDrain c) := by
  simp [State.drainPosted, next, Nat.not_lt.mpr due, unserved]

/-- The last store of the path leaves it. -/
theorem State.drainPosted_last (next : s.nextPosted c = some p) (due : p.leave ≤ s.clk)
    (served : s.portServed (coreOf c) p.ticket = true) (last : (s.leavePath p).nextPosted c = none) :
    s.drainPosted c = s.leavePath p := by
  rw [State.leavePath] at last ⊢
  simp [State.drainPosted, next, Nat.not_lt.mpr due, served, last]

/-- After the next store the one behind it leaves 1 clk later at the earliest. -/
theorem State.drainPosted_more {q : PWrite} (next : s.nextPosted c = some p) (due : p.leave ≤ s.clk)
    (served : s.portServed (coreOf c) p.ticket = true) (more : (s.leavePath p).nextPosted c = some q) :
    s.drainPosted c = ({ s.leavePath p with pend := (s.leavePath p).pend.map fun r =>
        if r.id = q.id then { r with leave := Nat.max q.leave ((s.leavePath p).clk + 1) } else r } : State).after
      (Nat.max q.leave ((s.leavePath p).clk + 1) - (s.leavePath p).clk) (.postedStoreDrain c) := by
  rw [State.leavePath] at more ⊢
  simp [State.drainPosted, next, Nat.not_lt.mpr due, served, more]

/-- The only write on its way is the next posted store of its owner. -/
theorem State.nextPosted_of_only (only : s.pend = [p]) (kind : p.kind = .posted) (owner : p.owner = c)
    (waits : p.atDie = false) : s.nextPosted c = some p := by
  simp [State.nextPosted, only, kind, owner, waits]

/-- A posted store in its die's caches is in no store path. -/
theorem State.nextPosted_of_arrived (u : State) (only : u.pend = [{ p with atDie := true }]) : u.nextPosted c = none := by
  simp [State.nextPosted, only]

/-- The only write on its way goes to host memory: it is performed there as it is sent (R340). -/
theorem State.sendPosted_host {port : Nat} (only : s.pend = [p]) (host : s.place p.addr = .host port)
    (empty : s.misses = []) : (s.sendPosted p).pend = [] ∧ (s.sendPosted p).mem = s.mem.writeL p.addr p.bytes := by
  have out : s.sendPosted p = ({ s.portRequest p.did (.host port) p.addr true p.bytes.length p.bytes with
      mem := s.mem.writeL p.addr p.bytes } : State).endPend p := by
    simp [State.sendPosted, host]
  rw [State.portRequest_only] at out
  obtain ⟨pend, mem⟩ := State.endPend_of_noMisses (s := { s with
    hostOut := (s.portRequest p.did (.host port) p.addr true p.bytes.length p.bytes).hostOut,
    mem := s.mem.writeL p.addr p.bytes }) p empty
  rw [out]
  exact ⟨pend.trans (by simp [only]), mem⟩

end
/-- R122, R124, R185: replies, check phases, posted stores and bounded waits. -/
theorem replyClaims : ReplyClaims := by
  intro c line err
  refine ⟨?quiet, ?fails, ?corrected, ⟨?unserved, ?served, ?error, ?clean⟩, ?checked, ?unchecked, ?noStore, ?store, ?arrives,
    ?sent, ?free, ?bounded⟩
  case quiet => exact fun s idle => congrArg Host.Outcome.next ((if_pos idle).trans (if_pos rfl))
  case fails => exact fun s idle => congrArg Host.Outcome.next ((if_pos idle).trans ((if_neg (by decide)).trans (if_pos rfl)))
  case corrected =>
    exact fun s ⟨idle, error, certain⟩ =>
      congrArg Host.Outcome.next ((if_pos idle).trans ((if_neg error).trans (if_neg certain)))
  case unserved => exact fun s ⟨waits, unserved⟩ => exec_memoryReply_of_unserved err line waits unserved
  case served =>
    rintro s ⟨waits, served, certain⟩
    rw [exec_memoryReply_of_served err line waits served, if_neg certain]
  case error => exact fun s ⟨waits, served⟩ => exec_memoryReply_of_served 3 line waits served
  case clean => exact fun s ⟨waits, served⟩ => exec_memoryReply_of_served 0 line waits served
  case checked => exact fun e s phase => exec_vectorCheckPhaseEnd_of_entry phase
  case unchecked => exact fun s phase => exec_vectorCheckPhaseEnd_of_none phase
  case noStore => exact fun s idle => congrArg Host.Outcome.next (State.drainPosted_of_none idle)
  case store =>
    exact fun s p next => ⟨fun early => congrArg Host.Outcome.next (State.drainPosted_of_early next early),
      fun due unserved => congrArg Host.Outcome.next (State.drainPosted_of_unserved next due unserved),
      fun due served => ⟨fun last => congrArg Host.Outcome.next (State.drainPosted_last next due served last),
        fun q more => ⟨_, congrArg Host.Outcome.next (State.drainPosted_more next due served more), rfl, rfl, rfl⟩⟩⟩
  case arrives =>
    intro s p only kind owner waits far due served hbm pub rel
    subst owner
    have next := State.nextPosted_of_only only kind rfl waits
    have left : s.leavePath p = { s with pend := [{ p with atDie := true }] } :=
      (if_pos hbm).trans (State.reachDie_single only waits far pub rel)
    have last : (s.leavePath p).nextPosted p.owner = none := by rw [left]; exact State.nextPosted_of_arrived _ rfl
    exact congrArg Host.Outcome.next ((State.drainPosted_last next due served last).trans left)
  case sent =>
    intro s p port only kind owner waits due served host empty
    have next := State.nextPosted_of_only only kind owner waits
    have left : s.leavePath p = s.sendPosted p := if_neg (by simp [host])
    obtain ⟨pend, mem⟩ := State.sendPosted_host only host empty
    have last : (s.leavePath p).nextPosted c = none := by rw [left, State.nextPosted, pend]; rfl
    exact ⟨_, congrArg Host.Outcome.next ((State.drainPosted_last next due served last).trans left), pend, mem⟩
  case free => exact fun s free => congrArg Host.Outcome.next (if_neg (by simp [free]))
  case bounded => exact fun s bounded => congrArg Host.Outcome.next (if_pos bounded)

/-! A queue that goes on: its next start changes the agenda only. -/

theorem State.ite_soon_ctx (s : State) (p : Prop) [Decidable p] (i : Instr) (q : CtxId) :
    (if p then s else s.soon i).ctx q = s.ctx q := by split <;> rfl
theorem State.ite_soon_core (s : State) (p : Prop) [Decidable p] (i : Instr) (n : CoreId) :
    (if p then s else s.soon i).core n = s.core n := by split <;> rfl
theorem State.ite_soon_mem (s : State) (p : Prop) [Decidable p] (i : Instr) : (if p then s else s.soon i).mem = s.mem := by
  split <;> rfl

/-! Vector queues (R56, R153, R179). -/

/-- Filling a field with ones sets its bits and leaves the others. -/
theorem getLsbD_putSlice_ones {w : Nat} (b : BitVec w) (lo n : Nat) {i : Nat} (hi : i < w) :
    (putSlice b lo n (2 ^ n - 1)).getLsbD i = (b.getLsbD i || decide (lo ≤ i ∧ i < lo + n)) := by
  have pos : 0 < 2 ^ n := Nat.two_pow_pos n
  have field : ((2 ^ n - 1) <<< lo).testBit i = decide (lo ≤ i ∧ i < lo + n) := by
    rw [Nat.testBit_shiftLeft, Nat.testBit_two_pow_sub_one, Bool.eq_iff_iff]
    simp only [Bool.and_eq_true, decide_eq_true_eq]
    omega
  have whole : (2 ^ n - 1) % 2 ^ n = 2 ^ n - 1 := Nat.mod_eq_of_lt (by omega)
  simp only [putSlice, whole, BitVec.getLsbD_or, BitVec.getLsbD_and, BitVec.getLsbD_not, BitVec.getLsbD_ofNat, hi, field,
    decide_true, Bool.true_and]
  cases b.getLsbD i <;> cases decide (lo ≤ i ∧ i < lo + n) <;> rfl

theorem mem_upFrom {a n i : Nat} : i ∈ upFrom a n ↔ a ≤ i ∧ i < a + n := by
  induction n generalizing a with
  | zero => simp [upFrom]
  | succ n ih => simp only [upFrom, List.mem_cons, ih]; omega

/-- Bits of fields that a loop fills with ones. -/
theorem getLsbD_foldl_putSlice_ones {w : Nat} (lo : Nat → Nat) (n : Nat) (rs : List Nat) (b : BitVec w) {i : Nat} (hi : i < w) :
    (rs.foldl (fun b r => putSlice b (lo r) n (2 ^ n - 1)) b).getLsbD i =
      (b.getLsbD i || rs.any fun r => decide (lo r ≤ i ∧ i < lo r + n)) := by
  induction rs generalizing b with
  | nil => simp
  | cons r rs ih => rw [List.foldl_cons, ih, getLsbD_putSlice_ones b (lo r) n hi, List.any_cons, Bool.or_assoc]

/-- The arrival bits of a row are those of its sixteen groups in every register (R153). -/
theorem getLsbD_rowMask {row i : Nat} (hrow : row < 8) (hi : i < 4096) :
    (rowMask row).getLsbD i = decide (i / 16 % 8 = row) := by
  have fields := getLsbD_foldl_putSlice_ones (fun r => r * 128 + row * 16) 16 (upFrom 0 32) (0 : BitVec 4096) hi
  rw [show (0 : BitVec 4096).getLsbD i = false from BitVec.getLsbD_zero, Bool.false_or] at fields
  refine fields.trans (Bool.eq_iff_iff.mpr ?_)
  simp only [List.any_eq_true, mem_upFrom, decide_eq_true_eq]
  constructor
  · rintro ⟨r, -, low, high⟩
    omega
  · intro here
    exact ⟨i / 128, by omega, by omega⟩

/-- A row's groups that an instruction writes are no longer missing; every other group is as it was (R153). -/
theorem Ctx.rowArrival_missing (k : Ctx) (cover : BitVec 4096) {row i : Nat} (hrow : row < 8) (hi : i < 4096) :
    (k.rowArrival cover row).missing.getLsbD i = (k.missing.getLsbD i && !(cover.getLsbD i && decide (i / 16 % 8 = row))) := by
  simp only [Ctx.rowArrival, BitVec.getLsbD_and, BitVec.getLsbD_not, hi, decide_true, Bool.true_and, getLsbD_rowMask hrow hi]

section
variable {s : State} {c : CtxId} {e : VEntry} {t : List VEntry}

@[simp] theorem State.useLanes_ctx (s : State) (c q : CtxId) : (s.useLanes c).ctx q = s.ctx q := rfl
@[simp] theorem State.useLanes_mem (s : State) (c : CtxId) : (s.useLanes c).mem = s.mem := rfl
@[simp] theorem State.useLanes_pend (s : State) (c : CtxId) : (s.useLanes c).pend = s.pend := rfl

/-- A load that nothing has read yet takes its values as it starts (R352). -/
def State.takeLoad (s : State) (c : CtxId) (e : VEntry) : State :=
  match e.load with
  | some l => s.fixLoad c l
  | none => s

/-- The head of a vector queue has started. -/
def State.startVector (s : State) (c : CtxId) (e : VEntry) : State :=
  (((s.takeLoad c e).useLanes c).modCtx c Ctx.loadsFixed).modCtx c Ctx.startHead

/-- The head of a vector queue has completed and left it. -/
def State.endVector (s : State) (c : CtxId) (e : VEntry) (t : List VEntry) : State :=
  ((s.useLanes c).completeVector c e).modCtx c fun k => { k with vq := t }

/-- An empty queue has no head to start, to bring a row or to complete. -/
theorem exec_vector_of_empty (row : Nat) (empty : (s.ctx c).vq = []) {i : Instr}
    (h : i ∈ [Instr.vectorSweepStart c, .vectorRowArrival c row, .vectorSweepComplete c]) : exec i s = .next s := by
  simp only [List.mem_cons, List.not_mem_nil, or_false] at h
  obtain rfl | rfl | rfl := h
  · simp [execVectorSweepStart, empty]
  · simp [execVectorRowArrival, empty]
  · simp [execVectorSweepComplete, empty]

theorem exec_vectorSweepStart_of_started (head : (s.ctx c).vq = e :: t) (started : e.started = true) :
    exec (.vectorSweepStart c) s = .next s := by
  simp [execVectorSweepStart, head, started]

theorem exec_vectorSweepStart_of_unready (head : (s.ctx c).vq = e :: t) (fresh : e.started = false)
    (unready : s.sweepReady c e = false) : exec (.vectorSweepStart c) s = .next (s.after 1 (.vectorSweepStart c)) := by
  simp [execVectorSweepStart, head, fresh, unready]

/-- The head that is ready starts (R179). -/
theorem exec_vectorSweepStart_of_ready (head : (s.ctx c).vq = e :: t) (fresh : e.started = false)
    (ready : s.sweepReady c e = true) : exec (.vectorSweepStart c) s =
      .next ((s.startVector c e).soon (if e.rows = 0 then .vectorSweepComplete c else .vectorRowArrival c 0)) := by
  simp only [exec_vectorSweepStart, execVectorSweepStart, head, fresh, ready, Bool.false_eq_true, if_false, Bool.not_true]
  split <;> rfl

/-- An instruction that does not load starts with its groups missing, and the loads behind it have their values (R153, R352). -/
theorem State.startVector_of_noLoad (head : (s.ctx c).vq = e :: t) (noLoad : e.load = none) :
    ((s.startVector c e).ctx c).vq = { e with started := true } :: t.map VEntry.fixed ∧
      ((s.startVector c e).ctx c).missing = (s.ctx c).missing ||| e.cover ∧ (s.startVector c e).mem = s.mem := by
  have taken : s.takeLoad c e = s := by rw [State.takeLoad, noLoad]
  have fixed : e.fixed = e := by rw [VEntry.fixed, ← noLoad]
  have ctx : (s.startVector c e).ctx c = (s.ctx c).loadsFixed.startHead := by simp [State.startVector, taken]
  have mem : (s.startVector c e).mem = s.mem := by simp [State.startVector, taken]
  simp [ctx, mem, Ctx.loadsFixed, Ctx.startHead, head, fixed]

/-- The rows of the head arrive one after the other, 8 clk apart (R153). -/
theorem exec_vectorRowArrival_of_started (row : Nat) (head : (s.ctx c).vq = e :: t) (started : e.started = true) :
    exec (.vectorRowArrival c row) s =
      .next (if row + 1 < e.rows then
          ((s.useLanes c).modCtx c fun k => k.rowArrival e.cover row).after 8 (.vectorRowArrival c (row + 1))
        else ((s.useLanes c).modCtx c fun k => k.rowArrival e.cover row).after 1 (.vectorSweepComplete c)) := by
  simp [execVectorRowArrival, head, started]

theorem exec_vectorSweepComplete_of_started (head : (s.ctx c).vq = e :: t) (started : e.started = true) :
    exec (.vectorSweepComplete c) s =
      .next (if t = [] then s.endVector c e t else (s.endVector c e t).soon (.vectorSweepStart c)) := by
  cases t <;> simp [execVectorSweepComplete, State.endVector, head, started]

/-- Before the head has started, none of its rows arrives and it does not complete. -/
theorem exec_vectorRowArrival_of_fresh (row : Nat) (head : (s.ctx c).vq = e :: t) (fresh : e.started = false) :
    exec (.vectorRowArrival c row) s = .next s := by
  simp [execVectorRowArrival, head, fresh]

theorem exec_vectorSweepComplete_of_fresh (head : (s.ctx c).vq = e :: t) (fresh : e.started = false) :
    exec (.vectorSweepComplete c) s = .next s := by
  simp [execVectorSweepComplete, head, fresh]

/-- With no write on its way, an instruction that completes changes its context alone (R56). -/
theorem State.completeVector_of_noPend (e : VEntry) (empty : s.pend = []) : s.completeVector c e = s.modCtx c fun k =>
    { k with fstat := k.fstat ||| e.flags, missing := k.missing &&& ~~~e.cover,
             pendMc := match e.mc with
               | some v => some v
               | none => k.pendMc } :=
  State.reachDie_of_noPend _ empty

/-- With no write on its way, the head completes in its context alone: its flags, its groups and its machine check (R56). -/
theorem State.endVector_of_noPend (empty : s.pend = []) :
    (s.endVector c e t).mem = s.mem ∧ (s.endVector c e t).ctx c = { s.ctx c with
      fstat := (s.ctx c).fstat ||| e.flags, missing := (s.ctx c).missing &&& ~~~e.cover, vq := t,
      pendMc := match e.mc with
        | some v => some v
        | none => (s.ctx c).pendMc } := by
  rw [State.endVector, State.completeVector_of_noPend (s := s.useLanes c) e empty]
  exact ⟨rfl, by simp⟩

end

/-- R56, R153, R179: the head of a vector queue starts, its rows arrive, and it completes. -/
theorem vectorQueueClaims : VectorQueueClaims := by
  intro c row
  refine ⟨fun i hi s empty => exec_vector_of_empty row empty hi, fun e t s head => ?_,
    fun k cover i hrow hi => k.rowArrival_missing cover hrow hi⟩
  refine ⟨exec_vectorSweepStart_of_started head, exec_vectorSweepStart_of_unready head, exec_vectorSweepStart_of_ready head,
    fun fresh ready noLoad => ⟨_, exec_vectorSweepStart_of_ready head fresh ready, State.startVector_of_noLoad head noLoad⟩,
    fun fresh => ⟨exec_vectorRowArrival_of_fresh row head fresh, exec_vectorSweepComplete_of_fresh head fresh⟩,
    fun started => ⟨exec_vectorRowArrival_of_started row head started, exec_vectorSweepComplete_of_started head started,
      fun _ empty => ⟨_, exec_vectorSweepComplete_of_started head started, ?_⟩⟩⟩
  obtain ⟨mem, ctx⟩ := State.endVector_of_noPend (e := e) (t := t) (c := c) empty
  rw [State.ite_soon_ctx, State.ite_soon_mem, ctx, mem]
  exact ⟨rfl, rfl, rfl, rfl, fun v mc => by simp [mc], fun mc => by simp [mc]⟩

/-! Matrix queues (R236, R237, R241). -/

theorem Core.tileRow_setTileRow_same (k : Core) {n i : Nat} (v : BitVec 2048) (h : n * 128 + i < 512) :
    (k.setTileRow n i v).tileRow n i = v := by
  simp [Core.tileRow, Core.setTileRow, h]

theorem Core.tileRow_setTileRow_ne (k : Core) (n : Nat) {i j : Nat} (v : BitVec 2048) (h : j ≠ i) :
    (k.setTileRow n i v).tileRow n j = k.tileRow n j := by
  have apart : n * 128 + i ≠ n * 128 + j := by omega
  simp only [Core.tileRow, Core.setTileRow]
  split
  · exact Vector.getElem_setIfInBounds_ne _ apart
  · rfl

/-- A row outside those that a write covers stays. -/
theorem Core.tileRow_mapTile_outside (n : Nat) (f : Nat → BitVec 2048) {j : Nat} (k : Core) (lo cnt : Nat)
    (h : j < lo ∨ lo + cnt ≤ j) : (k.mapTile n lo cnt f).tileRow n j = k.tileRow n j := by
  induction cnt generalizing k lo with
  | zero => rfl
  | succ cnt ih =>
    exact (ih (k.setTileRow n lo (f lo)) (lo + 1) (by omega)).trans (k.tileRow_setTileRow_ne n (f lo) (by omega))

/-- A row that a write covers holds what is written there. -/
theorem Core.tileRow_mapTile_inside {n : Nat} (f : Nat → BitVec 2048) {j : Nat} (inTile : n * 128 + j < 512) (k : Core)
    (lo cnt : Nat) (low : lo ≤ j) (high : j < lo + cnt) : (k.mapTile n lo cnt f).tileRow n j = f j := by
  induction cnt generalizing k lo with
  | zero => omega
  | succ cnt ih =>
    by_cases first : j = lo
    · subst first
      exact (Core.tileRow_mapTile_outside n f _ (j + 1) cnt (by omega)).trans (k.tileRow_setTileRow_same (f j) inTile)
    · exact ih (k.setTileRow n lo (f lo)) (lo + 1) (by omega) (by omega)

section
variable {e : MEntry}

/-- An entry that meets no failed check does what its operation does, and ORs its flags into MSTAT (R237). -/
theorem Core.completeEntry_of_sound (k : Core) {residue vreg : Bool} (noResidue : (residue && e.op.tile.isSome) = false)
    (noVreg : vreg = false) : k.completeEntry e residue vreg =
      { (k.applyMOp e.op).1 with mstat := (k.applyMOp e.op).1.mstat ||| (k.applyMOp e.op).2.zeroExtend 64 } := by
  cases tile : e.op.tile with
  | none => simp [Core.completeEntry, tile]
  | some n =>
    have sound : residue = false := by simpa [tile] using noResidue
    simp [Core.completeEntry, tile, sound, noVreg]

/-- A failed residue or parity check sets RES (R241). -/
theorem Core.completeEntry_mstat_res (k : Core) {n : Nat} (vreg : Bool) (tile : e.op.tile = some n) :
    (k.completeEntry e true vreg).mstat.getLsbD 5 = true := by
  simp [Core.completeEntry, tile]

/-- A failed check leaves all ones in the rows of the tile (R241). -/
theorem Core.completeEntry_tileRow (k : Core) {residue vreg : Bool} {n i : Nat} (tile : e.op.tile = some n) (hn : n < 4)
    (hrows : e.rows ≤ 128) (failed : (residue || vreg) = true) (hi : i < e.rows) :
    (k.completeEntry e residue vreg).tileRow n i = BitVec.allOnes 2048 := by
  have acc : (k.completeEntry e residue vreg).acc = ((k.applyMOp e.op).1.mapTile n 0 e.rows fun _ => BitVec.allOnes 2048).acc := by
    simp only [Core.completeEntry, tile, failed, if_true]
  have ones := Core.tileRow_mapTile_inside (n := n) (fun _ => BitVec.allOnes 2048) (by omega) (k.applyMOp e.op).1 0 e.rows
    (Nat.zero_le i) (by omega)
  rwa [Core.tileRow, ← acc] at ones

end

@[simp] theorem State.useArray_core (s : State) (core n : CoreId) : (s.useArray core).core n = s.core n := rfl
@[simp] theorem State.useArray_mem (s : State) (core : CoreId) : (s.useArray core).mem = s.mem := rfl

/-- An error record leaves the array of every core (R498). -/
@[simp] theorem State.logError_core (s : State) (die kind cls idx ctx addr synd : Nat) (n : CoreId) :
    (s.logError die kind cls idx ctx addr synd).core n = s.core n := by
  simp only [State.logError, State.core]

@[simp] theorem State.residueFailed_core (s : State) (core n : CoreId) (e : MEntry) :
    (s.residueFailed core e).core n = s.core n := by
  simp [State.residueFailed]
@[simp] theorem State.vregFailed_core (s : State) (core n : CoreId) (e : MEntry) : (s.vregFailed core e).core n = s.core n := by
  simp [State.vregFailed]
theorem State.residueFailed_pendMc (s : State) (core : CoreId) (e : MEntry) :
    ((s.residueFailed core e).ctx e.owner).pendMc = some e.pc := by simp [State.residueFailed, State.raiseMc]
theorem State.vregFailed_pendMc (s : State) (core : CoreId) (e : MEntry) :
    ((s.vregFailed core e).ctx e.owner).pendMc = some e.pc := by simp [State.vregFailed, State.raiseMc]

/-- The head of a matrix queue has completed and left it; what failed has been reported (R237, R241). -/
def State.endMatrix (s : State) (core : CoreId) (e : MEntry) (t : List MEntry) (residue vreg : Bool) : State :=
  let done := (s.useArray core).modCore core fun k => { k.completeEntry e residue vreg with mq := t }
  let checked := if residue && e.op.tile.isSome then done.residueFailed core e else done
  if vreg then checked.vregFailed core e else checked

section
variable {s : State} {core : CoreId} {e : MEntry} {t : List MEntry}

/-- The reports of what failed leave the array. -/
theorem State.endMatrix_core (residue vreg : Bool) : (s.endMatrix core e t residue vreg).core core =
    { (s.core core).completeEntry e residue vreg with mq := t } := by
  simp only [State.endMatrix]
  split <;> split <;> simp

/-- A failed check is a machine check of the issuing context at the address of the instruction (R241). -/
theorem State.endMatrix_pendMc {residue vreg : Bool} (failed : ((residue && e.op.tile.isSome) || vreg) = true) :
    ((s.endMatrix core e t residue vreg).ctx e.owner).pendMc = some e.pc := by
  cases vreg with
  | true => exact State.vregFailed_pendMc _ core e
  | false =>
    have residueFailed : (residue && e.op.tile.isSome) = true := by simpa using failed
    simp only [State.endMatrix, residueFailed, if_true, Bool.false_eq_true, if_false]
    exact State.residueFailed_pendMc _ core e

/-- Without a failed check nothing is recorded. -/
theorem State.endMatrix_mem {residue vreg : Bool} (noResidue : (residue && e.op.tile.isSome) = false) (noVreg : vreg = false) :
    (s.endMatrix core e t residue vreg).mem = s.mem := by
  simp [State.endMatrix, noResidue, noVreg]

/-- An empty queue has no entry to start or to complete. -/
theorem exec_matrix_of_empty (residue vreg : Bool) (empty : (s.core core).mq = []) {i : Instr}
    (h : i ∈ [Instr.matrixEntryStart core, .matrixEntryComplete core residue vreg]) : exec i s = .next s := by
  simp only [List.mem_cons, List.not_mem_nil, or_false] at h
  obtain rfl | rfl := h
  · simp [execMatrixEntryStart, empty]
  · simp [execMatrixEntryComplete, empty]

/-- The head starts (R236). -/
theorem exec_matrixEntryStart_of_fresh (head : (s.core core).mq = e :: t) (fresh : e.started = false) :
    exec (.matrixEntryStart core) s = .next (((s.useArray core).modCore core fun k =>
      { k with mq := { e with started := true } :: t }).soon (.matrixEntryComplete core false false)) := by
  simp [execMatrixEntryStart, head, fresh]

theorem exec_matrixEntryStart_of_started (head : (s.core core).mq = e :: t) (started : e.started = true) :
    exec (.matrixEntryStart core) s = .next s := by
  simp [execMatrixEntryStart, head, started]

theorem exec_matrixEntryComplete_of_fresh (residue vreg : Bool) (head : (s.core core).mq = e :: t) (fresh : e.started = false) :
    exec (.matrixEntryComplete core residue vreg) s = .next s := by
  simp [execMatrixEntryComplete, head, fresh]

/-- The head completes, and the entry behind it may start (R237). -/
theorem exec_matrixEntryComplete_of_started (residue vreg : Bool) (head : (s.core core).mq = e :: t)
    (started : e.started = true) : exec (.matrixEntryComplete core residue vreg) s =
      .next (if t = [] then s.endMatrix core e t residue (vreg && e.op.readsVector)
        else (s.endMatrix core e t residue (vreg && e.op.readsVector)).soon (.matrixEntryStart core)) := by
  cases t <;> simp [execMatrixEntryComplete, State.endMatrix, head, started]

end

/-- R236, R237, R241: the head of a matrix queue starts and completes, and what a failed check leaves. -/
theorem matrixQueueClaims : MatrixQueueClaims := by
  intro core residue vreg
  refine ⟨fun i hi s empty => exec_matrix_of_empty residue vreg empty hi, fun e t s head => ?_⟩
  refine ⟨exec_matrixEntryStart_of_started head, exec_matrixEntryComplete_of_fresh residue vreg head,
    exec_matrixEntryStart_of_fresh head, fun started => ⟨_, exec_matrixEntryComplete_of_started residue vreg head started, ?_⟩⟩
  rw [State.ite_soon_core, State.ite_soon_mem, State.ite_soon_ctx, State.endMatrix_core]
  refine ⟨rfl, fun noResidue noVreg => ?sound, fun failed => State.endMatrix_pendMc failed, fun n tile hn hrows failed => ?failed⟩
  case sound =>
    rw [State.endMatrix_mem noResidue noVreg, Core.completeEntry_of_sound _ noResidue noVreg]
    exact ⟨rfl, rfl, rfl, rfl, rfl⟩
  case failed =>
    refine ⟨fun res => ?_, fun i hi => Core.completeEntry_tileRow _ tile hn hrows failed hi⟩
    subst res
    exact Core.completeEntry_mstat_res _ _ tile

end Sys2Proof.Machine

/-! The statements of spec/02_number_formats.md. -/

namespace Sys2Proof.Proofs

open Sys2Proof.Machine

/-- Settles O37: each event by the lemma that says what it answers in the state of its queue, its wait or its store path. -/
theorem queueEvents : Obligations.QueueEvents := ⟨replyClaims, vectorQueueClaims, matrixQueueClaims⟩

end Sys2Proof.Proofs

/-! Checks at issue and predicated words (R86-R88, R457). -/

namespace Sys2Proof.Machine

/-! Which check decides (R87). -/

section

variable {s : State} {w : BitVec 32}

/-- The first check of R87 stops a word: it makes no legal pair with the pending prefix (R86), it lacks the lanes that R21 asks
for, or a context state forbids it. -/
def State.wordIllegal (s : State) (w : BitVec 32) (bad : Bool) : Bool :=
  (s.here.pfx.any fun p => !pairLegal s.here p.word w) || (isVectorWord w && !s.here.isVector) || bad

/-- The second check of R87 stops a word: in U or S, FEATMASK has the bit that covers it clear (R89). -/
def State.wordMasked (s : State) (w : BitVec 32) : Bool :=
  (decide (s.here.mode = .u) || decide (s.here.mode = .s)) &&
    (featBit w).any fun n => !bit (s.featmask.toList.getD (s.part s.cur) 0) n

/-- The third check of R87 stops a word: the table of its die omits it, and it has not passed that check before (R494). -/
def State.wordOmitted (s : State) (w : BitVec 32) : Bool :=
  decide (expansionCode w ∈ (s.die (dieOf s.cur)).omitted) && decide (s.here.passed ≠ some s.here.pc)

/-- The pending prefix is one that an ERET has restored and that is no legal prefix of the word (R86, R398). -/
def State.prefixRefused (s : State) (w : BitVec 32) : Bool :=
  s.here.pfx.any fun p => p.restored && !(pfxLegal p.word && pairLegal s.here p.word w)

/-- The checks at issue in their order: that of a restored PFX, which R87 counts with the first, the three of R87, and that of a
fenced unit (R506). -/
theorem State.issueCheck_eq (s : State) (w : BitVec 32) (bad : Bool) : s.issueCheck w bad =
    if s.prefixRefused w then some (mkTrap 0 (((s.here.pfx.map Prefix.word).getD 0).zeroExtend 64))
    else if s.wordIllegal w bad then some (mkTrap 0 (w.zeroExtend 64))
    else if s.wordMasked w then some (mkTrap 1 (w.zeroExtend 64))
    else if s.wordOmitted w then
      if (decide (s.here.mode = .h) || decide (s.here.mode = .m)) || decide (slotOf s.cur = 7) then
        some (mkTrap 0 (w.zeroExtend 64))
      else some (mkTrap 2 (w.zeroExtend 64))
    else (s.fencedUse s.cur w).map (mkTrap 20) := by
  simp only [State.issueCheck, State.prefixRefused, State.wordIllegal, State.wordMasked, State.wordOmitted, State.here]
  -- Both sides make the same tests once it is known whether a unit is fenced, a FEATMASK bit covers the word and a prefix
  -- is pending.
  obtain fenced | ⟨v, fenced⟩ := (s.fencedUse s.cur w).eq_none_or_eq_some
  all_goals obtain feature | ⟨n, feature⟩ := (featBit w).eq_none_or_eq_some
  all_goals obtain pending | ⟨p, pending⟩ := (s.ctx s.cur).pfx.eq_none_or_eq_some
  all_goals
    simp only [fenced, feature, pending, Option.any_none, Option.any_some, Option.map_none, Option.map_some]
    congr

theorem State.prefixRefused_eq_false (fresh : ∀ p, s.here.pfx = some p → p.restored = false) : s.prefixRefused w = false := by
  rw [State.prefixRefused, Option.any_eq_false]
  intro p pending
  rw [fresh p pending, Bool.false_and]

theorem State.wordIllegal_iff {bad : Bool} : s.wordIllegal w bad = true ↔ bad = true ∨
    (isVectorWord w = true ∧ s.here.lanes = 0) ∨ ∃ p, s.here.pfx = some p ∧ pairLegal s.here p.word w = false := by
  simp only [State.wordIllegal, Ctx.isVector, Bool.or_eq_true, Bool.and_eq_true, Option.any_eq_true, Bool.not_eq_true',
    decide_eq_false_iff_not, not_not, or_assoc]
  rw [or_comm, or_assoc, or_left_comm]

theorem State.wordIllegal_eq_false {bad : Bool} (allowed : bad = false) (lanes : isVectorWord w = true → s.here.lanes ≠ 0)
    (pair : ∀ p, s.here.pfx = some p → pairLegal s.here p.word w = true) : s.wordIllegal w bad = false := by
  rw [← Bool.not_eq_true, State.wordIllegal_iff]
  rintro (forbidden | ⟨vector, scalar⟩ | ⟨p, pending, mismatched⟩)
  · exact Bool.false_ne_true (allowed.symm.trans forbidden)
  · exact lanes vector scalar
  · exact Bool.false_ne_true (mismatched.symm.trans (pair p pending))

theorem State.wordMasked_iff : s.wordMasked w = true ↔ (s.here.mode = .u ∨ s.here.mode = .s) ∧
    ∃ n, featBit w = some n ∧ (s.featmask.toList.getD (s.part s.cur) 0).getLsbD n = false := by
  simp only [State.wordMasked, bit, Bool.and_eq_true, Bool.or_eq_true, decide_eq_true_iff, Option.any_eq_true, Bool.not_eq_true']

theorem State.wordMasked_eq_false (h : s.here.mode = .h ∨ s.here.mode = .m ∨ featBit w = none ∨
    ∃ n, featBit w = some n ∧ (s.featmask.toList.getD (s.part s.cur) 0).getLsbD n = true) : s.wordMasked w = false := by
  rw [← Bool.not_eq_true, State.wordMasked_iff]
  rintro ⟨mode, n, covered, clear⟩
  obtain high | high | uncovered | ⟨n', covered', set⟩ := h
  · simp [high] at mode
  · simp [high] at mode
  · simp [uncovered] at covered
  · obtain rfl : n = n' := Option.some.inj (covered.symm.trans covered')
    exact Bool.false_ne_true (clear.symm.trans set)

theorem State.wordOmitted_iff : s.wordOmitted w = true ↔
    expansionCode w ∈ (s.die (dieOf s.cur)).omitted ∧ s.here.passed ≠ some s.here.pc := by
  simp only [State.wordOmitted, Bool.and_eq_true, decide_eq_true_iff]

/-- No word uses a fenced unit of a die that has none. -/
theorem State.fencedUse_of_unfenced {c : CtxId} (h : (s.die (dieOf c)).fenced = []) : s.fencedUse c w = none := by
  have none_fenced : ((unitsOf c (s.ctx c) w).find? fun u => decide (u ∈ (s.die (dieOf c)).fenced)) = none := by simp [h]
  simp only [State.fencedUse, none_fenced]

end

/-- R86-R88: each check decides when those before it pass, and the queues settle before its trap. -/
theorem checkOrderClaims : CheckOrderClaims := by
  intro s w bad go c illegal fresh
  refine ⟨fun fails => ?illegal, fun allowed lanes pair => ?legal, fun t failed => State.issueIf_trap s w bad go t failed⟩
  all_goals rw [State.issueCheck_eq, State.prefixRefused_eq_false fresh, if_neg Bool.false_ne_true]
  case illegal => rw [if_pos (State.wordIllegal_iff.mpr fails)]
  case legal =>
    rw [State.wordIllegal_eq_false allowed lanes pair, if_neg Bool.false_ne_true]
    refine ⟨fun n covered mode clear => if_pos (State.wordMasked_iff.mpr ⟨mode, n, covered, clear⟩), fun unmasked => ?_⟩
    rw [State.wordMasked_eq_false unmasked, if_neg Bool.false_ne_true]
    refine ⟨fun omitted unpassed => ?omitted, fun listed unfenced => ?listed⟩
    case omitted =>
      rw [if_pos (State.wordOmitted_iff.mpr ⟨omitted, unpassed⟩)]
      refine ⟨fun high => if_pos (by simpa [or_assoc] using high), fun low slot => if_neg ?_⟩
      obtain mode | mode := low <;> simp [mode, show slotOf s.cur ≠ 7 from slot]
    case listed =>
      have passes : ¬ s.wordOmitted w = true := by
        rw [State.wordOmitted_iff, not_and, not_not]
        exact listed.resolve_left ∘ not_not.mpr
      rw [if_neg passes, State.fencedUse_of_unfenced unfenced, Option.map_none]

/-! Predicates (R457). -/

section

variable {s : State} {c : CtxId} {w : BitVec 32} {go : CtxId → Ctx → State → State}

/-- A word whose condition is false and that takes no trap of a check at issue only retires. -/
theorem State.skipped_of_not_trapped (h : s.issueTrapped (go c (s.ctx c) s) c = false) : s.skipped c w go = s.retire c := by
  simp [State.skipped, h]

/-- A trap that only the comparison of VREST gives is not taken (R199). -/
theorem State.skipped_of_compares (h : (s.ctx c).compares w = true) : s.skipped c w go = s.retire c := by
  simp [State.skipped, h]

/-- A word whose condition is false takes the trap of a check at issue. -/
theorem State.skipped_of_trapped (trapped : s.issueTrapped (go c (s.ctx c) s) c = true)
    (h : (s.ctx c).compares w = false) : s.skipped c w go = go c (s.ctx c) s := by
  simp [State.skipped, trapped, h]

/-- A context whose count of traps has not grown has taken no trap. -/
theorem State.issueTrapped_of_le {t : State} (h : (t.ctx c).traps ≤ (s.ctx c).traps) : s.issueTrapped t c = false := by
  simp [State.issueTrapped, Nat.not_lt.mpr h]

theorem State.issueTrapped_iff {t : State} : s.issueTrapped t c = true ↔
    (s.ctx c).traps < (t.ctx c).traps ∧ ((t.ctx c).bank (t.ctx c).mode).code.toNat ∈ [3, 4, 18] := by
  rw [State.issueTrapped, Bool.and_eq_true, decide_eq_true_iff, decide_eq_true_iff]

end

/-- The group factor and the element width of FORM as digits of its number (R27). -/
theorem form_fields (f : BitVec 14) :
    (f.extractLsb' 2 2).toNat = f.toNat / 4 % 4 ∧ (f.extractLsb' 0 2).toNat = f.toNat % 4 := by
  simp [Nat.shiftRight_eq_div_pow]

theorem Ctx.compares_iff (k : Ctx) (w : BitVec 32) : k.compares w = true ↔ majorOf w = 0x26 ∧ opOf w = 8 ∧
    k.vl ≤ 64 * k.lanes * 2 ^ (k.form.extractLsb' 2 2).toNat / 2 ^ (k.form.extractLsb' 0 2).toNat := by
  obtain ⟨high, low⟩ := form_fields k.form
  simp [Ctx.compares, high, low, and_assoc]

/-- A field of a word, cut out again from its number. -/
theorem ofNat_fieldOf (w : BitVec 32) (lo n : Nat) : BitVec.ofNat n (fieldOf w lo n) = w.extractLsb' lo n := by
  rw [fieldOf, BitVec.ofNat_toNat, BitVec.setWidth_eq]

/-- A field of one bit is 1 when the bit is set. -/
theorem fieldOf_one (w : BitVec 32) (lo : Nat) : fieldOf w lo 1 = 1 ↔ w.getLsbD lo = true := by
  simp [fieldOf, BitVec.getLsbD, Nat.testBit_eq_decide_div_mod_eq, Nat.shiftRight_eq_div_pow]

theorem fieldOf_eq_iff (w : BitVec 32) (lo n : Nat) (v : BitVec n) : fieldOf w lo n = v.toNat ↔ w.extractLsb' lo n = v :=
  BitVec.toNat_inj

theorem Ctx.copyReg_of_copies {k : Ctx} {p : Prefix} (pending : k.pfx = some p) (copies : p.word.getLsbD 12 = true) :
    k.copyReg = some (p.word.extractLsb' 13 5) := by
  have one : p.word.extractLsb' 12 1 = 1 := BitVec.eq_of_toNat_eq ((fieldOf_one p.word 12).mpr copies)
  simp only [Ctx.copyReg, pending, one, if_true]

theorem Ctx.wxCopy_of_copies (k : Ctx) (d : BitVec 5) (v : Word) {p : Prefix} (pending : k.pfx = some p)
    (copies : p.word.getLsbD 12 = true) : k.wxCopy d v = (k.wx d v).wx (p.word.extractLsb' 13 5) v := by
  simp only [Ctx.wxCopy, Ctx.copyReg_of_copies pending copies]

/-- The condition of a prefix by its kind, inverted by bit 18. -/
theorem Ctx.pfxCond_eq (k : Ctx) (p : BitVec 32) : k.pfxCond p =
    ((if p.extractLsb' 24 2 = 0 then true else if p.extractLsb' 24 2 = 1 then decide (k.rx (p.extractLsb' 19 5) ≠ 0)
      else if p.extractLsb' 24 2 = 2 then decide (k.rx (p.extractLsb' 19 5) = 0)
      else k.anyMask (p.extractLsb' 19 5).toNat) != p.getLsbD 18) := by
  simp only [Ctx.pfxCond, fieldOf_one, ofNat_fieldOf, ← fieldOf_eq_iff]
  cases p.getLsbD 18 with
  | false => rw [Bool.bne_false, if_neg Bool.false_ne_true]; rfl
  | true => rw [Bool.bne_true, if_pos rfl]; rfl

/-- R86, R457: what a word whose condition is false does, the conditions, and the copy register. -/
theorem predicateClaims : PredicateClaims := by
  refine ⟨fun s w bad go p pending passes single ready cond => ?skip, fun k p => ?conditions,
    fun s c d v p pending copies => ?copy⟩
  case skip =>
    intro t
    have skips := State.issueIf_skip s w bad go p passes single ready pending cond
    have here : (s.issued w).ctx s.cur = s.here := by simp [State.here]
    have acts : go s.cur ((s.issued w).ctx s.cur) (s.issued w) = t := by rw [here]
    rw [skips]
    refine ⟨rfl, fun kept => ?untrapped, fun trapped cause other => ?trapped, fun compares => ?compares,
      s.here.compares_iff w⟩
    case untrapped => exact State.skipped_of_not_trapped (State.issueTrapped_of_le (by rw [acts, here]; exact kept))
    case trapped =>
      have takes : (s.issued w).issueTrapped t s.cur = true := State.issueTrapped_iff.mpr ⟨here ▸ trapped, cause⟩
      rw [State.skipped_of_trapped (acts ▸ takes) (here ▸ other), acts]
    case compares => exact State.skipped_of_compares (here ▸ compares)
  case conditions =>
    intro r inv
    rw [k.pfxCond_eq]
    refine ⟨fun h => ?_, fun h => ?_, fun h => ?_, fun h => ?_⟩ <;> simp [h, r, inv]
  case copy =>
    rw [State.retireX_ctx_same]
    refine ⟨?_, Ctx.retired_pfx _⟩
    rw [Ctx.retired_x, Ctx.wxCopy_of_copies _ _ _ pending copies]

end Sys2Proof.Machine

/-! The statements of spec/03_encoding_and_opcode_map.md. -/

namespace Sys2Proof.Proofs

open Sys2Proof.Machine

/-- Settles O48: the order of the checks by the check that fails first, and predicated words by what skipping a word can do. -/
theorem checkOrder : Obligations.CheckOrder := ⟨checkOrderClaims, predicateClaims⟩

end Sys2Proof.Proofs

/-! Scalar integer instructions (R96-R101). -/

namespace Sys2Proof.Machine

/-! An instruction that issues its word and retires with a result. -/

/-- An instruction that retires with a value of its context in x[d] writes it (R96); the value may be stated in another form. -/
theorem writesX_of_issue {i : Instr} {d : BitVec 5} {v w : Ctx → Word}
    (h : ∀ s, exec i s = .next (s.issue (encode i) fun c k s => s.retireX c d (v k))) (value : ∀ k, v k = w k) :
    WritesX i d w :=
  acts_of_issue h fun s _ => by rw [value]

/-- A division retires with its value and keeps its context from issuing (R132). -/
theorem acts_of_issueBusy {i : Instr} {d : BitVec 5} {n : Nat} {v : Ctx → Word} {w : State → Word}
    (h : ∀ s, exec i s = .next (s.issue (encode i) fun c k s => (s.retireX c d (v k)).busy c n))
    (value : ∀ s : State, v s.here = w s) :
    Acts i (fun _ => True) fun s => s.heldFor s.cur n (s.retireX s.cur d (w s)) :=
  acts_of_issue h fun s _ => by rw [value]; rfl

/-! Values of the three-register group (R96). -/

theorem ofBool_eq_ite (p : Prop) [Decidable p] : ofBool (decide p) = if p then 1 else 0 := by
  simp [ofBool]

theorem ofBool_slt (x y : Word) : ofBool (x.slt y) = if x.toInt < y.toInt then 1 else 0 := by
  rw [BitVec.slt, ofBool_eq_ite]

theorem ofBool_ult (x y : Word) : ofBool (x.ult y) = if x.toNat < y.toNat then 1 else 0 := by
  rw [BitVec.ult, ofBool_eq_ite]

/-- A choice between two words is the word of the choice between their numbers. -/
theorem ofInt_ite (p : Prop) [Decidable p] (x y : Word) :
    (if p then x else y) = BitVec.ofInt 64 (if p then x.toInt else y.toInt) := by
  split <;> simp

theorem ofNat_ite (p : Prop) [Decidable p] (x y : Word) :
    (if p then x else y) = BitVec.ofNat 64 (if p then x.toNat else y.toNat) := by
  split <;> simp

theorem min_signed (x y : Word) : (if y.slt x then y else x) = BitVec.ofInt 64 (min x.toInt y.toInt) := by
  rw [ofInt_ite]
  simp only [BitVec.slt_iff_toInt_lt]
  congr 1
  omega

theorem max_signed (x y : Word) : (if x.slt y then y else x) = BitVec.ofInt 64 (max x.toInt y.toInt) := by
  rw [ofInt_ite]
  simp only [BitVec.slt_iff_toInt_lt]
  congr 1
  omega

theorem min_unsigned (x y : Word) : (if y.ult x then y else x) = BitVec.ofNat 64 (min x.toNat y.toNat) := by
  rw [ofNat_ite]
  simp only [BitVec.ult_iff_toNat_lt]
  congr 1
  split <;> omega

theorem max_unsigned (x y : Word) : (if x.ult y then y else x) = BitVec.ofNat 64 (max x.toNat y.toNat) := by
  rw [ofNat_ite]
  simp only [BitVec.ult_iff_toNat_lt]
  congr 1
  split <;> omega

/-- Two words side by side are one number of 128 bits. -/
theorem toNat_append_words (x y : Word) : (x ++ y).toNat = x.toNat * 2 ^ 64 + y.toNat := by
  rw [BitVec.toNat_append, ← Nat.shiftLeft_add_eq_or_of_lt y.isLt, Nat.shiftLeft_eq]

/-- The upper word of a funnel shift to the left. -/
theorem funnelLeft (x y : Word) (n : Nat) : ((x ++ y) <<< n).extractLsb' 64 64 =
    BitVec.ofNat 64 ((x.toNat * 2 ^ 64 + y.toNat) * 2 ^ n / 2 ^ 64) := by
  refine BitVec.eq_of_toNat_eq ?_
  rw [BitVec.extractLsb'_toNat, BitVec.toNat_shiftLeft, toNat_append_words, BitVec.toNat_ofNat, Nat.shiftLeft_eq,
    Nat.shiftRight_eq_div_pow]
  omega

/-- The lower word of a funnel shift to the right. -/
theorem funnelRight (x y : Word) (n : Nat) : ((x ++ y) >>> n).extractLsb' 0 64 =
    BitVec.ofNat 64 ((x.toNat * 2 ^ 64 + y.toNat) / 2 ^ n) := by
  refine BitVec.eq_of_toNat_eq ?_
  rw [BitVec.extractLsb'_toNat, BitVec.toNat_ushiftRight, toNat_append_words, BitVec.toNat_ofNat, Nat.shiftRight_zero,
    Nat.shiftRight_eq_div_pow]

theorem extField_eq (x : Word) (pos len : Nat) : extField x pos len = BitVec.ofNat 64 (x.toNat / 2 ^ pos % 2 ^ len) := by
  rw [extField, sliceNat, Nat.shiftRight_eq_div_pow]

/-- R96: the results of the three-register group. -/
theorem aluClaims : AluClaims := by
  intro d a b l sh p
  refine ⟨?add, ?sub, ?and, ?or, ?xor, ?sll, ?srl, ?sra, ?slt, ?sltu, ?min, ?max, ?minu, ?maxu, ?fshl, ?fshr, ?clz, ?ctz, ?popc,
    ?sel, ?ext, ?ins⟩
  case sll | srl | sra => exact writesX_of_issue (fun _ => rfl) fun k => by rw [bits_low]; rfl
  case slt => exact writesX_of_issue (fun _ => rfl) fun k => ofBool_slt _ _
  case sltu => exact writesX_of_issue (fun _ => rfl) fun k => ofBool_ult _ _
  case min => exact writesX_of_issue (fun _ => rfl) fun k => min_signed _ _
  case max => exact writesX_of_issue (fun _ => rfl) fun k => max_signed _ _
  case minu => exact writesX_of_issue (fun _ => rfl) fun k => min_unsigned _ _
  case maxu => exact writesX_of_issue (fun _ => rfl) fun k => max_unsigned _ _
  case fshl => exact writesX_of_issue (fun _ => rfl) fun k => funnelLeft _ _ _
  case fshr => exact writesX_of_issue (fun _ => rfl) fun k => funnelRight _ _ _
  case ext => exact writesX_of_issue (fun _ => rfl) fun k => extField_eq _ _ _
  all_goals exact writesX_of_issue (fun _ => rfl) fun _ => rfl

/-! Values of the immediate forms (R97). -/

theorem shiftLeft_eq_ofNat (x : Word) (n : Nat) : x <<< n = BitVec.ofNat 64 (x.toNat * 2 ^ n) := by
  refine BitVec.eq_of_toNat_eq ?_
  rw [BitVec.toNat_shiftLeft, Nat.shiftLeft_eq, BitVec.toNat_ofNat]

theorem shiftRight_eq_ofNat (x : Word) (n : Nat) : x >>> n = BitVec.ofNat 64 (x.toNat / 2 ^ n) := by
  rw [← Nat.shiftRight_eq_div_pow, ← BitVec.toNat_ushiftRight, BitVec.ofNat_toNat, BitVec.setWidth_eq]

theorem sshiftRight_eq_ofInt (x : Word) (n : Nat) : x.sshiftRight n = BitVec.ofInt 64 (x.toInt / 2 ^ n) := by
  rw [BitVec.sshiftRight, Int.shiftRight_eq_div_pow]
  rfl

theorem ofBool_slt_signExtend (x : Word) (i : BitVec 16) :
    ofBool (x.slt (i.signExtend 64)) = if x.toInt < i.toInt then 1 else 0 := by
  rw [ofBool_slt, BitVec.toInt_signExtend_of_le (by decide)]

/-- R97: the results of the immediate forms. -/
theorem immediateClaims : ImmediateClaims := by
  intro d a i sh u
  refine ⟨?addi, ?andi, ?ori, ?xori, ?slli, ?srli, ?srai, ?slti, ?sltiu, ?lui, ?addpc⟩
  case slli => exact writesX_of_issue (fun _ => rfl) fun k => shiftLeft_eq_ofNat _ _
  case srli => exact writesX_of_issue (fun _ => rfl) fun k => shiftRight_eq_ofNat _ _
  case srai => exact writesX_of_issue (fun _ => rfl) fun k => sshiftRight_eq_ofInt _ _
  case slti => exact writesX_of_issue (fun _ => rfl) fun k => ofBool_slt_signExtend _ _
  case sltiu => exact writesX_of_issue (fun _ => rfl) fun k => ofBool_ult _ _
  all_goals exact writesX_of_issue (fun _ => rfl) fun _ => rfl

/-! Multiplication, division and the three-input lookup (R98, R99, R101). -/

/-- The product of the signed numbers of two words, taken to 64 bits (R98). -/
theorem mul_eq_ofInt (x y : Word) : x * y = BitVec.ofInt 64 (x.toInt * y.toInt) := by
  rw [BitVec.ofInt_mul, BitVec.ofInt_toInt, BitVec.ofInt_toInt]

/-- Only the most negative number over -1 has a quotient above every 64-bit number (R99). -/
theorem tdiv_le_of_ne {x y : Int} (low : -(2 ^ 63) ≤ x) (high : x < 2 ^ 63) (h : x = -(2 ^ 63) → y ≠ -1) :
    x.tdiv y ≤ 2 ^ 63 - 1 := by
  have size : (x.tdiv y).natAbs = x.natAbs / y.natAbs := Int.natAbs_tdiv x y
  by_cases lowest : x = -(2 ^ 63)
  · obtain one | more : y.natAbs ≤ 1 ∨ 2 ≤ y.natAbs := by omega
    · have divisor : y ≠ -1 := h lowest
      obtain rfl | rfl : y = 0 ∨ y = 1 := by omega
      · rw [Int.tdiv_zero]; decide
      · rw [Int.tdiv_one, lowest]; decide
    · have half : x.natAbs / y.natAbs ≤ x.natAbs / 2 := Nat.div_le_div_left more (by decide)
      omega
  · have below : x.natAbs / y.natAbs ≤ x.natAbs := Nat.div_le_self _ _
    omega

theorem divSigned_eq (x y : Word) : divSigned x y = BitVec.ofInt 64 (quotient x.toInt y.toInt) := by
  have zero (z : Word) : z.toInt = 0 ↔ z = 0 := BitVec.toInt_inj (y := 0)
  rw [divSigned, quotient]
  simp only [zero]
  by_cases byZero : y = 0
  · rw [if_pos byZero, if_pos byZero]
    split
    · rfl
    · split <;> rfl
  · rw [if_neg byZero, if_neg byZero]
    by_cases saturates : x = 0x8000000000000000#64 ∧ y = BitVec.allOnes 64
    · obtain ⟨rfl, rfl⟩ := saturates
      decide
    · have fits : x.toInt.tdiv y.toInt ≤ 2 ^ 63 - 1 := tdiv_le_of_ne x.le_toInt x.toInt_lt fun lowest minusOne =>
        saturates ⟨BitVec.eq_of_toInt_eq lowest, BitVec.eq_of_toInt_eq minusOne⟩
      rw [if_neg saturates, Int.min_eq_left fits]

theorem divUnsigned_eq (x y : Word) : divUnsigned x y =
    if y = 0 then (if x = 0 then 0 else BitVec.allOnes 64) else BitVec.ofNat 64 (x.toNat / y.toNat) := rfl

/-- The remainder rounds with the quotient: over 0 it is the dividend, and the saturating case leaves 0 (R99). -/
theorem remSigned_eq (x y : Word) : remSigned x y = BitVec.ofInt 64 (x.toInt.tmod y.toInt) := by
  rw [remSigned]
  by_cases byZero : y = 0
  · simp [byZero]
  · rw [if_neg byZero]
    by_cases saturates : x = 0x8000000000000000#64 ∧ y = BitVec.allOnes 64
    · obtain ⟨rfl, rfl⟩ := saturates
      decide
    · rw [if_neg saturates]

theorem remUnsigned_eq (x y : Word) : remUnsigned x y = BitVec.ofNat 64 (x.toNat % y.toNat) := by
  rw [remUnsigned]
  by_cases byZero : y = 0
  · simp [byZero]
  · rw [if_neg byZero]

/-- The number of the table bit that three input bits select (R101). -/
def lutIndex (x y z : Bool) : Nat := 4 * x.toNat + 2 * y.toNat + z.toNat

/-- The term of table bit n of LUT3 has the bits at which the inputs select n. -/
theorem getLsbD_lutTerm (x y z : Word) {i n : Nat} (hi : i < 64) (hn : n < 8) :
    ((if n / 4 % 2 = 1 then x else ~~~x) &&& (if n / 2 % 2 = 1 then y else ~~~y) &&&
      (if n % 2 = 1 then z else ~~~z)).getLsbD i = decide (lutIndex (x.getLsbD i) (y.getLsbD i) (z.getLsbD i) = n) := by
  have flip (w : Word) (p : Prop) [Decidable p] : (if p then w else ~~~w).getLsbD i = (w.getLsbD i == decide p) := by
    split <;> simp [*]
  rw [BitVec.getLsbD_and, BitVec.getLsbD_and, flip, flip, flip]
  cases x.getLsbD i <;> cases y.getLsbD i <;> cases z.getLsbD i <;> decide +revert

theorem lutIndex_lt (x y z : Bool) : lutIndex x y z < 8 := by
  cases x <;> cases y <;> cases z <;> decide

/-- R101: bit i of the lookup is the table bit that the three input bits select. -/
theorem getLsbD_lut3 (t : BitVec 8) (x y z : Word) {i : Nat} (hi : i < 64) :
    (lut3 t x y z).getLsbD i = t.getLsbD (lutIndex (x.getLsbD i) (y.getLsbD i) (z.getLsbD i)) := by
  generalize index : lutIndex (x.getLsbD i) (y.getLsbD i) (z.getLsbD i) = m
  have terms (ns : List Nat) (hn : ∀ n ∈ ns, n < 8) (acc : Word) : (ns.foldl (fun acc n => if t.getLsbD n then
      acc ||| ((if n / 4 % 2 = 1 then x else ~~~x) &&& (if n / 2 % 2 = 1 then y else ~~~y) &&&
        (if n % 2 = 1 then z else ~~~z)) else acc) acc).getLsbD i =
      (acc.getLsbD i || ns.any fun n => t.getLsbD n && decide (m = n)) := by
    induction ns generalizing acc with
    | nil => simp
    | cons n ns ih =>
      rw [List.foldl_cons, ih (fun k hk => hn k (List.mem_cons_of_mem n hk)), List.any_cons, ← Bool.or_assoc]
      congr 1
      cases t.getLsbD n with
      | false => simp
      | true =>
        rw [if_pos rfl, BitVec.getLsbD_or, getLsbD_lutTerm x y z hi (hn n List.mem_cons_self), index, Bool.true_and]
  rw [lut3, terms (upFrom 0 8) (fun n hn => (mem_upFrom.mp hn).2), show (0 : Word).getLsbD i = false from BitVec.getLsbD_zero,
    Bool.false_or, Bool.eq_iff_iff]
  simp only [List.any_eq_true, mem_upFrom, Bool.and_eq_true, decide_eq_true_eq]
  have range : m < 8 := index ▸ lutIndex_lt _ _ _
  exact ⟨fun ⟨n, _, set, same⟩ => same ▸ set, fun set => ⟨m, by omega, set, rfl⟩⟩

/-- R98, R99, R101, R132: products, quotients, remainders and the lookup. -/
theorem mulDivClaims : MulDivClaims := by
  intro d a b t
  refine ⟨?mul, ?mulh, ?mulhu, ?div, ?divu, ?rem, ?remu, fun k => lut3 t (k.rx a) (k.rx b) (k.rx d), ?lut3,
    fun k i hi => getLsbD_lut3 t _ _ _ hi⟩
  case mul => exact writesX_of_issue (fun _ => rfl) fun k => mul_eq_ofInt (k.rx a) (k.rx b)
  case div => exact acts_of_issueBusy (fun _ => rfl) fun s => divSigned_eq (s.here.rx a) (s.here.rx b)
  case divu => exact acts_of_issueBusy (fun _ => rfl) fun s => divUnsigned_eq (s.here.rx a) (s.here.rx b)
  case rem => exact acts_of_issueBusy (fun _ => rfl) fun s => remSigned_eq (s.here.rx a) (s.here.rx b)
  case remu => exact acts_of_issueBusy (fun _ => rfl) fun s => remUnsigned_eq (s.here.rx a) (s.here.rx b)
  all_goals exact writesX_of_issue (fun _ => rfl) fun _ => rfl

end Sys2Proof.Machine

/-! Scalar floating point, and control transfers (R103-R116). -/

namespace Sys2Proof.Machine

/-! Results that round once into f[d], with their flags (R48, R55, R103). -/

/-- What `retireFp` writes and raises is the rounded result with all flags of its operation. -/
theorem State.retireFp_eq (s : State) (c : CtxId) (d : BitVec 5) (f rm : Nat) (r : FVal × BitVec 5) :
    s.retireFp c d f rm r = (s.modCtx c fun k => k.orFlags (fpOut f rm r).2).retireF c d (BitVec.ofNat 64 (fpOut f rm r).1) :=
  rfl

/-- An instruction that rounds its operation into f[d] writes the rounded result. -/
theorem writesF_of_issue {i : Instr} {d : BitVec 5} {f rm : Nat} {v : Ctx → FVal × BitVec 5}
    (h : ∀ s, exec i s = .next (s.issue (encode i) fun c k s => s.retireFp c d f rm (v k))) :
    WritesF i d fun k => fpOut f rm (v k) :=
  acts_of_issue h fun s _ => s.retireFp_eq s.cur d f rm (v s.here)

/-- FDIV and FSQRT do so and hold their context (R132). -/
theorem dividesF_of_issue {i : Instr} {d : BitVec 5} {f rm : Nat} {v : Ctx → FVal × BitVec 5}
    (h : ∀ s, exec i s = .next (s.issue (encode i) fun c k s => (s.retireFp c d f rm (v k)).busy c (divClk f))) :
    DividesF i d f fun k => fpOut f rm (v k) :=
  acts_of_issue h fun _ _ => rfl

/-- R103, R107, R109, R112: the instructions that round once into f[d]. -/
theorem floatClaims : FloatClaims := by
  intro d a b c r f g n p
  refine ⟨?add, ?sub, ?mul, ?div, ?sqrt, ?cvt, ?icvtf, ?fma, ?fms, ?fnma, ?fnms⟩
  case div | sqrt => exact dividesF_of_issue fun _ => rfl
  all_goals exact writesF_of_issue fun _ => rfl

/-- FMIN and FMAX write the encoding that they select (R104). -/
theorem writesF_of_issueBits {i : Instr} {d : BitVec 5} {v : Ctx → Nat × BitVec 5}
    (h : ∀ s, exec i s = .next (s.issue (encode i) fun c k s => s.retireFbits c d (v k))) : WritesF i d v :=
  acts_of_issue h fun _ _ => rfl

/-- Comparisons and conversions to integers write x[d] and raise flags (R105, R108). -/
theorem writesXF_of_issue {i : Instr} {d : BitVec 5} {v : Ctx → Word × BitVec 5}
    (h : ∀ s, exec i s = .next (s.issue (encode i) fun c k s => s.retireXfl c d (v k).1 (v k).2)) : WritesXF i d v :=
  acts_of_issue h fun _ _ => rfl

/-- R104-R106, R108, R110: selection, comparison, classification, conversion to integers and moves. -/
theorem floatMoveClaims : FloatMoveClaims := by
  intro d a b r f n
  refine ⟨?min, ?max, ?eq, ?lt, ?le, ?code, ?cvti, ?mvx, ?mvf⟩
  case min | max => exact writesF_of_issueBits fun _ => rfl
  case eq | lt | le | cvti => exact writesXF_of_issue fun _ => rfl
  case code | mvx => exact writesX_of_issue (fun _ => rfl) fun _ => rfl
  case mvf => exact acts_of_issue (fun _ => rfl) fun _ _ => rfl

/-! Control transfers (R113-R116). -/

/-- The two low bits of an address say whether it is a multiple of 4. -/
theorem extractLsb'_low_eq_zero (t : Word) : t.extractLsb' 0 2 = 0 ↔ t.toNat % 4 = 0 := by
  rw [← BitVec.toNat_inj, BitVec.extractLsb'_toNat]
  rfl

section
variable {s : State} {c : CtxId} {t : Word}

/-- A jump to an aligned canonical target writes the link and the PC (R114). -/
theorem State.jump_of_canonical (link : Option (BitVec 5)) (aligned : t.toNat % 4 = 0)
    (canon : Machine.canonical (s.ctx c).mode t = true) : s.jump c t link = s.modCtx c fun k =>
      { (match link with
         | some d => k.wx d (k.pc + 4)
         | none => k).retired with pc := t } := by
  rw [State.jump, if_neg (by simpa using (extractLsb'_low_eq_zero t).mpr aligned), if_neg (by simp [canon])]
  rfl

/-- The alignment check comes first (R114). -/
theorem State.jump_of_misaligned (link : Option (BitVec 5)) (misaligned : t.toNat % 4 ≠ 0) :
    s.jump c t link = s.trap c (mkTrap 5 t) :=
  if_pos fun low => misaligned ((extractLsb'_low_eq_zero t).mp low)

/-- A target that is aligned but not canonical traps (R116). -/
theorem State.jump_of_not_canonical (link : Option (BitVec 5)) (aligned : t.toNat % 4 = 0)
    (foreign : Machine.canonical (s.ctx c).mode t = false) : s.jump c t link = s.trap c (mkTrap 8 t) := by
  rw [State.jump, if_neg (by simpa using (extractLsb'_low_eq_zero t).mpr aligned), if_pos (by simp [foreign])]

end

/-- An instruction that jumps wherever it is taken goes to an aligned canonical target. -/
theorem jumpsTo_of_issue {i : Instr} {target : Ctx → Word} {link : Option (BitVec 5)} {taken : Ctx → Bool}
    {go : CtxId → Ctx → State → State} (h : ∀ s, exec i s = .next (s.issue (encode i) go))
    (jumps : ∀ s : State, taken s.here = true → go s.cur s.here s = s.jump s.cur (target s.here) link) :
    JumpsTo i target link taken :=
  acts_of_issue h fun s ⟨take, aligned, canon⟩ => (jumps s take).trans (State.jump_of_canonical link aligned canon)

/-- It takes the trap of R116 at an aligned target that is not canonical. -/
theorem jumpFaults_of_issue {i : Instr} {target : Ctx → Word} {link : Option (BitVec 5)} {taken : Ctx → Bool}
    {go : CtxId → Ctx → State → State} (h : ∀ s, exec i s = .next (s.issue (encode i) go))
    (jumps : ∀ s : State, taken s.here = true → go s.cur s.here s = s.jump s.cur (target s.here) link) :
    JumpFaults i target taken :=
  acts_of_issue h fun s ⟨take, aligned, foreign⟩ =>
    (jumps s take).trans (State.jump_of_not_canonical link aligned foreign)

/-- A branch is an instruction that branches on a condition of its context (R115). -/
def IsBranch (i : Instr) (o : BitVec 16) (taken : Ctx → Bool) : Prop :=
  ∀ s, exec i s = .next (s.issue (encode i) fun c k s => s.branch c (taken k) o)

section
variable {i : Instr} {o : BitVec 16} {taken : Ctx → Bool}

theorem IsBranch.branchesOn (h : IsBranch i o taken) : BranchesOn i o taken :=
  ⟨jumpsTo_of_issue h fun _ take => if_pos take, acts_of_issue h fun _ untaken => if_neg (Bool.eq_false_iff.mp untaken)⟩

theorem IsBranch.jumpFaults (h : IsBranch i o taken) : JumpFaults i (fun k => k.pc + o.signExtend 64 * 4) taken :=
  jumpFaults_of_issue h fun _ take => if_pos take

end

theorem not_slt_eq_decide (x y : Word) : (!x.slt y) = decide (y.toInt ≤ x.toInt) := by
  rw [BitVec.slt, ← decide_not]
  exact decide_eq_decide.mpr Int.not_lt

theorem not_ult_eq_decide (x y : Word) : (!x.ult y) = decide (y.toNat ≤ x.toNat) := by
  rw [BitVec.ult, ← decide_not]
  exact decide_eq_decide.mpr Nat.not_lt

/-! The conditions of the branches (R115). -/

section
variable (a b : BitVec 5) (o : BitVec 16)

theorem isBranch_beq : IsBranch (.beq a b o) o fun k => decide (k.rx a = k.rx b) := fun _ => rfl
theorem isBranch_bne : IsBranch (.bne a b o) o fun k => decide (k.rx a ≠ k.rx b) := fun _ => rfl
theorem isBranch_blt : IsBranch (.blt a b o) o fun k => decide ((k.rx a).toInt < (k.rx b).toInt) := fun _ => rfl
theorem isBranch_bltu : IsBranch (.bltu a b o) o fun k => decide ((k.rx a).toNat < (k.rx b).toNat) := fun _ => rfl
theorem isBranch_bge : IsBranch (.bge a b o) o fun k => decide ((k.rx b).toInt ≤ (k.rx a).toInt) := fun s => by
  simp only [← not_slt_eq_decide]; rfl
theorem isBranch_bgeu : IsBranch (.bgeu a b o) o fun k => decide ((k.rx b).toNat ≤ (k.rx a).toNat) := fun s => by
  simp only [← not_ult_eq_decide]; rfl

end

/-- R113-R116: jumps and branches. -/
theorem jumpClaims : JumpClaims := fun _ a b _ o _ =>
  ⟨jumpsTo_of_issue (fun _ => rfl) fun _ _ => rfl, jumpsTo_of_issue (fun _ => rfl) fun _ _ => rfl,
    (isBranch_beq a b o).branchesOn, (isBranch_bne a b o).branchesOn, (isBranch_blt a b o).branchesOn,
    (isBranch_bge a b o).branchesOn, (isBranch_bltu a b o).branchesOn, (isBranch_bgeu a b o).branchesOn⟩

/-- R114, R116: the traps of jumps. -/
theorem jumpTrapClaims : JumpTrapClaims := fun _ a b _ o _ =>
  ⟨jumpFaults_of_issue (fun _ => rfl) fun _ _ => rfl,
    ⟨(isBranch_beq a b o).jumpFaults, (isBranch_bne a b o).jumpFaults, (isBranch_blt a b o).jumpFaults,
      (isBranch_bge a b o).jumpFaults, (isBranch_bltu a b o).jumpFaults, (isBranch_bgeu a b o).jumpFaults⟩,
    acts_of_issue (fun _ => rfl) fun _ misaligned => State.jump_of_misaligned _ misaligned,
    acts_of_issue (fun _ => rfl) fun _ ⟨aligned, foreign⟩ => State.jump_of_not_canonical _ aligned foreign⟩

end Sys2Proof.Machine

/-! What the integer, floating-point and branch instructions leave unchanged (R55, R91-R115). -/

namespace Sys2Proof.Machine

/-! A change of one context in what an instruction computes. -/

/-- Context `k` with the registers, flags and PC of `k'`, and with what belongs to the instruction under way. -/
def Ctx.computedAs (k k' : Ctx) : Ctx :=
  { k with pc := k'.pc, x := k'.x, f := k'.f, fstat := k'.fstat, pfx := k'.pfx, bounded := k'.bounded, block := k'.block,
           fetched := k'.fetched, rel := k'.rel, walked := k'.walked, passed := k'.passed, red := k'.red,
           notBefore := k'.notBefore }

/-- The context has changed in these alone. -/
def Ctx.Computes (k k' : Ctx) : Prop := k' = k.computedAs k'

theorem Ctx.Computes.trans {a b e : Ctx} (h : a.Computes b) (h' : b.Computes e) : a.Computes e :=
  have through : b.computedAs e = (a.computedAs b).computedAs e := congrArg (fun k : Ctx => k.computedAs e) h
  Eq.trans h' through

theorem Ctx.Computes.wx (k : Ctx) (r : BitVec 5) (v : Word) : k.Computes (k.wx r v) := by
  unfold Ctx.wx
  split <;> rfl

theorem Ctx.Computes.wxCopy (k : Ctx) (d : BitVec 5) (v : Word) : k.Computes (k.wxCopy d v) := by
  unfold Ctx.wxCopy
  split
  · exact (Ctx.Computes.wx k d v).trans (Ctx.Computes.wx _ _ v)
  · exact Ctx.Computes.wx k d v

theorem Ctx.Computes.wfCopy (k : Ctx) (d : BitVec 5) (v : Word) : k.Computes (k.wfCopy d v) := by
  unfold Ctx.wfCopy
  split <;> rfl

/-- Two states that differ in one context, and in what the dies have noted of a word, alone. -/
structure State.SameBut (s t : State) (c : CtxId) : Prop where
  others : ∀ q, q ≠ c → t.ctx q = s.ctx q
  rest   : t = { s with ctxs := t.ctxs, dies := t.dies }

theorem State.SameBut.issued (s : State) (w : BitVec 32) (c : CtxId) : s.SameBut (s.issued w) c where
  others q _ := s.issued_ctx w q
  rest := by rw [State.issued_only]

theorem State.SameBut.modCtx {s t : State} {c : CtxId} (h : s.SameBut t c) (g : Ctx → Ctx) : s.SameBut (t.modCtx c g) c where
  others q ne := (t.modCtx_ctx_other c q g ne).trans (h.others q ne)
  rest := congrArg (fun u : State => u.modCtx c g) h.rest

theorem State.SameBut.sameAround {s t : State} {c : CtxId} (h : s.SameBut t c) (k : (s.ctx c).Computes (t.ctx c)) :
    s.sameAround t c := by
  rw [State.sameAround, show t.ctx c = (s.ctx c).computedAs (t.ctx c) from k]
  refine ⟨rfl, rfl, rfl, rfl, rfl, rfl, rfl, rfl, rfl, rfl, rfl, rfl, rfl, rfl, rfl, rfl, rfl, rfl, rfl, rfl, rfl, rfl, rfl, rfl,
    rfl, rfl, rfl, rfl, rfl, rfl, rfl, rfl, rfl, rfl, rfl, rfl, rfl, rfl, rfl, h.others, ?_⟩
  rw [h.rest]
  exact ⟨rfl, rfl, rfl, rfl, rfl, rfl, rfl, rfl, rfl, rfl, rfl, rfl, fun _ => rfl⟩

/-! A context with its result. -/

/-- A context that has retired with flags and a result in x[d], and issues again at clk n. -/
def Ctx.tookX (k : Ctx) (fl : BitVec 5) (d : BitVec 5) (v : Word) (n : Nat) : Ctx :=
  { ((k.orFlags fl).wxCopy d v).retired with notBefore := n }

/-- A context that has retired with flags and a result in f[d], and issues again at clk n. -/
def Ctx.tookF (k : Ctx) (fl : BitVec 5) (d : BitVec 5) (v : Word) (n : Nat) : Ctx :=
  { ((k.orFlags fl).wfCopy d v).retired with notBefore := n }

section
variable (k : Ctx) (fl : BitVec 5) (d : BitVec 5) (v : Word) (n : Nat)

theorem Ctx.orFlags_zero : k.orFlags 0 = k := by
  simp [Ctx.orFlags]

theorem Ctx.tookX_plain : k.tookX 0 d v k.notBefore = (k.wxCopy d v).retired := by
  rw [Ctx.tookX, Ctx.orFlags_zero, ← Ctx.wxCopy_notBefore k d v]
  rfl

theorem Ctx.tookX_flags : k.tookX fl d v k.notBefore = ((k.orFlags fl).wxCopy d v).retired := by
  rw [Ctx.tookX, ← show ((k.orFlags fl).wxCopy d v).notBefore = k.notBefore from Ctx.wxCopy_notBefore _ d v]
  rfl

theorem Ctx.tookF_flags : k.tookF fl d v k.notBefore = ((k.orFlags fl).wfCopy d v).retired := by
  rw [Ctx.tookF, ← show ((k.orFlags fl).wfCopy d v).notBefore = k.notBefore from Ctx.wfCopy_notBefore _ d v]
  rfl

theorem Ctx.Computes.tookX : k.Computes (k.tookX fl d v n) :=
  Ctx.Computes.trans (Ctx.Computes.wxCopy (k.orFlags fl) d v) rfl

theorem Ctx.Computes.tookF : k.Computes (k.tookF fl d v n) :=
  Ctx.Computes.trans (Ctx.Computes.wfCopy (k.orFlags fl) d v) rfl

theorem Ctx.tookX_fstat : (k.tookX fl d v n).fstat = k.fstat ||| fl := Ctx.wxCopy_fstat (k.orFlags fl) d v
theorem Ctx.tookF_fstat : (k.tookF fl d v n).fstat = k.fstat ||| fl := Ctx.wfCopy_fstat (k.orFlags fl) d v

end

theorem or_or_left_cancel (x y : BitVec 5) : (x ||| y) ||| x = x ||| y := by
  rw [BitVec.or_comm, ← BitVec.or_assoc, BitVec.or_self]

/-! The frames of the instructions that write a result. -/

/-- What an instruction that changes its own context alone leaves: the context so changed, and the rest. -/
theorem State.SameBut.of_runs {i : Instr} {pre : State → Prop} {post : State → State} {g : State → Ctx → Ctx} {s t : State}
    (acts : Acts i pre post) (changes : ∀ u : State, post u = u.modCtx u.cur (g u)) (issues : s.issues (encode i) = true)
    (holds : pre (s.issued (encode i))) (runs : exec i s = .next t) :
    s.SameBut t s.cur ∧ t.ctx s.cur = g (s.issued (encode i)) s.here := by
  have result : post (s.issued (encode i)) = t := Host.Outcome.next.inj ((acts s issues holds).symm.trans runs)
  rw [changes, State.issued_cur] at result
  subst result
  refine ⟨(State.SameBut.issued s _ _).modCtx _, ?_⟩
  rw [State.modCtx_ctx_same, State.issued_ctx]
  rfl

section
variable {i : Instr} {d : BitVec 5} {post : State → State} {fl : State → BitVec 5} {v : State → Word} {n : State → Nat}

/-- An instruction that leaves its context with a result in x[d] leaves the rest (R91); it raises flags only where it may. -/
theorem frameX_of_acts {flags : Bool} (acts : Acts i (fun _ => True) post)
    (takes : ∀ s, post s = s.modCtx s.cur fun k => k.tookX (fl s) d (v s) (n s))
    (quiet : flags = false → ∀ s, fl s = 0#5) : FrameX flags i d := by
  intro s t issues runs
  obtain ⟨same, after⟩ := State.SameBut.of_runs acts takes issues trivial runs
  refine ⟨fun r other noCopy => ?_, ?_, fun off => ?_, ?_, same.sameAround (after ▸ Ctx.Computes.tookX _ _ _ _ _)⟩
  · rw [after]
    exact Ctx.rx_wxCopy_ne (s.here.orFlags _) d r _ other noCopy
  · rw [after]
    exact Ctx.wxCopy_f (s.here.orFlags _) d _
  · rw [after, Ctx.tookX_fstat, quiet off, BitVec.or_zero]
  · rw [after, Ctx.tookX_fstat, or_or_left_cancel]

/-- An instruction that leaves its context with a result in f[d] leaves the rest (R93), and clears no flag (R55). -/
theorem frameF_of_acts (acts : Acts i (fun _ => True) post)
    (takes : ∀ s, post s = s.modCtx s.cur fun k => k.tookF (fl s) d (v s) (n s)) : FrameF i d := by
  intro s t issues runs
  obtain ⟨same, after⟩ := State.SameBut.of_runs acts takes issues trivial runs
  refine ⟨fun r other noCopy => ?_, ?_, ?_, same.sameAround (after ▸ Ctx.Computes.tookF _ _ _ _ _)⟩
  · rw [after]
    exact Ctx.rf_wfCopy_ne (s.here.orFlags _) d r _ other noCopy
  · rw [after]
    exact Ctx.wfCopy_x (s.here.orFlags _) d _
  · rw [after, Ctx.tookF_fstat, or_or_left_cancel]

end

/-! The forms of an instruction that writes a result. -/

theorem State.modCtx_modCtx (s : State) (c : CtxId) (g h : Ctx → Ctx) : (s.modCtx c g).modCtx c h = s.modCtx c fun k => h (g k) := by
  rw [State.modCtx, State.modCtx_ctx_same]
  exact congrArg (fun t => { s with ctxs := t }) (Tbl.set_set s.ctxs c _ _)

section
variable {i : Instr} {d : BitVec 5}

theorem frameX_of_issue {v : Ctx → Word} (h : ∀ s, exec i s = .next (s.issue (encode i) fun c k s => s.retireX c d (v k))) :
    FrameX false i d :=
  frameX_of_acts (v := fun s => v s.here) (n := fun s => s.here.notBefore) (writesX_of_issue h fun _ => rfl)
    (fun s => congrArg (s.setCtx s.cur) (Ctx.tookX_plain s.here d (v s.here)).symm) fun _ _ => rfl

theorem frameX_of_issueBusy {n : Nat} {v : Ctx → Word}
    (h : ∀ s, exec i s = .next (s.issue (encode i) fun c k s => (s.retireX c d (v k)).busy c n)) : FrameX false i d :=
  frameX_of_acts (v := fun s => v s.here) (n := fun s => s.clk + n) (fl := fun _ => 0) (acts_of_issueBusy h fun _ => rfl)
    (fun s => by
      rw [State.heldFor, State.retireX, State.modCtx_modCtx]
      simp only [Ctx.tookX, Ctx.orFlags_zero])
    fun _ _ => rfl

theorem WritesXF.frame {v : Ctx → Word × BitVec 5} (h : WritesXF i d v) : FrameX true i d :=
  frameX_of_acts (n := fun s => s.here.notBefore) h
    (fun s => by
      rw [State.retireX, State.modCtx_modCtx]
      exact congrArg (s.setCtx s.cur) (Ctx.tookX_flags s.here _ d _).symm)
    fun on => absurd on (by decide)

theorem WritesF.frame {v : Ctx → Nat × BitVec 5} (h : WritesF i d v) : FrameF i d :=
  frameF_of_acts (n := fun s => s.here.notBefore) h fun s => by
    rw [State.retireF, State.modCtx_modCtx]
    exact congrArg (s.setCtx s.cur) (Ctx.tookF_flags s.here _ d _).symm

theorem frameF_of_retireF {v : State → Word} (h : Acts i (fun _ => True) fun s => s.retireF s.cur d (v s)) : FrameF i d :=
  frameF_of_acts (fl := fun _ => 0) (n := fun s => s.here.notBefore) h fun s => by
    refine congrArg (s.setCtx s.cur) (Eq.trans ?_ (Ctx.tookF_flags s.here 0 d (v s)).symm)
    rw [Ctx.orFlags_zero]
    rfl

theorem DividesF.frame {f : Nat} {v : Ctx → Nat × BitVec 5} (h : DividesF i d f v) : FrameF i d :=
  frameF_of_acts (n := fun s => s.clk + if f = 0 then 32 else 16) h fun s => by
    rw [State.heldFor, State.retireF, State.modCtx_modCtx, State.modCtx_modCtx]
    rfl

end

/-- R91-R101: what the integer instructions leave unchanged. -/
theorem integerFrameClaims : IntegerFrameClaims := by
  intro d a b l sh p i u t x mem
  simp only [List.mem_cons, List.not_mem_nil, or_false] at mem
  rcases mem with rfl | rfl | rfl | rfl | rfl | rfl | rfl | rfl | rfl | rfl | rfl | rfl | rfl | rfl | rfl | rfl | rfl | rfl | rfl |
    rfl | rfl | rfl | rfl | rfl | rfl | rfl | rfl | rfl | rfl | rfl | rfl | rfl | rfl | rfl | rfl | rfl | divisions
  pick_goal 37
  · obtain rfl | rfl | rfl | rfl | rfl := divisions
    case inr.inr.inr.inr => exact frameX_of_issue fun _ => rfl
    all_goals exact frameX_of_issueBusy fun _ => rfl
  all_goals exact frameX_of_issue fun _ => rfl

/-! Branches. -/

/-- A branch to an aligned canonical target changes the PC and retires, or retires alone (R115). -/
theorem BranchesOn.frame {i : Instr} {o : BitVec 16} {taken : Ctx → Bool} (h : BranchesOn i o taken) : FrameBranch i o := by
  intro s t issues canon aligned runs
  cases take : taken s.here with
  | true =>
    have target : (s.here.pc + o.signExtend 64 * 4).toNat % 4 = 0 := by
      rw [BitVec.toNat_add, BitVec.toNat_mul, show (4 : Word).toNat = 4 from rfl]
      omega
    obtain ⟨same, after⟩ := State.SameBut.of_runs h.1 (fun _ => rfl) issues
      (by simp only [State.issued_here]; exact ⟨take, target, canon⟩) runs
    exact ⟨after ▸ rfl, after ▸ rfl, after ▸ rfl, same.sameAround (after ▸ rfl)⟩
  | false =>
    obtain ⟨same, after⟩ := State.SameBut.of_runs h.2 (fun _ => rfl) issues (by simp only [State.issued_here]; exact take) runs
    exact ⟨after ▸ rfl, after ▸ rfl, after ▸ rfl, same.sameAround (after ▸ rfl)⟩

/-- R55, R93, R103-R115: what the floating-point instructions and the branches leave unchanged. -/
theorem floatFrameClaims : FloatFrameClaims := by
  intro d a b c r f g n p o
  obtain ⟨add, sub, mul, div, sqrt, cvt, icvtf, fma, fms, fnma, fnms⟩ := floatClaims d a b c r f g n p
  obtain ⟨min, max, eq, lt, le, _, cvti, _, mvf⟩ := floatMoveClaims d a b r f n
  refine ⟨?inF, ?inX, frameX_of_issue fun _ => rfl, frameX_of_issue fun _ => rfl, ?branch⟩
  case inF =>
    simp only [List.forall_mem_cons, List.not_mem_nil, false_implies, implies_true, and_true]
    exact ⟨add.frame, sub.frame, mul.frame, div.frame, sqrt.frame, cvt.frame, icvtf.frame, fma.frame, fms.frame, fnma.frame,
      fnms.frame, min.frame, max.frame, frameF_of_retireF mvf⟩
  case inX =>
    simp only [List.forall_mem_cons, List.not_mem_nil, false_implies, implies_true, and_true]
    exact ⟨eq.frame, lt.frame, le.frame, cvti.frame⟩
  case branch =>
    simp only [List.forall_mem_cons, List.not_mem_nil, false_implies, implies_true, and_true]
    exact ⟨(isBranch_beq a b o).branchesOn.frame, (isBranch_bne a b o).branchesOn.frame, (isBranch_blt a b o).branchesOn.frame,
      (isBranch_bge a b o).branchesOn.frame, (isBranch_bltu a b o).branchesOn.frame, (isBranch_bgeu a b o).branchesOn.frame⟩

end Sys2Proof.Machine

/-! Memory (R117, R118, R504). -/

namespace Sys2Proof.Machine

/-! Memory in its canonical form. -/

theorem Memory.read_cons_same (a : Nat) (v : Byte) (m : Memory) : Memory.read ((a, v) :: m) a = v := by
  simp [Memory.read]

theorem Memory.read_cons_below {a b : Nat} (h : b < a) (v : Byte) (m : Memory) : Memory.read ((a, v) :: m) b = blankByte b := by
  simp [Memory.read, h]

/-- A listed byte of a canonical memory is not the blank one. -/
theorem Memory.wf_head {a : Nat} {v : Byte} {m : Memory} (h : Memory.wf ((a, v) :: m) = true) : v ≠ blankByte a := by
  simp only [Memory.wf, Bool.and_eq_true, decide_eq_true_eq] at h
  exact h.1.1

/-- Canonical memories that start with the same byte agree below it if they agree. -/
theorem Memory.read_tail {a : Nat} {v : Byte} {m m' : Memory} (wf : Memory.wf ((a, v) :: m) = true)
    (wf' : Memory.wf ((a, v) :: m') = true) (same : ∀ c, Memory.read ((a, v) :: m) c = Memory.read ((a, v) :: m') c) (c : Nat) :
    m.read c = m'.read c := by
  by_cases below : c ≤ a
  · rw [Memory.read_above (Memory.wf_above wf) below, Memory.read_above (Memory.wf_above wf') below]
  · have here := same c
    simpa only [Memory.read, show ¬ c < a by omega, show c ≠ a by omega, if_false] using here

/-- The first listed byte of one of two canonical memories that read alike is listed in the other. -/
theorem Memory.head_le {a b : Nat} {v w : Byte} {m m' : Memory} (wf : Memory.wf ((a, v) :: m) = true)
    (same : ∀ c, Memory.read ((a, v) :: m) c = Memory.read ((b, w) :: m') c) : b ≤ a := by
  by_contra above
  have here := same a
  rw [Memory.read_cons_same, Memory.read_cons_below (by omega)] at here
  exact Memory.wf_head wf here

/-- R117: canonical memories with the same bytes are the same. -/
theorem Memory.ext_of_wf {m m' : Memory} (wf : Memory.wf m = true) (wf' : Memory.wf m' = true)
    (same : ∀ c, m.read c = m'.read c) : m = m' := by
  induction m generalizing m' with
  | nil =>
    cases m' with
    | nil => rfl
    | cons e m' => exact absurd ((Memory.read_cons_same _ _ _).symm.trans (same e.1).symm) (Memory.wf_head wf')
  | cons e m ih =>
    cases m' with
    | nil => exact absurd ((Memory.read_cons_same _ _ _).symm.trans (same e.1)) (Memory.wf_head wf)
    | cons e' m' =>
      obtain ⟨a, v⟩ := e
      obtain ⟨b, w⟩ := e'
      obtain rfl : b = a := Nat.le_antisymm (Memory.head_le wf same) (Memory.head_le wf' fun c => (same c).symm)
      obtain rfl : v = w := by simpa only [Memory.read_cons_same] using same b
      rw [ih (Memory.wf_tail wf) (Memory.wf_tail wf') (Memory.read_tail wf wf' same)]

/-- R117: the laws of memory. -/
theorem memoryClaims : MemoryClaims := fun m a b v bs wf =>
  ⟨Memory.write_wf m a v wf, Memory.writeL_wf m a bs wf, Memory.read_write_same m a v wf,
    fun other => Memory.read_write_other m a b v wf other, Memory.readN_writeL m a bs wf,
    fun outside => Memory.read_writeL_other m a b bs wf outside, fun _ wf' same => Memory.ext_of_wf wf wf' same⟩

/-! What the steps of an access leave of memory (R337, R342, R343). -/

/-- Between two states memory, the lines in error and the pending writes are kept; errors of the caches may have gone. -/
structure State.MemKept (s t : State) : Prop where
  mem      : t.mem = s.mem
  pend     : t.pend = s.pend
  errLines : t.errLines = s.errLines
  sramErrs : s.sramErrs = [] → t.sramErrs = []

theorem State.MemKept.refl (s : State) : s.MemKept s := ⟨rfl, rfl, rfl, id⟩

theorem State.MemKept.trans {s t u : State} (h : s.MemKept t) (h' : t.MemKept u) : s.MemKept u :=
  ⟨h'.mem.trans h.mem, h'.pend.trans h.pend, h'.errLines.trans h.errLines, fun none => h'.sramErrs (h.sramErrs none)⟩

theorem State.MemKept.modCore (s : State) (n : CoreId) (g : Core → Core) : s.MemKept (s.modCore n g) := ⟨rfl, rfl, rfl, id⟩

/-- A loop keeps what every round keeps. -/
theorem State.MemKept.foldl {α : Type} {f : State → α → State} (h : ∀ (s : State) (a : α), s.MemKept (f s a)) (l : List α)
    (s : State) : s.MemKept (l.foldl f s) := by
  induction l generalizing s with
  | nil => exact State.MemKept.refl s
  | cons a t ih => exact (h s a).trans (ih (f s a))

theorem State.lineGone_memKept (s : State) (die line : Nat) : s.MemKept (s.lineGone die line) := by
  simp only [State.lineGone, State.leaveSeal]
  repeat' split
  all_goals exact ⟨rfl, rfl, rfl, id⟩

theorem State.joinSeal_memKept (s : State) (die line : Nat) : s.MemKept (s.joinSeal die line) := by
  unfold State.joinSeal
  repeat' split
  all_goals exact ⟨rfl, rfl, rfl, id⟩

theorem State.evicted_memKept (s : State) (core : CoreId) (v : CLine) : s.MemKept (s.evicted core v) := by
  have sent : s.MemKept (if v.dirty then s.after 0 (.writeCombineFlush (core / 64) v.line) else s) := by
    split
    · exact ⟨rfl, rfl, rfl, id⟩
    · exact State.MemKept.refl s
  unfold State.evicted
  dsimp only
  refine sent.trans ?_
  generalize (if v.dirty then s.after 0 (.writeCombineFlush (core / 64) v.line) else s) = u
  split
  · exact State.MemKept.refl u
  · refine State.MemKept.trans ?_ (State.lineGone_memKept _ _ _)
    exact ⟨rfl, rfl, rfl, id⟩

/-- A port changes the caches, and the copies and holders of its line. -/
theorem State.portLine_memKept (s : State) (core : CoreId) (did : BitVec 7) (scalar write stays : Bool) (line : Nat) :
    s.MemKept (s.portLine core did scalar write stays line) := by
  unfold State.portLine
  split
  · exact State.MemKept.refl s
  split
  · exact ⟨rfl, rfl, rfl, id⟩
  split
  · exact ⟨rfl, rfl, rfl, id⟩
  have cleaned : s.MemKept (if (s.core core).keeps line = true then s
      else { s with sramErrs := s.sramErrs.filter fun e => e ≠ (line, core) }) := by
    split
    · exact State.MemKept.refl s
    · exact ⟨rfl, rfl, rfl, fun none => by simp [none]⟩
  have joined := cleaned.trans (State.joinSeal_memKept _ (core / 64) line)
  have used (g : Core → Core) := joined.trans (State.MemKept.modCore _ core g)
  dsimp only
  split
  · exact (used _).trans (State.evicted_memKept _ _ _)
  · exact used _

theorem State.homeUse_memKept (s : State) (c : CtxId) (write : Bool) (addr n : Nat) : s.MemKept (s.homeUse c write addr n) := by
  have lines (stays : Bool) := State.MemKept.foldl
    (fun (t : State) l => State.portLine_memKept t (coreOf c) (s.did c) true write stays l) (linesOf addr n) s
  unfold State.homeUse State.portUse
  dsimp only
  split
  · exact lines _
  · exact (lines _).trans ⟨rfl, rfl, rfl, id⟩

theorem State.sendFrom_memKept (s : State) (die : Nat) (ls : List Nat) : s.MemKept (s.sendFrom die ls) :=
  State.MemKept.foldl (fun t l => by split <;> exact ⟨rfl, rfl, rfl, id⟩) ls s

theorem State.publish_memKept (s : State) (c : CtxId) (addr n : Nat) : s.MemKept (s.publish c addr n) := by
  unfold State.publish
  dsimp only
  split <;> exact ⟨rfl, rfl, rfl, id⟩

theorem State.grant_memKept (s : State) (die line : Nat) : s.MemKept (s.grant die line) := ⟨rfl, rfl, rfl, id⟩

theorem State.serveMisses_memKept (s : State) (line : Nat) : s.MemKept (s.serveMisses line) := by
  unfold State.serveMisses
  split
  · exact State.MemKept.refl s
  · refine State.MemKept.trans ?_ (State.MemKept.foldl (fun t (m : Nat × Nat) => State.grant_memKept t m.2 line) _ _)
    exact ⟨rfl, rfl, rfl, id⟩

theorem State.leaveHome_memKept (s : State) (c : CtxId) (addr n : Nat) : s.MemKept (s.leaveHome c addr n) := by
  refine State.MemKept.trans ?_ (State.MemKept.foldl State.serveMisses_memKept _ _)
  exact ⟨rfl, rfl, rfl, id⟩

theorem State.touchLine_memKept (s : State) (w : Writer) (sh : Bool) (did : BitVec 7) (line : Nat) :
    s.MemKept (s.touchLine w sh did line) := ⟨rfl, rfl, rfl, id⟩

theorem State.dropCopies_memKept (s : State) (k : Option CoreId) (line : Nat) : s.MemKept (s.dropCopies k line) :=
  ⟨rfl, rfl, rfl, id⟩

/-! A write that is performed at its home where no line is in error. -/

theorem State.mergeError_of_clean {s : State} (w : Writer) (line : Nat) (lines : s.errLines = []) (caches : s.sramErrs = []) :
    s.mergeError w line = s := by
  simp [State.mergeError, State.sramBad, lines, caches, Tbl.find?]

theorem State.performHome_of_clean {s : State} (w : Writer) (addr : Nat) (bytes : List Byte) (sh : Bool) (did : BitVec 7)
    (lines : s.errLines = []) (caches : s.sramErrs = []) :
    State.MemKept { s with mem := s.mem.writeA addr bytes } (s.performHome w addr bytes sh did) := by
  have merged (ls : List Nat) : ls.foldl (fun t l => t.mergeError w l) s = s := by
    induction ls with
    | nil => rfl
    | cons l ls ih => rw [List.foldl_cons, State.mergeError_of_clean w l lines caches, ih]
  unfold State.performHome
  dsimp only
  rw [merged]
  exact State.MemKept.foldl (fun t l => (State.touchLine_memKept t w sh did l).trans (State.dropCopies_memKept _ _ l)) _ _

/-- A store that is performed keeps every context but its reservation, pending machine check and place at the ports. -/
theorem State.writeHome_kept (s : State) (c : CtxId) (addr : Nat) (bs : List Byte) (sh : Bool) (did : BitVec 7) :
    s.CtxKept (s.writeHome c addr bs sh did) := by
  have published (t : State) : t.CtxKept (t.publish c addr bs.length) := State.CtxKept.of_ctxs (by
    unfold State.publish
    dsimp only
    split <;> rfl)
  have left (t : State) : t.CtxKept (t.leaveHome c addr bs.length) := by
    refine State.CtxKept.trans ?_ (State.CtxKept.foldl State.serveMisses_kept _ _)
    exact State.CtxKept.of_ctxs rfl
  unfold State.writeHome
  exact (((((State.flushSeen_kept s c addr _).trans (State.homeUse_kept _ c true addr _)).trans
    (State.sendFrom_kept _ _ _)).trans (published _)).trans (State.performHome_kept _ _ addr bs sh did)).trans (left _)

theorem State.flushSeen_of_idle {s : State} (c : CtxId) (addr n : Nat) (idle : s.pend = []) : s.flushSeen c addr n = s :=
  State.flush_of_none (by simp [idle])

/-- With no write on its way and no line in error, memory after a store is memory with its bytes (R118, R504). -/
theorem State.writeHome_mem {s : State} (c : CtxId) (addr : Nat) (bs : List Byte) (sh : Bool) (did : BitVec 7)
    (idle : s.pend = []) (lines : s.errLines = []) (caches : s.sramErrs = []) :
    (s.writeHome c addr bs sh did).mem = s.mem.writeA addr bs := by
  have reached : s.MemKept (((s.homeUse c true addr bs.length).sendFrom (dieOf c) (linesOf addr bs.length)).publish c addr
      bs.length) :=
    ((State.homeUse_memKept s c true addr _).trans (State.sendFrom_memKept _ _ _)).trans (State.publish_memKept _ _ _ _)
  unfold State.writeHome
  dsimp only
  rw [State.flushSeen_of_idle c addr _ idle, (State.leaveHome_memKept _ _ _ _).mem,
    (State.performHome_of_clean _ addr bs sh did (reached.errLines.trans lines) (reached.sramErrs caches)).mem, reached.mem]

/-- R118, R504: what a performed store changes. -/
theorem storeFrameClaims : StoreFrameClaims := by
  intro s c addr bs sh did wf idle lines caches
  rw [State.writeHome_mem c addr bs sh did idle lines caches]
  refine ⟨fun n h free => Memory.read_writeA_same s.mem addr n bs wf h free, fun a => Memory.read_writeA_report s.mem addr a bs wf,
    fun a => Memory.read_writeA_other s.mem addr a bs wf, fun q => ?_⟩
  rw [show (s.writeHome c addr bs sh did).ctx q = (s.ctx q).accessOf _ from State.writeHome_kept s c addr bs sh did q]
  exact ⟨rfl, rfl, rfl, rfl, rfl⟩

end Sys2Proof.Machine

/-! Scalar loads (R118-R123, R340, R471). -/

namespace Sys2Proof.Machine

/-! The fields of an immediate word that a load takes its width and its register from (R61). -/

theorem majorOf_imm (m : BitVec 6) (d a : BitVec 5) (i : BitVec 16) : majorOf (m ++ d ++ a ++ i) = m.toNat := by
  refine (fieldOf_eq_iff (m ++ d ++ a ++ i) 26 6 m).mpr ?_
  rw [Laws.RoundTrip.high _ _ (by decide), Laws.RoundTrip.high _ _ (by decide), Laws.RoundTrip.high _ _ (by decide)]
  exact Laws.RoundTrip.whole m

theorem destination_imm (m : BitVec 6) (d a : BitVec 5) (i : BitVec 16) : (m ++ d ++ a ++ i).extractLsb' 21 5 = d := by
  rw [Laws.RoundTrip.high _ _ (by decide), Laws.RoundTrip.high _ _ (by decide), Laws.RoundTrip.low _ _ (by decide)]
  exact Laws.RoundTrip.whole d

/-- What a load does with the bytes it has read depends on the major opcode and the register of its word. -/
theorem State.finishLoad_imm (s : State) (c : CtxId) (m : BitVec 6) (d a : BitVec 5) (i : BitVec 16) (raw : Nat) :
    s.finishLoad c (m ++ d ++ a ++ i) raw = if m.toNat = 0x17 ∨ m.toNat = 0x18 then s.retireF c d (loadValue m.toNat raw)
      else s.retireX c d (loadValue m.toNat raw) := by
  simp only [State.finishLoad, majorOf_imm, destination_imm]

/-! What a load does once it reaches its bytes. -/

section
variable {s u v : State} {c : CtxId} {k : Ctx} {w : BitVec 32} {va : Word} {n : Nat} {x : Access}

/-- At HBM it reads the line (R119, R339). -/
theorem State.scalarLoad_of_hbm (ctx : s.ctx c = k) (reaches : s.Reaches c .load va n false k.pfxOrder k.pfxScope [va] x u)
    (place : x.place = .hbm) (line : u.readLine (dieOf c) (lineOf x.pa) = some v) :
    s.scalarLoad c w va n =
      ((v.takeRead c true (decide (k.pfxOrder ≠ 1)) x.pa n).finishLoad c w (natOf (v.view c (dieOf c) x.pa n))).awaitReply c := by
  subst ctx
  rw [State.scalarLoad, State.scalarFront_of_reaches _ reaches]
  simp only [place, line]

/-- At a function control block it reads the register (R459). -/
theorem State.scalarLoad_of_fcb {p f off : Nat} {val : Word} (ctx : s.ctx c = k)
    (reaches : s.Reaches c .load va n false k.pfxOrder k.pfxScope [va] x u)
    (place : x.place = .fcb p f off) (read : u.fcbRead (s.agent c) p f off = some val) :
    s.scalarLoad c w va n = (u.finishLoad c w val.toNat).awaitFar c := by
  subst ctx
  rw [State.scalarLoad, State.scalarFront_of_reaches _ reaches]
  simp only [place, read]

/-- Beyond a port it closes the interval, waits for its posted stores, and is sent, or taken from the primary (R340, R510). -/
theorem State.scalarLoad_of_outbound (ctx : s.ctx c = k)
    (reaches : s.Reaches c .load va n false k.pfxOrder k.pfxScope [va] x u)
    (far : (∃ p, x.place = .host p) ∨ ∃ p w off, x.place = .peer p w off) (closed : u.closeInterval c [va] = (v, true))
    (posted : v.postedDone c = true) :
    s.scalarLoad c w va n = if (v.ctx c).isShadow = true then v.shadowLoad c w va x n
      else v.outboundRead c w va x n (v.outboundData x n) := by
  subst ctx
  rw [State.scalarLoad, State.scalarFront_of_reaches _ reaches]
  obtain ⟨p, place⟩ | ⟨p, w, off, place⟩ := far <;> simp [place, closed, posted]

end

/-! The loads. -/

/-- A load of n bytes at x[a] + o is an instruction that issues a scalar load of its own word. -/
def IsLoad (i : Instr) (a : BitVec 5) (o : BitVec 16) (n : Nat) : Prop :=
  ∀ s, exec i s = .next (s.issue (encode i) fun c k s => s.scalarLoad c (encode i) (k.ea a o) n)

section
variable {i : Instr} {a : BitVec 5} {o : BitVec 16} {n : Nat}

theorem IsLoad.exec_of_issues (h : IsLoad i a o n) {s : State} (issues : s.issues (encode i) = true) :
    exec i s = .next ((s.issued (encode i)).scalarLoad s.cur (encode i) (s.eaHere a o) n) := by
  rw [h, State.issue_of_issues _ _ _ issues]
  rfl

theorem IsLoad.loads (h : IsLoad i a o n) {fin : CtxId → Nat → State → State}
    (finish : ∀ (s : State) c raw, s.finishLoad c (encode i) raw = fin c raw s) : Loads i a o n fin := by
  intro s u x issues reaches
  simp only [h.exec_of_issues issues, ← finish]
  exact ⟨fun v place line => by
    rw [State.scalarLoad_of_hbm (k := s.here) (State.issued_ctx s _ _) reaches place line],
    fun p f off v place read => by
      rw [State.scalarLoad_of_fcb (State.issued_ctx s _ _) reaches place (by rw [State.issued_agent]; exact read)]⟩

theorem IsLoad.outbound (h : IsLoad i a o n) : LoadsOutbound i a o n := by
  intro s u v x issues reaches far closed posted
  have runs := State.scalarLoad_of_outbound (w := encode i) (State.issued_ctx s _ _) reaches far closed posted
  rw [h.exec_of_issues issues, runs]
  refine ⟨fun p place single => ?host, fun single => ?port, fun cells shadow read => ?taken, fun cells shadow read => ?failed,
    fun shadow read => ?waits⟩
  case host => simp [single, State.outboundData, place]
  case port => exact ⟨_, by rw [single]; rfl⟩
  all_goals simp [shadow, State.shadowLoad, read]

end

/-- R118-R123: the loads. -/
theorem loadClaims : LoadClaims := by
  intro d a o
  refine ⟨IsLoad.loads (fun _ => rfl) ?_, IsLoad.loads (fun _ => rfl) ?_, IsLoad.loads (fun _ => rfl) ?_,
    IsLoad.loads (fun _ => rfl) ?_, IsLoad.loads (fun _ => rfl) ?_, IsLoad.loads (fun _ => rfl) ?_, IsLoad.loads (fun _ => rfl) ?_,
    IsLoad.loads (fun _ => rfl) ?_, IsLoad.loads (fun _ => rfl) ?_⟩
  all_goals exact fun s c raw => s.finishLoad_imm c _ d a o raw

/-- R340, R471: the loads through the ports. -/
theorem outboundLoadClaims : OutboundLoadClaims := fun _ _ _ =>
  ⟨IsLoad.outbound fun _ => rfl, IsLoad.outbound fun _ => rfl, IsLoad.outbound fun _ => rfl, IsLoad.outbound fun _ => rfl,
    IsLoad.outbound fun _ => rfl, IsLoad.outbound fun _ => rfl, IsLoad.outbound fun _ => rfl, IsLoad.outbound fun _ => rfl,
    IsLoad.outbound fun _ => rfl⟩

end Sys2Proof.Machine

/-! Scalar stores (R118-R124, R337, R340, R471, R509, R510). -/

namespace Sys2Proof.Machine

/-! What a store does once it reaches its bytes. -/

/-- A store of `bs` goes ahead with the order and scope of its context. -/
def State.StoreReaches (s : State) (c : CtxId) (k : Ctx) (va : Word) (bs : List Byte) (x : Access) (u : State) : Prop :=
  s.Reaches c .store va bs.length false k.pfxOrder k.pfxScope [va, wordOf bs] x u

/-- A store path with fewer than its 4 stores has room (R124). -/
theorem not_postedDepth_le {n : Nat} (room : n < 4) : ¬ Config.postedDepth ≤ n := Nat.not_le.mpr room

section
variable {s u v : State} {c : CtxId} {k : Ctx} {va : Word} {bs : List Byte} {x : Access}

/-- It is performed at its home where no lease is left (R337). -/
theorem State.scalarStore_of_performed (ctx : s.ctx c = k) (reaches : s.StoreReaches c k va bs x u) (place : x.place = .hbm)
    (single : (u.ctx c).red = none) (ordered : k.pfxOrder ≠ 1) (free : u.leaseFree x.pa bs.length = true) :
    s.scalarStore c va bs =
      ((u.writeHome c x.pa bs (writeShared (s.agent c) x) (s.did c)).retire c).awaitReply c := by
  subst ctx
  rw [State.scalarStore, State.scalarFront_of_reaches _ reaches]
  simp only [place, single, Option.isSome_none, Bool.false_eq_true, if_false, ordered, free, if_true]
  rfl

/-- A relaxed store enters the store path (R124). -/
theorem State.scalarStore_of_posted (ctx : s.ctx c = k) (reaches : s.StoreReaches c k va bs x u) (place : x.place = .hbm)
    (single : (u.ctx c).red = none) (relaxed : k.pfxOrder = 1) (room : u.postedCount c < 4) :
    s.scalarStore c va bs = (u.postStore c x.pa bs (writeShared (s.agent c) x) (s.did c)).retire c := by
  subst ctx
  rw [State.scalarStore, State.scalarFront_of_reaches _ reaches]
  simp only [place, single, Option.isSome_none, Bool.false_eq_true, if_false, relaxed, if_true, not_postedDepth_le room]
  rfl

/-- The store of a redundant member enters its commit buffer (R509). -/
theorem State.scalarStore_of_buffered {r : Redundant} (ctx : s.ctx c = k) (reaches : s.StoreReaches c k va bs x u)
    (place : x.place = .hbm) (member : (u.ctx c).red = some r) (room : u.commitRoom c bs.length = (v, true)) :
    s.scalarStore c va bs =
      (v.modCtx c fun k => k.buffered (x.pa, bs, writeShared (s.agent c) x, s.did c)).retire c := by
  subst ctx
  rw [State.scalarStore, State.scalarFront_of_reaches _ reaches]
  simp only [place, member, Option.isSome_some, if_true, room, Bool.not_true, Bool.false_eq_true, if_false]
  rfl

/-- At a function control block it writes the register, or enters the store path (R124, R459). -/
theorem State.scalarStore_of_fcb {p f off : Nat} (ctx : s.ctx c = k) (reaches : s.StoreReaches c k va bs x u)
    (place : x.place = .fcb p f off) (written : u.fcbWrite (s.agent c) p f off (wordOf bs) = (v, true)) :
    s.scalarStore c va bs = if k.pfxOrder = 1 then
        if Config.postedDepth ≤ u.postedCount c then u.stallBounded c else (u.postFar c x.pa bs (s.did c)).retire c
      else (v.retire c).awaitFar c := by
  subst ctx
  rw [State.scalarStore, State.scalarFront_of_reaches _ reaches]
  simp only [place, written, Bool.not_true, Bool.false_eq_true, if_false]
  rfl

/-- Beyond a port it closes the interval, and leaves at once or from the store path; a shadow sends nothing (R124, R340, R510). -/
theorem State.scalarStore_of_outbound (ctx : s.ctx c = k) (reaches : s.StoreReaches c k va bs x u)
    (far : (∃ p, x.place = .host p) ∨ ∃ p w off, x.place = .peer p w off)
    (closed : u.closeInterval c [va, wordOf bs] = (v, true)) :
    s.scalarStore c va bs = if k.pfxOrder = 1 then
        if (v.ctx c).isShadow then v.retire c
        else if Config.postedDepth ≤ v.postedCount c then v.stallBounded c else (v.postFar c x.pa bs (s.did c)).retire c
      else ((v.outboundWrite c x bs).retire c).awaitFar c := by
  subst ctx
  rw [State.scalarStore, State.scalarFront_of_reaches _ reaches]
  obtain ⟨p, place⟩ | ⟨p, w, off, place⟩ := far <;>
    simp only [place, closed, Bool.not_true, Bool.false_eq_true, if_false] <;> rfl

end

/-- The request of a write through a peer window (R471, R475). -/
theorem State.portRequest_peer_hostOut {s : State} {did : BitVec 7} {p f w off : Nat} (pa : Nat) (write : Bool) (n : Nat)
    (bytes : List Byte) (serves : s.servingFn p did = some f) :
    (s.portRequest did (.peer p w off) pa write n bytes).hostOut = s.hostOut ++
      [.request p f (decide ((s.fn p f).tds = 2)) write ((s.peer p w).base.toNat * 4096 + off) n bytes] := by
  simp only [State.portRequest, serves]

/-! The stores. -/

/-- A store of `val` at x[a] + o is an instruction that issues a scalar store of these bytes. -/
def IsStore (i : Instr) (a : BitVec 5) (o : BitVec 16) (val : Ctx → List Byte) : Prop :=
  ∀ s, exec i s = .next (s.issue (encode i) fun c k s => s.scalarStore c (k.ea a o) (val k))

section
variable {i : Instr} {a : BitVec 5} {o : BitVec 16} {val : Ctx → List Byte}

theorem IsStore.exec_of_issues (h : IsStore i a o val) {s : State} (issues : s.issues (encode i) = true) :
    exec i s = .next ((s.issued (encode i)).scalarStore s.cur (s.eaHere a o) (val s.here)) := by
  rw [h, State.issue_of_issues _ _ _ issues]
  rfl

theorem IsStore.stores (h : IsStore i a o val) : Stores i a o val := by
  intro s u x bs bytes issues reaches
  have ctx : (s.issued (encode i)).ctx s.cur = s.here := State.issued_ctx s _ _
  simp only [h.exec_of_issues issues, ← bytes, Host.Outcome.next.injEq]
  rw [← State.issued_agent s (encode i), ← State.issued_did s (encode i)]
  refine ⟨fun place single ordered free => State.scalarStore_of_performed ctx reaches place single ordered free,
    fun place single relaxed room => State.scalarStore_of_posted ctx reaches place single relaxed room,
    fun r v place member room => State.scalarStore_of_buffered ctx reaches place member room,
    fun p f off v place written => ⟨fun ordered => ?_, fun relaxed room => ?_⟩⟩
  · rw [State.scalarStore_of_fcb ctx reaches place written, if_neg ordered]
  · rw [State.scalarStore_of_fcb ctx reaches place written, if_pos relaxed, if_neg (not_postedDepth_le room)]

theorem IsStore.outbound (h : IsStore i a o val) : StoresOutbound i a o val := by
  intro s u v x bs bytes issues reaches far closed sent
  have runs := State.scalarStore_of_outbound (k := s.here) (State.issued_ctx s _ _) reaches far closed
  rw [State.issued_did] at runs
  simp only [h.exec_of_issues issues, ← bytes, runs, Host.Outcome.next.injEq]
  refine ⟨fun p place single ordered => ?host, fun p w off place single ordered => ?peer, fun single relaxed room => ?posted,
    fun shadow ordered => ?shadow, fun shadow relaxed => ?shadowPosted, fun p f w off place serves => ?request⟩
  case host => rw [if_neg ordered, State.outboundWrite, if_neg (by simp [single])]; simp only [place, sent]
  case peer => rw [if_neg ordered, State.outboundWrite, if_neg (by simp [single])]; simp only [place, sent]
  case posted => rw [if_pos relaxed, if_neg (by simp [single]), if_neg (not_postedDepth_le room)]
  case shadow => rw [if_neg ordered, State.outboundWrite, if_pos shadow]
  case shadowPosted => rw [if_pos relaxed, if_pos shadow]
  case request => simp only [sent, place, State.portRequest_peer_hostOut _ _ _ _ serves]

end

/-- R118-R124: the stores. -/
theorem storeClaims : StoreClaims := fun _ _ _ =>
  ⟨IsStore.stores fun _ => rfl, IsStore.stores fun _ => rfl, IsStore.stores fun _ => rfl, IsStore.stores fun _ => rfl,
    IsStore.stores fun _ => rfl, IsStore.stores fun _ => rfl⟩

/-- R340, R471: the stores through the ports. -/
theorem outboundStoreClaims : OutboundStoreClaims := fun _ _ _ =>
  ⟨IsStore.outbound fun _ => rfl, IsStore.outbound fun _ => rfl, IsStore.outbound fun _ => rfl, IsStore.outbound fun _ => rfl,
    IsStore.outbound fun _ => rfl, IsStore.outbound fun _ => rfl⟩

end Sys2Proof.Machine

/-! The checks of scalar accesses (R119, R126, R419, R476). -/

namespace Sys2Proof.Machine

/-! Misaligned accesses. -/

theorem IsLoad.misaligned {i : Instr} {a : BitVec 5} {o : BitVec 16} {n : Nat} (h : IsLoad i a o n) :
    TrapsMisaligned i a o n :=
  acts_of_issue h fun s odd => by
    rw [State.scalarLoad]
    exact State.scalarFront_misaligned _ odd

theorem length_bytesOf (v n : Nat) : (bytesOf v n).length = n := by
  induction n generalizing v with
  | zero => rfl
  | succ n ih => rw [bytesOf, List.length_cons, ih]

theorem IsStore.misaligned {i : Instr} {a : BitVec 5} {o : BitVec 16} {val : Ctx → Nat} {n : Nat}
    (h : IsStore i a o fun k => bytesOf (val k) n) : TrapsMisaligned i a o n :=
  acts_of_issue h fun s odd => by
    rw [State.scalarStore]
    exact State.scalarFront_misaligned _ (by rw [length_bytesOf]; exact odd)

/-- R119: misaligned loads and stores trap. -/
theorem misalignedClaims : MisalignedClaims := fun _ _ _ =>
  ⟨IsLoad.misaligned fun _ => rfl, IsLoad.misaligned fun _ => rfl, IsLoad.misaligned fun _ => rfl, IsLoad.misaligned fun _ => rfl,
    IsLoad.misaligned fun _ => rfl, IsLoad.misaligned fun _ => rfl, IsLoad.misaligned fun _ => rfl, IsStore.misaligned fun _ => rfl,
    IsStore.misaligned fun _ => rfl, IsStore.misaligned fun _ => rfl, IsStore.misaligned fun _ => rfl,
    IsStore.misaligned fun _ => rfl⟩

/-! The first check that fails. -/

section
variable {s : State} {ag : Agent} {kind : AccKind} {va : Word} {n : Nat}

theorem State.translate_of_not_canonical (foreign : Machine.canonical ag.mode va = false) :
    s.translate ag kind va = .error (.page false) := by
  simp [State.translate, foreign]

/-- Of an aligned access, a translation that fails is the first check that fails. -/
theorem State.checkAccess_of_translate {f : Fail} (aligned : va.toNat % n = 0) (fails : s.translate ag kind va = .error f) :
    s.checkAccess ag kind va n = .error (f.trap kind va) := by
  simp [State.checkAccess, State.check3, aligned, fails]

/-- The address lies where the access may reach nothing (R119, R403, R460, R463, R471). -/
def State.Unreachable (s : State) (ag : Agent) (kind : AccKind) (n pa : Nat) : Prop :=
  s.place pa = .nothing ∨ (s.place pa = .hbm ∧ s.granuleOk ag pa = false) ∨
    (∃ p, s.place pa = .host p ∧ s.servingFn p ag.did = none) ∨
    (∃ p w off, s.place pa = .peer p w off ∧ s.peerOk ag p w off = false) ∨
    ∃ p f off, s.place pa = .fcb p f off ∧ (n ≠ 8 ∨ kind = .amo)

theorem State.checkAccess_of_unreachable {x : Xlat} (aligned : va.toNat % n = 0) (found : s.translate ag kind va = .ok x)
    (nowhere : s.Unreachable ag kind n x.pa) : s.checkAccess ag kind va n = .error (mkTrap 9 va) := by
  have third : s.check3 ag kind va n = .error (mkTrap 9 va) := by
    obtain place | ⟨place, granule⟩ | ⟨p, place, unserved⟩ | ⟨p, w, off, place, closed⟩ | ⟨p, f, off, place, form⟩ := nowhere
    · simp [State.check3, aligned, found, place]
    · simp [State.check3, aligned, found, place, granule]
    · simp [State.check3, aligned, found, place, unserved]
    · simp [State.check3, aligned, found, place, closed]
    · have refused : ¬ (n = 8 ∧ (kind = .load ∨ kind = .store)) := by
        rintro ⟨width, rfl | rfl⟩ <;> simp [width] at form
      simp [State.check3, aligned, found, place, refused]
  simp [State.checkAccess, third]

/-- An access that passes check 3 has been translated to its place. -/
theorem State.check3_place {x : Access} (passes : s.check3 ag kind va n = .ok x) :
    s.translate ag kind va = .ok x.xl ∧ x.pa = x.xl.pa ∧ x.place = s.place x.pa := by
  grind [State.check3]

variable {x : Access}

theorem State.checkAccess_of_foreignLine (passes : s.check3 ag kind va n = .ok x) (foreign : s.lineDidOk ag x = false) :
    s.checkAccess ag kind va n = .error (mkTrap 10 va) := by
  simp [State.checkAccess, passes, foreign]

theorem State.checkAccess_of_sealed (passes : s.check3 ag kind va n = .ok x) (own : s.lineDidOk ag x = true)
    (writes : kind = .store ∨ kind = .amo) (sealed_ : (s.sealAt x.pa).isSome = true) :
    s.checkAccess ag kind va n = .error (mkTrap 12 va) := by
  simp [State.checkAccess, passes, own, writes, sealed_]

theorem State.checkAccess_of_badLine (passes : s.check3 ag .load va n = .ok x) (own : s.lineDidOk ag x = true)
    (place : x.place = .hbm) (bad : s.badLine ag.die (lineOf x.pa) = true) :
    s.checkAccess ag .load va n = .error (mkTrap 20 va) := by
  simp [State.checkAccess, passes, own, place, bad]

end

/-! The trap of the check that fails. -/

/-- A trap that is no error of a line is taken at once. -/
theorem State.accessTrap_of_ne {s : State} {c : CtxId} {kind : AccKind} {t : Trap} (cause : t.cause ≠ 20) :
    s.accessTrap c kind t = s.trap c t := by
  simp [State.accessTrap, cause]

section
variable {s u : State} {c : CtxId} {kind : AccKind} {va : Word} {n order scope : Nat} {atomic : Bool} {ops : List Word}
  {go : State → Agent → Access → State}

theorem State.scalarFront_of_fails {t : Trap} (walk : s.walkReady (s.agent c) [va] n = some u)
    (fails : s.checkAccess (s.agent c) kind va n = .error t) (cause : t.cause ≠ 20) :
    s.scalarFront c kind va n atomic order scope ops go = u.trap c t := by
  simp [State.scalarFront, walk, fails, State.offHbm, cause, State.accessTrap_of_ne]

/-- An uncorrectable error at HBM traps an atomic as it traps a load. -/
theorem State.scalarFront_of_badLine {x : Access} (walk : s.walkReady (s.agent c) [va] n = some u)
    (passes : s.check3 (s.agent c) kind va n = .ok x) (place : x.place = .hbm)
    (fails : s.checkAccess (s.agent c) kind va n = .error (mkTrap 20 va)) :
    s.scalarFront c kind va n atomic order scope ops go = u.accessTrap c kind (mkTrap 20 va) := by
  obtain ⟨found, address, at_⟩ := State.check3_place passes
  have home : s.offHbm (s.agent c) kind va (mkTrap 20 va) = false := by
    simp [State.offHbm, found, ← address, ← at_, place]
  simp [State.scalarFront, walk, fails, home]

end

/-! The scalar accesses. -/

/-- The instruction is a scalar access of n bytes at `ea`. -/
def IsAccess (i : Instr) (kind : AccKind) (n : Nat) (ea : State → Word) : Prop :=
  ∀ s, s.issues (encode i) = true → ∃ atomic order scope ops go,
    exec i s = .next ((s.issued (encode i)).scalarFront s.cur kind (ea s) n atomic order scope ops go)

theorem IsAccess.failsChecks {i : Instr} {kind : AccKind} {n : Nat} {ea : State → Word} (h : IsAccess i kind n ea)
    (data : kind ≠ .fetch) : FailsChecks i kind n ea := by
  rintro s u va rfl issues aligned t ag walk
  obtain ⟨atomic, order, scope, ops, go, runs⟩ := h s issues
  have traps {w : Trap} (fails : t.checkAccess ag kind (ea s) n = .error w) (cause : w.cause ≠ 20) :
      exec i s = .next (u.trap s.cur w) := by
    rw [runs, State.scalarFront_of_fails walk fails cause]
  have page (st2 : Bool) : (Fail.page st2).trap kind (ea s) =
      { cause := if kind = .load then 6 else 7, val := ea s, stage2 := st2 } := by
    cases kind with
    | fetch => exact absurd rfl data
    | load | store | amo => rfl
  have pageCause_ne : (if kind = .load then 6 else 7) ≠ 20 := by split <;> decide
  refine ⟨fun foreign => ?canonical, fun st2 invalid => ?page, fun denied => ?access, fun x found nowhere => ?place,
    fun x passes => ⟨fun foreign => ?line, fun own writes sealed_ => ?sealed, fun own loads place bad => ?error⟩⟩
  case canonical =>
    exact traps ((State.checkAccess_of_translate aligned (State.translate_of_not_canonical foreign)).trans (by rw [page]; rfl))
      pageCause_ne
  case page => exact traps ((State.checkAccess_of_translate aligned invalid).trans (by rw [page])) pageCause_ne
  case access => exact traps (State.checkAccess_of_translate aligned denied) (show 9 ≠ 20 by decide)
  case place => exact traps (State.checkAccess_of_unreachable aligned found nowhere) (show 9 ≠ 20 by decide)
  case line => exact traps (State.checkAccess_of_foreignLine passes foreign) (show 10 ≠ 20 by decide)
  case sealed =>
    have store : kind = .store ∨ kind = .amo := by
      cases kind with
      | load => exact absurd rfl writes
      | store => exact .inl rfl
      | amo => exact .inr rfl
      | fetch => exact absurd rfl data
    exact traps (State.checkAccess_of_sealed passes own store sealed_) (show 12 ≠ 20 by decide)
  case error =>
    subst loads
    rw [runs, State.scalarFront_of_badLine walk passes place (State.checkAccess_of_badLine passes own place bad)]

theorem IsLoad.isAccess {i : Instr} {a : BitVec 5} {o : BitVec 16} {n : Nat} (h : IsLoad i a o n) :
    IsAccess i .load n fun s => s.eaHere a o := fun s issues => by
  rw [h.exec_of_issues issues, State.scalarLoad]
  exact ⟨_, _, _, _, _, rfl⟩

theorem IsStore.isAccess {i : Instr} {a : BitVec 5} {o : BitVec 16} {val : Ctx → Nat} {n : Nat}
    (h : IsStore i a o fun k => bytesOf (val k) n) : IsAccess i .store n fun s => s.eaHere a o := fun s issues => by
  rw [h.exec_of_issues issues, State.scalarStore]
  simp only [length_bytesOf]
  exact ⟨_, _, _, _, _, rfl⟩

/-- A load fails its checks as R119 says; so do a store, an atomic, LDL and STC. -/
theorem IsLoad.failsChecks {i : Instr} {a : BitVec 5} {o : BitVec 16} {n : Nat} (h : IsLoad i a o n) :
    FailsChecks i .load n fun s => s.eaHere a o := h.isAccess.failsChecks (by decide)

theorem IsStore.failsChecks {i : Instr} {a : BitVec 5} {o : BitVec 16} {val : Ctx → Nat} {n : Nat}
    (h : IsStore i a o fun k => bytesOf (val k) n) : FailsChecks i .store n fun s => s.eaHere a o :=
  h.isAccess.failsChecks (by decide)

/-- An instruction that issues `go`, which is the front of a scalar access, is one. -/
theorem isAccess_of_issue {i : Instr} {kind : AccKind} {n : Nat} {ea : Ctx → Word} {go : CtxId → Ctx → State → State}
    (h : ∀ s, exec i s = .next (s.issue (encode i) go))
    (front : ∀ (s : State) c k, ∃ atomic order scope ops f, go c k s = s.scalarFront c kind (ea k) n atomic order scope ops f) :
    IsAccess i kind n fun s => ea s.here := fun s issues => by
  obtain ⟨atomic, order, scope, ops, f, runs⟩ := front (s.issued (encode i)) s.cur s.here
  exact ⟨atomic, order, scope, ops, f, by rw [h, State.issue_of_issues _ _ _ issues, runs]⟩

section
variable {i : Instr} {a b d : BitVec 5} {n : Nat}

theorem failsChecks_of_atomic {op : Nat} {order scope : Nat} {less : Word}
    (h : ∀ s, exec i s = .next (s.issue (encode i) fun c k s => s.atomic c op n d (k.rx a) (k.rx b) order scope less)) :
    FailsChecks i .amo n fun s => s.here.rx a :=
  (isAccess_of_issue (kind := .amo) (ea := fun k => k.rx a) h fun _ _ _ => by
    rw [State.atomic, State.atomicReady]
    exact ⟨_, _, _, _, _, rfl⟩).failsChecks (by decide)

theorem failsChecks_of_loadLinked {order scope : Nat}
    (h : ∀ s, exec i s = .next (s.issue (encode i) fun c k s => s.loadLinked c n d (k.rx a) order scope)) :
    FailsChecks i .load n fun s => s.here.rx a :=
  (isAccess_of_issue (kind := .load) (ea := fun k => k.rx a) h fun _ _ _ => by
    rw [State.loadLinked, State.atomicReady]
    exact ⟨_, _, _, _, _, rfl⟩).failsChecks (by decide)

theorem failsChecks_of_storeConditional {order scope : Nat}
    (h : ∀ s, exec i s = .next (s.issue (encode i) fun c k s => s.storeConditional c n d (k.rx a) (k.rx b) order scope)) :
    FailsChecks i .store n fun s => s.here.rx a :=
  (isAccess_of_issue (kind := .store) (ea := fun k => k.rx a) h fun _ _ _ => by
    rw [State.storeConditional, State.atomicReady]
    exact ⟨_, _, _, _, _, rfl⟩).failsChecks (by decide)

end

/-! An uncorrectable error (R476, R499). -/

/-- An access whose route retrains waits. -/
theorem State.accessTrap_of_linkWaits {s : State} {c : CtxId} {kind : AccKind} {va : Word}
    (waits : s.linkWaits (s.agent c) kind va = true) : s.accessTrap c kind (mkTrap 20 va) = s.stallBounded c := by
  rw [State.accessTrap, if_pos]
  simpa [mkTrap] using waits

/-- The error of a line is logged before its trap. -/
theorem State.accessTrap_of_errorLine {s : State} {c : CtxId} {kind : AccKind} {va : Word} {l : Nat}
    (up : s.linkWaits (s.agent c) kind va = false) (line : s.errorLine (s.agent c) kind va = some l) :
    s.accessTrap c kind (mkTrap 20 va) =
      (s.logLineError (dieField (l * 64)) ((s.ctxid c).toNat % 2 ^ 27) l).trap c (mkTrap 20 va) := by
  rw [State.accessTrap, if_neg (by simp [mkTrap, up])]
  simp [mkTrap, line]

/-- R119, R126, R419: the checks of scalar accesses. -/
theorem accessCheckClaims : AccessCheckClaims := by
  refine ⟨fun d a b o r q w => ?_, fun s c kind va =>
    ⟨State.accessTrap_of_linkWaits, fun l up line => State.accessTrap_of_errorLine up line⟩⟩
  refine ⟨?lb, ?lbu, ?lh, ?lhu, ?lw, ?lwu, ?ld, ?flw, ?fld, ?sb, ?sh, ?sw, ?sd, ?fsw, ?fsd, ?swap, ?add, ?and, ?or, ?xor, ?min,
    ?max, ?cas, ?ldl, ?stc⟩
  case lb | lbu | lh | lhu | lw | lwu | ld | flw | fld => exact IsLoad.failsChecks fun _ => rfl
  case sb | sh | sw | sd | fsw | fsd => exact IsStore.failsChecks fun _ => rfl
  case ldl => exact failsChecks_of_loadLinked fun _ => rfl
  case stc => exact failsChecks_of_storeConditional fun _ => rfl
  all_goals exact failsChecks_of_atomic fun _ => rfl

end Sys2Proof.Machine

/-! Atomics and reserved pairs (R126-R131, R273). -/

namespace Sys2Proof.Machine

/-! The value at the line. -/

theorem natOf_lt (bs : List Byte) : natOf bs < 2 ^ (8 * bs.length) := by
  induction bs with
  | nil => decide
  | cons b bs ih =>
    rw [natOf, List.length_cons, show 8 * (bs.length + 1) = 8 * bs.length + 8 by ring, pow_add]
    have head : b.toNat < 256 := b.isLt
    omega

theorem Memory.length_readN (m : Memory) (a n : Nat) : (m.readN a n).length = n := by
  induction n generalizing a with
  | zero => rfl
  | succ n ih => rw [Memory.readN, List.length_cons, ih]

/-- The low bits of a sign-extended number are the number. -/
theorem sext64_mod {w v : Nat} (width : w ≤ 64) (fits : v < 2 ^ w) : (sext64 w v).toNat % 2 ^ w = v := by
  have divides : 2 ^ w ∣ 2 ^ 64 := Nat.pow_dvd_pow 2 width
  have low : ((sext64 w v).toNat : Int) % (2 ^ w : Nat) = v := by
    rw [sext64, BitVec.toNat_ofInt, Int.toNat_of_nonneg (Int.emod_nonneg _ (by decide)),
      Int.emod_emod_of_dvd _ (Int.natCast_dvd_natCast.mpr divides), toSigned, Nat.mod_eq_of_lt fits]
    split
    · exact Int.emod_eq_of_lt (by omega) (by exact_mod_cast fits)
    · rw [Int.sub_emod_right]
      exact Int.emod_eq_of_lt (by omega) (by exact_mod_cast fits)
  exact_mod_cast low

/-- A number of 64 bits is its own sign extension. -/
theorem sext64_full {v : Nat} (fits : v < 2 ^ 64) : sext64 64 v = BitVec.ofNat 64 v := by
  apply BitVec.eq_of_toNat_eq
  rw [BitVec.toNat_ofNat, ← Nat.mod_eq_of_lt (sext64 64 v).isLt, sext64_mod (Nat.le_refl 64) fits, Nat.mod_eq_of_lt fits]

/-! What an atomic, LDL or STC does once it reaches its line. -/

section
variable {s u : State} {kind : AccKind} {va : Word} {n order scope : Nat} {ops : List Word} {x : Access}

theorem State.atomicReady_of_reaches (go : State → Agent → Access → State)
    (reaches : s.AtomicReaches kind va n order scope ops x u) :
    s.atomicReady s.cur kind va n order scope ops go = go u (s.agent s.cur) x := by
  obtain ⟨v, front, closed, -⟩ := reaches
  simp [State.atomicReady, State.scalarFront_of_reaches _ front, closed]

theorem State.AtomicReaches.leaseFree (reaches : s.AtomicReaches kind va n order scope ops x u) :
    u.leaseFree x.pa n = true := by
  obtain ⟨-, -, -, free⟩ := reaches
  exact free

/-- A context in no redundant pair is kept on the way to its line, and so are all others. -/
theorem State.AtomicReaches.kept (reaches : s.AtomicReaches kind va n order scope ops x u) (single : (s.ctx s.cur).red = none) :
    s.CtxKept u := by
  obtain ⟨v, front, closed, -⟩ := reaches
  have there : s.CtxKept v := front.kept single
  have alone : (v.ctx s.cur).red = none := (congrArg Ctx.red (there s.cur)).trans single
  obtain rfl : v = u := by simpa [State.closeInterval, alone] using closed
  exact there

end

/-- A context in no redundant pair is no shadow. -/
theorem Ctx.isShadow_of_single {k : Ctx} (single : k.red = none) : k.isShadow = false := by
  simp [Ctx.isShadow, single]

section
variable {s t : State} {c : CtxId}

theorem State.CtxKept.ctx_eq (h : s.CtxKept t) : t.ctx c = (s.ctx c).accessOf (t.ctx c) := h c
theorem State.CtxKept.red (h : s.CtxKept t) : (t.ctx c).red = (s.ctx c).red := by rw [h.ctx_eq]; rfl
theorem State.CtxKept.log (h : s.CtxKept t) : (t.ctx c).log = (s.ctx c).log := by rw [h.ctx_eq]; rfl
theorem State.CtxKept.rx (h : s.CtxKept t) (r : BitVec 5) : (t.ctx c).rx r = (s.ctx c).rx r := by rw [h.ctx_eq]; rfl

end

section
variable {s u : State} {va v : Word} {n order scope : Nat} {d : BitVec 5} {x : Access}

/-- An atomic writes the old value to x[d], less `less`, and performs the new one at the home (R126). -/
theorem State.atomic_of_reaches {op : Nat} {less : Word} (single : (s.ctx s.cur).red = none) (unlogged : (s.ctx s.cur).log = none)
    (width : 8 * n ≤ 64) (reaches : s.AtomicReaches .amo va n order scope
      (if op = 7 then [va, v, (s.ctx s.cur).rx d] else [va, v]) x u) :
    let w := u.flushSeen s.cur x.pa n
    let old := natOf (w.mem.readN x.pa n)
    let y := amoNew op n old (v.toNat % 2 ^ (8 * n)) (((s.ctx s.cur).rx d).toNat % 2 ^ (8 * n))
    let seen := w.noteRead s.cur (decide (order ≠ 1)) x.pa n
    s.atomic s.cur op n d va v order scope less =
      ((if op = 7 ∧ y = old then (seen.homeUse s.cur false x.pa n).leaveHome s.cur x.pa n
        else seen.writeHome s.cur x.pa (bytesOf y n) (writeShared (s.agent s.cur) x) (s.did s.cur)).retireX s.cur d
          (sext64 (8 * n) old - less)).awaitReply s.cur := by
  intro w old y seen
  have kept : s.CtxKept seen :=
    ((reaches.kept single).trans (State.flushSeen_kept u s.cur x.pa n)).trans (State.noteRead_kept _ _ _ _ _)
  have alone : (seen.ctx s.cur).red = none := kept.red.trans single
  have stored : (sext64 (8 * n) old - less + less).toNat % 2 ^ (8 * n) = old := by
    rw [BitVec.sub_add_cancel]
    exact sext64_mod width (by simpa only [Memory.length_readN] using natOf_lt (w.mem.readN x.pa n))
  dsimp only [old, w] at stored
  rw [State.atomic, State.atomicReady_of_reaches _ reaches]
  dsimp only
  rw [if_neg (by simp [reaches.leaseFree]), State.withLogged_plain _ _ _ _ _ alone (kept.log.trans unlogged)]
  simp only [List.getD_cons_zero, stored]
  rw [if_neg (Bool.eq_false_iff.mp (Ctx.isShadow_of_single alone)), kept.rx d]
  rfl

/-- LDL writes the value and sets the reservation (R129). -/
theorem State.loadLinked_of_reaches (single : (s.ctx s.cur).red = none) (unlogged : (s.ctx s.cur).log = none)
    (reaches : s.AtomicReaches .load va n order scope [va] x u) :
    let w := u.flushSeen s.cur x.pa n
    let r := ((w.noteRead s.cur (decide (order ≠ 1)) x.pa n).homeUse s.cur false x.pa n).leaveHome s.cur x.pa n
    s.loadLinked s.cur n d va order scope =
      ((r.retireX s.cur d (sext64 (8 * n) (natOf (w.view s.cur (dieOf s.cur) x.pa n)))).modCtx s.cur
        fun k => { k with resv := some { ea := va, w := n, line := lineOf x.pa } }).awaitReply s.cur := by
  intro w r
  have kept : s.CtxKept (w.noteRead s.cur (decide (order ≠ 1)) x.pa n) :=
    ((reaches.kept single).trans (State.flushSeen_kept u s.cur x.pa n)).trans (State.noteRead_kept _ _ _ _ _)
  have alone := kept.red.trans single
  rw [State.loadLinked, State.atomicReady_of_reaches _ reaches]
  dsimp only
  rw [if_neg (by simp [reaches.leaseFree]), State.withLogged_plain _ _ _ _ _ alone (kept.log.trans unlogged),
    if_neg (Bool.eq_false_iff.mp (Ctx.isShadow_of_single alone))]
  rfl

/-- STC stores and answers 0 if the reservation holds, else answers 1 (R130, R131). -/
theorem State.storeConditional_of_reaches (single : (s.ctx s.cur).red = none) (unlogged : (s.ctx s.cur).log = none)
    (reaches : s.AtomicReaches .store va n order scope [va, v] x u) :
    let w := u.flushSeen s.cur x.pa n
    let r := w.modCtx s.cur fun k => { k with resv := none }
    s.storeConditional s.cur n d va v order scope =
      ((if (w.ctx s.cur).reserves va n = true then
          r.writeHome s.cur x.pa (bytesOf v.toNat n) (writeShared (s.agent s.cur) x) (s.did s.cur)
        else (r.homeUse s.cur false x.pa n).leaveHome s.cur x.pa n).retireX s.cur d
          (if (w.ctx s.cur).reserves va n = true then 0 else 1)).awaitReply s.cur := by
  intro w r
  have kept : s.CtxKept w := (reaches.kept single).trans (State.flushSeen_kept u s.cur x.pa n)
  have alone : (r.ctx s.cur).red = none := by
    rw [State.modCtx_ctx_same]
    exact kept.red.trans single
  rw [State.storeConditional, State.atomicReady_of_reaches _ reaches]
  dsimp only
  rw [if_neg (by simp [reaches.leaseFree]), State.withLogged_plain _ _ _ _ _ (kept.red.trans single) (kept.log.trans unlogged)]
  rw [if_neg (Bool.eq_false_iff.mp (Ctx.isShadow_of_single alone))]
  cases (w.ctx s.cur).reserves va n <;> rfl

end

/-! The atomics. -/

theorem amoBytes_le (w : BitVec 1) : 8 * amoBytes w ≤ 64 := by
  unfold amoBytes
  split <;> decide

/-- The atomic with operation `op` of the model is the atomic with the new value that the operation has. -/
theorem atomically_of_issue {i : Instr} {op : Nat} {cas : Bool} {d a b : BitVec 5} {w : BitVec 1} {o sc : BitVec 3}
    {new : Nat → Nat → Nat → Nat → Nat}
    (h : ∀ s, exec i s = .next (s.issue (encode i) fun c k s =>
      s.atomic c op (amoBytes w) d (k.rx a) (k.rx b) o.toNat sc.toNat 0))
    (swaps : cas = decide (op = 7)) (value : ∀ old v x, amoNew op (amoBytes w) old v x = new (8 * amoBytes w) old v x) :
    Atomically i cas d a b w o sc new := by
  intro s u x issues single unlogged reaches
  have ctx : (s.issued (encode i)).ctx (s.issued (encode i)).cur = s.here := State.issued_here s _
  have runs := State.atomic_of_reaches (s := s.issued (encode i)) (op := op) (less := 0) (v := s.here.rx b) (d := d)
    (by rw [ctx]; exact single) (by rw [ctx]; exact unlogged) (amoBytes_le w)
    (by rw [ctx]; simpa [swaps] using reaches)
  rw [h, State.issue_of_issues _ _ _ issues, ← State.issued_cur s (encode i), runs]
  simp only [swaps, decide_eq_true_eq, sub_zero, value, ctx, State.issued_agent, State.issued_did]
  rfl

/-- R126: the atomics. -/
theorem atomicClaims : AtomicClaims := by
  intro d a b sc o w
  refine ⟨?_, ?_, ?_, ?_, ?_, ?_, ?_, ?_⟩
  all_goals exact atomically_of_issue (fun _ => rfl) rfl fun _ _ _ => rfl

/-- R129-R131: the reserved pair. -/
theorem reservedClaims : ReservedClaims := by
  intro d a b sc o w s u x single unlogged
  refine ⟨fun issues reaches => ?ldl, fun issues reaches => ?stc⟩
  case ldl =>
    have runs := State.loadLinked_of_reaches (d := d) (by rw [State.issued_ctx, State.issued_cur]; exact single)
      (by rw [State.issued_ctx, State.issued_cur]; exact unlogged) reaches
    rw [State.issued_cur] at runs
    exact congrArg Host.Outcome.next ((State.issue_of_issues _ _ _ issues).trans runs)
  case stc =>
    have runs := State.storeConditional_of_reaches (d := d) (by rw [State.issued_ctx, State.issued_cur]; exact single)
      (by rw [State.issued_ctx, State.issued_cur]; exact unlogged) reaches
    rw [State.issued_cur, State.issued_agent, State.issued_did] at runs
    exact congrArg Host.Outcome.next ((State.issue_of_issues _ _ _ issues).trans runs)

/-- An atomic addition of -1 is a decrement modulo 2^64. -/
theorem amoNew_minusOne (old x : Nat) :
    amoNew 1 8 old ((BitVec.allOnes 64).toNat % 2 ^ (8 * 8)) x = (old + (2 ^ 64 - 1)) % 2 ^ 64 := by
  have minusOne : (BitVec.allOnes 64).toNat % 2 ^ (8 * 8) = 2 ^ 64 - 1 := by decide
  rw [minusOne]
  simp [amoNew]

/-- R273: JOINDEC. -/
theorem joinDecClaims : JoinDecClaims := by
  intro d a s u x issues single unlogged reaches v old
  have fits : old < 2 ^ 64 := by simpa only [Memory.length_readN] using natOf_lt (v.mem.readN x.pa 8)
  have runs := State.atomic_of_reaches (op := 1) (less := 1) (d := d) (by rw [State.issued_ctx, State.issued_cur]; exact single)
    (by rw [State.issued_ctx, State.issued_cur]; exact unlogged) (by decide) reaches
  rw [State.issued_cur, State.issued_agent, State.issued_did] at runs
  dsimp only at runs
  rw [if_neg (fun h => absurd h.1 (by decide)), amoNew_minusOne, sext64_full fits] at runs
  exact congrArg Host.Outcome.next ((State.issue_of_issues _ _ _ issues).trans runs)

end Sys2Proof.Machine

/-! Events of the memory hierarchy (R117, R299, R300, R315, R336-R343, R350, R364, R421). -/

namespace Sys2Proof.Machine

/-! Fills of the instruction cache and page walks (R299, R300, R421). -/

/-- The end of a fill changes contexts alone. -/
theorem State.endFills_only (s : State) (core : CoreId) : s.endFills core = { s with ctxs := (s.endFills core).ctxs } := by
  unfold State.endFills
  generalize upFrom (core * 8) 8 = cs
  induction cs generalizing s with
  | nil => rfl
  | cons c cs ih =>
    rw [List.foldl_cons]
    split
    · exact ih (s.modCtx c _)
    · exact ih s

theorem State.endFills_core (s : State) (core k : CoreId) : (s.endFills core).core k = s.core k := by
  have cores : (s.endFills core).cores = s.cores := by rw [State.endFills_only]
  rw [State.core, cores, State.core]

theorem State.endFills_mem (s : State) (core : CoreId) : (s.endFills core).mem = s.mem := by
  rw [State.endFills_only]

section
variable {s u : State} {core pa : Nat} {err : BitVec 2}

/-- A filled line is in the instruction cache of its core. -/
theorem Core.fillIcache_find? (k : Core) (line : Nat) (v : BitVec 512) : (k.fillIcache line v).icache.find? line = some v := by
  simp [Core.fillIcache, icacheLines, Tbl.find?]

theorem execIcacheFill_of_filled (good : err ≠ 3) (wanted : s.fillable (core / 64) pa = true) (served : s.fillsServed core = true)
    (line : (s.logCorrected core 0xFFFFFFFF (lineOf pa) err).readLine (core / 64) (lineOf pa) = some u) :
    exec (.icacheFill core pa err) s = .next ((u.modCore core fun k =>
      k.fillIcache (lineOf pa) (u.codeLine (core / 64) (lineOf pa))).endFills core) := by
  show execIcacheFill core pa err s = _
  rw [execIcacheFill, if_neg (by simp [wanted]), if_neg (by simp [served]), if_neg good, line]

end

/-- A page walk whose tables are in HBM and read (R416, R421). -/
theorem execPageWalk_of_walked {s u : State} {c : Nat} {va : Word} {write exec' : Bool}
    (near : s.hostTables (s.agent c) (s.tablesOf (s.agent c) [va] 1) = [])
    (walk : s.walkReady (s.agent c) [va] 1 = some u) :
    exec (.pageWalk c va write exec') s = .next (match s.walk (s.agent c) va with
      | .ok x => if Machine.canonical (s.ctx c).mode va &&
          x.grants2 (if exec' then .fetch else if write then .store else .load) then u.fillTlb (s.agent c) va x else u
      | .error _ => u) := by
  show execPageWalk c va write exec' s = _
  simp only [execPageWalk, near, walk]
  rfl

/-- R117, R299, R300, R421: fills and walks. -/
theorem fillClaims : FillClaims := by
  intro core pa c err va write exec'
  refine ⟨fun s idle => ?idle, fun s waits => ?port, fun s fails => ?fails, fun good s misses => ?misses,
    fun s u good wanted served line => ?fills, fun s far => ?far, fun s waits => ?home, fun s u near walk => ?walks⟩
  case idle =>
    show execIcacheFill core pa err s = _
    simp [execIcacheFill, idle]
  case port =>
    show execIcacheFill core pa err s = _
    simp [execIcacheFill, waits]
  case fails =>
    show execIcacheFill core pa 3 s = _
    simp [execIcacheFill, fails]
  case misses =>
    obtain ⟨wanted, served, none⟩ := misses
    show execIcacheFill core pa err s = _
    rw [execIcacheFill, if_neg (by simp [wanted]), if_neg (by simp [served]), if_neg good, none]
  case fills =>
    refine ⟨execIcacheFill_of_filled good wanted served line, _, execIcacheFill_of_filled good wanted served line, ?_, ?_⟩
    · rw [State.endFills_core, State.modCore_core_same, Core.fillIcache_find?]
    · rw [State.endFills_mem, State.modCore_mem]
  case far =>
    show execPageWalk c va write exec' s = _
    simp only [execPageWalk]
    rw [if_pos (by simpa using far)]
  case home =>
    obtain ⟨near, none⟩ := waits
    show execPageWalk c va write exec' s = _
    simp only [execPageWalk, not_not.mp near, none]
    rfl
  case walks =>
    rw [execPageWalk_of_walked (not_not.mp near) walk]
    refine ⟨fun x found canon grants => ?_, fun x found fails => ?_, fun x failed => ?_⟩
    · simp only [found, canon, grants, Bool.and_self, if_true]
    · simp only [found]
      rw [if_neg (by obtain h | h := fails <;> simp [h])]
    · simp only [failed]

end Sys2Proof.Machine

/-! Leases, writes at their homes, token buckets and time (R315, R336-R338, R342, R343, R350, R364). -/

namespace Sys2Proof.Machine

/-! Lease expiry (R336, R338). -/

theorem Tbl.find?_erase_same {α : Type} (t : Tbl α) (n : Nat) : Tbl.find? (Tbl.erase t n) n = none := by
  induction t with
  | nil => rfl
  | cons e t ih =>
    by_cases here : e.1 = n
    · simp [Tbl.erase, here, ih]
    · simp [Tbl.erase, Tbl.find?, here, ih]

/-- An entry of a table that a map has changed by its index. -/
theorem Tbl.find?_mapIdx {α : Type} (g : Nat → α → α) (t : Tbl α) (n : Nat) :
    Tbl.find? (t.map fun e => (e.1, g e.1 e.2) : Tbl α) n = (Tbl.find? t n).map (g n) := by
  induction t with
  | nil => rfl
  | cons e t ih =>
    by_cases here : e.1 = n
    · simp [Tbl.find?, here]
    · simpa [Tbl.find?, here] using ih

/-- A change of all cores of a die changes a listed core of the die, and no core that is as at reset if it keeps that one so. -/
theorem State.modDieCores_core {s : State} {die : Nat} {g : Core → Core} {k : CoreId} (inDie : k / 64 = die)
    (prop : Core → Prop) (after : ∀ q, prop (g q)) (reset : prop Core.reset) : prop ((s.modDieCores die g).core k) := by
  have entry := Tbl.find?_mapIdx (fun n q => if n / 64 = die then g q else q) s.cores k
  have table : (s.modDieCores die g).cores = s.cores.map fun e => (e.1, if e.1 / 64 = die then g e.2 else e.2) :=
    List.map_congr_left fun e _ => by split <;> rfl
  rw [State.core, Tbl.getD, table, entry]
  cases Tbl.find? s.cores k with
  | none => exact reset
  | some q => simpa [inDie] using after q

theorem Core.expireLine_l1 (k : Core) (line : Nat) : line ∉ (k.expireLine line).l1 := by
  simp [Core.expireLine, Core.dropL1]

/-- A line that is gone leaves its seal, and nothing else changes (R265). -/
theorem State.lineGone_only (s : State) (die line : Nat) :
    s.lineGone die line = { s with dies := (s.lineGone die line).dies, agenda := (s.lineGone die line).agenda } := by
  simp only [State.lineGone, State.leaveSeal]
  repeat' split
  all_goals rfl

theorem State.modDie_copies {s : State} {n d : Nat} {g : Die → Die} (keeps : ∀ q : Die, (g q).copies = q.copies) :
    ((s.modDie n g).die d).copies = (s.die d).copies := by
  by_cases same : d = n
  · rw [same, State.modDie_die_same, keeps]
  · rw [State.modDie_die_other s n d g same]

theorem State.leaveSeal_copies (s : State) (die home i d : Nat) (e : Seal) :
    ((s.leaveSeal die home i e).die d).copies = (s.die d).copies := by
  have kept (holder : Seal) := State.modDie_copies (s := s) (n := home) (d := d)
    (g := fun q => { q with seals := q.seals.set i holder }) fun _ => rfl
  unfold State.leaveSeal
  dsimp only
  split <;> exact kept _

theorem State.lineGone_copies (s : State) (die line d : Nat) : ((s.lineGone die line).die d).copies = (s.die d).copies := by
  unfold State.lineGone
  split
  · split
    · exact State.leaveSeal_copies s die _ _ d _
    · rfl
  · rfl

theorem State.modDieCores_die (s : State) (die d : Nat) (g : Core → Core) : (s.modDieCores die g).die d = s.die d := rfl

theorem State.lateInbox_of_none {s : State} (line : Nat) (idle : s.held = []) : s.lateInbox line = s := by
  simp [State.lateInbox, idle]

/-- The state in which a lease of a die has run out: its copies and its caches are without the line. -/
def State.expired (s : State) (die line : Nat) : State :=
  ((s.modDie die fun d => { d with copies := d.copies.erase line }).modDieCores die fun k => k.expireLine line).lineGone die line

theorem State.expired_copies (s : State) (die line : Nat) : ((s.expired die line).die die).copies.find? line = none := by
  rw [State.expired, State.lineGone_copies, State.modDieCores_die, State.modDie_die_same]
  exact Tbl.find?_erase_same _ _

theorem State.expired_l1 (s : State) (die line : Nat) {k : CoreId} (inDie : k / 64 = die) :
    line ∉ ((s.expired die line).core k).l1 := by
  have cores (u : State) : (u.lineGone die line).cores = u.cores := by rw [State.lineGone_only]
  rw [State.core, State.expired, cores]
  exact State.modDieCores_core inDie (fun q => line ∉ q.l1) (fun q => Core.expireLine_l1 q line) (by simp [Core.reset])

theorem State.expired_mem (s : State) (die line : Nat) : (s.expired die line).mem = s.mem := by
  rw [State.expired, State.lineGone_only]
  rfl

theorem State.expired_ctxs (s : State) (die line : Nat) : (s.expired die line).ctxs = s.ctxs := by
  rw [State.expired, State.lineGone_ctxs]
  rfl

theorem State.expired_held (s : State) (die line : Nat) : (s.expired die line).held = s.held := by
  rw [State.expired, State.lineGone_only]
  rfl

/-! The home performs a pending write (R342, R348). -/

theorem inOrder_single (p : PWrite) : inOrder [p] = [p] := by
  cases h : p.atDie <;> simp [inOrder, h]

/-- The one pending write, selected and free of leases, is performed. -/
theorem State.flush_single {s : State} {p : PWrite} {sel : PWrite → Bool} (one : s.pend = [p]) (picks : sel p = true)
    (free : s.leaseFree p.addr p.bytes.length = true) : s.flush sel = s.performPend p := by
  simp [State.flush, one, inOrder_single, State.picked, picks, free]

theorem State.endPend_memKept (s : State) (p : PWrite) :
    State.MemKept { s with pend := s.pend.filter fun q => q.id ≠ p.id } (s.endPend p) := by
  refine State.MemKept.trans ?_ (State.MemKept.foldl State.serveMisses_memKept _ _)
  exact ⟨rfl, rfl, rfl, id⟩

/-- It is no longer pending, and memory has its bytes. -/
theorem State.performPend_single {s : State} {p : PWrite} (one : s.pend = [p]) (lines : s.errLines = []) (caches : s.sramErrs = []) :
    (s.performPend p).pend = [] ∧ (s.performPend p).mem = s.mem.writeA p.addr p.bytes := by
  have performed := State.performHome_of_clean p.writer p.addr p.bytes p.shared p.did lines caches
  have ended := State.endPend_memKept (s.performHome p.writer p.addr p.bytes p.shared p.did) p
  refine ⟨ended.pend.trans ?_, ended.mem.trans performed.mem⟩
  dsimp only
  rw [performed.pend]
  simp [one]

/-! Token buckets (R350). -/

/-- The bucket of index `l`. -/
def bucketAt (b : Vector Nat 8) (l : Nat) : Nat := b.toList.getD l 0

theorem bucketAt_eq (b : Vector Nat 8) {l : Nat} (range : l < 8) : bucketAt b l = b[l] := by
  simp [bucketAt, range]

theorem bucketAt_setIfInBounds {b : Vector Nat 8} {l m v : Nat} (range : l < 8) :
    bucketAt (b.setIfInBounds m v) l = if l = m then v else bucketAt b l := by
  simp only [bucketAt_eq _ range]
  simp [Vector.getElem_setIfInBounds, eq_comm]

/-- What the refill makes of bucket `l` (R350). -/
def Core.refillOf (k : Core) (l v : Nat) : Nat := if k.rate l = 0 then v else min (16 * bucketDepth k.dptoken l) (v + k.rate l)

/-- The refill of one bucket. -/
def Core.refillOne (k : Core) (b : Vector Nat 8) (m : Nat) : Vector Nat 8 :=
  if k.rate m = 0 then b
  else b.setIfInBounds m (min (16 * bucketDepth k.dptoken m) (b.toList.getD m 0 + k.rate m))

theorem Core.bucketAt_refillOne (k : Core) (b : Vector Nat 8) (m : Nat) {l : Nat} (range : l < 8) :
    bucketAt (k.refillOne b m) l = if l = m then k.refillOf l (bucketAt b l) else bucketAt b l := by
  unfold Core.refillOne Core.refillOf
  by_cases idle : k.rate m = 0
  · rw [if_pos idle]
    split
    · subst m; rw [if_pos idle]
    · rfl
  · rw [if_neg idle, bucketAt_setIfInBounds range]
    split
    · subst m; rw [if_neg idle]; rfl
    · rfl

theorem Core.bucketAt_refills (k : Core) (b : Vector Nat 8) (a n : Nat) {l : Nat} (range : l < 8) :
    bucketAt ((upFrom a n).foldl k.refillOne b) l =
      if a ≤ l ∧ l < a + n then k.refillOf l (bucketAt b l) else bucketAt b l := by
  induction n generalizing a b with
  | zero => rw [if_neg (by omega)]; rfl
  | succ n ih =>
    rw [upFrom, List.foldl_cons, ih, Core.bucketAt_refillOne k b a range]
    by_cases first : l = a
    · rw [if_neg (by omega), if_pos first, if_pos (by omega)]
    · rw [if_neg first]
      congr 1
      exact propext (by omega)

/-- R350: a bucket with a rate fills by its rate up to its depth. -/
theorem Core.refilled_bucket (k : Core) {l : Nat} (range : l < 8) :
    bucketAt k.refilled.buckets l = k.refillOf l (bucketAt k.buckets l) := by
  rw [show k.refilled.buckets = (upFrom 0 8).foldl k.refillOne k.buckets from rfl, Core.bucketAt_refills k _ 0 8 range,
    if_pos (by omega)]

/-! The events. -/

theorem execLeaseExpiry_of_noInbox {s : State} (die line : Nat) (idle : s.held = []) :
    exec (.leaseExpiry die line) s =
      .next (if (s.die die).copies.getD line 0 ≤ s.clk ∧ s.near die line = false then s.expired die line else s) := by
  show execLeaseExpiry die line s = _
  unfold execLeaseExpiry
  split
  · exact congrArg Host.Outcome.next (State.lateInbox_of_none line ((State.expired_held s die line).trans idle))
  · exact congrArg Host.Outcome.next (State.lateInbox_of_none line idle)

/-- R315: TIME goes on from its value, at the new rate. -/
theorem execPtpTimestampExchange_keeps (ppm : Int) (s : State) :
    ∃ t, exec (.ptpTimestampExchange ppm) s = .next t ∧ t.timeBaseNow = s.timeBaseNow ∧
      t.timeParts = s.timeParts % 2000000 ∧ t.ppm = max (-200) (min 200 ppm) ∧ t.clk = s.clk ∧ t.mem = s.mem := by
  refine ⟨_, rfl, ?_, ?_, rfl, rfl, rfl⟩
  · simp [State.timeBaseNow, State.timeParts]
  · simp [State.timeParts]

/-- A write whose inbound requests are none of a function's acts as its place in the die says (R342, R348). -/
theorem execHomeWritePerform_of_own {s : State} {id : Nat} {p : PWrite}
    (pending : s.pend.find? (fun q => decide (q.id = id)) = some p) (own : s.fnOfWrite id = none) :
    exec (.homeWritePerform id) s = .next (if p.atDie = false then s.after 8 (.homeWritePerform id)
      else if p.waits = true ∧ ((s.flush fun q => decide (q.id = id)).pend.any fun q => decide (q.id = id)) = true then
        (s.flush fun q => decide (q.id = id)).after 8 (.homeWritePerform id)
      else s.flush fun q => decide (q.id = id)) := by
  show execHomeWritePerform id s = _
  simp only [execHomeWritePerform, pending, own, Bool.not_eq_true', Bool.and_eq_true]

/-- A write of an inbound request is performed for its function, in the order of its requests. -/
theorem execHomeWritePerform_of_host {s : State} {id port fn : Nat} {p : PWrite}
    (pending : s.pend.find? (fun q => decide (q.id = id)) = some p) (inbound : s.fnOfWrite id = some (port, fn)) :
    exec (.homeWritePerform id) s = .next (if s.earlierReqs port fn id = true then s.after 8 (.homeWritePerform id)
      else if s.leaseFree p.addr p.bytes.length = true then s.performHost p port fn
      else if p.waits then s.after 8 (.homeWritePerform id) else s.waitHome p) := by
  show execHomeWritePerform id s = _
  simp only [execHomeWritePerform, pending, inbound]

/-- R315, R336-R338, R342, R343, R350, R364: the events of the hierarchy. -/
theorem memoryEventClaims : MemoryEventClaims := by
  intro die line core id
  refine ⟨fun s u read => ?hit, fun s missed => ?miss, fun s ended far idle => ?expires, fun s ⟨kept, idle⟩ => ?leased,
    fun s _ => rfl, fun s gone => ?performed, fun s p pending => ⟨fun own => ⟨fun early => ?early, fun there => ?own⟩,
      fun port fn inbound => ⟨fun earlier => ?ordered, fun first free => ?host, fun first leased => ?waits⟩⟩,
    fun s p one _ there own lines caches free => ?single, fun s _ => rfl, fun k l range => ?bucket,
    execPtpTimestampExchange_keeps⟩
  case hit =>
    show execHomeMiss die line s = _
    rw [execHomeMiss, read]
    rfl
  case miss =>
    show execHomeMiss die line s = _
    rw [execHomeMiss, missed]
    rfl
  case expires =>
    exact ⟨s.expired die line, by rw [execLeaseExpiry_of_noInbox die line idle, if_pos ⟨ended, far⟩],
      State.expired_copies s die line, State.expired_mem s die line, State.expired_ctxs s die line,
      fun k inDie => State.expired_l1 s die line inDie⟩
  case leased =>
    rw [execLeaseExpiry_of_noInbox die line idle, if_neg]
    rintro ⟨ended, far⟩
    obtain running | near := kept
    · omega
    · simp [near] at far
  case performed =>
    have none : s.pend.find? (fun p => decide (p.id = id)) = none := by simpa using gone
    show execHomeWritePerform id s = _
    rw [execHomeWritePerform, none]
  case early => rw [execHomeWritePerform_of_own pending own, if_pos early]
  case own => rw [execHomeWritePerform_of_own pending own, if_neg (by simp [there])]
  case ordered => rw [execHomeWritePerform_of_host pending inbound, if_pos earlier]
  case host => rw [execHomeWritePerform_of_host pending inbound, if_neg (by simp [first]), if_pos free]
  case waits => rw [execHomeWritePerform_of_host pending inbound, if_neg (by simp [first]), if_neg (by simp [leased])]
  case single =>
    have performed := State.flush_single (sel := fun q => decide (q.id = p.id)) one (by simp) free
    obtain ⟨done, bytes⟩ := State.performPend_single one lines caches
    refine ⟨s.performPend p, ?_, done, bytes⟩
    rw [execHomeWritePerform_of_own (p := p) (by simp [one]) own, if_neg (by simp [there]), performed, done]
    simp
  case bucket => exact Core.refilled_bucket k range

end Sys2Proof.Machine

/-! The statements of spec/04_scalar_instructions.md. -/

namespace Sys2Proof.Proofs

open Sys2Proof.Machine

/-- Settles O1: each row of the group and each immediate form by its value. -/
theorem scalarInteger : Obligations.ScalarInteger := ⟨aluClaims, immediateClaims⟩

/-- Settles O2: truncated division by the signs of its operands, and LUT3 bit by bit. -/
theorem mulDiv : Obligations.MulDiv := mulDivClaims

/-- Settles O3: every form issues its word, rounds once, and ORs its flags. -/
theorem floatResults : Obligations.FloatResults := ⟨floatClaims, floatMoveClaims⟩

/-- Settles O4: targets and links by what a jump can do, and the branches by their conditions. -/
theorem jumps : Obligations.Jumps := ⟨jumpClaims, jumpTrapClaims⟩

/-- Settles O5: a load by the place that its checks give it. -/
theorem loads : Obligations.Loads := ⟨loadClaims, outboundLoadClaims⟩

/-- Settles O6: a store by the place that its checks give it, its order and its context's pair. -/
theorem stores : Obligations.Stores := ⟨storeClaims, outboundStoreClaims⟩

/-- Settles O7: the front of every scalar access by the first check that fails. -/
theorem accessChecks : Obligations.AccessChecks := ⟨misalignedClaims, accessCheckClaims⟩

/-- Settles O8: an atomic by its operation on the line that it reaches, and the reserved pair by the reservation. -/
theorem atomics : Obligations.Atomics := ⟨atomicClaims, reservedClaims, joinDecClaims⟩

/-- Settles O38: each event by what its branch leaves of the caches, the leases, the pending writes and memory. -/
theorem memoryEvents : Obligations.MemoryEvents := ⟨fillClaims, memoryEventClaims⟩

/-- Settles O51: an instruction changes its own context in its result, its flags and what belongs to it. -/
theorem scalarFrame : Obligations.ScalarFrame := ⟨integerFrameClaims, floatFrameClaims⟩

/-- Settles O53: canonical memories are determined by their bytes, and what a store does on its way keeps memory. -/
theorem memoryLaws : Obligations.MemoryLaws := ⟨memoryClaims, storeFrameClaims⟩

/-- Settles O56: the decoder runs on the ten words. -/
theorem decodeWords : Obligations.DecodeWords := ⟨rfl, rfl, rfl, rfl, rfl, rfl, rfl, rfl, rfl, rfl⟩

end Sys2Proof.Proofs

/-! Vector configuration: FORM, SHAPE and lane groups (R141-R153). -/

namespace Sys2Proof.Machine

/-! FORM and SHAPE as instructions read and write them (R144-R147). -/

/-- R144-R146: VFORM and VFORMI exchange FORM; VFORM checks its operand first. -/
theorem formClaims : FormClaims := by
  intro d a v
  refine ⟨acts_of_issue (fun _ => rfl) fun s legal => ?_, acts_of_issue (fun _ => rfl) fun s illegal => ?_,
    acts_of_issue (fun _ => rfl) fun _ _ => rfl⟩
  · simp only [legal, if_true, BitVec.ofNat_toNat]
    rfl
  · simp only [illegal, Bool.false_eq_true, if_false]
    rfl

/-- R147: VRDSHAPE reads SHAPE once the queues of its context are empty. -/
theorem readShapeClaims : ReadShapeClaims := fun _ =>
  ⟨acts_of_issue (fun _ => rfl) fun _ empty => if_pos empty,
    acts_of_issue (fun _ => rfl) fun _ busy => if_neg (by simp [busy])⟩

/-! Changes of several contexts, one after the other. -/

section
variable {α : Type} (place : α → CtxId) (g : α → Ctx → Ctx)

theorem State.foldl_modCtx_ctx_other {q : CtxId} {l : List α} (apart : ∀ a ∈ l, q ≠ place a) (s : State) :
    (l.foldl (fun t a => t.modCtx (place a) (g a)) s).ctx q = s.ctx q := by
  induction l generalizing s with
  | nil => rfl
  | cons a l ih =>
    rw [List.foldl_cons, ih (fun b hb => apart b (List.mem_cons_of_mem a hb)),
      State.modCtx_ctx_other _ _ _ _ (apart a List.mem_cons_self)]

/-- A context that is changed once has that change. -/
theorem State.foldl_modCtx_ctx_mem {l : List α} (once : (l.map place).Nodup) {a : α} (ha : a ∈ l) (s : State) :
    (l.foldl (fun t a => t.modCtx (place a) (g a)) s).ctx (place a) = g a (s.ctx (place a)) := by
  induction l generalizing s with
  | nil => cases ha
  | cons b l ih =>
    obtain ⟨fresh, once⟩ := List.nodup_cons.mp once
    rw [List.foldl_cons]
    obtain rfl | later := List.mem_cons.mp ha
    · have apart : ∀ x ∈ l, place a ≠ place x := fun x hx same => fresh (same ▸ List.mem_map_of_mem hx)
      rw [State.foldl_modCtx_ctx_other place g apart, State.modCtx_ctx_same]
    · rw [ih once later, State.modCtx_ctx_other]
      exact fun same => fresh (same ▸ List.mem_map_of_mem later)

end

/-! VSPLIT (R148, R149). -/

/-- The word of VSPLIT is legal in the contexts that R148 names. -/
theorem splitLegal_iff {c : CtxId} {k : Ctx} {n : Nat} (count : n = 2 ∨ n = 4) : splitLegal c k n = true ↔
    k.lanes = physLanes (coreOf c) ∧ k.lg = 0 ∧ (n = 2 → slotOf c ≠ 3 ∧ slotOf c ≠ 7) ∧ (n = 4 → slotOf c % 2 = 0) := by
  obtain rfl | rfl := count <;> simp [splitLegal, and_assoc]

/-- What VSPLIT below M asks of the DIDs of its target slots (R149). -/
theorem State.splitAllowed_iff {s : State} {n : Nat} : s.splitAllowed n ↔ ¬ ((s.ctx s.cur).mode ≠ .m ∧
    ((upFrom 0 n).any fun g =>
      decide (s.slotDid (coreOf s.cur) (slotOf (splitSlot s.cur n g)) ≠ s.did s.cur)) = true) := by
  simp only [State.splitAllowed, State.here, List.any_eq_true, mem_upFrom, decide_eq_true_eq, not_and, not_exists, not_not,
    or_iff_not_imp_left, Nat.zero_le, Nat.zero_add, true_and]
  rfl

/-- The context that has executed VSPLIT n, with its lane group 0. -/
def Ctx.keepsGroup (k : Ctx) (pl n : Nat) : Ctx :=
  { k.cutLanes pl (pl / n) with lanes := pl / n, lg := 0, vl := 0, vrows := 0, tr := false, missing := 0, latch := 0 }

/-- VSPLIT gives the groups from 1 on to their slots, one after the other (R149). -/
theorem State.vsplit_of_idle {s : State} {n : Nat} (w : BitVec 32) (allowed : s.splitAllowed n)
    (free : s.here.groupBound 24 8 = false) (idle : s.vectorIdle s.cur = true) :
    s.vsplit s.cur w n = ((upFrom 1 (n - 1)).foldl (fun t g => t.modCtx (splitSlot s.cur n g) fun z =>
      z.newGroup (physLanes (coreOf s.cur) / n) g)
        (s.modCtx s.cur fun k => k.keepsGroup (physLanes (coreOf s.cur)) n)).retire s.cur := by
  have may := State.splitAllowed_iff.mp allowed
  have unbound : (s.ctx s.cur).groupBound 24 8 = false := free
  simp only [State.vsplit, if_neg may, unbound, idle, Bool.not_true, Bool.false_eq_true, if_false]
  rfl

theorem State.vsplit_of_barred {s : State} {n : Nat} (w : BitVec 32) (barred : ¬ s.splitAllowed n) :
    s.vsplit s.cur w n = s.openTrap s.cur 10 :=
  if_pos (not_not.mp (mt State.splitAllowed_iff.mpr barred))

/-- The slots of the lane groups of a legal VSPLIT are different slots of the core. -/
theorem splitSlot_nodup (c : CtxId) {n : Nat} (count : n = 2 ∨ n = 4) :
    ((upFrom 1 (n - 1)).map (splitSlot c n)).Nodup ∧ ∀ g ∈ upFrom 1 (n - 1), c ≠ splitSlot c n g := by
  obtain rfl | rfl := count <;> simp [upFrom, splitSlot, coreOf, slotOf, CtxId] <;> omega

/-- R148, R149: VSPLIT. -/
theorem splitClaims : SplitClaims := by
  intro f n count s s1 c l ok
  have groups : n = 2 ∨ n = 4 := count.imp And.right And.right
  have run : exec (.vsplit f) s = .next (s.issueIf (encode (.vsplit f)) (!splitLegal s.cur s.here n) fun c _ s =>
      s.vsplit c (encode (.vsplit f)) n) := by
    obtain ⟨rfl, rfl⟩ | ⟨rfl, rfl⟩ := count <;> rfl
  have legal : ok → splitLegal s.cur s.here n = true := (splitLegal_iff groups).mpr
  have cur : s1.cur = s.cur := State.issued_cur s _
  have acts (issues : s.issuesIf (encode (.vsplit f)) false = true) (h : ok) :
      exec (.vsplit f) s = .next (s1.vsplit s1.cur (encode (.vsplit f)) n) := by
    rw [run, legal h, cur]
    exact congrArg _ (State.issueIf_of_issues _ _ _ _ issues)
  refine ⟨fun issues h allowed free idle => ?splits, fun issues h barred => ?traps, fun illegal fresh => ?forbidden⟩
  case splits =>
    obtain ⟨once, apart⟩ := splitSlot_nodup c groups
    refine ⟨_, acts issues h, ?_⟩
    rw [State.vsplit_of_idle _ allowed (by simpa [s1] using free) (cur ▸ idle), cur]
    have own : ((upFrom 1 (n - 1)).foldl (fun t g => t.modCtx (splitSlot c n g) fun z => z.newGroup (l / n) g)
        (s1.modCtx c fun k => k.keepsGroup l n)).ctx c = s.here.keepsGroup l n := by
      rw [State.foldl_modCtx_ctx_other _ _ apart, State.modCtx_ctx_same, State.issued_ctx]
      rfl
    refine ⟨?_, ?_, ?_, ?_, ?_, ?_, ?_, ?_, fun g first last => ?_⟩
    case refine_9 =>
      have mem : g ∈ upFrom 1 (n - 1) := mem_upFrom.mpr (by omega)
      have other : splitSlot c n g ≠ c := (apart g mem).symm
      have target : ((upFrom 1 (n - 1)).foldl (fun t g => t.modCtx (splitSlot c n g) fun z => z.newGroup (l / n) g)
          (s1.modCtx c fun k => k.keepsGroup l n)).ctx (splitSlot c n g) =
            (s.ctx (splitSlot c n g)).newGroup (l / n) g := by
        refine (State.foldl_modCtx_ctx_mem _ _ once mem _).trans ?_
        rw [State.modCtx_ctx_other _ _ _ _ other, State.issued_ctx]
      rw [show splitTarget c n g = splitSlot c n g from rfl, State.retire_ctx_ne _ _ _ other, target]
      exact ⟨rfl, rfl, rfl, rfl, rfl, rfl, rfl⟩
    all_goals
      rw [State.retire_ctx_same, own]
      rfl
  case traps =>
    have traps := acts issues h
    rw [State.vsplit_of_barred _ barred, cur] at traps
    exact ⟨_, traps⟩
  case forbidden =>
    have bad : splitLegal s.cur s.here n = false := by
      simpa using fun good => illegal ((splitLegal_iff groups).mp good)
    rw [run, bad]
    exact congrArg _ (State.issueIf_forbidden _ _ (by simp [fresh]))

/-! VJOIN (R150, R153). -/

/-- The numbers that `upFrom` lists are different. -/
theorem upFrom_nodup (a n : Nat) : (upFrom a n).Nodup := by
  induction n generalizing a with
  | zero => exact List.nodup_nil
  | succ n ih => exact List.nodup_cons.mpr ⟨fun h => by have := mem_upFrom.mp h; omega, ih (a + 1)⟩

/-- The partners of VJOIN are different contexts, none of which is its own. -/
theorem State.joinPartners_nodup (s : State) (c : CtxId) : (s.joinPartners c).Nodup :=
  ((upFrom_nodup 0 8).map fun _ _ same => Nat.add_left_cancel same).filter _

theorem State.ne_of_mem_joinPartners {s : State} {c z : CtxId} (h : z ∈ s.joinPartners c) : c ≠ z := by
  simp only [State.joinPartners, List.mem_filter, Bool.and_eq_true, decide_eq_true_eq] at h
  exact h.2.1.symm

/-- The context that has executed VJOIN. -/
def Ctx.takesLanes (k : Ctx) (pl : Nat) : Ctx :=
  { k.cutLanes pl k.lanes with lanes := pl, lg := 0, vl := 0, vrows := 0, latch := 0 }

section
variable {s : State} {c : CtxId} (w : BitVec 32)
  (allowed : (s.ctx c).mode = .m ∨ ∀ z, z ∈ s.joinPartners c → s.did z = s.did c)
  (idle : s.vectorIdle c = true) (quiet : ∀ z, z ∈ s.joinPartners c → s.vectorIdle z = true)
include allowed idle quiet

/-- Allowed to a context of a core whose vector contexts are idle, VJOIN looks at what its partners hold (R150). -/
theorem State.vjoin_of_idle : s.vjoin c w =
    if ((s.joinPartners c).any fun z => decide ((s.ctx z).dirty ≠ 0) || (s.ctx z).groupBound 24 8) = true then s.illegal c w
    else (((s.joinPartners c).foldl (fun t z => t.modCtx z Ctx.unlaned) s).setCtx c
      ((s.ctx c).takesLanes (physLanes (coreOf c)))).retire c := by
  have may : ¬ ((s.ctx c).mode ≠ .m ∧ ((s.joinPartners c).any fun z => decide (s.did z ≠ s.did c)) = true) := by
    simpa [or_iff_not_imp_left] using allowed
  have ready : (s.vectorIdle c && (s.joinPartners c).all fun z => s.vectorIdle z) = true := by simpa [idle] using quiet
  simp only [State.vjoin, if_neg may, ready, Bool.not_true, Bool.false_eq_true, if_false]
  rfl

theorem State.vjoin_of_clean
    (clean : ∀ z, z ∈ s.joinPartners c → (s.ctx z).dirty = 0 ∧ (s.ctx z).groupBound 24 8 = false) :
    s.vjoin c w = (((s.joinPartners c).foldl (fun t z => t.modCtx z Ctx.unlaned) s).setCtx c
      ((s.ctx c).takesLanes (physLanes (coreOf c)))).retire c := by
  rw [State.vjoin_of_idle w allowed idle quiet, if_neg]
  simpa using clean

theorem State.vjoin_of_held
    (held : ∃ z, z ∈ s.joinPartners c ∧ ((s.ctx z).dirty ≠ 0 ∨ (s.ctx z).groupBound 24 8 = true)) :
    s.vjoin c w = s.illegal c w := by
  rw [State.vjoin_of_idle w allowed idle quiet, if_pos]
  simpa using held

end

/-- R150, R153: VJOIN. -/
theorem joinClaims : JoinClaims := by
  intro s issues lg few s1 c allowed idle quiet
  have may : (s1.ctx c).mode = .m ∨ ∀ z, z ∈ s1.joinPartners c → s1.did z = s1.did c := by
    rwa [show s1.ctx c = s.here from State.issued_ctx s _ c]
  have legal : joinLegal s.cur (s.ctx s.cur) = true := by simpa [joinLegal] using ⟨lg, few⟩
  have run : exec .vjoin s = .next (s1.vjoin c (encode .vjoin)) := by
    show Host.Outcome.next (s.issueIf (encode .vjoin) (!joinLegal s.cur (s.ctx s.cur)) _) = _
    rw [legal]
    exact congrArg _ (State.issueIf_of_issues _ _ _ _ issues)
  refine ⟨fun clean => ⟨_, run, ?_⟩, fun held => ?_⟩
  · rw [State.vjoin_of_clean _ may idle quiet clean]
    have own : s1.ctx c = s.here := State.issued_ctx s _ c
    refine ⟨?_, ?_, ?_, ?_, ?_, ?_, ?_, ?_, fun z hz => ?_⟩
    case refine_9 =>
      have other := State.ne_of_mem_joinPartners hz
      have once : ((s1.joinPartners c).map id).Nodup := by simpa using s1.joinPartners_nodup c
      have partner : ((s1.joinPartners c).foldl (fun t z => t.modCtx z Ctx.unlaned) s1).ctx z = (s1.ctx z).unlaned :=
        State.foldl_modCtx_ctx_mem id (fun _ => Ctx.unlaned) once hz s1
      rw [State.retire_ctx_ne _ _ _ other.symm, State.setCtx_ctx_other _ _ _ _ other.symm, partner]
      exact ⟨rfl, rfl, rfl, rfl⟩
    all_goals
      rw [State.retire_ctx_same, State.setCtx_ctx_same, own]
      rfl
  · rw [run, State.vjoin_of_held _ may idle quiet held]

end Sys2Proof.Machine

/-! Lane moves (R141-R143, R152-R155). -/

namespace Sys2Proof.Machine

/-! What the write of a save area keeps: the turn. -/

/-- Two states of one turn. -/
structure State.TurnKept (s t : State) : Prop where
  cursor : t.cursor = s.cursor
  clk    : t.clk = s.clk

theorem State.TurnKept.refl (s : State) : s.TurnKept s := ⟨rfl, rfl⟩

theorem State.TurnKept.trans {s t u : State} (h : s.TurnKept t) (h' : t.TurnKept u) : s.TurnKept u :=
  ⟨h'.cursor.trans h.cursor, h'.clk.trans h.clk⟩

theorem State.TurnKept.cur {s t : State} (h : s.TurnKept t) : t.cur = s.cur := by
  rw [State.cur, h.cursor, h.clk, State.cur]

/-- A loop stays in the turn in which every round stays. -/
theorem State.TurnKept.foldl {α : Type} {f : State → α → State} (h : ∀ (s : State) (a : α), s.TurnKept (f s a)) (l : List α)
    (s : State) : s.TurnKept (l.foldl f s) := by
  induction l generalizing s with
  | nil => exact State.TurnKept.refl s
  | cons a t ih => exact (h s a).trans (ih (f s a))

theorem State.modDie_turn (s : State) (d : Nat) (g : Die → Die) : s.TurnKept (s.modDie d g) := ⟨rfl, rfl⟩

theorem State.modCtx_turn (s : State) (c : CtxId) (g : Ctx → Ctx) : s.TurnKept (s.modCtx c g) := ⟨rfl, rfl⟩

theorem State.lineGone_turn (s : State) (die line : Nat) : s.TurnKept (s.lineGone die line) := by
  simp only [State.lineGone, State.leaveSeal]
  repeat' split
  all_goals exact ⟨rfl, rfl⟩

theorem State.evicted_turn (s : State) (core : CoreId) (v : CLine) : s.TurnKept (s.evicted core v) := by
  have sent : s.TurnKept (if v.dirty then s.after 0 (.writeCombineFlush (core / 64) v.line) else s) := by
    split <;> exact ⟨rfl, rfl⟩
  unfold State.evicted
  dsimp only
  refine sent.trans ?_
  generalize (if v.dirty then s.after 0 (.writeCombineFlush (core / 64) v.line) else s) = u
  split
  · exact State.TurnKept.refl _
  · exact State.TurnKept.trans (State.modDie_turn _ _ _) (State.lineGone_turn _ _ _)

theorem State.joinSeal_turn (s : State) (die line : Nat) : s.TurnKept (s.joinSeal die line) := by
  unfold State.joinSeal
  repeat' split
  all_goals exact ⟨rfl, rfl⟩

theorem State.portLine_turn (s : State) (core : CoreId) (did : BitVec 7) (scalar write stays : Bool) (line : Nat) :
    s.TurnKept (s.portLine core did scalar write stays line) := by
  have cleaned : s.TurnKept (if (s.core core).keeps line = true then s
      else { s with sramErrs := s.sramErrs.filter fun e => e ≠ (line, core) }) := by
    split <;> exact ⟨rfl, rfl⟩
  have used (g : Core → Core) := (cleaned.trans (State.joinSeal_turn _ (core / 64) line)).trans
    (u := (State.joinSeal _ (core / 64) line).modCore core g) ⟨rfl, rfl⟩
  unfold State.portLine
  split
  · exact State.TurnKept.refl s
  split
  · exact ⟨rfl, rfl⟩
  split
  · exact ⟨rfl, rfl⟩
  dsimp only
  split
  · exact (used _).trans (State.evicted_turn _ core _)
  · exact used _

theorem State.portUse_turn (s : State) (c : CtxId) (scalar write stays : Bool) (ls : List Nat) :
    s.TurnKept (s.portUse c scalar write stays ls) := by
  have lines := State.TurnKept.foldl
    (fun (t : State) l => State.portLine_turn t (coreOf c) (s.did c) scalar write stays l) ls s
  unfold State.portUse
  dsimp only
  split
  · exact lines
  · exact lines.trans (State.modCtx_turn _ c _)

theorem State.publish_turn (s : State) (c : CtxId) (addr n : Nat) : s.TurnKept (s.publish c addr n) := by
  unfold State.publish
  dsimp only
  split <;> exact ⟨rfl, rfl⟩

theorem State.addPend_turn (s : State) (c : CtxId) (kind : WriteKind) (atDie : Bool) (leave addr : Nat) (bytes : List Byte)
    (shared : Bool) (did : BitVec 7) : s.TurnKept (s.addPend c kind atDie leave addr bytes shared did) := by
  have port := State.portUse_turn s c false true true (linesOf addr bytes.length)
  have published := port.trans (State.publish_turn _ c addr bytes.length)
  have put (t : State) (p : PWrite) : t.TurnKept (t.putPend p) := ⟨rfl, rfl⟩
  unfold State.addPend
  dsimp only
  refine State.TurnKept.trans ?_ (put _ _)
  split
  · exact published
  · exact port

theorem State.logLineError_turn (s : State) (die ctx line : Nat) : s.TurnKept (s.logLineError die ctx line) := by
  simp only [State.logLineError, State.logError]
  split <;> exact ⟨rfl, rfl⟩

theorem State.mergeError_turn (s : State) (w : Writer) (line : Nat) : s.TurnKept (s.mergeError w line) := by
  have zeroed (m : Memory) : s.TurnKept { s with mem := m } := ⟨rfl, rfl⟩
  have fresh (t : State) : t.TurnKept (t.freshLine line) := ⟨rfl, rfl⟩
  have raised (t : State) (c : CtxId) (v : Word) : t.TurnKept (t.raiseMc c v) := ⟨rfl, rfl⟩
  have logged := fun m d n => ((zeroed m).trans (State.logLineError_turn _ d n line)).trans (fresh _)
  unfold State.mergeError
  split
  · cases w.ctx with
    | none => exact logged _ _ _
    | some c => exact (logged _ _ _).trans (raised _ c _)
  · exact State.TurnKept.refl s

theorem State.performHome_turn (s : State) (w : Writer) (addr : Nat) (bytes : List Byte) (sh : Bool) (did : BitVec 7) :
    s.TurnKept (s.performHome w addr bytes sh did) := by
  have merged := State.TurnKept.foldl (fun (t : State) l => State.mergeError_turn t w l) (linesOf addr bytes.length) s
  have written (t : State) (m : Memory) : t.TurnKept { t with mem := m } := ⟨rfl, rfl⟩
  have touched (t : State) (l : Nat) : t.TurnKept ((t.touchLine w sh did l).dropCopies (t.keeper w l) l) := ⟨rfl, rfl⟩
  exact (merged.trans (written _ _)).trans (State.TurnKept.foldl touched _ _)

theorem State.serveMisses_turn (s : State) (line : Nat) : s.TurnKept (s.serveMisses line) := by
  have served (m : List (Nat × Nat)) : s.TurnKept { s with misses := m } := ⟨rfl, rfl⟩
  have granted (t : State) (m : Nat × Nat) : t.TurnKept (t.grant m.2 line) := ⟨rfl, rfl⟩
  unfold State.serveMisses
  split
  · exact State.TurnKept.refl s
  · exact (served _).trans (State.TurnKept.foldl granted _ _)

theorem State.endPend_turn (s : State) (p : PWrite) : s.TurnKept (s.endPend p) := by
  have ended (ps : List PWrite) (e : Tbl (List (Nat × Nat × Nat))) : s.TurnKept { s with pend := ps, pubs := e } := ⟨rfl, rfl⟩
  exact (ended _ _).trans (State.TurnKept.foldl State.serveMisses_turn _ _)

theorem State.performPend_turn (s : State) (p : PWrite) : s.TurnKept (s.performPend p) :=
  (State.performHome_turn s _ _ _ _ _).trans (State.endPend_turn _ p)

theorem State.sendFrom_turn (s : State) (die : Nat) (ls : List Nat) : s.TurnKept (s.sendFrom die ls) := by
  refine State.TurnKept.foldl (fun t l => ?_) ls s
  split <;> exact ⟨rfl, rfl⟩

theorem State.waitHome_turn (s : State) (p : PWrite) : s.TurnKept (s.waitHome p) := by
  have sent : s.TurnKept (if p.kind = .host then s else s.sendFrom p.die (linesOf p.addr p.bytes.length)) := by
    split
    · exact State.TurnKept.refl s
    · exact State.sendFrom_turn s _ _
  unfold State.waitHome
  split
  · exact State.TurnKept.refl s
  · exact sent.trans ⟨rfl, rfl⟩

theorem State.flush_turn (s : State) (sel : PWrite → Bool) : s.TurnKept (s.flush sel) := by
  refine State.TurnKept.foldl (fun t p => ?_) (inOrder s.pend) s
  split
  · split
    · exact State.performPend_turn t p
    · exact State.waitHome_turn t p
  · exact State.TurnKept.refl t

/-- The write of a save area stays in the turn and keeps every context as an access does (R403, R407). -/
theorem State.areaWrite_turn (s : State) (c : CtxId) (pa : Nat) (bs : List (Nat × List Byte)) :
    s.TurnKept (s.areaWrite c pa bs) := by
  unfold State.areaWrite
  split
  · exact State.TurnKept.refl s
  · exact (State.TurnKept.foldl (fun t b => State.addPend_turn t c _ _ _ _ _ _ _) bs s).trans (State.flush_turn _ _)

theorem State.publish_kept (s : State) (c : CtxId) (addr n : Nat) : s.CtxKept (s.publish c addr n) := by
  refine State.CtxKept.of_ctxs ?_
  unfold State.publish
  dsimp only
  split <;> rfl

theorem State.addPend_kept (s : State) (c : CtxId) (kind : WriteKind) (atDie : Bool) (leave addr : Nat) (bytes : List Byte)
    (shared : Bool) (did : BitVec 7) : s.CtxKept (s.addPend c kind atDie leave addr bytes shared did) := by
  have port := State.portUse_kept s c false true true (linesOf addr bytes.length)
  have published := port.trans (State.publish_kept _ c addr bytes.length)
  have put (t : State) (p : PWrite) : t.CtxKept (t.putPend p) := State.CtxKept.of_ctxs rfl
  unfold State.addPend
  dsimp only
  refine State.CtxKept.trans ?_ (put _ _)
  split
  · exact published
  · exact port

theorem State.areaWrite_kept (s : State) (c : CtxId) (pa : Nat) (bs : List (Nat × List Byte)) :
    s.CtxKept (s.areaWrite c pa bs) := by
  unfold State.areaWrite
  split
  · exact State.CtxKept.refl s
  · exact (State.CtxKept.foldl (fun t b => State.addPend_kept t c _ _ _ _ _ _ _) bs s).trans (State.flush_kept _ _)

/-! Changes of the vector registers. -/

/-- A context with the vector and mask registers of another, and with what is known of their quarters and element groups. -/
def Ctx.registersOf (k k' : Ctx) : Ctx := { k with v := k'.v, m := k'.m, dirty := k'.dirty, wrote := k'.wrote }

/-- The context has changed in these alone. -/
def Ctx.RegistersOnly (k k' : Ctx) : Prop := k' = k.registersOf k'

theorem Ctx.RegistersOnly.refl (k : Ctx) : k.RegistersOnly k := rfl

theorem Ctx.RegistersOnly.trans {a b e : Ctx} (h : a.RegistersOnly b) (h' : b.RegistersOnly e) : a.RegistersOnly e :=
  have through : b.registersOf e = (a.registersOf b).registersOf e := congrArg (fun k : Ctx => k.registersOf e) h
  Eq.trans h' through

/-- A loop changes no more than every round does. -/
theorem Ctx.RegistersOnly.foldl {α : Type} {f : Ctx → α → Ctx} (h : ∀ (k : Ctx) (a : α), k.RegistersOnly (f k a)) (l : List α)
    (k : Ctx) : k.RegistersOnly (l.foldl f k) := by
  induction l generalizing k with
  | nil => exact Ctx.RegistersOnly.refl k
  | cons a t ih => exact (h k a).trans (ih (f k a))

/-- So does the loading of an image (R199). -/
theorem Ctx.loadImage_registersOnly (k : Ctx) (rd : Nat → List Byte) (lo hi : Nat) : k.RegistersOnly (k.loadImage rd lo hi) := by
  have lane (k : Ctx) (p : Nat × Nat × Nat) : k.RegistersOnly (k.setLane p.1 p.2.1 p.2.2 (rd (imageV p.1 p.2.1 p.2.2))) := rfl
  have mask (k : Ctx) (p : Nat × Nat × Nat) : k.RegistersOnly (k.setMask p.1 p.2.1 p.2.2 (rd (imageM p.1 p.2.1 p.2.2))) := rfl
  exact (Ctx.RegistersOnly.foldl lane _ k).trans (Ctx.RegistersOnly.foldl mask _ _)

/-! What a lane move leaves of its context. -/

/-- A context with the `n` lanes of group `lg`, whose latch names v0 (R154, R155). -/
def Ctx.onLanes (k : Ctx) (n lg : Nat) : Ctx := { k with lanes := n, lg := lg, latch := 0 }

/-- A context that a lane move to `n` lanes has left: its lowest lane is the same, and besides what an access changes only its
registers, the latch and a pending notification are new (R155). -/
def Ctx.movedTo (k k' : Ctx) (n : Nat) : Ctx :=
  { k with resv := k'.resv, pendMc := k'.pendMc, seen := k'.seen, acq := k'.acq, pub := k'.pub, sent := k'.sent,
           rel := k'.rel, ticket := k'.ticket, reply := k'.reply, v := k'.v, m := k'.m, dirty := k'.dirty,
           wrote := k'.wrote, pendLane := k'.pendLane, lanes := n, lg := k.lg * k.lanes / n, latch := 0 }

theorem Ctx.movedTo_keeps {k k' : Ctx} {n : Nat} (moved : k' = k.movedTo k' n) :
    k'.pc = k.pc ∧ k'.lanes = n ∧ k'.lg = k.lg * k.lanes / n ∧ k'.latch = 0 ∧ k'.form = k.form ∧ k.sameBelow k' :=
  have field {α : Type} (g : Ctx → α) : g k' = g (k.movedTo k' n) := congrArg g moved
  ⟨field Ctx.pc, field Ctx.lanes, field Ctx.lg, field Ctx.latch, field Ctx.form, field Ctx.f, field Ctx.fstat, field Ctx.mode,
    field Ctx.did, field Ctx.mb, field Ctx.hb, field Ctx.sb⟩

theorem Ctx.sameBelow.trans {a b e : Ctx} (h : a.sameBelow b) (h' : b.sameBelow e) : a.sameBelow e := by
  obtain ⟨f, fstat, mode, did, mb, hb, sb⟩ := h
  obtain ⟨f', fstat', mode', did', mb', hb', sb'⟩ := h'
  exact ⟨f'.trans f, fstat'.trans fstat, mode'.trans mode, did'.trans did, mb'.trans mb, hb'.trans hb, sb'.trans sb⟩

theorem Ctx.Kept.movedTo {k z : Ctx} (kept : k.Kept z) (pl n : Nat) (p : Option Word) :
    ({ (z.cutLanes pl n).onLanes n (k.lg * k.lanes / n) with pendLane := p } : Ctx) =
      k.movedTo { (z.cutLanes pl n).onLanes n (k.lg * k.lanes / n) with pendLane := p } n := by
  have direct : ({ ((k.accessOf z).cutLanes pl n).onLanes n (k.lg * k.lanes / n) with pendLane := p } : Ctx) =
      k.movedTo { ((k.accessOf z).cutLanes pl n).onLanes n (k.lg * k.lanes / n) with pendLane := p } n := by
    simp only [Ctx.movedTo, Ctx.onLanes, Ctx.cutLanes, Ctx.accessOf]
  rwa [← show z = k.accessOf z from kept] at direct

theorem Ctx.RegistersOnly.movedTo {k z : Ctx} (loaded : k.RegistersOnly z) (n : Nat) :
    z.onLanes n (k.lg * k.lanes / n) = k.movedTo (z.onLanes n (k.lg * k.lanes / n)) n := by
  have direct : (k.registersOf z).onLanes n (k.lg * k.lanes / n) =
      k.movedTo ((k.registersOf z).onLanes n (k.lg * k.lanes / n)) n := rfl
  rwa [← show z = k.registersOf z from loaded] at direct

section
variable {s : State} {c : CtxId} {n : Nat}

/-- A lowering writes what the vacated lanes hold, cuts the registers, and tells slot 7 (R155, R402, R403). -/
theorem State.moveLanes_of_lower (lower : n < (s.ctx c).lanes) : s.moveLanes c n =
    ((s.areaWrite c (areaPa (s.ctx c).vsavea)
        ((s.ctx c).vacatedBlocks ((s.ctx c).vcfg (physLanes (coreOf c))) n)).modCtx c fun z =>
      (z.cutLanes (physLanes (coreOf c)) n).onLanes n ((s.ctx c).lg * (s.ctx c).lanes / n)).modCtx
        (coreOf c * 8 + 7) fun z =>
      { z with pendLane := some (reclaimValue c ((s.ctx c).lg * (s.ctx c).lanes) n (s.ctx c).lanes (physLanes (coreOf c))) } :=
  if_pos lower

/-- A raising loads the lanes that come (R155, R404). -/
theorem State.moveLanes_of_raise (raise : ¬ n < (s.ctx c).lanes) : s.moveLanes c n =
    s.setCtx c (((s.ctx c).loadImage (fun off => s.areaRead c (areaPa (s.ctx c).vsavea + off) 64) (s.ctx c).lanes n).onLanes n
      ((s.ctx c).lg * (s.ctx c).lanes / n)) :=
  if_neg raise

/-- A change of a pending notification shows in the context that it is made in alone. -/
theorem State.modCtx_pendLane_ctx (s : State) (c q : CtxId) (p : Option Word) :
    (s.modCtx q fun z => { z with pendLane := p }).ctx c =
      { s.ctx c with pendLane := ((s.modCtx q fun z => { z with pendLane := p }).ctx c).pendLane } := by
  by_cases same : c = q
  · subst same; rw [State.modCtx_ctx_same]
  · rw [State.modCtx_ctx_other _ _ _ _ same]

/-- The registers of a context after a lowering. -/
theorem State.moveLanes_lower_registers (lower : n < (s.ctx c).lanes) :
    ((s.moveLanes c n).ctx c).v = (s.ctx c).v.map (fun r => keepRow r n) ∧
      ((s.moveLanes c n).ctx c).m = (s.ctx c).m.map (fun r => keepMask r n) := by
  rw [State.moveLanes_of_lower lower, State.modCtx_pendLane_ctx, State.modCtx_ctx_same, State.areaWrite_kept s c _ _ c]
  exact ⟨rfl, rfl⟩

/-- The registers of a context after a raising. -/
theorem State.moveLanes_raise_registers (raise : ¬ n < (s.ctx c).lanes) :
    let k := (s.ctx c).loadImage (fun off => s.areaRead c (areaPa (s.ctx c).vsavea + off) 64) (s.ctx c).lanes n
    ((s.moveLanes c n).ctx c).v = k.v ∧ ((s.moveLanes c n).ctx c).m = k.m := by
  rw [State.moveLanes_of_raise raise, State.setCtx_ctx_same]
  exact ⟨rfl, rfl⟩

theorem State.moveLanes_ctx (s : State) (c : CtxId) (n : Nat) :
    (s.moveLanes c n).ctx c = (s.ctx c).movedTo ((s.moveLanes c n).ctx c) n := by
  by_cases lower : n < (s.ctx c).lanes
  · rw [State.moveLanes_of_lower lower, State.modCtx_pendLane_ctx, State.modCtx_ctx_same]
    exact (State.areaWrite_kept s c _ _ c).movedTo _ n _
  · rw [State.moveLanes_of_raise lower, State.setCtx_ctx_same]
    exact (Ctx.loadImage_registersOnly _ _ _ _).movedTo n

theorem State.moveLanes_turn (s : State) (c : CtxId) (n : Nat) : s.TurnKept (s.moveLanes c n) := by
  by_cases lower : n < (s.ctx c).lanes
  · rw [State.moveLanes_of_lower lower]
    exact ((State.areaWrite_turn s c _ _).trans (State.modCtx_turn _ c _)).trans (State.modCtx_turn _ _ _)
  · rw [State.moveLanes_of_raise lower]
    exact ⟨rfl, rfl⟩

end

/-! VSHAPE (R141-R143). -/

/-- A context with a granted SHAPE (R29). -/
def Ctx.shaped (k : Ctx) (vl rows : Nat) : Ctx := { k with vl := vl, vrows := rows, tr := false }

theorem Ctx.shaped_wx_x (k : Ctx) (vl rows : Nat) (d : BitVec 5) (v : Word) : ((k.shaped vl rows).wx d v).x = (k.wx d v).x := by
  unfold Ctx.wx
  split <;> rfl

/-- The context that VSHAPE leaves once its lanes are those that it gets. -/
theorem State.shapeSet_ctx_same (s : State) (c : CtxId) (d : BitVec 5) (a b : Word) :
    let vl := min a.toNat ((s.ctx c).vcfg (physLanes (coreOf c))).vlmax
    (s.shapeSet c d a b).ctx c = (((s.ctx c).shaped vl (min b.toNat 8)).wxCopy d (BitVec.ofNat 64 vl)).retired := by
  simp only [State.shapeSet, State.retireX_ctx_same, State.modCtx_ctx_same, Ctx.shaped]

theorem State.shapeSet_ctx_ne (s : State) {c q : CtxId} (d : BitVec 5) (a b : Word) (other : q ≠ c) :
    (s.shapeSet c d a b).ctx q = s.ctx q := by
  rw [State.shapeSet, State.retireX_ctx_ne _ _ _ _ _ other, State.modCtx_ctx_other _ _ _ _ other]

/-- VSHAPE leaves the vector state, the lanes and what lies below them. -/
theorem State.shapeSet_keeps (s : State) (c : CtxId) (d : BitVec 5) (a b : Word) :
    let k := (s.shapeSet c d a b).ctx c
    k.pc = (s.ctx c).pc + 4 ∧ k.lanes = (s.ctx c).lanes ∧ k.lg = (s.ctx c).lg ∧ k.latch = (s.ctx c).latch ∧
      k.form = (s.ctx c).form ∧ k.v = (s.ctx c).v ∧ k.m = (s.ctx c).m ∧ k.pendLane = (s.ctx c).pendLane ∧
      (s.ctx c).sameBelow k := by
  simp [State.shapeSet_ctx_same, Ctx.shaped, Ctx.sameBelow]

theorem State.shapeSet_pendLane (s : State) (c q : CtxId) (d : BitVec 5) (a b : Word) :
    ((s.shapeSet c d a b).ctx q).pendLane = (s.ctx q).pendLane := by
  by_cases same : q = c
  · subst same; simp [State.shapeSet_ctx_same, Ctx.shaped]
  · rw [State.shapeSet_ctx_ne s d a b same]

theorem State.shapeSet_turn (s : State) (c : CtxId) (d : BitVec 5) (a b : Word) : s.TurnKept (s.shapeSet c d a b) := ⟨rfl, rfl⟩

section
variable {s : State} {c : CtxId} (d : BitVec 5) (a b : Word)

theorem State.vshape_of_granted (granted : s.laneGrant c = (s.ctx c).lanes) : s.vshape c d a b = s.shapeSet c d a b :=
  if_pos granted

theorem State.vshape_of_busy (other : s.laneGrant c ≠ (s.ctx c).lanes) (busy : s.vectorIdle c = false) :
    s.vshape c d a b = s.stallBounded c := by
  simp [State.vshape, other, busy]

theorem State.vshape_of_foreignArea (other : s.laneGrant c ≠ (s.ctx c).lanes) (idle : s.vectorIdle c = true)
    (foreign : s.areaOk (s.part c) (s.slotSecure c) (areaPa (s.ctx c).vsavea) imageSize = false) :
    s.vshape c d a b = s.trap c (mkTrap 9 (BitVec.ofNat 64 (areaPa (s.ctx c).vsavea))) := by
  simp [State.vshape, other, idle, foreign]

variable (other : s.laneGrant c ≠ (s.ctx c).lanes) (idle : s.vectorIdle c = true)
  (own : s.areaOk (s.part c) (s.slotSecure c) (areaPa (s.ctx c).vsavea) imageSize = true)
include other idle own

theorem State.vshape_of_sealedArea
    (barred : s.laneGrant c < (s.ctx c).lanes ∧ s.areaSealed (areaPa (s.ctx c).vsavea) imageSize = true) :
    s.vshape c d a b = s.trap c (mkTrap 12 (BitVec.ofNat 64 (areaPa (s.ctx c).vsavea))) := by
  simp [State.vshape, other, idle, own, barred]

/-- With its area free and its lines read, VSHAPE moves the lanes and then grants VL (R141, R155). -/
theorem State.vshape_of_lines {u : State}
    (unbarred : ¬ (s.laneGrant c < (s.ctx c).lanes ∧ s.areaSealed (areaPa (s.ctx c).vsavea) imageSize = true))
    (read : s.readLines (dieOf c) (areaLines (areaPa (s.ctx c).vsavea) (laneOffsets (s.ctx c).lanes (s.laneGrant c))) =
      some u) :
    s.vshape c d a b = (u.moveLanes c (s.laneGrant c)).shapeSet c d a b := by
  simp only [State.vshape, if_neg other, idle, own, if_neg unbarred, State.withLines, read, Bool.not_true, Bool.false_eq_true,
    if_false]

end

/-- An instruction that issues its word completes where its effect does. -/
theorem actsTo_of_issue {i : Instr} {pre : State → Prop} {post : State → State → Prop} {go : CtxId → Ctx → State → State}
    (h : ∀ s, exec i s = .next (s.issue (encode i) go)) (done : ∀ s : State, pre s → post s (go s.cur s.here s)) :
    ActsTo i pre post := fun s issues hp =>
  ⟨_, acts_of_issue (act := fun s => go s.cur s.here s) h (fun _ _ => rfl) s issues hp, done _ hp⟩

/-- R141-R143: VSHAPE without a lane move, and where it waits or traps. -/
theorem shapeClaims : ShapeClaims := by
  intro d a b
  refine ⟨actsTo_of_issue (fun _ => rfl) fun s granted => ?_,
    acts_of_issue (fun _ => rfl) fun s ⟨other, busy⟩ => State.vshape_of_busy _ _ _ other busy,
    acts_of_issue (fun _ => rfl) fun s ⟨other, idle, foreign⟩ => State.vshape_of_foreignArea _ _ _ other idle foreign⟩
  rw [State.vshape_of_granted d _ _ granted]
  obtain ⟨pc, lanes, -, -, form, v, m, -, below⟩ := s.shapeSet_keeps s.cur d (s.here.rx a) (s.here.rx b)
  refine ⟨?_, ?_, ?_, pc, lanes, fun plain => ?_, v, m, form, below, rfl, rfl⟩
  case refine_4 =>
    have copy : ((s.ctx s.cur).shaped (min (s.here.rx a).toNat s.cfgHere.vlmax) (min (s.here.rx b).toNat 8)).copyReg = none :=
      plain
    rw [State.shapeSet_ctx_same]
    simp only [Ctx.retired_x, Ctx.retired_vl, Ctx.wxCopy_vl]
    exact (congrArg Ctx.x (Ctx.wxCopy_of_none _ _ _ copy)).trans (Ctx.shaped_wx_x _ _ _ _ _)
  all_goals simp [State.shapeSet_ctx_same, Ctx.shaped, State.cfgHere, State.here]

/-- vlmax is that of FORM and the lanes (R29). -/
theorem Ctx.vcfg_vlmax_eq {k k' : Ctx} (pl pl' : Nat) (lanes : k'.lanes = k.lanes) (form : k'.form = k.form) :
    (k'.vcfg pl').vlmax = (k.vcfg pl).vlmax := by
  simp only [Ctx.vcfg, lanes, form]

/-- The context that VSHAPE leaves after a lane move to `n` lanes. -/
theorem State.moveLanes_shapeSet (u : State) (c : CtxId) (n : Nat) (d : BitVec 5) (a b : Word) :
    let k := u.ctx c
    let k' := ((u.moveLanes c n).shapeSet c d a b).ctx c
    k'.lanes = n ∧ k'.lg = k.lg * k.lanes / n ∧ k'.latch = 0 ∧ k'.form = k.form ∧ k'.pc = k.pc + 4 ∧ k.sameBelow k' ∧
      k'.vl = min a.toNat (k'.vcfg (physLanes (coreOf c))).vlmax := by
  obtain ⟨pc, lanes, lg, latch, form, -, -, -, below⟩ := (u.moveLanes c n).shapeSet_keeps c d a b
  obtain ⟨pc', lanes', lg', latch', form', below'⟩ := Ctx.movedTo_keeps (u.moveLanes_ctx c n)
  refine ⟨lanes.trans lanes', lg.trans lg', latch.trans latch', form.trans form', ?_, below'.trans below, ?_⟩
  · rw [pc, pc']
  · rw [Ctx.vcfg_vlmax_eq (physLanes (coreOf c)) _ lanes form, State.shapeSet_ctx_same, Ctx.retired_vl, Ctx.wxCopy_vl]
    rfl

theorem State.cfgHere_of_cur {t : State} {c : CtxId} (turn : t.cur = c) :
    t.cfgHere = (t.ctx c).vcfg (physLanes (coreOf c)) := by
  rw [← turn]
  rfl

/-- R155, R403, R404: VSHAPE with a lane move, and where its save area is sealed. -/
theorem laneMoveClaims : LaneMoveClaims := by
  intro d a b moves barred lines
  refine ⟨actsTo_of_issue (fun _ => rfl) fun s ⟨⟨other, idle, own⟩, free, reads⟩ => ?_,
    acts_of_issue (fun _ => rfl) fun s ⟨⟨other, idle, own⟩, closed⟩ => State.vshape_of_sealedArea _ _ _ other idle own closed⟩
  obtain ⟨u, read⟩ := Option.isSome_iff_exists.mp reads
  have only := State.readLines_only read
  have ctx : u.ctx s.cur = s.here := by rw [only]; rfl
  rw [State.vshape_of_lines d _ _ other idle own free read]
  obtain ⟨lanes, lg, latch, -, pc, below, vl⟩ := u.moveLanes_shapeSet s.cur (s.laneGrant s.cur) d (s.here.rx a) (s.here.rx b)
  obtain ⟨-, -, -, -, -, v, m, -, -⟩ :=
    (u.moveLanes s.cur (s.laneGrant s.cur)).shapeSet_keeps s.cur d (s.here.rx a) (s.here.rx b)
  have cur : ((u.moveLanes s.cur (s.laneGrant s.cur)).shapeSet s.cur d (s.here.rx a) (s.here.rx b)).cur = s.cur := by
    refine ((u.moveLanes_turn s.cur _).trans (State.shapeSet_turn _ _ _ _ _)).cur.trans ?_
    rw [only]
    rfl
  rw [ctx] at lg pc below
  refine ⟨lanes, lg, latch, ?_, pc, fun lower => ?_, fun u' read' raise => ?_, below⟩
  · rw [State.cfgHere_of_cur cur]
    exact vl
  · have lower' : s.laneGrant s.cur < (u.ctx s.cur).lanes := by rwa [ctx]
    obtain ⟨lowV, lowM⟩ := State.moveLanes_lower_registers lower'
    rw [ctx] at lowV lowM
    refine ⟨v.trans lowV, m.trans lowM, ?_⟩
    rw [State.shapeSet_pendLane, State.moveLanes_of_lower lower', State.modCtx_ctx_same, ctx]
  · obtain rfl : u = u' := Option.some.inj (read.symm.trans read')
    have raise' : ¬ s.laneGrant s.cur < (u.ctx s.cur).lanes := by rw [ctx]; exact Nat.lt_asymm raise
    obtain ⟨newV, newM⟩ := State.moveLanes_raise_registers raise'
    rw [ctx] at newV newM
    exact ⟨v.trans newV, m.trans newM⟩

end Sys2Proof.Machine

/-! Sweeps (R134, R137, R138, R159). -/

namespace Sys2Proof.Machine

/-! Elements of a number. -/

theorem testBit_elem (row w j p : Nat) : (elem row w j).testBit p = (decide (p < w) && row.testBit (w * j + p)) := by
  rw [elem, Nat.testBit_mod_two_pow, Nat.testBit_shiftRight]

theorem elem_lt (row w j : Nat) : elem row w j < 2 ^ w := Nat.mod_lt _ (Nat.two_pow_pos w)

/-- The elements of a number below `2 ^ (w * n)` determine it. -/
theorem eq_of_elems {w n x y : Nat} (hx : x < 2 ^ (w * n)) (hy : y < 2 ^ (w * n)) (same : ∀ j, j < n → elem x w j = elem y w j) :
    x = y := by
  have low (m : Nat) (hm : m ≤ n) : x % 2 ^ (w * m) = y % 2 ^ (w * m) := by
    induction m with
    | zero => simp [Nat.mod_one]
    | succ m ih =>
      have top := same m (by omega)
      rw [elem, elem, Nat.shiftRight_eq_div_pow, Nat.shiftRight_eq_div_pow] at top
      rw [Nat.mul_succ, Nat.pow_add, Nat.mod_mul, Nat.mod_mul, top, ih (by omega)]
  have whole := low n le_rfl
  rwa [Nat.mod_eq_of_lt hx, Nat.mod_eq_of_lt hy] at whole

theorem testBit_putBits (v lo n x p : Nat) :
    (putBits v lo n x).testBit p = if lo ≤ p ∧ p < lo + n then x.testBit (p - lo) else v.testBit p := by
  have field : x % 2 ^ n * 2 ^ lo + v % 2 ^ lo < 2 ^ (lo + n) := by
    have hx : x % 2 ^ n + 1 ≤ 2 ^ n := Nat.mod_lt _ (Nat.two_pow_pos n)
    have hv : v % 2 ^ lo < 2 ^ lo := Nat.mod_lt _ (Nat.two_pow_pos lo)
    calc x % 2 ^ n * 2 ^ lo + v % 2 ^ lo
      _ < (x % 2 ^ n + 1) * 2 ^ lo := by rw [Nat.succ_mul]; omega
      _ ≤ 2 ^ n * 2 ^ lo := Nat.mul_le_mul_right _ hx
      _ = 2 ^ (lo + n) := by rw [← Nat.pow_add, Nat.add_comm]
  have low : v % 2 ^ lo < 2 ^ lo := Nat.mod_lt _ (Nat.two_pow_pos lo)
  rw [putBits, Nat.add_assoc, Nat.mul_comm (v / _), Nat.testBit_two_pow_mul_add _ field, Nat.mul_comm (x % _),
    Nat.testBit_two_pow_mul_add _ low, Nat.testBit_mod_two_pow, Nat.testBit_mod_two_pow, Nat.testBit_div_two_pow]
  rcases lt_or_ge p lo with below | above
  · simp [below, Nat.not_le.mpr below, show p < lo + n by omega]
  · by_cases inside : p < lo + n
    · simp [inside, above, Nat.not_lt.mpr above, show p - lo < n by omega]
    · simp [inside, show p - (lo + n) + (lo + n) = p by omega]

/-- Writing an element changes that element alone. -/
theorem elem_putBits (v w j i x : Nat) : elem (putBits v (w * j) w x) w i = if i = j then x % 2 ^ w else elem v w i := by
  refine Nat.eq_of_testBit_eq fun p => ?_
  rw [testBit_elem, testBit_putBits]
  by_cases same : i = j
  · subst same
    rw [if_pos rfl, Nat.testBit_mod_two_pow]
    by_cases inside : p < w <;> simp [inside]
  · rw [if_neg same, testBit_elem]
    by_cases inside : p < w
    · have apart : ¬ (w * j ≤ w * i + p ∧ w * i + p < w * j + w) := by
        rintro ⟨lower, upper⟩
        have h1 : i < j + 1 := Nat.lt_of_mul_lt_mul_left (a := w) (by rw [Nat.mul_succ]; omega)
        have h2 : j < i + 1 := Nat.lt_of_mul_lt_mul_left (a := w) (by rw [Nat.mul_succ]; omega)
        omega
      rw [if_neg apart]
    · simp [inside]

theorem putBits_lt {v lo n x top : Nat} (hv : v < 2 ^ top) (fits : lo + n ≤ top) : putBits v lo n x < 2 ^ top := by
  refine Nat.lt_pow_two_of_testBit _ fun p hp => ?_
  rw [testBit_putBits, if_neg (by omega)]
  exact Nat.testBit_eq_false_of_lt (lt_of_lt_of_le hv (Nat.pow_le_pow_right (by decide) hp))

/-! A row. -/

theorem upFrom_succ (a n : Nat) : upFrom a (n + 1) = upFrom a n ++ [a + n] := by
  induction n generalizing a with
  | zero => rfl
  | succ n ih => rw [upFrom, ih, upFrom, List.cons_append, show a + 1 + n = a + (n + 1) by omega]

section
variable (w n old : Nat) (f : Nat → Option (Nat × BitVec 5))

theorem sweepRow_succ : sweepRow w (n + 1) old f = rowStep w f (sweepRow w n old f) n := by
  rw [sweepRow, upFrom_succ, List.foldl_append, Nat.zero_add]
  rfl

/-- An element of a row after a sweep (R138). -/
theorem elem_sweepRow (j : Nat) : elem (sweepRow w n old f).val w j =
    (if j < n then f j else none).elim (elem old w j) fun x => x.1 % 2 ^ w := by
  induction n with
  | zero => rfl
  | succ n ih =>
    rw [sweepRow_succ, rowStep]
    rcases lt_trichotomy j n with before | rfl | after
    · rw [if_pos before] at ih
      rw [if_pos (by omega)]
      cases hn : f n with
      | none => exact ih
      | some x => exact (elem_putBits _ _ _ _ _).trans ((if_neg (by omega)).trans ih)
    · rw [if_neg (lt_irrefl j)] at ih
      rw [if_pos (by omega)]
      cases hn : f j with
      | none => exact ih
      | some x => exact (elem_putBits _ _ _ _ _).trans (if_pos rfl)
    · rw [if_neg (by omega)] at ih ⊢
      cases hn : f n with
      | none => exact ih
      | some x => exact (elem_putBits _ _ _ _ _).trans ((if_neg (by omega)).trans ih)

/-- A bit that a sweep has not written is the old one (R138). -/
theorem testBit_sweepRow_of_untouched {p : Nat} (untouched : (sweepRow w n old f).bits.testBit p = false) :
    (sweepRow w n old f).val.testBit p = old.testBit p := by
  induction n with
  | zero => rfl
  | succ n ih =>
    rw [sweepRow_succ, rowStep] at untouched ⊢
    cases hn : f n with
    | none => exact ih (by simpa [hn] using untouched)
    | some x =>
      simp only [hn, testBit_putBits, Nat.testBit_two_pow_sub_one] at untouched ⊢
      by_cases inside : w * n ≤ p ∧ p < w * n + w
      · rw [if_pos inside] at untouched
        exact absurd untouched (by simpa using by omega)
      · rw [if_neg inside] at untouched ⊢
        exact ih untouched

theorem sweepRow_val_lt {top : Nat} (hold : old < 2 ^ top) (fits : w * n ≤ top) : (sweepRow w n old f).val < 2 ^ top := by
  induction n with
  | zero => exact hold
  | succ n ih =>
    have before := ih (le_trans (Nat.mul_le_mul_left w (Nat.le_succ n)) fits)
    rw [sweepRow_succ, rowStep]
    cases hn : f n with
    | none => exact before
    | some x => exact putBits_lt before fits

end

/-! The rows of a group (R134). -/

theorem sliceNat_zero {w : Nat} (v : BitVec w) (n : Nat) : sliceNat v 0 n = v.toNat % 2 ^ n := rfl

theorem sliceNat_ofNat {w n x : Nat} (hx : x < 2 ^ n) (hn : n ≤ w) : sliceNat (BitVec.ofNat w x) 0 n = x := by
  have fits : x < 2 ^ w := lt_of_lt_of_le hx (Nat.pow_le_pow_right (by decide) hn)
  rw [sliceNat_zero, BitVec.toNat_ofNat, Nat.mod_eq_of_lt fits, Nat.mod_eq_of_lt hx]

theorem Ctx.groupRow_succ (k : Ctx) (rb n g r : Nat) : k.groupRow rb n (g + 1) r =
    2 ^ (8 * rb * g) * sliceNat (k.vreg (n + g) r) 0 (8 * rb) + k.groupRow rb n g r := by
  simp only [Ctx.groupRow, upFrom_succ, List.foldl_append, List.foldl_cons, List.foldl_nil, Nat.zero_add, Nat.shiftLeft_eq]
  rw [Nat.add_comm, Nat.mul_comm]

theorem Ctx.groupRow_lt (k : Ctx) (rb n g r : Nat) : k.groupRow rb n g r < 2 ^ (8 * rb * g) := by
  induction g with
  | zero => simp [Ctx.groupRow, upFrom]
  | succ g ih =>
    have slice : sliceNat (k.vreg (n + g) r) 0 (8 * rb) + 1 ≤ 2 ^ (8 * rb) := Nat.mod_lt _ (Nat.two_pow_pos _)
    rw [Ctx.groupRow_succ]
    calc 2 ^ (8 * rb * g) * sliceNat (k.vreg (n + g) r) 0 (8 * rb) + k.groupRow rb n g r
      _ < 2 ^ (8 * rb * g) * (sliceNat (k.vreg (n + g) r) 0 (8 * rb) + 1) := by rw [Nat.mul_succ]; omega
      _ ≤ 2 ^ (8 * rb * g) * 2 ^ (8 * rb) := Nat.mul_le_mul_left _ slice
      _ = 2 ^ (8 * rb * (g + 1)) := by rw [← Nat.pow_add, Nat.mul_succ]

/-- The row bytes of register n + i are element i of the group's row. -/
theorem Ctx.elem_groupRow (k : Ctx) (rb n r : Nat) {g i : Nat} (hi : i < g) :
    elem (k.groupRow rb n g r) (8 * rb) i = sliceNat (k.vreg (n + i) r) 0 (8 * rb) := by
  induction g with
  | zero => omega
  | succ g ih =>
    refine Nat.eq_of_testBit_eq fun p => ?_
    rw [testBit_elem, Ctx.groupRow_succ, Nat.testBit_two_pow_mul_add _ (k.groupRow_lt rb n g r)]
    rcases Nat.lt_succ_iff_lt_or_eq.mp hi with before | rfl
    · rw [← ih before, testBit_elem]
      by_cases inside : p < 8 * rb
      · have below : 8 * rb * i + p < 8 * rb * g :=
          calc 8 * rb * i + p
            _ < 8 * rb * (i + 1) := by rw [Nat.mul_succ]; omega
            _ ≤ 8 * rb * g := Nat.mul_le_mul_left _ before
        rw [if_pos below]
      · simp [inside]
    · rw [if_neg (by omega), Nat.add_sub_cancel_left, sliceNat_zero, Nat.testBit_mod_two_pow]
      simp

/-- A group row is the number whose elements the registers hold. -/
theorem Ctx.groupRow_eq {k : Ctx} {rb n g r x : Nat} (hx : x < 2 ^ (8 * rb * g))
    (rows : ∀ i, i < g → sliceNat (k.vreg (n + i) r) 0 (8 * rb) = elem x (8 * rb) i) : k.groupRow rb n g r = x :=
  eq_of_elems (k.groupRow_lt rb n g r) hx fun i hi => (k.elem_groupRow rb n r hi).trans (rows i hi)

/-- Groups whose registers hold the same row have the same group row. -/
theorem Ctx.groupRow_congr {k k' : Ctx} {rb n g r : Nat} (same : ∀ i, i < g → k'.vreg (n + i) r = k.vreg (n + i) r) :
    k'.groupRow rb n g r = k.groupRow rb n g r :=
  Ctx.groupRow_eq (k.groupRow_lt rb n g r) fun i hi => by rw [k.elem_groupRow rb n r hi, same i hi]

/-! Writing a row of a group (R138, R151, R153). -/

theorem Ctx.vreg_setVreg (k : Ctx) {n i r r' : Nat} (v : BitVec 8192) (hn : n < 32) (hr : r < 8) (hr' : r' < 8) :
    (k.setVreg n r v).vreg i r' = if i = n ∧ r' = r then v else k.vreg i r' := by
  have place : i * 8 + r' = n * 8 + r ↔ i = n ∧ r' = r := by omega
  unfold Ctx.vreg Ctx.setVreg
  by_cases listed : i * 8 + r' < 256
  · rw [dif_pos listed, dif_pos listed, Vector.getElem_setIfInBounds]
    exact if_congr (eq_comm.trans place) rfl rfl
  · rw [dif_neg listed, dif_neg listed, if_neg (fun same => listed (by omega))]

/-- A change of the vector registers that leaves the mask registers. -/
def Ctx.VectorsOnly (k t : Ctx) : Prop := k.RegistersOnly t ∧ t.m = k.m

theorem Ctx.VectorsOnly.trans {a b e : Ctx} (h : a.VectorsOnly b) (h' : b.VectorsOnly e) : a.VectorsOnly e :=
  ⟨h.1.trans h'.1, h'.2.trans h.2⟩

section
variable (q : VCfg) (n r val touched : Nat)

/-- Register n + i of a group takes its part of a row, where bits of it were written. -/
def Ctx.putRegister (k : Ctx) (i : Nat) : Ctx :=
  let t := elem touched (8 * q.rb) i
  if t = 0 then k
  else
    let k1 := k.setVreg (n + i) r (BitVec.ofNat 8192 (elem val (8 * q.rb) i))
    let d := (upFrom 0 4).foldl (fun d z =>
      if elem t (8 * q.qb) z = 0 then d else d ||| BitVec.twoPow 128 ((n + i) * 4 + z)) k1.dirty
    { k1 with dirty := d, wrote := k1.wrote ||| BitVec.ofNat 4096 (touchedGroups q.rb t * 2 ^ groupPos (n + i) r) }

theorem Ctx.putGroupRow_eq (k : Ctx) (g : Nat) :
    k.putGroupRow q n g r val touched = (upFrom 0 g).foldl (Ctx.putRegister q n r val touched) k := rfl

theorem Ctx.putRegister_vectorsOnly (k : Ctx) (i : Nat) : k.VectorsOnly (k.putRegister q n r val touched i) := by
  unfold Ctx.putRegister
  dsimp only
  split <;> exact ⟨rfl, rfl⟩

theorem Ctx.putGroupRow_vectorsOnly (k : Ctx) (g : Nat) : k.VectorsOnly (k.putGroupRow q n g r val touched) := by
  rw [Ctx.putGroupRow_eq]
  exact List.foldlRecOn (motive := k.VectorsOnly) _ _ ⟨rfl, rfl⟩ fun t before i _ =>
    before.trans (t.putRegister_vectorsOnly q n r val touched i)

variable {r}

theorem Ctx.putRegister_vreg (k : Ctx) {i j r' : Nat} (hi : n + i < 32) (hr : r < 8) (hr' : r' < 8) :
    (k.putRegister q n r val touched i).vreg j r' =
      if j = n + i ∧ r' = r ∧ elem touched (8 * q.rb) i ≠ 0 then BitVec.ofNat 8192 (elem val (8 * q.rb) i)
      else k.vreg j r' := by
  unfold Ctx.putRegister
  dsimp only
  by_cases untouched : elem touched (8 * q.rb) i = 0
  · simp [untouched]
  · rw [if_neg untouched]
    exact (k.vreg_setVreg _ hi hr hr').trans (if_congr (by simp [untouched]) rfl rfl)

/-- The registers after a row of a group has been written. -/
theorem Ctx.putGroupRow_vreg (k : Ctx) {g j r' : Nat} (hg : n + g ≤ 32) (hr : r < 8) (hr' : r' < 8) :
    (k.putGroupRow q n g r val touched).vreg j r' =
      if n ≤ j ∧ j < n + g ∧ r' = r ∧ elem touched (8 * q.rb) (j - n) ≠ 0 then BitVec.ofNat 8192 (elem val (8 * q.rb) (j - n))
      else k.vreg j r' := by
  rw [Ctx.putGroupRow_eq]
  induction g with
  | zero => rw [if_neg (by omega)]; rfl
  | succ g ih =>
    rw [upFrom_succ, List.foldl_append, List.foldl_cons, List.foldl_nil, Nat.zero_add,
      Ctx.putRegister_vreg q n val touched _ (by omega) hr hr', ih (by omega)]
    by_cases last : j = n + g
    · subst last
      simp
    · rw [if_neg (by omega)]
      exact if_congr (by omega) rfl rfl

/-- A row that has been written is the group's row, where what was not touched is as it was. -/
theorem Ctx.putGroupRow_groupRow_same (k : Ctx) {g : Nat} (hg : n + g ≤ 32) (hr : r < 8) (width : 8 * q.rb ≤ 8192)
    (hval : val < 2 ^ (8 * q.rb * g))
    (kept : ∀ p, touched.testBit p = false → val.testBit p = (k.groupRow q.rb n g r).testBit p) :
    (k.putGroupRow q n g r val touched).groupRow q.rb n g r = val := by
  refine Ctx.groupRow_eq hval fun i hi => ?_
  rw [Ctx.putGroupRow_vreg q n val touched k hg hr hr, Nat.add_sub_cancel_left]
  by_cases untouched : elem touched (8 * q.rb) i = 0
  · rw [if_neg (by simp [untouched]), ← k.elem_groupRow q.rb n r hi]
    refine Nat.eq_of_testBit_eq fun p => ?_
    rw [testBit_elem, testBit_elem]
    by_cases inside : p < 8 * q.rb
    · have clear := testBit_elem touched (8 * q.rb) i p
      rw [untouched, Nat.zero_testBit, decide_eq_true inside, Bool.true_and] at clear
      rw [kept _ clear.symm]
    · simp [inside]
  · rw [if_pos ⟨by omega, by omega, rfl, untouched⟩, sliceNat_ofNat (elem_lt _ _ _) width]

end

/-! A sweep. -/

section
variable (k : Ctx) (q : VCfg) (n g w cols : Nat) (f : Nat → Nat → Option (Nat × BitVec 5))

/-- The context after a sweep over rows below `rows`. -/
def Ctx.swept (rows : Nat) : Ctx := (k.sweepGroup q n g w cols rows f).1

theorem Ctx.swept_succ (rows : Nat) : k.swept q n g w cols f (rows + 1) =
    let t := k.swept q n g w cols f rows
    let a := sweepRow w cols (t.groupRow q.rb n g rows) (f rows)
    t.putGroupRow q n g rows a.val a.bits := by
  rw [Ctx.swept, Ctx.sweepGroup, upFrom_succ, List.foldl_append, Nat.zero_add]
  rfl

theorem Ctx.swept_vectorsOnly (rows : Nat) : k.VectorsOnly (k.swept q n g w cols f rows) := by
  induction rows with
  | zero => exact ⟨rfl, rfl⟩
  | succ rows ih =>
    rw [Ctx.swept_succ]
    exact ih.trans (Ctx.putGroupRow_vectorsOnly _ _ _ _ _ _ _)

variable {k q n g w cols f} {rows : Nat}

/-- A sweep writes the registers of its group in its rows alone (R138). -/
theorem Ctx.swept_vreg_outside (hrows : rows ≤ 8) (hg : n + g ≤ 32) {i r : Nat} (hr : r < 8)
    (outside : rows ≤ r ∨ i < n ∨ n + g ≤ i) : (k.swept q n g w cols f rows).vreg i r = k.vreg i r := by
  induction rows with
  | zero => rfl
  | succ rows ih =>
    rw [Ctx.swept_succ, Ctx.putGroupRow_vreg _ _ _ _ _ hg hrows hr, if_neg (by omega)]
    exact ih (by omega) (by omega)

/-- Each row of a sweep is swept once, from its old elements (R138). -/
theorem Ctx.swept_groupRow (hrows : rows ≤ 8) (hg : n + g ≤ 32) (width : 8 * q.rb ≤ 8192) (fits : w * cols ≤ 8 * q.rb * g)
    {r : Nat} (hr : r < rows) :
    (k.swept q n g w cols f rows).groupRow q.rb n g r = (sweepRow w cols (k.groupRow q.rb n g r) (f r)).val := by
  induction rows with
  | zero => omega
  | succ rows ih =>
    have fresh : (k.swept q n g w cols f rows).groupRow q.rb n g rows = k.groupRow q.rb n g rows :=
      Ctx.groupRow_congr fun i _ => Ctx.swept_vreg_outside (by omega) hg hrows (.inl le_rfl)
    rw [Ctx.swept_succ]
    dsimp only
    rcases Nat.lt_succ_iff_lt_or_eq.mp hr with before | rfl
    · rw [← ih (by omega) before]
      refine Ctx.groupRow_congr fun i hi => ?_
      rw [Ctx.putGroupRow_vreg _ _ _ _ _ hg hrows (by omega), if_neg (by omega)]
    · rw [fresh]
      refine Ctx.putGroupRow_groupRow_same _ _ _ _ _ hg hrows width (sweepRow_val_lt _ _ _ _ (k.groupRow_lt _ _ _ _) fits) ?_
      intro p untouched
      rw [fresh]
      exact testBit_sweepRow_of_untouched _ _ _ _ untouched

end

/-- R134, R138, R159: what a sweep writes, and that it writes nothing else. -/
theorem sweepClaims : SweepClaims := by
  intro k q n g w cols rows f hrows hg width _ _ fits t
  obtain ⟨only, masks⟩ := k.swept_vectorsOnly q n g w cols f rows
  have field {α : Type} (get : Ctx → α) : get t = get (k.registersOf t) := congrArg get only
  refine ⟨fun r j hr hj => ?_, fun r i later hr _ => Ctx.swept_vreg_outside hrows hg hr (.inl later),
    fun r i hr outside _ => Ctx.swept_vreg_outside hrows hg hr (.inr outside), field Ctx.x, field Ctx.f, masks, field Ctx.pc,
    field Ctx.fstat, field Ctx.vl, field Ctx.vrows⟩
  have row := Ctx.swept_groupRow (k := k) (f := f) hrows hg width fits hr
  have swept : t.element q n g w r j = (f r j).elim (k.element q n g w r j) fun x => x.1 % 2 ^ w := by
    rw [Ctx.element, show t.groupRow q.rb n g r = _ from row, elem_sweepRow, if_pos hj, Ctx.element]
  refine swept.trans ?_
  cases f r j <;> rfl

/-- R137, R159, R30: the four fates of a position. -/
theorem fateClaims : FateClaims := by
  intro k q mk op r j
  refine ⟨fun inside active => ?_, fun inside masked clear => ?_, fun tail long => ?_, fun empty => ?_⟩
  · have bit : k.maskBit mk r j = true := by simpa [Ctx.maskBit] using active
    rw [Ctx.fate, if_pos inside, if_pos bit]
  · have bit : k.maskBit mk r j = false := by simp [Ctx.maskBit, masked, clear]
    rw [Ctx.fate, if_pos inside, if_neg (by simp [bit])]
  · rw [Ctx.fate, if_neg (Nat.not_lt.mpr tail)]
    exact if_congr (and_iff_left long) rfl rfl
  · rw [Ctx.fate, if_neg (by omega), if_neg (fun h => h.2 empty)]

end Sys2Proof.Machine

/-! The statements of spec/05_vector_shape_and_lanes.md. -/

namespace Sys2Proof.Proofs

open Sys2Proof.Machine

/-- Settles O13: a sweep row by row and element by element, and the fates of a position by its place and its mask bit. -/
theorem sweepPositions : Obligations.SweepPositions := ⟨sweepClaims, fateClaims⟩

/-- Settles O17: VSHAPE by the check that stops it or the lane move that it makes, and what the move leaves of its context. -/
theorem shapes : Obligations.Shapes := ⟨shapeClaims, laneMoveClaims⟩

/-- Settles O18: each instruction by its effect once its word issues. -/
theorem forms : Obligations.Forms := ⟨formClaims, readShapeClaims⟩

/-- Settles O19: VSPLIT and VJOIN by the contexts that each changes, one after the other. -/
theorem laneGroups : Obligations.LaneGroups := ⟨splitClaims, joinClaims⟩

end Sys2Proof.Proofs

/-! Vector arithmetic (R163-R178). -/

namespace Sys2Proof.Machine

/-! Instructions that issue through one of the operations that many of them share. -/

section
variable {i : Instr} {d a m : Nat} {b : Ctx → BSrc} {bad : VCfg → Bool}

/-- An instruction that issues through `vecMap` takes each active element to the result of its operation (R158, R159). -/
theorem mapsElements_of_issue {old : Bool} {op : VCfg → Nat → Nat → Nat → Nat × BitVec 5}
    (h : ∀ s, exec i s = .next (s.issue (encode i) fun c k s => s.vecMap c (encode i) d a (b k) m old bad op)) :
    MapsElements i d a b m old bad op :=
  vecActs_of_issue h

/-- An instruction that issues through `vecCompare` compares elements into a mask register (R159, R170). -/
theorem comparesElements_of_issue {op : VCfg → Nat → Nat → Nat × BitVec 5}
    (h : ∀ s, exec i s = .next (s.issue (encode i) fun c k s => s.vecCompare c (encode i) d a (b k) m bad op)) :
    ComparesElements i d a b m bad op :=
  vecActs_of_issue h

/-- An instruction that issues through `vecReduce` reduces each row into its element 0 (R60, R172). -/
theorem reduces_of_issue {d a : BitVec 5} {m : BitVec 3} {pad : VCfg → Nat} {leaf : VCfg → Nat → Nat × BitVec 5}
    {node : VCfg → Nat → Nat → Nat × BitVec 5}
    (h : ∀ s, exec i s = .next (s.issue (encode i) fun c _ s =>
      s.vecReduce c (encode i) d.toNat a.toNat m.toNat bad pad leaf node)) : Reduces i d a m bad pad leaf node :=
  vecActs_of_issue h

end

/-! Integers (R163-R172). -/

/-- R163: addition, subtraction, multiplication, division and the counts of bits, each form of which is an element-wise map. -/
theorem vectorArithmeticClaims : VectorArithmeticClaims := by
  intro d a b m l
  and_intros
  all_goals exact mapsElements_of_issue fun _ => rfl

/-- R163-R165: minima and maxima, bitwise operations, shifts and saturating sums, which are element-wise maps too. -/
theorem vectorLogicClaims : VectorLogicClaims := by
  intro d a b m l
  and_intros
  all_goals exact mapsElements_of_issue fun _ => rfl

/-- R170: comparisons into a mask register. -/
theorem vectorCompareClaims : VectorCompareClaims := by
  intro d a b m l
  and_intros
  all_goals exact comparesElements_of_issue fun _ => rfl

/-- R163-R171: funnel shifts and VLUT3 are maps that read the old destination; each of the others has an effect of its own. -/
theorem vectorWideClaims : VectorWideClaims := by
  intro d a b m t l u
  refine ⟨?mul, ?macc, ?maccu, ?maccsu, ?clip, ?funnel, ?merge, ?move, ?conf, ?lut⟩
  case funnel =>
    and_intros
    all_goals exact mapsElements_of_issue fun _ => rfl
  case lut => exact mapsElements_of_issue fun _ => rfl
  case conf => exact vecActs_of_issue fun _ => rfl
  case mul | macc | maccu | maccsu => exact ⟨vecActs_of_issue fun _ => rfl, vecActs_of_issue fun _ => rfl⟩
  case clip | merge | move =>
    exact ⟨vecActs_of_issue fun _ => rfl, vecActs_of_issue fun _ => rfl, vecActs_of_issue fun _ => rfl⟩

/-- R60, R172, R178: row reductions, each with its pad and the node of its tree. -/
theorem vectorReductionClaims : VectorReductionClaims := by
  intro d a m
  and_intros
  all_goals exact reduces_of_issue fun _ => rfl

/-! Floating point and conversions (R61, R62, R170, R173-R177). -/

/-- R61, R62, R170, R173, R174: the comparisons go into a mask register, all else is an element-wise map. -/
theorem vectorFloatClaims : VectorFloatClaims := by
  intro d a b m l
  refine ⟨?add, ?sub, ?mul, ?div, ?sqrt, ?fma, ?fnma, ?min, ?max, ?special, ?eq, ?lt, ?le, ?gt, ?ge⟩
  case eq | lt | le | gt | ge => exact ⟨comparesElements_of_issue fun _ => rfl, comparesElements_of_issue fun _ => rfl⟩
  all_goals
    and_intros
    all_goals exact mapsElements_of_issue fun _ => rfl

/-- R175-R177: conversions between FORM's format and the coded one. -/
theorem vectorConvertClaims : VectorConvertClaims := fun _ _ _ _ =>
  ⟨vecActs_of_issue fun _ => rfl, vecActs_of_issue fun _ => rfl, vecActs_of_issue fun _ => rfl, vecActs_of_issue fun _ => rfl,
    vecActs_of_issue fun _ => rfl⟩

end Sys2Proof.Machine

/-! A shape of more rows than a register holds (R22, R29, R138). -/

namespace Sys2Proof.Machine

/-- A vector context whose VROWS is 9: a register has 8 rows and R29 ends at 8, but DRET takes the four bits of VROWS as they
stand in its frame (R453), and no check of a vector instruction looks at them. -/
def nineRows : State := State.reset.modCtx 0 fun k => { k with vl := 1, vrows := 9 }

theorem nineRows_issues : nineRows.issues (encode (.vmovI 0 1 0)) = true := by decide +kernel

/-- VMOV_I to v0, which is bound to no stream, passes its checks there and takes no chunk. -/
theorem nineRows_passes : (nineRows.issued (encode (.vmovI 0 1 0))).VecPasses nineRows.cur
    (moveOp (encode (.vmovI 0 1 0)) nineRows.cfgHere.g 0 (srcI 1 nineRows.here)) false [] []
    (nineRows.issued (encode (.vmovI 0 1 0))) 0 where
  unit := by decide +kernel
  form := by decide +kernel
  overlap := by decide +kernel
  room := by decide +kernel
  empty := nofun
  reads := ⟨_, _, _, rfl, rfl, rfl, rfl, rfl, rfl⟩

/-- Its sweep goes on past row 7 of v0, to where row 0 of v1 lies. -/
theorem vmovI_nineRows : ∃ t, exec (.vmovI 0 1 0) nineRows = .next t ∧ (t.ctx nineRows.cur).vreg 1 0 ≠ nineRows.here.vreg 1 0 :=
  ⟨_, rfl, by decide +kernel⟩

/-- The frame of VMOV_I to v0 fails: v1 is outside its group of one register. -/
theorem not_frameV_vmovI : ¬ FrameV (.vmovI 0 1 0) 0 fun w q k => moveOp w q.g 0 (srcI 1 k) := by
  intro frame
  obtain ⟨t, runs, written⟩ := vmovI_nineRows
  obtain ⟨-, -, -, -, -, -, -, -, -, outside, -⟩ := frame nineRows _ t nineRows_issues ⟨0, nineRows_passes⟩ runs rfl
  have afterGroup : 0 + nineRows.cfgHere.g ≤ 1 := by decide +kernel
  exact written (outside 1 0 (by decide) (by decide) (.inr afterGroup))

end Sys2Proof.Machine

/-! The statements of spec/06_vector_arithmetic.md. -/

namespace Sys2Proof.Proofs

open Sys2Proof.Machine

/-- Settles O9: each instruction issues through the one element-wise map, or the one comparison. -/
theorem vectorInteger : Obligations.VectorInteger := ⟨vectorArithmeticClaims, vectorLogicClaims, vectorCompareClaims⟩

/-- Settles O10: each instruction by the shared operation that it issues through. -/
theorem vectorWideReduce : Obligations.VectorWideReduce := ⟨vectorWideClaims, vectorReductionClaims⟩

/-- Settles O11: as the integer instructions, with the operations of FORM's format. -/
theorem vectorFloats : Obligations.VectorFloats := ⟨vectorFloatClaims, vectorConvertClaims⟩

/-- Refutes O52: with VROWS = 9, which the statement does not exclude, VMOV_I to v0 with FORM.GF = 0 writes v1. -/
theorem not_vectorFrame : ¬ Obligations.VectorFrame := by
  unfold Obligations.VectorFrame
  intro frames
  obtain ⟨-, -, -, -, -, ⟨-, -, moves⟩, -⟩ := frames 0 0 1 0 0 (.vmovI 0 1 0)
  exact not_frameV_vmovI (moves rfl)

end Sys2Proof.Proofs

/-! Masks, permutations and scalar results (R202-R209). -/

namespace Sys2Proof.Machine

/-- An instruction that issues through `vecPerm` permutes its sources into group d (R204-R208). -/
theorem permutes_of_issue {i : Instr} {d : BitVec 5} {srcs : Ctx → List Nat} {apart : Bool}
    {f : Ctx → VCfg → Ctx → Nat → Nat → Option (Nat × BitVec 5)}
    (h : ∀ s, exec i s = .next (s.issue (encode i) fun c k s => s.vecPerm c (encode i) d (srcs k) apart (f k))) :
    Permutes i d srcs apart f :=
  vecActs_of_issue h

/-- A row number of an x register is its three lowest bits (R208). -/
theorem bits_row (v : Word) : bits v 2 0 = v.toNat % 8 := bits_low v 2

/-- R202, R204-R209: each instruction by the operation on masks, or the permutation, that it issues through. -/
theorem vectorPermuteClaims : VectorPermuteClaims := by
  intro d a b m n l
  refine ⟨?and, ?or, ?xor, ?not, ?iota, ?vid, ?up, ?down, ?gather, ?compress, ?expand, ?bcX, ?bcI, ?rotX, ?rotI, ?insert⟩
  case and | or | xor | not => exact vecActs_of_issue fun _ => rfl
  case iota | vid | gather | compress | expand | bcI | rotI => exact permutes_of_issue fun _ => rfl
  case up | down =>
    rintro off i (⟨rfl, rfl⟩ | ⟨rfl, rfl⟩)
    all_goals exact permutes_of_issue fun _ => rfl
  case bcX | rotX =>
    simp only [← bits_row]
    exact permutes_of_issue fun _ => rfl
  case insert =>
    simp only [← Prod.mk.injEq]
    exact vecActs_of_issue fun _ => rfl

/-- What MFIRST writes where these are the one bits of its mask (R203). -/
def firstOne (ones : List Nat) : Word :=
  match ones.head? with
  | some p => BitVec.ofNat 64 p
  | none => BitVec.allOnes 64

theorem firstOne_eq (ones : List Nat) : firstOne ones = match ones with
    | p :: _ => BitVec.ofNat 64 p
    | [] => BitVec.allOnes 64 := by
  cases ones <;> rfl

/-- MFIRST issues as an instruction with the first of the one bits as its result. -/
theorem exec_mfirst (d a : BitVec 5) (s : State) : exec (.mfirst d a) s = .next (s.issue (encode (.mfirst d a)) fun c _ s =>
    s.vecScalar c (maskOp (encode (.mfirst d a))) d fun q k => firstOne (k.maskOnes q a.toNat)) := by
  simp only [firstOne_eq]
  rfl

/-- R203, R209: counts and positions of mask bits, and one element of a vector. -/
theorem vectorScalarClaims : VectorScalarClaims := fun d a _ =>
  ⟨vecWritesX_of_issue fun _ => rfl, vecWritesX_of_issue (exec_mfirst d a), vecWritesX_of_issue fun _ => rfl⟩

end Sys2Proof.Machine

/-! The front of the vector memory instructions, and the scratchpad (R181-R196). -/

namespace Sys2Proof.Machine

/-! A context that begins to act, and the checks at issue (R160, R182, R184). -/

/-- A context that begins a vector instruction (R153, R352). -/
def Ctx.vecStarted (k : Ctx) : Ctx := { k.loadsFixed with wrote := 0 }

theorem State.vecStart_ctx (s : State) (c : CtxId) : (s.vecStart c).ctx c = (s.ctx c).vecStarted := by
  simp [State.vecStart, Ctx.vecStarted]

theorem State.vecStart_did (s : State) (c : CtxId) : (s.vecStart c).did c = s.did c := by
  simp only [State.did, State.vecStart_ctx]
  rfl

theorem State.vecStart_agent (s : State) (c : CtxId) : (s.vecStart c).agent c = s.agent c := by
  simp only [State.agent, State.vecStart_ctx, State.vecStart_did]
  rfl

theorem State.vecStart_rx (s : State) (c : CtxId) (a : BitVec 5) : ((s.vecStart c).ctx c).rx a = (s.ctx c).rx a := by
  rw [State.vecStart_ctx]; rfl

/-- A vector memory instruction whose checks at issue pass begins to act. -/
theorem State.memFront_of_passes {s : State} {c : CtxId} {o : VOp} (go : State → VCfg → State) (h : s.memPasses c o = true) :
    s.memFront c o go = go (s.vecStart c) ((s.ctx c).vcfg (physLanes (coreOf c))) := by
  simp only [State.memPasses, Bool.and_eq_true, Bool.not_eq_true', decide_eq_true_eq] at h
  obtain ⟨⟨⟨form, unbound⟩, apart⟩, room⟩ := h
  have plain : (s.ctx c).opBound o = false := unbound
  simp only [State.memFront, form, plain, apart, Nat.not_le.mpr room, Bool.or_self, Bool.false_eq_true, if_false]

/-- Where index 0 does not fail, no position of column 0 has a trap to take (R186). -/
theorem trapAt0_eq_none {res : List ((Nat × Nat) × Option Trap)} (h : firstBad res ≠ some 0) : trapAt0 res = none := by
  induction res with
  | nil => rfl
  | cons e t ih =>
    obtain ⟨p, _ | x⟩ := e
    · exact ih h
    · have later : p.2 ≠ 0 := by
        intro first
        refine h ?_
        rw [firstBad, first]
        cases firstBad t <;> simp
      have rest : firstBad t ≠ some 0 := by
        intro first
        refine h ?_
        simp [firstBad, first]
      rw [trapAt0, if_neg later, ih rest]

/-! The scratchpad of the own lanes (R191-R195). -/

theorem State.vecStart_paneCheck (s : State) (c : CtxId) (p : Pane) (off e : Nat) :
    (s.vecStart c).paneCheck c p off e = s.paneCheck c p off e := by
  simp only [State.paneCheck, State.vecStart_did]
  rfl

/-- The pane that x[a] names is handed to the instruction where it is ready (R192). -/
theorem State.withPane_of_ready {s : State} {c : CtxId} {xa : Word} {p : Pane} (go : Pane → State) (h : s.paneReady c xa p) :
    (s.vecStart c).withPane c xa go = go p := by
  obtain ⟨here, low, ready, owner⟩ := h
  have pane : ((s.vecStart c).core (coreOf c)).panes.toList.getD (bits xa 5 0) Pane.empty = p := here.symm
  have small : zeroBits xa 63 6 = true := zeroBits_of_lt 63 low
  simp only [State.withPane, pane, small, ready, owner, State.vecStart_did]
  simp

/-- What the checks of a lane instruction's positions find (R193). -/
theorem State.lanePasses.checks {s : State} {c : CtxId} {o : VOp} {p : Pane} {b : BitVec 5} {mk n : Nat} {xa : Word}
    (h : s.lanePasses c o xa p b.toNat mk n) :
    let k := s.ctx c
    let q := k.vcfg (physLanes (coreOf c))
    let res := (k.vecStarted.activePos q mk).map fun z =>
      (z, (s.vecStart c).paneCheck c p (elem (k.vecStarted.groupRow q.rb b.toNat q.g z.1) q.w z.2) q.e)
    trapAt0 res = none ∧ (firstBad res).getD q.vl = n := by
  obtain ⟨-, -, unfaulted, cut⟩ := h
  simp only [State.vecStart_paneCheck]
  exact ⟨trapAt0_eq_none unfaulted, cut.symm⟩

section
variable {s : State} {c : CtxId} {w : BitVec 32} {d a b : BitVec 5} {p : Pane} {mk n : Nat} {k : Ctx} {q : VCfg}
  (ctx : s.ctx c = k) (cfg : k.vcfg (physLanes (coreOf c)) = q)
include ctx cfg

/-- VLDL whose checks pass (R191-R193). -/
theorem State.laneLoad_of_passes
    (h : s.lanePasses c { word := w, srcs := [(b.toNat, q.g)], dst := some (d.toNat, q.g),
                          form := [(d.toNat, q.g), (b.toNat, q.g)], old := false, formBad := false,
                          overlap := groupsMeet d.toNat q.g b.toNat q.g } (k.rx a) p b.toNat mk n) :
    let r := (s.vecStart c).modCtx c fun t =>
      ((t.loadSweep q d.toNat mk n (fun r j => natOf (s.spadRead (coreOf c) (k.physLane q j)
        (p.base + k.element q b.toNat q.g q.w r j) q.e)) fun _ _ => false).truncated n).latched (upFrom d.toNat q.g)
    s.laneLoad c w d a b mk = r.checkPhase c ((r.ctx c).entry q.rows 0 none [] [] 0) := by
  subst ctx cfg
  intro r
  obtain ⟨column, cut⟩ := h.checks
  obtain ⟨passes, ready, -⟩ := h
  unfold State.laneLoad
  rw [State.memFront_of_passes _ passes]
  dsimp only
  rw [State.vecStart_rx, State.withPane_of_ready _ ready, State.vecStart_ctx, cut, column, ite_self]
  rfl

/-- VSTL, VSAADD and VSAMAX whose checks pass (R191-R195). -/
theorem State.laneStore_of_passes {atomic : Bool} {new : Nat → Nat → Nat → Nat}
    (h : s.lanePasses c { word := w, srcs := [(d.toNat, q.g), (b.toNat, q.g)], dst := none,
                          form := [(d.toNat, q.g), (b.toNat, q.g)], old := false,
                          formBad := atomic && decide (q.ew = 3), overlap := false } (k.rx a) p b.toNat mk n) :
    let r := (((k.activePos q mk).filter fun z => decide (z.2 < n)).foldl (fun t z =>
      let o := p.base + k.element q b.toNat q.g q.w z.1 z.2
      let lane := k.physLane q z.2
      t.spadWrite (coreOf c) lane o (bytesOf (new q.w (natOf (t.spadRead (coreOf c) lane o q.e))
        (k.element q d.toNat q.g q.w z.1 z.2)) q.e)) (s.vecStart c)).modCtx c fun k => k.truncated n
    s.laneStore c w d a b mk atomic new = r.checkPhase c ((r.ctx c).entry q.rows 0 none [] [] 0) := by
  subst ctx cfg
  intro r
  obtain ⟨column, cut⟩ := h.checks
  obtain ⟨passes, ready, -⟩ := h
  unfold State.laneStore
  rw [State.memFront_of_passes _ passes]
  dsimp only
  rw [State.vecStart_rx, State.withPane_of_ready _ ready, State.vecStart_ctx, cut, column, ite_self]
  simp only [r, List.foldl_filter, decide_eq_true_eq]
  rfl

end

/-- R191-R195: lane loads, stores and atomics. -/
theorem laneMemoryClaims : LaneMemoryClaims := by
  intro d a b m
  constructor
  · intro s p n issues s1 c q h
    refine congrArg Host.Outcome.next ((State.issue_of_issues _ _ _ issues).trans ?_)
    exact State.laneLoad_of_passes (State.issued_ctx s _ c) rfl h
  · intro i new atomic cases s p n issues s1 c q h
    have run : exec i s = .next (s.issue (encode i) fun c _ s => s.laneStore c (encode i) d a b m.toNat atomic new) := by
      obtain ⟨rfl, rfl, rfl⟩ | ⟨rfl, rfl, rfl⟩ | ⟨rfl, rfl, rfl⟩ := cases <;> rfl
    rw [run, State.issue_of_issues _ _ _ issues]
    exact congrArg Host.Outcome.next (State.laneStore_of_passes (State.issued_ctx s _ c) rfl h)

/-! The scratchpads of other cores (R194, R196). -/

theorem State.vecStart_remoteOk (s : State) (c : CtxId) (idx : Nat) : (s.vecStart c).remoteOk c idx = s.remoteOk c idx := by
  simp only [State.remoteOk, State.vecStart_did]
  rfl

/-- A mask register after a sweep follows from the mask registers alone. -/
theorem Ctx.sweepMask_m {k k' : Ctx} (n cols rows : Nat) (f : Nat → Nat → Option (Nat × BitVec 5)) (same : k'.m = k.m) :
    (k'.sweepMask n cols rows f).1.m = (k.sweepMask n cols rows f).1.m := by
  have start : ((k', 0) : Ctx × BitVec 5).1.m = ((k, 0) : Ctx × BitVec 5).1.m := same
  refine List.foldl_rel (r := fun a b : Ctx × BitVec 5 => a.1.m = b.1.m) start fun r _ a b same => ?_
  simp only [Ctx.setMrow, Ctx.mrow, same]

theorem Ctx.RegistersOnly.scalars {k k' : Ctx} (h : k.RegistersOnly k') : k'.x = k.x ∧ k'.f = k.f :=
  have field {α : Type} (get : Ctx → α) : get k' = get (k.registersOf k') := congrArg get h
  ⟨field Ctx.x, field Ctx.f⟩

theorem Ctx.faultMask_registersOnly (k : Ctx) (q : VCfg) (fm : Nat) (fails : Nat → Nat → Bool) :
    k.RegistersOnly (k.faultMask q fm fails) :=
  List.foldlRecOn (motive := fun a : Ctx × BitVec 5 => k.RegistersOnly a.1) _ _ (Ctx.RegistersOnly.refl k)
    fun _ before _ _ => before.trans rfl

/-- The latch is the only thing that `latched` changes (R154). -/
theorem Ctx.latched_field {α : Type} (k : Ctx) (dst : List Nat) (get : Ctx → α)
    (free : ∀ l, get { k with latch := l } = get k) : get (k.latched dst) = get k := by
  unfold Ctx.latched
  split
  · split
    · exact free _
    · rfl
  · rfl

@[simp] theorem Ctx.latched_x (k : Ctx) (dst : List Nat) : (k.latched dst).x = k.x := k.latched_field dst Ctx.x fun _ => rfl
@[simp] theorem Ctx.latched_f (k : Ctx) (dst : List Nat) : (k.latched dst).f = k.f := k.latched_field dst Ctx.f fun _ => rfl
@[simp] theorem Ctx.latched_m (k : Ctx) (dst : List Nat) : (k.latched dst).m = k.m := k.latched_field dst Ctx.m fun _ => rfl
@[simp] theorem Ctx.latched_vl (k : Ctx) (dst : List Nat) : (k.latched dst).vl = k.vl :=
  k.latched_field dst Ctx.vl fun _ => rfl
@[simp] theorem Ctx.latched_tr (k : Ctx) (dst : List Nat) : (k.latched dst).tr = k.tr :=
  k.latched_field dst Ctx.tr fun _ => rfl

section
variable {s : State} {c : CtxId} {w : BitVec 32} {d b : BitVec 5} {mk fm : Nat} {k : Ctx} {q : VCfg}
  (ctx : s.ctx c = k) (cfg : k.vcfg (physLanes (coreOf c)) = q)
include ctx cfg

/-- VLDR whose checks at issue pass (R194). -/
theorem State.remoteLoad_of_passes
    (h : s.memPasses c { word := w, srcs := [(b.toNat, q.g)], dst := some (d.toNat, q.g),
                         form := [(d.toNat, q.g), (b.toNat, q.g)], old := false, formBad := decide (q.ew ≠ 2),
                         overlap := groupsMeet d.toNat q.g b.toNat q.g } = true) :
    let idx (r j : Nat) : Nat := k.element q b.toNat q.g q.w r j
    let fails (r j : Nat) : Bool := (decide (j < q.vl) && k.maskBit mk r j) && !s.remoteOk c (idx r j)
    let swept := k.vecStarted.swept q d.toNat q.g q.w q.vlmax (fun r j =>
      if fails r j then none
      else k.fate q mk (fun r j => (natOf (s.spadRead (remoteCore c (idx r j)) (k.physLane q j) (idx r j % 2 ^ 26) 4), 0)) r j)
      q.rows
    let r := (s.vecStart c).setCtx c ((swept.faultMask q fm fails).latched (upFrom d.toNat q.g))
    s.remoteLoad c w d b mk fm = r.checkPhase c ((r.ctx c).entry q.rows 0 none [] [] 0) := by
  subst ctx cfg
  intro idx fails swept r
  unfold State.remoteLoad
  rw [State.memFront_of_passes _ h]
  dsimp only
  simp only [State.vecStart_ctx, State.vecStart_remoteOk]
  rfl

/-- VSTR whose checks at issue pass (R194). -/
theorem State.remoteStore_of_passes
    (h : s.memPasses c { word := w, srcs := [(d.toNat, q.g), (b.toNat, q.g)], dst := none,
                         form := [(d.toNat, q.g), (b.toNat, q.g)], old := false, formBad := decide (q.ew ≠ 2),
                         overlap := false } = true) :
    let idx (r j : Nat) : Nat := k.element q b.toNat q.g q.w r j
    let fails (r j : Nat) : Bool := decide (j < q.vl) && k.maskBit mk r j && !s.remoteOk c (idx r j)
    let r := ((k.activePos q mk).foldl (fun t z =>
        if fails z.1 z.2 then t
        else t.spadWrite (remoteCore c (idx z.1 z.2)) (k.physLane q z.2) (idx z.1 z.2 % 2 ^ 26)
          (bytesOf (k.element q d.toNat q.g q.w z.1 z.2) 4)) (s.vecStart c)).modCtx c fun k => k.faultMask q fm fails
    s.remoteStore c w d b mk fm = r.checkPhase c ((r.ctx c).entry q.rows 0 none [] [] 0) := by
  subst ctx cfg
  intro idx fails r
  unfold State.remoteStore
  rw [State.memFront_of_passes _ h]
  dsimp only
  simp only [State.vecStart_ctx, State.vecStart_remoteOk]
  rfl

end

/-- R196: VLDR and VSTR. -/
theorem remoteMemoryClaims : RemoteMemoryClaims := by
  intro d b m f s c q k idx
  constructor
  · intro issues s1 fails passes swept r
    have own : s1.ctx c = k := State.issued_ctx s _ c
    have ctx : r.ctx c = (swept.faultMask q f.toNat fails).latched (upFrom d.toNat q.g) := State.setCtx_ctx_same _ _ _
    obtain ⟨only, masks⟩ : k.vecStarted.VectorsOnly swept := Ctx.swept_vectorsOnly _ _ _ _ _ _ _ _
    obtain ⟨hx, hf⟩ := (only.trans (swept.faultMask_registersOnly q f.toNat fails)).scalars
    rw [ctx, Ctx.latched_x, Ctx.latched_f, Ctx.latched_m]
    refine ⟨?_, Ctx.sweepMask_m _ _ _ _ masks, State.issued_mem s _, State.issued_pend s _, hx, hf⟩
    refine congrArg Host.Outcome.next ((State.issue_of_issues _ _ _ issues).trans ?_)
    rw [← ctx]
    exact State.remoteLoad_of_passes own rfl passes
  · intro issues s1 fails passes r
    refine congrArg Host.Outcome.next ((State.issue_of_issues _ _ _ issues).trans ?_)
    exact State.remoteStore_of_passes (State.issued_ctx s _ c) rfl passes

end Sys2Proof.Machine

/-! What vector accesses leave (R184-R190, R336, R340, R353, R509, R510). -/

namespace Sys2Proof.Machine

/-! A context whose redundant pair has closed an interval, or of which an access has been made. -/

/-- A context with what an access changes, and what its redundant pair knows, of another. -/
def Ctx.accessedAs (k k' : Ctx) : Ctx := { k.accessOf k' with red := k'.red }

/-- Of a context all else is kept. -/
def Ctx.Accessed (k k' : Ctx) : Prop := k' = k.accessedAs k'

theorem Ctx.Accessed.refl (k : Ctx) : k.Accessed k := rfl

theorem Ctx.Accessed.trans {a b e : Ctx} (h : a.Accessed b) (h' : b.Accessed e) : a.Accessed e :=
  have through : b.accessedAs e = (a.accessedAs b).accessedAs e := congrArg (fun k : Ctx => k.accessedAs e) h
  Eq.trans h' through

theorem Ctx.Kept.accessed {k k' : Ctx} (h : k.Kept k') : k.Accessed k' :=
  have red : k'.red = (k.accessOf k').red := congrArg Ctx.red (show k' = k.accessOf k' from h)
  have same : k.accessedAs k' = k.accessOf k' := by rw [Ctx.accessedAs, red]
  Eq.trans h same.symm

/-- What an access leaves of a context's registers and of its configuration. -/
theorem Ctx.Accessed.keeps {k k' : Ctx} (h : k.Accessed k') :
    k'.x = k.x ∧ k'.f = k.f ∧ k'.v = k.v ∧ k'.m = k.m ∧ k'.vl = k.vl ∧ k'.tr = k.tr ∧ k'.lanes = k.lanes ∧
      k'.dirty = k.dirty :=
  have field {α : Type} (get : Ctx → α) : get k' = get (k.accessedAs k') := congrArg get h
  ⟨field Ctx.x, field Ctx.f, field Ctx.v, field Ctx.m, field Ctx.vl, field Ctx.tr, field Ctx.lanes, field Ctx.dirty⟩

/-! Steps that leave memory and, of every context, all but what an access changes. -/

/-- Between two states memory, the pending writes and, of every context, all but what an access changes are kept. -/
structure State.ReadKept (s t : State) : Prop where
  mem : s.MemKept t
  ctx : ∀ q, (s.ctx q).Accessed (t.ctx q)

theorem State.ReadKept.refl (s : State) : s.ReadKept s := ⟨State.MemKept.refl s, fun _ => Ctx.Accessed.refl _⟩

theorem State.ReadKept.trans {s t u : State} (h : s.ReadKept t) (h' : t.ReadKept u) : s.ReadKept u :=
  ⟨h.mem.trans h'.mem, fun q => (h.ctx q).trans (h'.ctx q)⟩

theorem State.CtxKept.accessed {s t : State} (h : s.CtxKept t) (q : CtxId) : (s.ctx q).Accessed (t.ctx q) := (h q).accessed

theorem State.ReadKept.of_kept {s t : State} (mem : s.MemKept t) (kept : s.CtxKept t) : s.ReadKept t := ⟨mem, kept.accessed⟩

theorem State.ReadKept.of_modCtx {s : State} {c : CtxId} {g : Ctx → Ctx} (h : ∀ k : Ctx, k.Accessed (g k)) :
    s.ReadKept (s.modCtx c g) := by
  refine ⟨⟨rfl, rfl, rfl, id⟩, fun q => ?_⟩
  by_cases same : q = c
  · subst same; rw [State.modCtx_ctx_same]; exact h _
  · rw [State.modCtx_ctx_other s c q g same]; exact Ctx.Accessed.refl _

/-- A loop keeps what every round keeps. -/
theorem State.ReadKept.foldl {α : Type} {f : State → α → State} (h : ∀ (s : State) (a : α), s.ReadKept (f s a)) (l : List α)
    (s : State) : s.ReadKept (l.foldl f s) :=
  List.foldlRecOn (motive := s.ReadKept) l f (State.ReadKept.refl s) fun _ before a _ => before.trans (h _ a)

theorem State.portUse_readKept (s : State) (c : CtxId) (scalar write stays : Bool) (ls : List Nat) :
    s.ReadKept (s.portUse c scalar write stays ls) := by
  refine State.ReadKept.of_kept ?_ (State.portUse_kept s c scalar write stays ls)
  have lines := State.MemKept.foldl
    (fun (t : State) l => State.portLine_memKept t (coreOf c) (s.did c) scalar write stays l) ls s
  unfold State.portUse
  dsimp only
  split
  · exact lines
  · exact lines.trans ⟨rfl, rfl, rfl, id⟩

theorem State.noteRead_readKept (s : State) (c : CtxId) (acquire : Bool) (addr n : Nat) :
    s.ReadKept (s.noteRead c acquire addr n) := by
  refine State.ReadKept.of_kept ?_ (State.noteRead_kept s c acquire addr n)
  rw [State.noteRead_only]
  exact ⟨rfl, rfl, rfl, id⟩

theorem State.readLines_readKept {die : Nat} {ls : List Nat} {s u : State} (h : s.readLines die ls = some u) :
    s.ReadKept u := by
  rw [State.readLines_only h]
  exact State.ReadKept.of_kept ⟨rfl, rfl, rfl, id⟩ (State.CtxKept.of_ctxs rfl)

theorem State.fillTlbs_readKept (s : State) (ag : Agent) (es : List (Word × Access)) : s.ReadKept (s.fillTlbs ag es) := by
  rw [State.fillTlbs_only]
  exact State.ReadKept.of_kept ⟨rfl, rfl, rfl, id⟩ (State.CtxKept.of_ctxs rfl)

theorem State.cacheWalk_readKept (s : State) (ag : Agent) (va : Word) : s.ReadKept (s.cacheWalk ag va) := by
  rw [State.cacheWalk_only]
  exact State.ReadKept.of_kept ⟨rfl, rfl, rfl, id⟩ (State.CtxKept.of_ctxs rfl)

/-- What a walk that goes ahead is: nothing, or the reads of its tables, the translations that it caches, and its place at the
port (R336, R342, R416). -/
theorem State.walkReady_cases {s u : State} {ag : Agent} {vas : List Word} {n : Nat} (h : s.walkReady ag vas n = some u) :
    u = s ∨ ∃ t ls, s.readLines ag.die ls = some t ∧
      u = (vas.foldl (fun v va => v.cacheWalk ag va) t).portUse ag.ctx false false true ls := by
  unfold State.walkReady at h
  dsimp only at h
  split at h
  · exact .inl (Option.some.inj h).symm
  split at h
  · cases h
  split at h
  · next t lines => exact .inr ⟨t, _, lines, (Option.some.inj h).symm⟩
  · cases h

theorem State.walkReady_readKept {s u : State} {ag : Agent} {vas : List Word} {n : Nat} (h : s.walkReady ag vas n = some u) :
    s.ReadKept u := by
  obtain rfl | ⟨t, ls, lines, rfl⟩ := State.walkReady_cases h
  · exact State.ReadKept.refl _
  · exact ((State.readLines_readKept lines).trans (State.ReadKept.foldl (fun t va => State.cacheWalk_readKept t ag va) vas t)).trans
      (State.portUse_readKept _ _ _ _ _ _)

theorem State.portRequest_readKept (s : State) (did : BitVec 7) (pl : Place) (pa : Nat) (write : Bool) (n : Nat)
    (bytes : List Byte) : s.ReadKept (s.portRequest did pl pa write n bytes) := by
  rw [State.portRequest_only]
  exact State.ReadKept.of_kept ⟨rfl, rfl, rfl, id⟩ (State.CtxKept.of_ctxs rfl)

theorem State.lend_readKept (s : State) (c : CtxId) (ok : Bool) (cells : List Host.Cell) : s.ReadKept (s.lend c ok cells) := by
  unfold State.lend
  split
  · split
    · exact State.ReadKept.of_modCtx fun _ => rfl
    · exact State.ReadKept.refl s
  · exact State.ReadKept.refl s

/-- The reads of host memory that go out keep memory, and of contexts all but what a shadow is lent (R340, R510). -/
theorem State.hostReads_readKept (s : State) (c : CtxId) (as : List Access) (n : Nat) : s.ReadKept (s.hostReads c as n).1 := by
  have requests (hs : List Access) := State.ReadKept.foldl
    (fun (t : State) (a : Access) => State.portRequest_readKept t (s.did c) a.place a.pa false n []) hs s
  have counted (t : State) (m : Nat) : t.ReadKept { t with free := m } :=
    State.ReadKept.of_kept ⟨rfl, rfl, rfl, id⟩ (State.CtxKept.of_ctxs rfl)
  unfold State.hostReads
  dsimp only
  split
  · exact State.ReadKept.refl s
  · refine State.ReadKept.trans ?_ (counted _ _)
    split
    · exact State.ReadKept.refl s
    · exact (requests _).trans (State.lend_readKept _ _ _ _)

theorem State.takeReads_readKept (s : State) (c : CtxId) (as : List Access) (n : Nat) : s.ReadKept (s.takeReads c as n) :=
  (State.ReadKept.foldl (fun (t : State) (a : Access) => State.noteRead_readKept t c false a.pa n) _ s).trans
    (State.portUse_readKept _ _ _ _ _ _)

theorem State.farTaken_readKept (s : State) (c : CtxId) (as : List Access) : s.ReadKept (s.farTaken c as) := by
  unfold State.farTaken
  split
  · exact State.ReadKept.of_modCtx fun _ => rfl
  · exact State.ReadKept.refl s

/-! The agent of a context after the walks of an access. -/

/-- The partitions of the cores are kept (R431). -/
def State.PartKept (s t : State) : Prop := ∀ n, (t.core n).part = (s.core n).part

theorem State.PartKept.of_cores {s t : State} (h : t.cores = s.cores) : s.PartKept t := fun n => by
  simp only [State.core, h]

theorem State.PartKept.trans {s t u : State} (h : s.PartKept t) (h' : t.PartKept u) : s.PartKept u :=
  fun n => (h' n).trans (h n)

theorem State.PartKept.of_modCore {s : State} {n : CoreId} {g : Core → Core} (h : ∀ k : Core, (g k).part = k.part) :
    s.PartKept (s.modCore n g) := by
  intro q
  by_cases same : q = n
  · subst same; rw [State.modCore_core_same]; exact h _
  · rw [State.modCore_core_other s n q g same]

theorem Core.ask_part (k : Core) (l : Nat) : (k.ask l).part = k.part := by
  unfold Core.ask Core.serve
  split <;> rfl

theorem Core.touchL2_part (k : Core) (did : BitVec 7) (dirty : Bool) (line : Nat) : (k.touchL2 did dirty line).part = k.part := by
  unfold Core.touchL2
  split
  · rfl
  · dsimp only
    split <;> rfl

theorem State.lineGone_cores (s : State) (die line : Nat) : (s.lineGone die line).cores = s.cores := by
  simp only [State.lineGone, State.leaveSeal]
  repeat' split
  all_goals rfl

theorem State.evicted_cores (s : State) (core : CoreId) (v : CLine) : (s.evicted core v).cores = s.cores := by
  have sent : (if v.dirty then s.after 0 (.writeCombineFlush (core / 64) v.line) else s).cores = s.cores := by
    split <;> rfl
  unfold State.evicted
  dsimp only
  generalize (if v.dirty then s.after 0 (.writeCombineFlush (core / 64) v.line) else s) = u at sent ⊢
  split
  · exact sent
  · exact (State.lineGone_cores _ _ _).trans sent

theorem State.joinSeal_cores (s : State) (die line : Nat) : (s.joinSeal die line).cores = s.cores := by
  unfold State.joinSeal
  repeat' split
  all_goals rfl

theorem State.portLine_partKept (s : State) (core : CoreId) (did : BitVec 7) (scalar write stays : Bool) (line : Nat) :
    s.PartKept (s.portLine core did scalar write stays line) := by
  have joined : s.PartKept ((if (s.core core).keeps line = true then s
      else { s with sramErrs := s.sramErrs.filter fun e => e ≠ (line, core) } : State).joinSeal (core / 64) line) := by
    refine State.PartKept.of_cores ((State.joinSeal_cores _ _ _).trans ?_)
    split <;> rfl
  unfold State.portLine
  split
  · exact State.PartKept.of_cores rfl
  split
  · exact State.PartKept.of_modCore fun _ => rfl
  split
  · exact State.PartKept.of_modCore fun k => k.ask_part _
  have used := joined.trans (State.PartKept.of_modCore (n := core) (g := fun k : Core =>
      let k1 := (k.touchL2 did write line).ask (localOf did)
      if scalar then k1.touchL1 line else if write then k1.dropL1 line else k1) fun k => by
    have taken : ((k.touchL2 did write line).ask (localOf did)).part = k.part :=
      (Core.ask_part _ _).trans (Core.touchL2_part k did write line)
    dsimp only
    repeat' split
    all_goals exact taken)
  dsimp only
  split
  · exact used.trans (State.PartKept.of_cores (State.evicted_cores _ _ _))
  · exact used

theorem State.portUse_partKept (s : State) (c : CtxId) (scalar write stays : Bool) (ls : List Nat) :
    s.PartKept (s.portUse c scalar write stays ls) := by
  have lines : s.PartKept (ls.foldl (fun t l => t.portLine (coreOf c) (s.did c) scalar write stays l) s) :=
    List.foldlRecOn (motive := s.PartKept) ls _ (State.PartKept.of_cores rfl)
      fun t before l _ => before.trans (State.portLine_partKept t _ _ _ _ _ l)
  unfold State.portUse
  dsimp only
  split
  · exact lines
  · exact lines.trans (State.PartKept.of_cores rfl)

/-- After a walk the agent of the context is the one that it was. -/
theorem State.walkReady_agent {s u : State} {ag : Agent} {vas : List Word} {n : Nat} (h : s.walkReady ag vas n = some u)
    (c : CtxId) : u.agent c = s.agent c := by
  have kept := (State.walkReady_readKept h).ctx c
  have field {α : Type} (get : Ctx → α) : get (u.ctx c) = get ((s.ctx c).accessedAs (u.ctx c)) := congrArg get kept
  have mode : (u.ctx c).mode = (s.ctx c).mode := field Ctx.mode
  have did : (u.ctx c).did = (s.ctx c).did := field Ctx.did
  have sptb : (u.ctx c).sptb = (s.ctx c).sptb := field Ctx.sptb
  have hptb : (u.ctx c).hptb = (s.ctx c).hptb := field Ctx.hptb
  have part : s.PartKept u := by
    obtain rfl | ⟨t, ls, lines, rfl⟩ := State.walkReady_cases h
    · exact State.PartKept.of_cores rfl
    · have leased : s.PartKept t := State.PartKept.of_cores (by rw [State.readLines_only lines])
      have cached : t.PartKept (vas.foldl (fun v va => v.cacheWalk ag va) t) :=
        List.foldlRecOn (motive := t.PartKept) vas _ (State.PartKept.of_cores rfl)
          fun v before va _ => before.trans (State.PartKept.of_cores (by rw [State.cacheWalk_only]))
      exact (leased.trans cached).trans (State.portUse_partKept _ _ _ _ _ _)
  simp only [State.agent, State.did, mode, did, sptb, hptb, part (coreOf c)]

/-! Accesses that go ahead have closed no interval (R509, R510). -/

/-- A close that lets its instruction go on has changed nothing. -/
theorem State.closeInterval_eq (s : State) (c : CtxId) (ops : List Word) :
    (s.closeInterval c ops).2 = true → (s.closeInterval c ops).1 = s := by
  unfold State.closeInterval
  dsimp only
  split
  · exact fun _ => rfl
  split
  · exact fun _ => rfl
  split
  · exact nofun
  · exact nofun

theorem State.closeInterval_unmatched {s : State} {c : CtxId} {r : Redundant} (ops : List Word) (member : (s.ctx c).red = some r)
    (unmatched : r.matched = false) : (s.closeInterval c ops).2 = false := by
  unfold State.closeInterval
  simp only [member, unmatched, Bool.false_eq_true, if_false]
  split <;> rfl

/-- Accesses that are ready to be made, and take no room in a commit buffer, have changed nothing. -/
theorem State.accsReady_eq (s : State) (c : CtxId) (loads stores : List Access) (ops : List Word) :
    (s.accsReady c loads stores ops 0).2 = true → (s.accsReady c loads stores ops 0).1 = s := by
  unfold State.accsReady
  dsimp only
  generalize close : (if (hostAccs (loads ++ stores)).isEmpty = true then (s, true)
    else s.closeInterval c (hostOperands (loads ++ stores) ++ ops)) = p
  have closed : p.2 = true → p.1 = s := by
    rw [← close]
    split
    · exact fun _ => rfl
    · exact State.closeInterval_eq s c _
  obtain ⟨t, ok⟩ := p
  cases ok with
  | false => exact nofun
  | true =>
    obtain rfl : t = s := closed rfl
    dsimp only
    split
    · exact nofun
    · exact fun _ => rfl

/-! Stores on their way (R190, R338, R509). -/

theorem Ctx.buffered_accessed (k : Ctx) (e : Nat × List Byte × Bool × BitVec 7) : k.Accessed (k.buffered e) := rfl

theorem Ctx.foldl_buffered_red {α : Type} (l : List α) (f : α → Nat × List Byte × Bool × BitVec 7) (k : Ctx) :
    (l.foldl (fun k p => k.buffered (f p)) k).red.isSome = k.red.isSome := by
  induction l generalizing k with
  | nil => rfl
  | cons p l ih => rw [List.foldl_cons, ih, Ctx.buffered, Option.isSome_map]

theorem State.outboundWrite_ctxs (s : State) (c : CtxId) (a : Access) (bytes : List Byte) :
    (s.outboundWrite c a bytes).ctxs = s.ctxs := by
  unfold State.outboundWrite
  dsimp only
  rw [State.portRequest_only]
  repeat' split
  all_goals rfl

theorem State.hostWrites_ctx (s : State) (c : CtxId) (ws : List (Access × List Byte)) (q : CtxId) :
    (s.hostWrites c ws).ctx q = s.ctx q := by
  have ctxs : (s.hostWrites c ws).ctxs = s.ctxs :=
    List.foldlRecOn (motive := fun t : State => t.ctxs = s.ctxs) _ _ rfl
      fun t before p _ => (State.outboundWrite_ctxs t c p.1 p.2).trans before
  simp only [State.ctx, ctxs]

/-- Stores to the memory of the package send nothing to a host port. -/
theorem State.hostWrites_of_hbm {c : CtxId} {ws : List (Access × List Byte)} (s : State) (near : ∀ p ∈ ws, p.1.place = .hbm) :
    s.hostWrites c ws = s := by
  have none : (ws.filter fun p => decide (p.1.place ≠ .hbm)) = [] := by simpa using fun a b h => near (a, b) h
  rw [State.hostWrites, none]
  rfl

/-- Of a context that puts writes on their way all but what an access changes is kept. -/
theorem State.vecWrites_accessed (s : State) (c : CtxId) (kind : WriteKind) (ws : List (Access × List Byte)) (q : CtxId) :
    (s.ctx q).Accessed ((s.vecWrites c kind ws).1.ctx q) := by
  rw [← State.hostWrites_ctx s c ws q]
  unfold State.vecWrites
  dsimp only
  split
  · refine (State.ReadKept.of_modCtx fun k => ?_).ctx q
    exact List.foldlRecOn (motive := k.Accessed) _ _ (Ctx.Accessed.refl k) fun t before p _ =>
      before.trans (t.buffered_accessed _)
  · exact (State.CtxKept.foldl (fun t p => State.addPend_kept t c _ _ _ _ _ _ _) _ _).accessed q

theorem State.addPend_mem (s : State) (c : CtxId) (kind : WriteKind) (leave addr : Nat) (bytes : List Byte)
    (shared : Bool) (did : BitVec 7) : (s.addPend c kind false leave addr bytes shared did).mem = s.mem :=
  (State.portUse_readKept s c false true true _).mem.mem

/-- Memory changes by writes to the package when they are performed (R190, R350). -/
theorem State.vecWrites_mem {c : CtxId} {ws : List (Access × List Byte)} (s : State) (kind : WriteKind)
    (near : ∀ p ∈ ws, p.1.place = .hbm) : (s.vecWrites c kind ws).1.mem = s.mem := by
  unfold State.vecWrites
  dsimp only
  rw [State.hostWrites_of_hbm s near]
  split
  · rfl
  · exact List.foldlRecOn (motive := fun t : State => t.mem = s.mem) _ _ rfl
      fun t before p _ => (State.addPend_mem t c kind 0 _ _ _ _).trans before

/-- A redundant member stays one when its stores enter the commit buffer. -/
theorem State.vecWrites_red {s : State} {c : CtxId} (kind : WriteKind) (ws : List (Access × List Byte))
    (member : (s.ctx c).red.isSome = true) : ((s.vecWrites c kind ws).1.ctx c).red.isSome = true := by
  unfold State.vecWrites
  dsimp only
  rw [State.hostWrites_ctx, if_pos member, State.modCtx_ctx_same, Ctx.foldl_buffered_red, State.hostWrites_ctx, member]

/-- Stores that are ready to be made have changed nothing: where the commit buffer has no place for all of them, the interval
closes and they wait (R510). -/
theorem State.storesReady_eq (s : State) (c : CtxId) (ws : List (Access × List Byte)) :
    (s.storesReady c ws).2 = true → (s.storesReady c ws).1 = s := by
  unfold State.storesReady
  dsimp only
  cases member : (s.ctx c).red with
  | none => exact fun _ => rfl
  | some r =>
    dsimp only
    have same := s.accsReady_eq c [] (ws.map fun w => w.1) (if (hostAccs (ws.map fun w => w.1)).isEmpty then [] else
      ws.map fun w => wordOf (w.2.take 8))
    generalize s.accsReady c [] (ws.map fun w => w.1) (if (hostAccs (ws.map fun w => w.1)).isEmpty then [] else
      ws.map fun w => wordOf (w.2.take 8)) 0 = p at same ⊢
    obtain ⟨t, ok⟩ := p
    cases ok with
    | false => exact nofun
    | true =>
      obtain rfl : t = s := same rfl
      simp only [member]
      generalize fitting (4096 - r.stores.length) (commitBytes - t.commitUsed (coreOf c)) (ws.drop r.stored) = n
      split
      · exact nofun
      split
      · exact fun _ => rfl
      split
      · exact nofun
      · obtain ⟨r', stays⟩ := Option.isSome_iff_exists.mp
          (State.vecWrites_red (s := t) (c := c) .vector ((ws.drop r.stored).take n) (by rw [member]; rfl))
        rw [State.closeInterval_unmatched (r := { r' with stored := r'.stored + n, matched := false }) []
          (by rw [State.modCtx_ctx_same, stays]; rfl) rfl]
        exact nofun

end Sys2Proof.Machine

/-! Vector loads and stores (R181-R190). -/

namespace Sys2Proof.Machine

/-! Positions and their checks (R185, R186). -/

/-- The active positions follow from the mask registers and SHAPE alone. -/
theorem Ctx.activePos_congr {k k' : Ctx} (q : VCfg) (mk : Nat) (same : k'.m = k.m) : k'.activePos q mk = k.activePos q mk := by
  simp only [Ctx.activePos, Ctx.maskBit, Ctx.mrow, same]

/-- What the check phase of a vector access looks at: the check of each active position. -/
def State.scanOf (s : State) (ag : Agent) (q : VCfg) (kind : AccKind) (addr : Nat → Nat → Word) (ps : List (Nat × Nat)) : Scan :=
  { res := ps.map fun p => (p, s.checkVec ag kind (addr p.1 p.2) q.e) }

section
variable (s : State) (c : CtxId) (q : VCfg) (kind : AccKind) (mk : Nat) (addr : Nat → Nat → Word)

theorem State.scanOf_traps : (s.scanOf (s.agent c) q kind addr ((s.ctx c).activePos q mk)).traps =
    s.positionChecks c q mk (s.checkAt c q kind addr) := by
  simp only [Scan.traps, State.scanOf, List.map_map, State.positionChecks]
  rfl

theorem State.scanOf_oks (n : Nat) : (s.scanOf (s.agent c) q kind addr ((s.ctx c).activePos q mk)).oks n =
    s.positionAccs c q kind mk addr n := by
  simp only [Scan.oks, State.scanOf, List.filterMap_map, State.positionAccs]
  refine List.filterMap_congr fun p _ => ?_
  simp only [Function.comp]
  cases s.checkVec (s.agent c) kind (addr p.1 p.2) q.e with
  | ok a => rfl
  | error t => exact (ite_self none).symm

end

/-- A vector access that reaches memory goes on with its cut and its accesses (R184-R186). -/
theorem State.genericScan_of_reaches {s u : State} {c : CtxId} {o : VOp} {kind : AccKind} {mk n : Nat}
    {addr : Nat → Nat → Word} {oks : List ((Nat × Nat) × Access)} (go : State → Nat → List ((Nat × Nat) × Access) → State)
    (h : s.vecReaches c o kind mk addr n oks u) :
    (s.vecStart c).genericScan c ((s.ctx c).vcfg (physLanes (coreOf c))) kind mk addr go = go u n oks := by
  obtain ⟨-, s0, walk, waits, unfaulted, cut, accs, rfl⟩ := h
  have start : ((s.vecStart c).ctx c).m = (s.ctx c).m := by rw [State.vecStart_ctx]; rfl
  obtain ⟨-, -, -, kept, -⟩ := ((State.walkReady_readKept walk).ctx c).keeps
  have agent : s.agent c = s0.agent c := by rw [State.walkReady_agent walk, State.vecStart_agent]
  have places := Ctx.activePos_congr ((s.ctx c).vcfg (physLanes (coreOf c))) mk start
  have places' := Ctx.activePos_congr ((s.ctx c).vcfg (physLanes (coreOf c))) mk (kept.trans start)
  have traps := s0.scanOf_traps c ((s.ctx c).vcfg (physLanes (coreOf c))) kind mk addr
  have passing := s0.scanOf_oks c ((s.ctx c).vcfg (physLanes (coreOf c))) kind mk addr n
  rw [← places'] at walk
  rw [← agent] at traps passing
  unfold State.scanOf at traps passing
  unfold State.genericScan
  rw [State.vecStart_agent, places, ← places']
  simp only [walk, traps, waits]
  rw [trapAt0_eq_none unfaulted, ite_self, show (firstBad _).getD _ = n from cut.symm, passing, ← accs]
  rfl

section
variable {s u v w z : State} {c : CtxId} {o : VOp} {kind : AccKind} {mk n due e : Nat} {addr : Nat → Nat → Word}
  {oks : List ((Nat × Nat) × Access)} {as : List Access}

theorem State.vecReaches.readKept (h : s.vecReaches c o kind mk addr n oks u) : (s.vecStart c).ReadKept u := by
  obtain ⟨-, s0, walk, -, -, -, -, rfl⟩ := h
  exact (State.walkReady_readKept walk).trans (State.fillTlbs_readKept _ _ _)

/-- The reads of a vector access, up to what its host reads have brought. -/
theorem State.ReadKept.reads (h : s.ReadKept u) (reads : u.readAccs c as = some v)
    (ready : v.accsReady c as [] [] 0 = (w, true)) (far : w.hostReads c as e = (z, due)) : s.ReadKept z := by
  obtain rfl : w = v := by simpa only [ready, true_implies] using v.accsReady_eq c as [] []
  have brought := w.hostReads_readKept c as e
  rw [far] at brought
  exact (h.trans (State.readLines_readKept reads)).trans brought

end

/-! Loads (R183-R189). -/

theorem Ctx.loadSweep_vectorsOnly (k : Ctx) (q : VCfg) (d mk n : Nat) (val : Nat → Nat → Nat) (bad : Nat → Nat → Bool) :
    k.VectorsOnly (k.loadSweep q d mk n val bad) :=
  Ctx.swept_vectorsOnly _ _ _ _ _ _ _ _

theorem Ctx.truncated_vl (k : Ctx) (n : Nat) : (k.truncated n).vl = min n k.vl := by
  unfold Ctx.truncated
  split
  · next short => exact (Nat.min_eq_left short.le).symm
  · next whole => exact (Nat.min_eq_right (Nat.not_lt.mp whole)).symm

theorem Ctx.truncated_tr (k : Ctx) (n : Nat) : (k.truncated n).tr = (k.tr || decide (n < k.vl)) := by
  unfold Ctx.truncated
  split <;> simp [*]

@[simp] theorem Ctx.truncated_x (k : Ctx) (n : Nat) : (k.truncated n).x = k.x := by unfold Ctx.truncated; split <;> rfl
@[simp] theorem Ctx.truncated_f (k : Ctx) (n : Nat) : (k.truncated n).f = k.f := by unfold Ctx.truncated; split <;> rfl
@[simp] theorem Ctx.truncated_v (k : Ctx) (n : Nat) : (k.truncated n).v = k.v := by unfold Ctx.truncated; split <;> rfl
@[simp] theorem Ctx.truncated_m (k : Ctx) (n : Nat) : (k.truncated n).m = k.m := by unfold Ctx.truncated; split <;> rfl

theorem Ctx.RegistersOnly.shape {k k' : Ctx} (h : k.RegistersOnly k') : k'.vl = k.vl ∧ k'.tr = k.tr :=
  have field {α : Type} (get : Ctx → α) : get k' = get (k.registersOf k') := congrArg get h
  ⟨field Ctx.vl, field Ctx.tr⟩

theorem State.badLine_of_clean {s : State} (die line : Nat) (lines : s.errLines = []) (caches : s.sramErrs = []) :
    s.badLine die line = false := by
  simp [State.badLine, State.sramBad, lines, caches, Tbl.find?]

/-- Where no line is in error, none is among those that a load reads (R187). -/
theorem State.badAccs_of_clean {s : State} (die : Nat) (as : List ((Nat × Nat) × Access)) (lines : s.errLines = [])
    (caches : s.sramErrs = []) : s.badAccs die as = [] := by
  simp [State.badAccs, State.badLine_of_clean die _ lines caches]

section
variable {s u v w z : State} {c : CtxId} {word : BitVec 32} {d mk n due : Nat} {ix : List Nat} {k : Ctx} {q : VCfg}
  {addr : VCfg → Nat → Nat → Word} {oks : List ((Nat × Nat) × Access)}
  (ctx : s.ctx c = k) (cfg : k.vcfg (physLanes (coreOf c)) = q)
include ctx cfg

/-- A vector load that reaches memory, none of whose lines is in error (R183-R189). -/
theorem State.vecLoad_of_reaches
    (h : s.vecReaches c { word := word, srcs := ix.map fun n => (n, q.g), dst := some (d, q.g),
                          form := (d, q.g) :: ix.map fun n => (n, q.g), old := false, formBad := false,
                          overlap := (ix.map fun n => (n, q.g)).any fun p => groupsMeet d q.g p.1 p.2 }
      .load mk (addr q) n oks u)
    (reads : u.readAccs c (oks.map fun e => e.2) = some v)
    (ready : v.accsReady c (oks.map fun e => e.2) [] [] 0 = (w, true))
    (far : w.hostReads c (oks.map fun e => e.2) q.e = (z, due)) (lines : z.errLines = []) (caches : z.sramErrs = []) :
    let as := oks.map fun e => e.2
    let r := ((z.takeReads c as q.e).farTaken c as).modCtx c fun k =>
      ((k.loadSweep q d mk n (loadedAt (oks.map fun e => (e.1, z.viewAcc c e.2 q.e))) fun _ _ => false).truncated n).latched
        (upFrom d q.g)
    s.vecLoad c word d mk ix addr =
      r.checkPhase c { (r.ctx c).entry q.rows 0 none [] (as.map fun a => (a.pa, q.e)) due with
        load := (z.ctx c).laterLoad d mk n oks true } := by
  subst ctx cfg
  intro as r
  have passes := h.1
  unfold State.vecLoad
  rw [State.memFront_of_passes _ passes, State.genericScan_of_reaches _ h]
  simp only [reads, ready, far, State.badAccs_of_clean _ oks lines caches]
  rfl

/-- A vector store that reaches memory (R183-R190). -/
theorem State.vecStore_of_reaches
    (h : s.vecReaches c { word := word, srcs := (d, q.g) :: ix.map fun n => (n, q.g), dst := none,
                          form := (d, q.g) :: ix.map fun n => (n, q.g), old := false, formBad := false, overlap := false }
      .store mk (addr q) n oks u)
    (ready : u.storesReady c (oks.map fun e => (e.2, bytesOf (k.element q d q.g q.w e.1.1 e.1.2) q.e)) = (v, true)) :
    let ws := oks.map fun e => (e.2, bytesOf (k.element q d q.g q.w e.1.1 e.1.2) q.e)
    let sent := v.vecWrites c .vector (v.leftStores c ws)
    let r := sent.1.modCtx c fun k => k.truncated n
    s.vecStore c word d mk ix addr = r.checkPhase c ((r.ctx c).entry q.rows 0 none sent.2 [] 0) := by
  subst ctx cfg
  intro ws sent r
  have passes := h.1
  obtain ⟨-, -, vectors, -⟩ := (h.readKept.ctx c).keeps
  rw [State.vecStart_ctx] at vectors
  have element (q : VCfg) (g r w j : Nat) : elem ((u.ctx c).groupRow q.rb d g r) w j = (s.ctx c).element q d g w r j := by
    rw [Ctx.element, Ctx.groupRow_congr (k := s.ctx c) fun i _ => by rw [Ctx.vreg, vectors]; rfl]
  unfold State.vecStore
  rw [State.memFront_of_passes _ passes, State.genericScan_of_reaches _ h]
  simp only [element, ready]
  rfl

end

/-- The access of a position that passes is that of its check. -/
theorem State.checkVec_of_mem_positionAccs {s : State} {c : CtxId} {q : VCfg} {kind : AccKind} {mk n : Nat}
    {addr : Nat → Nat → Word} {p : Nat × Nat} {a : Access} (h : (p, a) ∈ s.positionAccs c q kind mk addr n) :
    s.checkVec (s.agent c) kind (addr p.1 p.2) q.e = .ok a := by
  obtain ⟨p', -, passes⟩ := List.mem_filterMap.mp h
  split at passes
  · split at passes
    · next check =>
      obtain ⟨rfl, rfl⟩ := Prod.mk.inj (Option.some.inj passes)
      exact check
    · cases passes
  · cases passes

/-- A position that a load has read takes what was read there. -/
theorem loadedAt_of_mem {oks : List ((Nat × Nat) × Access)} {p : Nat × Nat} {a : Access} (val : Access → Nat) (h : (p, a) ∈ oks)
    (once : ∀ b, (p, b) ∈ oks → b = a) : loadedAt (oks.map fun e => (e.1, val e.2)) p.1 p.2 = val a := by
  simp only [loadedAt, List.find?_map]
  cases found : oks.find? ((fun e : (Nat × Nat) × Nat => decide (e.1 = (p.1, p.2))) ∘ fun e => (e.1, val e.2)) with
  | none =>
    have missed := List.find?_eq_none.mp found (p, a) h
    simp at missed
  | some e =>
    obtain ⟨p', b⟩ := e
    obtain rfl : p' = p := by simpa using List.find?_some found
    exact congrArg val (once b (List.mem_of_find?_eq_some found))

theorem State.issued_errLines (s : State) (w : BitVec 32) : (s.issued w).errLines = s.errLines := by
  rw [State.issued_only]

theorem State.issued_sramErrs (s : State) (w : BitVec 32) : (s.issued w).sramErrs = s.sramErrs := by
  rw [State.issued_only]

theorem State.vecStart_memKept (s : State) (c : CtxId) : s.MemKept (s.vecStart c) := ⟨rfl, rfl, rfl, id⟩

/-- An instruction that issues through `vecLoad` is a vector load (R181-R189). -/
theorem vecLoads_of_issue {i : Instr} {d : BitVec 5} {m : BitVec 3} {ix : List Nat} {addr : AddrRule}
    (h : ∀ s, exec i s = .next (s.issue (encode i) fun c k s => s.vecLoad c (encode i) d.toNat m.toNat ix (addr k))) :
    VecLoads i d m ix addr := by
  intro s u v w z n due oks issues c q as val reaches reads ready far lines caches
  have own : (s.issued (encode i)).ctx c = s.here := State.issued_ctx s _ c
  have read := reaches.readKept.reads reads ready far
  have memory := ((s.issued (encode i)).vecStart_memKept c).trans read.mem
  refine ⟨⟨?runs, ?_⟩, fun p a mem => ?value⟩
  case runs =>
    rw [h, State.issue_of_issues _ _ _ issues]
    exact congrArg Host.Outcome.next (State.vecLoad_of_reaches (addr := addr s.here) own rfl reaches reads ready far
      (memory.errLines.trans ((s.issued_errLines _).trans lines)) (memory.sramErrs ((s.issued_sramErrs _).trans caches)))
  case value =>
    obtain ⟨-, s0, -, -, -, -, rfl, -⟩ := reaches
    refine loadedAt_of_mem (fun a => z.viewAcc c a q.e) mem fun b other => ?_
    exact Except.ok.inj ((State.checkVec_of_mem_positionAccs other).symm.trans (State.checkVec_of_mem_positionAccs mem))
  have taken := (z.takeReads_readKept c as q.e).trans (State.farTaken_readKept _ c as)
  have done := read.trans taken
  obtain ⟨x, f, -, m', vl, tr, -⟩ := (done.ctx c).keeps
  rw [State.vecStart_ctx, own] at x f m' vl tr
  generalize (z.takeReads c as q.e).farTaken c as = t at *
  obtain ⟨only, masks⟩ := (t.ctx c).loadSweep_vectorsOnly q d.toNat m.toNat n val fun _ _ => false
  obtain ⟨x', f'⟩ := only.scalars
  obtain ⟨vl', tr'⟩ := only.shape
  rw [State.modCtx_ctx_same]
  refine ⟨(memory.trans taken.mem).mem.trans (State.issued_mem s _), (memory.trans taken.mem).pend.trans (State.issued_pend s _),
    ?_, ?_, ?_, ?_, ?_⟩
  · rw [Ctx.latched_x, Ctx.truncated_x, x', x]; rfl
  · rw [Ctx.latched_f, Ctx.truncated_f, f', f]; rfl
  · rw [Ctx.latched_m, Ctx.truncated_m, masks, m']; rfl
  · rw [Ctx.latched_vl, Ctx.truncated_vl, vl', vl]; rfl
  · rw [Ctx.latched_tr, Ctx.truncated_tr, tr', tr, vl', vl]; rfl

/-! Stores (R183-R190). -/

theorem State.mem_of_mem_leftStores {s : State} {c : CtxId} {ws : List (Access × List Byte)} {p : Access × List Byte}
    (h : p ∈ s.leftStores c ws) : p ∈ ws := by
  unfold State.leftStores at h
  split at h
  · exact List.mem_of_mem_drop h
  · exact h

/-- An instruction that issues through `vecStore` is a vector store (R181-R190). -/
theorem vecStores_of_issue {i : Instr} {d : BitVec 5} {m : BitVec 3} {ix : List Nat} {addr : AddrRule}
    (h : ∀ s, exec i s = .next (s.issue (encode i) fun c k s => s.vecStore c (encode i) d.toNat m.toNat ix (addr k))) :
    VecStores i d m ix addr := by
  intro s u v n oks issues c q reaches ws ready sent r
  have own : (s.issued (encode i)).ctx c = s.here := State.issued_ctx s _ c
  obtain rfl : v = u := by simpa only [ready, true_implies] using u.storesReady_eq c ws
  have passed := reaches.readKept
  have memory := ((s.issued (encode i)).vecStart_memKept c).trans passed.mem
  have done := (passed.ctx c).trans (v.vecWrites_accessed c .vector (v.leftStores c ws) c)
  obtain ⟨x, f, vectors, masks, vl, -⟩ := done.keeps
  rw [State.vecStart_ctx, own] at x f vectors masks vl
  refine ⟨?runs, fun near => ?_, ?_⟩
  case runs =>
    rw [h, State.issue_of_issues _ _ _ issues]
    exact congrArg Host.Outcome.next (State.vecStore_of_reaches (addr := addr s.here) own rfl reaches ready)
  · have left : ∀ p ∈ v.leftStores c ws, p.1.place = .hbm := by
      intro p mem
      obtain ⟨e, here, rfl⟩ := List.mem_map.mp (State.mem_of_mem_leftStores mem)
      exact near e here
    exact (v.vecWrites_mem .vector left).trans (memory.mem.trans (State.issued_mem s _))
  · rw [State.modCtx_ctx_same, Ctx.truncated_x, Ctx.truncated_f, Ctx.truncated_v, Ctx.truncated_m, Ctx.truncated_vl]
    exact ⟨x, f, vectors, masks, congrArg (min n) vl⟩

/-- R181-R190: the loads and stores of the four address modes. -/
theorem vectorMemoryClaims : VectorMemoryClaims := fun _ _ _ _ =>
  ⟨vecLoads_of_issue fun _ => rfl, vecLoads_of_issue fun _ => rfl, vecLoads_of_issue fun _ => rfl,
    vecLoads_of_issue fun _ => rfl, vecStores_of_issue fun _ => rfl, vecStores_of_issue fun _ => rfl,
    vecStores_of_issue fun _ => rfl, vecStores_of_issue fun _ => rfl⟩

end Sys2Proof.Machine

/-! Save images (R197-R200). -/

namespace Sys2Proof.Machine

section
variable {s u : State} {c : CtxId} {kind : AccKind} {va : Word} {as : List Access}

/-- An image instruction that reaches memory goes on with the accesses of the image's lines (R200). -/
theorem State.imageFront_of_reaches (word : BitVec 32) (go : State → VCfg → List Access → State)
    (h : s.imageReaches c kind va as u) :
    s.imageFront c word kind va go = go u ((s.ctx c).vcfg (physLanes (coreOf c))) as := by
  obtain ⟨fits, room, aligned, s0, walk, check, rfl⟩ := h
  simp only [State.imageFront, if_neg (Nat.not_lt.mpr fits), if_neg (Nat.not_le.mpr room), if_neg (not_not.mpr aligned), walk,
    check]

/-- What it has read of tables keeps what every read keeps; then its context begins to act. -/
theorem State.imageReaches.began (h : s.imageReaches c kind va as u) : ∃ t, s.ReadKept t ∧ u = t.vecStart c := by
  obtain ⟨-, -, -, s0, walk, -, rfl⟩ := h
  exact ⟨_, (State.walkReady_readKept walk).trans (State.fillTlbs_readKept _ _ _), rfl⟩

/-- It has left memory. -/
theorem State.imageReaches.memKept (h : s.imageReaches c kind va as u) : s.MemKept u := by
  obtain ⟨t, kept, rfl⟩ := h.began
  exact kept.mem.trans (t.vecStart_memKept c)

/-- It has left what an image is made of, and the scalar registers. -/
theorem State.imageReaches.keeps (h : s.imageReaches c kind va as u) :
    (u.ctx c).x = (s.ctx c).x ∧ (u.ctx c).f = (s.ctx c).f ∧ (u.ctx c).v = (s.ctx c).v ∧ (u.ctx c).m = (s.ctx c).m ∧
      (u.ctx c).lanes = (s.ctx c).lanes ∧ (u.ctx c).dirty = (s.ctx c).dirty := by
  obtain ⟨t, kept, rfl⟩ := h.began
  obtain ⟨x, f, v, m, -, -, lanes, dirty⟩ := (kept.ctx c).keeps
  rw [State.vecStart_ctx]
  exact ⟨x, f, v, m, lanes, dirty⟩

end

/-! VSAVE (R197, R198, R200). -/

theorem Ctx.zeroLane_vectorsOnly (k : Ctx) (n r l : Nat) : k.VectorsOnly (k.zeroLane n r l) := ⟨rfl, rfl⟩

theorem Ctx.afterSave_vectorsOnly (k : Ctx) (q : VCfg) : k.VectorsOnly (k.afterSave q) := by
  have cleaned (t : Ctx) : t.VectorsOnly { t with dirty := 0 } := ⟨rfl, rfl⟩
  refine Ctx.VectorsOnly.trans (List.foldlRecOn (motive := k.VectorsOnly) (lanePlaces 0 k.lanes) _
    ⟨Ctx.RegistersOnly.refl k, rfl⟩ fun t before p _ => ?_) (cleaned _)
  split
  · exact before.trans (t.zeroLane_vectorsOnly _ _ _)
  · exact before

section
variable {k k' : Ctx} (q : VCfg) (v : k'.v = k.v) (m : k'.m = k.m) (lanes : k'.lanes = k.lanes) (dirty : k'.dirty = k.dirty)
include v lanes dirty

/-- What VSAVE zeroes follows from the vector registers, their dirty quarters and the lanes. -/
theorem Ctx.afterSave_v_congr : (k'.afterSave q).v = (k.afterSave q).v := by
  have marks (n l : Nat) : k'.laneDirty q n l = k.laneDirty q n l := by simp only [Ctx.laneDirty, dirty]
  simp only [Ctx.afterSave, lanes, marks]
  refine List.foldl_rel (r := fun a b : Ctx => a.v = b.v) v fun p _ a b same => ?_
  split
  · simp only [Ctx.zeroLane, Ctx.setLane, Ctx.setVreg, Ctx.vreg, same]
  · exact same

include m

/-- The blocks of an image follow from the registers, their dirty quarters and the lanes (R197, R198). -/
theorem Ctx.saveBlocks_congr : k'.saveBlocks q = k.saveBlocks q := by
  simp only [Ctx.saveBlocks, Ctx.laneBytes, Ctx.maskBytes, Ctx.vreg, Ctx.mrow, Ctx.laneDirty,
    Ctx.afterSave_v_congr q v lanes dirty, m, lanes, dirty]

end

section
variable {s u v w z : State} {c : CtxId} {word : BitVec 32} {va : Word} {as : List Access} {k : Ctx} {q : VCfg} {due : Nat}
  (ctx : s.ctx c = k) (cfg : k.vcfg (physLanes (coreOf c)) = q)
include ctx

section
include cfg

/-- VSAVE that reaches its image (R197, R198). -/
theorem State.vecSave_of_reaches (h : s.imageReaches c .store va as u) :
    let bs := (k.saveBlocks q).map fun b => (imageAcc as b.1, b.2)
    u.storesReady c bs = (v, true) →
    let sent := v.vecWrites c .vector (v.leftStores c bs)
    let r := sent.1.modCtx c fun k => k.afterSave q
    s.vecSave c word va = r.checkPhase c ((r.ctx c).entry 8 0 none sent.2 [] 0) := by
  subst ctx cfg
  intro bs ready sent r
  obtain ⟨-, -, vectors, masks, lanes, dirty⟩ := h.keeps
  unfold State.vecSave
  rw [State.imageFront_of_reaches word _ h]
  dsimp only [bs] at ready
  simp only [Ctx.saveBlocks_congr _ vectors masks lanes dirty, ready]
  rfl

end

/-- VREST that reaches its image, none of whose lines is in error (R199, R200). -/
theorem State.vecRestore_of_reaches (h : s.imageReaches c .load va as u) (lines : s.errLines = []) (caches : s.sramErrs = []) :
    let used := imageAcc as 0 :: (imageReads k.lanes).map (imageAcc as)
    u.viewAcc c (imageAcc as 0) 8 = k.lanes → u.readAccs c used = some v → v.accsReady c used [] [] 0 = (w, true) →
    w.hostReads c used 64 = (z, due) →
    let r := ((z.takeReads c used 64).farTaken c used).modCtx c fun k =>
      { k.loadImage (fun off => bytesOf (z.viewAcc c (imageAcc as off) 64) 64) 0 k.lanes with
        dirty := 0, wrote := allGroups k.lanes }
    s.vecRestore c word va = r.checkPhase c ((r.ctx c).entry 8 0 none [] (used.map fun a => (a.pa, 64)) due) := by
  subst ctx
  intro used header reads ready far r
  obtain ⟨-, -, -, -, lanes, -⟩ := h.keeps
  have clean (l : Nat) : s.badLine (dieOf c) l = false := State.badLine_of_clean _ l lines caches
  unfold State.vecRestore
  rw [State.imageFront_of_reaches word _ h]
  dsimp only [used] at reads ready far
  simp only [lanes, clean, Bool.and_false, Bool.false_eq_true, if_false, List.filter_false, if_neg (not_not.mpr header), reads,
    ready, far]
  rfl

end

/-- R197-R200: VSAVE and VREST. -/
theorem saveImageClaims : SaveImageClaims := by
  intro a s u v w z as due c q va
  constructor
  · intro issues reaches bs ready sent r
    have own : (s.issued (encode (.vsave a))).ctx c = s.here := State.issued_ctx s _ c
    obtain rfl : v = u := by simpa only [ready, true_implies] using u.storesReady_eq c bs
    obtain ⟨x, -, -, m, -, -⟩ := reaches.keeps
    obtain ⟨x', -, -, m', -⟩ := (v.vecWrites_accessed c .vector (v.leftStores c bs) c).keeps
    rw [own] at x m
    obtain ⟨only, masks⟩ := (sent.1.ctx c).afterSave_vectorsOnly q
    refine ⟨?_, ?_⟩
    · refine congrArg Host.Outcome.next ((State.issue_of_issues _ _ _ issues).trans ?_)
      exact State.vecSave_of_reaches own rfl reaches ready
    · rw [State.modCtx_ctx_same]
      exact ⟨rfl, only.scalars.1.trans (x'.trans x), masks.trans (m'.trans m)⟩
  · intro issues reaches acc used header lines caches reads ready far r
    have own : (s.issued (encode (.vrest a))).ctx c = s.here := State.issued_ctx s _ c
    have read := (State.ReadKept.refl u).reads reads ready far
    have done := (read.trans (z.takeReads_readKept c used 64)).trans (State.farTaken_readKept _ c used)
    obtain ⟨x, f, -⟩ := reaches.keeps
    obtain ⟨x', f', -⟩ := (done.ctx c).keeps
    rw [own] at x f
    obtain ⟨x'', f''⟩ := (Ctx.loadImage_registersOnly (((z.takeReads c used 64).farTaken c used).ctx c)
      (fun off => bytesOf (z.viewAcc c (acc off) 64) 64) 0 (((z.takeReads c used 64).farTaken c used).ctx c).lanes).scalars
    refine ⟨?_, (reaches.memKept.trans done.mem).mem.trans (State.issued_mem s _), ?_, ?_⟩
    · refine congrArg Host.Outcome.next ((State.issue_of_issues _ _ _ issues).trans ?_)
      exact State.vecRestore_of_reaches own reaches ((s.issued_errLines _).trans lines) ((s.issued_sramErrs _).trans caches)
        header reads ready far
    · rw [State.modCtx_ctx_same]
      exact x''.trans (x'.trans x)
    · rw [State.modCtx_ctx_same]
      exact f''.trans (f'.trans f)

end Sys2Proof.Machine

/-! The statements of spec/07_vector_memory_mask_permute.md. -/

namespace Sys2Proof.Proofs

open Sys2Proof.Machine

/-- Settles O12: each permutation by what it makes of a position, each scalar result by what it reads of a mask or a vector. -/
theorem vectorPermutes : Obligations.VectorPermutes := ⟨vectorPermuteClaims, vectorScalarClaims⟩

/-- Settles O14: each access by its address rule, once its check phase has found the cut and the accesses below it. -/
theorem vectorMemory : Obligations.VectorMemory := vectorMemoryClaims

/-- Settles O15: lane instructions by the pane and the cut that their checks give, remote ones by the positions that fail. -/
theorem scratchpadMemory : Obligations.ScratchpadMemory := ⟨laneMemoryClaims, remoteMemoryClaims⟩

/-- Settles O16: the blocks that VSAVE sends by what decides them, and the image that VREST loads by the lines that it reads. -/
theorem saveImage : Obligations.SaveImage := saveImageClaims

end Sys2Proof.Proofs

/-! Posting to the matrix queue (R233). -/

namespace Sys2Proof.Machine

/-- An instruction completes where its precondition excludes the context states that forbid its word (R87). -/
theorem actsTo_of_issueIf {i : Instr} {pre : State → Prop} {post : State → State → Prop} {bad : State → Bool}
    {go : CtxId → Ctx → State → State} (h : ∀ s, exec i s = .next (s.issueIf (encode i) (bad s) go))
    (allowed : ∀ s : State, pre (s.issued (encode i)) → bad s = false)
    (done : ∀ s : State, pre s → post s (go s.cur s.here s)) : ActsTo i pre post := fun s issues hp =>
  ⟨_, acts_of_issueIf (act := fun s => go s.cur s.here s) h allowed (fun _ _ => rfl) s issues hp, done _ hp⟩

/-! An entry joins the queue. -/

section
variable (s : State) (c : CtxId) (o : MOp) (front : Word → Word)

/-- The state in which an operation has joined the queue, and its instruction has not yet retired. -/
def State.posted : State :=
  let k := s.core (coreOf c)
  let e : MEntry := { owner := c, pc := (s.ctx c).pc, started := false, rows := s.mrows (coreOf c), op := o }
  let t := (s.modCtx c Ctx.loadsFixed).setCore (coreOf c) { k with mq := k.mq ++ [e], mstat := front k.mstat }
  if k.mq.isEmpty then t.soon (.matrixEntryStart (coreOf c)) else t

@[simp] theorem State.posted_ctx : (s.posted c o front).ctx c = (s.ctx c).loadsFixed := by
  unfold State.posted
  dsimp only
  split <;> exact State.modCtx_ctx_same _ _ _

@[simp] theorem State.posted_core : (s.posted c o front).core (coreOf c) =
    { s.core (coreOf c) with
      mq := (s.core (coreOf c)).mq ++
        [{ owner := c, pc := (s.ctx c).pc, started := false, rows := s.mrows (coreOf c), op := o }],
      mstat := front (s.core (coreOf c)).mstat } := by
  unfold State.posted
  dsimp only
  split <;> exact State.setCore_core_same _ _ _

@[simp] theorem State.posted_mem : (s.posted c o front).mem = s.mem := by
  unfold State.posted
  dsimp only
  split <;> rfl

@[simp] theorem State.posted_pend : (s.posted c o front).pend = s.pend := by
  unfold State.posted
  dsimp only
  split <;> rfl

variable {s c}

/-- With a place in the queue the entry joins it. -/
theorem State.postThen_of_room (fin : State → State) (room : (s.core (coreOf c)).mq.length < 32) :
    s.postThen c o front fin = fin (s.posted c o front) := by
  refine (if_neg (Nat.not_le.mpr room)).trans ?_
  rw [State.modCtx_ctx_same]
  rfl

/-- Without one the instruction waits. -/
theorem State.postThen_of_full (fin : State → State) (full : 32 ≤ (s.core (coreOf c)).mq.length) :
    s.postThen c o front fin = s.stall c := if_pos full

end

/-- A register write does not see the queued loads. -/
theorem Ctx.loadsFixed_wx_x (k : Ctx) (d : BitVec 5) (v : Word) : (k.loadsFixed.wx d v).x = (k.wx d v).x := by
  unfold Ctx.wx
  split <;> rfl

/-! Instructions that begin with the owner check (R26). -/

section
variable {i : Instr} {bad : State → Bool} {body : CtxId → Ctx → State → State} {pre : State → Prop}
  (h : ∀ s, exec i s = .next (s.issueIf (encode i) (bad s) fun c k t => t.owned c (body c k t)))
  (allowed : ∀ s : State, s.arrayMine → pre (s.issued (encode i)) → bad s = false)
include h allowed

/-- The owner's instruction acts as what follows the owner check. -/
theorem ownerActs_of_issueIf {act : State → State} (acts : ∀ s : State, pre s → body s.cur s.here s = act s) :
    Acts i (fun s => s.arrayMine ∧ pre s) act :=
  acts_of_issueIf h (fun s ⟨mine, hp⟩ => allowed s (by simpa using mine) hp) fun s ⟨mine, hp⟩ =>
    (State.owned_of_mine mine _).trans (acts s hp)

/-- It posts where what follows the owner check does. -/
theorem posts_of_issueIf {op : State → MOp} {front : State → Word} {fill : CtxId → Ctx → State → Word → Word}
    (posts : ∀ s : State, pre s → body s.cur s.here s = s.post s.cur (op s) (fill s.cur s.here s))
    (filled : ∀ s : State, fill s.cur s.here s s.coreHere.mstat = front s) : Posts i pre op front := by
  refine actsTo_of_issueIf h (fun s ⟨mine, hp, _⟩ => allowed s (by simpa using mine) hp) fun s ⟨mine, hp, room⟩ => ?_
  have core : s.core (coreOf s.cur) = s.coreHere := rfl
  rw [State.owned_of_mine mine, posts s hp, State.post, State.postThen_of_room _ _ _ room]
  rw [State.retire_core, State.posted_core, State.retire_ctx_same, State.posted_ctx, core, filled]
  exact ⟨rfl, rfl, rfl, rfl, rfl, rfl, rfl, State.posted_mem _ _ _ _, State.posted_pend _ _ _ _⟩

end

/-- An instruction that has no operand to check posts. -/
theorem posts_of_post {i : Instr} {entry : CtxId → Ctx → State → MOp} {fill : CtxId → Ctx → State → Word → Word}
    {op : State → MOp} {front : State → Word}
    (h : ∀ s, exec i s = .next (s.issue (encode i) fun c k t => t.owned c (t.post c (entry c k t) (fill c k t))))
    (entered : ∀ s : State, entry s.cur s.here s = op s)
    (filled : ∀ s : State, fill s.cur s.here s s.coreHere.mstat = front s) : Posts i (fun _ => True) op front :=
  posts_of_issueIf h (fun _ _ _ => rfl) (fun s _ => by rw [entered]) filled

/-! Instructions whose operands are checked before they post (R228, R232). -/

/-- Post an entry where the operands fit and no register of a string is bound to a stream. -/
def State.postChecked (s : State) (c : CtxId) (w : BitVec 32) (misfit overlap : Bool) (o : MOp) (front : Word → Word) : State :=
  if misfit then s.misform c w else if overlap then s.overlapTrap c w else s.post c o front

section
variable {i : Instr} {misfit overlap : CtxId → Ctx → State → Bool} {entry : CtxId → Ctx → State → MOp}
  {fill : CtxId → Ctx → State → Word → Word} {fits free : State → Prop} {op : State → MOp} {front : State → Word}
  (fits_iff : ∀ s : State, misfit s.cur s.here s = false ↔ fits s)
  (unbound : ∀ s : State, free s → overlap s.cur s.here s = false)
  (entered : ∀ s : State, entry s.cur s.here s = op s)
  (filled : ∀ s : State, fill s.cur s.here s s.coreHere.mstat = front s)
include fits_iff unbound entered filled

/-- Such an instruction posts or takes form_mismatch, as its operands fit. -/
theorem posts_and_misforms_of_issueIf {bad : State → Bool} {usable : State → Prop}
    (h : ∀ s, exec i s = .next (s.issueIf (encode i) (bad s) fun c k t =>
      t.owned c (t.postChecked c (encode i) (misfit c k t) (overlap c k t) (entry c k t) (fill c k t))))
    (allowed : ∀ s : State, s.arrayMine → usable (s.issued (encode i)) → bad s = false) :
    Posts i (fun s => usable s ∧ fits s ∧ free s) op front ∧ Misforms i (fun s => usable s ∧ ¬ fits s) := by
  constructor
  · refine posts_of_issueIf h (fun s mine hp => allowed s mine hp.1) (fun s ⟨_, fit, clear⟩ => ?_) filled
    rw [State.postChecked, (fits_iff s).mpr fit, unbound s clear, entered]
    rfl
  · refine ownerActs_of_issueIf h (fun s mine hp => allowed s mine hp.1) fun s ⟨_, misfit⟩ => if_pos ?_
    simpa using mt (fits_iff s).mp misfit

/-- The same for an instruction that no context state forbids. -/
theorem posts_and_misforms_of_issue (h : ∀ s, exec i s = .next (s.issue (encode i) fun c k t =>
      t.owned c (t.postChecked c (encode i) (misfit c k t) (overlap c k t) (entry c k t) (fill c k t)))) :
    Posts i (fun s => fits s ∧ free s) op front ∧ Misforms i (fun s => ¬ fits s) := by
  simpa only [true_and] using posts_and_misforms_of_issueIf (usable := fun _ => True) fits_iff unbound entered filled h
    fun _ _ _ => rfl

end

/-! R222-R225, R229, R231: the instructions that set the array up. -/

theorem matrixClaims : MatrixClaims := by
  intro p q n f r
  refine ⟨?shape, ?shapeWaits, ?zero, ?swap, ?load, ?convert, ?write⟩
  case shape =>
    refine actsTo_of_issue (fun _ => rfl) fun s ⟨mine, room⟩ => ?_
    rw [State.mshape, State.owned_of_mine mine, State.postThen_of_room _ _ _ room]
    rw [State.retireX_core, State.posted_core, State.retireX_ctx_same, State.posted_ctx]
    refine ⟨rfl, rfl, rfl, fun plain => ?_, ?_, ?_, State.posted_mem _ _ _ _, State.posted_pend _ _ _ _⟩
    · have copy : (s.ctx s.cur).loadsFixed.copyReg = none := plain
      rw [Ctx.wxCopy_of_none _ _ _ copy]
      exact Ctx.loadsFixed_wx_x _ _ _
    · rw [Ctx.retired_pc, Ctx.wxCopy_pc]
      rfl
    · rw [Ctx.retired_v, Ctx.wxCopy_v]
      rfl
  case shapeWaits =>
    exact ownerActs_of_issueIf (fun _ => rfl) (fun _ _ _ => rfl) fun s full => State.postThen_of_full _ _ _ full
  case zero | swap | convert => exact posts_of_post (fun _ => rfl) (fun _ => rfl) fun _ => rfl
  case load =>
    refine posts_and_misforms_of_issue (fun s => ?_) (fun _ free => free) (fun _ => rfl) (fun _ => rfl) fun _ => rfl
    simp only [Bool.or_eq_false_iff, Bool.not_eq_false', decide_eq_false_iff_not, Nat.not_lt, and_assoc]
    exact Iff.rfl
  case write =>
    refine posts_and_misforms_of_issue (fun s => ?_) (fun _ free => free) (fun _ => rfl) (fun _ => rfl) fun _ => rfl
    simp only [Bool.or_eq_false_iff, decide_eq_false_iff_not, Nat.not_lt]
    exact Iff.rfl

end Sys2Proof.Machine

/-! R219, R226-R228: outer products. -/

namespace Sys2Proof.Machine

/-! The rounding mode of MSTAT (R6, R47). -/

@[simp] theorem State.issued_mrmUsable (s : State) (w : BitVec 32) (fmt : Nat) :
    (s.issued w).mrmUsable fmt ↔ s.mrmUsable fmt := by
  simp [State.mrmUsable, State.mstatField]

/-- The owner's outer product is forbidden where it would use a reserved rounding mode. -/
theorem State.mrmReserved_iff {s : State} (mine : s.arrayMine) (fmt : Nat) : s.mrmReserved fmt = true ↔ ¬ s.mrmUsable fmt := by
  have slot : (s.core (coreOf s.cur)).mown.toNat = slotOf s.cur := mine
  simp only [State.mrmReserved, slot, decide_true, Bool.and_true, Bool.and_eq_true, decide_eq_true_eq, State.mrmUsable, not_or,
    Nat.not_le]
  exact and_comm

theorem State.mrmReserved_of_usable {s : State} (mine : s.arrayMine) {fmt : Nat} (usable : s.mrmUsable fmt) :
    s.mrmReserved fmt = false := by
  simpa using mt (State.mrmReserved_iff mine fmt).mp (not_not.mpr usable)

/-- A word that passes its checks fails the first of them where the context state forbids it. -/
theorem State.issueCheck_forbidden_of_issues {s : State} {w : BitVec 32} (issues : s.issues w = true) :
    s.issueCheck w true = some (mkTrap 0 (w.zeroExtend 64)) := by
  simp only [State.issues, State.issuesIf, Bool.and_eq_true, Option.isNone_iff_eq_none] at issues
  obtain ⟨⟨⟨check, -⟩, -⟩, -⟩ := issues
  cases hp : s.here.pfx with
  | none => exact State.issueCheck_forbidden w fun p some => absurd (hp.symm.trans some) (by simp)
  | some p =>
    simp only [State.here] at hp
    simp only [State.issueCheck, hp] at check ⊢
    split at check
    next => exact absurd check (Option.some_ne_none _)
    next unrestored => rw [if_neg unrestored, if_pos (Bool.or_true _)]

/-- An outer product under a reserved rounding mode is illegal. -/
theorem mrmTraps_of_issueIf {i : Instr} {f : BitVec 4} {go : CtxId → Ctx → State → State}
    (h : ∀ s, exec i s = .next (s.issueIf (encode i) (s.mrmReserved f.toNat) go)) : MrmTraps i f := by
  intro s issues mine reserved
  rw [h, (State.mrmReserved_iff mine _).mpr reserved, State.issueIf_trap _ _ _ _ _ (State.issueCheck_forbidden_of_issues issues)]
  rfl

/-! Operands from strings (R218, R228). -/

/-- No scale register, or one that is bound to no stream. -/
theorem Ctx.scalesBound_iff (k : Ctx) (vs : Option Nat) :
    (vs.any fun v => k.groupBound v 1) = false ↔ ∀ v, vs = some v → k.groupBound v 1 = false := by
  cases vs <;> simp

theorem outerFromString_of_issueIf {i : Instr} {p q : BitVec 5} {n : BitVec 2} {f : BitVec 4} {vs : Option Nat}
    (h : ∀ s, exec i s = .next (s.issueIf (encode i) (s.mrmReserved f.toNat) fun c k t =>
      t.mop c (encode i) p.toNat (k.rx q) n.toNat f.toNat vs)) : OuterFromString i p q n f vs := by
  rw [OuterFromString, ← and_assoc]
  refine ⟨posts_and_misforms_of_issueIf (fun s => ?_) (fun s ⟨string, scales⟩ => ?_) (fun _ => rfl) (fun _ => rfl) h
    (fun s mine usable => State.mrmReserved_of_usable mine (by simpa using usable)), mrmTraps_of_issueIf h⟩
  · simp only [Bool.or_eq_false_iff, decide_eq_false_iff_not, Nat.not_lt]
    exact Iff.rfl
  · exact Bool.or_eq_false_iff.mpr ⟨string, (Ctx.scalesBound_iff _ _).mpr scales⟩

/-! Operands from streams (R219, R228). -/

@[simp] theorem State.issued_outerMisfit (s : State) (w : BitVec 32) (c : CtxId) (n fmt : Nat) (xq : Word) (scaled : Bool) :
    (s.issued w).outerMisfit c n fmt xq scaled = s.outerMisfit c n fmt xq scaled := by
  simp [State.outerMisfit]

@[simp] theorem State.issued_paneLinear (s : State) (w : BitVec 32) (core : CoreId) (n : Nat) :
    (s.issued w).paneLinear core n = s.paneLinear core n := by
  simp [State.paneLinear]

@[simp] theorem State.issued_mrows (s : State) (w : BitVec 32) (core : CoreId) : (s.issued w).mrows core = s.mrows core := by
  simp [State.mrows]

theorem outerFromStream_of_issueIf {i : Instr} {p q : BitVec 5} {n : BitVec 2} {f : BitVec 4} {vs : Option Nat}
    (h : ∀ s, exec i s = .next (s.issueIf (encode i) (s.mrmReserved f.toNat) fun c k t =>
      t.mops c (encode i) p.toNat (k.rx q) n.toNat f.toNat vs)) : OuterFromStream i p q n f vs := by
  refine ⟨?consumes, ?misforms, mrmTraps_of_issueIf h⟩
  case consumes =>
    intro s s0 u v w j due ch issues
    dsimp only
    intro mine usable bound gust input fits staged unbound room walks plan reads ready host
    have own : (s.issued (encode i)).ctx s.cur = s.here := State.issued_ctx _ _ _
    have config : s.here.vcfg (physLanes (coreOf s.cur)) = s.cfgHere := rfl
    have queue : ¬ Config.matrixQueueDepth ≤ (s.core (coreOf s.cur)).mq.length := Nat.not_le.mpr room
    have rows : s.mrows (coreOf s.cur) = s.rowsHere := rfl
    have scales := (Ctx.scalesBound_iff s.here vs).mpr unbound
    rw [h, State.mrmReserved_of_usable mine usable, State.issueIf_of_issues _ _ _ _ issues]
    refine congrArg Host.Outcome.next ?_
    rw [State.mops, ← s.issued_cur (encode i), State.owned_of_mine ((s.issued_arrayMine _).mpr mine), s.issued_cur]
    simp only [own, config, bound, input, State.issued_outerMisfit, fits, State.issued_paneLinear, Nat.not_lt.mpr staged,
      scales, gust, State.issued_core, queue, walks, plan, reads, ready, host, Bool.or_self, decide_false, Bool.false_eq_true, if_false,
      Option.isSome_none, Bool.not_true, State.issued_mrows, rows]
    rfl
  case misforms =>
    refine ownerActs_of_issueIf h (fun s mine hp => State.mrmReserved_of_usable mine (by simpa using hp.1)) fun s ⟨_, bad⟩ => ?_
    rcases bad with free | ⟨j, bound, bad⟩
    · have free' : (s.ctx s.cur).boundTo p.toNat = none := free
      simp only [free']
      rfl
    · have bound' : (s.ctx s.cur).boundTo p.toNat = some j := bound
      simp only [bound']
      refine if_pos ?_
      simp only [Bool.or_eq_true, decide_eq_true_eq, or_assoc]
      exact bad

/-- R226-R228: MOP, MOPX, MOPS and MOPSX. -/
theorem outerClaims : OuterClaims := fun _ _ _ _ _ =>
  ⟨outerFromString_of_issueIf fun _ => rfl, outerFromString_of_issueIf fun _ => rfl, outerFromStream_of_issueIf fun _ => rfl,
    outerFromStream_of_issueIf fun _ => rfl⟩

end Sys2Proof.Machine

/-! R230, R232, R235: MRD. -/

namespace Sys2Proof.Machine

/-! The vector queue (R179). -/

/-- A context with one more entry in its vector queue. -/
def Ctx.enqueued (k : Ctx) (e : VEntry) : Ctx := { k with vq := k.vq ++ [e] }

@[simp] theorem State.enqueue_ctx (s : State) (c : CtxId) (e : VEntry) : (s.enqueue c e).ctx c = (s.ctx c).enqueued e := by
  unfold State.enqueue
  dsimp only
  split <;> simp only [State.soon_ctx, State.modCtx_ctx_same, Ctx.enqueued]

@[simp] theorem State.enqueue_core (s : State) (c : CtxId) (e : VEntry) (n : CoreId) :
    (s.enqueue c e).core n = s.core n := by
  unfold State.enqueue
  dsimp only
  split <;> rfl

@[simp] theorem State.enqueue_mem (s : State) (c : CtxId) (e : VEntry) : (s.enqueue c e).mem = s.mem := by
  unfold State.enqueue
  dsimp only
  split <;> rfl

@[simp] theorem State.enqueue_pend (s : State) (c : CtxId) (e : VEntry) : (s.enqueue c e).pend = s.pend := by
  unfold State.enqueue
  dsimp only
  split <;> rfl

/-! Writing a string (R218, R230). -/

section
variable (q : VCfg) (p nbits str : Nat)

/-- Row t of a string is written. -/
def Ctx.putStringRow (k : Ctx) (t : Nat) : Ctx :=
  let lo := 8 * q.rb * t
  let n := min (8 * q.rb) (nbits - lo)
  k.putGroupRow q (p + t / 8) 1 (t % 8) (putBits (k.groupRow q.rb (p + t / 8) 1 (t % 8)) 0 n (str >>> lo)) (2 ^ n - 1)

theorem Ctx.putString_eq (k : Ctx) : k.putString q p nbits str =
    (upFrom 0 ((nbits + 8 * q.rb - 1) / (8 * q.rb))).foldl (Ctx.putStringRow q p nbits str) k := rfl

theorem Ctx.putString_vectorsOnly (k : Ctx) : k.VectorsOnly (k.putString q p nbits str) := by
  rw [Ctx.putString_eq]
  exact List.foldlRecOn (motive := k.VectorsOnly) _ _ ⟨rfl, rfl⟩ fun t before _ _ =>
    before.trans (Ctx.putGroupRow_vectorsOnly _ _ _ _ _ _ _)

/-- Of a context only its registers change, and what is known of them. -/
theorem Ctx.putString_field {α : Type} (k : Ctx) (get : Ctx → α) (free : ∀ t, get (k.registersOf t) = get k) :
    get (k.putString q p nbits str) = get k :=
  (congrArg get (k.putString_vectorsOnly q p nbits str).1).trans (free _)

/-- What becomes of the vector registers follows from them alone. -/
theorem Ctx.putGroupRow_v_congr {k k' : Ctx} (same : k'.v = k.v) (n g r val touched : Nat) :
    (k'.putGroupRow q n g r val touched).v = (k.putGroupRow q n g r val touched).v := by
  rw [Ctx.putGroupRow_eq, Ctx.putGroupRow_eq]
  refine List.foldl_rel (r := fun a b : Ctx => a.v = b.v) same fun i _ a b same => ?_
  unfold Ctx.putRegister
  dsimp only
  split
  · exact same
  · simp only [Ctx.setVreg, same]

theorem Ctx.putString_v_congr {k k' : Ctx} (same : k'.v = k.v) :
    (k'.putString q p nbits str).v = (k.putString q p nbits str).v := by
  rw [Ctx.putString_eq, Ctx.putString_eq]
  refine List.foldl_rel (r := fun a b : Ctx => a.v = b.v) same fun t _ a b same => ?_
  have row (n r : Nat) : a.groupRow q.rb n 1 r = b.groupRow q.rb n 1 r :=
    Ctx.groupRow_congr fun i _ => by simp only [Ctx.vreg, same]
  rw [Ctx.putStringRow, Ctx.putStringRow, row]
  exact Ctx.putGroupRow_v_congr q same _ _ _ _ _

/-! The first element group of a string is among those that its instruction has written (R153, R154). -/

theorem Ctx.putRegister_wrote_mono (k : Ctx) (n r val touched i : Nat) {b : Nat} (set : k.wrote.getLsbD b = true) :
    (k.putRegister q n r val touched i).wrote.getLsbD b = true := by
  unfold Ctx.putRegister
  dsimp only
  split
  · exact set
  · simp [Ctx.setVreg, set]

theorem Ctx.putGroupRow_wrote_mono (k : Ctx) (n g r val touched : Nat) {b : Nat} (set : k.wrote.getLsbD b = true) :
    (k.putGroupRow q n g r val touched).wrote.getLsbD b = true := by
  rw [Ctx.putGroupRow_eq]
  exact List.foldlRecOn (motive := fun t : Ctx => t.wrote.getLsbD b = true) _ _ set fun t before i _ =>
    t.putRegister_wrote_mono q n r val touched i before

theorem ne_zero_of_testBit {x i : Nat} (set : x.testBit i = true) : x ≠ 0 := by
  rintro rfl
  simp at set

/-- A row whose lowest bit is touched has touched its lowest element group. -/
theorem touchedGroups_testBit_zero {rb touched : Nat} (room : 64 ≤ rb) (low : touched.testBit 0 = true) :
    (touchedGroups rb touched).testBit 0 = true := by
  obtain ⟨m, hm⟩ : ∃ m, rb / 64 = m + 1 := ⟨rb / 64 - 1, by omega⟩
  have first : touched / 2 ^ (512 * 0) % 2 ^ 512 ≠ 0 := ne_zero_of_testBit (i := 0) <| by
    rw [Nat.mul_zero, Nat.pow_zero, Nat.div_one, Nat.testBit_mod_two_pow, low]
    rfl
  rw [touchedGroups, hm, upFrom, List.foldl_cons, if_neg first]
  refine List.foldlRecOn (motive := fun b : Nat => b.testBit 0 = true) _ _ rfl fun b odd z hz => ?_
  obtain ⟨z, rfl⟩ : ∃ y, z = y + 1 := ⟨z - 1, by have := (mem_upFrom.mp hz).1; omega⟩
  split
  · exact odd
  · simp only [Nat.testBit_zero, decide_eq_true_eq, Nat.pow_succ] at odd ⊢
    omega

theorem Ctx.putRegister_wrote (k : Ctx) {n r i : Nat} (val touched : Nat) (hn : n + i < 32) (hr : r < 8) (room : 64 ≤ q.rb)
    (low : (elem touched (8 * q.rb) i).testBit 0 = true) :
    (k.putRegister q n r val touched i).wrote.getLsbD (groupPos (n + i) r) = true := by
  have place : groupPos (n + i) r < 4096 := by unfold groupPos; omega
  unfold Ctx.putRegister
  dsimp only
  rw [if_neg (ne_zero_of_testBit low), BitVec.getLsbD_or, BitVec.getLsbD_ofNat, Nat.testBit_mul_two_pow, Nat.sub_self,
    touchedGroups_testBit_zero room low]
  simp [place]

/-- The first row of a string writes the first element group of its first register. -/
theorem Ctx.putStringRow_wrote (k : Ctx) (hp : p < 32) (room : 64 ≤ q.rb) (pos : 0 < nbits) :
    (k.putStringRow q p nbits str 0).wrote.getLsbD (groupPos p 0) = true := by
  refine k.putRegister_wrote q (n := p) (r := 0) (i := 0) _ _ hp (by decide) room ?_
  rw [testBit_elem, Nat.mul_zero, Nat.testBit_two_pow_sub_one]
  simp only [Bool.and_eq_true, decide_eq_true_eq]
  omega

theorem Ctx.putString_wrote (k : Ctx) (hp : p < 32) (room : 64 ≤ q.rb) (pos : 0 < nbits) :
    (k.putString q p nbits str).wrote.getLsbD (groupPos p 0) = true := by
  have rows : 0 < (nbits + 8 * q.rb - 1) / (8 * q.rb) := Nat.div_pos (by omega) (by omega)
  obtain ⟨m, hm⟩ : ∃ m, (nbits + 8 * q.rb - 1) / (8 * q.rb) = m + 1 := ⟨_, (Nat.succ_pred_eq_of_pos rows).symm⟩
  rw [Ctx.putString_eq, hm, upFrom, List.foldl_cons]
  exact List.foldlRecOn (motive := fun t : Ctx => t.wrote.getLsbD (groupPos p 0) = true) _ _
    (k.putStringRow_wrote q p nbits str hp room pos) fun t before _ _ => t.putGroupRow_wrote_mono q _ _ _ _ _ before

end

/-! A context that reads a tile. -/

@[simp] theorem Ctx.latched_v (k : Ctx) (dst : List Nat) : (k.latched dst).v = k.v := k.latched_field dst Ctx.v fun _ => rfl
@[simp] theorem Ctx.latched_vq (k : Ctx) (dst : List Nat) : (k.latched dst).vq = k.vq :=
  k.latched_field dst Ctx.vq fun _ => rfl
@[simp] theorem Ctx.latched_pc (k : Ctx) (dst : List Nat) : (k.latched dst).pc = k.pc :=
  k.latched_field dst Ctx.pc fun _ => rfl
@[simp] theorem Ctx.latched_fstat (k : Ctx) (dst : List Nat) : (k.latched dst).fstat = k.fstat :=
  k.latched_field dst Ctx.fstat fun _ => rfl

/-- An instruction that has written its first destination register leaves it in the latch (R154). -/
theorem Ctx.latched_of_wrote {k : Ctx} {n : Nat} (rest : List Nat) (wrote : k.wrote.getLsbD (groupPos n 0) = true) :
    (k.latched (n :: rest)).latch = BitVec.ofNat 5 n := by
  have marked : sliceNat k.wrote (groupPos n 0) 128 ≠ 0 := ne_zero_of_testBit (i := 0) <| by
    rw [sliceNat, Nat.testBit_mod_two_pow, Nat.testBit_shiftRight]
    exact wrote
  simp [Ctx.latched, Ctx.wroteAny, marked]

theorem stringRegs_zero (rb : Nat) : stringRegs rb 0 = 0 := by
  rw [stringRegs, Nat.zero_add]
  rcases Nat.eq_zero_or_pos (64 * rb) with zero | pos
  · rw [zero, Nat.div_zero]
  · exact Nat.div_eq_of_lt (by omega)

section
variable (k : Ctx) (q : VCfg) (p nbits str : Nat)

/-- The context that has written a string from v[p], as its vector instruction leaves it (R154, R230). -/
def Ctx.stringRead : Ctx := (k.vecStarted.putString q p nbits str).latched (upFrom p (stringRegs q.rb nbits))

theorem Ctx.stringRead_v : (k.stringRead q p nbits str).v = (k.putString q p nbits str).v := by
  rw [Ctx.stringRead, Ctx.latched_v]
  exact Ctx.putString_v_congr q p nbits str rfl

theorem Ctx.stringRead_keeps : (k.stringRead q p nbits str).x = k.x ∧ (k.stringRead q p nbits str).pc = k.pc ∧
    (k.stringRead q p nbits str).fstat = k.fstat ∧ (k.stringRead q p nbits str).vq.length = k.vq.length := by
  have field {α : Type} (get : Ctx → α) (free : ∀ t, get (k.vecStarted.registersOf t) = get k.vecStarted) :=
    k.vecStarted.putString_field q p nbits str get free
  refine ⟨(Ctx.latched_x _ _).trans (field Ctx.x fun _ => rfl), (Ctx.latched_pc _ _).trans (field Ctx.pc fun _ => rfl),
    (Ctx.latched_fstat _ _).trans (field Ctx.fstat fun _ => rfl), ?_⟩
  rw [Ctx.stringRead, Ctx.latched_vq, field Ctx.vq fun _ => rfl]
  exact List.length_map _

/-- The latch becomes vp unless the string is empty (R230). -/
theorem Ctx.stringRead_latch (hp : p < 32) (lanes : q.rb = 64 * k.lanes) (room : nbits ≤ stringRoom q.rb p) :
    (k.stringRead q p nbits str).latch = if nbits = 0 then k.latch else BitVec.ofNat 5 p := by
  split
  next empty =>
    rw [Ctx.stringRead, empty, stringRegs_zero]
    exact k.vecStarted.putString_field q p 0 str Ctx.latch fun _ => rfl
  next full =>
    have wide : 64 ≤ q.rb := by
      by_contra narrow
      have zero : q.rb = 0 := by omega
      rw [zero, stringRoom, Nat.mul_zero, Nat.zero_mul] at room
      omega
    have regs : 0 < stringRegs q.rb nbits := Nat.div_pos (by omega) (by omega)
    obtain ⟨m, hm⟩ : ∃ m, stringRegs q.rb nbits = m + 1 := ⟨_, (Nat.succ_pred_eq_of_pos regs).symm⟩
    rw [Ctx.stringRead, hm, upFrom]
    exact Ctx.latched_of_wrote _ (k.vecStarted.putString_wrote q p nbits str hp wide (Nat.pos_of_ne_zero full))

end

/-! MRD. -/

/-- The tag of tile n. -/
def State.tileTag (s : State) (c : CtxId) (n : Nat) : Nat := mfield (s.core (coreOf c)).mstat (tagPos n) 3

/-- The bits of the rows that MRD reads (R230). -/
def State.tileBits (s : State) (c : CtxId) (xq : Word) (n : Nat) : Nat := 8 * bits xq 15 8 * tagRowBytes (s.tileTag c n)

theorem tagRowBytes_pos (tag : Nat) : 0 < tagRowBytes tag := by
  unfold tagRowBytes
  split
  · decide
  · split <;> decide

/-- A string is empty only without rows. -/
theorem State.tileBits_eq_zero (s : State) (c : CtxId) (xq : Word) (n : Nat) :
    s.tileBits c xq n = 0 ↔ bits xq 15 8 = 0 := by
  simp [State.tileBits, (tagRowBytes_pos _).ne']

/-- The rows that MRD reads, as a string (R230). -/
def State.tileString (s : State) (c : CtxId) (xq : Word) (n : Nat) : Nat :=
  (upFrom 0 (bits xq 15 8)).foldl (fun acc t => acc +
    rowString ((s.core (coreOf c)).tileRow n (bits xq 6 0 + t)) (s.tileTag c n) <<< (8 * tagRowBytes (s.tileTag c n) * t)) 0

section
variable (s : State) (c : CtxId) (p : Nat) (xq : Word) (n : Nat)

/-- The state in which MRD has read its rows and retired. -/
def State.tileRead : State :=
  let q := (s.ctx c).vcfg (physLanes (coreOf c))
  let t := (s.vecStart c).modCtx c fun k =>
    (k.putString q p (s.tileBits c xq n) (s.tileString c xq n)).latched (upFrom p (stringRegs q.rb (s.tileBits c xq n)))
  (t.enqueue c ((t.ctx c).entry 8 0 none [] [] 0)).retire c

theorem State.tileRead_ctx : (s.tileRead c p xq n).ctx c =
    let k := (s.ctx c).stringRead ((s.ctx c).vcfg (physLanes (coreOf c))) p (s.tileBits c xq n) (s.tileString c xq n)
    (k.enqueued (k.entry 8 0 none [] [] 0)).retired := by
  rw [State.tileRead, State.retire_ctx_same, State.enqueue_ctx, State.modCtx_ctx_same, State.vecStart_ctx]
  rfl

theorem State.tileRead_core (m : CoreId) : (s.tileRead c p xq n).core m = s.core m := State.enqueue_core _ _ _ _
theorem State.tileRead_mem : (s.tileRead c p xq n).mem = s.mem := State.enqueue_mem _ _ _
theorem State.tileRead_pend : (s.tileRead c p xq n).pend = s.pend := State.enqueue_pend _ _ _

end

section
variable {s : State} (w : BitVec 32) {p : Nat} {xq : Word} {n : Nat} (mine : s.arrayMine)
include mine

/-- MRD whose operands do not fit (R232). -/
theorem State.mrd_of_misfit (misfit : ¬ (s.rowsMisfit s.cur xq = false ∧
    s.tileBits s.cur xq n ≤ stringRoom (64 * s.here.lanes) p)) : s.mrd s.cur w p xq n = s.misform s.cur w := by
  refine (State.owned_of_mine mine _).trans (if_pos ?_)
  rw [Bool.or_eq_true, decide_eq_true_eq, ← Bool.not_eq_false, or_iff_not_imp_left, not_not, ← Nat.not_le]
  exact fun layout room => misfit ⟨layout, room⟩

/-- MRD that passes its checks waits for the matrix queue, then reads (R235). -/
theorem State.mrd_of_fits (layout : s.rowsMisfit s.cur xq = false)
    (room : s.tileBits s.cur xq n ≤ stringRoom (64 * s.here.lanes) p)
    (unbound : s.here.groupBound p (stringRegs (64 * s.here.lanes) (s.tileBits s.cur xq n)) = false)
    (place : s.here.vq.length < 16) :
    s.mrd s.cur w p xq n = if s.coreHere.mq = [] then s.tileRead s.cur p xq n else s.stallBounded s.cur := by
  refine (State.owned_of_mine mine _).trans ((if_neg ?_).trans ((if_neg ?_).trans ((if_neg (Nat.not_le.mpr place)).trans ?_)))
  · rw [layout, Bool.false_or, decide_eq_true_eq]
    exact Nat.not_lt.mpr room
  · exact Bool.eq_false_iff.mp unbound
  · change (if (!s.coreHere.mq.isEmpty) = true then s.stallBounded s.cur else s.tileRead s.cur p xq n) = _
    cases s.coreHere.mq <;> rfl

end

/-- R230, R232, R235: MRD. -/
theorem tileReadClaims : TileReadClaims := by
  intro p q n rw nb fits free
  refine ⟨actsTo_of_issue (fun _ => rfl) fun s ⟨mine, ⟨layout, room⟩, ⟨unbound, place⟩, empty⟩ => ?_,
    acts_of_issue (fun _ => rfl) fun s ⟨mine, ⟨layout, room⟩, ⟨unbound, place⟩, busy⟩ => ?_,
    acts_of_issue (fun _ => rfl) fun s ⟨mine, misfit⟩ => State.mrd_of_misfit _ mine misfit⟩
  · rw [State.mrd_of_fits _ mine layout room unbound place, if_pos empty]
    obtain ⟨x, pc, fstat, queue⟩ := s.here.stringRead_keeps s.cfgHere p.toNat (s.tileBits s.cur (s.here.rx q) n.toNat)
      (s.tileString s.cur (s.here.rx q) n.toNat)
    rw [State.tileRead_ctx]
    refine ⟨s.here.stringRead_v s.cfgHere _ _ _, ?_, ?_, congrArg (· + 4) pc, x, fstat, State.tileRead_core _ _ _ _ _ _,
      State.tileRead_mem _ _ _ _ _, State.tileRead_pend _ _ _ _ _⟩
    · refine (s.here.stringRead_latch s.cfgHere _ _ _ p.isLt rfl room).trans ?_
      exact if_congr (State.tileBits_eq_zero _ _ _ _) rfl (BitVec.ofNat_toNat 5 p |>.trans (BitVec.setWidth_eq p))
    · exact (List.length_append ..).trans (congrArg (· + 1) queue)
  · rw [State.mrd_of_fits _ mine layout room unbound place, if_neg busy]
    rfl

end Sys2Proof.Machine

/-! The statements of spec/08_matrix_instructions.md. -/

namespace Sys2Proof.Proofs

open Sys2Proof.Machine

/-- Settles O21: each instruction by its checks and the entry that it posts, MRD by the string that it writes. -/
theorem matrix : Obligations.Matrix := ⟨matrixClaims, tileReadClaims⟩

/-- Settles O22: an outer product by what its A operand comes from, and by what stops it. -/
theorem outerProducts : Obligations.OuterProducts := outerClaims

end Sys2Proof.Proofs

/-! The rules that the instructions of spec/09 share: fields of a word, and an instruction whose word issues. -/

namespace Sys2Proof.Machine

/-- A field of a word as digits of its number. -/
theorem bits_eq_div (v : Word) (hi lo : Nat) : bits v hi lo = v.toNat / 2 ^ lo % 2 ^ (hi + 1 - lo) := by
  rw [bits, Nat.shiftRight_eq_div_pow]

theorem zeroBits_iff (v : Word) (hi lo : Nat) : zeroBits v hi lo = true ↔ v.toNat / 2 ^ lo % 2 ^ (hi + 1 - lo) = 0 := by
  rw [zeroBits, beq_iff_eq, bits_eq_div]

/-- The bits of a word from `lo` up are zero just where the word lies below 2^lo. -/
theorem zeroBits_top (v : Word) {lo : Nat} (h : lo ≤ 64) : zeroBits v 63 lo = true ↔ v.toNat < 2 ^ lo := by
  have whole : v.toNat < 2 ^ lo * 2 ^ (63 + 1 - lo) := by
    rw [← Nat.pow_add, Nat.add_sub_cancel' h]
    exact v.isLt
  rw [zeroBits_iff, Nat.mod_eq_of_lt (Nat.div_lt_of_lt_mul whole), Nat.div_eq_zero_iff_lt (Nat.two_pow_pos lo)]

/-- An issued word does what its instruction gives it to do. -/
theorem exec_of_issue {i : Instr} {s t : State} {go : CtxId → Ctx → State → State}
    (h : exec i s = .next (s.issue (encode i) go)) (issues : s.issues (encode i) = true)
    (act : go s.cur s.here (s.issued (encode i)) = t) : exec i s = .next t := by
  rw [h, State.issue_of_issues _ _ _ issues, act]

end Sys2Proof.Machine

/-! Panes (R245-R249). -/

namespace Sys2Proof.Machine

section
variable {s : State} {c : CtxId} {d : BitVec 5} {size want : Nat}

/-- A request that can be met takes the pane that R248 finds. -/
theorem State.palloc_of_fits {n base : Nat} (some_size : size ≠ 0) (aligned : size % 64 = 0)
    (small : size ≤ s.sliceSize (coreOf c)) (number : (s.core (coreOf c)).paneNumber want = some n)
    (fits : s.paneBase (coreOf c) (s.did c) size = some base) :
    s.palloc c d size want = (s.modCore (coreOf c) fun k =>
      k.setPane n { state := 2, held := false, owner := s.did c, base := base, size := size }).retireX
        c d (BitVec.ofNat 64 n) := by
  have allowed : ¬(size = 0 ∨ size % 64 ≠ 0 ∨ s.sliceSize (coreOf c) < size) := by simp [some_size, aligned, small]
  rw [State.palloc, if_neg allowed, number, fits]

/-- A request that cannot be met writes all ones. -/
theorem State.palloc_of_refused (refused : size = 0 ∨ size % 64 ≠ 0 ∨ s.sliceSize (coreOf c) < size ∨
      (s.core (coreOf c)).paneNumber want = none ∨ s.paneBase (coreOf c) (s.did c) size = none) :
    s.palloc c d size want = s.retireX c d (BitVec.allOnes 64) := by
  simp only [State.palloc]
  split
  · rfl
  next allowed =>
    obtain none_size | unaligned | large | taken | unfit := refused
    · exact absurd (.inl none_size) allowed
    · exact absurd (.inr (.inl unaligned)) allowed
    · exact absurd (.inr (.inr large)) allowed
    · rw [taken]
    · rw [unfit]
      split <;> rfl

end

@[simp] theorem State.issued_sliceSize (s : State) (w : BitVec 32) (core : CoreId) :
    (s.issued w).sliceSize core = s.sliceSize core := by
  simp [State.sliceSize]

/-- R248: PALLOC. -/
theorem paneAllocClaims : PaneAllocClaims := by
  intro d a b
  refine ⟨fun s n base issues some_size aligned small number fits => ?taken, acts_of_issue (fun _ => rfl) fun s refused => ?no⟩
  case taken =>
    have mine : (s.issued (encode (.palloc d a b))).did s.cur = s.did s.cur := State.issued_did s _ _
    refine exec_of_issue rfl issues ((State.palloc_of_fits some_size aligned small ?_ (by rwa [mine])).trans (by rw [mine]))
    rwa [State.issued_core]
  case no => exact State.palloc_of_refused (by simpa [State.coreHere, ← BitVec.toNat_inj] using refused)

/-- What a pane that fits keeps to (R248): its lane slice, and the panes that are allocated. -/
theorem State.paneFits_spec {s : State} {core : CoreId} {did : BitVec 7} {size base : Nat}
    (fits : s.paneFits core did size base = true) :
    base + size ≤ s.sliceSize core ∧
      ∀ p, p ∈ (s.core core).panes.toList → p.state ≠ 0 → p.base + p.size ≤ base ∨ base + size ≤ p.base := by
  simp only [State.paneFits, Bool.and_eq_true, decide_eq_true_iff, Bool.not_eq_true', List.any_eq_false] at fits
  obtain ⟨⟨inside, -⟩, apart⟩ := fits
  refine ⟨inside, fun p member taken => ?_⟩
  have := apart p member
  simp only [taken, ne_eq, not_false_eq_true, true_and, not_and] at this
  omega

theorem upFrom_eq_range' (a n : Nat) : upFrom a n = List.range' a n := by
  induction n generalizing a with
  | zero => rfl
  | succ n ih => rw [upFrom, ih, List.range'_succ]

/-- R248: the multiple of 64 that PALLOC takes is the least at which the pane fits. -/
theorem paneBaseClaims : PaneBaseClaims := by
  intro s core did size base found
  rw [State.paneBase, upFrom_eq_range', List.find?_map, Option.map_eq_some_iff] at found
  obtain ⟨i, found, rfl⟩ := found
  obtain ⟨fits, member, least⟩ := List.find?_range'_eq_some.mp found
  obtain ⟨inside, apart⟩ := State.paneFits_spec fits
  refine ⟨Nat.mul_mod_right 64 i, inside, apart, fun b below aligned => ?_⟩
  have lower := least (b / 64) (by omega) (by omega)
  rw [Function.comp, Nat.mul_div_cancel' (Nat.dvd_of_mod_eq_zero aligned)] at lower
  simpa using lower

section
variable {s : State} {c : CtxId} {xa : Word}

/-- How an instruction takes the pane that x[a] names (R249). -/
theorem State.withPane_eq (go : Pane → State) : s.withPane c xa go =
    let p := (s.core (coreOf c)).pane (xa.toNat % 64)
    if 64 ≤ xa.toNat ∨ p.state = 0 then s.trap c (mkTrap 13 xa)
    else if p.owner ≠ s.did c then s.trap c (mkTrap 10 xa)
    else if p.state ≠ 2 then s.stall c
    else go p := by
  have upper : zeroBits xa 63 6 = true ↔ xa.toNat < 64 := zeroBits_top xa (by omega)
  simp only [State.withPane, Core.pane, bits_low]
  refine if_congr ?_ rfl rfl
  rw [Bool.or_eq_true, Bool.not_eq_true', decide_eq_true_iff, ← Bool.not_eq_true, upper, not_lt]
  rfl

/-- PSTATE (R249), whose request stands above bit 7. -/
theorem State.pstate_eq (d : BitVec 5) : s.pstate c d xa =
    let p := (s.core (coreOf c)).pane (xa.toNat % 64)
    if 2048 ≤ xa.toNat ∨ xa.toNat / 64 % 4 ≠ 0 then s.trap c (mkTrap 13 xa)
    else if p.state ≠ 0 ∧ p.owner ≠ s.did c then s.trap c (mkTrap 10 xa)
    else (if xa.toNat / 256 % 2 = 1 then s.modCore (coreOf c) fun k =>
      k.setPane (xa.toNat % 64) (p.request (xa.toNat / 512 % 4)) else s).retireX c d p.value := by
  have upper : zeroBits xa 63 11 = true ↔ xa.toNat < 2048 := zeroBits_top xa (by omega)
  have lower : zeroBits xa 7 6 = true ↔ xa.toNat / 64 % 4 = 0 := zeroBits_iff xa 7 6
  have asks : bit xa 8 = true ↔ xa.toNat / 256 % 2 = 1 := by rw [bit_eq_decide, decide_eq_true_iff]; rfl
  have what : bits xa 10 9 = xa.toNat / 512 % 4 := bits_eq_div xa 10 9
  simp only [State.pstate, bits_low, what, asks]
  refine if_congr ?_ rfl rfl
  rw [Bool.or_eq_true, Bool.not_eq_true', Bool.not_eq_true', ← Bool.not_eq_true, ← Bool.not_eq_true, upper, lower, not_lt]

end

theorem State.paneHere_eq (s : State) (xa : Word) : s.paneHere xa = (s.core (coreOf s.cur)).pane (xa.toNat % 64) := rfl

/-- R247, R249: PSTATE and PFREE. -/
theorem paneStateClaims : PaneStateClaims := by
  intro d a
  refine ⟨acts_of_issue (fun _ => rfl) fun s ⟨small, open_⟩ => (State.pstate_eq d).trans ?reads,
    acts_of_issue (fun _ => rfl) fun s ⟨small, taken, other⟩ => (State.pstate_eq d).trans ?others,
    acts_of_issue (fun _ => rfl) fun s large => (State.pstate_eq d).trans (if_pos (.inl large)),
    fun r _ => acts_of_issue (fun _ => rfl) fun s ⟨asked, open_⟩ => (State.pstate_eq d).trans ?requests,
    acts_of_issue (fun _ => rfl) fun s ⟨small, ready, mine, unheld⟩ => (State.withPane_eq _).trans ?frees,
    acts_of_issue (fun _ => rfl) fun s none => (State.withPane_eq _).trans (if_pos ?misnamed),
    acts_of_issue (fun _ => rfl) fun s ⟨small, taken, other⟩ => (State.withPane_eq _).trans ?foreign,
    acts_of_issue (fun _ => rfl) fun s ⟨small, moving, mine⟩ => (State.withPane_eq _).trans ?stalls⟩
  case reads =>
    refine (if_neg (by omega)).trans ((if_neg ?_).trans ?_)
    · exact fun foreign => open_.elim foreign.1 foreign.2
    · rw [if_neg (by omega)]
      rfl
  case others => exact (if_neg (by omega)).trans (if_pos ⟨taken, other⟩)
  case requests =>
    refine (if_neg (by omega)).trans ((if_neg ?_).trans ?_)
    · exact fun foreign => open_.elim foreign.1 foreign.2
    · have number : (s.here.rx a).toNat / 512 % 4 = r := by omega
      rw [if_pos (by omega), number]
      rfl
  case frees =>
    have number : bits (s.here.rx a) 5 0 = (s.here.rx a).toNat := (bits_low _ 5).trans (Nat.mod_eq_of_lt small)
    refine (if_neg (not_or.mpr ⟨by omega, by simp [ready, ← State.paneHere_eq]⟩)).trans ((if_neg (not_not.mpr mine)).trans ?_)
    refine (if_neg (not_not.mpr ready)).trans ?_
    rw [← State.paneHere_eq, unheld, number]
    rfl
  case misnamed => exact none
  case foreign => exact (if_neg (not_or.mpr ⟨by omega, taken⟩)).trans (if_pos other)
  case stalls =>
    have moves : ∀ p : BitVec 2, p = 1 ∨ p = 3 → p ≠ 0 ∧ p ≠ 2 := by decide
    obtain ⟨taken, unready⟩ := moves _ moving
    exact (if_neg (not_or.mpr ⟨by omega, taken⟩)).trans ((if_neg (not_not.mpr mine)).trans (if_pos unready))

end Sys2Proof.Machine

/-! Waits and time (R282-R284, R454-R457). -/

namespace Sys2Proof.Machine

section
variable {s : State} {c : CtxId} {w : BitVec 32} (unlogged : (s.ctx c).log = none)
include unlogged

theorem Ctx.isLogging_of_none : (s.ctx c).isLogging = false := by rw [Ctx.isLogging, unlogged]; rfl

/-- WAITM of a context that keeps no log, outside a call gate (R282, R452). -/
theorem State.waitm_of_plain (outside : (s.ctx c).depth = 0) : s.waitm c w = s.waitmOwn c := by
  rw [State.waitm, if_neg (not_not.mpr outside), unlogged]

/-- A delivery that no log takes (R512). -/
theorem State.withDelivery_of_plain (m : Msg) (go : State → State) : s.withDelivery c m go = go s := by
  rw [State.withDelivery, Ctx.isLogging_of_none unlogged]
  rfl

theorem State.waitmOwn_of_mail (mail : (s.ctx c).mailbox ≠ []) : s.waitmOwn c = s.retire c := by
  simp [State.waitmOwn, Ctx.isLogging_of_none unlogged, mail]

variable (empty : (s.ctx c).mailbox = [])
include empty

theorem State.waitmOwn_of_spawn {m : Msg} (held : (s.ctx c).spawn = some m) :
    s.waitmOwn c = s.modCtx c fun q => q.takeSpawn m := by
  simp [State.waitmOwn, Ctx.isLogging_of_none unlogged, State.withDelivery_of_plain unlogged, empty, held]

variable (free : (s.ctx c).spawn = none)
include free

theorem State.waitmOwn_of_wake (wake : (s.ctx c).wake = true) :
    s.waitmOwn c = (s.modCtx c fun q => { q with wake := false }).retire c := by
  simp [State.waitmOwn, Ctx.isLogging_of_none unlogged, State.withDelivery_of_plain unlogged, empty, free, wake]

theorem State.waitmOwn_of_still (still : (s.ctx c).wake = false) : s.waitmOwn c = s.modCtx c fun q => q.park .waitm := by
  simp [State.waitmOwn, Ctx.isLogging_of_none unlogged, empty, free, still]

end

/-- R282-R284: WAITM, WAITT and TIMEQ. -/
theorem waitClaims : WaitClaims := by
  intro d a
  refine ⟨⟨acts_of_issue (fun _ => rfl) fun s ⟨⟨outside, unlogged⟩, mail⟩ =>
      (State.waitm_of_plain unlogged outside).trans (State.waitmOwn_of_mail unlogged mail),
    fun m => acts_of_issue (fun _ => rfl) fun s ⟨⟨outside, unlogged⟩, empty, held⟩ =>
      (State.waitm_of_plain unlogged outside).trans (State.waitmOwn_of_spawn unlogged empty held),
    acts_of_issue (fun _ => rfl) fun s ⟨⟨outside, unlogged⟩, empty, free, wake⟩ =>
      (State.waitm_of_plain unlogged outside).trans (State.waitmOwn_of_wake unlogged empty free wake),
    acts_of_issue (fun _ => rfl) fun s ⟨⟨outside, unlogged⟩, empty, free, still⟩ =>
      (State.waitm_of_plain unlogged outside).trans (State.waitmOwn_of_still unlogged empty free still),
    acts_of_issue (fun _ => rfl) fun s gate => if_pos gate⟩,
    acts_of_issue (fun _ => rfl) fun s past => if_pos past,
    acts_of_issue (fun _ => rfl) fun s ahead => if_neg (Nat.not_lt.mpr ahead),
    acts_of_issue (fun _ => rfl) fun s ⟨unlogged, single⟩ => State.withLogged_plain s _ _ _ _ single unlogged⟩

/-- R454-R457: WFI and PFX. -/
theorem idleClaims : IdleClaims := by
  refine ⟨acts_of_issue (fun _ => rfl) fun s ready => if_pos ready,
    acts_of_issue (fun _ => rfl) fun s idle => if_neg (Bool.eq_false_iff.mp idle), fun k r c n v o sh legal => ?_⟩
  exact acts_of_issueIf (bad := fun _ => !pfxLegal (encPfx k r n c v o sh)) (fun _ => rfl)
    (fun _ _ => congrArg not legal) fun _ _ => rfl

end Sys2Proof.Machine

/-! Streams (R250, R251, R256, R426). -/

namespace Sys2Proof.Machine

theorem State.issued_ctx_cur (s : State) (w : BitVec 32) : (s.issued w).ctx s.cur = s.here := State.issued_ctx s w s.cur

@[simp] theorem State.issued_gustAgrees (s : State) (w : BitVec 32) : (s.issued w).gustAgrees ↔ s.gustAgrees := by
  simp [State.gustAgrees, State.here]

section
variable {s : State} {c : CtxId}

/-- A stream command in the world of its core's Gust engine goes on (R426). -/
theorem State.inGustWorld_of_agrees {go : State} (turn : s.cur = c) (agrees : s.gustAgrees) : s.inGustWorld c go = go := by
  subst turn
  have same : decide ((s.ctx s.cur).mode = .m) = (s.core (coreOf s.cur)).gw := Bool.eq_iff_iff.mpr (decide_eq_true_iff.trans agrees)
  simp [State.inGustWorld, same]

/-- A stream command in the other world traps, with a trap value that the spec leaves open (R426). -/
theorem State.inGustWorld_of_differs {go : State} (turn : s.cur = c) (differs : ¬ s.gustAgrees) :
    s.inGustWorld c go = s.openTrap c 9 := by
  subst turn
  have other : decide ((s.ctx s.cur).mode = .m) ≠ (s.core (coreOf s.cur)).gw := fun same =>
    differs (decide_eq_true_iff.symm.trans (Bool.eq_iff_iff.mp same))
  simp [State.inGustWorld, other]

/-- SBIND of a declared stream to a vector register that no stream has (R251). -/
theorem State.sbind_of_unbound {w : BitVec 32} {v : BitVec 5} {i : Nat} (declared : ((s.ctx c).stream i).st = .declared)
    (unbound : (s.ctx c).boundTo v.toNat = none) : s.sbind c w v i = s.inGustWorld c
      ((s.modCtx c fun k => k.setStream i { k.stream i with st := .bound, vd := v }).retire c) := by
  simp [State.sbind, declared, unbound]

theorem State.sunbind_of_unbound {w : BitVec 32} {v : BitVec 5} (unbound : (s.ctx c).boundTo v.toNat = none) :
    s.sunbind c w v = s.illegal c w := by
  rw [State.sunbind, unbound]

/-- SUNBIND of a bound register ends its stream, or waits for its output (R251). -/
theorem State.sunbind_of_bound {w : BitVec 32} {v : BitVec 5} {n : Nat} {u : State} {done : Bool}
    (bound : (s.ctx c).boundTo v.toNat = some n) (drained : s.streamDrained c ((s.ctx c).stream n) = (u, done)) :
    s.sunbind c w v = s.inGustWorld c (if !done then u.stallBounded c else (u.endStream c n).retire c) := by
  simp only [State.sunbind, bound, drained]

theorem Pane.hold_not (p : Pane) (dir : Bool) : p.hold (!dir) = { p with state := if dir then 3 else 1, held := true } := by
  cases dir <;> rfl

/-- A declaration takes its pane (R247, R251). -/
theorem State.beginStream_eq (i : Nat) (d : Stream) : s.beginStream c i d =
    (s.modCore (coreOf c) fun k => k.modPane d.pane.toNat fun p =>
      { p with state := if d.dir then 3 else 1, held := true }).modCtx c fun k => k.setStream i d := by
  simp only [State.beginStream, Pane.hold_not]

section
variable {w : BitVec 32} {i : Nat} {xa : Word} {bs : List Byte} {u : State} (turn : s.cur = c) (agrees : s.gustAgrees)
  (reads : s.ReadsBlock c xa 64 bs u) (legal : streamLegal bs = true)
  (mine : ((u.core (coreOf c)).pane (streamOf bs).pane.toNat).owner = s.did c)
include turn agrees reads legal mine

/-- SDECL of a free stream with a ready pane of its domain (R250, R251). -/
theorem State.sdecl_of_free (free : ((s.ctx c).stream i).st = .free)
    (ready : ((u.core (coreOf c)).pane (streamOf bs).pane.toNat).state = 2)
    (unheld : ((u.core (coreOf c)).pane (streamOf bs).pane.toNat).held = false) :
    s.sdecl c w i xa = (u.beginStream c i (streamOf bs)).retire c := by
  simp [State.sdecl, free, State.inGustWorld_of_agrees turn agrees, State.withBlock_of_reads _ reads, legal, ready, unheld, mine]

/-- SDECL of a declared stream, with the pane of that stream or a ready one (R251). -/
theorem State.sdecl_of_declared (declared : ((s.ctx c).stream i).st = .declared)
    (taken : ((s.ctx c).stream i).pane = (streamOf bs).pane ∨
      (((u.core (coreOf c)).pane (streamOf bs).pane.toNat).state = 2 ∧
        ((u.core (coreOf c)).pane (streamOf bs).pane.toNat).held = false))
    {v : State} {done : Bool} (drained : u.streamDrained c ((s.ctx c).stream i) = (v, done)) :
    s.sdecl c w i xa = if done = true then ((v.endStream c i).beginStream c i (streamOf bs)).retire c
      else v.stallBounded c := by
  have unrefused : ¬((!decide (((s.ctx c).stream i).pane = (streamOf bs).pane) &&
      (decide (((u.core (coreOf c)).pane (streamOf bs).pane.toNat).state ≠ 2) ||
        ((u.core (coreOf c)).pane (streamOf bs).pane.toNat).held)) = true) := by
    rcases taken with same | ⟨ready, unheld⟩
    · simp [same]
    · simp [ready, unheld]
  simp only [State.sdecl, declared, State.inGustWorld_of_agrees turn agrees, State.withBlock_of_reads _ reads, legal, drained,
    decide_true, Bool.true_and, if_neg unrefused, mine]
  cases done <;> simp

end

end

/-- R250, R251: SDECL and SBIND. -/
theorem streamClaims : StreamClaims := by
  intro j a v
  refine ⟨fun s u bs issues agrees free reads legal ready unheld mine => ?free,
    fun s u v bs done issues agrees declared reads legal => ?declared,
    acts_of_issue (fun _ => rfl) fun s bound => if_pos bound,
    fun vector => ⟨acts_of_issue (fun _ => rfl) fun s ⟨agrees, declared, unbound⟩ => ?binds,
      acts_of_issue (fun _ => rfl) fun s bad => if_pos ?unfit⟩⟩
  case free =>
    rw [← State.issued_ctx_cur s (encode (.sdecl j a))] at free
    rw [← State.issued_did s (encode (.sdecl j a))] at mine
    refine exec_of_issue rfl issues ((State.sdecl_of_free (by simp) (by simpa using agrees) reads legal mine free ready
      unheld).trans ?_)
    rw [State.beginStream_eq]
  case declared =>
    intro n p taken mine drained
    rw [← State.issued_ctx_cur s (encode (.sdecl j a))] at declared taken drained
    rw [← State.issued_did s (encode (.sdecl j a))] at mine
    refine exec_of_issue rfl issues ((State.sdecl_of_declared (by simp) (by simpa using agrees) reads legal mine declared taken
      drained).trans ?_)
    rw [State.beginStream_eq]
    rfl
  case binds =>
    exact (State.sbind_of_unbound declared unbound).trans (State.inGustWorld_of_agrees rfl agrees)
  case unfit => exact bad.imp_right (Option.isSome_iff_ne_none.mpr ·)

/-- An instruction whose word issues takes a trap whose value the spec leaves open. -/
theorem openTrapWhen_of_issue {i : Instr} {cause : Nat} {pre : State → Prop} {go : CtxId → Ctx → State → State}
    (h : ∀ s, exec i s = .next (s.issue (encode i) go))
    (traps : ∀ s : State, pre s → go s.cur s.here s = s.openTrap s.cur cause) : OpenTrapWhen i cause pre := by
  intro s issues hp
  have act := acts_of_issue (act := fun t => t.openTrap t.cur cause) h traps s issues hp
  simp only [State.issued_cur, State.openTrap] at act
  exact ⟨_, act⟩

/-- R426: a stream command in the other world than its core's Gust. -/
theorem streamWorldClaims : StreamWorldClaims := by
  intro d j v
  refine ⟨fun _ => ⟨openTrapWhen_of_issue (fun _ => rfl) fun s ⟨differs, declared, unbound⟩ => ?binds,
      openTrapWhen_of_issue (fun _ => rfl) fun s ⟨differs, bound⟩ => ?unbinds⟩,
    openTrapWhen_of_issue (fun _ => rfl) fun s ⟨differs, unbound⟩ => ?declares,
    openTrapWhen_of_issue (fun _ => rfl) fun s differs => State.inGustWorld_of_differs rfl differs⟩
  case binds => exact (State.sbind_of_unbound declared unbound).trans (State.inGustWorld_of_differs rfl differs)
  case unbinds =>
    obtain ⟨n, named⟩ := Option.ne_none_iff_exists'.mp bound
    exact (State.sunbind_of_bound named rfl).trans (State.inGustWorld_of_differs rfl differs)
  case declares => exact (if_neg unbound).trans (State.inGustWorld_of_differs rfl differs)

/-- R250: the fields of a stream descriptor. -/
theorem streamFieldClaims : StreamFieldClaims := by
  intro bs d w
  refine ⟨rfl, rfl, rfl, rfl, rfl, ?width, rfl, ?pane, rfl, rfl, rfl, rfl, ?legal⟩
  case width =>
    show (BitVec.ofNat 2 (bits (w 5) 1 0)).toNat = _
    rw [bits_low, BitVec.toNat_ofNat]
    exact Nat.mod_mod _ 4
  case pane =>
    show (BitVec.ofNat 6 (bits (w 5) 13 8)).toNat = _
    rw [bits_eq_div, BitVec.toNat_ofNat]
    exact Nat.mod_mod _ 64
  case legal =>
    have middle : zeroBits (w 5) 7 3 = true ↔ (w 5).toNat / 8 % 32 = 0 := zeroBits_iff _ 7 3
    have upper : zeroBits (w 5) 63 14 = true ↔ (w 5).toNat / 2 ^ 14 = 0 :=
      (zeroBits_top _ (by omega)).trans (Nat.div_eq_zero_iff_lt (Nat.two_pow_pos 14)).symm
    have whole : streamLegal bs = (decide ((w 1).toNat ≤ 2 ^ 40) && zeroBits (w 5) 7 3 && zeroBits (w 5) 63 14 &&
      decide (w 6 = 0) && decide (w 7 = 0)) := rfl
    rw [whole]
    simp only [Bool.and_eq_true, decide_eq_true_iff, middle, upper, and_assoc]

/-- R251, R256: SUNBIND and SSTAT. -/
theorem streamEndClaims : StreamEndClaims := by
  intro d v j
  refine ⟨fun _ => ⟨fun s u n issues agrees bound drained => ?ends,
      acts_of_issue (fun _ => rfl) fun s unbound => State.sunbind_of_unbound unbound⟩,
    acts_of_issue (fun _ => rfl) fun s ⟨agrees, empty⟩ => (State.inGustWorld_of_agrees rfl agrees).trans (if_pos empty),
    acts_of_issue (fun _ => rfl) fun s ⟨agrees, busy⟩ =>
      (State.inGustWorld_of_agrees rfl agrees).trans (if_neg (Bool.eq_false_iff.mp busy))⟩
  case ends =>
    rw [← State.issued_ctx_cur s (encode (.sunbind v))] at bound drained
    exact exec_of_issue rfl issues ((State.sunbind_of_bound bound drained).trans
      (State.inGustWorld_of_agrees (by simp) (by simpa using agrees)))

end Sys2Proof.Machine

/-! What an instruction waits for before it acts on other cores, and logged values (R351, R509, R510, R512). -/

namespace Sys2Proof.Machine

/-- Several logged values of a context that is no redundant member and keeps no log are the machine's own (R509, R512). -/
theorem State.loggedAll_of_plain {s : State} {c : CtxId} (single : (s.ctx c).red = none) (unlogged : (s.ctx c).log = none)
    (items : List (Nat × Word)) (acc : List Word) : s.loggedAll c items acc = .values s (acc ++ items.map Prod.snd) := by
  induction items generalizing acc with
  | nil => simp [State.loggedAll]
  | cons e t ih =>
    have first : s.logged1 c e.1 e.2 = .values s [e.2] := by simp [State.logged1, single, unlogged]
    simp [State.loggedAll, first, ih]

theorem State.withLogged_of_plain {s : State} {c : CtxId} (single : (s.ctx c).red = none) (unlogged : (s.ctx c).log = none)
    (items : List (Nat × Word)) (go : State → List Word → State) : s.withLogged c items go = go s (items.map Prod.snd) := by
  rw [State.withLogged, State.loggedAll_of_plain single unlogged, List.nil_append]

theorem State.closeInterval_of_single {s : State} {c : CtxId} (single : (s.ctx c).red = none) (ops : List Word) :
    s.closeInterval c ops = (s, true) := by
  rw [State.closeInterval, single]

theorem State.commitRoom_of_single {s : State} {c : CtxId} (single : (s.ctx c).red = none) (n : Nat) :
    s.commitRoom c n = (s, true) := by
  rw [State.commitRoom, single]

/-- An instruction whose interval is closed and whose release is performed goes on (R510, R351). -/
theorem State.castReady_of_released {s u : State} {c : CtxId} {ops : List Word} {sc : Nat} {go : State → State}
    (released : s.Released c ops sc u) : s.castReady c sc ops go = go u := by
  obtain ⟨r, closed, single, performed⟩ := released
  simp [State.castReady, closed, single, performed]

section
variable {s : State} {c : CtxId}

/-- A context that is in no gang, or runs in a handler, reads no gang (R277, R452). -/
theorem State.gangSeen_of_none (turn : s.cur = c) (outside : s.gangHere = none) :
    (if (s.ctx c).gangSeen = 0 then none else s.gang? (s.ctx c).gangSeen) = none := by
  subst turn
  by_cases top : s.here.depth = 0
  · rw [State.gangHere] at outside
    by_cases alone : s.here.gang = 0
    · exact if_pos (by rw [← State.here, Ctx.gangSeen, if_pos top, alone])
    · rw [if_pos ⟨top, alone⟩] at outside
      rw [← State.here, Ctx.gangSeen, if_pos top, outside, ite_self]
  · exact if_pos (by rw [← State.here, Ctx.gangSeen, if_neg top])

/-- A member of a gang outside a handler reads its gang (R277). -/
theorem State.gangSeen_of_some {g : Gang} (turn : s.cur = c) (member : s.gangHere = some g) :
    (s.ctx c).gangSeen = s.here.gang ∧
      (if (s.ctx c).gangSeen = 0 then none else s.gang? (s.ctx c).gangSeen) = some g := by
  subst turn
  rw [State.gangHere] at member
  split at member
  next inside =>
    have seen : (s.ctx s.cur).gangSeen = s.here.gang := if_pos inside.1
    exact ⟨seen, by rw [seen, if_neg inside.2, member]⟩
  · cases member

end

@[simp] theorem State.issued_gang? (s : State) (w : BitVec 32) (g : Nat) : (s.issued w).gang? g = s.gang? g := by
  simp [State.gang?]

@[simp] theorem State.issued_gangHere (s : State) (w : BitVec 32) : (s.issued w).gangHere = s.gangHere := by
  simp [State.gangHere]

end Sys2Proof.Machine

/-! Messages (R279-R282). -/

namespace Sys2Proof.Machine

section
variable {s u v : State} {c : CtxId}

/-- A message whose release is performed goes to the interface of its core (R279). -/
theorem State.sendMsg_of_released {m : Msg} {target : CtxId} {ops : List Word} {took : Bool}
    (released : s.Released c ops (narrowScope c target) u) (accepted : u.acceptMsg (coreOf c) m = (v, took)) :
    s.sendMsg c m target ops = if took then v.retire c else v.stall c := by
  obtain ⟨r, closed, own, performed⟩ := released
  simp [State.sendMsg, closed, own, performed, accepted]

section
variable {w : BitVec 32} {kind : BitVec 2} {xa xb : Word}

theorem State.msend_of_none (turn : s.cur = c) (outside : s.gangHere = none) : s.msend c w kind xa xb = s.illegal c w := by
  rw [State.msend, State.gangSeen_of_none turn outside]

/-- What MSEND hands over once its payload is read (R279, R281). -/
def State.sendTo (t : State) (s : State) (c : CtxId) (g : Gang) (kind : BitVec 2) (xa : Word) (bs : List Byte) : State :=
  let m : Msg := { kind := kind, org := false, srank := s.here.rank, gang := s.here.gang, trank := xa.toNat,
                   payload := BitVec.ofNat 512 (natOf bs) }
  t.sendMsg c m (g.entry xa.toNat).target (xa :: (upFrom 0 8).map (msgWord m))

/-- MSEND of a member of a gang (R279). -/
theorem State.msend_of_member {g : Gang} (turn : s.cur = c) (member : s.gangHere = some g) :
    s.msend c w kind xa xb = if 8192 ≤ xa.toNat ∨ g.size ≤ xa.toNat then s.trap c (mkTrap 9 xa)
      else if kind = 2 then s.sendTo s c g kind xa [] else s.withBlock c xb 64 fun bs t => t.sendTo s c g kind xa bs := by
  obtain ⟨seen, gang⟩ := State.gangSeen_of_some turn member
  have rank : zeroBits xa 63 13 = true ↔ xa.toNat < 8192 := zeroBits_top xa (by omega)
  subst turn
  rw [seen] at gang
  simp only [State.msend, seen, gang]
  refine if_congr ?_ rfl rfl
  rw [Bool.or_eq_true, Bool.not_eq_true', decide_eq_true_iff, ← Bool.not_eq_true, rank, not_lt]

end

/-- R279-R281: MSEND. -/
theorem sendClaims : SendClaims := by
  intro a b kd
  refine ⟨fun s r u v g bs took issues => ?sends,
    acts_of_issue (fun _ => rfl) fun s outside => State.msend_of_none rfl outside,
    acts_of_issue (fun _ => rfl) fun s ⟨g, member, beyond⟩ => (State.msend_of_member rfl member).trans (if_pos beyond)⟩
  case sends =>
    intro s1 member small inside wake reads m released accepted
    have delivered : r.sendTo s1 s.cur g kd (s.here.rx a) bs = if took then v.retire s.cur else v.stall s.cur := by
      rw [State.sendTo, State.issued_here]
      exact State.sendMsg_of_released released accepted
    refine exec_of_issue rfl issues (.trans ?_ delivered)
    refine (State.msend_of_member (by simp) (by simpa using member)).trans ((if_neg (by omega)).trans ?_)
    by_cases kind : kd = 2
    · obtain ⟨rfl, rfl⟩ := wake kind
      exact if_pos kind
    · exact (if_neg kind).trans (State.withBlock_of_reads _ (reads kind))

/-- The words of the oldest message (R281). -/
theorem Ctx.msgItems_of_mail {k : Ctx} {m : Msg} {rest : List Msg} (mail : k.mailbox = m :: rest) :
    k.msgItems.map Prod.snd = (upFrom 0 8).map (msgWord m) := by
  simp [Ctx.msgItems, mail]

/-- A header of MRECV says that a message has come (R281). -/
theorem msgHeader_full (m : Msg) : bit (msgHeader m) 0 = true := by
  rw [bit_eq_decide, msgHeader, BitVec.toNat_ofNat, decide_eq_true_iff]
  omega

section
variable {d : BitVec 5} {xa : Word} {x : Access} {m : Msg} {rest : List Msg}
  (outside : (s.ctx c).depth = 0) (single : (s.ctx c).red = none) (unlogged : (s.ctx c).log = none)
include outside single unlogged

/-- MRECV of an empty mailbox (R282). -/
theorem State.mrecv_of_empty (empty : (s.ctx c).mailbox = []) : s.mrecv c d xa = s.retireX c d 0 := by
  simp [State.mrecv, State.logged1, outside, single, unlogged, empty, bit]

variable (mail : (s.ctx c).mailbox = m :: rest) (reaches : s.Reaches c .store xa 64 false 0 0 [] x u)
include mail reaches

/-- MRECV with a message stores its words at the place that its address names (R282). -/
theorem State.mrecv_of_reaches (place : ∀ f r o, x.place ≠ .fcb f r o) :
    s.mrecv c d xa = u.payloadReady c xa x fun t => t.withLogged c ((2, msgHeader m) :: (s.ctx c).msgItems) fun t vs =>
      t.storePayload c d (vs.getD 0 0) (s.agent c) x ((vs.drop 1).flatMap fun v => bytesOf v.toNat 8) true := by
  have own : (s.ctx c).isShadow = false := Ctx.isShadow_of_single single
  have fresh : (s.ctx c).replays = false := by rw [Ctx.replays, unlogged]
  simp [State.mrecv, State.logged1, outside, single, unlogged, mail, msgHeader_full, State.scalarFront_of_reaches _ reaches, own,
    fresh]

/-- The message of MRECV is stored once its place is free (R282). -/
theorem State.mrecv_of_ready (place : ∀ f r o, x.place ≠ .fcb f r o)
    (ready : ∀ go, u.payloadReady c xa x go = go u) : s.mrecv c d xa =
      u.storePayload c d (msgHeader m) (s.agent c) x ((upFrom 0 8).flatMap fun i => bytesOf (msgWord m i).toNat 8) true := by
  have kept : s.CtxKept u := reaches.kept single
  rw [State.mrecv_of_reaches outside single unlogged mail reaches place, ready,
    State.withLogged_of_plain (kept.red.trans single) (kept.log.trans unlogged), List.map_cons, Ctx.msgItems_of_mail mail]
  simp [List.flatMap_map]

end

section
variable {d : BitVec 5} {xa h : Word} {x : Access} {ag : Agent} {bs : List Byte} (single : (u.ctx c).red = none)
include single

theorem State.payloadReady_of_hbm (hbm : x.place = .hbm) (free : u.leaseFree x.pa 64 = true) (go : State → State) :
    u.payloadReady c xa x go = go u := by
  simp [State.payloadReady, hbm, State.commitRoom_of_single single, free]

theorem State.payloadReady_of_far (far : (∃ p, x.place = .host p) ∨ ∃ p w off, x.place = .peer p w off)
    (go : State → State) :
    u.payloadReady c xa x go = go u := by
  rcases far with ⟨p, host⟩ | ⟨p, w, off, peer⟩
  · simp [State.payloadReady, host, State.closeInterval_of_single single]
  · simp [State.payloadReady, peer, State.closeInterval_of_single single]

theorem State.storePayload_of_hbm (hbm : x.place = .hbm) : u.storePayload c d h ag x bs true =
    (((u.writeHome c x.pa bs (writeShared ag x) ag.did).modCtx c Ctx.dropMsg).retireX c d h).awaitReply c := by
  simp [State.storePayload, hbm, single]

omit single in
theorem State.storePayload_of_far (far : (∃ p, x.place = .host p) ∨ ∃ p w off, x.place = .peer p w off) :
    u.storePayload c d h ag x bs true = (((u.outboundWrite c x bs).modCtx c Ctx.dropMsg).retireX c d h).awaitFar c := by
  rcases far with ⟨p, host⟩ | ⟨p, w, off, peer⟩
  · simp [State.storePayload, host]
  · simp [State.storePayload, peer]

end
end

/-- R282: MRECV. -/
theorem receiveClaims : ReceiveClaims := by
  intro d a
  refine ⟨acts_of_issue (fun _ => rfl) fun s gate => if_pos gate,
    acts_of_issue (fun _ => rfl) fun s ⟨empty, single, unlogged⟩ => ?empty,
    fun s u m rest x issues outside single unlogged mail reaches => ?takes⟩
  case empty =>
    by_cases outside : s.here.depth = 0
    · exact State.mrecv_of_empty outside single unlogged empty
    · exact if_pos outside
  case takes =>
    rw [← State.issued_ctx_cur s (encode (.mrecv d a))] at outside single unlogged mail
    have apart : (u.ctx s.cur).red = none := (reaches.kept single).red.trans single
    refine ⟨fun hbm free => ?hbm, fun far => ?far⟩
    case hbm =>
      refine exec_of_issue rfl issues ((State.mrecv_of_ready outside single unlogged mail reaches (by simp [hbm])
        (State.payloadReady_of_hbm apart hbm free)).trans ((State.storePayload_of_hbm apart hbm).trans ?_))
      rw [State.issued_agent]
      rfl
    case far =>
      have away : ∀ f r o, x.place ≠ .fcb f r o := by
        rcases far with ⟨p, host⟩ | ⟨p, w, off, peer⟩
        · simp [host]
        · simp [peer]
      exact exec_of_issue rfl issues ((State.mrecv_of_ready outside single unlogged mail reaches away
        (State.payloadReady_of_far apart far)).trans (State.storePayload_of_far far))

end Sys2Proof.Machine

/-! Tasks and deques (R267-R272). -/

namespace Sys2Proof.Machine

/-- RSPAWN with its checks in order (R268). -/
theorem State.rspawn_eq (s : State) (c : CtxId) (xa xb : Word) : s.rspawn c xa xb =
    if 1024 ≤ xa.toNat then s.trap c (mkTrap 9 xa)
    else if xb.toNat % 4 ≠ 0 then s.trap c (mkTrap 5 xb)
    else if Machine.canonical (s.ctx c).mode xb = false then s.trap c (mkTrap 8 xb)
    else if (s.core (spawnCore xa)).part.toNat ≠ s.part c then s.trap c (mkTrap 10 xa)
    else s.castReady c (narrowScope c (spawnCore xa * 8)) [xa, xb] fun t =>
      (t.modCtx c fun k => { k with wait := .answer 0 }).soon (.spawnRequestArrival c (spawnCore xa) xb) := by
  have low : zeroBits xa 63 10 = true ↔ xa.toNat < 1024 := zeroBits_top xa (by omega)
  have large : (!zeroBits xa 63 10) = true ↔ 1024 ≤ xa.toNat := by rw [Bool.not_eq_true', ← Bool.not_eq_true, low, not_lt]
  have canon : (!Machine.canonical (s.ctx c).mode xb) = true ↔ Machine.canonical (s.ctx c).mode xb = false := by
    rw [Bool.not_eq_true']
  rw [State.rspawn]
  exact if_congr large rfl (if_congr (extractLsb'_low_eq_zero xb).not rfl (if_congr canon rfl rfl))

/-- R267, R268: RSPAWN. -/
theorem spawnClaims : SpawnClaims := by
  intro a b
  refine ⟨fun s u issues => ?sends,
    acts_of_issue (fun _ => rfl) fun s large => (State.rspawn_eq s _ _ _).trans (if_pos large),
    acts_of_issue (fun _ => rfl) fun s ⟨small, odd⟩ => (State.rspawn_eq s _ _ _).trans ((if_neg (by omega)).trans (if_pos odd)),
    acts_of_issue (fun _ => rfl) fun s ⟨small, aligned, far⟩ => (State.rspawn_eq s _ _ _).trans
      ((if_neg (by omega)).trans ((if_neg (not_not.mpr aligned)).trans (if_pos far))),
    acts_of_issue (fun _ => rfl) fun s ⟨small, aligned, canon, foreign⟩ => (State.rspawn_eq s _ _ _).trans
      ((if_neg (by omega)).trans ((if_neg (not_not.mpr aligned)).trans
        ((if_neg (ne_of_eq_of_ne canon (by decide))).trans (if_pos foreign))))⟩
  case sends =>
    intro s1 core small aligned canon own released
    refine exec_of_issue rfl issues ((State.rspawn_eq _ _ _ _).trans ?_)
    rw [State.issued_ctx_cur, if_neg (by omega), if_neg (not_not.mpr aligned),
      if_neg (ne_of_eq_of_ne canon (by decide)), if_neg (not_not.mpr own)]
    exact State.castReady_of_released released

/-! Deques. -/

/-- The deque of its core is open to a context: it is empty, or belongs to the context's domain (R269). -/
def State.dequeOpen (s : State) (c : CtxId) : Prop :=
  (s.core (coreOf c)).dqEmpty = true ∨ (s.core (coreOf c)).dqOwner = s.did c

@[simp] theorem State.issued_dequeOpen (s : State) (w : BitVec 32) (c : CtxId) : (s.issued w).dequeOpen c ↔ s.dequeOpen c := by
  simp [State.dequeOpen]

/-- The spill ring can take a record (R270). -/
def State.ringRoom (s : State) (c : CtxId) : Prop :=
  let k := s.core (coreOf c)
  (k.pane 63).state = 2 ∧ (k.pane 63).owner = s.did c ∧ (k.ringCnt = 0 → (k.pane 63).held = false) ∧
    k.ringCnt < k.ringSize (physLanes (coreOf c))

/-- Pane 63, while it is ready, is held by a ring that is not empty (R270). -/
theorem Core.ringHeld_of_more {k : Core} (ready : (k.pane 63).state = 2) (more : k.ringCnt ≠ 0) :
    k.ringHeld = k.modPane 63 fun p => { p with held := true } := by
  simp [Core.ringHeld, Core.modPane, ready, more]

theorem Core.spilled_ringHeld (k : Core) (ready : (k.pane 63).state = 2) (nl at_ : Nat) (bs : List Byte) (ts : List Task) :
    ({ k.paneWrite (k.pane 63) nl at_ bs with deque := ts, ringCnt := k.ringCnt + 1 } : Core).ringHeld =
      ({ k.paneWrite (k.pane 63) nl at_ bs with deque := ts, ringCnt := k.ringCnt + 1 } : Core).modPane 63 fun p =>
        { p with held := true } :=
  Core.ringHeld_of_more ready (Nat.succ_ne_zero _)

section
variable {s : State} {c : CtxId}

/-- What stops DQPUSH and DQPOP first is a deque of another domain (R270, R271). -/
theorem State.dequeForeign_iff :
    (!(s.core (coreOf c)).dqEmpty && decide ((s.core (coreOf c)).dqOwner ≠ s.did c)) = true ↔ ¬ s.dequeOpen c := by
  simp [State.dequeOpen]

theorem State.ringFull_iff :
    (((s.core (coreOf c)).pane 63).state ≠ 2 ∨ ((s.core (coreOf c)).pane 63).owner ≠ s.did c ∨
      ((s.core (coreOf c)).ringCnt = 0 ∧ ((s.core (coreOf c)).pane 63).held = true) ∨
      (s.core (coreOf c)).ringSize (physLanes (coreOf c)) ≤ (s.core (coreOf c)).ringCnt) ↔ ¬ s.ringRoom c := by
  simp only [State.ringRoom, not_and_or, Classical.not_imp, not_lt, Bool.not_eq_false, ne_eq]

section
variable {t : Task}

theorem State.dqPush_of_foreign (foreign : ¬ s.dequeOpen c) : s.dqPush c t = s.openTrap c 10 :=
  if_pos (State.dequeForeign_iff.mpr foreign)

variable (mine : s.dequeOpen c)
include mine

theorem State.dqPush_of_short (short : (s.core (coreOf c)).deque.length < 32) : s.dqPush c t =
    (s.setCore (coreOf c) { s.core (coreOf c) with deque := t :: (s.core (coreOf c)).deque, dqOwner := s.did c }).retire c :=
  (if_neg (State.dequeForeign_iff.not.mpr (not_not.mpr mine))).trans (if_pos short)

variable (full : 32 ≤ (s.core (coreOf c)).deque.length)
include full

theorem State.dqPush_of_ringFull (none : ¬ s.ringRoom c) : s.dqPush c t = s.openTrap c 13 :=
  (if_neg (State.dequeForeign_iff.not.mpr (not_not.mpr mine))).trans
    ((if_neg (Nat.not_lt.mpr full)).trans (if_pos (State.ringFull_iff.mpr none)))

/-- DQPUSH on a full deque moves the top record to the ring (R270). -/
theorem State.dqPush_of_ringRoom (room : s.ringRoom c) : s.dqPush c t =
    let k := s.core (coreOf c)
    (s.setCore (coreOf c) (({ k.paneWrite (k.pane 63) (physLanes (coreOf c))
        (64 * ((k.ringOld + k.ringCnt) % k.ringSize (physLanes (coreOf c)))) (k.deque.getLastD t).bytes with
          deque := t :: k.deque.dropLast, ringCnt := k.ringCnt + 1 } : Core).modPane 63 fun p => { p with held := true })).retire
      c := by
  refine (if_neg (State.dequeForeign_iff.not.mpr (not_not.mpr mine))).trans
    ((if_neg (Nat.not_lt.mpr full)).trans ((if_neg (State.ringFull_iff.not.mpr (not_not.mpr room))).trans ?_))
  exact congrArg (fun k => (s.setCore (coreOf c) k).retire c) (Core.spilled_ringHeld _ room.1 _ _ _ _)

end

/-! DQPOP. -/

section
variable {d : BitVec 5} (single : (s.ctx c).red = none) (unlogged : (s.ctx c).log = none)
include single unlogged

theorem Ctx.unforwarded_of_plain : ((s.ctx c).isShadow || (s.ctx c).replays) = false := by
  rw [Ctx.isShadow_of_single single, Ctx.replays, unlogged]
  rfl

theorem State.dqPop_of_foreign (foreign : ¬ s.dequeOpen c) : s.dqPop c d = s.openTrap c 10 := by
  rw [State.dqPop, if_neg (Bool.eq_false_iff.mp (Ctx.unforwarded_of_plain single unlogged))]
  exact if_pos (State.dequeForeign_iff.mpr foreign)

section
variable (mine : s.dequeOpen c)
include mine

/-- DQPOP of a record of its own core (R271). -/
theorem State.dqPop_of_some {e : Task} {k : Core} (popped : (s.core (coreOf c)).popBottom (physLanes (coreOf c)) = some (e, k)) :
    s.dqPop c d = s.finishPop c d (some e) fun t => t.setCore (coreOf c) k := by
  rw [State.dqPop, if_neg (Bool.eq_false_iff.mp (Ctx.unforwarded_of_plain single unlogged)),
    if_neg (State.dequeForeign_iff.not.mpr (not_not.mpr mine)), popped]

/-- DQPOP on an empty deque becomes a thief (R271). -/
theorem State.dqPop_of_none (popped : (s.core (coreOf c)).popBottom (physLanes (coreOf c)) = none) :
    s.dqPop c d = s.stealFrom c d (s.victims c) := by
  rw [State.dqPop, if_neg (Bool.eq_false_iff.mp (Ctx.unforwarded_of_plain single unlogged)),
    if_neg (State.dequeForeign_iff.not.mpr (not_not.mpr mine)), popped]

end

/-- DQPOP takes a record (R271). -/
theorem State.finishPop_of_some (e : Task) (remove : State → State) : s.finishPop c d (some e) remove =
    ((remove s).modCtx c fun k =>
      ((((k.wx 10 e.a0).wx 11 e.a1).wx 12 e.a2).wx 13 e.a3).wx 14 e.join).retireX c d e.pc :=
  State.withLogged_of_plain single unlogged _ _

theorem State.finishPop_of_none (remove : State → State) : s.finishPop c d none remove = s.retireX c d 0 :=
  State.withLogged_of_plain single unlogged _ _

end
end

theorem Core.popBottom_of_empty {k : Core} {nl : Nat} (empty : k.dqEmpty = true) : k.popBottom nl = none := by
  obtain ⟨short, none⟩ : k.deque = [] ∧ k.ringCnt = 0 := by simpa [Core.dqEmpty] using empty
  rw [Core.popBottom, short, none]
  rfl

/-- R269-R272: DQPUSH and DQPOP. -/
theorem dequeClaims : DequeClaims := by
  intro d a b t mine alone ring room takes
  refine ⟨acts_of_issue (fun _ => rfl) fun s ⟨own, short⟩ => State.dqPush_of_short own short,
    acts_of_issue (fun _ => rfl) fun s ⟨own, full, space⟩ => State.dqPush_of_ringRoom own full space,
    openTrapWhen_of_issue (fun _ => rfl) fun s foreign => State.dqPush_of_foreign foreign,
    openTrapWhen_of_issue (fun _ => rfl) fun s ⟨own, full, filled⟩ => State.dqPush_of_ringFull own full filled,
    fun s e r issues ⟨single, unlogged⟩ own bottom => ?bottom,
    fun s issues ⟨single, unlogged⟩ own empty more => ?newest,
    openTrapWhen_of_issue (fun _ => rfl) fun s ⟨⟨single, unlogged⟩, foreign⟩ => ?foreign,
    acts_of_issue (fun _ => rfl) fun s ⟨⟨single, unlogged⟩, empty, nobody⟩ => ?nobody,
    fun s x xs issues ⟨single, unlogged⟩ empty first => ?steals, fun s x victim => ?victims⟩
  case bottom =>
    rw [← State.issued_ctx_cur s (encode (.dqpop d))] at single unlogged
    have popped : ((s.issued (encode (.dqpop d))).core (coreOf s.cur)).popBottom (physLanes (coreOf s.cur)) =
        some (e, { s.coreHere with deque := r }) := by
      rw [State.issued_core, Core.popBottom, ← State.coreHere, bottom]
    exact exec_of_issue rfl issues ((State.dqPop_of_some single unlogged ((State.issued_dequeOpen _ _ _).mpr own) popped).trans
      (State.finishPop_of_some single unlogged e _))
  case newest =>
    intro k
    rw [← State.issued_ctx_cur s (encode (.dqpop d))] at single unlogged
    have popped : ((s.issued (encode (.dqpop d))).core (coreOf s.cur)).popBottom (physLanes (coreOf s.cur)) =
        some (k.ringRecord (physLanes (coreOf s.cur)) ((k.ringOld + k.ringCnt - 1) % ring s),
          ({ k with ringCnt := k.ringCnt - 1 } : Core).ringHeld) := by
      rw [State.issued_core, Core.popBottom, ← State.coreHere, empty, if_neg more]
    exact exec_of_issue rfl issues ((State.dqPop_of_some single unlogged ((State.issued_dequeOpen _ _ _).mpr (.inr own))
      popped).trans (State.finishPop_of_some single unlogged _ _))
  case foreign => exact State.dqPop_of_foreign single unlogged foreign
  case nobody =>
    refine (State.dqPop_of_none single unlogged (.inl empty) (Core.popBottom_of_empty empty)).trans ?_
    rw [nobody]
    exact State.finishPop_of_none (by rwa [State.modCtx_ctx_same]) (by rwa [State.modCtx_ctx_same]) _
  case steals =>
    rw [← State.issued_ctx_cur s (encode (.dqpop d))] at single unlogged
    have none : ((s.issued (encode (.dqpop d))).core (coreOf s.cur)).dqEmpty = true := by rwa [State.issued_core]
    refine exec_of_issue rfl issues ((State.dqPop_of_none single unlogged (.inl none) (Core.popBottom_of_empty none)).trans ?_)
    rw [first]
    rfl
  case victims =>
    have tried := (List.mem_filter.mp victim).2
    simpa [State.stealable, and_assoc] using tried

end Sys2Proof.Machine

/-! Changes of several contexts, one after the other. -/

namespace Sys2Proof.Machine

/-- What a change of a context keeps is kept. -/
theorem State.modCtx_keeps {β : Type} (f : Ctx → β) {g : Ctx → Ctx} (keeps : ∀ k, f (g k) = f k) (s : State) (c q : CtxId) :
    f ((s.modCtx c g).ctx q) = f (s.ctx q) := by
  by_cases same : q = c
  · rw [same, State.modCtx_ctx_same, keeps]
  · rw [State.modCtx_ctx_other _ _ _ _ same]

theorem State.stall_keeps {β : Type} (f : Ctx → β) (keeps : ∀ k b p, f { k with bounded := b, passed := p } = f k) (s : State)
    (c q : CtxId) : f ((s.stall c).ctx q) = f (s.ctx q) :=
  State.modCtx_keeps f (g := fun k => { k with bounded := false, passed := some k.pc }) (fun k => keeps k _ _) s c q

section
variable {α : Type} (place : α → CtxId) (g : α → Ctx → Ctx)

/-- Changes of contexts leave the rest of the state. -/
theorem State.foldl_modCtx_only (l : List α) (s : State) : l.foldl (fun t a => t.modCtx (place a) (g a)) s =
    { s with ctxs := (l.foldl (fun t a => t.modCtx (place a) (g a)) s).ctxs } := by
  induction l generalizing s with
  | nil => rfl
  | cons a l ih => rw [List.foldl_cons, ih]; rfl

theorem State.foldl_modCtx_gangs (l : List α) (s : State) :
    (l.foldl (fun t a => t.modCtx (place a) (g a)) s).gangs = s.gangs := by
  rw [State.foldl_modCtx_only]

/-- What every change keeps of a context is kept. -/
theorem State.foldl_modCtx_keeps {β : Type} (f : Ctx → β) (keeps : ∀ a k, f (g a k) = f k) (l : List α) (s : State)
    (q : CtxId) :
    f ((l.foldl (fun t a => t.modCtx (place a) (g a)) s).ctx q) = f (s.ctx q) := by
  induction l generalizing s with
  | nil => rfl
  | cons a l ih => rw [List.foldl_cons, ih, State.modCtx_keeps f (keeps a)]

/-- What every change brings about holds of each context that is changed. -/
theorem State.foldl_modCtx_brings (P : Ctx → Prop) (brings : ∀ a k, P (g a k)) {l : List α} {q : CtxId}
    (changed : q ∈ l.map place)
    (s : State) : P ((l.foldl (fun t a => t.modCtx (place a) (g a)) s).ctx q) := by
  induction l generalizing s with
  | nil => cases changed
  | cons a l ih =>
    rw [List.foldl_cons]
    by_cases later : q ∈ l.map place
    · exact ih later _
    · rw [State.foldl_modCtx_ctx_other place g fun b hb same => later (by rw [same]; exact List.mem_map_of_mem hb)]
      obtain rfl := (List.mem_cons.mp changed).resolve_right later
      rw [State.modCtx_ctx_same]
      exact brings a _

end

/-! Gangs (R274-R277). -/

/-- An issued word that no context state forbids does what its instruction gives it to do. -/
theorem exec_of_issueIf {i : Instr} {s t : State} {bad : Bool} {go : CtxId → Ctx → State → State}
    (h : exec i s = .next (s.issueIf (encode i) bad go)) (allowed : bad = false) (issues : s.issuesIf (encode i) false = true)
    (act : go s.cur s.here (s.issued (encode i)) = t) : exec i s = .next t := by
  rw [h, allowed, State.issueIf_of_issues _ _ _ _ issues, act]

section
variable {s : State} {c : CtxId} {d : BitVec 5} {n g : Nat}

@[simp] theorem State.issued_pkgNum (s : State) (w : BitVec 32) : (s.issued w).pkgNum = s.pkgNum := by
  rw [State.issued_only]

theorem State.gnew_of_some (some_members : 1 ≤ n) (most : n ≤ 8192)
    (free : (upFrom 1 4095).find? (fun g => (s.gang? g).isNone) = some g) :
    s.gnew c d n = (s.putGang g { st := .forming, size := n, members := [], entries := [], gen := 0 }).retireX c d
      (BitVec.ofNat 64 g) := by
  simp only [State.gnew, if_neg (show ¬(n = 0 ∨ 8192 < n) by omega), free]
  rfl

theorem State.gnew_of_none (unmet : n = 0 ∨ 8192 < n ∨ ∀ g, 1 ≤ g → g ≤ 4095 → s.gang? g ≠ none) :
    s.gnew c d n = s.retireX c d (BitVec.allOnes 64) := by
  have refused : (if n = 0 ∨ 8192 < n then none else (upFrom 1 4095).find? fun g => (s.gang? g).isNone) = none := by
    rcases unmet with zero | large | taken
    · exact if_pos (.inl zero)
    · exact if_pos (.inr large)
    · have all : (upFrom 1 4095).find? (fun g => (s.gang? g).isNone) = none := by
        refine List.find?_eq_none.mpr fun g member free => ?_
        obtain ⟨low, high⟩ := mem_upFrom.mp member
        exact taken g low (by omega) (Option.isNone_iff_eq_none.mp free)
      rw [all, ite_self]
  rw [State.gnew, refused]

/-- GADD of a context that R275 allows. -/
theorem State.gadd_of_fit {xa xb : Word} {e : Gang} {t : CtxId} (named : s.gang? xa.toNat = some e) (forming : e.st = .forming)
    (target : bits xb 12 0 = t) (here : bits xb 18 13 = s.pkgNum) (die : bits xb 12 9 < 12) (part : s.part t = s.part c)
    (domain : ∀ m, e.members.head? = some m → s.did m = s.did t) (slot : slotOf t ≠ 7)
    (present : (s.core (coreOf t)).harv = false) (single : s.isMember t = false) :
    s.gadd c xa xb = (if e.members.length + 1 = e.size then s.activate xa.toNat { e with members := e.members ++ [t] }
      else s.putGang xa.toNat { e with members := e.members ++ [t] }).retire c := by
  have own : ¬(s.part t ≠ s.part c ∨ (e.members.head?.any fun m => decide (s.did m ≠ s.did t)) = true) := by
    cases first : e.members.head? with
    | none => simp [part]
    | some m => simp [part, domain m first]
  have fit : ¬(slotOf t = 7 ∨ (s.core (coreOf t)).harv = true ∨ s.isMember t = true) := by simp [slot, present, single]
  simp only [State.gadd, named, target]
  rw [if_neg (not_not.mpr forming), if_neg (show ¬(_ ∨ _) from not_or.mpr ⟨not_not.mpr here, Nat.not_le.mpr die⟩),
    if_neg own,
    if_neg fit, List.length_append]
  rfl

end

section
variable {s : State} {xa : Word} {e : Gang}

/-- The gang that GSTOP and GRESUME name is in the table, and formed (R276). -/
theorem State.namedGang_spec (named : s.namedGang xa = some e) : s.gang? (bits xa 11 0) = some e ∧ e.st ≠ .forming := by
  unfold State.namedGang at named
  split at named
  · cases named
  · split at named
    · split at named
      · cases named
      · cases named
        exact ⟨‹_›, ‹_›⟩
    · cases named

end

/-- R274, R275: GNEW and GADD. -/
theorem gangClaims : GangClaims := by
  intro d a b
  refine ⟨fun s g mode issues some_members most free => ?news,
    actsUnless_of_issue (bad := fun s => decide (s.here.mode = .u)) (fun _ => rfl) fun s none => ?none,
    fun s e mode issues => ?adds⟩
  case news =>
    refine exec_of_issueIf rfl (decide_eq_false mode) issues (State.gnew_of_some some_members most ?_)
    simpa using free
  case none => exact State.gnew_of_none (by simpa [← BitVec.toNat_inj] using none)
  case adds =>
    intro s1 t named forming here die part domain slot present single
    have target : bits (s.here.rx b) 12 0 = t := bits_low _ 12
    have number : bits (s.here.rx b) 12 9 < 12 := by
      have low : dieOf t = bits (s.here.rx b) 12 9 := by
        rw [bits_eq_div, dieOf]
        omega
      omega
    have added := State.gadd_of_fit (s := s1) (c := s.cur) named forming target
      (here.trans (State.issued_pkgNum s _).symm) number part domain slot present single
    refine ⟨fun more => ?_, fun last => ?_⟩
    · exact exec_of_issueIf rfl (decide_eq_false mode) issues (added.trans (by rw [if_neg (Nat.ne_of_lt more)]))
    · exact exec_of_issueIf rfl (decide_eq_false mode) issues (added.trans (by rw [if_pos last]))

section
variable (s : State) (g : Nat) (e : Gang)

/-- The change of an activated member (R275, R277). -/
def Ctx.enterGang (k : Ctx) (g rank : Nat) : Ctx := { k with gang := g, rank := rank, gbarGen := 0, arrived := false }

/-- An activated gang (R275, R304). -/
def State.activated (s : State) (e : Gang) : Gang :=
  { e with st := .active, gen := 0, entries := e.members.map fun t => { coord := s.coord t, it := false, v := true } }

theorem State.activate_eq : s.activate g e = (e.members.zip (upFrom 0 e.members.length)).foldl
    (fun t p => t.modCtx p.1 fun k => k.enterGang g p.2) (s.putGang g (s.activated e)) := rfl

theorem State.activate_gangs : (s.activate g e).gangs = s.gangs.set g (s.activated e) := by
  exact State.foldl_modCtx_gangs Prod.fst (fun p k => Ctx.enterGang k g p.2) _ _

theorem State.activate_mem : (s.activate g e).mem = s.mem := by
  rw [State.activate_eq, State.foldl_modCtx_only Prod.fst fun p k => Ctx.enterGang k g p.2]
  rfl

theorem map_fst_zip_upFrom (l : List CtxId) : (l.zip (upFrom 0 l.length)).map Prod.fst = l :=
  List.map_fst_zip (by simp [upFrom_eq_range'])

theorem mem_zip_upFrom {l : List CtxId} {r : Nat} (h : r < l.length) : (l[r], r) ∈ l.zip (upFrom 0 l.length) := by
  refine List.mem_iff_getElem.mpr ⟨r, by simpa [upFrom_eq_range'] using h, ?_⟩
  simp [upFrom_eq_range']

end

/-- R275-R277: an activated gang. -/
theorem activateClaims : ActivateClaims := by
  intro s g e once number t
  refine ⟨⟨s.activated e, ?entry, rfl, rfl, rfl, rfl⟩, fun r h => ?member, fun c outside => ?outside, ?mem⟩
  case entry => exact (congrArg (Tbl.find? · g) (State.activate_gangs s g e)).trans (Tbl.find?_set_same _ _ _)
  case member =>
    have changed : t.ctx e.members[r] = (s.ctx e.members[r]).enterGang g r :=
      State.foldl_modCtx_ctx_mem Prod.fst (fun p k => Ctx.enterGang k g p.2) (by rwa [map_fst_zip_upFrom]) (mem_zip_upFrom h) _
    rw [changed]
    exact ⟨rfl, rfl, rfl, rfl, rfl, rfl⟩
  case outside =>
    refine State.foldl_modCtx_ctx_other Prod.fst (fun p k => Ctx.enterGang k g p.2) (fun p member same => outside ?_) _
    rw [same, ← map_fst_zip_upFrom e.members]
    exact List.mem_map_of_mem member
  case mem => exact State.activate_mem s g e

section
variable {s : State} {c : CtxId} {xa : Word} {e : Gang} (named : s.namedGang xa = some e)
include named

/-- GSTOP of a formed gang (R276). -/
theorem State.gstop_of_named : s.gstop c xa = if e.st = .stopped then s.retire c else (s.stopGang (bits xa 11 0)).stall c := by
  rw [State.gstop, named]

/-- GRESUME of a formed gang (R276). -/
theorem State.gresume_of_named : s.gresume c xa =
    if e.st = .stopped then
      if bit xa 63 then (s.freeGang (bits xa 11 0) e).retire c
      else (s.putGang (bits xa 11 0) { e with st := .active }).retire c
    else if bit xa 63 then s.trap c (mkTrap 9 xa)
    else s.retire c := by
  rw [State.gresume, named]
  rfl

end

/-- A gang_stop for gang `g` is pending (R276). -/
def Ctx.stopsFor (g : Nat) (k : Ctx) : Ctx := { k with pendStop := some (BitVec.ofNat 64 g) }

section
variable {s : State} {g : Nat} {e : Gang} (known : s.gang? g = some e)
include known

/-- Only an active gang is stopped (R276). -/
theorem State.stopGang_of_other (other : e.st ≠ .active) : s.stopGang g = s := by
  rw [State.stopGang, known]
  exact if_neg other

/-- A gang that is active has every member stop (R276). -/
theorem State.stopGang_of_active (active : e.st = .active) : s.stopGang g =
    e.members.foldl (fun t c => t.modCtx c (Ctx.stopsFor g)) (s.putGang g { e with st := .stopping }) := by
  rw [State.stopGang, known]
  exact if_pos active

end

/-- R276: an active gang that GSTOP names is stopping, each member has a gang_stop pending, and no PC has moved. -/
theorem State.stall_stopGang {s : State} {g : Nat} {e : Gang} (known : s.gang? g = some e) (active : e.st = .active) (c : CtxId) :
    let t := (s.stopGang g).stall c
    (∃ e', t.gang? g = some e' ∧ e'.st = .stopping ∧ e'.members = e.members) ∧
      (∀ m, m ∈ e.members → (t.ctx m).pendStop = some (BitVec.ofNat 64 g)) ∧ (t.ctx c).pc = (s.ctx c).pc := by
  have stopped := State.stopGang_of_active known active
  refine ⟨⟨{ e with st := .stopping }, ?_, rfl, rfl⟩, fun m member => ?_, ?_⟩
  · rw [State.gang?, State.stall_gangs, stopped]
    exact (congrArg (Tbl.find? · g) (State.foldl_modCtx_gangs id (fun _ => Ctx.stopsFor g) _ _)).trans (Tbl.find?_set_same _ _ _)
  · refine (State.stall_keeps Ctx.pendStop (fun _ _ _ => rfl) _ c m).trans ?_
    rw [stopped]
    exact State.foldl_modCtx_brings id (fun _ => Ctx.stopsFor g) (fun k => k.pendStop = some (BitVec.ofNat 64 g)) (fun _ _ => rfl)
      (by rwa [List.map_id]) _
  · refine (State.stall_keeps Ctx.pc (fun _ _ _ => rfl) _ c c).trans ?_
    rw [stopped]
    exact State.foldl_modCtx_keeps id (fun _ => Ctx.stopsFor g) Ctx.pc (fun _ _ => rfl) e.members _ c

/-- R276, R393: GSTOP and GRESUME. -/
theorem gangStopClaims : GangStopClaims := by
  intro a
  refine ⟨fun s e mode issues named => ?stops, fun s e mode issues named => ?resumes,
    actsUnless_of_issue (bad := fun s => decide (s.here.mode = .u)) (fun _ => rfl) fun s unnamed => ?unnamed,
    actsUnless_of_issue (bad := fun s => decide (s.here.mode = .u)) (fun _ => rfl) fun s unnamed => ?unnamed'⟩
  case stops =>
    obtain ⟨known, -⟩ := State.namedGang_spec named
    refine ⟨fun stopped => exec_of_issueIf rfl (decide_eq_false mode) issues ?_,
      fun stopping => exec_of_issueIf rfl (decide_eq_false mode) issues ?_, fun active => ?_⟩
    · exact (State.gstop_of_named named).trans (if_pos stopped)
    · refine (State.gstop_of_named named).trans ((if_neg (by simp [stopping])).trans ?_)
      rw [State.stopGang_of_other known (by simp [stopping])]
      rfl
    · refine ⟨_, exec_of_issueIf rfl (decide_eq_false mode) issues
        ((State.gstop_of_named named).trans (if_neg (by simp [active]))), ?_⟩
      have stalled := State.stall_stopGang known active s.cur
      rwa [State.issued_ctx_cur] at stalled
  case resumes =>
    refine ⟨fun stopped keep => ?_, fun stopped free => ?_, fun other free => ?_, fun other keep => ?_⟩
    all_goals refine exec_of_issueIf rfl (decide_eq_false mode) issues ((State.gresume_of_named named).trans ?_)
    · exact (if_pos stopped).trans (if_neg (Bool.eq_false_iff.mp keep))
    · exact (if_pos stopped).trans (if_pos free)
    · exact (if_neg other).trans (if_pos free)
    · exact (if_neg other).trans (if_neg (Bool.eq_false_iff.mp keep))
  case unnamed => rw [State.gstop, unnamed]
  case unnamed' => rw [State.gresume, unnamed]

end Sys2Proof.Machine

/-! Barriers and GCAST (R277, R278). -/

namespace Sys2Proof.Machine

section
variable {s u : State} {c : CtxId} {w : BitVec 32} {g : Gang} (turn : s.cur = c)
include turn

theorem State.gbar_of_none (outside : s.gangHere = none) : s.gbar c w = s.illegal c w := by
  rw [State.gbar, State.gangSeen_of_none turn outside]

theorem State.gcast_of_none {xa xb : Word} (outside : s.gangHere = none) : s.gcast c w xa xb = s.illegal c w := by
  rw [State.gcast, State.gangSeen_of_none turn outside]

variable (member : s.gangHere = some g)
include member

/-- GBAR of a member that has not arrived yet (R277). -/
theorem State.gbar_of_fresh (fresh : (s.ctx c).arrived = false) (released : s.Released c [] g.scope u) :
    s.gbar c w = (u.modCtx c fun k => { k.park .gbar with arrived := true }).soon
      (.gbarArrivalSignal (s.ctx c).gang (s.ctx c).rank) := by
  obtain ⟨r, closed, single, performed⟩ := released
  simp [State.gbar, (State.gangSeen_of_some turn member).2, fresh, closed, single, performed]

/-- GBAR of a member that stands in the barrier (R277). -/
theorem State.gbar_of_arrived (arrived : (s.ctx c).arrived = true) :
    s.gbar c w = if (s.ctx c).gbarGen < g.gen then s.passGbar g c else s.modCtx c fun k => k.park .gbar := by
  simp [State.gbar, (State.gangSeen_of_some turn member).2, arrived]

/-- GCAST whose destinations are fit (R278). -/
theorem State.gcast_of_fit {xa xb : Word} (upper : zeroBits xb 63 32 = true)
    (fit : ∀ m, m ∈ g.castMembers c (decide (xa = 0)) → s.castUnfit m (bits xb 5 0) (64 * bits xb 31 6) = false) :
    s.gcast c w xa xb = s.castSource c xa xb (bits xb 5 0) (64 * bits xb 31 6) (fun t => t.castReady c g.scope [xa, xb])
      fun bs t => t.castTo c (bits xb 5 0) (decide (xa = 0)) ((g.castMembers c (decide (xa = 0))).map coreOf).eraseDups bs := by
  have none : ((g.castMembers c (decide (xa = 0))).any fun m => s.castUnfit m (bits xb 5 0) (64 * bits xb 31 6)) = false :=
    List.any_eq_false.mpr fun m hm => Bool.eq_false_iff.mp (fit m hm)
  simp only [State.gcast, (State.gangSeen_of_some turn member).2]
  exact if_neg (by rw [upper, none]; decide)

end

section
variable {s s0 u r : State} {c : CtxId} {xa xb : Word} {p n : Nat} {ready : State → (State → State) → State}
  {go : List Byte → State → State}

/-- GCAST from the issuer's own pane (R278). -/
theorem State.castSource_of_pane (own : xa = 0) (full : ((s.core (coreOf c)).pane p).state = 2)
    (fits : n ≤ ((s.core (coreOf c)).pane p).size * physLanes (coreOf c)) :
    s.castSource c xa xb p n ready go = ready s fun t =>
      go ((t.core (coreOf c)).paneRead ((s.core (coreOf c)).pane p) (physLanes (coreOf c)) 0 n) t := by
  simp [State.castSource, own, full, fits]

/-- GCAST from a sealed buffer whose lines are read (R278). -/
theorem State.castSource_of_buffer {as : List Access} (away : xa ≠ 0)
    (walk : s.walkReady (s.agent c) ((upFrom 0 (n / 64)).map fun i => xa + BitVec.ofNat 64 (64 * i)) 64 = some s0)
    (lines : s.castLines c xa n = .ok as) (go_on : ∀ f : State → State, ready s0 f = f u)
    (read : u.readLines (dieOf c) (accLines as) = some r) :
    s.castSource c xa xb p n ready go = go (as.flatMap fun x => r.view c (dieOf c) x.pa 64) (r.takeReads c as 64) := by
  rw [State.castSource, if_neg away]
  simp only [walk, lines, go_on, read]

end

/-- The members whose panes a GCAST writes, by its operand (R278). -/
theorem Gang.castMembers_eq (g : Gang) (c : CtxId) (xa : Word) : g.castMembers c (decide (xa = 0)) =
    g.members.filter fun m => decide (xa ≠ 0) || decide (coreOf m ≠ coreOf c) := by
  simp only [Gang.castMembers, ne_eq, decide_not]

/-- A pane that R278 finds fit. -/
theorem State.castUnfit_of_fit {s : State} {m : CtxId} {p n : Nat} (ready : ((s.core (coreOf m)).pane p).state = 2)
    (unheld : ((s.core (coreOf m)).pane p).held = false) (mine : ((s.core (coreOf m)).pane p).owner = s.did m)
    (large : n ≤ ((s.core (coreOf m)).pane p).size * physLanes (coreOf m)) : s.castUnfit m p n = false := by
  simp [State.castUnfit, ready, unheld, mine, large]

/-- The bytes of a GCAST are under way to pane `p` of the cores `ds` (R278). -/
def State.castSent (t : State) (c : CtxId) (p : Nat) (ds : List CoreId) (bs : List Byte) : State :=
  let u := ds.foldl (fun t m =>
    (t.modCore m fun q => (q.paneWrite (q.pane p) (physLanes m) 0 bs).modPane p fun z =>
      { z with state := 1, held := true }).soon (.gcastCopyLanded m p)) t
  if ds = [] then u.castDone c else u.modCtx c fun k => { k with wait := .answer 0, casts := ds.map fun m => (m, p) }

theorem State.castTo_of_buffer (s : State) (c : CtxId) (p : Nat) (ds : List CoreId) (bs : List Byte) :
    s.castTo c p false ds bs = s.castSent c p ds bs :=
  if_congr List.isEmpty_iff rfl rfl

theorem State.castTo_of_pane (s : State) (c : CtxId) (p : Nat) (ds : List CoreId) (bs : List Byte) :
    s.castTo c p true ds bs = ((s.modCore (coreOf c) fun k => k.modPane p fun z => { z with state := 3, held := true }).modCtx c
      fun k => { k with castSrc := some p }).castSent c p ds bs :=
  if_congr List.isEmpty_iff rfl rfl

/-- R277, R278: GBAR and GCAST. -/
theorem barrierClaims : BarrierClaims := by
  refine ⟨fun s u g issues member fresh released => ?arrives,
    acts_of_issue (fun _ => rfl) fun s outside => State.gbar_of_none rfl outside,
    fun s g issues member past arrived => ?passes,
    acts_of_issue (fun _ => rfl) fun s ⟨⟨g, member, waits⟩, arrived⟩ =>
      (State.gbar_of_arrived rfl member arrived).trans (if_neg (Nat.not_lt.mpr waits)),
    fun a b s u g issues => ?casts, fun a b => acts_of_issue (fun _ => rfl) fun s outside => State.gcast_of_none rfl outside⟩
  case arrives =>
    rw [← State.issued_ctx_cur s (encode .gbar)] at fresh ⊢
    exact exec_of_issue rfl issues (State.gbar_of_fresh (by simp) (by simpa using member) fresh released)
  case passes =>
    rw [← State.issued_ctx_cur s (encode .gbar)] at past arrived
    exact exec_of_issue rfl issues ((State.gbar_of_arrived (by simp) (by simpa using member) arrived).trans (if_pos past))
  case casts =>
    intro s1 c p n vas ms ds sent member upper fit
    have members : g.castMembers c (decide (s.here.rx a = 0)) = ms := Gang.castMembers_eq g c _
    have cast : s1.gcast c (encode (.gcast a b)) (s.here.rx a) (s.here.rx b) =
        s1.castSource c (s.here.rx a) (s.here.rx b) p n (fun t => t.castReady c g.scope [s.here.rx a, s.here.rx b])
          fun bs t => t.castTo c p (decide (s.here.rx a = 0)) ds bs := by
      rw [State.gcast_of_fit (State.issued_cur s _) (by simpa using member) upper, members]
      intro m hm
      rw [members] at hm
      obtain ⟨full, unheld, mine, large⟩ := fit m hm
      exact State.castUnfit_of_fit full unheld mine large
    refine ⟨fun own full large released => ?pane, fun s0 as r away walk lines released read => ?buffer⟩
    case pane =>
      have here : s1.coreHere = s1.core (coreOf c) := congrArg (fun z => s1.core (coreOf z)) (State.issued_cur s _)
      rw [here] at full large ⊢
      refine exec_of_issue rfl issues (cast.trans ((State.castSource_of_pane own full large).trans ?_))
      rw [State.castReady_of_released released, decide_eq_true own]
      exact State.castTo_of_pane _ _ _ _ _
    case buffer =>
      refine exec_of_issue rfl issues (cast.trans ((State.castSource_of_buffer away walk lines
        (fun f => State.castReady_of_released released) read).trans ?_))
      rw [decide_eq_false away]
      exact State.castTo_of_buffer _ _ _ _ _

end Sys2Proof.Machine

/-! The agent of a context after it has read a block. -/

namespace Sys2Proof.Machine

/-- An agent is read off its context and its core's partition. -/
theorem State.agent_of_kept {s t : State} (kept : s.CtxKept t) (parts : s.PartKept t) (c : CtxId) : t.agent c = s.agent c := by
  have field {α : Type} (get : Ctx → α) : get (t.ctx c) = get ((s.ctx c).accessOf (t.ctx c)) := congrArg get (kept c)
  have mode : (t.ctx c).mode = (s.ctx c).mode := field Ctx.mode
  have did : (t.ctx c).did = (s.ctx c).did := field Ctx.did
  have sptb : (t.ctx c).sptb = (s.ctx c).sptb := field Ctx.sptb
  have hptb : (t.ctx c).hptb = (s.ctx c).hptb := field Ctx.hptb
  simp only [State.agent, State.did, mode, did, sptb, hptb, parts (coreOf c)]

theorem State.takeRead_partKept (s : State) (c : CtxId) (scalar acquire : Bool) (addr n : Nat) :
    s.PartKept (s.takeRead c scalar acquire addr n) :=
  (State.PartKept.of_cores (by rw [State.noteRead_only])).trans (State.portUse_partKept _ _ _ _ _ _)

theorem State.ReadsBlock.agent {s u : State} {c : CtxId} {va : Word} {n : Nat} {bs : List Byte} (h : s.ReadsBlock c va n bs u) :
    u.agent c = s.agent c := by
  obtain ⟨s0, x, s1, walk, check, hbm, lines, rfl, rfl⟩ := h
  have cached : s0.CtxKept (s0.fillTlb (s.agent c) va x.xl) ∧ s0.PartKept (s0.fillTlb (s.agent c) va x.xl) :=
    ⟨State.CtxKept.of_ctxs (by rw [State.fillTlb_only]), State.PartKept.of_cores (by rw [State.fillTlb_only])⟩
  have leased : (s0.fillTlb (s.agent c) va x.xl).CtxKept s1 ∧ (s0.fillTlb (s.agent c) va x.xl).PartKept s1 :=
    ⟨State.CtxKept.of_ctxs (by rw [State.readLines_only lines]), State.PartKept.of_cores (by rw [State.readLines_only lines])⟩
  exact (State.agent_of_kept ((cached.1.trans leased.1).trans (State.takeRead_kept _ _ _ _ _ _))
    ((cached.2.trans leased.2).trans (State.takeRead_partKept _ _ _ _ _ _)) c).trans (State.walkReady_agent walk c)

end Sys2Proof.Machine

/-! Sealed buffers (R264-R266). -/

namespace Sys2Proof.Machine

section
variable {s s0 s1 s2 u v w : State} {c : CtxId} {xa : Word} {bs : List Byte} {x : Access} {i : Nat}

/-- SEAL of a range that R264 allows, with every earlier write to it at home. -/
theorem State.sealBuffer_of_home (reads : s.ReadsBlock c xa 16 bs s1) (aligned : (blockWord bs 0).toNat % 64 = 0)
    (lines : (blockWord bs 1).toNat % 64 = 0) (some_bytes : (blockWord bs 1).toNat ≠ 0)
    (walk : s1.walkReady (s1.agent c) [blockWord bs 0] 1 = some s2)
    (check : s2.checkAccess (s1.agent c) .store (blockWord bs 0) 1 = .ok x)
    (range : s2.sealRange (blockWord bs 0) x (blockWord bs 1).toNat = true)
    (apart : (s2.die (s2.homeKey x.pa)).sealMeets x.pa (blockWord bs 1).toNat = false)
    (slot : (s2.die (s2.homeKey x.pa)).sealSlot = some i)
    (closed : (s2.fillTlb (s1.agent c) (blockWord bs 0) x.xl).closeInterval c [blockWord bs 0, blockWord bs 1] = (u, true))
    (own : (u.ctx c).isShadow = false) (performed : u.release c 4 .access = (v, true))
    (home : v.rangeHome x.pa (blockWord bs 1).toNat = (w, true)) :
    s.sealBuffer c xa = (w.modDie (s2.homeKey x.pa) fun d => { d with
      seals := d.seals.set i { base := x.pa, len := (blockWord bs 1).toNat, did := s.did c, draining := false,
                               holders := [] } }).retire c := by
  have plan : s2.sealPlan (blockWord bs 0) x (blockWord bs 1).toNat = .ok (s2.homeKey x.pa, i) := by
    simp [State.sealPlan, range, apart, slot]
  have mine : (s1.agent c).did = s.did c := congrArg Agent.did reads.agent
  simp [State.sealBuffer, State.withBlock_of_reads _ reads, aligned, lines, some_bytes, walk, check, plan, closed, own, performed,
    home, mine]

section
variable (walk : s.walkReady (s.agent c) [xa] 1 = some s0)
include walk

/-- UNSEAL and RELB find their buffer once its walk has read its tables (R266). -/
theorem State.withSeal_of_named {go : State → Option (Nat × Nat × Seal) → State} {e : Option (Nat × Nat × Seal)}
    (named : s0.sealNamed c xa = .ok e) : s.withSeal c xa go = go s0 e := by
  simp only [State.withSeal, walk, named]

variable {home : Nat} {e : Seal} (named : s0.sealNamed c xa = .ok (some (home, i, e)))
  (closed : s0.closeInterval c [xa] = (u, true)) (own : (u.ctx c).isShadow = false)
include named closed own

/-- UNSEAL of a buffer (R266). -/
theorem State.unsealBuffer_of_named : s.unsealBuffer c xa =
    if e.holders.isEmpty then ((u.modCtx c fun k => { k with sealWait := none }).freeSeal home i).retire c
    else ((u.modDie home fun d => { d with seals := d.seals.set i { e with draining := true } }).modCtx c fun k =>
      { k with sealWait := some (home, i) }).stall c := by
  rw [State.unsealBuffer, State.withSeal_of_named walk named]
  simp [closed, own]

end
end

/-- R264-R266: SEAL, UNSEAL and RELB. -/
theorem sealClaims : SealClaims := by
  intro a
  refine ⟨fun s s1 s2 u v w bs x i issues => ?seals, fun s s0 u home i e issues walk named closed own => ?unseals,
    fun s s0 home i e issues walk named => ?gives, fun s s0 issues walk named => ?unnamed,
    fun s s0 issues walk named => ?unsealed⟩
  case seals =>
    intro s0 base n home reads aligned lines some_bytes walk check range apart slot closed own performed atHome
    refine exec_of_issue rfl issues ((State.sealBuffer_of_home reads aligned lines some_bytes walk check range apart slot closed
      own performed atHome).trans ?_)
    rw [State.issued_did]
  case unseals =>
    rw [← State.issued_agent s (encode (.unseal a))] at walk
    refine ⟨fun free => exec_of_issue rfl issues ((State.unsealBuffer_of_named walk named closed own).trans ?_),
      fun held => exec_of_issue rfl issues ((State.unsealBuffer_of_named walk named closed own).trans ?_)⟩
    · rw [free]
      rfl
    · rw [if_neg (by simpa using held), State.stall, State.modCtx_modCtx]
  case gives =>
    rw [← State.issued_agent s (encode (.relb a))] at walk
    exact exec_of_issue rfl issues (State.withSeal_of_named walk named)
  case unnamed =>
    rw [← State.issued_agent s (encode (.relb a))] at walk
    exact exec_of_issue rfl issues (State.withSeal_of_named walk named)
  case unsealed =>
    rw [← State.issued_agent s (encode (.unseal a))] at walk
    exact exec_of_issue rfl issues (State.withSeal_of_named walk named)

end Sys2Proof.Machine

/-! Jobs of the Levanter engines (R257-R263, R426). -/

namespace Sys2Proof.Machine

section
variable {s s0 u v r : State} {c : CtxId} {xa : Word} {x : Access} {d : BitVec 5} {kind : JobKind} {sc : BitVec 3}
  {acq rel : Bool}

/-- A command in the world of its cluster's engine goes on (R426). -/
theorem State.inLevanterWorld_of_agrees {go : State} (turn : s.cur = c) (agrees : s.levAgrees) : s.inLevanterWorld c go = go := by
  subst turn
  have same : decide ((s.ctx s.cur).mode = .m) = (s.die (dieOf s.cur)).levW.getLsbD (clusterOf (coreOf s.cur)) :=
    Bool.eq_iff_iff.mpr (decide_eq_true_iff.trans agrees)
  simp [State.inLevanterWorld, same]

/-- A command in the other world traps, with a trap value that the spec leaves open (R426). -/
theorem State.inLevanterWorld_of_differs {go : State} (turn : s.cur = c) (differs : ¬ s.levAgrees) :
    s.inLevanterWorld c go = s.openTrap c 9 := by
  subst turn
  have other : decide ((s.ctx s.cur).mode = .m) ≠ (s.die (dieOf s.cur)).levW.getLsbD (clusterOf (coreOf s.cur)) := fun same =>
    differs (decide_eq_true_iff.symm.trans (Bool.eq_iff_iff.mp same))
  simp [State.inLevanterWorld, other]

/-- An LX instruction whose record passes its check and whose release is performed comes to its queue (R257, R261). -/
theorem State.levanter_of_ready (turn : s.cur = c) (agrees : s.levAgrees) (walk : s.walkReady (s.agent c) [xa] 64 = some s0)
    (check : s0.recordCheck (s.agent c) xa = .ok x) (closed : s0.closeInterval c [xa] = (u, true))
    (own : (u.ctx c).isShadow = false)
    (performed : (if acq then u.release c ((u.ctx c).effScope sc.toNat) .access else (u, true)) = (v, true)) :
    s.levanter c kind d xa sc acq rel = v.queueJob c kind d xa x sc acq rel := by
  simp only [State.levanter, State.inLevanterWorld_of_agrees turn agrees, walk, check, closed, own, performed]
  rfl

/-- The places of a job in its queue (R259, R427, R432). -/
def State.queueFull (v : State) (c : CtxId) : Prop :=
  let q := (v.die (dieOf c)).queue (clusterOf (coreOf c))
  let core := q.filter fun j => decide (coreOf j.ctx = coreOf c)
  let mine := core.filter fun j => decide (j.did = (v.agent c).did)
  Config.jobQueueDepth ≤ q.length ∨ corePlaces ≤ core.length ∨ v.levanterPlaces c ≤ mine.length

theorem State.queueJob_of_full (full : v.queueFull c) : v.queueJob c kind d xa x sc acq rel = v.stall c := if_pos full

/-- A job takes its place (R259). -/
theorem State.queueJob_of_room {bs : List Byte} (room : ¬ v.queueFull c) (reads : v.ReadsBlock c xa 64 bs r) :
    v.queueJob c kind d xa x sc acq rel =
      (((r.setQueue (dieOf c) (clusterOf (coreOf c)) ((v.die (dieOf c)).queue (clusterOf (coreOf c)) ++
        [r.jobOf kind (jobId c (v.ctx c)) (v.agent c) x acq rel sc bs])).soon
          (.jobSchedule (dieOf c) (clusterOf (coreOf c)))).modCtx c Ctx.countJob).retireX c d (jobId c (v.ctx c)) :=
  (if_neg room).trans (State.withBlock_of_reads _ reads)

end

/-- R257-R259: an instruction that queues a job. -/
theorem issuesJob_of_levanter {i : Instr} {kind : JobKind} {d a : BitVec 5} {sc : BitVec 3} {acq rel : BitVec 1}
    (h : ∀ s, exec i s = .next (s.issue (encode i) fun c k s =>
      s.levanter c kind d (k.rx a) sc (decide (acq = 1)) (decide (rel = 1)))) : IssuesJob i kind d a sc acq rel := by
  intro s s0 u v x issues s1 c die cl agrees walk check closed own performed none q core mine
  have released : (if decide (acq = 1) then u.release c ((u.ctx c).effScope sc.toNat) .access else (u, true)) = (v, true) := by
    by_cases set : acq = 1
    · rw [decide_eq_true set, if_pos rfl, performed set]
    · rw [decide_eq_false set, none (by bv_omega)]
      rfl
  have front := State.levanter_of_ready (kind := kind) (d := d) (rel := decide (rel = 1)) (State.issued_cur s _) agrees walk check
    closed own released
  refine ⟨fun r bs short few fewer reads => exec_of_issue (h s) issues (front.trans ?_),
    fun full => exec_of_issue (h s) issues (front.trans (State.queueJob_of_full full))⟩
  have room : ¬ v.queueFull c := fun full => by
    rcases full with deep | many | most
    · exact absurd deep (Nat.not_le.mpr short)
    · exact absurd many (Nat.not_le.mpr few)
    · exact absurd most (Nat.not_le.mpr fewer)
  exact State.queueJob_of_room room reads

/-- R257-R259: LXCOPY, LXGATH, LXSCAT and LXPOLL. -/
theorem jobClaims : JobClaims := by
  intro d a sc q e
  refine ⟨issuesJob_of_levanter fun _ => rfl, issuesJob_of_levanter fun _ => rfl, issuesJob_of_levanter fun _ => rfl,
    acts_of_issue (fun _ => rfl) fun s ⟨agrees, single, unlogged⟩ => ?polls, fun i member => ?other⟩
  case polls =>
    exact (State.inLevanterWorld_of_agrees rfl agrees).trans (State.withLogged_plain s _ _ _ _ single unlogged)
  case other =>
    simp only [List.mem_cons, List.not_mem_nil, or_false] at member
    obtain rfl | rfl | rfl | rfl := member
    all_goals exact openTrapWhen_of_issue (fun _ => rfl) fun s differs => State.inLevanterWorld_of_differs rfl differs

end Sys2Proof.Machine

/-! The start of a job (R258, R260, R441). -/

namespace Sys2Proof.Machine

/-- An event whose step is known answers it. -/
theorem happens_of {i : Instr} {pre : State → Prop} {act step : State → State} (h : ∀ s, exec i s = .next (step s))
    (runs : ∀ s, pre s → step s = act s) : Happens i pre act := fun s hp => (h s).trans (congrArg _ (runs s hp))

section
variable {s u v : State} {die cl : Nat} {j : Job} {rs : List (Nat × Nat)} {again : Instr} {go : State → State}

theorem State.withRanges_of_waiting (waits : s.jobArrived j rs = false) :
    s.withRanges die cl j rs again go = s.fetchHost die cl j rs again := by
  simp [State.withRanges, waits]

theorem State.withRanges_of_missing (arrived : s.jobArrived j rs = true) (missing : s.readLines die (s.hbmLines rs) = none) :
    s.withRanges die cl j rs again go = (s.holdMisses die (s.hbmLines rs)).after 8 again := by
  simp [State.withRanges, arrived, missing]

theorem State.withRanges_of_read (arrived : s.jobArrived j rs = true) (lines : s.readLines die (s.hbmLines rs) = some u) :
    s.withRanges die cl j rs again go = go u := by
  simp [State.withRanges, arrived, lines]

theorem State.startRun_of_plain (unmarked : ¬(j.kind = .gather ∧ j.dup ≠ 0)) :
    s.startRun die cl j = ((s.jobPanes die cl j).setJob die cl { j with st := .running, due := none, before := [] }).after 32
      (.jobBlockEnd die cl) := by
  rw [State.startRun, if_neg unmarked]

/-- A job that reads no earlier index starts at once (R260). -/
theorem State.startJob_of_plain (plain : j.kind ≠ .gather ∨ j.dup = 0) :
    s.startJob die cl j = ((s.jobPanes die cl j).setJob die cl { j with
      st := .running, due := none, before := [], ticket := s.lastTicket (coreOf j.ctx) j.did,
      seen := j.seen.eraseDups }).after 32 (.jobBlockEnd die cl) := by
  have unmarked : ¬(j.kind = .gather ∧ j.dup ≠ 0) := fun ⟨gather, mask⟩ => plain.elim (· gather) mask
  have none : s.engineRanges (j.agent die) j.earlierAccs = [] := by
    rw [Job.earlierAccs, if_neg unmarked]
    rfl
  rw [State.startJob, none, State.withRanges_of_read (u := s) rfl rfl]
  refine (State.startRun_of_plain (j := j.tookLines s (s.lastTicket (coreOf j.ctx) j.did) []) unmarked).trans ?_
  simp only [Job.tookLines, List.flatMap_nil, List.append_nil]
  rfl

/-- The earlier indices of a job do not depend on its place at the port. -/
theorem JobAcc.earlier_tookLines (z : JobAcc) (ag : Agent) (t : Ticket) (ls : List Nat) (n : Nat) :
    z.earlier ag (j.tookLines u t ls) n = z.earlier ag j n := by
  induction n with
  | zero => rfl
  | succ n ih => rw [JobAcc.earlier, ih]; rfl

section
variable (gather : j.kind = .gather) (mask : j.dup ≠ 0)
include gather mask

theorem Job.earlierAccs_of_mask :
    j.earlierAccs = (upFrom 0 j.prog).map fun i => (.load, j.idx + BitVec.ofNat 64 (4 * i), 4) := if_pos ⟨gather, mask⟩

/-- A gather with a duplicate mask starts with its earlier indices (R258). -/
theorem State.startRun_of_mask {t : Ticket} {ls : List Nat} {l : List Nat}
    (indices : ({ st := v, ws := [] } : JobAcc).earlier (j.agent die) j j.prog = .ok l) :
    v.startRun die cl (j.tookLines u t ls) = ((v.jobPanes die cl j).setJob die cl
      { j.tookLines u t ls with st := .running, due := none, before := l }).after 32 (.jobBlockEnd die cl) := by
  have marked : (j.tookLines u t ls).kind = .gather ∧ (j.tookLines u t ls).dup ≠ 0 := ⟨gather, mask⟩
  have read : ({ st := v, ws := [] } : JobAcc).earlier ((j.tookLines u t ls).agent die) (j.tookLines u t ls)
      (j.tookLines u t ls).prog = .ok l := (JobAcc.earlier_tookLines _ _ _ _ _).trans indices
  rw [State.startRun, if_pos marked]
  simp only [read]
  rfl

end

/-- What an idle engine does (R441): nothing runs in its queue, and its cluster is there. -/
theorem exec_jobSchedule_of_idle (idle : ((s.die die).queue cl).any Job.runs = false)
    (present : (s.die die).levHarv.getLsbD cl = false) : exec (.jobSchedule die cl) s = .next (match s.choose die cl with
      | none => s
      | some j =>
        if j.st = .suspended then s.startJob die cl j
        else match s.jobInvalid die cl j with
          | some x => ((s.setJob die cl { j with ended := some (x + 1, j.prog) }).after 0 (.jobFaultEnd die cl)).after 0
              (.jobSchedule die cl)
          | none => s.startJob die cl j) :=
  congrArg Host.Outcome.next (if_neg (by simp [idle, present]))

end

/-- R260, R441: an engine chooses a job and starts it. -/
theorem jobStartClaims : JobStartClaims := by
  intro die cl
  refine ⟨happens_of (fun _ => rfl) fun s busy => if_pos (by simpa using busy),
    ⟨fun s ⟨⟨idle, present⟩, nobody⟩ => (exec_jobSchedule_of_idle idle present).trans ?nobody,
      fun s j ⟨idle, present⟩ chosen => ?chosen⟩, fun s j => ?starts⟩
  case nobody => rw [nobody]
  case chosen =>
    have act := exec_jobSchedule_of_idle idle present
    simp only [chosen] at act
    refine ⟨fun suspended => act.trans ?_, fun waiting valid => act.trans ?_, fun x waiting invalid => act.trans ?_⟩
    · rw [if_pos suspended]
    · rw [if_neg (by simp [waiting]), valid]
    · rw [if_neg (by simp [waiting]), invalid]
  case starts =>
    refine ⟨fun plain => State.startJob_of_plain plain, fun gather mask => ?_⟩
    intro rs
    have start : s.startJob die cl j = s.withRanges die cl j rs (.jobSchedule die cl) fun s1 =>
        (s1.enginePorts j (s1.hbmLines rs) []).1.startRun die cl
          (j.tookLines s1 (s1.enginePorts j (s1.hbmLines rs) []).2 (s1.hbmLines rs)) := by
      rw [State.startJob, Job.earlierAccs_of_mask gather mask]
    refine ⟨fun waits => start.trans (State.withRanges_of_waiting waits),
      fun arrived missing => start.trans (State.withRanges_of_missing arrived missing),
      fun u v t l arrived lines port indices => start.trans ((State.withRanges_of_read arrived lines).trans ?_)⟩
    rw [port]
    exact State.startRun_of_mask gather mask indices

end Sys2Proof.Machine

/-! The blocks of a job (R260, R337, R340-R342, R441, R476). -/

namespace Sys2Proof.Machine

section
variable {s : State} {die cl : Nat} {j : Job}

section
variable (running : ((s.die die).queue cl).find? Job.runs = some j)
include running

/-- A running job waits for the port of its core (R342). -/
theorem exec_jobBlockEnd_of_unserved (unserved : s.portServed (coreOf j.ctx) j.ticket = false) :
    exec (.jobBlockEnd die cl) s = .next (s.after 1 (.jobBlockEnd die cl)) := by
  show Host.Outcome.next _ = _
  rw [running]
  simp only [unserved, Bool.not_false, if_true]

/-- A running job whose accesses the port has served does its block, once what it reads is there (R260). -/
theorem exec_jobBlockEnd_of_served {rs : List (Nat × Nat)} (served : s.portServed (coreOf j.ctx) j.ticket = true)
    (ranges : s.engineRanges (j.agent die)
      (JobAcc.run { st := s, ws := [] } (j.agent die) cl j j.blockLeft).1.as.reverse = rs) :
    exec (.jobBlockEnd die cl) s = .next (s.withRanges die cl j rs (.jobBlockEnd die cl) fun t =>
      let z := JobAcc.run { st := t, ws := [] } (j.agent die) cl j j.blockLeft
      let p := (z.1.as.reverse.foldl (fun w a => w.cacheEngine (j.agent die) a.2.1) (z.1.commit (j.agent die))).enginePorts j
        (t.hbmLines rs) (z.1.ws.map fun e => lineOf e.1).eraseDups
      p.1.blockDone die cl (z.2.1.tookLines t p.2 (t.hbmLines rs)) z.2.2) := by
  subst ranges
  show Host.Outcome.next _ = _
  rw [running]
  simp only [served, Bool.not_true, Bool.false_eq_true, if_false]

end

/-- A block that is done counts in its round (R441). -/
theorem State.countBlock_blocks (s : State) : ((s.countBlock die cl j).die die).blocks.find? (coreOf j.ctx * 128 + j.did.toNat) =
    some ((s.die die).blocks.getD (coreOf j.ctx * 128 + j.did.toNat) 0 + 1) := by
  rw [State.countBlock, State.modDie_die_same]
  exact Tbl.find?_set_same _ _ _

end

/-- R260, R337, R340, R342, R441, R476: a job reaches its block boundaries. -/
theorem jobBlockClaims : JobBlockClaims := by
  intro die cl
  refine ⟨fun s idle => ?idle, fun s j running => ?running, fun s j => ?done⟩
  case idle =>
    have none : ((s.die die).queue cl).find? Job.runs = none :=
      List.find?_eq_none.mpr fun j hj => Bool.eq_false_iff.mp (by simpa using List.any_eq_false.mp idle j hj)
    show Host.Outcome.next _ = _
    rw [none]
  case running =>
    intro ag rs
    have act served := exec_jobBlockEnd_of_served (rs := rs) running served rfl
    refine ⟨exec_jobBlockEnd_of_unserved running, fun served waits => (act served).trans ?_,
      fun served arrived missing => (act served).trans ?_, fun u v z k stop t served arrived lines block port =>
        (act served).trans ?_⟩
    · rw [State.withRanges_of_waiting waits]
    · rw [State.withRanges_of_missing arrived missing]
    · rw [State.withRanges_of_read arrived lines]
      have ran : JobAcc.run { st := u, ws := [] } (j.agent die) cl j j.blockLeft = (z, k, stop) := block
      have used : (z.as.reverse.foldl (fun w a => w.cacheEngine (j.agent die) a.2.1) (z.commit (j.agent die))).enginePorts j
        (u.hbmLines rs) (z.ws.map fun e => lineOf e.1).eraseDups = (v, t) := port
      simp only [ran, used]
  case done =>
    intro counted
    refine ⟨rfl, fun x cause => ?_, fun last => ?_, fun more spent => ?_, fun more left => ?_, State.countBlock_blocks s⟩
    · have other : some x ≠ some linkWait := fun same => cause (Option.some.inj same)
      simp only [State.blockDone, if_neg other, if_neg cause, counted]
    · simp only [State.blockDone, reduceCtorEq, if_false, if_pos last, counted]
    · simp only [State.blockDone, reduceCtorEq, if_false, if_neg (Nat.not_le.mpr more), if_pos spent, counted]
    · simp only [State.blockDone, reduceCtorEq, if_false, if_neg (Nat.not_le.mpr more),
        if_neg (Bool.eq_false_iff.mp left), counted]

end Sys2Proof.Machine

/-! The end of a job (R260-R262), the rounds of an engine (R441), drained buffers (R266) and prefetches (R255). -/

namespace Sys2Proof.Machine

/-- The entries whose keys a filter lets through. -/
theorem Tbl.find?_filter_key {α : Type} (p : Nat → Bool) (t : Tbl α) (n : Nat) :
    Tbl.find? (t.filter fun e => p e.1) n = if p n then Tbl.find? t n else none := by
  induction t with
  | nil => simp [Tbl.find?]
  | cons e t ih =>
    obtain ⟨k, v⟩ := e
    by_cases kept : p k = true
    · rw [List.filter_cons_of_pos (p := fun e : Nat × α => p e.1) kept, Tbl.find?, Tbl.find?, ih]
      by_cases same : k = n
      · simp [same ▸ kept, same]
      · simp [same]
    · rw [List.filter_cons_of_neg (p := fun e : Nat × α => p e.1) kept, ih, Tbl.find?]
      by_cases same : k = n
      · simp [same ▸ kept]
      · simp [same]

section
variable {s u v : State} {die cl : Nat} {j : Job} {stat prog : Nat}

/-- The ended jobs of a cluster (R260). -/
theorem State.mem_endedJobs {picks : Nat → Bool} : (j, stat, prog) ∈ s.endedJobs die cl picks ↔
    j ∈ (s.die die).queue cl ∧ j.ended = some (stat, prog) ∧ picks stat = true := by
  simp only [State.endedJobs, List.mem_filterMap]
  refine ⟨fun ⟨k, queued, picked⟩ => ?_, fun ⟨queued, ended, picked⟩ => ⟨j, queued, by simp [ended, picked]⟩⟩
  cases ended : k.ended with
  | none => simp [ended] at picked
  | some z =>
    by_cases chosen : picks z.1 = true
    · simp only [ended, chosen, if_true, Option.some.injEq, Prod.mk.injEq] at picked
      obtain ⟨rfl, rfl, rfl⟩ := picked
      exact ⟨queued, ended, chosen⟩
    · simp [ended, chosen] at picked

theorem State.endedJobs_of_none {picks : Nat → Bool}
    (none : ∀ k, k ∈ (s.die die).queue cl → ∀ z, k.ended = some z → picks z.1 = false) :
    s.endedJobs die cl picks = [] := by
  refine List.eq_nil_iff_forall_not_mem.mpr fun ⟨k, stat, prog⟩ member => ?_
  obtain ⟨queued, ended, picked⟩ := State.mem_endedJobs.mp member
  exact Bool.false_ne_true ((none k queued _ ended).symm.trans picked)

theorem State.endJobs_of_none {picks : Nat → Bool} {again : Instr} (none : s.endedJobs die cl picks = []) :
    s.endJobs die cl picks again = s := by
  rw [State.endJobs, none]
  exact if_pos (by rw [List.foldl_nil, none]; rfl)

theorem State.endJob_of_waiting (ended : s.recordEnd die cl j stat prog = (u, false)) : s.endJob die cl j stat prog = u := by
  simp [State.endJob, ended]

/-- A job whose record is written sends its message, and leaves (R262). -/
theorem State.endJob_of_written {ok : Bool} (ended : s.recordEnd die cl j stat prog = (u, true))
    (sent : u.deliverTo j.ctx (jobMsg (u.ctx j.ctx) j stat prog) = (v, ok)) :
    s.endJob die cl j stat prog = if ok then (v.setQueue die cl (((v.die die).queue cl).filter fun q =>
      decide (q.id ≠ j.id))).after 0 (.jobSchedule die cl) else v := by
  simp only [State.endJob, ended, sent]
  cases ok <;> rfl

end

section
variable {s u : State} {die cl : Nat} {j : Job} {stat prog : Nat}

theorem State.recordEnd_of_written (written : j.written = true) : s.recordEnd die cl j stat prog = (s, true) := if_pos written

variable (fresh : j.written = false)
include fresh

theorem State.recordEnd_of_unserved (unserved : ¬ s.portServed (coreOf j.ctx) j.ticket = true) :
    s.recordEnd die cl j stat prog = (s, false) := by
  simp [State.recordEnd, fresh, unserved]

variable (served : s.portServed (coreOf j.ctx) j.ticket = true)
include served

theorem State.recordEnd_of_away (away : s.jobWritesDone j = (u, false)) : s.recordEnd die cl j stat prog = (u, false) := by
  simp [State.recordEnd, fresh, served, away]

variable (home : s.jobWritesDone j = (u, true))
include home

theorem State.recordEnd_of_unrecorded (unrecorded : j.recorded = false) :
    let v := u.writeRecord die j 0x30 (bytesOf prog 8 ++ bytesOf stat 8)
    s.recordEnd die cl j stat prog =
      (v.setJob die cl { j with recorded := true, ticket := v.lastTicket (coreOf j.ctx) j.did }, false) := by
  simp [State.recordEnd, fresh, served, home, unrecorded]

theorem State.recordEnd_of_recorded (recorded : j.recorded = true) : s.recordEnd die cl j stat prog =
    ((if j.st = .waiting then u else u.freePanes die cl j).setJob die cl { j with written := true }, true) := by
  simp [State.recordEnd, fresh, served, home, recorded]

end

/-- R260-R262, R266, R441: a job ends, a round ends, a drained buffer is freed, a stream is fetched ahead. -/
theorem jobEndClaims : JobEndClaims := by
  intro die cl
  refine ⟨fun s picks again picked => ?ends,
    fun s u j stat prog done ended => ⟨fun waits => ?waits, fun written v ok sent => ?sends⟩,
    fun s u j stat prog ok home => ⟨State.recordEnd_of_written, State.recordEnd_of_unserved,
      fun fresh served waits => State.recordEnd_of_away fresh served (waits ▸ home),
      fun fresh served all unrecorded => State.recordEnd_of_unrecorded fresh served (all ▸ home) unrecorded,
      fun fresh served all recorded => State.recordEnd_of_recorded fresh served (all ▸ home) recorded⟩,
    fun s => ⟨_, rfl, rfl, fun key => ?round⟩, fun s i e entry => ?drained, fun i s entry => ?gone, fun c st s _ => ?prefetch⟩
  case ends =>
    have act : exec again s = .next (s.endJobs die cl picks again) := by
      rcases picked with ⟨rfl, rfl⟩ | ⟨rfl, rfl⟩ <;> rfl
    exact ⟨act.trans (congrArg _ (if_congr List.isEmpty_iff rfl rfl)), fun j stat prog => State.mem_endedJobs,
      fun none => act.trans (congrArg _ (State.endJobs_of_none (State.endedJobs_of_none none)))⟩
  case waits => exact State.endJob_of_waiting (waits ▸ ended)
  case sends => exact State.endJob_of_written (written ▸ ended) sent
  case round =>
    rw [State.modDie_die_same]
    refine (Tbl.find?_filter_key (fun n => decide (n / 128 / 8 ≠ die * 8 + cl)) _ key).trans ?_
    by_cases mine : key / 128 / 8 = die * 8 + cl
    · simp [mine]
    · simp [mine]
  case drained =>
    show Host.Outcome.next _ = _
    rw [entry]
    exact congrArg Host.Outcome.next (if_congr (by simp) rfl rfl)
  case gone =>
    show Host.Outcome.next _ = _
    rw [entry]
  case prefetch =>
    refine congrArg Host.Outcome.next ?_
    by_cases free : ((s.ctx c).stream st).st = .free
    · simp [State.useGust, free]
    · simp [State.useGust, free]

end Sys2Proof.Machine

/-! What a synchronisation changes: a context sees more writes (R356). -/

namespace Sys2Proof.Machine

/-- From `s` to `t` only the writes that context `c` has seen may change. -/
structure State.SeenKept (s : State) (c : CtxId) (t : State) : Prop where
  others : ∀ q, q ≠ c → t.ctx q = s.ctx q
  own    : ∃ ids, t.ctx c = { s.ctx c with seen := ids }
  only   : t = { s with ctxs := t.ctxs }

theorem State.SeenKept.refl (s : State) (c : CtxId) : s.SeenKept c s := ⟨fun _ _ => rfl, ⟨_, rfl⟩, rfl⟩

theorem State.SeenKept.trans {s t u : State} {c : CtxId} (h : s.SeenKept c t) (h' : t.SeenKept c u) : s.SeenKept c u := by
  obtain ⟨ids, own⟩ := h.own
  obtain ⟨ids', own'⟩ := h'.own
  refine ⟨fun q hq => (h'.others q hq).trans (h.others q hq), ⟨ids', by rw [own', own]⟩, ?_⟩
  have later := h'.only
  rwa [h.only] at later

theorem State.synced_seenKept (s : State) (p c : CtxId) : s.SeenKept c (s.synced p c) := by
  unfold State.synced State.addSeen
  dsimp only
  split
  · exact State.SeenKept.refl s c
  · exact ⟨fun q hq => State.modCtx_ctx_other _ _ _ _ hq, ⟨_, State.modCtx_ctx_same _ _ _⟩, rfl⟩

theorem State.foldl_synced_seenKept (ps : List CtxId) (s : State) (c : CtxId) :
    s.SeenKept c (ps.foldl (fun t p => t.synced p c) s) :=
  List.foldlRecOn (motive := s.SeenKept c) ps _ (State.SeenKept.refl s c) fun t before p _ =>
    before.trans (State.synced_seenKept t p c)

/-- What does not speak of the writes seen is as before. -/
theorem State.SeenKept.field {s t : State} {c : CtxId} (h : s.SeenKept c t) {β : Type} (f : Ctx → β)
    (blind : ∀ k ids, f { k with seen := ids } = f k) (q : CtxId) : f (t.ctx q) = f (s.ctx q) := by
  by_cases same : q = c
  · obtain ⟨ids, own⟩ := h.own
    rw [same, own, blind]
  · rw [h.others q same]

theorem State.SeenKept.mem {s t : State} {c : CtxId} (h : s.SeenKept c t) : t.mem = s.mem := by rw [h.only]
theorem State.SeenKept.gangs {s t : State} {c : CtxId} (h : s.SeenKept c t) : t.gangs = s.gangs := by rw [h.only]

/-! Loops that work on one context in each round. -/

section
variable {f : State → CtxId → State} (others : ∀ (s : State) (a q : CtxId), q ≠ a → (f s a).ctx q = s.ctx q)
include others

theorem State.foldl_ctx_of_not_mem {l : List CtxId} {q : CtxId} (apart : q ∉ l) (s : State) : (l.foldl f s).ctx q = s.ctx q := by
  induction l generalizing s with
  | nil => rfl
  | cons a l ih =>
    obtain ⟨first, rest⟩ := not_or.mp (List.mem_cons.not.mp apart)
    rw [List.foldl_cons, ih rest, others _ _ _ first]

/-- A context that has one round is left as its round leaves it. -/
theorem State.foldl_ctx_of_mem {l : List CtxId} (once : l.Nodup) {q : CtxId} (member : q ∈ l) (s : State) :
    ∃ u : State, u.ctx q = s.ctx q ∧ (l.foldl f s).ctx q = (f u q).ctx q := by
  induction l generalizing s with
  | nil => cases member
  | cons a l ih =>
    obtain ⟨fresh, once⟩ := List.nodup_cons.mp once
    rw [List.foldl_cons]
    obtain rfl | later := List.mem_cons.mp member
    · exact ⟨s, rfl, State.foldl_ctx_of_not_mem others fresh _⟩
    · obtain ⟨u, same, after⟩ := ih once later (f s a)
      exact ⟨u, same.trans (others _ _ _ fun eq => fresh (eq ▸ later)), after⟩

end

end Sys2Proof.Machine

/-! Spawn requests and steals (R268, R271, R314). -/

namespace Sys2Proof.Machine

/-- The address of an instruction without its two low bits. -/
theorem addr62_field62 (pc : Word) : addr62 (field62 pc) = pc &&& ~~~3#64 := by
  refine BitVec.eq_of_getLsbD_eq fun i hi => ?_
  rw [addr62, field62, BitVec.getLsbD_append, BitVec.getLsbD_and, BitVec.getLsbD_not]
  by_cases low : i < 2
  · have ones : (3#64).getLsbD i = true := by interval_cases i <;> rfl
    simp [low, ones]
  · have zero : (3#64).getLsbD i = false := Nat.testBit_lt_two_pow (Nat.lt_of_lt_of_le (by decide : 3 < 2 ^ 2)
      (Nat.pow_le_pow_right (by decide) (Nat.not_lt.mp low)))
    have top : i - 2 < 62 := by omega
    have back : 2 + (i - 2) = i := by omega
    rw [zero]
    simp [low, hi, top, back]

section
variable {s : State} {c core v : CtxId} {pc : Word}

/-- The slot that a spawn request finds (R267, R268). -/
def State.spawnSlot (s : State) (c core : CtxId) : Option CtxId :=
  if (s.core core).harv then none else s.freeSlot core (s.ctx c).mode (s.did c)

/-- A slot that is free for a spawner stands at its WAITM (R267). -/
theorem State.inWaitm_of_spawnSlot {t : CtxId} (free : s.spawnSlot c core = some t) : (s.ctx t).run = .parked .waitm := by
  rw [State.spawnSlot] at free
  split at free
  · cases free
  · have fit := List.find?_some free
    simp only [Bool.and_eq_true, Ctx.inWaitm, decide_eq_true_iff] at fit
    tauto

/-- A spawn request that finds a slot starts it (R268). -/
def State.spawned (s : State) (c t : CtxId) (pc : Word) : State :=
  ((s.synced c t).modCtx t fun q => q.startAt pc ((s.ctx c).rx 10) ((s.ctx c).rx 11) ((s.ctx c).rx 12)
    ((s.ctx c).rx 13)).modCtx c fun q => { q.retired with wait := .none }

theorem exec_spawnRequestArrival_of_slot {t : CtxId} (waits : (s.ctx c).wait = .answer 0) (free : s.spawnSlot c core = some t) :
    exec (.spawnRequestArrival c core pc) s = .next (s.spawned c t pc) := by
  refine congrArg Host.Outcome.next ((if_neg (not_not.mpr waits)).trans ?_)
  rw [State.spawnSlot] at free
  rw [free]
  rfl

end

/-- The child and the spawner after a spawn request that starts a slot (R268). -/
theorem State.spawned_spec {s : State} {c t : CtxId} (pc : Word) (apart : t ≠ c) : let u := s.spawned c t pc
    (u.ctx t).pc = pc &&& ~~~3#64 ∧ (u.ctx t).run = .running ∧
      (u.ctx t).x = ((((((s.ctx t).wx 1 (s.ctx t).pc).wx 10 ((s.ctx c).rx 10)).wx 11 ((s.ctx c).rx 11)).wx 12
        ((s.ctx c).rx 12)).wx 13 ((s.ctx c).rx 13)).x ∧
      (u.ctx c).pc = (s.ctx c).pc + 4 ∧ (u.ctx c).wait = .none ∧ (u.ctx c).x = (s.ctx c).x ∧ u.mem = s.mem := by
  have kept := State.synced_seenKept s c t
  have child : (s.spawned c t pc).ctx t = ((s.synced c t).ctx t).startAt pc ((s.ctx c).rx 10) ((s.ctx c).rx 11)
      ((s.ctx c).rx 12) ((s.ctx c).rx 13) := by
    rw [State.spawned, State.modCtx_ctx_other _ _ _ _ apart, State.modCtx_ctx_same]
  have parent : (s.spawned c t pc).ctx c = { (s.ctx c).retired with wait := .none } := by
    rw [State.spawned, State.modCtx_ctx_same, State.modCtx_ctx_other _ _ _ _ apart.symm, kept.others c apart.symm]
  obtain ⟨ids, own⟩ := kept.own
  intro u
  rw [show u.ctx t = _ from child, show u.ctx c = _ from parent, own]
  exact ⟨addr62_field62 pc, rfl, rfl, rfl, rfl, rfl, kept.mem⟩

section
variable {s : State} {c v : CtxId} {d : BitVec 5} (waits : (s.ctx c).wait = .answer d)
include waits

theorem exec_stealRequest_of_before (before : s.stealBefore c v = true) :
    exec (.stealRequest c v) s = .next (s.after 0 (.stealRequest c v)) := by
  show Host.Outcome.next _ = _
  rw [waits]
  simp only [before, if_true]

theorem exec_stealRequest_of_turn (turn : s.stealBefore c v = false) :
    exec (.stealRequest c v) s = .next (s.serveSteal c d v) := by
  show Host.Outcome.next _ = _
  rw [waits]
  simp only [turn, Bool.false_eq_true, if_false]

end

section
variable {s : State} {c v : CtxId} {d : BitVec 5}

theorem State.serveSteal_of_none (none_found : (s.core v).dqOwner ≠ s.did c ∨ (s.core v).popTop (physLanes v) = none) :
    s.serveSteal c d v = s.stealFrom c d
      ((((s.stealOrder c).dropWhile fun w => decide (w ≠ v)).drop 1).filter fun w => s.stealable c w) := by
  have popped : (if (s.core v).dqOwner = s.did c then (s.core v).popTop (physLanes v) else none) = none := by
    rcases none_found with foreign | empty
    · exact if_neg foreign
    · rw [empty, ite_self]
  rw [State.serveSteal, popped]

theorem State.serveSteal_of_some {e : Task} {k : Core} (mine : (s.core v).dqOwner = s.did c)
    (found : (s.core v).popTop (physLanes v) = some (e, k)) : s.serveSteal c d v =
      (s.modCtx c fun q => { q with wait := .none }).finishPop c d (some e) fun u => u.setCore v k := by
  rw [State.serveSteal, if_pos mine, found]

end

/-- R268, R271, R314: what spawn and steal requests do. -/
theorem taskEventClaims : TaskEventClaims := by
  intro c core v pc
  refine ⟨⟨happens_of (fun _ => rfl) fun s gone => if_pos gone, happens_of (fun _ => rfl) fun s ⟨waits, nobody⟩ => ?inline,
    fun s t waits free => ⟨exec_spawnRequestArrival_of_slot waits free, fun running => ?starts⟩⟩,
    happens_of (fun _ => rfl) fun s gone => ?gone, fun s d waits => ⟨exec_stealRequest_of_before waits,
      fun turn none_found => (exec_stealRequest_of_turn waits turn).trans (congrArg _ (State.serveSteal_of_none none_found)),
      fun e k turn mine found => ?steals, fun w vs => rfl, rfl⟩⟩
  case inline =>
    refine (if_neg (not_not.mpr waits)).trans ?_
    simp only [nobody]
  case starts =>
    have parked := State.inWaitm_of_spawnSlot free
    have apart : t ≠ c := fun same => absurd (running.symm.trans (same ▸ parked)) (by simp)
    exact ⟨_, exec_spawnRequestArrival_of_slot waits free, State.spawned_spec pc apart⟩
  case gone =>
    cases waiting : (s.ctx c).wait with
    | answer d => exact absurd waiting (gone d)
    | _ => rfl
  case steals =>
    have act := (exec_stealRequest_of_turn waits turn).trans
      (congrArg Host.Outcome.next (State.serveSteal_of_some (d := d) mine found))
    refine ⟨act, fun single unlogged => act.trans (congrArg _ ?_)⟩
    exact State.finishPop_of_some (by rwa [State.modCtx_ctx_same]) (by rwa [State.modCtx_ctx_same]) e _

end Sys2Proof.Machine

/-! Barriers, gang stops and the copies of a GCAST as they end (R276-R278). -/

namespace Sys2Proof.Machine

section
variable {s : State} {e : Gang}

/-- A round of the loop that ends a barrier (R277). -/
def State.leaveGbar (e : Gang) (t : State) (m : CtxId) : State := if (t.ctx m).run = .parked .gbar then t.passGbar e m else t

/-- A member that leaves a barrier is its former self but for what it has seen, its turn and its generation (R277). -/
theorem State.passGbar_spec (s : State) (e : Gang) (m : CtxId) :
    (∀ q, q ≠ m → (s.passGbar e m).ctx q = s.ctx q) ∧
      (∃ ids, (s.passGbar e m).ctx m = Ctx.leftGbar { s.ctx m with seen := ids }) ∧
      (s.passGbar e m).gangs = s.gangs ∧ (s.passGbar e m).mem = s.mem := by
  have kept := State.foldl_synced_seenKept e.members s m
  obtain ⟨ids, own⟩ := kept.own
  refine ⟨fun q hq => ?_, ⟨ids, ?_⟩, kept.gangs, kept.mem⟩
  · rw [State.passGbar, State.modCtx_ctx_other _ _ _ _ hq, kept.others q hq]
  · rw [State.passGbar, State.modCtx_ctx_same, own]

theorem State.leaveGbar_others (e : Gang) (s : State) (a q : CtxId) (apart : q ≠ a) : (s.leaveGbar e a).ctx q = s.ctx q := by
  unfold State.leaveGbar
  split
  · exact (State.passGbar_spec s e a).1 q apart
  · rfl

theorem State.foldl_leaveGbar_table (ms : List CtxId) (s : State) :
    (ms.foldl (State.leaveGbar e) s).gangs = s.gangs ∧ (ms.foldl (State.leaveGbar e) s).mem = s.mem := by
  refine List.foldlRecOn (motive := fun t : State => t.gangs = s.gangs ∧ t.mem = s.mem) ms _ ⟨rfl, rfl⟩
    fun t ⟨table, mem⟩ m _ => ?_
  unfold State.leaveGbar
  split
  · obtain ⟨-, -, gangs, same⟩ := State.passGbar_spec t e m
    exact ⟨gangs.trans table, same.trans mem⟩
  · exact ⟨table, mem⟩

/-- Every member that is parked in the barrier leaves it, and no other context changes (R277). -/
theorem State.foldl_leaveGbar_spec (once : e.members.Nodup) (s : State) : let u := e.members.foldl (State.leaveGbar e) s
    (∀ m, m ∈ e.members → (s.ctx m).run = .parked .gbar → (u.ctx m).run = .running ∧ (u.ctx m).pc = (s.ctx m).pc + 4 ∧
      (u.ctx m).gbarGen = (s.ctx m).gbarGen + 1 ∧ (u.ctx m).arrived = false) ∧
    (∀ m, m ∉ e.members ∨ (s.ctx m).run ≠ .parked .gbar → u.ctx m = s.ctx m) := by
  intro u
  refine ⟨fun m member parked => ?_, fun m away => ?_⟩
  · obtain ⟨t, same, after⟩ := State.foldl_ctx_of_mem (State.leaveGbar_others e) once member s
    obtain ⟨-, ⟨ids, own⟩, -⟩ := State.passGbar_spec t e m
    rw [State.leaveGbar, if_pos (by rw [same, parked]), own, same] at after
    rw [show u.ctx m = _ from after]
    exact ⟨rfl, rfl, rfl, rfl⟩
  · by_cases member : m ∈ e.members
    · obtain ⟨t, same, after⟩ := State.foldl_ctx_of_mem (State.leaveGbar_others e) once member s
      have free : (s.ctx m).run ≠ .parked .gbar := away.resolve_left (not_not.mpr member)
      rw [State.leaveGbar, if_neg (by rwa [same]), same] at after
      exact after
    · exact State.foldl_ctx_of_not_mem (State.leaveGbar_others e) member s

end

/-! Landed copies. -/

theorem Core.pane_setPane_same (k : Core) {n : Nat} (h : n < 64) (p : Pane) : (k.setPane n p).pane n = p := by
  simp [Core.pane, Core.setPane, h]

theorem Core.pane_setPane_other (k : Core) {n q : Nat} (p : Pane) (apart : q ≠ n) : (k.setPane n p).pane q = k.pane q := by
  simp [Core.pane, Core.setPane, apart.symm]

section
variable {k : Core} {n p : Nat}

/-- Only the panes of the table can be ready. -/
theorem Core.lt_of_ready (ready : (k.pane n).state = 2) : n < 64 := by
  by_contra large
  have outside : k.pane n = Pane.empty := by simp [Core.pane, Nat.not_lt.mp large]
  rw [outside] at ready
  exact absurd ready (by decide)

/-- A change that leaves a ready pane ready. -/
theorem Core.modPane_ready {g : Pane → Pane} (keeps : ∀ z : Pane, z.state = 2 → (g z).state = 2)
    (ready : (k.pane n).state = 2) :
    ((k.modPane p g).pane n).state = 2 := by
  by_cases same : n = p
  · subst same
    rw [Core.modPane, Core.pane_setPane_same k (Core.lt_of_ready ready)]
    exact keeps _ ready
  · rwa [Core.modPane, Core.pane_setPane_other k _ same]

theorem Core.ringHeld_ready (ready : (k.pane n).state = 2) : (k.ringHeld.pane n).state = 2 :=
  Core.modPane_ready (fun z hz => by rwa [if_pos hz]) ready

/-- A pane that is freed leaves the ready ones ready (R247, R278). -/
theorem Core.castFreed_ready (ready : (k.pane n).state = 2) : ((k.castFreed p).pane n).state = 2 := by
  have freed : ((k.modPane p Pane.free).pane n).state = 2 := Core.modPane_ready (fun _ _ => rfl) ready
  unfold Core.castFreed
  dsimp only
  split
  · exact Core.ringHeld_ready freed
  · exact freed

theorem Core.castFreed_self (h : n < 64) : ((k.castFreed n).pane n).state = 2 := by
  have freed : ((k.modPane n Pane.free).pane n).state = 2 := by
    rw [Core.modPane, Core.pane_setPane_same k h]
    rfl
  unfold Core.castFreed
  dsimp only
  split
  · exact Core.ringHeld_ready freed
  · exact freed

theorem Core.castFreed_spad : (k.castFreed p).spad = k.spad := by
  unfold Core.castFreed
  dsimp only
  split <;> rfl

end

/-- The scratchpads are kept, and ready panes stay ready. -/
def State.PanesReady (s t : State) : Prop :=
  ∀ n, (t.core n).spad = (s.core n).spad ∧ ∀ q, ((s.core n).pane q).state = 2 → ((t.core n).pane q).state = 2

theorem State.PanesReady.refl (s : State) : s.PanesReady s := fun _ => ⟨rfl, fun _ => id⟩

theorem State.PanesReady.of_castFreed (s : State) (core : CoreId) (p : Nat) :
    s.PanesReady (s.modCore core fun k => k.castFreed p) := by
  intro n
  by_cases same : n = core
  · subst same
    rw [State.modCore_core_same]
    exact ⟨Core.castFreed_spad, fun _ => Core.castFreed_ready⟩
  · rw [State.modCore_core_other _ _ _ _ same]
    exact ⟨rfl, fun _ => id⟩

/-- The end of a GCAST for its issuer (R278). -/
theorem State.castDone_spec (s : State) (c : CtxId) :
    (s.castDone c).ctx c = { (s.ctx c).retired with wait := .none, casts := [], castSrc := none } ∧
      (s.castDone c).mem = s.mem ∧ s.PanesReady (s.castDone c) := by
  unfold State.castDone
  cases (s.ctx c).castSrc with
  | none => exact ⟨State.modCtx_ctx_same _ _ _, rfl, State.PanesReady.refl s⟩
  | some p => exact ⟨State.modCtx_ctx_same _ _ _, rfl, State.PanesReady.of_castFreed s (coreOf c) p⟩

/-- One copy of a context's GCAST has landed (R278): it waits for the others, or goes on. -/
theorem State.castLanded_spec (s : State) (core pane : Nat) (c : CtxId) : let u := s.castLanded core pane c
    let rest := (s.ctx c).casts.filter fun z => decide (z ≠ (core, pane))
    (u.ctx c).casts = rest ∧ u.mem = s.mem ∧ (rest = [] → (u.ctx c).wait = .none ∧ (u.ctx c).pc = (s.ctx c).pc + 4) ∧
      (rest ≠ [] → (u.ctx c).wait = (s.ctx c).wait ∧ (u.ctx c).pc = (s.ctx c).pc) ∧ s.PanesReady u := by
  intro u rest
  by_cases last : rest = []
  · have done : u = s.castDone c := if_pos (List.isEmpty_iff.mpr last)
    obtain ⟨ctx, mem, ready⟩ := State.castDone_spec s c
    rw [done, ctx]
    exact ⟨last.symm, mem, fun _ => ⟨rfl, rfl⟩, fun more => absurd last more, ready⟩
  · have waits : u = s.modCtx c fun k => { k with casts := rest } := if_neg (List.isEmpty_iff.not.mpr last)
    rw [waits, State.modCtx_ctx_same]
    exact ⟨rfl, rfl, fun none => absurd none last, fun _ => ⟨rfl, rfl⟩, State.PanesReady.refl s⟩

/-- R276-R278: what barriers, gang stops and landed copies do. -/
theorem gangEventClaims : GangEventClaims := by
  intro c core g rank pane
  refine ⟨fun i member s gone => ?gone, fun s e known => ?known, happens_of (fun _ => rfl) fun s nobody => ?nobody,
    happens_of (fun _ => rfl) fun s waited => ?lands, fun s alone => ?ends⟩
  case gone =>
    simp only [List.mem_cons, List.not_mem_nil, or_false] at member
    obtain rfl | rfl | rfl := member
    all_goals
      show Host.Outcome.next _ = _
      rw [gone]
  case known =>
    have complete (all : s.allArrived e = true) : exec (.gbarGenerationComplete g) s = .next (e.members.foldl
        (State.leaveGbar e) (s.putGang g { e with gen := e.gen + 1 })) := by
      show Host.Outcome.next _ = _
      rw [known]
      simp only [all, if_true]
      rfl
    refine ⟨fun all => ?signal, fun short => ⟨?early, ?earlier⟩, complete, fun all once => ?releases, ?stops⟩
    case signal =>
      show Host.Outcome.next _ = _
      rw [known]
      simp only [all, if_true]
    case early =>
      show Host.Outcome.next _ = _
      rw [known]
      simp only [short, Bool.false_eq_true, if_false]
    case earlier =>
      show Host.Outcome.next _ = _
      rw [known]
      simp only [short, Bool.false_eq_true, if_false]
    case releases =>
      obtain ⟨table, mem⟩ := State.foldl_leaveGbar_table (e := e) e.members (s.putGang g { e with gen := e.gen + 1 })
      obtain ⟨leave, others⟩ := State.foldl_leaveGbar_spec once (s.putGang g { e with gen := e.gen + 1 })
      refine ⟨_, complete all, ⟨{ e with gen := e.gen + 1 }, ?_, rfl, rfl⟩, leave, others, mem⟩
      rw [State.gang?, table]
      exact Tbl.find?_set_same _ _ _
    case stops =>
      show Host.Outcome.next _ = _
      rw [known]
      refine congrArg Host.Outcome.next (if_congr ?_ rfl rfl)
      simp [List.all_eq_true]
  case nobody => exact if_pos (List.isEmpty_iff.mpr nobody)
  case lands => exact if_neg (List.isEmpty_iff.not.mpr waited)
  case ends =>
    intro rest
    beta_reduce at alone
    have act : exec (.gcastCopyLanded core pane) s = .next ((s.modCore core fun k => k.castFreed pane).castLanded core pane c) := by
      refine congrArg Host.Outcome.next ((if_neg (List.isEmpty_iff.not.mpr ?_)).trans ?_)
      · rw [alone]
        exact List.cons_ne_nil _ _
      · rw [alone]
        rfl
    obtain ⟨casts, mem, last, more, ready⟩ := State.castLanded_spec (s.modCore core fun k => k.castFreed pane) core pane c
    refine ⟨_, act, casts, mem, last, more, fun small => ?_⟩
    obtain ⟨spad, state⟩ := ready core
    rw [State.modCore_core_same] at spad state
    exact ⟨spad.trans Core.castFreed_spad, state pane (Core.castFreed_self small)⟩

end Sys2Proof.Machine

/-! What a core's network interface does with a message (R279, R306, R307). -/

namespace Sys2Proof.Machine

section
variable {s u : State} {core : CoreId} {m : Msg} {g : Gang}

theorem State.acceptMsg_of_none (gone : s.gang? m.gang = none) : s.acceptMsg core m = (s, false) := by
  rw [State.acceptMsg, gone]

section
variable (known : s.gang? m.gang = some g)
include known

/-- A message for a rank in transit, or behind one that is held, is held (R307). -/
theorem State.acceptMsg_of_held (behind : (g.entry m.trank).it = true ∨
      (s.core core).holds.getD (holdKey m.gang m.trank) [] ≠ []) :
    s.acceptMsg core m =
      let held := (s.core core).holds.getD (holdKey m.gang m.trank) []
      if held.length < Config.holdDepth then
        (s.modCore core fun k => { k with holds := k.holds.set (holdKey m.gang m.trank) (held ++ [m]) }, true)
      else (s, false) := by
  rw [State.acceptMsg, known]
  exact if_pos (by simpa using behind)

section
variable (there : (g.entry m.trank).it = false)
include there

/-- A message for a rank that stands goes to its target (R306). -/
theorem State.acceptMsg_of_free (free : (s.core core).holds.getD (holdKey m.gang m.trank) [] = []) :
    s.acceptMsg core m = if (g.entry m.trank).pkg ≠ s.pkgNum then (s, false) else s.deliverTo (g.entry m.trank).target m := by
  rw [State.acceptMsg, known]
  exact if_neg (by simp [there, free])

section
variable {rest : List Msg} (here : (g.entry m.trank).pkg = s.pkgNum)
include here

/-- The oldest held message of a rank that stands is tried again where its target does not take it (R307). -/
theorem State.releaseHold_of_failed (failed : s.deliverTo (g.entry m.trank).target m = (u, false)) :
    s.releaseHold core m rest = u.after 8 (.msendAccept core m) := by
  simp only [State.releaseHold, known, there, here, failed]
  rfl

variable (taken : s.deliverTo (g.entry m.trank).target m = (u, true))
include taken

/-- The last held message of a rank leaves (R307). -/
theorem State.releaseHold_of_last : s.releaseHold core m [] =
    u.modCore core fun k => { k with holds := k.holds.erase (holdKey m.gang m.trank) } := by
  simp only [State.releaseHold, known, there, here, taken]
  rfl

/-- The oldest held message of a rank leaves, and the next one is tried (R307). -/
theorem State.releaseHold_of_more {n : Msg} : s.releaseHold core m (n :: rest) =
    (u.modCore core fun k => { k with holds := k.holds.set (holdKey m.gang m.trank) (n :: rest) }).after 0
      (.msendAccept core n) := by
  simp only [State.releaseHold, known, there, here, taken]
  rfl

end
end

theorem State.releaseHold_of_transit {rest : List Msg} (transit : (g.entry m.trank).it = true) :
    s.releaseHold core m rest = s := by
  rw [State.releaseHold, known]
  exact if_pos transit

end

/-- A message that is not the oldest held one of its rank goes to the interface (R279). -/
theorem exec_msendAccept_of_fresh {ok : Bool}
    (fresh : ∀ n, ((s.core core).holds.getD (holdKey m.gang m.trank) []).head? = some n → n ≠ m)
    (accepted : s.acceptMsg core m = (u, ok)) :
    exec (.msendAccept core m) s = .next (if ok = true then u else u.after 8 (.msendAccept core m)) := by
  show Host.Outcome.next _ = _
  rw [accepted]
  cases held : (s.core core).holds.getD (holdKey m.gang m.trank) [] with
  | nil => rfl
  | cons n rest =>
    have other : n ≠ m := fresh n (by rw [held]; rfl)
    simp only [if_neg other]
    rfl

theorem exec_msendAccept_of_held {rest : List Msg} (held : (s.core core).holds.getD (holdKey m.gang m.trank) [] = m :: rest) :
    exec (.msendAccept core m) s = .next (s.releaseHold core m rest) := by
  show Host.Outcome.next _ = _
  rw [held]
  simp only [if_true]

end

/-- R279, R280, R306, R307: the network interface of a core. -/
theorem holdClaims : HoldClaims := by
  intro core m
  refine ⟨fun s u ok fresh accepted => exec_msendAccept_of_fresh fresh accepted,
    fun s rest held => exec_msendAccept_of_held held, fun s gone => State.acceptMsg_of_none gone, fun s g known =>
    ⟨State.acceptMsg_of_held known, fun there free => (State.acceptMsg_of_free known there free).trans ?free,
      fun rest transit => State.releaseHold_of_transit known transit, fun rest u ok there here delivered => ?releases⟩⟩
  case free => exact ite_not _ _ _
  case releases =>
    refine ⟨fun failed => State.releaseHold_of_failed known there here (failed ▸ delivered), fun taken last => ?_,
      fun n t taken more => ?_⟩
    · subst taken last
      exact State.releaseHold_of_last known there here delivered
    · subst taken more
      exact State.releaseHold_of_more known there here delivered

end Sys2Proof.Machine

/-! Deliveries (R280, R309). -/

namespace Sys2Proof.Machine

theorem State.msgSync_seenKept (s : State) (m : Msg) (t : CtxId) : s.SeenKept t (s.msgSync m t) := by
  unfold State.msgSync
  split
  · exact State.synced_seenKept s _ t
  · exact State.SeenKept.refl s t

section
variable {s : State} {t : CtxId} {m : Msg} (unlogged : (s.ctx t).log = none)
include unlogged

/-- A delivery to a context that keeps no log goes by its kind (R280). -/
theorem State.applyMsg_of_plain : s.applyMsg t m = if m.kind = 0 then s.deliverData t m else if m.kind = 1 then s.deliverSpawn t m
    else if m.kind = 2 then s.deliverWake t m else s.deliverRegw t m := by
  have fresh : (s.ctx t).replays = false := by rw [Ctx.replays, unlogged]
  exact if_neg (by simp [fresh])

theorem State.applyMsg_of_data (kind : m.kind = 0) : s.applyMsg t m = s.deliverData t m :=
  (State.applyMsg_of_plain unlogged).trans (if_pos kind)

theorem State.applyMsg_of_spawn (kind : m.kind = 1) : s.applyMsg t m = s.deliverSpawn t m := by
  rw [State.applyMsg_of_plain unlogged, kind]
  rfl

theorem State.applyMsg_of_wake (kind : m.kind = 2) : s.applyMsg t m = s.deliverWake t m := by
  rw [State.applyMsg_of_plain unlogged, kind]
  rfl

theorem State.applyMsg_of_regw (kind : m.kind = 3) : s.applyMsg t m = s.deliverRegw t m := by
  rw [State.applyMsg_of_plain unlogged, kind]
  rfl

theorem State.recordDelivery_of_plain : s.recordDelivery t m = (s, true) := by simp [State.recordDelivery, unlogged]

section
variable (parked : (s.ctx t).run = .parked .waitm)
include parked

omit unlogged in
theorem Ctx.inWaitm_of_parked : (s.ctx t).inWaitm = true := decide_eq_true parked

theorem State.deliverSpawn_of_parked : s.deliverSpawn t m = (s.modCtx t fun k => k.startMsg m, true) := by
  simp [State.deliverSpawn, Ctx.inWaitm_of_parked parked, State.recordDelivery_of_plain unlogged]

theorem State.deliverWake_of_parked : s.deliverWake t m = (s.modCtx t Ctx.resumed, true) := by
  simp [State.deliverWake, Ctx.inWaitm_of_parked parked, State.recordDelivery_of_plain unlogged]

theorem State.deliverRegw_of_parked : s.deliverRegw t m = (s.modCtx t fun k => k.wx 28 (msgWord m 0), true) := by
  simp [State.deliverRegw, Ctx.inWaitm_of_parked parked, State.recordDelivery_of_plain unlogged]

end

omit unlogged
section
variable (awake : (s.ctx t).run ≠ .parked .waitm)
include awake

theorem Ctx.inWaitm_of_awake : (s.ctx t).inWaitm = false := decide_eq_false awake

theorem State.deliverSpawn_of_awake : s.deliverSpawn t m = if (s.ctx t).spawn = none ∧ (s.ctx t).spawnq = [] then
    (s.setCtx t { s.ctx t with spawn := some m }, true) else (s, false) := by
  simp [State.deliverSpawn, Ctx.inWaitm_of_awake awake]

theorem State.deliverWake_of_awake : s.deliverWake t m = (s.setCtx t { s.ctx t with wake := true }, true) := by
  simp [State.deliverWake, Ctx.inWaitm_of_awake awake]

theorem State.deliverRegw_of_awake : s.deliverRegw t m = if (s.ctx t).run = .out then
    (s.setCtx t ((s.ctx t).wx 28 (msgWord m 0)), true) else
      (s.setCtx t { s.ctx t with regw := (s.ctx t).regw ++ [msgWord m 0] }, true) := by
  simp [State.deliverRegw, Ctx.inWaitm_of_awake awake]

end

theorem State.deliverData_of_full (full : Config.mailboxDepth ≤ (s.ctx t).mailbox.length) : s.deliverData t m = (s, false) :=
  if_pos full

/-- A DATA message with a place in the mailbox (R280): it resumes a target that is parked in WAITM. -/
theorem State.deliverData_of_short (short : (s.ctx t).mailbox.length < Config.mailboxDepth) :
    ∃ u, s.deliverData t m = (u, true) ∧ (u.ctx t).mailbox = (s.ctx t).mailbox ++ [m] ∧ u.mem = s.mem ∧
      ((s.ctx t).run = .parked .waitm → (u.ctx t).run = .running ∧ (u.ctx t).pc = (s.ctx t).pc + 4) ∧
      ((s.ctx t).run ≠ .parked .waitm → (u.ctx t).run = (s.ctx t).run ∧ (u.ctx t).pc = (s.ctx t).pc) := by
  refine ⟨_, if_neg (Nat.not_le.mpr short), ?_, rfl, fun parked => ?_, fun awake => ?_⟩
  all_goals rw [State.setCtx_ctx_same]
  · split <;> rfl
  · rw [if_pos (Ctx.inWaitm_of_parked parked)]
    exact ⟨rfl, rfl⟩
  · rw [if_neg (Bool.eq_false_iff.mp (Ctx.inWaitm_of_awake awake))]
    exact ⟨rfl, rfl⟩

/-- A message for a target that is present (R280, R309). -/
theorem State.deliverTo_of_present (stays : s.migratingTo m t = false) (present : (s.ctx t).absentFor m = false)
    (direct : (s.core (coreOf t)).defer.getLsbD (slotOf t) = false) : s.deliverTo t m = (s.msgSync m t).applyMsg t m := by
  simp [State.deliverTo, stays, present, direct]

/-- A message for a target that is absent or deferred (R309). -/
theorem State.deliverTo_of_absent (stays : s.migratingTo m t = false)
    (away : (s.ctx t).absentFor m = true ∨ (s.core (coreOf t)).defer.getLsbD (slotOf t) = true) :
    s.deliverTo t m = ((s.msgSync m t).msgSync m (coreOf t * 8 + 7)).inboxWrite (coreOf t) (slotOf t) m := by
  rw [State.deliverTo, if_neg (Bool.eq_false_iff.mp stays)]
  exact if_pos (by simpa using away)

end

/-- A context that a SPAWN has started (R280). -/
theorem Ctx.startMsg_spec (k : Ctx) (m : Msg) : (k.startMsg m).pc = msgWord m 0 &&& ~~~3#64 ∧ (k.startMsg m).run = .running ∧
    (k.startMsg m).rx 1 = k.pc ∧ (k.startMsg m).rx 10 = msgWord m 1 ∧ (k.startMsg m).rx 13 = msgWord m 4 := by
  have reads (r : BitVec 5) : (k.startMsg m).rx r =
      (((((k.wx 1 k.pc).wx 10 (msgWord m 1)).wx 11 (msgWord m 2)).wx 12 (msgWord m 3)).wx 13 (msgWord m 4)).rx r := rfl
  refine ⟨addr62_field62 _, rfl, ?_, ?_, ?_⟩
  all_goals simp [reads, Ctx.rx_wx_same, Ctx.rx_wx_ne]

/-- A delivery that its target does not take is tried again 8 clk later (R280). -/
theorem exec_of_retry {s u : State} {i : Instr} {r : State × Bool} {ok : Bool} (h : exec i s = .next (State.retry r i))
    (delivered : r = (u, ok)) : exec i s = .next (if ok = true then u else u.after 8 i) := by
  rw [h, delivered]
  rfl

/-- R280, R283, R309, R312, R454: deliveries, timed waits and WFI. -/
theorem messageEventClaims : MessageEventClaims := by
  intro c core slot m
  refine ⟨⟨fun n small s u ok delivered => ?event, fun n small s => ⟨fun moves => if_pos moves, State.deliverTo_of_absent,
      fun stays present direct unlogged => ?present⟩⟩,
    fun s u ok written => exec_of_retry rfl written, fun s t parked => ⟨fun due => ?due, fun early => ?early⟩,
    happens_of (fun _ => rfl) fun s free => ?free, happens_of (fun _ => rfl) fun s ready => if_pos ready,
    happens_of (fun _ => rfl) fun s idle => if_neg ?idle⟩
  case event =>
    interval_cases n
    all_goals exact exec_of_retry rfl delivered
  case present =>
    intro v parked
    have kept := State.msgSync_seenKept s { m with kind := BitVec.ofNat 2 n } c
    have same {β : Type} (f : Ctx → β) (blind : ∀ k ids, f { k with seen := ids } = f k) : f (v.ctx c) = f (s.ctx c) :=
      kept.field f blind c
    have silent : (v.ctx c).log = none := (same Ctx.log fun _ _ => rfl).trans unlogged
    have run : (v.ctx c).run = (s.ctx c).run := same Ctx.run fun _ _ => rfl
    have pc : (v.ctx c).pc = (s.ctx c).pc := same Ctx.pc fun _ _ => rfl
    have mailbox : (v.ctx c).mailbox = (s.ctx c).mailbox := same Ctx.mailbox fun _ _ => rfl
    have here : s.deliverTo c { m with kind := BitVec.ofNat 2 n } = v.applyMsg c { m with kind := BitVec.ofNat 2 n } :=
      State.deliverTo_of_present stays present direct
    refine ⟨fun data short => ?data, fun data full => ?full, fun spawn waits => ?spawn, fun spawn awake => ?held,
      fun wake waits => ?wake, fun wake awake => ?woken, fun regw still => ?regw, fun regw awake busy => ?taken⟩
    all_goals subst n
    case data =>
      obtain ⟨u, taken, mail, mem, resumed, stayed⟩ := State.deliverData_of_short (s := v) (t := c)
        (m := { m with kind := BitVec.ofNat 2 0 }) (by rwa [mailbox])
      rw [run, pc] at resumed stayed
      exact ⟨u, here.trans ((State.applyMsg_of_data silent rfl).trans taken), by rw [mail, mailbox], mem.trans kept.mem, resumed,
        stayed⟩
    case full =>
      exact here.trans ((State.applyMsg_of_data silent rfl).trans (State.deliverData_of_full (by rwa [mailbox])))
    case spawn =>
      obtain ⟨pc', run', link, first, fourth⟩ := Ctx.startMsg_spec (v.ctx c) { m with kind := BitVec.ofNat 2 1 }
      refine ⟨v.modCtx c fun k => k.startMsg { m with kind := BitVec.ofNat 2 1 }, here.trans ((State.applyMsg_of_spawn silent
        rfl).trans (State.deliverSpawn_of_parked silent (run.trans waits))), ?_⟩
      rw [State.modCtx_ctx_same]
      exact ⟨pc', run', link.trans pc, first, fourth, kept.mem⟩
    case held =>
      have spawn : (v.ctx c).spawn = (s.ctx c).spawn := same Ctx.spawn fun _ _ => rfl
      have queue : (v.ctx c).spawnq = (s.ctx c).spawnq := same Ctx.spawnq fun _ _ => rfl
      rw [← spawn, ← queue]
      exact here.trans ((State.applyMsg_of_spawn silent rfl).trans (State.deliverSpawn_of_awake (by rwa [run])))
    case wake => exact here.trans ((State.applyMsg_of_wake silent rfl).trans (State.deliverWake_of_parked silent (run.trans waits)))
    case woken => exact here.trans ((State.applyMsg_of_wake silent rfl).trans (State.deliverWake_of_awake (by rwa [run])))
    case regw =>
      refine here.trans ((State.applyMsg_of_regw silent rfl).trans ?_)
      rcases still with waits | out
      · exact State.deliverRegw_of_parked silent (run.trans waits)
      · have awake : (v.ctx c).run ≠ .parked .waitm := by rw [run, out]; simp
        exact (State.deliverRegw_of_awake awake).trans (if_pos (run.trans out))
    case taken =>
      refine here.trans ((State.applyMsg_of_regw silent rfl).trans ((State.deliverRegw_of_awake (by rwa [run])).trans ?_))
      exact if_neg (by rwa [run])
  case due =>
    show Host.Outcome.next _ = _
    rw [parked]
    exact congrArg Host.Outcome.next (if_pos due)
  case early =>
    show Host.Outcome.next _ = _
    rw [parked]
    exact congrArg Host.Outcome.next (if_neg (Nat.not_le.mpr early))
  case free =>
    cases state : (s.ctx c).run with
    | parked p =>
      cases p with
      | waitt t => exact absurd state (free t)
      | _ => rfl
    | _ => rfl
  case idle =>
    rintro ⟨parked, ready⟩
    exact idle.elim (· parked) (Bool.eq_false_iff.mp · ready)

end Sys2Proof.Machine

/-! Bytes that are written and read again. -/

namespace Sys2Proof.Machine

theorem natOf_bytesOf (v n : Nat) : natOf (bytesOf v n) = v % 2 ^ (8 * n) := by
  induction n generalizing v with
  | zero => simp [bytesOf, natOf, Nat.mod_one]
  | succ n ih =>
    rw [bytesOf, natOf, ih, BitVec.toNat_ofNat, Nat.shiftRight_eq_div_pow, Nat.mul_succ, Nat.add_comm (8 * n) 8, Nat.pow_add,
      Nat.mod_mul]

/-- Where no byte reaches a unit report, an agent writes every byte (R504). -/
theorem Memory.writeA_eq_writeL (m : Memory) (a : Nat) (bs : List Byte)
    (plain : ∀ i, i < bs.length → isReport (a + i) = false) :
    m.writeA a bs = m.writeL a bs := by
  induction bs generalizing m a with
  | nil => rfl
  | cons b t ih =>
    have first : isReport a = false := plain 0 (Nat.succ_pos _)
    rw [Memory.writeA, Memory.writeL, first]
    exact ih _ _ fun i hi => by
      rw [Nat.add_assoc, Nat.add_comm 1 i]
      exact plain (i + 1) (Nat.succ_lt_succ hi)

theorem Memory.readN_add (m : Memory) (a n k : Nat) : m.readN a (n + k) = m.readN a n ++ m.readN (a + n) k := by
  induction n generalizing a with
  | zero => simp [Memory.readN]
  | succ n ih => rw [Nat.add_right_comm, Memory.readN, Memory.readN, ih, List.cons_append, Nat.add_assoc, Nat.add_comm 1 n]

theorem Memory.readN_congr {m m' : Memory} {a n : Nat} (same : ∀ i, i < n → m.read (a + i) = m'.read (a + i)) :
    m.readN a n = m'.readN a n := by
  induction n generalizing a with
  | zero => rfl
  | succ n ih =>
    have first : m.read a = m'.read a := same 0 (Nat.succ_pos n)
    rw [Memory.readN, Memory.readN, first]
    exact congrArg _ (ih fun i hi => by
      rw [Nat.add_assoc, Nat.add_comm 1 i]
      exact same (i + 1) (Nat.succ_lt_succ hi))

/-- The last bytes that are written are read back. -/
theorem Memory.readN_writeA_last {m : Memory} (wf : Memory.wf m = true) (a : Nat) (bs cs : List Byte)
    (plain : ∀ i, i < bs.length + cs.length → isReport (a + i) = false) :
    (m.writeA a (bs ++ cs)).readN (a + bs.length) cs.length = cs := by
  have all := Memory.readN_writeL m a (bs ++ cs) wf
  rw [← Memory.writeA_eq_writeL m a (bs ++ cs) (by simpa using plain), List.length_append, Memory.readN_add] at all
  exact (List.append_inj all (Memory.length_readN _ _ _)).2

theorem Memory.readN_writeA {m : Memory} (wf : Memory.wf m = true) (a : Nat) (bs : List Byte)
    (plain : ∀ i, i < bs.length → isReport (a + i) = false) : (m.writeA a bs).readN a bs.length = bs := by
  rw [Memory.writeA_eq_writeL m a bs plain, Memory.readN_writeL m a bs wf]

end Sys2Proof.Machine

/-! Records of an inbox ring (R310, R311, R425). -/

namespace Sys2Proof.Machine

theorem Tbl.find?_foldl_set {α : Type} (v : α) (ls : List Nat) (t : Tbl α) (n : Nat) :
    Tbl.find? (ls.foldl (fun t l => Tbl.set t l v) t) n = if n ∈ ls then some v else Tbl.find? t n := by
  induction ls generalizing t with
  | nil => rfl
  | cons l ls ih =>
    rw [List.foldl_cons, ih]
    by_cases later : n ∈ ls
    · simp [later]
    · by_cases same : n = l
      · simp [same, Tbl.find?_set_same]
      · simp [later, same, Tbl.find?_set_other _ _ _ _ same]

section
variable {s : State} (w : Writer) (addr : Nat) (bytes : List Byte) (sh : Bool) (did : BitVec 7) (lines : s.errLines = [])
  (caches : s.sramErrs = [])
include lines caches

/-- A write at its home, where no line is in error, is its bytes and what it does to each of its lines (R337). -/
theorem State.performHome_eq_of_clean : s.performHome w addr bytes sh did = (linesOf addr bytes.length).foldl
    (fun t l => (t.touchLine w sh did l).dropCopies (t.keeper w l) l) { s with mem := s.mem.writeA addr bytes } := by
  have merged (ls : List Nat) : ls.foldl (fun t l => t.mergeError w l) s = s := by
    induction ls with
    | nil => rfl
    | cons l ls ih => rw [List.foldl_cons, State.mergeError_of_clean w l lines caches, ih]
  unfold State.performHome
  dsimp only
  rw [merged]

/-- Every line of the write has its tag, and no other tag changes (R435). -/
theorem State.performHome_tags : (s.performHome w addr bytes sh did).tags =
    (linesOf addr bytes.length).foldl (fun t l => Tbl.set t l ⟨sh, did⟩) s.tags := by
  rw [State.performHome_eq_of_clean w addr bytes sh did lines caches]
  exact (List.foldl_hom State.tags (g₁ := fun t l => (t.touchLine w sh did l).dropCopies (t.keeper w l) l) fun _ _ => rfl).symm

end

/-- Where no line is in error, none is after a write at its home. -/
theorem State.performHome_clean {s : State} (w : Writer) (addr : Nat) (bytes : List Byte) (sh : Bool) (did : BitVec 7)
    (lines : s.errLines = []) (caches : s.sramErrs = []) :
    (s.performHome w addr bytes sh did).errLines = [] ∧ (s.performHome w addr bytes sh did).sramErrs = [] :=
  have done := State.performHome_of_clean w addr bytes sh did lines caches
  ⟨done.errLines.trans lines, done.sramErrs caches⟩

/-- A view that no round changes, a loop does not change. -/
theorem State.foldl_view {α β : Type} (view : State → β) {f : State → α → State} (keeps : ∀ s a, view (f s a) = view s)
    (l : List α) (s : State) : view (l.foldl f s) = view s := by
  induction l generalizing s with
  | nil => rfl
  | cons a l ih => rw [List.foldl_cons, ih, keeps]

section
variable {β : Type} (f : Core → β) (blind : ∀ k l, f (Core.dropLine k l) = f k)
include blind

/-- What a line leaves alone of a core when it goes stays. -/
theorem State.dropCopies_core (s : State) (keep : Option CoreId) (line : Nat) (n : CoreId) :
    f ((s.dropCopies keep line).core n) = f (s.core n) := by
  have table : (s.dropCopies keep line).cores =
      s.cores.map fun e => (e.1, if some e.1 = keep then e.2 else e.2.dropLine line) :=
    List.map_congr_left fun e _ => by split <;> rfl
  rw [State.core, State.core, Tbl.getD, Tbl.getD, table,
    Tbl.find?_mapIdx (fun n q => if some n = keep then q else q.dropLine line) s.cores n]
  cases Tbl.find? s.cores n with
  | none => rfl
  | some q =>
    simp only [Option.map_some]
    split
    · rfl
    · exact blind q line

/-- A write at its home, where no line is in error, changes of the cores their copies only (R337). -/
theorem State.performHome_core {s : State} (w : Writer) (addr : Nat) (bytes : List Byte) (sh : Bool) (did : BitVec 7)
    (lines : s.errLines = []) (caches : s.sramErrs = []) (n : CoreId) :
    f ((s.performHome w addr bytes sh did).core n) = f (s.core n) := by
  rw [State.performHome_eq_of_clean w addr bytes sh did lines caches]
  refine State.foldl_view (fun t => f (t.core n)) (fun t l => ?_) _ _
  exact State.dropCopies_core f blind (t.touchLine w sh did l) (t.keeper w l) l n

end

/-- A home that serves its misses grants leases, which neither the cores nor the tags hold (R337). -/
theorem State.serveMisses_view {β : Type} (view : State → β) (grants : ∀ s die line, view (s.grant die line) = view s)
    (leaves : ∀ (s : State) ms, view { s with misses := ms } = view s) (s : State) (line : Nat) :
    view (s.serveMisses line) = view s := by
  unfold State.serveMisses
  split
  · rfl
  · rw [State.foldl_view view (fun t (m : Nat × Nat) => grants t m.2 line), leaves]

theorem State.leaveInbox_core (s : State) (core n : CoreId) : (s.leaveInbox core).core n = s.core n :=
  State.foldl_view (fun t : State => t.core n)
    (State.serveMisses_view (fun t => t.core n) (fun _ _ _ => rfl) fun _ _ => rfl) _ _

theorem State.leaveInbox_tags (s : State) (core : CoreId) : (s.leaveInbox core).tags = s.tags :=
  State.foldl_view State.tags (State.serveMisses_view State.tags (fun _ _ _ => rfl) fun _ _ => rfl) _ _

theorem State.leaveInbox_memKept (s : State) (core : CoreId) : s.MemKept (s.leaveInbox core) := by
  refine State.MemKept.trans ?_ (State.MemKept.foldl State.serveMisses_memKept _ _)
  exact ⟨rfl, rfl, rfl, id⟩

theorem State.leaveInbox_kept (s : State) (core : CoreId) : s.CtxKept (s.leaveInbox core) := by
  refine State.CtxKept.trans ?_ (State.CtxKept.foldl State.serveMisses_kept _ _)
  exact State.CtxKept.of_ctxs rfl


/-! The record (R310, R311). -/

/-- The network interface writes as no context and under no function. -/
def inboxWriter : Writer := { ctx := none, fn := none }

/-- What is written behind the header of a record: 56 bytes of 0, then the payload (R311). -/
def inboxBody (m : Msg) : List Byte := List.replicate 56 0 ++ bytesOf m.payload.toNat 64

theorem length_inboxBody (m : Msg) : (inboxBody m).length = 120 := by simp [inboxBody, length_bytesOf]

theorem linesOf_body {a : Nat} (aligned : a % 128 = 0) : linesOf (a + 8) 120 = linesOf a 128 := by
  have first : (a + 8) / 64 = a / 64 := by omega
  simp [linesOf, first]

theorem msgRecord_lt (m : Msg) (slot : Nat) : msgRecord m slot < 2 ^ 64 := by
  have kind := m.kind.isLt
  have org : b2n m.org ≤ 1 := by cases m.org <;> decide
  unfold msgRecord
  omega

theorem msgRecord_of_slot (m : Msg) {slot : Nat} (few : slot < 8) : msgRecord m slot =
    1 + 2 * m.kind.toNat + 8 * b2n m.org + 16 * (m.srank % 2 ^ 13) + 2 ^ 17 * slot + 2 ^ 20 * (m.gang % 2 ^ 12) +
      2 ^ 32 * (m.trank % 2 ^ 13) := by
  rw [msgRecord, Nat.mod_eq_of_lt few]

/-- The ring's place moves on, and the slot is deferred (R310, R311). -/
def Core.inboxMoved (q : Core) (slot : Nat) : Core :=
  { q with wp := BitVec.ofNat 12 ((q.wp.toNat + 1) % q.inboxSize), defer := q.defer ||| BitVec.twoPow 8 slot }

/-- A context of slot 7 has its WAKE (R311). -/
def Ctx.inboxWoken (z : Ctx) : Ctx := if z.inWaitm then z.resumed else { z with wake := true }

section
variable (s : State) (core slot : Nat) (m : Msg)

/-- The record is in memory, and the misses behind it are served. -/
def State.inboxStored : State :=
  let a := (s.core core).inboxAddr
  let did := (s.inboxAgent core).did
  (((s.performHome inboxWriter (a + 8) (inboxBody m) false did).performHome inboxWriter a
    (bytesOf (msgRecord m slot) 8) false did).leaveInbox core)

/-- A record that may be written is stored, and then the core and its slot 7 are told. -/
theorem State.inboxWrite_of_free (opened : s.inboxOpen core = true) (free : s.leaseFree (s.core core).inboxAddr 128 = true) :
    s.inboxWrite core slot m =
      (((s.inboxStored core slot m).modCore core fun q => q.inboxMoved slot).modCtx (core * 8 + 7) Ctx.inboxWoken, true) := by
  unfold State.inboxWrite
  dsimp only
  rw [opened, free]
  rfl

variable (lines : s.errLines = []) (caches : s.sramErrs = [])
include lines caches

theorem State.inboxStored_mem : (s.inboxStored core slot m).mem =
    (s.mem.writeA ((s.core core).inboxAddr + 8) (inboxBody m)).writeA (s.core core).inboxAddr (bytesOf (msgRecord m slot) 8) := by
  have body := State.performHome_of_clean inboxWriter ((s.core core).inboxAddr + 8) (inboxBody m) false
    (s.inboxAgent core).did lines caches
  have header := State.performHome_of_clean inboxWriter (s.core core).inboxAddr (bytesOf (msgRecord m slot) 8) false
    (s.inboxAgent core).did (body.errLines.trans lines) (body.sramErrs caches)
  rw [State.inboxStored, (State.leaveInbox_memKept _ core).mem, header.mem, body.mem]

theorem State.inboxStored_core {β : Type} (f : Core → β) (blind : ∀ k l, f (Core.dropLine k l) = f k) (n : CoreId) :
    f ((s.inboxStored core slot m).core n) = f (s.core n) := by
  obtain ⟨lines', caches'⟩ := State.performHome_clean inboxWriter ((s.core core).inboxAddr + 8) (inboxBody m) false
    (s.inboxAgent core).did lines caches
  rw [State.inboxStored, State.leaveInbox_core,
    State.performHome_core f blind _ _ _ _ _ lines' caches',
    State.performHome_core f blind _ _ _ _ _ lines caches]

omit lines caches in
theorem State.inboxStored_kept : s.CtxKept (s.inboxStored core slot m) :=
  ((State.performHome_kept _ _ _ _ _ _).trans (State.performHome_kept _ _ _ _ _ _)).trans (State.leaveInbox_kept _ core)

/-- Every line of the record is tagged with the partition of its ring (R435). -/
theorem State.inboxStored_tags {l : Nat} (inside : l ∈ linesOf (s.core core).inboxAddr 128) :
    (s.inboxStored core slot m).tags.find? l = some ⟨false, (s.core core).part ++ 0#3⟩ := by
  have aligned : (s.core core).inboxAddr % 128 = 0 := by unfold Core.inboxAddr; omega
  obtain ⟨lines', caches'⟩ := State.performHome_clean inboxWriter ((s.core core).inboxAddr + 8) (inboxBody m) false
    (s.inboxAgent core).did lines caches
  rw [State.inboxStored, State.leaveInbox_tags,
    State.performHome_tags _ _ _ _ _ lines' caches',
    State.performHome_tags _ _ _ _ _ lines caches, Tbl.find?_foldl_set, Tbl.find?_foldl_set, length_inboxBody,
    linesOf_body aligned, if_pos inside, ite_self]
  rfl

end

section
variable {a : Nat} {m : Msg} {slot : Nat} {mem : Memory} (wf : Memory.wf mem = true)
  (plain : ∀ i, i < 128 → isReport (a + i) = false)
include wf plain

theorem Memory.readN_inboxHeader :
    natOf (((mem.writeA (a + 8) (inboxBody m)).writeA a (bytesOf (msgRecord m slot) 8)).readN a 8) = msgRecord m slot := by
  have header := Memory.readN_writeA (Memory.writeA_wf mem (a + 8) (inboxBody m) wf) a (bytesOf (msgRecord m slot) 8)
    fun i hi => plain i (by rw [length_bytesOf] at hi; omega)
  rw [length_bytesOf] at header
  rw [header, natOf_bytesOf]
  exact Nat.mod_eq_of_lt (msgRecord_lt m slot)

theorem Memory.readN_inboxPayload :
    ((mem.writeA (a + 8) (inboxBody m)).writeA a (bytesOf (msgRecord m slot) 8)).readN (a + 64) 64 =
      bytesOf m.payload.toNat 64 := by
  have payload := Memory.readN_writeA_last wf (a + 8) (List.replicate 56 0) (bytesOf m.payload.toNat 64) fun i hi => by
    rw [length_bytesOf, List.length_replicate] at hi
    rw [Nat.add_assoc]
    exact plain _ (by omega)
  rw [length_bytesOf, List.length_replicate] at payload
  rw [← payload]
  exact Memory.readN_congr fun i _ => Memory.read_writeA_other _ _ _ _ (Memory.writeA_wf mem _ _ wf) (by
    rw [length_bytesOf]
    omega)

end

theorem Core.inboxMoved_wp (q : Core) (slot : Nat) :
    (q.inboxMoved slot).wp.toNat = (q.wp.toNat + 1) % 2 ^ min q.inSz.toNat 12 % 4096 := BitVec.toNat_ofNat _ _

theorem Core.inboxMoved_defer (q : Core) {slot : Nat} (few : slot < 8) : (q.inboxMoved slot).defer.getLsbD slot = true := by
  simp [Core.inboxMoved, few]

theorem Ctx.inboxWoken_of_parked {z : Ctx} (parked : z.run = .parked .waitm) : z.inboxWoken.run = .running := by
  simp [Ctx.inboxWoken, Ctx.inWaitm, parked, Ctx.resumed]

theorem Ctx.inboxWoken_of_awake {z : Ctx} (awake : z.run ≠ .parked .waitm) : z.inboxWoken.wake = true := by
  simp [Ctx.inboxWoken, Ctx.inWaitm, awake]

/-- R310, R311, R425: when a record waits, when it is held, and what it is. -/
theorem inboxClaims : InboxClaims := by
  intro s core slot m
  have kept : ((s.inboxStored core slot m).ctx (core * 8 + 7)).run = (s.ctx (core * 8 + 7)).run := by
    rw [(State.inboxStored_kept s core slot m).ctx_eq]
    rfl
  refine ⟨fun closed => ?_, fun opened waits => ?_, fun wf opened free lines caches few plain => ?_⟩
  · simp [State.inboxWrite, closed]
  · unfold State.inboxWrite
    dsimp only
    have waits' : s.leaseFree (s.core core).inboxAddr 128 = false := waits
    rw [opened, waits']
    rfl
  · have stored : ((State.modCore (s.inboxStored core slot m) core fun q => q.inboxMoved slot).modCtx (core * 8 + 7)
        Ctx.inboxWoken).mem = (s.mem.writeA ((s.core core).inboxAddr + 8) (inboxBody m)).writeA (s.core core).inboxAddr
          (bytesOf (msgRecord m slot) 8) :=
      State.inboxStored_mem s core slot m lines caches
    refine ⟨_, State.inboxWrite_of_free s core slot m opened free, ?_, ?_, ?_, ?_, ?_, ?_, ?_⟩
    · rw [stored]
      exact (Memory.readN_inboxHeader wf plain).trans (msgRecord_of_slot m few)
    · rw [stored]
      exact Memory.readN_inboxPayload wf plain
    · have place := State.inboxStored_core s core slot m lines caches Core.wp (fun _ _ => rfl) core
      have size := State.inboxStored_core s core slot m lines caches Core.inSz (fun _ _ => rfl) core
      rw [State.modCtx_core, State.modCore_core_same, Core.inboxMoved_wp, place, size]
    · rw [State.modCtx_core, State.modCore_core_same]
      exact Core.inboxMoved_defer _ few
    · exact fun l inside => State.inboxStored_tags s core slot m lines caches inside
    · intro parked
      rw [State.modCtx_ctx_same]
      exact Ctx.inboxWoken_of_parked (kept.trans parked)
    · intro awake
      rw [State.modCtx_ctx_same]
      exact Ctx.inboxWoken_of_awake fun parked => awake (kept.symm.trans parked)

end Sys2Proof.Machine

/-! The statements of spec/09_streams_engines_tasks_messages.md. -/

namespace Sys2Proof.Proofs

open Sys2Proof.Machine

/-- Settles O23: the pane that PALLOC takes is the first of an increasing list at which it fits; PSTATE and PFREE check
the word, the owner and the state in order. -/
theorem panes : Obligations.Panes := ⟨paneAllocClaims, paneBaseClaims, paneStateClaims⟩

/-- Settles O24: every command acts in the world of its core's Gust; SDECL and SUNBIND then end a drained stream. -/
theorem streams : Obligations.Streams := ⟨streamClaims, streamWorldClaims, streamFieldClaims, streamEndClaims⟩

/-- Settles O25: SEAL by its checks in order, with the domain that reading its descriptor leaves; UNSEAL and RELB by the buffer
that their address names; the jobs by one lemma over their kind. -/
theorem buffersAndJobs : Obligations.BuffersAndJobs := ⟨sealClaims, jobClaims⟩

/-- Settles O26: the checks of RSPAWN in order; DQPUSH and DQPOP by whether the deque is open, full or empty. -/
theorem tasks : Obligations.Tasks := ⟨spawnClaims, dequeClaims⟩

/-- Settles O27: GNEW by the first free number, GADD by its checks; activation and GSTOP by what a loop over the members does to
each of them. -/
theorem gangs : Obligations.Gangs := ⟨gangClaims, activateClaims, gangStopClaims⟩

/-- Settles O28: GBAR by the arrival of its context, GCAST by its source. -/
theorem barriers : Obligations.Barriers := barrierClaims

/-- Settles O29: MSEND by the release that it waits for, MRECV by the place that its address names. -/
theorem messages : Obligations.Messages := ⟨sendClaims, receiveClaims⟩

/-- Settles O30: a wait goes by the first of its conditions that holds, in a context that keeps no log. -/
theorem waits : Obligations.Waits := ⟨waitClaims, idleClaims⟩

/-- Settles O39: a start and a block by whether what they read is there, an end by what its record waits for. -/
theorem jobEvents : Obligations.JobEvents := ⟨jobStartClaims, jobBlockClaims, jobEndClaims⟩

/-- Settles O40: a synchronisation changes only what a context has seen, and a barrier's loop works on one member in each round. -/
theorem gangEvents : Obligations.GangEvents := ⟨taskEventClaims, gangEventClaims⟩

/-- Settles O41: a delivery by its kind and whether its target is parked, an inbox record by the two writes that make it. -/
theorem messageEvents : Obligations.MessageEvents := ⟨holdClaims, messageEventClaims, inboxClaims⟩

end Sys2Proof.Proofs

/-! The requests of a function's host, in their order (R467, R476). -/

namespace Sys2Proof.Machine

/-! Functions after an update of one of them. -/

@[simp] theorem State.setFn_fn_same (s : State) (p f : Nat) (r : Fn) : (s.setFn p f r).fn p f = r := Tbl.getD_set_same ..
@[simp] theorem State.modFn_fn_same (s : State) (p f : Nat) (g : Fn → Fn) : (s.modFn p f g).fn p f = g (s.fn p f) :=
  Tbl.getD_set_same ..

/-- The event `i` is a request of a function's host, which takes its turn among the requests of the function (R467). -/
def IsRequest (p f : Nat) (i : Instr) (waits : State → Bool) (go : State → State) : Prop :=
  ∀ s, exec i s = .next (s.inFnOrder p f i (waits s) (go s))

section
variable {s go : State} {p f : Nat} {i j : Instr} {waits : Bool} {t : List Instr}

theorem State.inFnOrder_of_down (down : s.hostUp = false) : s.inFnOrder p f i waits go = s := by
  simp [State.inFnOrder, down]

theorem State.inFnOrder_of_behind (up : s.hostUp = true) (behind : s.behind p f i = true) :
    s.inFnOrder p f i waits go = s.modFn p f fun r => { r with queue := r.queue ++ [i] } := by
  simp [State.inFnOrder, up, behind]

theorem State.inFnOrder_of_waiting (up : s.hostUp = true) (first : s.behind p f i = false) :
    s.inFnOrder p f i true go =
      (s.modFn p f fun r => { r with queue := if r.queue = [] then [i] else r.queue }).after 8 i := by
  simp [State.inFnOrder, up, first]

theorem State.inFnOrder_of_served (up : s.hostUp = true) (first : s.behind p f i = false) :
    s.inFnOrder p f i false go = go.nextRequest p f := by
  simp [State.inFnOrder, up, first]

theorem State.behind_of_noQueue (i : Instr) (empty : (s.fn p f).queue = []) : s.behind p f i = false := by
  simp [State.behind, empty]

theorem State.nextRequest_of_none (empty : (s.fn p f).queue = []) : s.nextRequest p f = s := by
  simp [State.nextRequest, empty]

theorem State.nextRequest_of_last (last : (s.fn p f).queue = [i]) :
    s.nextRequest p f = s.modFn p f fun r => { r with queue := [] } := by
  simp [State.nextRequest, last]

theorem State.nextRequest_of_more (more : (s.fn p f).queue = i :: j :: t) :
    s.nextRequest p f = (s.modFn p f fun r => { r with queue := j :: t }).after 0 j := by
  simp [State.nextRequest, more]

end

section
variable {p f : Nat} {i : Instr} {waits : State → Bool} {go act : State → State} {pre : State → Prop}
  (request : IsRequest p f i waits go)
include request

theorem IsRequest.queues : Queues p f i :=
  ⟨happens_of request fun _ down => State.inFnOrder_of_down down,
    happens_of request fun _ ⟨up, behind⟩ => State.inFnOrder_of_behind up behind⟩

/-- A request whose turn it is and that waits for no link does its work. -/
theorem IsRequest.serves (free : ∀ s, pre s → waits s = false) (works : ∀ s, pre s → go s = act s) : Serves p f i pre act :=
  happens_of request fun s ⟨up, first, cond⟩ => by
    rw [free s cond, State.inFnOrder_of_served up first, works s cond]

/-- A request whose turn it is and whose links retrain stays the first of its function, and is examined again 8 clk later (R476). -/
theorem IsRequest.holds (held : ∀ s, pre s → waits s = true) :
    Happens i (fun s => s.hostUp = true ∧ s.behind p f i = false ∧ pre s)
      (fun s => (s.modFn p f fun r => { r with queue := if r.queue = [] then [i] else r.queue }).after 8 i) :=
  happens_of request fun s ⟨up, first, cond⟩ => by
    rw [held s cond, State.inFnOrder_of_waiting up first]

end

end Sys2Proof.Machine

/-! Inbound reads and writes (R340, R364, R459, R466-R472, R476). -/

namespace Sys2Proof.Machine

/-- What a host read does in its turn (R466, R467). -/
def State.readInbound (s : State) (p f off len : Nat) (bar0 ide : Bool) : State :=
  if !(s.fn p f).accepts ide then s.abortRead p f 2
  else if 4096 < len then s.abortRead p f 0
  else if bar0 then s.completeRead p f ((s.fn p f).bar0Bytes off len)
  else match s.inboundAll p f false (linePieces (len / 64 + 2) off len) with
    | .error b => s.abortRead p f b
    | .ok qs => s.completeRead p f (qs.flatMap fun q => s.mem.readN q.1 q.2)

/-- What a host write does in its turn (R466, R467). -/
def State.writeInbound (s : State) (p f off : Nat) (data : List Byte) (bar0 ide : Bool) : State :=
  if !(s.fn p f).accepts ide then s.setFerr p f 2
  else if 512 < data.length then s.setFerr p f 0
  else if bar0 then (if off % 4 = 0 then s.bar0Writes p f off data else s)
  else match s.inboundAll p f true (linePieces (data.length / 64 + 2) off data.length) with
    | .error b => s.setFerr p f b
    | .ok qs => s.inboundParts p f qs data

/-- Does a request of at most `limit` bytes whose function accepts it wait for links (R476)? -/
def State.heldInbound (s : State) (p f off len limit : Nat) (bar0 ide : Bool) : Bool :=
  (s.fn p f).accepts ide && decide (len ≤ limit) && !bar0 && s.requestWaits p f off len

theorem isRequest_inboundRead (p f off len : Nat) (bar0 ide : Bool) : IsRequest p f (.inboundRead p f off len bar0 ide)
    (fun s => s.heldInbound p f off len 4096 bar0 ide) (fun s => s.readInbound p f off len bar0 ide) := fun _ => rfl

theorem isRequest_inboundWrite (p f off : Nat) (data : List Byte) (bar0 ide : Bool) :
    IsRequest p f (.inboundWrite p f off data bar0 ide)
    (fun s => s.heldInbound p f off data.length 512 bar0 ide) (fun s => s.writeInbound p f off data bar0 ide) := fun _ => rfl

section
variable {s : State} {p f off len limit b : Nat} {bar0 ide : Bool} {data : List Byte} {qs : List (Nat × Nat)}

/-! When a request waits for links. -/

theorem State.heldInbound_of_refused (refused : ¬ (s.fn p f).accepts ide = true) :
    s.heldInbound p f off len limit bar0 ide = false := by
  simp [State.heldInbound, refused]

theorem State.heldInbound_of_long (long : limit < len) : s.heldInbound p f off len limit bar0 ide = false := by
  simp [State.heldInbound, Nat.not_le.mpr long]

theorem State.heldInbound_bar0 : s.heldInbound p f off len limit true ide = false := by simp [State.heldInbound]

/-- A request to memory that its function accepts waits as long as links of its route retrain. -/
theorem State.heldInbound_of_accepted (accepted : (s.fn p f).accepts ide = true) (short : len ≤ limit) :
    s.heldInbound p f off len limit false ide = s.requestWaits p f off len := by
  simp [State.heldInbound, accepted, short]

/-! What a read does. -/

theorem State.readInbound_of_refused (refused : ¬ (s.fn p f).accepts ide = true) :
    s.readInbound p f off len bar0 ide = s.abortRead p f 2 := by
  simp [State.readInbound, refused]

theorem State.readInbound_of_long (accepted : (s.fn p f).accepts ide = true) (long : 4096 < len) :
    s.readInbound p f off len bar0 ide = s.abortRead p f 0 := by
  simp [State.readInbound, accepted, long]

theorem State.readInbound_bar0 (accepted : (s.fn p f).accepts ide = true) (short : len ≤ 4096) :
    s.readInbound p f off len true ide = s.says (.data p f ((s.fn p f).bar0Bytes off len)) := by
  simp [State.readInbound, State.completeRead, State.says, accepted, Nat.not_lt.mpr short]

theorem State.readInbound_of_ok (accepted : (s.fn p f).accepts ide = true) (short : len ≤ 4096)
    (found : s.inboundAll p f false (linePieces (len / 64 + 2) off len) = .ok qs) :
    s.readInbound p f off len false ide = s.says (.data p f (qs.flatMap fun q => s.mem.readN q.1 q.2)) := by
  simp [State.readInbound, State.completeRead, State.says, accepted, Nat.not_lt.mpr short, found]

theorem State.readInbound_of_error (accepted : (s.fn p f).accepts ide = true) (short : len ≤ 4096)
    (fault : s.inboundAll p f false (linePieces (len / 64 + 2) off len) = .error b) :
    s.readInbound p f off len false ide = s.abortRead p f b := by
  simp [State.readInbound, accepted, Nat.not_lt.mpr short, fault]

/-! What a write does. -/

theorem State.writeInbound_of_refused (refused : ¬ (s.fn p f).accepts ide = true) :
    s.writeInbound p f off data bar0 ide = s.setFerr p f 2 := by
  simp [State.writeInbound, refused]

theorem State.writeInbound_of_long (accepted : (s.fn p f).accepts ide = true) (long : 512 < data.length) :
    s.writeInbound p f off data bar0 ide = s.setFerr p f 0 := by
  simp [State.writeInbound, accepted, long]

theorem State.writeInbound_bar0 (accepted : (s.fn p f).accepts ide = true) (short : data.length ≤ 512) :
    s.writeInbound p f off data true ide = if off % 4 = 0 then s.bar0Writes p f off data else s := by
  simp [State.writeInbound, accepted, Nat.not_lt.mpr short]

theorem State.writeInbound_of_ok (accepted : (s.fn p f).accepts ide = true) (short : data.length ≤ 512)
    (found : s.inboundAll p f true (linePieces (data.length / 64 + 2) off data.length) = .ok qs) :
    s.writeInbound p f off data false ide = s.inboundParts p f qs data := by
  simp [State.writeInbound, accepted, Nat.not_lt.mpr short, found]

theorem State.writeInbound_of_error (accepted : (s.fn p f).accepts ide = true) (short : data.length ≤ 512)
    (fault : s.inboundAll p f true (linePieces (data.length / 64 + 2) off data.length) = .error b) :
    s.writeInbound p f off data false ide = s.setFerr p f b := by
  simp [State.writeInbound, accepted, Nat.not_lt.mpr short, fault]

end

/-- A word of the MSI-X table in BAR0 is that of its vector (R466). -/
theorem Fn.bar0Word_msix (r : Fn) {vec w : Nat} (hvec : vec < 16) (hw : w < 4) :
    r.bar0Word (0x1000 + 16 * vec + 4 * w) = (r.vector vec).extractLsb' (32 * w) 32 := by
  have entry : (0x1000 + 16 * vec + 4 * w - 0x1000) / 16 = vec := by omega
  have bits : 8 * ((0x1000 + 16 * vec + 4 * w) % 16) = 32 * w := by omega
  rw [Fn.bar0Word, if_neg (by omega), if_pos (by omega), entry, bits]

/-- R340, R364, R459, R466-R472, R476: inbound requests. -/
theorem inboundClaims : InboundClaims := by
  intro p f off len bar0 ide data
  refine ⟨?reads, ?writes, ?order, ?bar0⟩
  case reads =>
    have request := isRequest_inboundRead p f off len bar0 ide
    have far := isRequest_inboundRead p f off len false ide
    refine ⟨request.queues, request.serves ?_ ?_, request.serves ?_ ?_,
      (isRequest_inboundRead p f off len true ide).serves ?_ ?_, far.holds ?_, fun qs => far.serves ?_ ?_, fun b => far.serves ?_ ?_⟩
    · exact fun s refused => State.heldInbound_of_refused refused
    · exact fun s refused => State.readInbound_of_refused refused
    · exact fun s ⟨_, long⟩ => State.heldInbound_of_long long
    · exact fun s ⟨accepted, long⟩ => State.readInbound_of_long accepted long
    · exact fun s _ => State.heldInbound_bar0
    · exact fun s ⟨accepted, short⟩ => State.readInbound_bar0 accepted short
    · exact fun s ⟨accepted, short, waits⟩ => (State.heldInbound_of_accepted accepted short).trans waits
    · exact fun s ⟨accepted, short, free, _⟩ => (State.heldInbound_of_accepted accepted short).trans free
    · exact fun s ⟨accepted, short, _, found⟩ => State.readInbound_of_ok accepted short found
    · exact fun s ⟨accepted, short, free, _⟩ => (State.heldInbound_of_accepted accepted short).trans free
    · exact fun s ⟨accepted, short, _, fault⟩ => State.readInbound_of_error accepted short fault
  case writes =>
    have request := isRequest_inboundWrite p f off data bar0 ide
    have far := isRequest_inboundWrite p f off data false ide
    refine ⟨request.queues, request.serves ?_ ?_, request.serves ?_ ?_,
      (isRequest_inboundWrite p f off data true ide).serves ?_ ?_, far.holds ?_, fun qs => far.serves ?_ ?_, fun b => far.serves ?_ ?_⟩
    · exact fun s refused => State.heldInbound_of_refused refused
    · exact fun s refused => State.writeInbound_of_refused refused
    · exact fun s ⟨_, long⟩ => State.heldInbound_of_long long
    · exact fun s ⟨accepted, long⟩ => State.writeInbound_of_long accepted long
    · exact fun s _ => State.heldInbound_bar0
    · exact fun s ⟨accepted, short⟩ => State.writeInbound_bar0 accepted short
    · exact fun s ⟨accepted, short, waits⟩ => (State.heldInbound_of_accepted accepted short).trans waits
    · exact fun s ⟨accepted, short, free, _⟩ =>
        (State.heldInbound_of_accepted accepted short).trans (Bool.eq_false_of_not_eq_true free)
    · exact fun s ⟨accepted, short, _, found⟩ => State.writeInbound_of_ok accepted short found
    · exact fun s ⟨accepted, short, free, _⟩ =>
        (State.heldInbound_of_accepted accepted short).trans (Bool.eq_false_of_not_eq_true free)
    · exact fun s ⟨accepted, short, _, fault⟩ => State.writeInbound_of_error accepted short fault
  case order =>
    exact fun s i => ⟨fun empty => ⟨State.behind_of_noQueue i empty, State.nextRequest_of_none empty⟩,
      State.nextRequest_of_last, fun j t => State.nextRequest_of_more⟩
  case bar0 => exact fun r => ⟨rfl, rfl, rfl, fun vec w => r.bar0Word_msix⟩

end Sys2Proof.Machine

/-! Doorbells and the MSI-X table, as the host writes them (R466, R468-R470, R472). -/

namespace Sys2Proof.Machine

/-- A field that is written reads back bit by bit, and the bits outside it stay. -/
theorem getLsbD_putSlice {w : Nat} (b : BitVec w) (lo n x : Nat) {i : Nat} (hi : i < w) :
    (putSlice b lo n x).getLsbD i = if lo ≤ i ∧ i < lo + n then x.testBit (i - lo) else b.getLsbD i := by
  have ones : ((2 ^ n - 1) <<< lo).testBit i = decide (lo ≤ i ∧ i < lo + n) := by
    rw [Nat.testBit_shiftLeft, Nat.testBit_two_pow_sub_one, Bool.eq_iff_iff]
    simp only [Bool.and_eq_true, decide_eq_true_eq]
    omega
  have field : ((x % 2 ^ n) <<< lo).testBit i = (decide (lo ≤ i ∧ i < lo + n) && x.testBit (i - lo)) := by
    rw [Nat.testBit_shiftLeft, Nat.testBit_mod_two_pow, ← Bool.and_assoc]
    congr 1
    rw [Bool.eq_iff_iff]
    simp only [Bool.and_eq_true, decide_eq_true_eq]
    omega
  simp only [putSlice, BitVec.getLsbD_or, BitVec.getLsbD_and, BitVec.getLsbD_not, BitVec.getLsbD_ofNat, hi, ones, field,
    decide_true, Bool.true_and]
  by_cases inside : lo ≤ i ∧ i < lo + n <;> simp [inside]

/-- A field below the one that is written stays. -/
theorem extractLsb'_putSlice_below {w : Nat} (b : BitVec w) {a m lo : Nat} (n x : Nat) (below : a + m ≤ lo) (inside : lo ≤ w) :
    (putSlice b lo n x).extractLsb' a m = b.extractLsb' a m := by
  ext i hi
  rw [BitVec.getElem_extractLsb', BitVec.getElem_extractLsb', getLsbD_putSlice b lo n x (by omega), if_neg (by omega)]

section
variable {s : State} {p f vec : Nat} {v : BitVec 32} {ide : Bool}

/-- A function whose vector has a new control word (R466). -/
def Fn.putControl (r : Fn) (vec : Nat) (v : BitVec 32) : Fn :=
  { r with msix := r.msix.setIfInBounds vec (putSlice (r.vector vec) 96 32 v.toNat) }

theorem Fn.putControl_vector (r : Fn) (v : BitVec 32) (hvec : vec < 16) :
    (r.putControl vec v).vector vec = putSlice (r.vector vec) 96 32 v.toNat := by
  simp [Fn.putControl, Fn.vector, hvec]

/-- Bit 0 of the control word masks the vector (R470). -/
theorem Fn.putControl_vecMasked (r : Fn) (v : BitVec 32) (hvec : vec < 16) :
    (r.putControl vec v).vecMasked vec = v.getLsbD 0 := by
  rw [Fn.vecMasked, r.putControl_vector v hvec, getLsbD_putSlice _ 96 32 _ (by decide), if_pos (by decide)]
  rfl

/-- A control word that leaves its vector masked, or that finds it not pending, sends nothing (R470). -/
theorem State.writeMsix_of_kept (hvec : vec < 16) (kept : ¬ ((s.fn p f).pend.getLsbD vec = true ∧ v.getLsbD 0 = false)) :
    s.writeMsix p f vec 3 v = s.setFn p f ((s.fn p f).putControl vec v) := by
  refine if_neg fun sent => kept ?_
  obtain ⟨pending, unmasked⟩ := (Bool.and_eq_true _ _).mp sent
  exact ⟨pending, ((s.fn p f).putControl_vecMasked v hvec).symm.trans ((Bool.not_eq_true' _).mp unmasked)⟩

/-- A control word that unmasks a pending vector sends it, with the address and the data of its table entry (R470). -/
theorem State.writeMsix_of_sent (hvec : vec < 16) (pending : (s.fn p f).pend.getLsbD vec = true) (unmasked : v.getLsbD 0 = false) :
    s.writeMsix p f vec 3 v = (s.setFn p f { (s.fn p f).putControl vec v with
      pend := (s.fn p f).pend &&& ~~~ BitVec.twoPow 16 vec }).says
        (.msix p f vec (((s.fn p f).vector vec).extractLsb' 0 64) (((s.fn p f).vector vec).extractLsb' 64 32)) := by
  have masked : ((s.fn p f).putControl vec v).vecMasked vec = false :=
    ((s.fn p f).putControl_vecMasked v hvec).trans unmasked
  have entry := (s.fn p f).putControl_vector v hvec
  have sends : s.writeMsix p f vec 3 v = (s.setFn p f { (s.fn p f).putControl vec v with
      pend := (s.fn p f).pend &&& ~~~ BitVec.twoPow 16 vec }).emitMsix p f vec :=
    if_pos ((Bool.and_eq_true _ _).mpr ⟨pending, (Bool.not_eq_true' _).mpr masked⟩)
  have same : (({ (s.fn p f).putControl vec v with pend := (s.fn p f).pend &&& ~~~ BitVec.twoPow 16 vec } : Fn)).vector vec =
      putSlice ((s.fn p f).vector vec) 96 32 v.toNat := entry
  rw [sends, State.emitMsix, State.setFn_fn_same, same, extractLsb'_putSlice_below _ 32 _ (by decide) (by decide),
    extractLsb'_putSlice_below _ 32 _ (by decide) (by decide)]
  rfl

/-- A request to BAR0 acts where the TDISP state accepts it, and sets FERR.IDEF otherwise (R472). -/
theorem State.onBar0_of_accepted {go : State → State} (accepted : (s.fn p f).accepts ide = true) :
    s.onBar0 p f ide go = go s := if_pos accepted

theorem State.onBar0_of_refused {go : State → State} (refused : (s.fn p f).accepts ide = false) :
    s.onBar0 p f ide go = s.setFerr p f 2 := if_neg (by simp [refused])

theorem isRequest_hostDoorbellWrite (p f : Nat) (v : BitVec 32) (ide : Bool) :
    IsRequest p f (.hostDoorbellWrite p f v ide) (fun _ => false)
      (fun s => s.onBar0 p f ide fun t => t.ringDoorbell p f v) := fun _ => rfl

theorem isRequest_hostMsixUnmask (p f vec : Nat) (v : BitVec 32) (ide : Bool) :
    IsRequest p f (.hostMsixUnmask p f vec v ide) (fun _ => false)
      (fun s => s.onBar0 p f ide fun t => t.writeMsix p f vec 3 v) := fun _ => rfl

/-- A request to BAR0 queues with the others of its function, and one that the TDISP state refuses sets FERR.IDEF (R467, R472). -/
theorem IsRequest.onBar0 {i : Instr} {go : State → State}
    (request : IsRequest p f i (fun _ => false) fun s => s.onBar0 p f ide go) :
    Queues p f i ∧ Serves p f i (fun s => (s.fn p f).accepts ide = false) (fun s => s.setFerr p f 2) :=
  ⟨request.queues, request.serves (fun _ _ => rfl) fun _ refused => State.onBar0_of_refused refused⟩

/-- The control word of a vector, written by a host whose requests do not wait (R466, R470). -/
theorem exec_hostMsixUnmask (up : s.hostUp = true) (empty : (s.fn p f).queue = []) (accepted : (s.fn p f).accepts ide = true)
    (kept : ((s.writeMsix p f vec 3 v).fn p f).queue = []) :
    exec (.hostMsixUnmask p f vec v ide) s = .next (s.writeMsix p f vec 3 v) := by
  rw [isRequest_hostMsixUnmask p f vec v ide s, State.inFnOrder_of_served up (State.behind_of_noQueue _ empty)]
  dsimp only
  rw [State.onBar0_of_accepted accepted, State.nextRequest_of_none kept]

/-! Prepared doorbell messages (R469). -/

@[simp] theorem exec_doorbellMessageSend (p f : Nat) (s : State) :
    exec (.doorbellMessageSend p f) s = execDoorbellMessageSend p f s := rfl

theorem exec_doorbellMessageSend_of_none (idle : (s.fn p f).dbWait = []) : exec (.doorbellMessageSend p f) s = .next s := by
  simp [execDoorbellMessageSend, idle]

variable {note : BitVec 32} {ids : List Nat} {t : List (BitVec 32 × List Nat)}

theorem exec_doorbellMessageSend_of_early (prepared : (s.fn p f).dbWait = (note, ids) :: t)
    (early : ∃ i, i ∈ ids ∧ i ∈ (s.fn p f).reqs) :
    exec (.doorbellMessageSend p f) s = .next (s.after 8 (.doorbellMessageSend p f)) := by
  have waits : (ids.any fun i => decide (i ∈ (s.fn p f).reqs)) = true := by simpa using early
  simp [execDoorbellMessageSend, prepared, waits]

/-- A prepared message leaves once the requests before it are performed, and tries again where its target does not take it. -/
theorem exec_doorbellMessageSend_of_due (prepared : (s.fn p f).dbWait = (note, ids) :: t)
    (due : ∀ i, i ∈ ids → i ∉ (s.fn p f).reqs) {u : State} {ok : Bool}
    (sent : s.deliverTo ((s.fn p f).dbCtx.toNat % 8192) (doorbellMsg p f note) = (u, ok)) :
    exec (.doorbellMessageSend p f) s = .next (if ok = true then u.modFn p f fun r => { r with dbWait := t }
      else u.after 8 (.doorbellMessageSend p f)) := by
  have free : (ids.any fun i => decide (i ∈ (s.fn p f).reqs)) = false := by simpa using due
  simp [execDoorbellMessageSend, prepared, free, sent]

end

/-- R466, R468-R470, R472: doorbells and the MSI-X table. -/
theorem hostWriteClaims : HostWriteClaims := by
  intro p f vec v ide
  refine ⟨?queues, ?rings, ?unmasks, fun s => exec_doorbellMessageSend_of_none, ?sends⟩
  case queues =>
    intro i member
    simp only [List.mem_cons, List.not_mem_nil, or_false] at member
    obtain rfl | rfl := member
    · exact (isRequest_hostDoorbellWrite p f v ide).onBar0
    · exact (isRequest_hostMsixUnmask p f vec v ide).onBar0
  case rings =>
    exact (isRequest_hostDoorbellWrite p f v ide).serves (fun _ _ => rfl) fun _ accepted => State.onBar0_of_accepted accepted
  case unmasks =>
    intro s up empty accepted hvec
    have entry := (s.fn p f).putControl_vector v hvec
    have masked := (s.fn p f).putControl_vecMasked v hvec
    by_cases sent : (s.fn p f).pend.getLsbD vec = true ∧ v.getLsbD 0 = false
    · obtain ⟨pending, unmasked⟩ := sent
      have acts := State.writeMsix_of_sent hvec pending unmasked
      have after : ((s.writeMsix p f vec 3 v).fn p f) = { (s.fn p f).putControl vec v with
          pend := (s.fn p f).pend &&& ~~~ BitVec.twoPow 16 vec } := by rw [acts]; exact State.setFn_fn_same ..
      refine ⟨_, exec_hostMsixUnmask up empty accepted (by rw [after]; exact empty), ?_, ?_, ?_, ?_, ?_⟩
      · rw [after]; exact entry
      · rw [after]; exact masked
      · intro _
        rw [after]
        simp [hvec]
      · exact fun set => absurd (unmasked.symm.trans set) (by decide)
      · rw [acts, if_pos ⟨pending, unmasked⟩]
        rfl
    · have acts := State.writeMsix_of_kept hvec sent
      have after : ((s.writeMsix p f vec 3 v).fn p f) = (s.fn p f).putControl vec v := by rw [acts]; exact State.setFn_fn_same ..
      refine ⟨_, exec_hostMsixUnmask up empty accepted (by rw [after]; exact empty), ?_, ?_, ?_, ?_, ?_⟩
      · rw [after, entry]
      · rw [after, masked]
      · intro clear
        rw [after]
        exact Bool.eq_false_of_not_eq_true fun pending => sent ⟨pending, clear⟩
      · intro _
        rw [after]
        rfl
      · rw [acts, if_neg sent, List.append_nil]
        rfl
  case sends =>
    exact fun s note ids t prepared => ⟨exec_doorbellMessageSend_of_early prepared,
      fun due u ok sent => exec_doorbellMessageSend_of_due prepared due sent⟩

end Sys2Proof.Machine

/-! Completions, errors and time-outs of outbound reads (R340, R461, R471). -/

namespace Sys2Proof.Machine

section
variable {s : State} {c : CtxId} {w : BitVec 32} {va data : Word} {pa n : Nat} {fn : Option (Nat × Nat)}

@[simp] theorem exec_outboundCompletion (c : CtxId) (data : Word) (ok : Bool) (s : State) :
    exec (.outboundCompletion c data ok) s = execOutboundCompletion c data ok s := rfl
@[simp] theorem exec_peerReadTimeout (c : CtxId) (s : State) : exec (.peerReadTimeout c) s = execPeerReadTimeout c s := rfl

/-- Which outbound read a context waits for: its address, and the function that sent it. -/
def Wait.readsFar : Wait → Option (Word × Option (Nat × Nat))
  | .outbound _ va _ fn => some (va, fn)
  | .block va _ _ fn => some (va, fn)
  | .fetch va _ fn => some (va, fn)
  | .tables va fn => some (va, fn)
  | _ => Option.none

/-- A completion with an error ends whatever outbound read the context waits for (R471). -/
theorem exec_outboundCompletion_of_error (far : (s.ctx c).wait.readsFar = some (va, fn)) :
    exec (.outboundCompletion c data false) s = .next (s.outboundError c va fn) := by
  rw [exec_outboundCompletion, execOutboundCompletion]
  revert far
  cases (s.ctx c).wait <;> rintro ⟨⟩ <;> rfl

/-- A completion for a context that waits for no outbound read has no effect. -/
theorem exec_outboundCompletion_of_none (ok : Bool) (near : (s.ctx c).wait.readsFar = none) :
    exec (.outboundCompletion c data ok) s = .next s := by
  rw [exec_outboundCompletion, execOutboundCompletion]
  revert near
  cases (s.ctx c).wait <;> rintro ⟨⟩ <;> rfl

theorem exec_peerReadTimeout_of_none (near : (s.ctx c).wait.readsFar = none) : exec (.peerReadTimeout c) s = .next s := by
  rw [exec_peerReadTimeout, execPeerReadTimeout]
  revert near
  cases (s.ctx c).wait <;> rintro ⟨⟩ <;> rfl

/-- A primary hands what it has read to its shadow (R509; log entry 49). -/
theorem State.lend_of_single (ok : Bool) (cells : List Host.Cell) (single : (s.ctx c).red = none) : s.lend c ok cells = s := by
  simp [State.lend, single]

theorem State.lend_of_member (ok : Bool) (cells : List Host.Cell) {r : Redundant} (member : (s.ctx c).red = some r) :
    s.lend c ok cells = if r.primary = true then s.modCtx r.partner fun k =>
      { k with red := k.red.map fun q => { q with far := some (ok, cells) } } else s := by
  simp [State.lend, member]

end

/-- R340, R461, R471: completions, errors and time-outs of outbound reads. -/
theorem completionClaims : CompletionClaims := by
  intro c data va pa fn
  refine ⟨fun w => ⟨?load, ?late⟩, fun n => ?block, ?fetch, ?tables, ?error, ?idle, fun s p f => ⟨rfl, rfl⟩,
    fun s ok cells => ⟨State.lend_of_single ok cells, fun r => State.lend_of_member ok cells⟩⟩
  case load => exact fun s waits => congrArg Host.Outcome.next (by simp only [waits, if_true])
  case late => exact fun s waits => congrArg Host.Outcome.next (by simp only [waits])
  case block => exact fun s waits => congrArg Host.Outcome.next (by simp only [waits, if_true])
  case fetch => exact fun s waits => congrArg Host.Outcome.next (by simp only [waits, if_true])
  case tables => exact fun s waits => congrArg Host.Outcome.next (by simp only [waits, if_true])
  case error =>
    intro s waits
    refine exec_outboundCompletion_of_error ?_
    obtain ⟨w, load⟩ | ⟨n, block⟩ | fetch | tables := waits
    · rw [load]; rfl
    · rw [block]; rfl
    · rw [fetch]; rfl
    · rw [tables]; rfl
  case idle =>
    intro ok i member s waits
    have near : (s.ctx c).wait.readsFar = none := by
      obtain idle | reply := waits
      · rw [idle]; rfl
      · rw [reply]; rfl
    simp only [List.mem_cons, List.not_mem_nil, or_false] at member
    obtain rfl | rfl := member
    · exact exec_outboundCompletion_of_none ok near
    · exact exec_peerReadTimeout_of_none near

end Sys2Proof.Machine

/-! TDISP states, SPDM sessions, keys, and the reset and enabling of functions (R459, R463, R472, R473). -/

namespace Sys2Proof.Machine

/-- An event at the host ports whose effect is known does it once they are up (log entry 69). -/
theorem atPort_of {i : Instr} {go act : State → State} (h : ∀ s, exec i s = .next (s.atPort (go s)))
    (does : ∀ s, go s = act s) : AtPort i act :=
  ⟨happens_of h fun _ down => if_neg (by simp [down]), happens_of h fun s up => (if_pos up).trans (does s)⟩

/-- The moves of a TDISP request: lock, start, and to CONFIG_UNLOCKED or ERROR from any state (R472; log entry 38). -/
theorem tdispMove_iff {old : BitVec 2} {n : Nat} :
    tdispMove old n = true ↔ (old = 0 ∧ n = 1 ∨ old = 1 ∧ n = 2) ∨ n = 0 ∨ n = 3 := by
  simp [tdispMove, or_assoc]

/-- What a TDISP request does to a function (R472, R473). -/
def State.tdisp (s : State) (p f n : Nat) : State :=
  if 1 ≤ f ∧ f ≤ 48 ∧ tdispMove (s.fn p f).tds n = true then
    s.modFn p f fun r =>
      let g := if n = 0 ∨ n = 3 then r.eraseKeys else r
      { g with tds := BitVec.ofNat 2 n }
  else s

section
variable {s : State} {p f n : Nat}

theorem State.tdisp_of_physical (outside : f = 0 ∨ 48 < f) : s.tdisp p f n = s := if_neg (by omega)

/-- Locking and starting keep the keys. -/
theorem State.tdisp_of_step (virtual : ¬ (f = 0 ∨ 48 < f)) (moves : (s.fn p f).tds = 0 ∧ n = 1 ∨ (s.fn p f).tds = 1 ∧ n = 2) :
    s.tdisp p f n = s.modFn p f fun r => { r with tds := BitVec.ofNat 2 n } := by
  have keeps : ¬ (n = 0 ∨ n = 3) := by omega
  rw [State.tdisp, if_pos ⟨by omega, by omega, tdispMove_iff.mpr (.inl moves)⟩]
  simp only [if_neg keeps]

/-- CONFIG_UNLOCKED and ERROR erase them (R473). -/
theorem State.tdisp_of_stop (virtual : ¬ (f = 0 ∨ 48 < f)) (stops : n = 0 ∨ n = 3) :
    s.tdisp p f n = s.modFn p f fun r => { r.eraseKeys with tds := BitVec.ofNat 2 n } := by
  rw [State.tdisp, if_pos ⟨by omega, by omega, tdispMove_iff.mpr (.inr stops)⟩]
  simp only [if_pos stops]

theorem State.tdisp_of_refused (still : ¬ ((s.fn p f).tds = 0 ∧ n = 1 ∨ (s.fn p f).tds = 1 ∧ n = 2))
    (runs : ¬ (n = 0 ∨ n = 3)) : s.tdisp p f n = s :=
  if_neg fun ⟨_, _, moves⟩ => (tdispMove_iff.mp moves).elim still runs

end

/-! Keys that are installed and erased (R473). -/

/-- May a key be installed in a slot: within a session, in CONFIG_LOCKED or RUN (R473)? -/
abbrev Fn.takesKey (r : Fn) (slot : Nat) : Prop := r.sess = true ∧ (r.tds = 1 ∨ r.tds = 2) ∧ slot < 8

theorem Fn.takesKey_eq (r : Fn) (slot : Nat) :
    (r.sess && (decide (r.tds = 1) || decide (r.tds = 2)) && decide (slot < 8)) = decide (r.takesKey slot) := by
  rw [Bool.decide_and, Bool.decide_and, Bool.decide_or, Bool.decide_eq_true, Bool.and_assoc]

/-- A key is installed, or not, and the host is answered. -/
def State.installKey (s : State) (p f slot : Nat) (key : BitVec 768) (ok : Bool) : State :=
  (if ok then s.setFn p f { s.fn p f with keys := (s.fn p f).keys.setIfInBounds slot (some key) } else s).says (.spdm p f 3 ok)

theorem exec_keyInstall (p f slot : Nat) (key : BitVec 768) (s : State) : exec (.keyInstall p f slot key) s =
    .next (s.atPort (s.installKey p f slot key (decide ((s.fn p f).takesKey slot)))) := by
  rw [← Fn.takesKey_eq]
  rfl

theorem Tbl.find?_map_const {α : Type} (v : α) {ns : List Nat} {n : Nat} (member : n ∈ ns) :
    Tbl.find? (ns.map fun m => (m, v)) n = some v := by
  induction ns with
  | nil => cases member
  | cons m ns ih =>
    by_cases here : m = n
    · simp [Tbl.find?, here]
    · simpa [Tbl.find?, here] using ih (List.mem_of_ne_of_mem (Ne.symm here) member)

/-- Every code chunk of a valid range fails. -/
theorem CodeRange.failAll_chunk {r : CodeRange} {n : Nat} (valid : r.v = true) (inside : n ≤ r.nch.toNat)
    (code : r.isCode n = true) : r.failAll.chunk n = .failed := by
  have member : n ∈ (upFrom 0 (r.nch.toNat + 1)).filter fun m => r.isCode m :=
    List.mem_filter.mpr ⟨mem_upFrom.mpr ⟨Nat.zero_le _, by omega⟩, code⟩
  simp only [CodeRange.chunk, CodeRange.failAll, if_pos valid, Tbl.getD, Tbl.find?_map_const _ member]

theorem Fn.eraseKeys_range (r : Fn) (k : Nat) :
    r.eraseKeys.ranges.toList.getD k CodeRange.reset = (r.ranges.toList.getD k CodeRange.reset).failAll := by
  have moved := List.getD_map (l := r.ranges.toList) (d := CodeRange.reset) (n := k) CodeRange.failAll
  rw [← Vector.toList_map] at moved
  exact moved

/-- R459, R463, R472, R473: TDISP, SPDM and keys. -/
theorem securityEventClaims : SecurityEventClaims := by
  intro p f
  refine ⟨fun n => ?tdisp, fun slot key => ?installs, fun kind => ?spdm, atPort_of (fun _ => rfl) fun _ => rfl,
    atPort_of (fun _ => rfl) fun _ => rfl, fun r => ⟨rfl, ?erased⟩, fun en => atPort_of (fun _ => rfl) fun _ => rfl⟩
  case tdisp =>
    refine atPort_of (go := fun s => s.tdisp p f n) (fun _ => rfl) fun s => ?_
    split_ifs with outside moves stops
    · exact State.tdisp_of_physical outside
    · exact State.tdisp_of_step outside moves
    · exact State.tdisp_of_stop outside stops
    · exact State.tdisp_of_refused moves stops
  case installs =>
    refine atPort_of (exec_keyInstall p f slot key) fun s => ?_
    split_ifs with taken
    · rw [decide_eq_true taken]
      rfl
    · rw [decide_eq_false taken]
      rfl
  case spdm =>
    refine atPort_of (fun _ => rfl) fun s => ?_
    by_cases session : (s.fn p f).sess = true <;> by_cases close : kind = 4 <;> simp [session, close, State.says]
  case erased =>
    intro k _ valid n inside code
    rw [r.eraseKeys_range]
    exact CodeRange.failAll_chunk valid inside code

end Sys2Proof.Machine

/-! The statement of spec/12_memory_hierarchy.md. -/

namespace Sys2Proof.Proofs

open Sys2Proof.Machine

/-- Settles O43: a request by its turn among those of its function and then by its check, a completion by what its context waits
for, and the erasure of keys by what it makes of each code range. -/
theorem hostEvents : Obligations.HostEvents := ⟨inboundClaims, hostWriteClaims, completionClaims, securityEventClaims⟩

end Sys2Proof.Proofs

/-! Taking a trap (R389, R390, R395, R396). -/

namespace Sys2Proof.Machine

/-! Trap banks. -/

@[simp] theorem Ctx.setBank_bank_same (k : Ctx) (t : Mode) (b : TrapBank) : (k.setBank t b).bank t = b := by
  cases t <;> rfl

/-- U has no bank of its own. -/
theorem Ctx.setBank_bank_ne (k : Ctx) {t o : Mode} (b : TrapBank) (other : o ≠ t) (ht : t ≠ .u) (ho : o ≠ .u) :
    (k.setBank t b).bank o = k.bank o := by
  cases t <;> cases o <;> first | rfl | contradiction

/-- Replacing a bank changes the banks only. -/
theorem Ctx.setBank_only (k : Ctx) (t : Mode) (b : TrapBank) :
    k.setBank t b = { k with sb := (k.setBank t b).sb, hb := (k.setBank t b).hb, mb := (k.setBank t b).mb } := by
  cases t <;> rfl

/-- An address in a 62-bit register field reads back as it was put there. -/
@[simp] theorem field62_addr62 (a : BitVec 62) : field62 (addr62 a) = a := by
  unfold field62 addr62
  exact BitVec.extractLsb'_append_eq_left

/-! What a trap entry leaves. -/

/-- What a trap saves in bank `t` of a context with DID `d`: its cause and value, whether it is asynchronous, EPC and PFXS
(R395, R396). -/
def Ctx.savedBank (k : Ctx) (d : BitVec 7) (n : Nat) (v : Word) (async : Bool) (epc : Word) (pfxs : Option (BitVec 32))
    (t : Mode) : TrapBank :=
  { k.bank t with epc := field62 epc, code := BitVec.ofNat 5 n, isAsync := async, tval := v, pm := k.mode, pdid := d,
                  pae := (k.bank t).ae, ae := false, platch := k.latch, pfxWord := pfxs.getD 0, pfxV := pfxs.isSome }

/-- A context as a trap leaves it at the base of bank `t` (R395). -/
def Ctx.entered (k : Ctx) (d : BitVec 7) (n : Nat) (v : Word) (async : Bool) (epc : Word) (pfxs : Option (BitVec 32))
    (t : Mode) : Ctx :=
  { k.setBank t (k.savedBank d n v async epc pfxs t) with
      mode := t, did := d.extractLsb' 3 4 ++ (if t = .m then 7#3 else 0#3), pc := addr62 (k.bank t).base, resv := none,
      pfx := none, run := .running, wait := .none, bounded := false, sealWait := none, block := none, fetched := none,
      reply := 0, rel := [], walked := false, passed := none, red := k.red.map fun r => r.trapped n,
      log := k.log.map fun l => l.trapped n, traps := k.traps + 1,
      migPc := if n = 2 ∧ t = .m then some epc else k.migPc, migSaved := k.migSaved && decide (n ≠ 2) }

/-- A context with the banks and the progress of another: its mode, DID, PC, reservation, prefix, waits and traps. -/
def Ctx.trapOf (k k' : Ctx) : Ctx :=
  { k with sb := k'.sb, hb := k'.hb, mb := k'.mb, mode := k'.mode, did := k'.did, pc := k'.pc, resv := k'.resv, pfx := k'.pfx,
           run := k'.run, wait := k'.wait, bounded := k'.bounded, sealWait := k'.sealWait, block := k'.block,
           fetched := k'.fetched, reply := k'.reply, rel := k'.rel, walked := k'.walked, passed := k'.passed, red := k'.red,
           log := k'.log, traps := k'.traps, migPc := k'.migPc, migSaved := k'.migSaved }

theorem State.enterTrap_ctx_same (s : State) (c : CtxId) (n : Nat) (v : Word) (async : Bool) (epc : Word)
    (pfxs : Option (BitVec 32)) (t : Mode) :
    (s.enterTrap c n v async epc pfxs t).ctx c = (s.ctx c).entered (s.did c) n v async epc pfxs t :=
  State.setCtx_ctx_same s c _

section
variable (k : Ctx) (d : BitVec 7) (n : Nat) (v : Word) (async : Bool) (epc : Word) (pfxs : Option (BitVec 32)) (t : Mode)

@[simp] theorem Ctx.entered_bank_same : (k.entered d n v async epc pfxs t).bank t = k.savedBank d n v async epc pfxs t :=
  Ctx.setBank_bank_same ..

/-- The banks of the other modes keep what they hold. -/
theorem Ctx.entered_bank_ne {t o : Mode} (other : o ≠ t) (ht : t ≠ .u) (ho : o ≠ .u) :
    (k.entered d n v async epc pfxs t).bank o = k.bank o :=
  Ctx.setBank_bank_ne k _ other ht ho

/-- A trap changes the banks and the progress of its context only. -/
theorem Ctx.entered_kept : k.entered d n v async epc pfxs t = k.trapOf (k.entered d n v async epc pfxs t) := by
  unfold Ctx.entered
  rw [Ctx.setBank_only]
  rfl

end

/-- What no trap changes of its context (R395). -/
theorem Ctx.same_of_trapOf {k k' : Ctx} (kept : k' = k.trapOf k') :
    k'.x = k.x ∧ k'.f = k.f ∧ k'.v = k.v ∧ k'.m = k.m ∧ k'.form = k.form ∧ k'.vl = k.vl ∧ k'.vrows = k.vrows ∧
    k'.lanes = k.lanes ∧ k'.fstat = k.fstat ∧ k'.mailbox = k.mailbox ∧ k'.streams = k.streams ∧ k'.vq = k.vq ∧
    k'.gang = k.gang ∧ k'.latch = k.latch ∧ k'.pendMc = k.pendMc ∧ k'.pendStop = k.pendStop ∧ k'.pendLane = k.pendLane := by
  rw [kept]
  exact ⟨rfl, rfl, rfl, rfl, rfl, rfl, rfl, rfl, rfl, rfl, rfl, rfl, rfl, rfl, rfl, rfl, rfl⟩

/-- The DID in a trap handler (R395): local domain 0, or 7 in M, of the same partition. -/
theorem trapDid_toNat (d : BitVec 7) (p : Prop) [Decidable p] :
    (d.extractLsb' 3 4 ++ (if p then 7#3 else 0#3)).toNat = d.toNat / 8 * 8 + (if p then 7 else 0) := by
  have part : (d.extractLsb' 3 4).toNat = d.toNat / 8 := by
    rw [BitVec.extractLsb'_toNat, Nat.shiftRight_eq_div_pow]
    omega
  rw [BitVec.toNat_append, part, ← Nat.shiftLeft_add_eq_or_of_lt (BitVec.isLt _), Nat.shiftLeft_eq]
  split <;> rfl

theorem trapEntryClaims : TrapEntryClaims := by
  intro s c t k u k' md code notUser
  have entered : k' = k.entered (s.did c) t.cause t.val false k.trapPc none md := State.enterTrap_ctx_same s c _ _ _ _ _ _
  have bank : k'.bank md = k.savedBank (s.did c) t.cause t.val false k.trapPc none md := by rw [entered, Ctx.entered_bank_same]
  have others : ∀ o : Mode, o ≠ md → o ≠ .u → k'.bank o = k.bank o := fun o other user =>
    (congrArg (Ctx.bank · o) entered).trans (Ctx.entered_bank_ne _ _ _ _ _ _ _ other notUser user)
  have did : k'.did.toNat = (s.did c).toNat / 8 * 8 + (if md = .m then 7 else 0) :=
    (congrArg (fun z : Ctx => z.did.toNat) entered).trans (trapDid_toNat _ _)
  obtain ⟨x, f, v, m, form, vl, vrows, lanes, fstat, mailbox, streams, vq, gang, latch, -⟩ :=
    Ctx.same_of_trapOf (show k' = k.trapOf k' from entered ▸ Ctx.entered_kept ..)
  rw [bank]
  exact ⟨rfl, Nat.mod_eq_of_lt code, rfl, rfl, rfl, rfl, rfl, rfl, rfl, rfl, rfl, rfl, rfl, others,
    congrArg Ctx.mode entered, congrArg Ctx.pc entered, congrArg Ctx.resv entered, congrArg Ctx.pfx entered, did,
    x, f, v, m, form, vl, vrows, lanes, fstat, mailbox, streams, vq, gang, latch,
    fun q other => State.trap_ctx_ne s c q t other, rfl, rfl, fun _ => rfl⟩

/-! The mode that takes a trap (R389, R390). -/

/-- No cause has U as its mode. -/
theorem tableMode_ne_u (t : Trap) : tableMode t ≠ .u := by
  unfold tableMode
  split_ifs <;> decide

/-- The higher of two modes is the higher number. -/
theorem maxMode_toNat (a b : Mode) : (maxMode a b).toNat = max a.toNat b.toNat := by
  cases a <;> cases b <;> rfl

@[simp] theorem maxMode_m_left (b : Mode) : maxMode .m b = .m := by cases b <;> rfl

@[simp] theorem maxMode_m_right (a : Mode) : maxMode a .m = .m := by cases a <;> rfl

/-- U and S give way to every mode of the table. -/
theorem maxMode_of_low {a b : Mode} (low : a = .u ∨ a = .s) (hb : b ≠ .u) : maxMode a b = b := by
  have small : a.toNat ≤ 1 := by obtain rfl | rfl := low <;> decide
  exact if_pos (small.trans (Mode.toNat_range hb).1)

section
variable {c : CtxId} {k : Ctx} {t : Trap}

/-- A trap whose higher mode is M is taken there in every slot. -/
theorem takingMode_of_m (h : maxMode k.mode (tableMode t) = .m) : takingMode c k t = .m := by
  simp [takingMode, h]

theorem takingMode_of_slot (slot : slotOf c ≠ 7) : takingMode c k t = maxMode k.mode (tableMode t) := by
  simp [takingMode, slot]

/-- Slot 7 takes at M what others take at H (R390). -/
theorem takingMode_of_slot7 (slot : slotOf c = 7) :
    takingMode c k t = if maxMode k.mode (tableMode t) = .h then .m else maxMode k.mode (tableMode t) := by
  simp [takingMode, slot]

/-- A trap is taken at the higher mode or above it. -/
theorem le_takingMode : (maxMode k.mode (tableMode t)).toNat ≤ (takingMode c k t).toNat := by
  by_cases slot : slotOf c = 7
  · rw [takingMode_of_slot7 slot]
    split
    · next hypervisor => rw [hypervisor]; decide
    · exact le_rfl
  · rw [takingMode_of_slot slot]

end

theorem takingModeClaims : TakingModeClaims := by
  intro c k t
  have higher : max k.mode.toNat (tableMode t).toNat ≤ (takingMode c k t).toNat := maxMode_toNat _ _ ▸ le_takingMode
  refine ⟨(le_max_left _ _).trans higher, fun user => ?_, fun slot => ?_, fun cause => ?_, fun low slot => ?_, fun mode => ?_⟩
  · have table := (le_max_right _ _).trans higher
    have range := (Mode.toNat_range (tableMode_ne_u t)).1
    rw [user] at table
    exact absurd (range.trans table) (by decide)
  · rw [takingMode_of_slot7 slot]
    split
    · decide
    · assumption
  · have table : tableMode t = .m := by
      unfold tableMode
      rw [if_neg (by omega), if_pos cause]
    exact takingMode_of_m (by rw [table, maxMode_m_right])
  · rw [takingMode_of_slot slot, maxMode_of_low low (tableMode_ne_u t)]
    exact ⟨fun cause => by grind [tableMode], fun cause => by grind [tableMode]⟩
  · exact takingMode_of_m (by rw [mode, maxMode_m_left])

/-! Asynchronous traps (R391, R395-R397, R399). -/

theorem asyncAllowed_iff {k : Ctx} {t : Mode} :
    asyncAllowed k t = true ↔ k.mode.toNat < t.toNat ∨ k.mode = t ∧ (k.bank t).ae = true := by
  simp [asyncAllowed]

/-- A machine check is taken at M in every mode and slot. -/
@[simp] theorem asyncMode_check (c : CtxId) (k : Ctx) : asyncMode c k 20 = .m := takingMode_of_m (maxMode_m_right _)

@[simp] theorem asyncMode_stop (c : CtxId) (k : Ctx) : asyncMode c k 21 = .s := rfl

/-- A pending cause that the context's mode and AE let interrupt it at `md` (R397). -/
def Ctx.asyncAt (k : Ctx) (n : Nat) (p : Option Word) (md : Mode) : Option (Nat × Word × Mode) :=
  match p with
  | some v => if asyncAllowed k md then some (n, v, md) else none
  | none => none

/-- The causes in their order (R391): the first that may interrupt is taken. -/
theorem Ctx.pendingAsync_eq (c : CtxId) (k : Ctx) : Ctx.pendingAsync c k =
    (k.asyncAt 20 k.pendMc .m).or ((k.asyncAt 21 k.pendStop .s).or (k.asyncAt 22 k.pendLane k.mode)) := by
  have first (a b : Option (Nat × Word × Mode)) : a.or b = match a with
      | some r => some r
      | none => b := by cases a <;> rfl
  rw [first, first, ← asyncMode_check c k, ← asyncMode_stop c k]
  rfl

theorem Ctx.asyncAt_of_open {k : Ctx} (n : Nat) {p : Option Word} {md : Mode} {v : Word} (pending : p = some v)
    (allowed : k.mode.toNat < md.toNat ∨ k.mode = md ∧ (k.bank md).ae = true) : k.asyncAt n p md = some (n, v, md) := by
  simp [Ctx.asyncAt, pending, asyncAllowed_iff.mpr allowed]

theorem Ctx.asyncAt_of_shut {k : Ctx} (n : Nat) {p : Option Word} {md : Mode}
    (shut : ¬ (p.isSome = true ∧ (k.mode.toNat < md.toNat ∨ k.mode = md ∧ (k.bank md).ae = true))) :
    k.asyncAt n p md = none := by
  cases p with
  | none => rfl
  | some v => simp [Ctx.asyncAt, asyncAllowed_iff, not_and.mp shut rfl]

theorem Ctx.cause_of_asyncAt {k : Ctx} {n m : Nat} {p : Option Word} {md o : Mode} {v : Word}
    (taken : k.asyncAt m p md = some (n, v, o)) : n = m := by
  cases p with
  | none => cases taken
  | some w =>
    rw [Ctx.asyncAt, Option.ite_none_right_eq_some] at taken
    obtain ⟨-, same⟩ := taken
    injection same with same
    injection same with cause
    exact cause.symm

theorem pendingClaims : PendingClaims := by
  intro c k open' check stop
  have noCheck (h : ¬ check) : k.asyncAt 20 k.pendMc .m = none := Ctx.asyncAt_of_shut 20 h
  have noStop (h : ¬ stop) : k.asyncAt 21 k.pendStop .s = none := Ctx.asyncAt_of_shut 21 h
  rw [Ctx.pendingAsync_eq]
  refine ⟨fun v pending allowed => ?_, fun v none20 pending allowed => ?_, fun v none20 none21 pending ae => ?_,
    fun none20 none21 still => ?_⟩
  · rw [Ctx.asyncAt_of_open 20 pending allowed, Option.some_or]
  · rw [noCheck none20, Ctx.asyncAt_of_open 21 pending allowed, Option.none_or, Option.some_or]
  · rw [noCheck none20, noStop none21, Ctx.asyncAt_of_open 22 pending (.inr ⟨rfl, ae⟩), Option.none_or, Option.none_or]
  · have none22 : k.asyncAt 22 k.pendLane k.mode = none := Ctx.asyncAt_of_shut 22 fun ⟨pending, allowed⟩ =>
      still.elim (fun absent => by simp [absent] at pending) fun masked => by simp [masked] at allowed
    rw [noCheck none20, noStop none21, none22, Option.none_or, Option.none_or]

/-- Three causes are asynchronous (R391), whose codes fit the field. -/
theorem Ctx.pendingAsync_cause_lt {c : CtxId} {k : Ctx} {n : Nat} {v : Word} {md : Mode}
    (h : Ctx.pendingAsync c k = some (n, v, md)) : n < 32 := by
  rw [Ctx.pendingAsync_eq, Option.or_eq_some_iff, Option.or_eq_some_iff] at h
  obtain check | ⟨-, stop | ⟨-, lane⟩⟩ := h
  · exact (Ctx.cause_of_asyncAt check).symm ▸ by decide
  · exact (Ctx.cause_of_asyncAt stop).symm ▸ by decide
  · exact (Ctx.cause_of_asyncAt lane).symm ▸ by decide

/-! The context as an asynchronous trap finds it. -/

/-- A context that is switched in changes only whether it is out and its count of cycles (R35, R400). -/
theorem Ctx.switchedIn_only (k : Ctx) (clk : Nat) :
    k.switchedIn clk = { k with swOut := (k.switchedIn clk).swOut, cycleOff := (k.switchedIn clk).cycleOff } := by
  unfold Ctx.switchedIn
  split <;> rfl

theorem Ctx.switchedIn_of_in {k : Ctx} (clk : Nat) (h : k.swOut = none) : k.switchedIn clk = k := by
  simp [Ctx.switchedIn, h]

/-- The cause that is taken is pending no longer (R395). -/
theorem Ctx.clearAsync_eq (k : Ctx) (n : Nat) : k.clearAsync n =
    { k with pendMc := if n = 20 then none else k.pendMc, pendStop := if n = 21 then none else k.pendStop,
             pendLane := if n = 20 ∨ n = 21 then k.pendLane else none } := by
  unfold Ctx.clearAsync
  by_cases check : n = 20
  · subst check; rfl
  · by_cases stop : n = 21
    · subst stop; rfl
    · simp [check, stop]

/-- A context that is about to take the asynchronous trap of cause `n`. -/
def Ctx.interrupted (k : Ctx) (n clk : Nat) : Ctx :=
  { (k.clearAsync n).switchedIn clk with stopped := k.stopped || decide (n = 21) }

theorem Ctx.interrupted_eq (k : Ctx) (n clk : Nat) : k.interrupted n clk =
    { k with pendMc := if n = 20 then none else k.pendMc, pendStop := if n = 21 then none else k.pendStop,
             pendLane := if n = 20 ∨ n = 21 then k.pendLane else none, swOut := (k.interrupted n clk).swOut,
             cycleOff := (k.interrupted n clk).cycleOff, stopped := (k.interrupted n clk).stopped } := by
  unfold Ctx.interrupted
  rw [Ctx.switchedIn_only, Ctx.clearAsync_eq]

section
variable (k : Ctx) (n clk : Nat)

@[simp] theorem Ctx.interrupted_mode : (k.interrupted n clk).mode = k.mode := by rw [Ctx.interrupted_eq]
@[simp] theorem Ctx.interrupted_x : (k.interrupted n clk).x = k.x := by rw [Ctx.interrupted_eq]
@[simp] theorem Ctx.interrupted_f : (k.interrupted n clk).f = k.f := by rw [Ctx.interrupted_eq]
@[simp] theorem Ctx.interrupted_v : (k.interrupted n clk).v = k.v := by rw [Ctx.interrupted_eq]
@[simp] theorem Ctx.interrupted_m : (k.interrupted n clk).m = k.m := by rw [Ctx.interrupted_eq]
@[simp] theorem Ctx.interrupted_mailbox : (k.interrupted n clk).mailbox = k.mailbox := by rw [Ctx.interrupted_eq]
@[simp] theorem Ctx.interrupted_pendMc : (k.interrupted n clk).pendMc = if n = 20 then none else k.pendMc := by
  rw [Ctx.interrupted_eq]
@[simp] theorem Ctx.interrupted_pendStop : (k.interrupted n clk).pendStop = if n = 21 then none else k.pendStop := by
  rw [Ctx.interrupted_eq]
@[simp] theorem Ctx.interrupted_pendLane :
    (k.interrupted n clk).pendLane = if n = 20 ∨ n = 21 then k.pendLane else none := by rw [Ctx.interrupted_eq]
@[simp] theorem Ctx.interrupted_bank (t : Mode) : (k.interrupted n clk).bank t = k.bank t := by
  rw [Ctx.interrupted_eq]
  cases t <;> rfl

end

/-- That the last member of a gang has stopped only puts the gang's stop on the agenda (R276, R399). -/
theorem State.stopTaken_only (s : State) (g : Nat) : s.stopTaken g = { s with agenda := (s.stopTaken g).agenda } := by
  unfold State.stopTaken
  split
  · split <;> rfl
  · rfl

/-- Taking an asynchronous trap, but for what it puts on the agenda (R395, R396). -/
theorem State.takeAsync_only {s : State} {c : CtxId} {n : Nat} {v : Word} {md : Mode}
    (h : Ctx.pendingAsync c (s.ctx c) = some (n, v, md)) :
    s.takeAsync c = { (s.modCtx c fun k => k.interrupted n s.clk).asyncTrap c n v md with agenda := (s.takeAsync c).agenda } := by
  have taken : s.takeAsync c =
      let u := (s.modCtx c fun k => k.interrupted n s.clk).asyncTrap c n v md
      if n = 21 then u.stopTaken (u.ctx c).gang else u := by
    simp only [State.takeAsync, h]
    rfl
  rw [taken]
  dsimp only
  split
  · rw [State.stopTaken_only]
  · rfl

section
variable {s : State} {c : CtxId} {n : Nat} {v : Word} {md : Mode}

/-- What an asynchronous trap at a boundary saves (R395, R396). -/
theorem State.takeAsync_ctx_same (pending : Ctx.pendingAsync c (s.ctx c) = some (n, v, md)) :
    (s.takeAsync c).ctx c =
      ((s.ctx c).interrupted n s.clk).entered (s.did c) n v true (s.ctx c).pc ((s.ctx c).pfx.map Prefix.word) md := by
  have own := State.modCtx_ctx_same s c fun k => k.interrupted n s.clk
  rw [Ctx.interrupted_eq] at own
  have did : (s.modCtx c fun k => k.interrupted n s.clk).did c = s.did c := by
    simp only [State.did, own, State.modCtx_core]
  rw [State.takeAsync_only pending]
  refine (State.enterTrap_ctx_same ..).trans ?_
  rw [did, own, Ctx.interrupted_eq]

theorem State.takeAsync_ctx_ne (pending : Ctx.pendingAsync c (s.ctx c) = some (n, v, md)) {q : CtxId} (other : q ≠ c) :
    (s.takeAsync c).ctx q = s.ctx q := by
  rw [State.takeAsync_only pending]
  exact (State.enterTrap_ctx_ne _ _ q _ _ _ _ _ _ other).trans (State.modCtx_ctx_other _ _ _ _ other)

theorem State.takeAsync_cores (pending : Ctx.pendingAsync c (s.ctx c) = some (n, v, md)) : (s.takeAsync c).cores = s.cores := by
  rw [State.takeAsync_only pending]; rfl

theorem State.takeAsync_mem (pending : Ctx.pendingAsync c (s.ctx c) = some (n, v, md)) : (s.takeAsync c).mem = s.mem := by
  rw [State.takeAsync_only pending]; rfl

end

/-! Fetches that fail (R391, R476, R499). -/

section
variable {s : State} {c : CtxId} {kind : AccKind} {t : Trap}

/-- A machine check of an access whose route retrains waits instead. -/
theorem State.accessTrap_of_retrain (check : t.cause = 20) (waits : s.linkWaits (s.agent c) kind t.val = true) :
    s.accessTrap c kind t = s.stallBounded c := by
  simp [State.accessTrap, check, waits]

theorem State.accessTrap_of_noError (check : t.cause = 20) (up : s.linkWaits (s.agent c) kind t.val = false)
    (clean : s.errorLine (s.agent c) kind t.val = none) : s.accessTrap c kind t = s.trap c t := by
  simp [State.accessTrap, check, up, clean]

/-- The record of an error comes before its trap. -/
theorem State.accessTrap_of_error {l : Nat} (check : t.cause = 20) (up : s.linkWaits (s.agent c) kind t.val = false)
    (bad : s.errorLine (s.agent c) kind t.val = some l) :
    s.accessTrap c kind t = (s.logLineError (dieField (l * 64)) ((s.ctxid c).toNat % 2 ^ 27) l).trap c t := by
  rw [State.accessTrap, if_neg (by simp [check, up]), if_pos check, bad]

end

/-- Did the walk of a fetch fail at stage 2 (R389)? -/
def State.fetchStage2 (s : State) (a : Word) : Bool :=
  match s.translate (s.agent s.cur) .fetch a with
  | .error (.page b) => b
  | _ => false

theorem exec_instructionFetchFault (n : Nat) (a : Word) (s : State) : exec (.instructionFetchFault n a) s =
    .next (s.accessTrap s.cur .fetch { cause := n, val := a, stage2 := s.fetchStage2 a }) := rfl

theorem asyncTrapClaims : AsyncTrapClaims := by
  refine ⟨happens_of (fun _ => rfl) fun s nothing => ?nothing, fun s n v md pending => ⟨_, rfl, ?taken⟩,
    fun w s fresh => congrArg _ (State.issueIf_forbidden w _ fresh), fun n a s => ⟨s.fetchStage2 a, ?fetch⟩⟩
  case nothing => simp only [State.takeAsync, show Ctx.pendingAsync s.cur (s.ctx s.cur) = none from nothing]
  case taken =>
    intro k'
    have entered : k' = (s.here.interrupted n s.clk).entered (s.did s.cur) n v true s.here.pc (s.here.pfx.map Prefix.word) md :=
      State.takeAsync_ctx_same pending
    obtain ⟨x, f, vr, m, -, -, -, -, -, mailbox, -, -, -, -, check, stop, lane⟩ :=
      Ctx.same_of_trapOf (show k' = (s.here.interrupted n s.clk).trapOf k' from entered ▸ Ctx.entered_kept ..)
    have code : (BitVec.ofNat 5 n).toNat = n := Nat.mod_eq_of_lt (Ctx.pendingAsync_cause_lt pending)
    have base : k'.pc = addr62 (s.here.bank md).base := by rw [entered, ← Ctx.interrupted_bank s.here n s.clk]; rfl
    have saved : k'.bank md = (s.here.interrupted n s.clk).savedBank (s.did s.cur) n v true s.here.pc
      (s.here.pfx.map Prefix.word) md := by rw [entered, Ctx.entered_bank_same]
    rw [saved, x, f, vr, m, mailbox, check, stop, lane]
    refine ⟨congrArg Ctx.mode entered, code, rfl, rfl, rfl, Ctx.interrupted_mode .., rfl, base, congrArg Ctx.resv entered,
      congrArg Ctx.pfx entered, fun absent => ?_, fun p pfx => ?_, ?_⟩
    · simp only [Ctx.savedBank, absent]; rfl
    · simp only [Ctx.savedBank, pfx]; exact ⟨rfl, rfl⟩
    · exact ⟨Ctx.interrupted_pendMc .., Ctx.interrupted_pendStop .., Ctx.interrupted_pendLane .., Ctx.interrupted_x ..,
        Ctx.interrupted_f .., Ctx.interrupted_v .., Ctx.interrupted_m .., Ctx.interrupted_mailbox ..,
        fun q other => State.takeAsync_ctx_ne pending other, State.takeAsync_cores pending, State.takeAsync_mem pending⟩
  case fetch =>
    rw [exec_instructionFetchFault]
    refine ⟨fun z page => ?_, fun other => ?_, fun check waits => ?_, fun check up => ⟨fun clean => ?_, fun l bad => ?_⟩⟩
    · simp only [State.fetchStage2, page]
    · exact congrArg _ (State.accessTrap_of_ne other)
    · exact congrArg _ (State.accessTrap_of_retrain check waits)
    · exact congrArg _ (State.accessTrap_of_noError check up clean)
    · exact congrArg _ (State.accessTrap_of_error check up bad)

end Sys2Proof.Machine

/-! Returning from a trap (R361, R380, R398, R409-R412, R445). -/

namespace Sys2Proof.Machine

/-! The checks of ERET (R445). -/

section
variable (s : State) (w : BitVec 32) (c : CtxId)

@[simp] theorem State.issued_part : (s.issued w).part c = s.part c := by simp [State.part]

@[simp] theorem State.issued_pdid (t : Mode) : (s.issued w).pdid c t = s.pdid c t := by simp [State.pdid]

@[simp] theorem State.issued_slotDid (core : CoreId) (slot : Nat) : (s.issued w).slotDid core slot = s.slotDid core slot := by
  simp [State.slotDid]

@[simp] theorem State.issued_inStopped : (s.issued w).inStopped c = s.inStopped c := by simp [State.inStopped, State.gang?]

@[simp] theorem State.issued_eretTrap : (s.issued w).eretTrap c = s.eretTrap c := by simp [State.eretTrap]

end

/-- The bank of a context's own mode, through which it returns (R398). -/
abbrev Ctx.ownBank (k : Ctx) : TrapBank := k.bank k.mode

/-- What the mode, its bank and the slot forbid (R34, R445). -/
abbrev Ctx.eretBarred (k : Ctx) (c : CtxId) : Prop :=
  k.mode = .u ∨ k.mode.toNat < k.ownBank.pm.toNat ∨ (slotOf c = 7 ∧ (k.ownBank.pm = .u ∨ k.ownBank.pm = .h))

section
variable {s : State} {c : CtxId}

theorem State.eretTrap_of_barred (barred : (s.ctx c).eretBarred c) : s.eretTrap c = some 0 := if_pos barred

/-- No check fails: of the mode, of the world (R426) and of the domain (R428). -/
theorem State.eretTrap_of_passes (allowed : ¬ (s.ctx c).eretBarred c)
    (world : (s.ctx c).mode = .m → (s.ctx c).ownBank.pm ≠ .m → (s.core (coreOf c)).ssec.getLsbD (slotOf c) = false)
    (domain : (s.ctx c).ownBank.pm = .u → s.pdid c (s.ctx c).mode = s.slotDid (coreOf c) (slotOf c)) :
    s.eretTrap c = none := by
  rw [State.eretTrap, if_neg allowed, if_neg fun ⟨firmware, leaves, secure⟩ => by simp [world firmware leaves] at secure,
    if_neg fun ⟨user, other⟩ => other (domain user)]

end

theorem Ctx.not_eretBarred {k : Ctx} {c : CtxId} (mode : k.mode ≠ .u) (lower : k.ownBank.pm.toNat ≤ k.mode.toNat)
    (slot : slotOf c = 7 → k.ownBank.pm = .s ∨ k.ownBank.pm = .m) : ¬ k.eretBarred c := by
  rintro (user | higher | ⟨control, mixed⟩)
  · exact mode user
  · exact absurd lower (Nat.not_le.mpr higher)
  · obtain saved | saved := slot control <;> rw [saved] at mixed <;> simp at mixed

/-- ERET whose checks pass goes on, unless its gang has stopped (R400). -/
theorem exec_eret_of_passes {s : State} (issues : s.issues (encode .eret) = true)
    (passes : (s.issued (encode .eret)).eretTrap s.cur = none) (runs : (s.issued (encode .eret)).inStopped s.cur = false) :
    exec .eret s = .next ((s.issued (encode .eret)).eretGo s.cur) := by
  have allowed : decide (s.eretTrap s.cur = some 0) = false := by
    rw [← State.issued_eretTrap s (encode .eret), passes]; rfl
  have effect : (s.issued (encode .eret)).eret s.cur (encode .eret) = (s.issued (encode .eret)).eretGo s.cur := by
    simp [State.eret, passes, runs]
  show Host.Outcome.next (s.issueIf (encode .eret) (decide (s.eretTrap s.cur = some 0)) fun c _ s => s.eret c (encode .eret)) = _
  rw [allowed, State.issueIf_of_issues _ _ _ _ issues, effect]

/-! What ERET does when its checks have passed (R398, R400, R409, R412). -/

section
variable {s u : State} {c : CtxId}

theorem State.eretGo_of_plain (inside : (s.ctx c).swOut = none) (runs : (s.ctx c).stopped = false)
    (stays : s.migTarget c = none) (unserved : s.migReflects c = false) :
    s.eretGo c = s.setCtx c { (s.returnedCtx c).switchedIn s.clk with stopped := false } := by
  simp [State.eretGo, inside, runs, stays, unserved]

theorem State.eretGo_of_reflects (inside : (s.ctx c).swOut = none) (runs : (s.ctx c).stopped = false)
    (stays : s.migTarget c = none) (reflects : s.migReflects c = true) : s.eretGo c = s.reflect c := by
  simp [State.eretGo, inside, runs, stays, reflects]

theorem State.eretGo_of_migrates {d : CtxId} (named : (s.migTarget c).isSome = true)
    (performed : s.release c 4 .message = (u, true)) (target : u.migTarget c = some d) (leaves : u.mayLeave c d = true) :
    s.eretGo c = u.migrate c d := by
  simp [State.eretGo, named, performed, target, leaves]

/-- Only M has destinations, and only M ends the service of a migrate trap (R409). -/
theorem State.mode_of_migTarget {d : CtxId} (target : s.migTarget c = some d) : (s.ctx c).mode = .m := by
  by_contra other
  simp [State.migTarget, other] at target

theorem State.mode_of_migReflects (reflects : s.migReflects c = true) : (s.ctx c).mode = .m := by
  simp only [State.migReflects, Ctx.migServed, Bool.and_eq_true, decide_eq_true_eq] at reflects
  obtain ⟨⟨⟨⟨mode, -⟩, -⟩, -⟩, -⟩ := reflects
  exact mode

end

/-! The context that has returned (R398). -/

@[simp] theorem State.issued_returnedCtx (s : State) (w : BitVec 32) (c : CtxId) :
    (s.issued w).returnedCtx c = s.returnedCtx c := by
  simp [State.returnedCtx]

section
variable (s : State) (c : CtxId)

/-- A return changes no register. -/
theorem State.returnedCtx_same : (s.returnedCtx c).x = (s.ctx c).x ∧ (s.returnedCtx c).f = (s.ctx c).f ∧
    (s.returnedCtx c).v = (s.ctx c).v ∧ (s.returnedCtx c).fstat = (s.ctx c).fstat ∧ (s.returnedCtx c).gang = (s.ctx c).gang ∧
    (s.returnedCtx c).swOut = (s.ctx c).swOut := by
  unfold State.returnedCtx Ctx.returned
  dsimp only
  rw [Ctx.setBank_only]
  exact ⟨rfl, rfl, rfl, rfl, rfl, rfl⟩

/-- The bank that a return leaves: AE is as before the trap, and the prefix is given back. -/
theorem State.returnedCtx_bank : (s.returnedCtx c).bank (s.ctx c).mode = { (s.ctx c).ownBank with
    ae := (s.ctx c).ownBank.pae, pfxWord := if (s.ctx c).ownBank.pfxV then 0 else (s.ctx c).ownBank.pfxWord, pfxV := false } :=
  Ctx.setBank_bank_same ..

@[simp] theorem State.returnedCtx_mode : (s.returnedCtx c).mode = (s.ctx c).ownBank.pm := rfl

/-- A return from M keeps the bank of S. -/
theorem State.returnedCtx_sb (mode : (s.ctx c).mode = .m) : (s.returnedCtx c).sb = (s.ctx c).sb := by
  simp only [State.returnedCtx, mode]
  rfl

end

/-! A return within the context (R398). -/

/-- ERET returns to what the bank of its mode saved, and changes no byte of memory. -/
theorem exec_eret_plain {s : State} (issues : s.issues (encode .eret) = true) (passes : s.eretTrap s.cur = none)
    (runs : s.inStopped s.cur = false) (inside : s.here.swOut = none) (going : s.here.stopped = false)
    (stays : (s.issued (encode .eret)).migTarget s.cur = none)
    (unserved : (s.issued (encode .eret)).migReflects s.cur = false) :
    ∃ t, exec .eret s = .next t ∧ t.ctx s.cur = { s.returnedCtx s.cur with stopped := false } ∧ t.mem = s.mem := by
  obtain ⟨-, -, -, -, -, out⟩ := State.returnedCtx_same s s.cur
  refine ⟨_, exec_eret_of_passes issues (by rwa [State.issued_eretTrap]) (by rwa [State.issued_inStopped]), ?_⟩
  rw [State.eretGo_of_plain (by rwa [State.issued_ctx]) (by rwa [State.issued_ctx]) stays unserved, State.setCtx_ctx_same,
    State.issued_returnedCtx, Ctx.switchedIn_of_in _ (out.trans inside)]
  exact ⟨rfl, State.issued_mem ..⟩

/-! The reflection to S (R412). -/

/-- The trap that S gets: of the save area of a thread that owns the array, or of the word. -/
theorem State.reflect_eq (s : State) (c : CtxId) : ∃ n v,
    s.reflect c = (s.setCtx c (s.returnedCtx c)).enterTrap c n v false (addr62 (s.ctx c).mb.epc) none .s ∧
      if s.ownsArray c = true ∧ s.tsaveFree c = false then n = 9 ∧ v = BitVec.ofNat 64 (areaPa (s.ctx c).tsave)
      else n = 0 ∧ v = (s.ctx c).mb.tval := by
  by_cases bad : s.ownsArray c = true ∧ s.tsaveFree c = false
  · refine ⟨9, _, ?_, (if_pos bad).mpr ⟨rfl, rfl⟩⟩
    simp [State.reflect, bad]
  · refine ⟨0, _, ?_, (if_neg bad).mpr ⟨rfl, rfl⟩⟩
    have fine : (s.ownsArray c && !s.tsaveFree c) = false := by simpa using bad
    simp [State.reflect, fine]

theorem reflectedReturns : ReflectedReturns := by
  intro s issues c s1 passes runs inside going stays reflects
  have here : s1.ctx c = s.here := State.issued_ctx s (encode .eret) c
  have mode : (s1.ctx c).mode = .m := State.mode_of_migReflects reflects
  obtain ⟨n, v, reflect, cause⟩ := s1.reflect_eq c
  obtain ⟨x, -⟩ := State.returnedCtx_same s1 c
  have supervisor : (s1.returnedCtx c).sb = s.here.sb := (State.returnedCtx_sb s1 c mode).trans (congrArg Ctx.sb here)
  have saved : (s1.returnedCtx c).mode = s.here.mb.pm := by rw [State.returnedCtx_mode, Ctx.ownBank, mode, here]; rfl
  refine ⟨_, exec_eret_of_passes issues passes runs, ?_⟩
  rw [State.eretGo_of_reflects (by rwa [here]) (by rwa [here]) stays reflects, reflect, State.enterTrap_ctx_same,
    State.setCtx_ctx_same, ← supervisor, ← saved]
  rw [here] at cause x
  refine ⟨rfl, rfl, field62_addr62 _ |>.trans (by rw [here]), rfl, rfl, ?_, x, State.issued_mem ..⟩
  split_ifs at cause ⊢ <;> exact cause.imp_left (congrArg (BitVec.ofNat 5))

/-! The migration return (R380, R381, R409-R411). -/

/-- A record that is carried along enters the thread's messages, and nothing else of it (R312). -/
theorem Ctx.carried_only (k : Ctx) (r : Msg) : k.carried r = { k with
    mailbox := (k.carried r).mailbox, spawn := (k.carried r).spawn, spawnq := (k.carried r).spawnq,
    wake := (k.carried r).wake, regw := (k.carried r).regw } := by
  unfold Ctx.carried
  split_ifs <;> rfl

theorem Ctx.carriedAll_only (rs : List (Nat × Msg)) (k : Ctx) :
    let k' := rs.foldl (fun q r => q.carried r.2) k
    k' = { k with mailbox := k'.mailbox, spawn := k'.spawn, spawnq := k'.spawnq, wake := k'.wake, regw := k'.regw } := by
  induction rs generalizing k with
  | nil => rfl
  | cons r rs ih =>
    have one := Ctx.carried_only k r.2
    dsimp only at ih ⊢
    rw [List.foldl_cons, ih (k.carried r.2), one]

/-- What a thread keeps when it resumes in its destination (R380). -/
theorem Ctx.arrivedAt_same (k z : Ctx) (a b clk : Nat) : let k' := k.arrivedAt z a b clk
    k'.pc = k.pc ∧ k'.mode = k.mode ∧ k'.x = k.x ∧ k'.f = k.f ∧ k'.v = k.v ∧ k'.gang = k.gang ∧ k'.run = .running ∧
    k'.resv = none := by
  unfold Ctx.arrivedAt
  dsimp only
  rw [Ctx.switchedIn_only]
  exact ⟨rfl, rfl, rfl, rfl, rfl, rfl, rfl, rfl⟩

theorem State.repartner_cores (s : State) (c d : CtxId) : (s.repartner c d).cores = s.cores := by
  unfold State.repartner
  split <;> rfl

/-- The array has the thread as its owner (R405, R407). -/
theorem State.moveArray_mown (s : State) (c d : CtxId) :
    ((s.moveArray c d).core (coreOf d)).mown = BitVec.ofNat 3 (slotOf d) := by
  simp only [State.moveArray, State.modCore_core_same]

section
variable {s : State} {c d : CtxId}

/-- Once its panes and its array are moved, the thread enters its destination with its records and leaves its context (R409,
R410). -/
theorem State.migrate_eq : ∃ (u : State) (rs : List (Nat × Msg)), s.migrate c d =
    (u.setCtx c ((s.ctx c).vacated (s.returnedCtx c) (s.ctx d))).setCtx d
      ((rs.foldl (fun q r => q.carried r.2) (s.returnedCtx c)).arrivedAt (s.ctx d) (physLanes (coreOf c)) (physLanes (coreOf d))
        u.clk) ∧ (s.ownsArray c = true → (u.core (coreOf d)).mown = BitVec.ofNat 3 (slotOf d)) := by
  unfold State.migrate
  refine ⟨_, _, rfl, fun owns => ?_⟩
  simp only [State.core, State.repartner_cores, if_pos owns]
  exact State.moveArray_mown ..

end

theorem migrationReturns : MigrationReturns := by
  intro s u d issues c s1 passes runs named performed target leaves other
  have mode := State.mode_of_migTarget target
  have bank : (u.ctx c).ownBank = (u.ctx c).mb := by rw [Ctx.ownBank, mode]; rfl
  obtain ⟨w, rs, migrate, owner⟩ := State.migrate_eq (s := u) (c := c) (d := d)
  obtain ⟨pc', mode', x', f', v', gang', run', resv'⟩ := Ctx.arrivedAt_same
    (rs.foldl (fun q r => q.carried r.2) (u.returnedCtx c)) (u.ctx d) (physLanes (coreOf c)) (physLanes (coreOf d)) w.clk
  obtain ⟨x, f, v, -, gang, -⟩ := State.returnedCtx_same u c
  refine ⟨_, exec_eret_of_passes issues passes runs, ?_⟩
  rw [State.eretGo_of_migrates named performed target leaves, migrate, State.setCtx_ctx_same,
    State.setCtx_ctx_other _ _ _ _ other.symm, State.setCtx_ctx_same, pc', mode', x', f', v', gang', Ctx.carriedAll_only, ← bank]
  refine ⟨rfl, rfl, x, f, v, gang, run', resv', rfl, rfl, rfl, rfl, rfl, fun owns => ?_⟩
  rw [State.setCtx_core, State.setCtx_core, owner owns]
  exact Nat.mod_eq_of_lt (Nat.mod_lt _ (by decide))

theorem returnClaims : ReturnClaims := by
  refine ⟨?plain, migrationReturns, reflectedReturns,
    forbiddenWhen_of_issueIf (fun _ => rfl) fun s barred => decide_eq_true (State.eretTrap_of_barred barred)⟩
  intro s issues b mode lower slot world domain runs inside going stays unserved
  have passes : s.eretTrap s.cur = none := State.eretTrap_of_passes (Ctx.not_eretBarred mode lower slot) world domain
  obtain ⟨t, returns, there, mem⟩ := exec_eret_plain issues passes runs inside going stays unserved
  obtain ⟨x, f, v, fstat, -⟩ := State.returnedCtx_same s s.cur
  have bank : (t.ctx s.cur).bank s.here.mode =
      { b with ae := b.pae, pfxWord := if b.pfxV then 0 else b.pfxWord, pfxV := false } := by
    rw [there]
    exact State.returnedCtx_bank s s.cur
  refine ⟨t, returns, ?_⟩
  rw [bank, there]
  exact ⟨rfl, rfl, rfl, rfl, rfl, rfl, rfl, rfl, rfl, rfl, x, f, v, fstat, mem⟩

end Sys2Proof.Machine

/-! The statements of spec/16_traps_preemption_context.md. -/

namespace Sys2Proof.Proofs

open Sys2Proof.Machine

/-- Settles O46: a trap entry as one function of the context, whose bank is what it saves and which keeps every other field; the
taking mode by the higher of two modes. -/
theorem trapEntry : Obligations.TrapEntry := ⟨trapEntryClaims, takingModeClaims⟩

/-- Settles O47: the pending causes as a choice of the first that may interrupt, and the one that is taken by the entry of its
trap. -/
theorem asyncTraps : Obligations.AsyncTraps := ⟨pendingClaims, asyncTrapClaims⟩

/-- Settles O33: ERET by what it does when its checks have passed, which is a return, a migration or the reflection, and each by the
context that it leaves. -/
theorem trapReturn : Obligations.TrapReturn := returnClaims

end Sys2Proof.Proofs
